-- ==== Sys2Proof/Word.lean ====
section
/-!
DEFINITION. The word types of the block: a register word of 32 bits (R4), a byte, a host address.
-/

namespace Sys2Proof

/-- A register word: 32 bits (R4). -/
abbrev Word := BitVec 32

/-- A byte of memory. -/
abbrev Byte := BitVec 8

end Sys2Proof
end

