-- ==== Sys2Proof/Machine/Sparse.lean ====
section
/-!
DEFINITION. Sparse stores in one canonical form: a list of (key, value) with rising keys that lists no key whose value is
what an unlisted key reads as. Registers, staging memory and flash are held so; equal stores are equal lists.
-/

namespace Sys2Proof

/-- A store: listed keys with their values. -/
abbrev Sparse (α : Type) := List (Nat × α)

namespace Sparse

/-- The value at a key; `d` gives what an unlisted key reads as. -/
def get {α : Type} (d : Nat → α) : Sparse α → Nat → α
  | [], k => d k
  | (a, v) :: t, k => if a = k then v else get d t k

/-- Take a key out of the store: it then reads as unlisted. -/
def erase {α : Type} (k : Nat) : Sparse α → Sparse α
  | [] => []
  | (a, v) :: t => if a = k then erase k t else (a, v) :: erase k t

/-- Put a key into the store at its place in rising order. -/
def insert {α : Type} (k : Nat) (x : α) : Sparse α → Sparse α
  | [] => [(k, x)]
  | (a, v) :: t =>
    if a < k then (a, v) :: insert k x t
    else if a = k then (k, x) :: t
    else (k, x) :: (a, v) :: t

/-- Write a value: a value equal to what an unlisted key reads as is not listed. -/
def set {α : Type} [DecidableEq α] (d : Nat → α) (m : Sparse α) (k : Nat) (x : α) : Sparse α :=
  if x = d k then erase k m else insert k x m

/-- Write values at consecutive keys. -/
def setMany {α : Type} [DecidableEq α] (d : Nat → α) (m : Sparse α) (k : Nat) : List α → Sparse α
  | [] => m
  | x :: t => setMany d (set d m k x) (k + 1) t

/-- Read values at consecutive keys. -/
def getMany {α : Type} (d : Nat → α) (m : Sparse α) (k : Nat) : Nat → List α
  | 0 => []
  | n + 1 => get d m k :: getMany d m (k + 1) n

/-- Every key of the store is above `k`. -/
def allAbove {α : Type} (k : Nat) : Sparse α → Bool
  | [] => true
  | (a, _) :: t => decide (k < a) && allAbove k t

/-- The canonical form. -/
def wf {α : Type} [DecidableEq α] (d : Nat → α) : Sparse α → Bool
  | [] => true
  | (a, v) :: t => decide (v ≠ d a) && allAbove a t && wf d t

end Sparse

end Sys2Proof
end

