-- ==== Sys2Proof/Machine/Mirrored.lean ====
section
/-!
DEFINITION. State of the engine that a windward also sends to its leeward as it stands (R365): frames and pages, documents, tracker windows,
swaps, changes of exposure, the page-geometry detector, calibration values and records.
-/

namespace Sys2Proof.Machine

/-- A frame fixed but not yet open (R124 to R127): its first kept index, its last where known, the feed pattern, whether its first line abandoned a gap
calibration (R125). -/
structure Frame where
  first : Nat
  last : Option Nat
  pattern : Nat
  overlap : Bool
  deriving DecidableEq, Repr

/-- A page from its opening to its PAGE_END: number, first index, last index, whether closed; the flags of R154 that it brings itself; geometry block when
complete; the streams that deliver it (R133). -/
structure Page where
  no : Nat
  first : Nat
  last : Option Nat
  closed : Bool
  trunc : Bool
  incomplete : Bool
  refeed : Bool
  takeover : Bool
  overlap : Bool
  geometry : Option (List Byte)
  streams : List Nat
  deriving DecidableEq, Repr

/-- The frames of a side (R124 to R127): those fixed and not yet open, the frame open (its last index once known), its lines, pages waiting
for PAGE_END, oldest first; whether a Squall ended the kept lines (R187). -/
structure FrameSt where
  fixed : List Frame
  cur : Option Frame
  lines : Nat
  pages : List Page
  squall : Bool
  deriving DecidableEq, Repr

/-- A document window of a row (R99): first and last kept index; none: the document is still in view. -/
structure DocWin where
  side : Nat
  row : Nat
  first : Int
  last : Option Int
  deriving DecidableEq, Repr

/-- A swap accepted (R109, R111): its command, mask, named index and start index, fade length, BANK_SWAPPED emitted. -/
structure SwapSt where
  hseq : Nat
  tag : Nat
  mask : Nat
  n0 : Nat
  len : Nat
  begun : Bool
  deriving DecidableEq, Repr

/-- A change of exposure waiting for its effective index (R45, R46). -/
structure ExpChange where
  rows : Nat
  exp : Nat
  index : Nat
  deriving DecidableEq, Repr

/-- A document in flight (R184, R185): its DOC pattern, bytes of its frames already committed, sides whose frame has yet to close, the pages its frames
have become (side, PAGE_NO). -/
structure Doc where
  pattern : Nat
  bytes : Nat
  sides : List Nat
  pages : List (Nat × Nat)
  deriving DecidableEq, Repr

/-- Calibration values of a channel that a record holds (R91): slice targets and backing references. -/
structure ChCal where
  sliceZero : Nat
  sliceSpan : Nat
  bref0 : Nat
  bref1 : Nat
  deriving DecidableEq, Repr

/-- A calibration record as R91 lays it out, by its fields: generation, flags, serials, reference corrections, temperatures, levels,
targets, VCALREF, per channel (OFS, GAIN, values), coefficient words where they differ from the factory word. -/
structure CalRecord where
  flags : Nat
  generation : Nat
  serials : List Nat
  refCorr : List Int
  tempAfe : List Nat
  tempRtd : List Nat
  levels : List Nat
  targets : List Nat
  vcalrefUv : Nat
  channels : List (Int × Int × ChCal)
  coeffs : Sparse Word
  deriving DecidableEq, Repr

/-- A used line of a document (R149, R152): aligned index, its cells, and where it is a document line its left and right edge in pixels. -/
structure GeoLine where
  y : Nat
  cells : List Bool
  edges : Option (Rat × Rat)
  deriving DecidableEq, Repr

/-- A document the detector follows or has found (R150, R152): n_le, n_te once decided, its used lines, whether a gap calibration was
abandoned for it, whether it belongs to a frame. -/
structure GeoDoc where
  nle : Nat
  nte : Option Nat
  lines : List GeoLine
  overlap : Bool
  framed : Bool
  deriving DecidableEq, Repr

/-- The page-geometry detector of a side (R147 to R156): cells, backing level, learning lines taken and the sum of their cell values; document
lines and other lines in a row, the document a run of document lines may begin, documents found, oldest first (the last one in
view where it has no n_te); pages under computation with their frames' first and last line and B at the close; aligned lines at or
below `passTo` were seen before a takeover. -/
structure GeoSt where
  cells : List Bool
  back : Int
  learnN : Nat
  learnSum : Int
  runDoc : Nat
  runOff : Nat
  maybe : Option GeoDoc
  docs : List GeoDoc
  busy : List (Nat × Nat × Nat × Int)
  passTo : Option Nat
  deriving DecidableEq, Repr

end Sys2Proof.Machine
end

