-- ==== Sys2Proof/Syntax.lean ====
section
/-!
DEFINITION. The commands of the block: one constructor of `Instr` per row of the opcode table, with the row's operands
(an index, a value, what a measurement or the outside world supplies). The table gives no row any bits, so the operands are
the model's reading of each rule (log 11).
-/

namespace Sys2Proof

/-- Side 0 (front) or 1 (rear), R2. -/
abbrev Side := Fin 2
/-- A row of a side: 0 RED, 1 GRN, 2 BLU, 3 AUX. -/
abbrev RowIx := Fin 4
/-- A video channel CH00 to CH63. -/
abbrev Chan := Fin 64
/-- A ring: 0 CMD, 1 EVT, 2 MET, 3 + n STRn (R236). -/
abbrev RingIx := Fin 19
/-- A stream STR0 to STR15. -/
abbrev StreamIx := Fin 16
/-- A DMA channel: 0 to 15 the streams, 16 the command channel (R273). -/
abbrev ChannelIx := Fin 17
/-- A port arbiter, 0 to 15 (R198). -/
abbrev PortIx := Fin 16

/-- What a host entry carries beside its parameters (R260): HSEQ, TAG, and whether every reserved byte is 0. -/
structure CmdHdr where
  hseq : Word
  tag : BitVec 64
  reservedZero : Bool
  deriving DecidableEq, Repr

/-- How a read the engine issued ended, where it ended in an error (R242, R280). -/
inductive ReadErr where
  | ur | ca | poisoned | timeout
  deriving DecidableEq, Repr

/-- A space of the function in which the host accesses registers (R227, R233, R238): BAR0; BAR2 with doorbells, MSI-X table and PBA; configuration space. -/
inductive HostSpace where
  | bar0 | bar2 | config
  deriving DecidableEq, Repr

/-- A place in one of those spaces. -/
structure HostAddr where
  space : HostSpace
  off : BitVec 20
  deriving DecidableEq, Repr

/-- A word written through the section's service port, and the W1C bits that hardware sets in the same cycle (R7, R315). -/
structure PortWord where
  value : Word
  hwSet : Word
  deriving DecidableEq, Repr

/-- An error condition received on the link, by the rows of R232. -/
inductive AerKind where
  /-- Receiver Error, Bad TLP, Bad DLLP, REPLAY_NUM Rollover, Replay Timer Timeout, in this order -/
  | correctable (k : Fin 5)
  /-- Poisoned TLP received, as a write to BAR0 or BAR2 -/
  | poisonedBar02
  /-- Poisoned TLP received, as a write to BAR4 -/
  | poisonedBar4
  /-- Poisoned completion, UR, CA or Completion Timeout of a descriptor fetch or a DMA read -/
  | completion (err : ReadErr)
  /-- Unexpected Completion -/
  | unexpectedCompletion
  /-- Malformed TLP, Receiver Overflow, Flow Control Protocol Error, Data Link Protocol Error, in this order -/
  | fatal (k : Fin 4)
  /-- ECRC Error -/
  | ecrc
  deriving DecidableEq, Repr

/-- An error on the link with the header of the TLP in error, where there is one (R232). -/
structure AerReport where
  kind : AerKind
  header : Option (List Word)
  deriving DecidableEq, Repr

/-- A pixel period at a channel's input: the differential input in nanovolts at the two sample points SHD and SHR (R52), and whether the front end's
overload comparator trips: for an input above the range (true) or below it (R63). -/
structure VideoSample where
  shd : Int
  shr : Int
  trip : Option Bool
  deriving DecidableEq, Repr

/-- One channel's readout at its input (log 13): 16 optical-black and ACTIVE pixel periods (R62), and whether the pair is open (R400). -/
structure VideoLine where
  black : List VideoSample
  active : List VideoSample
  openPair : Bool
  deriving DecidableEq, Repr

/-- A side's readout: the reference voltage in µV against which it is converted (R65), and the lines of its enabled channels. -/
structure Video where
  vref : Nat
  lines : List VideoLine
  deriving DecidableEq, Repr

/-- What the boot of R350 finds: which firmware slots pass, the version of the image loaded, which AFE dies are present,
whether the section answers, whether engine flash reads, the QDR dies that fail their test (R193) and where, and
whether the peer asserts PAIR_OWN (R360). -/
structure BootFindings where
  major : Byte
  minor : Byte
  build : Byte
  afePresent : List Bool
  sectionAnswers : Bool
  flashReadable : Bool
  dieFails : List (Fin 8 × Nat)
  peerOwn : Bool
  deriving DecidableEq, Repr

/-- The three corrections a background slice calibration finds (R57): offset in 1/16 LSB, gain in ppm, skew in steps of 25 fs. -/
structure SliceCorr where
  offset : Int
  gain : Int
  skew : Int
  deriving DecidableEq, Repr

/-- One item of mirrored state as the windward sends it (R365). -/
inductive MirrorItem where
  /-- a bulk copy begins: every mirrored register is at its reset word and the shadow is empty until further items say otherwise -/
  | fresh
  /-- a set-up register, a trim, a bank state, a LUT knot, a resampler tap or a coefficient word, at its BAR0 offset -/
  | reg (off : BitVec 20) (value : Word)
  /-- a register of the UHP block, histories and indices included, held in the shadow -/
  | host (off : BitVec 20) (value : Word)
  /-- LAST_DSEQ, SEQ_HEAD, HEARTBEAT -/
  | sequence (dseq head beat : Nat)
  /-- a cached descriptor of a stream ring -/
  | cached (ring : RingIx) (idx hseq addr len tag : Nat) (pageBreak : Bool)
  /-- a line written into a cached buffer: its index and its page -/
  | written (ring : RingIx) (idx index page : Nat)
  /-- the oldest cached descriptor of a ring has its final completion -/
  | finished (ring : RingIx)
  /-- a consumed command without CMD_DONE -/
  | opened (hseq tag code : Nat)
  /-- its CMD_DONE -/
  | done (hseq : Nat)
  /-- position: mode, job, count of EN0, position, origin, next kept index, highest kept pitch number, pacer causes, v_ovr -/
  | position (mode : Nat) (job : Bool) (jobId : Nat) (count pos base : Int) (kept : Nat) (highest : Option Int) (causes vovr : Nat)
  /-- device time -/
  | time (t : Nat)
  /-- documents to feed with their patterns, documents in flight, the speed they keep -/
  | feeding (pend : Nat) (patterns : List (Nat × Nat)) (flight : List Machine.Doc) (speed : Nat)
  /-- frames and pages of a side, as they stood before an aligned line -/
  | frames (side : Side) (x : Machine.FrameSt) (aligned : Nat)
  /-- the page-geometry detector of a side -/
  | detector (side : Side) (x : Machine.GeoSt)
  /-- tracker windows -/
  | windows (l : List Machine.DocWin)
  /-- the fade in progress and the queued swap -/
  | swaps (fade queued : Option Machine.SwapSt)
  /-- pending changes of exposure of a side, its exposure generation -/
  | exposures (side : Side) (l : List Machine.ExpChange) (expgen : Nat)
  /-- a stream: whether it runs, its last confirmed line -/
  | progress (n : StreamIx) (running : Bool) (conf : Option (Nat × Nat × Nat))
  /-- a gap calibration request with its causes and deferrals, or its end -/
  | gapRequest (pend : Bool) (cause deferrals : Nat)
  /-- slice targets and backing references of a channel -/
  | slices (c : Chan) (v : Machine.ChCal)
  /-- a calibration record written by the windward -/
  | calRecord (r : Machine.CalRecord)
  /-- the highest acknowledged MSEQ -/
  | mseq (n : Nat)
  deriving DecidableEq, Repr

/-- What a pair link frame carries (R359, R360, R362 to R366, R310). The spec gives no byte layout (log 11). -/
inductive PairBody where
  | heartbeat
  | hello (versions : Nat) (pref : Bool) (serial fw : Nat)
  | ack (frame : Nat)
  | delta (items : List MirrorItem)
  | bulkDone
  | peerRecord (record : List Byte)
  deriving DecidableEq, Repr

/-- A pair link frame as received: its number, whether its CRC-32C holds, what it carries (R362). -/
structure PairFrame where
  number : Nat
  crcOk : Bool
  body : PairBody
  deriving DecidableEq, Repr

/-- The commands, one constructor per row of spec/opcode_table.json. -/
inductive Instr where
  -- host commands (12_commands_events.md)
  | nop (h : CmdHdr)
  | jobOpen (h : CmdHdr) (jobId : Word) (run : Bool)
  | jobClose (h : CmdHdr)
  | feed (h : CmdHdr) (count : BitVec 16) (pattern : Byte)
  | hold (h : CmdHdr) (kind : Byte)
  | resume (h : CmdHdr)
  | stop (h : CmdHdr)
  | squall (h : CmdHdr)
  | streamStart (h : CmdHdr) (stream : Byte)
  | streamStop (h : CmdHdr) (stream : Byte) (whn : Byte)
  | streamReplay (h : CmdHdr) (stream : Byte)
  | loadBank (h : CmdHdr) (addr : BitVec 64) (first count bank : Byte)
  | swapBank (h : CmdHdr) (mask : BitVec 64) (index : BitVec 48) (fade : Byte)
  | calibrateGap (h : CmdHdr)
  | calibrateFullTarget (h : CmdHdr)
  | calibrateFullBacking (h : CmdHdr)
  | setExposure (h : CmdHdr) (side rows : Byte) (exp : Word) (index : BitVec 48)
  | mark (h : CmdHdr) (index : BitVec 48)
  | fill (h : CmdHdr) (addr : BitVec 64) (length pattern : Word) (width : Byte)
  | compare (h : CmdHdr) (addr : BitVec 64) (sa length : Word)
  | metQuery (h : CmdHdr) (query : Byte) (arg : Word)
  | takeover (h : CmdHdr)
  | release (h : CmdHdr)
  | statusSync (h : CmdHdr)
  | mode (h : CmdHdr) (target : Byte)
  -- queries written to MET_Q_CTRL
  | queryIdent
  | queryPubkey
  | queryRecord (mseq : Word)
  | queryLabel (label : Word)
  | queryTemps
  | queryTimeout
  -- resets asked for by a register or a pin
  | softReset (value : Word)
  | rstN
  -- BAR0 reads with an effect of their own
  | sysTimeLoRead
  | uhpSbMirrorRead
  | monResultRead (m : Fin 16)
  | metRec0Read
  | metRec31Read
  | rcRead (addr : HostAddr) (coincident : Nat)
  | misalignedAccess (write : Bool) (off : BitVec 20) (size : Nat) (data : List Byte)
  | registerWrite (addr : HostAddr) (value : Word) (hwSet : Word)
  -- registers with a row of their own
  | sdbLoad (side : Side)
  | sdbReadDone (side : Side) (image : Option (List Byte))
  | ringEnable (r : RingIx) (value : Word)
  | ringDisable (r : RingIx) (value : Word)
  | ringRestart (r : RingIx)
  | ringStop (r : RingIx)
  | doorbellWrite (r : RingIx) (value : Word)
  | arbSnap (clr : Bool)
  | arbClr
  | rankmapWrite (p : PortIx) (value : Word)
  | rankmapBcastWrite (value : Word)
  | hwmClr
  | dmaSnap (share : Word)
  | nvmErase
  | nvmWrite
  | nvmVerify
  | nvmActivate
  | nvmOpDone (ok : Bool)
  | coefWindowWrite (off : BitVec 20) (value : Word)
  | afeCfgWrite (side : Side) (k : Fin 32) (value : Word)
  | refModeWrite (side : Side) (value : Word)
  | qdrMapReqWrite (value : Word)
  | bar4Read (addr : BitVec 27) (len : Nat)
  | bar4Write (addr : BitVec 27) (data : List (Option Byte))
  | busMasterDisable
  -- resets, boot, power
  | flr
  | perst
  | por
  | resetProper
  | engineWatchdog
  | arbWatchdogReset
  | bootComplete (f : BootFindings)
  | pfail
  | pfailRecovery
  | wake
  | wakeRailsSettled (dieFails : List (Fin 8 × Nat))
  | warmupComplete
  -- the link
  | linkUp (speed : Fin 6) (width : Fin 9)
  | linkDown
  | linkRetrain (speed : Fin 6) (width : Fin 9)
  | aerErrorReceived (err : AerReport)
  -- motion
  | encoderEdge (enc : Fin 4) (up : Bool)
  | illegalTransition (enc : Fin 4)
  | encoderIndex (enc : Fin 4)
  | diAccept (n : Fin 16) (level : Bool)
  | pacerTick
  | feedGateOpen
  | feedTimeout
  | lullRest
  | lullExitCondition
  | backtrackDone
  | ax0Rest
  | squallRest
  -- sensor timing
  | windowOpen (side : Side) (row : RowIx)
  | triggerArrival (side : Side) (bad : Nat)
  | lineStart (side : Side)
  | readoutEnd (side : Side) (video : Video)
  | flushReadout (side : Side)
  | lineOverrunHoldoff (side : Side)
  -- image path
  | tapLineArrival (ch : Chan) (poison : List Nat) (coefBad : List (Nat × Fin 2))
  | substOverdue (ch : Chan)
  | lineDefectHoldoff (ch : Chan)
  | rowLineAssembly (side : Side) (row : RowIx)
  | alignedLineReadout (side : Side) (poison : List (Fin 8))
  | monitorHoldoff (m : Fin 16)
  | guOutputLine (g : Fin 8)
  | stageLineCommit (n : StreamIx)
  | pageGeometryDone (side : Side)
  | pageEnd (side : Side)
  -- staging memory
  | stagingRequest (p : PortIx) (req : Fin 16) (addr : BitVec 27) (txns : Nat) (data : List Byte)
  | arbGrant (p : PortIx) (badParity : List Nat)
  | arbWatchdogFire (p : PortIx)
  | scrubRequest
  -- DMA and rings
  | dmaBurst (poison : Nat)
  | readbackCompletion (n : ChannelIx)
  | readbackError (n : ChannelIx) (kind : ReadErr)
  | fastCompletionAck (n : StreamIx)
  | descriptorFetch (r : RingIx)
  | fetchError (r : RingIx) (received : List Byte) (kind : ReadErr)
  | commandConsume
  | evtRingWrite
  | metRingWrite
  | statusBlockWrite
  | heartbeat
  | msixMessage (v : Fin 32)
  -- calibration and converters
  | tempCompare (t0 t1 : BitVec 16)
  | gapCalCompute
  | targetPhaseDone (vcalref : List Int)
  | calRecordWriteDone (result : Fin 3)
  | sliceRotation (side : Side)
  | spareCalDone (ch : Chan) (corr : Option SliceCorr)
  | conversionStart (side : Side)
  | refTimeout (side : Side)
  | refFault (side : Side)
  | ledPowerMonitor (averageMw : Nat)
  | ledDriverFault (n : Fin 10) (bits : Fin 8)
  | supplyLimit (side : Side)
  -- the section
  | metInPacket
  | recordRetransmit
  | syncSend
  | sectionSilent
  | sectionRestart (watchdog : Bool)
  | sectionQuery
  | sectionAck
  | sectionSync
  | sectionPeer
  | metCmdRej
  | sectionTapLine (side : Side)
  | recordSend
  | tempPublish
  | sealOpen
  | sealClose
  | servicePortWrite (off : BitVec 16) (word : PortWord)
  | sectionFwInstall (image : List Byte)
  | keyRegeneration
  | converterOutput (nanovolts : Int) (clip : Bool) (cmMv : Int) (excBad vexBad : Bool)
  | ovpClamp (n : Fin 8) (on : Bool)
  -- the pair
  | pairHeartbeatSend (own : Bool)
  | peerHeartbeatLoss
  | pairAckTimeout
  | ownershipTimer
  | pairFrameReceive (frame : PairFrame)
  | pairRetransmit
  | mirrorAck
  | pairLinkTrained (versions : Nat) (pref : Bool) (serial fw : Nat)
  | bulkCopyDone
  | bootClaim
  | takeoverStart
  | takeoverInstall
  -- rows added at the table's end
  | internalTrigger
  | windowClose (side : Side) (row : RowIx)
  | hostReadCompletion (data : List Byte) (err : Option ReadErr)
  | fetchCompletion (r : RingIx) (data : List Byte)
  | hostTmoExpiry
  | busMasterEnable
  | perstDeassert
  | rstNRelease
  | wakeReferencesSettled
  | feFaultNoticeHoldoff (n : Fin 8)
  | thresholdStatePublish
  | sensedLineEdge (side : Side)
  | refBackInWindow (side : Side)
  | pairLinkDown
  deriving DecidableEq, Repr

end Sys2Proof
end

