-- ==== Sys2Proof/Decode.lean ====
section
/-!
DEFINITION. The command that a word of the opcode table spells. The table of this block gives no row any bits, so no word spells
a command. The host's own descriptors, which the rules lay out byte by byte, are decoded where they are consumed: commands in Machine/Commands.lean
(R260), stream descriptors in Machine/Rings.lean (R271).
-/

namespace Sys2Proof

/-- The command a word of `nbits` bits spells by the table's bits: none, since no row of the table has bits. -/
def decodeTableWord (_nbits _w : Nat) : Option Instr := none

end Sys2Proof
end

