-- ==== Sys2Proof/Machine/Bits.lean ====
section
/-!
DEFINITION. Byte order, bit fields, signed numbers and rounding: the plain helpers the meanings share. Every multi-byte
field the spec gives is little-endian (R4, R260, R267).
-/

namespace Sys2Proof

/-- The `n` bytes of a value, least significant first. -/
def leBytes : Nat → Nat → List Byte
  | 0, _ => []
  | n + 1, v => BitVec.ofNat 8 v :: leBytes n (v / 256)

/-- The value of bytes laid least significant first. -/
def fromLe : List Byte → Nat
  | [] => 0
  | b :: t => b.toNat + 256 * fromLe t

/-- The `n` bytes of a value, most significant first. -/
def beBytes (n v : Nat) : List Byte := (leBytes n v).reverse

/-- `len` bytes from offset `off` of a list; a byte past its end reads 0. -/
def sliceBytes (l : List Byte) (off len : Nat) : List Byte :=
  ((l.drop off) ++ List.replicate len 0).take len

/-- The little-endian value of `n` bytes at `off`. -/
def leAt (l : List Byte) (off n : Nat) : Nat := fromLe (sliceBytes l off n)

/-- Overwrite bytes of a list from `off` on. -/
def putBytes (l : List Byte) (off : Nat) (b : List Byte) : List Byte :=
  l.take off ++ b ++ l.drop (off + b.length)

/-- One field of a byte layout: offset, width in bytes, value. -/
abbrev LayField := Nat × Nat × Nat

/-- Bytes laid out from fields over zeros: unnamed bytes are 0. -/
def layBytes (len : Nat) (fs : List LayField) : List Byte :=
  fs.foldl (fun l f => putBytes l f.1 (leBytes f.2.1 f.2.2)) (List.replicate len 0)

/-- Whether every byte of a list outside the named (offset, length) ranges is 0. -/
def zeroOutside (l : List Byte) (ranges : List (Nat × Nat)) : Bool :=
  (l.zipIdx).all fun (b, i) => decide (b = 0) || ranges.any fun r => decide (r.1 ≤ i ∧ i < r.1 + r.2)

/-- The signed value of a `w`-bit two's complement number. -/
def toSigned (w : Nat) (v : Nat) : Int :=
  if v % 2 ^ w < 2 ^ (w - 1) then (v % 2 ^ w : Int) else (v % 2 ^ w : Int) - 2 ^ w

/-- The `w`-bit two's complement form of an integer. -/
def ofSigned (w : Nat) (i : Int) : Nat := (i % (2 ^ w : Int)).toNat

/-- Limit a natural number to a range. -/
def clampNat (lo hi v : Nat) : Nat := max lo (min hi v)

/-- Limit an integer to a range. -/
def clampInt (lo hi v : Int) : Int := max lo (min hi v)

/-- A counter that saturates. -/
def satAdd (limit a b : Nat) : Nat := min limit (a + b)

/-- Whether bit `i` of a number is 1. -/
def bitOf (v i : Nat) : Bool := (v / 2 ^ i) % 2 = 1

/-- The number with bit `i` set to a value. -/
def setBit (v i : Nat) (b : Bool) : Nat :=
  v - (if bitOf v i then 2 ^ i else 0) + (if b then 2 ^ i else 0)

/-- 1 for true. -/
def b2n (b : Bool) : Nat := if b then 1 else 0

/-- Round a quotient of integers to nearest, halves upward. -/
def divNearest (a b : Int) : Int := Int.fdiv (2 * a + b) (2 * b)

/-- Round a quotient to nearest, halves away from zero. -/
def divAway (a b : Int) : Int :=
  if 0 ≤ a then Int.fdiv (2 * a + b) (2 * b) else - (Int.fdiv (2 * (-a) + b) (2 * b))

/-- Round a quotient upward. -/
def divCeil (a b : Int) : Int := - (Int.fdiv (-a) b)

/-- The mean of a list of numbers rounded to nearest with halves upward; 0 of none. -/
def sumInt (l : List Int) : Int := l.foldl (· + ·) 0

/-- The sum of natural numbers. -/
def sumNat (l : List Nat) : Nat := l.foldl (· + ·) 0

/-- The largest of a list; 0 of none. -/
def maxOf (l : List Nat) : Nat := l.foldl max 0

/-- The numbers 0 to n − 1. -/
def upTo (n : Nat) : List Nat := List.range n

/-- Replace the element at a place by a function of it; a place past the end changes nothing. -/
def modAt {α : Type} (l : List α) (i : Nat) (f : α → α) : List α := l.modify i f

/-- The remainders of positions counted modulo `n`: how far `b` lies ahead of `a`. -/
def ahead (n a b : Nat) : Nat := (b + n - a % n) % n

end Sys2Proof
end

