-- ==== Sys2Proof/Machine/Num.lean ====
section
/-!
DEFINITION. Square roots and powers for the few rules that need them, computed in integers. Where a rule gives a real number, the model
computes it exactly or rounds as the rule says (log 17, log 19).
-/

namespace Sys2Proof

/-- The integer square root by bits from `b` down: `r` is what is known of it. -/
def isqrtFrom (n : Nat) : Nat → Nat → Nat
  | 0, r => r
  | b + 1, r => let c := r + 2 ^ b; isqrtFrom n b (if c * c ≤ n then c else r)

/-- The integer square root, rounded down, of a number below 2^256. -/
def isqrt (n : Nat) : Nat := isqrtFrom n 128 0

/-- The square root of a rational, rounded down to a multiple of 1/1,000. -/
def sqrtMilli (x : Rat) : Rat := (isqrt ((x * 1000000).floor.toNat) : Rat) / 1000

/-- The floor of a rational as a natural number; 0 below 0. -/
def ratNat (x : Rat) : Nat := x.floor.toNat

/-- A rational rounded to nearest, halves away from zero. -/
def ratAway (x : Rat) : Int := if 0 ≤ x then (x + 1 / 2).floor else - ((-x + 1 / 2).floor)

/-- A rational rounded to nearest, halves upward. -/
def ratNear (x : Rat) : Int := (x + 1 / 2).floor

/-- A rational rounded upward. -/
def ratCeil (x : Rat) : Int := x.ceil

/-- The smaller of two rationals. -/
def ratMin (a b : Rat) : Rat := if a ≤ b then a else b

/-- The larger of two rationals. -/
def ratMax (a b : Rat) : Rat := if a ≤ b then b else a

/-- One term after another of Euler's series for the arctangent, in units of 10⁻¹⁵: `t` is the term, `u` is x² / (1 + x²) in the same units. -/
def atanTerms (u : Int) : Nat → Nat → Int → Int
  | 0, _, _ => 0
  | n + 1, k, t => t + atanTerms u n (k + 1) (Int.fdiv (t * u * (2 * k)) (1000000000000000 * (2 * k + 1)))

/-- The arctangent in 10⁻¹⁵ radian of a number of magnitude at most 1. -/
def atanSmall (x : Rat) : Int :=
  let d := 1 + x * x
  atanTerms (x * x / d * 1000000000000000).floor 60 1 (x / d * 1000000000000000).floor

/-- The arctangent in 10⁻¹⁵ radian (log 19). -/
def atanFix (x : Rat) : Int :=
  let quarter : Int := 1570796326794897
  if x < -1 then - quarter - atanSmall (1 / x) else if 1 < x then quarter - atanSmall (1 / x) else atanSmall x

/-- The nearest integer k to 16 √q, halves upward (R160). -/
def sqrt16 (q : Rat) : Nat := (isqrt (ratNat (1024 * q)) + 1) / 2

end Sys2Proof
end

