-- ==== Sys2Proof/Config.lean ====
section
/-!
DEFINITION. What the spec leaves open or an implementation fixes: the free values. Each is an opaque constant, so nothing can be
proved of its value; it is applied to a counter that State holds, or to the data it depends on.
-/

namespace Sys2Proof.Config

/-- A fresh value the spec does not state: the n-th one the machine took (log 1). -/
opaque freeValue : Nat → Nat

/-- Whether a firmware image, the bytes of its slot, passes the header and signature check of R350: the image format and
the verifying key are Esovoell's and not in the spec (log 14). -/
opaque imageOk : List (Nat × Byte) → Bool

/-- Whether a section firmware image passes the signature check of R307 (log 14). -/
opaque sectionImageOk : List Byte → Bool

/-- The version word of a section firmware image: the image format is not in the spec (log 14). -/
opaque sectionImageVersion : List Byte → Nat

/-- The private key of the section after the n-th generation of a key pair (log 15). -/
opaque sectionKey : Nat → Nat

/-- A fresh value of the section that the spec does not state: the n-th one it took (log 1). -/
opaque sectionFree : Nat → Nat

/-- What the module measures of a quantity (0 VIN, 1 input power, 2 die temperature, 3 base plate temperature) in the n-th millisecond of device time: the
outside world's (log 161). -/
opaque measured : Nat → Nat → Nat

/-- Used lines in a row without a document value that confirm a piece's trailing edge in the section, at least one: the spec gives no number (R303, log 36). -/
opaque sectionConfirm : Nat

/-- Esovoell's PCI-SIG vendor ID (R227): the spec does not state it. -/
opaque pciVendor : Nat

/-- The revision ID, the engine's silicon revision (R227): the spec does not state it. -/
opaque siliconRevision : Nat

/-- The nominal slice targets of R93, zero and span: the spec gives no values (log 62). -/
opaque nominalZero : Nat
/-- The nominal span target. -/
opaque nominalSpan : Nat

/-- What a binary32 word that is no number stands for in the section's arithmetic: the spec does not say (log 32). -/
opaque notNumber : Nat → Rat

/-- The tap lines MTAP0 and MTAP1 hold: the spec gives no depth (log 33). -/
opaque tapDepth : Nat

end Sys2Proof.Config
end

