-- ==== Sys2Proof/Machine/RegMap.lean ====
section
/-!
DEFINITION. The register map: every register of BAR0 and of the section's own map, with the fields, access codes and
reset words its owning chapter gives (18_register_index.md lists them; R6 gives the access codes). `R.<REGISTER>.<FIELD>`
names one field; an indexed register takes its indices as arguments. The section's map of R315 stands at the model's own
base 0x200000, which no BAR0 offset reaches.
-/

namespace Sys2Proof

/-- The access codes of R6. -/
inductive Access where
  | rw | ro | wo | w1c | w1s | rc | rwl
  deriving DecidableEq, Repr

/-- What a field stores for a written value, where its own table states a storage rule. -/
inductive Norm where
  /-- stored as written -/
  | asWritten
  /-- stored as the nearest value in range -/
  | clamp (lo hi : Nat)
  | atLeast (lo : Nat)
  | atMost (hi : Nat)
  /-- 0 is stored as the value given -/
  | zeroTo (v : Nat)
  /-- ARBp_CTRL.SLOT_LEN: 0 and values above 32 are stored as 32 (R192) -/
  | slotLen
  /-- ARBp_SLOTw.OWNj: 5 to 7 are stored as 4 (R192) -/
  | ownerFree
  /-- PAIR_CTRL.PLMAX: 0 and 3 are stored as 2 (R361) -/
  | plMax
  deriving DecidableEq, Repr

/-- One field of a register table. -/
structure FieldSpec where
  name : String
  hi : Nat
  lo : Nat
  access : Access
  norm : Norm
  deriving DecidableEq, Repr

/-- One register, or one family of registers: its first offset, the stride and count of each index, the reset word. -/
structure RegSpec where
  name : String
  base : Nat
  dims : List (Nat × Nat)
  resetNat : Nat
  fields : List FieldSpec
  deriving DecidableEq, Repr

/-- The place of a field: register offset and bit range. -/
structure Fld where
  off : Nat
  hi : Nat
  lo : Nat
  deriving DecidableEq, Repr

namespace RegMap

/-- A field stored as written. -/
abbrev f (n : String) (hi lo : Nat) (a : Access) : FieldSpec := ⟨n, hi, lo, a, .asWritten⟩
/-- A field with a storage rule. -/
abbrev fn (n : String) (hi lo : Nat) (a : Access) (m : Norm) : FieldSpec := ⟨n, hi, lo, a, m⟩

/-- SYS: 16_modes_resets_power.md R339. -/
def sysRegsA : List RegSpec := [
  ⟨"SYS_ID", 0x0, [], 0x64080000, [f "DEVICE" 31 16 .ro, f "REV" 15 8 .ro]⟩,
  ⟨"SYS_SERIAL_LO", 0x4, [], 0x0, [f "V" 31 0 .ro]⟩,
  ⟨"SYS_SERIAL_HI", 0x8, [], 0x0, [f "V" 31 0 .ro]⟩,
  ⟨"SYS_MODE", 0x10, [], 0x1, [f "BUSY" 31 31 .ro, f "TARGET" 27 24 .ro, f "MODE" 3 0 .ro]⟩,
  ⟨"SYS_CTRL", 0x14, [], 0x0, [f "WAKE_EN" 31 31 .rw, f "WAKE_TGT" 30 30 .rw]⟩,
  ⟨"SYS_RESET", 0x18, [], 0x0, [f "KEY" 31 16 .wo, f "SOFT" 0 0 .wo]⟩,
  ⟨"SYS_RESET_CAUSE", 0x1C, [], 0x1, [f "RST_N" 8 8 .ro, f "PFAIL" 7 7 .ro, f "TAKEOVER" 6 6 .ro, f "WDOG_ARB" 5 5 .ro, f "WDOG_ENG" 4 4 .ro, f "SOFT" 3 3 .ro, f "FLR" 2 2 .ro, f "PERST" 1 1 .ro, f "POR" 0 0 .ro]⟩,
  ⟨"SYS_WRITE_IGNORED", 0x20, [], 0x0, [f "FLAG" 31 31 .w1c, f "OFFSET" 19 0 .ro]⟩,
  ⟨"SYS_UNITS", 0x24, [], 0x0, [f "QDR" 7 4 .ro, f "FLASH" 3 3 .ro, f "SECTION" 2 2 .ro, f "AFE1" 1 1 .ro, f "AFE0" 0 0 .ro]⟩,
  ⟨"SYS_FW", 0x28, [], 0x0, [f "SLOT" 31 31 .ro, f "FALLBACK" 30 30 .ro, f "RECOVERY" 29 29 .ro, f "MAJOR" 23 16 .ro, f "MINOR" 15 8 .ro, f "BUILD" 7 0 .ro]⟩,
  ⟨"SYS_FW_PREF", 0x2C, [], 0x0, [f "V" 0 0 .rwl]⟩,
  ⟨"SYS_WDOG", 0x30, [], 0xFA, [f "V" 12 0 .rwl]⟩]
/-- SYS, continued. -/
def sysRegsB : List RegSpec := [
  ⟨"SYS_VIN", 0x34, [], 0x0, [f "V" 15 0 .ro]⟩,
  ⟨"SYS_PIN", 0x38, [], 0x0, [f "PFAIL_OUT" 31 31 .ro, f "V" 15 0 .ro]⟩,
  ⟨"SYS_TEMP", 0x3C, [], 0x0, [f "V" 15 0 .ro]⟩,
  ⟨"SYS_TBASE", 0x40, [], 0x0, [f "V" 15 0 .ro]⟩,
  ⟨"SYS_TIME_LO", 0x48, [], 0x0, [f "V" 31 0 .ro]⟩,
  ⟨"SYS_TIME_HI", 0x4C, [], 0x0, [f "V" 31 0 .ro]⟩,
  ⟨"SYS_PFAIL_CNT", 0x50, [], 0x0, [f "V" 31 0 .ro]⟩]
/-- SYS, whole. -/
def sysRegs : List RegSpec := sysRegsA ++ sysRegsB

/-- UHP: 11_host_link_rings.md R235, 11_host_link_rings.md R246, 11_host_link_rings.md R255. -/
def uhpRegsA : List RegSpec := [
  ⟨"UHP_OFFER", 0x1000, [], 0x7, [f "VERS" 2 0 .ro]⟩,
  ⟨"UHP_SELECT", 0x1004, [], 0x0, [f "VER" 1 0 .rwl]⟩,
  ⟨"UHP_CTRL", 0x1008, [], 0xA, [f "RO_DATA" 31 31 .rw, f "HB_PERIOD" 23 16 .rw, fn "SB_INTERVAL" 9 0 .rw (.atLeast 2)]⟩,
  ⟨"UHP_STATUS", 0x100C, [], 0x0, [f "VER_ERR" 31 31 .w1c, f "DB_ERR" 30 30 .w1c, f "QUOTA_ERR" 29 29 .w1c, f "LINK_UP" 0 0 .ro]⟩,
  ⟨"UHP_LINK", 0x1010, [], 0x0, [f "DEGRADED" 31 31 .ro, f "SPEED" 19 16 .ro, f "WIDTH" 5 0 .ro]⟩,
  ⟨"UHP_STATUS_BASE_LO", 0x1020, [], 0x0, [f "ADDR" 31 8 .rwl, f "EN" 0 0 .rwl]⟩,
  ⟨"UHP_STATUS_BASE_HI", 0x1024, [], 0x0, [f "ADDR" 31 0 .rwl]⟩,
  ⟨"UHP_EPOCH", 0x1028, [], 0x1, [f "V" 31 0 .ro]⟩,
  ⟨"UHP_LAST_DSEQ", 0x102C, [], 0x0, [f "V" 31 0 .ro]⟩,
  ⟨"UHP_LOST_EVT", 0x1030, [], 0x0, [f "V" 31 0 .ro]⟩,
  ⟨"UHP_NOK_CNT", 0x1034, [], 0x0, [f "V" 31 0 .ro]⟩,
  ⟨"UHP_CACHE", 0x1038, [], 0x4000000, [f "FREE" 26 16 .ro, f "CACHED" 10 0 .ro]⟩]
/-- UHP, continued. -/
def uhpRegsB : List RegSpec := [
  ⟨"UHP_CMD_OPEN", 0x103C, [], 0x0, [f "V" 31 0 .ro]⟩,
  ⟨"UHP_R_BASE_LO", 0x1100, [(0x20, 19)], 0x0, [f "ADDR" 31 6 .rwl]⟩,
  ⟨"UHP_R_BASE_HI", 0x1104, [(0x20, 19)], 0x0, [f "V" 31 0 .rwl]⟩,
  ⟨"UHP_R_CTRL", 0x1108, [(0x20, 19)], 0x80040, [f "EN" 31 31 .rwl, f "RESTART" 30 30 .w1s, f "STOP" 29 29 .w1s, fn "LOG2" 20 16 .rwl (.clamp 4 16), f "QUOTA" 10 0 .rwl]⟩,
  ⟨"UHP_R_STATE", 0x110C, [(0x20, 19)], 0x0, [f "STATE" 31 28 .ro, f "DEV_IDX" 15 0 .ro]⟩,
  ⟨"UHP_R_SEQ", 0x1110, [(0x20, 19)], 0x0, [f "V" 31 0 .rwl]⟩,
  ⟨"UHP_R_HOSTIDX", 0x1114, [(0x20, 19)], 0x0, [f "V" 15 0 .ro]⟩,
  ⟨"UHP_R_DONE", 0x1118, [(0x20, 19)], 0x0, [f "V" 15 0 .ro]⟩,
  ⟨"UHP_R_FAULT", 0x111C, [(0x20, 19)], 0x0, [f "V" 31 0 .ro]⟩,
  ⟨"UHP_SB_MIRROR", 0x1800, [(0x4, 64)], 0x0, [f "V" 31 0 .ro]⟩,
  ⟨"UHP_VEC_MOD", 0x1A00, [(0x4, 32)], 0x0, [f "HOLDOFF" 31 16 .rw, f "COUNT" 7 0 .rw]⟩,
  ⟨"UHP_CMDH", 0x1C00, [(0x10, 32), (0x4, 4)], 0x0, [f "V" 31 0 .ro]⟩]
/-- UHP, continued. -/
def uhpRegsC : List RegSpec := [
  ⟨"UHP_NOKH", 0x1E00, [(0x10, 32), (0x4, 4)], 0x0, [f "V" 31 0 .ro]⟩]
/-- UHP, whole. -/
def uhpRegs : List RegSpec := uhpRegsA ++ uhpRegsB ++ uhpRegsC

/-- DMA: 13_dma_engine.md R272. -/
def dmaRegsA : List RegSpec := [
  ⟨"DMA_CTRL", 0x2000, [], 0x2, [f "SNAP" 31 31 .w1s, fn "CMD_SHARE" 3 0 .rw (.zeroTo 1)]⟩,
  ⟨"DMA_FAST", 0x2004, [], 0x0, [f "FAST" 15 0 .rwl]⟩,
  ⟨"DMA_STATUS", 0x2008, [], 0x0, [f "BUSY" 31 31 .ro, f "HALTED" 23 8 .ro, f "RB_OUT" 7 0 .ro]⟩,
  ⟨"DMA_BOOK_FREE", 0x2010, [], 0x0, [f "V" 31 0 .ro]⟩,
  ⟨"DMA_BOOK_FILLED", 0x2014, [], 0x0, [f "V" 31 0 .ro]⟩,
  ⟨"DMA_BOOK_INFLIGHT", 0x2018, [], 0x0, [f "V" 31 0 .ro]⟩,
  ⟨"DMA_WR_LO", 0x2020, [], 0x0, [f "V" 31 0 .ro]⟩,
  ⟨"DMA_WR_HI", 0x2024, [], 0x0, [f "V" 15 0 .ro]⟩,
  ⟨"DMA_RB_ERR_CNT", 0x2028, [], 0x0, [f "V" 31 0 .rc]⟩,
  ⟨"DMA_WITHDRAW_CNT", 0x202C, [], 0x0, [f "V" 31 0 .rc]⟩,
  ⟨"DMA_S_CONF_LO", 0x2100, [(0x10, 16)], 0x0, [f "V" 31 0 .ro]⟩,
  ⟨"DMA_S_CONF_HI", 0x2104, [(0x10, 16)], 0x0, [f "V" 15 0 .ro]⟩]
/-- DMA, continued. -/
def dmaRegsB : List RegSpec := [
  ⟨"DMA_S_HELD", 0x2108, [(0x10, 16)], 0x0, [f "V" 31 0 .ro]⟩]
/-- DMA, whole. -/
def dmaRegs : List RegSpec := dmaRegsA ++ dmaRegsB

/-- QDR: 09_qdr_arbitration.md R192. -/
def qdrRegsA : List RegSpec := [
  ⟨"QDR_CTRL", 0x3000, [], 0x800003E8, [f "SCRUB_EN" 31 31 .rw, fn "HOST_TMO" 15 0 .rw (.zeroTo 1)]⟩,
  ⟨"QDR_STATUS", 0x3004, [], 0x0, [f "HALT" 31 31 .ro, f "SCRUB_LATE" 30 30 .ro, f "FAILED" 11 8 .ro, f "MAP" 3 0 .ro]⟩,
  ⟨"QDR_MAP_REQ", 0x3008, [], 0x0, [f "OUT" 3 0 .rwl]⟩,
  ⟨"QDR_STAGE_SIZE", 0x300C, [], 0x0, [f "V" 31 0 .ro]⟩,
  ⟨"QDR_TABLES_BASE", 0x3010, [], 0x0, [f "V" 31 0 .ro]⟩,
  ⟨"QDR_SVC_BASE", 0x3014, [], 0x0, [f "V" 31 0 .ro]⟩,
  ⟨"QDR_PERR_CNT", 0x3020, [], 0x0, [f "V" 31 0 .rc]⟩,
  ⟨"QDR_PERR_ADDR", 0x3024, [], 0x0, [f "V" 26 0 .ro]⟩,
  ⟨"QDR_PERR_SRC", 0x3028, [], 0x0, [f "PORT" 7 4 .ro, f "REQ" 1 0 .ro]⟩,
  ⟨"QDR_SCRUB_ERR_CNT", 0x302C, [], 0x0, [f "V" 31 0 .rc]⟩,
  ⟨"QDR_SCRUB_PASS", 0x3030, [], 0x0, [f "V" 31 0 .ro]⟩,
  ⟨"QDR_SCRUB_LAST", 0x3034, [], 0x0, [f "V" 19 0 .ro]⟩]
/-- QDR, continued. -/
def qdrRegsB : List RegSpec := [
  ⟨"QDR_HOST_ABORT_CNT", 0x3038, [], 0x0, [f "V" 31 0 .rc]⟩,
  ⟨"QDR_HOST_DROP_CNT", 0x303C, [], 0x0, [f "V" 31 0 .rc]⟩,
  ⟨"ARB_WDOG_LIMIT", 0x3040, [], 0x1000, [f "V" 19 0 .rwl]⟩,
  ⟨"ARB_WDOG_STATUS", 0x3044, [], 0x0, [f "FIRED" 31 31 .ro, f "PORT" 11 8 .ro, f "INPUT" 5 4 .ro, f "REQ" 1 0 .ro]⟩,
  ⟨"ARB_STAT_CTRL", 0x3048, [], 0x0, [f "SNAP" 31 31 .w1s, f "CLR" 30 30 .w1s]⟩,
  ⟨"ARB_RANKMAP_BCAST", 0x304C, [], 0x0, [f "SELA" 31 31 .wo, f "SELB" 30 30 .wo, f "MAP" 7 0 .wo]⟩,
  ⟨"ARB_CTRL", 0x3100, [(0x80, 16)], 0x20, [f "MODE" 31 31 .rwl, fn "SLOT_LEN" 5 0 .rwl (.slotLen)]⟩,
  ⟨"ARB_RANKMAP", 0x3104, [(0x80, 16)], 0xE4, [f "IN3" 7 6 .rw, f "IN2" 5 4 .rw, f "IN1" 3 2 .rw, f "IN0" 1 0 .rw]⟩,
  ⟨"ARB_STATE", 0x3108, [(0x80, 16)], 0x0, [f "GRANTED" 31 31 .ro, f "MAP_ERR" 30 30 .w1c, f "OWNER" 29 28 .ro, f "TXN" 27 24 .ro, f "REQ" 19 16 .ro, f "SLOT" 4 0 .ro]⟩,
  ⟨"ARB_GRANTS", 0x3120, [(0x80, 16), (0x18, 4)], 0x0, [f "V" 31 0 .ro]⟩,
  ⟨"ARB_WAITCYC_LO", 0x3124, [(0x80, 16), (0x18, 4)], 0x0, [f "V" 31 0 .ro]⟩,
  ⟨"ARB_WAITCYC_HI", 0x3128, [(0x80, 16), (0x18, 4)], 0x0, [f "V" 15 0 .ro]⟩]
/-- QDR, continued. -/
def qdrRegsC : List RegSpec := [
  ⟨"ARB_MAXWAIT", 0x312C, [(0x80, 16), (0x18, 4)], 0x0, [f "V" 19 0 .ro]⟩,
  ⟨"ARB_PREEMPT", 0x3130, [(0x80, 16), (0x18, 4)], 0x0, [f "V" 31 0 .ro]⟩,
  ⟨"ARB_SLOT", 0x3A00, [(0x10, 16), (0x4, 4)], 0x44444444, [fn "OWN7" 30 28 .rwl (.ownerFree), fn "OWN6" 26 24 .rwl (.ownerFree), fn "OWN5" 22 20 .rwl (.ownerFree), fn "OWN4" 18 16 .rwl (.ownerFree), fn "OWN3" 14 12 .rwl (.ownerFree), fn "OWN2" 10 8 .rwl (.ownerFree), fn "OWN1" 6 4 .rwl (.ownerFree), fn "OWN0" 2 0 .rwl (.ownerFree)]⟩]
/-- QDR, whole. -/
def qdrRegs : List RegSpec := qdrRegsA ++ qdrRegsB ++ qdrRegsC

/-- QUE: 10_clock_domains_queues.md R223. -/
def queRegs : List RegSpec := [
  ⟨"QUE_CTRL", 0x4000, [], 0x0, [f "HWM_CLR" 31 31 .w1s]⟩,
  ⟨"QUE_STATUS", 0x4004, [], 0x0, [f "RES_LOST" 31 31 .w1c, f "FIRST" 6 0 .ro]⟩,
  ⟨"QUE_LOST", 0x4100, [(0x10, 104)], 0x0, [f "V" 31 0 .rc]⟩,
  ⟨"QUE_POISON", 0x4104, [(0x10, 104)], 0x0, [f "V" 31 0 .rc]⟩,
  ⟨"QUE_BAD", 0x4108, [(0x10, 104)], 0x0, [f "V" 31 0 .rc]⟩,
  ⟨"QUE_LEVEL", 0x410C, [(0x10, 104)], 0x0, [f "HWM" 31 16 .ro, f "LEVEL" 15 0 .ro]⟩]

/-- TG: 02_sensor_timing_exposure.md R30, 02_sensor_timing_exposure.md R33. -/
def tgRegsA : List RegSpec := [
  ⟨"TG_CTRL", 0x5000, [(0x1000, 2)], 0x40000, [f "EN" 31 31 .rwl, f "FLUSH" 23 16 .rwl, f "FOLLOW" 8 8 .rwl]⟩,
  ⟨"TG_STATUS", 0x5004, [(0x1000, 2)], 0x0, [f "CFG_ERR" 31 31 .ro, f "ERR_CODE" 23 16 .ro, f "BUSY" 1 1 .ro, f "HELD" 0 0 .ro]⟩,
  ⟨"TG_VCLK", 0x5008, [(0x1000, 2)], 0x1E848, [fn "FREQ_KHZ" 16 0 .rwl (.clamp 10000 125000)]⟩,
  ⟨"TG_LINE_FMT", 0x500C, [(0x1000, 2)], 0x3C00810, [f "ACTIVE" 25 16 .rwl, f "DUMMY" 11 8 .rwl, f "OVH" 5 0 .rwl]⟩,
  ⟨"TG_SAMPLE", 0x5010, [(0x1000, 2)], 0x40C0000, [f "SHR" 27 24 .rwl, f "SHD" 19 16 .rwl]⟩,
  ⟨"TG_EXP_ROW", 0x5020, [(0x1000, 2), (0x4, 4)], 0xFA0, [f "EXP" 23 0 .rwl]⟩,
  ⟨"TG_AUX_MODE", 0x5030, [(0x1000, 2)], 0x0, [f "MODE" 2 0 .rwl]⟩,
  ⟨"TG_LATE_CNT", 0x5040, [(0x1000, 2)], 0x0, [f "V" 31 0 .rc]⟩,
  ⟨"TG_OVERRUN_CNT", 0x5044, [(0x1000, 2)], 0x0, [f "V" 31 0 .rc]⟩,
  ⟨"TG_SUBST_CNT", 0x5048, [(0x1000, 2)], 0x0, [f "V" 31 0 .rc]⟩,
  ⟨"TG_OUT_CFG", 0x5100, [(0x1000, 2), (0x8, 16)], 0x40080000, [f "EN" 31 31 .rwl, f "LVDS" 30 30 .rwl, f "INV" 29 29 .rwl, f "FUNC" 26 24 .rwl, f "RISE" 23 20 .rwl, f "FALL" 19 16 .rwl, f "ROW" 13 12 .rwl, f "GATE" 9 8 .rwl]⟩,
  ⟨"TG_OUT_LINE", 0x5104, [(0x1000, 2), (0x8, 16)], 0x10, [f "START" 31 16 .rwl, f "WIDTH" 15 0 .rwl]⟩]
/-- TG, continued. -/
def tgRegsB : List RegSpec := [
  ⟨"TG_CHMAP", 0x5200, [(0x1000, 2), (0x4, 32)], 0x80000000, [f "EN" 31 31 .rwl, f "SIDE" 28 28 .ro, f "ROW" 25 24 .rwl, f "TAP" 18 16 .rwl, f "DIR" 15 15 .rwl, f "SKEW" 11 8 .rwl]⟩,
  ⟨"SDB_CTRL", 0x5300, [(0x1000, 2)], 0x50, [f "LOAD" 31 31 .w1s, f "POLICY" 9 8 .rwl, f "FAST" 7 7 .rwl, f "ADDR" 6 0 .rwl]⟩,
  ⟨"SDB_STATUS", 0x5304, [(0x1000, 2)], 0x0, [f "PRESENT" 31 31 .ro, f "VALID" 30 30 .ro, f "APPLIED" 29 29 .ro, f "VER_MAJOR" 23 16 .ro, f "VER_MINOR" 15 8 .ro, f "ERR" 3 0 .ro]⟩,
  ⟨"SDB_SERIAL_LO", 0x5308, [(0x1000, 2)], 0x0, [f "V" 31 0 .ro]⟩,
  ⟨"SDB_SERIAL_HI", 0x530C, [(0x1000, 2)], 0x0, [f "V" 31 0 .ro]⟩]
/-- TG, whole. -/
def tgRegs : List RegSpec := tgRegsA ++ tgRegsB

/-- ILL: 02_sensor_timing_exposure.md R47, 02_sensor_timing_exposure.md R48, 02_sensor_timing_exposure.md R49. -/
def illRegs : List RegSpec := [
  ⟨"ILL_CTRL", 0x7000, [], 0x0, [f "EN" 31 31 .rwl]⟩,
  ⟨"ILL_PWR", 0x7004, [], 0x0, [f "BUDGET_MW" 15 0 .ro]⟩,
  ⟨"ILL_FAULT", 0x7008, [], 0x0, [f "CH" 9 0 .w1c]⟩,
  ⟨"ILL_CFG", 0x7100, [(0x10, 10)], 0x0, [f "EN" 31 31 .rwl, f "SKEW" 3 0 .rwl]⟩,
  ⟨"ILL_CUR", 0x7104, [(0x10, 10)], 0x0, [f "LEVEL" 9 0 .rwl]⟩,
  ⟨"ILL_STATUS", 0x7108, [(0x10, 10)], 0x5DC0, [f "OPEN" 31 31 .ro, f "SHORT" 30 30 .ro, f "OT" 29 29 .ro, f "VF_MV" 15 0 .ro]⟩]

/-- AFE: 03_video_converters.md R50. -/
def afeRegsA : List RegSpec := [
  ⟨"AFE_CTRL", 0x8000, [(0x1000, 2)], 0x10, [f "CONV_EN" 31 31 .rwl, f "POLICY" 8 8 .rwl, f "ROT_EN" 4 4 .rwl]⟩,
  ⟨"AFE_STATUS", 0x8004, [(0x1000, 2)], 0x0, [f "REF_SETTLED" 31 31 .ro, f "CONV_RUN" 30 30 .ro, f "REF_FAULT" 29 29 .w1c, f "REF_TIMEOUT" 28 28 .w1c]⟩,
  ⟨"AFE_REF_CTRL", 0x8008, [(0x1000, 2)], 0x0, [f "BUF_EN" 31 31 .rwl, f "MODE" 1 0 .rwl]⟩,
  ⟨"AFE_REF_AGE", 0x800C, [(0x1000, 2)], 0x0, [f "BUF_MS" 15 0 .ro]⟩,
  ⟨"AFE_TEMP", 0x8010, [(0x1000, 2)], 0x0, [f "TEMP" 15 0 .ro]⟩,
  ⟨"AFE_ROT", 0x8014, [(0x1000, 2)], 0x800, [fn "LINES" 15 0 .rwl (.atLeast 1024)]⟩,
  ⟨"AFE_OB_WIN_LO", 0x8020, [(0x1000, 2)], 0x200, [f "CODE" 15 0 .rw]⟩,
  ⟨"AFE_OB_WIN_HI", 0x8024, [(0x1000, 2)], 0x4000, [f "CODE" 15 0 .rw]⟩,
  ⟨"AFE_OVR_LIMIT", 0x8028, [(0x1000, 2)], 0x200, [f "LIMIT" 9 0 .rw]⟩,
  ⟨"AFE_TAP_FAULT", 0x8030, [(0x1000, 2)], 0x0, [f "V" 31 0 .w1c]⟩,
  ⟨"AFE_SLICE_FAIL", 0x8034, [(0x1000, 2)], 0x0, [f "V" 31 0 .ro]⟩,
  ⟨"AFE_OVR_PIX", 0x8038, [(0x1000, 2)], 0x0, [f "V" 31 0 .rc]⟩]
/-- AFE, continued. -/
def afeRegsB : List RegSpec := [
  ⟨"AFE_CH_CFG", 0x8100, [(0x1000, 2), (0x10, 32)], 0x83000000, [f "SAMPLING" 31 31 .rw, f "TERM" 30 30 .rw, f "RANGE" 25 24 .rw, f "CLAMP" 17 16 .rw]⟩,
  ⟨"AFE_CH_TRIM", 0x8104, [(0x1000, 2), (0x10, 32)], 0x0, [f "GAIN" 27 16 .rwl, f "OFS" 11 0 .rwl]⟩,
  ⟨"AFE_CH_SLICE", 0x8108, [(0x1000, 2), (0x10, 32)], 0x40000000, [f "FAILED" 31 31 .ro, f "SPARE" 30 28 .ro, f "FAIL_SLICE" 26 24 .ro, f "FAIL_CODE" 23 20 .ro, f "ROT_COUNT" 15 0 .ro]⟩,
  ⟨"AFE_CH_STATUS", 0x810C, [(0x1000, 2), (0x10, 32)], 0x0, [f "STALE" 31 31 .ro, f "CHK" 27 24 .ro, f "OB_MEAN" 15 0 .ro]⟩]
/-- AFE, whole. -/
def afeRegs : List RegSpec := afeRegsA ++ afeRegsB

/-- CAL: 04_calibration.md R74. -/
def calRegsA : List RegSpec := [
  ⟨"CAL_CTRL", 0xA000, [], 0x8007000C, [f "GAP_EN" 31 31 .rwl, f "CAL_FORCE_GAP" 30 30 .rwl, f "NOREF" 29 29 .rwl, f "LEAD_EN" 28 28 .rwl, f "LEAD_DI" 27 24 .rwl, f "LED_EN" 18 18 .rwl, f "GAIN_EN" 17 17 .rwl, f "OFS_EN" 16 16 .rwl, f "GAP_MARGIN" 7 0 .rwl]⟩,
  ⟨"CAL_STATUS", 0xA004, [], 0xC0000000, [f "CAL_INVALID" 31 30 .ro, f "UNTRACED" 29 29 .ro, f "RTD_STALE" 28 27 .ro, f "FULL_OPEN" 26 26 .ro, f "PENDING" 25 25 .ro, f "RUNNING" 24 24 .ro, f "CAUSE" 23 20 .ro, f "COPY" 17 16 .ro, f "DEFER" 15 8 .ro]⟩,
  ⟨"CAL_DT", 0xA008, [], 0x20, [f "V" 15 0 .rw]⟩,
  ⟨"CAL_MAX_DEFER", 0xA00C, [], 0x8, [f "V" 7 0 .rw]⟩,
  ⟨"CAL_SCHED", 0xA010, [], 0x0, [f "V" 15 0 .rw]⟩,
  ⟨"CAL_LEAD", 0xA014, [], 0x0, [f "V" 23 0 .rwl]⟩,
  ⟨"CAL_DARK_TGT", 0xA018, [], 0x800, [f "V" 15 0 .rwl]⟩,
  ⟨"CAL_WHITE_RAW", 0xA01C, [], 0xC350, [f "V" 15 0 .rwl]⟩,
  ⟨"CAL_WHITE_OUT", 0xA020, [], 0xEA60, [f "V" 15 0 .rwl]⟩,
  ⟨"CAL_FULL_LINES", 0xA024, [], 0x100, [f "V" 10 0 .rwl]⟩,
  ⟨"CAL_LIM_OFS", 0xA030, [], 0xFFF78040, [f "FULL_STEP" 31 20 .rw, f "ABS" 19 8 .rw, f "GAP_STEP" 7 0 .rw]⟩,
  ⟨"CAL_LIM_GAIN", 0xA034, [], 0xFFF78033, [f "FULL_STEP" 31 20 .rw, f "ABS" 19 8 .rw, f "GAP_STEP" 7 0 .rw]⟩]
/-- CAL, continued. -/
def calRegsB : List RegSpec := [
  ⟨"CAL_LIM_LED", 0xA038, [], 0xFFC10005, [f "FULL_STEP" 31 22 .rw, f "MIN" 21 12 .rw, f "GAP_PCT" 7 0 .rw]⟩,
  ⟨"CAL_DEFECT", 0xA03C, [], 0x32960100, [f "LO_PCT" 31 24 .rw, f "HI_PCT" 23 16 .rw, f "DARK" 15 0 .rw]⟩,
  ⟨"CAL_TSRC", 0xA040, [], 0x0, [f "SIDE1" 7 4 .rwl, f "SIDE0" 3 0 .rwl]⟩,
  ⟨"CAL_TREF_AFE", 0xA044, [(0x4, 2)], 0x8000, [f "V" 15 0 .ro]⟩,
  ⟨"CAL_TREF_RTD", 0xA04C, [(0x4, 4)], 0x8000, [f "V" 15 0 .ro]⟩,
  ⟨"CAL_GAP_CNT", 0xA060, [], 0x0, [f "V" 31 0 .rc]⟩,
  ⟨"CAL_ABANDON_CNT", 0xA064, [], 0x0, [f "V" 31 0 .rc]⟩,
  ⟨"CAL_REJ_CNT", 0xA068, [], 0x0, [f "V" 31 0 .rc]⟩,
  ⟨"CAL_CH_REJ_LO", 0xA06C, [], 0x0, [f "V" 31 0 .ro]⟩,
  ⟨"CAL_CH_REJ_HI", 0xA070, [], 0x0, [f "V" 31 0 .ro]⟩,
  ⟨"CAL_LED_REJ", 0xA074, [], 0x0, [f "V" 9 0 .ro]⟩,
  ⟨"CAL_REF_CORR", 0xA078, [(0x4, 2)], 0x0, [f "V" 31 0 .ro]⟩]
/-- CAL, continued. -/
def calRegsC : List RegSpec := [
  ⟨"CAL_GEN", 0xA080, [], 0x0, [f "V" 31 0 .ro]⟩]
/-- CAL, whole: every register of R74 at its offset, with fields, access codes and reset words. -/
def calRegs : List RegSpec := calRegsA ++ calRegsB ++ calRegsC

/-- SHD: 05_shading_alignment.md R113, 05_shading_alignment.md R95. -/
def shdRegsA : List RegSpec := [
  ⟨"SHD_CTRL", 0xB000, [], 0xC0000000, [f "EN" 31 31 .rwl, f "DEFECT_EN" 30 30 .rwl]⟩,
  ⟨"SHD_TRK_CTRL", 0xB004, [], 0x30066, [f "FORCE1" 25 25 .rw, f "FORCE0" 24 24 .rw, f "AUTO1" 17 17 .rwl, f "AUTO0" 16 16 .rwl, fn "K1" 7 4 .rwl (.atMost 12), fn "K0" 3 0 .rwl (.atMost 12)]⟩,
  ⟨"SHD_TRK_STATUS", 0xB008, [], 0x0, [f "FROZEN1" 1 1 .ro, f "FROZEN0" 0 0 .ro]⟩,
  ⟨"SHD_FADE", 0xB00C, [], 0x0, [f "ACTIVE" 31 31 .ro, f "QUEUED" 30 30 .ro, f "LEN" 24 16 .ro, f "DONE" 8 0 .ro]⟩,
  ⟨"SHD_KG", 0xB010, [(0x4, 8)], 0x4000, [f "KG" 15 0 .rwl]⟩,
  ⟨"SHD_POISON_CNT", 0xB030, [], 0x0, [f "V" 31 0 .rc]⟩,
  ⟨"SHD_SAT_CNT", 0xB034, [], 0x0, [f "V" 31 0 .rc]⟩,
  ⟨"SHD_OBINV_CNT", 0xB038, [], 0x0, [f "V" 31 0 .rc]⟩,
  ⟨"SHD_COEF_PAR_CNT", 0xB03C, [], 0x0, [f "V" 31 0 .rc]⟩,
  ⟨"SHD_CH_BANK", 0xB100, [(0x4, 64)], 0x0, [f "ACTIVE" 31 31 .ro, f "FADING" 30 30 .ro, f "QUEUED" 29 29 .ro, f "BSTATE" 3 2 .ro, f "ASTATE" 1 0 .ro]⟩,
  ⟨"SHD_CH_TRK", 0xB200, [(0x4, 64)], 0x80000, [f "C" 23 0 .ro]⟩,
  ⟨"EDY_CTRL", 0xC000, [], 0x0, [f "KERNEL" 0 0 .rwl]⟩]
/-- SHD, continued. -/
def shdRegsB : List RegSpec := [
  ⟨"EDY_NAT_PITCH", 0xC004, [], 0x800, [fn "PITCH" 23 0 .rwl (.atLeast 256)]⟩,
  ⟨"EDY_SPACE", 0xC010, [(0x10, 2), (0x4, 4)], 0x0, [f "SPACE" 11 0 .rwl]⟩,
  ⟨"EDY_OFS", 0xC040, [(0x10, 2), (0x4, 4)], 0x0, [f "USED" 31 31 .ro, f "ODD" 16 16 .ro, f "D" 11 0 .ro]⟩,
  ⟨"EDY_POISON_CNT", 0xC060, [], 0x0, [f "V" 31 0 .rc]⟩]
/-- SHD, whole. -/
def shdRegs : List RegSpec := shdRegsA ++ shdRegsB

/-- RSM: 06_resolution_streams.md R123. -/
def rsmRegsA : List RegSpec := [
  ⟨"RSM_STATUS", 0xD000, [], 0x1E848, [f "CAPPED" 31 31 .ro, f "CAP" 16 0 .ro]⟩,
  ⟨"RSM_FRAME_CTRL", 0xD010, [(0x10, 2)], 0x1010, [f "SRC" 31 31 .rwl, f "DI" 27 24 .rwl, f "LEAD" 15 8 .rwl, f "TRAIL" 7 0 .rwl]⟩,
  ⟨"RSM_FRAME_DIST", 0xD014, [(0x10, 2)], 0x0, [f "DIST" 23 0 .rwl]⟩,
  ⟨"RSM_FRAME_MAX", 0xD018, [(0x10, 2)], 0x4000, [fn "MAX" 15 0 .rwl (.atLeast 64)]⟩,
  ⟨"RSM_FRAME_STAT", 0xD01C, [(0x10, 2)], 0x0, [f "OPEN" 31 31 .ro, f "TRUNC" 30 30 .w1c, f "PAGE_NO" 15 0 .ro]⟩,
  ⟨"GU_CTRL", 0xD100, [(0x20, 8)], 0x1100, [f "EN" 31 31 .rwl, f "SIDE" 28 28 .rwl, f "BIN" 17 16 .rwl, f "XKERNEL" 13 12 .rwl, f "YKERNEL" 9 8 .rwl, f "YEN" 0 0 .rwl]⟩,
  ⟨"GU_XSTEP", 0xD104, [(0x20, 8)], 0x10000, [f "STEP" 19 0 .rwl]⟩,
  ⟨"GU_YSTEP", 0xD108, [(0x20, 8)], 0x10000, [f "STEP" 19 0 .rwl]⟩,
  ⟨"GU_XWIN", 0xD10C, [(0x20, 8)], 0x1E00, [f "X0" 28 16 .rwl, f "W" 12 0 .rwl]⟩,
  ⟨"GU_OUT", 0xD110, [(0x20, 8)], 0x1E00, [f "OUT_W" 13 0 .ro]⟩,
  ⟨"STR_CFG", 0xD200, [(0x40, 16)], 0x1100000, [f "GU" 30 28 .rwl, f "PSET" 26 24 .rwl, f "PLANE" 21 20 .rwl, f "DEPTH" 17 16 .rwl, f "ORDER" 12 12 .rwl, f "BGR" 11 11 .rwl, f "TAG" 8 8 .rwl, f "PADM" 5 4 .rwl]⟩,
  ⟨"STR_LUT", 0xD204, [(0x40, 16)], 0x8888, [f "LUT_R" 15 12 .rwl, f "LUT_G" 11 8 .rwl, f "LUT_B" 7 4 .rwl, f "LUT_A" 3 0 .rwl]⟩]
/-- RSM, continued. -/
def rsmRegsB : List RegSpec := [
  ⟨"STR_GREYW0", 0xD208, [(0x40, 16)], 0xD9B2DC6, [f "WR" 30 16 .rwl, f "WG" 14 0 .rwl]⟩,
  ⟨"STR_GREYW1", 0xD20C, [(0x40, 16)], 0x49F, [f "WB" 14 0 .rwl]⟩,
  ⟨"STR_XCROP", 0xD210, [(0x40, 16)], 0x0, [f "X0" 29 16 .rwl, f "W" 13 0 .rwl]⟩,
  ⟨"STR_YCROP", 0xD214, [(0x40, 16)], 0x0, [f "FIRST" 31 16 .rwl, f "COUNT" 15 0 .rwl]⟩,
  ⟨"STR_STRIDE", 0xD218, [(0x40, 16)], 0x0, [f "V" 23 0 .rwl]⟩,
  ⟨"STR_PADVAL", 0xD21C, [(0x40, 16)], 0x0, [f "V" 7 0 .rwl]⟩,
  ⟨"STR_LINE", 0xD220, [(0x40, 16)], 0x0, [f "V" 23 0 .ro]⟩,
  ⟨"STR_LINES", 0xD224, [(0x40, 16)], 0x0, [f "V" 31 0 .rc]⟩]
/-- RSM, whole. -/
def rsmRegs : List RegSpec := rsmRegsA ++ rsmRegsB

/-- GEO: 07_page_geometry_monitors.md R146, 07_page_geometry_monitors.md R158. -/
def geoRegsA : List RegSpec := [
  ⟨"GEO_CTRL", 0xE000, [(0x80, 2)], 0x80030014, [f "EN" 31 31 .rwl, f "PLANE" 17 16 .rwl, f "ALTKIND" 12 12 .rwl, f "POL" 9 8 .rwl, f "BAUTO" 4 4 .rwl, fn "RUN" 3 0 .rwl (.zeroTo 1)]⟩,
  ⟨"GEO_THR", 0xE004, [(0x80, 2)], 0xFA009C4, [f "T_ON" 31 16 .rwl, f "T_OFF" 15 0 .rwl]⟩,
  ⟨"GEO_BACK", 0xE008, [(0x80, 2)], 0x7530, [f "LEVEL" 15 0 .rwl]⟩,
  ⟨"GEO_EDGE", 0xE00C, [(0x80, 2)], 0x2040202, [fn "LE_LINES" 27 24 .rwl (.clamp 1 4), fn "TE_LINES" 19 16 .rwl (.clamp 1 4), fn "TRIM" 11 8 .rwl (.clamp 1 15), f "MARGIN" 3 0 .rwl]⟩,
  ⟨"GEO_STATUS", 0xE010, [(0x80, 2)], 0x0, [f "DOC" 31 31 .ro, f "BUSY" 30 30 .ro]⟩,
  ⟨"GEO_DOC_CNT", 0xE014, [(0x80, 2)], 0x0, [f "V" 31 0 .rc]⟩,
  ⟨"GEO_ORPHAN_CNT", 0xE018, [(0x80, 2)], 0x0, [f "V" 31 0 .rc]⟩,
  ⟨"GEO_RES", 0xE040, [(0x80, 2), (0x4, 10)], 0x0, [f "V" 31 0 .ro]⟩,
  ⟨"MON_CTRL", 0xE400, [(0x20, 16)], 0x6, [f "EN" 31 31 .rw, f "MODE" 25 24 .rwl, f "MIN" 22 22 .rwl, f "AC" 21 21 .rwl, f "PLANE" 18 16 .rwl, f "KIND" 13 12 .rwl, f "LWIN" 9 8 .rwl, f "EVT" 5 4 .rwl, fn "K" 3 0 .rwl (.atMost 12)]⟩,
  ⟨"MON_XWIN", 0xE404, [(0x20, 16)], 0x1E00, [f "X0" 28 16 .rwl, f "W" 12 0 .rwl]⟩,
  ⟨"MON_LWIN", 0xE408, [(0x20, 16)], 0x400, [f "FIRST" 31 16 .rwl, fn "LEN" 15 0 .rwl (.zeroTo 1)]⟩,
  ⟨"MON_LIM", 0xE40C, [(0x20, 16)], 0xFFFF0000, [f "HI" 31 16 .rw, f "LO" 15 0 .rw]⟩]
/-- GEO, continued. -/
def geoRegsB : List RegSpec := [
  ⟨"MON_RESULT", 0xE410, [(0x20, 16)], 0x0, [f "VALID" 31 31 .ro, f "OUT" 30 30 .ro, f "VALUE" 19 0 .ro]⟩,
  ⟨"MON_INDEX_LO", 0xE414, [(0x20, 16)], 0x0, [f "V" 31 0 .ro]⟩,
  ⟨"MON_INDEX_HI", 0xE418, [(0x20, 16)], 0x0, [f "V" 15 0 .ro]⟩,
  ⟨"MON_PEAKX", 0xE41C, [(0x20, 16)], 0x0, [f "V" 12 0 .ro]⟩,
  ⟨"MON_FOLD_CNT", 0xE600, [], 0x0, [f "V" 31 0 .rc]⟩]
/-- GEO, whole. -/
def geoRegs : List RegSpec := geoRegsA ++ geoRegsB

/-- MOT: 02_sensor_timing_exposure.md R37, 08_transport_pacing.md R162, 08_transport_pacing.md R164, 08_transport_pacing.md R165, 08_transport_pacing.md R166, 08_transport_pacing.md R169. -/
def motRegsA : List RegSpec := [
  ⟨"PAC_CTRL", 0xF000, [], 0x800000A0, [f "EN" 31 31 .rwl, f "STOPMODE" 30 30 .rwl, f "FEED_EN" 29 29 .rwl, f "HOLD_EN" 28 28 .rwl, f "HOLD_DI" 23 20 .rwl, f "FEED_DI" 19 16 .rwl, f "HTAU" 7 4 .rwl]⟩,
  ⟨"PAC_STATE", 0xF004, [], 0x0, [f "STATE" 31 28 .ro, f "LIMIT" 27 24 .ro, f "CAUSE" 23 20 .ro, f "FEED_PEND" 15 8 .ro]⟩,
  ⟨"PAC_VJOB", 0xF008, [], 0x1E8480, [f "V" 23 0 .rwl]⟩,
  ⟨"PAC_AMAX", 0xF00C, [], 0x4E20, [f "V" 15 0 .rwl]⟩,
  ⟨"PAC_DMAX", 0xF010, [], 0x7530, [f "V" 15 0 .rwl]⟩,
  ⟨"PAC_SQUALL", 0xF014, [], 0xEA60, [f "V" 15 0 .rwl]⟩,
  ⟨"PAC_JMAX", 0xF018, [], 0x249F0, [f "V" 19 0 .rwl]⟩,
  ⟨"PAC_TLAT", 0xF01C, [], 0x32, [f "V" 11 0 .rwl]⟩,
  ⟨"PAC_MARGIN", 0xF020, [], 0x7D0, [f "V" 23 0 .rwl]⟩,
  ⟨"PAC_SETPOINT", 0xF024, [], 0x40, [f "V" 7 0 .rwl]⟩,
  ⟨"PAC_KP", 0xF028, [], 0x32, [f "V" 15 0 .rwl]⟩,
  ⟨"PAC_KI", 0xF02C, [], 0x64, [f "V" 15 0 .rwl]⟩]
/-- MOT, continued. -/
def motRegsB : List RegSpec := [
  ⟨"PAC_OVERRUN_STEP", 0xF030, [], 0xC350, [f "V" 23 0 .rwl]⟩,
  ⟨"PAC_VMIN", 0xF034, [], 0xC350, [f "V" 23 0 .rwl]⟩,
  ⟨"PAC_VRESUME", 0xF038, [], 0x7A120, [f "V" 23 0 .rwl]⟩,
  ⟨"PAC_VBACK", 0xF03C, [], 0x30D40, [f "V" 23 0 .rwl]⟩,
  ⟨"PAC_BACK", 0xF040, [], 0x7D0, [f "V" 23 0 .rwl]⟩,
  ⟨"PAC_RESUME", 0xF044, [], 0x4E20, [f "V" 23 0 .rwl]⟩,
  ⟨"PAC_MAXDOC_MM", 0xF048, [], 0x190, [f "V" 15 0 .rwl]⟩,
  ⟨"PAC_GAPRES", 0xF04C, [], 0xA, [f "V" 15 0 .rwl]⟩,
  ⟨"PAC_FEED_GAP", 0xF050, [], 0x1E, [f "V" 15 0 .rwl]⟩,
  ⟨"PAC_FEED_TMO", 0xF054, [], 0x1F4, [f "V" 15 0 .rwl]⟩,
  ⟨"PAC_REST", 0xF058, [], 0x3E8, [f "V" 15 0 .rwl]⟩,
  ⟨"PAC_SLIP", 0xF05C, [], 0x7D0, [f "V" 23 0 .rwl]⟩]
/-- MOT, continued. -/
def motRegsC : List RegSpec := [
  ⟨"PAC_VTARGET", 0xF080, [], 0x0, [f "V" 23 0 .ro]⟩,
  ⟨"PAC_VHOST", 0xF084, [], 0xFFFFFF, [f "V" 23 0 .ro]⟩,
  ⟨"PAC_VBRAKE", 0xF088, [], 0xFFFFFF, [f "V" 23 0 .ro]⟩,
  ⟨"PAC_VACT", 0xF08C, [], 0x0, [f "V" 23 0 .ro]⟩,
  ⟨"PAC_VCEIL", 0xF090, [], 0x0, [f "V" 23 0 .ro]⟩,
  ⟨"PAC_BPM", 0xF094, [], 0x0, [f "V" 31 0 .ro]⟩,
  ⟨"PAC_FREE", 0xF098, [], 0x0, [f "V" 31 0 .ro]⟩,
  ⟨"PAC_INFLIGHT", 0xF09C, [], 0x0, [f "V" 7 0 .ro]⟩,
  ⟨"PAC_LULL_LO", 0xF0A0, [], 0x0, [f "V" 31 0 .ro]⟩,
  ⟨"PAC_LULL_HI", 0xF0A4, [], 0x0, [f "V" 15 0 .ro]⟩,
  ⟨"PAC_LULL_CNT", 0xF0A8, [], 0x0, [f "V" 31 0 .rc]⟩,
  ⟨"PAC_WITHHOLD_CNT", 0xF0AC, [], 0x0, [f "V" 31 0 .rc]⟩]
/-- MOT, continued. -/
def motRegsD : List RegSpec := [
  ⟨"PAC_SQUALL_CNT", 0xF0B0, [], 0x0, [f "V" 31 0 .rc]⟩,
  ⟨"AX_CTRL", 0xF100, [(0x20, 4)], 0x180000, [f "EN" 31 31 .rwl, f "MODE" 27 26 .rwl, f "DIRINV" 25 25 .rwl, f "ENINV" 24 24 .rwl, f "PW" 23 16 .rwl]⟩,
  ⟨"AX_NM", 0xF104, [(0x20, 4)], 0x1388, [f "V" 23 0 .rwl]⟩,
  ⟨"AX_RATIO", 0xF108, [(0x20, 4)], 0x10000, [f "V" 31 0 .rwl]⟩,
  ⟨"AX_POS", 0xF10C, [(0x20, 4)], 0x0, [f "V" 31 0 .ro]⟩,
  ⟨"AX_RATE", 0xF110, [(0x20, 4)], 0x0, [f "V" 22 0 .ro]⟩,
  ⟨"EN_CTRL", 0xF200, [(0x10, 4)], 0x20000, [f "EN" 31 31 .rwl, f "SWAP" 30 30 .rwl, f "IDX_EN" 29 29 .rwl, f "FILT" 23 16 .rwl]⟩,
  ⟨"EN_NM", 0xF204, [(0x10, 4)], 0x1388, [f "V" 23 0 .rwl]⟩,
  ⟨"EN_COUNT", 0xF208, [(0x10, 4)], 0x0, [f "V" 31 0 .ro]⟩,
  ⟨"EN_IDX", 0xF20C, [(0x10, 4)], 0x0, [f "V" 31 0 .ro]⟩,
  ⟨"EN_ERR", 0xF240, [(0x4, 4)], 0x0, [f "V" 31 0 .rc]⟩,
  ⟨"DI_CFG", 0xF300, [(0x4, 16)], 0x14, [f "INV" 8 8 .rwl, f "DEB" 7 0 .rwl]⟩]
/-- MOT, continued. -/
def motRegsE : List RegSpec := [
  ⟨"DI_STATE", 0xF340, [], 0x0, [f "V" 15 0 .ro]⟩,
  ⟨"DO_CFG", 0xF380, [(0x4, 8)], 0x0, [f "FUNC" 10 8 .rwl, f "BIT" 6 4 .rwl, f "SAFE" 2 2 .rwl, f "INV" 1 1 .rwl, f "VAL" 0 0 .rwl]⟩,
  ⟨"DO_STATE", 0xF3A0, [], 0x0, [f "V" 7 0 .ro]⟩,
  ⟨"LT_CTRL", 0xF400, [], 0x0, [f "EN" 31 31 .rwl, f "SRC" 4 4 .rwl, f "REV" 0 0 .rwl]⟩,
  ⟨"LT_PITCH", 0xF404, [], 0x800, [fn "PITCH" 23 0 .rwl (.atLeast 256)]⟩,
  ⟨"LT_POS_LO", 0xF408, [], 0x0, [f "V" 31 0 .ro]⟩,
  ⟨"LT_POS_HI", 0xF40C, [], 0x0, [f "V" 31 0 .ro]⟩,
  ⟨"LT_KEPT_LO", 0xF410, [], 0x0, [f "V" 31 0 .ro]⟩,
  ⟨"LT_KEPT_HI", 0xF414, [], 0x0, [f "V" 15 0 .ro]⟩,
  ⟨"LT_DISCARD", 0xF418, [], 0x0, [f "V" 31 0 .ro]⟩,
  ⟨"LT_EDGE_NS", 0xF41C, [], 0x0, [f "V" 31 0 .ro]⟩]
/-- MOT, whole. -/
def motRegs : List RegSpec := motRegsA ++ motRegsB ++ motRegsC ++ motRegsD ++ motRegsE

/-- MET: 14_metrology_section.md R311. -/
def metRegsA : List RegSpec := [
  ⟨"MET_STATUS", 0x10000, [], 0x0, [f "PRESENT" 31 31 .ro, f "SEAL_OPEN" 30 30 .ro, f "TIME_SYNC" 29 29 .ro, f "FULL" 28 28 .ro, f "FE_FAULT" 27 27 .ro, f "BACKLOG" 15 0 .ro]⟩,
  ⟨"MET_FWVER", 0x10004, [], 0x0, [f "V" 31 0 .ro]⟩,
  ⟨"MET_FWCRC", 0x10008, [], 0x0, [f "V" 31 0 .ro]⟩,
  ⟨"MET_AUDIT", 0x1000C, [], 0x0, [f "V" 31 0 .ro]⟩,
  ⟨"MET_LAST_MSEQ", 0x10010, [], 0x0, [f "V" 31 0 .ro]⟩,
  ⟨"MET_LABELS", 0x10014, [], 0x0, [f "V" 4 0 .ro]⟩,
  ⟨"MET_TEMP", 0x10020, [(0x4, 4)], 0x8000, [f "STALE" 31 31 .ro, f "T" 15 0 .ro]⟩,
  ⟨"MET_TH", 0x10030, [], 0x0, [f "V" 3 0 .ro]⟩,
  ⟨"MET_KEY_ID", 0x10034, [], 0x0, [f "V" 31 0 .ro]⟩,
  ⟨"MET_PUBKEY", 0x10040, [(0x4, 16)], 0x0, [f "V" 31 0 .ro]⟩,
  ⟨"MET_REC", 0x10100, [(0x4, 32)], 0x0, [f "V" 31 0 .ro]⟩,
  ⟨"MET_QREC", 0x10180, [(0x4, 32)], 0x0, [f "V" 31 0 .ro]⟩]
/-- MET, continued. -/
def metRegsB : List RegSpec := [
  ⟨"MET_CMD_REJ", 0x10200, [], 0x0, [f "V" 31 0 .rc]⟩,
  ⟨"MET_TAP_LOST", 0x10204, [(0x4, 2)], 0x0, [f "V" 31 0 .rc]⟩,
  ⟨"MET_RETX_CNT", 0x1020C, [], 0x0, [f "V" 31 0 .rc]⟩,
  ⟨"MET_NOREC_CNT", 0x10210, [], 0x0, [f "V" 31 0 .rc]⟩,
  ⟨"MET_Q_CTRL", 0x10220, [], 0x0, [f "GO" 31 31 .w1s, f "BUSY" 30 30 .ro, f "STATUS" 23 16 .ro, f "QUERY" 7 0 .rw]⟩,
  ⟨"MET_Q_ARG", 0x10224, [], 0x0, [f "V" 31 0 .rw]⟩,
  ⟨"MET_Q_RES", 0x10228, [(0x4, 6)], 0x0, [f "V" 31 0 .ro]⟩]
/-- MET, whole. -/
def metRegs : List RegSpec := metRegsA ++ metRegsB

/-- PAIR: 17_pair_operation.md R361. -/
def pairRegsA : List RegSpec := [
  ⟨"PAIR_CTRL", 0x11000, [], 0x2000000, [f "EN" 31 31 .rwl, f "PREF" 30 30 .rwl, f "POLICY" 29 29 .rwl, fn "PLMAX" 25 24 .rwl (.plMax)]⟩,
  ⟨"PAIR_STATUS", 0x11004, [], 0x0, [f "LINK" 31 31 .ro, f "OWN_SENSE" 30 30 .ro, f "OWN_DRIVE" 29 29 .ro, f "HB_OK" 28 28 .ro, f "ROLE" 25 24 .ro, f "STATE" 23 20 .ro, f "PLVER" 17 16 .ro]⟩,
  ⟨"PAIR_OWN_TMO", 0x11008, [], 0xFA, [f "V" 9 0 .rwl]⟩,
  ⟨"PAIR_ACK_TMO", 0x1100C, [], 0x3E8, [f "V" 15 0 .rwl]⟩,
  ⟨"PAIR_MAXBACK", 0x11010, [], 0x12C, [f "V" 15 0 .rwl]⟩,
  ⟨"PAIR_CLKREF", 0x11014, [], 0x1010, [f "LINE1" 15 12 .rwl, f "PIX1" 11 8 .rwl, f "LINE0" 7 4 .rwl, f "PIX0" 3 0 .rwl]⟩,
  ⟨"PAIR_PEER_SERIAL_LO", 0x11018, [], 0x0, [f "V" 31 0 .ro]⟩,
  ⟨"PAIR_PEER_SERIAL_HI", 0x1101C, [], 0x0, [f "V" 31 0 .ro]⟩,
  ⟨"PAIR_PEER_FW", 0x11020, [], 0x0, [f "V" 23 0 .ro]⟩,
  ⟨"PAIR_MIRROR_MAX", 0x11024, [], 0x0, [f "V" 19 0 .rc]⟩,
  ⟨"PAIR_RETX_CNT", 0x11028, [], 0x0, [f "V" 31 0 .rc]⟩,
  ⟨"PAIR_HB_MISS", 0x1102C, [], 0x0, [f "V" 31 0 .rc]⟩]
/-- PAIR, continued. -/
def pairRegsB : List RegSpec := [
  ⟨"PAIR_TAKEOVERS", 0x11030, [], 0x0, [f "V" 31 0 .ro]⟩,
  ⟨"PAIR_NC_LO", 0x11038, [], 0x0, [f "V" 31 0 .ro]⟩,
  ⟨"PAIR_NC_HI", 0x1103C, [], 0x0, [f "V" 15 0 .ro]⟩]
/-- PAIR, whole. -/
def pairRegs : List RegSpec := pairRegsA ++ pairRegsB

/-- NVM: 16_modes_resets_power.md R351. -/
def nvmRegs : List RegSpec := [
  ⟨"NVM_CTRL", 0x12000, [], 0x0, [f "GO" 31 31 .w1s, f "OP" 3 0 .rw]⟩,
  ⟨"NVM_STATUS", 0x12004, [], 0x0, [f "BUSY" 31 31 .ro, f "RESULT" 7 0 .ro]⟩,
  ⟨"NVM_SLOT", 0x12008, [], 0x0, [f "V" 0 0 .rw]⟩,
  ⟨"NVM_OFFSET", 0x1200C, [], 0x0, [f "V" 31 0 .rw]⟩,
  ⟨"NVM_LEN", 0x12010, [], 0x0, [f "V" 11 0 .rw]⟩,
  ⟨"NVM_BUF", 0x12800, [(0x4, 512)], 0x0, [f "V" 31 0 .rw]⟩]

/-- SEC: 15_metrology_front_end.md R315, 15_metrology_front_end.md R327. -/
def secRegsA : List RegSpec := [
  ⟨"MET_CONV_CTRL", 0x200000, [], 0xC0500090, [f "RUN" 31 31 .rw, f "SEQ_EN" 30 30 .rw, f "MAXAGE" 23 16 .rw, f "THICK_IN" 10 8 .rw, f "THICK_EN" 7 7 .rw, f "POLY_TIN" 6 4 .rw, f "POLY_TEN" 3 3 .rw]⟩,
  ⟨"MET_CONV_CH", 0x200004, [], 0x0, [f "GAIN" 10 8 .rw, f "CH" 2 0 .rw]⟩,
  ⟨"MET_IN_CFG", 0x200010, [(0x4, 8)], 0x232080A, [f "EN" 31 31 .rw, f "TYPE" 30 28 .rw, f "PRESET" 27 26 .rw, f "AUTO" 25 25 .rw, f "RREF" 24 24 .rw, f "IEX" 23 17 .rw, f "IEX_SRC" 16 16 .rw, f "BURN" 15 14 .rw, f "LIN" 13 12 .rw, f "TSLOT" 11 9 .rw, f "SEC" 8 8 .rw, f "DCB_EN" 7 7 .rw, f "DCB_FRZ" 6 5 .rw, f "DCB_K" 4 0 .rw]⟩,
  ⟨"MET_IN_RNOM", 0x200030, [(0x4, 8)], 0x186A0, [f "V" 23 0 .rw]⟩,
  ⟨"MET_VEX", 0x200050, [], 0x0, [f "EN" 31 31 .rw, f "LEVEL" 30 30 .rw, f "FAULT" 29 29 .ro]⟩,
  ⟨"MET_CM_WIN", 0x200054, [], 0x12C000C8, [f "HI" 31 16 .rw, f "LO" 15 0 .rw]⟩,
  ⟨"MET_TH_CFG", 0x200080, [(0x10, 4)], 0x2, [f "EN" 31 31 .rw, f "SRC" 27 24 .rw, f "ROLE" 17 16 .rw, f "FSTATE" 1 1 .rw, f "INV" 0 0 .rw]⟩,
  ⟨"MET_TH_SET", 0x200084, [(0x10, 4)], 0x0, [f "V" 31 0 .rw]⟩,
  ⟨"MET_TH_CLR", 0x200088, [(0x10, 4)], 0x0, [f "V" 31 0 .rw]⟩,
  ⟨"MET_DET_CFG", 0x2000C0, [(0x8, 4)], 0x800, [f "EN" 31 31 .rw, f "SRC" 26 24 .rw, f "MODE" 17 16 .rw, f "K" 12 8 .rw]⟩,
  ⟨"MET_DET_N", 0x2000C4, [(0x8, 4)], 0x3E8, [f "V" 15 0 .rw]⟩,
  ⟨"MET_POLY", 0x200100, [(0x4, 12)], 0x0, [f "V" 31 0 .rw]⟩]
/-- SEC, continued. -/
def secRegsB : List RegSpec := [
  ⟨"MET_POLY_CRC", 0x200130, [], 0x0, [f "V" 31 0 .rw]⟩,
  ⟨"MET_FE_STAT", 0x200140, [], 0x0, [f "V" 31 0 .ro]⟩,
  ⟨"MET_OVP_LATCH", 0x200144, [], 0x0, [f "V" 7 0 .w1c]⟩,
  ⟨"MET_RES_LO", 0x200180, [(0x8, 8)], 0x0, [f "PHASE" 31 31 .ro, f "FAULT" 30 30 .ro, f "RANGE_SETTLE" 29 29 .ro, f "DV" 28 28 .ro, f "OVR" 27 27 .ro, f "GAIN" 26 24 .ro, f "CODE" 23 0 .ro]⟩,
  ⟨"MET_RES_HI", 0x200184, [(0x8, 8)], 0x0, [f "V" 31 0 .ro]⟩,
  ⟨"MET_DET_VAL", 0x2001C0, [(0x4, 4)], 0x0, [f "V" 31 0 .ro]⟩]
/-- SEC, whole. -/
def secRegs : List RegSpec := secRegsA ++ secRegsB

/-- The registers of the block an offset lies in (18_register_index.md, the block map). -/
def blockOf (off : Nat) : List RegSpec :=
  match off / 0x1000 with
  | 0x0 => sysRegs
  | 0x1 => uhpRegs
  | 0x2 => dmaRegs
  | 0x3 => qdrRegs
  | 0x4 => queRegs
  | 0x5 => tgRegs
  | 0x6 => tgRegs
  | 0x7 => illRegs
  | 0x8 => afeRegs
  | 0x9 => afeRegs
  | 0xA => calRegs
  | 0xB => shdRegs
  | 0xC => shdRegs
  | 0xD => rsmRegs
  | 0xE => geoRegs
  | 0xF => motRegs
  | 0x10 => metRegs
  | 0x11 => pairRegs
  | 0x12 => nvmRegs
  | 0x200 => secRegs
  | _ => []

/-- The indices at which a register family stands at distance `d` from its first offset. -/
def matchDims : List (Nat × Nat) → Nat → Option (List Nat)
  | [], d => if d = 0 then some [] else none
  | (stride, count) :: t, d =>
    if d / stride < count then (matchDims t (d % stride)).map (fun l => (d / stride) :: l) else none

/-- The register of a list that stands at an offset, with its indices. -/
def findIn : List RegSpec → Nat → Option (RegSpec × List Nat)
  | [], _ => none
  | r :: t, off =>
    if r.base ≤ off then
      match matchDims r.dims (off - r.base) with
      | some is => some (r, is)
      | none => findIn t off
    else findIn t off

/-- The register at an offset (none: R377 gives 0). -/
def find (off : Nat) : Option (RegSpec × List Nat) := findIn (blockOf off) off

/-- The reset word of a register: the table's word, and the three fields whose reset depends on the index
(TG_CHMAPk of 02_sensor_timing_exposure.md, AXn_CTRL.MODE of 08_transport_pacing.md R162). -/
def resetOf (r : RegSpec) (is : List Nat) : Nat :=
  match r.name, is with
  | "TG_CHMAP", [s, k] => r.resetNat + s * 2 ^ 28 + (k / 8) * 2 ^ 24 + (k % 8) * 2 ^ 16
  | "AX_CTRL", [n] => r.resetNat + (if n = 0 then 2 ^ 26 else 0)
  | _, _ => r.resetNat

/-- What a register holds when nothing has been written to it: its reset word; 0 where no register stands (R377).
The two coefficient windows with a content at POR: every coefficient word is the factory word of R93 (D = 0,
G = 16,384), every LUT the identity of R139. DESIGN CHOICE (log 8) for bank B and the resampler tables. -/
def resetWord (off : Nat) : Word :=
  if 0x80000 ≤ off ∧ off < 0x100000 then
    (if off % 4 = 0 then BitVec.ofNat 32 (16384 * 2 ^ 16) else 0)
  else if 0x20000 ≤ off ∧ off < 0x28000 then
    let m := (off % 0x1000) / 4
    if off % 4 ≠ 0 then 0
    else if m < 512 then BitVec.ofNat 32 (min (128 * m) 65535 + min (128 * m + 64) 65535 * 2 ^ 16)
    else if m = 512 then BitVec.ofNat 32 65535 else 0
  else
    match find off with
    | some (r, is) => BitVec.ofNat 32 (resetOf r is)
    | none => 0

end RegMap

namespace R

abbrev SYS_ID.word : Fld := ⟨0x0, 31, 0⟩
abbrev SYS_ID.DEVICE : Fld := ⟨0x0, 31, 16⟩
abbrev SYS_ID.REV : Fld := ⟨0x0, 15, 8⟩
abbrev SYS_SERIAL_LO.word : Fld := ⟨0x4, 31, 0⟩
abbrev SYS_SERIAL_LO.V : Fld := ⟨0x4, 31, 0⟩
abbrev SYS_SERIAL_HI.word : Fld := ⟨0x8, 31, 0⟩
abbrev SYS_SERIAL_HI.V : Fld := ⟨0x8, 31, 0⟩
abbrev SYS_MODE.word : Fld := ⟨0x10, 31, 0⟩
abbrev SYS_MODE.BUSY : Fld := ⟨0x10, 31, 31⟩
abbrev SYS_MODE.TARGET : Fld := ⟨0x10, 27, 24⟩
abbrev SYS_MODE.MODE : Fld := ⟨0x10, 3, 0⟩
abbrev SYS_CTRL.word : Fld := ⟨0x14, 31, 0⟩
abbrev SYS_CTRL.WAKE_EN : Fld := ⟨0x14, 31, 31⟩
abbrev SYS_CTRL.WAKE_TGT : Fld := ⟨0x14, 30, 30⟩
abbrev SYS_RESET.word : Fld := ⟨0x18, 31, 0⟩
abbrev SYS_RESET.KEY : Fld := ⟨0x18, 31, 16⟩
abbrev SYS_RESET.SOFT : Fld := ⟨0x18, 0, 0⟩
abbrev SYS_RESET_CAUSE.word : Fld := ⟨0x1C, 31, 0⟩
abbrev SYS_RESET_CAUSE.RST_N : Fld := ⟨0x1C, 8, 8⟩
abbrev SYS_RESET_CAUSE.PFAIL : Fld := ⟨0x1C, 7, 7⟩
abbrev SYS_RESET_CAUSE.TAKEOVER : Fld := ⟨0x1C, 6, 6⟩
abbrev SYS_RESET_CAUSE.WDOG_ARB : Fld := ⟨0x1C, 5, 5⟩
abbrev SYS_RESET_CAUSE.WDOG_ENG : Fld := ⟨0x1C, 4, 4⟩
abbrev SYS_RESET_CAUSE.SOFT : Fld := ⟨0x1C, 3, 3⟩
abbrev SYS_RESET_CAUSE.FLR : Fld := ⟨0x1C, 2, 2⟩
abbrev SYS_RESET_CAUSE.PERST : Fld := ⟨0x1C, 1, 1⟩
abbrev SYS_RESET_CAUSE.POR : Fld := ⟨0x1C, 0, 0⟩
abbrev SYS_WRITE_IGNORED.word : Fld := ⟨0x20, 31, 0⟩
abbrev SYS_WRITE_IGNORED.FLAG : Fld := ⟨0x20, 31, 31⟩
abbrev SYS_WRITE_IGNORED.OFFSET : Fld := ⟨0x20, 19, 0⟩
abbrev SYS_UNITS.word : Fld := ⟨0x24, 31, 0⟩
abbrev SYS_UNITS.QDR : Fld := ⟨0x24, 7, 4⟩
abbrev SYS_UNITS.FLASH : Fld := ⟨0x24, 3, 3⟩
abbrev SYS_UNITS.SECTION : Fld := ⟨0x24, 2, 2⟩
abbrev SYS_UNITS.AFE1 : Fld := ⟨0x24, 1, 1⟩
abbrev SYS_UNITS.AFE0 : Fld := ⟨0x24, 0, 0⟩
abbrev SYS_FW.word : Fld := ⟨0x28, 31, 0⟩
abbrev SYS_FW.SLOT : Fld := ⟨0x28, 31, 31⟩
abbrev SYS_FW.FALLBACK : Fld := ⟨0x28, 30, 30⟩
abbrev SYS_FW.RECOVERY : Fld := ⟨0x28, 29, 29⟩
abbrev SYS_FW.MAJOR : Fld := ⟨0x28, 23, 16⟩
abbrev SYS_FW.MINOR : Fld := ⟨0x28, 15, 8⟩
abbrev SYS_FW.BUILD : Fld := ⟨0x28, 7, 0⟩
abbrev SYS_FW_PREF.word : Fld := ⟨0x2C, 31, 0⟩
abbrev SYS_FW_PREF.V : Fld := ⟨0x2C, 0, 0⟩
abbrev SYS_WDOG.word : Fld := ⟨0x30, 31, 0⟩
abbrev SYS_WDOG.V : Fld := ⟨0x30, 12, 0⟩
abbrev SYS_VIN.word : Fld := ⟨0x34, 31, 0⟩
abbrev SYS_VIN.V : Fld := ⟨0x34, 15, 0⟩
abbrev SYS_PIN.word : Fld := ⟨0x38, 31, 0⟩
abbrev SYS_PIN.PFAIL_OUT : Fld := ⟨0x38, 31, 31⟩
abbrev SYS_PIN.V : Fld := ⟨0x38, 15, 0⟩
abbrev SYS_TEMP.word : Fld := ⟨0x3C, 31, 0⟩
abbrev SYS_TEMP.V : Fld := ⟨0x3C, 15, 0⟩
abbrev SYS_TBASE.word : Fld := ⟨0x40, 31, 0⟩
abbrev SYS_TBASE.V : Fld := ⟨0x40, 15, 0⟩
abbrev SYS_TIME_LO.word : Fld := ⟨0x48, 31, 0⟩
abbrev SYS_TIME_LO.V : Fld := ⟨0x48, 31, 0⟩
abbrev SYS_TIME_HI.word : Fld := ⟨0x4C, 31, 0⟩
abbrev SYS_TIME_HI.V : Fld := ⟨0x4C, 31, 0⟩
abbrev SYS_PFAIL_CNT.word : Fld := ⟨0x50, 31, 0⟩
abbrev SYS_PFAIL_CNT.V : Fld := ⟨0x50, 31, 0⟩
abbrev UHP_OFFER.word : Fld := ⟨0x1000, 31, 0⟩
abbrev UHP_OFFER.VERS : Fld := ⟨0x1000, 2, 0⟩
abbrev UHP_SELECT.word : Fld := ⟨0x1004, 31, 0⟩
abbrev UHP_SELECT.VER : Fld := ⟨0x1004, 1, 0⟩
abbrev UHP_CTRL.word : Fld := ⟨0x1008, 31, 0⟩
abbrev UHP_CTRL.RO_DATA : Fld := ⟨0x1008, 31, 31⟩
abbrev UHP_CTRL.HB_PERIOD : Fld := ⟨0x1008, 23, 16⟩
abbrev UHP_CTRL.SB_INTERVAL : Fld := ⟨0x1008, 9, 0⟩
abbrev UHP_STATUS.word : Fld := ⟨0x100C, 31, 0⟩
abbrev UHP_STATUS.VER_ERR : Fld := ⟨0x100C, 31, 31⟩
abbrev UHP_STATUS.DB_ERR : Fld := ⟨0x100C, 30, 30⟩
abbrev UHP_STATUS.QUOTA_ERR : Fld := ⟨0x100C, 29, 29⟩
abbrev UHP_STATUS.LINK_UP : Fld := ⟨0x100C, 0, 0⟩
abbrev UHP_LINK.word : Fld := ⟨0x1010, 31, 0⟩
abbrev UHP_LINK.DEGRADED : Fld := ⟨0x1010, 31, 31⟩
abbrev UHP_LINK.SPEED : Fld := ⟨0x1010, 19, 16⟩
abbrev UHP_LINK.WIDTH : Fld := ⟨0x1010, 5, 0⟩
abbrev UHP_STATUS_BASE_LO.word : Fld := ⟨0x1020, 31, 0⟩
abbrev UHP_STATUS_BASE_LO.ADDR : Fld := ⟨0x1020, 31, 8⟩
abbrev UHP_STATUS_BASE_LO.EN : Fld := ⟨0x1020, 0, 0⟩
abbrev UHP_STATUS_BASE_HI.word : Fld := ⟨0x1024, 31, 0⟩
abbrev UHP_STATUS_BASE_HI.ADDR : Fld := ⟨0x1024, 31, 0⟩
abbrev UHP_EPOCH.word : Fld := ⟨0x1028, 31, 0⟩
abbrev UHP_EPOCH.V : Fld := ⟨0x1028, 31, 0⟩
abbrev UHP_LAST_DSEQ.word : Fld := ⟨0x102C, 31, 0⟩
abbrev UHP_LAST_DSEQ.V : Fld := ⟨0x102C, 31, 0⟩
abbrev UHP_LOST_EVT.word : Fld := ⟨0x1030, 31, 0⟩
abbrev UHP_LOST_EVT.V : Fld := ⟨0x1030, 31, 0⟩
abbrev UHP_NOK_CNT.word : Fld := ⟨0x1034, 31, 0⟩
abbrev UHP_NOK_CNT.V : Fld := ⟨0x1034, 31, 0⟩
abbrev UHP_CACHE.word : Fld := ⟨0x1038, 31, 0⟩
abbrev UHP_CACHE.FREE : Fld := ⟨0x1038, 26, 16⟩
abbrev UHP_CACHE.CACHED : Fld := ⟨0x1038, 10, 0⟩
abbrev UHP_CMD_OPEN.word : Fld := ⟨0x103C, 31, 0⟩
abbrev UHP_CMD_OPEN.V : Fld := ⟨0x103C, 31, 0⟩
abbrev UHP_R_BASE_LO.word (i : Nat) : Fld := ⟨0x1100 + 0x20 * i, 31, 0⟩
abbrev UHP_R_BASE_LO.ADDR (i : Nat) : Fld := ⟨0x1100 + 0x20 * i, 31, 6⟩
abbrev UHP_R_BASE_HI.word (i : Nat) : Fld := ⟨0x1104 + 0x20 * i, 31, 0⟩
abbrev UHP_R_BASE_HI.V (i : Nat) : Fld := ⟨0x1104 + 0x20 * i, 31, 0⟩
abbrev UHP_R_CTRL.word (i : Nat) : Fld := ⟨0x1108 + 0x20 * i, 31, 0⟩
abbrev UHP_R_CTRL.EN (i : Nat) : Fld := ⟨0x1108 + 0x20 * i, 31, 31⟩
abbrev UHP_R_CTRL.RESTART (i : Nat) : Fld := ⟨0x1108 + 0x20 * i, 30, 30⟩
abbrev UHP_R_CTRL.STOP (i : Nat) : Fld := ⟨0x1108 + 0x20 * i, 29, 29⟩
abbrev UHP_R_CTRL.LOG2 (i : Nat) : Fld := ⟨0x1108 + 0x20 * i, 20, 16⟩
abbrev UHP_R_CTRL.QUOTA (i : Nat) : Fld := ⟨0x1108 + 0x20 * i, 10, 0⟩
abbrev UHP_R_STATE.word (i : Nat) : Fld := ⟨0x110C + 0x20 * i, 31, 0⟩
abbrev UHP_R_STATE.STATE (i : Nat) : Fld := ⟨0x110C + 0x20 * i, 31, 28⟩
abbrev UHP_R_STATE.DEV_IDX (i : Nat) : Fld := ⟨0x110C + 0x20 * i, 15, 0⟩
abbrev UHP_R_SEQ.word (i : Nat) : Fld := ⟨0x1110 + 0x20 * i, 31, 0⟩
abbrev UHP_R_SEQ.V (i : Nat) : Fld := ⟨0x1110 + 0x20 * i, 31, 0⟩
abbrev UHP_R_HOSTIDX.word (i : Nat) : Fld := ⟨0x1114 + 0x20 * i, 31, 0⟩
abbrev UHP_R_HOSTIDX.V (i : Nat) : Fld := ⟨0x1114 + 0x20 * i, 15, 0⟩
abbrev UHP_R_DONE.word (i : Nat) : Fld := ⟨0x1118 + 0x20 * i, 31, 0⟩
abbrev UHP_R_DONE.V (i : Nat) : Fld := ⟨0x1118 + 0x20 * i, 15, 0⟩
abbrev UHP_R_FAULT.word (i : Nat) : Fld := ⟨0x111C + 0x20 * i, 31, 0⟩
abbrev UHP_R_FAULT.V (i : Nat) : Fld := ⟨0x111C + 0x20 * i, 31, 0⟩
abbrev UHP_SB_MIRROR.word (i : Nat) : Fld := ⟨0x1800 + 0x4 * i, 31, 0⟩
abbrev UHP_SB_MIRROR.V (i : Nat) : Fld := ⟨0x1800 + 0x4 * i, 31, 0⟩
abbrev UHP_VEC_MOD.word (i : Nat) : Fld := ⟨0x1A00 + 0x4 * i, 31, 0⟩
abbrev UHP_VEC_MOD.HOLDOFF (i : Nat) : Fld := ⟨0x1A00 + 0x4 * i, 31, 16⟩
abbrev UHP_VEC_MOD.COUNT (i : Nat) : Fld := ⟨0x1A00 + 0x4 * i, 7, 0⟩
abbrev UHP_CMDH.word (i j : Nat) : Fld := ⟨0x1C00 + 0x10 * i + 0x4 * j, 31, 0⟩
abbrev UHP_CMDH.V (i j : Nat) : Fld := ⟨0x1C00 + 0x10 * i + 0x4 * j, 31, 0⟩
abbrev UHP_NOKH.word (i j : Nat) : Fld := ⟨0x1E00 + 0x10 * i + 0x4 * j, 31, 0⟩
abbrev UHP_NOKH.V (i j : Nat) : Fld := ⟨0x1E00 + 0x10 * i + 0x4 * j, 31, 0⟩
abbrev DMA_CTRL.word : Fld := ⟨0x2000, 31, 0⟩
abbrev DMA_CTRL.SNAP : Fld := ⟨0x2000, 31, 31⟩
abbrev DMA_CTRL.CMD_SHARE : Fld := ⟨0x2000, 3, 0⟩
abbrev DMA_FAST.word : Fld := ⟨0x2004, 31, 0⟩
abbrev DMA_FAST.FAST : Fld := ⟨0x2004, 15, 0⟩
abbrev DMA_STATUS.word : Fld := ⟨0x2008, 31, 0⟩
abbrev DMA_STATUS.BUSY : Fld := ⟨0x2008, 31, 31⟩
abbrev DMA_STATUS.HALTED : Fld := ⟨0x2008, 23, 8⟩
abbrev DMA_STATUS.RB_OUT : Fld := ⟨0x2008, 7, 0⟩
abbrev DMA_BOOK_FREE.word : Fld := ⟨0x2010, 31, 0⟩
abbrev DMA_BOOK_FREE.V : Fld := ⟨0x2010, 31, 0⟩
abbrev DMA_BOOK_FILLED.word : Fld := ⟨0x2014, 31, 0⟩
abbrev DMA_BOOK_FILLED.V : Fld := ⟨0x2014, 31, 0⟩
abbrev DMA_BOOK_INFLIGHT.word : Fld := ⟨0x2018, 31, 0⟩
abbrev DMA_BOOK_INFLIGHT.V : Fld := ⟨0x2018, 31, 0⟩
abbrev DMA_WR_LO.word : Fld := ⟨0x2020, 31, 0⟩
abbrev DMA_WR_LO.V : Fld := ⟨0x2020, 31, 0⟩
abbrev DMA_WR_HI.word : Fld := ⟨0x2024, 31, 0⟩
abbrev DMA_WR_HI.V : Fld := ⟨0x2024, 15, 0⟩
abbrev DMA_RB_ERR_CNT.word : Fld := ⟨0x2028, 31, 0⟩
abbrev DMA_RB_ERR_CNT.V : Fld := ⟨0x2028, 31, 0⟩
abbrev DMA_WITHDRAW_CNT.word : Fld := ⟨0x202C, 31, 0⟩
abbrev DMA_WITHDRAW_CNT.V : Fld := ⟨0x202C, 31, 0⟩
abbrev DMA_S_CONF_LO.word (i : Nat) : Fld := ⟨0x2100 + 0x10 * i, 31, 0⟩
abbrev DMA_S_CONF_LO.V (i : Nat) : Fld := ⟨0x2100 + 0x10 * i, 31, 0⟩
abbrev DMA_S_CONF_HI.word (i : Nat) : Fld := ⟨0x2104 + 0x10 * i, 31, 0⟩
abbrev DMA_S_CONF_HI.V (i : Nat) : Fld := ⟨0x2104 + 0x10 * i, 15, 0⟩
abbrev DMA_S_HELD.word (i : Nat) : Fld := ⟨0x2108 + 0x10 * i, 31, 0⟩
abbrev DMA_S_HELD.V (i : Nat) : Fld := ⟨0x2108 + 0x10 * i, 31, 0⟩
abbrev QDR_CTRL.word : Fld := ⟨0x3000, 31, 0⟩
abbrev QDR_CTRL.SCRUB_EN : Fld := ⟨0x3000, 31, 31⟩
abbrev QDR_CTRL.HOST_TMO : Fld := ⟨0x3000, 15, 0⟩
abbrev QDR_STATUS.word : Fld := ⟨0x3004, 31, 0⟩
abbrev QDR_STATUS.HALT : Fld := ⟨0x3004, 31, 31⟩
abbrev QDR_STATUS.SCRUB_LATE : Fld := ⟨0x3004, 30, 30⟩
abbrev QDR_STATUS.FAILED : Fld := ⟨0x3004, 11, 8⟩
abbrev QDR_STATUS.MAP : Fld := ⟨0x3004, 3, 0⟩
abbrev QDR_MAP_REQ.word : Fld := ⟨0x3008, 31, 0⟩
abbrev QDR_MAP_REQ.OUT : Fld := ⟨0x3008, 3, 0⟩
abbrev QDR_STAGE_SIZE.word : Fld := ⟨0x300C, 31, 0⟩
abbrev QDR_STAGE_SIZE.V : Fld := ⟨0x300C, 31, 0⟩
abbrev QDR_TABLES_BASE.word : Fld := ⟨0x3010, 31, 0⟩
abbrev QDR_TABLES_BASE.V : Fld := ⟨0x3010, 31, 0⟩
abbrev QDR_SVC_BASE.word : Fld := ⟨0x3014, 31, 0⟩
abbrev QDR_SVC_BASE.V : Fld := ⟨0x3014, 31, 0⟩
abbrev QDR_PERR_CNT.word : Fld := ⟨0x3020, 31, 0⟩
abbrev QDR_PERR_CNT.V : Fld := ⟨0x3020, 31, 0⟩
abbrev QDR_PERR_ADDR.word : Fld := ⟨0x3024, 31, 0⟩
abbrev QDR_PERR_ADDR.V : Fld := ⟨0x3024, 26, 0⟩
abbrev QDR_PERR_SRC.word : Fld := ⟨0x3028, 31, 0⟩
abbrev QDR_PERR_SRC.PORT : Fld := ⟨0x3028, 7, 4⟩
abbrev QDR_PERR_SRC.REQ : Fld := ⟨0x3028, 1, 0⟩
abbrev QDR_SCRUB_ERR_CNT.word : Fld := ⟨0x302C, 31, 0⟩
abbrev QDR_SCRUB_ERR_CNT.V : Fld := ⟨0x302C, 31, 0⟩
abbrev QDR_SCRUB_PASS.word : Fld := ⟨0x3030, 31, 0⟩
abbrev QDR_SCRUB_PASS.V : Fld := ⟨0x3030, 31, 0⟩
abbrev QDR_SCRUB_LAST.word : Fld := ⟨0x3034, 31, 0⟩
abbrev QDR_SCRUB_LAST.V : Fld := ⟨0x3034, 19, 0⟩
abbrev QDR_HOST_ABORT_CNT.word : Fld := ⟨0x3038, 31, 0⟩
abbrev QDR_HOST_ABORT_CNT.V : Fld := ⟨0x3038, 31, 0⟩
abbrev QDR_HOST_DROP_CNT.word : Fld := ⟨0x303C, 31, 0⟩
abbrev QDR_HOST_DROP_CNT.V : Fld := ⟨0x303C, 31, 0⟩
abbrev ARB_WDOG_LIMIT.word : Fld := ⟨0x3040, 31, 0⟩
abbrev ARB_WDOG_LIMIT.V : Fld := ⟨0x3040, 19, 0⟩
abbrev ARB_WDOG_STATUS.word : Fld := ⟨0x3044, 31, 0⟩
abbrev ARB_WDOG_STATUS.FIRED : Fld := ⟨0x3044, 31, 31⟩
abbrev ARB_WDOG_STATUS.PORT : Fld := ⟨0x3044, 11, 8⟩
abbrev ARB_WDOG_STATUS.INPUT : Fld := ⟨0x3044, 5, 4⟩
abbrev ARB_WDOG_STATUS.REQ : Fld := ⟨0x3044, 1, 0⟩
abbrev ARB_STAT_CTRL.word : Fld := ⟨0x3048, 31, 0⟩
abbrev ARB_STAT_CTRL.SNAP : Fld := ⟨0x3048, 31, 31⟩
abbrev ARB_STAT_CTRL.CLR : Fld := ⟨0x3048, 30, 30⟩
abbrev ARB_RANKMAP_BCAST.word : Fld := ⟨0x304C, 31, 0⟩
abbrev ARB_RANKMAP_BCAST.SELA : Fld := ⟨0x304C, 31, 31⟩
abbrev ARB_RANKMAP_BCAST.SELB : Fld := ⟨0x304C, 30, 30⟩
abbrev ARB_RANKMAP_BCAST.MAP : Fld := ⟨0x304C, 7, 0⟩
abbrev ARB_CTRL.word (i : Nat) : Fld := ⟨0x3100 + 0x80 * i, 31, 0⟩
abbrev ARB_CTRL.MODE (i : Nat) : Fld := ⟨0x3100 + 0x80 * i, 31, 31⟩
abbrev ARB_CTRL.SLOT_LEN (i : Nat) : Fld := ⟨0x3100 + 0x80 * i, 5, 0⟩
abbrev ARB_RANKMAP.word (i : Nat) : Fld := ⟨0x3104 + 0x80 * i, 31, 0⟩
abbrev ARB_RANKMAP.IN3 (i : Nat) : Fld := ⟨0x3104 + 0x80 * i, 7, 6⟩
abbrev ARB_RANKMAP.IN2 (i : Nat) : Fld := ⟨0x3104 + 0x80 * i, 5, 4⟩
abbrev ARB_RANKMAP.IN1 (i : Nat) : Fld := ⟨0x3104 + 0x80 * i, 3, 2⟩
abbrev ARB_RANKMAP.IN0 (i : Nat) : Fld := ⟨0x3104 + 0x80 * i, 1, 0⟩
abbrev ARB_STATE.word (i : Nat) : Fld := ⟨0x3108 + 0x80 * i, 31, 0⟩
abbrev ARB_STATE.GRANTED (i : Nat) : Fld := ⟨0x3108 + 0x80 * i, 31, 31⟩
abbrev ARB_STATE.MAP_ERR (i : Nat) : Fld := ⟨0x3108 + 0x80 * i, 30, 30⟩
abbrev ARB_STATE.OWNER (i : Nat) : Fld := ⟨0x3108 + 0x80 * i, 29, 28⟩
abbrev ARB_STATE.TXN (i : Nat) : Fld := ⟨0x3108 + 0x80 * i, 27, 24⟩
abbrev ARB_STATE.REQ (i : Nat) : Fld := ⟨0x3108 + 0x80 * i, 19, 16⟩
abbrev ARB_STATE.SLOT (i : Nat) : Fld := ⟨0x3108 + 0x80 * i, 4, 0⟩
abbrev ARB_GRANTS.word (i j : Nat) : Fld := ⟨0x3120 + 0x80 * i + 0x18 * j, 31, 0⟩
abbrev ARB_GRANTS.V (i j : Nat) : Fld := ⟨0x3120 + 0x80 * i + 0x18 * j, 31, 0⟩
abbrev ARB_WAITCYC_LO.word (i j : Nat) : Fld := ⟨0x3124 + 0x80 * i + 0x18 * j, 31, 0⟩
abbrev ARB_WAITCYC_LO.V (i j : Nat) : Fld := ⟨0x3124 + 0x80 * i + 0x18 * j, 31, 0⟩
abbrev ARB_WAITCYC_HI.word (i j : Nat) : Fld := ⟨0x3128 + 0x80 * i + 0x18 * j, 31, 0⟩
abbrev ARB_WAITCYC_HI.V (i j : Nat) : Fld := ⟨0x3128 + 0x80 * i + 0x18 * j, 15, 0⟩
abbrev ARB_MAXWAIT.word (i j : Nat) : Fld := ⟨0x312C + 0x80 * i + 0x18 * j, 31, 0⟩
abbrev ARB_MAXWAIT.V (i j : Nat) : Fld := ⟨0x312C + 0x80 * i + 0x18 * j, 19, 0⟩
abbrev ARB_PREEMPT.word (i j : Nat) : Fld := ⟨0x3130 + 0x80 * i + 0x18 * j, 31, 0⟩
abbrev ARB_PREEMPT.V (i j : Nat) : Fld := ⟨0x3130 + 0x80 * i + 0x18 * j, 31, 0⟩
abbrev ARB_SLOT.word (i j : Nat) : Fld := ⟨0x3A00 + 0x10 * i + 0x4 * j, 31, 0⟩
abbrev ARB_SLOT.OWN7 (i j : Nat) : Fld := ⟨0x3A00 + 0x10 * i + 0x4 * j, 30, 28⟩
abbrev ARB_SLOT.OWN6 (i j : Nat) : Fld := ⟨0x3A00 + 0x10 * i + 0x4 * j, 26, 24⟩
abbrev ARB_SLOT.OWN5 (i j : Nat) : Fld := ⟨0x3A00 + 0x10 * i + 0x4 * j, 22, 20⟩
abbrev ARB_SLOT.OWN4 (i j : Nat) : Fld := ⟨0x3A00 + 0x10 * i + 0x4 * j, 18, 16⟩
abbrev ARB_SLOT.OWN3 (i j : Nat) : Fld := ⟨0x3A00 + 0x10 * i + 0x4 * j, 14, 12⟩
abbrev ARB_SLOT.OWN2 (i j : Nat) : Fld := ⟨0x3A00 + 0x10 * i + 0x4 * j, 10, 8⟩
abbrev ARB_SLOT.OWN1 (i j : Nat) : Fld := ⟨0x3A00 + 0x10 * i + 0x4 * j, 6, 4⟩
abbrev ARB_SLOT.OWN0 (i j : Nat) : Fld := ⟨0x3A00 + 0x10 * i + 0x4 * j, 2, 0⟩
abbrev QUE_CTRL.word : Fld := ⟨0x4000, 31, 0⟩
abbrev QUE_CTRL.HWM_CLR : Fld := ⟨0x4000, 31, 31⟩
abbrev QUE_STATUS.word : Fld := ⟨0x4004, 31, 0⟩
abbrev QUE_STATUS.RES_LOST : Fld := ⟨0x4004, 31, 31⟩
abbrev QUE_STATUS.FIRST : Fld := ⟨0x4004, 6, 0⟩
abbrev QUE_LOST.word (i : Nat) : Fld := ⟨0x4100 + 0x10 * i, 31, 0⟩
abbrev QUE_LOST.V (i : Nat) : Fld := ⟨0x4100 + 0x10 * i, 31, 0⟩
abbrev QUE_POISON.word (i : Nat) : Fld := ⟨0x4104 + 0x10 * i, 31, 0⟩
abbrev QUE_POISON.V (i : Nat) : Fld := ⟨0x4104 + 0x10 * i, 31, 0⟩
abbrev QUE_BAD.word (i : Nat) : Fld := ⟨0x4108 + 0x10 * i, 31, 0⟩
abbrev QUE_BAD.V (i : Nat) : Fld := ⟨0x4108 + 0x10 * i, 31, 0⟩
abbrev QUE_LEVEL.word (i : Nat) : Fld := ⟨0x410C + 0x10 * i, 31, 0⟩
abbrev QUE_LEVEL.HWM (i : Nat) : Fld := ⟨0x410C + 0x10 * i, 31, 16⟩
abbrev QUE_LEVEL.LEVEL (i : Nat) : Fld := ⟨0x410C + 0x10 * i, 15, 0⟩
abbrev TG_CTRL.word (i : Nat) : Fld := ⟨0x5000 + 0x1000 * i, 31, 0⟩
abbrev TG_CTRL.EN (i : Nat) : Fld := ⟨0x5000 + 0x1000 * i, 31, 31⟩
abbrev TG_CTRL.FLUSH (i : Nat) : Fld := ⟨0x5000 + 0x1000 * i, 23, 16⟩
abbrev TG_CTRL.FOLLOW (i : Nat) : Fld := ⟨0x5000 + 0x1000 * i, 8, 8⟩
abbrev TG_STATUS.word (i : Nat) : Fld := ⟨0x5004 + 0x1000 * i, 31, 0⟩
abbrev TG_STATUS.CFG_ERR (i : Nat) : Fld := ⟨0x5004 + 0x1000 * i, 31, 31⟩
abbrev TG_STATUS.ERR_CODE (i : Nat) : Fld := ⟨0x5004 + 0x1000 * i, 23, 16⟩
abbrev TG_STATUS.BUSY (i : Nat) : Fld := ⟨0x5004 + 0x1000 * i, 1, 1⟩
abbrev TG_STATUS.HELD (i : Nat) : Fld := ⟨0x5004 + 0x1000 * i, 0, 0⟩
abbrev TG_VCLK.word (i : Nat) : Fld := ⟨0x5008 + 0x1000 * i, 31, 0⟩
abbrev TG_VCLK.FREQ_KHZ (i : Nat) : Fld := ⟨0x5008 + 0x1000 * i, 16, 0⟩
abbrev TG_LINE_FMT.word (i : Nat) : Fld := ⟨0x500C + 0x1000 * i, 31, 0⟩
abbrev TG_LINE_FMT.ACTIVE (i : Nat) : Fld := ⟨0x500C + 0x1000 * i, 25, 16⟩
abbrev TG_LINE_FMT.DUMMY (i : Nat) : Fld := ⟨0x500C + 0x1000 * i, 11, 8⟩
abbrev TG_LINE_FMT.OVH (i : Nat) : Fld := ⟨0x500C + 0x1000 * i, 5, 0⟩
abbrev TG_SAMPLE.word (i : Nat) : Fld := ⟨0x5010 + 0x1000 * i, 31, 0⟩
abbrev TG_SAMPLE.SHR (i : Nat) : Fld := ⟨0x5010 + 0x1000 * i, 27, 24⟩
abbrev TG_SAMPLE.SHD (i : Nat) : Fld := ⟨0x5010 + 0x1000 * i, 19, 16⟩
abbrev TG_EXP_ROW.word (i j : Nat) : Fld := ⟨0x5020 + 0x1000 * i + 0x4 * j, 31, 0⟩
abbrev TG_EXP_ROW.EXP (i j : Nat) : Fld := ⟨0x5020 + 0x1000 * i + 0x4 * j, 23, 0⟩
abbrev TG_AUX_MODE.word (i : Nat) : Fld := ⟨0x5030 + 0x1000 * i, 31, 0⟩
abbrev TG_AUX_MODE.MODE (i : Nat) : Fld := ⟨0x5030 + 0x1000 * i, 2, 0⟩
abbrev TG_LATE_CNT.word (i : Nat) : Fld := ⟨0x5040 + 0x1000 * i, 31, 0⟩
abbrev TG_LATE_CNT.V (i : Nat) : Fld := ⟨0x5040 + 0x1000 * i, 31, 0⟩
abbrev TG_OVERRUN_CNT.word (i : Nat) : Fld := ⟨0x5044 + 0x1000 * i, 31, 0⟩
abbrev TG_OVERRUN_CNT.V (i : Nat) : Fld := ⟨0x5044 + 0x1000 * i, 31, 0⟩
abbrev TG_SUBST_CNT.word (i : Nat) : Fld := ⟨0x5048 + 0x1000 * i, 31, 0⟩
abbrev TG_SUBST_CNT.V (i : Nat) : Fld := ⟨0x5048 + 0x1000 * i, 31, 0⟩
abbrev TG_OUT_CFG.word (i j : Nat) : Fld := ⟨0x5100 + 0x1000 * i + 0x8 * j, 31, 0⟩
abbrev TG_OUT_CFG.EN (i j : Nat) : Fld := ⟨0x5100 + 0x1000 * i + 0x8 * j, 31, 31⟩
abbrev TG_OUT_CFG.LVDS (i j : Nat) : Fld := ⟨0x5100 + 0x1000 * i + 0x8 * j, 30, 30⟩
abbrev TG_OUT_CFG.INV (i j : Nat) : Fld := ⟨0x5100 + 0x1000 * i + 0x8 * j, 29, 29⟩
abbrev TG_OUT_CFG.FUNC (i j : Nat) : Fld := ⟨0x5100 + 0x1000 * i + 0x8 * j, 26, 24⟩
abbrev TG_OUT_CFG.RISE (i j : Nat) : Fld := ⟨0x5100 + 0x1000 * i + 0x8 * j, 23, 20⟩
abbrev TG_OUT_CFG.FALL (i j : Nat) : Fld := ⟨0x5100 + 0x1000 * i + 0x8 * j, 19, 16⟩
abbrev TG_OUT_CFG.ROW (i j : Nat) : Fld := ⟨0x5100 + 0x1000 * i + 0x8 * j, 13, 12⟩
abbrev TG_OUT_CFG.GATE (i j : Nat) : Fld := ⟨0x5100 + 0x1000 * i + 0x8 * j, 9, 8⟩
abbrev TG_OUT_LINE.word (i j : Nat) : Fld := ⟨0x5104 + 0x1000 * i + 0x8 * j, 31, 0⟩
abbrev TG_OUT_LINE.START (i j : Nat) : Fld := ⟨0x5104 + 0x1000 * i + 0x8 * j, 31, 16⟩
abbrev TG_OUT_LINE.WIDTH (i j : Nat) : Fld := ⟨0x5104 + 0x1000 * i + 0x8 * j, 15, 0⟩
abbrev TG_CHMAP.word (i j : Nat) : Fld := ⟨0x5200 + 0x1000 * i + 0x4 * j, 31, 0⟩
abbrev TG_CHMAP.EN (i j : Nat) : Fld := ⟨0x5200 + 0x1000 * i + 0x4 * j, 31, 31⟩
abbrev TG_CHMAP.SIDE (i j : Nat) : Fld := ⟨0x5200 + 0x1000 * i + 0x4 * j, 28, 28⟩
abbrev TG_CHMAP.ROW (i j : Nat) : Fld := ⟨0x5200 + 0x1000 * i + 0x4 * j, 25, 24⟩
abbrev TG_CHMAP.TAP (i j : Nat) : Fld := ⟨0x5200 + 0x1000 * i + 0x4 * j, 18, 16⟩
abbrev TG_CHMAP.DIR (i j : Nat) : Fld := ⟨0x5200 + 0x1000 * i + 0x4 * j, 15, 15⟩
abbrev TG_CHMAP.SKEW (i j : Nat) : Fld := ⟨0x5200 + 0x1000 * i + 0x4 * j, 11, 8⟩
abbrev SDB_CTRL.word (i : Nat) : Fld := ⟨0x5300 + 0x1000 * i, 31, 0⟩
abbrev SDB_CTRL.LOAD (i : Nat) : Fld := ⟨0x5300 + 0x1000 * i, 31, 31⟩
abbrev SDB_CTRL.POLICY (i : Nat) : Fld := ⟨0x5300 + 0x1000 * i, 9, 8⟩
abbrev SDB_CTRL.FAST (i : Nat) : Fld := ⟨0x5300 + 0x1000 * i, 7, 7⟩
abbrev SDB_CTRL.ADDR (i : Nat) : Fld := ⟨0x5300 + 0x1000 * i, 6, 0⟩
abbrev SDB_STATUS.word (i : Nat) : Fld := ⟨0x5304 + 0x1000 * i, 31, 0⟩
abbrev SDB_STATUS.PRESENT (i : Nat) : Fld := ⟨0x5304 + 0x1000 * i, 31, 31⟩
abbrev SDB_STATUS.VALID (i : Nat) : Fld := ⟨0x5304 + 0x1000 * i, 30, 30⟩
abbrev SDB_STATUS.APPLIED (i : Nat) : Fld := ⟨0x5304 + 0x1000 * i, 29, 29⟩
abbrev SDB_STATUS.VER_MAJOR (i : Nat) : Fld := ⟨0x5304 + 0x1000 * i, 23, 16⟩
abbrev SDB_STATUS.VER_MINOR (i : Nat) : Fld := ⟨0x5304 + 0x1000 * i, 15, 8⟩
abbrev SDB_STATUS.ERR (i : Nat) : Fld := ⟨0x5304 + 0x1000 * i, 3, 0⟩
abbrev SDB_SERIAL_LO.word (i : Nat) : Fld := ⟨0x5308 + 0x1000 * i, 31, 0⟩
abbrev SDB_SERIAL_LO.V (i : Nat) : Fld := ⟨0x5308 + 0x1000 * i, 31, 0⟩
abbrev SDB_SERIAL_HI.word (i : Nat) : Fld := ⟨0x530C + 0x1000 * i, 31, 0⟩
abbrev SDB_SERIAL_HI.V (i : Nat) : Fld := ⟨0x530C + 0x1000 * i, 31, 0⟩
abbrev ILL_CTRL.word : Fld := ⟨0x7000, 31, 0⟩
abbrev ILL_CTRL.EN : Fld := ⟨0x7000, 31, 31⟩
abbrev ILL_PWR.word : Fld := ⟨0x7004, 31, 0⟩
abbrev ILL_PWR.BUDGET_MW : Fld := ⟨0x7004, 15, 0⟩
abbrev ILL_FAULT.word : Fld := ⟨0x7008, 31, 0⟩
abbrev ILL_FAULT.CH : Fld := ⟨0x7008, 9, 0⟩
abbrev ILL_CFG.word (i : Nat) : Fld := ⟨0x7100 + 0x10 * i, 31, 0⟩
abbrev ILL_CFG.EN (i : Nat) : Fld := ⟨0x7100 + 0x10 * i, 31, 31⟩
abbrev ILL_CFG.SKEW (i : Nat) : Fld := ⟨0x7100 + 0x10 * i, 3, 0⟩
abbrev ILL_CUR.word (i : Nat) : Fld := ⟨0x7104 + 0x10 * i, 31, 0⟩
abbrev ILL_CUR.LEVEL (i : Nat) : Fld := ⟨0x7104 + 0x10 * i, 9, 0⟩
abbrev ILL_STATUS.word (i : Nat) : Fld := ⟨0x7108 + 0x10 * i, 31, 0⟩
abbrev ILL_STATUS.OPEN (i : Nat) : Fld := ⟨0x7108 + 0x10 * i, 31, 31⟩
abbrev ILL_STATUS.SHORT (i : Nat) : Fld := ⟨0x7108 + 0x10 * i, 30, 30⟩
abbrev ILL_STATUS.OT (i : Nat) : Fld := ⟨0x7108 + 0x10 * i, 29, 29⟩
abbrev ILL_STATUS.VF_MV (i : Nat) : Fld := ⟨0x7108 + 0x10 * i, 15, 0⟩
abbrev AFE_CTRL.word (i : Nat) : Fld := ⟨0x8000 + 0x1000 * i, 31, 0⟩
abbrev AFE_CTRL.CONV_EN (i : Nat) : Fld := ⟨0x8000 + 0x1000 * i, 31, 31⟩
abbrev AFE_CTRL.POLICY (i : Nat) : Fld := ⟨0x8000 + 0x1000 * i, 8, 8⟩
abbrev AFE_CTRL.ROT_EN (i : Nat) : Fld := ⟨0x8000 + 0x1000 * i, 4, 4⟩
abbrev AFE_STATUS.word (i : Nat) : Fld := ⟨0x8004 + 0x1000 * i, 31, 0⟩
abbrev AFE_STATUS.REF_SETTLED (i : Nat) : Fld := ⟨0x8004 + 0x1000 * i, 31, 31⟩
abbrev AFE_STATUS.CONV_RUN (i : Nat) : Fld := ⟨0x8004 + 0x1000 * i, 30, 30⟩
abbrev AFE_STATUS.REF_FAULT (i : Nat) : Fld := ⟨0x8004 + 0x1000 * i, 29, 29⟩
abbrev AFE_STATUS.REF_TIMEOUT (i : Nat) : Fld := ⟨0x8004 + 0x1000 * i, 28, 28⟩
abbrev AFE_REF_CTRL.word (i : Nat) : Fld := ⟨0x8008 + 0x1000 * i, 31, 0⟩
abbrev AFE_REF_CTRL.BUF_EN (i : Nat) : Fld := ⟨0x8008 + 0x1000 * i, 31, 31⟩
abbrev AFE_REF_CTRL.MODE (i : Nat) : Fld := ⟨0x8008 + 0x1000 * i, 1, 0⟩
abbrev AFE_REF_AGE.word (i : Nat) : Fld := ⟨0x800C + 0x1000 * i, 31, 0⟩
abbrev AFE_REF_AGE.BUF_MS (i : Nat) : Fld := ⟨0x800C + 0x1000 * i, 15, 0⟩
abbrev AFE_TEMP.word (i : Nat) : Fld := ⟨0x8010 + 0x1000 * i, 31, 0⟩
abbrev AFE_TEMP.TEMP (i : Nat) : Fld := ⟨0x8010 + 0x1000 * i, 15, 0⟩
abbrev AFE_ROT.word (i : Nat) : Fld := ⟨0x8014 + 0x1000 * i, 31, 0⟩
abbrev AFE_ROT.LINES (i : Nat) : Fld := ⟨0x8014 + 0x1000 * i, 15, 0⟩
abbrev AFE_OB_WIN_LO.word (i : Nat) : Fld := ⟨0x8020 + 0x1000 * i, 31, 0⟩
abbrev AFE_OB_WIN_LO.CODE (i : Nat) : Fld := ⟨0x8020 + 0x1000 * i, 15, 0⟩
abbrev AFE_OB_WIN_HI.word (i : Nat) : Fld := ⟨0x8024 + 0x1000 * i, 31, 0⟩
abbrev AFE_OB_WIN_HI.CODE (i : Nat) : Fld := ⟨0x8024 + 0x1000 * i, 15, 0⟩
abbrev AFE_OVR_LIMIT.word (i : Nat) : Fld := ⟨0x8028 + 0x1000 * i, 31, 0⟩
abbrev AFE_OVR_LIMIT.LIMIT (i : Nat) : Fld := ⟨0x8028 + 0x1000 * i, 9, 0⟩
abbrev AFE_TAP_FAULT.word (i : Nat) : Fld := ⟨0x8030 + 0x1000 * i, 31, 0⟩
abbrev AFE_TAP_FAULT.V (i : Nat) : Fld := ⟨0x8030 + 0x1000 * i, 31, 0⟩
abbrev AFE_SLICE_FAIL.word (i : Nat) : Fld := ⟨0x8034 + 0x1000 * i, 31, 0⟩
abbrev AFE_SLICE_FAIL.V (i : Nat) : Fld := ⟨0x8034 + 0x1000 * i, 31, 0⟩
abbrev AFE_OVR_PIX.word (i : Nat) : Fld := ⟨0x8038 + 0x1000 * i, 31, 0⟩
abbrev AFE_OVR_PIX.V (i : Nat) : Fld := ⟨0x8038 + 0x1000 * i, 31, 0⟩
abbrev AFE_CH_CFG.word (i j : Nat) : Fld := ⟨0x8100 + 0x1000 * i + 0x10 * j, 31, 0⟩
abbrev AFE_CH_CFG.SAMPLING (i j : Nat) : Fld := ⟨0x8100 + 0x1000 * i + 0x10 * j, 31, 31⟩
abbrev AFE_CH_CFG.TERM (i j : Nat) : Fld := ⟨0x8100 + 0x1000 * i + 0x10 * j, 30, 30⟩
abbrev AFE_CH_CFG.RANGE (i j : Nat) : Fld := ⟨0x8100 + 0x1000 * i + 0x10 * j, 25, 24⟩
abbrev AFE_CH_CFG.CLAMP (i j : Nat) : Fld := ⟨0x8100 + 0x1000 * i + 0x10 * j, 17, 16⟩
abbrev AFE_CH_TRIM.word (i j : Nat) : Fld := ⟨0x8104 + 0x1000 * i + 0x10 * j, 31, 0⟩
abbrev AFE_CH_TRIM.GAIN (i j : Nat) : Fld := ⟨0x8104 + 0x1000 * i + 0x10 * j, 27, 16⟩
abbrev AFE_CH_TRIM.OFS (i j : Nat) : Fld := ⟨0x8104 + 0x1000 * i + 0x10 * j, 11, 0⟩
abbrev AFE_CH_SLICE.word (i j : Nat) : Fld := ⟨0x8108 + 0x1000 * i + 0x10 * j, 31, 0⟩
abbrev AFE_CH_SLICE.FAILED (i j : Nat) : Fld := ⟨0x8108 + 0x1000 * i + 0x10 * j, 31, 31⟩
abbrev AFE_CH_SLICE.SPARE (i j : Nat) : Fld := ⟨0x8108 + 0x1000 * i + 0x10 * j, 30, 28⟩
abbrev AFE_CH_SLICE.FAIL_SLICE (i j : Nat) : Fld := ⟨0x8108 + 0x1000 * i + 0x10 * j, 26, 24⟩
abbrev AFE_CH_SLICE.FAIL_CODE (i j : Nat) : Fld := ⟨0x8108 + 0x1000 * i + 0x10 * j, 23, 20⟩
abbrev AFE_CH_SLICE.ROT_COUNT (i j : Nat) : Fld := ⟨0x8108 + 0x1000 * i + 0x10 * j, 15, 0⟩
abbrev AFE_CH_STATUS.word (i j : Nat) : Fld := ⟨0x810C + 0x1000 * i + 0x10 * j, 31, 0⟩
abbrev AFE_CH_STATUS.STALE (i j : Nat) : Fld := ⟨0x810C + 0x1000 * i + 0x10 * j, 31, 31⟩
abbrev AFE_CH_STATUS.CHK (i j : Nat) : Fld := ⟨0x810C + 0x1000 * i + 0x10 * j, 27, 24⟩
abbrev AFE_CH_STATUS.OB_MEAN (i j : Nat) : Fld := ⟨0x810C + 0x1000 * i + 0x10 * j, 15, 0⟩
abbrev CAL_CTRL.word : Fld := ⟨0xA000, 31, 0⟩
abbrev CAL_CTRL.GAP_EN : Fld := ⟨0xA000, 31, 31⟩
abbrev CAL_CTRL.CAL_FORCE_GAP : Fld := ⟨0xA000, 30, 30⟩
abbrev CAL_CTRL.NOREF : Fld := ⟨0xA000, 29, 29⟩
abbrev CAL_CTRL.LEAD_EN : Fld := ⟨0xA000, 28, 28⟩
abbrev CAL_CTRL.LEAD_DI : Fld := ⟨0xA000, 27, 24⟩
abbrev CAL_CTRL.LED_EN : Fld := ⟨0xA000, 18, 18⟩
abbrev CAL_CTRL.GAIN_EN : Fld := ⟨0xA000, 17, 17⟩
abbrev CAL_CTRL.OFS_EN : Fld := ⟨0xA000, 16, 16⟩
abbrev CAL_CTRL.GAP_MARGIN : Fld := ⟨0xA000, 7, 0⟩
abbrev CAL_STATUS.word : Fld := ⟨0xA004, 31, 0⟩
abbrev CAL_STATUS.CAL_INVALID : Fld := ⟨0xA004, 31, 30⟩
abbrev CAL_STATUS.UNTRACED : Fld := ⟨0xA004, 29, 29⟩
abbrev CAL_STATUS.RTD_STALE : Fld := ⟨0xA004, 28, 27⟩
abbrev CAL_STATUS.FULL_OPEN : Fld := ⟨0xA004, 26, 26⟩
abbrev CAL_STATUS.PENDING : Fld := ⟨0xA004, 25, 25⟩
abbrev CAL_STATUS.RUNNING : Fld := ⟨0xA004, 24, 24⟩
abbrev CAL_STATUS.CAUSE : Fld := ⟨0xA004, 23, 20⟩
abbrev CAL_STATUS.COPY : Fld := ⟨0xA004, 17, 16⟩
abbrev CAL_STATUS.DEFER : Fld := ⟨0xA004, 15, 8⟩
abbrev CAL_DT.word : Fld := ⟨0xA008, 31, 0⟩
abbrev CAL_DT.V : Fld := ⟨0xA008, 15, 0⟩
abbrev CAL_MAX_DEFER.word : Fld := ⟨0xA00C, 31, 0⟩
abbrev CAL_MAX_DEFER.V : Fld := ⟨0xA00C, 7, 0⟩
abbrev CAL_SCHED.word : Fld := ⟨0xA010, 31, 0⟩
abbrev CAL_SCHED.V : Fld := ⟨0xA010, 15, 0⟩
abbrev CAL_LEAD.word : Fld := ⟨0xA014, 31, 0⟩
abbrev CAL_LEAD.V : Fld := ⟨0xA014, 23, 0⟩
abbrev CAL_DARK_TGT.word : Fld := ⟨0xA018, 31, 0⟩
abbrev CAL_DARK_TGT.V : Fld := ⟨0xA018, 15, 0⟩
abbrev CAL_WHITE_RAW.word : Fld := ⟨0xA01C, 31, 0⟩
abbrev CAL_WHITE_RAW.V : Fld := ⟨0xA01C, 15, 0⟩
abbrev CAL_WHITE_OUT.word : Fld := ⟨0xA020, 31, 0⟩
abbrev CAL_WHITE_OUT.V : Fld := ⟨0xA020, 15, 0⟩
abbrev CAL_FULL_LINES.word : Fld := ⟨0xA024, 31, 0⟩
abbrev CAL_FULL_LINES.V : Fld := ⟨0xA024, 10, 0⟩
abbrev CAL_LIM_OFS.word : Fld := ⟨0xA030, 31, 0⟩
abbrev CAL_LIM_OFS.FULL_STEP : Fld := ⟨0xA030, 31, 20⟩
abbrev CAL_LIM_OFS.ABS : Fld := ⟨0xA030, 19, 8⟩
abbrev CAL_LIM_OFS.GAP_STEP : Fld := ⟨0xA030, 7, 0⟩
abbrev CAL_LIM_GAIN.word : Fld := ⟨0xA034, 31, 0⟩
abbrev CAL_LIM_GAIN.FULL_STEP : Fld := ⟨0xA034, 31, 20⟩
abbrev CAL_LIM_GAIN.ABS : Fld := ⟨0xA034, 19, 8⟩
abbrev CAL_LIM_GAIN.GAP_STEP : Fld := ⟨0xA034, 7, 0⟩
abbrev CAL_LIM_LED.word : Fld := ⟨0xA038, 31, 0⟩
abbrev CAL_LIM_LED.FULL_STEP : Fld := ⟨0xA038, 31, 22⟩
abbrev CAL_LIM_LED.MIN : Fld := ⟨0xA038, 21, 12⟩
abbrev CAL_LIM_LED.GAP_PCT : Fld := ⟨0xA038, 7, 0⟩
abbrev CAL_DEFECT.word : Fld := ⟨0xA03C, 31, 0⟩
abbrev CAL_DEFECT.LO_PCT : Fld := ⟨0xA03C, 31, 24⟩
abbrev CAL_DEFECT.HI_PCT : Fld := ⟨0xA03C, 23, 16⟩
abbrev CAL_DEFECT.DARK : Fld := ⟨0xA03C, 15, 0⟩
abbrev CAL_TSRC.word : Fld := ⟨0xA040, 31, 0⟩
abbrev CAL_TSRC.SIDE1 : Fld := ⟨0xA040, 7, 4⟩
abbrev CAL_TSRC.SIDE0 : Fld := ⟨0xA040, 3, 0⟩
abbrev CAL_TREF_AFE.word (i : Nat) : Fld := ⟨0xA044 + 0x4 * i, 31, 0⟩
abbrev CAL_TREF_AFE.V (i : Nat) : Fld := ⟨0xA044 + 0x4 * i, 15, 0⟩
abbrev CAL_TREF_RTD.word (i : Nat) : Fld := ⟨0xA04C + 0x4 * i, 31, 0⟩
abbrev CAL_TREF_RTD.V (i : Nat) : Fld := ⟨0xA04C + 0x4 * i, 15, 0⟩
abbrev CAL_GAP_CNT.word : Fld := ⟨0xA060, 31, 0⟩
abbrev CAL_GAP_CNT.V : Fld := ⟨0xA060, 31, 0⟩
abbrev CAL_ABANDON_CNT.word : Fld := ⟨0xA064, 31, 0⟩
abbrev CAL_ABANDON_CNT.V : Fld := ⟨0xA064, 31, 0⟩
abbrev CAL_REJ_CNT.word : Fld := ⟨0xA068, 31, 0⟩
abbrev CAL_REJ_CNT.V : Fld := ⟨0xA068, 31, 0⟩
abbrev CAL_CH_REJ_LO.word : Fld := ⟨0xA06C, 31, 0⟩
abbrev CAL_CH_REJ_LO.V : Fld := ⟨0xA06C, 31, 0⟩
abbrev CAL_CH_REJ_HI.word : Fld := ⟨0xA070, 31, 0⟩
abbrev CAL_CH_REJ_HI.V : Fld := ⟨0xA070, 31, 0⟩
abbrev CAL_LED_REJ.word : Fld := ⟨0xA074, 31, 0⟩
abbrev CAL_LED_REJ.V : Fld := ⟨0xA074, 9, 0⟩
abbrev CAL_REF_CORR.word (i : Nat) : Fld := ⟨0xA078 + 0x4 * i, 31, 0⟩
abbrev CAL_REF_CORR.V (i : Nat) : Fld := ⟨0xA078 + 0x4 * i, 31, 0⟩
abbrev CAL_GEN.word : Fld := ⟨0xA080, 31, 0⟩
abbrev CAL_GEN.V : Fld := ⟨0xA080, 31, 0⟩
abbrev SHD_CTRL.word : Fld := ⟨0xB000, 31, 0⟩
abbrev SHD_CTRL.EN : Fld := ⟨0xB000, 31, 31⟩
abbrev SHD_CTRL.DEFECT_EN : Fld := ⟨0xB000, 30, 30⟩
abbrev SHD_TRK_CTRL.word : Fld := ⟨0xB004, 31, 0⟩
abbrev SHD_TRK_CTRL.FORCE1 : Fld := ⟨0xB004, 25, 25⟩
abbrev SHD_TRK_CTRL.FORCE0 : Fld := ⟨0xB004, 24, 24⟩
abbrev SHD_TRK_CTRL.AUTO1 : Fld := ⟨0xB004, 17, 17⟩
abbrev SHD_TRK_CTRL.AUTO0 : Fld := ⟨0xB004, 16, 16⟩
abbrev SHD_TRK_CTRL.K1 : Fld := ⟨0xB004, 7, 4⟩
abbrev SHD_TRK_CTRL.K0 : Fld := ⟨0xB004, 3, 0⟩
abbrev SHD_TRK_STATUS.word : Fld := ⟨0xB008, 31, 0⟩
abbrev SHD_TRK_STATUS.FROZEN1 : Fld := ⟨0xB008, 1, 1⟩
abbrev SHD_TRK_STATUS.FROZEN0 : Fld := ⟨0xB008, 0, 0⟩
abbrev SHD_FADE.word : Fld := ⟨0xB00C, 31, 0⟩
abbrev SHD_FADE.ACTIVE : Fld := ⟨0xB00C, 31, 31⟩
abbrev SHD_FADE.QUEUED : Fld := ⟨0xB00C, 30, 30⟩
abbrev SHD_FADE.LEN : Fld := ⟨0xB00C, 24, 16⟩
abbrev SHD_FADE.DONE : Fld := ⟨0xB00C, 8, 0⟩
abbrev SHD_KG.word (i : Nat) : Fld := ⟨0xB010 + 0x4 * i, 31, 0⟩
abbrev SHD_KG.KG (i : Nat) : Fld := ⟨0xB010 + 0x4 * i, 15, 0⟩
abbrev SHD_POISON_CNT.word : Fld := ⟨0xB030, 31, 0⟩
abbrev SHD_POISON_CNT.V : Fld := ⟨0xB030, 31, 0⟩
abbrev SHD_SAT_CNT.word : Fld := ⟨0xB034, 31, 0⟩
abbrev SHD_SAT_CNT.V : Fld := ⟨0xB034, 31, 0⟩
abbrev SHD_OBINV_CNT.word : Fld := ⟨0xB038, 31, 0⟩
abbrev SHD_OBINV_CNT.V : Fld := ⟨0xB038, 31, 0⟩
abbrev SHD_COEF_PAR_CNT.word : Fld := ⟨0xB03C, 31, 0⟩
abbrev SHD_COEF_PAR_CNT.V : Fld := ⟨0xB03C, 31, 0⟩
abbrev SHD_CH_BANK.word (i : Nat) : Fld := ⟨0xB100 + 0x4 * i, 31, 0⟩
abbrev SHD_CH_BANK.ACTIVE (i : Nat) : Fld := ⟨0xB100 + 0x4 * i, 31, 31⟩
abbrev SHD_CH_BANK.FADING (i : Nat) : Fld := ⟨0xB100 + 0x4 * i, 30, 30⟩
abbrev SHD_CH_BANK.QUEUED (i : Nat) : Fld := ⟨0xB100 + 0x4 * i, 29, 29⟩
abbrev SHD_CH_BANK.BSTATE (i : Nat) : Fld := ⟨0xB100 + 0x4 * i, 3, 2⟩
abbrev SHD_CH_BANK.ASTATE (i : Nat) : Fld := ⟨0xB100 + 0x4 * i, 1, 0⟩
abbrev SHD_CH_TRK.word (i : Nat) : Fld := ⟨0xB200 + 0x4 * i, 31, 0⟩
abbrev SHD_CH_TRK.C (i : Nat) : Fld := ⟨0xB200 + 0x4 * i, 23, 0⟩
abbrev EDY_CTRL.word : Fld := ⟨0xC000, 31, 0⟩
abbrev EDY_CTRL.KERNEL : Fld := ⟨0xC000, 0, 0⟩
abbrev EDY_NAT_PITCH.word : Fld := ⟨0xC004, 31, 0⟩
abbrev EDY_NAT_PITCH.PITCH : Fld := ⟨0xC004, 23, 0⟩
abbrev EDY_SPACE.word (i j : Nat) : Fld := ⟨0xC010 + 0x10 * i + 0x4 * j, 31, 0⟩
abbrev EDY_SPACE.SPACE (i j : Nat) : Fld := ⟨0xC010 + 0x10 * i + 0x4 * j, 11, 0⟩
abbrev EDY_OFS.word (i j : Nat) : Fld := ⟨0xC040 + 0x10 * i + 0x4 * j, 31, 0⟩
abbrev EDY_OFS.USED (i j : Nat) : Fld := ⟨0xC040 + 0x10 * i + 0x4 * j, 31, 31⟩
abbrev EDY_OFS.ODD (i j : Nat) : Fld := ⟨0xC040 + 0x10 * i + 0x4 * j, 16, 16⟩
abbrev EDY_OFS.D (i j : Nat) : Fld := ⟨0xC040 + 0x10 * i + 0x4 * j, 11, 0⟩
abbrev EDY_POISON_CNT.word : Fld := ⟨0xC060, 31, 0⟩
abbrev EDY_POISON_CNT.V : Fld := ⟨0xC060, 31, 0⟩
abbrev RSM_STATUS.word : Fld := ⟨0xD000, 31, 0⟩
abbrev RSM_STATUS.CAPPED : Fld := ⟨0xD000, 31, 31⟩
abbrev RSM_STATUS.CAP : Fld := ⟨0xD000, 16, 0⟩
abbrev RSM_FRAME_CTRL.word (i : Nat) : Fld := ⟨0xD010 + 0x10 * i, 31, 0⟩
abbrev RSM_FRAME_CTRL.SRC (i : Nat) : Fld := ⟨0xD010 + 0x10 * i, 31, 31⟩
abbrev RSM_FRAME_CTRL.DI (i : Nat) : Fld := ⟨0xD010 + 0x10 * i, 27, 24⟩
abbrev RSM_FRAME_CTRL.LEAD (i : Nat) : Fld := ⟨0xD010 + 0x10 * i, 15, 8⟩
abbrev RSM_FRAME_CTRL.TRAIL (i : Nat) : Fld := ⟨0xD010 + 0x10 * i, 7, 0⟩
abbrev RSM_FRAME_DIST.word (i : Nat) : Fld := ⟨0xD014 + 0x10 * i, 31, 0⟩
abbrev RSM_FRAME_DIST.DIST (i : Nat) : Fld := ⟨0xD014 + 0x10 * i, 23, 0⟩
abbrev RSM_FRAME_MAX.word (i : Nat) : Fld := ⟨0xD018 + 0x10 * i, 31, 0⟩
abbrev RSM_FRAME_MAX.MAX (i : Nat) : Fld := ⟨0xD018 + 0x10 * i, 15, 0⟩
abbrev RSM_FRAME_STAT.word (i : Nat) : Fld := ⟨0xD01C + 0x10 * i, 31, 0⟩
abbrev RSM_FRAME_STAT.OPEN (i : Nat) : Fld := ⟨0xD01C + 0x10 * i, 31, 31⟩
abbrev RSM_FRAME_STAT.TRUNC (i : Nat) : Fld := ⟨0xD01C + 0x10 * i, 30, 30⟩
abbrev RSM_FRAME_STAT.PAGE_NO (i : Nat) : Fld := ⟨0xD01C + 0x10 * i, 15, 0⟩
abbrev GU_CTRL.word (i : Nat) : Fld := ⟨0xD100 + 0x20 * i, 31, 0⟩
abbrev GU_CTRL.EN (i : Nat) : Fld := ⟨0xD100 + 0x20 * i, 31, 31⟩
abbrev GU_CTRL.SIDE (i : Nat) : Fld := ⟨0xD100 + 0x20 * i, 28, 28⟩
abbrev GU_CTRL.BIN (i : Nat) : Fld := ⟨0xD100 + 0x20 * i, 17, 16⟩
abbrev GU_CTRL.XKERNEL (i : Nat) : Fld := ⟨0xD100 + 0x20 * i, 13, 12⟩
abbrev GU_CTRL.YKERNEL (i : Nat) : Fld := ⟨0xD100 + 0x20 * i, 9, 8⟩
abbrev GU_CTRL.YEN (i : Nat) : Fld := ⟨0xD100 + 0x20 * i, 0, 0⟩
abbrev GU_XSTEP.word (i : Nat) : Fld := ⟨0xD104 + 0x20 * i, 31, 0⟩
abbrev GU_XSTEP.STEP (i : Nat) : Fld := ⟨0xD104 + 0x20 * i, 19, 0⟩
abbrev GU_YSTEP.word (i : Nat) : Fld := ⟨0xD108 + 0x20 * i, 31, 0⟩
abbrev GU_YSTEP.STEP (i : Nat) : Fld := ⟨0xD108 + 0x20 * i, 19, 0⟩
abbrev GU_XWIN.word (i : Nat) : Fld := ⟨0xD10C + 0x20 * i, 31, 0⟩
abbrev GU_XWIN.X0 (i : Nat) : Fld := ⟨0xD10C + 0x20 * i, 28, 16⟩
abbrev GU_XWIN.W (i : Nat) : Fld := ⟨0xD10C + 0x20 * i, 12, 0⟩
abbrev GU_OUT.word (i : Nat) : Fld := ⟨0xD110 + 0x20 * i, 31, 0⟩
abbrev GU_OUT.OUT_W (i : Nat) : Fld := ⟨0xD110 + 0x20 * i, 13, 0⟩
abbrev STR_CFG.word (i : Nat) : Fld := ⟨0xD200 + 0x40 * i, 31, 0⟩
abbrev STR_CFG.GU (i : Nat) : Fld := ⟨0xD200 + 0x40 * i, 30, 28⟩
abbrev STR_CFG.PSET (i : Nat) : Fld := ⟨0xD200 + 0x40 * i, 26, 24⟩
abbrev STR_CFG.PLANE (i : Nat) : Fld := ⟨0xD200 + 0x40 * i, 21, 20⟩
abbrev STR_CFG.DEPTH (i : Nat) : Fld := ⟨0xD200 + 0x40 * i, 17, 16⟩
abbrev STR_CFG.ORDER (i : Nat) : Fld := ⟨0xD200 + 0x40 * i, 12, 12⟩
abbrev STR_CFG.BGR (i : Nat) : Fld := ⟨0xD200 + 0x40 * i, 11, 11⟩
abbrev STR_CFG.TAG (i : Nat) : Fld := ⟨0xD200 + 0x40 * i, 8, 8⟩
abbrev STR_CFG.PADM (i : Nat) : Fld := ⟨0xD200 + 0x40 * i, 5, 4⟩
abbrev STR_LUT.word (i : Nat) : Fld := ⟨0xD204 + 0x40 * i, 31, 0⟩
abbrev STR_LUT.LUT_R (i : Nat) : Fld := ⟨0xD204 + 0x40 * i, 15, 12⟩
abbrev STR_LUT.LUT_G (i : Nat) : Fld := ⟨0xD204 + 0x40 * i, 11, 8⟩
abbrev STR_LUT.LUT_B (i : Nat) : Fld := ⟨0xD204 + 0x40 * i, 7, 4⟩
abbrev STR_LUT.LUT_A (i : Nat) : Fld := ⟨0xD204 + 0x40 * i, 3, 0⟩
abbrev STR_GREYW0.word (i : Nat) : Fld := ⟨0xD208 + 0x40 * i, 31, 0⟩
abbrev STR_GREYW0.WR (i : Nat) : Fld := ⟨0xD208 + 0x40 * i, 30, 16⟩
abbrev STR_GREYW0.WG (i : Nat) : Fld := ⟨0xD208 + 0x40 * i, 14, 0⟩
abbrev STR_GREYW1.word (i : Nat) : Fld := ⟨0xD20C + 0x40 * i, 31, 0⟩
abbrev STR_GREYW1.WB (i : Nat) : Fld := ⟨0xD20C + 0x40 * i, 14, 0⟩
abbrev STR_XCROP.word (i : Nat) : Fld := ⟨0xD210 + 0x40 * i, 31, 0⟩
abbrev STR_XCROP.X0 (i : Nat) : Fld := ⟨0xD210 + 0x40 * i, 29, 16⟩
abbrev STR_XCROP.W (i : Nat) : Fld := ⟨0xD210 + 0x40 * i, 13, 0⟩
abbrev STR_YCROP.word (i : Nat) : Fld := ⟨0xD214 + 0x40 * i, 31, 0⟩
abbrev STR_YCROP.FIRST (i : Nat) : Fld := ⟨0xD214 + 0x40 * i, 31, 16⟩
abbrev STR_YCROP.COUNT (i : Nat) : Fld := ⟨0xD214 + 0x40 * i, 15, 0⟩
abbrev STR_STRIDE.word (i : Nat) : Fld := ⟨0xD218 + 0x40 * i, 31, 0⟩
abbrev STR_STRIDE.V (i : Nat) : Fld := ⟨0xD218 + 0x40 * i, 23, 0⟩
abbrev STR_PADVAL.word (i : Nat) : Fld := ⟨0xD21C + 0x40 * i, 31, 0⟩
abbrev STR_PADVAL.V (i : Nat) : Fld := ⟨0xD21C + 0x40 * i, 7, 0⟩
abbrev STR_LINE.word (i : Nat) : Fld := ⟨0xD220 + 0x40 * i, 31, 0⟩
abbrev STR_LINE.V (i : Nat) : Fld := ⟨0xD220 + 0x40 * i, 23, 0⟩
abbrev STR_LINES.word (i : Nat) : Fld := ⟨0xD224 + 0x40 * i, 31, 0⟩
abbrev STR_LINES.V (i : Nat) : Fld := ⟨0xD224 + 0x40 * i, 31, 0⟩
abbrev GEO_CTRL.word (i : Nat) : Fld := ⟨0xE000 + 0x80 * i, 31, 0⟩
abbrev GEO_CTRL.EN (i : Nat) : Fld := ⟨0xE000 + 0x80 * i, 31, 31⟩
abbrev GEO_CTRL.PLANE (i : Nat) : Fld := ⟨0xE000 + 0x80 * i, 17, 16⟩
abbrev GEO_CTRL.ALTKIND (i : Nat) : Fld := ⟨0xE000 + 0x80 * i, 12, 12⟩
abbrev GEO_CTRL.POL (i : Nat) : Fld := ⟨0xE000 + 0x80 * i, 9, 8⟩
abbrev GEO_CTRL.BAUTO (i : Nat) : Fld := ⟨0xE000 + 0x80 * i, 4, 4⟩
abbrev GEO_CTRL.RUN (i : Nat) : Fld := ⟨0xE000 + 0x80 * i, 3, 0⟩
abbrev GEO_THR.word (i : Nat) : Fld := ⟨0xE004 + 0x80 * i, 31, 0⟩
abbrev GEO_THR.T_ON (i : Nat) : Fld := ⟨0xE004 + 0x80 * i, 31, 16⟩
abbrev GEO_THR.T_OFF (i : Nat) : Fld := ⟨0xE004 + 0x80 * i, 15, 0⟩
abbrev GEO_BACK.word (i : Nat) : Fld := ⟨0xE008 + 0x80 * i, 31, 0⟩
abbrev GEO_BACK.LEVEL (i : Nat) : Fld := ⟨0xE008 + 0x80 * i, 15, 0⟩
abbrev GEO_EDGE.word (i : Nat) : Fld := ⟨0xE00C + 0x80 * i, 31, 0⟩
abbrev GEO_EDGE.LE_LINES (i : Nat) : Fld := ⟨0xE00C + 0x80 * i, 27, 24⟩
abbrev GEO_EDGE.TE_LINES (i : Nat) : Fld := ⟨0xE00C + 0x80 * i, 19, 16⟩
abbrev GEO_EDGE.TRIM (i : Nat) : Fld := ⟨0xE00C + 0x80 * i, 11, 8⟩
abbrev GEO_EDGE.MARGIN (i : Nat) : Fld := ⟨0xE00C + 0x80 * i, 3, 0⟩
abbrev GEO_STATUS.word (i : Nat) : Fld := ⟨0xE010 + 0x80 * i, 31, 0⟩
abbrev GEO_STATUS.DOC (i : Nat) : Fld := ⟨0xE010 + 0x80 * i, 31, 31⟩
abbrev GEO_STATUS.BUSY (i : Nat) : Fld := ⟨0xE010 + 0x80 * i, 30, 30⟩
abbrev GEO_DOC_CNT.word (i : Nat) : Fld := ⟨0xE014 + 0x80 * i, 31, 0⟩
abbrev GEO_DOC_CNT.V (i : Nat) : Fld := ⟨0xE014 + 0x80 * i, 31, 0⟩
abbrev GEO_ORPHAN_CNT.word (i : Nat) : Fld := ⟨0xE018 + 0x80 * i, 31, 0⟩
abbrev GEO_ORPHAN_CNT.V (i : Nat) : Fld := ⟨0xE018 + 0x80 * i, 31, 0⟩
abbrev GEO_RES.word (i j : Nat) : Fld := ⟨0xE040 + 0x80 * i + 0x4 * j, 31, 0⟩
abbrev GEO_RES.V (i j : Nat) : Fld := ⟨0xE040 + 0x80 * i + 0x4 * j, 31, 0⟩
abbrev MON_CTRL.word (i : Nat) : Fld := ⟨0xE400 + 0x20 * i, 31, 0⟩
abbrev MON_CTRL.EN (i : Nat) : Fld := ⟨0xE400 + 0x20 * i, 31, 31⟩
abbrev MON_CTRL.MODE (i : Nat) : Fld := ⟨0xE400 + 0x20 * i, 25, 24⟩
abbrev MON_CTRL.MIN (i : Nat) : Fld := ⟨0xE400 + 0x20 * i, 22, 22⟩
abbrev MON_CTRL.AC (i : Nat) : Fld := ⟨0xE400 + 0x20 * i, 21, 21⟩
abbrev MON_CTRL.PLANE (i : Nat) : Fld := ⟨0xE400 + 0x20 * i, 18, 16⟩
abbrev MON_CTRL.KIND (i : Nat) : Fld := ⟨0xE400 + 0x20 * i, 13, 12⟩
abbrev MON_CTRL.LWIN (i : Nat) : Fld := ⟨0xE400 + 0x20 * i, 9, 8⟩
abbrev MON_CTRL.EVT (i : Nat) : Fld := ⟨0xE400 + 0x20 * i, 5, 4⟩
abbrev MON_CTRL.K (i : Nat) : Fld := ⟨0xE400 + 0x20 * i, 3, 0⟩
abbrev MON_XWIN.word (i : Nat) : Fld := ⟨0xE404 + 0x20 * i, 31, 0⟩
abbrev MON_XWIN.X0 (i : Nat) : Fld := ⟨0xE404 + 0x20 * i, 28, 16⟩
abbrev MON_XWIN.W (i : Nat) : Fld := ⟨0xE404 + 0x20 * i, 12, 0⟩
abbrev MON_LWIN.word (i : Nat) : Fld := ⟨0xE408 + 0x20 * i, 31, 0⟩
abbrev MON_LWIN.FIRST (i : Nat) : Fld := ⟨0xE408 + 0x20 * i, 31, 16⟩
abbrev MON_LWIN.LEN (i : Nat) : Fld := ⟨0xE408 + 0x20 * i, 15, 0⟩
abbrev MON_LIM.word (i : Nat) : Fld := ⟨0xE40C + 0x20 * i, 31, 0⟩
abbrev MON_LIM.HI (i : Nat) : Fld := ⟨0xE40C + 0x20 * i, 31, 16⟩
abbrev MON_LIM.LO (i : Nat) : Fld := ⟨0xE40C + 0x20 * i, 15, 0⟩
abbrev MON_RESULT.word (i : Nat) : Fld := ⟨0xE410 + 0x20 * i, 31, 0⟩
abbrev MON_RESULT.VALID (i : Nat) : Fld := ⟨0xE410 + 0x20 * i, 31, 31⟩
abbrev MON_RESULT.OUT (i : Nat) : Fld := ⟨0xE410 + 0x20 * i, 30, 30⟩
abbrev MON_RESULT.VALUE (i : Nat) : Fld := ⟨0xE410 + 0x20 * i, 19, 0⟩
abbrev MON_INDEX_LO.word (i : Nat) : Fld := ⟨0xE414 + 0x20 * i, 31, 0⟩
abbrev MON_INDEX_LO.V (i : Nat) : Fld := ⟨0xE414 + 0x20 * i, 31, 0⟩
abbrev MON_INDEX_HI.word (i : Nat) : Fld := ⟨0xE418 + 0x20 * i, 31, 0⟩
abbrev MON_INDEX_HI.V (i : Nat) : Fld := ⟨0xE418 + 0x20 * i, 15, 0⟩
abbrev MON_PEAKX.word (i : Nat) : Fld := ⟨0xE41C + 0x20 * i, 31, 0⟩
abbrev MON_PEAKX.V (i : Nat) : Fld := ⟨0xE41C + 0x20 * i, 12, 0⟩
abbrev MON_FOLD_CNT.word : Fld := ⟨0xE600, 31, 0⟩
abbrev MON_FOLD_CNT.V : Fld := ⟨0xE600, 31, 0⟩
abbrev PAC_CTRL.word : Fld := ⟨0xF000, 31, 0⟩
abbrev PAC_CTRL.EN : Fld := ⟨0xF000, 31, 31⟩
abbrev PAC_CTRL.STOPMODE : Fld := ⟨0xF000, 30, 30⟩
abbrev PAC_CTRL.FEED_EN : Fld := ⟨0xF000, 29, 29⟩
abbrev PAC_CTRL.HOLD_EN : Fld := ⟨0xF000, 28, 28⟩
abbrev PAC_CTRL.HOLD_DI : Fld := ⟨0xF000, 23, 20⟩
abbrev PAC_CTRL.FEED_DI : Fld := ⟨0xF000, 19, 16⟩
abbrev PAC_CTRL.HTAU : Fld := ⟨0xF000, 7, 4⟩
abbrev PAC_STATE.word : Fld := ⟨0xF004, 31, 0⟩
abbrev PAC_STATE.STATE : Fld := ⟨0xF004, 31, 28⟩
abbrev PAC_STATE.LIMIT : Fld := ⟨0xF004, 27, 24⟩
abbrev PAC_STATE.CAUSE : Fld := ⟨0xF004, 23, 20⟩
abbrev PAC_STATE.FEED_PEND : Fld := ⟨0xF004, 15, 8⟩
abbrev PAC_VJOB.word : Fld := ⟨0xF008, 31, 0⟩
abbrev PAC_VJOB.V : Fld := ⟨0xF008, 23, 0⟩
abbrev PAC_AMAX.word : Fld := ⟨0xF00C, 31, 0⟩
abbrev PAC_AMAX.V : Fld := ⟨0xF00C, 15, 0⟩
abbrev PAC_DMAX.word : Fld := ⟨0xF010, 31, 0⟩
abbrev PAC_DMAX.V : Fld := ⟨0xF010, 15, 0⟩
abbrev PAC_SQUALL.word : Fld := ⟨0xF014, 31, 0⟩
abbrev PAC_SQUALL.V : Fld := ⟨0xF014, 15, 0⟩
abbrev PAC_JMAX.word : Fld := ⟨0xF018, 31, 0⟩
abbrev PAC_JMAX.V : Fld := ⟨0xF018, 19, 0⟩
abbrev PAC_TLAT.word : Fld := ⟨0xF01C, 31, 0⟩
abbrev PAC_TLAT.V : Fld := ⟨0xF01C, 11, 0⟩
abbrev PAC_MARGIN.word : Fld := ⟨0xF020, 31, 0⟩
abbrev PAC_MARGIN.V : Fld := ⟨0xF020, 23, 0⟩
abbrev PAC_SETPOINT.word : Fld := ⟨0xF024, 31, 0⟩
abbrev PAC_SETPOINT.V : Fld := ⟨0xF024, 7, 0⟩
abbrev PAC_KP.word : Fld := ⟨0xF028, 31, 0⟩
abbrev PAC_KP.V : Fld := ⟨0xF028, 15, 0⟩
abbrev PAC_KI.word : Fld := ⟨0xF02C, 31, 0⟩
abbrev PAC_KI.V : Fld := ⟨0xF02C, 15, 0⟩
abbrev PAC_OVERRUN_STEP.word : Fld := ⟨0xF030, 31, 0⟩
abbrev PAC_OVERRUN_STEP.V : Fld := ⟨0xF030, 23, 0⟩
abbrev PAC_VMIN.word : Fld := ⟨0xF034, 31, 0⟩
abbrev PAC_VMIN.V : Fld := ⟨0xF034, 23, 0⟩
abbrev PAC_VRESUME.word : Fld := ⟨0xF038, 31, 0⟩
abbrev PAC_VRESUME.V : Fld := ⟨0xF038, 23, 0⟩
abbrev PAC_VBACK.word : Fld := ⟨0xF03C, 31, 0⟩
abbrev PAC_VBACK.V : Fld := ⟨0xF03C, 23, 0⟩
abbrev PAC_BACK.word : Fld := ⟨0xF040, 31, 0⟩
abbrev PAC_BACK.V : Fld := ⟨0xF040, 23, 0⟩
abbrev PAC_RESUME.word : Fld := ⟨0xF044, 31, 0⟩
abbrev PAC_RESUME.V : Fld := ⟨0xF044, 23, 0⟩
abbrev PAC_MAXDOC_MM.word : Fld := ⟨0xF048, 31, 0⟩
abbrev PAC_MAXDOC_MM.V : Fld := ⟨0xF048, 15, 0⟩
abbrev PAC_GAPRES.word : Fld := ⟨0xF04C, 31, 0⟩
abbrev PAC_GAPRES.V : Fld := ⟨0xF04C, 15, 0⟩
abbrev PAC_FEED_GAP.word : Fld := ⟨0xF050, 31, 0⟩
abbrev PAC_FEED_GAP.V : Fld := ⟨0xF050, 15, 0⟩
abbrev PAC_FEED_TMO.word : Fld := ⟨0xF054, 31, 0⟩
abbrev PAC_FEED_TMO.V : Fld := ⟨0xF054, 15, 0⟩
abbrev PAC_REST.word : Fld := ⟨0xF058, 31, 0⟩
abbrev PAC_REST.V : Fld := ⟨0xF058, 15, 0⟩
abbrev PAC_SLIP.word : Fld := ⟨0xF05C, 31, 0⟩
abbrev PAC_SLIP.V : Fld := ⟨0xF05C, 23, 0⟩
abbrev PAC_VTARGET.word : Fld := ⟨0xF080, 31, 0⟩
abbrev PAC_VTARGET.V : Fld := ⟨0xF080, 23, 0⟩
abbrev PAC_VHOST.word : Fld := ⟨0xF084, 31, 0⟩
abbrev PAC_VHOST.V : Fld := ⟨0xF084, 23, 0⟩
abbrev PAC_VBRAKE.word : Fld := ⟨0xF088, 31, 0⟩
abbrev PAC_VBRAKE.V : Fld := ⟨0xF088, 23, 0⟩
abbrev PAC_VACT.word : Fld := ⟨0xF08C, 31, 0⟩
abbrev PAC_VACT.V : Fld := ⟨0xF08C, 23, 0⟩
abbrev PAC_VCEIL.word : Fld := ⟨0xF090, 31, 0⟩
abbrev PAC_VCEIL.V : Fld := ⟨0xF090, 23, 0⟩
abbrev PAC_BPM.word : Fld := ⟨0xF094, 31, 0⟩
abbrev PAC_BPM.V : Fld := ⟨0xF094, 31, 0⟩
abbrev PAC_FREE.word : Fld := ⟨0xF098, 31, 0⟩
abbrev PAC_FREE.V : Fld := ⟨0xF098, 31, 0⟩
abbrev PAC_INFLIGHT.word : Fld := ⟨0xF09C, 31, 0⟩
abbrev PAC_INFLIGHT.V : Fld := ⟨0xF09C, 7, 0⟩
abbrev PAC_LULL_LO.word : Fld := ⟨0xF0A0, 31, 0⟩
abbrev PAC_LULL_LO.V : Fld := ⟨0xF0A0, 31, 0⟩
abbrev PAC_LULL_HI.word : Fld := ⟨0xF0A4, 31, 0⟩
abbrev PAC_LULL_HI.V : Fld := ⟨0xF0A4, 15, 0⟩
abbrev PAC_LULL_CNT.word : Fld := ⟨0xF0A8, 31, 0⟩
abbrev PAC_LULL_CNT.V : Fld := ⟨0xF0A8, 31, 0⟩
abbrev PAC_WITHHOLD_CNT.word : Fld := ⟨0xF0AC, 31, 0⟩
abbrev PAC_WITHHOLD_CNT.V : Fld := ⟨0xF0AC, 31, 0⟩
abbrev PAC_SQUALL_CNT.word : Fld := ⟨0xF0B0, 31, 0⟩
abbrev PAC_SQUALL_CNT.V : Fld := ⟨0xF0B0, 31, 0⟩
abbrev AX_CTRL.word (i : Nat) : Fld := ⟨0xF100 + 0x20 * i, 31, 0⟩
abbrev AX_CTRL.EN (i : Nat) : Fld := ⟨0xF100 + 0x20 * i, 31, 31⟩
abbrev AX_CTRL.MODE (i : Nat) : Fld := ⟨0xF100 + 0x20 * i, 27, 26⟩
abbrev AX_CTRL.DIRINV (i : Nat) : Fld := ⟨0xF100 + 0x20 * i, 25, 25⟩
abbrev AX_CTRL.ENINV (i : Nat) : Fld := ⟨0xF100 + 0x20 * i, 24, 24⟩
abbrev AX_CTRL.PW (i : Nat) : Fld := ⟨0xF100 + 0x20 * i, 23, 16⟩
abbrev AX_NM.word (i : Nat) : Fld := ⟨0xF104 + 0x20 * i, 31, 0⟩
abbrev AX_NM.V (i : Nat) : Fld := ⟨0xF104 + 0x20 * i, 23, 0⟩
abbrev AX_RATIO.word (i : Nat) : Fld := ⟨0xF108 + 0x20 * i, 31, 0⟩
abbrev AX_RATIO.V (i : Nat) : Fld := ⟨0xF108 + 0x20 * i, 31, 0⟩
abbrev AX_POS.word (i : Nat) : Fld := ⟨0xF10C + 0x20 * i, 31, 0⟩
abbrev AX_POS.V (i : Nat) : Fld := ⟨0xF10C + 0x20 * i, 31, 0⟩
abbrev AX_RATE.word (i : Nat) : Fld := ⟨0xF110 + 0x20 * i, 31, 0⟩
abbrev AX_RATE.V (i : Nat) : Fld := ⟨0xF110 + 0x20 * i, 22, 0⟩
abbrev EN_CTRL.word (i : Nat) : Fld := ⟨0xF200 + 0x10 * i, 31, 0⟩
abbrev EN_CTRL.EN (i : Nat) : Fld := ⟨0xF200 + 0x10 * i, 31, 31⟩
abbrev EN_CTRL.SWAP (i : Nat) : Fld := ⟨0xF200 + 0x10 * i, 30, 30⟩
abbrev EN_CTRL.IDX_EN (i : Nat) : Fld := ⟨0xF200 + 0x10 * i, 29, 29⟩
abbrev EN_CTRL.FILT (i : Nat) : Fld := ⟨0xF200 + 0x10 * i, 23, 16⟩
abbrev EN_NM.word (i : Nat) : Fld := ⟨0xF204 + 0x10 * i, 31, 0⟩
abbrev EN_NM.V (i : Nat) : Fld := ⟨0xF204 + 0x10 * i, 23, 0⟩
abbrev EN_COUNT.word (i : Nat) : Fld := ⟨0xF208 + 0x10 * i, 31, 0⟩
abbrev EN_COUNT.V (i : Nat) : Fld := ⟨0xF208 + 0x10 * i, 31, 0⟩
abbrev EN_IDX.word (i : Nat) : Fld := ⟨0xF20C + 0x10 * i, 31, 0⟩
abbrev EN_IDX.V (i : Nat) : Fld := ⟨0xF20C + 0x10 * i, 31, 0⟩
abbrev EN_ERR.word (i : Nat) : Fld := ⟨0xF240 + 0x4 * i, 31, 0⟩
abbrev EN_ERR.V (i : Nat) : Fld := ⟨0xF240 + 0x4 * i, 31, 0⟩
abbrev DI_CFG.word (i : Nat) : Fld := ⟨0xF300 + 0x4 * i, 31, 0⟩
abbrev DI_CFG.INV (i : Nat) : Fld := ⟨0xF300 + 0x4 * i, 8, 8⟩
abbrev DI_CFG.DEB (i : Nat) : Fld := ⟨0xF300 + 0x4 * i, 7, 0⟩
abbrev DI_STATE.word : Fld := ⟨0xF340, 31, 0⟩
abbrev DI_STATE.V : Fld := ⟨0xF340, 15, 0⟩
abbrev DO_CFG.word (i : Nat) : Fld := ⟨0xF380 + 0x4 * i, 31, 0⟩
abbrev DO_CFG.FUNC (i : Nat) : Fld := ⟨0xF380 + 0x4 * i, 10, 8⟩
abbrev DO_CFG.BIT (i : Nat) : Fld := ⟨0xF380 + 0x4 * i, 6, 4⟩
abbrev DO_CFG.SAFE (i : Nat) : Fld := ⟨0xF380 + 0x4 * i, 2, 2⟩
abbrev DO_CFG.INV (i : Nat) : Fld := ⟨0xF380 + 0x4 * i, 1, 1⟩
abbrev DO_CFG.VAL (i : Nat) : Fld := ⟨0xF380 + 0x4 * i, 0, 0⟩
abbrev DO_STATE.word : Fld := ⟨0xF3A0, 31, 0⟩
abbrev DO_STATE.V : Fld := ⟨0xF3A0, 7, 0⟩
abbrev LT_CTRL.word : Fld := ⟨0xF400, 31, 0⟩
abbrev LT_CTRL.EN : Fld := ⟨0xF400, 31, 31⟩
abbrev LT_CTRL.SRC : Fld := ⟨0xF400, 4, 4⟩
abbrev LT_CTRL.REV : Fld := ⟨0xF400, 0, 0⟩
abbrev LT_PITCH.word : Fld := ⟨0xF404, 31, 0⟩
abbrev LT_PITCH.PITCH : Fld := ⟨0xF404, 23, 0⟩
abbrev LT_POS_LO.word : Fld := ⟨0xF408, 31, 0⟩
abbrev LT_POS_LO.V : Fld := ⟨0xF408, 31, 0⟩
abbrev LT_POS_HI.word : Fld := ⟨0xF40C, 31, 0⟩
abbrev LT_POS_HI.V : Fld := ⟨0xF40C, 31, 0⟩
abbrev LT_KEPT_LO.word : Fld := ⟨0xF410, 31, 0⟩
abbrev LT_KEPT_LO.V : Fld := ⟨0xF410, 31, 0⟩
abbrev LT_KEPT_HI.word : Fld := ⟨0xF414, 31, 0⟩
abbrev LT_KEPT_HI.V : Fld := ⟨0xF414, 15, 0⟩
abbrev LT_DISCARD.word : Fld := ⟨0xF418, 31, 0⟩
abbrev LT_DISCARD.V : Fld := ⟨0xF418, 31, 0⟩
abbrev LT_EDGE_NS.word : Fld := ⟨0xF41C, 31, 0⟩
abbrev LT_EDGE_NS.V : Fld := ⟨0xF41C, 31, 0⟩
abbrev MET_STATUS.word : Fld := ⟨0x10000, 31, 0⟩
abbrev MET_STATUS.PRESENT : Fld := ⟨0x10000, 31, 31⟩
abbrev MET_STATUS.SEAL_OPEN : Fld := ⟨0x10000, 30, 30⟩
abbrev MET_STATUS.TIME_SYNC : Fld := ⟨0x10000, 29, 29⟩
abbrev MET_STATUS.FULL : Fld := ⟨0x10000, 28, 28⟩
abbrev MET_STATUS.FE_FAULT : Fld := ⟨0x10000, 27, 27⟩
abbrev MET_STATUS.BACKLOG : Fld := ⟨0x10000, 15, 0⟩
abbrev MET_FWVER.word : Fld := ⟨0x10004, 31, 0⟩
abbrev MET_FWVER.V : Fld := ⟨0x10004, 31, 0⟩
abbrev MET_FWCRC.word : Fld := ⟨0x10008, 31, 0⟩
abbrev MET_FWCRC.V : Fld := ⟨0x10008, 31, 0⟩
abbrev MET_AUDIT.word : Fld := ⟨0x1000C, 31, 0⟩
abbrev MET_AUDIT.V : Fld := ⟨0x1000C, 31, 0⟩
abbrev MET_LAST_MSEQ.word : Fld := ⟨0x10010, 31, 0⟩
abbrev MET_LAST_MSEQ.V : Fld := ⟨0x10010, 31, 0⟩
abbrev MET_LABELS.word : Fld := ⟨0x10014, 31, 0⟩
abbrev MET_LABELS.V : Fld := ⟨0x10014, 4, 0⟩
abbrev MET_TEMP.word (i : Nat) : Fld := ⟨0x10020 + 0x4 * i, 31, 0⟩
abbrev MET_TEMP.STALE (i : Nat) : Fld := ⟨0x10020 + 0x4 * i, 31, 31⟩
abbrev MET_TEMP.T (i : Nat) : Fld := ⟨0x10020 + 0x4 * i, 15, 0⟩
abbrev MET_TH.word : Fld := ⟨0x10030, 31, 0⟩
abbrev MET_TH.V : Fld := ⟨0x10030, 3, 0⟩
abbrev MET_KEY_ID.word : Fld := ⟨0x10034, 31, 0⟩
abbrev MET_KEY_ID.V : Fld := ⟨0x10034, 31, 0⟩
abbrev MET_PUBKEY.word (i : Nat) : Fld := ⟨0x10040 + 0x4 * i, 31, 0⟩
abbrev MET_PUBKEY.V (i : Nat) : Fld := ⟨0x10040 + 0x4 * i, 31, 0⟩
abbrev MET_REC.word (i : Nat) : Fld := ⟨0x10100 + 0x4 * i, 31, 0⟩
abbrev MET_REC.V (i : Nat) : Fld := ⟨0x10100 + 0x4 * i, 31, 0⟩
abbrev MET_QREC.word (i : Nat) : Fld := ⟨0x10180 + 0x4 * i, 31, 0⟩
abbrev MET_QREC.V (i : Nat) : Fld := ⟨0x10180 + 0x4 * i, 31, 0⟩
abbrev MET_CMD_REJ.word : Fld := ⟨0x10200, 31, 0⟩
abbrev MET_CMD_REJ.V : Fld := ⟨0x10200, 31, 0⟩
abbrev MET_TAP_LOST.word (i : Nat) : Fld := ⟨0x10204 + 0x4 * i, 31, 0⟩
abbrev MET_TAP_LOST.V (i : Nat) : Fld := ⟨0x10204 + 0x4 * i, 31, 0⟩
abbrev MET_RETX_CNT.word : Fld := ⟨0x1020C, 31, 0⟩
abbrev MET_RETX_CNT.V : Fld := ⟨0x1020C, 31, 0⟩
abbrev MET_NOREC_CNT.word : Fld := ⟨0x10210, 31, 0⟩
abbrev MET_NOREC_CNT.V : Fld := ⟨0x10210, 31, 0⟩
abbrev MET_Q_CTRL.word : Fld := ⟨0x10220, 31, 0⟩
abbrev MET_Q_CTRL.GO : Fld := ⟨0x10220, 31, 31⟩
abbrev MET_Q_CTRL.BUSY : Fld := ⟨0x10220, 30, 30⟩
abbrev MET_Q_CTRL.STATUS : Fld := ⟨0x10220, 23, 16⟩
abbrev MET_Q_CTRL.QUERY : Fld := ⟨0x10220, 7, 0⟩
abbrev MET_Q_ARG.word : Fld := ⟨0x10224, 31, 0⟩
abbrev MET_Q_ARG.V : Fld := ⟨0x10224, 31, 0⟩
abbrev MET_Q_RES.word (i : Nat) : Fld := ⟨0x10228 + 0x4 * i, 31, 0⟩
abbrev MET_Q_RES.V (i : Nat) : Fld := ⟨0x10228 + 0x4 * i, 31, 0⟩
abbrev PAIR_CTRL.word : Fld := ⟨0x11000, 31, 0⟩
abbrev PAIR_CTRL.EN : Fld := ⟨0x11000, 31, 31⟩
abbrev PAIR_CTRL.PREF : Fld := ⟨0x11000, 30, 30⟩
abbrev PAIR_CTRL.POLICY : Fld := ⟨0x11000, 29, 29⟩
abbrev PAIR_CTRL.PLMAX : Fld := ⟨0x11000, 25, 24⟩
abbrev PAIR_STATUS.word : Fld := ⟨0x11004, 31, 0⟩
abbrev PAIR_STATUS.LINK : Fld := ⟨0x11004, 31, 31⟩
abbrev PAIR_STATUS.OWN_SENSE : Fld := ⟨0x11004, 30, 30⟩
abbrev PAIR_STATUS.OWN_DRIVE : Fld := ⟨0x11004, 29, 29⟩
abbrev PAIR_STATUS.HB_OK : Fld := ⟨0x11004, 28, 28⟩
abbrev PAIR_STATUS.ROLE : Fld := ⟨0x11004, 25, 24⟩
abbrev PAIR_STATUS.STATE : Fld := ⟨0x11004, 23, 20⟩
abbrev PAIR_STATUS.PLVER : Fld := ⟨0x11004, 17, 16⟩
abbrev PAIR_OWN_TMO.word : Fld := ⟨0x11008, 31, 0⟩
abbrev PAIR_OWN_TMO.V : Fld := ⟨0x11008, 9, 0⟩
abbrev PAIR_ACK_TMO.word : Fld := ⟨0x1100C, 31, 0⟩
abbrev PAIR_ACK_TMO.V : Fld := ⟨0x1100C, 15, 0⟩
abbrev PAIR_MAXBACK.word : Fld := ⟨0x11010, 31, 0⟩
abbrev PAIR_MAXBACK.V : Fld := ⟨0x11010, 15, 0⟩
abbrev PAIR_CLKREF.word : Fld := ⟨0x11014, 31, 0⟩
abbrev PAIR_CLKREF.LINE1 : Fld := ⟨0x11014, 15, 12⟩
abbrev PAIR_CLKREF.PIX1 : Fld := ⟨0x11014, 11, 8⟩
abbrev PAIR_CLKREF.LINE0 : Fld := ⟨0x11014, 7, 4⟩
abbrev PAIR_CLKREF.PIX0 : Fld := ⟨0x11014, 3, 0⟩
abbrev PAIR_PEER_SERIAL_LO.word : Fld := ⟨0x11018, 31, 0⟩
abbrev PAIR_PEER_SERIAL_LO.V : Fld := ⟨0x11018, 31, 0⟩
abbrev PAIR_PEER_SERIAL_HI.word : Fld := ⟨0x1101C, 31, 0⟩
abbrev PAIR_PEER_SERIAL_HI.V : Fld := ⟨0x1101C, 31, 0⟩
abbrev PAIR_PEER_FW.word : Fld := ⟨0x11020, 31, 0⟩
abbrev PAIR_PEER_FW.V : Fld := ⟨0x11020, 23, 0⟩
abbrev PAIR_MIRROR_MAX.word : Fld := ⟨0x11024, 31, 0⟩
abbrev PAIR_MIRROR_MAX.V : Fld := ⟨0x11024, 19, 0⟩
abbrev PAIR_RETX_CNT.word : Fld := ⟨0x11028, 31, 0⟩
abbrev PAIR_RETX_CNT.V : Fld := ⟨0x11028, 31, 0⟩
abbrev PAIR_HB_MISS.word : Fld := ⟨0x1102C, 31, 0⟩
abbrev PAIR_HB_MISS.V : Fld := ⟨0x1102C, 31, 0⟩
abbrev PAIR_TAKEOVERS.word : Fld := ⟨0x11030, 31, 0⟩
abbrev PAIR_TAKEOVERS.V : Fld := ⟨0x11030, 31, 0⟩
abbrev PAIR_NC_LO.word : Fld := ⟨0x11038, 31, 0⟩
abbrev PAIR_NC_LO.V : Fld := ⟨0x11038, 31, 0⟩
abbrev PAIR_NC_HI.word : Fld := ⟨0x1103C, 31, 0⟩
abbrev PAIR_NC_HI.V : Fld := ⟨0x1103C, 15, 0⟩
abbrev NVM_CTRL.word : Fld := ⟨0x12000, 31, 0⟩
abbrev NVM_CTRL.GO : Fld := ⟨0x12000, 31, 31⟩
abbrev NVM_CTRL.OP : Fld := ⟨0x12000, 3, 0⟩
abbrev NVM_STATUS.word : Fld := ⟨0x12004, 31, 0⟩
abbrev NVM_STATUS.BUSY : Fld := ⟨0x12004, 31, 31⟩
abbrev NVM_STATUS.RESULT : Fld := ⟨0x12004, 7, 0⟩
abbrev NVM_SLOT.word : Fld := ⟨0x12008, 31, 0⟩
abbrev NVM_SLOT.V : Fld := ⟨0x12008, 0, 0⟩
abbrev NVM_OFFSET.word : Fld := ⟨0x1200C, 31, 0⟩
abbrev NVM_OFFSET.V : Fld := ⟨0x1200C, 31, 0⟩
abbrev NVM_LEN.word : Fld := ⟨0x12010, 31, 0⟩
abbrev NVM_LEN.V : Fld := ⟨0x12010, 11, 0⟩
abbrev NVM_BUF.word (i : Nat) : Fld := ⟨0x12800 + 0x4 * i, 31, 0⟩
abbrev NVM_BUF.V (i : Nat) : Fld := ⟨0x12800 + 0x4 * i, 31, 0⟩
abbrev MET_CONV_CTRL.word : Fld := ⟨0x200000, 31, 0⟩
abbrev MET_CONV_CTRL.RUN : Fld := ⟨0x200000, 31, 31⟩
abbrev MET_CONV_CTRL.SEQ_EN : Fld := ⟨0x200000, 30, 30⟩
abbrev MET_CONV_CTRL.MAXAGE : Fld := ⟨0x200000, 23, 16⟩
abbrev MET_CONV_CTRL.THICK_IN : Fld := ⟨0x200000, 10, 8⟩
abbrev MET_CONV_CTRL.THICK_EN : Fld := ⟨0x200000, 7, 7⟩
abbrev MET_CONV_CTRL.POLY_TIN : Fld := ⟨0x200000, 6, 4⟩
abbrev MET_CONV_CTRL.POLY_TEN : Fld := ⟨0x200000, 3, 3⟩
abbrev MET_CONV_CH.word : Fld := ⟨0x200004, 31, 0⟩
abbrev MET_CONV_CH.GAIN : Fld := ⟨0x200004, 10, 8⟩
abbrev MET_CONV_CH.CH : Fld := ⟨0x200004, 2, 0⟩
abbrev MET_IN_CFG.word (i : Nat) : Fld := ⟨0x200010 + 0x4 * i, 31, 0⟩
abbrev MET_IN_CFG.EN (i : Nat) : Fld := ⟨0x200010 + 0x4 * i, 31, 31⟩
abbrev MET_IN_CFG.TYPE (i : Nat) : Fld := ⟨0x200010 + 0x4 * i, 30, 28⟩
abbrev MET_IN_CFG.PRESET (i : Nat) : Fld := ⟨0x200010 + 0x4 * i, 27, 26⟩
abbrev MET_IN_CFG.AUTO (i : Nat) : Fld := ⟨0x200010 + 0x4 * i, 25, 25⟩
abbrev MET_IN_CFG.RREF (i : Nat) : Fld := ⟨0x200010 + 0x4 * i, 24, 24⟩
abbrev MET_IN_CFG.IEX (i : Nat) : Fld := ⟨0x200010 + 0x4 * i, 23, 17⟩
abbrev MET_IN_CFG.IEX_SRC (i : Nat) : Fld := ⟨0x200010 + 0x4 * i, 16, 16⟩
abbrev MET_IN_CFG.BURN (i : Nat) : Fld := ⟨0x200010 + 0x4 * i, 15, 14⟩
abbrev MET_IN_CFG.LIN (i : Nat) : Fld := ⟨0x200010 + 0x4 * i, 13, 12⟩
abbrev MET_IN_CFG.TSLOT (i : Nat) : Fld := ⟨0x200010 + 0x4 * i, 11, 9⟩
abbrev MET_IN_CFG.SEC (i : Nat) : Fld := ⟨0x200010 + 0x4 * i, 8, 8⟩
abbrev MET_IN_CFG.DCB_EN (i : Nat) : Fld := ⟨0x200010 + 0x4 * i, 7, 7⟩
abbrev MET_IN_CFG.DCB_FRZ (i : Nat) : Fld := ⟨0x200010 + 0x4 * i, 6, 5⟩
abbrev MET_IN_CFG.DCB_K (i : Nat) : Fld := ⟨0x200010 + 0x4 * i, 4, 0⟩
abbrev MET_IN_RNOM.word (i : Nat) : Fld := ⟨0x200030 + 0x4 * i, 31, 0⟩
abbrev MET_IN_RNOM.V (i : Nat) : Fld := ⟨0x200030 + 0x4 * i, 23, 0⟩
abbrev MET_VEX.word : Fld := ⟨0x200050, 31, 0⟩
abbrev MET_VEX.EN : Fld := ⟨0x200050, 31, 31⟩
abbrev MET_VEX.LEVEL : Fld := ⟨0x200050, 30, 30⟩
abbrev MET_VEX.FAULT : Fld := ⟨0x200050, 29, 29⟩
abbrev MET_CM_WIN.word : Fld := ⟨0x200054, 31, 0⟩
abbrev MET_CM_WIN.HI : Fld := ⟨0x200054, 31, 16⟩
abbrev MET_CM_WIN.LO : Fld := ⟨0x200054, 15, 0⟩
abbrev MET_TH_CFG.word (i : Nat) : Fld := ⟨0x200080 + 0x10 * i, 31, 0⟩
abbrev MET_TH_CFG.EN (i : Nat) : Fld := ⟨0x200080 + 0x10 * i, 31, 31⟩
abbrev MET_TH_CFG.SRC (i : Nat) : Fld := ⟨0x200080 + 0x10 * i, 27, 24⟩
abbrev MET_TH_CFG.ROLE (i : Nat) : Fld := ⟨0x200080 + 0x10 * i, 17, 16⟩
abbrev MET_TH_CFG.FSTATE (i : Nat) : Fld := ⟨0x200080 + 0x10 * i, 1, 1⟩
abbrev MET_TH_CFG.INV (i : Nat) : Fld := ⟨0x200080 + 0x10 * i, 0, 0⟩
abbrev MET_TH_SET.word (i : Nat) : Fld := ⟨0x200084 + 0x10 * i, 31, 0⟩
abbrev MET_TH_SET.V (i : Nat) : Fld := ⟨0x200084 + 0x10 * i, 31, 0⟩
abbrev MET_TH_CLR.word (i : Nat) : Fld := ⟨0x200088 + 0x10 * i, 31, 0⟩
abbrev MET_TH_CLR.V (i : Nat) : Fld := ⟨0x200088 + 0x10 * i, 31, 0⟩
abbrev MET_DET_CFG.word (i : Nat) : Fld := ⟨0x2000C0 + 0x8 * i, 31, 0⟩
abbrev MET_DET_CFG.EN (i : Nat) : Fld := ⟨0x2000C0 + 0x8 * i, 31, 31⟩
abbrev MET_DET_CFG.SRC (i : Nat) : Fld := ⟨0x2000C0 + 0x8 * i, 26, 24⟩
abbrev MET_DET_CFG.MODE (i : Nat) : Fld := ⟨0x2000C0 + 0x8 * i, 17, 16⟩
abbrev MET_DET_CFG.K (i : Nat) : Fld := ⟨0x2000C0 + 0x8 * i, 12, 8⟩
abbrev MET_DET_N.word (i : Nat) : Fld := ⟨0x2000C4 + 0x8 * i, 31, 0⟩
abbrev MET_DET_N.V (i : Nat) : Fld := ⟨0x2000C4 + 0x8 * i, 15, 0⟩
abbrev MET_POLY.word (i : Nat) : Fld := ⟨0x200100 + 0x4 * i, 31, 0⟩
abbrev MET_POLY.V (i : Nat) : Fld := ⟨0x200100 + 0x4 * i, 31, 0⟩
abbrev MET_POLY_CRC.word : Fld := ⟨0x200130, 31, 0⟩
abbrev MET_POLY_CRC.V : Fld := ⟨0x200130, 31, 0⟩
abbrev MET_FE_STAT.word : Fld := ⟨0x200140, 31, 0⟩
abbrev MET_FE_STAT.V : Fld := ⟨0x200140, 31, 0⟩
abbrev MET_OVP_LATCH.word : Fld := ⟨0x200144, 31, 0⟩
abbrev MET_OVP_LATCH.V : Fld := ⟨0x200144, 7, 0⟩
abbrev MET_RES_LO.word (i : Nat) : Fld := ⟨0x200180 + 0x8 * i, 31, 0⟩
abbrev MET_RES_LO.PHASE (i : Nat) : Fld := ⟨0x200180 + 0x8 * i, 31, 31⟩
abbrev MET_RES_LO.FAULT (i : Nat) : Fld := ⟨0x200180 + 0x8 * i, 30, 30⟩
abbrev MET_RES_LO.RANGE_SETTLE (i : Nat) : Fld := ⟨0x200180 + 0x8 * i, 29, 29⟩
abbrev MET_RES_LO.DV (i : Nat) : Fld := ⟨0x200180 + 0x8 * i, 28, 28⟩
abbrev MET_RES_LO.OVR (i : Nat) : Fld := ⟨0x200180 + 0x8 * i, 27, 27⟩
abbrev MET_RES_LO.GAIN (i : Nat) : Fld := ⟨0x200180 + 0x8 * i, 26, 24⟩
abbrev MET_RES_LO.CODE (i : Nat) : Fld := ⟨0x200180 + 0x8 * i, 23, 0⟩
abbrev MET_RES_HI.word (i : Nat) : Fld := ⟨0x200184 + 0x8 * i, 31, 0⟩
abbrev MET_RES_HI.V (i : Nat) : Fld := ⟨0x200184 + 0x8 * i, 31, 0⟩
abbrev MET_DET_VAL.word (i : Nat) : Fld := ⟨0x2001C0 + 0x4 * i, 31, 0⟩
abbrev MET_DET_VAL.V (i : Nat) : Fld := ⟨0x2001C0 + 0x4 * i, 31, 0⟩

end R

end Sys2Proof
end

