-- ==== Sys2Proof/Machine/State.lean ====
section
/-!
DEFINITION. The state of the block as plain data, and `State.reset`. `Engine` is the engine die, its flash and the module
services; `Staging` the QDR-IV staging memory; `Section` the metrology section; `pending` the commands waiting.
Registers stand in `regs` at their BAR0 offsets (RegMap gives their reset words); what stands behind them in the fields below.
-/

namespace Sys2Proof.Machine

/-- Why the block stops: no rule of the spec stops it, so there is none. Nothing raises one. -/
inductive Fault where
  deriving DecidableEq, Repr

/-- Why a command has no meaning. -/
inductive Refusal where
  /-- The row has no meaning yet: raised by `exec` alone, by name. Safe: nothing is claimed of the command. -/
  | notModelled (mnemonic : String)
  deriving DecidableEq, Repr

/-- The twelve modes of R338. -/
inductive Mode where
  | m0 | m1 | m2 | m3 | m4 | m5 | m6 | m7 | m8 | m9 | m10 | m11
  deriving DecidableEq, Repr

/-- The number of a mode, 0 to 11. -/
def Mode.idx : Mode → Nat
  | .m0 => 0 | .m1 => 1 | .m2 => 2 | .m3 => 3 | .m4 => 4 | .m5 => 5
  | .m6 => 6 | .m7 => 7 | .m8 => 8 | .m9 => 9 | .m10 => 10 | .m11 => 11

/-- The mode of a number up to 11. -/
def Mode.ofNat? : Nat → Option Mode
  | 0 => some .m0 | 1 => some .m1 | 2 => some .m2 | 3 => some .m3 | 4 => some .m4 | 5 => some .m5
  | 6 => some .m6 | 7 => some .m7 | 8 => some .m8 | 9 => some .m9 | 10 => some .m10 | 11 => some .m11
  | _ => none

/-! ### Events, commands, the link -/

/-- What the books take from an event when it is written or counted lost, so that histories, DONE_IDX and UHP_CMD_OPEN always take
in exactly the events up to LAST_DSEQ (R245): a command's completion (HSEQ, status, code), or a buffer's (ring, the index after
it, whether final, the non-OK history entry it makes: HSEQ, status, bytes or count). -/
inductive Booking where
  | none
  | cmd (hseq status code : Nat)
  | buf (ring next : Nat) (final : Bool) (nok : Option (Nat × Nat × Nat))
  deriving DecidableEq, Repr

/-- An event built and not yet written (R267). `hseq` is the echoed HSEQ of an ANSWER; `held` marks a windward's event that
the leeward has not yet acknowledged (R366). -/
structure Ev where
  code : Nat
  subj : Nat
  status : Nat
  hseq : Option Nat
  dseq : Nat
  time : Nat
  arg : Nat
  payload : List Byte
  book : Booking
  held : Bool
  deriving DecidableEq, Repr

/-- The EVT queue (R221): events waiting, the last DSEQ given, the losses no QUEUE_LOST has named yet (count, first, last), lost events that the
leeward has not yet acknowledged and the books have yet to take in (R246). -/
structure EvtQueue where
  queue : List Ev
  dseq : Nat
  lost : Option (Nat × Nat × Nat)
  unacked : List Ev
  deriving DecidableEq, Repr

/-- What an open command waits for. -/
inductive Wait where
  /-- its CMD_DONE is built and not yet written or lost -/
  | built
  | jobClose
  | holdRest (gap : Bool)
  /-- a RESUME that AX0's running completes; `lull`: it ended a Lull with CAUSE COMMAND (R263) -/
  | resumed (lull : Bool)
  | stopRest
  | squallRest
  | streamFree (n : Nat)
  | replay (n : Nat)
  | bankLoad
  | bankSwap (mask n0 : Nat)
  | calGap
  | calTarget
  | calBacking
  | mark (index : Nat)
  | fill
  | compare
  | metQuery
  | mode (target : Mode)
  | takeover
  | release
  deriving DecidableEq, Repr

/-- A consumed command without CMD_DONE (R247). -/
structure OpenCmd where
  hseq : Nat
  tag : Nat
  code : Nat
  wait : Wait
  deriving DecidableEq, Repr

/-- A fetched CMD entry in CMD_IN: its ring index and its bytes. -/
structure CmdEntry where
  idx : Nat
  bytes : List Byte
  deriving DecidableEq, Repr

/-- What a request on the link is for. -/
inductive ReqFor where
  | fetch (r : Nat) | data (n : Nat) | readback (n : Nat) | fill | fillReadback | bank | compare
  | evt | met | status | msix (v : Nat) | bar4
  deriving DecidableEq, Repr

/-- A request the engine issued on the link: a write of bytes or a read of a range; `ro` is Relaxed Ordering (R230). -/
structure Tlp where
  write : Bool
  addr : Nat
  len : Nat
  data : List Byte
  ro : Bool
  what : ReqFor
  deriving DecidableEq, Repr

/-- One MSI-X table entry and its pending bit (R233). -/
structure MsixEntry where
  addr : Nat
  data : Nat
  masked : Bool
  pend : Bool
  deriving DecidableEq, Repr

/-- Moderation of one vector (R234): time of its previous message, entries written since it. -/
structure VecSt where
  lastMsg : Option Nat
  entries : Nat
  deriving DecidableEq, Repr

/-- The PCIe function: configuration (R227 to R232) with the bases of BAR0, BAR2 and BAR4, errors reported through AER in order and the 4 DW of the header log,
requests issued so far in order, MSI-X; of Device Control 2 the enable of 10-bit tags and the Completion Timeout value, the enables of ECRC generation and
checking, the status words of AER (log 142). The Completion Timeout itself is a time of the link, and a timeout arrives as a command. -/
structure LinkSt where
  bme : Bool
  mps : Nat
  mrrs : Nat
  roEnable : Bool
  extTags : Bool
  stopped : Bool
  flrOnUp : Bool
  bars : List Nat
  aer : List AerKind
  header : List Word
  out : List Tlp
  msix : List MsixEntry
  vec : List VecSt
  tags10 : Bool
  timeout : Nat
  ecrcGen : Bool
  ecrcCheck : Bool
  aerCor : Nat
  aerUnc : Nat
  deriving DecidableEq, Repr

/-- Fetching of one ring: next index to fetch, fetches outstanding oldest first (first index, count, whether still wanted: what is
received after the ring left RUN is discarded, R242). -/
structure RingSt where
  fetchIdx : Nat
  fetches : List (Nat × Nat × Bool)
  deriving DecidableEq, Repr

/-- The status block writer (R244): write count, HEARTBEAT, time of the last write and of the last periodic one, an entry
written since, the DSEQ a SYNC due waits for, the snapshot in UHP_SB_MIRROR; the HEARTBEAT event's last time (R268). -/
structure StatusSt where
  seq : Nat
  heartbeat : Nat
  lastWrite : Nat
  lastPeriodic : Nat
  entryWritten : Bool
  syncDue : Option Nat
  mirror : List Byte
  hbEvent : Nat
  lastMseq : Nat
  deriving DecidableEq, Repr

/-! ### Streams and DMA -/

/-- A formatted line in STAGE (R278); `place` is the offset in STAGE at which it lies (log 12), `pageLine` its PAGE_LINE. -/
structure StageLine where
  bytes : List Byte
  index : Nat
  page : Nat
  pageFirst : Bool
  pageLast : Bool
  defect : Bool
  parity : Bool
  committed : Bool
  place : Nat
  pageLine : Nat
  deriving DecidableEq, Repr

/-- How far a cached buffer has come: taking lines, its read-back or Ack outstanding (R276, R277), confirmed, refused (R265), failed
(R280), ended by STOP (R253; the last one ended carries the history entry: first HSEQ, count). -/
inductive Confirm where
  | writing | readback | fast | confirmed | rejected | failed (e : ReadErr) | aborted (nok : Option (Nat × Nat))
  deriving DecidableEq, Repr

/-- A cached stream buffer (R264, R265): its descriptor, the lines wholly written into it, a line a
withdrawal cut short (R279), whether a replay has yet to rewrite it (R281), its state; whether its ring has been enabled afresh since (R237). -/
structure Buf where
  idx : Nat
  hseq : Nat
  addr : Nat
  len : Nat
  tag : Nat
  pageBreak : Bool
  bad : Bool
  lines : List StageLine
  cut : Option StageLine
  begun : Bool
  jobEnd : Bool
  withdrawn : Bool
  replayed : Bool
  redo : Bool
  confirm : Confirm
  stale : Bool
  deriving DecidableEq, Repr

/-- A stream (R134, R265, R279 to R282): its lines in STAGE oldest first, bytes written past the end of the line before the first of
them, cached buffers in ring order, read-backs outstanding oldest first (the index of the buffer each proves; none: a halt or a
discard has overtaken it), progress (line, bytes) of a buffer being rewritten. `ending` says that no more lines come: at the end
of a job (true) or of a page (false). `place` is where in STAGE the next line goes (R278, log 12); `waited` says that lines have awaited DMA for the whole of the pacer's period (R172); `seen` counts the delivered lines of the page in progress (R142); `conf` is its last confirmed line: LINE_INDEX, PAGE_NO, PAGE_LINE. -/
structure Stream where
  running : Bool
  waitFrame : Bool
  joined : Bool
  stopPage : Bool
  ending : Option Bool
  stage : List StageLine
  sent : Nat
  bufs : List Buf
  halted : Bool
  replaying : Bool
  rbs : List (Option Nat)
  rw : Nat × Nat
  place : Option Nat
  waited : Bool
  seen : Nat
  conf : Option (Nat × Nat × Nat)
  deriving DecidableEq, Repr

/-- Work of the DMA command channel (R273, R283 to R285), in CMD ring order. `reads` are the lengths of the read requests
outstanding, oldest first; `asked` and `got` count bytes. A command whose read failed leaves `spent`: the number of its reads that are still outstanding. A
COMPARE compares what it got once SVC_RD has read the staging bytes of it: `through` counts the bytes compared; after a read that failed only those got before it
are still compared. -/
inductive DmaWork where
  | fill (hseq addr len pattern width done : Nat) (rb : Bool)
  | bank (hseq addr first count bank asked got : Nat) (reads : List Nat)
  | spent (reads : Nat)
  | compare (hseq addr sa len asked got : Nat) (reads : List Nat) (firstBad : Option Nat) (bad through : Nat) (failed : Bool)
  deriving DecidableEq, Repr

/-- The DMA engine: the stream served last, bursts of the present sixteen given and of them to the command channel, command work; the burst whose data
DMA_RD is reading: its stream, where in STAGE its bytes lie, how many; read-backs that could not be issued when their buffer closed: stream, buffer, host
address. -/
structure DmaSt where
  last : Nat
  slot : Nat
  cmdGiven : Nat
  work : List DmaWork
  reading : Option (Nat × Nat × Nat)
  owed : List (Nat × Nat × Nat)
  deriving DecidableEq, Repr

/-! ### Lines -/

/-- What a line tag carries of R3, and the fields of R145 a line brings with it. -/
structure LineFlags where
  late : Bool
  lateness : Nat
  subst : Bool
  poison : Bool
  warmup : Bool
  fade : Bool
  seam : Bool
  tapFault : Bool
  frozen : Bool
  ovr : Nat
  expgen : Nat
  auxkind : Nat
  deriving DecidableEq, Repr

/-- A line without flags. -/
def LineFlags.clear : LineFlags := ⟨false, 0, false, false, false, false, false, false, false, 0, 0, 0⟩

/-- A converted sample: its code, the physical slice that converted it, the OVR flag (R62) and the poison tag (R211). -/
structure Sample where
  code : Nat
  slice : Nat
  ovr : Bool
  poison : Bool
  deriving DecidableEq, Repr

/-- A trigger (R37): pitch number (below 0 after a backtrack past the first boundary), kept index or none for a trigger marked for discard, SEAM, time. -/
structure Trigger where
  pitch : Int
  index : Option Nat
  seam : Bool
  time : Nat
  deriving DecidableEq, Repr

/-- A packet of a TRIG queue (R216): a TRIGGER of 2 words; a PREDICT of 1 word with t_pred, none where no boundary is predicted (R398). -/
inductive TrigPkt where
  | trigger (t : Trigger) | predict (t : Option Nat)
  deriving DecidableEq, Repr

/-- A tap-line packet (R217): header fields and samples; `chk` are the failed wire checks of R69, `ref` that REF_FAULT was active (R68). -/
structure TapPkt where
  index : Nat
  pitch : Int
  chk : Nat
  ref : Bool
  seam : Bool
  subst : Bool
  late : Bool
  discard : Bool
  expgen : Nat
  ovr : Nat
  lateness : Nat
  auxkind : Nat
  black : List Sample
  active : List Sample
  deriving DecidableEq, Repr

/-- A corrected tap-line waiting for stage 7, in ascending pixel order. -/
structure TapDone where
  index : Nat
  pixels : List Nat
  flags : LineFlags
  deriving DecidableEq, Repr

/-- An aligned line of a side: planes RED, GRN, BLU, AUX and the tag of each (R13). -/
structure AlignedLine where
  index : Nat
  planes : List (List Nat)
  tags : List LineFlags
  deriving DecidableEq, Repr

/-! ### Sensor timing -/

/-- The exposure window of a row (R39): when it opened, when it closed, the pitch number and, for a kept trigger, the index it serves, its
exposure in 1/16 periods; whether it serves no line any more and only runs its full length (R39, R43); whether no LED strobes in it (R78, R88). -/
structure Window where
  opened : Nat
  closed : Option Nat
  pitch : Int
  index : Option Nat
  exp : Nat
  spent : Bool
  dark : Bool
  deriving DecidableEq, Repr

/-- A line being read out (R39): its trigger, start time, lateness of each row (0: not late), exposure generation, whether the side
converts it, and the settings of the side's 32 channels in force from its line boundary on: OFS and GAIN codes (R54), AFE_CHk_CFG words (R53). -/
structure LineRun where
  trig : Trigger
  start : Nat
  late : List Nat
  expgen : Nat
  converting : Bool
  trims : List (Int × Int)
  cfgs : List Word
  deriving DecidableEq, Repr

/-- Dropped or replaced lines not yet reported (R44): time of the latest event, first index and count since it. -/
structure HeldDrops where
  last : Option Nat
  first : Nat
  count : Nat
  deriving DecidableEq, Repr

/-- The timing generator of a side: its TRIG queue, t_pred, the one-deep slot, the window of each row for the line to come, rows that keep
the light of a dropped line (R43), the readout, the latest line start and flush, since when the sensor is free, the latest kept index
taken, generation of exposure, changes waiting, dropped lines, those of them whose SUBST line follows the line in readout (index, pitch number, exposure
generation), FMAX_MHZ of the latest valid SDB. -/
structure TimingGen where
  queue : List TrigPkt
  pred : Option Nat
  slot : Option Trigger
  windows : List (Option Window)
  stale : List Bool
  run : Option LineRun
  lastStart : Option Nat
  lastFlush : Option Nat
  freeSince : Nat
  lastKept : Option Nat
  expgen : Nat
  changes : List ExpChange
  drops : HeldDrops
  substs : List (Nat × Int × Nat)
  fmax : Option Nat
  deriving DecidableEq, Repr

/-! ### Motion, pacer, job -/

/-- PAC_STATE.STATE (R169). -/
inductive PacState where
  | idle | run | decel | hold | back | runup | gapStop | stopping | squall
  deriving DecidableEq, Repr

/-- The number of a pacer state. -/
def PacState.idx : PacState → Nat
  | .idle => 0 | .run => 1 | .decel => 2 | .hold => 3 | .back => 4 | .runup => 5 | .gapStop => 6 | .stopping => 7 | .squall => 8

/-- The profile generator and the trigger generator (R163, R165, R168, R37, R398). Speed in 0.1 nm/s, acceleration in
0.01 mm/s², travel in 10⁻⁶ nm, so that a tick of 10 µs is exact (log 18); travel and the encoder's forward count at the latest rest;
travel of AX1 to AX3 times 65,536; position in 1/256 count with its maximum and when that was reached; the boundary number of pitch number 0 (R183), the highest kept pitch number (-1 where a takeover goes on before index 0, R371),
the next line index, the time of the latest kept trigger; the latest edges of the trigger source; faults already raised; when the commanded speed
last came to 0; of each axis whether its latest step was forward (its direction output, R163). -/
structure MotionSt where
  v : Int
  acc : Int
  travel : Int
  restTravel : Int
  fwdCount : Int
  restCount : Int
  axTravel : List Int
  pos : Int
  maxPos : Int
  maxPosTime : Nat
  base : Int
  highest : Option Int
  kept : Nat
  lastKeptTime : Nat
  discards : Nat
  lastEdge : Option Nat
  lastFwdEdge : Option Nat
  edgeNs : Nat
  lastFwd : Bool
  prevFwd : Bool
  zeroSince : Bool
  slipRaised : Bool
  encRaised : Bool
  zeroTime : Nat
  dirs : List Bool
  deriving DecidableEq, Repr

/-- The pacer (R169 to R180): state, limiting term, Lull causes, integral in mm/s, host rate in B/s, v_ovr, bytes confirmed in the period;
commanded holds; since when the exit condition holds; of the Lull in progress the last kept index, the time of LULL_ENTER, the speed at
step 1, the discards of the restart, the rest position; the travel at which the backtrack began, and how
much farther than PAC_BACK it goes after a takeover, in 10⁻⁶ nm; the first index kept after the Lull;
a STOP waiting for the end of a Lull. -/
structure PacerSt where
  st : PacState
  limit : Nat
  causes : Nat
  integ : Rat
  rate : Rat
  vovr : Nat
  confirmed : Nat
  holdLull : Bool
  holdGap : Bool
  exitSince : Option Nat
  lullKept : Option Nat
  lullTime : Nat
  lullSpeed : Nat
  lullDiscards : Nat
  restPos : Int
  backFrom : Int
  extra : Int
  seamAt : Option Nat
  stopping : Bool
  deriving DecidableEq, Repr

/-- Feeding (R184, R186): documents to feed, gate and the time it opened, counts and patterns of documents still
to feed (a count of 0: without a count), documents in flight and AX0's speed when the first of them was fed (R185), travel in 10⁻⁶ nm at the last trailing edge at FEED_DI,
whether the present feed has been counted as withheld, the pattern on the DOC outputs, whether the latest fed document is still over FEED_DI. -/
structure FeedSt where
  pend : Nat
  gate : Bool
  opened : Nat
  patterns : List (Nat × Nat)
  flight : List Doc
  speed : Nat
  lastTrail : Option Int
  withheld : Bool
  docPattern : Nat
  onSensor : Bool
  deriving DecidableEq, Repr

/-- A Squall in progress (R187): cause, speed at the request, DSEQ of the FAULT, HSEQ of the commands that asked for it. -/
structure SquallSt where
  cause : Nat
  speed : Int
  fault : Nat
  cmds : List Nat
  rest : Bool
  restTime : Nat
  arbiter : Bool
  deriving DecidableEq, Repr

/-- The job (R262): open, closing, JOB_ID, whether its kept lines have ended, channels whose coefficient fault was raised in it, and a mask of the
LED drivers turned off for the rest of it (R49); the first index kept after its latest Lull or takeover, and the index from which every line carries TAP_FAULT
up to the stop (R71). -/
structure JobSt where
  isOpen : Bool
  closing : Bool
  id : Nat
  ended : Bool
  coefRaised : List Nat
  dark : Nat
  seamLine : Option Nat
  wireStop : Option Nat
  deriving DecidableEq, Repr

/-! ### Frames, geometry units -/

/-- What a geometry unit has to render of one frame (R131, R133): page, first and last aligned line, next output line, the streams that
deliver the page with the lines each has counted (R142), whether it resumed after a takeover (R136). -/
structure GuRun where
  page : Nat
  first : Nat
  last : Option Nat
  out : Nat
  streams : List (Nat × Nat)
  resumed : Bool
  deriving DecidableEq, Repr

/-- A geometry unit: aligned lines it still needs, oldest first; the frames it renders, oldest first; the last aligned line where no further
one can come; the earliest aligned line it has received since it began or resumed (R136). -/
structure GuSt where
  hist : List AlignedLine
  runs : List GuRun
  ended : Option Nat
  low : Option Nat
  deriving DecidableEq, Repr

/-! ### Modes, resets, flash -/

/-- The reset kinds of R345. -/
inductive ResetKind where
  | por | perst | flr | soft | wdogEng | wdogArb | rstN | pfailPor
  deriving DecidableEq, Repr

/-- A reset in progress: its kinds (a later one that meets it joins, R356), whether it waits for AX0 to come to rest (R346). -/
structure ResetSt where
  kinds : List ResetKind
  deriving DecidableEq, Repr

/-- A MODE command in progress or waiting (R340, R342). -/
structure ModeCmd where
  hseq : Nat
  target : Mode
  deriving DecidableEq, Repr

/-- The wake to M6 or M3 in progress (R344). -/
structure WakeSt where
  target : Mode
  railsOn : Bool
  deriving DecidableEq, Repr

/-- Transitions (R342): the target being entered while BUSY, the MODE command that walks there (none in a wake), those waiting,
the wake in progress, the instant of the WAKE edge that began the latest one. -/
structure TransSt where
  target : Option Mode
  cmd : Option ModeCmd
  waiting : List ModeCmd
  wake : Option WakeSt
  warming : Bool
  wokeAt : Option Nat
  deriving DecidableEq, Repr

/-- The pins and the supply (R353 to R356). -/
structure PinSt where
  rstLow : Bool
  perstLow : Bool
  failed : Bool
  inRecovery : Bool
  bootTime : Nat
  deriving DecidableEq, Repr

/-- A firmware slot of 16 MiB (R350, R351): its bytes where they differ from 0xFF, verified since the last change, whether it holds the
image it was delivered with, whether power failed while it was written or erased (R356). -/
structure SlotSt where
  bytes : Sparse Byte
  verified : Bool
  factory : Bool
  torn : Bool
  deriving DecidableEq, Repr

/-- An NVM operation in progress (R351): its code, and slot, offset and bytes as the mailbox held them at GO. -/
structure NvmOp where
  op : Nat
  slot : Nat
  off : Nat
  data : List Byte
  deriving DecidableEq, Repr

/-- Engine flash (R348 to R351, R192, R361): POR count, preferred slot, map-out request, pair enable (bit 1) and preference (bit 0),
power-fail count and flag, firmware slots, slot running, the NVM operation in progress, takeovers made, the slot that failed its check
at the latest boot, where its FAULT is still to be raised; the subsystem IDs as one word (R227; none: the default). -/
structure FlashSt where
  porCount : Nat
  pref : Nat
  mapReq : Nat
  pairCfg : Nat
  pfailCnt : Nat
  pfailFlag : Bool
  slots : List SlotSt
  running : Nat
  nvmOp : Option NvmOp
  takeovers : Nat
  fallback : Option Nat
  subsystem : Option Nat
  deriving DecidableEq, Repr

/-! ### Staging ports -/

/-- Who waits for a burst: nobody in the engine; a BAR4 access; the scrubber; a row line being written; the aligned line of a side being read; a formatted
line being written at a place of STAGE; the DMA burst in hand; a COMPARE, with the host bytes that it holds against the range from a staging address on. -/
inductive BurstFor where
  | other | host (id : Nat) | scrub | row (side row line : Nat) | align (side : Nat) | stage (stream place : Nat) | dma
  | compare (hseq sa off : Nat) (data : List Byte)
  deriving DecidableEq, Repr

/-- A burst a requester has raised at a port (R189, R224): staging address, transactions, bytes to write with their enables (none of a
read), who waits for it, whether it has been granted before. -/
structure Burst where
  addr : Nat
  txns : Nat
  data : List (Option Byte)
  what : BurstFor
  granted : Bool
  deriving DecidableEq, Repr

/-- The live counters of an input (R205); `run` is the unbroken run of wait cycles it stands in. -/
structure PortCount where
  grants : Nat
  waits : Nat
  maxWait : Nat
  run : Nat
  preempts : Nat
  deriving DecidableEq, Repr

/-- A port arbiter (R198 to R205): holder or parked requester by its code, whether it holds, per requester the bursts raised, the
transactions issued and the tenure of the first, slot pointer; live counters per input. -/
structure PortSt where
  owner : Nat
  granted : Bool
  bursts : List (List Burst)
  txns : List Nat
  tenures : List Nat
  slot : Nat
  live : List PortCount
  deriving DecidableEq, Repr

/-- A BAR4 access in progress (R197): its number, start, address, length, whether it writes, bursts not yet granted and not yet
finished, bytes read so far with their address, addresses of those with a parity error. -/
structure Bar4Acc where
  id : Nat
  time : Nat
  addr : Nat
  len : Nat
  write : Bool
  waiting : Nat
  left : Nat
  got : List (Nat × Byte)
  poisoned : List Nat
  deriving DecidableEq, Repr

/-- The completion of a BAR4 read (R197): Completer Abort, or data, poisoned or not. -/
structure Bar4Done where
  id : Nat
  abort : Bool
  poisoned : Bool
  data : List Byte
  deriving DecidableEq, Repr

/-- The QDR controllers and arbiters: ports, BAR4 accesses and the completions sent, scrubber (next granule, time of its latest request,
start of the pass), dies whose parity fault was raised this pass (R195), boot-test faults waiting for the EVT ring (R193), when a watchdog that needed no Squall
fired: AX0 was at rest (R204, R345). -/
structure QdrSt where
  ports : List PortSt
  bar4 : List Bar4Acc
  nextBar4 : Nat
  bar4Done : List Bar4Done
  scrubNext : Nat
  scrubLast : Nat
  passStart : Nat
  raised : List Nat
  dieFaults : List (Nat × Nat)
  wdogRest : Option Nat
  deriving DecidableEq, Repr

/-! ### The pair -/

/-- What a pair link frame of the windward waits to have acknowledged (R366): an event, a command counted as consumed, a record, or other mirrored state. -/
inductive DeltaFor where
  | event (dseq : Nat) | command (hseq : Nat) | record | state
  deriving DecidableEq, Repr

/-- A frame sent and not yet acknowledged (R362): number, time of the latest sending (none: the link has acknowledged it, and a delta
waits for the leeward), time first sent, the change it carries, its content. -/
structure TxFrame where
  number : Nat
  sent : Option Nat
  first : Nat
  delta : Option DeltaFor
  body : PairBody
  deriving DecidableEq, Repr

/-- What a windward has sent of its state (R365), as the leeward holds it: registers and window words, cached descriptors with the index and page of each line
written, commands without CMD_DONE, the other items as sent last; whether a bulk copy has begun. -/
structure MirrorImage where
  begun : Bool
  regs : Sparse Word
  cached : List (Nat × Buf)
  opens : List OpenCmd
  items : List MirrorItem
  deriving DecidableEq, Repr

/-- The mirrored state the leeward holds until a takeover (R365): UHP registers, sequences, cached buffers, open commands, mode, job, pacer causes,
the windward's device time ahead of its own, streams with their last confirmed line (LINE_INDEX, PAGE_NO and PAGE_LINE of its tag, log 39), the highest
acknowledged MSEQ. -/
structure Shadow where
  regs : Sparse Word
  dseq : Nat
  head : Nat
  beat : Nat
  cached : List (Nat × Buf)
  opens : List OpenCmd
  mode : Nat
  job : Bool
  jobId : Nat
  causes : Nat
  offset : Int
  running : List Bool
  conf : List (Option (Nat × Nat × Nat))
  mseq : Nat
  deriving DecidableEq, Repr

/-- Pair operation (R359 to R373). `st` is the state code of R364, `role` 0 single, 1 windward, 2 leeward; `stTime` is when that state was entered. -/
structure PairSt where
  role : Nat
  st : Nat
  drive : Bool
  peerOwn : Bool
  linkUp : Bool
  plver : Nat
  lastSent : Nat
  lastPeer : Option Nat
  hbStopped : Bool
  releasedAt : Option Nat
  current : Bool
  releasing : Bool
  txNext : Nat
  rxNext : Nat
  tx : List TxFrame
  shadow : Shadow
  takeAt : Option Nat
  cause : Nat
  peerPref : Bool
  bootRole : Bool
  stTime : Nat
  image : MirrorImage
  deriving DecidableEq, Repr

/-! ### Converters and the image path -/

/-- The raw samples of a converted tap-line: optical-black and active. -/
structure RawLine where
  black : List Sample
  active : List Sample
  deriving DecidableEq, Repr

/-- An AFE die (R50 to R68, R382, R383): start of settling and when the reference will have settled (a free value, log 13), whether
REF_TIMEOUT was raised for it; reference inside its window, DSEQ of the latest REF_FAULT's event; start of the buffer; the reference voltage
in force in µV, as the latest readout found it (R65); straps read at the latest entry to M3, sensor supplies on, buffer held in a wake; whether a current limit
has turned the supplies off since that entry (R383). -/
structure AfeSide where
  settleStart : Option Nat
  settleAt : Nat
  timedOut : Bool
  refIn : Bool
  refDseq : Nat
  bufStart : Option Nat
  vref : Nat
  strap : Nat
  supplies : Bool
  bufWait : Bool
  tripped : Bool
  deriving DecidableEq, Repr

/-- A video channel: its queue, previous raw line (of each index parity too), owed indices with the time they were owed,
replaced lines not yet reported (R218), optical-black means in the delay (R97), the latest shift of the tracker for new trims with the
line index from which lines run under them (R82), raw lines last read by stage 5 (any, even, odd index), previous corrected line of the channel and of each index
parity (R105), tap-lines ready for stage 7; the slices (R56 to R60): slice on each phase, spare calibrated, rotations made, attempts of the
present calibration that did not converge, lines since the latest rotation, corrections each slice last took, first and last
kept index of each slice's latest active interval. -/
structure ChanSt where
  queue : List TapPkt
  prev : Option RawLine
  prevEven : Option RawLine
  prevOdd : Option RawLine
  owed : List (Nat × Nat)
  defects : HeldDrops
  means : List (Nat × Nat)
  shift : Option (Nat × Int)
  raw5 : List (Option RawLine)
  outPrev : Option (List Nat)
  outEven : Option (List Nat)
  outOdd : Option (List Nat)
  entered : Option Nat
  done : List TapDone
  phases : List Nat
  spareReady : Bool
  rotations : Nat
  attempts : Nat
  since : Nat
  served : List (Option SliceCorr)
  service : List (Option Nat × Option Nat)
  deriving DecidableEq, Repr

/-- FORCE as the lines of a side met it (R101): the highest index that has entered stage 5, and from which index on FORCE was set or clear. -/
structure ForceSt where
  top : Option Nat
  marks : List (Nat × Bool)
  deriving DecidableEq, Repr

/-- Shading state: the fade in progress, the queued swap, document windows, FORCE of each side. -/
structure ShdSt where
  fade : Option SwapSt
  queued : Option SwapSt
  windows : List DocWin
  force : List ForceSt
  deriving DecidableEq, Repr

/-- The eddy controller of a side (R115 to R121): tags of the latest row lines of each row, latest row line written of each row,
next aligned index, last kept index when no further line can come, previous aligned line, lowest row line it holds, first aligned index that
frames and detector have yet to see after a takeover, highest index of a line committed to STAGE (R187), whether the read-out of the next line is under
way. -/
structure EddySt where
  tags : List (List (Nat × LineFlags))
  written : List (Option Nat)
  next : Nat
  finish : Option Nat
  prev : Option AlignedLine
  low : Nat
  first : Nat
  committed : Option Nat
  reading : Bool
  deriving DecidableEq, Repr

/-! ### Calibration -/

/-- What one channel has measured in the running gap calibration: sum and count of its dark lines, of its backing lines, and of its
UV backing lines in ALT mode (R78, R80). Sums are of line means times the number of pixels, kept exact. -/
structure GapMeas where
  darkSum : Rat
  darkN : Nat
  backSum : Rat
  backN : Nat
  uvSum : Rat
  uvN : Nat
  deriving DecidableEq, Repr

/-- The results of a gap calibration waiting for step 6 (R78): trims per channel (OFS, GAIN), levels per driver, rejections. -/
structure GapResult where
  trims : List (Nat × Int × Int)
  levels : List (Nat × Nat)
  chRej : Nat
  drvRej : Nat
  incomplete : Bool
  deriving DecidableEq, Repr

/-- A full calibration phase (R88, R90): kind (0 none, 1 target, 2 backing), step, the first line index of the step and its lines, next internal
trigger and the time of the latest, per channel the means of the step before and the trims computed last (OFS, GAIN, not clamped), the sum of line means and the lines taken, per channel and pixel the sums of the averaging steps (dark, white),
BUF_EN of both dies before the phase, its start. Steps of the target phase: 11 VCALREF settles and is measured, 0 to 7 dark and white of each repetition,
8 dark and 9 white averages, 10 done; of the backing phase: 0 backing (AUX with NIR), 1 AUX with UV, 2 done. -/
structure FullCal where
  kind : Nat
  step : Nat
  base : Nat
  lines : Nat
  next : Nat
  lastTrig : Nat
  means : List Rat
  trims : List (Int × Int)
  sums : List Rat
  counts : List Nat
  dark : List (List Int)
  white : List (List Int)
  buf : List Nat
  start : Nat
  deriving DecidableEq, Repr

/-- A calibration record as a flash copy holds it (R91): the fields that are checked at boot, and what they guard. -/
structure StoredRec where
  magic : Nat
  version : Nat
  length : Nat
  crc : Nat
  body : CalRecord
  deriving DecidableEq, Repr

/-- Calibration (R74 to R94): the gap calibration running (index of g = 0), the lines of those of the job, whether the feed is withheld for it, its causes at line 0, causes
raised and commands accepted since its line 0 (they wait for the next gap), its
measurements and results, time of the last completion and of the end of the boot, temperatures read at line 20, CAL_DUE of the schedule
emitted; channel values of the record; the full calibration phase, the values it may restore, its rejections; record copies A and B
in flash, the copy being written with its record; VCALREF in µV; consecutive rejections of the 64 channels and 10 drivers and whether their FAULT was
raised; T0 to T3 with the time of the latest fresh value. -/
structure CalSt where
  gapStart : Option Nat
  gapSpans : List (Nat × Nat)
  gapWithheld : Bool
  causes0 : Nat
  late : Nat
  lateCmds : List Nat
  meas : List GapMeas
  result : Option GapResult
  lastDone : Option Nat
  bootTime : Nat
  temps20 : List Nat
  schedEmitted : Bool
  chans : List ChCal
  full : FullCal
  saved : Option CalRecord
  fullRej : Nat
  copies : List (Option StoredRec)
  writing : Option (Nat × CalRecord)
  vcalref : Nat
  consec : List Nat
  consecRaised : List Bool
  rtdTime : List (Option Nat)
  rtd : List Nat
  deriving DecidableEq, Repr

/-! ### Page geometry and monitors -/

/-- A signal monitor (R158 to R161): accepted lines of the window, peak and its pixel, sums, pixels counted, envelope E and its pixel,
hold-off, result held back, frozen INDEX and PEAKX, whether a PAGE window is in progress. -/
structure MonSt where
  n : Nat
  peak : Option (Nat × Nat)
  sum : Nat
  sumSq : Nat
  count : Nat
  env : Nat
  envX : Nat
  lastIndex : Nat
  lastEvt : Option Nat
  held : Bool
  heldFolds : Nat
  heldResult : Nat × Bool × Nat × Nat
  frozen : Option (Nat × Nat)
  enabled : Bool
  live : Nat × Nat
  deriving DecidableEq, Repr

/-! ### The link between engine and section -/

/-- A packet of the fixed command set of R290 on MET_CMD. A query carries the model's own number, which its answer repeats (log 11). -/
inductive MetCmd where
  | query (id kind arg : Nat)
  | ack (mseq : Nat)
  | sync (time : Nat)
  | peer (record : List Byte)
  deriving DecidableEq, Repr

/-- What a packet of the section on MET_IN carries (R222, R288): a record; T0 to T3, each with whether it has been refreshed; the states
of TH0 to TH3 with the value of each switch's source; identification (firmware version and CRC, audit counter, public key, highest acknowledged
MSEQ); the answer to a query with its 24 result bytes and what it brings beside them; a notice of R313. -/
inductive MetIn where
  | record (mseq : Nat) (bytes : List Byte)
  | temps (t : List (Nat × Bool))
  | thresholds (states : Nat) (values : List Nat)
  | ident (fw crc audit keyId : Nat) (key : List Byte) (acked : Nat)
  | answer (id kind status : Nat) (data extra : List Byte)
  | notice (kind mseq detail : Nat)
  deriving DecidableEq, Repr

/-- What the section reports of itself with every packet, for the mirror of R311 (log 11), and whether pairing is enabled in its parameters: then it sends its
records to the peer too (R310). -/
structure MetStat where
  sealOpen : Bool
  timeSync : Bool
  full : Bool
  feFault : Bool
  backlog : Nat
  labels : Nat
  pairing : Bool
  deriving DecidableEq, Repr

/-- A packet on MET_IN. -/
structure MetPkt where
  body : MetIn
  stat : MetStat
  deriving DecidableEq, Repr

/-- A tap line on MTAP0 or MTAP1 (R11, R289): its side, pitch number, discard mark, ALT parity, the time of its line start, and of each row
the 960 binned values and the failed wire checks. The section selects the row by its own parameters (TAP_SEL). -/
structure TapLine where
  side : Nat
  pitch : Nat
  discard : Bool
  parity : Nat
  time : Nat
  rows : List (List Nat)
  chk : List Nat
  deriving DecidableEq, Repr

/-- The queues between engine and section: MET_CMD, MET_IN, MTAP0 and MTAP1. -/
structure MetLink where
  cmd : List MetCmd
  inq : List MetPkt
  tap : List (List TapLine)
  deriving DecidableEq, Repr

/-- A query of R312 waiting or asked: the MET_QUERY command that asked (none: the mailbox), its kind and argument. -/
structure MetQuery where
  hseq : Option Nat
  kind : Nat
  arg : Nat
  deriving DecidableEq, Repr

/-- The engine's side of the section: queries in arrival order with the number of the one asked and when; times of the latest packet
received and SYNC sent; the latest NO_RECORD notice; per input the latest FE_FAULT notice and the detail held back (R336); records received and not
yet written, oldest first, each with whether the leeward has still to acknowledge it (R366); the latest record, the MSEQ that MET_REC holds (R302). -/
structure MetSt where
  queries : List MetQuery
  asked : Option (Nat × Nat)
  nextId : Nat
  lastPkt : Nat
  lastSync : Nat
  noRec : Option Nat
  fe : List (Option Nat × Option Nat)
  recv : List (Nat × List Byte × Bool)
  latest : Option (Nat × List Byte)
  latched : Option Nat
  deriving DecidableEq, Repr

/-! ### The section -/

/-- The parameters the section's flash holds beside the map of R315 (R305): S_L in 0.1 nm per count, S_H in 10 nm per value, k in
1/1,000, D_T in counts, measuring side, TAP_SEL, pairing, the peer public key. -/
structure SecParams where
  sL : Nat
  sH : Nat
  k : Nat
  dT : Int
  side : Nat
  tapSel : Nat
  pairing : Bool
  peerX : Nat
  peerY : Nat
  deriving DecidableEq, Repr

/-- A piece from its leading edge to its record (R291 to R296): label, times (TIME, ms since the latest SYNC where it was more than 1 s),
LE_PITCH; flags; per column the crossings of the leading and trailing edge; per used line its position with left and right crossing; speeds at the
edges in mm/s; first and last position; whether the trailing edge has passed, confirmed; when the result was ready; the peer's
record; used lines in a row without a document value, which confirm the trailing edge (R303). -/
structure Piece where
  label : Nat
  time : Nat
  unsync : Option Nat
  lePitch : Nat
  notLegal : Bool
  multi : Bool
  lull : Bool
  feFault : Bool
  edge : Bool
  lead : List (Option Rat)
  trail : List (Option Rat)
  widths : List (Int × Rat)
  vLe : Rat
  vTe : Rat
  first : Int
  last : Int
  closed : Bool
  ready : Option Nat
  peer : Option (List Byte)
  gap : Nat
  deriving DecidableEq, Repr

/-- A used tap line: its position, the time of its header, v − B less k × B per column as a magnitude (positive: a document value by R291's
entry level). -/
structure SecLine where
  pos : Int
  time : Nat
  contrast : List Rat
  deriving DecidableEq, Repr

/-- One input of the measurement converter (R324 to R336): gain code, previous valid |code| / 2^23 with its gain, successive low outputs,
RANGE_SETTLE outputs left, the first reading of a pair with its OVR, overloads in a row and their direction, outputs in a row with the common mode outside its window, per fault (OPEN,
CM, EXC, OVP, VEX) the clean outputs still wanted (0: not live), m of the DC-blocking stage, the linearised value, direction of an overload, since
when it waits for a turn. -/
structure FeIn where
  gain : Nat
  prev : Option (Nat × Rat)
  low : Nat
  settle : Nat
  first : Option (Rat × Bool)
  overN : Nat
  overUp : Bool
  cm : Nat
  live : List Nat
  m : Rat
  lin : Option Rat
  ovr : Option Bool
  turn : Nat
  deriving DecidableEq, Repr

/-- A detector (R331): outputs in the window, sum of squares, largest magnitude, envelope, latest result. -/
structure DetSt where
  n : Nat
  sum : Rat
  max : Rat
  env : Rat
  value : Option Rat
  deriving DecidableEq, Repr

/-- The converter (R320 to R326): input in conversion with the configuration it runs under, outputs since the synchronising reset, whether
the pair is swapped, the latest secondary served, whether the primary has given a clean output since; inputs, detectors, switch states; whether
the polynomial's CRC held; τ; T0 to T3 and which were refreshed since they were published; the map in force, which takes what was written at an output boundary
(R315). -/
structure FeSt where
  cur : Option Nat
  cfg : Word
  outs : Nat
  phase : Bool
  lastSec : Nat
  clean : Bool
  ins : List FeIn
  dets : List DetSt
  th : List Bool
  polyOk : Bool
  tau : Rat
  temps : List Nat
  fresh : List Bool
  act : Sparse Word
  deriving DecidableEq, Repr

/-- A stored record (R301): MSEQ, bytes, acknowledged, when it was last sent. -/
structure SecRec where
  mseq : Nat
  bytes : List Byte
  acked : Bool
  sent : Option Nat
  deriving DecidableEq, Repr

/-- The engine die with its flash and the module services. `jump` is how far device time stands ahead of the time since power-on, which the section counts
by: a takeover sets device time to the pair's (R298, R370). -/
structure Engine where
  regs : Sparse Word
  mode : Mode
  now : Nat
  jump : Int
  free : Nat
  rsp : List Byte
  trans : TransSt
  resetting : Option ResetSt
  pins : PinSt
  flash : FlashSt
  link : LinkSt
  evt : EvtQueue
  opens : List OpenCmd
  cmdIn : List CmdEntry
  rings : List RingSt
  status : StatusSt
  streams : List Stream
  dma : DmaSt
  tg : List TimingGen
  mot : MotionSt
  pac : PacerSt
  feed : FeedSt
  squall : Option SquallSt
  job : JobSt
  frames : List FrameSt
  gus : List GuSt
  qdr : QdrSt
  pair : PairSt
  afe : List AfeSide
  chans : List ChanSt
  shd : ShdSt
  eddy : List EddySt
  cal : CalSt
  geo : List GeoSt
  mon : List MonSt
  met : MetLink
  mets : MetSt
  deriving DecidableEq, Repr

/-- The staging memory (R189, R195): bytes at staging addresses and the addresses whose byte has bad parity. -/
structure Staging where
  bytes : Sparse Byte
  bad : Sparse Bool
  deriving DecidableEq, Repr

/-- The metrology section: its register map (R315) and parameters as they stand and as its flash holds them; seal; firmware running and
installed to run next; audit counter, generation of the key pair, highest MSEQ, record store; labels; position of EN0 with the highest one used for a piece, time
and direction of the latest edge and the speed it shows in mm/s; positions latched at tap line headers (side, time, position); backing level with its learning, the latest used line;
pieces, oldest first; thickness values (position, value in mm); the latest SYNC: the section's time at its marked
instant and the device time it carried; the converter; free values taken; the highest MSEQ acknowledged; the service port's latest answer, whether what it asked
was done. -/
structure Section where
  regs : Sparse Word
  stored : Sparse Word
  params : SecParams
  storedParams : SecParams
  paramOk : Bool
  sealOpen : Bool
  fwVer : Nat
  fwCrc : Nat
  newFw : Option (Nat × Nat)
  audit : Nat
  keyGen : Nat
  mseq : Nat
  store : List SecRec
  labels : List Nat
  pos : Int
  used : Option Int
  edgeTime : Option Nat
  speed : Rat
  latches : List (Nat × Nat × Int)
  back : Int
  learnN : Nat
  learnSum : Int
  doc : List Bool
  line : Option SecLine
  pieces : List Piece
  thick : List (Int × Rat)
  sync : Option (Nat × Nat)
  fe : FeSt
  free : Nat
  highAck : Nat
  portAns : Option Bool
  deriving DecidableEq, Repr

/-- The block: the engine, the staging memory, the section, and the commands waiting, first in first out. -/
structure State where
  eng : Engine
  stg : Staging
  sec : Section
  pending : List Instr
  deriving DecidableEq, Repr

/-! ### The state after reset -/

/-- An event queue with nothing in it. -/
def EvtQueue.init : EvtQueue := ⟨[], 0, none, []⟩

/-- PCIe configuration after reset: PRESUMED from PCI Express (log 5). -/
def LinkSt.init : LinkSt :=
  ⟨false, 128, 512, true, true, false, false, [0, 0, 0], [], [0, 0, 0, 0], [], List.replicate 32 ⟨0, 0, true, false⟩, List.replicate 32 ⟨none, 0⟩,
    false, 0, false, false, 0, 0⟩

/-- A stream at rest. -/
def Stream.init : Stream :=
  ⟨false, false, false, false, none, [], 0, [], false, false, [], (0, 0), none, false, 0, none⟩

/-- Nothing dropped. -/
def HeldDrops.init : HeldDrops := ⟨none, 0, 0⟩

/-- A timing generator at rest. -/
def TimingGen.init : TimingGen :=
  ⟨[], none, none, [none, none, none, none], [false, false, false, false], none, none, none, 0, none, 0, [], HeldDrops.init, [], none⟩

/-- The motion block at rest at position 0. -/
def MotionSt.init : MotionSt :=
  ⟨0, 0, 0, 0, 0, 0, [0, 0, 0], 0, 0, 0, 0, none, 0, 0, 0, none, none, 0, false, false, true, false, false, 0, [true, true, true, true]⟩

/-- The pacer idle. -/
def PacerSt.init : PacerSt :=
  ⟨.idle, 0, 0, 0, 0, 2000000, 0, false, false, none, none, 0, 0, 0, 0, 0, 0, none, false⟩

/-- Nothing fed. -/
def FeedSt.init : FeedSt := ⟨0, false, 0, [], [], 0, none, false, 0, false⟩

/-- No job. -/
def JobSt.init : JobSt := ⟨false, false, 0, false, [], 0, none, none⟩

/-- A side without frames. -/
def FrameSt.init : FrameSt := ⟨[], none, 0, [], false⟩

/-- A geometry unit without history. -/
def GuSt.init : GuSt := ⟨[], [], none, none⟩

/-- No count. -/
def PortCount.zero : PortCount := ⟨0, 0, 0, 0, 0⟩

/-- A port arbiter parked on requester 0 (DESIGN CHOICE, log 7). -/
def PortSt.init : PortSt :=
  ⟨0, false, [[], [], [], []], [0, 0, 0, 0], [0, 0, 0, 0], 0, List.replicate 4 PortCount.zero⟩

/-- Arbiters and scrubber before the first boot. -/
def QdrSt.init : QdrSt := ⟨List.replicate 16 PortSt.init, [], 0, [], 0, 0, 0, [], [], none⟩

/-- An empty shadow. -/
def Shadow.init : Shadow := ⟨[], 0, 0, 0, [], [], 0, false, 0, 0, 0, List.replicate 16 false, List.replicate 16 none, 0⟩

/-- Nothing sent. -/
def MirrorImage.init : MirrorImage := ⟨false, [], [], [], []⟩

/-- A single module. -/
def PairSt.init : PairSt :=
  ⟨0, 0, false, false, false, 0, 0, none, true, none, false, false, 0, 0, [], Shadow.init, none, 0, false, false, 0, MirrorImage.init⟩

/-- An AFE die not powered. -/
def AfeSide.init : AfeSide := ⟨none, 0, false, true, 0, none, 2500000, 0, false, false, false⟩

/-- A channel with S0 to S3 on phases 0 to 3 and S4 spare (R56). -/
def ChanSt.init : ChanSt :=
  ⟨[], none, none, none, [], HeldDrops.init, [], none, [none, none, none], none, none, none, none, [], [0, 1, 2, 3], false, 0, 0, 0,
    List.replicate 5 none, List.replicate 5 (none, none)⟩

/-- No line has met FORCE. -/
def ForceSt.init : ForceSt := ⟨none, []⟩

/-- No swap, no document. -/
def ShdSt.init : ShdSt := ⟨none, none, [], [ForceSt.init, ForceSt.init]⟩

/-- An eddy controller with nothing written. -/
def EddySt.init : EddySt := ⟨[[], [], [], []], [none, none, none, none], 0, none, none, 0, 0, none, false⟩

/-- Nothing measured. -/
def GapMeas.init : GapMeas := ⟨0, 0, 0, 0, 0, 0⟩

/-- No full calibration. -/
def FullCal.init : FullCal := ⟨0, 0, 0, 0, 0, 0, [], [], [], [], [], [], [0, 0], 0⟩

/-- Calibration before any record: factory values (R93). -/
def CalSt.init : CalSt :=
  ⟨none, [], false, 0, 0, [], List.replicate 64 GapMeas.init, none, none, 0, [0x8000, 0x8000, 0x8000, 0x8000, 0x8000, 0x8000], false,
    List.replicate 64 ⟨0, 0, 0, 0⟩, FullCal.init, none, 0, [none, none], none, 0, List.replicate 74 0, List.replicate 74 false,
    [none, none, none, none], [0x8000, 0x8000, 0x8000, 0x8000]⟩

/-- A detector whose every cell is a backing cell (R147). -/
def GeoSt.init : GeoSt := ⟨List.replicate 1920 false, 30000, 0, 0, 0, 0, none, [], [], none⟩

/-- A monitor without a window. -/
def MonSt.init : MonSt := ⟨0, none, 0, 0, 0, 0, 0, 0, none, false, 0, (0, false, 0, 0), none, false, (0, 0)⟩

/-- Nothing asked, nothing received. -/
def MetSt.init : MetSt := ⟨[], none, 0, 0, 0, none, List.replicate 8 (none, none), [], none, none⟩

/-- The section's parameters as delivered (log 9). -/
def SecParams.delivered : SecParams := ⟨49986, 33861, 120, 8002, 0, 3, false, 0, 0⟩

/-- An input that has given nothing. -/
def FeIn.init : FeIn := ⟨0, none, 0, 0, none, 0, false, 0, [0, 0, 0, 0, 0], 0, none, none, 0⟩

/-- A detector without a result. -/
def DetSt.init : DetSt := ⟨0, 0, 0, 0, none⟩

/-- The converter before its first conversion: the polynomial's CRC of the delivered map does not match (R328). -/
def FeSt.init : FeSt :=
  ⟨none, 0, 0, false, 7, false, List.replicate 8 FeIn.init, List.replicate 4 DetSt.init, [false, false, false, false], false, 25,
    [0x8000, 0x8000, 0x8000, 0x8000], [false, false, false, false], []⟩

/-- Engine flash as delivered (DESIGN CHOICE, log 2). -/
def FlashSt.init : FlashSt := ⟨1, 0, 0, 0, 0, false, [⟨[], false, true, false⟩, ⟨[], false, true, false⟩], 0, none, 0, none, none⟩

/-- The first event after a power-on reset: MODE_CHANGE from M0 to M1, cause RESET, DSEQ 1 (R249, R340). -/
def Ev.boot : Ev := ⟨0x15, 1, 0, none, 1, 0, 256, List.replicate 40 0, .none, false⟩

/-- The engine right after a power-on reset: mode M1 (SYS_MODE resets to MODE = 1), every register at its reset word but for the level of
the EVT queue (0x450C), which holds the MODE_CHANGE of the entry to M1. -/
def Engine.reset : Engine where
  regs := [(0x450C, 0x00100010#32)]
  mode := .m1
  now := 0
  jump := 0
  free := 0
  rsp := []
  trans := ⟨none, none, [], none, false, none⟩
  resetting := none
  pins := ⟨false, false, false, false, 0⟩
  flash := FlashSt.init
  link := LinkSt.init
  evt := ⟨[Ev.boot], 1, none, []⟩
  opens := []
  cmdIn := []
  rings := List.replicate 19 ⟨0, []⟩
  status := ⟨0, 0, 0, 0, false, none, List.replicate 256 0, 0, 0⟩
  streams := List.replicate 16 Stream.init
  dma := ⟨15, 0, 0, [], none, []⟩
  tg := [TimingGen.init, TimingGen.init]
  mot := MotionSt.init
  pac := PacerSt.init
  feed := FeedSt.init
  squall := none
  job := JobSt.init
  frames := [FrameSt.init, FrameSt.init]
  gus := List.replicate 8 GuSt.init
  qdr := QdrSt.init
  pair := PairSt.init
  afe := [AfeSide.init, AfeSide.init]
  chans := List.replicate 64 ChanSt.init
  shd := ShdSt.init
  eddy := [EddySt.init, EddySt.init]
  cal := CalSt.init
  geo := [GeoSt.init, GeoSt.init]
  mon := List.replicate 16 MonSt.init
  met := ⟨[], [], [[], []]⟩
  mets := MetSt.init

/-- The section as delivered, its seal closed (R291 and the example of R314 for the parameters; log 9). -/
def Section.reset : Section where
  regs := []
  stored := []
  params := SecParams.delivered
  storedParams := SecParams.delivered
  paramOk := true
  sealOpen := false
  fwVer := 0x01000000
  fwCrc := 0
  newFw := none
  audit := 0
  keyGen := 0
  mseq := 0
  store := []
  labels := []
  pos := 0
  used := none
  edgeTime := none
  speed := 0
  latches := []
  back := 0
  learnN := 0
  learnSum := 0
  doc := List.replicate 960 false
  line := none
  pieces := []
  thick := []
  sync := none
  fe := FeSt.init
  free := 0
  highAck := 0
  portAns := none

/-- The block right after a power-on reset; no command waits. -/
def State.reset : State where
  eng := Engine.reset
  stg := ⟨[], []⟩
  sec := Section.reset
  pending := []


end Sys2Proof.Machine
end

