-- ==== Sys2Proof/Machine/Ops.lean ====
section
/-!
DEFINITION. The named operations every meaning uses: register fields, counters, free values, events (R221, R248, R267),
faults (R269), requests on the link (R230, R231), completion of commands (R247, R255, R261), and the lifts that say which part
of the state a command touches.
-/

namespace Sys2Proof

/-- Width of a field. -/
def Fld.width (f : Fld) : Nat := f.hi + 1 - f.lo

/-- The bits of a field in its register. -/
def Fld.mask (f : Fld) : Word := BitVec.ofNat 32 (2 ^ f.width - 1) <<< f.lo

/-- The value of a field of a word. -/
def Fld.get (f : Fld) (w : Word) : Nat := (w.toNat >>> f.lo) % 2 ^ f.width

/-- A word with one field replaced. -/
def Fld.put (f : Fld) (w : Word) (v : Nat) : Word :=
  (w &&& ~~~ f.mask) ||| (BitVec.ofNat 32 (v % 2 ^ f.width) <<< f.lo)

namespace Machine

namespace Engine

/-! ### Registers -/

/-- The word a register holds. -/
def word (e : Engine) (off : Nat) : Word := Sparse.get RegMap.resetWord e.regs off

/-- Store a whole register word. -/
def setWord (e : Engine) (off : Nat) (w : Word) : Engine :=
  { e with regs := Sparse.set RegMap.resetWord e.regs off w }

/-- The value of a field. -/
def rd (e : Engine) (f : Fld) : Nat := f.get (e.word f.off)

/-- Whether a field is not 0. -/
def on (e : Engine) (f : Fld) : Bool := e.rd f != 0

/-- The signed value of a field. -/
def rdS (e : Engine) (f : Fld) : Int := toSigned f.width (e.rd f)

/-- Set a field by hardware. -/
def wr (e : Engine) (f : Fld) (v : Nat) : Engine := e.setWord f.off (f.put (e.word f.off) v)

/-- Set a field to the two's complement form of an integer. -/
def wrS (e : Engine) (f : Fld) (v : Int) : Engine := e.wr f (ofSigned f.width v)

/-- Add to a 32-bit counter that saturates. -/
def count (e : Engine) (f : Fld) (n : Nat) : Engine := e.wr f (satAdd (2 ^ f.width - 1) (e.rd f) n)

/-- A 48- or 64-bit value held in a LO and a HI register. -/
def rdPair (e : Engine) (lo hi : Fld) : Nat := e.rd lo + 2 ^ 32 * e.rd hi

/-- Set a value held in a LO and a HI register. -/
def wrPair (e : Engine) (lo hi : Fld) (v : Nat) : Engine := (e.wr lo (v % 2 ^ 32)).wr hi (v / 2 ^ 32)

/-- Put every register of a range back to its reset word. -/
def resetRange (e : Engine) (lo hi : Nat) : Engine :=
  { e with regs := e.regs.filter fun c => !(decide (lo ≤ c.1 ∧ c.1 < hi)) }

/-- A write was ignored under R6 or a block's own rule: FLAG latches, OFFSET keeps the first (R339). -/
def writeIgnored (e : Engine) (off : Nat) : Engine :=
  if e.on R.SYS_WRITE_IGNORED.FLAG then e
  else (e.wr R.SYS_WRITE_IGNORED.FLAG 1).wr R.SYS_WRITE_IGNORED.OFFSET off

/-- Before M3 nothing but the SYS and NVM blocks answers (R345). -/
def preBoot (e : Engine) : Bool := e.mode == .m0 || e.mode == .m1

/-- A register read outside the SYS and NVM blocks: nothing answers in M0, 0 comes before M3 (R345). -/
def reading (e : Engine) (f : Engine → Engine) : Engine :=
  if e.mode = .m0 then e else if e.mode = .m1 then { e with rsp := [0, 0, 0, 0] } else f e

/-- The ranges above the register blocks in which nothing stands (R377). -/
def noWindow (off : Nat) : Bool := decide (0x28000 ≤ off ∧ off < 0x30000 ∨ 0x40000 ≤ off ∧ off < 0x80000)

/-- Whether an offset belongs to the set-up registers a leeward in M10 does not take (R365, R367): a register with a field that software sets, or a
coefficient window, outside the SYS, UHP, MET, PAIR and NVM blocks. -/
def setUpReg (off : Nat) : Bool :=
  decide (0x2000 ≤ off ∧ off < 0x10000 ∨ 0x20000 ≤ off) &&
    ((decide (0x20000 ≤ off) && !noWindow off) || match RegMap.find off with
      | some (r, _) => r.fields.any fun f => f.access == .rw || f.access == .rwl || f.access == .wo
      | none => false)

/-- The registers that stand on the AFE die of a side: its TG and AFE blocks (R19). -/
def onDie (s off : Nat) : Bool := off / 0x1000 == 0x5 + s || off / 0x1000 == 0x8 + s

/-- An AFE_CHk_CFG register, whose ignored writes set SYS_WRITE_IGNORED in every mode (R53). -/
def chCfgReg (off : Nat) : Bool := match RegMap.find off with | some (r, _) => r.name == "AFE_CH_CFG" | none => false

/-- A write reaches a register: before M3 only the SYS and NVM blocks take writes (R345), in M1 without a trace but for those of R53; in M2 the blocks of the AFE dies (R344) and in M10 the
set-up registers (R367) ignore them and set SYS_WRITE_IGNORED; in M0 nothing answers. -/
def gate (e : Engine) (off : Nat) (f : Engine → Engine) : Engine :=
  if e.mode = .m0 then e
  else if e.mode = .m1 ∧ 0x1000 ≤ off ∧ off / 0x1000 ≠ 0x12 then (if chCfgReg off then e.writeIgnored off else e)
  else if e.mode = .m2 ∧ (onDie 0 off ∨ onDie 1 off) ∧ (RegMap.find off).isSome then e.writeIgnored off
  else if e.mode = .m10 ∧ setUpReg off then e.writeIgnored off
  else f e

/-- A fresh free value (log 1). -/
def takeFree (e : Engine) : Nat × Engine := (Config.freeValue e.free, { e with free := e.free + 1 })

/-! ### Modes -/

/-- Whether the present mode's number is one of a list. -/
def modeIn (e : Engine) (l : List Nat) : Bool := l.contains e.mode.idx

/-- Whether the mode is one of M4 to M9, in which the timing generators run. -/
def imaging (e : Engine) : Bool := e.modeIn [4, 5, 6, 7, 8, 9]

/-- Whether the AFE die of a side is present (R352). -/
def afePresent (e : Engine) (s : Nat) : Bool := e.on (if s = 0 then R.SYS_UNITS.AFE0 else R.SYS_UNITS.AFE1)

/-- A side converts in the sense of R76 and R114: CONV_EN with its die present. -/
def sideConverts (e : Engine) (s : Nat) : Bool := e.on (R.AFE_CTRL.CONV_EN s) && e.afePresent s

/-- The sides that convert. -/
def convSides (e : Engine) : List Nat := (upTo 2).filter e.sideConverts

/-- The selected protocol version. -/
def ver (e : Engine) : Nat := e.rd R.UHP_SELECT.VER

/-- Mirror-first applies: a windward in PAIRED (R366). -/
def mirrorFirst (e : Engine) : Bool := e.pair.role == 1 && e.pair.st == 3

/-! ### Queue levels -/

/-- A queue's level reaches `n` words: its high-water mark follows (R223). -/
def level (e : Engine) (q n : Nat) : Engine :=
  let e1 := e.wr (R.QUE_LEVEL.LEVEL q) n
  if e1.rd (R.QUE_LEVEL.HWM q) < n then e1.wr (R.QUE_LEVEL.HWM q) n else e1

/-- Words have passed through a queue that its consumer empties at once: at most `n` stood in it together (R223). -/
def passes (e : Engine) (q n : Nat) : Engine := if e.rd (R.QUE_LEVEL.HWM q) < n then e.wr (R.QUE_LEVEL.HWM q) n else e

/-- 64-byte words that bytes take in DMA_OUT or DMA_IN (R216). -/
def beats (n : Nat) : Nat := (n + 63) / 64

/-- The level of CMD_IN: the words of the entries fetched and not yet consumed (R216). -/
def showCmdIn (e : Engine) : Engine := e.level 79 ((if e.ver = 1 then 8 else 16) * e.cmdIn.length)

/-- The packets that a queue of `cap` words keeps when its latest has been written: words it overwrites lose their packets, the oldest first (R212, R214); and
how many were lost. -/
def trimWords {α : Type} (words : α → Nat) (cap : Nat) : List α → List α × Nat
  | [] => ([], 0)
  | p :: t =>
    if cap < sumNat ((p :: t).map words) then
      let r := trimWords words cap t
      (r.1, r.2 + 1)
    else (p :: t, 0)

/-! ### Histories (R255) -/

/-- The bits of UHP_CMD_OPEN (R235): commands consumed whose CMD_DONE is neither written nor lost. -/
def cmdOpenBits (e : Engine) : Nat := e.opens.foldl (fun b c => b ||| 2 ^ (c.hseq % 32)) 0

/-- UHP_CMD_OPEN follows the list of open commands. -/
def syncOpen (e : Engine) : Engine := e.wr R.UHP_CMD_OPEN.V e.cmdOpenBits

/-- An entry of the command history. Under UHP-1 the HSEQ and DSEQ fields read 0 (R257). -/
def cmdHistory (e : Engine) (hseq dseq status code : Nat) : Engine :=
  let k := hseq % 32
  let h := if e.ver = 1 then 0 else hseq
  let d := if e.ver = 1 then 0 else dseq
  (((e.wr (R.UHP_CMDH.V k 0) h).wr (R.UHP_CMDH.V k 1) d).wr (R.UHP_CMDH.V k 2) (status + 256 * code)).wr (R.UHP_CMDH.V k 3) 0

/-- An entry of the non-OK history. -/
def nokHistory (e : Engine) (hseq dseq status ring bytes : Nat) : Engine :=
  let n := e.rd R.UHP_NOK_CNT.V
  let k := n % 32
  let h := if e.ver = 1 then 0 else hseq
  let d := if e.ver = 1 then 0 else dseq
  ((((e.wr (R.UHP_NOKH.V k 0) h).wr (R.UHP_NOKH.V k 1) d).wr (R.UHP_NOKH.V k 2) (status + 256 * ring)).wr
    (R.UHP_NOKH.V k 3) bytes).wr R.UHP_NOK_CNT.V (n + 1)

/-- A command whose CMD_DONE is written or lost is open no more: the first of that HSEQ that only waits for this. -/
def dropBuilt (h : Nat) : List OpenCmd → List OpenCmd
  | [] => []
  | c :: t => if c.hseq == h && c.wait == Wait.built then t else c :: dropBuilt h t

/-- The books take in an event that is written or counted lost (R245, R252, R255). -/
def settle (e : Engine) (ev : Ev) : Engine :=
  let e1 := e.wr R.UHP_LAST_DSEQ.V ev.dseq
  match ev.book with
  | .none => e1
  | .cmd h st code =>
    (({ e1 with opens := dropBuilt h e1.opens } : Engine).syncOpen).cmdHistory h ev.dseq st code
  | .buf ring next final nok =>
    let e2 := if final && decide (ring < 19) then e1.wr (R.UHP_R_DONE.V ring) next else e1
    match nok with
    | some (h, st, n) => e2.nokHistory h ev.dseq st ring n
    | none => e2

/-! ### What a windward sends (R365) -/

/-- A register of the UHP block that a leeward's shadow holds: not the link's own state, nor a statistics counter. -/
def hostMirrored (off : Nat) : Bool :=
  decide (0x1000 ≤ off ∧ off < 0x2000) && match RegMap.find off with
    | some (r, _) => r.name != "UHP_LINK" && !(r.fields.any fun f => f.access == .rc)
    | none => false

/-- The words at offsets of a kind that differ between two sets of registers, as the first holds them. -/
def wordDiff (p : Nat → Bool) (new old : Sparse Word) : List (Nat × Word) :=
  let offs := new.map (fun c => c.1) ++ (old.filter fun c => !(new.any fun d => d.1 == c.1)).map fun c => c.1
  (offs.filter fun o => p o && Sparse.get RegMap.resetWord new o != Sparse.get RegMap.resetWord old o).map fun o =>
    (o, Sparse.get RegMap.resetWord new o)

/-- The shadow's registers of a list of words. -/
def hostItems (l : List (Nat × Word)) : List MirrorItem := l.map fun w => .host (BitVec.ofNat 20 w.1) w.2

/-- The oldest cached descriptor of a ring leaves a shadow. -/
def dropCached (r : Nat) : List (Nat × Buf) → List (Nat × Buf)
  | [] => []
  | x :: t => if x.1 = r then t else x :: dropCached r t

/-- LAST_DSEQ, SEQ_HEAD and HEARTBEAT as an item. -/
def sequenceItem (e : Engine) (d : Nat) : MirrorItem := .sequence d e.status.seq e.status.heartbeat

/-- What the items sent last become with a new one of LAST_DSEQ. -/
def putSequence (l : List MirrorItem) (i : MirrorItem) : List MirrorItem :=
  (l.filter fun x => match x with | .sequence .. => false | _ => true) ++ [i]

/-- The EVT ring once an event is written, where it runs: DEV_IDX past the entry, SEQ its DSEQ (R235, R240). -/
def ringPast (e : Engine) (dseq : Nat) : Engine :=
  if e.rd (R.UHP_R_STATE.STATE 1) = 1 then
    let e1 := e.wr (R.UHP_R_STATE.DEV_IDX 1) ((e.rd (R.UHP_R_STATE.DEV_IDX 1) + 1) % 2 ^ e.rd (R.UHP_R_CTRL.LOG2 1))
    if e.ver = 1 then e1 else e1.wr (R.UHP_R_SEQ.V 1) dseq
  else e

/-- The delta of an event (R365, R366): the books as they will stand once it is written, and what it completes; and the image of the leeward's state after it. -/
def eventItems (e : Engine) (ev : Ev) : List MirrorItem × MirrorImage :=
  let im := e.pair.image
  let after := (({ e with regs := im.regs, opens := im.opens } : Engine).settle ev).ringPast ev.dseq
  let seq := e.sequenceItem ev.dseq
  let ended := match ev.book with
    | .cmd h _ _ => [MirrorItem.done h]
    | .buf ring _ true _ => if h : ring < 19 then [MirrorItem.finished ⟨ring, h⟩] else []
    | _ => []
  let cached := match ev.book with | .buf ring _ true _ => dropCached ring im.cached | _ => im.cached
  (seq :: hostItems (wordDiff hostMirrored after.regs im.regs) ++ ended,
   { im with regs := after.regs, opens := after.opens, cached := cached, items := putSequence im.items seq })

/-! ### Events -/

/-- The oldest event of a full EVT queue is overwritten: it counts as lost (R212, R221). Lost before the leeward has acknowledged it, the books take it in only
then (R246). -/
def loseOldest (e : Engine) : Engine :=
  match e.evt.queue with
  | [] => e
  | o :: rest =>
    let l := match e.evt.lost with
      | none => (1, o.dseq, o.dseq)
      | some (n, f, _) => (n + 1, f, o.dseq)
    let e1 := { e with evt := { e.evt with queue := rest, lost := some l } }
    let e2 := (e1.count R.UHP_LOST_EVT.V 1).count (R.QUE_LOST.V 64) 1
    if o.held then { e2 with evt := { e2.evt with unacked := e2.evt.unacked ++ [o] } } else e2.settle o

/-- The pair block of a windward that sends a frame: a delta waits for the leeward (R362, R366). -/
def sendFrame (p : PairSt) (now : Nat) (what : Option DeltaFor) (body : PairBody) : PairSt :=
  { p with tx := p.tx ++ [TxFrame.mk p.txNext (some now) now what body], txNext := p.txNext + 1 }

/-- The delta of an event goes to the leeward. -/
def sendEvent (e : Engine) (ev : Ev) : PairSt :=
  sendFrame { e.pair with image := (e.eventItems ev).2 } e.now (some (.event ev.dseq)) (.delta (e.eventItems ev).1)

/-- Commit an event into EVT: it takes the next DSEQ; a full queue loses its oldest (R221, R248). A windward in PAIRED sends the
delta and holds the event until it is acknowledged (R366). -/
def commitEv (e : Engine) (code subj status arg : Nat) (hs : Option Nat) (payload : List LayField) (bk : Booking) : Engine :=
  let d := (e.evt.dseq + 1) % 2 ^ 32
  let ev : Ev := ⟨code, subj, status, hs, d, e.now, arg, (layBytes 64 payload).drop 24, bk, e.mirrorFirst⟩
  let e1 := if e.evt.queue.length < 256 then e else e.loseOldest
  let e2 := { e1 with
    evt := { e1.evt with queue := e1.evt.queue ++ [ev], dseq := d }
    pair := if e1.mirrorFirst then e1.sendEvent ev else e1.pair }
  e2.level 64 (16 * e2.evt.queue.length)

/-- Build an event with its booking (R221): after a loss, the first commit that finds room for two packets commits QUEUE_LOST first
(DEDUCED from the example's DSEQ, log 23). While a reset is in progress no event is built (R346), nor after the power-fail sequence (R354). -/
def emitBk (e : Engine) (code subj status arg : Nat) (hs : Option Nat) (payload : List LayField) (bk : Booking) : Engine :=
  if e.resetting.isSome || e.pins.failed then e
  else
    let e1 := match e.evt.lost with
      | some (n, f, l) =>
        if e.evt.queue.length ≤ 254 then
          ({ e with evt := { e.evt with lost := none } }).commitEv 0x0E 64 0 0 none [(24, 4, n), (28, 4, f), (32, 4, l)] .none
        else e
      | none => e
    e1.commitEv code subj status arg hs payload bk

/-- Build an event that no book takes in. -/
def emit (e : Engine) (code subj status arg : Nat) (hs : Option Nat) (payload : List LayField) : Engine :=
  e.emitBk code subj status arg hs payload .none

/-- Raise FAULT (R269): class, unit, detail, second detail, payload. -/
def fault (e : Engine) (cls unit detail detail2 : Nat) (payload : List LayField) : Engine :=
  e.emit 0x0F cls 0 (unit + 256 * detail + 65536 * detail2) none payload

/-! ### The link -/

/-- The engine may issue requests (R231, R232): Bus Master Enable set, link up, no fatal error, no reset in progress, the engine not in M0 (R338, R354). -/
def canIssue (e : Engine) : Bool :=
  e.link.bme && e.on R.UHP_STATUS.LINK_UP && !e.link.stopped && e.resetting.isNone && !(e.mode == .m0) && !e.pins.failed

/-- The bit of an error in the AER status word of its class, Correctable (true) or Uncorrectable: PRESUMED from PCI Express (log 141). -/
def aerBit : AerKind → Bool × Nat
  | .correctable k => (true, ([0, 6, 7, 8, 12] : List Nat).getD k.val 0)
  | .poisonedBar02 | .poisonedBar4 => (false, 12)
  | .completion .poisoned => (false, 12)
  | .completion .timeout => (false, 14)
  | .completion .ca => (false, 15)
  | .completion .ur => (false, 20)
  | .unexpectedCompletion => (false, 16)
  | .fatal k => (false, ([18, 17, 13, 4] : List Nat).getD k.val 0)
  | .ecrc => (false, 19)

/-- The errors R232 calls advisory. -/
def aerAdvisory : AerKind → Bool
  | .poisonedBar02 | .poisonedBar4 | .completion _ | .unexpectedCompletion => true
  | _ => false

/-- An error is reported through AER (R232): its status bit is set, for an advisory one also Advisory Non-Fatal Error (bit 13); the header log takes the 4 DW of
the latest one that brings a header (log 141). -/
def noteAer (e : Engine) (k : AerKind) (header : Option (List Word)) : Engine :=
  let b := aerBit k
  { e with link := { e.link with
    aer := e.link.aer ++ [k]
    header := header.getD e.link.header
    aerCor := setBit (if b.1 then setBit e.link.aerCor b.2 true else e.link.aerCor) 13
      (bitOf e.link.aerCor 13 || aerAdvisory k)
    aerUnc := if b.1 then e.link.aerUnc else setBit e.link.aerUnc b.2 true } }

/-- Issue a request on the link. -/
def issue (e : Engine) (t : Tlp) : Engine := { e with link := { e.link with out := e.link.out ++ [t] } }

/-- Issue a write of bytes. -/
def issueWrite (e : Engine) (addr : Nat) (data : List Byte) (ro : Bool) (what : ReqFor) : Engine :=
  e.issue ⟨true, addr, data.length, data, ro, what⟩

/-- Issue a read of a range. -/
def issueRead (e : Engine) (addr len : Nat) (what : ReqFor) : Engine := e.issue ⟨false, addr, len, [], false, what⟩

/-! ### Rings -/

/-- Entries of a ring (R235). -/
def ringSize (e : Engine) (r : Nat) : Nat := 2 ^ e.rd (R.UHP_R_CTRL.LOG2 r)

/-- UHP_Rr_STATE.STATE. -/
def ringState (e : Engine) (r : Nat) : Nat := e.rd (R.UHP_R_STATE.STATE r)

/-- Put a ring into a state. -/
def setRing (e : Engine) (r st : Nat) : Engine := e.wr (R.UHP_R_STATE.STATE r) st

/-- Fetching of a ring begins again at an index; what outstanding fetches bring is discarded. -/
def refetch (i : Nat) (x : RingSt) : RingSt := ⟨i, x.fetches.map fun (f : Nat × Nat × Bool) => (f.1, f.2.1, false)⟩

/-- DEV_IDX of a ring. -/
def devIdx (e : Engine) (r : Nat) : Nat := e.rd (R.UHP_R_STATE.DEV_IDX r)

/-- SEQ of a ring. -/
def ringSeq (e : Engine) (r : Nat) : Nat := e.rd (R.UHP_R_SEQ.V r)

/-- Commands taken of which SEQ and DEV_IDX do not tell yet: in PAIRED they count as consumed once the leeward has acknowledged them (R366). -/
def uncounted (e : Engine) : Nat :=
  (e.pair.tx.filter fun t => match t.delta with | some (.command _) => true | _ => false).length

/-- Commands that the leeward has acknowledged count as consumed. -/
def countCommands (e : Engine) (n : Nat) : Engine :=
  if n = 0 then e
  else (e.wr (R.UHP_R_SEQ.V 0) ((e.rd (R.UHP_R_SEQ.V 0) + n) % 2 ^ 32)).wr (R.UHP_R_STATE.DEV_IDX 0)
    ((e.rd (R.UHP_R_STATE.DEV_IDX 0) + n) % 2 ^ e.rd (R.UHP_R_CTRL.LOG2 0))

/-- The index of the first entry of a ring not yet taken: DEV_IDX, but for commands that SEQ and DEV_IDX do not count yet. -/
def takenIdx (e : Engine) (r : Nat) : Nat :=
  if r = 0 ∧ e.uncounted ≠ 0 then (e.devIdx 0 + e.uncounted) % e.ringSize 0 else e.devIdx r

/-- HSEQ of the last entry of a ring taken. -/
def takenSeq (e : Engine) (r : Nat) : Nat :=
  if r = 0 ∧ e.uncounted ≠ 0 then (e.ringSeq 0 + e.uncounted) % 2 ^ 32 else e.ringSeq r

/-- A ring leaves RUN (R242): what its outstanding fetches bring is discarded, and fetching begins again at DEV_IDX; received commands not
yet consumed are discarded, but for FETCH_ERR, in which they are still consumed. -/
def leaveRun (e : Engine) (r st : Nat) : Engine :=
  let e1 := e.setRing r st
  let dev := e.takenIdx r
  let e2 : Engine := { e1 with rings := modAt e1.rings r (refetch dev) }
  if r = 0 ∧ st ≠ 3 then ({ e2 with cmdIn := [] } : Engine).showCmdIn else e2

/-- Set DEV_IDX of a ring. -/
def setDevIdx (e : Engine) (r n : Nat) : Engine := e.wr (R.UHP_R_STATE.DEV_IDX r) n

/-- Host address of a ring's base. -/
def ringBase (e : Engine) (r : Nat) : Nat := 64 * e.rd (R.UHP_R_BASE_LO.ADDR r) + 2 ^ 32 * e.rd (R.UHP_R_BASE_HI.V r)

/-- Bytes of an entry of a ring (R236). -/
def entrySize (e : Engine) (r : Nat) : Nat := if r = 2 then 128 else if e.ver = 1 then 32 else 64

/-- The stream of a number; at rest where the number names none. -/
def stream (e : Engine) (n : Nat) : Stream := e.streams.getD n Stream.init

/-- Change a stream. -/
def modStream (e : Engine) (n : Nat) (f : Stream → Stream) : Engine := { e with streams := modAt e.streams n f }

/-- Descriptors of a stream ring cached and without a final completion: DEV_IDX less DONE_IDX (R254). -/
def ringCached (e : Engine) (r : Nat) : Nat :=
  if e.ringState r = 0 then 0 else ahead (e.ringSize r) (e.rd (R.UHP_R_DONE.V r)) (e.devIdx r)

/-- Descriptors cached over all stream rings (R254). -/
def cached (e : Engine) : Nat := sumNat ((upTo 16).map fun n => e.ringCached (3 + n))

/-! ### Completion of commands -/

/-- CMD_DONE (R247, R268): HSEQ echoed, TAG, command code, RESULT. -/
def cmdDone (e : Engine) (hseq tag code status : Nat) (result : List LayField) : Engine :=
  e.emitBk 0x01 0 status 0 (some hseq) ([(24, 8, tag), (32, 1, code)] ++ result) (.cmd hseq status code)

/-- A command is accepted and stays open until what it waits for happens. -/
def openCmd (e : Engine) (h : CmdHdr) (code : Nat) (w : Wait) : Engine :=
  ({ e with opens := e.opens ++ [OpenCmd.mk h.hseq.toNat h.tag.toNat code w] }).syncOpen

/-- The wait of a RESUME. -/
def isResumedWait : Wait → Bool
  | .resumed _ => true
  | _ => false

/-- A command completes as it is consumed. -/
def complete (e : Engine) (h : CmdHdr) (code status : Nat) (result : List LayField) : Engine :=
  (e.openCmd h code .built).cmdDone h.hseq.toNat h.tag.toNat code status result

/-- An open command's CMD_DONE is built. -/
def markBuilt (c : OpenCmd) : List OpenCmd → List OpenCmd
  | [] => []
  | o :: t => if o = c then { o with wait := Wait.built } :: t else o :: markBuilt c t

/-- Complete an open command: it stays counted as open until its CMD_DONE is written or lost (R245). -/
def finish (e : Engine) (c : OpenCmd) (status : Nat) (result : List LayField) : Engine :=
  let e1 : Engine := { e with opens := markBuilt c e.opens }
  e1.cmdDone c.hseq c.tag c.code status result

/-- Complete every open command whose wait satisfies a test, oldest first. -/
def finishAll (e : Engine) (p : Wait → Bool) (status : Nat) (result : List LayField) : Engine :=
  (e.opens.filter fun c => p c.wait).foldl (fun s c => s.finish c status result) e

/-- The HSEQ of the oldest open command with a wait, echoed by the event it causes (R263). -/
def waitingHseq (e : Engine) (p : Wait → Bool) : Option Nat :=
  (e.opens.find? fun c => p c.wait).map fun c => c.hseq

end Engine

/-! ### Completion status values (R397) -/

/-- R397. -/
def stOk : Nat := 0
/-- R397. -/
def stPartial : Nat := 1
/-- R397. -/
def stAborted : Nat := 2
/-- R397. -/
def stRejectedParam : Nat := 3
/-- R397. -/
def stRejectedState : Nat := 4
/-- R397. -/
def stVersion : Nat := 5
/-- R397. -/
def stUnconfirmed : Nat := 6
/-- R397. -/
def stHostReadError : Nat := 7
/-- R397. -/
def stCompareMismatch : Nat := 8

/-! ### Which part of the state a command touches -/

/-- A command that touches the engine alone. -/
def State.onEng (s : State) (f : Engine → Engine) : State := { s with eng := f s.eng }

/-- A command that touches the engine and the staging memory. -/
def State.onMem (s : State) (f : Engine → Staging → Engine × Staging) : State :=
  { s with eng := (f s.eng s.stg).1, stg := (f s.eng s.stg).2 }

/-- The outcome of a command that completes. -/
abbrev Answer := Host.Outcome State Fault Refusal

end Machine

end Sys2Proof
end

