-- ==== Sys2Proof/Machine/Control.lean ====
section
/-!
DEFINITION. What several families share: giving up a gap calibration (R83), ending a fade (R111), freeing the lines of a
stream (R278), the change of mode with its event (R340), the request of a Squall (R187) and of a Lull (R176, R177).
-/

namespace Sys2Proof.Machine.Engine

/-! ### Timing of a side (R30) -/

/-- Pixel clock of a side in kHz; side 1 takes side 0's under FOLLOW (R36). -/
def vclk (e : Engine) (s : Nat) : Nat :=
  if s = 1 ∧ e.on (R.TG_CTRL.FOLLOW 1) then e.rd (R.TG_VCLK.FREQ_KHZ 0) else e.rd (R.TG_VCLK.FREQ_KHZ s)

/-- Pixel periods of a readout: OVH, DUMMY, 16 optical-black, ACTIVE. -/
def periods (e : Engine) (s : Nat) : Nat :=
  e.rd (R.TG_LINE_FMT.OVH s) + e.rd (R.TG_LINE_FMT.DUMMY s) + 16 + e.rd (R.TG_LINE_FMT.ACTIVE s)

/-- The readout period L of a side in ns, exactly. -/
def lineNs (e : Engine) (s : Nat) : Rat := (e.periods s * 1000000 : Nat) / (max 1 (e.vclk s) : Nat)

/-- An exposure in 1/16 pixel periods, in ns. -/
def expNs (e : Engine) (s exp : Nat) : Rat := (exp * 1000000 : Nat) / (16 * max 1 (e.vclk s) : Nat)

/-- The encoder that LT_CTRL.SRC names. -/
def trigEnc (e : Engine) : Nat := e.rd R.LT_CTRL.SRC

/-- LT_PITCH in force. -/
def pitch (e : Engine) : Nat := max 256 (e.rd R.LT_PITCH.PITCH)

/-- The line pitch p in mm (R169). -/
def pitchMm (e : Engine) : Rat := (e.pitch * e.rd (R.EN_NM.V e.trigEnc) : Nat) / (256 * 1000000 : Nat)

/-- The channels of a side that convert: enabled in the channel map (R50). -/
def enabledCh (e : Engine) (s : Nat) : List Nat := (upTo 32).filter fun k => e.on (R.TG_CHMAP.EN s k)

/-- Rows in use on a side (R114). -/
def rowsInUse (e : Engine) (s : Nat) : List Nat :=
  if e.sideConverts s then
    (upTo 4).filter fun r => (e.enabledCh s).any fun k => e.rd (R.TG_CHMAP.ROW s k) == r
  else []

/-- This module drives what only the windward of a pair may drive (R51, R357, R359): a single module, or the one that asserts PAIR_OWN. -/
def mayDrive (e : Engine) : Bool := e.pair.role == 0 || e.pair.drive

/-- Rows in use in the open job. -/
def usedRows (e : Engine) (s : Nat) : List Nat := (upTo 4).filter fun r => e.on (R.EDY_OFS.USED s r)

/-! ### Calibration in a gap -/

/-- A running gap calibration is abandoned: no measured value is used, the request stays pending (R83). -/
def gapAbandon (e : Engine) : Engine :=
  match e.cal.gapStart with
  | some g =>
    let e1 := { e with cal := { e.cal with
      gapStart := none, result := none, meas := List.replicate 64 GapMeas.init,
      gapSpans := e.cal.gapSpans.map fun (x : Nat × Nat) => if x.1 = g then (g, min (g + 51) (e.mot.kept - 1)) else x } }
    (e1.wr R.CAL_STATUS.RUNNING 0).count R.CAL_ABANDON_CNT.V 1
  | none => e

/-- Pending CALIBRATE GAP commands complete ABORTED (R83). -/
def abortCalGap (e : Engine) : Engine := e.finishAll (fun (w : Wait) => w == .calGap) stAborted []

/-! ### Bank fades -/

/-- The channels a mask names. -/
def maskChans (mask : Nat) : List Nat := (upTo 64).filter fun c => bitOf mask c

/-- ACTIVE of the named channels changes to their other bank (R109). -/
def swapActive (e : Engine) (mask : Nat) : Engine :=
  (maskChans mask).foldl (fun s c =>
    (s.wr (R.SHD_CH_BANK.ACTIVE c) (1 - s.rd (R.SHD_CH_BANK.ACTIVE c))).wr (R.SHD_CH_BANK.FADING c) 0) e

/-- BANK_SWAPPED (R268): mask, n0, N; it echoes the command's HSEQ (R263). -/
def bankSwapped (e : Engine) (w : SwapSt) (n0 : Nat) : Engine :=
  e.emit 0x0C 0 0 0 (some w.hseq) [(24, 8, w.mask), (32, 6, n0), (38, 2, w.len)]

/-- The command of a swap completes; RESULT 40 to 45 holds n0. -/
def swapDone (e : Engine) (w : SwapSt) (status : Nat) : Engine :=
  match e.opens.find? fun c => c.hseq == w.hseq && c.wait != Wait.built with
  | some c => e.finish c status (if status = stOk then [(40, 6, w.n0)] else [])
  | none => e

/-- A fade in progress ends at once with its new bank in force, and a queued swap is given up (R111). A swap accepted counts as a fade in progress before its n0 is
reached too (DESIGN CHOICE, log 152): BANK_SWAPPED then names the n0 not reached. -/
def dropFades (e : Engine) : Engine :=
  match e.shd.fade with
  | none => e
  | some w =>
    let e1 := if w.begun then e else e.bankSwapped w w.n0
    let e2 := ({ (e1.swapActive w.mask) with shd := { e1.shd with fade := none, queued := none } } : Engine).wr R.SHD_FADE.word 0
    match e.shd.queued with
    | some q => (maskChans q.mask).foldl (fun s c => s.wr (R.SHD_CH_BANK.QUEUED c) 0) e2
    | none => e2

/-- The commands of a fade that has ended and of the swap queued behind it complete: OK and ABORTED (R111). `d` is what stood before. -/
def fadesDone (e : Engine) (d : ShdSt) : Engine :=
  match d.fade with
  | none => e
  | some w =>
    let e1 := e.swapDone w stOk
    match d.queued with
    | some q => e1.swapDone q stAborted
    | none => e1

/-- A fade in progress completes at once, with OK, and a queued swap completes ABORTED (R111). -/
def endFades (e : Engine) : Engine := e.dropFades.fadesDone e.shd

/-! ### Streams -/

/-- Bytes of lines. -/
def linesBytes (l : List StageLine) : Nat := sumNat (l.map fun x => x.bytes.length)

/-- STAGE bytes a stream holds filled and awaiting DMA (R278). -/
def filledOf (s : Stream) : Nat := linesBytes s.stage

/-- STAGE bytes a stream holds in flight and awaiting confirmation (R278); those of a buffer that only waits to report ABORTED are free. -/
def flightOf (s : Stream) : Nat :=
  sumNat (s.bufs.map fun b => match b.confirm with | .aborted _ => 0 | _ => linesBytes b.lines + linesBytes b.cut.toList)

/-- STAGE bytes filled over all streams. -/
def bookFilled (e : Engine) : Nat := sumNat (e.streams.map filledOf)

/-- STAGE bytes in flight over all streams. -/
def bookFlight (e : Engine) : Nat := sumNat (e.streams.map flightOf)

/-- STAGE bytes free: QDR_STAGE_SIZE less the rest (R278). -/
def bookFree (e : Engine) : Nat := e.rd R.QDR_STAGE_SIZE.V - (e.bookFilled + e.bookFlight)

/-! ### Motion -/

/-- The feed gate closes. -/
def closeGate (e : Engine) : Engine := { e with feed := { e.feed with gate := false } }

/-- Commanded speed of AX0 in µm/s. -/
def vMicron (e : Engine) : Int := e.mot.v.tdiv 10000

/-- AX0 moves. -/
def moving (e : Engine) : Bool := e.mot.v != 0

/-- AX0 moves forward. -/
def movingFwd (e : Engine) : Bool := 0 < e.mot.v

/-- STOPMODE GAP is selected. -/
def gapMode (e : Engine) : Bool := e.on R.PAC_CTRL.STOPMODE

/-- The pacer enters a state. -/
def setPac (e : Engine) (st : PacState) : Engine := { e with pac := { e.pac with st := st } }

/-- A Lull cause arises (R176, R177): in LULL mode AX0 begins to stop, the gate closes, a gap calibration is given up; a cause that
arises during a Lull joins it, and one during the restart stops it (R182). `bit` is 1 STAGING, 2 COMMAND, 4 INPUT, 8 TAKEOVER. -/
def lullBegin (e : Engine) (bit : Nat) : Engine :=
  if e.squall.isSome || e.gapMode then e
  else
    let e1 := { e with pac := { e.pac with causes := e.pac.causes ||| bit } }
    match e.pac.st with
    | .run | .stopping | .gapStop =>
      let e2 := { e1 with pac := { e1.pac with st := .decel, lullSpeed := e.vMicron.toNat, exitSince := none,
                                               stopping := e.pac.stopping || e.pac.st == PacState.stopping } }
      (e2.closeGate).gapAbandon
    | .back => { e1 with pac := { e1.pac with st := .decel, exitSince := none } }
    | .runup =>
      if e.mode = .m8 then { e1 with pac := { e1.pac with st := .decel, exitSince := none } }
      else
        let e2 := { e1 with pac := { e1.pac with st := .decel, lullSpeed := e.vMicron.toNat, exitSince := none, seamAt := none } }
        (e2.closeGate).gapAbandon
    | .decel | .hold => e1
    | _ => e

/-! ### Modes -/

/-- What ends on a side when it stops converting: a tap-line in conversion is marked bad (R219). -/
def stopConversion (e : Engine) (s : Nat) : Engine :=
  let e1 := { (e.wr (R.AFE_STATUS.CONV_RUN s) 0) with
    chans := e.chans.zipIdx.map fun (h, c) => if c / 32 = s then { h with owed := [] } else h }
  match (e.tg.getD s TimingGen.init).run with
  | some run =>
    if run.converting then
      let e2 := (e.enabledCh s).foldl (fun x k => x.count (R.QUE_BAD.V (32 * s + k)) 1) e1
      ({ e2 with tg := modAt e2.tg s fun g => { g with run := none, substs := [] } } : Engine)
    else { e1 with tg := modAt e1.tg s fun g => { g with run := none, substs := [] } }
  | none => e1

/-- A side stops converting at the next line boundary (R340): at once, where no line of it is being converted. -/
def stopAtBoundary (e : Engine) (s : Nat) : Engine :=
  match (e.tg.getD s TimingGen.init).run with
  | some run => if run.converting then e else e.stopConversion s
  | none => e.stopConversion s

/-- The mode changes (R340): MODE_CHANGE carries the old mode and the cause code. A mode change abandons a gap calibration (R83);
entry to M3 or M5 ends fades (R111), and the trackers meet the indices of M5 anew, without the document windows of a job (log 132); entry to M3 aborts a pending CALIBRATE GAP; outside M4 to M9 no side converts (R338), but a line
being converted at an entry to M3, and from there to M11, is converted to its end (R340). M3 at the end of a boot starts the schedule of R76. Commands complete after MODE_CHANGE (R270). -/
def changeMode (e : Engine) (m : Mode) (cause : Nat) (hs : Option Nat) : Engine :=
  if m = e.mode then e
  else
    let e1 := e.gapAbandon
    let fades := m = .m3 ∨ m = .m5
    let e3 := if fades then e1.dropFades else e1
    let e4 := if m = .m3 ∨ m = .m11 then (e3.stopAtBoundary 0).stopAtBoundary 1
      else if m.idx < 4 ∨ 9 < m.idx then (e3.stopConversion 0).stopConversion 1 else e3
    let e5 := if m = .m5 then
        { e4 with chans := e4.chans.map fun (h : ChanSt) => { h with means := [] }, shd := { e4.shd with windows := [], force := ShdSt.init.force } }
      else e4
    let boot := if e.mode = .m1 ∧ m = .m3 then e.now else e5.cal.bootTime
    let e6 := ({ e5 with mode := m, cal := { e5.cal with bootTime := boot }, job := { e4.job with dark := if m = Mode.m3 then 0 else e5.job.dark } } : Engine).emit
      0x15 m.idx 0 (e.mode.idx + 256 * cause) hs []
    let e7 := if fades then e6.fadesDone e1.shd else e6
    if m = .m3 then e7.abortCalGap else e7

/-- A windward's MODE command in progress and those waiting complete ABORTED (R342). -/
def abortModes (e : Engine) : Engine :=
  let e1 : Engine := { e with trans := ⟨none, none, [], none, false, none⟩ }
  e1.finishAll (fun (w : Wait) => match w with | .mode _ => true | _ => false) stAborted []

/-- A Squall is requested (R187): cause as the SQUALL event carries it, DSEQ of the FAULT or 0. It overrides a transition in progress (R342). Outside M6 to M8 AX0
is at rest and no transition leads to M9, so nothing more follows. A Squall already in progress keeps its first cause. -/
def requestSquall (e : Engine) (cause faultDseq : Nat) : Engine :=
  if e.squall.isSome || e.resetting.isSome then e
  else if !e.modeIn [6, 7, 8] then e.abortModes
  else
    let e1 := e.gapAbandon
    let e2 := { e1 with
      squall := some ⟨cause, e.vMicron, faultDseq, [], false, 0, false⟩
      pac := { e1.pac with st := .squall, causes := 0, holdLull := false, holdGap := false, exitSince := none }
      feed := { e1.feed with gate := false, pend := 0, patterns := [], withheld := false } }
    let e3 := (e2.count R.PAC_SQUALL_CNT.V 1).abortModes
    let e4 := e3.finishAll (fun (w : Wait) => match w with | .holdRest _ => true | .resumed _ => true | _ => false) stAborted []
    e4.abortCalGap

/-- FAULT, then the Squall it causes (R270). -/
def faultSquall (e : Engine) (cls unit detail detail2 : Nat) (payload : List LayField) (cause : Nat) : Engine :=
  let e1 := e.fault cls unit detail detail2 payload
  e1.requestSquall cause e1.evt.dseq

/-- A queue of the reserved class (R216). -/
def reservedQueue (q : Nat) : Bool := q == 67 || decide (77 ≤ q ∧ q ≤ 103)

/-- QUE_q_LOST of a queue has counted outside the model's own traffic: a reserved queue sets RES_LOST, raises FAULT and asks for a Squall (R215); a lost notice
raises FAULT (R216). -/
def queueLost (e : Engine) (q : Nat) : Engine :=
  let n := e.rd (R.QUE_LOST.V q)
  if reservedQueue q then
    let e1 := if e.on R.QUE_STATUS.RES_LOST then e else (e.wr R.QUE_STATUS.FIRST q).wr R.QUE_STATUS.RES_LOST 1
    e1.faultSquall 0x0F q 1 0 [(24, 4, n)] 6
  else if 71 ≤ q ∧ q ≤ 76 then e.fault 0x0F q 2 0 [(24, 4, n)]
  else e

end Sys2Proof.Machine.Engine
end

