-- ==== Sys2Proof/Machine/Rates.lean ====
section
/-!
DEFINITION. What the stream set asks of staging and of the line rate: output width (R128), line length (R143), bytes per mm (R170),
the line rate limit (R24, R132), the staging bandwidth check (R194), free bytes (R171).
-/

namespace Sys2Proof.Machine.Engine

/-- The binning factor of a unit. -/
def binOf (e : Engine) (g : Nat) : Nat := e.rd (R.GU_CTRL.BIN g) + 1

/-- OUT_W of a unit as its registers stand (R128). -/
def outW (e : Engine) (g : Nat) : Nat :=
  let n := e.rd (R.GU_XWIN.W g) / e.binOf g
  n * 65536 / max 1 (e.rd (R.GU_XSTEP.STEP g))

/-- The unit of a stream. -/
def guOf (e : Engine) (n : Nat) : Nat := e.rd (R.STR_CFG.GU n)

/-- The side of a stream: that of its unit. -/
def sideOf (e : Engine) (n : Nat) : Nat := e.rd (R.GU_CTRL.SIDE (e.guOf n))

/-- A side's AUX is in ALT mode. -/
def altMode (e : Engine) (s : Nat) : Bool := e.rd (R.TG_AUX_MODE.MODE s) == 3

/-- Components per pixel of a plane set (R137). -/
def comps (pset : Nat) : Nat := match pset with | 1 => 3 | 3 => 4 | _ => 1

/-- Bits of a component (R140). -/
def depthBits (d : Nat) : Nat := match d with | 0 => 8 | 1 => 10 | 2 => 12 | _ => 16

/-- First pixel and count a stream delivers of its unit's line (R142). -/
def xcrop (e : Engine) (n : Nat) : Nat × Nat :=
  let x0 := e.rd (R.STR_XCROP.X0 n)
  let w := e.rd (R.STR_XCROP.W n)
  (x0, if w = 0 then e.outW (e.guOf n) - x0 else w)

/-- The line length of R143. -/
def lineLen (e : Engine) (n : Nat) : Nat :=
  let bits := (e.xcrop n).2 * comps (e.rd (R.STR_CFG.PSET n)) * depthBits (e.rd (R.STR_CFG.DEPTH n))
  let data := (bits + 7) / 8
  if e.on (R.STR_CFG.TAG n) then (data + 15) / 16 * 16 + 16 else data

/-- STRn_LINE is computed at STREAM_START (R123); no setting it follows from can change while the stream runs (R6). -/
def holdLine (e : Engine) (n : Nat) : Engine := e.wr (R.STR_LINE.V n) (e.lineLen n)

/-- The stride of R143: STRIDE, or the line length where it is 0. -/
def strideOf (e : Engine) (n : Nat) : Nat :=
  if e.rd (R.STR_STRIDE.V n) = 0 then e.lineLen n else e.rd (R.STR_STRIDE.V n)

/-- Output lines of a stream per aligned line: f_n of R170. -/
def lineFactor (e : Engine) (n : Nat) : Rat :=
  let g := e.guOf n
  let y : Rat := if e.on (R.GU_CTRL.YEN g) then (65536 : Rat) / (max 1 (e.rd (R.GU_YSTEP.STEP g)) : Nat) else 1
  if e.rd (R.STR_CFG.PSET n) = 4 ∨ e.rd (R.STR_CFG.PSET n) = 5 then y / 2 else y

/-- The streams that are running or whose start has been accepted. -/
def liveStreams (e : Engine) : List Nat := (upTo 16).filter fun n => (e.stream n).running

/-- Bytes per line period of a set of streams. -/
def bytesPerLine (e : Engine) (l : List Nat) : Rat :=
  (l.map fun n => (e.lineLen n : Rat) * e.lineFactor n).foldl (· + ·) 0

/-- Bytes per mm of a set of streams (R170), rounded up so that it never understates (DEDUCED, log 17). -/
def bpmOf (e : Engine) (l : List Nat) : Nat := (e.bytesPerLine l / e.pitchMm).ceil.toNat

/-- The line rate limit of a set of streams in lines/s: R24's 24 GB/s and R132's 8 Gpix/s of each unit that feeds one. -/
def capOf (e : Engine) (l : List Nat) : Nat :=
  let b := e.bytesPerLine l
  let c1 : Rat := if b = 0 then 125000 else 24000000000 / b
  let unit (n : Nat) : Rat :=
    let g := e.guOf n
    let y : Rat := if e.on (R.GU_CTRL.YEN g) then (65536 : Rat) / (max 1 (e.rd (R.GU_YSTEP.STEP g)) : Nat) else 1
    let d : Rat := 4 * (e.outW g : Rat) * y
    if d = 0 then 125000 else 8000000000 / d
  min 125000 ((l.map unit).foldl min c1).floor.toNat

/-- RSM_STATUS.CAP and PAC_BPM are recomputed (R132, R170). -/
def recalcCap (e : Engine) : Engine :=
  let c := e.capOf e.liveStreams
  (e.wr R.RSM_STATUS.CAP c).wr R.RSM_STATUS.CAPPED (b2n (decide (c < 125000)))

/-- PAC_BPM is recomputed (R170). -/
def recalcBpm (e : Engine) : Engine := e.wr R.PAC_BPM.V (e.bpmOf e.liveStreams)

/-- Dies mapped in (R190). -/
def diesIn (e : Engine) : Nat := 2 * ((upTo 4).filter fun k => bitOf (e.rd R.QDR_STATUS.MAP) k).length

/-- The staging bandwidth check of R194 for a set of streams: true where it refuses. -/
def bandwidthRefuses (e : Engine) (l : List Nat) : Bool :=
  let p := e.pitchMm
  let v : Rat := (e.rd R.PAC_VJOB.V : Rat) / 1000
  let r : Rat := min (if p = 0 then 0 else v / p) (e.capOf l)
  let rows := (e.rowsInUse 0).length + (e.rowsInUse 1).length
  let b : Rat := 15360 * (rows : Rat) + (e.bpmOf l : Rat) * p
  decide ((7 / 10 : Rat) * e.diesIn * 8528000000 < r * b)

/-- Reservations of the documents in flight in GAP mode (R185). -/
def reservations (e : Engine) : Nat :=
  if e.gapMode then
    sumNat (e.feed.flight.map fun d => e.rd R.PAC_BPM.V * e.rd R.PAC_MAXDOC_MM.V - d.bytes)
  else 0

/-- free_bytes, PAC_FREE (R171). -/
def pacFree (e : Engine) : Nat :=
  e.bookFree - ((8 * (e.rd R.PAC_BPM.V : Rat) * e.pitchMm).ceil.toNat + e.reservations)

/-! ### Speed -/

/-- Speed measured on the line-trigger encoder in µm/s, positive forward (R169). -/
def vact (e : Engine) : Int :=
  match e.mot.lastEdge with
  | none => 0
  | some t =>
    let idle := e.now - t
    if e.mot.edgeNs = 0 ∨ 1000 * e.rd R.PAC_REST.V ≤ idle then 0
    else
      let v : Nat := e.rd (R.EN_NM.V e.trigEnc) * 1000000 / max e.mot.edgeNs idle
      if e.mot.lastFwd then (v : Int) else - (v : Int)

/-- t_lat of R172 in seconds. -/
def tLat (e : Engine) : Rat :=
  let j := e.rd R.PAC_JMAX.V
  (e.rd R.PAC_TLAT.V : Rat) / 1000000 + (if j = 0 then 0 else (e.rd R.PAC_DMAX.V : Rat) / (2000 * j : Nat))

/-- The commanded speed of AX0 in mm/s. -/
def vMm (e : Engine) : Rat := (e.mot.v : Rat) / 10000000

/-- The braking-reserve invariant of R173 holds at the present speed. -/
def reserveOk (e : Engine) : Bool :=
  let v := e.vMm
  decide ((e.rd R.PAC_BPM.V : Rat) * (v * v / (2 * max 1 (e.rd R.PAC_DMAX.V) : Nat) + v * e.tLat + (e.rd R.PAC_MARGIN.V : Rat) / 1000) ≤ (e.pacFree : Rat))

end Sys2Proof.Machine.Engine
end

