-- ==== Sys2Proof/Machine/Timing.lean ====
section
/-!
DEFINITION. Sensor timing, exposure and illumination (02_sensor_timing_exposure.md): triggers at a side, windows, line starts, flushes,
dropped lines, the configuration check of R32, the LED budget of R48 and the LED faults of R49.
-/

namespace Sys2Proof.Machine

namespace Engine

/-! ### Rows, exposures, drivers -/

/-- The timing generator of a side. -/
def gen (e : Engine) (s : Nat) : TimingGen := e.tg.getD s TimingGen.init

/-- Change the timing generator of a side. -/
def modGen (e : Engine) (s : Nat) (f : TimingGen → TimingGen) : Engine := { e with tg := modAt e.tg s f }

/-- The timing generator of a side runs: TG_CTRL.EN in M4 to M9 (R30). -/
def genRuns (e : Engine) (s : Nat) : Bool := e.on (R.TG_CTRL.EN s) && e.imaging

/-- A row has a shutter (R399): an enabled SHUT output that names it. -/
def hasShutter (e : Engine) (s r : Nat) : Bool :=
  (upTo 16).any fun n => e.on (R.TG_OUT_CFG.EN s n) && e.rd (R.TG_OUT_CFG.FUNC s n) == 3 && e.rd (R.TG_OUT_CFG.ROW s n) == r

/-- The exposure a row uses for a kept index: the register, then every change accepted for an index up to it (R46). -/
def expAt (e : Engine) (s r idx : Nat) : Nat :=
  (e.gen s).changes.foldl (fun x c => if c.index ≤ idx ∧ bitOf c.rows r then c.exp else x) (e.rd (R.TG_EXP_ROW.EXP s r))

/-- The TRIGGER packets of a TRIG queue. -/
def trigsOf (l : List TrigPkt) : List Trigger := l.filterMap fun p => match p with | .trigger t => some t | .predict _ => none

/-- The next kept index a side has not begun: that of the slot, of the TRIG queue, or of the next kept trigger. -/
def nextIndex (e : Engine) (s : Nat) : Nat :=
  let g := e.gen s
  match g.slot.bind fun t => t.index with
  | some i => i
  | none => ((trigsOf g.queue).findSome? fun t => t.index).getD (if e.mode = .m5 then e.cal.full.next else e.mot.kept)

/-- AUX kind of a pitch number: 0 not ALT, 1 NIR, 2 UV (R47). -/
def auxKind (e : Engine) (s : Nat) (pitch : Int) : Nat := if e.altMode s then (if pitch % 2 = 0 then 1 else 2) else 0

/-- Drivers that the window of a row strobes at a pitch number (R47; in the backing phase NIR, then UV, R90). -/
def driversOf (e : Engine) (s r : Nat) (pitch : Int) : List Nat :=
  if r < 3 then [5 * s + r]
  else if e.mode = .m5 ∧ e.cal.full.kind = 2 then [5 * s + 3 + min 1 e.cal.full.step]
  else match e.rd (R.TG_AUX_MODE.MODE s) with
    | 0 => [5 * s + 3]
    | 1 => [5 * s + 4]
    | 3 => if pitch % 2 = 0 then [5 * s + 3] else [5 * s + 4]
    | _ => []

/-- Every driver the modes of a side strobe. -/
def sideDrivers (e : Engine) (s : Nat) : List Nat :=
  [5 * s, 5 * s + 1, 5 * s + 2] ++ (match e.rd (R.TG_AUX_MODE.MODE s) with
    | 0 => [5 * s + 3] | 1 => [5 * s + 4] | 3 => [5 * s + 3, 5 * s + 4] | _ => [])

/-- A driver may strobe: both enables, no fault, not turned off for the job, a mode with imaging, a module that may drive (R49, R357, R359). -/
def driverOn (e : Engine) (n : Nat) : Bool :=
  e.on R.ILL_CTRL.EN && e.on (R.ILL_CFG.EN n) && !bitOf (e.rd R.ILL_FAULT.CH) n && !bitOf e.job.dark n && e.imaging && e.mayDrive

/-- The row whose window a driver lights. -/
def driverRow (n : Nat) : Nat := min 3 (n % 5)

/-- A line whose windows are dark: lines 0 to 15 of a gap calibration (R78), the dark steps of a target phase (R88). -/
def gapDark (e : Engine) (idx : Option Nat) : Bool :=
  match idx with
  | some i =>
    if e.mode = .m5 then
      let f := e.cal.full
      f.kind == 1 && f.step % 2 == 0 && decide (f.base ≤ i ∧ i < f.base + f.lines)
    else match e.cal.gapStart with
      | some g => decide (g ≤ i ∧ i < g + 16)
      | none => false
  | none => false

/-- The LED power budget of R48 in mW, for exposures and levels given. -/
def budget (e : Engine) (exp : Nat → Nat → Nat) (level : Nat → Nat) : Rat :=
  ((upTo 2).map fun s => ((e.sideDrivers s).map fun n =>
    if e.on (R.ILL_CFG.EN n) then
      let half : Rat := if e.altMode s ∧ 3 ≤ n % 5 then 1 / 2 else 1
      (level n : Rat) * (3 / 2) / 1023 * (e.rd (R.ILL_STATUS.VF_MV n) : Rat) * (exp s (driverRow n) : Rat)
        / (16 * max 1 (e.periods s) : Nat) * half
    else 0).foldl (· + ·) 0).foldl (· + ·) 0

/-- The budget as the registers stand. -/
def budgetNow (e : Engine) : Rat :=
  e.budget (fun s r => e.rd (R.TG_EXP_ROW.EXP s r)) (fun n => e.rd (R.ILL_CUR.LEVEL n))

/-- ILL_PWR takes a computed budget. -/
def putBudget (e : Engine) (b : Rat) : Engine := e.wr R.ILL_PWR.BUDGET_MW (min 65535 (ratNat b))

/-- An exposure lies in the range of R38: 0.25 µs to L − 0.5 µs. -/
def expOk (e : Engine) (s exp : Nat) : Bool :=
  decide ((250 : Rat) ≤ e.expNs s exp ∧ e.expNs s exp ≤ e.lineNs s - 500)

/-! ### The configuration check (R32) -/

/-- The channel map of a side meets R36. -/
def chmapOk (e : Engine) (s : Nat) : Bool :=
  let ks := e.enabledCh s
  let taps (r : Nat) : List Nat := (ks.filter fun k => e.rd (R.TG_CHMAP.ROW s k) == r).map fun k => e.rd (R.TG_CHMAP.TAP s k)
  let used := (upTo 4).filter fun r => !(taps r).isEmpty
  let n := (used.head?.map fun r => (taps r).length).getD 0
  used.all fun r => decide ((taps r).Nodup) && (upTo (taps r).length).all (fun t => (taps r).contains t)
    && (taps r).length == n && decide (n * e.rd (R.TG_LINE_FMT.ACTIVE s) ≤ 7680)

/-- The lowest failing check of a side; 0 where every check passes. -/
def cfgError (e : Engine) (s : Nat) : Nat :=
  let act := e.rd (R.TG_LINE_FMT.ACTIVE s)
  let f := e.rd (R.TG_VCLK.FREQ_KHZ s)
  let ex (r : Nat) : Nat := e.rd (R.TG_EXP_ROW.EXP s r)
  if 1000 < e.periods s ∨ act % 8 ≠ 0 then 1
  else if (upTo 16).any fun n => e.on (R.TG_OUT_CFG.EN s n) && !e.on (R.TG_OUT_CFG.LVDS s n)
      && e.rd (R.TG_OUT_CFG.FUNC s n) == 1 && decide (62500 < f) then 2
  else if !(upTo 4).all fun r => e.expOk s (ex r) then 3
  else if !e.chmapOk s then 4
  else if e.rd (R.TG_AUX_MODE.MODE s) = 2 ∧ !(e.hasShutter s 3 && decide (ex 3 ≤ min (ex 0) (min (ex 1) (ex 2)))) then 5
  else if s = 1 ∧ e.on (R.TG_CTRL.FOLLOW 1) ∧ (f ≠ e.rd (R.TG_VCLK.FREQ_KHZ 0)
      ∨ e.word (R.TG_LINE_FMT.ACTIVE 1).off ≠ e.word (R.TG_LINE_FMT.ACTIVE 0).off) then 6
  else if (40000 : Rat) < e.budgetNow then 7
  else match (e.gen s).fmax with
    | some m => if 1000 * m < f then 8 else 0
    | none => 0

/-- The check of both sides: CFG_ERR and ERR_CODE of each; whether both pass. -/
def configCheck (e : Engine) : Engine × Bool :=
  let e0 := e.putBudget e.budgetNow
  let c0 := e.cfgError 0
  let c1 := e.cfgError 1
  let put (x : Engine) (s c : Nat) : Engine := (x.wr (R.TG_STATUS.CFG_ERR s) (b2n (c != 0))).wr (R.TG_STATUS.ERR_CODE s) c
  (put (put e0 0 c0) 1 c1, c0 == 0 && c1 == 0)

/-- A forward voltage is measured: a value the LED gives, free up to 24 V. -/
def measureVf (e : Engine) (n : Nat) : Engine :=
  let r := e.takeFree
  r.2.wr (R.ILL_STATUS.VF_MV n) (r.1 % 24001)

/-- One measurement pulse (R48): how it ends is a free value too; one that ends in OPEN or SHORT or does not settle counts with 24 V. Its
OPEN or SHORT is reported by LED_DRIVER_FAULT (DESIGN CHOICE, log 162). -/
def pulseVf (e : Engine) (n : Nat) : Engine :=
  let r := e.takeFree
  if r.1 % 2 = 1 then r.2.wr (R.ILL_STATUS.VF_MV n) 24000 else r.2.measureVf n

/-- Each enabled driver is pulsed once and measured, at the check before M4 (R48). -/
def pulseLeds (e : Engine) : Engine :=
  (upTo 10).foldl (fun x n => if x.on (R.ILL_CFG.EN n) then x.pulseVf n else x) e

/-! ### Dropped lines (R43, R44, R220) -/

/-- LINE_OVERRUN for the lines held since the previous one; the pacer steps down once (R172). -/
def overrunEvent (e : Engine) (s : Nat) : Engine :=
  let d := (e.gen s).drops
  let e1 := (e.modGen s fun g => { g with drops := ⟨some e.now, 0, 0⟩ }).emit 0x0D s 0 0 none [(24, 6, d.first), (30, 4, d.count)]
  { e1 with pac := { e1.pac with vovr := max (min (e.rd R.PAC_VMIN.V) e1.pac.vovr) (e1.pac.vovr - e.rd R.PAC_OVERRUN_STEP.V) } }

/-- A dropped line is counted; the event follows at once unless the previous one is less than 1 ms old. -/
def countDrop (e : Engine) (s idx : Nat) : Engine :=
  let e1 := e.modGen s fun g => { g with drops := { g.drops with first := (if g.drops.count = 0 then idx else g.drops.first), count := g.drops.count + 1 } }
  match (e.gen s).drops.last with
  | some t => if e.now < t + 1000000 then e1 else e1.overrunEvent s
  | none => e1.overrunEvent s

/-- A converter sample of a SUBST line where nothing was converted before (R44). -/
def blankRaw (e : Engine) (s : Nat) : RawLine :=
  let x : Sample := ⟨e.rd R.CAL_DARK_TGT.V, 0, false, false⟩
  ⟨List.replicate 16 x, List.replicate (e.rd (R.TG_LINE_FMT.ACTIVE s)) x⟩

/-- A channel. -/
def chan (e : Engine) (c : Nat) : ChanSt := e.chans.getD c ChanSt.init

/-- Change a channel. -/
def modChan (e : Engine) (c : Nat) (f : ChanSt → ChanSt) : Engine := { e with chans := modAt e.chans c f }

/-- The channel carries an AUX row in ALT mode. -/
def altChan (e : Engine) (c : Nat) : Bool := e.altMode (c / 32) && e.rd (R.TG_CHMAP.ROW (c / 32) (c % 32)) == 3

/-- The raw line a SUBST line copies: the channel's previous line, of the same index parity on an AUX row in ALT mode (R44). -/
def substRaw (e : Engine) (c idx : Nat) : Option RawLine :=
  let h := e.chan c
  if e.altChan c then (if idx % 2 = 0 then h.prevEven else h.prevOdd) else h.prev

/-- OVR samples among the active samples of a raw line (R64). -/
def ovrOf (l : RawLine) : Nat := (l.active.filter fun x => x.ovr).length

/-- A SUBST tap-line of a channel at an index; the first line kept after a Lull or a takeover carries SEAM, dropped or not (R3). -/
def substPkt (e : Engine) (c idx : Nat) (pitch : Int) (expgen : Nat) (p : Option RawLine) : TapPkt :=
  let l := match p with | some x => (x, true) | none => (e.blankRaw (c / 32), false)
  ⟨idx, pitch, 0, e.job.seamLine == some idx, false, true, false, false, expgen, if l.2 then ovrOf l.1 else 0, 0,
    if e.altChan c then e.auxKind (c / 32) pitch else 0, l.1.black, l.1.active⟩

/-- Words of a tap-line packet (R216). -/
def pktWords (p : TapPkt) : Nat := 4 + p.black.length + p.active.length

/-- Words a channel queue holds. -/
def queueWords (l : List TapPkt) : Nat := sumNat (l.map pktWords)

/-- A tap-line packet is committed to a channel's queue; words it overwrites lose their packets (R212, R214). -/
def pushTap (e : Engine) (c : Nat) (p : TapPkt) : Engine :=
  let q := (e.chan c).queue ++ [p]
  let r := trimWords pktWords 2048 q
  let e1 := (e.modChan c fun h => { h with queue := r.1 }).count (R.QUE_LOST.V c) r.2
  (e1.level c (min 2048 (queueWords q))).wr (R.QUE_LEVEL.LEVEL c) (queueWords r.1)

/-- Enabled channels of a side, by channel number. -/
def sideChans (e : Engine) (s : Nat) : List Nat := (e.enabledCh s).map fun k => 32 * s + k

/-- The SUBST tap-lines of a dropped index (index, pitch number, exposure generation) enter the queues of a side's channels. -/
def pushSubst (e : Engine) (s : Nat) (d : Nat × Int × Nat) : Engine :=
  (e.sideChans s).foldl (fun x c => x.pushTap c (x.substPkt c d.1 d.2.1 d.2.2 (x.substRaw c d.1))) e

/-- Kept index n of a side becomes a SUBST line (R43, R220); it follows the line in readout, which it copies (R9). It carries the generation of
exposure in force when it is dropped (DESIGN CHOICE, log 123). -/
def dropKept (e : Engine) (s idx : Nat) (pitch : Int) : Engine :=
  let d : Nat × Int × Nat := (idx, pitch, (e.gen s).expgen)
  let e1 := if !e.on (R.AFE_STATUS.CONV_RUN s) then e
    else if (e.gen s).run.isSome then e.modGen s fun g => { g with substs := g.substs ++ [d] }
    else e.pushSubst s d
  ((e1.count (R.TG_OVERRUN_CNT.V s) 1).count (R.TG_SUBST_CNT.V s) 1).countDrop s idx

/-- A window serves no line any more: one that is open still runs its full length, its strobes with it (R39). -/
def spend (w : Option Window) : Option Window :=
  w.bind fun x => if x.closed.isSome then none else some { x with spent := true }

/-- The windows of a side after a kept trigger has been dropped (R43): a row with a shutter is cleared and gets a fresh window; a row without keeps
what light it collected and receives no further window. -/
def renewWindows (e : Engine) (s : Nat) : Engine :=
  e.modGen s fun g =>
    { g with stale := (upTo 4).map fun r => !e.hasShutter s r,
             windows := (upTo 4).map fun r => if e.hasShutter s r then spend (g.windows.getD r none) else g.windows.getD r none }

/-! ### Triggers at a side -/

/-- A kept trigger held in the slot gives way to another kept one: its line is dropped (R43). -/
def displaceKept (e : Engine) (s : Nat) : Engine :=
  match (e.gen s).slot with
  | some old =>
    match old.index with
    | some i => ((e.dropKept s i old.pitch).renewWindows s).modGen s fun g => { g with slot := none }
    | none => e
  | none => e

/-- A trigger takes the slot (R42); one marked for discard is dropped where the slot holds a kept one (R44). Windows opened for a trigger marked for
discard that is displaced serve the one that takes its place (DESIGN CHOICE, log 124). -/
def takeTrigger (e : Engine) (s : Nat) (t : Trigger) : Engine :=
  if t.index.isNone && ((e.gen s).slot.bind fun x => x.index).isSome then e
  else e.modGen s fun g => { g with slot := some t }

/-- Kept indices missing before one that arrives (R220): each is a dropped line. -/
def fillMissing (e : Engine) (s from' : Nat) : Nat → Engine
  | 0 => e
  | n + 1 => fillMissing (e.dropKept s from' from') s (from' + 1) n

/-- A trigger reaches a timing generator (R42, R220). -/
def readTrigger (e : Engine) (s : Nat) (t : Trigger) : Engine :=
  match t.index with
  | some i =>
    let want := match (e.gen s).lastKept with | some k => k + 1 | none => i
    let e1 := (e.displaceKept s).fillMissing s want (i - want)
    (e1.modGen s fun g => { g with lastKept := some i }).takeTrigger s t
  | none => e.takeTrigger s t

/-- Words of a TRIG packet (R216). -/
def trigWords : TrigPkt → Nat
  | .trigger _ => 2
  | .predict _ => 1

/-- TRIGGER_ARRIVAL: the oldest packet of a side's TRIG queue is read, `bad` of its words with a poison tag. A poisoned TRIGGER counts as lost, a poisoned PREDICT is
ignored (R220). A PREDICT supersedes the one before it; none holds while AX0's commanded speed is 0 (R398). -/
def triggerArrives (e : Engine) (s bad : Nat) : Engine :=
  match (e.gen s).queue with
  | [] => e
  | p :: rest =>
    let e1 := (e.modGen s fun g => { g with queue := rest }).wr (R.QUE_LEVEL.LEVEL (65 + s)) (sumNat (rest.map trigWords))
    let n := min bad (trigWords p)
    if n ≠ 0 then e1.count (R.QUE_POISON.V (65 + s)) n
    else if !e.genRuns s then e1
    else
      match p with
      | .trigger t => e1.readTrigger s t
      | .predict t => if e.mot.v = 0 ∧ e.mode ≠ .m5 then e1 else e1.modGen s fun g => { g with pred := t }

/-- A packet enters the TRIG queue of a side whose generator runs; words it overwrites lose their packets (R212, R216). -/
def pushTrig (e : Engine) (s : Nat) (p : TrigPkt) : Engine :=
  if e.genRuns s then
    let q := (e.gen s).queue ++ [p]
    let r := trimWords trigWords 64 q
    let e1 := (e.modGen s fun g => { g with queue := r.1 }).count (R.QUE_LOST.V (65 + s)) r.2
    (e1.level (65 + s) (min 64 (sumNat (q.map trigWords)))).wr (R.QUE_LEVEL.LEVEL (65 + s)) (sumNat (r.1.map trigWords))
  else e

/-- A trigger is issued to both sides. -/
def issueTrigger (e : Engine) (t : Trigger) : Engine := (upTo 2).foldl (fun x s => x.pushTrig s (.trigger t)) e

/-! ### Windows -/

/-- The earliest time a window may open: 0.25 µs after the latest line start and flush (R39 step 6, R41). -/
def windowLimit (g : TimingGen) : Nat :=
  max ((g.lastStart.map fun t => t + 250).getD 0) ((g.lastFlush.map fun t => t + 250).getD 0)

/-- Boundary 0 is the first of a job; only the restart of a Lull that rested before any trigger was kept counts from an earlier one (R183). -/
def fromZero (e : Engine) : Bool := e.mot.highest.isNone && e.mode != .m8

/-- The boundary that a forward count reaches next. -/
def boundaryAhead (e : Engine) : Int := if e.fromZero then max 0 (Int.fdiv e.mot.pos e.pitch) else Int.fdiv e.mot.pos e.pitch

/-- Pitch number of the next boundary ahead, and its index where it will be kept (R37). -/
def nextBoundary (e : Engine) : Int × Option Nat :=
  if e.mode = .m5 then ((e.cal.full.next : Int), some e.cal.full.next)
  else
    let k := e.boundaryAhead - (if e.mot.highest.isSome then e.mot.base else min 0 e.boundaryAhead)
    (k, match e.mot.highest with | some h => if h < k then some k.toNat else none | none => some k.toNat)

/-- Pitch number and kept index of the line the next window of a side serves: of the trigger held, of the one on its way, of the next boundary. -/
def nextLine (e : Engine) (s : Nat) : Int × Option Nat :=
  match (e.gen s).slot, trigsOf (e.gen s).queue with
  | some t, _ => (t.pitch, t.index)
  | none, t :: _ => (t.pitch, t.index)
  | none, [] => e.nextBoundary

/-- The exposure of the next window of a row. -/
def nextExp (e : Engine) (s r : Nat) : Nat := e.expAt s r (e.nextIndex s)

/-- A window of a row is due (R39 step 2, R40): at its place before t_pred, or at once for a trigger that has arrived. -/
def windowDue (e : Engine) (s r : Nat) : Bool :=
  let g := e.gen s
  e.genRuns s && decide (windowLimit g ≤ e.now) && (g.windows.getD r none).isNone && !g.stale.getD r false && r < 4
    && (g.slot.isSome || (match g.pred with | some p => decide ((p : Rat) ≤ (e.now : Rat) + e.expNs s (e.nextExp s r) + 250) | none => false))

/-- A window opens. Where the boundary is then not reached, the window stays for the line that comes next, unless a flush readout comes first (DESIGN
CHOICE, log 125). -/
def openWindow (e : Engine) (s r : Nat) : Engine :=
  if e.windowDue s r then
    let line := e.nextLine s
    e.modGen s fun g => { g with windows := modAt g.windows r fun _ => some ⟨e.now, none, line.1, line.2, e.nextExp s r, false, e.gapDark line.2⟩ }
  else e

/-- A window ends after its exposure (R39 step 3); every driver it strobed is measured (R48). One that serves no line any more is gone then. -/
def closeWindow (e : Engine) (s r : Nat) : Engine :=
  match (e.gen s).windows.getD r none with
  | some w =>
    if w.closed.isNone && decide ((w.opened : Rat) + e.expNs s w.exp ≤ (e.now : Rat)) then
      let e1 := e.modGen s fun g => { g with windows := modAt g.windows r fun _ => if w.spent then none else some { w with closed := some e.now } }
      if w.dark then e1
      else ((e.driversOf s r w.pitch).filter e.driverOn).foldl (fun x n => x.measureVf n) e1
    else e
  | none => e

/-- The rows of a side whose LEDs strobe now: windows open and not dark. -/
def strobing (e : Engine) (n : Nat) : Bool :=
  let s := n / 5
  e.driverOn n && (upTo 4).any fun r => match (e.gen s).windows.getD r none with
    | some w => w.closed.isNone && !w.dark && (e.driversOf s r w.pitch).contains n
    | none => false

/-! ### Line starts -/

/-- A flush readout is in progress (R41): it takes L from its line start, as every readout. -/
def flushing (e : Engine) (s : Nat) : Bool :=
  match (e.gen s).lastFlush with | some x => decide ((e.now : Rat) < (x : Rat) + e.lineNs s) | none => false

/-- The line starts of a side are those of side 0 (R36). -/
def follows (e : Engine) (s : Nat) : Bool := s == 1 && e.on (R.TG_CTRL.FOLLOW 1)

/-- R40: the line of the held trigger may start: 20 ns after it, 0.25 µs after its last window, L after the previous line start, that of a flush
readout too. A row that keeps the light of a dropped line waits for no window (R43). -/
def startReady (e : Engine) (s : Nat) : Bool :=
  let g := e.gen s
  match g.slot with
  | some t =>
    e.genRuns s && g.run.isNone && decide (t.time + 20 ≤ e.now)
      && (upTo 4).all (fun r => match g.windows.getD r none with
          | some w => (match w.closed with | some c => decide (c + 250 ≤ e.now) | none => false)
          | none => g.stale.getD r false)
      && (match g.lastStart with | some x => decide ((x : Rat) + e.lineNs s ≤ (e.now : Rat)) | none => true)
      && !e.flushing s
  | none => false

/-- Lateness of a line that starts now (R42): the delay past the step 4 delay of 30 ns over L, in 1/256, 1 to 255; 0 for a line within 45 ns
of its trigger. -/
def latenessNow (e : Engine) (s trig : Nat) : Nat :=
  if e.now ≤ trig + 45 then 0
  else clampNat 1 255 (ratNat ((256 * (e.now - trig - 30) : Nat) / e.lineNs s))

/-- Changes of exposure up to a kept index take effect (R46): the registers hold the new exposures, the generation counts. A change still waiting when a
job closes waits for that index of the next job (DESIGN CHOICE, log 126). -/
def applyExposures (e : Engine) (s idx : Nat) : Engine :=
  let now := (e.gen s).changes.filter fun c => decide (c.index ≤ idx)
  let e1 := now.foldl (fun x c => (upTo 4).foldl (fun y r => if bitOf c.rows r then y.wr (R.TG_EXP_ROW.EXP s r) c.exp else y) x) e
  e1.modGen s fun g =>
    { g with changes := g.changes.filter (fun c => !decide (c.index ≤ idx)), expgen := (g.expgen + now.length) % 4 }

/-- The trims of a side's channels as they stand: OFS and GAIN codes. -/
def trimsNow (e : Engine) (s : Nat) : List (Int × Int) := (upTo 32).map fun k => (e.rdS (R.AFE_CH_TRIM.OFS s k), e.rdS (R.AFE_CH_TRIM.GAIN s k))

/-- AFE_CHk_CFG of a side's channels as they stand. -/
def cfgsNow (e : Engine) (s : Nat) : List Word := (upTo 32).map fun k => e.word (R.AFE_CH_CFG.word s k).off

/-- The readout of a held trigger begins (R39 step 4): lateness of each row, changes of exposure, the slot and the windows free. The line boundary is here:
the line is converted under the trims and the front end set-up that stand now (R53, R54). -/
def beginLine (e : Engine) (s : Nat) (t : Trigger) : Engine :=
  let late := e.latenessNow s t.time
  let e1 := match t.index with | some i => e.applyExposures s i | none => e
  let stale := (e1.gen s).stale
  let e2 := e1.modGen s fun x =>
    { x with slot := none, windows := x.windows.map spend, stale := [false, false, false, false], lastStart := some e.now,
             run := some ⟨t, e.now, (upTo 4).map fun r => if stale.getD r false then 255 else late, x.expgen,
               e.on (R.AFE_STATUS.CONV_RUN s), e.trimsNow s, e.cfgsNow s⟩ }
  if late = 0 && !stale.any id then e2 else e2.count (R.TG_LATE_CNT.V s) 1

/-- Side 1 under FOLLOW takes its line start from side 0 (R36): the trigger of the line has reached it. -/
def followLine (e : Engine) : Engine :=
  let e1 := (e.gen 1).queue.foldl (fun (x : Engine) _ => if (x.gen 1).slot.isNone then x.triggerArrives 1 0 else x) e
  match (e1.gen 1).slot with
  | some t => if e1.genRuns 1 && (e1.gen 1).run.isNone then e1.beginLine 1 t else e1
  | none => e1

/-- LINE_START (R39 step 4, R40, R42): readout begins; side 1 under FOLLOW has no line starts of its own. -/
def startLine (e : Engine) (s : Nat) : Engine :=
  match (e.gen s).slot with
  | some t =>
    if e.startReady s && !e.follows s then
      let e1 := e.beginLine s t
      if s = 0 && e.follows 1 then e1.followLine else e1
    else e
  | none => e

/-- A flush readout (R41): no trigger predicted within L + max E + 0.5 µs, the sensor free for FLUSH × L. It reads out what the rows have collected, so a
window that has closed serves no line after it (DESIGN CHOICE, log 125). -/
def flushReadout (e : Engine) (s : Nat) : Engine :=
  let g := e.gen s
  let maxE := maxOf ((upTo 4).map fun r => e.rd (R.TG_EXP_ROW.EXP s r))
  let far := match g.pred with
    | some p => decide ((e.now : Rat) + e.lineNs s + e.expNs s maxE + 500 < (p : Rat))
    | none => true
  let free := decide ((g.freeSince : Rat) + (e.rd (R.TG_CTRL.FLUSH s) : Rat) * e.lineNs s ≤ (e.now : Rat))
  if e.genRuns s && e.on (R.TG_CTRL.FLUSH s) && g.run.isNone && g.slot.isNone && !e.flushing s && far && free && !e.follows s then
    (upTo 2).foldl (fun x k => if k = s || (s == 0 && e.follows k) then
      x.modGen k fun y => { y with lastFlush := some e.now, freeSince := (ratCeil ((e.now : Rat) + e.lineNs k)).toNat, windows := y.windows.map spend } else x) e
  else e

/-! ### SET_EXPOSURE (R45, R46) -/

/-- The effective index of a change on a side: not below the named one, and no window opened for it on an affected row; past the lines of
a gap calibration. -/
def effIndex (e : Engine) (s rows index : Nat) : Nat :=
  let g := e.gen s
  let opened := (upTo 4).filterMap fun r => if bitOf rows r then (g.windows.getD r none).bind fun w => w.index else none
  let first := opened.foldl (fun m i => max m (i + 1)) (e.nextIndex s)
  let x := max first index
  match e.cal.gapStart with
  | some c => if c ≤ x ∧ x ≤ c + 51 then c + 52 else x
  | none => x

/-- Sides a SIDE parameter names. -/
def sidesOf (side : Nat) : List Nat := if side = 2 then [0, 1] else [side]

/-- The exposures with a change on named sides and rows. -/
def expWith (e : Engine) (sides : List Nat) (rows exp : Nat) (s r : Nat) : Nat :=
  if sides.contains s ∧ bitOf rows r then exp else e.expAt s r (2 ^ 48)

/-- The effect of an accepted SET_EXPOSURE: the refusal of R45, or the effective index. -/
def setExposure (e : Engine) (side rows exp index : Nat) : Engine × Option Nat :=
  let ss := sidesOf side
  let b := e.budget (e.expWith ss rows exp) (fun n => e.rd (R.ILL_CUR.LEVEL n))
  if !(ss.all fun s => e.expOk s exp) || decide ((40000 : Rat) < b) then (e, none)
  else
    let eff := maxOf (ss.map fun s => e.effIndex s rows index)
    (ss.foldl (fun x s => x.modGen s fun g => { g with changes := g.changes ++ [⟨rows, exp, eff⟩] }) (e.putBudget b), some eff)

/-! ### LED faults (R49) -/

/-- Drivers of a mask are turned off until the job closes or M3 is entered. -/
def darken (e : Engine) (mask : Nat) : Engine := { e with job := { e.job with dark := e.job.dark ||| mask } }

/-- The LED power monitor: above 44 W all drivers turn off, FAULT, a Squall. -/
def ledPower (e : Engine) (mw : Nat) : Engine :=
  if 44000 < mw then (e.darken 0x3FF).faultSquall 0x04 0xFF 0 0 [(24, 4, mw)] 2 else e

/-- A driver reports OPEN (bit 0), SHORT (1) or OT (2): it is turned off. -/
def ledFault (e : Engine) (n bits : Nat) : Engine :=
  if bits = 0 then e
  else
    let e1 := ((e.wr (R.ILL_STATUS.OPEN n) (bits % 2)).wr (R.ILL_STATUS.SHORT n) (bits / 2 % 2)).wr (R.ILL_STATUS.OT n) (bits / 4 % 2)
    let e2 := if bits % 4 = 0 then e1 else e1.wr (R.ILL_STATUS.VF_MV n) 24000
    ((e2.wr R.ILL_FAULT.CH (setBit (e.rd R.ILL_FAULT.CH) n true)).darken (if e.job.isOpen then 2 ^ n else 0)).fault 0x05 n bits 0 []

end Engine

/-- WINDOW_CLOSE (R39). -/
def execWindowClose (side : Side) (row : RowIx) (s : State) : Answer := .next (s.onEng fun e => e.closeWindow side.val row.val)

/-- TRIGGER_ARRIVAL (R42, R43, R220). -/
def execTriggerArrival (side : Side) (bad : Nat) (s : State) : Answer :=
  .next (s.onEng fun e => e.triggerArrives side.val bad)

/-- FLUSH_READOUT (R41). -/
def execFlushReadout (side : Side) (s : State) : Answer := .next (s.onEng fun e => e.flushReadout side.val)

/-- LINE_OVERRUN_HOLDOFF (R44): held dropped lines are reported 1 ms after the previous event. -/
def execLineOverrunHoldoff (side : Side) (s : State) : Answer :=
  .next (s.onEng fun e =>
    let d := (e.gen side.val).drops
    match d.last with
    | some t => if 0 < d.count ∧ t + 1000000 ≤ e.now then e.overrunEvent side.val else e
    | none => e)

/-- LED_POWER_MONITOR (R49): the 10 ms average is a measurement. -/
def execLedPowerMonitor (averageMw : Nat) (s : State) : Answer := .next (s.onEng fun e => e.ledPower averageMw)

/-- LED_DRIVER_FAULT (R49). -/
def execLedDriverFault (n : Fin 10) (bits : Fin 8) (s : State) : Answer := .next (s.onEng fun e => e.ledFault n.val bits.val)

end Sys2Proof.Machine
end

