-- ==== Sys2Proof/Machine/Afe.lean ====
section
/-!
DEFINITION. Video channels and converters (03_video_converters.md): conversion of a readout (R52, R63), wire checks (R69 to R72), the reference
(R65 to R68), slices and their rotation (R55 to R61), the metrology taps (R289), the sensor supplies (R383).
-/

namespace Sys2Proof.Machine

namespace Engine

/-- The AFE die of a side. -/
def afeSide (e : Engine) (s : Nat) : AfeSide := e.afe.getD s AfeSide.init

/-- Change the AFE die of a side. -/
def modAfe (e : Engine) (s : Nat) (f : AfeSide → AfeSide) : Engine := { e with afe := modAt e.afe s f }

/-- Bit k of a 32-bit register is set. -/
def setRegBit (e : Engine) (f : Fld) (k : Nat) : Engine := e.wr f (setBit (e.rd f) k true)

/-! ### The reference -/

/-- External reference mode. -/
def refExternal (e : Engine) (s : Nat) : Bool := e.rd (R.AFE_REF_CTRL.MODE s) == 1

/-- REF_SETTLED: always 0 in external mode. Once REF_TIMEOUT has been raised it stays 0 until settling starts again (DESIGN CHOICE, log 127). -/
def refSettled (e : Engine) (s : Nat) : Bool :=
  let a := e.afeSide s
  !e.refExternal s && a.settleStart.isSome && decide (a.settleAt ≤ e.now) && !a.timedOut

/-- The reference is powered or switched: settling starts; how long it takes is a free value. -/
def startSettling (e : Engine) (s : Nat) : Engine :=
  let r := e.takeFree
  r.2.modAfe s fun a => { a with settleStart := some e.now, settleAt := e.now + r.1, timedOut := false }

/-- BUF_MS: whole milliseconds since BUF_EN was last set, saturating. -/
def bufMs (e : Engine) (s : Nat) : Nat :=
  match (e.afeSide s).bufStart with
  | some t => min 65535 ((e.now - t) / 1000000)
  | none => 0

/-- REF_FAULT is active (R68). -/
def refFaulty (e : Engine) (s : Nat) : Bool := e.on (R.AFE_STATUS.REF_FAULT s) || !(e.afeSide s).refIn

/-- AFE_REF_CTRL takes a value (R65): a change of MODE restarts settling; setting BUF_EN starts the buffer, clearing it stops it. -/
def loadRefCtrl (e : Engine) (s : Nat) (v : Word) : Engine :=
  let m := (R.AFE_REF_CTRL.MODE s).get v
  let b := (R.AFE_REF_CTRL.BUF_EN s).get v
  let e1 := (e.wr (R.AFE_REF_CTRL.MODE s) m).wr (R.AFE_REF_CTRL.BUF_EN s) b
  let e2 := if b = e.rd (R.AFE_REF_CTRL.BUF_EN s) then e1 else e1.modAfe s fun a => { a with bufStart := if b = 1 then some e.now else none }
  if m = e.rd (R.AFE_REF_CTRL.MODE s) then e2 else e2.startSettling s

/-- A write to AFE_REF_CTRL: accepted in M3 (R65). Outside M3 one that would change either field sets SYS_WRITE_IGNORED. -/
def writeRefCtrl (e : Engine) (s : Nat) (v : Word) : Engine :=
  let same := (R.AFE_REF_CTRL.MODE s).get v = e.rd (R.AFE_REF_CTRL.MODE s) ∧ (R.AFE_REF_CTRL.BUF_EN s).get v = e.rd (R.AFE_REF_CTRL.BUF_EN s)
  if !e.afePresent s ∨ same then e
  else if e.mode ≠ .m3 then e.writeIgnored (R.AFE_REF_CTRL.word s).off
  else e.loadRefCtrl s v

/-! ### Front end set-up -/

/-- AFE_CHk_CFG takes a value in M3 to M6 (R53); a line in progress keeps the word it began under. A change of RANGE sets STALE on a channel that is
powered down too: R53 makes no exception of it (DESIGN CHOICE, log 128). -/
def writeCfg (e : Engine) (s k : Nat) (v : Word) : Engine :=
  if !e.afePresent s then e
  else if !e.modeIn [3, 4, 5, 6] then e.writeIgnored (R.AFE_CH_CFG.word s k).off
  else
    let old := e.word (R.AFE_CH_CFG.word s k).off
    let e1 := (((e.wr (R.AFE_CH_CFG.SAMPLING s k) ((R.AFE_CH_CFG.SAMPLING s k).get v)).wr (R.AFE_CH_CFG.TERM s k)
      ((R.AFE_CH_CFG.TERM s k).get v)).wr (R.AFE_CH_CFG.RANGE s k) ((R.AFE_CH_CFG.RANGE s k).get v)).wr (R.AFE_CH_CFG.CLAMP s k)
      ((R.AFE_CH_CFG.CLAMP s k).get v)
    if (R.AFE_CH_CFG.RANGE s k).get v = (R.AFE_CH_CFG.RANGE s k).get old then e1 else e1.wr (R.AFE_CH_STATUS.STALE s k) 1

/-! ### Conversion (R52, R63) -/

/-- The settings one tap-line of a channel is converted under: full scale FS in nV, OFS and GAIN codes, CDS mode, and the slice that serves each
phase. -/
structure Front where
  fs : Int
  ofs : Int
  gain : Int
  cds : Bool
  phases : List Nat
  deriving DecidableEq, Repr

/-- Full scale in nV of a RANGE code at a reference of `vref` µV (R65). -/
def fullScale (range vref : Nat) : Int := 200 * (range + 1 : Nat) * vref

/-- R52 times `scale`, rounded to nearest: `v` in nV under trim codes and full scale. -/
def codeOf (scale fs ofs gain v : Int) : Int :=
  divNearest (scale * 65536 * (v - 31250 * ofs) * (25600 + gain)) (25600 * fs)

/-- The input value of a pixel period (R52): SHR less SHD in CDS mode, SHD in direct mode. -/
def videoOf (f : Front) (x : VideoSample) : Int := if f.cds then x.shr - x.shd else x.shd

/-- The slice that converts pixel period j (R55). -/
def sliceAt (f : Front) (j : Nat) : Nat := f.phases.getD (j % 4) 0

/-- The extended result of the converter, in 1/8 LSB (R69). -/
def extended (f : Front) (v : Int) : Int := codeOf 8 f.fs f.ofs f.gain v

/-- The code that an input value has within the code range. -/
def codeIn (f : Front) (v : Int) : Nat := (clampInt 0 65535 (codeOf 1 f.fs f.ofs f.gain v)).toNat

/-- The sample of pixel period j (R63): OVR where the overload comparator trips, or where the converter's extended result lies outside the code range. -/
def sampleOf (f : Front) (j : Nat) (x : VideoSample) : Sample :=
  let y := extended f (videoOf f x)
  match x.trip with
  | some up => ⟨if up then 65535 else 0, sliceAt f j, true, false⟩
  | none =>
    if y < 0 then ⟨0, sliceAt f j, true, false⟩
    else if 8 * 65535 < y then ⟨65535, sliceAt f j, true, false⟩
    else ⟨codeIn f (videoOf f x), sliceAt f j, false, false⟩

/-- A channel's terminations act as TERM says where the module drives outputs (R51): on a leeward they are disconnected. -/
def terminates (e : Engine) (cfg : Word) : Bool := e.mayDrive && (R.AFE_CH_CFG.TERM 0 0).get cfg == 1

/-- A pixel period of a pair (R400): of an open one, terminated, the input lies within 10 mV of 0 V and no sample carries OVR; of an open one that is not
terminated every sample is below the range. -/
def wireSample (term openPair : Bool) (f : Front) (j : Nat) (x : VideoSample) : Sample :=
  if !openPair then sampleOf f j x
  else if term then ⟨codeIn f (clampInt (-10000000) 10000000 (videoOf f x)), sliceAt f j, false, false⟩
  else ⟨0, sliceAt f j, true, false⟩

/-- The settings of a channel's line in readout. -/
def frontOf (e : Engine) (s k vref : Nat) (run : LineRun) : Front :=
  let cfg := run.cfgs.getD k 0
  let t := run.trims.getD k (0, 0)
  ⟨fullScale ((R.AFE_CH_CFG.RANGE s k).get cfg) vref, t.1, t.2, (R.AFE_CH_CFG.SAMPLING s k).get cfg == 1, (e.chan (32 * s + k)).phases⟩

/-- The pixel period of the first optical-black sample: the OVH and DUMMY periods before it are converted and not sent (R55, R62). -/
def blackFrom (e : Engine) (s : Nat) : Nat := e.rd (R.TG_LINE_FMT.OVH s) + e.rd (R.TG_LINE_FMT.DUMMY s)

/-- A pixel period at rest. -/
def restPixel : VideoSample := ⟨0, 0, none⟩

/-- The outputs of a sensor whose supplies a current limit has turned off have collapsed (R383): they rest at 0 V, whatever the sensor would have given. A leeward's
sensor is supplied by the windward (R357). -/
def collapse (e : Engine) (s : Nat) (v : VideoLine) : VideoLine :=
  if (e.afeSide s).tripped && e.pair.role != 2 then ⟨[], [], v.openPair⟩ else v

/-- The samples of a channel's tap-line: 16 optical-black, then ACTIVE (R62). -/
def convert (e : Engine) (s k vref : Nat) (run : LineRun) (v : VideoLine) : RawLine :=
  let f := e.frontOf s k vref run
  let term := e.terminates (run.cfgs.getD k 0)
  let at' := e.blackFrom s
  ⟨(upTo 16).map fun i => wireSample term v.openPair f (at' + i) (v.black.getD i restPixel),
    (upTo (e.rd (R.TG_LINE_FMT.ACTIVE s))).map fun i => wireSample term v.openPair f (at' + 16 + i) (v.active.getD i restPixel)⟩

/-- Odd parity over 20 bits. -/
def oddParity (w : Nat) : Nat := ((upTo 20).filter fun i => bitOf w i).length.succ % 2

/-- The sample word of R62: PAR, SLICE, OVR, CODE. -/
def sampleWord (x : Sample) : Nat :=
  let w := x.code % 65536 + 65536 * b2n x.ovr + 131072 * (x.slice % 8)
  w + 1048576 * oddParity w

/-- The four header words of a tap-line packet (R217), each with odd parity in bit 20. -/
def headerWords (p : TapPkt) : List Nat :=
  let w := [p.index % 1048576,
    p.index / 1048576 % 4096 + 4096 * b2n p.discard + 8192 * b2n p.late + 16384 * b2n p.subst + 32768 * b2n p.seam + 65536 * (p.chk % 16),
    p.lateness % 256 + 256 * (p.ovr % 1024) + 262144 * (p.expgen % 4),
    p.auxkind % 4]
  w.map fun x => x + 1048576 * oddParity x

/-- The words of a tap-line packet in queue order. -/
def packetWords (p : TapPkt) : List Nat := headerWords p ++ (p.black ++ p.active).map sampleWord

/-- The wire checks of R69: bit 0 mean low, 1 mean high, 2 zero variance of the extended results, 3 OVR limit. -/
def wireChecks (e : Engine) (s k vref : Nat) (run : LineRun) (v : VideoLine) (l : RawLine) : Nat :=
  let sum := sumNat (l.black.map fun x => x.code)
  let f := e.frontOf s k vref run
  let ext := (upTo 16).map fun i => extended f (videoOf f (v.black.getD i restPixel))
  let limit := e.rd (R.AFE_OVR_LIMIT.LIMIT s)
  let past := ((l.black ++ l.active).filter fun x => x.ovr).length
  b2n (decide (sum < 16 * e.rd (R.AFE_OB_WIN_LO.CODE s))) + 2 * b2n (decide (16 * e.rd (R.AFE_OB_WIN_HI.CODE s) < sum))
    + 4 * b2n (ext.all fun x => x == ext.headD 0) + 8 * b2n (decide (limit ≠ 0 ∧ limit < past))

/-- The wire-fault policy SQUALL (R71, R68): a failure in M7 or M8 requests a Squall at once, and every line from it up to the stop carries TAP_FAULT. -/
def wireSquall (e : Engine) (s : Nat) (run : LineRun) (faultDseq : Nat) : Engine :=
  if e.on (R.AFE_CTRL.POLICY s) && e.modeIn [7, 8] then
    ({ e with job := { e.job with wireStop := some (e.job.wireStop.getD (run.trig.index.getD e.mot.kept)) } }).requestSquall 1 faultDseq
  else e

/-- A failed wire check (R71, R72): the first of a channel sets its bit and raises FAULT; under POLICY = SQUALL any failure in M7 or M8
requests a Squall. -/
def wireFault (e : Engine) (s k chk : Nat) (run : LineRun) : Engine :=
  if chk = 0 then e
  else
    let first := !bitOf (e.rd (R.AFE_TAP_FAULT.V s)) k
    let id := match run.trig.index with | some i => i | none => ofSigned 48 run.trig.pitch
    let e1 := if first then
        (e.setRegBit (R.AFE_TAP_FAULT.V s) k).fault 0x02 (32 * s + k) chk (b2n run.trig.index.isNone) [(24, 6, id)]
      else e
    e1.wireSquall s run (if first then e1.evt.dseq else 0)

/-- The packet of a tap-line (R217). On a leeward its lines are removed at stage 5 (R358), as discarded ones are. -/
def packet (e : Engine) (s k chk : Nat) (l : RawLine) (run : LineRun) : TapPkt :=
  let row := e.rd (R.TG_CHMAP.ROW s k)
  let late := run.late.getD row 0
  ⟨run.trig.index.getD 0, run.trig.pitch, chk, e.refFaulty s, run.trig.seam, false, late != 0,
    run.trig.index.isNone || e.mode == .m10, run.expgen, ovrOf l, late,
    if e.altMode s && row == 3 then e.auxKind s run.trig.pitch else 0, l.black, l.active⟩

/-- First and last kept index of an active interval that takes in one more line. -/
def widen (i : Nat) (x : Option Nat × Option Nat) : Option Nat × Option Nat := (some (x.1.getD i), some i)

/-- What a channel keeps of a converted line: the line a SUBST line copies, of each parity (a line marked for discard counts by its pitch number,
R14, R44; a pitch number below 0 by its parity as an integer), and, of a kept line, what its slices served. -/
def keepLine (run : LineRun) (l : RawLine) (h : ChanSt) : ChanSt :=
  let n : Int := match run.trig.index with | some i => i | none => run.trig.pitch
  let h1 := { h with prev := some l, since := h.since + 1,
                     prevEven := (if n % 2 = 0 then some l else h.prevEven), prevOdd := (if n % 2 = 1 then some l else h.prevOdd) }
  match run.trig.index with
  | some i => { h1 with service := h.phases.foldl (fun v p => modAt v p (widen i)) h.service }
  | none => h1

/-- One channel's tap-line is checked and committed. -/
def commitTap (e : Engine) (s k vref : Nat) (v : VideoLine) (l : RawLine) (run : LineRun) : Engine :=
  let chk := e.wireChecks s k vref run v l
  let all := ((l.black ++ l.active).filter fun x => x.ovr).length
  let e1 := ((e.wr (R.AFE_CH_STATUS.CHK s k) chk).wr (R.AFE_CH_STATUS.OB_MEAN s k) (sumNat (l.black.map fun x => x.code) / 16)).count
    (R.AFE_OVR_PIX.V s) all
  let p := e.packet s k chk l run
  ((e1.wireFault s k chk run).pushTap (32 * s + k) p).modChan (32 * s + k) (keepLine run l)

/-! ### The metrology tap (R289) -/

/-- A row of 7,680 pixels stitched from its taps: tap t from t × ACTIVE on, reversed with DIR = 1; pixels not covered are 0 (R35, R112). -/
def stitch (act : Nat) (taps : List (Nat × Bool × List Nat)) : List Nat :=
  let part (t : Nat) : List Nat := match taps.find? fun x => x.1 == t with
    | some (_, dir, l) => if dir then l.reverse else l
    | none => List.replicate act 0
  let l := ((upTo (min 8 (7680 / max 1 act))).map part).flatten
  (l ++ List.replicate (7680 - l.length) 0).take 7680

/-- The 960 values of R289. -/
def bin8 : Nat → List Nat → List Nat
  | 0, _ => []
  | n + 1, l => (sumNat (l.take 8) / 8 / 16) :: bin8 n (l.drop 8)

/-- The tap of a line: values and failed checks of each row. -/
def tapOf (e : Engine) (s : Nat) (run : LineRun) (lines : List (Nat × RawLine × Nat)) : TapLine :=
  let ofRow (r : Nat) := lines.filter fun x => e.rd (R.TG_CHMAP.ROW s x.1) == r
  let values (r : Nat) := stitch (e.rd (R.TG_LINE_FMT.ACTIVE s)) ((ofRow r).map fun x =>
    (e.rd (R.TG_CHMAP.TAP s x.1), e.on (R.TG_CHMAP.DIR s x.1), x.2.1.active.map fun p => p.code))
  ⟨s, (run.trig.pitch % 2 ^ 32).toNat, run.trig.index.isNone, if e.altMode s then e.auxKind s run.trig.pitch else 0, ((run.start : Int) - e.jump).toNat, (upTo 4).map fun r => bin8 960 (values r),
    (upTo 4).map fun r => (ofRow r).foldl (fun a x => a ||| x.2.2) 0⟩

/-- Whether a side may convert in the present mode: M4 to M9 (R338), and a leeward in M10 (R358). -/
def convMode (e : Engine) : Bool := e.imaging || (e.mode == .m10 && e.pair.role == 2)

/-- The line boundary at which conversion stops after an entry to M3 (R340). -/
def stopConverting (e : Engine) (s : Nat) : Engine :=
  if !e.convMode && e.on (R.AFE_STATUS.CONV_RUN s) then e.stopConversion s else e

/-- READOUT_END: the sensor is free; every enabled channel's tap-line is converted, checked, committed; the tap goes to the section. The line was converted
against a reference of `vref` µV. -/
def endReadout (e : Engine) (s vref : Nat) (video : List VideoLine) : Engine :=
  match (e.gen s).run with
  | none => e
  | some run =>
    if (e.now : Rat) < (run.start : Rat) + e.lineNs s then e
    else
      let e1 := e.modGen s fun g => { g with run := none, freeSince := e.now, substs := [] }
      let late (x : Engine) : Engine := (e.gen s).substs.foldl (fun y d => y.pushSubst s d) x
      if !run.converting then late e1
      else
        let lines := (e.enabledCh s).zipIdx.map fun (k, i) =>
          let v := e.collapse s (video.getD i ⟨[], [], false⟩)
          (k, v, e.convert s k vref run v)
        let tap := e.tapOf s run (lines.map fun (k, v, l) => (k, l, e.wireChecks s k vref run v l))
        let e2 := late (lines.foldl (fun x (k, v, l) => x.commitTap s k vref v l run) (e1.modAfe s fun a => { a with vref := vref }))
        let e3 := if e.refFaulty s then e2.wireSquall s run (e.afeSide s).refDseq else e2
        (if (e3.met.tap.getD s []).length < Config.tapDepth then { e3 with met := { e3.met with tap := modAt e3.met.tap s fun q => q ++ [tap] } }
          else e3.count (R.MET_TAP_LOST.V s) 1).stopConverting s

/-! ### Conversion start -/

/-- Slices of a channel at conversion start (R56); a failed slice stays spare (R60). -/
def startChan (failed : Bool) (h : ChanSt) : ChanSt :=
  { h with
    phases := if failed then h.phases else [0, 1, 2, 3]
    spareReady := false, rotations := 0, attempts := 0, since := 0
    service := List.replicate 5 (none, none)
    prev := none, prevEven := none, prevOdd := none, means := [], shift := none, raw5 := [none, none, none]
    outPrev := none, outEven := none, outOdd := none, entered := none }

/-- Corrections that a slice serves with and that no command has told: a free value within the limits of R59 (log 129). -/
def someCorr (n : Nat) : SliceCorr := ⟨(n % 8193 : Nat) - 4096, (n / 8193 % 20001 : Nat) - 10000, (n / 8193 / 20001 % 1601 : Nat) - 800⟩

/-- Slices of a channel, those of its phases above all, serve under corrections: those of their last calibration. -/
def serveSlices (e : Engine) (c : Nat) (slices : List Nat) : Engine :=
  (slices.filter fun p => ((e.chan c).served.getD p none).isNone).foldl (fun x p =>
    let r := x.takeFree
    r.2.modChan c fun h => { h with served := modAt h.served p fun _ => some (someCorr r.1) }) e

/-- The reference lets a side convert: R66, and in a wake R67 and R344. -/
def refReady (e : Engine) (s : Nat) : Bool :=
  if e.refExternal s then !(e.afeSide s).bufWait || decide (40 ≤ e.bufMs s) else e.refSettled s

/-- A side starts conversion (R66); a leeward converts in M10 (R358). -/
def conversionReady (e : Engine) (s : Nat) : Bool :=
  e.sideConverts s && !e.on (R.AFE_STATUS.CONV_RUN s) && e.convMode && e.resetting.isNone
    && e.refReady s

/-- CONVERSION_START: CONV_RUN sets; slices, counts and the trackers of the side begin afresh (R56, R98). The slice targets in force, of the record or of the
factory, are the channel's from here on until a full calibration (R57). -/
def startConversion (e : Engine) (s : Nat) : Engine :=
  if !e.conversionReady s then e
  else
    let e1 := (e.wr (R.AFE_STATUS.CONV_RUN s) 1).modAfe s fun a => { a with bufWait := false }
    (upTo 32).foldl (fun x k =>
      let bad := e.on (R.AFE_CH_SLICE.FAILED s k)
      let x1 := ((x.modChan (32 * s + k) (startChan bad)).serveSlices (32 * s + k) (if bad then (e.chan (32 * s + k)).phases else [0, 1, 2, 3])).wr (R.AFE_CH_SLICE.ROT_COUNT s k) 0
      let x2 := if bad then x1 else x1.wr (R.AFE_CH_SLICE.SPARE s k) 4
      x2.wr (R.SHD_CH_TRK.C (32 * s + k)) (256 * e.rd R.CAL_DARK_TGT.V)) e1

/-! ### Rotation and calibration of slices -/

/-- The spare slice of a channel. -/
def spareOf (e : Engine) (s k : Nat) : Nat := e.rd (R.AFE_CH_SLICE.SPARE s k)

/-- A channel rotates at this boundary (R56, R60, R61). -/
def rotationDue (e : Engine) (s k : Nat) : Bool :=
  let h := e.chan (32 * s + k)
  h.spareReady && !e.on (R.AFE_CH_SLICE.FAILED s k) && decide (e.rd (R.AFE_ROT.LINES s) ≤ h.since)

/-- Rotation n replaces phase (n − 1) mod 4: the spare takes it, and the slice it replaces is the next spare. -/
def rotate (e : Engine) (s k : Nat) : Engine :=
  let c := 32 * s + k
  let h := e.chan c
  let ph := h.rotations % 4
  let sp := e.spareOf s k
  let old := h.phases.getD ph 0
  let e1 := e.modChan c fun h =>
    { h with phases := modAt h.phases ph (fun _ => sp), spareReady := false, rotations := h.rotations + 1, attempts := 0, since := 0,
             service := modAt h.service sp fun _ => (none, none) }
  (e1.wr (R.AFE_CH_SLICE.SPARE s k) old).wr (R.AFE_CH_SLICE.ROT_COUNT s k) (h.rotations + 1)

/-- The rotations due at a line boundary of a converting side; suspended by ROT_EN = 0 and by an active REF_FAULT (R61, R68). -/
def rotateDue (e : Engine) (s : Nat) : Engine :=
  if e.on (R.AFE_STATUS.CONV_RUN s) && (e.gen s).run.isNone && e.on (R.AFE_CTRL.ROT_EN s) && !e.refFaulty s then
    (e.enabledCh s).foldl (fun x k => if x.rotationDue s k then x.rotate s k else x) e
  else e

/-- SLICE_ROTATION, where a line is about to start: while no line is converted no slice rotates (R56, R178). The lines of a leeward begin with SENSED_LINE_EDGE,
and its slices rotate there (R358). -/
def rotateSide (e : Engine) (s : Nat) : Engine := if (e.gen s).slot.isSome then e.rotateDue s else e

/-- FAIL_CODE of R59 for a calibration that converged: 0 where it passes. Where several grounds hold the lowest code is recorded (DESIGN CHOICE,
log 130). A slice that has never served has no corrections it served with. -/
def sliceFailCode (old : Option SliceCorr) (c : SliceCorr) : Nat :=
  if 4096 < c.offset.natAbs then 1
  else if 10000 < c.gain.natAbs then 2
  else if 800 < c.skew.natAbs then 3
  else match old with
    | some o => if 64 < (c.offset - o.offset).natAbs ∨ 500 < (c.gain - o.gain).natAbs ∨ 80 < (c.skew - o.skew).natAbs then 4 else 0
    | none => 0

/-- A number the event names, or a free value where the spec states none. -/
def orFree (e : Engine) (x : Option Nat) : Nat × Engine :=
  match x with
  | some n => (n, e)
  | none => e.takeFree

/-- SLICE_FAIL (R60). `drift` is none where the calibration did not converge. -/
def sliceFail (e : Engine) (s k code : Nat) (drift : Option (Int × Int × Int)) : Engine :=
  let c := 32 * s + k
  let sp := e.spareOf s k
  let e1 := ((e.wr (R.AFE_CH_SLICE.FAILED s k) 1).wr (R.AFE_CH_SLICE.FAIL_SLICE s k) sp).wr (R.AFE_CH_SLICE.FAIL_CODE s k) code
  let e2 := e1.setRegBit (R.AFE_SLICE_FAIL.V s) k
  let v := (e.chan c).service.getD sp (none, none)
  let a := e2.orFree (drift.map fun d => ofSigned 32 d.1)
  let b := a.2.orFree (drift.map fun d => ofSigned 32 d.2.1)
  let d := b.2.orFree (drift.map fun d => ofSigned 32 d.2.2)
  let f := d.2.orFree v.1
  let l := f.2.orFree v.2
  (l.2.modChan c fun h => { h with spareReady := false }).fault 0x01 c sp code
    [(24, 4, a.1), (28, 4, b.1), (32, 4, d.1), (36, 6, f.1), (42, 6, l.1)]

/-- SPARE_CAL_DONE (R57, R59): `corr` is what an attempt found, none where it did not converge. The drift of a slice that has never served is its whole
correction (DESIGN CHOICE, log 131); the skew drift is reported in fs. -/
def spareCal (e : Engine) (c : Nat) (corr : Option SliceCorr) : Engine :=
  let s := c / 32
  let k := c % 32
  let h := e.chan c
  if !e.on (R.AFE_STATUS.CONV_RUN s) || !e.on (R.TG_CHMAP.EN s k) || e.on (R.AFE_CH_SLICE.FAILED s k) || h.spareReady || e.refFaulty s then e
  else
    match corr with
    | none =>
      let n := h.attempts + 1
      let e1 := e.modChan c fun h => { h with attempts := n }
      if n < 3 then e1 else e1.sliceFail s k 5 none
    | some x =>
      let sp := e.spareOf s k
      let old := h.served.getD sp none
      let code := sliceFailCode old x
      if code = 0 then e.modChan c fun h => { h with spareReady := true, attempts := 0, served := modAt h.served sp fun _ => some x }
      else
        let o := old.getD ⟨0, 0, 0⟩
        e.sliceFail s k code (some (x.offset - o.offset, x.gain - o.gain, 25 * (x.skew - o.skew)))

/-! ### The reference monitor -/

/-- The AFE dies are powered: M3 to M11 (R338). -/
def afePowered (e : Engine) (s : Nat) : Bool := e.afePresent s && decide (3 ≤ e.mode.idx)

/-- REF_FAULT (R68): latched, and raised as FAULT. -/
def refFault (e : Engine) (s : Nat) : Engine :=
  if e.afePowered s && (e.afeSide s).refIn && (e.refExternal s || e.refSettled s) then
    let e1 := (e.wr (R.AFE_STATUS.REF_FAULT s) 1).fault 0x03 s 1 0 []
    e1.modAfe s fun a => { a with refIn := false, refDseq := e1.evt.dseq }
  else e

/-- REF_TIMEOUT (R68): not settled 100 ms after settling started. -/
def refTimeout (e : Engine) (s : Nat) : Engine :=
  let a := e.afeSide s
  match a.settleStart with
  | some t =>
    if e.afePowered s && !e.refExternal s && !a.timedOut && decide (t + 100000000 ≤ e.now) && !e.refSettled s then
      ((e.wr (R.AFE_STATUS.REF_TIMEOUT s) 1).fault 0x03 s 2 0 []).modAfe s fun a => { a with timedOut := true }
    else e
  | none => e

end Engine

/-- AFE_CFG_WRITE (R53). -/
def execAfeCfgWrite (side : Side) (k : Fin 32) (value : Word) (s : State) : Answer :=
  .next (s.onEng fun e => e.gate (R.AFE_CH_CFG.word side.val k.val).off fun x => x.writeCfg side.val k.val value)

/-- REF_MODE_WRITE (R65). -/
def execRefModeWrite (side : Side) (value : Word) (s : State) : Answer := 
  .next (s.onEng fun e => e.gate (R.AFE_REF_CTRL.word side.val).off fun x => x.writeRefCtrl side.val value)

/-- READOUT_END (R39, R52, R69). -/
def execReadoutEnd (side : Side) (video : Video) (s : State) : Answer :=
  .next (s.onEng fun e => e.endReadout side.val video.vref video.lines)

/-- CONVERSION_START (R66). -/
def execConversionStart (side : Side) (s : State) : Answer := .next (s.onEng fun e => e.startConversion side.val)

/-- SLICE_ROTATION (R56). -/
def execSliceRotation (side : Side) (s : State) : Answer := .next (s.onEng fun e => e.rotateSide side.val)

/-- SPARE_CAL_DONE (R57, R59, R60). -/
def execSpareCalDone (ch : Chan) (corr : Option SliceCorr) (s : State) : Answer := .next (s.onEng fun e => e.spareCal ch.val corr)

/-- REF_FAULT (R68). -/
def execRefFault (side : Side) (s : State) : Answer := .next (s.onEng fun e => e.refFault side.val)

/-- REF_BACK_IN_WINDOW (R68). -/
def execRefBackInWindow (side : Side) (s : State) : Answer :=
  .next (s.onEng fun e => e.modAfe side.val fun a => { a with refIn := true })

/-- SUPPLY_LIMIT (R383): both supplies of the side turn off until the next entry to M3; no FAULT. -/
def execSupplyLimit (side : Side) (s : State) : Answer :=
  .next (s.onEng fun e => e.modAfe side.val fun a => { a with supplies := false, tripped := true })

end Sys2Proof.Machine
end

