-- ==== Sys2Proof/Machine/Crypto.lean ====
section
/-!
DEFINITION. The three standard algorithms the spec names without giving them: CRC-32C (R34, R91, R305), SHA-256 and ECDSA on the curve P-256
(R300, R301). PRESUMED from their standards: Castagnoli's reflected polynomial, FIPS 180-4, FIPS 186-4 (log 16).
-/

namespace Sys2Proof

/-! ### CRC-32C -/

/-- One bit of the CRC: the reflected polynomial 0x82F63B78. -/
def crcBit (c : Word) : Word := if c &&& 1 = 1 then (c >>> 1) ^^^ 0x82F63B78 else c >>> 1

/-- One byte of the CRC. -/
def crcByte (c : Word) (b : Byte) : Word :=
  let x := c ^^^ (b.zeroExtend 32)
  crcBit (crcBit (crcBit (crcBit (crcBit (crcBit (crcBit (crcBit x)))))))

/-- The CRC over a list from a remainder on; the match has each byte's remainder evaluated before the next byte. -/
def crcFrom : List Byte → Nat → Nat
  | [], c => c
  | b :: t, c => match (crcByte (BitVec.ofNat 32 c) b).toNat with
    | 0 => crcFrom t 0
    | n + 1 => crcFrom t (n + 1)

/-- CRC-32C of a list of bytes. -/
def crc32c (l : List Byte) : Word := ~~~ (BitVec.ofNat 32 (crcFrom l 0xFFFFFFFF))

/-! ### SHA-256 -/

/-- The first 64 primes, whose roots give the constants of SHA-256. -/
def shaPrimes : List Nat :=
  [2, 3, 5, 7, 11, 13, 17, 19, 23, 29, 31, 37, 41, 43, 47, 53, 59, 61, 67, 71, 73, 79, 83, 89, 97, 101, 103, 107, 109, 113, 127, 131]
  ++ [137, 139, 149, 151, 157, 163, 167, 173, 179, 181, 191, 193, 197, 199, 211, 223, 227, 229, 233, 239, 241, 251, 257, 263, 269, 271, 277, 281]
  ++ [283, 293, 307, 311]

/-- The largest number of `bits` bits above `r` whose k-th power is at most n. -/
def rootBelow (k n : Nat) : Nat → Nat → Nat
  | 0, r => r
  | b + 1, r => rootBelow k n b (if (r + 2 ^ b) ^ k ≤ n then r + 2 ^ b else r)

/-- The first 32 bits of the fraction of a k-th root. -/
def rootFrac (k p : Nat) : Word := BitVec.ofNat 32 (rootBelow k (p * 2 ^ (32 * k)) 38 0)

/-- The exclusive or of a word turned right by three amounts. -/
def turns (w : Word) (i j k : Nat) : Word := w.rotateRight i ^^^ w.rotateRight j ^^^ w.rotateRight k

/-- The exclusive or of a word turned right by two amounts and shifted right by a third. -/
def turnsShift (w : Word) (i j k : Nat) : Word := w.rotateRight i ^^^ w.rotateRight j ^^^ (w >>> k)

/-- A round on the eight working words, with the sum of its constant and its word of the schedule. -/
def shaStep (v : List Word) (x : Word) : List Word :=
  match v with
  | [p0, p1, p2, p3, q0, q1, q2, q3] =>
    let up := x + q3 + turns q0 6 11 25 + (q2 ^^^ (q0 &&& (q1 ^^^ q2)))
    let down := turns p0 2 13 22 + ((p0 &&& p1) ||| (p2 &&& (p0 ||| p1)))
    [up + down, p0, p1, p2, p3 + up, q0, q1, q2]
  | _ => v

/-- The rounds of a block: `win` holds the next sixteen words of the schedule, which grows by one as each round takes one. -/
def shaRounds : List Nat → List Word → List Word → List Word
  | [], _, v => v
  | p :: ps, win, v =>
    let w (i : Nat) : Word := win.getD i 0
    shaRounds ps (win.drop 1 ++ [w 0 + w 9 + turnsShift (w 1) 7 18 3 + turnsShift (w 14) 17 19 10]) (shaStep v (rootFrac 3 p + w 0))

/-- A message with its padding: a 1 bit, zeros, its length in bits. -/
def shaPad (l : List Byte) : List Byte := l ++ [0x80] ++ List.replicate ((55 + 64 - l.length % 64) % 64) 0 ++ beBytes 8 (8 * l.length)

/-- The words of a number of `4 n` big-endian bytes. -/
def wordsAt (l : List Byte) (off n : Nat) : List Word :=
  (upTo n).map fun i => BitVec.ofNat 32 (((l.drop (off + 4 * i)).take 4).foldl (fun x b => 256 * x + b.toNat) 0)

/-- The SHA-256 digest as a number, most significant byte first. -/
def sha256 (l : List Byte) : Nat :=
  let m := shaPad l
  let v := (upTo (m.length / 64)).foldl (fun (v : List Word) i => (v.zip (shaRounds shaPrimes (wordsAt m (64 * i) 16) v)).map fun x => x.1 + x.2)
    ((shaPrimes.take 8).map (rootFrac 2))
  v.foldl (fun n w => n * 2 ^ 32 + w.toNat) 0

/-! ### P-256 -/

/-- The field prime. -/
def p256 : Nat := 0xffffffff00000001000000000000000000000000ffffffffffffffffffffffff
/-- The order of the base point. -/
def n256 : Nat := 0xffffffff00000000ffffffffffffffffbce6faada7179e84f3b9cac2fc632551
/-- The base point. -/
def g256 : Nat × Nat :=
  (0x6b17d1f2e12c4247f8bce6e563a440f277037d812deb33a0f4a13945d898c296, 0x4fe342e2fe1a7f9b8ee7eb4a7c0f9e162bce33576b315ececbb6406837bf51f5)

/-- The constant term of the curve. -/
def b256 : Nat := 0x5ac635d8aa3a93e7b3ebbd55769886bc651d06b0cc53b0f63bce3c3e27d2604b

/-- A power modulo m by the low `k` bits of the exponent. -/
def powMod (m : Nat) : Nat → Nat → Nat → Nat
  | 0, _, _ => 1 % m
  | k + 1, b, x => let r := powMod m k (b * b % m) (x / 2); if x % 2 = 1 then r * b % m else r

/-- The inverse modulo a prime. -/
def invMod (m a : Nat) : Nat := powMod m 256 (a % m) (m - 2)

/-- A point of the curve; none is the point at infinity. -/
abbrev Point := Option (Nat × Nat)

/-- The sum of two points. -/
def addPoint : Point → Point → Point
  | none, q => q
  | p, none => p
  | some (x1, y1), some (x2, y2) =>
    if x1 = x2 ∧ (y1 + y2) % p256 = 0 then none
    else
      let l := if x1 = x2 then (3 * x1 * x1 + (p256 - 3)) * invMod p256 (2 * y1) % p256
        else (y2 + p256 - y1) * invMod p256 (x2 + p256 - x1) % p256
      let x := (l * l + 2 * p256 - x1 - x2) % p256
      some (x, (l * (x1 + p256 - x) + p256 - y1) % p256)

/-- A multiple of a point by the low `k` bits of a scalar. -/
def mulPoint : Nat → Nat → Point → Point
  | 0, _, _ => none
  | k + 1, n, p =>
    let r := mulPoint k (n / 2) (addPoint p p)
    if n % 2 = 1 then addPoint p r else r

/-- The public key of a private key: X and Y. -/
def publicKey (d : Nat) : Nat × Nat := (mulPoint 256 (d % n256) (some g256)).getD (0, 0)

/-- The ECDSA signature of a digest under a private key and a nonce: r and s. -/
def ecdsaSign (d nonce digest : Nat) : Nat × Nat :=
  let r := ((mulPoint 256 (nonce % n256) (some g256)).getD (0, 0)).1 % n256
  (r, invMod n256 (nonce % n256) * (digest + r * d) % n256)

/-- Whether a signature r, s over a digest verifies with a public key. -/
def ecdsaVerify (q : Nat × Nat) (digest : Nat) (sig : Nat × Nat) : Bool :=
  let r := sig.1
  let s := sig.2
  let onCurve := decide (q.1 < p256 ∧ q.2 < p256 ∧ (q.2 * q.2) % p256 = (q.1 * q.1 * q.1 + (p256 - 3) * q.1 + b256) % p256)
  if !onCurve || r = 0 || s = 0 || decide (n256 ≤ r) || decide (n256 ≤ s) then false
  else
    let w := invMod n256 s
    match addPoint (mulPoint 256 (digest % n256 * w % n256) (some g256)) (mulPoint 256 (r * w % n256) (some q)) with
    | some (x, _) => x % n256 == r
    | none => false

end Sys2Proof
end

