-- ==== Sys2Proof/Machine/Buffers.lean ====
section
/-!
DEFINITION. Stream buffers: how a buffer is filled (R265), how its completion is confirmed and reported in ring order (R252, R266,
R276), withdrawal (R279), what a halted ring holds (R280 to R282), STOP (R253).
-/

namespace Sys2Proof.Machine.Engine

/-- Host index arithmetic: the index after `i` on a ring. -/
def nextIdx (e : Engine) (r i : Nat) : Nat := (i + 1) % e.ringSize r

/-- BYTES of a completion with `k` lines (R266). -/
def bytesOf (e : Engine) (n k : Nat) : Nat := if k = 0 then 0 else (k - 1) * e.strideOf n + e.lineLen n

/-- BFLAGS of BUF_DONE (R268). -/
def bflags (e : Engine) (n : Nat) (b : Buf) : Nat :=
  b2n (b.lines.any fun l => l.pageFirst) + 2 * b2n (b.lines.any fun l => l.pageLast) + 4 * b2n (b.lines.any fun l => l.parity)
    + 8 * b2n b.jobEnd + 16 * b2n (b.lines.any fun l => l.defect)
    + 32 * b2n (bitOf (e.rd R.DMA_FAST.word) n && b.confirm == .confirmed && !b.withdrawn) + 64 * b2n b.replayed

/-- BUF_DONE (R266, R268). `k` lines are reported; `nok` says that a status other than OK makes its own non-OK entry. Of a WRITTEN_UNCONFIRMED buffer no byte is
confirmed (R255, R280). One left over from before its ring was enabled afresh is in none of the ring's indices (R237, R252). -/
def bufDone (e : Engine) (n : Nat) (b : Buf) (status k : Nat) (final : Bool) (nok : Option (Nat × Nat × Nat)) : Engine :=
  let ls := b.lines.take k
  let f := ls.head?
  let l := ls.getLast?
  let ent := match nok with
    | some x => some x
    | none => if status = stOk ∨ status = stAborted then none else some (b.hseq, status, if status = stUnconfirmed then 0 else e.bytesOf n k)
  e.emitBk 0x02 n status b.idx (some b.hseq)
    [(24, 8, b.tag), (32, 2, e.bflags n { b with lines := ls }), (36, 4, e.bytesOf n k), (40, 4, k),
     (44, 6, (f.map fun x => x.index).getD 0), (50, 2, (f.map fun x => x.page).getD 0),
     (52, 6, (l.map fun x => x.index).getD 0), (58, 2, (l.map fun x => x.page).getD 0)]
    (.buf (3 + n) (e.nextIdx (3 + n) b.idx) (final && !b.stale) ent)

/-- The pages of a side that still wait for PAGE_END and come before a page (R29). -/
def earlierPages (e : Engine) (s page : Nat) : Bool :=
  let ps := (e.frames.getD s FrameSt.init).pages
  if ps.any fun p => p.no == page then ((ps.takeWhile fun p => p.no != page).length != 0) else false

/-- A buffer's BUF_DONE may be built under R29: no page before its first line's page still waits for PAGE_END. -/
def pageOrderOk (e : Engine) (n : Nat) (b : Buf) : Bool :=
  match b.lines.head? with
  | some l => !e.earlierPages (e.sideOf n) l.page
  | none => true

/-- A buffer whose STAGE bytes are freed: its lines keep what BUF_DONE reports. -/
def freeLines (b : Buf) : Buf := { b with lines := b.lines.map fun l => { l with bytes := [] }, cut := none }

/-- A STREAM_STOP completes once its stream's STAGE bytes are free and PAC_BPM has been recomputed (R262). -/
def checkStop (e : Engine) (n : Nat) : Engine :=
  let s := e.stream n
  if !s.running && !s.halted && filledOf s == 0 && flightOf s == 0
      && (e.opens.any fun c => c.wait == Wait.streamFree n) then
    (e.recalcBpm.recalcCap).finishAll (fun w => w == Wait.streamFree n) stOk []
  else e

/-- The status a replay waits with completes every STREAM_REPLAY of the stream. -/
def replayDone (e : Engine) (n st : Nat) : Engine := e.finishAll (fun w => w == Wait.replay n) st []

/-- A ring in HALTED runs again; one that has left RUN by another row of R242 stays where it is. -/
def unhalt (e : Engine) (n : Nat) : Engine := if e.ringState (3 + n) = 4 then e.setRing (3 + n) 1 else e

/-- After a replay's OK the ring returns to RUN, and every later buffer already begun is to be rewritten from its first line (R281). -/
def resumeReplay (e : Engine) (n : Nat) : Engine :=
  (e.modStream n fun x =>
    { x with halted := false, replaying := false, rw := (0, 0), sent := 0,
             bufs := x.bufs.map fun (b : Buf) => if b.begun then { b with redo := true } else b }).unhalt n

/-- A halt or a discard overtakes a stream's read-backs: what those outstanding bring is of no effect, those not yet issued never are. -/
def forgetReads (e : Engine) (n : Nat) : Engine :=
  let e1 := e.modStream n fun x => { x with rbs := x.rbs.map fun _ => none }
  { e1 with dma := { e1.dma with owed := e1.dma.owed.filter fun r => r.1 != n } }

/-- Complete, in ring order, every buffer at the head of a stream that is confirmed, rejected or has failed (R252, R265, R273, R280):
a failed one completes WRITTEN_UNCONFIRMED, which halts the ring. `fuel` bounds the buffers looked at. -/
def flushDone (e : Engine) (n : Nat) : Nat → Engine
  | 0 => e
  | fuel + 1 =>
    let s := e.stream n
    match s.bufs with
    | [] => e
    | b :: rest =>
      if !e.pageOrderOk n b then e
      else
        let e0 := e.modStream n fun x => { x with bufs := rest }
        match b.confirm with
        | .confirmed =>
          if s.halted && !s.replaying then e
          else
            let e1 := e0.bufDone n b (if b.withdrawn then stPartial else stOk) b.lines.length true none
            let e2 := if b.withdrawn then e1.count R.DMA_WITHDRAW_CNT.V 1 else e1
            flushDone (if s.replaying then e2.resumeReplay n else e2) n fuel
        | .aborted nok =>
          flushDone (e0.bufDone n b stAborted 0 true (nok.map fun x => (x.1, stAborted, x.2))) n fuel
        | .rejected => flushDone (e0.bufDone n b stRejectedParam 0 true none) n fuel
        | .failed err =>
          if b.withdrawn then
            flushDone ((e0.bufDone n b stPartial 0 true none).count R.DMA_WITHDRAW_CNT.V 1) n fuel
          else if s.halted && !s.replaying then e
          else
            let code := match err with | .ur => 1 | .ca => 2 | .poisoned => 3 | .timeout => 4
            let e1 := e.bufDone n b stUnconfirmed b.lines.length false none
            let e2 := (if e1.ringState (3 + n) = 1 then e1.leaveRun (3 + n) 4 else e1).emit 0x16 n 0 b.idx (some b.hseq)
              [(24, 8, b.tag), (32, 4, e.bytesOf n b.lines.length), (36, 1, code)]
            let e3 := e2.modStream n fun x =>
              { x with halted := true, replaying := false }
            e3.forgetReads n
        | _ => e

/-- The commands that a stream's completions have decided: a replay that is over, since the stream stood as in `old`, completes OK, or WRITTEN_UNCONFIRMED where
the ring halted again; then a STREAM_STOP. They come after the buffers (R270). -/
def streamCmds (e : Engine) (n : Nat) (old : Stream) : Engine :=
  let s := e.stream n
  (if old.replaying && !s.replaying then e.replayDone n (if s.halted then stUnconfirmed else stOk) else e).checkStop n

/-- Complete what can be completed of a stream, then the commands that wait on it. -/
def settleStream (e : Engine) (n : Nat) : Engine := (e.flushDone n 1025).streamCmds n (e.stream n)

/-- Complete what can be completed of every stream, lower numbers first, then the commands that wait on them (R270). -/
def settleStreams (e : Engine) : Engine :=
  let e1 := (upTo 16).foldl (fun x n => x.flushDone n 1025) e
  (upTo 16).foldl (fun x n => x.streamCmds n (e.stream n)) e1

/-! ### Filling -/

/-- The first cached buffer of a stream that takes lines: not yet closed. -/
def openBuf (s : Stream) : Option Buf := s.bufs.find? fun b => b.confirm == .writing

/-- Change the first buffer of a list that satisfies a test. -/
def modFirst (p : Buf → Bool) (f : Buf → Buf) : List Buf → List Buf
  | [] => []
  | b :: t => if p b then f b :: t else b :: modFirst p f t

/-- Change the first buffer that takes lines. -/
def modOpenBuf (s : Stream) (f : Buf → Buf) : Stream :=
  { s with bufs := modFirst (fun b => b.confirm == .writing) f s.bufs }

/-- Descriptors that cannot take a line complete REJECTED_PARAM with 0 bytes when their turn comes (R265). -/
def badDesc (e : Engine) (n : Nat) (b : Buf) : Bool :=
  b.bad || decide (b.len < e.lineLen n) || decide (268435456 < b.len)

/-- Read-backs outstanding over all channels (R272). -/
def rbOut (e : Engine) : Nat :=
  sumNat (e.streams.map fun s => s.rbs.length)
    + (e.dma.work.filter fun w => match w with | .fill _ _ _ _ _ _ rb => rb | _ => false).length

/-- Reads of the DMA engine's channels outstanding, its read-backs among them (R272). -/
def dmaReads (e : Engine) : Nat :=
  e.rbOut + sumNat (e.dma.work.map fun w => match w with
    | .fill .. => 0
    | .spent n => n
    | .bank _ _ _ _ _ _ _ r => r.length
    | .compare _ _ _ _ _ _ r _ _ _ _ => r.length)

/-- Reads outstanding on the link: the engine's and the rings' fetches. -/
def readsOut (e : Engine) : Nat := e.dmaReads + sumNat (e.rings.map fun r => r.fetches.length)

/-- A stream channel has work: a rewrite to do, or a line in STAGE and a descriptor to take it; not while its ring is halted without a
replay, nor while a buffer of it has failed and the halt only waits for the order of R29 (R280). -/
def streamReady (e : Engine) (n : Nat) : Bool :=
  let s := e.stream n
  (!s.halted || s.replaying)
    && (s.replaying || !s.bufs.any fun b => !b.withdrawn && match b.confirm with | .failed _ => true | _ => false)
    && (s.bufs.any (fun b => b.redo)
      || (!s.replaying && s.stage.head?.any (fun l => l.committed) && (openBuf s).isSome))
    && !e.on R.QDR_STATUS.HALT

/-- A DMA burst or a read-back is outstanding (R272): a read of the engine's, or a burst whose data DMA_RD is reading. -/
def dmaBusy (e : Engine) : Bool := e.dmaReads != 0 || e.dma.reading.any fun r => e.streamReady r.1

/-- Most reads outstanding (R230). -/
def readMax (e : Engine) : Nat := if e.link.extTags || e.link.tags10 then 256 else 32

/-- One more read request may go out (R230 to R232). -/
def canRead (e : Engine) : Bool := e.canIssue && decide (e.readsOut < e.readMax)

/-- The read-back of a buffer goes out. -/
def issueReadback (e : Engine) (n idx addr : Nat) : Engine :=
  (e.issueRead addr 4 (.readback n)).modStream n fun s => { s with rbs := s.rbs ++ [some idx] }

/-- One more read-back may go out: a read request, and no more than 16 read-backs together (R230, R272). -/
def canReadback (e : Engine) : Bool := e.canRead && decide (e.rbOut < 16)

/-- The oldest read-back that could not be issued when its buffer closed goes out as soon as it may. -/
def issueOwed (e : Engine) : Engine :=
  match e.dma.owed with
  | r :: t => if e.canReadback then ({ e with dma := { e.dma with owed := t } } : Engine).issueReadback r.1 r.2.1 r.2.2 else e
  | [] => e

/-- A buffer's last write has been issued (R276, R277): a read-back of the DW that holds its last byte, unless its stream completes
fast and it was not withdrawn. Where no read-back may go out, it follows when one may (log 46). -/
def closeBuf (e : Engine) (n : Nat) (b : Buf) (lastByte : Nat) (jobEnd withdrawn : Bool) : Engine :=
  let fast := bitOf (e.rd R.DMA_FAST.word) n && !withdrawn
  let e1 := e.modStream n fun s =>
    { s with bufs := modFirst (fun x => x.idx == b.idx) (fun x =>
      { x with confirm := (if fast then Confirm.fast else Confirm.readback), jobEnd := jobEnd, withdrawn := withdrawn }) s.bufs }
  if fast then e1
  else if e.dma.owed.isEmpty && e.canReadback then e1.issueReadback n b.idx (lastByte / 4 * 4)
  else { e1 with dma := { e1.dma with owed := e1.dma.owed ++ [(n, b.idx, lastByte / 4 * 4)] } }

/-- PADM = FILL (R142). -/
def padFill (e : Engine) (n : Nat) : Bool := e.rd (R.STR_CFG.PADM n) == 1

/-- Host address after line k − 1 of a buffer (its start for k = 0): where what `sent` counts begins. With PADM = SKIP it is line k's
own start. -/
def unitStart (e : Engine) (n : Nat) (b : Buf) (k : Nat) : Nat :=
  if k = 0 then b.addr
  else if e.padFill n then b.addr + (k - 1) * e.strideOf n + e.lineLen n
  else b.addr + k * e.strideOf n

/-- Padding bytes before line k of a buffer (R275). -/
def padBefore (e : Engine) (n k : Nat) : Nat :=
  if k = 0 then 0 else if e.padFill n then e.strideOf n - e.lineLen n else 0

/-- Host address of the last byte written into a buffer. -/
def lastByte (e : Engine) (n : Nat) (b : Buf) (sent : Nat) : Nat :=
  let k := b.lines.length
  if 0 < sent then e.unitStart n b k + sent - 1
  else b.addr + (k - 1) * e.strideOf n + e.lineLen n - 1

/-- A stream with nothing more to come (R265): its begun buffer closes once no line of it waits in STAGE and none of its lines is to be rewritten. -/
def closeEnding (e : Engine) (n : Nat) : Engine :=
  let s := e.stream n
  match s.ending with
  | none => e
  | some job =>
    if !s.stage.isEmpty || s.halted || (openBuf s).any (fun b => b.redo) then e
    else
      let e1 := e.modStream n fun x => { x with ending := none }
      match openBuf s with
      | some b => if b.begun then e1.closeBuf n b (e.lastByte n b s.sent) job false else e1
      | none => e1

/-- Withdraw a stream part-way through a buffer (R279): lines not begun are discarded, the line in progress is cut (one of which only the padding before it was
sent is not begun), the read-back of the last byte written is issued. A buffer that has received no write stays cached. A closed buffer that a replay would yet
have rewritten is given up in the same way: its bytes stand as the writes before the halt left them (DESIGN CHOICE,
log 165). -/
def withdraw (e : Engine) (n : Nat) : Engine :=
  let s := e.stream n
  let clear (x : Stream) : Stream := { x with stage := [], sent := 0, waited := false, ending := none, rw := (0, 0) }
  let again := s.bufs.filter fun b => b.redo && b.confirm != .writing
  let e0 := again.foldl (fun x b =>
    (x.modStream n fun y => { y with bufs := modFirst (fun c => c.idx == b.idx) (fun c => { c with redo := false }) y.bufs }).closeBuf n b
      (if b.lines.isEmpty then b.addr else e.lastByte n b 0) false true) e
  match openBuf s with
  | some b =>
    if b.begun then
      let cut := if e.padBefore n b.lines.length < s.sent then s.stage.head? else none
      let e1 := e0.modStream n fun x => clear (modOpenBuf x fun b => { b with cut := cut, redo := false })
      e1.closeBuf n b (e.lastByte n b s.sent) false true
    else e0.modStream n clear
  | none => e0.modStream n clear

/-- Discard what a halted ring holds (R282): the halted buffer and every later one that received writes complete ABORTED with 0
bytes, each with an entry in the non-OK history, in the order of R29; their bytes and the stream's lines in STAGE are freed; the ring runs again. A job-end buffer
that ends so carries no job end (R268). -/
def discardHalted (e : Engine) (n : Nat) : Engine :=
  let s := e.stream n
  let gone (b : Buf) : Buf := if b.begun then { b with confirm := .aborted (some (b.hseq, 0)), redo := false, jobEnd := false } else b
  let e1 := e.modStream n fun x =>
    { x with bufs := s.bufs.map gone, stage := [], sent := 0, waited := false, halted := false, replaying := false,
             ending := none }
  (((e1.forgetReads n).unhalt n).flushDone n 1025).replayDone n stAborted

/-- The stream stops running; nothing more is formatted for it. -/
def stopStream (e : Engine) (n : Nat) : Engine :=
  e.modStream n fun s => { s with running := false, waitFrame := false, joined := false, stopPage := false }

/-- STOP or EN = 0 on a stream ring (R253): the stream stops as STREAM_STOP NOW does; every cached descriptor without a final completion, closed ones that await
their proof among them, completes ABORTED with 0 bytes; one entry in the non-OK history names the first of them and their count. A buffer with writes under way is
withdrawn first and completes PARTIAL (R279). -/
def stopRing (e : Engine) (n : Nat) : Engine :=
  let s0 := e.stream n
  let e1 := if s0.halted then e else e.withdraw n
  let e2 := ((e1.stopStream n).recalcBpm).recalcCap
  let s := e2.stream n
  let ended (b : Buf) : Bool := match b.confirm with | .aborted _ => true | _ => false
  let goes (b : Buf) : Bool := !ended b && (s.halted || !b.withdrawn)
  let gone := s.bufs.filter goes
  let first := (gone.head?.map fun b => b.hseq).getD 0
  let last := gone.getLast?.map fun b => b.idx
  let mark (b : Buf) : Buf :=
    if goes b then { b with confirm := .aborted (if some b.idx = last then some (first, gone.length) else none), redo := false, jobEnd := false } else b
  let lost (i : Nat) : Bool := gone.any fun b => b.idx == i
  let e3 := e2.modStream n fun x =>
    { x with bufs := s.bufs.map mark, stage := [], sent := 0, waited := false, halted := false, replaying := false, ending := none,
             rbs := x.rbs.map fun r => r.filter fun i => !lost i }
  let e4 : Engine := { e3 with dma := { e3.dma with owed := e3.dma.owed.filter fun r => !(r.1 == n && lost r.2.1) } }
  ((e4.flushDone n 1025).replayDone n stAborted).checkStop n

end Sys2Proof.Machine.Engine
end

