-- ==== Sys2Proof/Machine/Memory.lean ====
section
/-!
DEFINITION. Staging memory as its readers and writers see it: interleave (R190), regions (R191), bytes with their parity (R195), and
what a parity error does.
-/

namespace Sys2Proof.Machine

/-- What an unlisted byte of staging memory reads as: 0 (DESIGN CHOICE, log 6). -/
def stgByte : Nat → Byte := fun _ => 0

/-- What an unlisted parity mark reads as: good. -/
def stgGood : Nat → Bool := fun _ => false

namespace Staging

/-- The byte at a staging address. -/
def byte (m : Staging) (sa : Nat) : Byte := Sparse.get stgByte m.bytes sa

/-- Whether the byte at a staging address has bad parity. -/
def isBad (m : Staging) (sa : Nat) : Bool := Sparse.get stgGood m.bad sa

/-- Write a byte with good parity. -/
def put (m : Staging) (sa : Nat) (b : Byte) : Staging :=
  ⟨Sparse.set stgByte m.bytes sa b, Sparse.set stgGood m.bad sa false⟩

/-- A fault of the memory: the byte at an address reads with bad parity from now on. -/
def spoil (m : Staging) (sa : Nat) : Staging := { m with bad := Sparse.set stgGood m.bad sa true }

/-- Write bytes at consecutive addresses; a byte that is not enabled stays. -/
def putMany (m : Staging) (sa : Nat) : List (Option Byte) → Staging
  | [] => m
  | some b :: t => putMany (m.put sa b) (sa + 1) t
  | none :: t => putMany m (sa + 1) t

/-- Read bytes at consecutive addresses. -/
def read (m : Staging) (sa n : Nat) : List Byte := (upTo n).map fun i => m.byte (sa + i)

/-- The canonical form of both stores. -/
def wf (m : Staging) : Bool := Sparse.wf stgByte m.bytes && Sparse.wf stgGood m.bad

end Staging

namespace Engine

/-- Dies mapped in, in ascending number. -/
def dieList (e : Engine) : List Nat := (upTo 8).filter fun d => bitOf (e.rd R.QDR_STATUS.MAP) (d / 2)

/-- Mapped-in capacity: 16 MiB of data a die (R189). -/
def capacity (e : Engine) : Nat := 16777216 * e.dieList.length

/-- The die that holds a staging address (R190). -/
def dieOf (e : Engine) (sa : Nat) : Nat := e.dieList.getD (sa / 256 % max 1 e.dieList.length) 0

/-- Base of the STAGE region: 8 MiB (R191). -/
def stageBase : Nat := 8388608

/-- A read of staging found a byte with bad parity (R195): counted, recorded, and FAULT at the die's first since the pass began. -/
def parityError (e : Engine) (sa req : Nat) : Engine :=
  let d := e.dieOf sa
  let e1 := (((e.count R.QDR_PERR_CNT.V 1).wr R.QDR_PERR_ADDR.V (sa / 32 * 32)).wr R.QDR_PERR_SRC.PORT (8 + d)).wr R.QDR_PERR_SRC.REQ req
  if e.qdr.raised.contains d then e1
  else ({ e1 with qdr := { e1.qdr with raised := e1.qdr.raised ++ [d] } }).fault 0x0D d 2 0 [(24, 4, sa / 32 * 32)]

/-- Staging memory can be used: powered, at least one pair mapped in, not halted (R197, R204). -/
def stagingLive (e : Engine) : Bool := !e.on R.QDR_STATUS.HALT && !e.modeIn [0, 1, 2] && !e.dieList.isEmpty

end Engine

end Sys2Proof.Machine
end

