-- ==== Sys2Proof/Machine/Qdr.lean ====
section
/-!
DEFINITION. The staging memory's arbiters, watchdog, scrubber and diagnostic window (09_qdr_arbitration.md).
-/

namespace Sys2Proof.Machine

namespace Engine

/-! ### Ports -/

/-- A port's arbiter. -/
def port (e : Engine) (p : Nat) : PortSt := e.qdr.ports.getD p PortSt.init

/-- Change a port's arbiter. -/
def modPort (e : Engine) (p : Nat) (f : PortSt → PortSt) : Engine :=
  { e with qdr := { e.qdr with ports := modAt e.qdr.ports p f } }

/-- The input of a requester code under a port's rank map (R198, R201). -/
def inputOf (e : Engine) (p code : Nat) : Nat :=
  match code with
  | 0 => e.rd (R.ARB_RANKMAP.IN0 p)
  | 1 => e.rd (R.ARB_RANKMAP.IN1 p)
  | 2 => e.rd (R.ARB_RANKMAP.IN2 p)
  | _ => e.rd (R.ARB_RANKMAP.IN3 p)

/-- A requester of a port has a request raised. -/
def raisedAt (a : PortSt) (code : Nat) : Bool := !(a.bursts.getD code []).isEmpty

/-- A burst of one kind still stands at a port. -/
def standing (e : Engine) (p : BurstFor → Bool) : Bool := e.qdr.ports.any fun q => q.bursts.any fun l => l.any fun b => p b.what

/-- Words that the WQ of an A port or the RQ of a B port holds (R223, R224): of every requester's oldest burst its write data, committed there before the request
is raised, or the words read so far. The queue has room for one burst of each requester; later ones wait with their requester (DESIGN CHOICE, log 140). -/
def portWords (e : Engine) (p : Nat) : Nat :=
  let a := e.port p
  sumNat ((upTo 4).map fun c =>
    match (a.bursts.getD c []).head? with
    | some b => if p < 8 then b.txns else if 0 < a.tenures.getD c 0 then a.txns.getD c 0 else 0
    | none => 0)

/-- LEVEL and HWM of a port's queue follow (R223). -/
def showPort (e : Engine) (p : Nat) : Engine := e.level (80 + p) (e.portWords p)

/-- The requester with a request raised at the highest input. -/
def highest (e : Engine) (p : Nat) : Option Nat :=
  let a := e.port p
  ([3, 2, 1, 0] : List Nat).findSome? fun i => (upTo 4).find? fun c => e.inputOf p c == i && raisedAt a c

/-- Change the live counters of an input. -/
def modLive (e : Engine) (p i : Nat) (f : PortCount → PortCount) : Engine :=
  e.modPort p fun a => { a with live := modAt a.live i f }

/-- Port p serves a die that is mapped in. -/
def portIn (e : Engine) (p : Nat) : Bool := e.dieList.contains (p % 8)

/-- SLOT mode (R203). -/
def slotMode (e : Engine) (p : Nat) : Bool := e.on (R.ARB_CTRL.MODE p)

/-- Owner of a slot: 0 to 3 a requester code, 4 FREE. -/
def slotOwner (e : Engine) (p j : Nat) : Nat := (e.word (R.ARB_SLOT.OWN0 p (j / 8)).off).toNat / 16 ^ (j % 8) % 8

/-! ### BAR4 completions (R197) -/

/-- A BAR4 read is answered. -/
def bar4Answer (e : Engine) (d : Bar4Done) : Engine :=
  ({ e with qdr := { e.qdr with bar4Done := e.qdr.bar4Done ++ [d] } } : Engine).passes 96 (beats d.data.length)

/-- A BAR4 access fails: a read is answered with Completer Abort, a write is discarded; each is counted. -/
def bar4Fail (e : Engine) (id : Nat) (write : Bool) : Engine :=
  if write then e.count R.QDR_HOST_DROP_CNT.V 1
  else (e.bar4Answer ⟨id, true, false, []⟩).count R.QDR_HOST_ABORT_CNT.V 1

/-- A burst of a BAR4 access has issued its last transaction: the access completes with its last burst. -/
def bar4Finish (e : Engine) (id : Nat) : Engine :=
  match e.qdr.bar4.find? fun a => a.id == id with
  | some a =>
    if a.left ≤ 1 then
      let e1 := { e with qdr := { e.qdr with bar4 := e.qdr.bar4.filter fun x => x.id != id } }
      if a.write then e1
      else
        let data := (upTo a.len).map fun i => ((a.got.find? fun g => g.1 == a.addr + i).map fun g => g.2).getD 0
        ({ e1 with rsp := data }).bar4Answer ⟨id, false, a.poisoned.any fun x => decide (a.addr ≤ x ∧ x < a.addr + a.len), data⟩
    else { e with qdr := { e.qdr with bar4 := e.qdr.bar4.map fun x => if x.id = id then { x with left := x.left - 1 } else x } }
  | none => e

/-- Change a BAR4 access. -/
def modBar4 (e : Engine) (id : Nat) (f : Bar4Acc → Bar4Acc) : Engine :=
  { e with qdr := { e.qdr with bar4 := e.qdr.bar4.map fun x => if x.id = id then f x else x } }

/-! ### The scrubber (R196) -/

/-- Granules of 256 bytes mapped in. -/
def granules (e : Engine) : Nat := e.capacity / 256

/-- Interval between scrub requests in ns: 10 s over the granules. -/
def scrubStep (e : Engine) : Nat := 10000000000 / max 1 e.granules

/-- A granule has been read: the next one is due; the last one ends the pass. -/
def scrubbed (e : Engine) : Engine :=
  if e.qdr.scrubNext + 1 < e.granules then { e with qdr := { e.qdr with scrubNext := e.qdr.scrubNext + 1 } }
  else
    let ns := e.now - e.qdr.passStart
    let e1 := { e with qdr := { e.qdr with scrubNext := 0, passStart := e.now, raised := [] } }
    ((e1.count R.QDR_SCRUB_PASS.V 1).wr R.QDR_SCRUB_LAST.V (min (ns / 1000000) 0xFFFFF)).wr R.QDR_STATUS.SCRUB_LATE
      (b2n (decide (20000000000 < ns)))

/-! ### The work of the command channel (R284, R285) -/

/-- Replace the work at the head of the command channel. -/
def setWork (e : Engine) (w : Option DmaWork) : Engine :=
  { e with dma := { e.dma with work := w.toList ++ e.dma.work.drop 1 } }

/-- Complete an open command by its HSEQ. -/
def finishHseq (e : Engine) (hseq status : Nat) (result : List LayField) : Engine :=
  match e.opens.find? fun c => c.hseq == hseq && c.wait != Wait.built with
  | some c => e.finish c status result
  | none => e

/-- A command whose read failed is over: completions of its other reads, still outstanding, are of no effect. -/
def overWork (e : Engine) (reads : List Nat) : Engine := e.setWork (if reads.isEmpty then none else some (.spent reads.length))

/-- RESULT of a COMPARE. -/
def compareResult (fb : Option Nat) (n : Nat) : List LayField := [(40, 4, fb.getD 0xFFFFFFFF), (44, 4, n)]

/-- Bytes compared with staging bytes from an offset of the range on (R284): the first mismatch and their number. A byte with bad parity is one (R195). -/
def compareBytes (m : Staging) (sa off : Nat) : List Byte → Option Nat × Nat → Option Nat × Nat
  | [], acc => acc
  | b :: t, (fb, n) =>
    let miss := m.isBad (sa + off) || decide (b ≠ m.byte (sa + off))
    let sooner := match fb with | some x => decide (off < x) | none => true
    compareBytes m sa (off + 1) t (if miss && sooner then some off else fb, n + b2n miss)

/-- The COMPARE at the head of the command channel completes once every byte it got is compared (R284). -/
def compareOver (e : Engine) : Engine :=
  match e.dma.work.head? with
  | some (.compare h _ _ len _ got reads fb n thr failed) =>
    if failed ∧ thr = got then (e.overWork reads).finishHseq h stHostReadError (compareResult fb n)
    else if !failed ∧ thr = len then (e.setWork none).finishHseq h (if n = 0 then stOk else stCompareMismatch) (compareResult fb n)
    else e
  | _ => e

/-- A SVC_RD burst of a COMPARE is through: of the host bytes `data` from offset `off` of the range on, those it covers are compared. -/
def compareBurst (e : Engine) (m : Staging) (b : Burst) (hseq sa off : Nat) (data : List Byte) : Engine :=
  match e.dma.work.head? with
  | some (.compare h addr sa' len asked got reads fb n thr failed) =>
    if h = hseq then
      let lo := max b.addr (sa + off)
      let hi := min (b.addr + 32 * b.txns) (sa + off + data.length)
      let part := sliceBytes data (lo - (sa + off)) (hi - lo)
      let res := compareBytes m sa (lo - sa) part (fb, n)
      (e.setWork (some (.compare h addr sa' len asked got reads res.1 res.2 (thr + part.length) failed))).compareOver
    else e
  | _ => e

/-! ### Transactions -/

/-- What a transaction does to the data: a write stores its enabled bytes; a read checks all 32 bytes (R195) and gives them to BAR4 (what a burst read before
it was revoked is discarded, R200). An aligned line and a DMA burst take theirs once the last of their bursts is through (log 139). A word of TABLES read with bad
parity reaches its consumer with a poison tag. `bad` names the bytes of the piece found with bad parity. -/
def transact (e : Engine) (m : Staging) (p code : Nat) (b : Burst) (t : Nat) (bad : List Nat) : Engine × Staging :=
  let sa := b.addr + 32 * t
  if p < 8 then (e, m.putMany sa ((b.data.drop (32 * t)).take 32))
  else
    let m1 := (bad.filter fun i => decide (i < 32)).foldl (fun x i => x.spoil (sa + i)) m
    let worse := (upTo 32).filter fun i => m1.isBad (sa + i)
    let e1 := worse.foldl (fun x i => x.parityError (sa + i) code) e
    match b.what with
    | .scrub => (e1.count R.QDR_SCRUB_ERR_CNT.V worse.length, m1)
    | .host id =>
      (e1.modBar4 id fun a =>
        { a with got := (a.got.filter fun g => decide (g.1 < sa ∨ sa + 32 ≤ g.1)) ++ ((upTo 32).map fun i => (sa + i, m1.byte (sa + i))),
                 poisoned := (a.poisoned.filter fun x => decide (x < sa ∨ sa + 32 ≤ x)) ++ worse.map fun i => sa + i }, m1)
    | _ =>
      let table := decide (code = 1 ∧ e.rd R.QDR_TABLES_BASE.V ≤ sa ∧ sa < e.rd R.QDR_SVC_BASE.V ∧ worse ≠ [])
      (if table then e1.count (R.QUE_POISON.V (80 + p)) 1 else e1, m1)

/-- The first transaction of a grant: a BAR4 access has one burst fewer to wait for (R197). -/
def noteGrant (e : Engine) (p code : Nat) : Engine :=
  match ((e.port p).bursts.getD code []).head? with
  | some b =>
    let e1 := match b.what with
      | .host id => if b.granted then e else e.modBar4 id fun a => { a with waiting := a.waiting - 1 }
      | _ => e
    e1.modPort p fun a => { a with bursts := modAt a.bursts code fun l => modAt l 0 fun x => { x with granted := true } }
  | none => e

/-- A requester issues its next transaction; with the last one of the burst its request is lowered and its tenure ends, but for one that has exceeded the
limit, which the watchdog catches (R204). -/
def issueTxn (e : Engine) (m : Staging) (p code : Nat) (bad : List Nat) : Engine × Staging :=
  let a := e.port p
  match (a.bursts.getD code []).head? with
  | some b =>
    let t := a.txns.getD code 0
    let r := e.transact m p code b t bad
    if b.txns ≤ t + 1 then
      let e1 := r.1.modPort p fun x =>
        { x with bursts := modAt x.bursts code fun l => l.drop 1, txns := modAt x.txns code fun _ => t + 1,
                 tenures := modAt x.tenures code fun n => if e.rd R.ARB_WDOG_LIMIT.V < n then n else 0 }
      (match b.what with
        | .host id => e1.bar4Finish id
        | .scrub => e1.scrubbed
        | .compare h sa off data => e1.compareBurst r.2 b h sa off data
        | _ => e1, r.2)
    else (r.1.modPort p fun x => { x with txns := modAt x.txns code fun _ => t + 1 }, r.2)
  | none => (e, m)

/-- Wait cycles of every input with a request raised, but for the requester served in the slot (R205). -/
def tallyWaits (e : Engine) (p : Nat) (served : Option Nat) : Engine :=
  (upTo 4).foldl (fun x c =>
    let i := x.inputOf p c
    if some c = served then x.modLive p i fun k => { k with run := 0 }
    else if raisedAt (x.port p) c then
      x.modLive p i fun k =>
        { k with waits := satAdd (2 ^ 48 - 1) k.waits 1, run := k.run + 1, maxWait := max k.maxWait (min (k.run + 1) 0xFFFFF) }
    else x.modLive p i fun k => { k with run := 0 }) e

/-- A requester is granted: counted at its input, tenure from this slot on. -/
def grantTo (e : Engine) (p code : Nat) : Engine :=
  let e1 := (e.noteGrant p code).modPort p fun a =>
    { a with owner := code, granted := true, tenures := modAt a.tenures code fun _ => 1, txns := modAt a.txns code fun _ => 0 }
  e1.modLive p (e1.inputOf p code) fun k => { k with grants := satAdd (2 ^ 32 - 1) k.grants 1 }

/-- Tenure moves on by a slot. -/
def addTenure (e : Engine) (p code : Nat) : Engine :=
  e.modPort p fun a => { a with tenures := modAt a.tenures code fun t => t + 1 }

/-- One slot of NATIVE arbitration (R199, R200). -/
def nativeSlot (e : Engine) (m : Staging) (p : Nat) (bad : List Nat) : Engine × Staging :=
  let a := e.port p
  let holds := a.granted && raisedAt a a.owner && decide (0 < a.tenures.getD a.owner 0)
  match e.highest p with
  | none => (e.tallyWaits p none |>.modPort p fun x => { x with granted := false }, m)
  | some c =>
    if holds then
      if e.inputOf p a.owner < e.inputOf p c then
        let e1 := (e.modPort p fun x =>
          { x with txns := modAt x.txns a.owner fun _ => 0, tenures := modAt x.tenures a.owner fun _ => 0 }).modLive p
            (e.inputOf p a.owner) fun k => { k with preempts := satAdd (2 ^ 32 - 1) k.preempts 1 }
        ((e1.grantTo p c).tallyWaits p (some c), m)
      else ((e.addTenure p a.owner).tallyWaits p (some a.owner)).issueTxn m p a.owner bad
    else
      let e1 := (e.grantTo p c).tallyWaits p (some c)
      if c = a.owner then e1.issueTxn m p c bad else (e1, m)

/-- One slot of SLOT mode (R203). -/
def tableSlot (e : Engine) (m : Staging) (p : Nat) (bad : List Nat) : Engine × Staging :=
  let a := e.port p
  let own := e.slotOwner p a.slot
  let pick := if own < 4 ∧ raisedAt a own then some own else e.highest p
  let e0 := e.modPort p fun x => { x with slot := (a.slot + 1) % max 1 (e.rd (R.ARB_CTRL.SLOT_LEN p)) }
  -- a burst begun has its tenure move on in every slot
  let e1 := (upTo 4).foldl (fun x c => if decide (0 < a.tenures.getD c 0) then x.addTenure p c else x) e0
  match pick with
  | some c =>
    let e2 := if a.tenures.getD c 0 = 0 then ((e1.noteGrant p c).addTenure p c).modPort p fun x => { x with txns := modAt x.txns c fun _ => 0 } else e1
    let e3 := e2.modPort p fun x => { x with owner := c, granted := true }
    let e4 := e3.modLive p (e3.inputOf p c) fun k => { k with grants := satAdd (2 ^ 32 - 1) k.grants 1 }
    (e4.tallyWaits p (some c)).issueTxn m p c bad
  | none => ((e1.tallyWaits p none).modPort p fun x => { x with granted := false }, m)

/-- The requester whose tenure at a port exceeds ARB_WDOG_LIMIT (R204). -/
def overTenure (e : Engine) (p : Nat) : Option Nat :=
  (upTo 4).find? fun c => decide (e.rd R.ARB_WDOG_LIMIT.V < (e.port p).tenures.getD c 0)

/-- One slot of a port arbiter; none grants under HALT, nor from the slot after a tenure exceeds the limit (R204). -/
def arbSlot (e : Engine) (m : Staging) (p : Nat) (bad : List Nat) : Engine × Staging :=
  if !e.stagingLive || !e.portIn p || (upTo 16).any (fun q => (e.overTenure q).isSome) then (e, m)
  else
    let r := if e.slotMode p then e.tableSlot m p bad else e.nativeSlot m p bad
    (r.1.showPort p, r.2)

/-! ### Requests -/

/-- Raise a burst at a port. -/
def raiseBurst (e : Engine) (p code : Nat) (b : Burst) : Engine :=
  (e.modPort p fun a => { a with bursts := modAt a.bursts code fun l => l ++ [b] }).showPort p

/-- Whether a requester addresses a region (R198): LINE_WR and ALIGN_RD EDDY, STAGE_WR and DMA_RD STAGE, the rest everywhere. -/
def regionOk (e : Engine) (code sa len : Nat) : Bool :=
  match code with
  | 3 => decide (sa + len ≤ stageBase)
  | 2 => decide (stageBase ≤ sa ∧ sa + len ≤ stageBase + e.rd R.QDR_STAGE_SIZE.V)
  | _ => decide (sa + len ≤ e.capacity)

/-- The 32-byte pieces of a range, gathered into bursts of one granule (R197): address and transactions of each. -/
def splitBursts (lo hi : Nat) : Nat → List (Nat × Nat)
  | 0 => []
  | fuel + 1 =>
    if hi ≤ lo then []
    else
      let top := min hi ((lo / 256 + 1) * 256)
      (lo / 32 * 32, (top + 31) / 32 - lo / 32) :: splitBursts top hi fuel

/-- Enabled bytes of a burst out of those of a whole access. -/
def burstData (addr : Nat) (data : List (Option Byte)) (b : Nat × Nat) : List (Option Byte) :=
  (List.replicate (addr - b.1) none ++ data.drop (b.1 - addr)).take (32 * b.2)

/-- A requester raises the bursts of a range, writes (with their bytes) or reads, each at its die's port. -/
def raiseRange (e : Engine) (write : Bool) (code addr len : Nat) (data : List (Option Byte)) (what : BurstFor) : Engine :=
  (splitBursts addr (addr + len) (len + 1)).foldl (fun x b =>
    x.raiseBurst ((if write then 0 else 8) + e.dieOf b.1) code ⟨b.1, b.2, if write then burstData addr data b else [], what, false⟩) e

/-- The address in staging memory of an offset in STAGE, which wraps (R278). -/
def stagePlace (e : Engine) (off : Nat) : Nat := stageBase + off % max 1 (e.rd R.QDR_STAGE_SIZE.V)

/-- The bursts of `len` bytes at an offset in STAGE: those up to its end, then those from its base. -/
def raiseStage (e : Engine) (write : Bool) (off len : Nat) (data : List (Option Byte)) (what : BurstFor) : Engine :=
  let sa := e.stagePlace off
  let n := min len (stageBase + e.rd R.QDR_STAGE_SIZE.V - sa)
  (e.raiseRange write 2 sa n (data.take n) what).raiseRange write 2 stageBase (len - n) (data.drop n) what

/-- A BAR4 access (R197): refused at once, or split into bursts raised at their dies' ports as HOST_RD or HOST_WR. -/
def bar4Access (e : Engine) (addr len : Nat) (write : Bool) (data : List (Option Byte)) : Engine :=
  let id := e.qdr.nextBar4
  let e1 := ({ e with qdr := { e.qdr with nextBar4 := id + 1 } } : Engine).passes 97 (beats data.length)
  if !e.stagingLive || decide (e.capacity < addr + len) || (write && !e.modeIn [3, 11]) then e1.bar4Fail id write
  else if len = 0 then (if write then e1 else e1.bar4Answer ⟨id, false, false, []⟩)
  else
    let k := (splitBursts addr (addr + len) (len + 1)).length
    let e2 := { e1 with qdr := { e1.qdr with bar4 := e1.qdr.bar4 ++ [(⟨id, e.now, addr, len, write, k, k, [], []⟩ : Bar4Acc)] } }
    e2.raiseRange write 0 addr len data (.host id)

/-- A BAR4 access in progress fails; its requests are withdrawn. -/
def bar4Drop (e : Engine) (a : Bar4Acc) : Engine :=
  let e1 := { e with qdr := { e.qdr with
    bar4 := e.qdr.bar4.filter fun y => y.id != a.id
    ports := e.qdr.ports.map fun (q : PortSt) =>
      let drop := (q.bursts.getD 0 []).head?.any fun (b : Burst) => b.what == BurstFor.host a.id
      { q with bursts := modAt q.bursts 0 (fun (l : List Burst) => l.filter fun (b : Burst) => b.what != BurstFor.host a.id),
               txns := (if drop then modAt q.txns 0 fun _ => 0 else q.txns),
               tenures := (if drop then modAt q.tenures 0 fun _ => 0 else q.tenures) } } }
  ((upTo 16).foldl (fun (x : Engine) p => x.showPort p) e1).bar4Fail a.id a.write

/-- BAR4 accesses not granted within HOST_TMO µs fail (R197). -/
def bar4Timeout (e : Engine) : Engine :=
  (e.qdr.bar4.filter fun a => decide (0 < a.waiting ∧ a.time + 1000 * e.rd R.QDR_CTRL.HOST_TMO ≤ e.now)).foldl (fun x a => x.bar4Drop a) e

/-! ### Counters (R205) -/

/-- Every live counter of all ports is copied into its shadow. -/
def arbSnapAll (e : Engine) : Engine :=
  (upTo 16).foldl (fun x p => (upTo 4).foldl (fun y i =>
    let k := (y.port p).live.getD i PortCount.zero
    ((((y.wr (R.ARB_GRANTS.V p i) k.grants).wrPair (R.ARB_WAITCYC_LO.V p i) (R.ARB_WAITCYC_HI.V p i) k.waits).wr
      (R.ARB_MAXWAIT.V p i) k.maxWait).wr (R.ARB_PREEMPT.V p i) k.preempts)) x) e

/-- Every live counter of all ports is cleared. -/
def arbClrAll (e : Engine) : Engine :=
  { e with qdr := { e.qdr with ports := e.qdr.ports.map fun (q : PortSt) => { q with live := List.replicate 4 PortCount.zero } } }

/-- ARB_STAT_CTRL: with both bits the snapshot comes before the clear. -/
def arbStat (e : Engine) (snap clr : Bool) : Engine :=
  let e1 := if snap then e.arbSnapAll else e
  if clr then e1.arbClrAll else e1

/-- ARBp_RANKMAP (R201): a value in which two requesters name one input is ignored and sets MAP_ERR. -/
def setRankmap (e : Engine) (p v : Nat) : Engine :=
  let f (k : Nat) : Nat := v / 4 ^ k % 4
  if ([f 0, f 1, f 2, f 3] : List Nat).Nodup then e.wr ⟨(R.ARB_RANKMAP.word p).off, 7, 0⟩ v
  else e.wr (R.ARB_STATE.MAP_ERR p) 1

/-- ARB_RANKMAP_BCAST (R202). -/
def setRankmaps (e : Engine) (value : Word) : Engine :=
  let v := R.ARB_RANKMAP_BCAST.MAP.get value
  (upTo 16).foldl (fun x p =>
    if (p < 8 ∧ R.ARB_RANKMAP_BCAST.SELA.get value = 1) ∨ (8 ≤ p ∧ R.ARB_RANKMAP_BCAST.SELB.get value = 1) then x.setRankmap p v
    else x) e

/-- QDR_MAP_REQ (R192): stored in flash for the next boot; 0xF is ignored. -/
def setMapReq (e : Engine) (value : Word) : Engine :=
  let v := R.QDR_MAP_REQ.OUT.get value
  if !e.modeIn [3] then (if v = e.rd R.QDR_MAP_REQ.OUT then e else e.writeIgnored R.QDR_MAP_REQ.OUT.off)
  else if v = 0xF then e.writeIgnored R.QDR_MAP_REQ.OUT.off
  else ({ e with flash := { e.flash with mapReq := v } }).wr R.QDR_MAP_REQ.OUT v

/-- The arbiter watchdog fires (R204): HALT, status, FAULT, Squall; every BAR4 access in progress fails (R197) and every stream is withdrawn (R279); a
windward's heartbeat stops. With AX0 at rest there is no Squall to wait for: PAIR_OWN goes at once, and the reset follows 100 ms from here (DEDUCED, log 148). -/
def arbHalt (e : Engine) (p c : Nat) : Engine :=
  let i := e.inputOf p c
  let ten := (e.port p).tenures.getD c 0
  let e1 := ((((e.wr R.QDR_STATUS.HALT 1).wr R.ARB_WDOG_STATUS.FIRED 1).wr R.ARB_WDOG_STATUS.PORT p).wr
    R.ARB_WDOG_STATUS.INPUT i).wr R.ARB_WDOG_STATUS.REQ c
  let e2 := if e1.pair.role = 1 then { e1 with pair := { e1.pair with hbStopped := true } } else e1
  let e3 := e2.faultSquall 0x0E p i c [(24, 4, ten)] 5
  let waits := e3.squall.any fun q => !q.rest
  let e4 : Engine := if waits then { e3 with squall := e3.squall.map fun (q : SquallSt) => { q with arbiter := true } }
    else { e3 with qdr := { e3.qdr with wdogRest := some e3.now }
                   pair := if e3.pair.role = 1 then { e3.pair with drive := false } else e3.pair }
  let e5 := e4.qdr.bar4.foldl (fun (x : Engine) a => x.bar4Drop a) e4
  ((upTo 16).foldl (fun (x : Engine) n => if (x.stream n).halted then x else x.withdraw n) e5).settleStreams

end Engine

/-- STAGING_REQUEST (R189, R224): a requester raises a burst at the port of its die; writes bring their bytes. -/
def execStagingRequest (p : PortIx) (req : Fin 16) (addr : BitVec 27) (txns : Nat) (data : List Byte) (s : State) : Answer :=
  .next (s.onEng fun e =>
    let a := addr.toNat
    if e.stagingLive && decide (req.val < 4 ∧ a % 32 = 0 ∧ 1 ≤ txns ∧ txns ≤ 8 ∧ a / 256 = (a + 32 * txns - 1) / 256)
        && e.regionOk req.val a (32 * txns) && e.dieOf a == p.val % 8 then
      e.raiseBurst p.val req.val
        ⟨a, txns, if p.val < 8 then (sliceBytes data 0 (32 * txns)).map some else [], .other, false⟩
    else e)

/-- ARB_GRANT (R199, R200, R203): one slot of a port; `badParity` are the bytes of the slot's read that fail (R195). -/
def execArbGrant (p : PortIx) (badParity : List Nat) (s : State) : Answer :=
  .next (s.onMem fun e m => e.arbSlot m p.val badParity)

/-- ARB_WATCHDOG_FIRE (R204). -/
def execArbWatchdogFire (p : PortIx) (s : State) : Answer :=
  .next (s.onEng fun e =>
    if e.on R.QDR_STATUS.HALT then e
    else match e.overTenure p.val with
      | some c => e.arbHalt p.val c
      | none => e)

/-- SCRUB_REQUEST (R196): the request for the next granule falls due at every step of the schedule; one that still stands is not doubled. -/
def execScrubRequest (s : State) : Answer :=
  .next (s.onEng fun e =>
    let k := (e.now - e.qdr.scrubLast) / max 1 e.scrubStep
    if e.on R.QDR_CTRL.SCRUB_EN && e.stagingLive && k != 0 then
      let e1 := { e with qdr := { e.qdr with scrubLast := e.qdr.scrubLast + k * e.scrubStep } }
      if e.standing (fun w => w == .scrub) then e1 else e1.raiseRange false 1 (256 * e.qdr.scrubNext) 256 [] .scrub
    else e)

/-- ARB_SNAP (R205). -/
def execArbSnap (clr : Bool) (s : State) : Answer := .next (s.onEng fun e => e.gate R.ARB_STAT_CTRL.SNAP.off fun x => x.arbStat true clr)

/-- ARB_CLR (R205). -/
def execArbClr (s : State) : Answer := .next (s.onEng fun e => e.gate R.ARB_STAT_CTRL.CLR.off fun x => x.arbStat false true)

/-- RANKMAP_WRITE (R201). -/
def execRankmapWrite (p : PortIx) (value : Word) (s : State) : Answer :=
  .next (s.onEng fun e => e.gate (R.ARB_RANKMAP.IN0 p.val).off fun x => x.setRankmap p.val (value.toNat % 256))

/-- RANKMAP_BCAST_WRITE (R202). -/
def execRankmapBcastWrite (value : Word) (s : State) : Answer := .next (s.onEng fun e => e.gate R.ARB_RANKMAP_BCAST.MAP.off fun x => x.setRankmaps value)

/-- QDR_MAP_REQ_WRITE (R192). -/
def execQdrMapReqWrite (value : Word) (s : State) : Answer := .next (s.onEng fun e => e.gate R.QDR_MAP_REQ.OUT.off fun x => x.setMapReq value)

/-- BAR4_READ (R197). -/
def execBar4Read (addr : BitVec 27) (len : Nat) (s : State) : Answer :=
  .next (s.onEng fun e => e.bar4Access addr.toNat len false [])

/-- BAR4_WRITE (R197): a byte that is not enabled stays. -/
def execBar4Write (addr : BitVec 27) (data : List (Option Byte)) (s : State) : Answer :=
  .next (s.onEng fun e => e.bar4Access addr.toNat data.length true data)

/-- HOST_TMO_EXPIRY (R197). -/
def execHostTmoExpiry (s : State) : Answer := .next (s.onEng fun e => e.bar4Timeout)

end Sys2Proof.Machine
end

