-- ==== Sys2Proof/Machine/Shading.lean ====
section
/-!
DEFINITION. Stages 5 to 7 (05_shading_alignment.md): replacement of lost tap-lines (R218), the black tracker (R96 to R102), shading (R104), poisoned and
defect pixels (R105, R106), coefficient banks and fades (R109 to R111), tap assembly (R112); what a calibration measures there (R80, R88).
-/

namespace Sys2Proof.Machine

namespace Engine

/-! ### Coefficients -/

/-- BAR0 offset of word p of a bank of a channel (R103). -/
def coefAt (c bank p : Nat) : Nat := 0x80000 + 0x2000 * c + 0x1000 * bank + 4 * p

/-- A coefficient word by its fields. -/
structure Coef where
  defect : Bool
  g : Nat
  d : Nat
  deriving DecidableEq, Repr

/-- The coefficient of a pixel in a bank. -/
def coefOf (e : Engine) (c bank p : Nat) : Coef :=
  let w := (e.word (coefAt c bank p)).toNat
  ⟨bitOf w 31, w / 65536 % 32768, w % 65536⟩

/-- Bank in force of a channel: during a fade, the bank fading out. -/
def bankOf (e : Engine) (c : Nat) : Nat := e.rd (R.SHD_CH_BANK.ACTIVE c)

/-- One field blended with weight w (R110). -/
def blend (w : Nat) (old new : Nat) : Nat := ((old : Int) + Int.fdiv (((new : Int) - old) * w + 32768) 65536).toNat

/-- A pixel's coefficient of a fade line (R106, R110). -/
def blendCoef (w : Nat) (a b : Coef) : Coef := ⟨a.defect || b.defect, blend w a.g b.g, blend w a.d b.d⟩

/-- The swaps that lines meet: the fade in progress, then the one queued behind it. -/
def swaps (e : Engine) : List SwapSt := e.shd.fade.toList ++ e.shd.queued.toList

/-- The bank of a channel at a line, and on a fade line the weight of its other bank (R109, R110). -/
def bankAt (e : Engine) (c idx : Nat) : Nat × Option Nat :=
  e.swaps.foldl (fun x w =>
    if bitOf w.mask c ∧ w.n0 ≤ idx then
      (if idx - w.n0 < w.len then (x.1, some (65536 * (idx - w.n0 + 1) / (w.len + 1))) else (1 - x.1, none))
    else x) (e.bankOf c, none)

/-- The coefficient of a pixel at a line. -/
def coefAtLine (e : Engine) (c idx p : Nat) : Coef :=
  match e.bankAt c idx with
  | (b, some w) => blendCoef w (e.coefOf c b p) (e.coefOf c (1 - b) p)
  | (b, none) => e.coefOf c b p

/-- A line of the fade proper. -/
def fading (e : Engine) (c idx : Nat) : Bool := (e.bankAt c idx).2.isSome

/-- Banks whose words a line reads. -/
def banksRead (e : Engine) (c idx : Nat) : List Nat :=
  match e.bankAt c idx with
  | (b, some _) => [b, 1 - b]
  | (b, none) => [b]

/-! ### Swaps -/

/-- The lowest index, not below a named one, at which no named channel's line has entered stage 6 (R109). -/
def firstFree (e : Engine) (mask index : Nat) : Nat :=
  (maskChans mask).foldl (fun m c => match (e.chan c).entered with | some i => max m (i + 1) | none => m) index

/-- The named channels whose lines a swap waits for: enabled, on a converting side. -/
def swapChans (e : Engine) (w : SwapSt) : List Nat :=
  (maskChans w.mask).filter fun c => e.on (R.TG_CHMAP.EN (c / 32) (c % 32)) && e.on (R.AFE_STATUS.CONV_RUN (c / 32))

/-- SHD_FADE and the FADING marks of a fade that has begun; DONE counts its lines already corrected (R95). -/
def showFade (e : Engine) (w : SwapSt) : Engine :=
  let far := maxOf ((maskChans w.mask).map fun c => match (e.chan c).entered with | some i => i + 1 - w.n0 | none => 0)
  let e1 := (maskChans w.mask).foldl (fun y k => y.wr (R.SHD_CH_BANK.FADING k) 1) e
  ((e1.wr R.SHD_FADE.ACTIVE 1).wr R.SHD_FADE.LEN w.len).wr R.SHD_FADE.DONE (min w.len far)

/-- A queued swap takes its turn (R111). -/
def promoteSwap (e : Engine) : Engine :=
  match e.shd.queued with
  | some q =>
    let e1 := (maskChans q.mask).foldl (fun x c => x.wr (R.SHD_CH_BANK.QUEUED c) 0) e
    let e2 := ({ e1 with shd := { e1.shd with fade := some q, queued := none } }).wr R.SHD_FADE.QUEUED 0
    if q.begun then e2.showFade q else e2
  | none => e

/-- A swap whose line n0 enters stage 6 begins: BANK_SWAPPED (R109). -/
def beginSwap (e : Engine) (c idx : Nat) (w : SwapSt) : Engine × SwapSt :=
  if bitOf w.mask c ∧ w.n0 ≤ idx ∧ !w.begun then (e.bankSwapped w w.n0, { w with begun := true }) else (e, w)

/-- A fade completes once line n0 + N has entered stage 6 on every named channel (DEDUCED, log 25). -/
def settleFade (e : Engine) : Engine :=
  match e.shd.fade with
  | some w =>
    if w.begun && (e.swapChans w).all fun k => match (e.chan k).entered with | some i => decide (w.n0 + w.len ≤ i) | none => false then
      let e1 := { (e.swapActive w.mask) with shd := { e.shd with fade := none } }
      (((((e1.wr R.SHD_FADE.ACTIVE 0).wr R.SHD_FADE.LEN 0).wr R.SHD_FADE.DONE 0)).swapDone w stOk).promoteSwap
    else e
  | none => e

/-- Line idx of a channel enters stage 6: swaps begin, the fade advances, and it ends with line n0 + N; so may then the one that was queued. -/
def enterSix (e : Engine) (c idx : Nat) : Engine :=
  let e0 := e.modChan c fun h => { h with entered := some idx }
  match e0.shd.fade with
  | none => e0
  | some w =>
    let a := e0.beginSwap c idx w
    let q := match a.1.shd.queued with
      | some x => (let y := a.1.beginSwap c idx x; (y.1, some y.2))
      | none => (a.1, none)
    let e1 := { q.1 with shd := { q.1.shd with fade := some a.2, queued := q.2 } }
    let e2 := if a.2.begun && bitOf w.mask c then e1.showFade a.2 else e1
    e2.settleFade.settleFade

/-! ### The black tracker (R96 to R102) -/

/-- FORCE of a side. -/
def forced (e : Engine) (s : Nat) : Bool := e.on (if s = 0 then R.SHD_TRK_CTRL.FORCE0 else R.SHD_TRK_CTRL.FORCE1)

/-- A line enters stage 5 with its first tap-line: from there FORCE holds for all of it (R26, R101). -/
def noteForce (e : Engine) (s idx : Nat) : Engine :=
  let x := e.shd.force.getD s ForceSt.init
  if x.top.any fun t => decide (idx ≤ t) then e
  else
    let same := match x.marks.getLast? with | some m => m.2 == e.forced s | none => false
    { e with shd := { e.shd with force := modAt e.shd.force s fun y =>
      ⟨some idx, if same then y.marks else y.marks ++ [(idx, e.forced s)]⟩ } }

/-- FORCE as a line of a side meets it. -/
def forcedAt (e : Engine) (s idx : Nat) : Bool :=
  match ((e.shd.force.getD s ForceSt.init).marks.filter fun m => decide (m.1 ≤ idx)).getLast? with
  | some m => m.2
  | none => e.forced s

/-- An index lies in a reported document window of a row, and AUTO makes it count (R99). -/
def inDocWindow (e : Engine) (s r idx : Nat) : Bool :=
  e.on (if s = 0 then R.SHD_TRK_CTRL.AUTO0 else R.SHD_TRK_CTRL.AUTO1) && e.shd.windows.any fun w =>
    w.side == s && w.row == r && decide (w.first ≤ idx) && (match w.last with | some l => decide ((idx : Int) ≤ l) | none => true)

/-- The optical-black mean in 1/256 code (R96); none where it is invalid. -/
def obMean (p : TapPkt) : Option Nat :=
  let ok := p.black.filter fun x => !x.poison
  if ok.length < 8 ∨ p.chk ≠ 0 ∨ p.subst then none
  else some (divNearest (256 * sumNat (ok.map fun x => x.code)) ok.length).toNat

/-- One absorption (R97). -/
def absorb (k : Nat) (c m : Nat) : Nat :=
  if k = 0 then m else ((c : Int) + Int.fdiv ((m : Int) - c + 2 ^ (k - 1)) (2 ^ k)).toNat

/-- What the tracker's latest shift for new trims takes from a line that ran under the old ones (R26, R82). -/
def shiftFor (e : Engine) (c idx : Nat) : Int :=
  match (e.chan c).shift with
  | some (from', d) => if idx < from' then d else 0
  | none => 0

/-- Stage 5 for a kept line: the means due are absorbed, the line's own mean joins the delay, as the trims now in force would have given it. -/
def track (e0 : Engine) (c : Nat) (p : TapPkt) : Engine :=
  let s := c / 32
  let e := e0.noteForce s p.index
  let r := e.rd (R.TG_CHMAP.ROW s (c % 32))
  let k := min 12 (e.rd (if s = 0 then R.SHD_TRK_CTRL.K0 else R.SHD_TRK_CTRL.K1))
  let due := (e.chan c).means.filter fun m => decide (m.1 + 80 ≤ p.index)
  let lvl := due.foldl (fun v m => if e.inDocWindow s r m.1 then v else absorb k v m.2) (e.rd (R.SHD_CH_TRK.C c))
  let e1 := (e.wr (R.SHD_CH_TRK.C c) lvl).modChan c fun h => { h with means := h.means.filter fun m => !decide (m.1 + 80 ≤ p.index) }
  let e2 := match obMean p with
    | some m => if e.forcedAt s p.index then e1 else e1.modChan c fun h => { h with means := h.means ++ [(p.index, ((m : Int) + e1.shiftFor c p.index).toNat)] }
    | none => e1.count R.SHD_OBINV_CNT.V 1
  e2.wr (if s = 0 then R.SHD_TRK_STATUS.FROZEN0 else R.SHD_TRK_STATUS.FROZEN1) (b2n (e.forcedAt s p.index || e.inDocWindow s r p.index))

/-- Black-restored codes in 1/256 code (R97), with C as the line's trims have it. -/
def restored (e : Engine) (c : Nat) (p : TapPkt) : List Int :=
  let off : Int := (e.rd (R.SHD_CH_TRK.C c) : Int) - e.shiftFor c p.index - 256 * e.rd R.CAL_DARK_TGT.V
  p.active.map fun x => 256 * (x.code : Int) - off

/-! ### Shading (R104 to R107) -/

/-- A pixel of stage 6 before replacement: output, whether it was clamped. -/
def shade (en : Bool) (kg : Nat) (x : Int) (k : Coef) : Nat × Bool :=
  let v := if en then divNearest ((x - 256 * k.d) * (k.g * kg)) (2 ^ 36) else divNearest x 256
  ((clampInt 0 65535 v).toNat, decide (v < 0 ∨ 65535 < v))

/-- A pixel under repair: value, bad (takes no part as a neighbour), to be replaced. -/
abbrev Pix := Nat × Bool × Bool

/-- The nearest sound pixel among the first four of a list. -/
def soundNear (l : List Pix) : Option Nat := ((l.take 4).find? fun x => !x.2.1).map fun x => x.1

/-- Steps 1 to 3 of R106 for every pixel to be replaced: `left` are the pixels before, nearest first; `none` tells what a pixel takes where neither
neighbour exists. -/
def repair (alone : Nat → Nat) : List Pix → List Pix → List Nat
  | _, [] => []
  | left, x :: right =>
    (if x.2.2 then
      match soundNear left, soundNear right with
      | some a, some b => (a + b + 1) / 2
      | some a, none => a
      | none, some b => b
      | none, none => alone x.1
    else x.1) :: repair alone (x :: left) right

/-- The previous corrected line of a channel, of the same index parity on an AUX row in ALT mode (R105). -/
def prevOut (e : Engine) (c idx : Nat) : Option (List Nat) :=
  let h := e.chan c
  if e.altChan c then (if idx % 2 = 0 then h.outEven else h.outOdd) else h.outPrev

/-- Stage 6 of a line: pixels out, with the counts of poisoned, clamped and badly read words. `coefBad` are the pixels whose coefficient word
reads with a parity error. -/
def stageSix (e : Engine) (c : Nat) (p : TapPkt) (xs : List Int) (coefBad : List Nat) : List Nat × Nat × Nat :=
  let s := c / 32
  let kg := e.rd (R.SHD_KG.KG (4 * s + e.rd (R.TG_CHMAP.ROW s (c % 32))))
  let ks := (upTo xs.length).map fun i => e.coefAtLine c p.index i
  let raw := xs.zipWith (fun x k => shade (e.on R.SHD_CTRL.EN) kg x k) ks
  let poison := p.active.map fun x => x.poison
  let bad := ks.zipIdx.map fun (k, i) => k.defect || coefBad.contains i
  let own := raw.map fun v => v.1
  let fixed := match e.prevOut c p.index with
    | some prev => (own.zip poison).zipIdx.map fun (v, i) => if v.2 then prev.getD i 0 else v.1
    | none => repair (fun _ => 0) [] ((own.zip (poison.zip bad)).map fun (v, q, b) => (v, q || b, q))
  let out := if e.on R.SHD_CTRL.DEFECT_EN then
      let l := repair (fun v => v) [] ((fixed.zip bad).map fun (v, b) => (v, b, b))
      (l.zip (own.zip bad)).zipIdx.map fun ((v, o, b), i) =>
        if b && (soundNear (((fixed.zip bad).take i).reverse.map fun (v, b) => (v, b, b))).isNone
            && (soundNear (((fixed.zip bad).drop (i + 1)).map fun (v, b) => (v, b, b))).isNone then o else v
    else fixed
  (out, (poison.filter fun b => b).length, (raw.filter fun v => v.2).length)

/-- The flags a corrected tap-line carries; after a wire fault under POLICY = SQUALL every line up to the stop carries TAP_FAULT (R71). -/
def tapFlags (e : Engine) (c : Nat) (p : TapPkt) (frozen : Bool) : LineFlags :=
  { LineFlags.clear with
    late := p.late, lateness := p.lateness, subst := p.subst, poison := p.active.any fun x => x.poison
    fade := e.fading c p.index, seam := p.seam, tapFault := p.chk != 0 || p.ref || e.job.wireStop.any fun i => decide (i ≤ p.index)
    frozen := frozen, ovr := p.ovr, expgen := p.expgen, auxkind := p.auxkind }

/-- Coefficient parity (R106): counted; the first of a channel in a job raises FAULT, which names the bank of the word. -/
def coefParity (e : Engine) (c idx : Nat) (bad : List (Nat × Fin 2)) : Engine :=
  match bad with
  | [] => e
  | x :: _ =>
    let e1 := e.count R.SHD_COEF_PAR_CNT.V bad.length
    if e.job.coefRaised.contains c then e1
    else ({ e1 with job := { e1.job with coefRaised := e1.job.coefRaised ++ [c] } }).fault 0x09 c x.2.val 0 [(24, 6, idx)]

/-! ### What calibration measures -/

/-- The mean of the active codes of a tap-line, the defect pixels of a bank left out. -/
def lineMean (e : Engine) (c bank : Nat) (p : TapPkt) : Rat :=
  let l := p.active.zipIdx.filter fun (_, i) => !(e.coefOf c bank i).defect
  if l.isEmpty then 0 else (sumNat (l.map fun x => x.1.code) : Rat) / (l.length : Rat)

/-- A line of a running gap calibration is measured where it is usable (R80). -/
def measureGap (e : Engine) (c : Nat) (p : TapPkt) : Engine :=
  match e.cal.gapStart with
  | some g =>
    if p.subst || p.chk != 0 || p.ref || (p.active.any fun x => x.poison) || p.index < g || g + 51 < p.index then e
    else
      let m := e.lineMean c (e.bankAt c p.index).1 p
      let put (f : GapMeas → GapMeas) : Engine := { e with cal := { e.cal with meas := modAt e.cal.meas c f } }
      if p.index < g + 16 then put fun x => { x with darkSum := x.darkSum + m, darkN := x.darkN + 1 }
      else if p.index < g + 20 ∨ p.ovr ≠ 0 then e
      else if p.auxkind = 2 then put fun x => { x with uvSum := x.uvSum + m, uvN := x.uvN + 1 }
      else put fun x => { x with backSum := x.backSum + m, backN := x.backN + 1 }
  | none => e

/-- Two lists of sums. -/
def addLists : List Int → List Int → List Int
  | [], b => b
  | a, [] => a
  | x :: a, y :: b => (x + y) :: addLists a b

/-- A line of a full calibration phase is measured in its step (R88, R90). -/
def measureFull (e : Engine) (c : Nat) (p : TapPkt) (xs : List Int) : Engine :=
  let f := e.cal.full
  if f.kind = 0 ∨ p.index < f.base ∨ f.base + f.lines ≤ p.index then e
  else
    let bank := if f.kind = 2 then 1 - e.bankOf c else e.bankOf c
    let m := e.lineMean c bank p
    { e with cal := { e.cal with full :=
      { f with
        sums := modAt f.sums c fun v => v + m
        counts := modAt f.counts c fun n => n + 1
        dark := if f.kind = 1 ∧ f.step = 8 then modAt f.dark c (fun l => addLists l xs) else f.dark
        white := if f.kind = 1 ∧ f.step = 9 then modAt f.white c (fun l => addLists l xs) else f.white } } }

/-! ### Tap-line arrival -/

/-- The eddy controller of a side. -/
def eddySide (e : Engine) (s : Nat) : EddySt := e.eddy.getD s EddySt.init

/-- A kept tap-line passes stages 5 and 6 (R107). In M5 it ends at stage 5, where the phase measures it (log 26). -/
def stageFive (e : Engine) (c : Nat) (p : TapPkt) (coefBad : List (Nat × Fin 2)) : Engine :=
  let s := c / 32
  let raw : RawLine := ⟨p.black, p.active⟩
  let e1 := (e.track c p).modChan c fun h =>
    { h with owed := h.owed.filter (fun o => decide (p.index < o.1)), raw5 := [some raw, if p.index % 2 = 0 then some raw else h.raw5.getD 1 none,
        if p.index % 2 = 1 then some raw else h.raw5.getD 2 none] }
  let xs := e1.restored c p
  if e.mode = .m5 then e1.measureFull c p xs
  else
    let frozen := e1.on (if s = 0 then R.SHD_TRK_STATUS.FROZEN0 else R.SHD_TRK_STATUS.FROZEN1)
    let bad := (coefBad.filter fun x => decide (x.1 < xs.length) && (e1.banksRead c p.index).contains x.2.val).eraseDups
    let r := e1.stageSix c p xs (bad.map fun x => x.1)
    let fl := e1.tapFlags c p frozen
    let e2 := (((e1.measureGap c p).coefParity c p.index bad).count R.SHD_POISON_CNT.V r.2.1).count R.SHD_SAT_CNT.V r.2.2
    let e3 := e2.modChan c fun h =>
      { h with outPrev := some r.1, outEven := (if p.index % 2 = 0 then some r.1 else h.outEven),
               outOdd := (if p.index % 2 = 1 then some r.1 else h.outOdd), done := h.done ++ [⟨p.index, r.1, fl⟩] }
    e3.enterSix c p.index

/-- LINE_DEFECT for the tap-lines replaced since the channel's previous one (R218). -/
def defectEvent (e : Engine) (c : Nat) : Engine :=
  let d := (e.chan c).defects
  (e.modChan c fun h => { h with defects := ⟨some e.now, 0, 0⟩ }).emit 0x05 c 0 1 none [(24, 6, d.first), (30, 4, d.count)]

/-- A SUBST tap-line is inserted at an owed index (R218): it copies the channel's previous tap-line. -/
def insertSubst (e : Engine) (c idx : Nat) : Engine :=
  let h := e.chan c
  let raw := if e.altChan c then h.raw5.getD (1 + idx % 2) none else h.raw5.getD 0 none
  let e1 := (e.stageFive c (e.substPkt c idx idx (e.gen (c / 32)).expgen raw) []).count (R.TG_SUBST_CNT.V (c / 32)) 1
  let e2 := e1.modChan c fun h => { h with defects := { h.defects with first := (if h.defects.count = 0 then idx else h.defects.first), count := h.defects.count + 1 } }
  match h.defects.last with
  | some t => if e.now < t + 1000000 then e2 else e2.defectEvent c
  | none => e2.defectEvent c

/-- The samples of a packet with the poison tags of the words that failed parity: words 4 to 19 are optical-black, the rest active. -/
def withPoison (p : TapPkt) (poison : List Nat) : TapPkt :=
  let mark (from' : Nat) (l : List Sample) : List Sample := l.zipIdx.map fun (x, i) => { x with poison := poison.contains (from' + i) }
  { p with black := mark 4 p.black, active := mark (4 + p.black.length) p.active }

/-- Stage 7 can hand no further line of a row to EDDY yet (R27, R206): LINE_WR still waits to write the one before, or the line would overwrite one that the next
aligned line reads. -/
def rowBlocked (e : Engine) (s r idx : Nat) : Bool :=
  e.stagingLive && (e.standing (fun b => match b with | .row s' r' _ => s' == s && r' == r | _ => false)
    || decide ((e.eddySide s).next - ((e.rd (R.EDY_OFS.D s r) + 63) / 64 + 1) + 68 ≤ idx))

/-- A channel's stages 5 and 6 stand: two of its lines wait for stage 7, which is held back (R206). Its tap-lines then stay in its queue, which loses the oldest
(R28). That two wait is a DESIGN CHOICE (log 149). -/
def stageHeld (e : Engine) (c : Nat) : Bool :=
  let h := e.chan c
  decide (2 ≤ h.done.length) && h.done.head?.any fun x => e.rowBlocked (c / 32) (e.rd (R.TG_CHMAP.ROW (c / 32) (c % 32))) x.index

/-- A kept line of a side enters stage 5 only after the detector has read the aligned lines whose reports R100 wants by then: an edge is reported at
most 4 lines past it (R150), so those up to 4 lines back. -/
def reportsDue (e : Engine) (s idx : Nat) : Bool :=
  e.on (R.GEO_CTRL.EN s) && e.job.isOpen && e.mode != .m5 && e.stagingLive && decide ((e.eddySide s).next + 4 ≤ idx)

/-- TAP_LINE_ARRIVAL: a channel's oldest packet is read. A poisoned header loses it (R219); a discarded line is removed (R14); owed indices below
it are replaced first (R218); one already replaced is dropped. A kept line waits for the reports due (R100), and while stage 7 is held back (R206). -/
def tapArrives (e : Engine) (c : Nat) (poison : List Nat) (coefBad : List (Nat × Fin 2)) : Engine :=
  match (e.chan c).queue with
  | [] => e
  | p :: rest =>
    if !p.discard && (e.reportsDue (c / 32) p.index || e.stageHeld c) then e else
    let words := (poison.filter fun w => decide (w < pktWords p)).eraseDups
    let e1 := ((e.modChan c fun h => { h with queue := rest }).wr (R.QUE_LEVEL.LEVEL c) (queueWords rest)).count (R.QUE_POISON.V c) words.length
    if words.any (fun w => decide (w < 4)) || p.discard then e1
    else if (match (e1.chan c).entered with | some i => decide (p.index ≤ i) | none => false) && e.mode != .m5 then e1
    else
      let gone := (e1.chan c).owed.filter fun o => decide (o.1 < p.index)
      (gone.foldl (fun x o => x.insertSubst c o.1) e1).stageFive c (withPoison p words) coefBad

/-- SUBST_OVERDUE: the oldest owed tap-line is 2 L + 10 µs overdue (R218); none is owed of a conversion that has stopped (R219). Like every kept line it waits for the
reports due (R100). -/
def substOverdue (e : Engine) (c : Nat) : Engine :=
  match (e.chan c).owed with
  | (i, t) :: _ => if e.on (R.AFE_STATUS.CONV_RUN (c / 32)) ∧ (t : Rat) + 2 * e.lineNs (c / 32) + 10000 ≤ (e.now : Rat) ∧ !e.reportsDue (c / 32) i ∧ !e.stageHeld c then e.insertSubst c i else e
  | [] => e

/-! ### Tap assembly (R112) -/

/-- Enabled channels of a side mapped to a row. -/
def rowChans (e : Engine) (s r : Nat) : List Nat :=
  ((e.enabledCh s).filter fun k => e.rd (R.TG_CHMAP.ROW s k) == r).map fun k => 32 * s + k

/-- The tag of a row line from its tap-lines (R112). -/
def joinTaps (l : List LineFlags) : LineFlags :=
  let f := l.headD LineFlags.clear
  ⟨l.any fun x => x.late, maxOf (l.map fun x => x.lateness), l.any fun x => x.subst, l.any fun x => x.poison, l.any fun x => x.warmup,
    l.any fun x => x.fade, l.any fun x => x.seam, l.any fun x => x.tapFault, l.any fun x => x.frozen, sumNat (l.map fun x => x.ovr), f.expgen, f.auxkind⟩

/-- Change the eddy controller of a side. -/
def modEddy (e : Engine) (s : Nat) (f : EddySt → EddySt) : Engine := { e with eddy := modAt e.eddy s f }

/-- Staging address of row line k of a row (R121). -/
def eddyAddr (s r k : Nat) : Nat := 0x100000 * (4 * s + r) + 15360 * (k % 68)

/-- ROW_LINE_ASSEMBLY: once the next line of every channel of the row has arrived, LINE_WR raises the bursts that write the row line into EDDY (R21, R27). After a
halt of the staging memory nothing is committed (R187). While the row is held back it waits (R206). -/
def assembleRow (e : Engine) (s r : Nat) : Engine :=
  let cs := e.rowChans s r
  let heads := cs.filterMap fun c => (e.chan c).done.head?
  match heads.head? with
  | none => e
  | some h =>
    if heads.length ≠ cs.length ∨ !heads.all (fun x => x.index == h.index) ∨ e.rowBlocked s r h.index then e
    else
      let e1 := cs.foldl (fun x c => x.modChan c fun h => { h with done := h.done.drop 1 }) e
      if !e.stagingLive then e1
      else
        let taps := (cs.zip heads).map fun (c, x) => (e.rd (R.TG_CHMAP.TAP s (c % 32)), e.on (R.TG_CHMAP.DIR s (c % 32)), x.pixels)
        let row := stitch (e.rd (R.TG_LINE_FMT.ACTIVE s)) taps
        let bytes := (row.map fun v => leBytes 2 v).flatten
        let e2 := e1.modEddy s fun y =>
          { y with tags := modAt y.tags r (fun l => (l ++ [(h.index, joinTaps (heads.map fun x => x.flags))]).drop (l.length - 67)),
                   written := modAt y.written r fun _ => some h.index }
        e2.raiseRange true 3 (eddyAddr s r h.index) bytes.length (bytes.map some) (.row s r h.index)

end Engine

/-- TAP_LINE_ARRIVAL (R97): `poison` are the words of the packet that fail parity, `coefBad` the coefficient words that do: pixel and
bank. -/
def execTapLineArrival (ch : Chan) (poison : List Nat) (coefBad : List (Nat × Fin 2)) (s : State) : Answer :=
  .next (s.onEng fun e => e.tapArrives ch.val poison coefBad)

/-- SUBST_OVERDUE (R218). -/
def execSubstOverdue (ch : Chan) (s : State) : Answer := .next (s.onEng fun e => e.substOverdue ch.val)

/-- LINE_DEFECT_HOLDOFF (R218). -/
def execLineDefectHoldoff (ch : Chan) (s : State) : Answer :=
  .next (s.onEng fun e =>
    let d := (e.chan ch.val).defects
    match d.last with
    | some t => if 0 < d.count ∧ t + 1000000 ≤ e.now then e.defectEvent ch.val else e
    | none => e)

/-- ROW_LINE_ASSEMBLY (R112). -/
def execRowLineAssembly (side : Side) (row : RowIx) (s : State) : Answer :=
  .next (s.onEng fun e => e.assembleRow side.val row.val)

end Sys2Proof.Machine
end

