-- ==== Sys2Proof/Machine/Frames.lean ====
section
/-!
DEFINITION. Page frames and pages (R124 to R127, R29): a frame opens when its first aligned line enters the geometry units, closes at its last line,
and its page waits for PAGE_END; calibration requests deferred past a page (R84).
-/

namespace Sys2Proof.Machine

namespace Engine

/-- The frames of a side. -/
def frameSide (e : Engine) (s : Nat) : FrameSt := e.frames.getD s FrameSt.init

/-- Change the frames of a side. -/
def modFrame (e : Engine) (s : Nat) (f : FrameSt → FrameSt) : Engine := { e with frames := modAt e.frames s f }

/-- A geometry unit. -/
def gu (e : Engine) (g : Nat) : GuSt := e.gus.getD g GuSt.init

/-- Change a geometry unit. -/
def modGu (e : Engine) (g : Nat) (f : GuSt → GuSt) : Engine := { e with gus := modAt e.gus g f }

/-- Enabled geometry units of a side. -/
def sideGus (e : Engine) (s : Nat) : List Nat := (upTo 8).filter fun g => e.on (R.GU_CTRL.EN g) && e.rd (R.GU_CTRL.SIDE g) == s

/-- SRC = JOB of a side. -/
def jobFramed (e : Engine) (s : Nat) : Bool := e.on (R.RSM_FRAME_CTRL.SRC s)

/-- Running streams of a side that take part in the next frame to open: not those that stop after the page they deliver, nor, in LULL mode, one
that has yet to begin while the braking reserve does not hold (R174). -/
def joiningStreams (e : Engine) (s : Nat) : List Nat :=
  (upTo 16).filter fun n => (e.stream n).running && !(e.stream n).stopPage && e.sideOf n == s
    && (!(e.stream n).waitFrame || e.gapMode || e.reserveOk)

/-- The frame of the first document in flight that has none on a side becomes a page (R184, R185). -/
def docOpened (e : Engine) (s no : Nat) : Engine :=
  let rec go : List Doc → List Doc
    | [] => []
    | d :: t => if d.sides.contains s && !d.pages.any (fun x => x.1 == s) then { d with pages := d.pages ++ [(s, no)] } :: t else d :: go t
  { e with feed := { e.feed with flight := go e.feed.flight } }

/-- A frame opens at aligned line n (R127, R133, R134): PAGE_NO counts, PAGE_START names the streams that deliver the page, every unit that feeds
one of them begins a new history. -/
def openFrame (e : Engine) (s n : Nat) (f : Frame) (rest : List Frame) : Engine :=
  let no := (e.rd (R.RSM_FRAME_STAT.PAGE_NO s) + 1) % 65536
  let js := e.joiningStreams s
  let mask := js.foldl (fun b k => b + 2 ^ k) 0
  let e1 := (e.wr (R.RSM_FRAME_STAT.PAGE_NO s) no).wr (R.RSM_FRAME_STAT.OPEN s) 1
  let e2 := e1.modFrame s fun x =>
    { x with fixed := rest, cur := some { f with first := n }, lines := 0,
             pages := x.pages ++ [⟨no, n, none, false, false, false, false, false, f.overlap, none, js⟩] }
  let e3 := js.foldl (fun x k => x.modStream k fun y => { y with waitFrame := false, joined := true, seen := 0 }) e2
  let e4 := (e3.sideGus s).foldl (fun x g =>
    let fed := js.filter fun k => x.guOf k == g
    if fed.isEmpty then x else x.modGu g fun u => { u with runs := u.runs ++ [⟨no, n, none, 0, fed.map fun k => (k, 0), false⟩] }) e3
  let e4 := e4.docOpened s no
  let e5 : Engine := if ((upTo 2).find? fun x => !e.jobFramed x && !(e.usedRows x).isEmpty) = some s then { e4 with feed := { e4.feed with docPattern := f.pattern } } else e4
  e5.emit 0x03 s 0 no none [(24, 6, n), (30, 1, b2n (e.jobFramed s)), (32, 2, mask), (36, 4, e.job.id)]

/-- The documents in flight once a side's frame has closed (R184, R185). -/
def docClosed (e : Engine) (s : Nat) : Engine :=
  let rec go : List Doc → List Doc
    | [] => []
    | d :: t => if d.sides.contains s then { d with sides := d.sides.filter fun x => x != s } :: t else d :: go t
  { e with feed := { e.feed with flight := (go e.feed.flight).filter fun d => !d.sides.isEmpty } }

/-- Bytes of a page committed to STAGE count for the document in flight that the page's frame belongs to (R185). -/
def docBytes (e : Engine) (s no bytes : Nat) : Engine :=
  { e with feed := { e.feed with flight := e.feed.flight.map fun d => if d.pages.contains (s, no) then { d with bytes := d.bytes + bytes } else d } }

/-! ### The end of a page in a geometry unit -/

/-- y_k of R131 in 1/65,536 line; with YEN = 0 the aligned line itself. -/
def yPos (e : Engine) (g first k : Nat) : Int :=
  if e.on (R.GU_CTRL.YEN g) then
    let st : Int := e.rd (R.GU_YSTEP.STEP g)
    65536 * (first : Int) + Int.fdiv (st - 65536) 2 + k * st
  else 65536 * ((first + k : Nat) : Int)

/-- A unit has made every output line of a frame (R131), or no stream of it runs any more (R133). -/
def runOver (e : Engine) (g : Nat) (r : GuRun) : Bool :=
  (match r.last with | some l => decide ((l : Int) < Int.fdiv (e.yPos g r.first r.out) 65536) | none => false)
    || !r.streams.any fun x => (e.stream x.1).running

/-- Mark the last line of a page in a list of lines. -/
def markLast (no : Nat) (l : List StageLine) : List StageLine :=
  let rec go : List StageLine → List StageLine
    | [] => []
    | x :: t => if x.page = no then { x with pageLast := true } :: t else x :: go t
  (go l.reverse).reverse

/-- The last buffer that holds a line of a page, and has yet to report, is marked. -/
def markLastBuf (no : Nat) (l : List Buf) : List Buf :=
  let rec go : List Buf → List Buf
    | [] => []
    | b :: t => if b.lines.any fun x => x.page == no then { b with lines := markLast no b.lines } :: t else b :: go t
  (go l.reverse).reverse

/-- The last line of a page on a stream is known (R265): it is marked where it stands, and a PAGE_BREAK buffer that already holds it closes, once it is rewritten
where a replay is to do that. -/
def pageLast (e : Engine) (n no : Nat) : Engine :=
  let s := e.stream n
  if s.stage.any fun l => l.page == no then e.modStream n fun x => { x with stage := markLast no x.stage }
  else
    let e1 := e.modStream n fun x => { x with bufs := markLastBuf no x.bufs }
    match openBuf s with
    | some b =>
      if b.begun && (b.lines.getLast?.any fun l => l.page == no) && b.pageBreak && !b.redo && !s.halted then
        e1.closeBuf n b (e.lastByte n b s.sent) false false
      else e1
    | none => e1

/-- A page is over on a stream: a stream that stops after its page stops now (R262). -/
def pageOver (e : Engine) (n no : Nat) : Engine :=
  let e1 := e.pageLast n no
  let more := e.gus.any fun u => u.runs.any fun r => r.streams.any fun x => x.1 == n
  if more then e1
  else if (e.stream n).stopPage then
    (((e1.stopStream n).recalcCap.modStream n fun x => { x with ending := some false }).closeEnding n).settleStream n
  else e1.modStream n fun x => { x with joined := false }

/-- Frames at the head of a unit that are over leave it. `fuel` bounds them. -/
def finishRuns (e : Engine) (g : Nat) : Nat → Engine
  | 0 => e
  | fuel + 1 =>
    match (e.gu g).runs with
    | r :: rest =>
      if e.runOver g r then
        finishRuns (r.streams.foldl (fun x k => x.pageOver k.1 r.page)
          (e.modGu g fun u => { u with runs := rest, hist := if rest.isEmpty then [] else u.hist })) g fuel
      else e
    | [] => e

/-- Every unit of a side. -/
def finishSide (e : Engine) (s : Nat) : Engine := (e.sideGus s).foldl (fun x g => x.finishRuns g 16) e

/-- The open frame of a side closes at aligned line n (R124, R127); its page waits for its geometry (R155). -/
def closeFrame (e : Engine) (s n : Nat) (trunc incomplete : Bool) : Engine :=
  let no := e.rd (R.RSM_FRAME_STAT.PAGE_NO s)
  let first := ((e.frameSide s).cur.map fun f => f.first).getD n
  let e1 := e.wr (R.RSM_FRAME_STAT.OPEN s) 0
  let e2 := if trunc then e1.wr (R.RSM_FRAME_STAT.TRUNC s) 1 else e1
  let e3 := e2.modFrame s fun x =>
    { x with cur := none, lines := 0,
             pages := x.pages.map fun p => if p.no = no ∧ !p.closed then { p with closed := true, last := some n, trunc := trunc, incomplete := incomplete } else p }
  let e4 := (e3.sideGus s).foldl (fun x g => x.modGu g fun u =>
    { u with runs := u.runs.map fun r => if r.page = no ∧ r.last.isNone then { r with last := some n } else r }) e3
  let b := (e4.geo.getD s GeoSt.init).back
  let e5 := { e4 with geo := modAt e4.geo s fun g => { g with busy := g.busy ++ [(no, first, n, b)] } }
  ((e5.wr (R.GEO_STATUS.BUSY s) 1).docClosed s).finishSide s

/-- A side's frame at the arrival of aligned line n: the next one opens there where it is due. -/
def frameArrive (e : Engine) (s n : Nat) : Engine :=
  let f := e.frameSide s
  match f.cur, f.fixed with
  | none, x :: rest => if x.first ≤ n then e.openFrame s n x rest else e
  | _, _ => e

/-- A side's frame after aligned line n: it counts the line, and closes at its last line, at MAX, or where no further line can come. -/
def frameLeave (e : Engine) (s n : Nat) (finish : Option Nat) : Engine :=
  match (e.frameSide s).cur with
  | none => e
  | some f =>
    let count := (e.frameSide s).lines + 1
    let e1 := e.modFrame s fun x => { x with lines := count }
    if match f.last with | some l => decide (l ≤ n) | none => false then e1.closeFrame s n false false
    else if !e.jobFramed s && decide (e.rd (R.RSM_FRAME_MAX.MAX s) ≤ count) then e1.closeFrame s n true false
    else if finish = some n then e1.closeFrame s n false (e.frameSide s).squall
    else e1

/-! ### PAGE_END -/

/-- A line of a page still stands in a stream of the side: in STAGE, or in a buffer whose final BUF_DONE is not built. -/
def pageHeld (e : Engine) (s no : Nat) : Bool :=
  (upTo 16).any fun n => e.sideOf n == s && (((e.stream n).stage.any fun l => l.page == no)
    || (e.stream n).bufs.any fun b => b.lines.any fun l => l.page == no)

/-- A page still in a geometry unit. -/
def pageRendering (e : Engine) (s no : Nat) : Bool :=
  (e.sideGus s).any fun g => (e.gu g).runs.any fun r => r.page == no

/-- CAL_DUE (R84, R268). -/
def calDue (e : Engine) : Engine :=
  let since := (e.now - e.cal.lastDone.getD e.cal.bootTime) / 1000000000
  e.emit 0x0B (e.rd R.CAL_STATUS.CAUSE) 0 0 none [(24, 1, e.rd R.CAL_STATUS.DEFER), (28, 4, min (2 ^ 32 - 1) since)]

/-- A PAGE_END that passes while a request is pending counts a deferral, unless a gap has met R77; at CAL_MAX_DEFER a gap is forced, or CAL_DUE is emitted with
each PAGE_END until a gap calibration completes (R84). With CAL_MAX_DEFER = 0 too it is a PAGE_END at which the gap is forced, not the request (DESIGN CHOICE,
log 154). -/
def deferCal (e : Engine) : Engine :=
  if !e.on R.CAL_STATUS.PENDING then e
  else if e.cal.gapStart.isSome then
    (if e.rd R.CAL_STATUS.DEFER < e.rd R.CAL_MAX_DEFER.V || e.on R.CAL_CTRL.CAL_FORCE_GAP then e else e.calDue)
  else
    let n := min 255 (e.rd R.CAL_STATUS.DEFER + 1)
    let e1 := e.wr R.CAL_STATUS.DEFER n
    if n < e.rd R.CAL_MAX_DEFER.V then e1
    else if e.on R.CAL_CTRL.CAL_FORCE_GAP then { e1 with cal := { e1.cal with gapWithheld := true } }
    else e1.calDue

/-- Flags of R154 that a page brings from elsewhere: TRUNC, INCOMPLETE, TAKEOVER, REFEED. -/
def pageFlags (p : Page) : Nat := 64 * b2n p.trunc + 128 * b2n p.incomplete + 4096 * b2n p.takeover + 8192 * b2n p.refeed

/-- The geometry block as PAGE_END carries it: what the page's flags have become since it was computed stands in it (R154, R156). -/
def pageBlock (p : Page) (block : List Byte) : List Byte := block.take 16 ++ leBytes 2 (leAt block 16 2 ||| pageFlags p) ++ block.drop 18

/-- PAGE_END of the oldest page of a side (R29, R155): its geometry is complete, no unit renders it, every final BUF_DONE precedes it. GEO_RES takes the
block, and what waited on the page goes on. -/
def pageEnds (e : Engine) (s : Nat) : Engine :=
  match (e.frameSide s).pages with
  | [] => e
  | p :: rest =>
    match p.geometry with
    | none => e
    | some computed =>
      if e.pageHeld s p.no || e.pageRendering s p.no then e
      else
        let block := pageBlock p computed
        let e1 := (upTo 10).foldl (fun x k => x.wr (R.GEO_RES.V s k) (leAt block (4 * k) 4)) e
        let e2 := (e1.modFrame s fun x => { x with pages := rest }).emit 0x04 s 0 p.no none
          (block.zipIdx.map fun (b, i) => (24 + i, 1, b.toNat))
        (e2.deferCal).settleStreams

end Engine

end Sys2Proof.Machine
end

