-- ==== Sys2Proof/Machine/Dma.lean ====
section
/-!
DEFINITION. The DMA engine (13_dma_engine.md): scheduling (R273), the shape of the writes (R274, R275), read-backs and their
errors (R276, R277, R280), the books (R278), and the work of FILL, COMPARE and LOAD_BANK (R283 to R285).
-/

namespace Sys2Proof.Machine

namespace Engine

/-! ### Writes -/

/-- A burst cut into write TLPs at the multiples of Max_Payload_Size (R274); `fuel` is at least the number of bytes. -/
def cutWrites (mps addr : Nat) (l : List Byte) : Nat → List (Nat × List Byte)
  | 0 => []
  | fuel + 1 =>
    if l.isEmpty then []
    else
      let n := mps - addr % mps
      (addr, l.take n) :: cutWrites mps (addr + n) (l.drop n) fuel

/-- Relaxed Ordering of stream data writes (R230). -/
def roData (e : Engine) : Bool := e.on R.UHP_CTRL.RO_DATA && e.link.roEnable

/-- Issue a DMA burst of writes; DMA_WR counts its bytes, and saturates (R272). -/
def burstWrite (e : Engine) (addr : Nat) (l : List Byte) (ro : Bool) (what : ReqFor) : Engine :=
  let e1 := (cutWrites (max 1 e.link.mps) addr l l.length).foldl (fun x t => x.issueWrite t.1 t.2 ro what) e
  (e1.passes 96 (beats (min l.length (max 1 e.link.mps)))).wrPair R.DMA_WR_LO.V R.DMA_WR_HI.V
    (satAdd (2 ^ 48 - 1) (e.rdPair R.DMA_WR_LO.V R.DMA_WR_HI.V) l.length)

/-- Bytes from an address to the next 4 KiB boundary (R230). -/
def toPage (addr : Nat) : Nat := 4096 - addr % 4096

/-- Read requests of a range, none above the smaller of Max_Read_Request_Size and 512 bytes (R230): their lengths. -/
def cutReads (lim len : Nat) : Nat → List Nat
  | 0 => []
  | fuel + 1 => if len = 0 then [] else min lim len :: cutReads lim (len - min lim len) fuel

/-- Largest read request. -/
def readLim (e : Engine) : Nat := max 1 (min e.link.mrrs 512)

/-- Issue the read requests of a range. -/
def burstRead (e : Engine) (addr len : Nat) (what : ReqFor) : Engine × List Nat :=
  let ls := cutReads e.readLim len len
  (((ls.foldl (fun (x : Engine × Nat) n => (x.1.issueRead x.2 n what, x.2 + n)) (e, addr)).1), ls)

/-! ### Scheduling (R273) -/

/-- The next stream in round-robin order that has work. -/
def nextStream (e : Engine) : Option Nat :=
  ((upTo 16).map fun i => (e.dma.last + 1 + i) % 16).find? e.streamReady

/-- The read requests of a whole burst may go out (R230). -/
def burstReads (e : Engine) : Bool := decide (e.readsOut + (4095 + e.readLim) / e.readLim ≤ e.readMax)

/-- The command channel has a burst to issue. The last one of a FILL brings its read-back. -/
def cmdReady (e : Engine) : Bool :=
  match e.dma.work.head? with
  | some (.fill _ addr len _ _ done rb) =>
    !rb && (decide (toPage (addr + done) < len - done) || (e.dma.owed.isEmpty && decide (e.rbOut < 16) && decide (e.readsOut < e.readMax)))
  | some (.bank _ _ _ count _ asked _ _) => decide (asked < 4096 * count) && e.burstReads
  | some (.compare _ _ _ len asked _ _ _ _ _ failed) => decide (asked < len) && !failed && e.burstReads && !e.on R.QDR_STATUS.HALT
  | some (.spent _) => false
  | none => false

/-- The command channel is served: alone when no stream waits, else for CMD_SHARE of every sixteen bursts; the model gives it the first of
each sixteen (DESIGN CHOICE, log 24). -/
def serveCmd (e : Engine) : Bool :=
  e.cmdReady && (e.nextStream.isNone || decide (e.dma.cmdGiven < e.rd R.DMA_CTRL.CMD_SHARE))

/-- A burst given: the count of sixteen moves on while both kinds wait. -/
def tallySlot (e : Engine) (cmd : Bool) : Engine :=
  if e.cmdReady && e.nextStream.isSome then
    let g := e.dma.cmdGiven + b2n cmd
    if e.dma.slot = 15 then { e with dma := { e.dma with slot := 0, cmdGiven := 0 } }
    else { e with dma := { e.dma with slot := e.dma.slot + 1, cmdGiven := g } }
  else e

/-! ### The stream channels -/

/-- Descriptors that cannot take a line are refused when their turn comes (R265). `fuel` bounds them. -/
def rejectBad (e : Engine) (n : Nat) : Nat → Engine
  | 0 => e
  | fuel + 1 =>
    match openBuf (e.stream n) with
    | some b =>
      if e.badDesc n b && !b.begun then
        rejectBad (e.modStream n fun s => modOpenBuf s fun x => { x with confirm := .rejected }) n fuel
      else e
    | none => e

/-- Whether a buffer is complete once its last line is `l` and it holds `k` lines (R265). -/
def bufFull (e : Engine) (n : Nat) (b : Buf) (k : Nat) (l : StageLine) : Bool :=
  decide (b.len < k * e.strideOf n + e.lineLen n) || (b.pageBreak && l.pageLast)

/-- The bytes that follow in a buffer from line `k` on: padding before it, the line, and the padding after it where a next line of the
same buffer is known (R275). Answers the padding before, and the padding after. -/
def padAround (e : Engine) (n : Nat) (b : Buf) (k : Nat) (l : StageLine) (next : Bool) : Nat × Nat :=
  (e.padBefore n k, if next && !e.bufFull n b (k + 1) l then e.padBefore n (k + 1) else 0)

/-- One line's burst (R273, R275): `off` bytes of the padding and the line are already written. Answers the host address, the bytes, and
the position after them, counted from the line's `unitStart`. -/
def lineBurst (e : Engine) (n : Nat) (b : Buf) (k off : Nat) (l : StageLine) (next : Bool) : Nat × List Byte × Nat :=
  let p := e.padAround n b k l next
  let pad : Byte := BitVec.ofNat 8 (e.rd (R.STR_PADVAL.V n))
  let all := List.replicate p.1 pad ++ l.bytes ++ List.replicate p.2 pad
  let addr := e.unitStart n b k + off
  let rest := (all.drop off).take (toPage addr)
  (addr, rest, off + rest.length)

/-- Where in STAGE the bytes of a line lie that a burst takes, and how many: none of a burst of padding alone. -/
def lineSource (e : Engine) (n : Nat) (b : Buf) (k off : Nat) (l : StageLine) (next : Bool) : Nat × Nat :=
  let pre := (e.padAround n b k l next).1
  (l.place + (off - pre), min ((e.lineBurst n b k off l next).2.2 - pre) l.bytes.length - (off - pre))

/-- What DMA_RD has to read for a stream's next burst (R273, R275, R281). -/
def streamSource (e : Engine) (n : Nat) : Nat × Nat :=
  let s := e.stream n
  match s.bufs.find? fun b => b.redo with
  | some b => match b.lines[s.rw.1]? with
    | some l => e.lineSource n b s.rw.1 s.rw.2 l (b.lines.length != s.rw.1 + 1)
    | none => (0, 0)
  | none =>
    let e1 := e.rejectBad n 1025
    match openBuf (e1.stream n), s.stage with
    | some b, l :: rest => e1.lineSource n b b.lines.length s.sent l (rest.head?.any fun x => x.committed)
    | _, _ => (0, 0)

/-- A burst of a stream channel that fills its open buffer. -/
def fillBurst (e : Engine) (n : Nat) (bad : Bool) : Engine :=
  let e1 := (e.rejectBad n 1025).settleStream n
  let s := e1.stream n
  match openBuf s, s.stage with
  | some b, l0 :: rest =>
    let l := if bad then { l0 with parity := true } else l0
    let k := b.lines.length
    let next := rest.head?.any fun x => x.committed
    let r := e1.lineBurst n b k s.sent l next
    let e2 := e1.burstWrite r.1 r.2.1 e1.roData (.data n)
    let lineEnd := (e1.padBefore n k) + l.bytes.length
    if r.2.2 < lineEnd then
      e2.modStream n fun x =>
        let x1 := modOpenBuf x fun y => { y with begun := true }
        { x1 with sent := r.2.2, stage := l :: rest }
    else
      let e3 := e2.modStream n fun x =>
        let x1 := modOpenBuf x fun y => { y with begun := true, lines := y.lines ++ [l] }
        { x1 with sent := r.2.2 - lineEnd, stage := rest, waited := x.waited && !rest.isEmpty }
      if e1.bufFull n b (k + 1) l then
        (e3.modStream n fun x => { x with sent := 0 }).closeBuf n b (e1.unitStart n b k + lineEnd - 1) false false
      else e3.closeEnding n
  | _, _ => e1

/-- A burst that rewrites a buffer after a halt (R281), line by line from its first. One still open then closes if its page has ended meanwhile; one without a whole
line has nothing to rewrite. -/
def redoBurst (e0 : Engine) (n : Nat) (b : Buf) (bad : Bool) : Engine :=
  let s := e0.stream n
  let k := s.rw.1
  let e := if bad then e0.modStream n fun x =>
      { x with bufs := modFirst (fun y => y.idx == b.idx) (fun y => { y with lines := modAt y.lines k fun l => { l with parity := true } }) x.bufs }
    else e0
  match b.lines[k]? with
  | some l =>
    let last := b.lines.length = k + 1
    let r := e.lineBurst n b k s.rw.2 l (!last)
    let e1 := e.burstWrite r.1 r.2.1 e.roData (.data n)
    let lineEnd := e.padBefore n k + l.bytes.length
    if r.2.2 < lineEnd then e1.modStream n fun x => { x with rw := (k, r.2.2) }
    else if !last then e1.modStream n fun x => { x with rw := (k + 1, r.2.2 - lineEnd) }
    else
      let e2 := e1.modStream n fun x =>
        { x with rw := (0, 0), bufs := modFirst (fun y => y.idx == b.idx) (fun y => { y with redo := false }) x.bufs }
      if b.confirm = .writing then
        if b.pageBreak && l.pageLast then e2.closeBuf n b (e.unitStart n b k + lineEnd - 1) false false else e2.closeEnding n
      else e2.closeBuf n b (e.unitStart n b k + lineEnd - 1) b.jobEnd b.withdrawn
  | none =>
    let e2 := e.modStream n fun x =>
      { x with rw := (0, 0), bufs := modFirst (fun y => y.idx == b.idx) (fun y => { y with redo := false }) x.bufs }
    if b.confirm = .writing then e2.closeEnding n else e2.closeBuf n b b.addr b.jobEnd b.withdrawn

/-- One burst of a stream channel; `bad`: a byte of it read with bad parity (R195). -/
def streamBurst (e : Engine) (n : Nat) (bad : Bool) : Engine :=
  let e1 := { e with dma := { e.dma with last := n } }
  match (e.stream n).bufs.find? fun b => b.redo with
  | some b => e1.redoBurst n b bad
  | none => e1.fillBurst n bad

/-! ### The command channel -/

/-- Byte k of a FILL (R283). -/
def fillByte (pattern width k : Nat) : Byte := BitVec.ofNat 8 (pattern / 256 ^ (k % max 1 width))

/-- One burst of the command channel. -/
def cmdBurst (e : Engine) : Engine :=
  match e.dma.work.head? with
  | some (.fill h addr len pat w done _) =>
    let n := min (len - done) (toPage (addr + done))
    let e1 := e.burstWrite (addr + done) ((upTo n).map fun i => fillByte pat w (done + i)) false .fill
    if done + n = len then
      (e1.setWork (some (.fill h addr len pat w len true))).issueRead ((addr + len - 1) / 4 * 4) 4 .fillReadback
    else e1.setWork (some (.fill h addr len pat w (done + n) false))
  | some (.bank h addr first count bank asked got reads) =>
    let n := min (4096 * count - asked) (toPage (addr + asked))
    let r := e.burstRead (addr + asked) n .bank
    r.1.setWork (some (.bank h addr first count bank (asked + n) got (reads ++ r.2)))
  | some (.compare h addr sa len asked got reads fb bad thr failed) =>
    let n := min (len - asked) (toPage (addr + asked))
    let r := e.burstRead (addr + asked) n .compare
    r.1.setWork (some (.compare h addr sa len (asked + n) got (reads ++ r.2) fb bad thr failed))
  | some (.spent _) => e
  | none => e

/-- A byte of a range of STAGE stands with bad parity. -/
def stageBad (e : Engine) (m : Staging) (src : Nat × Nat) : Bool := (upTo src.2).any fun i => m.isBad (e.stagePlace (src.1 + i))

/-- The burst whose data DMA_RD is reading, while it is still the stream's next one. -/
def readingBurst (e : Engine) : Option (Nat × Nat × Nat) :=
  e.dma.reading.filter fun r => e.streamReady r.1 && e.streamSource r.1 == r.2

/-- One DMA burst: the scheduler's choice. A stream's burst first has DMA_RD read its bytes; it goes out, in its slot, when the last of those reads is through
(R21, log 139). A read-back that waits goes first, as soon as it may. -/
def oneBurst (e : Engine) (m : Staging) : Engine :=
  if !e.canIssue then e
  else if !e.dma.owed.isEmpty && e.canReadback then e.issueOwed
  else
    let e0 : Engine := { e with dma := { e.dma with reading := none } }
    match e.readingBurst with
    | some r => if e.standing (fun w => w == .dma) then e else (e0.tallySlot false).streamBurst r.1 (e.stageBad m r.2)
    | none =>
      if e0.serveCmd then (e0.tallySlot true).cmdBurst
      else
        match e0.nextStream with
        | some n =>
          let src := e0.streamSource n
          if src.2 = 0 then (e0.tallySlot false).streamBurst n false
          else { e0.raiseStage false src.1 src.2 [] .dma with dma := { e0.dma with reading := some (n, src) } }
        | none => e0

/-! ### Confirmation -/

/-- A buffer's arrival is proved (R276, R277): its STAGE bytes are freed, DMA_Sn_CONF takes its last LINE_INDEX; a withdrawn one counts
only its whole lines. -/
def confirmBuf (e : Engine) (n idx : Nat) : Engine :=
  let s := e.stream n
  match s.bufs.find? fun b => b.idx == idx with
  | some b =>
    let e1 := e.modStream n fun x =>
      { x with bufs := modFirst (fun y => y.idx == idx) (fun y => { (freeLines y) with confirm := .confirmed }) x.bufs }
    let e2 := match b.lines.getLast? with
      | some l => (e1.modStream n fun x => { x with conf := some (l.index, l.page, l.pageLine) }).wrPair (R.DMA_S_CONF_LO.V n) (R.DMA_S_CONF_HI.V n) l.index
      | none => e1
    let bytes := linesBytes b.lines
    ({ e2 with pac := { e2.pac with confirmed := e2.pac.confirmed + bytes } }).settleStream n
  | none => e

/-- The oldest read-back of a stream channel leaves the list. -/
def popReadback (e : Engine) (n : Nat) : Engine := e.modStream n fun x => { x with rbs := x.rbs.drop 1 }

/-- Whether a buffer before one of a given index has failed: then the stream is halted, or about to be (R280). -/
def failedBefore (s : Stream) (idx : Nat) : Bool :=
  (s.bufs.takeWhile fun b => b.idx != idx).any fun b =>
    match b.confirm with | .failed _ => !b.withdrawn | _ => false

/-- A read-back of a stream channel that ended well. -/
def readbackOk (e : Engine) (n : Nat) : Engine :=
  let s := e.stream n
  match s.rbs.head? with
  | some (some idx) =>
    if failedBefore s idx then e.popReadback n else (e.popReadback n).confirmBuf n idx
  | some none => e.popReadback n
  | none => e

/-- A read-back of a stream channel that ended in an error (R279, R280). -/
def readbackFail (e : Engine) (n : Nat) (kind : ReadErr) : Engine :=
  let s := e.stream n
  match s.rbs.head? with
  | some (some idx) =>
    let e1 := (e.popReadback n).count R.DMA_RB_ERR_CNT.V 1
    if failedBefore s idx then e1
    else
      let upd (y : Buf) : Buf := if y.withdrawn then { (freeLines y) with confirm := .failed kind } else { y with confirm := .failed kind }
      (e1.modStream n fun x => { x with bufs := modFirst (fun y => y.idx == idx) upd x.bufs }).settleStream n
  | some none => (e.popReadback n).count R.DMA_RB_ERR_CNT.V 1
  | none => e

/-- The read-back of the FILL at the head of the command channel. -/
def fillReadback (e : Engine) (err : Bool) : Engine :=
  match e.dma.work.head? with
  | some (.fill h _ len _ _ _ true) =>
    let e1 := if err then e.count R.DMA_RB_ERR_CNT.V 1 else e
    (e1.setWork none).finishHseq h (if err then stUnconfirmed else stOk) [(40, 4, len)]
  | _ => e

/-! ### LOAD_BANK and COMPARE -/

/-- Set the state of a channel's bank: 0 INVALID, 1 VALID, 2 LOADING. -/
def setBank (e : Engine) (c bank st : Nat) : Engine :=
  e.wr (if bank = 0 then R.SHD_CH_BANK.ASTATE c else R.SHD_CH_BANK.BSTATE c) st

/-- The state of a channel's bank. -/
def bankState (e : Engine) (c bank : Nat) : Nat :=
  e.rd (if bank = 0 then R.SHD_CH_BANK.ASTATE c else R.SHD_CH_BANK.BSTATE c)

/-- Set the state of every named bank. -/
def setBanks (e : Engine) (first count bank st : Nat) : Engine :=
  (upTo count).foldl (fun x i => x.setBank (first + i) bank st) e

/-- Offset of a coefficient word in the shading coefficient window (R103). -/
def coefOff (c bank p : Nat) : Nat := 0x80000 + 0x2000 * c + 0x1000 * bank + 4 * p

/-- Write received words into the coefficient SRAM: `off` counts bytes from the first channel's word 0. -/
def putCoefs (e : Engine) (first bank off : Nat) : List Byte → Engine
  | b0 :: b1 :: b2 :: b3 :: t =>
    putCoefs (e.setWord (coefOff (first + off / 4096) bank (off % 4096 / 4)) (BitVec.ofNat 32 (fromLe [b0, b1, b2, b3])))
      first bank (off + 4) t
  | _ => e

/-- A completion of the oldest read of the command at the head of the command channel. What it brings for a COMPARE is held against the staging memory as SVC_RD
reads that (R284): under HALT it reads no more of it, and the COMPARE stays as it is (R204). A read that fails ends a COMPARE once the bytes got before it are
compared. -/
def hostRead (e0 : Engine) (data : List Byte) (err : Option ReadErr) : Engine :=
  let e := e0.passes 97 (beats data.length)
  match e.dma.work.head? with
  | some (.bank h addr first count bank asked got (r :: reads)) =>
    match err with
    | some _ => ((e.overWork reads).setBanks first count bank 0).finishHseq h stHostReadError []
    | none =>
      let e1 := e.putCoefs first bank got (sliceBytes data 0 r)
      if got + r = 4096 * count then ((e1.setWork none).setBanks first count bank 1).finishHseq h stOk []
      else e1.setWork (some (.bank h addr first count bank asked (got + r) reads))
  | some (.compare h addr sa len asked got (r :: reads) fb n thr failed) =>
    if failed || err.isSome then (e.setWork (some (.compare h addr sa len asked got reads fb n thr true))).compareOver
    else (e.setWork (some (.compare h addr sa len asked (got + r) reads fb n thr false))).raiseRange false 1 (sa + got) r []
      (.compare h sa got (sliceBytes data 0 r))
  | some (.spent n) => e.setWork (if n ≤ 1 then none else some (.spent (n - 1)))
  | _ => e

/-- DMA_CTRL written with SNAP (R272): the three books latched in one cycle; CMD_SHARE as written, 0 stored as 1. -/
def dmaSnap (e : Engine) (value : Word) : Engine :=
  let share := R.DMA_CTRL.CMD_SHARE.get value
  let e1 := e.wr R.DMA_CTRL.CMD_SHARE (if share = 0 then 1 else share)
  if R.DMA_CTRL.SNAP.get value = 1 then
    ((e1.wr R.DMA_BOOK_FREE.V e.bookFree).wr R.DMA_BOOK_FILLED.V e.bookFilled).wr R.DMA_BOOK_INFLIGHT.V e.bookFlight
  else e1

/-- The highest index of a line of a side committed to STAGE (R187). -/
def noteCommit (e : Engine) (s index : Nat) : Engine :=
  { e with eddy := modAt e.eddy s fun y => { y with committed := some (max index (y.committed.getD 0)) } }

end Engine

/-- DMA_SNAP (R272). -/
def execDmaSnap (share : Word) (s : State) : Answer :=
  .next (s.onEng fun e => e.gate R.DMA_CTRL.SNAP.off fun x => x.dmaSnap (share ||| 0x80000000))

/-- DMA_BURST (R273 to R275): of what it sends, `poison` words of DMA_OUT are read with a poison tag (R211, log 143). -/
def execDmaBurst (poison : Nat) (s : State) : Answer :=
  .next (s.onEng fun e =>
    let e1 := e.oneBurst s.stg
    if poison = 0 ∨ e1.link.out.length = e.link.out.length then e1 else e1.count (R.QUE_POISON.V 96) poison)

/-- READBACK_COMPLETION (R276, R283). -/
def execReadbackCompletion (n : ChannelIx) (s : State) : Answer :=
  .next (s.onEng fun e => if n.val = 16 then e.fillReadback false else e.readbackOk n.val)

/-- READBACK_ERROR (R280, R283), reported through AER (R232). -/
def execReadbackError (n : ChannelIx) (kind : ReadErr) (s : State) : Answer :=
  .next (s.onEng fun e => (if n.val = 16 then e.fillReadback true else e.readbackFail n.val kind).noteAer (.completion kind) none)

/-- FAST_COMPLETION_ACK (R277): the oldest buffer of a FAST stream that waits for its Ack is confirmed. -/
def execFastCompletionAck (n : StreamIx) (s : State) : Answer :=
  .next (s.onEng fun e =>
    match (e.stream n.val).bufs.find? fun b => b.confirm == .fast with
    | some b => e.confirmBuf n.val b.idx
    | none => e)

/-- HOST_READ_COMPLETION (R284, R285); an error is reported through AER (R232). -/
def execHostReadCompletion (data : List Byte) (err : Option ReadErr) (s : State) : Answer :=
  .next (s.onEng fun e => match err with | some k => (e.hostRead data err).noteAer (.completion k) none | none => e.hostRead data none)

/-- STAGE_LINE_COMMIT (R278): the last STAGE_WR burst of a stream's oldest line still being written is through: the line is complete in STAGE and may be sent.
Nothing commits under HALT (R204). -/
def execStageLineCommit (n : StreamIx) (s : State) : Answer :=
  .next (s.onEng fun e =>
    match (e.stream n.val).stage.find? fun l => !l.committed with
    | some l =>
      if !e.stagingLive || e.resetting.isSome || e.standing (fun w => w == .stage n.val l.place) then e
      else
        let rec mark : List StageLine → List StageLine
          | [] => []
          | x :: t => if x.committed then x :: mark t else { x with committed := true } :: t
        let s := e.sideOf n.val
        (((e.count (R.STR_LINES.V n.val) 1).docBytes s l.page l.bytes.length).noteCommit s l.index).modStream n.val fun x =>
          { x with stage := mark x.stage }
    | none => e)

end Sys2Proof.Machine
end

