-- ==== Sys2Proof/Machine/Geometry.lean ====
section
/-!
DEFINITION. The page-geometry detector (R147 to R155): cells, backing level, document lines and their edges, leading and trailing edges with the
tracker windows of R99, and the geometry block of a closed frame (R153, R154).
-/

namespace Sys2Proof.Machine

namespace Engine

/-- The detector of a side. -/
def geoSide (e : Engine) (s : Nat) : GeoSt := e.geo.getD s GeoSt.init

/-- Change the detector of a side. -/
def modGeo (e : Engine) (s : Nat) (f : GeoSt → GeoSt) : Engine := { e with geo := modAt e.geo s f }

/-- The detector of a side runs: enabled, with a job open. -/
def geoRuns (e : Engine) (s : Nat) : Bool := e.on (R.GEO_CTRL.EN s) && e.job.isOpen

/-- The detector's plane is an AUX row in ALT mode. -/
def geoAlt (e : Engine) (s : Nat) : Bool := e.rd (R.GEO_CTRL.PLANE s) == 3 && e.altMode s

/-- A line is a used line (R150). -/
def geoUses (e : Engine) (s auxkind : Nat) : Bool := !e.geoAlt s || auxkind == e.rd (R.GEO_CTRL.ALTKIND s) + 1

/-- The number of the gap calibration line that an index is, where it is one (R79). -/
def gapLine (e : Engine) (n : Nat) : Option Nat :=
  e.cal.gapSpans.findSome? fun x => if x.1 ≤ n ∧ n ≤ x.2 then some (n - x.1) else none

/-- Values of the 1,920 cells: means of 4 pixels, halves upward (R147). -/
def cellValues : Nat → List Nat → List Nat
  | 0, _ => []
  | n + 1, l => ((sumNat (l.take 4) + 2) / 4) :: cellValues n (l.drop 4)

/-- Contrast of a cell (R147); the reserved POL = 3 acts as EITHER (DESIGN CHOICE, log 156). -/
def contrast (pol : Nat) (b : Int) (v : Nat) : Int :=
  match pol with
  | 1 => (v : Int) - b
  | 2 => b - v
  | _ => ((v : Int) - b).natAbs

/-- Cell states after a line (R147). -/
def cellStep (on off : Int) (old : Bool) (c : Int) : Bool := if old then !decide (c < off) else decide (on ≤ c)

/-- Runs of document cells at least `min` long, as first and last cell; `at'` counts cells and `start` is the first of the run in progress. -/
def runs (min : Nat) : Nat → Option Nat → List Bool → List (Nat × Nat)
  | at', start, [] => match start with | some a => if min ≤ at' - a then [(a, at' - 1)] else [] | none => []
  | at', start, c :: t =>
    match c, start with
    | true, some a => runs min (at' + 1) (some a) t
    | true, none => runs min (at' + 1) (some at') t
    | false, some a => (if min ≤ at' - a then [(a, at' - 1)] else []) ++ runs min (at' + 1) none t
    | false, none => runs min (at' + 1) none t

/-- Side edges of a document line from its contrasts (R149). -/
def sideEdges (on off : Nat) (c : List Int) (i j : Nat) : Rat × Rat :=
  let mid : Rat := ((on + off : Nat) : Rat) / 2
  let at' (k : Nat) : Rat := c.getD k 0
  let left : Rat :=
    if i = 0 then -1 / 2
    else if at' i ≤ at' (i - 1) then 4 * i - 1 / 2
    else ratMax (4 * i - 5 / 2) (ratMin (4 * i + 3 / 2) (4 * i - 5 / 2 + 4 * (mid - at' (i - 1)) / (at' i - at' (i - 1))))
  let right : Rat :=
    if j = 1919 then 15359 / 2
    else if at' j ≤ at' (j + 1) then 4 * j + 7 / 2
    else ratMax (4 * j + 3 / 2) (ratMin (4 * j + 11 / 2) (4 * j + 3 / 2 + 4 * (at' j - mid) / (at' j - at' (j + 1))))
  (left, right)

/-! ### Documents and the tracker windows -/

/-- d_r of a row in lines, upward and downward (R99). -/
def dUp (e : Engine) (s r : Nat) : Nat := (e.rd (R.EDY_OFS.D s r) + 63) / 64
/-- d_r of a row in lines, downward. -/
def dDown (e : Engine) (s r : Nat) : Nat := e.rd (R.EDY_OFS.D s r) / 64

/-- n_le is reported: a document window opens for each row in use (R99). -/
def openWindows (e : Engine) (s nle : Nat) : Engine :=
  let ws := (e.usedRows s).map fun r => DocWin.mk s r ((nle : Int) - e.dUp s r - 3) none
  { e with shd := { e.shd with windows := e.shd.windows ++ ws } }

/-- n_te is reported: the windows of the side that are open end; windows long past are forgotten. -/
def closeWindows (e : Engine) (s nte : Nat) : Engine :=
  let ws := e.shd.windows.map fun w =>
    if w.side = s ∧ w.last.isNone then { w with last := some ((nte : Int) - e.dDown s w.row + 3) } else w
  { e with shd := { e.shd with windows := ws.filter fun w => match w.last with | some l => decide ((nte : Int) - 400 ≤ l) | none => true } }

/-- A document belongs to a page's frame: it holds n_le, or the document's lines are present at its first line (R152). -/
def inFrame (p : Page) (nle n : Nat) : Bool :=
  (decide (p.first ≤ nle) && (match p.last with | some l => decide (nle ≤ l) | none => true)) || decide (nle ≤ p.first ∧ p.first ≤ n)

/-- A leading edge is confirmed at line n (R150). -/
def leadingEdge (e : Engine) (s n : Nat) (d : GeoDoc) : Engine :=
  let framed := (e.frameSide s).pages.any fun p => inFrame p d.nle n
  let e1 := e.modGeo s fun g => { g with docs := g.docs ++ [{ d with framed := framed }], maybe := none }
  ((e1.count (R.GEO_DOC_CNT.V s) 1).wr (R.GEO_STATUS.DOC s) 1).openWindows s d.nle

/-- The document in view ends with n_te (R150); one that belongs to no frame counts as an orphan (R152). -/
def trailingEdge (e : Engine) (s nte : Nat) : Engine :=
  let g := e.geoSide s
  let orphan := g.docs.getLast?.any fun d => d.nte.isNone && !d.framed
  let e1 := e.modGeo s fun g => { g with docs := g.docs.map fun d => if d.nte.isNone then { d with nte := some nte } else d }
  let e2 := if orphan then e1.count (R.GEO_ORPHAN_CNT.V s) 1 else e1
  (e2.wr (R.GEO_STATUS.DOC s) 0).closeWindows s nte

/-- A document is in view. -/
def docInView (e : Engine) (s : Nat) : Bool := (e.geoSide s).docs.getLast?.any fun d => d.nte.isNone

/-- A document line n of the document in view: a frame whose first line lies between n_le and it has the document present there (R152). -/
def frameTakesDoc (e : Engine) (s n : Nat) : Engine :=
  let pages := (e.frameSide s).pages
  e.modGeo s fun g => { g with docs := g.docs.map fun d =>
    if d.nte.isNone then { d with framed := d.framed || pages.any fun p => decide (d.nle ≤ p.first ∧ p.first ≤ n) } else d }

/-- The last document line of the document in view. -/
def lastDocLine (g : GeoSt) : Nat :=
  match g.docs.getLast? with
  | some d => ((d.lines.filter fun l => l.edges.isSome).getLast?.map fun l => l.y).getD d.nle
  | none => 0

/-- A used line that is a document line, or not, moves the edge decisions (R150). -/
def geoDecide (e : Engine) (s n : Nat) (line : GeoLine) : Engine :=
  let lim (v : Nat) : Nat := if e.geoAlt s then min 2 v else v
  let le := lim (clampNat 1 4 (e.rd (R.GEO_EDGE.LE_LINES s)))
  let te := lim (clampNat 1 4 (e.rd (R.GEO_EDGE.TE_LINES s)))
  let g := e.geoSide s
  if e.docInView s then
    let e1 := e.modGeo s fun g =>
      { g with docs := g.docs.map fun d => if d.nte.isNone then { d with lines := d.lines ++ [line] } else d }
    if line.edges.isSome then (e1.modGeo s fun g => { g with runOff := 0 }).frameTakesDoc s n
    else
      let e2 := e1.modGeo s fun g => { g with runOff := g.runOff + 1 }
      if te ≤ g.runOff + 1 then (e2.modGeo s fun g => { g with runOff := 0, runDoc := 0 }).trailingEdge s (lastDocLine g) else e2
  else if line.edges.isSome then
    let d := g.maybe.getD ⟨n, none, [], false, false⟩
    let d1 := { d with lines := d.lines ++ [line] }
    let e1 := e.modGeo s fun g => { g with runDoc := g.runDoc + 1, maybe := some d1 }
    if le ≤ g.runDoc + 1 then (e1.modGeo s fun g => { g with runDoc := 0, runOff := 0 }).leadingEdge s n d1 else e1
  else e.modGeo s fun g => { g with runDoc := 0, maybe := none }

/-- A document line of a gap calibration (R83, R151): a leading edge, which abandons the calibration and raises FAULT. -/
def geoInGap (e : Engine) (s n : Nat) (line : GeoLine) : Engine :=
  if line.edges.isNone || e.docInView s then e
  else
    let running := e.cal.gapStart.isSome
    let e1 := if running then e.gapAbandon.fault 0x08 (e.rd R.CAL_CTRL.LEAD_DI) 0 0 [(24, 6, n)] else e
    e1.leadingEdge s n ⟨n, none, [line], running, false⟩

/-- The detector takes aligned line n of its side (R147 to R151). The mean of the 16 learning lines is rounded to nearest, halves upward (DESIGN CHOICE, log 64). -/
def detect (e : Engine) (s n : Nat) (pixels : List Nat) (auxkind : Nat) : Engine :=
  let g := e.geoSide s
  let gap := e.gapLine n
  if !e.geoRuns s || !e.geoUses s auxkind || (match g.passTo with | some p => decide (n ≤ p) | none => false)
      || gap.any (fun k => decide (k < 20)) then e
  else
    let v := cellValues 1920 pixels
    let sum := sumNat v
    if gap.isNone && e.on (R.GEO_CTRL.BAUTO s) && decide (g.learnN < 16) then
      let total := g.learnSum + sum
      e.modGeo s fun g =>
        { g with learnN := g.learnN + 1, learnSum := total, back := if g.learnN = 15 then divNearest total (16 * 1920) else g.back }
    else
      let c := v.map (contrast (e.rd (R.GEO_CTRL.POL s)) g.back)
      let on := e.rd (R.GEO_THR.T_ON s)
      let off := e.rd (R.GEO_THR.T_OFF s)
      let cells := g.cells.zipWith (cellStep on off) c
      let rs := runs (max 1 (e.rd (R.GEO_CTRL.RUN s))) 0 none cells
      let edges := match rs.head?, rs.getLast? with
        | some a, some b => some (sideEdges on off c a.1 b.2)
        | _, _ => none
      let line : GeoLine := ⟨n, cells, edges⟩
      let e1 := e.modGeo s fun g => { g with cells := cells }
      if gap.isSome then e1.geoInGap s n line
      else
        let e2 := e1.geoDecide s n line
        if e.on (R.GEO_CTRL.BAUTO s) && !cells.any (fun b => b) then
          e2.modGeo s fun g => { g with back := g.back + Int.fdiv ((sum : Int) + 1920 * (32 - g.back)) (1920 * 64) }
        else e2

/-! ### The geometry block (R153, R154) -/

/-- A least-squares line y = a + b x. Where no column or one survives TRIM its slope is 0, with a = −1/2 or that column's value (DESIGN CHOICE, log 157). -/
def fitLine (pts : List (Rat × Rat)) : Rat × Rat :=
  let n : Rat := (pts.length : Nat)
  let sx := (pts.map fun p => p.1).foldl (· + ·) 0
  let sy := (pts.map fun p => p.2).foldl (· + ·) 0
  let sxx := (pts.map fun p => p.1 * p.1).foldl (· + ·) 0
  let sxy := (pts.map fun p => p.1 * p.2).foldl (· + ·) 0
  let den := n * sxx - sx * sx
  if den = 0 then (if n = 0 then -1 / 2 else sy / n, 0)
  else
    let b := (n * sxy - sx * sy) / den
    ((sy - b * sx) / n, b)

/-- The smallest of a list of rationals. -/
def minRat (l : List Rat) : Rat := l.foldl ratMin (l.headD 0)
/-- The largest of a list of rationals. -/
def maxRat (l : List Rat) : Rat := l.foldl ratMax (l.headD 0)

/-- A signed 16-bit field that saturates, and whether it did. -/
def sat16 (v : Int) : Nat × Bool := (ofSigned 16 (clampInt (-32768) 32767 v), decide (v < -32768 ∨ 32767 < v))

/-- The centre of a cell in pixels. -/
def cellX (i : Nat) : Rat := 4 * i + 3 / 2

/-- CAL_OVERLAP of R154: a gap calibration was abandoned for a line of the page. -/
def overlapFlag (p : Page) (docs : List GeoDoc) : Nat := 256 * b2n (p.overlap || docs.any fun d => d.overlap)

/-- A document line of a document is known to lie at or after line n. -/
def docReaches (d : GeoDoc) (n : Nat) : Bool :=
  match d.nte with
  | some t => decide (n ≤ t)
  | none => d.lines.any fun l => l.edges.isSome && decide (n ≤ l.y)

/-- A document is present at line n, the last of a frame (R154): a document line lies at or after it, or, where no later one is known, the latest used line
before it is one and the trailing edge is not decided. -/
def docAtEnd (d : GeoDoc) (n : Nat) : Bool :=
  docReaches d n || (d.nte.isNone && ((d.lines.filter fun l => decide (l.y ≤ n)).getLast?.any fun l => l.edges.isSome))

/-- CONF of R153, exactly: the largest c up to 255 with c ≤ 255 × kept / cols × (1 − √ms / 2) + 1/2, else 0. -/
def confOf (kept cols : Nat) (ms : Rat) : Nat :=
  let k : Rat := 255 * (kept : Rat) / (cols : Rat)
  let fits (c : Nat) : Bool := let d : Rat := k - c + 1 / 2; decide (0 ≤ d ∧ k * k * ms ≤ 4 * d * d)
  (((upTo 256).filter fits).getLast?).getD 0

/-- The block of a document within a frame: first and last line of the frame, N_LE, r, TRIM, MARGIN, B, DOCS and the flags already known. -/
def docBlock (first last : Nat) (d : GeoDoc) (r : Rat) (trim margin : Nat) (back : Int) (docs flags : Nat) : List Byte :=
  let leOpen := decide (d.nle ≤ first)
  let nle := max first d.nle
  let endLine := match d.nte with | some t => min t last | none => last
  let teOpen := docAtEnd d last
  let ls := d.lines.filter fun l => decide (nle ≤ l.y ∧ l.y ≤ endLine)
  let doc := ls.filter fun l => l.edges.isSome
  let rel (y : Nat) : Rat := (y : Rat) - nle
  let dl := ((doc.getLast?.map fun l => l.y).getD nle) - nle
  let xl := doc.map fun l => (rel l.y, (l.edges.getD (0, 0)).1)
  let xr := doc.map fun l => (rel l.y, (l.edges.getD (0, 0)).2)
  let xmin := minRat (xl.map fun p => p.2)
  let xmax := maxRat (xr.map fun p => p.2)
  let f (i : Nat) : Option Nat := (ls.find? fun l => l.cells.getD i false).map fun l => l.y
  let g (i : Nat) : Option Nat := (ls.reverse.find? fun l => decide (l.y ≤ nle + dl) && l.cells.getD i false).map fun l => l.y
  let cols := (upTo 1920).filterMap fun i =>
    match f i with
    | some y => if xmin + 4 * margin ≤ cellX i ∧ cellX i ≤ xmax - 4 * margin ∧ !(leOpen && y == first) then some (i, y) else none
    | none => none
  let noFit := decide (cols.length < 8)
  let pts := cols.map fun (i, y) => (cellX i, rel y - 1 / 2)
  let fit1 := fitLine pts
  let keep (p : Rat × Rat) : Bool :=
    let d := p.2 - (fit1.1 + fit1.2 * p.1)
    decide (d ≤ trim ∧ -d ≤ trim)
  let kept := if noFit then [] else cols.filter fun (i, y) => keep (cellX i, rel y - 1 / 2)
  let kpts := kept.map fun (i, y) => (cellX i, rel y - 1 / 2)
  let fit := if noFit then (-1 / 2, 0) else fitLine kpts
  let a := fit.1
  let b := fit.2
  let ms : Rat := if kpts.isEmpty then 0 else (kpts.map fun p => (p.2 - (a + b * p.1)) * (p.2 - (a + b * p.1))).foldl (· + ·) 0 / (kpts.length : Nat)
  let conf := if noFit then 0 else confOf kept.length cols.length ms
  let m := r * b
  let skew := ratAway ((atanFix m : Rat) * 18000 / 3141592653589793)
  let gs := kept.filterMap fun (i, _) => (g i).map fun y => rel y + 1 / 2 - b * cellX i
  let at' : Rat := if gs.isEmpty then a + dl + 1 else gs.foldl (· + ·) 0 / (gs.length : Nat)
  let cl := minRat (xl.map fun p => p.2 + m * r * p.1)
  let cr := maxRat (xr.map fun p => p.2 + m * r * p.1)
  let corner (l c : Rat) : Int × Int :=
    let x := (c - m * r * l) / (1 + m * m)
    (ratAway (4 * x), ratAway (2 * (l + b * x)))
  let cs := [corner a cl, corner a cr, corner at' cr, corner at' cl]
  let ySat := cs.any fun c => (sat16 c.2).2
  let clip (i : Nat) : Bool := doc.any fun l => l.cells.getD i false
  let fl := flags + 2 * b2n leOpen + 4 * b2n teOpen + 8 * b2n (decide (1 < docs)) + 16 * b2n (clip 0) + 32 * b2n (clip 1919)
    + 512 * b2n ySat + 1024 * b2n noFit
  layBytes 40 ([(0, 6, nle), (6, 2, min 65535 dl), (8, 2, (sat16 (ratAway (4 * xmin))).1), (10, 2, (sat16 (ratAway (4 * xmax))).1),
    (12, 2, (sat16 skew).1), (14, 1, conf), (15, 1, min 255 docs), (16, 2, fl), (18, 2, kept.length),
    (36, 2, (clampInt 0 65535 back).toNat)]
    ++ (cs.zipIdx.map fun (c, i) => [(20 + 4 * i, 2, (sat16 c.1).1), (22 + 4 * i, 2, (sat16 c.2).1)]).flatten)

/-- The block of a closed frame, without the flags that its PAGE_END adds. -/
def geoBlock (e : Engine) (s : Nat) (p : Page) (first last : Nat) (back : Int) : List Byte :=
  if !e.on (R.GEO_CTRL.EN s) then layBytes 40 [(16, 2, overlapFlag p [] + 2048)]
  else
    let docs := (e.geoSide s).docs
    let mine := docs.filter fun d => decide (first ≤ d.nle ∧ d.nle ≤ last)
    let present := docs.filter fun d => decide (d.nle < first) && docReaches d first
    let overlap := overlapFlag p (mine ++ present)
    match (present ++ mine).head? with
    | none => layBytes 40 [(16, 2, overlap + 1), (36, 2, (clampInt 0 65535 back).toNat)]
    | some d =>
      let r : Rat := (e.pitch : Nat) / (max 1 (e.rd R.EDY_NAT_PITCH.PITCH) : Nat)
      docBlock first last d r (clampNat 1 15 (e.rd (R.GEO_EDGE.TRIM s))) (e.rd (R.GEO_EDGE.MARGIN s)) back mine.length overlap

/-- PAGE_GEOMETRY_DONE (R155): the computation of the oldest closed frame completes. -/
def geometryDone (e : Engine) (s : Nat) : Engine :=
  match (e.geoSide s).busy with
  | [] => e
  | (no, first, last, back) :: rest =>
    match (e.frameSide s).pages.find? fun p => p.no == no && p.closed && p.geometry.isNone with
    | none => e.modGeo s fun g => { g with busy := rest }
    | some p =>
      let block := e.geoBlock s p first last back
      let e1 := e.modFrame s fun x =>
        { x with pages := x.pages.map fun q => if q.no = no ∧ q.closed ∧ q.geometry.isNone then { q with geometry := some block } else q }
      (e1.modGeo s fun g =>
        { g with busy := rest, docs := g.docs.filter fun d => match d.nte with | some t => decide (last < t) | none => true }).wr
        (R.GEO_STATUS.BUSY s) (b2n !rest.isEmpty)

end Engine

/-- PAGE_GEOMETRY_DONE (R155). -/
def execPageGeometryDone (side : Side) (s : State) : Answer := .next (s.onEng fun e => e.geometryDone side.val)

end Sys2Proof.Machine
end

