-- ==== Sys2Proof/Machine/Monitors.lean ====
section
/-!
DEFINITION. The signal monitors MON0 to MON15 (R158 to R161).
-/

namespace Sys2Proof.Machine

namespace Engine

/-- A monitor. -/
def monOf (e : Engine) (m : Nat) : MonSt := e.mon.getD m MonSt.init

/-- Change a monitor. -/
def modMon (e : Engine) (m : Nat) (f : MonSt → MonSt) : Engine := { e with mon := modAt e.mon m f }

/-- A new window. -/
def newWindow (x : MonSt) : MonSt := { x with n := 0, peak := none, sum := 0, sumSq := 0, count := 0 }

/-- MONITOR (R161, R268) with the result held. -/
def monEvent (e : Engine) (m : Nat) : Engine :=
  let x := e.monOf m
  let (v, out, px, idx) := x.heldResult
  (e.modMon m fun y => { y with held := false, heldFolds := 0, lastEvt := some e.now }).emit 0x13 m 0 (b2n out) none
    [(24, 4, v), (28, 2, px), (30, 6, idx), (36, 4, x.heldFolds)]

/-- The registers show a result: INDEX and PEAKX stay frozen where RESULT has been read (R158). -/
def monShow (e : Engine) (m : Nat) : Engine :=
  let x := e.monOf m
  let p := x.frozen.getD x.live
  (e.wrPair (R.MON_INDEX_LO.V m) (R.MON_INDEX_HI.V m) p.1).wr (R.MON_PEAKX.V m) p.2

/-- VALUE of a window's result in 1/16 code (R160). -/
def monValue (mode ac : Nat) (x : MonSt) : Nat :=
  match mode with
  | 0 => 16 * (x.peak.getD (0, 0)).1
  | 2 => x.env
  | _ =>
    let n := max 1 x.count
    sqrt16 (if ac = 1 then ((n * x.sumSq - x.sum * x.sum : Nat) : Rat) / ((n * n : Nat) : Rat) else (x.sumSq : Rat) / (n : Rat))

/-- A window ends and gives its result (R160, R161). -/
def monResult (e : Engine) (m : Nat) : Engine :=
  let x := e.monOf m
  let mode := e.rd (R.MON_CTRL.MODE m)
  let v := monValue mode (e.rd (R.MON_CTRL.AC m)) x
  let out := decide (v / 16 < e.rd (R.MON_LIM.LO m) ∨ e.rd (R.MON_LIM.HI m) < v / 16)
  let px := match mode with | 0 => (x.peak.getD (0, 0)).2 | 2 => x.envX | _ => x.live.2
  let e1 := (((e.wr (R.MON_RESULT.VALID m) 1).wr (R.MON_RESULT.OUT m) (b2n out)).wr (R.MON_RESULT.VALUE m) v).modMon m fun y =>
    newWindow { y with live := (y.lastIndex, px) }
  let e2 := e1.monShow m
  let due := match e.rd (R.MON_CTRL.EVT m) with | 1 => true | 2 => out | _ => false
  if !due then e2
  else
    let e3 := if x.held then (e2.modMon m fun y => { y with heldFolds := y.heldFolds + 1 }).count R.MON_FOLD_CNT.V 1 else e2
    let e4 := e3.modMon m fun y => { y with held := true, heldResult := (v, out, px, x.lastIndex) }
    match x.lastEvt with
    | some t => if e.now < t + 1000000 then e4 else e4.monEvent m
    | none => e4.monEvent m

/-- An accepted line enters a window (R160): pixels X0 to X0 + W − 1. -/
def monFold (mode : Nat) (minimum : Bool) (k x0 : Nat) (pixels : List Nat) (n : Nat) (x : MonSt) : MonSt :=
  let y := { x with n := x.n + 1, lastIndex := n }
  let better (a b : Nat) : Bool := if minimum then decide (a < b) else decide (b < a)
  match mode with
  | 0 =>
    { y with peak := pixels.zipIdx.foldl (fun (p : Option (Nat × Nat)) (v, i) =>
        match p with
        | some q => if better v q.1 then some (v, x0 + i) else p
        | none => some (v, x0 + i)) x.peak }
  | 2 =>
    let top := pixels.zipIdx.foldl (fun (p : Nat × Nat) (v, i) => if p.1 < v then (v, i) else p) (0, 0)
    let decayed := x.env - x.env / 2 ^ k
    if decayed < 16 * top.1 then { y with env := 16 * top.1, envX := x0 + top.2 } else { y with env := decayed }
  | _ => { y with sum := x.sum + sumNat pixels, sumSq := x.sumSq + sumNat (pixels.map fun v => v * v), count := x.count + pixels.length }

/-- A monitor accepts a line of its plane (R159). -/
def monAccepts (e : Engine) (m n : Nat) (f : LineFlags) : Bool :=
  let alt := e.rd (R.MON_CTRL.PLANE m) % 4 == 3 && e.altMode (e.rd (R.MON_CTRL.PLANE m) / 4)
  let k := e.rd (R.MON_CTRL.KIND m)
  (e.gapLine n).isNone && !f.subst && !f.tapFault && (!alt || k == 0 || f.auxkind == k)

/-- A monitor at aligned line n of its side. `frame` is the first line of the frame the line lies in, `closes` whether that frame closes there. -/
def monLine (e : Engine) (m n : Nat) (al : AlignedLine) (frame : Option Nat) (closes : Bool) : Engine :=
  let plane := e.rd (R.MON_CTRL.PLANE m)
  let s := plane / 4
  let en := e.on (R.MON_CTRL.EN m)
  let e1 := if en = (e.monOf m).enabled then e else e.modMon m fun x => newWindow { x with enabled := en }
  if !en then e1
  else
    let x0 := e.rd (R.MON_XWIN.X0 m)
    let px := ((al.planes.getD (plane % 4) []).drop x0).take (e.rd (R.MON_XWIN.W m))
    let ok := e.monAccepts m n (al.tags.getD (plane % 4) LineFlags.clear)
    let fold (x : Engine) : Engine :=
      x.modMon m (monFold (e.rd (R.MON_CTRL.MODE m)) (e.on (R.MON_CTRL.MIN m)) (min 12 (e.rd (R.MON_CTRL.K m))) x0 px n)
    let len := max 1 (e.rd (R.MON_LWIN.LEN m))
    match e.rd (R.MON_CTRL.LWIN m) with
    | 1 =>
      match frame with
      | some first =>
        let a := first + e.rd (R.MON_LWIN.FIRST m)
        let inside := decide (a ≤ n ∧ n < a + len)
        let e2 := if ok && inside then fold e1 else e1
        if (closes || n + 1 == a + len) && decide (0 < (e2.monOf m).n) then e2.monResult m else e2
      | none => e1
    | 2 =>
      let back := e.on (R.GEO_CTRL.EN s) && !(e.geoSide s).cells.any fun b => b
      let e2 := if ok && back then fold e1 else e1
      if ok && back && decide (len ≤ (e2.monOf m).n) then e2.monResult m else e2
    | _ =>
      let e2 := if ok then fold e1 else e1
      if ok && decide (len ≤ (e2.monOf m).n) then e2.monResult m else e2

/-- Every monitor of a side at an aligned line, lower numbers first (R270). -/
def monitors (e : Engine) (s n : Nat) (al : AlignedLine) (frame : Option Nat) (closes : Bool) : Engine :=
  (upTo 16).foldl (fun x m => if x.rd (R.MON_CTRL.PLANE m) / 4 = s then x.monLine m n al frame closes else x) e

/-- Every monitor at JOB_OPEN and after a takeover (R160); an event held back stays due (R161). -/
def resetMonitors (e : Engine) : Engine :=
  (upTo 16).foldl (fun x m => (x.wr (R.MON_RESULT.VALID m) 0).modMon m fun y => newWindow { y with env := 0, envX := 0 }) e

/-- A frame of a side closes where no aligned line brings it about: the PAGE windows it cuts short end (R159). -/
def closePageWindows (e : Engine) (s : Nat) : Engine :=
  (upTo 16).foldl (fun x m =>
    let y := x.monOf m
    if x.rd (R.MON_CTRL.PLANE m) / 4 = s ∧ x.rd (R.MON_CTRL.LWIN m) = 1 ∧ y.enabled ∧ 0 < y.n then x.monResult m else x) e

/-- An aligned read of MONm_RESULT (R158): INDEX and PEAKX freeze at the present result. -/
def readResult (e : Engine) (m : Nat) : Engine :=
  let e1 := { e with rsp := leBytes 4 (e.word (R.MON_RESULT.word m).off).toNat }
  (e1.modMon m fun x => { x with frozen := some x.live }).monShow m

end Engine

/-- MONITOR_HOLDOFF (R161): a held event is emitted 1 ms after the monitor's previous one. -/
def execMonitorHoldoff (m : Fin 16) (s : State) : Answer :=
  .next (s.onEng fun e =>
    let x := e.monOf m.val
    if x.held && (match x.lastEvt with | some t => decide (t + 1000000 ≤ e.now) | none => true) then e.monEvent m.val else e)

/-- MON_RESULT_READ (R158). -/
def execMonResultRead (m : Fin 16) (s : State) : Answer := .next (s.onEng fun e => e.reading fun x => x.readResult m.val)

end Sys2Proof.Machine
end

