-- ==== Sys2Proof/Machine/Eddy.lean ====
section
/-!
DEFINITION. Stage 8 (R113 to R121): row offsets, interpolation, the tags of aligned lines (R17), and what an aligned line feeds: the frames, the
detector, the monitors and the geometry units.
-/

namespace Sys2Proof.Machine

namespace Engine

/-! ### Row offsets at JOB_OPEN (R114) -/

/-- d_r of each row of a side, none for a row not in use. -/
def rowOffsets (e : Engine) (s : Nat) : List (Option Nat) :=
  let rows := e.rowsInUse s
  let space (r : Nat) : Nat := e.rd (R.EDY_SPACE.SPACE s r)
  let low := rows.foldl (fun m r => min m (space r)) 4095
  (upTo 4).map fun r =>
    if rows.contains r then some (divNearest ((space r - low) * e.rd R.EDY_NAT_PITCH.PITCH) e.pitch).toNat else none

/-- The zero-offset row of a side: the smallest SPACE, the lowest number on a tie. -/
def zeroRow (e : Engine) (s : Nat) : Option Nat :=
  let rows := e.usedRows s
  let low := rows.foldl (fun m r => min m (e.rd (R.EDY_SPACE.SPACE s r))) 4095
  rows.find? fun r => e.rd (R.EDY_SPACE.SPACE s r) == low

/-- EDY_OFSs_r for the job being opened. -/
def loadOffsets (e : Engine) (s : Nat) : Engine :=
  (e.rowOffsets s).zipIdx.foldl (fun x (d, r) =>
    match d with
    | some v =>
      let odd := if r = 3 ∧ e.altMode s then (v + 32) / 64 % 2 else 0
      ((x.wr (R.EDY_OFS.USED s r) 1).wr (R.EDY_OFS.D s r) v).wr (R.EDY_OFS.ODD s r) odd
    | none => ((x.wr (R.EDY_OFS.USED s r) 0).wr (R.EDY_OFS.D s r) 0).wr (R.EDY_OFS.ODD s r) 0) e

/-! ### Interpolation (R115, R117) -/

/-- Weights in 1/16,384 for u of 1 to 63. -/
def weights (linear : Bool) (u : Int) : List Int :=
  if linear then
    let w1 := divAway (16384 * (64 - u)) 64
    [0, w1, 16384 - w1, 0]
  else
    let w0 := divAway (-(u * u * u) + 128 * u * u - 4096 * u) 32
    let w1 := divAway (3 * u * u * u - 320 * u * u + 524288) 32
    let w3 := divAway (u * u * u - 64 * u * u) 32
    [w0, w1, 16384 - w0 - w1 - w3, w3]

/-- The raw lines and weights that make aligned line n of a row; a line of weight 0 is no part of the footprint. -/
def footprint (e : Engine) (s r n : Nat) : List (Int × Int) :=
  let d := e.rd (R.EDY_OFS.D s r)
  if r = 3 ∧ e.altMode s then [((n : Int) - (d + 32) / 64, 16384)]
  else
    let p : Int := (n : Int) - (d + 63) / 64
    let u : Int := 64 * ((d + 63) / 64 : Nat) - d
    if u = 0 then [(p, 16384)]
    else ((weights (e.on R.EDY_CTRL.KERNEL) u).zipIdx.map fun (w, i) => (p - 1 + i, w)).filter fun x => x.2 != 0

/-- The raw line nearest aligned line n's position x, the lower index on a tie. -/
def nearest (e : Engine) (s r n : Nat) : Int :=
  let d := e.rd (R.EDY_OFS.D s r)
  match e.footprint s r n with
  | [] => n
  | (k, _) :: t =>
    let dist (j : Int) : Nat := (64 * j - (64 * (n : Int) - d)).natAbs
    t.foldl (fun b x => if dist x.1 < dist b then x.1 else b) k

/-- The written raw line that stands for index k: the lowest one below it (R118; line 0 but after a takeover without backtrack, R371), the last one
above it (R116). -/
def clipLine (low : Nat) (finish : Option Nat) (k : Int) : Nat × Bool :=
  if k < low then (low, true)
  else match finish with
    | some n => if (n : Int) < k then (n, true) else (k.toNat, false)
    | none => (k.toNat, false)

/-- Tag of raw line k of a row. -/
def rawTag (y : EddySt) (r k : Nat) : LineFlags :=
  (((y.tags.getD r []).find? fun t => t.1 == k).map fun t => t.2).getD LineFlags.clear

/-- The kind of line of an AUX plane in ALT mode that aligned line n carries, by the parity of n − D, below 0 too (R117): 1 NIR, 2 UV; 0 elsewhere. -/
def kindAt (e : Engine) (s r n : Nat) : Nat :=
  if r = 3 ∧ e.altMode s then 1 + (((n : Int) - ((e.rd (R.EDY_OFS.D s 3) + 32) / 64 : Nat)) % 2).toNat else 0

/-- The tag of an aligned line of a row (R17, R116, R118). -/
def planeTag (e : Engine) (s r n : Nat) : LineFlags :=
  let y := e.eddySide s
  let fp := (e.footprint s r n).map fun x => clipLine y.low y.finish x.1
  let l := fp.map fun x => rawTag y r x.1
  let near := rawTag y r (clipLine y.low y.finish (e.nearest s r n)).1
  { joinTaps l with warmup := (l.any fun x => x.warmup) || (fp.any fun x => x.2), ovr := near.ovr, expgen := near.expgen, auxkind := e.kindAt s r n }

/-- Pixels of row line k of a row as they stand in EDDY, with the pixels that read with bad parity. -/
def readRow (m : Staging) (s r k : Nat) : List (Nat × Bool) :=
  let a := eddyAddr s r k
  (upTo 7680).map fun i =>
    let b := a + 2 * i
    ((m.byte b).toNat + 256 * (m.byte (b + 1)).toNat, m.isBad b || m.isBad (b + 1))

/-- An aligned plane: the weighted sum of its raw lines, with the pixels a parity error touched. -/
def planePixels (e : Engine) (m : Staging) (s r n : Nat) : List (Nat × Bool) :=
  let y := e.eddySide s
  let parts := (e.footprint s r n).map fun x => (x.2, readRow m s r (clipLine y.low y.finish x.1).1)
  match parts with
  | [(_, l)] => l
  | _ =>
    (upTo 7680).map fun i =>
      let s := parts.foldl (fun (a : Int × Bool) x => (a.1 + x.1 * ((x.2.getD i (0, false)).1 : Int), a.2 || (x.2.getD i (0, false)).2)) (0, false)
      ((clampInt 0 65535 (divNearest s.1 16384)).toNat, s.2)

/-- The raw lines of a used row that aligned line n needs have been written (R116): none of their bursts still waits for a grant (R27). -/
def rowReady (e : Engine) (s r n : Nat) : Bool :=
  let y := e.eddySide s
  let d := e.rd (R.EDY_OFS.D s r)
  let want := maxOf ((if 0 < d ∧ d < 64 then n + 1 else 0) :: (e.footprint s r n).map fun x => (clipLine y.low y.finish x.1).1)
  let want' := match y.finish with | some f => min f want | none => want
  match y.written.getD r none with
  | some w => decide (want' ≤ w) && !e.standing fun b => match b with | .row s' r' k => s' == s && r' == r && decide (k ≤ want') | _ => false
  | none => false

/-- Bursts that write a line of a stream into STAGE still stand. -/
def staging (e : Engine) (n : Nat) : Bool := e.standing fun b => match b with | .stage k _ => k == n | _ => false

/-- A geometry unit is held back by STAGE_WR (R206): a stream of its oldest frame still waits to have its line written. -/
def unitHeld (e : Engine) (g : Nat) : Bool :=
  e.stagingLive && (e.gu g).runs.head?.any fun r => r.streams.any fun x => e.staging x.1

/-- Aligned line n of a side can be read out (R116); not while a unit that is held back has 16 lines waiting (R206; DESIGN CHOICE, log 149). -/
def alignedReady (e : Engine) (s n : Nat) : Bool :=
  let y := e.eddySide s
  e.stagingLive && (match y.finish with | some f => decide (n ≤ f) | none => true)
    && (match e.zeroRow s with
        | some z => (match y.written.getD z none with | some w => decide (n ≤ w) | none => false)
            && !e.standing fun b => match b with | .row s' r' k => s' == s && r' == z && decide (k ≤ n) | _ => false
        | none => false)
    && ((e.usedRows s).all fun r => e.rowReady s r n)
    && (e.sideGus s).all fun g => !(e.unitHeld g && decide (16 ≤ (e.gu g).hist.length))

/-! ### What an aligned line feeds -/

/-- The geometry units of a side take an aligned line; where no further line can come, they learn it (R133). -/
def feedGus (e : Engine) (s : Nat) (al : AlignedLine) (ends : Bool) : Engine :=
  (e.sideGus s).foldl (fun x g => x.modGu g fun u =>
    if u.runs.isEmpty then u
    else { u with hist := u.hist ++ [al], ended := if ends then some al.index else u.ended, low := some (u.low.getD al.index) }) e

/-- The page of a side that an aligned line belongs to: its first line, and whether the line is its last. -/
def pageAt (e : Engine) (s n : Nat) : Option (Nat × Bool) :=
  ((e.frameSide s).pages.find? fun p => decide (p.first ≤ n) && (match p.last with | some l => decide (n ≤ l) | none => true)).map fun p =>
    (p.first, p.last == some n)

/-- An aligned line leaves stage 8 (R10, R22): frames, detector, monitors, geometry units. Lines below the first that the frames and the detector had seen before a
takeover are for the units (R120, R156), and for the monitors, which start afresh with the first of them (R160). -/
def deliver (e : Engine) (s : Nat) (al : AlignedLine) : Engine :=
  let n := al.index
  let y := e.eddySide s
  let ends := decide (y.finish = some n)
  if n < y.first then
    let p := e.pageAt s n
    (e.feedGus s al ends).monitors s n al (p.map fun x => x.1) (p.any fun x => x.2)
  else
    let e1 := e.frameArrive s n
    let p := e.rd (R.GEO_CTRL.PLANE s)
    let e3 := e1.detect s n (al.planes.getD p []) (al.tags.getD p LineFlags.clear).auxkind
    let e4 := if ends && e3.docInView s then e3.trailingEdge s n else e3
    let frame := (e4.frameSide s).cur.map fun f => f.first
    let e5 := (e4.feedGus s al ends).frameLeave s n y.finish
    let closes := frame.isSome && (e5.frameSide s).cur.isNone
    e5.monitors s n al frame closes

/-- The row lines that aligned line n reads. -/
def alignLines (e : Engine) (s n : Nat) : List (Nat × Nat) :=
  let y := e.eddySide s
  ((e.usedRows s).map fun r => ((e.footprint s r n).map fun x => (r, (clipLine y.low y.finish x.1).1)).eraseDups).flatten

/-- The next aligned line of a side is complete. A pixel read with bad parity takes that of the previous aligned line of its plane (R121); where there is
none, a free value. -/
def takeAligned (e : Engine) (m : Staging) (s : Nat) : Engine :=
  let y := e.eddySide s
  let n := y.next
  let raw := (upTo 4).map fun r => if (e.usedRows s).contains r then e.planePixels m s r n else List.replicate 7680 (0, false)
  let bad := sumNat (raw.map fun l => (l.filter fun v => v.2).length)
  let free := e.takeFree
  let e1 := if bad ≠ 0 ∧ y.prev.isNone then free.2 else e
  let planes := raw.zipIdx.map fun (l, r) => l.zipIdx.map fun (v, i) =>
    if v.2 then (match y.prev with | some p => (p.planes.getD r []).getD i 0 | none => free.1 % 65536) else v.1
  let tags := raw.zipIdx.map fun (l, r) =>
    let t := if (e.usedRows s).contains r then e.planeTag s r n else LineFlags.clear
    { t with poison := t.poison || l.any fun v => v.2 }
  let al : AlignedLine := ⟨n, planes, tags⟩
  ((e1.count R.EDY_POISON_CNT.V bad).modEddy s fun y => { y with next := n + 1, prev := some al, reading := false }).deliver s al

/-- ALIGNED_LINE_READOUT: once the rows it needs are written, ALIGN_RD raises the bursts of the next aligned line of a side (R21, R27); when the last of them is
through, the line is taken (log 139). -/
def readAligned (e : Engine) (m : Staging) (s : Nat) : Engine :=
  let y := e.eddySide s
  if !e.alignedReady s y.next || e.resetting.isSome then e
  else if !y.reading then
    (e.alignLines s y.next).foldl (fun x k => x.raiseRange false 3 (eddyAddr s k.1 k.2) 15360 [] (.align s)) (e.modEddy s fun y => { y with reading := true })
  else if e.standing (fun w => w == .align s) then e
  else e.takeAligned m s

/-! ### Where no further kept line can come (R116, R127) -/

/-- No further aligned line of a side comes after the one read last: the document in view ends there, the open frame closes at line n of its own. -/
def cutLines (e : Engine) (s lastRead n : Nat) (squall : Bool) : Engine :=
  let e1 := if e.docInView s then e.trailingEdge s lastRead else e
  let e2 := match (e1.frameSide s).cur with
    | some f => (e1.closeFrame s (max f.first n) false squall).closePageWindows s
    | none => e1
  (e2.sideGus s).foldl (fun x g => x.modGu g fun u => { u with ended := some lastRead }) e2

/-- The kept lines of a side end: at the last kept index, or, with the staging memory halted, at the last line committed to STAGE (R187); a frame of which
none was committed then closes at its first line (DESIGN CHOICE, log 138). Frames that begin later never open; a frame already past its last line closes. -/
def endLines (e : Engine) (s : Nat) (squall : Bool) : Engine :=
  let y := e.eddySide s
  let last : Option Nat :=
    if !e.stagingLive then y.committed
    else if e.mot.kept = 0 then none else some (e.mot.kept - 1)
  let e1 := (e.modEddy s fun y => { y with finish := last }).modFrame s fun f =>
    { f with squall := squall, fixed := f.fixed.filter fun x => match last with | some n => decide (x.first ≤ n) | none => false }
  match last, y.next with
  | _, 0 => e1
  | none, _ => if e.stagingLive then e1 else e1.cutLines s (y.next - 1) 0 squall
  | some n, _ =>
    if !e.stagingLive then e1.cutLines s (y.next - 1) n squall
    else if n < y.next then e1.cutLines s (y.next - 1) (y.next - 1) squall
    else e1
/-- The eddy buffer of a side for a new job: emptied (R118). -/
def resetEddy (e : Engine) (s : Nat) : Engine := e.modEddy s fun _ => EddySt.init

end Engine

/-- ALIGNED_LINE_READOUT (R116): of the line taken, a word of each RQ listed in `poison` is read with a poison tag (R211, log 143). -/
def execAlignedLineReadout (side : Side) (poison : List (Fin 8)) (s : State) : Answer :=
  .next (s.onEng fun e =>
    let e1 := e.readAligned s.stg side.val
    if (e1.eddySide side.val).next = (e.eddySide side.val).next then e1
    else poison.foldl (fun x d => x.count (R.QUE_POISON.V (88 + d.val)) 1) e1)

end Sys2Proof.Machine
end

