-- ==== Sys2Proof/Machine/Streams.lean ====
section
/-!
DEFINITION. Stages 9 and 10 (06_resolution_streams.md): binning and resampling (R128, R129, R131), coefficient tables (R130), histories (R133), plane sets,
tone LUTs, depth, packing and the line tag (R137 to R145), and the end of a job on its streams.
-/

namespace Sys2Proof.Machine

namespace Engine

/-! ### Resampling -/

/-- The place i and phase φ of a position in 1/65,536 units (R129). -/
def phaseOf (x : Int) : Int × Nat :=
  let i := Int.fdiv x 65536
  let f := ((x - 65536 * i).toNat + 512) / 1024
  if f = 64 then (i + 1, 0) else (i, f)

/-- A coefficient of a unit's table: `y` selects the along-track one (R130). -/
def tapCoef (e : Engine) (g : Nat) (y : Bool) (phase k : Nat) : Int :=
  let off := 0x30000 + 0x2000 * g + (if y then 0x1000 else 0) + 16 * phase + 4 * (k / 2)
  toSigned 16 ((e.word off).toNat / (if k % 2 = 1 then 65536 else 1))

/-- The sum of R129, rounded and limited. -/
def tapOut (sum : Int) : Nat := (clampInt 0 65535 (divNearest sum 16384)).toNat

/-- Binned pixels of a window (R128): means of B pixels, halves upward. -/
def binPixels (b : Nat) : Nat → List Nat → List Nat
  | 0, _ => []
  | n + 1, l => ((2 * sumNat (l.take b) + b) / (2 * b)) :: binPixels b n (l.drop b)

/-- One plane of an aligned line through a unit's cross-track path. -/
def crossLine (e : Engine) (g : Nat) (pixels : List Nat) : List Nat :=
  let b := e.binOf g
  let n := e.rd (R.GU_XWIN.W g) / b
  let src := binPixels b n ((pixels.drop (e.rd (R.GU_XWIN.X0 g))).take (e.rd (R.GU_XWIN.W g)))
  let st : Int := e.rd (R.GU_XSTEP.STEP g)
  (upTo (e.outW g)).map fun (j : Nat) =>
    let p := phaseOf (Int.fdiv (st - 65536) 2 + j * st)
    tapOut (sumInt ((upTo 8).map fun (k : Nat) => e.tapCoef g false p.2 k * ((src.getD (clampInt 0 ((n : Int) - 1) (p.1 - 3 + k)).toNat 0 : Nat) : Int)))

/-! ### Coefficient tables (R130) -/

/-- sin(π x) by its series, in units of 10⁻¹⁵, for |x| ≤ 1: `t` is the term, `u` is (π x)². -/
def sinTerms (u : Int) : Nat → Nat → Int → Int
  | 0, _, _ => 0
  | n + 1, k, t => t + sinTerms u n (k + 2) (- Int.fdiv (t * u) (1000000000000000 * ((k + 1) * (k + 2))))

/-- sin(π x) for |x| ≤ 4. -/
def sinPi (x : Rat) : Rat :=
  let m := ((x + 1) / 2).floor
  let r := x - 2 * m
  let a := (r * 3141592653589793).floor
  (sinTerms (Int.fdiv (a * a) 1000000000000000) 20 1 a : Rat) / 1000000000000000

/-- sinc x = sin(π x) / (π x). -/
def sinc (x : Rat) : Rat := if x = 0 then 1 else sinPi x / (x * (3141592653589793 / 1000000000000000))

/-- The Keys kernel with a = −0.5. -/
def keys (x : Rat) : Rat :=
  let t := if x < 0 then -x else x
  if t < 1 then 3 / 2 * t * t * t - 5 / 2 * t * t + 1
  else if t < 2 then - (1 / 2) * t * t * t + 5 / 2 * t * t - 4 * t + 2
  else 0

/-- The weight of a tap at signed distance d from the sample position, by kernel. -/
def kernelAt (kernel : Nat) (s d : Rat) : Rat :=
  match kernel with
  | 0 => ratMax 0 (ratMin (s / 2) (d + 1 / 2) - ratMax (-s / 2) (d - 1 / 2))
  | 1 => keys (d / s)
  | _ => if d < 3 * s ∧ -d < 3 * s then sinc (d / s) * sinc (d / (3 * s)) else 0

/-- The scale of a table. -/
def kernelScale (kernel step : Nat) : Rat :=
  let top : Rat := match kernel with | 0 => 7 | 1 => 2 | _ => 4 / 3
  ratMin (ratMax 1 ((step : Rat) / 65536)) top

/-- One phase: rounded weights, the difference to 16,384 added to the largest, the lowest tap on a tie. -/
def phaseCoefs (kernel step phase : Nat) : List Int :=
  let s := kernelScale kernel step
  let w := (upTo 8).map fun (k : Nat) => kernelAt kernel s ((k : Rat) - 3 - (phase : Rat) / 64)
  let total := w.foldl (· + ·) 0
  let c := w.map fun v => if total = 0 then 0 else ratAway (16384 * v / total)
  let top := c.foldl max (c.headD 0)
  let at' := (c.takeWhile fun v => v != top).length
  modAt c at' fun v => v + (16384 - sumInt c)

/-- Write one table of a unit. -/
def writeTable (e : Engine) (g : Nat) (y : Bool) (kernel step : Nat) : Engine :=
  if kernel = 3 then e
  else (upTo 64).foldl (fun x p =>
    let c := phaseCoefs kernel step p
    (upTo 4).foldl (fun z m =>
      z.setWord (0x30000 + 0x2000 * g + (if y then 0x1000 else 0) + 16 * p + 4 * m)
        (BitVec.ofNat 32 (ofSigned 16 (c.getD (2 * m) 0) + 65536 * ofSigned 16 (c.getD (2 * m + 1) 0)))) x) e

/-- At JOB_OPEN the tables of every enabled unit whose kernel is not USER are written. -/
def writeTables (e : Engine) : Engine :=
  (upTo 8).foldl (fun x g =>
    if x.on (R.GU_CTRL.EN g) then
      (x.writeTable g false (x.rd (R.GU_CTRL.XKERNEL g)) (x.rd (R.GU_XSTEP.STEP g))).writeTable g true (x.rd (R.GU_CTRL.YKERNEL g))
        (x.rd (R.GU_YSTEP.STEP g))
    else x) e

/-! ### Output lines of a unit -/

/-- Aligned line indices of an output line's footprint with their weights. -/
def yFootprint (e : Engine) (g : Nat) (y : Int) : List (Int × Int) :=
  if e.on (R.GU_CTRL.YEN g) then
    let p := phaseOf y
    ((upTo 8).map fun (k : Nat) => (p.1 - 3 + (k : Int), e.tapCoef g true p.2 k)).filter fun x => x.2 != 0
  else [(Int.fdiv y 65536, 16384)]

/-- The last aligned line that must have entered before an output line is emitted (R131). Where the phase rounds up to the next line, a USER table's tap k = 7
reaches the line after that: it is waited for (DESIGN CHOICE, log 155). -/
def yNeeds (e : Engine) (g : Nat) (y : Int) : Int :=
  if e.on (R.GU_CTRL.YEN g) then (e.yFootprint g y).foldl (fun m x => max m x.1) (Int.fdiv y 65536 + 4) else Int.fdiv y 65536

/-- The earliest aligned line of a run: the frame's first, or, resumed after a takeover, the earliest one received of it (R133, R136). -/
def histLow (u : GuSt) (r : GuRun) : Nat :=
  if r.resumed then max r.first (u.low.getD r.first) else r.first

/-- A resumed run has received no line before its earliest one, so that a copy of it takes SEAM (R136). -/
def histCut (u : GuSt) (r : GuRun) : Bool := r.resumed && u.low.any fun l => decide (r.first ≤ l)

/-- The lowest aligned line that a run still needs. -/
def runNeeds (e : Engine) (g : Nat) (r : GuRun) : Int := max (r.first : Int) (Int.fdiv (e.yPos g r.first r.out) 65536 - 4)

/-- The line that stands for position k of a run, and whether it is a copy (R133, R136). -/
def histLine (u : GuSt) (r : GuRun) (k : Int) : Option (AlignedLine × Bool) :=
  let low := histLow u r
  let high : Option Nat := match u.ended with | some n => some n | none => none
  let j : Nat := max low (clampInt 0 (match high with | some n => n | none => max k 0) k).toNat
  (u.hist.find? fun l => l.index == j).map fun l => (l, decide ((j : Int) ≠ k))

/-- The index nearest an output line's centre, the lower one on a tie (R17). -/
def centreOf (y : Int) (first : Nat) : Int := max (first : Int) (- Int.fdiv (32768 - y) 65536)

/-- An output line of a unit: its planes, their tags, its index. -/
structure OutLine where
  index : Nat
  planes : List (List Nat)
  tags : List LineFlags
  deriving DecidableEq, Repr

/-- The output line at position y of a run (R128 to R133); none while a line it needs has not entered. -/
def outLine (e : Engine) (g : Nat) (r : GuRun) : Option OutLine :=
  let u := e.gu g
  let y := e.yPos g r.first r.out
  let newest : Int := (u.hist.getLast?.map fun l => (l.index : Int)).getD (-1)
  if newest < e.yNeeds g y && u.ended.isNone then none
  else
    let src := (e.yFootprint g y).map fun x => (x.2, histLine u r x.1)
    let lines := src.filterMap fun x => x.2.map fun l => (x.1, l.1, l.2)
    let near := histLine u r (centreOf y r.first)
    match near with
    | none => none
    | some (nl, _) =>
      if lines.length ≠ src.length then none
      else
        let warm := e.on (R.GU_CTRL.YEN g) && (lines.any (fun x => x.2.2) || decide (r.out < 4))
        let plane (p : Nat) : List Nat :=
          if e.on (R.GU_CTRL.YEN g) then
            let parts := lines.map fun x => (x.1, e.crossLine g (x.2.1.planes.getD p []))
            (upTo (e.outW g)).map fun i => tapOut (sumInt (parts.map fun x => x.1 * ((x.2.getD i 0 : Nat) : Int)))
          else e.crossLine g (nl.planes.getD p [])
        let tag (p : Nat) : LineFlags :=
          let l := lines.map fun x => x.2.1.tags.getD p LineFlags.clear
          let t := nl.tags.getD p LineFlags.clear
          { joinTaps l with
            warmup := warm || l.any fun x => x.warmup
            seam := (l.any fun x => x.seam) || (histCut u r && (e.yFootprint g y).any fun x => decide (x.1 < histLow u r))
            ovr := t.ovr, expgen := t.expgen, auxkind := t.auxkind }
        some ⟨nl.index, (upTo 4).map plane, (upTo 4).map tag⟩

/-! ### The formatter -/

/-- A tone LUT's output (R139): LUT 8 is identity. -/
def toneLut (e : Engine) (lut v : Nat) : Nat :=
  if 8 ≤ lut then v
  else
    let knot (i : Nat) : Nat := (e.word (0x20000 + 0x1000 * lut + 4 * (i / 2))).toNat / (if i % 2 = 1 then 65536 else 1) % 65536
    let a := knot (v / 64)
    (clampInt 0 65535 ((a : Int) + Int.fdiv (((knot (v / 64 + 1) : Int) - a) * (v % 64 : Nat) + 32) 64)).toNat

/-- GREY of a pixel (R138). -/
def grey (wr wg wb r g b : Nat) : Nat := min 65535 ((wr * r + wg * g + wb * b + 8192) / 16384)

/-- A component reduced to its depth (R140). -/
def reduce (bits v : Nat) : Nat := if bits = 16 then v else min ((v + 2 ^ (15 - bits)) / 2 ^ (16 - bits)) (2 ^ bits - 1)

/-- Planes a plane set takes: numbers 0 to 3. -/
def planesOf (e : Engine) (n : Nat) : List Nat :=
  match e.rd (R.STR_CFG.PSET n) with
  | 0 => [e.rd (R.STR_CFG.PLANE n)]
  | 1 => [0, 1, 2]
  | 2 => [0, 1, 2]
  | 3 => [0, 1, 2, 3]
  | _ => [3]

/-- The LUT of a plane of a stream. -/
def lutOf (e : Engine) (n p : Nat) : Nat :=
  match p with
  | 0 => e.rd (R.STR_LUT.LUT_R n) | 1 => e.rd (R.STR_LUT.LUT_G n) | 2 => e.rd (R.STR_LUT.LUT_B n) | _ => e.rd (R.STR_LUT.LUT_A n)

/-- The components of a line in delivery order (R137, R138), each through its LUT. -/
def components (e : Engine) (n : Nat) (o : OutLine) : List Nat :=
  let (x0, w) := e.xcrop n
  let px (p : Nat) : List Nat := ((o.planes.getD p []).drop x0).take w
  match e.rd (R.STR_CFG.PSET n) with
  | 2 =>
    let rgb := (px 0).zip ((px 1).zip (px 2))
    rgb.map fun (r, g, b) => e.toneLut (e.lutOf n 1) (grey (e.rd (R.STR_GREYW0.WR n)) (e.rd (R.STR_GREYW0.WG n)) (e.rd (R.STR_GREYW1.WB n)) r g b)
  | _ =>
    let ps := e.planesOf n
    let ps := if e.on (R.STR_CFG.BGR n) ∧ 3 ≤ ps.length then [2, 1, 0] ++ ps.drop 3 else ps
    let cols := ps.map fun p => (px p).map (e.toneLut (e.lutOf n p))
    ((upTo w).map fun i => cols.map fun c => c.getD i 0).flatten

/-- The bits of a component, least or most significant first. -/
def compBits (bits : Nat) (msb : Bool) (v : Nat) : List Bool :=
  let l := (upTo bits).map fun i => bitOf v i
  if msb then l.reverse else l

/-- Bits to bytes, from bit 0 of a byte up, or from bit 7 down; `fuel` bounds the bytes. -/
def packBits (msb : Bool) : Nat → List Bool → List Byte
  | 0, _ => []
  | _ + 1, [] => []
  | n + 1, l =>
    let v := ((l.take 8).zipIdx.map fun (b, i) => b2n b * 2 ^ (if msb then 7 - i else i))
    BitVec.ofNat 8 (sumNat v) :: packBits msb n (l.drop 8)

/-- The data bytes of a line (R140, R141). -/
def lineData (e : Engine) (n : Nat) (c : List Nat) : List Byte :=
  let bits := depthBits (e.rd (R.STR_CFG.DEPTH n))
  let big := e.on (R.STR_CFG.ORDER n)
  let v := c.map (reduce bits)
  if bits = 8 then v.map fun x => BitVec.ofNat 8 x
  else if bits = 16 then (v.map fun x => if big then beBytes 2 x else leBytes 2 x).flatten
  else
    let b := (v.map (compBits bits big)).flatten
    packBits big b.length b

/-- The line tag (R145). EXPGEN of planes whose nearest raw lines carry different generations is that of the stream's first plane (DESIGN CHOICE, log 153). -/
def lineTag (e : Engine) (n : Nat) (o : OutLine) (pageLine page : Nat) : List Byte :=
  let ps := e.planesOf n
  let ts := ps.map fun p => o.tags.getD p LineFlags.clear
  let f := joinTaps ts
  let s := e.sideOf n
  let kind := if ps.contains 3 ∧ e.altMode s then (o.tags.getD 3 LineFlags.clear).auxkind else 0
  layBytes 16 [(0, 6, o.index), (6, 1, if f.late then f.lateness else 0),
    (7, 1, b2n f.late + 2 * b2n f.subst + 4 * b2n f.poison + 8 * b2n f.warmup + 16 * b2n f.fade + 32 * b2n f.seam + 64 * b2n f.tapFault
      + 128 * b2n f.frozen),
    (8, 2, min 65535 f.ovr), (10, 1, f.expgen % 4 + 4 * kind + 16 * s), (11, 1, n), (12, 2, min 65535 pageLine), (14, 2, page)]

/-- A formatted line (R143). -/
def formatLine (e : Engine) (n : Nat) (o : OutLine) (pageLine page : Nat) : List Byte :=
  let data := e.lineData n (e.components n o)
  if e.on (R.STR_CFG.TAG n) then
    data ++ List.replicate ((data.length + 15) / 16 * 16 - data.length) 0 ++ e.lineTag n o pageLine page
  else data

/-- A stream delivers an output line: a sub-plane stream only lines of its kind (R137). -/
def takesLine (e : Engine) (n : Nat) (o : OutLine) : Bool :=
  match e.rd (R.STR_CFG.PSET n) with
  | 4 => (o.tags.getD 3 LineFlags.clear).auxkind == 1
  | 5 => (o.tags.getD 3 LineFlags.clear).auxkind == 2
  | _ => true

/-- After a takeover, line c of a page is one that the host already has on a stream (R136): its last confirmed line is of a later page, or of this one and
not before it. -/
def confirmedBefore (e : Engine) (n page c : Nat) : Bool :=
  match e.pair.shadow.conf.getD n none with
  | some (_, no, line) => if no = page then decide (c ≤ line) else decide ((no + 65536 - page) % 65536 < 32768)
  | none => false

/-- One stream takes an output line of its unit: `c` counts its lines of the page. It answers the count after it. The line's place in STAGE is reserved, after
the stream's previous line, and STAGE_WR raises its bursts (R21, R278); where the first line goes is free (log 12). -/
def streamLine (e : Engine) (n : Nat) (o : OutLine) (page c : Nat) : Engine × Nat :=
  if !(e.stream n).running || !e.takesLine n o then (e, c)
  else
    let first := e.rd (R.STR_YCROP.FIRST n)
    let count := e.rd (R.STR_YCROP.COUNT n)
    if c < first ∨ (count ≠ 0 ∧ first + count ≤ c) then (e, c + 1)
    else
      let ts := (e.planesOf n).map fun p => o.tags.getD p LineFlags.clear
      let bytes := e.formatLine n o c page
      let at0 : Nat × Engine := match (e.stream n).place with | some p => (p, e) | none => e.takeFree
      let place := at0.1 % max 1 (e.rd R.QDR_STAGE_SIZE.V)
      let l : StageLine := ⟨bytes, o.index, page, c == first, count != 0 && c + 1 == first + count,
        ts.any (fun t => t.subst || t.poison || t.tapFault), false, false, place, c⟩
      let e1 := at0.2.modStream n fun x => { x with stage := x.stage ++ [l], seen := c + 1, place := some (place + bytes.length) }
      (if e.stagingLive then e1.raiseStage true place bytes.length (bytes.map some) (.stage n place) else e1, c + 1)

/-! ### The end of a job -/

/-- Nothing of the job is left in stages 8 to 10: lines read out to the last, frames closed, units empty. -/
def drained (e : Engine) : Bool :=
  ((upTo 2).all fun s =>
    let y := e.eddySide s
    let f := e.frameSide s
    f.cur.isNone && f.fixed.isEmpty && (match y.finish with | some n => decide (n < y.next) || (e.usedRows s).isEmpty | none => true))
    && e.gus.all fun u => u.runs.isEmpty

/-- Once the last lines of a closing job are formatted, every running stream stops: a buffer that holds its last lines closes (R262, R265). -/
def drainJob (e : Engine) : Engine :=
  if e.job.closing && e.job.ended && e.drained then
    ((upTo 16).foldl (fun x n =>
      if (x.stream n).running then ((x.stopStream n).modStream n fun y => { y with ending := some true }).closeEnding n
      else x) e).settleStreams
  else e

/-- JOB_CLOSE completes once AX0 is at rest and every PAGE_END of the job has been emitted (R262). -/
def jobCheck (e : Engine) : Engine :=
  let e1 := e.drainJob
  if e1.job.closing && e1.job.ended && e1.drained && e1.frames.all (fun f => f.pages.isEmpty) then
    (({ e1 with job := { e1.job with isOpen := false, closing := false, dark := 0 } } : Engine).recalcBpm.recalcCap).finishAll (fun (w : Wait) => w == Wait.jobClose) stOk []
  else e1

/-- GU_OUTPUT_LINE: the next output line of a unit, formatted for each stream of its oldest frame; none once a reset is requested (R346), nor while STAGE_WR holds the
unit back (R206). -/
def guOutput (e : Engine) (g : Nat) : Engine :=
  if e.resetting.isSome || e.unitHeld g then e else
  let e1 := e.finishRuns g 16
  match (e1.gu g).runs with
  | [] => e1.jobCheck
  | r :: rest =>
    match e1.outLine g r with
    | none => e1
    | some o =>
      let res := r.streams.foldl (fun (a : Engine × List (Nat × Nat)) x =>
        let q := if r.resumed && e1.confirmedBefore x.1 r.page x.2 then (a.1, x.2 + b2n (e1.takesLine x.1 o)) else a.1.streamLine x.1 o r.page x.2
        (q.1, a.2 ++ [(x.1, q.2)])) (e1, [])
      let next := { r with out := r.out + 1, streams := res.2 }
      let keep := rest.foldl (fun m q => min m (e1.runNeeds g q)) (e1.runNeeds g next)
      let e2 := res.1.modGu g fun u =>
        { u with runs := next :: rest, hist := u.hist.filter fun l => decide (keep ≤ (l.index : Int)) || u.ended == some l.index }
      (e2.finishRuns g 16).jobCheck

end Engine

/-- GU_OUTPUT_LINE (R131). -/
def execGuOutputLine (g : Fin 8) (s : State) : Answer := .next (s.onEng fun e => e.guOutput g.val)

/-- PAGE_END (R29, R155). -/
def execPageEnd (side : Side) (s : State) : Answer := .next (s.onEng fun e => (e.pageEnds side.val).jobCheck)

end Sys2Proof.Machine
end

