-- ==== Sys2Proof/Machine/Calib.lean ====
section
/-!
DEFINITION. Calibration (04_calibration.md): gap calibration (R76 to R86), full calibration (R87 to R90), calibration records (R91 to R94), and the line start,
at which accepted trims and levels take effect (R78).
-/

namespace Sys2Proof.Machine

namespace Engine

/-! ### Requests (R76) -/

/-- A gap calibration request is raised, or joined, with causes: bit 0 temperature, 1 schedule, 2 command, 3 boot. -/
def raiseGap (e : Engine) (causes : Nat) : Engine :=
  let e1 := (e.wr R.CAL_STATUS.PENDING 1).wr R.CAL_STATUS.CAUSE (e.rd R.CAL_STATUS.CAUSE ||| causes)
  if e.cal.gapStart.isSome then { e1 with cal := { e1.cal with late := e1.cal.late ||| causes } } else e1

/-- Section temperatures that CAL_TSRC assigns to a side. -/
def assigned (e : Engine) (s : Nat) : List Nat :=
  (upTo 4).filter fun i => bitOf (e.rd (if s = 0 then R.CAL_TSRC.SIDE0 else R.CAL_TSRC.SIDE1)) i

/-- A published temperature has not been refreshed for 1 s (R76). -/
def rtdStale (e : Engine) (i : Nat) : Bool :=
  match e.cal.rtdTime.getD i none with
  | some t => decide (t + 1000000000 < e.now)
  | none => true

/-- RTD_STALE of both sides, and bit 31 of MET_TEMPi. -/
def markStale (e : Engine) : Engine :=
  (upTo 4).foldl (fun x i => x.wr (R.MET_TEMP.STALE i) (b2n (e.rtdStale i)))
    (e.wr R.CAL_STATUS.RTD_STALE (b2n ((e.assigned 0).any e.rtdStale) + 2 * b2n ((e.assigned 1).any e.rtdStale)))

/-- Causes a temperature gives against its reference: 8 where the reference is unknown, 1 where it has moved by more than CAL_DT. -/
def tempCause (e : Engine) (t ref : Nat) : Nat :=
  if ref = 0x8000 then 8
  else if e.rd R.CAL_DT.V < (toSigned 16 t - toSigned 16 ref).natAbs then 1 else 0

/-- Causes of one side. -/
def sideCause (e : Engine) (s : Nat) : Nat :=
  ((e.assigned s).filter fun i => !e.rtdStale i).foldl (fun c i => c ||| e.tempCause (e.cal.rtd.getD i 0x8000) (e.rd (R.CAL_TREF_RTD.V i)))
    (e.tempCause (e.rd (R.AFE_TEMP.TEMP s)) (e.rd (R.CAL_TREF_AFE.V s)))

/-- The schedule is due. -/
def schedDue (e : Engine) : Bool :=
  let p := e.rd R.CAL_SCHED.V
  p != 0 && decide (e.cal.lastDone.getD e.cal.bootTime + p * 1000000000 ≤ e.now)

/-- TEMP_COMPARE (R76): AFE_TEMP takes what the dies measure; in M6 to M8 temperatures and the schedule are compared. -/
def tempCompare (e : Engine) (t0 t1 : Nat) : Engine :=
  let e1 := ((e.wr (R.AFE_TEMP.TEMP 0) t0).wr (R.AFE_TEMP.TEMP 1) t1).markStale
  if !e.modeIn [6, 7, 8] then e1
  else
    let c := (e1.convSides).foldl (fun c s => c ||| e1.sideCause s) 0
    let e2 := if c = 0 then e1 else e1.raiseGap c
    if e2.schedDue && !e2.cal.schedEmitted then
      let e3 := e2.raiseGap 2
      ({ e3 with cal := { e3.cal with schedEmitted := true } }).calDue
    else e2

/-! ### Start (R77) -/

/-- Every page before a line is determined, on every side that converts: a page is determined when its frame closes (R77, R126: DEDUCED, log 28). A frame
fixed at or before the line has a page still to come, and holds no line of a gap calibration (R125). -/
def pagesDetermined (e : Engine) (idx : Nat) : Bool :=
  e.convSides.all fun s => (e.frameSide s).cur.isNone && (e.frameSide s).fixed.all fun f => decide (idx < f.first)

/-- The gap is known to be free: a clear lead sensor far enough upstream, or the feed is withheld for it and every document fed before has passed
(DESIGN CHOICE, log 135). -/
def gapFree (e : Engine) : Bool :=
  (e.on R.CAL_CTRL.LEAD_EN && !bitOf (e.rd R.DI_STATE.V) (e.rd R.CAL_CTRL.LEAD_DI)
    && decide ((52 + max 8 (e.rd R.CAL_CTRL.GAP_MARGIN)) * e.pitch ≤ e.rd R.CAL_LEAD.V * 256))
  || (e.cal.gapWithheld && e.feed.flight.isEmpty)

/-- A window that serves a kept index has opened with its LED on. -/
def windowLit (e : Engine) (idx : Nat) : Bool :=
  e.convSides.any fun s => (e.gen s).windows.any fun w => match w with | some x => x.index == some idx && !x.dark | none => false

/-- A pending gap calibration may start at a kept line (R77); no window of its line 0 has strobed (R78). -/
def gapMayStart (e : Engine) (idx : Nat) : Bool :=
  let invalid := (upTo 2).any fun s => e.on (R.AFE_CTRL.CONV_EN s) && bitOf (e.rd R.CAL_STATUS.CAL_INVALID) s
  e.on R.CAL_STATUS.PENDING && e.cal.gapStart.isNone && e.mode == .m7 && e.on R.CAL_CTRL.GAP_EN && e.pagesDetermined idx && !invalid && e.gapFree
    && !e.windowLit idx

/-- RUNNING sets, line g = 0 has index `idx`; a change of exposure whose index falls in the calibration waits for the first line after it (R46). -/
def gapBegin (e : Engine) (idx : Nat) : Engine :=
  let late (c : ExpChange) : ExpChange := if idx ≤ c.index ∧ c.index ≤ idx + 51 then { c with index := idx + 52 } else c
  { (e.wr R.CAL_STATUS.RUNNING 1) with
    tg := e.tg.map fun (g : TimingGen) => { g with changes := g.changes.map late }
    cal := { e.cal with gapStart := some idx, gapSpans := e.cal.gapSpans ++ [(idx, idx + 51)], causes0 := e.rd R.CAL_STATUS.CAUSE, late := 0, lateCmds := [], result := none,
                        meas := List.replicate 64 GapMeas.init } }

/-- A kept trigger of M7 at which a pending gap calibration starts (R77). -/
def gapStartsAt (e : Engine) (idx : Nat) : Engine := if e.gapMayStart idx then e.gapBegin idx else e

/-- WINDOW_OPEN: where the window is the first of the next kept line, a pending gap calibration starts with it, so that the windows of its line 0 are
dark (R78 step 2). -/
def windowOpens (e : Engine) (s r : Nat) : Engine :=
  let e1 := match (e.nextLine s).2 with
    | some i => if e.windowDue s r ∧ i = e.mot.kept then e.gapStartsAt i else e
    | none => e
  e1.openWindow s r

/-! ### The computation (R81) -/

/-- 1 + g of a channel's gain code. -/
def gainOf (code : Int) : Rat := 1 + (code : Rat) / 25600

/-- The median of a list; the mean of the middle two of an even number; 1 of none. -/
def median (l : List Rat) : Rat :=
  let s := l.mergeSort (fun a b => decide (a ≤ b))
  let n := s.length
  if n = 0 then 1 else if n % 2 = 1 then s.getD (n / 2) 1 else (s.getD (n / 2 - 1) 1 + s.getD (n / 2) 1) / 2

/-- What one channel measured. -/
def measOf (e : Engine) (c : Nat) : GapMeas := e.cal.meas.getD c GapMeas.init

/-- A channel has enough usable lines (R80). -/
def usable (e : Engine) (c : Nat) : Bool :=
  let m := e.measOf c
  decide (12 ≤ m.darkN) && (if e.altChan c then decide (12 ≤ m.backN ∧ 12 ≤ m.uvN) else decide (24 ≤ m.backN))

/-- D[c]. -/
def darkMean (e : Engine) (c : Nat) : Rat := let m := e.measOf c; m.darkSum / (max 1 m.darkN : Nat)
/-- B[c]. -/
def backMean (e : Engine) (c : Nat) : Rat := let m := e.measOf c; m.backSum / (max 1 m.backN : Nat)
/-- The UV backing mean. -/
def uvMean (e : Engine) (c : Nat) : Rat := let m := e.measOf c; m.uvSum / (max 1 m.uvN : Nat)

/-- P. -/
def darkTarget (e : Engine) : Rat := (e.rd R.CAL_DARK_TGT.V : Nat)

/-- Calibration values of a channel. -/
def calOf (e : Engine) (c : Nat) : ChCal := e.cal.chans.getD c ⟨0, 0, 0, 0⟩

/-- q[c]: of an AUX row in UV mode against BREF1 (R81). -/
def ratioOf (e : Engine) (c : Nat) : Rat :=
  let uv := e.rd (R.TG_CHMAP.ROW (c / 32) (c % 32)) = 3 ∧ e.rd (R.TG_AUX_MODE.MODE (c / 32)) = 1
  let b := if uv then (e.calOf c).bref1 else (e.calOf c).bref0
  (e.backMean c - e.darkMean c) / ((b : Rat) - e.darkTarget)

/-- Trim codes in force of a channel. -/
def ofsOf (e : Engine) (c : Nat) : Int := e.rdS (R.AFE_CH_TRIM.OFS (c / 32) (c % 32))
/-- GAIN in force of a channel. -/
def gainCode (e : Engine) (c : Nat) : Int := e.rdS (R.AFE_CH_TRIM.GAIN (c / 32) (c % 32))

/-- Full scale of a channel in volts, as R65 gives it, over 2.048 V. -/
def fsRatio (e : Engine) (c : Nat) : Rat :=
  (((e.rd (R.AFE_CH_CFG.RANGE (c / 32) (c % 32)) + 1) * (e.afeSide (c / 32)).vref : Nat) : Rat) / 5000000 / (2048 / 1000)

/-- The driver whose level a row's calibration sets, where it has one strobed in the backing windows; the NIR driver in ALT mode. -/
def rowDriver (e : Engine) (s r : Nat) : Option Nat :=
  let n := if r < 3 then some (5 * s + r)
    else match e.rd (R.TG_AUX_MODE.MODE s) with | 0 => some (5 * s + 3) | 1 => some (5 * s + 4) | 3 => some (5 * s + 3) | _ => none
  n.bind fun n => if e.driverOn n then some n else none

/-- A result checked: the failed limit of R268 (0 none), the computed value, the value kept. -/
structure Check where
  item : Nat
  limit : Nat
  value : Int
  kept : Int
  deriving DecidableEq, Repr

/-- The plausibility of a level (R85): MIN, 1,023, GAP_PCT of the old level but at least 2 codes; `past` is the budget's verdict. -/
def levelLimit (e : Engine) (old : Nat) (new : Int) (past : Bool) : Nat :=
  let d := (new - old).natAbs
  if new < e.rd R.CAL_LIM_LED.MIN then 4
  else if 1023 < new then 1
  else if past then 5
  else if max 2 (e.rd R.CAL_LIM_LED.GAP_PCT * old / 100) < d then 6
  else 0

/-- The plausibility of a trim (R85): ABS, then the change limit (2 GAP_STEP, 3 FULL_STEP; 4,095 sets no limit). -/
def trimLimit (abs step : Nat) (full : Bool) (old new : Int) : Nat :=
  if abs < new.natAbs then 1
  else if full then (if step ≠ 4095 ∧ step < (new - old).natAbs then 3 else 0)
  else if step < (new - old).natAbs then 2 else 0

/-- One item is rejected (R86): its bit and count, CAL_REJECT, and FAULT at the third in a row. `item` is a channel or 64 + driver. -/
def reject (e : Engine) (item : Nat) (k : Check) : Engine :=
  let n := e.cal.consec.getD item 0 + 1
  let bit (e : Engine) : Engine :=
    if item < 32 then e.setRegBit R.CAL_CH_REJ_LO.V item
    else if item < 64 then e.setRegBit R.CAL_CH_REJ_HI.V (item - 32) else e.setRegBit R.CAL_LED_REJ.V (item - 64)
  let e1 := (bit e).count R.CAL_REJ_CNT.V 1
  let raise := decide (3 ≤ n) && !e.cal.consecRaised.getD item false
  let e2 := { e1 with cal := { e1.cal with
    consec := modAt e1.cal.consec item (fun _ => min 255 n), consecRaised := modAt e1.cal.consecRaised item (fun r => r || raise) } }
  let e3 := e2.emit 0x0A item 0 k.limit none
    [(24, 4, ofSigned 32 k.value), (28, 1, k.item), (32, 4, ofSigned 32 k.kept), (36, 1, min 255 n)]
  if raise then e3.fault 0x06 item 0 0 [(24, 4, ofSigned 32 k.value)] else e3

/-- One item's result is accepted (R86). -/
def acceptItem (e : Engine) (item : Nat) : Engine :=
  let clr (e : Engine) (f : Fld) (k : Nat) : Engine := e.wr f (setBit (e.rd f) k false)
  let e1 := if item < 32 then clr e R.CAL_CH_REJ_LO.V item
    else if item < 64 then clr e R.CAL_CH_REJ_HI.V (item - 32) else clr e R.CAL_LED_REJ.V (item - 64)
  { e1 with cal := { e1.cal with consec := modAt e1.cal.consec item (fun _ => 0), consecRaised := modAt e1.cal.consecRaised item (fun _ => false) } }

/-- New levels of a gap calibration with their drivers, before the check. -/
def newLevels (e : Engine) : List (Nat × Int) :=
  if !e.on R.CAL_CTRL.LED_EN then []
  else ((e.convSides.map fun s => (upTo 4).filterMap fun r =>
    match e.rowDriver s r with
    | some n =>
      let q := ((e.rowChans s r).filter e.usable).map e.ratioOf
      if q.isEmpty then none else some (n, ratAway ((e.rd (R.ILL_CUR.LEVEL n) : Rat) / median q))
    | none => none).flatten)

/-- The state of a computation in progress: engine, trims and levels accepted, rejections. -/
abbrev Calc := Engine × List (Nat × Int × Int) × List (Nat × Nat) × Nat × Nat

/-- A driver's level is judged (R85, R86). -/
def judgeLevel (past : Bool) (a : Calc) (n : Nat) (new : Int) : Calc :=
  let (e, tr, lv, cr, dr) := a
  let old := e.rd (R.ILL_CUR.LEVEL n)
  let lim := e.levelLimit old new past
  if lim = 0 then (e.acceptItem (64 + n), tr, lv ++ [(n, new.toNat)], cr, dr)
  else (e.reject (64 + n) ⟨2, lim, new, old⟩, tr, lv, cr, dr + 1)

/-- The levels that pass the check of R85 with the budget's verdict `past`. -/
def fitLevels (e : Engine) (past : Bool) (l : List (Nat × Int)) : List (Nat × Nat) :=
  l.filterMap fun x => if e.levelLimit (e.rd (R.ILL_CUR.LEVEL x.1)) x.2 past = 0 then some (x.1, x.2.toNat) else none

/-- New OFS and GAIN codes of a channel (R81). `f` is none where the row's gain is not adjusted. -/
def chanTrims (e : Engine) (c : Nat) (f : Option Rat) : Int × Int :=
  let og := gainOf (e.gainCode c)
  let gain : Int := match f with
    | some f => if e.on R.CAL_CTRL.GAIN_EN then ratAway ((og / (e.ratioOf c * f) - 1) * 25600) else e.gainCode c
    | none => e.gainCode c
  (if e.on R.CAL_CTRL.OFS_EN then e.ofsOf c + ratAway ((e.darkMean c / og - e.darkTarget / gainOf gain) * e.fsRatio c) else e.ofsOf c, gain)

/-- The limit that a channel's result fails (R85): its backing means, in ALT mode the UV one too, then gain, then offset. -/
def chanCheck (e : Engine) (c : Nat) (t : Int × Int) : Option Check :=
  let gl := trimLimit (e.rd R.CAL_LIM_GAIN.ABS) (e.rd R.CAL_LIM_GAIN.GAP_STEP) false (e.gainCode c) t.2
  let ol := trimLimit (e.rd R.CAL_LIM_OFS.ABS) (e.rd R.CAL_LIM_OFS.GAP_STEP) false (e.ofsOf c) t.1
  if 62000 ≤ e.backMean c then some ⟨3, 7, (e.backMean c).floor, e.ofsOf c⟩
  else if e.altChan c && decide (62000 ≤ e.uvMean c) then some ⟨3, 7, (e.uvMean c).floor, e.ofsOf c⟩
  else if gl ≠ 0 then some ⟨1, gl, t.2, e.gainCode c⟩
  else if ol ≠ 0 then some ⟨0, ol, t.1, e.ofsOf c⟩
  else none

/-- A channel's trims are judged together (R86). -/
def judgeChan (a : Calc) (c : Nat) (f : Option Rat) : Calc :=
  let (e, tr, lv, cr, dr) := a
  let t := e.chanTrims c f
  match e.chanCheck c t with
  | some k => (e.reject c k, tr, lv, cr + 1, dr)
  | none => (e.acceptItem c, tr ++ [(c, t.1, t.2)], lv, cr, dr)

/-- A driver's new level was computed and not accepted. -/
def levelRejected (tried : List (Nat × Int)) (lv : List (Nat × Nat)) (n : Nat) : Bool := (tried.any fun x => x.1 == n) && !lv.any fun x => x.1 == n

/-- The factor f[r] of a row from the level finally in force (R81); a rejected level of a driver of the row leaves the row's gain as it is (R86). -/
def rowFactor (e : Engine) (tried : List (Nat × Int)) (lv : List (Nat × Nat)) (s r : Nat) : Option Rat :=
  if r = 3 ∧ e.altMode s ∧ levelRejected tried lv (5 * s + 4) then none
  else match e.rowDriver s r with
    | some n =>
      if tried.any fun x => x.1 == n then
        (lv.find? fun x => x.1 == n).map fun x => (x.2 : Rat) / (max 1 (e.rd (R.ILL_CUR.LEVEL n)) : Nat)
      else some 1
    | none => if r = 3 ∧ (e.rd (R.TG_AUX_MODE.MODE s) = 2 ∨ 4 ≤ e.rd (R.TG_AUX_MODE.MODE s)) then none else some 1

/-- The UV driver's level of an AUX row in ALT mode (R81), with the gains its channels will have once levels `lv` are in force. -/
def uvLevel (e : Engine) (tried : List (Nat × Int)) (lv : List (Nat × Nat)) (s : Nat) : Option (Nat × Int) :=
  let n := 5 * s + 4
  if !e.altMode s || !e.on R.CAL_CTRL.LED_EN || !e.driverOn n then none
  else
    let q := ((e.rowChans s 3).filter e.usable).map fun c =>
      let t := e.chanTrims c (e.rowFactor tried lv s 3)
      let g := if (e.chanCheck c t).isNone then t.2 else e.gainCode c
      (e.uvMean c - e.darkMean c) / (((e.calOf c).bref1 : Rat) - e.darkTarget) * gainOf g / gainOf (e.gainCode c)
    if q.isEmpty then none else some (n, ratAway ((e.rd (R.ILL_CUR.LEVEL n) : Rat) / median q))

/-- The UV levels of both sides. -/
def uvLevels (e : Engine) (tried : List (Nat × Int)) (lv : List (Nat × Nat)) : List (Nat × Int) := e.convSides.filterMap fun s => e.uvLevel tried lv s

/-- The budget with new levels is above 40 W (R85). -/
def overBudget (e : Engine) (lv : List (Nat × Int)) : Bool :=
  decide ((40000 : Rat) < e.budget (fun s r => e.rd (R.TG_EXP_ROW.EXP s r))
    (fun n => match lv.find? fun x => x.1 == n with | some (_, l) => l.toNat | none => e.rd (R.ILL_CUR.LEVEL n)))

/-- Every enabled channel of the converting sides has taken line 51 of the gap calibration. -/
def gapMeasured (e : Engine) (g : Nat) : Bool :=
  e.convSides.all fun s => (e.sideChans s).all fun c => match (e.chan c).entered with | some i => decide (g + 51 ≤ i) | none => false

/-- The results of a side are judged: its drivers' levels, each with the budget's verdict, then its channels in ascending order (R270). `all` and `lv` are the
levels computed and accepted on both sides. -/
def judgeSide (all : List (Nat × Int × Bool)) (lv : List (Nat × Nat)) (a : Calc) (s : Nat) : Calc :=
  let e := a.1
  let tried := all.map fun x => (x.1, x.2.1)
  let a1 := (all.filter fun x => x.1 / 5 == s).foldl (fun b x => judgeLevel x.2.2 b x.1 x.2.1) a
  ((e.sideChans s).filter e.usable).foldl (fun b c => judgeChan b c (e.rowFactor tried lv s (e.rd (R.TG_CHMAP.ROW s (c % 32))))) a1

/-- GAP_CAL_COMPUTE (step 5 of R78): results are computed and checked; the budget is that of all new levels, the UV levels included (R85). CAL_REJECTs come side 0
first, of a side its drivers before its channels (R270; DESIGN CHOICE for the drivers, log 154). -/
def gapCompute (e : Engine) : Engine :=
  match e.cal.gapStart with
  | none => e
  | some g =>
    if e.cal.result.isSome || !e.gapMeasured g then e
    else
      let chans := (e.convSides.map e.sideChans).flatten
      let tried := e.newLevels
      let past := e.overBudget (tried ++ e.uvLevels tried (e.fitLevels false tried))
      let lv := e.fitLevels past tried
      let uv := e.uvLevels tried lv
      let past2 := past || e.overBudget (tried ++ uv)
      let all := tried.map (fun x => (x.1, x.2, past)) ++ uv.map fun x => (x.1, x.2, past2)
      let (e1, tr, lv, cr, dr) := e.convSides.foldl (judgeSide all (lv ++ e.fitLevels past2 uv)) (e, [], [], 0, 0)
      { e1 with cal := { e1.cal with result := some ⟨tr, lv, cr, dr, !chans.all e.usable⟩ } }

/-! ### Step 6 (R78, R82) -/

/-- A channel's trims are written; its tracker and the means in its delay shift by what the new codes make of the optical-black code (R82). Lines that started
before run under the old trims, and are corrected by the tracker without the shift (R26). -/
def applyTrim (e : Engine) (c : Nat) (ofs gain : Int) : Engine :=
  let s := c / 32
  let k := c % 32
  let lvl : Rat := (e.rd (R.SHD_CH_TRK.C c) : Rat) / 256
  let new := (lvl / gainOf (e.gainCode c) - ((ofs - e.ofsOf c : Int) : Rat) / e.fsRatio c) * gainOf gain
  let shift := ratAway ((new - lvl) * 256)
  let e1 := (e.wrS (R.AFE_CH_TRIM.OFS s k) ofs).wrS (R.AFE_CH_TRIM.GAIN s k) gain
  (e1.wr (R.SHD_CH_TRK.C c) ((e.rd (R.SHD_CH_TRK.C c) : Int) + shift).toNat).modChan c fun h =>
    { h with shift := some (e.nextIndex s, shift), means := h.means.map fun m => (m.1, ((m.2 : Int) + shift).toNat) }

/-- Temperature references: AFE_TEMP of both sides and T0 to T3, where assigned to a side (R83, R90). -/
def setRefs (e : Engine) (t : List Nat) : Engine :=
  let e1 := (e.wr (R.CAL_TREF_AFE.V 0) (t.getD 0 0x8000)).wr (R.CAL_TREF_AFE.V 1) (t.getD 1 0x8000)
  (upTo 4).foldl (fun x i => if (x.assigned 0).contains i || (x.assigned 1).contains i then x.wr (R.CAL_TREF_RTD.V i) (t.getD (2 + i) 0x8000) else x) e1

/-- The temperatures as they stand. -/
def tempsNow (e : Engine) : List Nat :=
  [e.rd (R.AFE_TEMP.TEMP 0), e.rd (R.AFE_TEMP.TEMP 1)] ++ (upTo 4).map fun i => e.cal.rtd.getD i 0x8000

/-- GAP_CAL_APPLY: accepted trims and levels take effect, CAL_DONE is emitted, the request ends unless a result was rejected or a channel had too
few lines: then its causes at line 0 stay. A schedule or a command since line 0 waits for the next gap, while temperatures and unknown references raised since
are evaluated afresh (R80, R83, R86). -/
def gapApply (e : Engine) : Engine :=
  match e.cal.gapStart, e.cal.result with
  | some g, some r =>
    let e1 := r.trims.foldl (fun x t => x.applyTrim t.1 t.2.1 t.2.2) e
    let e2 := r.levels.foldl (fun x l => x.wr (R.ILL_CUR.LEVEL l.1) l.2) e1
    let e3 := ((e2.putBudget e2.budgetNow).setRefs e.cal.temps20).wr R.CAL_STATUS.RUNNING 0
    let rej := decide (0 < r.chRej + r.drvRej)
    let late := e.cal.late / 2 % 4 * 2
    let pend := rej || r.incomplete || late != 0
    let cause := e.rd R.CAL_STATUS.CAUSE
    let hs := if cause = 4 then e.waitingHseq (fun (w : Wait) => w == .calGap) else none
    let e4 := (e3.count R.CAL_GAP_CNT.V 1).emit 0x09 0 (if rej then stPartial else stOk) cause hs
      [(24, 6, g), (32, 2, r.chRej), (34, 2, r.drvRej), (36, 4, e.rd R.CAL_GEN.V)]
    let e5 := (((e4.wr R.CAL_STATUS.PENDING (b2n pend)).wr R.CAL_STATUS.CAUSE ((if rej || r.incomplete then e.cal.causes0 else 0) ||| late)).wr R.CAL_STATUS.DEFER 0)
    let e6 := { e5 with cal := { e5.cal with gapStart := none, result := none, gapWithheld := false, lastDone := some e.now, schedEmitted := bitOf late 1 } }
    (e6.opens.filter fun c => c.wait == Wait.calGap && !e.cal.lateCmds.contains c.hseq).foldl
      (fun x c => x.finish c (if rej then stPartial else stOk) []) e6
  | _, _ => e

/-- LINE_START: the first line after step 5 of a gap calibration takes what it found (R78 step 6), which is then what the line runs under; line 20 of a
gap calibration reads the temperatures (R83). -/
def lineStart (e : Engine) (s : Nat) : Engine :=
  if e.startReady s && !e.follows s then
    let e1 := e.gapApply.startLine s
    match e1.cal.gapStart, (e1.gen s).run.bind fun r => r.trig.index with
    | some g, some i => if i = g + 20 then { e1 with cal := { e1.cal with temps20 := e1.tempsNow } } else e1
    | _, _ => e1
  else e

/-! ### Full calibration (R87 to R90) -/

/-- Channels that take part: enabled, on sides that convert. -/
def calChans (e : Engine) : List Nat := (e.convSides.map e.sideChans).flatten

/-- A step begins: its first line is the second internal trigger from now on, so that no window opened earlier serves it. -/
def fullStep (e : Engine) (step lines : Nat) : Engine :=
  { e with cal := { e.cal with full :=
    { e.cal.full with step := step, base := e.cal.full.next + 2, lines := lines,
                      sums := List.replicate 64 0, counts := List.replicate 64 0 } } }

/-- CAL_FULL_LINES within its range. -/
def fullLines (e : Engine) : Nat := clampNat 64 1024 (e.rd R.CAL_FULL_LINES.V)

/-- The mean a channel measured in the step. -/
def stepMean (e : Engine) (c : Nat) : Rat :=
  let f := e.cal.full
  f.sums.getD c 0 / (max 1 (f.counts.getD c 0) : Nat)

/-- The trims a full calibration has computed for a channel, before they are clamped to their fields. -/
def computedTrim (e : Engine) (c : Nat) : Int × Int := e.cal.full.trims.getD c (e.ofsOf c, e.gainCode c)

/-- Keep what a full calibration computes for a channel (R86). -/
def noteTrim (e : Engine) (c : Nat) (f : Int × Int → Int × Int) : Engine :=
  { e with cal := { e.cal with full := { e.cal.full with trims := modAt e.cal.full.trims c f } } }

/-- OFS so that the dark mean meets CAL_DARK_TGT, by the arithmetic of R52. -/
def setDark (e : Engine) (c : Nat) : Engine :=
  let v := e.ofsOf c + ratAway ((e.stepMean c - e.darkTarget) * e.fsRatio c / gainOf (e.gainCode c))
  (e.wrS (R.AFE_CH_TRIM.OFS (c / 32) (c % 32)) (clampInt (-2048) 2047 v)).noteTrim c fun t => (v, t.2)

/-- GAIN so that the white mean meets CAL_WHITE_RAW; a white mean of 0 asks for more than any code. -/
def setWhite (e : Engine) (c : Nat) : Engine :=
  let w := e.stepMean c
  let g := if w = 0 then 2147483647 else ratAway ((gainOf (e.gainCode c) * (e.rd R.CAL_WHITE_RAW.V : Nat) / w - 1) * 25600)
  (e.wrS (R.AFE_CH_TRIM.GAIN (c / 32) (c % 32)) (clampInt (-2048) 2047 g)).noteTrim c fun t => (t.1, g)

/-- Within 2 codes of the dark target and 0.05 % of the white target. -/
def closeEnough (e : Engine) (c : Nat) : Bool :=
  let d := e.cal.full.means.getD c 0 - e.darkTarget
  let t : Rat := (e.rd R.CAL_WHITE_RAW.V : Nat)
  let w := e.stepMean c - t
  decide (d ≤ 2 ∧ -d ≤ 2 ∧ 2000 * w ≤ t ∧ -(2000 * w) ≤ t)

/-- The step's means are kept for the next. -/
def keepMeans (e : Engine) : Engine :=
  { e with cal := { e.cal with full := { e.cal.full with means := (upTo 64).map e.stepMean } } }

/-- The SERIAL of a side's SDB; 0 where none was read. -/
def sideSerial (e : Engine) (s : Nat) : Nat := e.rd (R.SDB_SERIAL_LO.V s) + 2 ^ 32 * e.rd (R.SDB_SERIAL_HI.V s)

/-- Values of a record as they stand, without the coefficients (R91). -/
def snapshot (e : Engine) : CalRecord :=
  ⟨0, e.rd R.CAL_GEN.V, (upTo 2).map e.sideSerial, (upTo 2).map fun s => e.rdS (R.CAL_REF_CORR.V s),
    (upTo 2).map fun s => e.rd (R.AFE_TEMP.TEMP s), (upTo 4).map fun i => e.cal.rtd.getD i 0x8000,
    (upTo 10).map fun n => e.rd (R.ILL_CUR.LEVEL n),
    [e.rd R.CAL_DARK_TGT.V, e.rd R.CAL_WHITE_RAW.V, e.rd R.CAL_WHITE_OUT.V, e.rd R.CAL_FULL_LINES.V], e.cal.vcalref,
    (upTo 64).map fun c => (e.ofsOf c, e.gainCode c, e.calOf c), []⟩

/-- The coefficient words of the banks in force of some channels, where they differ from the factory word; unused words are 0 (R91). -/
def coefsOf (e : Engine) (chans : List Nat) : Sparse Word :=
  (chans.map fun c => (upTo 1024).filterMap fun p =>
    let w := if p < e.rd (R.TG_LINE_FMT.ACTIVE (c / 32)) then e.word (coefAt c (e.bankOf c) p) else 0
    if w = 0x40000000 then none else some (1024 * c + p, w)).flatten

/-- A channel takes trims. -/
def setTrim (e : Engine) (c : Nat) (ofs gain : Int) : Engine :=
  (e.wrS (R.AFE_CH_TRIM.OFS (c / 32) (c % 32)) ofs).wrS (R.AFE_CH_TRIM.GAIN (c / 32) (c % 32)) gain

/-- Trims, slice targets, backing references and reference corrections of a saved record come back (R90). -/
def restoreCal (e : Engine) (r : CalRecord) : Engine :=
  let e1 := (r.channels.zipIdx).foldl (fun x (t, c) => x.setTrim c t.1 t.2.1) e
  let e2 := (r.refCorr.zipIdx).foldl (fun x (v, s) => x.wrS (R.CAL_REF_CORR.V s) v) e1
  { e2 with cal := { e2.cal with chans := r.channels.map fun t => t.2.2, vcalref := r.vcalrefUv } }

/-- BUF_EN of both dies as before the phase (R88). -/
def restoreBuf (e : Engine) : Engine :=
  (e.cal.full.buf.zipIdx).foldl (fun x (b, s) =>
    if b = 0 then (x.wr (R.AFE_REF_CTRL.BUF_EN s) 0).modAfe s fun a => { a with bufStart := none } else x) e

/-- The slices of every channel are calibrated to its targets (R88, R90): those that serve a phase have new corrections. `spare` says that the spare is calibrated
with them, unless it has failed; where it is not, it is judged by SPARE_CAL_DONE, which is the retest of R60. -/
def freshSlices (e : Engine) (spare : Bool) : Engine :=
  let ready (c : Nat) : Bool := spare && !e.on (R.AFE_CH_SLICE.FAILED (c / 32) (c % 32))
  let e1 : Engine := { e with chans := e.chans.zipIdx.map fun (h, c) => { h with spareReady := ready c, attempts := 0, served := List.replicate 5 none } }
  (upTo 64).foldl (fun x c => x.serveSlices c (if ready c then (e.chan c).phases ++ [e.spareOf (c / 32) (c % 32)] else (e.chan c).phases)) e1

/-- What a full calibration that ends without a commit may have changed comes back, and all five slices are calibrated to it (R87, R90, R401). -/
def dropFull (e : Engine) : Engine :=
  let e1 := match e.cal.saved with | some r => e.restoreCal r | none => e
  let e2 := if e1.cal.full.kind = 1 then e1.restoreBuf else e1
  let e3 := (e2.wr R.CAL_STATUS.FULL_OPEN 0).freshSlices true
  { e3 with cal := { e3.cal with full := FullCal.init, saved := none } }

/-- The full calibration is abandoned, and the module returns to M4. -/
def abandonFull (e : Engine) (cause : Nat) (hs : Option Nat) : Engine := e.dropFull.changeMode .m4 cause hs

/-- The trims computed so far are those in force. -/
def withTrims (e : Engine) : Engine :=
  { e with cal := { e.cal with full := { e.cal.full with trims := (upTo 64).map fun c => (e.ofsOf c, e.gainCode c) } } }

/-- The slices are retested and the repetitions begin (R88). -/
def beginTarget (e : Engine) : Engine :=
  let e1 := (upTo 64).foldl (fun x c => ((x.wr (R.AFE_CH_SLICE.FAILED (c / 32) (c % 32)) 0).wr (R.AFE_CH_SLICE.FAIL_SLICE (c / 32) (c % 32)) 0).wr
    (R.AFE_CH_SLICE.FAIL_CODE (c / 32) (c % 32)) 0) e
  (((e1.wr (R.AFE_SLICE_FAIL.V 0) 0).wr (R.AFE_SLICE_FAIL.V 1) 0).freshSlices false).withTrims.fullStep 0 64

/-- CALIBRATE FULL_TARGET is accepted (R87, R88): M5; unless NOREF, VCALREF is buffered on both dies and settles before anything else. -/
def startTarget (e : Engine) : Engine :=
  let e0 := { e with cal := { e.cal with saved := if e.on R.CAL_STATUS.FULL_OPEN then e.cal.saved else some e.snapshot, fullRej := 0 } }
  let e1 := (e0.changeMode .m5 8 none).wr R.CAL_STATUS.FULL_OPEN (e.rd R.CAL_STATUS.FULL_OPEN)
  let old := (upTo 2).map fun s => e.rd (R.AFE_REF_CTRL.BUF_EN s)
  let e2 : Engine := { e1 with cal := { e1.cal with full := { FullCal.init with kind := 1, buf := old, start := e.now, lastTrig := e.now } } }
  if e.on R.CAL_CTRL.NOREF then
    (({ e2 with cal := { e2.cal with vcalref := 0 } }.wr (R.CAL_REF_CORR.V 0) 0).wr (R.CAL_REF_CORR.V 1) 0).beginTarget
  else
    ((upTo 2).foldl (fun x s =>
      if old.getD s 0 = 0 then (x.wr (R.AFE_REF_CTRL.BUF_EN s) 1).modAfe s fun a => { a with bufStart := some e.now } else x) e2).fullStep 11 0

/-- CALIBRATE FULL_BACKING is accepted (R90). -/
def startBacking (e : Engine) : Engine :=
  ({ e with cal := { e.cal with full := { FullCal.init with kind := 2, start := e.now, lastTrig := e.now, next := e.cal.full.next } } }).fullStep 0 e.fullLines

/-- An enabled channel of a converting side carries an AUX row. -/
def auxUsed (e : Engine) : Bool := e.calChans.any fun c => e.rd (R.TG_CHMAP.ROW (c / 32) (c % 32)) == 3

/-- What a channel had before the full calibration. -/
def savedChan (e : Engine) (c : Nat) : Int × Int × ChCal := (e.cal.saved.bind fun r => r.channels[c]?).getD (0, 0, ⟨0, 0, 0, 0⟩)

/-- A channel's result of a full calibration is rejected: its previous trims come back (R86, R88); its slices stay on the new targets. -/
def rejectFull (e : Engine) (c : Nat) (k : Check) : Engine :=
  let old := e.savedChan c
  let e1 := (e.reject c k).setTrim c old.1 old.2.1
  { e1 with cal := { e1.cal with fullRej := setBit e1.cal.fullRej c true } }

/-- Channels not rejected so far in this full calibration. -/
def accepted (e : Engine) : List Nat := e.calChans.filter fun c => !bitOf e.cal.fullRej c

/-! ### Records in flash (R91 to R93) -/

/-- The coefficient words of a record from word `at'` on, as bytes. -/
def coefBytes : Nat → Nat → Sparse Word → List Byte
  | 0, _, _ => []
  | n + 1, at', [] => leBytes 4 0x40000000 ++ coefBytes n (at' + 1) []
  | n + 1, at', (a, w) :: t =>
    if a = at' then leBytes 4 w.toNat ++ coefBytes n (at' + 1) t else leBytes 4 0x40000000 ++ coefBytes n (at' + 1) ((a, w) :: t)

/-- Fields of one size side by side. -/
def fieldRow (off size : Nat) (l : List Nat) : List LayField := l.zipIdx.map fun (v, i) => (off + size * i, size, v)

/-- Bytes 0x00000 to 0x40FFF of a record (R91). -/
def recordBytes (x : StoredRec) : List Byte :=
  let r := x.body
  layBytes 128 ([(0, 4, x.magic), (4, 2, x.version), (6, 2, r.flags), (8, 4, x.length), (12, 4, r.generation)]
      ++ fieldRow 0x10 8 r.serials ++ fieldRow 0x20 4 (r.refCorr.map (ofSigned 32)) ++ fieldRow 0x28 2 r.tempAfe ++ fieldRow 0x2C 2 r.tempRtd
      ++ fieldRow 0x34 2 r.levels ++ fieldRow 0x48 2 r.targets ++ [(0x50, 4, r.vcalrefUv)])
    ++ (r.channels.map fun (o, g, h) =>
      layBytes 16 [(0, 2, ofSigned 16 o), (2, 2, ofSigned 16 g), (4, 4, h.sliceZero), (8, 4, h.sliceSpan), (12, 2, h.bref0), (14, 2, h.bref1)]).flatten
    ++ List.replicate 2944 0 ++ coefBytes 65536 0 r.coeffs

/-- A record as it is written: MAGIC, VERSION, LENGTH and the check word. -/
def storeRecord (r : CalRecord) : StoredRec :=
  let x : StoredRec := ⟨0x4C414348, 1, 0x41004, 0, r⟩
  { x with crc := (crc32c (recordBytes x)).toNat }

/-- MAGIC, VERSION and LENGTH match, and the CRC does (R93). -/
def recordValid (x : StoredRec) : Bool :=
  x.magic == 0x4C414348 && x.version == 1 && x.length == 0x41004 && x.crc == (crc32c (recordBytes x)).toNat

/-- The record of a copy, where it is valid. -/
def validCopy (e : Engine) (i : Nat) : Option CalRecord :=
  match e.cal.copies.getD i none with
  | some x => if recordValid x then some x.body else none
  | none => none

/-- The copy the next record goes to (R92): the one that is not valid, else the one with the lower generation, A where neither is valid. Of two valid
copies of one generation it is A (DESIGN CHOICE, log 133). -/
def nextCopy (e : Engine) : Nat :=
  match e.validCopy 0, e.validCopy 1 with
  | some a, some b => if b.generation < a.generation then 1 else 0
  | some _, none => 1
  | none, _ => 0

/-- The highest valid generation; 0 without a record, so that the first record has generation 1 (DESIGN CHOICE, log 134). -/
def topGen (e : Engine) : Nat := maxOf ([0, 1].map fun i => ((e.validCopy i).map fun r => r.generation).getD 0)

/-- The record in force: the valid copy with the higher generation, A on a tie (R93). -/
def bestCopy (e : Engine) : Option (Nat × CalRecord) :=
  match e.validCopy 0, e.validCopy 1 with
  | some a, some b => if a.generation < b.generation then some (1, b) else some (0, a)
  | some a, none => some (0, a)
  | none, some b => some (1, b)
  | none, none => none

/-- The values of R93 that stand where no record is valid. -/
def factoryRecord (e : Engine) : CalRecord :=
  ⟨0, 0, [0, 0], [0, 0], [0x8000, 0x8000], List.replicate 4 0x8000, List.replicate 10 0, [], 0,
    List.replicate 64 (0, 0, ⟨Config.nominalZero, Config.nominalSpan, 0, 0⟩),
    ((upTo 64).map fun c => ((upTo 1024).filter fun p => decide (e.rd (R.TG_LINE_FMT.ACTIVE (c / 32)) ≤ p)).map fun p => (1024 * c + p, 0)).flatten⟩

/-- The record to write (R91, R92): values as they stand for the sides calibrated, those of the record in force for the others, or of the factory. -/
def newRecord (e : Engine) : CalRecord :=
  let now := e.snapshot
  let old := (e.bestCopy.map fun x => x.2).getD e.factoryRecord
  let side (s : Nat) : Bool := e.convSides.contains s
  let inv := e.rd R.CAL_STATUS.CAL_INVALID
  let pick {α : Type} (l m : List α) (d : α) (n : Nat) (sideOf : Nat → Nat) : List α :=
    (upTo n).map fun i => if side (sideOf i) then l.getD i d else m.getD i d
  { now with
    flags := b2n (e.on R.CAL_STATUS.UNTRACED) + 2 * b2n (e.cal.fullRej != 0) + 4 * b2n (!bitOf inv 0) + 8 * b2n (!bitOf inv 1)
    generation := e.topGen + 1
    serials := pick now.serials old.serials 0 2 id
    refCorr := pick now.refCorr old.refCorr 0 2 id
    tempAfe := pick now.tempAfe old.tempAfe 0x8000 2 id
    tempRtd := (upTo 4).map fun i =>
      if (upTo 2).any fun s => side s && (e.assigned s).contains i then now.tempRtd.getD i 0x8000
      else if (upTo 2).any fun s => (e.assigned s).contains i then old.tempRtd.getD i 0x8000 else 0x8000
    levels := pick now.levels old.levels 0 10 (fun n => n / 5)
    channels := pick now.channels old.channels (0, 0, ⟨0, 0, 0, 0⟩) 64 (fun c => c / 32)
    coeffs := ((upTo 2).map fun s =>
      if side s then e.coefsOf ((upTo 32).map fun k => 32 * s + k)
      else old.coeffs.filter fun w => decide (w.1 / 32768 = s)).flatten }

/-- The end of the measurements of the backing phase (R90): everything takes effect at one time, and the writing of the record, as it stands now, begins. -/
def commitFull (e : Engine) : Engine :=
  let e1 := e.accepted.foldl (fun x c =>
    let b := 1 - x.bankOf c
    (((x.wr (if b = 0 then R.SHD_CH_BANK.ASTATE c else R.SHD_CH_BANK.BSTATE c) 1).wr (R.SHD_CH_BANK.ACTIVE c) b).wr
      (R.AFE_CH_STATUS.STALE (c / 32) (c % 32)) 0)) e
  let e2 := (e1.setRefs e1.tempsNow).wr R.CAL_STATUS.FULL_OPEN 0
  let e3 := e2.convSides.foldl (fun x s => x.wr R.CAL_STATUS.CAL_INVALID (setBit (x.rd R.CAL_STATUS.CAL_INVALID) s false)) e2
  let e4 := e3.wr R.CAL_STATUS.UNTRACED (e3.rd R.CAL_CTRL.NOREF)
  { e4 with cal := { e4.cal with writing := some (e4.nextCopy, e4.newRecord), saved := none } }

/-- A mean measured in a backing step becomes a backing reference of its channel, rounded to nearest, whatever became of the channel's trims (R90); a mean of
62,000 or more rejects its channel, whose references stay as they were (R85). -/
def takeBacking (e : Engine) (step : Nat) (c : Nat) : Engine :=
  let m := e.stepMean c
  let old := (e.savedChan c).2.2
  let keep (x : Engine) : Engine :=
    { x with cal := { x.cal with chans := modAt x.cal.chans c fun h => { h with bref0 := old.bref0, bref1 := old.bref1 } } }
  if 62000 ≤ m then
    if bitOf e.cal.fullRej c then keep e else keep (e.rejectFull c ⟨3, 7, m.floor, e.ofsOf c⟩)
  else
    let v := (ratNear m).toNat
    let aux := e.rd (R.TG_CHMAP.ROW (c / 32) (c % 32)) = 3
    { e with cal := { e.cal with chans := modAt e.cal.chans c fun h =>
      if step = 0 then { h with bref0 := v, bref1 := 0 } else if aux then { h with bref1 := v } else h } }

/-- Trims of a channel judged after the repetitions of the target phase (R85, R88): none where both pass. -/
def fullCheck (e : Engine) (c : Nat) : Option Check :=
  let old := e.savedChan c
  let t := e.computedTrim c
  let gl := trimLimit (e.rd R.CAL_LIM_GAIN.ABS) (e.rd R.CAL_LIM_GAIN.FULL_STEP) true old.2.1 t.2
  let ol := trimLimit (e.rd R.CAL_LIM_OFS.ABS) (e.rd R.CAL_LIM_OFS.FULL_STEP) true old.1 t.1
  if gl ≠ 0 then some ⟨1, gl, t.2, old.2.1⟩ else if ol ≠ 0 then some ⟨0, ol, t.1, old.1⟩ else none

/-- A step of a full calibration has all its lines (R88, R90): its result is taken and the next step begins. -/
def fullAdvance (e : Engine) : Engine :=
  let f := e.cal.full
  let ready := e.calChans.all fun c => decide (f.lines ≤ f.counts.getD c 0)
  if f.kind = 0 || !ready then e
  else if f.kind = 1 then
    if f.step < 8 ∧ f.step % 2 = 0 then (e.calChans.foldl (fun x c => x.setDark c) e).keepMeans.fullStep (f.step + 1) 64
    else if f.step < 8 then
      let fin := (e.calChans.all e.closeEnough) || f.step == 7
      let e1 := e.calChans.foldl (fun x c => x.setWhite c) e
      if fin then
        let e2 := (e1.calChans.foldl (fun x c => match x.fullCheck c with | some k => x.rejectFull c k | none => x.acceptItem c) e1).fullStep 8 e.fullLines
        { e2 with cal := { e2.cal with full := { e2.cal.full with dark := List.replicate 64 [], white := List.replicate 64 [] } } }
      else e1.fullStep (f.step + 1) 64
    else if f.step = 8 then e.fullStep 9 e.fullLines
    else if f.step = 9 then e.fullStep 10 0
    else e
  else if f.step = 0 then
    let e1 := e.calChans.foldl (fun x c => x.takeBacking 0 c) e
    if e.auxUsed then e1.fullStep 1 e.fullLines else (e1.fullStep 2 0).commitFull
  else if f.step = 1 then ((e.calChans.foldl (fun x c => x.takeBacking 1 c) e).fullStep 2 0).commitFull
  else e

/-- INTERNAL_TRIGGER (R88): every L + 1 µs, on both sides; it is a kept trigger of the phase's own count. -/
def internalTrigger (e : Engine) : Engine :=
  let f := e.cal.full
  let gap : Rat := 1000 + ((e.convSides.map e.lineNs).foldl ratMax 0)
  if e.mode ≠ .m5 ∨ (e.now : Rat) < (f.lastTrig : Rat) + gap then e
  else
    let e1 := e.convSides.foldl (fun x s => if x.on (R.AFE_STATUS.CONV_RUN s) then
      (x.sideChans s).foldl (fun y c => y.modChan c fun h => { h with owed := h.owed ++ [(f.next, e.now)] }) x else x) e
    let e2 : Engine := { e1 with cal := { e1.cal with full :=
      { f with next := f.next + 1, lastTrig := e.now } } }
    e2.convSides.foldl (fun x s =>
      (x.pushTrig s (.trigger ⟨f.next, some f.next, false, e.now⟩)).pushTrig s (.predict (some (e.now + ratNat gap)))) e2

/-! ### The end of the target phase -/

/-- Coefficients of R89 from the sums, in 1/256 code, of a channel's dark and white lines. A defect pixel gets the channel's medians: of D, and of G over the pixels whose
G is defined (log 29). -/
def coefWords (e : Engine) (dark white : List Int) (lines : Nat) : List Word :=
  let avg (l : List Int) : List Rat := l.map fun (v : Int) => (v : Rat) / ((256 * max 1 lines : Nat) : Rat)
  let d := (avg dark).map fun x => (ratNear x).toNat
  let px := (d.zip (avg white)).map fun (d, w) => (d, w - (d : Rat))
  let out : Rat := (e.rd R.CAL_WHITE_OUT.V : Nat)
  let g (x : Rat) : Int := ratNear (out / x * 16384)
  let medD := median (d.map fun v => ((v : Nat) : Rat))
  let medW := median (px.map fun x => x.2)
  let medG := (ratNear (median ((px.filter fun x => decide (0 < x.2)).map fun x => ((g x.2 : Int) : Rat)))).toNat
  let lo : Rat := (e.rd R.CAL_DEFECT.LO_PCT : Nat)
  let hi : Rat := (e.rd R.CAL_DEFECT.HI_PCT : Nat)
  px.map fun (d, x) =>
    let off := (d : Rat) - medD
    let dk : Rat := (e.rd R.CAL_DEFECT.DARK : Nat)
    if x ≤ 0 ∨ 100 * x < lo * medW ∨ hi * medW < 100 * x ∨ dk < off ∨ dk < -off ∨ 32767 < g x then
      BitVec.ofNat 32 (2 ^ 31 + min 32767 medG * 65536 + (ratNear medD).toNat)
    else BitVec.ofNat 32 ((g x).toNat * 65536 + d)

/-- Fresh slice targets of a channel: measured against VCALREF, free. -/
def freshTargets (e : Engine) (c : Nat) : Engine :=
  let a := e.takeFree
  let b := a.2.takeFree
  { b.2 with cal := { b.2.cal with chans := modAt b.2.cal.chans c fun h => { h with sliceZero := a.1 % 2 ^ 32, sliceSpan := b.1 % 2 ^ 32 } } }

/-- CAL_DONE of a full calibration phase (R268): index 0, channels rejected, no driver. -/
def fullDone (e : Engine) (kind status : Nat) (hs : Option Nat) : Engine :=
  e.emit 0x09 kind status (e.rd R.CAL_STATUS.CAUSE) hs
    [(24, 6, 0), (32, 2, (maskChans e.cal.fullRej).length), (34, 2, 0), (36, 4, e.rd R.CAL_GEN.V)]

/-- VCALREF is outside its range (R87): BUF_EN is restored, and the module returns to M4 unchanged. -/
def refuseTarget (e : Engine) : Engine :=
  let e1 := if e.on R.CAL_STATUS.FULL_OPEN then e.dropFull
    else { e.restoreBuf with cal := { e.cal with full := FullCal.init, saved := none } }
  (e1.changeMode .m4 8 none).finishAll (fun (w : Wait) => w == .calTarget) stRejectedParam []

/-- VCALREF is in range: the internal references are measured against it, the slice targets fixed, BUF_EN restored, and the slices calibrated (R88). -/
def takeReference (e : Engine) (vcalref : List Int) : Engine :=
  let v := vcalref.getD 0 0
  let corr (s : Nat) : Int := let i := vcalref.getD (1 + s) 0; if i = 0 then 0 else ratAway (((v : Rat) / (i : Rat) - 1) * 1000000000)
  let e1 := (e.calChans.foldl freshTargets (e.convSides.foldl (fun x s => x.wrS (R.CAL_REF_CORR.V s) (corr s)) e)).restoreBuf
  ({ e1 with cal := { e1.cal with vcalref := v.toNat } } : Engine).beginTarget

/-- TARGET_PHASE_DONE (R87 to R89): what the engine reports of the target phase (DESIGN CHOICE, log 136). Where VCALREF has settled for 40 ms it is the
measurement, `vcalref`: VCALREF in µV, then each side's internal reference; the phase goes on, or is refused. After the averages the phase completes. -/
def targetDone (e : Engine) (vcalref : List Int) : Engine :=
  let f := e.cal.full
  let v := vcalref.getD 0 0
  if f.kind ≠ 1 then e
  else if f.step = 11 then
    (if e.now < f.start + 40000000 then e else if v < 2475000 ∨ 2525000 < v then e.refuseTarget else e.takeReference vcalref)
  else if f.step ≠ 10 then e
  else
    let e4 := e.accepted.foldl (fun x c =>
      ((coefWords x (f.dark.getD c []) (f.white.getD c []) e.fullLines).zipIdx).foldl
        (fun y (w, p) => y.setWord (coefAt c (1 - x.bankOf c) p) w) x) e
    let e5 : Engine := ({ e4 with cal := { e4.cal with full := { FullCal.init with next := f.next, lastTrig := f.lastTrig } } }).wr R.CAL_STATUS.FULL_OPEN 1
    let st : Nat := if e5.cal.fullRej = 0 then stOk else stPartial
    let hs := e.waitingHseq (fun (w : Wait) => w == .calTarget)
    (e5.fullDone 1 st hs).finishAll (fun (w : Wait) => w == .calTarget) st []

/-- CAL_RECORD_WRITE_DONE (R90, R92): `result` is 0 where the copy reads back right, 1 where writing failed, 2 where verification failed. -/
def recordWritten (e : Engine) (result : Nat) : Engine :=
  match e.cal.writing with
  | none => e
  | some (copy, rec0) =>
    let hs := e.waitingHseq (fun (w : Wait) => w == .calBacking)
    let put (x : Option StoredRec) : Engine := { e with cal := { e.cal with copies := modAt e.cal.copies copy (fun _ => x), writing := none } }
    let e1 := if result = 0 then (put (some (storeRecord rec0))).wr R.CAL_GEN.V rec0.generation else (put none).fault 0x07 0 result 0 [(24, 1, copy + 1)]
    let st := if result = 0 ∧ e.cal.fullRej = 0 then stOk else stPartial
    let e2 := (e1.fullDone 2 st hs)
    let e3 := { e2 with cal := { e2.cal with full := FullCal.init } }
    (if e3.mode = .m5 then e3.changeMode .m4 8 none else e3).finishAll (fun (w : Wait) => w == .calBacking) st []

/-! ### Records at boot (R93, R94) -/

/-- Bank A of a channel takes words over the factory words. -/
def loadBankA (e : Engine) (c : Nat) (l : Sparse Word) : Engine :=
  l.foldl (fun x w => if w.1 / 1024 = c then x.setWord (coefAt c 0 (w.1 % 1024)) w.2 else x) (e.resetRange (coefAt c 0 0) (coefAt c 0 1024))

/-- A side takes the factory defaults of R93 in a bank of its channels. -/
def factorySide (e : Engine) (s : Nat) (boot : Bool) : Engine :=
  let e1 := (upTo 32).foldl (fun x k =>
    let c := 32 * s + k
    let b := if boot then 0 else x.bankOf c
    (x.setTrim c 0 0).resetRange (coefAt c b 0) (coefAt c b 1024)) e
  let e2 := (upTo 5).foldl (fun x i => x.wr (R.ILL_CUR.LEVEL (5 * s + i)) 0) e1
  { (e2.wr (R.CAL_REF_CORR.V s) 0) with cal := { e2.cal with
    chans := e2.cal.chans.zipIdx.map fun (h, c) => if c / 32 = s then ⟨Config.nominalZero, Config.nominalSpan, 0, 0⟩ else h } }

/-- Every channel: bank A active and VALID, bank B INVALID (R93, R348). -/
def bootBanks (e : Engine) : Engine :=
  (upTo 64).foldl (fun x c => (((x.wr (R.SHD_CH_BANK.ACTIVE c) 0).wr (R.SHD_CH_BANK.ASTATE c) 1).wr (R.SHD_CH_BANK.BSTATE c) 0).wr (R.SHD_CH_BANK.FADING c) 0) e

/-- The record of the higher generation is loaded at boot; without one, factory defaults (R93). -/
def selectRecord (e : Engine) : Engine :=
  match e.bestCopy with
  | none => (((e.factorySide 0 true).factorySide 1 true).bootBanks.wr R.CAL_STATUS.CAL_INVALID 3).wr R.CAL_STATUS.COPY 0
  | some (copy, r) =>
    let e1 := ((e.restoreCal r).bootBanks)
    let e2 := (r.levels.zipIdx).foldl (fun x (v, n) => x.wr (R.ILL_CUR.LEVEL n) v) e1
    let e3 := (upTo 64).foldl (fun x c => x.loadBankA c r.coeffs) e2
    let e4 := (((e3.wr R.CAL_DARK_TGT.V (r.targets.getD 0 0)).wr R.CAL_WHITE_RAW.V (r.targets.getD 1 0)).wr R.CAL_WHITE_OUT.V (r.targets.getD 2 0)).wr
      R.CAL_FULL_LINES.V (r.targets.getD 3 0)
    ((((e4.wr R.CAL_STATUS.CAL_INVALID (3 - r.flags / 4 % 4)).wr R.CAL_STATUS.COPY (copy + 1)).wr R.CAL_GEN.V r.generation).wr
      R.CAL_STATUS.UNTRACED (r.flags % 2))

/-- A side whose SDB names another sensor than the record takes factory defaults, and its CAL_INVALID bit sets (R94). -/
def checkSerial (e : Engine) (s : Nat) : Engine :=
  match e.bestCopy with
  | some (_, r) =>
    let n := r.serials.getD s 0
    if n ≠ 0 ∧ n ≠ e.sideSerial s then
      (e.factorySide s false).wr R.CAL_STATUS.CAL_INVALID (setBit (e.rd R.CAL_STATUS.CAL_INVALID) s true)
    else e
  | none => e

end Engine

/-- WINDOW_OPEN (R39, R78). -/
def execWindowOpen (side : Side) (row : RowIx) (s : State) : Answer := .next (s.onEng fun e => e.windowOpens side.val row.val)

/-- TEMP_COMPARE (R76): the die temperatures are measurements. -/
def execTempCompare (t0 t1 : BitVec 16) (s : State) : Answer := .next (s.onEng fun e => e.tempCompare t0.toNat t1.toNat)

/-- GAP_CAL_COMPUTE (R81). -/
def execGapCalCompute (s : State) : Answer := .next (s.onEng Engine.gapCompute)

/-- INTERNAL_TRIGGER (R88): a step that has its lines ends first. -/
def execInternalTrigger (s : State) : Answer := .next (s.onEng fun e => e.fullAdvance.internalTrigger)

/-- TARGET_PHASE_DONE (R88). -/
def execTargetPhaseDone (vcalref : List Int) (s : State) : Answer := .next (s.onEng fun e => e.targetDone vcalref)

/-- CAL_RECORD_WRITE_DONE (R92). -/
def execCalRecordWriteDone (result : Fin 3) (s : State) : Answer := .next (s.onEng fun e => e.recordWritten result.val)

end Sys2Proof.Machine
end

