-- ==== Sys2Proof/Machine/Floats.lean ====
section
/-!
DEFINITION. IEEE 754 binary32 words and the binary64 rounding of R328, square roots of the fit (R293) and of the temperature (R329), medians. Numbers are exact rationals;
the sign of a zero result is not kept (log 19).
-/

namespace Sys2Proof

/-- 2 to an integer power. -/
def pow2 (k : Int) : Rat := if 0 ≤ k then ((2 ^ k.toNat : Nat) : Rat) else 1 / ((2 ^ (-k).toNat : Nat) : Rat)

/-- The value of a binary32 word; one that is no number has an open value (log 32). -/
def f32ToRat (w : Nat) : Rat :=
  let s : Rat := if bitOf w 31 then -1 else 1
  let e : Int := (w / 2 ^ 23 % 256 : Nat)
  let m := w % 2 ^ 23
  if e = 255 then Config.notNumber w
  else if e = 0 then s * (m : Nat) * pow2 (-149)
  else s * (m + 2 ^ 23 : Nat) * pow2 (e - 150)

/-- The exponent k with 2^k ≤ x < 2^(k+1) of a positive rational. -/
def expOf (x : Rat) : Int :=
  let k : Int := (Nat.log2 x.num.natAbs : Int) - (Nat.log2 x.den : Int)
  if x < pow2 k then k - 1 else k

/-- A rational rounded to an integer, halves to even. -/
def ratEven (x : Rat) : Int :=
  let f := x.floor
  let r := x - (f : Rat)
  if r < 1 / 2 then f else if 1 / 2 < r then f + 1 else if f % 2 = 0 then f else f + 1

/-- A rational rounded to 53 significant bits, halves to even: one binary64 operation. -/
def round53 (x : Rat) : Rat :=
  if x = 0 then 0
  else
    let k := expOf (if x < 0 then -x else x) - 52
    (ratEven (x / pow2 k) : Rat) * pow2 k

/-- The binary32 word nearest a rational, halves to even; beyond the range, infinity. -/
def ratToF32 (x : Rat) : Nat :=
  if x = 0 then 0
  else
    let s := if x < 0 then 2 ^ 31 else 0
    let a := if x < 0 then -x else x
    let e := max (expOf a) (-126)
    let m := (ratEven (a / pow2 (e - 23))).toNat
    let w := if m < 2 ^ 23 then m else ((e + 127) * 2 ^ 23).toNat + (m - 2 ^ 23)
    s + min w (255 * 2 ^ 23)

/-- The square root of a rational below 2^56, rounded down to a multiple of 2^-100. -/
def sqrtFine (x : Rat) : Rat := (isqrt (x * pow2 200).floor.toNat : Rat) / pow2 100

/-- The median of a list; the mean of the middle two of an even number (log 34); 0 of none. -/
def medianRat (l : List Rat) : Rat :=
  let s := l.mergeSort (fun a b => decide (a ≤ b))
  let n := s.length
  if n % 2 = 1 then s.getD (n / 2) 0 else (s.getD (n / 2 - 1) 0 + s.getD (n / 2) 0) / 2

/-- The sum of rationals. -/
def sumRat (l : List Rat) : Rat := l.foldl (· + ·) 0

end Sys2Proof
end

