-- ==== Sys2Proof/Machine/SecOps.lean ====
section
/-!
DEFINITION. The section's own operations: its registers (R315), its position (R292), the pieces it knows and where they lie (R295), what it
reports of itself (R311), its identification (R299, R300), and the way a packet takes to the engine (R222).
-/

namespace Sys2Proof.Machine

namespace Section

/-! ### Registers and parameters -/

/-- The word of a register of the section's map. -/
def word (x : Section) (off : Nat) : Word := Sparse.get RegMap.resetWord x.regs off

/-- Store a register word. -/
def setWord (x : Section) (off : Nat) (w : Word) : Section := { x with regs := Sparse.set RegMap.resetWord x.regs off w }

/-- The value of a field. -/
def rd (x : Section) (f : Fld) : Nat := f.get (x.word f.off)

/-- Whether a field is not 0. -/
def on (x : Section) (f : Fld) : Bool := x.rd f != 0

/-- Set a field. -/
def wr (x : Section) (f : Fld) (v : Nat) : Section := x.setWord f.off (f.put (x.word f.off) v)

/-- A field of the map in force (R315): as it stood at the latest output boundary of the input it concerns. -/
def act (x : Section) (f : Fld) : Nat := f.get (Sparse.get RegMap.resetWord x.fe.act f.off)

/-- Whether a field of the map in force is not 0. -/
def actOn (x : Section) (f : Fld) : Bool := x.act f != 0

/-- A fresh free value of the section (log 1). -/
def takeFree (x : Section) : Nat × Section := (Config.sectionFree x.free, { x with free := x.free + 1 })

/-- The registers that are parameters: those below MET_FE_STAT, MET_VEX.FAULT left out. -/
def configOf (l : Sparse Word) : Sparse Word :=
  let f := R.MET_VEX.FAULT
  (Sparse.set RegMap.resetWord l f.off (f.put (Sparse.get RegMap.resetWord l f.off) 0)).filter fun c => decide (c.1 < 0x200140)

/-! ### Pieces -/

/-- Counts in a length in µm. -/
def countsOf (x : Section) (um : Nat) : Int := (10000 * um / max 1 x.params.sL : Nat)

/-- The piece whose trailing edge has not passed the scan line. -/
def openPiece (x : Section) : Option Piece := x.pieces.find? fun p => !p.closed

/-- Change the open piece. -/
def modOpen (x : Section) (f : Piece → Piece) : Section :=
  { x with pieces := x.pieces.map fun p => if p.closed then p else f p }

/-- A piece lies under the thickness sensor (R295). -/
def underSensor (x : Section) (p : Piece) : Bool :=
  decide (p.first + x.params.dT ≤ x.pos) && (!p.closed || decide (x.pos ≤ p.last + x.params.dT))

/-- Some piece lies under the thickness sensor. -/
def sensorBusy (x : Section) : Bool := x.pieces.any x.underSensor

/-! ### The front end's faults and switches -/

/-- The state of an input. -/
def inp (x : Section) (i : Nat) : FeIn := x.fe.ins.getD i FeIn.init

/-- Change an input. -/
def modIn (x : Section) (i : Nat) (f : FeIn → FeIn) : Section := { x with fe := { x.fe with ins := modAt x.fe.ins i f } }

/-- A fault is live on an input (R336). -/
def faulty (x : Section) (i : Nat) : Bool := (x.inp i).live.any fun n => n != 0

/-- Some fault is live. -/
def feFault (x : Section) : Bool := (upTo 8).any x.faulty

/-- THICK_IN or POLY_TIN is in fault (R336). -/
def thickFault (x : Section) : Bool := x.faulty (x.act R.MET_CONV_CTRL.THICK_IN) || x.faulty (x.act R.MET_CONV_CTRL.POLY_TIN)

/-- A double-feed switch is active (R333). -/
def doubleFeed (x : Section) : Bool :=
  (upTo 4).any fun n => x.actOn (R.MET_TH_CFG.EN n) && x.act (R.MET_TH_CFG.ROLE n) == 1 && x.fe.th.getD n false

/-- Pieces under the sensor take the flags that the front end's present state gives them (R299). -/
def markPieces (x : Section) : Section :=
  { x with pieces := x.pieces.map fun p =>
      if x.underSensor p then { p with feFault := p.feFault || x.thickFault, multi := p.multi || x.doubleFeed } else p }

/-! ### What the section reports -/

/-- Records without an acknowledgement. -/
def backlog (x : Section) : Nat := (x.store.filter fun r => !r.acked).length

/-- The section's report of itself; sync is held for 1 s after the latest SYNC (R308). -/
def stat (x : Section) (now : Nat) : MetStat :=
  ⟨x.sealOpen, match x.sync with | some t => decide (now ≤ t.1 + 1000000000) | none => false, decide (4096 ≤ x.backlog), x.feFault,
    min 65535 x.backlog, x.labels.length, x.params.pairing⟩

/-- The key pair's public key: X then Y. -/
def pubKey (x : Section) : Nat × Nat := publicKey (Config.sectionKey x.keyGen)

/-- X ‖ Y. -/
def keyBytes (x : Section) : List Byte := beBytes 32 x.pubKey.1 ++ beBytes 32 x.pubKey.2

/-- KEY_ID: the first four bytes of SHA-256 of X ‖ Y, in the order they stand (R299). -/
def keyId (x : Section) : Nat := fromLe ((beBytes 32 (sha256 x.keyBytes)).take 4)

/-- Identification, with the highest MSEQ acknowledged (R302). -/
def identPkt (x : Section) : MetIn := .ident x.fwVer x.fwCrc x.audit x.keyId x.keyBytes x.highAck

/-- States of TH0 to TH3. -/
def thBits (x : Section) : Nat := (upTo 4).foldl (fun b n => setBit b n (x.fe.th.getD n false)) 0

/-- The value a switch sees, as published (R268): the source's linearised value or the detector's result. -/
def thSource (x : Section) (n : Nat) : Option Rat :=
  let s := x.act (R.MET_TH_CFG.SRC n)
  if s < 8 then (x.inp s).lin else if s < 12 then (x.fe.dets.getD (s - 8) DetSt.init).value else none

/-- The engine signal line of a switch follows its state (R333). -/
def thSignal (x : Section) (n : Nat) : Bool := x.fe.th.getD n false

/-- The open-drain output of a switch on J9 conducts while the switch is active, unless INV inverts it (R333). -/
def thConducts (x : Section) (n : Nat) : Bool := x.thSignal n != x.actOn (R.MET_TH_CFG.INV n)

/-- T0 to T3 as they are published (R288). -/
def tempPkt (x : Section) : MetIn := .temps (x.fe.temps.zip x.fe.fresh)

/-- T0 to T3 have been published. -/
def tempsSent (x : Section) : Section := { x with fe := { x.fe with fresh := [false, false, false, false] } }

/-- The states of the switches with their values. -/
def thPkt (x : Section) : MetIn := .thresholds x.thBits ((upTo 4).map fun n => ratToF32 ((x.thSource n).getD 0))

end Section

namespace Engine

/-- A packet enters MET_IN: its 1,024 words hold 32 packets of 32 words (log 33); one that finds it full overwrites the oldest, which is lost and
counted (R212, R216). -/
def metPush (e : Engine) (p : MetPkt) : Engine :=
  let full := decide (32 ≤ e.met.inq.length)
  let e1 := if full then e.count (R.QUE_LOST.V 68) 1 else e
  let q := (if full then e.met.inq.drop 1 else e.met.inq) ++ [p]
  ({ e1 with met := { e1.met with inq := q } } : Engine).level 68 (32 * q.length)

/-- The seal opens or closes: MET_STATUS.SEAL_OPEN follows at once, and no packet that waits in MET_IN reports it otherwise (R306). -/
def setSeal (e : Engine) (isOpen : Bool) : Engine :=
  let e1 : Engine := { e with met := { e.met with inq := e.met.inq.map fun (p : MetPkt) => { p with stat := { p.stat with sealOpen := isOpen } } } }
  e1.wr R.MET_STATUS.SEAL_OPEN (b2n isOpen)

end Engine

/-- The section's clock in ns: device time without what a takeover has added to it (R298). -/
def Engine.secNow (e : Engine) : Nat := ((e.now : Int) - e.jump).toNat

/-- What the section does of itself: it sees its own state and its own clock alone, and answers packets for MET_IN (R288). -/
def State.onSec (s : State) (f : Section → Nat → Section × List MetIn) : State :=
  let r := f s.sec s.eng.secNow
  { s with sec := r.1, eng := r.2.foldl (fun e m => e.metPush ⟨m, r.1.stat s.eng.secNow⟩) s.eng }

end Sys2Proof.Machine
end

