-- ==== Sys2Proof/Machine/FrontEnd.lean ====
section
/-!
DEFINITION. The metrology front end and the measurement converter (15_metrology_front_end.md): one output of the converter with its faults (R335, R336), gain
(R324), linearisation (R328, R329), DC blocking and detectors (R330, R331), threshold switches (R332, R333) and the sequencer (R326).
-/

namespace Sys2Proof.Machine

namespace Section

/-! ### Inputs -/

/-- A field of the configuration the input in conversion runs under (R315: a write takes effect at the next output boundary). -/
def cfgf (x : Section) (f : Nat → Fld) : Nat := (f 0).get x.fe.cfg

/-- The input's TYPE takes two conversions for a value (R317). -/
def pairType (t : Nat) : Bool := t == 2 || t == 3

/-- The reference resistor in Ω. -/
def refOhm (x : Section) : Rat := if x.cfgf R.MET_IN_CFG.RREF = 0 then 2000 else 20000

/-- The reference voltage of the input in conversion, in V (R317). -/
def refVolt (x : Section) : Rat :=
  let i : Rat := (x.cfgf R.MET_IN_CFG.IEX : Nat) / 100000
  match x.cfgf R.MET_IN_CFG.TYPE with
  | 1 | 3 => i * x.refOhm
  | 2 => 2 * i * x.refOhm
  | 4 => if x.actOn R.MET_VEX.EN then (if x.act R.MET_VEX.LEVEL = 0 then 5 / 2 else 5) else 0
  | _ => 5 / 2

/-- The value an input delivers from its normalised readings (R317): V, Ω or a ratio. -/
def delivered (x : Section) (a b : Rat) : Rat :=
  match x.cfgf R.MET_IN_CFG.TYPE with
  | 0 => 5 / 2 * a
  | 1 => x.refOhm * a
  | 2 => x.refOhm * (a + b)
  | 3 => x.refOhm * (a - b) / 2
  | _ => a

/-- The same as the ratio that R328 takes: the value over its reference (DEDUCED, log 35). -/
def ratioOf (x : Section) (a b : Rat) : Rat :=
  match x.cfgf R.MET_IN_CFG.TYPE with | 2 => a + b | 3 => (a - b) / 2 | _ => a

/-! ### Linearisation -/

/-- Coefficient c_ij. -/
def coef (x : Section) (i j : Nat) : Rat := f32ToRat (x.act (R.MET_POLY.V (3 * i + j)))

/-- c_i0 + τ (c_i1 + τ c_i2), each operation rounded to binary64. -/
def polyRow (x : Section) (tau : Rat) (i : Nat) : Rat :=
  round53 (x.coef i 0 + round53 (tau * round53 (x.coef i 1 + round53 (tau * x.coef i 2))))

/-- R328 in binary64 by Horner's rule in x, with the coefficient of each power of x by Horner's rule in τ (log 35). -/
def poly (x : Section) (v : Rat) : Rat :=
  let tau := if x.actOn R.MET_CONV_CTRL.POLY_TEN then round53 x.fe.tau else 25
  let v := round53 v
  let step (i : Nat) (a : Rat) : Rat := round53 (x.polyRow tau i + round53 (v * a))
  step 0 (step 1 (step 2 (x.polyRow tau 3)))

/-- Newton iteration on R(t) / R_nom until the step is below 0.0001 °C; `n` bounds the steps. -/
def newton (q : Rat) : Nat → Rat → Rat
  | 0, t => t
  | n + 1, t =>
    let a : Rat := 39083 / 10000000
    let b : Rat := -5775 / 10000000000
    let c : Rat := -4183 / 1000000000000000
    let f := 1 + a * t + b * t * t + c * (t - 100) * t * t * t - q
    let d := a + 2 * b * t + c * (4 * t * t * t - 300 * t * t)
    let u := ((t - (if d = 0 then 0 else f / d)) * pow2 60).floor / pow2 60
    let s := if u < t then t - u else u - t
    if s < 1 / 10000 then u else newton q n u

/-- The temperature of a resistance in Ω (R329); none where the equation has no solution. -/
def rtdOf (rnom r : Rat) : Option Rat :=
  let a : Rat := 39083 / 10000000
  let b : Rat := -5775 / 10000000000
  let q := r / rnom
  let d := a * a - 4 * b * (1 - q)
  if d < 0 ∨ 2 ^ 50 < d then none
  else
    let t := (-a + sqrtFine d) / (2 * b)
    if 1 ≤ q then some t else some (newton q 60 t)

/-- The linearised value of a reading; none: the polynomial is invalid. What the rules do not state (a reserved TYPE or LIN, no solution) is a
free value (log 35). -/
def linearise (x : Section) (i : Nat) (a b : Rat) : Option Rat × Section :=
  let fr := x.takeFree
  let open_ : Option Rat × Section := (some ((fr.1 : Nat) : Rat), fr.2)
  if 5 ≤ x.cfgf R.MET_IN_CFG.TYPE then open_
  else
    match x.cfgf R.MET_IN_CFG.LIN with
    | 0 => (some (x.delivered a b), x)
    | 1 => (if x.fe.polyOk then some (f32ToRat (ratToF32 (x.poly (x.ratioOf a b)))) else none, x)
    | 2 =>
      let rn : Rat := (x.act (R.MET_IN_RNOM.V i) : Nat) / 1000
      if rn = 0 then open_
      else match rtdOf rn (x.delivered a b) with
        | some t => (some t, x)
        | none => open_
    | _ => open_

/-! ### DC blocking and detectors -/

/-- The stage is frozen (R330); what the reserved code does is a free value. -/
def frozen (x : Section) : Bool × Section :=
  match x.cfgf R.MET_IN_CFG.DCB_FRZ with
  | 0 => (false, x)
  | 1 => (x.sensorBusy, x)
  | 2 => (true, x)
  | _ => let r := x.takeFree; (r.1 % 2 = 1, r.2)

/-- One output at a detector (R331): PEAK, RMS (rounded down to 1/1,000 by `sqrtFine` more finely), ENVELOPE. -/
def detect (x : Section) (m : Nat) (y : Rat) : Section :=
  let a := if y < 0 then -y else y
  let d := x.fe.dets.getD m DetSt.init
  let n := d.n + 1
  let sum := d.sum + y * y
  let top := ratMax d.max a
  let env := ratMax a (d.env - d.env / ((2 ^ x.act (R.MET_DET_CFG.K m) : Nat) : Rat))
  let win := max 1 (x.act (R.MET_DET_N.V m))
  let fr := x.takeFree
  let r : Option (Option Rat) × Section := match x.act (R.MET_DET_CFG.MODE m) with
    | 0 => (if win ≤ n then some (some top) else none, x)
    | 1 => (if win ≤ n then some (some (sqrtFine (sum / (n : Nat)))) else none, x)
    | 2 => (some (some env), x)
    | _ => (some (some ((fr.1 : Nat) : Rat)), fr.2)
  let y := r.2
  let done := decide (win ≤ n)
  let d1 : DetSt := ⟨if done then 0 else n, if done then 0 else sum, if done then 0 else top, env, match r.1 with | some v => v | none => d.value⟩
  let z := { y with fe := { y.fe with dets := modAt y.fe.dets m fun _ => d1 } }
  match r.1 with | some (some v) => z.wr (R.MET_DET_VAL.V m) (ratToF32 v) | _ => z

/-- The stage of an input takes a linearised value and feeds its detectors. -/
def blockDc (x : Section) (i : Nat) (v : Rat) : Section :=
  if x.cfgf R.MET_IN_CFG.DCB_EN = 0 then x
  else
    let f := x.frozen
    let m := (x.inp i).m
    let y := v - m
    let x1 := if f.1 then f.2 else f.2.modIn i fun n => { n with m := m + y / ((2 ^ x.cfgf R.MET_IN_CFG.DCB_K : Nat) : Rat) }
    (upTo 4).foldl (fun z k => if z.actOn (R.MET_DET_CFG.EN k) && z.act (R.MET_DET_CFG.SRC k) == i then z.detect k y else z) x1

/-! ### Threshold switches -/

/-- The input behind a switch's source. -/
def thInput (x : Section) (n : Nat) : Option Nat :=
  let s := x.act (R.MET_TH_CFG.SRC n)
  if s < 8 then some s else if s < 12 then some (x.act (R.MET_DET_CFG.SRC (s - 8))) else none

/-- R332 with the state kept between the levels. -/
def hysteresis (set clr v : Rat) (was : Bool) : Bool :=
  if set < clr then (if v ≤ set then true else if clr ≤ v then false else was)
  else if set = clr then decide (set ≤ v)
  else if set ≤ v then true else if v ≤ clr then false else was

/-- An overload counts as outside the band in its direction (R321). -/
def overloaded (set clr : Rat) (up : Bool) : Bool := if set < clr then !up else up

/-- The state of a switch (R332, R333). -/
def thState (x : Section) (n : Nat) : Bool :=
  let fstate := x.actOn (R.MET_TH_CFG.FSTATE n)
  if !x.actOn (R.MET_TH_CFG.EN n) then false
  else
    match x.thInput n with
    | none => fstate
    | some i =>
      let lin := x.act (R.MET_IN_CFG.LIN i)
      if x.faulty i || (lin == 1 && !x.fe.polyOk) then fstate
      else
        let set := f32ToRat (x.act (R.MET_TH_SET.V n))
        let clr := f32ToRat (x.act (R.MET_TH_CLR.V n))
        match (if x.act (R.MET_TH_CFG.SRC n) < 8 then (x.inp i).ovr else none), x.thSource n with
        | some up, _ => overloaded set clr up
        | none, some v => hysteresis set clr v (x.fe.th.getD n false)
        | none, none => fstate

/-- Every switch is evaluated; a change is published (R288). -/
def switches (x : Section) : Section × List MetIn :=
  let th := (upTo 4).map x.thState
  let y := ({ x with fe := { x.fe with th := th } } : Section).markPieces
  (y, if th = x.fe.th then [] else [y.thPkt])

/-! ### Faults -/

/-- Fault bits of an input as MET_FE_STAT shows them: OPEN, CM, EXC, OVP. -/
def faultBits (l : List Nat) : Nat := (upTo 4).foldl (fun b k => setBit b k (l.getD k 0 != 0)) 0

/-- MET_FE_STAT and MET_VEX.FAULT follow the live faults. -/
def publishFaults (x : Section) : Section :=
  let w := (upTo 8).foldl (fun b i => b + faultBits (x.inp i).live * 16 ^ i) 0
  (x.wr R.MET_FE_STAT.V w).wr R.MET_VEX.FAULT (b2n ((upTo 8).any fun i => (x.inp i).live.getD 4 0 != 0))

/-- MET_NOTICE FE_FAULT of an input (R336): its number, the faults in bits 8 to 12, bit 31 at onset. -/
def feNotice (i : Nat) (set : List Nat) (onset : Bool) : MetIn :=
  .notice 4 0 (i + set.foldl (fun b k => b + 2 ^ (8 + k)) 0 + (if onset then 2 ^ 31 else 0))

/-- Faults found at an output, and the count of clean outputs of the others; a fault is live until 16 successive outputs are free of it. OVP is
live while its clamp conducts. -/
def judgeFaults (x : Section) (i : Nat) (found : List Bool) : Section × List MetIn :=
  let was := (x.inp i).live
  let now := (upTo 5).map fun k =>
    if k = 3 then was.getD 3 0 else if found.getD k false then 16 else was.getD k 0 - 1
  let onset := (upTo 5).filter fun k => was.getD k 0 == 0 && now.getD k 0 != 0
  let clear := (upTo 5).filter fun k => was.getD k 0 != 0 && now.getD k 0 == 0
  ((x.modIn i fun n => { n with live := now }).publishFaults,
    (if onset.isEmpty then [] else [feNotice i onset true]) ++ (if clear.isEmpty then [] else [feNotice i clear false]))

/-! ### The sequencer (R326) -/

/-- Enabled inputs. -/
def enabledIn (x : Section) : List Nat := (upTo 8).filter fun i => x.on (R.MET_IN_CFG.EN i)

/-- The primary: the lowest enabled input with SEC = 0. -/
def primary (x : Section) : Option Nat := x.enabledIn.find? fun i => !x.on (R.MET_IN_CFG.SEC i)

/-- The secondary whose turn is next, round-robin in ascending number. -/
def nextSec (x : Section) : Option Nat :=
  let l := x.enabledIn.filter fun i => x.primary != some i
  match l.find? fun i => decide (x.fe.lastSec < i) with
  | some i => some i
  | none => l.head?

/-- A secondary may have its turn. -/
def secReady (x : Section) (now i : Nat) : Bool :=
  !x.sensorBusy || decide ((x.inp i).turn + 10000000 * x.act R.MET_CONV_CTRL.MAXAGE ≤ now)

/-- Whether a word of the map concerns an input (R315): its own words, a switch or a detector that takes from it as written, and every word that belongs to
no one input (DEDUCED, log 146). -/
def concerns (x : Section) (i : Option Nat) (off : Nat) : Bool :=
  let o := off - 0x200000
  let det (m : Nat) : Option Nat := some (x.rd (R.MET_DET_CFG.SRC m))
  if 0x10 ≤ o ∧ o < 0x50 then some ((o - 0x10) / 4 % 8) == i
  else if 0x80 ≤ o ∧ o < 0xC0 then
    let s := x.rd (R.MET_TH_CFG.SRC ((o - 0x80) / 16))
    if 12 ≤ s then true else (if s < 8 then some s else det (s - 8)) == i
  else if 0xC0 ≤ o ∧ o < 0xE0 then det ((o - 0xC0) / 8) == i
  else true

/-- An output boundary of an input, or the start of its conversion: what was written to the words that concern it takes effect (R315). -/
def takeMap (x : Section) (i : Option Nat) : Section :=
  let keys := (configOf x.regs ++ x.fe.act).map fun (c : Nat × Word) => c.1
  { x with fe := { x.fe with act := (keys.filter (x.concerns i)).foldl (fun a o => Sparse.set RegMap.resetWord a o (x.word o)) x.fe.act } }

/-- An input without autorange takes the gain of MET_CONV_CH; the outputs after a change settle (R315, R325). -/
def handGain (x : Section) (i : Nat) : Section :=
  let g := x.act R.MET_CONV_CH.GAIN
  if x.cfgf R.MET_IN_CFG.AUTO = 1 then x else x.modIn i fun n => if n.gain = g then n else { n with gain := g, settle := 4 }

/-- The same at a boundary where the input may change its gain: a pair's only once it is whole (R324). -/
def handGainAt (x : Section) (i : Nat) (may : Bool) : Section := if may then x.handGain i else x

/-- A synchronising reset with an input in conversion (R323); the gain last used on the input stays (R324). -/
def convert (x : Section) (i : Nat) : Section :=
  let y := x.takeMap (some i)
  (({ y with fe := { y.fe with cur := some i, cfg := y.word (R.MET_IN_CFG.EN i).off, outs := 0, phase := false, clean := false } } : Section).handGain i).modIn i
    fun n => { n with first := none }

/-- With no primary, the secondary whose turn is next waits as R326 has it wait. -/
def mayTurn (x : Section) (now : Nat) : Option Nat := x.nextSec.filter (x.secReady now)

/-- The input that is converted next after a turn of `i` has ended; none where it goes on. -/
def nextInput (x : Section) (now i : Nat) (turnDone : Bool) : Option Nat :=
  if !x.actOn R.MET_CONV_CTRL.SEQ_EN then
    let c := x.act R.MET_CONV_CH.CH
    if c = i then none else some c
  else if x.primary = some i then
    match x.nextSec with
    | some s => if x.fe.clean && !x.fe.phase && (x.inp i).first.isNone && x.secReady now s then some s else none
    | none => none
  else if turnDone || !x.enabledIn.contains i then
    match x.primary with
    | some p => some p
    | none => if x.nextSec = some i then none else x.mayTurn now
  else none

/-- No primary is enabled, the turn of `i` is over or its EN is 0, and no secondary may have its turn: nothing is converted (R326). -/
def idleTurn (x : Section) (now i : Nat) (turnDone : Bool) : Bool :=
  x.actOn R.MET_CONV_CTRL.SEQ_EN && x.primary.isNone && (turnDone || !x.enabledIn.contains i) && (x.mayTurn now).isNone

/-- The input with which conversion starts. -/
def firstInput (x : Section) (now : Nat) : Option Nat :=
  if !x.actOn R.MET_CONV_CTRL.SEQ_EN then some (x.act R.MET_CONV_CH.CH)
  else match x.primary with
    | some p => some p
    | none => x.mayTurn now

/-! ### Gain (R324) -/

/-- The decision at an output boundary from the latest valid output. The input of a pair is judged at each, and changes its gain only where the pair is whole. -/
def autoGain (n : FeIn) (f : Rat) (ovr whole : Bool) : FeIn :=
  let df := match n.prev with
    | some (g, p) => if g = n.gain then f - p else 0
    | none => 0
  let low := if ovr ∨ ¬(f + df < 2 / 5) then 0 else n.low + 1
  let g := if !whole then n.gain else if ovr then n.gain - 3
    else if 9 / 10 < f + df then n.gain - 1
    else if 2 ≤ low then min 7 (n.gain + 1) else n.gain
  { n with prev := some (n.gain, f), low := if g = n.gain then low else 0, gain := g, settle := if g = n.gain then n.settle else 4 }

/-! ### One output -/

/-- What the converter reads (R320, R321): code and overload. Against a reference of 0 (a BRIDGE with MET_VEX.EN = 0, IEX = 0) the rules state no code: it is a free
value (log 35). -/
def readout (x : Section) (i : Nat) (nv : Int) (clip : Bool) : Int × Bool :=
  let q : Rat := if x.refVolt = 0 then ((x.takeFree.1 % 16777216 : Nat) : Rat) / 8388608 - 1 else (nv : Rat) / 1000000000 * ((2 ^ (x.inp i).gain : Nat) : Rat) / x.refVolt
  let past := clip || decide (106 / 100 < q) || decide (q < -106 / 100)
  if past then (if 0 ≤ nv then 8388607 else -8388608, true)
  else (clampInt (-8388608) 8388607 (ratAway (q * 8388608)), false)

/-- The faults an output shows (R335): OPEN, CM, EXC, OVP (not here), VEX. -/
def faultsAt (x : Section) (i : Nat) (excBad vexBad : Bool) : List Bool :=
  let n := x.inp i
  let t := x.cfgf R.MET_IN_CFG.TYPE
  let vex := t == 4 && vexBad
  [x.cfgf R.MET_IN_CFG.BURN != 0 && decide (2 ≤ n.overN), decide (2 ≤ n.cm), (decide (1 ≤ t ∧ t ≤ 3) && excBad) || vex, false, vex]

/-- Runs of overloads of one polarity and of outputs outside the common-mode window. -/
def countRuns (x : Section) (i : Nat) (past up : Bool) (cm : Int) : Section :=
  let bad := cm < (x.act R.MET_CM_WIN.LO : Int) ∨ (x.act R.MET_CM_WIN.HI : Int) < cm
  x.modIn i fun n => { n with
    overN := if past then (if n.overUp = up then n.overN + 1 else 1) else 0
    overUp := up
    cm := if bad then n.cm + 1 else 0 }

/-- The speed in mm/s that EN0 shows: that of its latest interval, or what the time since its latest edge still allows (R295). -/
def speedNow (x : Section) (now : Nat) : Rat :=
  match x.edgeTime with
  | some t => if now ≤ t then x.speed else ratMin x.speed (((100 * x.params.sL : Nat) : Rat) / ((now - t : Nat) : Rat))
  | none => 0

/-- A value is complete: it is linearised, kept, published as a temperature, taken for thickness, DC-blocked (R327 to R331, R295). With OVR or RANGE_SETTLE it serves
no legal result (R321, R325): neither thickness nor τ takes it. -/
def takeValue (x : Section) (now i : Nat) (a b : Rat) (rs : Bool) (ovr : Option Bool) : Section :=
  let r := x.linearise i a b
  match r.1 with
  | none => r.2
  | some v =>
    let x1 := (r.2.modIn i fun n => { n with lin := some v, ovr := ovr }).wr (R.MET_RES_HI.V i) (ratToF32 v)
    let rtd := x.cfgf R.MET_IN_CFG.LIN == 2
    let x2 := if rtd && !rs && ovr.isNone && x.act R.MET_CONV_CTRL.POLY_TIN == i then { x1 with fe := { x1.fe with tau := v } } else x1
    let slot := x.cfgf R.MET_IN_CFG.TSLOT
    let x3 := if rtd && decide (slot < 4) then
        { x2 with fe := { x2.fe with
          temps := modAt x2.fe.temps slot fun _ => ofSigned 16 (clampInt (-32767) 32767 (ratNear (16 * v)))
          fresh := modAt x2.fe.fresh slot fun _ => true } }
      else x2
    let x4 := if x.actOn R.MET_CONV_CTRL.THICK_EN && x.act R.MET_CONV_CTRL.THICK_IN == i && !rs && ovr.isNone && decide (200 ≤ x.speedNow now) then
        { x3 with thick := x3.thick ++ [(x.pos, v)] }
      else x3
    x4.blockDc i v

/-- MET_RESn_LO (R327). -/
def resultLo (x : Section) (i : Nat) (dv ovr rs : Bool) (gain : Nat) (code : Int) : Section :=
  x.setWord (R.MET_RES_LO.CODE i).off (BitVec.ofNat 32 (b2n x.fe.phase * 2 ^ 31 + b2n (x.faulty i) * 2 ^ 30 + b2n rs * 2 ^ 29 + b2n dv * 2 ^ 28
    + b2n ovr * 2 ^ 27 + gain * 2 ^ 24 + ofSigned 24 code))

/-- The boundary after an output (R315, R323, R326): what was written for the input takes effect, with a synchronising reset where it changes the preset or the
excitation; a turn that ends, the input that follows. -/
def boundary (x : Section) (now i : Nat) (turnDone : Bool) : Section :=
  let x0 := (x.takeMap (some i)).handGainAt i (turnDone || !pairType (x.cfgf R.MET_IN_CFG.TYPE))
  let sec := x0.primary != some i
  let x1 : Section := if turnDone && sec then
      ({ x0 with fe := { x0.fe with lastSec := i } } : Section).modIn i fun n => { n with turn := now }
    else x0
  if !x1.actOn R.MET_CONV_CTRL.RUN then { x1 with fe := { x1.fe with cur := none } }
  else
    match x1.nextInput now i turnDone with
    | some j => x1.convert j
    | none =>
      if x1.idleTurn now i turnDone then { x1 with fe := { x1.fe with cur := none } }
      else
        let w := x1.word (R.MET_IN_CFG.EN i).off
        let vex := x.cfgf R.MET_IN_CFG.TYPE == 4 && ([R.MET_VEX.EN, R.MET_VEX.LEVEL] : List Fld).any fun f => x.act f != x1.act f
        let changed := vex || ([R.MET_IN_CFG.PRESET, R.MET_IN_CFG.TYPE, R.MET_IN_CFG.IEX, R.MET_IN_CFG.IEX_SRC, R.MET_IN_CFG.RREF,
          R.MET_IN_CFG.BURN] : List (Nat → Fld)).any fun f => (f 0).get w != (f 0).get x1.fe.cfg
        if changed then x1.convert i else { x1 with fe := { x1.fe with cfg := w } }

/-- An output of the input in conversion (R320 to R333): `nv` is the differential voltage in nV, `clip` an overload within the filter's span, `cm` the common
mode in mV, the last two an excitation source and VEX out of regulation. RANGE_SETTLE marks the four outputs after a change of gain, and outputs 3 and 4 of
GUST (R325); a change of a temperature is published (R288). -/
def output (x : Section) (now i : Nat) (nv : Int) (clip : Bool) (cm : Int) (excBad vexBad : Bool) : Section × List MetIn :=
  let k := x.fe.outs + 1
  let gust := x.cfgf R.MET_IN_CFG.PRESET == 3
  let dv := if gust then decide (3 ≤ k) else decide (5 ≤ k)
  let rs := (x.inp i).settle != 0 || (gust && decide (3 ≤ k ∧ k ≤ 4))
  let g := (x.inp i).gain
  let r := x.readout i nv clip
  let x1 := ({ x with fe := { x.fe with outs := k }, free := if x.refVolt = 0 then x.free + 1 else x.free } : Section).countRuns i r.2 (decide (0 ≤ nv)) cm
  let fl := x1.judgeFaults i (x1.faultsAt i excBad vexBad)
  let ovr := dv && r.2
  let code := if dv then r.1 else 0
  let x2 := (fl.1.modIn i fun n => { n with settle := n.settle - 1 }).resultLo i dv ovr rs g code
  let a : Rat := (code : Rat) / ((8388608 * 2 ^ g : Nat) : Rat)
  let pair := pairType (x.cfgf R.MET_IN_CFG.TYPE)
  let clean := dv && !rs && decide (5 ≤ k)
  let up := if x.cfgf R.MET_IN_CFG.TYPE = 3 && x.fe.phase then decide (nv < 0) else decide (0 ≤ nv)
  let dir := if ovr then some up else none
  let good := !x2.faulty i
  let x3 := if pair then
      match (x2.inp i).first with
      | some p => if x.fe.phase && clean && good then x2.takeValue now i p.1 a rs (if p.2 then some (decide (0 ≤ p.1)) else dir) else x2
      | none => x2
    else if dv && good then x2.takeValue now i a 0 rs dir else x2
  let whole := !pair || (x.fe.phase && clean)
  let x4 := if dv && x.cfgf R.MET_IN_CFG.AUTO == 1 then
      x3.modIn i fun n => autoGain n (if code < 0 then -((code : Rat)) / 8388608 else (code : Rat) / 8388608) ovr whole
    else x3
  let x5 : Section := if clean then { x4 with fe := { x4.fe with clean := true } } else x4
  let x6 : Section := if pair && clean then
      ({ x5 with fe := { x5.fe with phase := !x.fe.phase, outs := 0 } } : Section).modIn i fun n =>
        { n with first := if x.fe.phase || !good then none else some (a, ovr) }
    else x5
  let sw := x6.switches
  let tp : Section × List MetIn := if sw.1.fe.temps = x.fe.temps then (sw.1, []) else (sw.1.tempsSent, [sw.1.tempPkt])
  (tp.1.boundary now i (clean && whole), fl.2 ++ tp.2 ++ sw.2)

/-- CONVERTER_OUTPUT: the converter starts with its first output, under the map as it was written. -/
def converterOutput (x : Section) (now : Nat) (nv : Int) (clip : Bool) (cm : Int) (excBad vexBad : Bool) : Section × List MetIn :=
  match x.fe.cur with
  | some i => x.output now i nv clip cm excBad vexBad
  | none =>
    let y := x.takeMap none
    if !y.actOn R.MET_CONV_CTRL.RUN then (y, [])
    else
      match y.firstInput now with
      | some i => (y.convert i).output now i nv clip cm excBad vexBad
      | none => (y, [])

/-- An input clamp conducts, or no longer does (R335, R336): found in every turn and between turns. -/
def clamp (x : Section) (i : Nat) (on : Bool) : Section × List MetIn :=
  let was := (x.inp i).live.getD 3 0 != 0
  let x1 := (x.modIn i fun n => { n with live := modAt n.live 3 fun _ => b2n on }).publishFaults
  let x2 := if on then x1.wr R.MET_OVP_LATCH.V (setBit (x1.rd R.MET_OVP_LATCH.V) i true) else x1
  let sw := x2.switches
  (sw.1, (if was == on then [] else [feNotice i [3] on]) ++ sw.2)

/-- The polynomial's CRC (R328): where it does not match, switches whose source it feeds take FSTATE and PARAM_INVALID follows. -/
def checkPoly (x : Section) : Section × List MetIn :=
  let b := ((upTo 12).map fun k => leBytes 4 (x.rd (R.MET_POLY.V k))).flatten
  let ok := (crc32c b).toNat == x.rd R.MET_POLY_CRC.V
  let sw := ({ x with fe := { x.fe with polyOk := ok } } : Section).switches
  (sw.1, (if ok then [] else [.notice 3 0 0]) ++ sw.2)

end Section

/-- CONVERTER_OUTPUT (R320): see `Section.output` for the operands. -/
def execConverterOutput (nanovolts : Int) (clip : Bool) (cmMv : Int) (excBad vexBad : Bool) (s : State) : Answer :=
  .next (s.onSec fun x now => x.converterOutput now nanovolts clip cmMv excBad vexBad)

/-- OVP_CLAMP (R335): `on` false is the clamp that no longer conducts. -/
def execOvpClamp (n : Fin 8) (on : Bool) (s : State) : Answer := .next (s.onSec fun x _ => x.clamp n.val on)

/-- TEMP_PUBLISH (R288). -/
def execTempPublish (s : State) : Answer :=
  .next (s.onSec fun x _ => (x.tempsSent, [x.tempPkt]))

/-- THRESHOLD_STATE_PUBLISH (R288). -/
def execThresholdStatePublish (s : State) : Answer := .next (s.onSec fun x _ => (x, [x.thPkt]))

end Sys2Proof.Machine
end

