-- ==== Sys2Proof/Machine/Motion.lean ====
section
/-!
DEFINITION. Transport (08_transport_pacing.md) and the line triggers (R37, R398): encoders, document sensors and the frames they fix (R124, R125), the
pacer (R169 to R175), Lull and restart (R176 to R183), feeding and gap hold (R184 to R186), the rest of a Squall (R187).
-/

namespace Sys2Proof.Machine

namespace Engine

/-! ### Encoders (R164, R165) -/

/-- The 32-bit signed number after adding to it, wrapping. -/
def addWrap (e : Engine) (f : Fld) (d : Int) : Engine := e.wrS f (e.rdS f + d)

/-- A transition in the count of an encoder is illegal: counted; the first of a job in M7 or M8 on the trigger source is a FAULT and a Squall. -/
def illegal (e : Engine) (n : Nat) : Engine :=
  let e1 := e.count (R.EN_ERR.V n) 1
  if n = e.trigEnc ∧ e.modeIn [7, 8] ∧ e.job.isOpen ∧ !e.mot.encRaised then
    ({ e1 with mot := { e1.mot with encRaised := true } }).faultSquall 0x0A n 0 0 [(24, 4, e.rd (R.EN_COUNT.V n))] 3
  else e1

/-- A rising index edge latches the count, with IDX_EN. -/
def indexEdge (e : Engine) (n : Nat) : Engine :=
  if e.on (R.EN_CTRL.IDX_EN n) then e.wr (R.EN_IDX.V n) (e.rd (R.EN_COUNT.V n)) else e

/-! ### Kept triggers -/

/-- Triggers are issued: LT_CTRL.EN with a job open whose lines have not ended, no internal triggers, no reset in progress (R37, R88, R346). -/
def triggersOn (e : Engine) : Bool :=
  e.on R.LT_CTRL.EN && e.job.isOpen && !e.job.ended && !e.modeIn [5, 10] && e.resetting.isNone

/-- MARK commands whose index is issued complete (R262). -/
def marksDone (e : Engine) (k : Nat) : Engine :=
  e.finishAll (fun (w : Wait) => match w with | .mark i => decide (i ≤ k) | _ => false) stOk [(40, 6, k), (48, 8, e.now)]

/-- The first line of a frame falls in a running gap calibration: it is abandoned at that line as for a leading edge, the lead sensor is named, and the page
will carry CAL_OVERLAP (R125, R83). -/
def frameInGap (e : Engine) (k : Nat) : Engine :=
  let at' (s : Nat) : Bool := (e.frameSide s).fixed.any fun f => decide (f.first ≤ k)
  if e.cal.gapStart.isSome && (at' 0 || at' 1) then
    let e1 := (upTo 2).foldl (fun x s => x.modFrame s fun y =>
      { y with fixed := y.fixed.map fun f => if f.first ≤ k then { f with overlap := true } else f }) e
    e1.gapAbandon.fault 0x08 (e.rd R.CAL_CTRL.LEAD_DI) 0 0 [(24, 6, k)]
  else e

/-- Step 5 of R180: the first kept trigger of a restart brings the module back to M7. -/
def seamCrossed (e : Engine) (k : Nat) : Engine :=
  let hs := e.waitingHseq (fun (w : Wait) => w == .resumed true)
  let causes := e.pac.causes
  let e1 := { e with pac := { e.pac with seamAt := some k, causes := 0 }, job := { e.job with seamLine := some k } }
  let e2 := (e1.changeMode .m7 6 none).emit 0x07 causes 0 0 hs
    [(24, 6, k), (32, 4, (e.now - e.pac.lullTime) / 1000), (36, 4, e.pac.lullDiscards)]
  e2.finishAll isResumedWait stOk []

/-- Step 6 of R180: four lines after the seam the pacer follows v_target again; a STOP that waited takes effect (R182). -/
def seamPassed (e : Engine) (k : Nat) : Engine :=
  match e.pac.seamAt with
  | some s0 =>
    if s0 + 4 ≤ k ∧ e.pac.st = .runup then
      if e.pac.stopping then
        { e with pac := { e.pac with st := .stopping, stopping := false, seamAt := none },
                 feed := { e.feed with pend := 0, patterns := [], withheld := false } }
      else { e with pac := { e.pac with st := .run, seamAt := none } }
    else e
  | none => e

/-- A trigger is kept with line index k (R37). SEAM goes with the first one after a Lull; where a Squall overtook the run-up, with the first one kept in its braking,
without the exit of the Lull (R182, R187). The first line kept after a takeover that entered M6 carries none: R217 names R180 and R371 alone (DESIGN CHOICE, log
150). -/
def keepTrigger (e : Engine) (k : Nat) : Engine :=
  let seam := e.mode == .m8 && e.pac.st == .runup
  let cut := e.mode == .m8 && e.pac.st == .squall && e.pac.seamAt.isNone
  let e0 := if cut then { e.frameInGap k with pac := { e.pac with seamAt := some k }, job := { e.job with seamLine := some k } } else e.frameInGap k
  let e1 := { e0 with mot := { e0.mot with highest := some (k : Int), kept := k + 1, lastKeptTime := e.now } }
  let e2 := (if seam then e1.seamCrossed k else e1).seamPassed k
  let e3 := e2.gapStartsAt k
  let e4 := (upTo 2).foldl (fun x s => if x.on (R.AFE_STATUS.CONV_RUN s) then
    (x.sideChans s).foldl (fun y c => y.modChan c fun h => { h with owed := h.owed ++ [(k, e.now)] }) x else x) e3
  ((e4.issueTrigger ⟨k, some k, seam || cut, e.now⟩).passes 67 1).marksDone k

/-- A trigger is marked for discard (R37); its record passes through POS (R216, log 114). -/
def discardTrigger (e : Engine) (k : Int) : Engine :=
  let run := b2n (e.mode == .m8)
  (({ e with mot := { e.mot with discards := e.mot.discards + 1 }, pac := { e.pac with lullDiscards := e.pac.lullDiscards + run } }).issueTrigger
    ⟨k, none, false, e.now⟩).passes 67 1

/-- The boundary that a forward count crosses to a position, where it crosses one: boundary j lies at (j + 1) pitches (log 21). -/
def boundaryAt (e : Engine) (pos : Int) : Option Int :=
  let p : Int := e.pitch
  let j := Int.fdiv pos p
  if Int.fdiv (pos - 256) p < j then some (j - 1) else none

/-- In M8 no line is kept but in the run-up: a restart that a Lull cause stops keeps none while AX0 comes to rest (R182); one that a Squall overtakes keeps those it
crosses in the braking (R187). -/
def restartCut (e : Engine) : Bool := e.mode == .m8 && e.pac.st != .runup && e.pac.st != .squall

/-- A forward edge has brought the position to where it stands. -/
def crossBoundary (e : Engine) : Engine :=
  match e.boundaryAt e.mot.pos with
  | none => e
  | some j =>
    if !e.triggersOn then e
    else
      match e.mot.highest with
      | none =>
        if e.restartCut || (e.fromZero && decide (j < 0)) then e else ({ e with mot := { e.mot with base := min 0 j } }).keepTrigger (j - min 0 j).toNat
      | some h =>
        let k := j - e.mot.base
        if h < k && !e.restartCut then e.keepTrigger k.toNat else e.discardTrigger k

/-- t_pred after an edge goes to the timing generators as a PREDICT (R39, R398): none while AX0's commanded speed is 0 or no triggers are issued. -/
def predict (e : Engine) (edgeNs : Option Nat) : Engine :=
  if e.mode = .m5 then e
  else
    let p : Int := e.pitch
    let left : Int := p * (e.boundaryAhead + 1) - e.mot.pos
    let te : Rat := match edgeNs with
      | some n => (n : Rat)
      | none => (e.rd (R.EN_NM.V e.trigEnc) : Rat) * 10000000000 / (max 1 e.mot.v.natAbs : Nat)
    let t : Option Nat := if e.triggersOn && e.mot.v != 0 then some (e.now + ratNat ((left : Rat) / 256 * te)) else none
    (upTo 2).foldl (fun x s => x.pushTrig s (.predict t)) e

/-- A count of the trigger source, in the sense of LT_CTRL.REV. -/
def sourceEdge (e : Engine) (fwd : Bool) : Engine :=
  let m := e.mot
  let same := m.lastEdge.isSome && m.lastFwd == fwd
  let gap := match m.lastEdge with | some t => e.now - t | none => 0
  let pos := m.pos + (if fwd then 256 else -256)
  let twoFwd := fwd && m.lastFwd && m.lastEdge.isSome
  let lt := match m.lastFwdEdge with | some t => min 0xFFFFFFFF (e.now - t) | none => 0
  let usable := twoFwd && !m.zeroSince
  let e1 := { e with mot := { m with
    pos := pos
    fwdCount := m.fwdCount + (if fwd then 1 else -1)
    maxPos := max m.maxPos pos
    maxPosTime := if m.maxPos < pos then e.now else m.maxPosTime
    lastEdge := some e.now
    lastFwdEdge := if fwd then some e.now else m.lastFwdEdge
    edgeNs := if same then max 1 gap else 0
    lastFwd := fwd
    prevFwd := m.lastFwd
    zeroSince := m.v == 0 } }
  if fwd then (((if m.lastFwdEdge.isSome then e1.wr R.LT_EDGE_NS.V lt else e1)).crossBoundary).predict (if usable then some lt else none)
  else e1

/-- ENCODER_EDGE: a count of ×4 decoding; SWAP turns its direction round (R164). -/
def encEdge (e : Engine) (n : Nat) (up : Bool) : Engine :=
  if !e.on (R.EN_CTRL.EN n) then e
  else
    let d := up != e.on (R.EN_CTRL.SWAP n)
    let e1 := e.addWrap (R.EN_COUNT.V n) (if d then 1 else -1)
    if n = e.trigEnc then e1.sourceEdge (d != e.on R.LT_CTRL.REV) else e1

/-! ### Document sensors (R124, R125, R166, R167, R184) -/

/-- Document-sensor edges are acted on: not from the start of a restart until the position has passed the rest position of the Lull (R180). -/
def sensorsAct (e : Engine) : Bool :=
  !(e.mode == .m8 && (e.pac.st == .back || e.pac.st == .runup || e.pac.st == .decel || decide (e.mot.pos < e.pac.restPos))
    && decide (e.mot.pos ≤ e.pac.restPos))

/-- The line index a latched position fixes: ⌈(Q + 256 × DIST) / p⌉ − 1 and an offset (R124). -/
def indexOf (e : Engine) (s : Nat) (offset : Int) : Nat :=
  (divCeil (e.mot.pos + 256 * (e.rd (R.RSM_FRAME_DIST.DIST s) : Int)) e.pitch - 1 - e.mot.base + offset).toNat

/-- The last line a frame can hold. -/
def frameEnd (e : Engine) (s : Nat) (f : Frame) : Nat :=
  let m := f.first + e.rd (R.RSM_FRAME_MAX.MAX s) - 1
  match f.last with | some l => min l m | none => m

/-- The pattern of the document a new frame of a side belongs to: documents in flight take their frames in order. -/
def frameDoc (e : Engine) (s : Nat) : Nat :=
  let f := e.frameSide s
  let waiting := f.fixed.length + b2n f.cur.isSome
  (((e.feed.flight.filter fun d => d.sides.contains s)[waiting]?).map fun d => d.pattern).getD e.feed.docPattern

/-- A rising edge fixes a frame (R124, R125): ignored while the frame before has not reached its first line, and never over that frame. -/
def frameRise (e : Engine) (s : Nat) : Engine :=
  let x := e.frameSide s
  let n := e.indexOf s (-(e.rd (R.RSM_FRAME_CTRL.LEAD s) : Int))
  let add (first : Nat) : Engine := e.modFrame s fun f => { f with fixed := f.fixed ++ [⟨first, none, e.frameDoc s, false⟩] }
  match x.fixed.getLast? with
  | some f => if e.mot.kept ≤ f.first then e else add (max n (e.frameEnd s f + 1))
  | none => match x.cur with
    | some f => add (max n (e.frameEnd s f + 1))
    | none => add n

/-- A falling edge fixes the end of the latest frame that has none. -/
def frameFall (e : Engine) (s : Nat) : Engine :=
  let n := e.indexOf s (e.rd (R.RSM_FRAME_CTRL.TRAIL s))
  let close (f : Frame) : Frame := if f.last.isNone then { f with last := some (max f.first n) } else f
  e.modFrame s fun x =>
    match x.fixed.getLast? with
    | some f => { x with fixed := x.fixed.dropLast ++ [close f] }
    | none => { x with cur := x.cur.map close }

/-- The sides framed by their sensors in the open job. -/
def sensorSides (e : Engine) : List Nat := (upTo 2).filter fun s => !e.jobFramed s && !(e.usedRows s).isEmpty

/-- Documents still to feed take off one; the pattern of the one fed. -/
def takePattern : List (Nat × Nat) → Nat × List (Nat × Nat)
  | [] => (0, [])
  | (0, p) :: t => (p, (0, p) :: t)
  | (1, p) :: t => (p, t)
  | (n + 2, p) :: t => (p, (n + 1, p) :: t)

/-- Feeding goes on without a count (R186). -/
def endless (e : Engine) : Bool := e.feed.patterns.any fun x => x.1 == 0

/-- FEED_PEND: documents still to feed, saturating at 254; 255 without a count. -/
def feedPend (e : Engine) : Nat := if e.endless then 255 else min 254 e.feed.pend

/-- The leading edge of a fed document at FEED_DI (R184). -/
def fedEdge (e : Engine) : Engine :=
  if !e.feed.gate then e
  else
    let p := takePattern e.feed.patterns
    let d : Doc := ⟨p.1, 0, e.sensorSides, []⟩
    { e with feed := { e.feed with
      gate := false
      pend := if e.endless then e.feed.pend else e.feed.pend - 1
      patterns := p.2
      onSensor := true
      speed := if e.feed.flight.isEmpty then e.vMicron.toNat else e.feed.speed
      flight := if d.sides.isEmpty then e.feed.flight else e.feed.flight ++ [d] } }

/-- The fed document's trailing edge at FEED_DI. -/
def trailEdge (e : Engine) : Engine :=
  if e.feed.onSensor then { e with feed := { e.feed with onSensor := false, lastTrail := some e.mot.travel } } else e

/-- DI_ACCEPT: an input holds a new level after debounce; INV turns it round (DEDUCED, log 31). Where the input is FEED_DI too, the document counts as fed before its
frame is fixed, so that the frame is that document's. An edge of a document sensor passes through POS (R216, log 114). -/
def diChange (e : Engine) (n : Nat) (level : Bool) : Engine :=
  let v := level != e.on (R.DI_CFG.INV n)
  if bitOf (e.rd R.DI_STATE.V) n = v then e
  else
    let e1 := e.wr R.DI_STATE.V (setBit (e.rd R.DI_STATE.V) n v)
    if !e1.sensorsAct || !e1.job.isOpen || e1.job.ended || e1.resetting.isSome then e1
    else
      let e2 := if n ≠ e1.rd R.PAC_CTRL.FEED_DI ∨ !e1.on R.PAC_CTRL.FEED_EN then e1 else if v then e1.fedEdge else e1.trailEdge
      let framed := e1.sensorSides.filter fun s => e1.rd (R.RSM_FRAME_CTRL.DI s) == n
      let e3 := framed.foldl (fun x s => if v then x.frameRise s else x.frameFall s) e2
      if framed.isEmpty && n != e1.rd R.PAC_CTRL.FEED_DI then e3 else e3.passes 67 1

/-! ### Feeding (R184, R185) -/

/-- HOLD_EN with its input asserted. -/
def holdInput (e : Engine) : Bool := e.on R.PAC_CTRL.HOLD_EN && bitOf (e.rd R.DI_STATE.V) (e.rd R.PAC_CTRL.HOLD_DI)

/-- A feed is due: the first three conditions of R184. -/
def feedDue (e : Engine) : Bool :=
  e.on R.PAC_CTRL.FEED_EN && e.feedPend != 0 && !e.feed.gate && e.mode == .m7 && e.pac.st == .run && !e.job.closing && !e.feed.onSensor
    && (match e.feed.lastTrail with
        | some t => decide ((e.rd R.PAC_FEED_GAP.V : Int) * 1000000000000 ≤ e.mot.travel - t)
        | none => true)

/-- The last three conditions of R184. -/
def feedFree (e : Engine) : Bool :=
  !(e.pac.holdLull || e.pac.holdGap || e.cal.gapWithheld)
    && (if e.gapMode then decide (e.rd R.PAC_BPM.V * (e.rd R.PAC_MAXDOC_MM.V + e.rd R.PAC_GAPRES.V) ≤ e.pacFree)
        else decide ((e.rd R.PAC_BPM.V : Nat) * (e.rd R.PAC_RESUME.V + e.rd R.PAC_MARGIN.V) ≤ 1000 * e.pacFree))

/-- FEED_GATE_OPEN. -/
def openGate (e : Engine) : Engine :=
  if e.feedDue && e.feedFree then { e with feed := { e.feed with gate := true, opened := e.now, withheld := false } } else e

/-- FEED_TIMEOUT. -/
def gateTimeout (e : Engine) : Engine :=
  if e.feed.gate && decide (e.feed.opened + 1000000 * e.rd R.PAC_FEED_TMO.V ≤ e.now) then
    ({ e with feed := { e.feed with gate := false, pend := 0, patterns := [], withheld := false } }).fault 0x0C (e.rd R.PAC_CTRL.FEED_DI) 0 0 []
  else e

/-- A feed that is due and waits is counted once. -/
def countWithheld (e : Engine) : Engine :=
  if e.feedDue && !e.feedFree && !e.feed.withheld then
    ({ e with feed := { e.feed with withheld := true } }).count R.PAC_WITHHOLD_CNT.V 1
  else e

/-! ### The pacer (R172) -/

/-- What a period of the pacer computes: v_job, v_host, v_brake in µm/s (none: not limiting), integral and rate. -/
structure Pace where
  vjob : Nat
  vhost : Option Nat
  vbrake : Option Nat
  integ : Rat
  rate : Rat
  deriving DecidableEq, Repr

/-- R172. The host rate keeps 1/65,536 B/s, speeds whole µm/s (log 17). -/
def pace (e : Engine) : Pace :=
  let cap := ratNat ((e.rd R.RSM_STATUS.CAP : Rat) * e.pitchMm * 1000)
  let vjob := min (e.rd R.PAC_VJOB.V) (min cap e.pac.vovr)
  let sp : Rat := 100 * (e.rd R.PAC_SETPOINT.V : Rat) / 256
  let size := e.rd R.QDR_STAGE_SIZE.V
  let fill : Rat := 100 * ((size - e.bookFree : Nat) : Rat) / (max 1 size : Nat)
  let bpm := e.rd R.PAC_BPM.V
  let limited := e.streams.any fun s => s.waited && (s.stage.head?.any fun l => l.committed)
  let rate := if limited then
      (((e.pac.rate + ((e.pac.confirmed : Rat) * 100000 - e.pac.rate) / (2 ^ e.rd R.PAC_CTRL.HTAU : Nat)) * 65536).floor : Rat) / 65536
    else e.pac.rate
  let vj : Rat := (vjob : Rat) / 1000
  let err := sp - fill
  let integ := ratMax (-vj) (ratMin vj (e.pac.integ + (e.rd R.PAC_KI.V : Rat) * err / 100000))
  let free := decide (bpm = 0 ∨ fill < sp / 2)
  let host := ratNat (ratMax 0 (rate / (max 1 bpm : Nat) + (e.rd R.PAC_KP.V : Rat) * err + integ) * 1000)
  let d : Rat := (e.pacFree : Rat) / (max 1 bpm : Nat) - (e.rd R.PAC_MARGIN.V : Rat) / 1000
  let a : Rat := (e.rd R.PAC_DMAX.V : Rat)
  let at0 := a * e.tLat
  let brake := if d ≤ 0 then 0 else ratNat ((sqrtMilli (at0 * at0 + 2 * a * d) - at0) * 1000)
  ⟨vjob, if free then none else some host, if bpm = 0 then none else some brake,
    if free then 0 else integ, if free then e.pac.rate else rate⟩

/-- v_target. -/
def vTarget (p : Pace) : Nat := min p.vjob (min (p.vhost.getD p.vjob) (p.vbrake.getD p.vjob))

/-- The term that sets v_target: 0 JOB, 1 HOST, 2 BRAKE. -/
def limitOf (p : Pace) : Nat :=
  let v := vTarget p
  if v = p.vjob then 0 else if p.vhost = some v then 1 else 2

/-- v_seam of R181 in µm/s. -/
def vSeam (e : Engine) : Nat :=
  let es := ((upTo 2).map fun s => (e.usedRows s).map fun r => e.expNs s (e.expAt s r e.mot.kept)).flatten
  let m := es.foldl ratMax 0
  min (e.rd R.PAC_VRESUME.V) (ratNat (e.pitchMm * 1000 * 1000000000 / (16 * (m / 2 + 250))))

/-! ### The profile generator (R163) -/

/-- Speed moves to a target under acceleration and jerk limits for one period (log 18). -/
def follow (v acc target aUp aDown jerk : Int) : Int × Int :=
  let dv := target - v
  let slowing := decide (target.natAbs < v.natAbs) || decide (v * target < 0)
  let lim := if slowing then aDown else aUp
  if dv = 0 then (v, 0)
  else
    let want : Int := if jerk = 0 then lim else min lim (isqrt (2 * jerk * dv.natAbs).toNat)
    let wish : Int := if 0 < dv then want else -want
    let a := if jerk = 0 then wish else clampInt (acc - jerk) (acc + jerk) wish
    let v' := v + (if jerk = 0 then a else Int.fdiv (acc + a) 2)
    if (0 < dv ∧ target ≤ v') ∨ (dv < 0 ∧ v' ≤ target) then (target, 0) else (v', a)

/-- Distance, in 10⁻⁶ nm, that a stop from a speed takes at an acceleration and a jerk. -/
def stopDist (v a j : Nat) : Int :=
  if a = 0 then 0
  else
    let x : Rat := (v : Rat) * v / (2 * a : Nat) + (if j = 0 then 0 else (v : Rat) * a / (2 * j : Nat))
    x.ceil

/-- Reverse travel still to go in a backtrack, in 10⁻⁶ nm. -/
def backLeft (e : Engine) : Int :=
  (e.rd R.PAC_BACK.V : Int) * e.rd (R.EN_NM.V e.trigEnc) * 1000000 - (e.pac.backFrom - e.mot.travel)

/-- The speed AX0 makes for, in 0.1 nm/s, at v_target and v_job: v_job while a gap is forced (R84). -/
def wishSpeed (e : Engine) (vTgt vJob : Nat) : Int :=
  let held := e.gapMode && !e.feed.flight.isEmpty
  match e.pac.st with
  | .run => 10000 * (if held then e.feed.speed else if e.cal.gapWithheld then vJob else vTgt : Nat)
  | .stopping => if e.feed.flight.isEmpty then 0 else 10000 * (if held then e.feed.speed else vTgt : Nat)
  | .runup => 10000 * (e.vSeam : Int)
  | _ => 0

/-- One period of a backtrack (R180): reverse at PAC_VBACK until what is left is what a stop takes, and rest after exactly PAC_BACK counts. -/
def backProfile (e : Engine) : Int × Int :=
  let a := 100 * e.rd R.PAC_AMAX.V
  let j := e.rd R.PAC_JMAX.V
  let left := max 0 e.backLeft
  let u := (-e.mot.v).toNat
  let g := if j = 0 then 0 else (-e.mot.acc).toNat
  let need := stopDist (u + g * g / (2 * j)) a j + (u * g / j + g * g * g / (3 * j * j) + u : Nat)
  if left ≤ need then
    let r := follow e.mot.v e.mot.acc 0 a a j
    (-(min left (max (-r.1) (isqrt (a * left.toNat) : Nat))), r.2)
  else
    let r := follow e.mot.v e.mot.acc (-(10000 * (e.rd R.PAC_VBACK.V : Int))) a a j
    (-(min left (max 0 (-r.1))), r.2)

/-- AX0 takes one period of its profile: a Squall and a reset brake at PAC_SQUALL without a jerk limit (R187, R346); a backtrack ends after
exactly PAC_BACK counts (R180). -/
def profile (e : Engine) (vt vJob : Nat) : Int × Int :=
  if e.pac.st = .squall ∨ e.resetting.isSome then follow e.mot.v 0 0 (100 * e.rd R.PAC_SQUALL.V) (100 * e.rd R.PAC_SQUALL.V) 0
  else if e.pac.st = .back ∧ e.on R.PAC_CTRL.EN ∧ e.job.isOpen ∧ e.mode = .m8 then e.backProfile
  else
    let am : Int := 100 * e.rd R.PAC_AMAX.V
    let dm : Int := if e.mode = .m8 then am else 100 * e.rd R.PAC_DMAX.V
    let t := if e.on R.PAC_CTRL.EN && e.job.isOpen && e.modeIn [7, 8] then e.wishSpeed vt vJob else 0
    follow e.mot.v e.mot.acc t am dm (e.rd R.PAC_JMAX.V)

/-- Travel of AX1 to AX3 in a period, times 65,536 (R163). -/
def axisStep (e : Engine) (d : Int) (i : Nat) : Int :=
  if !e.on (R.AX_CTRL.EN i) then 0
  else match e.rd (R.AX_CTRL.MODE i) with
    | 2 => d * e.rdS (R.AX_RATIO.V i)
    | 3 => if e.feed.gate ∧ 0 < d then d * (e.rdS (R.AX_RATIO.V i)).natAbs else 0
    | _ => 0

/-- AX0 moves for one period. -/
def moveAxes (e : Engine) (v acc : Int) : Engine :=
  let m := e.mot
  { e with mot := { m with
    v := v, acc := acc, travel := m.travel + v
    dirs := (upTo 4).map fun i =>
      let d := if i = 0 then v else e.axisStep v i
      if d = 0 then m.dirs.getD i true else decide (0 < d)
    axTravel := m.axTravel.zipIdx.map fun (t, i) => t + e.axisStep v (i + 1)
    zeroSince := m.zeroSince || v == 0
    restTravel := if v = 0 then m.travel else m.restTravel
    restCount := if v = 0 then m.fwdCount else m.restCount
    slipRaised := m.slipRaised && v != 0
    zeroTime := if v = 0 ∧ m.v ≠ 0 then e.now else m.zeroTime } }

/-- The enable output of an axis (R163): asserted on a windward or single module while a job is open, and in M9; ENINV makes it active low. -/
def axEnable (e : Engine) (i : Nat) : Bool :=
  (e.mayDrive && (e.job.isOpen || e.mode == .m9)) != e.on (R.AX_CTRL.ENINV i)

/-- The direction output of an axis (R163): the direction of its latest step, inverted by DIRINV. -/
def axDirection (e : Engine) (i : Nat) : Bool := e.mot.dirs.getD i true != e.on (R.AX_CTRL.DIRINV i)

/-- Steps of AX0 at a travel. -/
def stepsOf (e : Engine) (t : Int) : Int := Int.fdiv t (1000000 * (max 1 (e.rd (R.AX_NM.V 0)) : Nat))

/-- The slip check of R168. -/
def slipCheck (e : Engine) : Engine :=
  let m := e.mot
  let lim := e.rd R.PAC_SLIP.V
  if m.v = 0 ∨ lim = 0 ∨ m.slipRaised then e
  else
    let cmd : Int := (e.stepsOf m.travel - e.stepsOf m.restTravel) * e.rd (R.AX_NM.V 0)
    let meas : Int := (m.fwdCount - m.restCount) * e.rd (R.EN_NM.V e.trigEnc)
    if 1000 * lim < (cmd - meas).natAbs then
      ({ e with mot := { m with slipRaised := true } }).faultSquall 0x0B 0 0 0
        [(24, 4, ofSigned 32 (cmd.tdiv 1000)), (28, 4, ofSigned 32 (meas.tdiv 1000))] 4
    else e

/-! ### Decisions of a period -/

/-- R179. -/
def exitOk (e : Engine) : Bool :=
  !e.pac.holdLull && !e.holdInput && decide (e.rd R.PAC_BPM.V * (e.rd R.PAC_RESUME.V + e.rd R.PAC_MARGIN.V) ≤ 1000 * e.pacFree)

/-- A Lull begins, in LULL mode, for want of staging or for the hold input (R176). -/
def lullCauses (e : Engine) (vt : Nat) : Engine :=
  let e1 := if (e.pac.st == .run || e.pac.st == .stopping) && e.movingFwd && decide (vt < e.rd R.PAC_VMIN.V) then e.lullBegin 1 else e
  if e1.holdInput && e1.modeIn [7, 8] then e1.lullBegin 4 else e1

/-- The gap hold stop (R185); while a gap is forced AX0 keeps the job speed (R84). -/
def gapDecide (e : Engine) (vt : Nat) : Engine :=
  let low := decide (vt < e.rd R.PAC_VMIN.V)
  let stop := e.pac.holdGap || (e.gapMode && ((low && !e.cal.gapWithheld) || e.holdInput))
  if e.mode ≠ .m7 then e
  else if e.pac.st = .run ∧ stop ∧ e.feed.flight.isEmpty then (e.setPac .gapStop).closeGate.gapAbandon
  else if e.pac.st = .gapStop ∧ !stop ∧ !low ∧ !e.job.closing then
    (e.setPac .run).finishAll isResumedWait stOk []
  else e

/-- Since when the exit condition of R179 holds. -/
def watchExit (e : Engine) : Engine :=
  let since := if e.mode = .m8 ∧ e.pac.st = .hold ∧ e.exitOk then some (e.pac.exitSince.getD e.now) else none
  { e with pac := { e.pac with exitSince := since } }

/-- Streams that hold lines awaiting DMA at the start of a period. -/
def markWaiting (e : Engine) : Engine :=
  { e with streams := e.streams.map fun (s : Stream) => { s with waited := s.stage.head?.any fun l => l.committed } }

/-- Nothing is predicted while AX0's commanded speed is 0 (R398). -/
def clearPred (e : Engine) : Engine :=
  if e.mot.v = 0 ∧ e.mode ≠ .m5 then (upTo 2).foldl (fun x s => x.modGen s fun g => { g with pred := none }) e else e

/-- PACER_TICK: one period of 10 µs. With no job open AX0 comes to rest and nothing else happens. -/
def tick (e : Engine) : Engine :=
  if !e.job.isOpen then
    if e.mot.v = 0 then e
    else let r := e.profile 0 0; (e.moveAxes r.1 r.2).clearPred
  else
    let p := e.pace
    let vt := vTarget p
    let show' (x : Engine) : Engine :=
      (((x.wr R.PAC_VCEIL.V p.vjob).wr R.PAC_VHOST.V (min 0xFFFFFF (p.vhost.getD 0xFFFFFF))).wr R.PAC_VBRAKE.V (min 0xFFFFFF (p.vbrake.getD 0xFFFFFF)))
    let e1 := show' { e with pac := { e.pac with integ := p.integ, rate := p.rate, confirmed := 0 } }
    let e2 := (((e1.lullCauses vt).gapDecide vt).watchExit).countWithheld
    let seam := e2.pac.st = .runup
    let moving := e2.modeIn [7, 8] && (e2.pac.st == .run || e2.pac.st == .stopping || e2.pac.st == .gapStop)
    let e3 := (e2.wr R.PAC_VTARGET.V (if seam then e2.vSeam else vt))
    let e4 := { e3 with pac := { e3.pac with limit := if seam then 3 else if moving then limitOf p else 4 } }
    let r := e4.profile vt p.vjob
    (((e4.moveAxes r.1 r.2).slipCheck).markWaiting).clearPred

/-! ### Rest, Lull, restart, Squall -/

/-- AX0 is at rest: for PAC_REST its commanded speed has been 0 and the position has not passed its maximum (R177). -/
def atRest (e : Engine) : Bool := e.mot.v == 0 && decide (max e.mot.zeroTime e.mot.maxPosTime + 1000 * e.rd R.PAC_REST.V ≤ e.now)

/-- The last kept index; 2^48 − 1 where no trigger has been kept (R183). -/
def lastKept (e : Engine) : Nat := if e.mot.kept = 0 then 2 ^ 48 - 1 else e.mot.kept - 1

/-- The lines of the job end (R116, R127). -/
def endJobLines (e : Engine) (squall : Bool) : Engine :=
  if e.job.ended then e
  else (({ e with job := { e.job with ended := true } }).endLines 0 squall).endLines 1 squall

/-- A closing job finds AX0 at rest (R262): its lines, fades and running gap calibration end. -/
def closeLines (e : Engine) : Engine :=
  if !e.job.closing then e else ((e.gapAbandon.endJobLines false).dropFades).drainJob

/-- The commands that a closing job at rest completes, after every other event of that instant (R270). `d` is what stood of fades before. -/
def closeCmds (e : Engine) (d : ShdSt) : Engine :=
  if !e.job.closing then e
  else
    (((e.fadesDone d).abortCalGap).finishAll
      (fun (w : Wait) => match w with | .mark _ => true | .holdRest _ => true | .resumed _ => true | _ => false) stAborted []).jobCheck

/-- A job that closes in a Lull (R182): the module returns to M6. -/
def closeFromLull (e : Engine) : Engine :=
  if !e.job.closing then e
  else (({ e with pac := { e.pac with st := .idle, causes := 0, holdLull := false, stopping := false } } : Engine).changeMode .m6 5 none).closeLines

/-- A STOP that waited for rest has it (R186). -/
def stopsAtRest (e : Engine) : Engine := e.finishAll (fun (w : Wait) => w == .stopRest) stOk []

/-- Commanded Lulls at rest complete. -/
def holdsAtRest (e : Engine) (gap : Bool) : Engine :=
  e.finishAll (fun (w : Wait) => match w with | .holdRest g => g == gap | _ => false) stOk []

/-- A RELEASE that waits for AX0's rest completes (R373); what follows waits for the leeward's acknowledgement of its CMD_DONE. Where the pair has come apart meanwhile
there is nobody to take over: it completes ABORTED, and its hold is off (DESIGN CHOICE, log 164). -/
def releaseRest (e : Engine) : Engine :=
  if e.opens.any fun c => c.wait == Wait.release then
    if !e.mirrorFirst then
      ({ e with pac := { e.pac with holdLull := false, holdGap := false } } : Engine).finishAll (fun (w : Wait) => w == .release) stAborted []
    else ({ e with pair := { e.pair with releasing := true } } : Engine).finishAll (fun (w : Wait) => w == .release) stOk []
  else e

/-- What completes at the rest of a Lull, after its events (R270); `was` is the state before. A STOP that waited has its rest where the job closes there (R186). -/
def lullCmds (e was : Engine) : Engine :=
  let e1 := (e.holdsAtRest false).closeCmds was.shd
  (if was.job.closing then e1.stopsAtRest else e1).releaseRest

/-- LULL_REST (R177 steps 3 and 4, R182, R183). -/
def restLull (e : Engine) : Engine :=
  if e.pac.st ≠ .decel ∨ !e.atRest then e
  else if e.mode = .m8 then
    (({ e with pac := { e.pac with st := .hold, restPos := max e.pac.restPos e.mot.pos } } : Engine).closeFromLull).lullCmds e
  else
    let n := e.lastKept
    let e1 := (e.wrPair R.PAC_LULL_LO.V R.PAC_LULL_HI.V n).count R.PAC_LULL_CNT.V 1
    let e2 := { e1 with pac := { e1.pac with
      st := .hold, lullKept := if e.mot.kept = 0 then none else some n, lullTime := e.now, lullDiscards := 0, restPos := e.mot.pos,
      seamAt := none, exitSince := none } }
    let e3 := (e2.changeMode .m8 6 none).emit 0x06 e.pac.causes 0 0 none
      [(24, 6, n), (32, 8, ofSigned 64 e.mot.pos), (40, 4, e.pac.lullSpeed)]
    e3.closeFromLull.lullCmds e

/-- LULL_EXIT_CONDITION: the conditions of R179 have held for 100 µs, and the backtrack begins (R180 step 1). -/
def exitLull (e : Engine) : Engine :=
  match e.pac.exitSince with
  | some t =>
    if e.mode = .m8 ∧ e.pac.st = .hold ∧ t + 100000 ≤ e.now ∧ e.exitOk then
      { e with pac := { e.pac with st := .back, backFrom := e.mot.travel - e.pac.extra, extra := 0, exitSince := none, lullDiscards := 0 } }
    else e
  | none => e

/-- BACKTRACK_DONE (R180 steps 2 and 3). -/
def backDone (e : Engine) : Engine :=
  if e.mode = .m8 ∧ e.pac.st = .back ∧ e.mot.v = 0 ∧ e.backLeft ≤ 0 then e.setPac .runup else e

/-- AX0_REST: a gap hold stop, a STOP or a JOB_CLOSE has brought AX0 to rest (R185, R186, R262). -/
def restAx0 (e : Engine) : Engine :=
  if !e.atRest ∨ e.mode ≠ .m7 then e
  else match e.pac.st with
    | .gapStop => (e.holdsAtRest true).releaseRest
    | .stopping =>
      if !e.feed.flight.isEmpty then e
      else
        let e1 := (((e.setPac .idle).gapAbandon).changeMode .m6 5 none).closeLines
        (((e1.holdsAtRest true).closeCmds e.shd).stopsAtRest).releaseRest
    | _ => e

/-- SQUALL_REST (R187). -/
def restSquall (e : Engine) : Engine :=
  match e.squall with
  | some q =>
    if q.rest ∨ !e.atRest then e
    else
      let e1 := { e with squall := some { q with rest := true, restTime := e.now }, feed := { e.feed with flight := [] } }
      let e2 := (e1.endJobLines true).changeMode .m9 7 none
      let hs := if q.cause = 0 then e.waitingHseq (fun (w : Wait) => w == .squallRest) else none
      let e3 := e2.emit 0x08 q.cause 0 0 hs
        [(24, 6, e.lastKept), (32, 8, ofSigned 64 e.mot.pos), (40, 4, ofSigned 32 q.speed), (44, 4, q.fault)]
      let e4 := e3.closeLines.finishAll (fun (w : Wait) => match w with
        | .stopRest => true | .mark _ => true | .holdRest _ => true | .resumed _ => true | _ => false) stAborted []
      let e5 := if q.arbiter && e4.pair.role == 1 then { e4 with pair := { e4.pair with drive := false } } else e4
      ((e5.finishAll (fun (w : Wait) => w == .squallRest) stOk []).closeCmds e.shd).releaseRest
  | none => e

/-- A job starts to run: M7 and the pacer's RUN (R262, R186); a RESUME that waited for AX0 to run completes. -/
def startRun (e : Engine) (hs : Option Nat) : Engine :=
  ((e.changeMode .m7 4 hs).setPac .run).finishAll isResumedWait stOk []

/-! ### The sensed lines of a leeward (R358) are in Pair. -/

end Engine

/-- ILLEGAL_TRANSITION (R165). -/
def execIllegalTransition (enc : Fin 4) (s : State) : Answer := .next (s.onEng fun e => e.illegal enc.val)

/-- ENCODER_INDEX (R165). -/
def execEncoderIndex (enc : Fin 4) (s : State) : Answer := .next (s.onEng fun e => e.indexEdge enc.val)

/-- DI_ACCEPT (R167, R124, R184): `level` is the pin's new level, held for the debounce time. -/
def execDiAccept (n : Fin 16) (level : Bool) (s : State) : Answer := .next (s.onEng fun e => e.diChange n.val level)

/-- PACER_TICK (R172). -/
def execPacerTick (s : State) : Answer := .next (s.onEng Engine.tick)

/-- FEED_GATE_OPEN (R184). -/
def execFeedGateOpen (s : State) : Answer := .next (s.onEng Engine.openGate)

/-- FEED_TIMEOUT (R184). -/
def execFeedTimeout (s : State) : Answer := .next (s.onEng Engine.gateTimeout)

/-- LULL_REST (R177). -/
def execLullRest (s : State) : Answer := .next (s.onEng Engine.restLull)

/-- LULL_EXIT_CONDITION (R179). -/
def execLullExitCondition (s : State) : Answer := .next (s.onEng Engine.exitLull)

/-- BACKTRACK_DONE (R180). -/
def execBacktrackDone (s : State) : Answer := .next (s.onEng Engine.backDone)

/-- AX0_REST (R185, R186). -/
def execAx0Rest (s : State) : Answer := .next (s.onEng Engine.restAx0)

end Sys2Proof.Machine
end

