-- ==== Sys2Proof/Machine/Rings.lean ====
section
/-!
DEFINITION. Rings, doorbells, fetching, the event writer, the status block and interrupts (11_host_link_rings.md), and the byte
layouts of events and stream descriptors (12_commands_events.md R264, R267, R271).
-/

namespace Sys2Proof.Machine

namespace Engine

/-! ### Ring control (R235, R237, R251, R253, R258) -/

/-- RWL fields of the UHP and PAIR blocks take writes in M3 and M10 (R6). -/
def rwlUhp (e : Engine) : Bool := e.modeIn [3, 10]

/-- Sum of QUOTA over enabled stream rings. -/
def quotaSum (e : Engine) : Nat :=
  sumNat ((upTo 16).map fun n => if e.on (R.UHP_R_CTRL.EN (3 + n)) then e.rd (R.UHP_R_CTRL.QUOTA (3 + n)) else 0)

/-- Pair operation is enabled (R361). -/
def pairEnabled (e : Engine) : Bool := e.on R.PAIR_CTRL.EN

/-- Whether EN on a ring is refused with VER_ERR (R258). -/
def verRefused (e : Engine) (r : Nat) : Bool :=
  e.ver == 0 || !bitOf (e.rd R.UHP_OFFER.VERS) (e.ver - 1) || (e.ver == 1 && (r == 2 || decide (7 ≤ r)))
    || (e.pairEnabled && decide (e.ver < 3))

/-- The EVT ring runs: FAULT for what the boot found, the dies that failed their test (R193) and the slot that failed its check (R350). -/
def raiseBoot (e : Engine) : Engine :=
  let e1 := e.qdr.dieFaults.foldl (fun x d => x.fault 0x0D d.1 1 0 [(24, 4, d.2)]) e
  let e2 := match e.flash.fallback with
    | some k => e1.fault 0x07 0 3 0 [(24, 1, k + 1)]
    | none => e1
  { e2 with qdr := { e2.qdr with dieFaults := [] }, flash := { e2.flash with fallback := none } }

/-- A ring begins afresh: what is left over from before is in none of its indices any more, neither a buffer nor its BUF_DONE not yet written, nor a command whose
count waits for the leeward (R237, R252). -/
def forgetRing (e : Engine) (r : Nat) : Engine :=
  let late (v : Ev) : Ev := match v.book with
    | .buf q i _ nok => if q = r then { v with book := .buf q i false nok } else v
    | _ => v
  if 3 ≤ r then
    { e with
      streams := modAt e.streams (r - 3) fun s => { s with bufs := s.bufs.map fun (b : Buf) => { b with stale := true } }
      evt := { e.evt with queue := e.evt.queue.map late, unacked := e.evt.unacked.map late } }
  else if r = 0 then
    { e with pair := { e.pair with tx := e.pair.tx.map fun (t : TxFrame) => match t.delta with
        | some (.command _) => { t with delta := some .state }
        | _ => t } }
  else e

/-- EN goes to 1: indices 0, then VER_ERR, QUOTA_ERR or RUN. -/
def startRing (e : Engine) (r : Nat) : Engine :=
  let e0 := ((((e.forgetRing r).setDevIdx r 0).wr (R.UHP_R_DONE.V r) 0).wr (R.UHP_R_HOSTIDX.V r) 0)
  let e1 := { e0 with rings := modAt e0.rings r (refetch 0) }
  if e.verRefused r then (e1.setRing r 6).wr R.UHP_STATUS.VER_ERR 1
  else if 3 ≤ r ∧ 1024 < e1.quotaSum then (e1.setRing r 7).wr R.UHP_STATUS.QUOTA_ERR 1
  else if r = 1 then (e1.setRing r 1).raiseBoot
  else e1.setRing r 1

/-- EN goes to 0 (R253): a stream ring first stops as STOP does; the ring is then OFF. -/
def ringOff (e : Engine) (r : Nat) : Engine :=
  let e1 := if 3 ≤ r ∧ e.ringState r ≠ 6 ∧ e.ringState r ≠ 7 then e.stopRing (r - 3) else e
  e1.leaveRun r 0

/-- STOP (R253): the ring enters STOPPED from any state in which it has been started. -/
def ringStopped (e : Engine) (r : Nat) : Engine :=
  if ([1, 2, 3, 4] : List Nat).contains (e.ringState r) then
    (if 3 ≤ r then e.stopRing (r - 3) else e).leaveRun r 5
  else e

/-- Entries received and not yet consumed, ahead of DEV_IDX: those of CMD_IN. -/
def received (e : Engine) (r : Nat) : Nat := if r = 0 then e.cmdIn.length else 0

/-- RESTART: a ring in SEQ_STOP, FETCH_ERR or STOPPED runs again and fetches from DEV_IDX (R242). A stream whose confirmation failed meanwhile still holds its
ring: that one enters HALTED (DEDUCED, log 147). -/
def ringRestarted (e : Engine) (r : Nat) : Engine :=
  if ([2, 3, 5] : List Nat).contains (e.ringState r) then
    let e1 := if r = 1 then (e.setRing r 1).raiseBoot else e.setRing r (if 3 ≤ r ∧ (e.stream (r - 3)).halted then 4 else 1)
    { e1 with rings := modAt e1.rings r fun (x : RingSt) => { x with fetchIdx := (e.takenIdx r + e.received r) % e.ringSize r } }
  else e

/-- A write of UHP_Rr_CTRL: EN, LOG2 and QUOTA under RWL, then RESTART, then STOP. A leeward's stream and MET rings stay OFF (R367).
A locked write compares QUOTA on the rings that hold one, 3 and above; on rings 0 to 2 the field reads 0 and is compared with nothing (DESIGN CHOICE, log 151). -/
def ringCtrl (e : Engine) (r : Nat) (value : Word) : Engine :=
  let en := (R.UHP_R_CTRL.EN r).get value
  let lg := clampNat 4 16 ((R.UHP_R_CTRL.LOG2 r).get value)
  let q := if 3 ≤ r then (R.UHP_R_CTRL.QUOTA r).get value else e.rd (R.UHP_R_CTRL.QUOTA r)
  let same := en = e.rd (R.UHP_R_CTRL.EN r) ∧ (R.UHP_R_CTRL.LOG2 r).get value = e.rd (R.UHP_R_CTRL.LOG2 r)
    ∧ q = e.rd (R.UHP_R_CTRL.QUOTA r)
  let e1 :=
    if e.rwlUhp then
      let was := e.rd (R.UHP_R_CTRL.EN r)
      let x := ((e.wr (R.UHP_R_CTRL.EN r) en).wr (R.UHP_R_CTRL.LOG2 r) lg).wr (R.UHP_R_CTRL.QUOTA r) q
      if was = 0 ∧ en = 1 then (if e.mode = .m10 ∧ 2 ≤ r then x else x.startRing r)
      else if was = 1 ∧ en = 0 then x.ringOff r
      else x
    else if same then e
    else e.writeIgnored (R.UHP_R_CTRL.EN r).off
  let e2 := if (R.UHP_R_CTRL.RESTART r).get value = 1 then e1.ringRestarted r else e1
  if (R.UHP_R_CTRL.STOP r).get value = 1 then e2.ringStopped r else e2

/-- The doorbell of a ring (R238); it passes through CMD_IN (R216). -/
def doorbell (e0 : Engine) (r : Nat) (value : Word) : Engine :=
  let e := e0.passes 79 (e0.rd (R.QUE_LEVEL.LEVEL 79) + 1)
  let i := value.toNat % 65536
  if e.ringState r = 0 then e
  else if e.ringSize r ≤ i then e.wr R.UHP_STATUS.DB_ERR 1
  else e.wr (R.UHP_R_HOSTIDX.V r) i

/-! ### Fetching (R239, R242, R247, R251) -/

/-- Entries of a ring asked for and not yet received. -/
def fetching (e : Engine) (r : Nat) : Nat :=
  sumNat (((e.rings.getD r ⟨0, []⟩).fetches.filter fun f => f.2.2).map fun f => f.2.1)

/-- Entries the engine may ask for in one read: up to 8, up to HOSTIDX, without wrapping, within one read request and one 4 KiB page, within
QUOTA and the cache, and within CMD_IN. -/
def fetchCount (e : Engine) (r : Nat) : Nat :=
  let i := (e.rings.getD r ⟨0, []⟩).fetchIdx
  let posted := ahead (e.ringSize r) i (e.rd (R.UHP_R_HOSTIDX.V r))
  let sz := e.entrySize r
  let addr := e.ringBase r + i * sz
  let room := if r = 0 then 16 - (e.cmdIn.length + e.fetching 0)
    else min (e.rd (R.UHP_R_CTRL.QUOTA r) - (e.ringCached r + e.fetching r))
      (1024 - (e.cached + sumNat ((upTo 16).map fun n => e.fetching (3 + n))))
  min (min (min 8 posted) (min (e.ringSize r - i) room))
    (min (min e.link.mrrs 512 / sz) ((4096 - addr % 4096) / sz))

/-- A fetch of posted entries. -/
def fetch (e : Engine) (r : Nat) : Engine :=
  if (r = 0 ∨ 3 ≤ r) ∧ e.canRead ∧ e.ringState r = 1 ∧ !e.modeIn [0, 1] then
    let k := e.fetchCount r
    if k = 0 then e
    else
      let i := (e.rings.getD r ⟨0, []⟩).fetchIdx
      let e1 := e.issueRead (e.ringBase r + i * e.entrySize r) (k * e.entrySize r) (.fetch r)
      { e1 with rings := modAt e1.rings r fun (x : RingSt) => ⟨(i + k) % e.ringSize r, x.fetches ++ [(i, k, true)]⟩ }
  else e

/-- A stream buffer descriptor read from its bytes (R264, R271). Under UHP-1 there is no HSEQ. -/
def parseBuf (ver idx : Nat) (b : List Byte) : Buf :=
  let flags := leAt b 0 1
  if ver = 1 then
    ⟨idx, 0, leAt b 4 8, leAt b 12 4, leAt b 16 4, bitOf flags 0,
      decide (1 < flags) || !zeroOutside b [(0, 1), (4, 16)], [], none, false, false, false, false, false, .writing, false⟩
  else
    ⟨idx, leAt b 4 4, leAt b 8 8, leAt b 16 4, leAt b 24 8, bitOf flags 0,
      decide (1 < flags) || !zeroOutside b [(0, 1), (4, 16), (24, 8)], [], none, false, false, false, false, false, .writing, false⟩

/-- A failed HSEQ check (R247): SEQ_STOP, UHP_Rr_FAULT, FAULT with the ring, the expected HSEQ and the HSEQ found. -/
def seqStop (e : Engine) (r found : Nat) : Engine :=
  ((e.leaveRun r 2).wr (R.UHP_R_FAULT.V r) found).fault 0x10 r 1 0
    [(24, 4, (e.takenSeq r + 1) % 2 ^ 32), (28, 4, found), (32, 2, e.takenIdx r)]

/-- Stream entries received: each is checked and cached in order; one that fails ends it. -/
def cacheEntries (e : Engine) (r : Nat) : List (List Byte) → Engine
  | [] => e
  | b :: t =>
    let d := parseBuf e.ver (e.devIdx r) b
    let want := (e.ringSeq r + 1) % 2 ^ 32
    if e.ver ≠ 1 ∧ d.hseq ≠ want then e.seqStop r d.hseq
    else
      let e1 := (e.wr (R.UHP_R_SEQ.V r) want).setDevIdx r ((e.devIdx r + 1) % e.ringSize r)
      cacheEntries (e1.modStream (r - 3) fun s => { s with bufs := s.bufs ++ [d] }) r t

/-- The entries of received bytes. -/
def splitEntries (sz : Nat) (l : List Byte) (k : Nat) : List (List Byte) := (upTo k).map fun i => sliceBytes l (i * sz) sz

/-- Received entries take their way: commands into CMD_IN, stream descriptors into the cache. -/
def receive (e : Engine) (r first : Nat) (es : List (List Byte)) : Engine :=
  if r = 0 then
    ({ e with cmdIn := e.cmdIn ++ (es.zipIdx.map fun x => CmdEntry.mk ((first + x.2) % e.ringSize 0) x.1) } : Engine).showCmdIn
  else e.cacheEntries r es

/-- The oldest fetch of a ring leaves the list. -/
def popFetch (e : Engine) (r : Nat) : Engine := { e with rings := modAt e.rings r fun (x : RingSt) => { x with fetches := x.fetches.drop 1 } }

/-- The completion of the oldest fetch of a ring. -/
def fetched (e : Engine) (r : Nat) (data : List Byte) : Engine :=
  match (e.rings.getD r ⟨0, []⟩).fetches with
  | (first, k, ok) :: _ =>
    let e1 := e.popFetch r
    if ok then e1.receive r first (splitEntries (e.entrySize r) data k) else e1
  | [] => e

/-- The oldest fetch of a ring ends in an error (R242): entries received without error are taken as in RUN; the ring enters FETCH_ERR with
DEV_IDX on the first not received (for CMD, once the received ones are consumed). -/
def fetchFailed (e : Engine) (r : Nat) (received : List Byte) : Engine :=
  match (e.rings.getD r ⟨0, []⟩).fetches with
  | (first, k, ok) :: _ =>
    let e1 := e.popFetch r
    if ok then
      let sz := e.entrySize r
      let n := min (received.length / sz) (k - 1)
      let e2 := e1.receive r first (splitEntries sz received n)
      if e2.ringState r = 1 then
        let e3 := e2.leaveRun r 3
        let w := e2.received r
        e3.fault 0x10 r 2 0 [(24, 4, (e2.takenSeq r + 1 + w) % 2 ^ 32), (28, 4, 0), (32, 2, (e2.takenIdx r + w) % e2.ringSize r)]
      else e2
    else e1
  | [] => e

/-! ### Events in bytes (R267, R271) -/

/-- An event as it is written under the selected version. -/
def eventBytes (e : Engine) (v : Ev) : List Byte :=
  let own := v.code = 0x01 ∨ v.code = 0x02
  if e.ver = 1 then
    layBytes 16 [(0, 1, v.code), (1, 1, v.subj), (2, 1, v.status), (4, 8, v.time), (12, 4, if own then leAt v.payload 0 4 else v.arg)]
      ++ sliceBytes v.payload (if own then 8 else 0) 16
  else
    let role := if e.ver = 3 then 64 * e.pair.role else 0
    layBytes 24 [(0, 1, v.code), (1, 1, v.subj), (2, 1, v.status), (3, 1, b2n v.hseq.isSome + role), (4, 4, v.dseq), (8, 8, v.time),
      (16, 4, v.hseq.getD 0), (20, 4, v.arg)] ++ v.payload

/-- The MSI-X vector of an event (R233). -/
def vectorOf (v : Ev) : Nat :=
  if v.code = 0x0F then 2
  else if v.code = 0x11 ∨ v.code = 0x12 then 3
  else if v.code = 0x02 ∨ v.code = 0x16 then 4 + v.subj
  else 0

/-- An entry that a vector signals has been written. -/
def noteVector (e : Engine) (v : Nat) : Engine :=
  { e with link := { e.link with vec := modAt e.link.vec v fun (x : VecSt) => { x with entries := x.entries + 1 } }
           status := { e.status with entryWritten := true } }

/-- An engine-written ring has room for an entry (R237, R238). -/
def ringRoom (e : Engine) (r : Nat) : Bool :=
  e.ringState r == 1 && ((e.devIdx r + 1) % e.ringSize r != e.rd (R.UHP_R_HOSTIDX.V r))

/-- Write an entry of an engine-written ring in one TLP, then advance DEV_IDX (R240). -/
def writeEntry (e : Engine) (r : Nat) (b : List Byte) (what : ReqFor) : Engine :=
  (e.issueWrite (e.ringBase r + e.devIdx r * e.entrySize r) b false what).setDevIdx r ((e.devIdx r + 1) % e.ringSize r)

/-- The writer writes the next event from EVT when the ring has room and, in a pair, the leeward has acknowledged it (R240, R366). A word read with a poison tag is written
as it stands (R211, log 143). -/
def writeEvent (e : Engine) : Engine :=
  match e.evt.queue with
  | v :: rest =>
    if e.canIssue && e.ringRoom 1 && !v.held then
      let e1 := (e.writeEntry 1 (e.eventBytes v) .evt).settle v
      let e2 := if e.ver = 1 then e1 else e1.wr (R.UHP_R_SEQ.V 1) v.dseq
      let e3 := { e2 with evt := { e2.evt with queue := rest } }
      (e3.noteVector (vectorOf v)).wr (R.QUE_LEVEL.LEVEL 64) (16 * rest.length)
    else e
  | [] => e

/-! ### The status block (R243 to R246) -/

/-- The RING entry of a ring: DEV_IDX, DONE_IDX, SEQ; 0 for rings UHP-1 lacks, SEQ 0 under UHP-1. -/
def ringEntry (e : Engine) (r : Nat) : List Byte :=
  if e.ver = 1 ∧ (r = 2 ∨ 7 ≤ r) then List.replicate 8 0
  else layBytes 8 [(0, 2, e.devIdx r), (2, 2, e.rd (R.UHP_R_DONE.V r)), (4, 4, if e.ver = 1 then 0 else e.ringSeq r)]

/-- A snapshot in the layout of R243. -/
def statusBytes (e : Engine) (seq : Nat) (sync : Bool) : List Byte :=
  let odd := (upTo 19).any fun r => decide (1 < e.ringState r)
  let flags := b2n sync + 2 * e.rd R.UHP_LINK.DEGRADED + 4 * b2n odd + 8 * e.rd R.QDR_STATUS.HALT
  let one := e.ver = 1
  layBytes 64 [(0, 4, seq), (4, 1, e.ver), (5, 1, e.mode.idx), (6, 1, e.pair.role), (7, 1, flags), (8, 4, e.rd R.UHP_EPOCH.V),
      (12, 4, e.status.heartbeat), (16, 8, e.now), (24, 4, if one then 0 else e.rd R.UHP_LAST_DSEQ.V),
      (28, 4, e.rd R.UHP_LOST_EVT.V), (32, 4, if one then 0 else e.status.lastMseq), (36, 4, e.rd R.UHP_NOK_CNT.V), (40, 2, e.cached),
      (42, 2, 1024 - e.cached), (44, 4, e.rd R.UHP_CMD_OPEN.V)]
    ++ ((upTo 19).map e.ringEntry).flatten ++ layBytes 40 [(36, 4, seq)]

/-- A SYNC is due and the block would take in its CMD_DONE (R246): the event no longer waits in EVT. -/
def syncReady (e : Engine) : Bool :=
  match e.status.syncDue with
  | some d => !(e.evt.queue.any fun v => v.dseq == d)
  | none => false

/-- The periodic write is due (R244). -/
def periodicDue (e : Engine) : Bool := decide (e.status.lastPeriodic + 1000000 ≤ e.now)

/-- A write after entries is due (R244). -/
def entriesDue (e : Engine) : Bool :=
  e.status.entryWritten && decide (e.status.lastWrite + 1000 * e.rd R.UHP_CTRL.SB_INTERVAL ≤ e.now)

/-- The status block is written: one TLP, or two where Max_Payload_Size is 128. -/
def putStatus (e : Engine) (per sync : Bool) : Engine :=
  let seq := (e.status.seq + 1) % 2 ^ 32
  let e1 := { e with status := { e.status with
    seq := seq
    heartbeat := if per then (e.status.heartbeat + 1) % 2 ^ 32 else e.status.heartbeat
    lastWrite := e.now
    lastPeriodic := if per then e.now else e.status.lastPeriodic
    entryWritten := false
    syncDue := if sync then none else e.status.syncDue } }
  let b := e1.statusBytes seq sync
  let addr := 256 * e.rd R.UHP_STATUS_BASE_LO.ADDR + 2 ^ 32 * e.rd R.UHP_STATUS_BASE_HI.ADDR
  if 256 ≤ e.link.mps then e1.issueWrite addr b false .status
  else (e1.issueWrite addr (b.take 128) false .status).issueWrite (addr + 128) (b.drop 128) false .status

/-- The status block can be written (R244); in a pair every delta must be acknowledged before (R366). -/
def canStatus (e : Engine) : Bool :=
  e.canIssue && e.on R.UHP_STATUS_BASE_LO.EN && !(e.mirrorFirst && e.pair.tx.any fun t => t.delta.isSome)

/-- Write the status block if it is due. -/
def writeStatus (e : Engine) : Engine :=
  if e.canStatus && (e.syncReady || e.periodicDue || e.entriesDue) then e.putStatus e.periodicDue e.syncReady else e

/-- A read of UHP_SB_MIRROR at 0x800 latches a live snapshot (R246). -/
def latchMirror (e : Engine) : Engine :=
  let b := e.statusBytes e.status.seq false
  { e with status := { e.status with mirror := b }, rsp := b.take 4 }

/-- A HEARTBEAT event is due (R268). -/
def heartbeatDue (e : Engine) : Bool :=
  e.on R.UHP_CTRL.HB_PERIOD && decide (e.status.hbEvent + 1000000 * e.rd R.UHP_CTRL.HB_PERIOD ≤ e.now)

/-- The HEARTBEAT event. -/
def beat (e : Engine) : Engine :=
  if e.heartbeatDue then
    ({ e with status := { e.status with hbEvent := e.now } }).emit 0x14 e.mode.idx 0 e.pac.st.idx none
      [(24, 4, e.status.heartbeat), (28, 4, ofSigned 32 e.vact), (32, 4, e.pacFree)]
  else e

/-- A word of the MSI-X table (R233): message address, low and high, data, mask. -/
def msixWord (t : MsixEntry) (k : Nat) : Nat :=
  match k with
  | 0 => t.addr % 2 ^ 32
  | 1 => t.addr / 2 ^ 32
  | 2 => t.data
  | _ => b2n t.masked

/-- A word of an MSI-X table entry is written. A vector unmasked while pending is pending no more: its message follows (PRESUMED, log 5). -/
def putMsix (t : MsixEntry) (k v : Nat) : MsixEntry :=
  match k with
  | 0 => { t with addr := t.addr / 2 ^ 32 * 2 ^ 32 + v / 4 * 4 }
  | 1 => { t with addr := v * 2 ^ 32 + t.addr % 2 ^ 32 }
  | 2 => { t with data := v }
  | _ => { t with masked := bitOf v 0, pend := t.pend && bitOf v 0 }

/-- A vector sends its message (R234); a masked vector becomes pending instead (PRESUMED, log 5). -/
def sendMessage (e : Engine) (v : Nat) : Engine :=
  let x := e.link.vec.getD v ⟨none, 0⟩
  let t := e.link.msix.getD v ⟨0, 0, true, false⟩
  let hold := match x.lastMsg with
    | some t0 => decide (t0 + 1000 * e.rd (R.UHP_VEC_MOD.HOLDOFF v) ≤ e.now)
    | none => true
  let cnt := e.on (R.UHP_VEC_MOD.COUNT v) && decide (e.rd (R.UHP_VEC_MOD.COUNT v) ≤ x.entries)
  if 20 ≤ v ∨ x.entries = 0 ∨ !(hold || cnt) ∨ t.pend then e
  else if t.masked then { e with link := { e.link with msix := modAt e.link.msix v fun (y : MsixEntry) => { y with pend := true } } }
  else if e.canIssue then
    let e1 := e.issueWrite t.addr (leBytes 4 t.data) false (.msix v)
    { e1 with link := { e1.link with vec := modAt e1.link.vec v fun _ => ⟨some e.now, 0⟩ } }
  else e

end Engine

/-- RING_ENABLE (R237, R251, R258): UHP_Rr_CTRL written with EN = 1. -/
def execRingEnable (r : RingIx) (value : Word) (s : State) : Answer :=
  .next (s.onEng fun e => e.gate (R.UHP_R_CTRL.EN r.val).off fun x => x.ringCtrl r.val (value ||| 0x80000000))

/-- RING_DISABLE (R253): UHP_Rr_CTRL written with EN = 0. -/
def execRingDisable (r : RingIx) (value : Word) (s : State) : Answer :=
  .next (s.onEng fun e => e.gate (R.UHP_R_CTRL.EN r.val).off fun x => x.ringCtrl r.val (value &&& 0x7FFFFFFF))

/-- RING_RESTART (R242): UHP_Rr_CTRL written with RESTART and every other field as it stands. -/
def execRingRestart (r : RingIx) (s : State) : Answer :=
  .next (s.onEng fun e => e.gate (R.UHP_R_CTRL.EN r.val).off fun x => x.ringCtrl r.val (x.word (R.UHP_R_CTRL.EN r.val).off ||| 0x40000000))

/-- RING_STOP (R253): UHP_Rr_CTRL written with STOP and every other field as it stands. -/
def execRingStop (r : RingIx) (s : State) : Answer :=
  .next (s.onEng fun e => e.gate (R.UHP_R_CTRL.EN r.val).off fun x => x.ringCtrl r.val (x.word (R.UHP_R_CTRL.EN r.val).off ||| 0x20000000))

/-- DOORBELL_WRITE (R238). -/
def execDoorbellWrite (r : RingIx) (value : Word) (s : State) : Answer := .next (s.onEng fun e => e.doorbell r.val value)

/-- DESCRIPTOR_FETCH (R239, R251). -/
def execDescriptorFetch (r : RingIx) (s : State) : Answer := .next (s.onEng fun e => e.fetch r.val)

/-- FETCH_COMPLETION (R239, R247). -/
def execFetchCompletion (r : RingIx) (data : List Byte) (s : State) : Answer := .next (s.onEng fun e => e.fetched r.val data)

/-- FETCH_ERROR (R242): `received` are the bytes that came before the error. The kind makes no difference to the ring. It is reported through AER (R232). -/
def execFetchError (r : RingIx) (received : List Byte) (kind : ReadErr) (s : State) : Answer :=
  .next (s.onEng fun e => (e.fetchFailed r.val received).noteAer (.completion kind) none)

/-- EVT_RING_WRITE (R240). -/
def execEvtRingWrite (s : State) : Answer := .next (s.onEng Engine.writeEvent)

/-- STATUS_BLOCK_WRITE (R244). -/
def execStatusBlockWrite (s : State) : Answer := .next (s.onEng Engine.writeStatus)

/-- UHP_SB_MIRROR_READ (R246). -/
def execUhpSbMirrorRead (s : State) : Answer := .next (s.onEng fun e => e.reading Engine.latchMirror)

/-- HEARTBEAT (R268). -/
def execHeartbeat (s : State) : Answer := .next (s.onEng Engine.beat)

/-- MSIX_MESSAGE (R234). -/
def execMsixMessage (v : Fin 32) (s : State) : Answer := .next (s.onEng fun e => e.sendMessage v.val)

end Sys2Proof.Machine
end

