-- ==== Sys2Proof/Machine/Sdb.lean ====
section
/-!
DEFINITION. The sensor descriptor block (R33, R34).
-/

namespace Sys2Proof.Machine

namespace Engine

/-- A read of a side's SDB starts: in M3, unless the policy is OFF. -/
def sdbStart (e : Engine) (s : Nat) : Engine :=
  if e.mode = .m3 ∧ e.rd (R.SDB_CTRL.POLICY s) ≠ 2 then e.wr (R.SDB_CTRL.LOAD s) 1 else e

/-- A TG_OUTn_CFG and TG_OUTn_LINE image is within its ranges: reserved bits 0, FUNC up to 4, WIDTH from 1. -/
def templateOk (l : List Byte) (n : Nat) : Bool :=
  let cfg := leAt l (0x40 + 8 * n) 4
  let line := leAt l (0x44 + 8 * n) 4
  decide (cfg / 2 ^ 27 % 4 = 0 ∧ cfg / 2 ^ 24 % 8 ≤ 4 ∧ cfg / 2 ^ 14 % 4 = 0 ∧ cfg / 2 ^ 10 % 4 = 0 ∧ cfg % 256 = 0 ∧ line % 65536 ≠ 0)

/-- Every field lies in the range of the register it loads. -/
def sdbFieldsOk (l : List Byte) : Bool :=
  let act := leAt l 0x14 2
  decide (64 ≤ act ∧ act ≤ 960 ∧ act % 8 = 0) && decide (leAt l 0x16 1 ≤ 8) && decide (16 ≤ leAt l 0x17 1 ∧ leAt l 0x17 1 ≤ 63)
    && (upTo 4).all (fun r => decide (leAt l (0x1A + 2 * r) 2 ≤ 4095)) && (upTo 4).all (fun r => decide (leAt l (0x24 + 4 * r) 4 < 2 ^ 24))
    && (upTo 16).all (templateOk l)

/-- The outcome of the checks, as SDB_STATUS.ERR codes it. -/
def sdbError (l : List Byte) : Nat :=
  let len := leAt l 6 2
  if leAt l 0 4 ≠ 0x42445348 then 2
  else if leAt l 4 1 ≠ 2 then 3
  else if len < 0xC4 ∨ 0x1000 < len then 4
  else if (crc32c (sliceBytes l 0 (len - 4))).toNat ≠ leAt l (len - 4) 4 then 5
  else if !sdbFieldsOk l then 6
  else 0

/-- A valid SDB loads a side's registers (R33). -/
def sdbApply (e : Engine) (s : Nat) (l : List Byte) : Engine :=
  let e1 := ((e.wr (R.TG_LINE_FMT.ACTIVE s) (leAt l 0x14 2)).wr (R.TG_LINE_FMT.DUMMY s) (leAt l 0x16 1)).wr (R.TG_LINE_FMT.OVH s) (leAt l 0x17 1)
  let e2 := (e1.wr (R.TG_SAMPLE.SHR s) (leAt l 0x22 1 / 16)).wr (R.TG_SAMPLE.SHD s) (leAt l 0x22 1 % 16)
  let e3 := (upTo 4).foldl (fun x r =>
    (x.wr (R.TG_EXP_ROW.EXP s r) (leAt l (0x24 + 4 * r) 4)).wr (R.EDY_SPACE.SPACE s r) (leAt l (0x1A + 2 * r) 2)) e2
  let e4 := (upTo 16).foldl (fun x n =>
    (x.wr (R.TG_OUT_CFG.word s n) (leAt l (0x40 + 8 * n) 4)).wr (R.TG_OUT_LINE.word s n) (leAt l (0x44 + 8 * n) 4)) e3
  (upTo 32).foldl (fun x k => x.wr (R.TG_CHMAP.DIR s k) (b2n (bitOf (leAt l 0x18 1) (x.rd (R.TG_CHMAP.TAP s k))))) e4

/-- SDB_STATUS of a side. -/
def sdbStatus (e : Engine) (s present valid applied major minor err : Nat) : Engine :=
  (((((e.wr (R.SDB_STATUS.PRESENT s) present).wr (R.SDB_STATUS.VALID s) valid).wr (R.SDB_STATUS.APPLIED s) applied).wr
    (R.SDB_STATUS.VER_MAJOR s) major).wr (R.SDB_STATUS.VER_MINOR s) minor).wr (R.SDB_STATUS.ERR s) err

/-- The read of a side's SDB ends: `image` is what the device gave, none where it did not acknowledge. Check 0x08 of R32 goes by FMAX_MHZ of the latest
valid SDB, whatever a later read finds and whatever the policy (DESIGN CHOICE, log 137). -/
def sdbEnd (e : Engine) (s : Nat) (image : Option (List Byte)) : Engine :=
  if !e.on (R.SDB_CTRL.LOAD s) then e
  else
    let e1 := e.wr (R.SDB_CTRL.LOAD s) 0
    match image with
    | none => e1.sdbStatus s 0 0 0 0 0 1
    | some l =>
      let err := sdbError l
      let apply := e.rd (R.SDB_CTRL.POLICY s) = 0
      let e2 := e1.sdbStatus s 1 (b2n (err == 0)) (b2n (err == 0 && apply)) (leAt l 4 1) (leAt l 5 1) err
      if err ≠ 0 then e2
      else
        let e3 := ((e2.wr (R.SDB_SERIAL_LO.V s) (leAt l 8 4)).wr (R.SDB_SERIAL_HI.V s) (leAt l 12 4)).modGen s fun g =>
          { g with fmax := some (leAt l 0x13 1) }
        (if apply then e3.sdbApply s l else e3).checkSerial s

end Engine

/-- SDB_LOAD (R33): SDB_CTRL.LOAD written with 1. -/
def execSdbLoad (side : Side) (s : State) : Answer := .next (s.onEng fun e => e.gate (R.SDB_CTRL.LOAD side.val).off fun x => x.sdbStart side.val)

/-- SDB_READ_DONE (R33, R34, R94): what the device gave is an operand. -/
def execSdbReadDone (side : Side) (image : Option (List Byte)) (s : State) : Answer := .next (s.onEng fun e => e.sdbEnd side.val image)

end Sys2Proof.Machine
end

