-- ==== Sys2Proof/Machine/Modes.lean ====
section
/-!
DEFINITION. Modes (16_modes_resets_power.md): the walk of a MODE command (R340 to R342), SLEEP and the wake (R344), the mapping of the staging memory
(R190 to R193), the supplies and the references at entry to M3 (R66, R382).
-/

namespace Sys2Proof.Machine

namespace Engine

/-! ### The staging memory powers up -/

/-- The bursts that a COMPARE still waits for, at whatever port. -/
def compareBursts (e : Engine) : List Burst :=
  e.qdr.ports.flatMap fun q => q.bursts.flatMap fun l => l.filter fun b => match b.what with | .compare .. => true | _ => false

/-- The ports of a memory that goes off or comes up: no request stands there. The live counters stay: they are statistics. -/
def idlePorts (e : Engine) : List PortSt := e.qdr.ports.map fun (p : PortSt) => { PortSt.init with live := p.live }

/-- Bursts are raised again as SVC_RD requests, at their dies' ports. -/
def raiseAgain (e : Engine) (l : List Burst) : Engine := l.foldl (fun x b => x.raiseBurst (8 + x.dieOf b.addr) 1 b) e

/-- Every die is tested and the regions are placed (R190, R191, R193). The live counters of the ports stay: they are statistics. What a COMPARE has yet to read is
requested anew (DESIGN CHOICE, log 139). -/
def mapDies (e : Engine) (fails : List (Fin 8 × Nat)) : Engine :=
  let out := e.rd R.QDR_MAP_REQ.OUT
  let bad := fails.filter fun x => !bitOf out (x.1.val / 2)
  let failed := bad.foldl (fun b x => setBit b (x.1.val / 2) true) 0
  let map := (upTo 4).foldl (fun b k => if bitOf out k || bitOf failed k then b else setBit b k true) 0
  let c := 33554432 * ((upTo 4).filter fun k => bitOf map k).length
  let e1 := ((e.wr R.QDR_STATUS.FAILED failed).wr R.QDR_STATUS.MAP map).wr R.SYS_UNITS.QDR map
  let e2 := ((e1.wr R.QDR_STAGE_SIZE.V (c - 12582912)).wr R.QDR_TABLES_BASE.V (c - 4194304)).wr R.QDR_SVC_BASE.V (c - 2097152)
  let e3 : Engine := { e2 with qdr := { QdrSt.init with
    ports := e.idlePorts
    nextBar4 := e.qdr.nextBar4, bar4Done := e.qdr.bar4Done, dieFaults := bad.map fun x => (x.1.val, x.2)
    scrubLast := e.now, passStart := e.now } }
  (if e3.ringState 1 = 1 then e3.raiseBoot else e3).raiseAgain e.compareBursts

/-! ### Entry to M3 and to M2 -/

/-- The straps of a side are read and its supplies set; with every strap open they stay off (R382). What the straps are is a free value. -/
def readStraps (e : Engine) (s : Nat) : Engine :=
  let r := e.takeFree
  r.2.modAfe s fun a => { a with strap := r.1 % 8, supplies := r.1 % 8 != 7, tripped := false }

/-- The AFE dies power up (R66, R67): each reference settles from here; the buffer of a die in external mode restarts, and conversion waits for it
in a wake. -/
def powerAfe (e : Engine) (wake : Bool) : Engine :=
  (upTo 2).foldl (fun x s =>
    let x1 := (x.startSettling s).modAfe s fun a => { a with refIn := true }
    if x1.on (R.AFE_REF_CTRL.BUF_EN s) then x1.modAfe s fun a => { a with bufStart := some x.now, bufWait := wake && x.refExternal s } else x1) e

/-- What an entry to M3 does beside the change of mode. -/
def enterIdle (e : Engine) : Engine := (e.readStraps 0).readStraps 1

/-- Every BAR4 access in progress fails (R197, R344); the requests of a COMPARE wait for the memory. -/
def failBar4 (e : Engine) : Engine :=
  let e1 := e.qdr.bar4.foldl (fun x a => x.bar4Fail a.id a.write) e
  ({ e1 with qdr := { e1.qdr with bar4 := [], ports := e1.idlePorts } } : Engine).raiseAgain e.compareBursts

/-- What an entry to M2 does: AFE dies, staging memory and sensor supplies go off; what STAGE held is lost (R344, R348). -/
def enterSleep (e : Engine) : Engine :=
  let e1 := (upTo 2).foldl (fun x s => x.modAfe s fun a =>
    { a with settleStart := none, timedOut := false, bufStart := none, bufWait := false, supplies := false }) e.failBar4
  ((upTo 16).foldl (fun x n => if (x.stream n).halted then x else x.withdraw n) e1).settleStreams

/-! ### The walk of a MODE command -/

/-- The modes that a MODE command passes through, its target last (R340): rows whose cause is COMMAND alone; none where they do not reach. M9 is
left only for M3 and M6 (R341). -/
def modePath (m t : Nat) : Option (List Mode) :=
  match m, t with
  | 3, 2 | 6, 2 => some [.m2]
  | 4, 2 | 11, 2 => some [.m3, .m2]
  | 5, 2 => some [.m4, .m3, .m2]
  | 2, 3 | 4, 3 | 6, 3 | 9, 3 | 11, 3 => some [.m3]
  | 5, 3 => some [.m4, .m3]
  | 3, 4 | 6, 4 | 5, 4 => some [.m4]
  | 2, 4 | 11, 4 => some [.m3, .m4]
  | 2, 6 | 4, 6 | 9, 6 => some [.m6]
  | 3, 6 | 5, 6 => some [.m4, .m6]
  | 11, 6 => some [.m3, .m4, .m6]
  | 3, 11 => some [.m11]
  | 2, 11 | 4, 11 | 6, 11 => some [.m3, .m11]
  | 5, 11 => some [.m4, .m3, .m11]
  | _, _ => none

/-- A side with CONV_EN = 1 whose CAL_INVALID bit is set, its die present (R94). -/
def calRefuses (e : Engine) : Bool := e.convSides.any fun s => bitOf (e.rd R.CAL_STATUS.CAL_INVALID) s

/-- A side with CONV_EN = 1 that does not convert (R66). -/
def convMissing (e : Engine) : Bool := e.convSides.any fun s => !e.on (R.AFE_STATUS.CONV_RUN s)

/-- A MODE 6 finds a side that does not convert (R66): in M4 one with CONV_RUN = 0, in M3 one whose reference would not let it start on entry to M4
(DEDUCED, log 43). -/
def convRefuses (e : Engine) : Bool :=
  if e.mode = .m4 then e.convMissing
  else e.convSides.any fun s => !e.on (R.AFE_STATUS.CONV_RUN s) && !e.refReady s

/-- The step from M3 to M4 is allowed: a die pair mapped in (R193), every driver pulsed and the checks of R32 passed. -/
def warmupCheck (e : Engine) : Engine × Nat :=
  if e.rd R.QDR_STATUS.MAP = 0 then (e, stRejectedState)
  else
    let r := e.pulseLeds.configCheck
    (r.1, if r.2 then stOk else stRejectedParam)

/-- The whole path of a MODE command is judged before its first transition, so that a refused one changes no mode (R261; DEDUCED, log 45). From M2 what lies past
M3 is judged there, after the wake; the calibration and the pair are judged at once. -/
def judgeMode (e : Engine) (t : Mode) (path : List Mode) : Engine × Nat :=
  let windward := e.pairEnabled && e.pair.role == 1
  let to6 := t = .m6 ∧ e.mode ≠ .m9
  if e.job.isOpen then (e, stRejectedState)
  else if e.mode = .m9 ∧ (e.mot.v ≠ 0 ∨ e.on R.QDR_STATUS.HALT) then (e, stRejectedState)
  else if e.rd R.QDR_STATUS.MAP = 0 ∧ t ≠ .m3 then (e, stRejectedState)
  else if path.contains .m2 && windward then (e, stRejectedState)
  else if path.contains .m11 && !e.on R.MET_STATUS.SEAL_OPEN then (e, stRejectedState)
  else if t = .m6 ∧ e.calRefuses then (e, stRejectedState)
  else if e.mode = .m2 then (e, stOk)
  else if to6 ∧ e.convRefuses then (e, stRejectedState)
  else if (e.mode = .m3 ∨ e.mode = .m11) ∧ path.contains .m4 then e.warmupCheck
  else (e, stOk)

/-- A full calibration that a MODE command has abandoned completes its CALIBRATE ABORTED, after the MODE_CHANGE events of that instant (R90, R270). -/
def abortFull (e : Engine) : Engine :=
  if e.mode ≠ .m5 ∧ e.cal.writing.isNone then
    e.finishAll (fun (w : Wait) => match w with | .calTarget => true | .calBacking => true | _ => false) stAborted []
  else e

/-- One transition of a walk, with what it does beside the change of mode: M5 is left by abandoning the calibration (R90), M9 by forgetting
the Squall. -/
def hop (e : Engine) (m : Mode) (cause : Nat) (hs : Option Nat) : Engine :=
  let e1 := if e.mode = .m5 ∧ e.cal.writing.isNone then e.dropFull else e
  let e2 := if e.mode = .m9 then { e1 with squall := none, pac := { e1.pac with st := .idle } } else e1
  let e3 := e2.changeMode m cause hs
  match m with
  | .m2 => e3.enterSleep
  | .m3 => e3.enterIdle
  | _ => e3

/-- RESULT of a MODE command that arrived. -/
def modeResult (e : Engine) : List LayField := [(40, 1, e.mode.idx)]

/-- A MODE command walks its path; the step into M6 from M4 waits for the end of warm-up (R340). -/
def walk (e : Engine) (h : Nat) : List Mode → Engine
  | [] => e.abortFull.finishHseq h stOk e.modeResult
  | m :: t =>
    if e.mode = .m4 ∧ m = .m6 ∧ !e.convSides.isEmpty then
      { e.abortFull with trans := { e.trans with target := some .m6, cmd := some ⟨h, .m6⟩, wake := none, warming := true } }
    else walk (e.hop m 3 (some h)) h t

/-- A MODE command is judged against the present mode and carried out (R340, R342); a MODE 2 that meets a WAKE edge completes ABORTED. -/
def runMode (e : Engine) (h : Nat) (t : Mode) : Engine :=
  if t = .m2 ∧ e.trans.wokeAt = some e.now then e.finishHseq h stAborted []
  else if t = e.mode then e.finishHseq h stOk e.modeResult
  else
    match modePath e.mode.idx t.idx with
    | none => e.finishHseq h stRejectedState []
    | some path =>
      let j := e.judgeMode t path
      if j.2 ≠ stOk then j.1.finishHseq h j.2 []
      else if e.mode = .m2 then
        { e with trans := { e.trans with target := some t, cmd := some ⟨h, t⟩, wake := some ⟨t, false⟩, warming := false } }
      else j.1.walk h path

/-- The MODE commands that waited for a transition take their turn (R342). `fuel` bounds them. -/
def runWaiting (e : Engine) : Nat → Engine
  | 0 => e
  | n + 1 =>
    match e.trans.target, e.trans.waiting with
    | none, c :: rest => runWaiting (({ e with trans := { e.trans with waiting := rest } } : Engine).runMode c.hseq c.target) n
    | _, _ => e

/-- A transition ends: its command completes, and the waiting ones follow. -/
def endTrans (e : Engine) (status : Nat) : Engine :=
  let e1 := { e with trans := { e.trans with target := none, cmd := none, wake := none, warming := false } }
  let e2 := match e.trans.cmd with
    | some c => e1.finishHseq c.hseq status (if status = stOk then e1.modeResult else [])
    | none => e1
  e2.runWaiting e2.trans.waiting.length

/-- Cause and echoed HSEQ of a transition in progress: COMMAND of a MODE command, WAKE of an edge. -/
def transCause (e : Engine) : Nat × Option Nat :=
  match e.trans.cmd with | some c => (3, some c.hseq) | none => (11, none)

/-! ### The wake (R344) -/

/-- A rising edge on WAKE: in M2 the wake begins; in another mode it only keeps a MODE 2 of the same instant from taking effect (R342, log 48). -/
def wakeEdge (e : Engine) : Engine :=
  if !e.on R.SYS_CTRL.WAKE_EN || e.resetting.isSome then e
  else
    let e1 := { e with trans := { e.trans with wokeAt := some e.now } }
    if e.mode = .m2 ∧ e.trans.target.isNone then
      let t : Mode := if e.on R.SYS_CTRL.WAKE_TGT then .m6 else .m3
      { e1 with trans := { e1.trans with target := some t, cmd := none, wake := some ⟨t, false⟩, warming := false } }
    else e1

/-- Step 2: the rails have settled, the dies are tested, M3 is entered. A MODE command for M4 or M11 is judged afresh there. -/
def railsSettled (e : Engine) (w : WakeSt) (fails : List (Fin 8 × Nat)) : Engine :=
  let c := e.transCause
  let e1 := ((e.mapDies fails).hop .m3 c.1 c.2).powerAfe true
  match w.target, e.trans.cmd with
  | .m6, _ => { e1 with trans := { e1.trans with wake := some { w with railsOn := true } } }
  | .m3, _ => e1.endTrans stOk
  | t, some x =>
    let e2 := ({ e1 with trans := { e1.trans with target := none, cmd := none, wake := none } } : Engine).runMode x.hseq t
    e2.runWaiting e2.trans.waiting.length
  | _, none => e1.endTrans stOk

/-- Step 3: clocks locked, references settled; drivers pulsed, the checks of R32 run; M4 is entered, or the wake ends in M3. In M4 it ends where
a side timed out or R94 refuses M6. -/
def wakeReferences (e : Engine) : Engine :=
  match e.trans.wake with
  | some w =>
    if e.mode = .m3 ∧ w.railsOn then
      let e1 := (upTo 2).foldl (fun x s => x.modAfe s fun a => { a with settleAt := min a.settleAt e.now }) e
      let r := e1.warmupCheck
      if r.2 ≠ stOk then r.1.endTrans r.2
      else
        let c := e.transCause
        let e2 := r.1.hop .m4 c.1 c.2
        if e2.calRefuses || e2.convSides.any (fun s => (e2.afeSide s).timedOut) then e2.endTrans stRejectedState
        else { e2 with trans := { e2.trans with warming := true } }
    else e
  | none => e

/-- Every enabled channel of a converting side runs on calibrated slices (R340): its first spare has been calibrated, or a slice has failed. The first
calibration of S0 to S3 is trusted to the command (log 42). -/
def slicesReady (e : Engine) : Bool :=
  e.convSides.all fun s => (e.enabledCh s).all fun k =>
    e.on (R.AFE_CH_SLICE.FAILED s k) || ((e.chan (32 * s + k)).served.getD 4 none).isSome

/-- Warm-up is complete: M6 is entered; in a wake CONV_RUN is waited for too. -/
def warm (e : Engine) : Engine :=
  if e.mode = .m4 ∧ e.trans.target = some .m6 ∧ e.trans.warming ∧ !e.convMissing ∧ e.slicesReady then
    let c := e.transCause
    (e.hop .m6 c.1 c.2).endTrans stOk
  else e

/-- REF_TIMEOUT of a side with CONV_EN = 1 ends a wake in M4. -/
def timeoutInWake (e : Engine) (s : Nat) : Engine :=
  if e.mode = .m4 ∧ e.trans.wake.isSome ∧ e.sideConverts s ∧ (e.afeSide s).timedOut then e.endTrans stRejectedState else e

/-- MODE 11 ends when the seal closes (R340): M3 with cause SEAL. -/
def sealClosed (e : Engine) : Engine := if e.mode = .m11 then e.hop .m3 12 none else e

end Engine

/-- WAKE (R344). -/
def execWake (s : State) : Answer := .next (s.onEng Engine.wakeEdge)

/-- WAKE_RAILS_SETTLED (R344): `dieFails` are the dies that fail their test. The staging memory is empty after it. -/
def execWakeRailsSettled (dieFails : List (Fin 8 × Nat)) (s : State) : Answer :=
  .next (s.onMem fun e m =>
    match e.trans.wake with
    | some w => if e.mode = .m2 ∧ !w.railsOn then (e.railsSettled w dieFails, ⟨[], []⟩) else (e, m)
    | none => (e, m))

/-- WAKE_REFERENCES_SETTLED (R344). -/
def execWakeReferencesSettled (s : State) : Answer := .next (s.onEng Engine.wakeReferences)

/-- WARMUP_COMPLETE (R340): that every enabled channel has its five slices calibrated, or a failed one, is what the row says. -/
def execWarmupComplete (s : State) : Answer := .next (s.onEng Engine.warm)

/-- REF_TIMEOUT (R68, R340). -/
def execRefTimeout (side : Side) (s : State) : Answer := .next (s.onEng fun e => (e.refTimeout side.val).timeoutInWake side.val)

end Sys2Proof.Machine
end

