-- ==== Sys2Proof/Machine/Metrology.lean ====
section
/-!
DEFINITION. The metrology section (14_metrology_section.md): tap lines and edges (R291 to R294), thickness (R295), the record, its signature and its store (R296 to
R303), labels, seal, audit, restart and the peer's record (R304 to R310). Lengths in the fit are exact rationals; only the square roots and the arctangent are rounded (log 19).
-/

namespace Sys2Proof.Machine

namespace Section

/-! ### Position (R292) -/

/-- A closed piece whose trailing edge has also passed the place of the sensor has its result ready (R303), whether or not THICK_EN is set. -/
def settleReady (x : Section) (now : Nat) : Section :=
  { x with pieces := x.pieces.map fun (p : Piece) =>
      if p.closed && p.ready.isNone && decide (p.last + x.params.dT ≤ x.pos) then { p with ready := some now } else p }

/-- An edge of EN0: position, speed, and LULL on the pieces under way where the transport turned or stood (log 36). -/
def encEdge (x : Section) (now : Nat) (up : Bool) : Section :=
  let dt := match x.edgeTime with | some t => now - t | none => 0
  let stood := !up || decide (10000000 ≤ dt)
  let x1 := { x with
    pos := if up then x.pos + 1 else x.pos - 1
    edgeTime := some now
    speed := if x.edgeTime.isNone ∨ dt = 0 then x.speed else (100 * x.params.sL : Nat) / (dt : Nat)
    pieces := if stood then x.pieces.map fun (p : Piece) => if p.ready.isNone then { p with lull := true } else p else x.pieces }
  (x1.markPieces).settleReady now

/-- The position is latched at a tap line's header. -/
def latch (x : Section) (side now : Nat) : Section := { x with latches := (x.latches ++ [(side, now, x.pos)]).drop (x.latches.length - 63) }

/-! ### Tap lines (R291 to R294) -/

/-- |v − B| less k × B of each value. -/
def contrasts (x : Section) (row : List Nat) : List Rat :=
  let kb : Rat := ((x.params.k : Nat) : Rat) / 1000 * (x.back : Rat)
  row.map fun (v : Nat) => ((((v : Nat) : Int) - x.back).natAbs : Rat) - kb

/-- Document values with the hysteresis of R291. -/
def docValues (x : Section) (c : List Rat) : List Bool :=
  let kb : Rat := ((x.params.k : Nat) : Rat) / 1000 * (x.back : Rat)
  (c.zip x.doc).map fun a => decide (0 ≤ a.1) || (a.2 && decide (-(kb / 5) ≤ a.1))

/-- Where a straight line through (p0, c0) and (p1, c1) crosses 0. -/
def crossing (p0 c0 p1 c1 : Rat) : Rat := if c0 = c1 then p1 else p0 + (p1 - p0) * c0 / (c0 - c1)

/-- The crossings of each column between the previous used line and this one: the first one inward is the leading edge's, the latest one outward the
trailing edge's. -/
def edgesOf (p : Piece) (a : SecLine) (pos : Int) (c : List Rat) : Piece :=
  let cross (c0 c1 : Rat) : Rat := crossing (a.pos : Rat) c0 (pos : Rat) c1
  let cols := a.contrast.zip c
  { p with
    lead := (p.lead.zip cols).map fun z => if z.1.isNone && decide (z.2.1 < 0) && decide (0 ≤ z.2.2) then some (cross z.2.1 z.2.2) else z.1
    trail := (p.trail.zip cols).map fun z => if decide (0 ≤ z.2.1) && decide (z.2.2 < 0) then some (cross z.2.1 z.2.2) else z.1 }

/-- Left and right crossing of a line by interpolation between adjacent values (R294), as the line's width in values. -/
def lineWidth (c : List Rat) : Option Rat :=
  let n := c.length
  match c.findIdx? fun v => decide (0 ≤ v), c.reverse.findIdx? fun v => decide (0 ≤ v) with
  | some l, some r' =>
    let r := n - 1 - r'
    let at_ (i : Nat) : Rat := c.getD i 0
    let left : Rat := if l = 0 then 0 else crossing ((l - 1 : Nat) : Rat) (at_ (l - 1)) ((l : Nat) : Rat) (at_ l)
    let right : Rat := if r = n - 1 then ((n - 1 : Nat) : Rat) else crossing ((r : Nat) : Rat) (at_ r) ((r + 1 : Nat) : Rat) (at_ (r + 1))
    some (right - left)
  | _, _ => none

/-- Speed in mm/s between two positions and times. -/
def speedOf (x : Section) (p0 p1 : Int) (t0 t1 : Nat) : Rat :=
  if t1 ≤ t0 then 0 else ((p1 - p0 : Int) : Rat) * ((100 * x.params.sL : Nat) : Rat) / ((t1 - t0 : Nat) : Rat)

/-- TIME of a leading edge at `t` of the section's clock (R308): the latest SYNC's device time and the time since, within 10 µs while SYNCs arrive every 10 ms,
else open; and the time since the latest SYNC where the edge falls more than 1 s after it. -/
def timeOf (x : Section) (t : Nat) : Nat × Option Nat × Section :=
  let f := x.takeFree
  match x.sync with
  | some (s, d) =>
    if t ≤ s + 10000000 then (d + t + f.1 % 20001 - s - 10000, none, f.2)
    else (f.1, if s + 1000000000 < t then some ((t - s) / 1000000) else none, f.2)
  | none => (f.1, some (t / 1000000), f.2)

/-- A leading edge is found: the piece takes the oldest label (R304). -/
def openAt (x : Section) (t : TapLine) (pos : Int) : Section :=
  let tm := x.timeOf t.time
  let v := match x.line with | some a => x.speedOf a.pos pos a.time t.time | none => 0
  let p : Piece := ⟨x.labels.headD 0, tm.1, tm.2.1, t.pitch, x.sealOpen, false, false, false, false, List.replicate 960 none,
    List.replicate 960 none, [], v, 0, pos, pos, false, none, none, 0⟩
  { tm.2.2 with labels := x.labels.drop 1, pieces := x.pieces ++ [p] }

/-- A used line without a document value in an open piece: the first stands behind the trailing edge; enough of them in a row confirm it (R303, log 36). -/
def offEdge (p : Piece) (pos : Int) (v : Rat) : Piece :=
  { p with last := if p.gap = 0 then pos else p.last, vTe := if p.gap = 0 then v else p.vTe, gap := p.gap + 1,
           closed := decide (max 1 Config.sectionConfirm ≤ p.gap + 1) }

/-- A used line once B is learned. -/
def useLine (x : Section) (now : Nat) (t : TapLine) (pos : Int) (row : List Nat) : Section :=
  let c := x.contrasts row
  let doc := x.docValues c
  let any := doc.any id
  let x1 := if any && x.openPiece.isNone then x.openAt t pos else x
  let x2 := match x.line with
    | some a => x1.modOpen fun p => edgesOf p a pos c
    | none => x1
  let vte := match x.line with | some a => x.speedOf a.pos pos a.time t.time | none => 0
  let x3 := if any then
      x2.modOpen fun p => { p with
        last := pos, gap := 0, edge := p.edge || doc.headD false || doc.getD 959 false
        widths := match lineWidth c with | some w => p.widths ++ [(pos, w)] | none => p.widths }
    else x2.modOpen fun p => offEdge p pos vte
  let x4 := { x3 with used := if any || x.openPiece.isSome then some pos else x.used, doc := doc, line := some ⟨pos, t.time, c⟩ }
  (x4.markPieces).settleReady now

/-- B is learned as R148 describes: from 16 lines, then by every line without a document value. m is the line's exact mean: the fraction is rounded once. -/
def learn (x : Section) (row : List Nat) (any : Bool) : Section :=
  if any then x else { x with back := x.back + Int.fdiv ((sumNat row : Nat) + 960 * (32 - x.back)) (960 * 64) }

/-- SECTION_TAP_LINE: a line of the measuring side without failed checks, beyond every position used for the piece under way, or, between pieces, for the latest
(R292, log 36). -/
def tapLine (x : Section) (now : Nat) (t : TapLine) : Section :=
  let pos := match x.latches.find? fun l => l.1 == t.side && l.2.1 == t.time with
    | some l => l.2.2
    | none => x.pos
  let x1 := { x with latches := x.latches.filter fun l => !(l.1 == t.side && decide (l.2.1 ≤ t.time)) }
  let row := t.rows.getD x.params.tapSel []
  let beyond := match x.used with | some u => decide (u < pos) | none => true
  if t.side ≠ x.params.side ∨ t.chk.getD x.params.tapSel 0 ≠ 0 ∨ !beyond then x1
  else if x.learnN < 16 then
    let n := x.learnN + 1
    let sum := x.learnSum + (sumNat row : Nat)
    { x1 with learnN := n, learnSum := sum, back := if n = 16 then ((sum + 8 * 960) / (16 * 960)) else x.back }
  else if x.back < 400 ∨ 3900 < x.back then x1.learn row false
  else
    let x2 := x1.useLine now t pos row
    x2.learn row (x2.doc.any id)

/-! ### The result (R293 to R296) -/

/-- Points (column, position) of an edge. -/
def points (l : List (Option Rat)) : List (Rat × Rat) :=
  l.zipIdx.filterMap fun a => a.1.map fun p => (((a.2 : Nat) : Rat), p)

/-- The mean of numbers. -/
def meanRat (l : List Rat) : Rat := sumRat l / (max 1 l.length : Nat)

/-- Sums of squares and products about the means. -/
def moments (l : List (Rat × Rat)) : Rat × Rat :=
  let mx := meanRat (l.map fun p => p.1)
  let my := meanRat (l.map fun p => p.2)
  (sumRat (l.map fun p => (p.1 - mx) * (p.1 - mx)), sumRat (l.map fun p => (p.1 - mx) * (p.2 - my)))

/-- The fit of both edges with one slope: the slope in counts per column and both positions at column 479.5; none where fewer than two columns
have both crossings (log 36). -/
def fitEdges (p : Piece) : Option (Rat × Rat × Rat) :=
  let both := (p.lead.zip p.trail).map fun a => if a.1.isSome && a.2.isSome then a else (none, none)
  let l := points (both.map fun a => a.1)
  let t := points (both.map fun a => a.2)
  if l.length < 2 then none
  else
    let ml := moments l
    let mt := moments t
    let s := if ml.1 + mt.1 = 0 then 0 else (ml.2 + mt.2) / (ml.1 + mt.1)
    let mid (q : List (Rat × Rat)) : Rat := meanRat (q.map fun a => a.2) + s * (959 / 2 - meanRat (q.map fun a => a.1))
    some (s, mid l, mid t)

/-- π in 10⁻¹⁵. -/
def piFix : Int := 3141592653589793

/-- A measured piece: L, H and T in scale intervals, θ in 10⁻¹⁵ rad, whether T is invalid. -/
structure Result where
  l : Int
  h : Int
  t : Int
  theta : Int
  fit : Bool
  tInvalid : Bool
  deriving DecidableEq, Repr

/-- Thickness in mm (R295): none where fewer than 16 values remain in either span. -/
def thickness (x : Section) (lead trail : Rat) : Option Rat :=
  let d := trail - lead
  let dt : Rat := (x.params.dT : Rat)
  let inSpan (a b : Rat) : List Rat := (x.thick.filter fun q => decide (a ≤ (q.1 : Rat) ∧ (q.1 : Rat) ≤ b)).map fun q => q.2
  let mid := inSpan (lead + dt + d / 10) (lead + dt + 9 * d / 10)
  let zero := (x.thick.filter fun q => decide (lead + dt - (x.countsOf 10000 : Rat) ≤ (q.1 : Rat) ∧ (q.1 : Rat) < lead + dt)).map fun q => q.2
  if mid.length < 16 ∨ zero.length < 16 then none else some (medianRat mid - medianRat zero)

/-- The result of a piece. -/
def measure (x : Section) (p : Piece) : Result :=
  let f := fitEdges p
  let s := match f with | some a => a.1 | none => 0
  let lead : Rat := match f with | some a => a.2.1 | none => (p.first : Rat)
  let trail : Rat := match f with | some a => a.2.2 | none => (p.last : Rat)
  let tan : Rat := s * (x.params.sL : Nat) / ((100 * max 1 x.params.sH : Nat) : Rat)
  let cos : Rat := 1 / sqrtFine (1 + tan * tan)
  let lenMm : Rat := (trail - lead) * (x.params.sL : Nat) / 10000000 * cos
  let w := medianRat ((p.widths.filter fun a => decide (lead ≤ (a.1 : Rat) ∧ (a.1 : Rat) ≤ trail)).map fun a => a.2)
  let heightMm : Rat := w * (x.params.sH : Nat) / 100000 * cos
  let th := if x.actOn R.MET_CONV_CTRL.THICK_EN && x.fe.polyOk then x.thickness lead trail else none
  ⟨if f.isSome then ratNear lenMm else 0, if f.isSome then ratNear heightMm else 0,
    match th with | some v => if p.feFault then 0 else ratNear (10 * v) | none => 0, atanFix tan, f.isSome, th.isNone⟩

/-! ### The record (R299, R300) -/

/-- A signed byte limited to its range. -/
def sByte (i : Int) : Nat := ofSigned 8 (clampInt (-128) 127 i)

/-- What R310 fills from the peer's record: its MSEQ, the differences, PAIR_DIFF. -/
def peerFields (r : Result) (b : List Byte) : Nat × List Int × Bool :=
  let dl := (leAt b 16 2 : Int) - r.l
  let dh := (leAt b 18 2 : Int) - r.h
  let dt := (leAt b 20 2 : Int) - r.t
  let tOk := !r.tInvalid && !bitOf (leAt b 6 2) 5
  (leAt b 0 4, [dl, dh, dt], decide (2 < dl.natAbs) || decide (2 < dh.natAbs) || (tOk && decide (2 < dt.natAbs)))

/-- FLAGS of a record (R299, R306). -/
def flagsOf (p : Piece) (r : Result) (diff missing : Bool) : Nat :=
  let tBad := r.tInvalid || p.feFault
  let range := (r.fit && (decide (r.l < 90 ∨ 600 < r.l) || decide (r.h < 60 ∨ 325 < r.h))) || (!tBad && decide (r.t < 1 ∨ 200 < r.t))
  let out (v : Rat) : Bool := decide (v < 200 ∨ 6000 < v)
  let speed := out p.vLe || out p.vTe
  let skew := decide (piFix < 18 * r.theta.natAbs)
  let edge := p.edge || !r.fit
  let legal := !(p.notLegal || range || speed || skew || edge)
  b2n (!legal) + 2 * b2n range + 4 * b2n speed + 8 * b2n skew + 16 * b2n edge + 32 * b2n r.tInvalid + 64 * b2n p.multi + 128 * b2n diff
    + 256 * b2n missing + 512 * b2n p.unsync.isSome + 1024 * b2n p.lull + 2048 * b2n p.feFault

/-- Bytes 0 to 63 of a record. -/
def recordHead (x : Section) (p : Piece) (r : Result) (mseq : Nat) (peer : Nat × List Int × Bool) (missing : Bool) : List Byte :=
  let d (k : Nat) : Nat := sByte (peer.2.1.getD k 0)
  layBytes 64 [(0, 4, mseq), (4, 2, 1),
    (6, 2, flagsOf { p with notLegal := p.notLegal || !x.paramOk } r peer.2.2 missing), (8, 4, p.label), (12, 4, p.lePitch), (16, 2, ofSigned 16 r.l),
    (18, 2, ofSigned 16 r.h), (20, 2, ofSigned 16 r.t), (22, 2, ofSigned 16 (divNearest (r.theta * 18000) piFix)), (24, 2, (ratNear p.vLe).toNat),
    (26, 2, (ratNear p.vTe).toNat), (28, 4, x.audit), (32, 4, x.fwVer), (36, 4, x.fwCrc), (40, 8, p.time), (48, 4, peer.1), (52, 1, d 0),
    (53, 1, d 1), (54, 1, d 2), (55, 1, x.params.side), (56, 4, x.keyId)]

/-- The record with its signature; the nonce is a free value (log 15). -/
def signed (x : Section) (head : List Byte) : List Byte × Section :=
  let f := x.takeFree
  let g := ecdsaSign (Config.sectionKey x.keyGen) f.1 (sha256 head)
  (head ++ beBytes 32 g.1 ++ beBytes 32 g.2, f.2)

/-- Notices that go with a record (R313). -/
def recordNotices (p : Piece) (mseq : Nat) (peer : Nat × List Int × Bool) (missing : Bool) : List MetIn :=
  let d (k : Nat) : Nat := sByte (peer.2.1.getD k 0)
  (if peer.2.2 then [.notice 5 mseq (d 0 + 256 * d 1 + 65536 * d 2)] else [])
    ++ (if missing then [.notice 6 mseq 0] else [])
    ++ (match p.unsync with | some ms => [.notice 7 mseq ms] | none => [])

/-- Thickness values no piece needs any more leave the list. -/
def prune (x : Section) : Section :=
  let base := match x.pieces.head? with | some p => p.first | none => x.pos
  let keep := base + min 0 x.params.dT - x.countsOf 70000 + (if 0 ≤ x.params.dT then x.params.dT else 0)
  { x with thick := x.thick.filter fun q => decide (keep ≤ q.1) }

/-- RECORD_SEND (R301, R303): the oldest piece whose result is ready, once its peer's record is there or 50 ms have passed. -/
def sendRecord (x : Section) (now : Nat) : Section × List MetIn :=
  match x.pieces with
  | p :: rest =>
    let wait := x.params.pairing && p.peer.isNone && (match p.ready with | some t => decide (now < t + 50000000) | none => true)
    if p.ready.isNone || wait then (x, [])
    else
      let y := { x with pieces := rest }
      if 4096 ≤ x.backlog then (y.prune, [.notice 8 0 0])
      else
        let r := x.measure p
        let missing := x.params.pairing && p.peer.isNone
        let peer := match p.peer with | some b => peerFields r b | none => (0, [0, 0, 0], false)
        let n := x.mseq + 1
        let sg := y.signed (x.recordHead p r n peer missing)
        let st := if 4096 ≤ x.store.length then x.store.eraseP fun r => r.acked else x.store
        (({ sg.2 with mseq := n, store := st ++ [⟨n, sg.1, false, some now⟩] } : Section).prune,
          .record n sg.1 :: recordNotices p n peer missing)
  | [] => (x, [])

/-- RECORD_RETRANSMIT (R222): the oldest record sent 5 ms ago or more without an acknowledgement. -/
def resend (x : Section) (now : Nat) : Option (Section × List MetIn) :=
  match x.store.find? fun r => !r.acked && (match r.sent with | some t => decide (t + 5000000 ≤ now) | none => true) with
  | some r =>
    some ({ x with store := x.store.map fun q => if q.mseq = r.mseq then { q with sent := some now } else q }, [.record r.mseq r.bytes])
  | none => none

/-- SECTION_ACK (R302). -/
def ack (x : Section) (mseq : Nat) : Section :=
  { x with store := x.store.map fun r => if r.mseq = mseq then { r with acked := true } else r
           highAck := if x.store.any fun r => r.mseq == mseq then max x.highAck mseq else x.highAck }

/-- A power failure ends every piece under way (R354): one whose trailing edge has not been found carries EDGE. -/
def endAll (x : Section) (now : Nat) : Section :=
  { x with pieces := x.pieces.map fun (p : Piece) => { p with closed := true, edge := p.edge || (!p.closed && p.gap == 0), ready := some (p.ready.getD now) } }

/-- A Squall ends the piece at the last used line; the record carries EDGE unless a trailing edge was found (R298, log 37). -/
def cutPiece (x : Section) (now : Nat) : Section := x.modOpen fun p => { p with closed := true, edge := p.edge || p.gap == 0, ready := some now }

/-! ### Queries (R304, R312) -/

/-- SECTION_QUERY: status, result bytes 40 to 63, what comes with them. -/
def answer (x : Section) (kind arg : Nat) : Section × Nat × List Byte × List Byte :=
  match kind with
  | 0 => (x, stOk, layBytes 24 [(0, 4, x.fwVer), (4, 4, x.fwCrc), (8, 4, x.audit), (12, 4, x.mseq), (16, 1, b2n x.sealOpen)], [])
  | 1 => (x, stOk, layBytes 24 [(0, 4, x.keyId)], x.keyBytes)
  | 2 =>
    match x.store.find? fun r => r.mseq == arg with
    | some r => (x, stOk, layBytes 24 [], r.bytes)
    | none => (x, stRejectedParam, layBytes 24 [], [])
  | 3 =>
    if x.labels.length < 16 then ({ x with labels := x.labels ++ [arg] }, stOk, layBytes 24 [], [])
    else (x, stRejectedState, layBytes 24 [], [])
  | _ => (x, stOk, layBytes 24 ((x.fe.temps.zipIdx).map fun t => (2 * t.2, 2, t.1)), [])

/-! ### Seal, audit, restart (R305 to R309) -/

/-- The seal opens: every piece under way is not legal. -/
def openSeal (x : Section) : Section := { x with sealOpen := true, pieces := x.pieces.map fun (p : Piece) => { p with notLegal := true } }

/-- The CRC-32C of the parameter block is checked (R306). The spec gives neither the block's layout nor where its CRC stands: the outcome is a free value (log 36). -/
def checkBlock (x : Section) : Section := let f := x.takeFree; { f.2 with paramOk := f.1 % 2 == 0 }

/-- The seal closes: the map and the parameters are stored and checked, the audit counter counts a difference, identification is sent. -/
def closeSeal (x : Section) : Section × List MetIn :=
  if !x.sealOpen then (x, [])
  else
    let differs := configOf x.regs != configOf x.stored || x.params != x.storedParams
    let x1 := { x with
      sealOpen := false, stored := configOf x.regs, storedParams := x.params, audit := if differs then x.audit + 1 else x.audit }
    let b := x1.checkBlock
    let c := b.checkPoly
    (c.1, (if b.paramOk then [] else [.notice 3 0 0]) ++ c.2 ++ [c.1.identPkt, .notice 2 0 c.1.audit])

/-- The stored form of a field written through the service port: what R6 says of its access code; a W1C bit that hardware sets in the same cycle stays set
(R7). -/
def portField (old new hw : Word) (f : FieldSpec) : Nat :=
  let fld : Fld := ⟨0, f.hi, f.lo⟩
  match f.access with
  | .rw | .rwl => fld.get new
  | .w1c => ((fld.get old) &&& (2 ^ fld.width - 1 - fld.get new)) ||| fld.get hw
  | _ => fld.get old

/-- A write to the map of R315 with the seal open. CH of MET_CONV_CH is ignored while SEQ_EN = 1. An input that becomes an enabled secondary waits from here
(R326). -/
def portMap (x : Section) (now off : Nat) (value hw : Word) : Section :=
  match RegMap.findIn RegMap.secRegs (0x200000 + off) with
  | some (r, _) =>
    let old := x.word (0x200000 + off)
    let v := if off = 4 ∧ x.on R.MET_CONV_CTRL.SEQ_EN then R.MET_CONV_CH.CH.put value (R.MET_CONV_CH.CH.get old) else value
    let w := r.fields.foldl (fun a f => (⟨0, f.hi, f.lo⟩ : Fld).put a (portField old v hw f)) (0 : Word)
    let y := x.setWord (0x200000 + off) w
    let i := (off - 0x10) / 4
    if 0x10 ≤ off ∧ off < 0x30 ∧ ¬(x.on (R.MET_IN_CFG.EN i) ∧ x.on (R.MET_IN_CFG.SEC i)) then y.modIn i fun n => { n with turn := now } else y
  | none => x

/-- A write to a parameter that is not in the map: the spec gives them no offsets, so the model's own stand above the map (log 38). -/
def portParam (x : Section) (k v : Nat) : Section :=
  let p := x.params
  let q : SecParams := match k with
    | 0 => { p with sL := v }
    | 1 => { p with sH := v }
    | 2 => { p with k := v }
    | 3 => { p with dT := toSigned 32 v }
    | 4 => { p with side := v % 2 }
    | 5 => { p with tapSel := v % 4 }
    | 6 => { p with pairing := bitOf v 0 }
    | _ =>
      if 8 ≤ k ∧ k < 16 then { p with peerX := p.peerX - p.peerX / 2 ^ (32 * (15 - k)) % 2 ^ 32 * 2 ^ (32 * (15 - k)) + v * 2 ^ (32 * (15 - k)) }
      else if 16 ≤ k ∧ k < 24 then { p with peerY := p.peerY - p.peerY / 2 ^ (32 * (23 - k)) % 2 ^ 32 * 2 ^ (32 * (23 - k)) + v * 2 ^ (32 * (23 - k)) }
      else p
  { x with params := q }

/-- The service port answers whether what it asked was done (R307). -/
def answerPort (x : Section) (done : Bool) : Section := { x with portAns := some done }

/-- SERVICE_PORT_WRITE (R306, R315): only with the seal open. -/
def portWrite (x : Section) (now off : Nat) (value hw : Word) : Section :=
  if !x.sealOpen || off % 4 != 0 then x.answerPort false
  else (if off < 0x200 then x.portMap now off value hw else x.portParam ((off - 0x200) / 4) value.toNat).answerPort true

/-- A read of the map through the service port (R315), only with the seal open: MET_CONV_CH gives the input in conversion and its gain in force. -/
def portRead (x : Section) (off : Nat) : Option Word :=
  if !x.sealOpen || off % 4 != 0 then none
  else if off = 4 then
    match x.fe.cur with
    | some i => some (R.MET_CONV_CH.CH.put (R.MET_CONV_CH.GAIN.put 0 (x.inp i).gain) i)
    | none => some (x.word (0x200000 + off))
  else match RegMap.findIn RegMap.secRegs (0x200000 + off) with
    | some _ => some (x.word (0x200000 + off))
    | none => some 0

/-- SECTION_FW_INSTALL (R307): the image runs from the next restart; a refusal is reported on the service port. -/
def install (x : Section) (image : List Byte) : Section :=
  if x.sealOpen && Config.sectionImageOk image then
    { x with newFw := some (Config.sectionImageVersion image % 2 ^ 32, (crc32c image).toNat), audit := x.audit + 1, portAns := some true }
  else x.answerPort false

/-- KEY_REGENERATION (R305). -/
def newKey (x : Section) : Section :=
  if x.sealOpen then { x with keyGen := x.keyGen + 1, audit := x.audit + 1 } else x

/-- The section restarts (R309): pieces and labels are dropped, the stored map and parameters are taken, a new image runs, the polynomial is checked,
identification and the notice are sent (detail 1 POR, 2 watchdog). -/
def restart (x : Section) (now cause : Nat) : Section × List MetIn :=
  let fw := match x.newFw with | some f => f | none => (x.fwVer, x.fwCrc)
  let x1 := { x with
    regs := x.stored, params := x.storedParams, fwVer := fw.1, fwCrc := fw.2, newFw := none, labels := [], pieces := [], thick := [], latches := []
    pos := 0, used := none, edgeTime := none, speed := 0, back := 0, learnN := 0, learnSum := 0, doc := List.replicate 960 false, line := none
    sync := none, portAns := none, store := x.store.map fun (r : SecRec) => { r with sent := none }
    fe := { FeSt.init with act := configOf x.stored, ins := List.replicate 8 { FeIn.init with turn := now } } }
  let x2 := { x1 with fe := { x1.fe with th := (upTo 4).map x1.thState } }
  let c := x2.checkPoly
  (c.1, c.2 ++ [c.1.identPkt, .notice 9 0 cause])

/-! ### The peer's record (R310) -/

/-- Distance between two low halves of a pitch number. -/
def pitchNear (a b : Nat) : Bool := let d := ahead (2 ^ 32) a b; decide (d ≤ 2 ∨ 2 ^ 32 - 2 ≤ d)

/-- SECTION_PEER: a record whose signature verifies goes to the piece it matches. -/
def takePeer (x : Section) (b : List Byte) : Section :=
  let ok := x.params.pairing && b.length == 128
    && ecdsaVerify (x.params.peerX, x.params.peerY) (sha256 (b.take 64)) (fromLe (sliceBytes b 64 32).reverse, fromLe (sliceBytes b 96 32).reverse)
  if ok then
    let pieces := x.pieces
    match pieces.findIdx? fun p => p.peer.isNone && pitchNear p.lePitch (leAt b 12 4) with
    | some i => { x with pieces := modAt pieces i fun p => { p with peer := some b } }
    | none => x
  else x

end Section

/-! ### The commands of the section -/

/-- The packet at the head of MET_CMD leaves it. -/
def Engine.dropCmd (e : Engine) : Engine := { e with met := { e.met with cmd := e.met.cmd.drop 1 } }

/-- SECTION_QUERY (R290, R312). -/
def execSectionQuery (s : State) : Answer :=
  .next (match s.eng.met.cmd with
    | .query id kind arg :: _ =>
      (s.onEng Engine.dropCmd).onSec fun x _ => let a := x.answer kind arg; (a.1, [.answer id kind a.2.1 a.2.2.1 a.2.2.2])
    | _ => s)

/-- SECTION_ACK (R302). -/
def execSectionAck (s : State) : Answer :=
  .next (match s.eng.met.cmd with
    | .ack m :: _ => (s.onEng Engine.dropCmd).onSec fun x _ => (x.ack m, [])
    | _ => s)

/-- SECTION_SYNC (R308): the section keeps the packet's device time with its own time at the packet's marked instant. -/
def execSectionSync (s : State) : Answer :=
  .next (match s.eng.met.cmd with
    | .sync d :: _ => (s.onEng Engine.dropCmd).onSec fun x now => ({ x with sync := some (now - (s.eng.now - d), d) }, [])
    | _ => s)

/-- SECTION_PEER (R310). -/
def execSectionPeer (s : State) : Answer :=
  .next (match s.eng.met.cmd with
    | .peer b :: _ => (s.onEng Engine.dropCmd).onSec fun x _ => (x.takePeer b, [])
    | _ => s)

/-- MET_CMD_REJ (R290): a packet outside the fixed set reached the section. MET_CMD holds packets of the set alone, so none of them is the one discarded. -/
def execMetCmdRej (s : State) : Answer := .next (s.onEng fun e => e.count R.MET_CMD_REJ.V 1)

/-- SECTION_TAP_LINE (R291). -/
def execSectionTapLine (side : Side) (s : State) : Answer :=
  .next (match s.eng.met.tap.getD side.val [] with
    | t :: _ =>
      (s.onEng fun e => { e with met := { e.met with tap := modAt e.met.tap side.val fun q => q.drop 1 } }).onSec fun x now => (x.tapLine now t, [])
    | [] => s)

/-- RECORD_SEND (R301, R303). -/
def execRecordSend (s : State) : Answer := .next (s.onSec fun x now => x.sendRecord now)

/-- RECORD_RETRANSMIT (R222). -/
def execRecordRetransmit (s : State) : Answer :=
  .next (match s.sec.resend s.eng.secNow with
    | some r => (s.onEng fun e => e.count R.MET_RETX_CNT.V 1).onSec fun _ _ => r
    | none => s)

/-- SEAL_OPEN (R306): at once in the section, in MET_STATUS and as MET_NOTICE. -/
def execSealOpen (s : State) : Answer :=
  .next (if s.sec.sealOpen then s
    else (s.onSec fun x _ => (x.openSeal, [])).onEng fun e =>
      (e.setSeal true).emit 0x17 1 0 0 none [(24, 4, 0), (28, 4, 0)])

/-- SEAL_CLOSE (R305, R306, R340): M11 ends with it. -/
def execSealClose (s : State) : Answer :=
  .next (if s.sec.sealOpen then ((s.onEng fun e => e.setSeal false).onSec fun x _ => x.closeSeal).onEng Engine.sealClosed else s)

/-- SERVICE_PORT_WRITE (R315). -/
def execServicePortWrite (off : BitVec 16) (word : PortWord) (s : State) : Answer :=
  .next (s.onSec fun x now => (x.portWrite now off.toNat word.value word.hwSet, []))

/-- SECTION_FW_INSTALL (R307). -/
def execSectionFwInstall (image : List Byte) (s : State) : Answer := .next (s.onSec fun x _ => (x.install image, []))

/-- KEY_REGENERATION (R305). -/
def execKeyRegeneration (s : State) : Answer := .next (s.onSec fun x _ => (x.newKey, []))

/-- SECTION_RESTART (R309). -/
def execSectionRestart (watchdog : Bool) (s : State) : Answer := .next (s.onSec fun x now => x.restart now (if watchdog then 2 else 1))

/-- ENCODER_EDGE (R165, R166): EN0's edges reach the section on a copy of their own (R288). -/
def execEncoderEdge (enc : Fin 4) (up : Bool) (s : State) : Answer :=
  .next ((s.onEng fun e => e.encEdge enc.val up).onSec fun x now => (if enc.val = 0 then x.encEdge now up else x, []))

/-- SQUALL_REST (R187, R298): a piece under way ends with it (log 37). -/
def execSquallRest (s : State) : Answer :=
  let t := s.onEng Engine.restSquall
  .next (t.onSec fun x now => (if t.eng.mode = .m9 ∧ s.eng.mode ≠ .m9 then x.cutPiece now else x, []))

/-- LINE_START (R39, R40, R42, R78): each converting side whose line starts, side 1 under FOLLOW too, sends the tap's header, at which the section latches its
position (R292). -/
def execLineStart (side : Side) (s : State) : Answer :=
  let t := s.onEng fun e => e.lineStart side.val
  let starts (k : Nat) : Bool := (s.eng.tg.getD k TimingGen.init).run.isNone && (((t.eng.tg.getD k TimingGen.init).run.map fun r => r.converting).getD false)
  .next (t.onSec fun x now => ((upTo 2).foldl (fun y k => if starts k then y.latch k now else y) x, []))

end Sys2Proof.Machine
end

