-- ==== Sys2Proof/Machine/Mirror.lean ====
section
/-!
DEFINITION. The engine's side of the section (14_metrology_section.md R302, R308 to R313, 10_clock_domains_queues.md R222): packets of MET_IN, the MET
ring, the query mailbox, the SYNC, and the record registers.
-/

namespace Sys2Proof.Machine

namespace Engine

/-- A packet for the section. -/
def metSend (e : Engine) (c : MetCmd) : Engine := { e with met := { e.met with cmd := e.met.cmd ++ [c] } }

/-- MET_NOTICE (R268, R313). -/
def notice (e : Engine) (kind mseq detail : Nat) : Engine := e.emit 0x17 kind 0 0 none [(24, 4, mseq), (28, 4, detail)]

/-! ### Queries (R312) -/

/-- The oldest query is asked, if none is outstanding. -/
def askNext (e : Engine) : Engine :=
  match e.mets.asked, e.mets.queries with
  | none, q :: _ =>
    ({ e with mets := { e.mets with asked := some (e.mets.nextId, e.now), nextId := e.mets.nextId + 1 } } : Engine).metSend
      (.query e.mets.nextId q.kind q.arg)
  | _, _ => e

/-- A query joins the queue. -/
def addQuery (e : Engine) (q : MetQuery) : Engine :=
  ({ e with mets := { e.mets with queries := e.mets.queries ++ [q] } } : Engine).askNext

/-- GO of the mailbox with a kind and an argument; a kind above 4 is refused without a packet. -/
def mailbox (e : Engine) (kind arg : Nat) : Engine :=
  if e.preBoot then e
  else
    let e1 := (e.wr R.MET_Q_CTRL.QUERY kind).wr R.MET_Q_ARG.V arg
    if 4 < kind then e1.wr R.MET_Q_CTRL.STATUS stRejectedParam
    else (e1.wr R.MET_Q_CTRL.BUSY 1).addQuery ⟨none, kind, arg⟩

/-- MET_Q_RES0–5 or MET_QREC or another run of registers takes bytes. -/
def putWords (e : Engine) (off : Nat) (b : List Byte) : Engine :=
  (upTo (b.length / 4)).foldl (fun x j => x.setWord (off + 4 * j) (BitVec.ofNat 32 (leAt b (4 * j) 4))) e

/-- The query asked completes with a status and its 24 result bytes, and the next one is asked. -/
def endQuery (e : Engine) (status : Nat) (data : List Byte) : Engine :=
  match e.mets.queries with
  | q :: rest =>
    let e1 := { e with mets := { e.mets with queries := rest, asked := none } }
    let e2 := match q.hseq with
      | some h => e1.finishHseq h status (if data.isEmpty then [] else [(40, 24, fromLe data)])
      | none =>
        ((e1.wr R.MET_Q_CTRL.STATUS status).wr R.MET_Q_CTRL.BUSY (b2n (rest.any fun x => x.hseq.isNone))).putWords (R.MET_Q_RES.V 0).off data
    e2.askNext
  | [] => e

/-- QUERY_TIMEOUT: 50 ms without an answer. -/
def queryTimeout (e : Engine) : Engine :=
  match e.mets.asked with
  | some (_, t) => if t + 50000000 ≤ e.now then e.endQuery stAborted [] else e
  | none => e

/-! ### Packets (R222) -/

/-- FE_FAULT of an input: at most one notice per 100 ms; what comes within it is ORed into the next (R336). -/
def feNote (e : Engine) (detail : Nat) : Engine :=
  let i := detail % 8
  let s := e.mets.fe.getD i (none, none)
  let free := s.2.isNone && (match s.1 with | some t => decide (t + 100000000 ≤ e.now) | none => true)
  let put (e : Engine) (v : Option Nat × Option Nat) : Engine := { e with mets := { e.mets with fe := modAt e.mets.fe i fun _ => v } }
  if free then (put e (some e.now, none)).notice 4 0 detail
  else put e (s.1, some (s.2.getD 0 ||| detail))

/-- FE_FAULT_NOTICE_HOLDOFF. -/
def feHoldoff (e : Engine) (i : Nat) : Engine :=
  match e.mets.fe.getD i (none, none) with
  | (some t, some d) =>
    if t + 100000000 ≤ e.now then
      ({ e with mets := { e.mets with fe := modAt e.mets.fe i fun _ => (some e.now, none) } } : Engine).notice 4 0 d
    else e
  | _ => e

/-- A notice of the section; NO_RECORD is counted and emitted at most once per 100 ms (R301). -/
def takeNotice (e : Engine) (kind mseq detail : Nat) : Engine :=
  if kind = 4 then e.feNote detail
  else if kind = 8 then
    let e1 := e.count R.MET_NOREC_CNT.V 1
    let free := match e.mets.noRec with | some t => decide (t + 100000000 ≤ e.now) | none => true
    if free then ({ e1 with mets := { e1.mets with noRec := some e.now } } : Engine).notice 8 0 (e1.rd R.MET_NOREC_CNT.V) else e1
  else e.notice kind mseq detail

/-- A frame goes out on the pair link: heartbeat, delta, record or notice (R362, R365). -/
def pairSend (e : Engine) (what : Option DeltaFor) (body : PairBody) : Engine := { e with pair := sendFrame e.pair e.now what body }

/-- The delta of a record (R366): the MET ring and the highest MSEQ as they will stand once it is written, and the image of the leeward's state after it. -/
def recordItems (e : Engine) (mseq : Nat) : List MirrorItem × MirrorImage :=
  let im := e.pair.image
  let old : Engine := { e with regs := im.regs }
  let after := if old.ringState 2 = 1 then (old.setDevIdx 2 ((old.devIdx 2 + 1) % old.ringSize 2)).wr (R.UHP_R_SEQ.V 2) mseq else old
  (hostItems (wordDiff hostMirrored after.regs im.regs) ++ [.mseq mseq], { im with regs := after.regs })

/-- The delta of a record goes to the leeward. -/
def sendRecordDelta (e : Engine) (mseq : Nat) : Engine :=
  let d := e.recordItems mseq
  ({ e with pair := { e.pair with image := d.2 } } : Engine).pairSend (some .record) (.delta d.1)

/-- A record is taken if its MSEQ follows the last one held or written (R222, R302); another is discarded and comes again. Under UHP-1 one at a time is
held. In a pair it goes to the leeward first (R366), and under PL-2 to the peer's section, where the section's parameters enable pairing (R310, R363). -/
def takeRecord (e : Engine) (mseq : Nat) (bytes : List Byte) (peer : Bool) : Engine :=
  let want := e.status.lastMseq + e.mets.recv.length + 1
  if mseq = want ∧ (e.ver ≠ 1 ∨ e.mets.recv.isEmpty) then
    let e1 : Engine := { e with mets := { e.mets with recv := e.mets.recv ++ [(mseq, bytes, e.mirrorFirst)], latest := some (mseq, bytes) } }
    let e2 := if e.mirrorFirst then e1.sendRecordDelta mseq else e1
    if peer && e.pair.linkUp && e.pair.plver == 2 then e2.pairSend none (.peerRecord bytes) else e2
  else e

/-- Temperatures: each takes its value; one refreshed is no longer stale (R76). -/
def takeTemps (e : Engine) (t : List (Nat × Bool)) : Engine :=
  (t.zipIdx.foldl (fun x a =>
    let x1 := x.wr (R.MET_TEMP.T a.2) a.1.1
    { x1 with cal := { x1.cal with
      rtd := modAt x1.cal.rtd a.2 fun _ => a.1.1
      rtdTime := if a.1.2 then modAt x1.cal.rtdTime a.2 fun _ => some x.now else x1.cal.rtdTime } }) e).markStale

/-- Threshold states: MET_TH follows, and THRESHOLD reports each change (R268, R288). -/
def takeThresholds (e : Engine) (states : Nat) (values : List Nat) : Engine :=
  let was := e.rd R.MET_TH.V
  (upTo 4).foldl (fun x n =>
    if bitOf states n = bitOf was n then x
    else x.emit 0x10 n 0 (b2n (bitOf states n)) none [(24, 4, states), (28, 4, values.getD n 0)]) (e.wr R.MET_TH.V states)

/-- What a packet carries; `peer` says whether the section sends its records to the peer. -/
def takeBody (e : Engine) (peer : Bool) : MetIn → Engine
  | .record m b => e.takeRecord m b peer
  | .temps t => e.takeTemps t
  | .thresholds st v => e.takeThresholds st v
  | .ident fw crc audit key pub _ =>
    (((((e.wr R.MET_FWVER.V fw).wr R.MET_FWCRC.V crc).wr R.MET_AUDIT.V audit).wr R.MET_KEY_ID.V key)).putWords (R.MET_PUBKEY.V 0).off pub
  | .answer id kind status data extra =>
    match e.mets.asked with
    | some (n, _) =>
      if n = id then
        let e1 := if kind = 1 then e.putWords (R.MET_PUBKEY.V 0).off extra
          else if kind = 2 ∧ status = stOk then e.putWords (R.MET_QREC.V 0).off extra else e
        e1.endQuery status data
      else e
    | none => e
  | .notice k m d => e.takeNotice k m d

/-- The mirror of R311. -/
def mirror (e : Engine) (s : MetStat) : Engine :=
  ((((((e.wr R.MET_STATUS.PRESENT 1).wr R.MET_STATUS.SEAL_OPEN (b2n s.sealOpen)).wr R.MET_STATUS.TIME_SYNC (b2n s.timeSync)).wr R.MET_STATUS.FULL
    (b2n s.full)).wr R.MET_STATUS.FE_FAULT (b2n s.feFault)).wr R.MET_STATUS.BACKLOG s.backlog).wr R.MET_LABELS.V s.labels

/-- The oldest packet of MET_IN; a word read with a poison tag is taken as it stands (R211, log 143). -/
def metTake (e : Engine) : Engine :=
  match e.met.inq with
  | p :: rest =>
    let e1 : Engine := { e with met := { e.met with inq := rest }, mets := { e.mets with lastPkt := e.now } }
    ((e1.wr (R.QUE_LEVEL.LEVEL 68) (32 * rest.length)).mirror p.stat).takeBody p.stat.pairing p.body
  | [] => e

/-- No packet for 1 s (R309). -/
def silent (e : Engine) : Engine :=
  if e.on R.MET_STATUS.PRESENT && decide (e.mets.lastPkt + 1000000000 ≤ e.now) then (e.wr R.MET_STATUS.PRESENT 0).notice 10 0 0 else e

/-- SYNC every 10 ms (R308). -/
def syncSend (e : Engine) : Engine :=
  if e.mets.lastSync + 10000000 ≤ e.now then
    ({ e with mets := { e.mets with lastSync := e.now } } : Engine).metSend (.sync e.now)
  else e

/-! ### The MET ring and the record registers (R240, R302) -/

/-- A record is written or read: it counts as the last, and the section hears of it. -/
def recordDone (e : Engine) (m : Nat) : Engine :=
  (({ e with mets := { e.mets with recv := e.mets.recv.drop 1 }, status := { e.status with lastMseq := m } } : Engine).wr R.MET_LAST_MSEQ.V m).metSend (.ack m)

/-- MET_RING_WRITE. -/
def writeRecord (e : Engine) : Engine :=
  match e.mets.recv with
  | (m, b, held) :: _ =>
    if e.canIssue && e.ringRoom 2 && !held then
      ((((e.writeEntry 2 b .met).wr (R.UHP_R_SEQ.V 2) m).recordDone m)).noteVector 1
    else e
  | [] => e

/-- A read of MET_REC0 latches the latest record. -/
def readRec0 (e : Engine) : Engine :=
  let e1 := match e.mets.latest with
    | some (m, b) => ({ e with mets := { e.mets with latched := some m } } : Engine).putWords (R.MET_REC.V 0).off b
    | none => e
  { e1 with rsp := leBytes 4 (e1.rd (R.MET_REC.V 0)) }

/-- A read of MET_REC31 acknowledges under UHP-1 the record that MET_REC holds. -/
def readRec31 (e : Engine) : Engine :=
  let e1 := match e.mets.latched, e.mets.recv with
    | some m, (k, _, _) :: _ => if e.ver = 1 ∧ m = k then e.recordDone m else e
    | _, _ => e
  { e1 with rsp := leBytes 4 (e.rd (R.MET_REC.V 31)) }

end Engine

/-- QUERY_IDENT (R312). -/
def execQueryIdent (s : State) : Answer := .next (s.onEng fun e => e.mailbox 0 (e.rd R.MET_Q_ARG.V))

/-- QUERY_PUBKEY (R312). -/
def execQueryPubkey (s : State) : Answer := .next (s.onEng fun e => e.mailbox 1 (e.rd R.MET_Q_ARG.V))

/-- QUERY_RECORD (R312): `mseq` is what MET_Q_ARG holds. -/
def execQueryRecord (mseq : Word) (s : State) : Answer := .next (s.onEng fun e => e.mailbox 2 mseq.toNat)

/-- QUERY_LABEL (R304). -/
def execQueryLabel (label : Word) (s : State) : Answer := .next (s.onEng fun e => e.mailbox 3 label.toNat)

/-- QUERY_TEMPS (R312). -/
def execQueryTemps (s : State) : Answer := .next (s.onEng fun e => e.mailbox 4 (e.rd R.MET_Q_ARG.V))

/-- QUERY_TIMEOUT (R312). -/
def execQueryTimeout (s : State) : Answer := .next (s.onEng Engine.queryTimeout)

/-- MET_IN_PACKET (R222). -/
def execMetInPacket (s : State) : Answer := .next (s.onEng Engine.metTake)

/-- MET_RING_WRITE (R240). -/
def execMetRingWrite (s : State) : Answer := .next (s.onEng Engine.writeRecord)

/-- MET_REC0_READ (R302). -/
def execMetRec0Read (s : State) : Answer := .next (s.onEng fun e => e.reading Engine.readRec0)

/-- MET_REC31_READ (R302). -/
def execMetRec31Read (s : State) : Answer := .next (s.onEng fun e => e.reading Engine.readRec31)

/-- SYNC_SEND (R308). -/
def execSyncSend (s : State) : Answer := .next (s.onEng Engine.syncSend)

/-- SECTION_SILENT (R309). -/
def execSectionSilent (s : State) : Answer := .next (s.onEng Engine.silent)

/-- FE_FAULT_NOTICE_HOLDOFF (R336). -/
def execFeFaultNoticeHoldoff (n : Fin 8) (s : State) : Answer := .next (s.onEng fun e => e.feHoldoff n.val)

end Sys2Proof.Machine
end

