-- ==== Sys2Proof/Machine/Resets.lean ====
section
/-!
DEFINITION. Resets, boot, firmware slots, power failure (16_modes_resets_power.md R345 to R356, R401), and the PCIe link (11_host_link_rings.md R228 to R232).
-/

namespace Sys2Proof.Machine

namespace Engine

/-! ### A reset is requested (R345, R346) -/

/-- A pin holds the module in M0. -/
def pinHeld (e : Engine) : Bool := e.pins.rstLow || e.pins.perstLow

/-- A reset request: imaging ends here, the job counts as ended, the heartbeat stops (R346, R359); one that meets another joins it (R356). -/
def requestReset (e : Engine) (k : ResetKind) : Engine :=
  if e.pins.failed then e
  else
    match e.resetting with
    | some r => { e with resetting := some { r with kinds := r.kinds ++ [k] } }
    | none =>
      let e1 := (e.stopConversion 0).stopConversion 1
      { e1 with resetting := some ⟨[k]⟩, job := { e1.job with isOpen := false, ended := true }, pair := { e1.pair with hbStopped := true } }

/-- SYS_RESET written (R339): without the key the write is ignored. -/
def softReset (e : Engine) (value : Word) : Engine :=
  if R.SYS_RESET.KEY.get value ≠ 0x5AFE then e.writeIgnored R.SYS_RESET.SOFT.off
  else if R.SYS_RESET.SOFT.get value = 1 then e.requestReset .soft else e

/-- The arbiter watchdog's reset is due: 100 ms after its Squall reached rest (R204, R345), or after it fired with AX0 at rest (log 148). -/
def arbResetDue (e : Engine) : Bool :=
  (match e.squall with
    | some q => q.arbiter && q.rest && decide (q.restTime + 100000000 ≤ e.now)
    | none => false)
  || e.qdr.wdogRest.any fun t => decide (t + 100000000 ≤ e.now)

/-! ### What a reset keeps (R348) -/

/-- Registers every reset but POR keeps whole. -/
def keptNames : List String :=
  ["UHP_EPOCH", "UHP_LAST_DSEQ", "UHP_LOST_EVT", "UHP_NOK_CNT", "UHP_R_SEQ", "UHP_CMDH", "UHP_NOKH", "AFE_CH_TRIM", "ILL_CUR", "CAL_REF_CORR",
   "CAL_GEN", "CAL_TREF_AFE", "CAL_TREF_RTD"]

/-- Statistics counters that are not read-clear. -/
def counterNames : List String :=
  ["DMA_WR_LO", "DMA_WR_HI", "QDR_SCRUB_PASS", "ARB_GRANTS", "ARB_WAITCYC_LO", "ARB_WAITCYC_HI", "ARB_MAXWAIT", "ARB_PREEMPT", "LT_DISCARD"]

/-- Whether a reset keeps a register whole: `wdog`, `perst` and `flr` say which kinds it has. -/
def keeps (wdog perst flr : Bool) (off : Nat) : Bool :=
  decide (0x20000 ≤ off) ||
    match RegMap.find off with
    | some (r, _) =>
      keptNames.contains r.name || (wdog && (counterNames.contains r.name || r.fields.any fun f => f.access == .rc))
        || (!perst && r.name == "UHP_LINK") || (flr && r.name == "SYS_FW")
    | none => false

/-- Values that live in flash. -/
def loadFlash (e : Engine) : Engine :=
  (((((e.wr R.SYS_FW_PREF.V e.flash.pref).wr R.QDR_MAP_REQ.OUT e.flash.mapReq).wr R.PAIR_CTRL.EN (e.flash.pairCfg / 2 % 2)).wr R.PAIR_CTRL.PREF
    (e.flash.pairCfg % 2)).wr R.SYS_PFAIL_CNT.V e.flash.pfailCnt).wr R.PAIR_TAKEOVERS.V e.flash.takeovers

/-- What a reset leaves of registers it keeps in part, from the state before. -/
def keepParts (e old : Engine) (perst : Bool) : Engine :=
  let e1 := if perst then e else e.wr R.UHP_STATUS.LINK_UP (old.rd R.UHP_STATUS.LINK_UP)
  let bank (v : Nat) : Nat := if v = 2 then 0 else v
  let e2 := (upTo 64).foldl (fun x c =>
    ((x.wr (R.SHD_CH_BANK.ACTIVE c) (old.rd (R.SHD_CH_BANK.ACTIVE c))).wr (R.SHD_CH_BANK.ASTATE c) (bank (old.rd (R.SHD_CH_BANK.ASTATE c)))).wr
      (R.SHD_CH_BANK.BSTATE c) (bank (old.rd (R.SHD_CH_BANK.BSTATE c)))) e1
  let e3 := (upTo 104).foldl (fun x q => x.wr (R.QUE_LEVEL.HWM q) (old.rd (R.QUE_LEVEL.HWM q))) e2
  ((e3.wr R.CAL_STATUS.CAL_INVALID (old.rd R.CAL_STATUS.CAL_INVALID)).wr R.CAL_STATUS.UNTRACED (old.rd R.CAL_STATUS.UNTRACED)).wr R.CAL_STATUS.COPY
    (old.rd R.CAL_STATUS.COPY)

/-- SYS_RESET_CAUSE of reset kinds. -/
def causeWord (ks : List ResetKind) (pfail : Nat) : Nat :=
  let has (k : ResetKind) (bit : Nat) : Nat := if ks.contains k then 2 ^ bit else 0
  pfail * 128 + has .perst 1 + has .flr 2 + (if ks.contains .soft || ks.contains .rstN then 8 else 0) + has .wdogEng 4 + has .wdogArb 5 + has .rstN 8

/-- A flash operation that a reset or a power failure cuts short leaves its slot torn; a record copy being written is invalid (R356). -/
def tearFlash (e : Engine) : Engine :=
  let e1 := match e.flash.nvmOp with
    | some o =>
      if o.op = 1 ∨ o.op = 2 then
        { e with flash := { e.flash with slots := modAt e.flash.slots o.slot fun s => { s with torn := true, verified := false, factory := false } } }
      else e
    | none => e
  { e1 with
    flash := { e1.flash with nvmOp := none }
    cal := match e1.cal.writing with
      | some (c, _) => { e1.cal with writing := none, copies := modAt e1.cal.copies c fun _ => none }
      | none => e1.cal }

/-! ### The reset proper (R346 to R349) -/

/-- Every event not yet written is lost (R250). -/
def loseAll (e : Engine) : Nat → Engine
  | 0 => e
  | n + 1 => loseAll e.loseOldest n

/-- A command without CMD_DONE gets its entry: status ABORTED, a DSEQ that counts as lost (R347). -/
def abortEntry (e : Engine) (c : OpenCmd) : Engine :=
  let d := (e.evt.dseq + 1) % 2 ^ 32
  let l := match e.evt.lost with
    | none => (1, d, d)
    | some (n, f, _) => (n + 1, f, d)
  let e1 := { e with evt := { e.evt with dseq := d, lost := some l }, opens := e.opens.filter fun o => o != c }
  (((e1.count R.UHP_LOST_EVT.V 1).wr R.UHP_LAST_DSEQ.V d).syncOpen).cmdHistory c.hseq d stAborted c.code

/-- The books take in the lost events that the leeward has not acknowledged; nothing waits for it any more. -/
def freeEvents (e : Engine) : Engine :=
  let e1 := e.evt.unacked.foldl (fun x ev => x.settle ev) e
  { e1 with evt := { e1.evt with unacked := [], queue := e1.evt.queue.map fun (ev : Ev) => { ev with held := false } } }

/-- The books of the commands and events close. -/
def closeBooks (e : Engine) : Engine :=
  let e0 := e.freeEvents
  let e1 := e0.loseAll e0.evt.queue.length
  e1.opens.foldl (fun x c => x.abortEntry c) e1

/-- The state after a reset of given kinds: what R348 keeps over the reset values. -/
def afterReset (e : Engine) (ks : List ResetKind) : Engine :=
  let wdog := ks.all fun k => k == .wdogEng || k == .wdogArb
  let perst := ks.contains .perst
  let flr := ks.all fun k => k == .flr
  let base : Engine := { Engine.reset with
    regs := e.regs.filter fun c => keeps wdog perst flr c.1
    mode := e.mode, now := e.now, jump := e.jump, free := e.free, rsp := e.rsp, pins := e.pins, flash := e.flash
    evt := { queue := [], dseq := e.evt.dseq, lost := e.evt.lost, unacked := [] }
    link := if perst then { LinkSt.init with out := e.link.out }
      else if ks.contains .flr then
        { LinkSt.init with out := e.link.out, mps := e.link.mps, aer := e.link.aer, header := e.link.header, aerCor := e.link.aerCor,
                           aerUnc := e.link.aerUnc, ecrcGen := e.link.ecrcGen, ecrcCheck := e.link.ecrcCheck }
      else { e.link with vec := LinkSt.init.vec }
    status := { Engine.reset.status with seq := e.status.seq, heartbeat := e.status.heartbeat, lastMseq := e.status.lastMseq }
    mot := if wdog then { MotionSt.init with discards := e.mot.discards } else MotionSt.init
    qdr := if wdog then { QdrSt.init with ports := e.qdr.ports.map fun (p : PortSt) => { PortSt.init with live := p.live } } else QdrSt.init
    pair := { PairSt.init with peerOwn := e.pair.peerOwn, linkUp := e.pair.linkUp, plver := e.pair.plver, lastPeer := e.pair.lastPeer,
                               peerPref := e.pair.peerPref }
    cal := { CalSt.init with copies := e.cal.copies, chans := e.cal.chans, vcalref := e.cal.vcalref }
    met := { e.met with inq := [] } }
  ((base.keepParts e perst).loadFlash).wr R.SYS_RESET_CAUSE.word (causeWord ks (e.rd R.SYS_RESET_CAUSE.PFAIL))

/-- The kinds of a reset: that of the engine watchdog sets both cause bits where the arbiter watchdog has fired too (R356). -/
def bothWatchdogs (e : Engine) (ks : List ResetKind) : List ResetKind :=
  if ks.contains .wdogEng && !ks.contains .wdogArb && e.on R.ARB_WDOG_STATUS.FIRED then ks ++ [.wdogArb] else ks

/-- RESET_PROPER: AX0 is at rest; M0 and M1 are passed, unless a pin holds M0. A full calibration is abandoned before anything is kept (R401); a
fade ends with its new bank in force (R348); a swap whose n0 has not been reached leaves its banks as they are. -/
def resetProper (e : Engine) (kinds : List ResetKind) : Engine :=
  let ks := e.bothWatchdogs kinds
  let e1 := if e.on R.CAL_STATUS.FULL_OPEN || e.cal.full.kind != 0 then e.dropFull else e
  let e2 := e1.tearFlash.closeBooks
  let e3 := match e2.shd.fade with | some w => if w.begun then e2.swapActive w.mask else e2 | none => e2
  let e4 := (e3.afterReset ks).changeMode .m0 1 none
  if e4.pinHeld then e4 else e4.changeMode .m1 1 none

/-- A pin is released: M0 is left (R345, R356). -/
def releasePin (e : Engine) : Engine :=
  if e.mode = .m0 ∧ !e.pinHeld ∧ !e.pins.failed ∧ e.resetting.isNone then e.changeMode .m1 1 none else e

/-- The engine after a POR (R348, R249): EPOCH is the count of POR that flash keeps. -/
def porReset (e : Engine) : Engine :=
  let t := e.tearFlash
  let n := (e.flash.porCount + 1) % 2 ^ 32
  let base : Engine := { Engine.reset with
    free := e.free
    pins := { Engine.reset.pins with rstLow := e.pins.rstLow, perstLow := e.pins.perstLow }
    flash := { t.flash with porCount := n, pfailFlag := false }
    link := { LinkSt.init with out := e.link.out }
    pair := { PairSt.init with peerOwn := e.pair.peerOwn, peerPref := e.pair.peerPref }
    cal := { CalSt.init with copies := t.cal.copies } }
  let e1 := ((base.loadFlash).wr R.UHP_EPOCH.V n).wr R.SYS_RESET_CAUSE.PFAIL (b2n e.flash.pfailFlag)
  if e1.pinHeld then { (e1.setWord (R.QUE_LEVEL.LEVEL 64).off (RegMap.resetWord (R.QUE_LEVEL.LEVEL 64).off)) with mode := .m0, evt := EvtQueue.init }
  else e1

/-! ### Boot (R350) -/

/-- A firmware slot passes its check. -/
def slotOk (e : Engine) (k : Nat) : Bool :=
  match e.flash.slots[k]? with
  | some s => !s.torn && (s.factory || Config.imageOk s.bytes)
  | none => false

/-- The slot the boot ROM runs: the preferred one, else the other. -/
def bootSlot (e : Engine) (readable : Bool) : Option Nat :=
  let p := e.flash.pref
  if !readable then none else if e.slotOk p then some p else if e.slotOk (1 - p) then some (1 - p) else none

/-- A slot is loaded: SYS_FW; the other one failed if it was preferred. -/
def runSlot (e : Engine) (k : Nat) (f : BootFindings) : Engine :=
  let fell := k != e.flash.pref
  let e1 := ((((e.wr R.SYS_FW.SLOT k).wr R.SYS_FW.FALLBACK (b2n fell)).wr R.SYS_FW.MAJOR f.major.toNat).wr R.SYS_FW.MINOR f.minor.toNat).wr R.SYS_FW.BUILD
    f.build.toNat
  { e1 with flash := { e1.flash with running := k, fallback := if fell then some e.flash.pref else none } }

/-- M3 is entered, as a single module or a windward: references settle, the SDBs are read. -/
def enterM3 (e : Engine) (cause : Nat) : Engine :=
  let e1 := ((e.changeMode .m3 cause none).enterIdle).powerAfe false
  (e1.sdbStart 0).sdbStart 1

/-- M10 is entered as leeward (R340, R360). The supplies are on there (R382): a module that comes from its boot, without having entered M3, reads its straps here
(DEDUCED, log 58). -/
def enterM10 (e : Engine) : Engine :=
  let e1 := e.changeMode .m10 10 none
  ({ e1 with pair := { e1.pair with role := 2, drive := false, bootRole := false, hbStopped := false } } : Engine).enterIdle.powerAfe false

/-- The firmware runs: QDR test and mapping, record load after a POR, units, the last MSEQ from the section (R302), and the role. -/
def runFirmware (e : Engine) (f : BootFindings) (acked : Nat) (sealOpen : Bool) : Engine :=
  let e1 := (((e.wr R.SYS_UNITS.FLASH (b2n f.flashReadable)).wr R.SYS_UNITS.SECTION (b2n f.sectionAnswers)).wr R.SYS_UNITS.AFE0
    (b2n (f.afePresent.getD 0 false))).wr R.SYS_UNITS.AFE1 (b2n (f.afePresent.getD 1 false))
  let e2 := e1.mapDies f.dieFails
  let e3 := if e2.on R.SYS_RESET_CAUSE.POR then e2.selectRecord else e2
  let e4 : Engine := if f.sectionAnswers then
      { ((e3.wr R.MET_LAST_MSEQ.V acked).wr R.MET_STATUS.SEAL_OPEN (b2n sealOpen)) with status := { e3.status with lastMseq := acked } }
    else e3
  let e5 : Engine := { e4 with cal := { e4.cal with bootTime := e.now }, pins := { e4.pins with bootTime := e.now }, pair := { e4.pair with peerOwn := f.peerOwn } }
  if !e5.pairEnabled then e5.enterM3 2
  else if e5.pair.peerOwn then let x := e5.enterM10; { x with pair := { x.pair with st := 1, stTime := x.now } }
  else { e5 with pair := { e5.pair with bootRole := true, st := 1, stTime := e5.now } }

/-- BOOT_COMPLETE in M1: a slot is selected unless the reset was an FLR, which reloads no firmware; without one, recovery. -/
def bootComplete (e : Engine) (f : BootFindings) (acked : Nat) (sealOpen : Bool) : Engine :=
  if e.mode ≠ .m1 ∨ e.resetting.isSome ∨ e.on R.SYS_FW.RECOVERY ∨ e.pair.bootRole then e
  else
    let flr := (e.rd R.SYS_RESET_CAUSE.word) % 128 == 4 && !e.on R.SYS_RESET_CAUSE.RST_N
    if flr then e.runFirmware f acked sealOpen
    else
      match e.bootSlot f.flashReadable with
      | some k => (e.runSlot k f).runFirmware f acked sealOpen
      | none => (e.wr R.SYS_FW.RECOVERY 1).wr R.SYS_UNITS.FLASH (b2n f.flashReadable)

/-! ### Power failure (R354) -/

/-- Events already built are written as far as the ring has room. -/
def drainEvents (e : Engine) : Nat → Engine
  | 0 => e
  | n + 1 => drainEvents e.writeEvent n

/-- PFAIL: the sequence to its end in M0. -/
def powerFail (e : Engine) : Engine :=
  if e.pins.failed then e
  else
    let e1 := e.drainEvents e.evt.queue.length
    let e2 := (if e1.canStatus then e1.putStatus false false else e1).tearFlash
    let e3 := (e2.stopConversion 0).stopConversion 1
    let n := (e3.flash.pfailCnt + 1) % 2 ^ 32
    { ((e3.wr R.SYS_PIN.PFAIL_OUT 1).wr R.SYS_PFAIL_CNT.V n) with
      mode := .m0, pins := { e3.pins with failed := true }, resetting := none, squall := none
      flash := { e3.flash with pfailCnt := n, pfailFlag := true }
      mot := { e3.mot with v := 0, acc := 0 }, pac := PacerSt.init, feed := FeedSt.init, job := { JobSt.init with ended := true }
      trans := Engine.reset.trans
      pair := { e3.pair with drive := false, hbStopped := true }
      afe := [AfeSide.init, AfeSide.init] }

/-! ### Firmware slots (R351) -/

/-- The mailbox takes operations: in M3, in M11 (R343) and in recovery. -/
def nvmOpen (e : Engine) : Bool := e.modeIn [3, 11] || (e.mode == .m1 && e.on R.SYS_FW.RECOVERY)

/-- RESULT of an operation that ends at once. -/
def nvmResult (e : Engine) (v : Nat) : Engine := (e.wr R.NVM_STATUS.RESULT v).wr R.NVM_STATUS.BUSY 0

/-- The bytes of NVM_BUF that a WRITE programs. -/
def nvmData (e : Engine) : List Byte :=
  (upTo (e.rd R.NVM_LEN.V)).map fun i => BitVec.ofNat 8 ((e.rd (R.NVM_BUF.V (i / 4))) / 256 ^ (i % 4))

/-- GO with an operation: 1 ERASE, 2 WRITE, 3 VERIFY, 4 ACTIVATE; another code completes BAD_PARAM (DESIGN CHOICE, log 163). The operation runs with slot, offset
and data as they are here. GO while one is in progress does nothing. -/
def nvmGo (e : Engine) (op : Nat) : Engine :=
  let e1 := e.wr R.NVM_CTRL.OP op
  if e.on R.NVM_STATUS.BUSY then e1
  else
    let k := e.rd R.NVM_SLOT.V
    let len := e.rd R.NVM_LEN.V
    let off := e.rd R.NVM_OFFSET.V
    let running := !e.on R.SYS_FW.RECOVERY && k == e.flash.running
    let bad := op == 0 || decide (4 < op) || op == 2 && (decide (len < 4 ∨ 2048 < len ∨ len % 4 ≠ 0 ∨ off % 4 ≠ 0 ∨ 16777216 < off + len))
    let verified := match e.flash.slots[k]? with | some s => s.verified | none => false
    if !e.nvmOpen || running || (op == 4 && !verified) then e1.nvmResult 1
    else if bad then e1.nvmResult 2
    else
      let unverify := op == 1 || op == 2
      { (e1.wr R.NVM_STATUS.BUSY 1) with flash := { e1.flash with
        nvmOp := some ⟨op, k, off, if op = 2 then e.nvmData else []⟩
        slots := if unverify then modAt e1.flash.slots k fun s => { s with verified := false } else e1.flash.slots } }

/-- What an erased byte of a slot reads as. -/
def blank : Nat → Byte := fun _ => 0xFF

/-- The NVM operation in progress ends, well or not. -/
def nvmDone (e : Engine) (ok : Bool) : Engine :=
  match e.flash.nvmOp with
  | none => e
  | some o =>
    let k := o.slot
    let e1 : Engine := { e with flash := { e.flash with nvmOp := none } }
    let put (f : SlotSt → SlotSt) : Engine := { e1 with flash := { e1.flash with slots := modAt e1.flash.slots k f } }
    match o.op with
    | 1 => if ok then (put fun _ => ⟨[], false, false, false⟩).nvmResult 0 else (put fun s => { s with torn := true, factory := false }).nvmResult 3
    | 2 =>
      if ok then (put fun s => { s with bytes := Sparse.setMany blank s.bytes o.off o.data, factory := false }).nvmResult 0
      else (put fun s => { s with torn := true, factory := false }).nvmResult 3
    | 3 => if !ok then e1.nvmResult 3 else if e1.slotOk k then (put fun s => { s with verified := true }).nvmResult 0 else e1.nvmResult 4
    | _ =>
      if ok then (({ e1 with flash := { e1.flash with pref := k } } : Engine).wr R.SYS_FW_PREF.V k).nvmResult 0 else e1.nvmResult 3

/-! ### The link -/

/-- UHP_LINK takes the negotiated values (R228). -/
def putLink (e : Engine) (speed width : Nat) : Engine :=
  ((e.wr R.UHP_LINK.SPEED speed).wr R.UHP_LINK.WIDTH width).wr R.UHP_LINK.DEGRADED (b2n (speed != 0 && decide (speed < 5 ∨ width < 8)))

/-- A speed and width that a link can train to. -/
def linkValid (speed width : Nat) : Bool := speed != 0 && ([1, 2, 4, 8] : List Nat).contains width

/-- LINK_UP: after a link down without PERST# the function is acted on as by an FLR (R229). -/
def linkComes (e : Engine) (speed width : Nat) : Engine :=
  if e.pins.perstLow || e.pins.failed || !linkValid speed width || e.on R.UHP_STATUS.LINK_UP then e
  else
    let e1 := (e.wr R.UHP_STATUS.LINK_UP 1).putLink speed width
    if e1.link.flrOnUp then ({ e1 with link := { e1.link with flrOnUp := false } } : Engine).requestReset .flr else e1

/-- LINK_DOWN (R228, R229). -/
def linkGoes (e : Engine) : Engine :=
  if !e.on R.UHP_STATUS.LINK_UP then e
  else
    let e1 := (e.wr R.UHP_STATUS.LINK_UP 0).putLink 0 0
    if e.pins.perstLow then e1 else { e1 with link := { e1.link with flrOnUp := true } }

/-- An error received (R232). An ECRC Error is one only where ECRC is checked. -/
def aerError (e : Engine) (k : AerKind) (header : Option (List Word)) : Engine :=
  if k = .ecrc ∧ e.link.ecrcCheck = false then e
  else
    let e1 := e.noteAer k header
    match k with
    | .poisonedBar4 => e1.count R.QDR_HOST_DROP_CNT.V 1
    | .fatal _ => { e1 with link := { e1.link with stopped := true } }
    | _ => e1

end Engine

/-- SOFT_RESET (R339, R345). -/
def execSoftReset (value : Word) (s : State) : Answer := .next (s.onEng fun e => e.gate R.SYS_RESET.SOFT.off fun x => x.softReset value)

/-- RST_N (R345). -/
def execRstN (s : State) : Answer := .next (s.onEng fun e => ({ e with pins := { e.pins with rstLow := true } } : Engine).requestReset .rstN)

/-- RST_N_RELEASE (R356). -/
def execRstNRelease (s : State) : Answer := .next (s.onEng fun e => ({ e with pins := { e.pins with rstLow := false } } : Engine).releasePin)

/-- PERST (R345). -/
def execPerst (s : State) : Answer := .next (s.onEng fun e => ({ e with pins := { e.pins with perstLow := true } } : Engine).requestReset .perst)

/-- PERST_DEASSERT (R345). -/
def execPerstDeassert (s : State) : Answer := .next (s.onEng fun e => ({ e with pins := { e.pins with perstLow := false } } : Engine).releasePin)

/-- FLR (R345). -/
def execFlr (s : State) : Answer := .next (s.onEng fun e => e.requestReset .flr)

/-- ENGINE_WATCHDOG (R345). -/
def execEngineWatchdog (s : State) : Answer := .next (s.onEng fun e => e.requestReset .wdogEng)

/-- ARB_WATCHDOG_RESET (R204, R345). -/
def execArbWatchdogReset (s : State) : Answer := .next (s.onEng fun e => if e.arbResetDue then e.requestReset .wdogArb else e)

/-- RESET_PROPER (R346 to R349): the staging memory is lost. -/
def execResetProper (s : State) : Answer :=
  .next (match s.eng.resetting with
    | some r => if s.eng.mot.v = 0 then s.onMem fun e _ => (e.resetProper r.kinds, ⟨[], []⟩) else s
    | none => s)

/-- POR (R345, R348, R249): the section restarts with it (R309). -/
def execPor (s : State) : Answer :=
  .next ((s.onMem fun e _ => (e.porReset, ⟨[], []⟩)).onSec fun x now => x.restart now 1)

/-- BOOT_COMPLETE (R350): the section, where it answers, sends its identification. -/
def execBootComplete (f : BootFindings) (s : State) : Answer :=
  let t := s.onEng fun e => e.bootComplete f s.sec.highAck s.sec.sealOpen
  .next (if f.sectionAnswers && s.eng.mode == .m1 then t.onSec fun x _ => (x, [x.identPkt]) else t)

/-- PFAIL (R354): the section ends its pieces, signs and stores their records. -/
def execPfail (s : State) : Answer :=
  .next (if s.eng.pins.failed then s
    else (s.onMem fun e _ => (e.powerFail, ⟨[], []⟩)).onSec fun x now =>
      ((upTo x.pieces.length).foldl (fun y _ => (y.sendRecord (now + 50000000)).1) (x.endAll now), []))

/-- PFAIL_RECOVERY (R355). -/
def execPfailRecovery (s : State) : Answer :=
  .next (if s.eng.pins.failed then (s.onMem fun e _ => (e.porReset, ⟨[], []⟩)).onSec fun x now => x.restart now 1 else s)

/-- NVM_ERASE (R351). -/
def execNvmErase (s : State) : Answer := .next (s.onEng fun e => e.gate R.NVM_CTRL.GO.off fun x => x.nvmGo 1)

/-- NVM_WRITE (R351). -/
def execNvmWrite (s : State) : Answer := .next (s.onEng fun e => e.gate R.NVM_CTRL.GO.off fun x => x.nvmGo 2)

/-- NVM_VERIFY (R351). -/
def execNvmVerify (s : State) : Answer := .next (s.onEng fun e => e.gate R.NVM_CTRL.GO.off fun x => x.nvmGo 3)

/-- NVM_ACTIVATE (R351). -/
def execNvmActivate (s : State) : Answer := .next (s.onEng fun e => e.gate R.NVM_CTRL.GO.off fun x => x.nvmGo 4)

/-- NVM_OP_DONE (R351): `ok` is whether the flash did it. -/
def execNvmOpDone (ok : Bool) (s : State) : Answer := .next (s.onEng fun e => e.nvmDone ok)

/-- LINK_UP (R228, R229). -/
def execLinkUp (speed : Fin 6) (width : Fin 9) (s : State) : Answer := .next (s.onEng fun e => e.linkComes speed.val width.val)

/-- LINK_DOWN (R229). -/
def execLinkDown (s : State) : Answer := .next (s.onEng Engine.linkGoes)

/-- LINK_RETRAIN (R228). -/
def execLinkRetrain (speed : Fin 6) (width : Fin 9) (s : State) : Answer :=
  .next (s.onEng fun e => if e.on R.UHP_STATUS.LINK_UP && Engine.linkValid speed.val width.val then e.putLink speed.val width.val else e)

/-- AER_ERROR_RECEIVED (R232). -/
def execAerErrorReceived (err : AerReport) (s : State) : Answer := .next (s.onEng fun e => e.aerError err.kind err.header)

/-- BUS_MASTER_DISABLE (R231). -/
def execBusMasterDisable (s : State) : Answer := .next (s.onEng fun e => { e with link := { e.link with bme := false } })

/-- BUS_MASTER_ENABLE (R231). -/
def execBusMasterEnable (s : State) : Answer := .next (s.onEng fun e => { e with link := { e.link with bme := true } })

end Sys2Proof.Machine
end

