-- ==== Sys2Proof/Machine/Pair.lean ====
section
/-!
DEFINITION. Pair operation (17_pair_operation.md R357 to R375): ownership and heartbeats (R359), roles (R360, R363), pair states (R364), the mirrored state
(R365, R366), loss of the peer and takeover (R368 to R372, R374), RELEASE (R373).
-/

namespace Sys2Proof.Machine

namespace Engine

/-! ### State and faults -/

/-- Change what the pair block holds. -/
def modPair (e : Engine) (f : PairSt → PairSt) : Engine := { e with pair := f e.pair }

/-- FAULT class PAIR (R375). -/
def pairFault (e : Engine) (unit detail : Nat) (value : Int) : Engine :=
  e.fault 0x11 unit detail 0 [(24, 8, e.rdPair R.PAIR_PEER_SERIAL_LO.V R.PAIR_PEER_SERIAL_HI.V), (32, 4, ofSigned 32 value)]

/-- The pair state changes (R364): PAIR_STATE, under UHP-3 only (R268). -/
def pairState (e : Engine) (st : Nat) : Engine :=
  if e.pair.st = st then e
  else
    let e1 := e.modPair fun p => { p with st := st, stTime := e.now, image := if st = 2 then MirrorImage.init else p.image }
    let peer := match e.pair.role with | 1 => 2 | 2 => 1 | _ => 0
    if e.ver = 3 then e1.emit 0x12 st 0 peer none [(24, 1, e.pair.plver), (28, 4, e.rd R.PAIR_PEER_FW.V)] else e1

/-- Nothing waits for the leeward any more: commands count as consumed, the books take in what was lost, what was held goes out in order (R364). -/
def releaseHeld (e : Engine) : Engine :=
  let e1 := (e.countCommands e.uncounted).freeEvents
  { e1 with
    mets := { e1.mets with recv := e1.mets.recv.map fun r => (r.1, r.2.1, false) }
    pair := { e1.pair with tx := e1.pair.tx.filter fun t => t.delta.isNone } }

/-- A windward without a current leeward: SOLO, with its FAULT. A hand-over that a RELEASE had begun is off. -/
def goSolo (e : Engine) (unit detail : Nat) (value : Int) : Engine :=
  ((((e.releaseHeld).modPair fun p => { p with releasing := false }).pairState 4).pairFault unit detail value)

/-- M10 is entered from M3 to M9 with cause PAIR (R340, R359, R373): stream and MET rings are off, the job and the commands of the windward are no longer
this module's to complete. -/
def toLeeward (e : Engine) : Engine :=
  let e1 := (((e.modPair fun p => { p with role := 2, drive := false }).changeMode .m10 10 none).stopConversion 0).stopConversion 1
  let e2 := (upTo 17).foldl (fun x i => (x.wr (R.UHP_R_CTRL.EN (2 + i)) 0).leaveRun (2 + i) 0) e1
  ({ e2 with
    streams := List.replicate 16 Stream.init, dma := Engine.reset.dma, job := JobSt.init, pac := PacerSt.init, feed := FeedSt.init, squall := none
    opens := [], trans := Engine.reset.trans, frames := [FrameSt.init, FrameSt.init], gus := List.replicate 8 GuSt.init
    mot := { e2.mot with v := 0, acc := 0 }, cal := { e2.cal with gapSpans := [] }
    pair := { e2.pair with releasing := false, current := false, hbStopped := true, shadow := Shadow.init } } : Engine).syncOpen

/-! ### Heartbeats and ownership (R359, R364) -/

/-- PAIR_OWN as it is sensed: whether the peer asserts it. -/
def senseOwn (e : Engine) (own : Bool) : Engine :=
  let p := e.pair
  { e with pair := { p with
    peerOwn := own
    releasedAt := if own then none else if p.peerOwn then some e.now else p.releasedAt
    hbStopped := p.hbStopped && !(own && p.role == 2 && e.resetting.isNone) } }

/-! ### What a windward sends (R365) -/

/-- A register outside the UHP block that a windward mirrors: the set-up registers, the coefficient windows, trims and levels, bank states, references of the calibration and
its status, PAGE_NO, DMA_Sn_CONF. QDR_MAP_REQ and SYS_FW_PREF stay each module's own (R348). -/
def mirroredReg (off : Nat) : Bool :=
  off != R.QDR_MAP_REQ.OUT.off && (setUpReg off || off == R.SYS_CTRL.WAKE_EN.off || off == R.SYS_WDOG.word.off ||
    match RegMap.find off with
    | some (r, _) => (["CAL_REF_CORR", "CAL_GEN", "CAL_TREF_AFE", "CAL_TREF_RTD", "CAL_STATUS", "SHD_CH_BANK", "RSM_FRAME_STAT", "GEO_STATUS", "PAC_VCEIL",
        "DMA_S_CONF_LO", "DMA_S_CONF_HI"] : List String).contains r.name
    | none => false)

/-- The Position class: repeated with each heartbeat. -/
def positionItems (e : Engine) : List MirrorItem :=
  [.position e.mode.idx e.job.isOpen e.job.id (e.rdS (R.EN_COUNT.V 0)) e.mot.pos e.mot.base e.mot.kept e.mot.highest e.pac.causes e.pac.vovr,
    .feeding e.feed.pend e.feed.patterns e.feed.flight e.feed.speed, .windows e.shd.windows, .swaps e.shd.fade e.shd.queued]
  ++ (([0, 1] : List Side).map fun s => [MirrorItem.frames s (e.frameSide s.val) (e.eddySide s.val).next, .detector s (e.geo.getD s.val GeoSt.init),
      .exposures s (e.gen s.val).changes (e.gen s.val).expgen]).flatten

/-- The streams with their last confirmed lines. -/
def progressItems (e : Engine) : List MirrorItem :=
  (upTo 16).flatMap fun n => if h : n < 16 then [.progress ⟨n, h⟩ (e.stream n).running (e.stream n).conf] else []

/-- Slice targets and backing references. -/
def sliceItems (e : Engine) : List MirrorItem :=
  (upTo 64).flatMap fun c => if h : c < 64 then [.slices ⟨c, h⟩ (e.cal.chans.getD c ⟨0, 0, 0, 0⟩)] else []

/-- The newest record in flash. -/
def recordItem (e : Engine) : List MirrorItem :=
  let l := e.cal.copies.filterMap fun c => c.map fun r => r.body
  match l with
  | [] => []
  | r :: t => [.calRecord (t.foldl (fun a b => if a.generation < b.generation then b else a) r)]

/-- Everything mirrored that no register, descriptor or command says. -/
def mirrorItems (e : Engine) : List MirrorItem :=
  e.positionItems ++ e.progressItems ++ e.sliceItems ++ e.recordItem
    ++ [.gapRequest (e.on R.CAL_STATUS.PENDING) (e.rd R.CAL_STATUS.CAUSE) (e.rd R.CAL_STATUS.DEFER), .mseq e.status.lastMseq]

/-- A cached descriptor as a shadow holds it, without lines. -/
def shadowBuf (idx hseq addr len tag : Nat) (pageBreak : Bool) : Buf :=
  ⟨idx, hseq, addr, len, tag, pageBreak, false, [], none, false, false, false, false, false, .writing, false⟩

/-- Two cached descriptors are the same. -/
def sameBuf (a b : Buf) : Bool := a.idx == b.idx && a.hseq == b.hseq && a.addr == b.addr

/-- A line goes into a cached buffer of a shadow. -/
def writeCached (r idx index page : Nat) (l : List (Nat × Buf)) : List (Nat × Buf) :=
  l.map fun (x : Nat × Buf) =>
    if x.1 = r ∧ x.2.idx = idx then (x.1, { x.2 with lines := x.2.lines ++ [⟨[], index, page, false, false, false, false, true, 0, 0⟩] }) else x

/-- What changes in the cached descriptors of a stream ring: those gone, oldest first, those new, the lines written since. -/
def cachedDiff (e : Engine) (n : Nat) : List MirrorItem :=
  if h : n + 3 < 19 then
    let ring : RingIx := ⟨n + 3, h⟩
    let now := (e.stream n).bufs.filter fun b => !b.stale
    let was := (e.pair.image.cached.filter fun x => x.1 == n + 3).map fun x => x.2
    let gone := was.takeWhile fun b => !now.any (sameBuf b)
    gone.map (fun _ => MirrorItem.finished ring) ++ now.flatMap fun b =>
      let old := was.find? (sameBuf b)
      (if old.isNone then [MirrorItem.cached ring b.idx b.hseq b.addr b.len b.tag b.pageBreak] else [])
        ++ (b.lines.drop ((old.map fun o => o.lines.length).getD 0)).map fun l => .written ring b.idx l.index l.page
  else []

/-- What changes in the commands without CMD_DONE; one whose CMD_DONE is built goes with its event. -/
def opensDiff (e : Engine) : List MirrorItem :=
  let now := e.opens.filter fun c => c.wait != Wait.built
  let was := e.pair.image.opens
  ((was.filter fun c => !e.opens.any fun d => d.hseq == c.hseq).map fun c => .done c.hseq)
    ++ (now.filter fun c => !was.any fun d => d.hseq == c.hseq).map fun c => .opened c.hseq c.tag c.code

/-- What an item does to the image of the leeward's state. -/
def imageItem (im : MirrorImage) : MirrorItem → MirrorImage
  | .cached r idx hseq addr len tag pb => { im with cached := im.cached ++ [(r.val, shadowBuf idx hseq addr len tag pb)] }
  | .written r idx index page => { im with cached := writeCached r.val idx index page im.cached }
  | .finished r => { im with cached := dropCached r.val im.cached }
  | .opened hs tag code => { im with opens := im.opens ++ [⟨hs, tag, code, .built⟩] }
  | .done hs => { im with opens := im.opens.filter fun c => c.hseq != hs }
  | _ => im

/-- Events or commands wait for the leeward: UHP words go with them. -/
def booksWait (e : Engine) : Bool :=
  e.pair.tx.any fun t => match t.delta with | some (.event _) => true | some (.command _) => true | some .record => true | _ => false

/-- All that has changed since it was sent last. -/
def changedItems (e : Engine) : List MirrorItem :=
  let im := e.pair.image
  let seq := e.sequenceItem (e.rd R.UHP_LAST_DSEQ.V)
  ((wordDiff mirroredReg e.regs im.regs).map fun w => MirrorItem.reg (BitVec.ofNat 20 w.1) w.2)
    ++ (if e.booksWait then [] else hostItems (wordDiff hostMirrored e.regs im.regs) ++ (if im.items.contains seq then [] else [seq]))
    ++ (upTo 16).flatMap e.cachedDiff ++ e.opensDiff ++ e.mirrorItems.filter fun i => !im.items.contains i

/-- The image after items have been sent: registers as they stand, UHP words as they were where they still wait. -/
def imageAfter (e : Engine) (l : List MirrorItem) : MirrorImage :=
  let im := l.foldl imageItem e.pair.image
  let regs := (wordDiff mirroredReg e.regs im.regs).foldl (fun r w => Sparse.set RegMap.resetWord r w.1 w.2) im.regs
  { im with
    begun := true
    regs := if e.booksWait then regs else (wordDiff hostMirrored e.regs im.regs).foldl (fun r w => Sparse.set RegMap.resetWord r w.1 w.2) regs
    items := if e.booksWait then e.mirrorItems ++ im.items.filter fun i => match i with | .sequence .. => true | _ => false
      else e.mirrorItems ++ [e.sequenceItem (e.rd R.UHP_LAST_DSEQ.V)] }

/-- A delta of state goes to the leeward. -/
def sendState (e : Engine) (kind : Option DeltaFor) (l : List MirrorItem) : Engine :=
  ({ e with pair := { e.pair with image := e.imageAfter l } } : Engine).pairSend kind (.delta l)

/-- The bulk copy of SYNCING: everything mirrored (R364). AFE_REF_CTRL acts as a write does, so it is sent as it stands. -/
def sendBulk (e : Engine) : Engine :=
  let e0 : Engine := { e with pair := { e.pair with image := MirrorImage.init } }
  e0.sendState none ([.fresh] ++ (([0, 1] : List Nat).map fun s => MirrorItem.reg (BitVec.ofNat 20 (R.AFE_REF_CTRL.word s).off) (e.word (R.AFE_REF_CTRL.word s).off))
    ++ e0.changedItems ++ [.time e.now])

/-- A windward in SYNCING or PAIRED sends what has changed (R365), in an idle step (DESIGN CHOICE, log 158); in PAIRED the leeward's acknowledgement is awaited. -/
def mirrorState (e : Engine) : Engine :=
  if e.pair.role = 1 ∧ e.pair.linkUp ∧ (e.pair.st = 2 ∨ e.pair.st = 3) then
    if !e.pair.image.begun then e.sendBulk
    else
      let l := e.changedItems
      if l.isEmpty then e else e.sendState (if e.pair.st = 3 then some .state else none) l
  else e

/-- What the block does when no command waits: 1 ns of device time passes (DESIGN CHOICE, log 4), and a windward mirrors what has changed. -/
def idle (e : Engine) : Engine := ({ e with now := (e.now + 1) % 2 ^ 64 } : Engine).mirrorState

/-- PAIR_HEARTBEAT_SEND: every 100 µs, not once something has stopped it, nor with QDR_STATUS.HALT. A windward repeats its position with it (R365). -/
def sendBeat (e : Engine) (own : Bool) : Engine :=
  let e1 := e.senseOwn own
  if !e1.pairEnabled || e1.pair.hbStopped || e1.on R.QDR_STATUS.HALT || e1.pins.failed || decide (e1.now < e1.pair.lastSent + 100000) then e1
  else
    let miss := e1.pair.st == 3 && (match e1.pair.lastPeer with | some t => decide (t + 100000 < e1.now) | none => true)
    let e2 := if miss then e1.count R.PAIR_HB_MISS.V 1 else e1
    let e3 := e2.modPair fun p => { p with lastSent := e2.now }
    if !e3.pair.linkUp then e3
    else
      let e4 := e3.pairSend none .heartbeat
      if e4.pair.role = 1 ∧ (e4.pair.st = 2 ∨ e4.pair.st = 3) ∧ e4.pair.image.begun then e4.pairSend none (.delta (e4.positionItems ++ [.time e4.now])) else e4

/-- PEER_HEARTBEAT_LOSS: no peer heartbeat for 1 ms, since the latest or, where none has come, since the pair state was entered (R364, R368). -/
def peerLost (e : Engine) : Engine :=
  if e.pair.lastPeer.getD e.pair.stTime + 1000000 ≤ e.now then
    if e.pair.role = 1 ∧ (e.pair.st = 2 ∨ e.pair.st = 3) then e.goSolo 1 5 0
    else if e.pair.role = 2 ∧ (e.pair.st = 1 ∨ e.pair.st = 2 ∨ e.pair.st = 3) then
      (e.modPair fun p => { p with current := e.pair.st == 3 }).pairState 5
    else e
  else e

/-- PAIR_ACK_TIMEOUT: a delta has waited for PAIR_ACK_TMO. -/
def ackTimeout (e : Engine) : Engine :=
  match e.pair.tx.find? fun t => t.delta.isSome with
  | some t =>
    if e.pair.role = 1 ∧ t.first + 1000 * e.rd R.PAIR_ACK_TMO.V ≤ e.now then e.goSolo 0 1 (((e.now - t.first) / 1000 : Nat) : Int) else e
  | none => e

/-- OWNERSHIP_TIMER: the hardware releases PAIR_OWN and every output. -/
def ownTimeout (e : Engine) : Engine :=
  if e.pair.drive && decide (e.pair.lastSent + 1000000 * e.rd R.PAIR_OWN_TMO.V ≤ e.now) then
    let e1 := (e.modPair fun p => { p with drive := false }).pairFault 2 6 0
    if e1.modeIn [3, 4, 5, 6, 7, 8, 9] then (e1.releaseHeld.toLeeward).pairState 1 else e1
  else e

/-! ### Roles (R360, R363) -/

/-- The highest version that both offer; 0 where there is none. -/
def commonVersion (e : Engine) (versions : Nat) : Nat :=
  min (e.rd R.PAIR_CTRL.PLMAX) versions

/-- This module claims PAIR_OWN and enters M3 as windward. -/
def claim (e : Engine) (st : Nat) : Engine :=
  ((e.modPair fun p => { p with role := 1, drive := true, bootRole := false, lastSent := e.now, hbStopped := false }).enterM3 2).pairState st

/-- The modules agree version and roles over the link. What leads a module in SOLO or LOST back to SYNCING is a heartbeat, not this (R364, R368). -/
def agree (e : Engine) (versions : Nat) (pref : Bool) (serial fw : Nat) : Engine :=
  let v := e.commonVersion versions
  let e1 := ((e.wrPair R.PAIR_PEER_SERIAL_LO.V R.PAIR_PEER_SERIAL_HI.V serial).wr R.PAIR_PEER_FW.V fw).modPair fun p =>
    { p with plver := v, peerPref := pref }
  if !e1.pairEnabled then e1
  else if v = 0 then
    let e2 := e1.pairFault 0 3 0
    if e2.pair.role = 1 then e2.releaseHeld.pairState 4 else e2
  else if e1.pair.bootRole then
    let mine := e1.on R.PAIR_CTRL.PREF
    let own := e1.rdPair R.SYS_SERIAL_LO.V R.SYS_SERIAL_HI.V
    let win := if mine != pref then mine else decide (own < serial)
    if e1.pair.peerOwn || !win then (e1.enterM10).pairState 2 else e1.claim 2
  else if e1.pair.st = 1 then (e1.modPair fun p => { p with lastPeer := none }).pairState 2
  else e1

/-- Frame numbers begin afresh; deltas that wait for the leeward go again under them. -/
def renumber (p : PairSt) (now : Nat) : PairSt :=
  let l := p.tx.filter fun t => t.delta.isSome
  { p with txNext := l.length, rxNext := 0, tx := l.zipIdx.map fun (t, i) => { t with number := i, sent := some now } }

/-- PAIR_LINK_TRAINED. -/
def linkTrained (e : Engine) (versions : Nat) (pref : Bool) (serial fw : Nat) : Engine :=
  (e.modPair fun p => renumber { p with linkUp := true } e.now).agree versions pref serial fw

/-- PAIR_LINK_DOWN: LINK and PLVER clear (R361); the pair state follows the heartbeats. -/
def linkLost (e : Engine) : Engine :=
  if !e.pair.linkUp then e
  else
    let e1 := e.modPair fun p => { p with linkUp := false, plver := 0 }
    if e1.pairEnabled && !e1.modeIn [0, 1] then e1.pairFault 0 2 0 else e1

/-- BOOT_CLAIM: with the link down, 100 ms or 600 ms after boot (R360, R374); so too where the modules have no common version, which form no pair (R363; DEDUCED,
log 159). -/
def bootClaims (e : Engine) : Engine :=
  let wait := if e.on R.PAIR_CTRL.PREF then 100000000 else 600000000
  if e.pair.bootRole && (!e.pair.linkUp || e.pair.plver == 0) && decide (e.pins.bootTime + wait ≤ e.now) then
    if e.pair.peerOwn then e.enterM10 else e.claim 4
  else e

/-- What is built and not yet written waits for the leeward from the entry to PAIRED on (R366): its deltas go out. -/
def holdBuilt (e : Engine) : Engine :=
  let e1 := e.evt.queue.foldl (fun x v => { x with pair := x.sendEvent v }) e
  let e2 : Engine := { e1 with
    evt := { e1.evt with queue := e1.evt.queue.map fun (v : Ev) => { v with held := true } }
    mets := { e1.mets with recv := e1.mets.recv.map fun r => (r.1, r.2.1, true) } }
  e.mets.recv.foldl (fun x r => x.sendRecordDelta r.1) e2

/-- BULK_COPY_DONE on the windward. -/
def bulkDone (e : Engine) : Engine :=
  if e.pair.role = 1 ∧ e.pair.st = 2 ∧ e.pair.linkUp then (((e.mirrorState).pairSend none .bulkDone).holdBuilt).pairState 3 else e

/-! ### Mirrored state on the leeward (R365) -/

/-- Change the shadow. -/
def modShadow (e : Engine) (f : Shadow → Shadow) : Engine := e.modPair fun p => { p with shadow := f p.shadow }

/-- Pages of a side that hold a line at or above n_c: open, or closed with lines not confirmed. -/
def pageSpans (e : Engine) (s nc : Nat) (p : Page) : Bool :=
  match p.last with
  | some l => decide (nc ≤ l)
  | none => decide (nc < (e.eddySide s).first) && decide (p.first < (e.eddySide s).first)

/-- Least output line of a unit whose index is at or above an aligned line. -/
def firstOut (e : Engine) (g first nc : Nat) : Nat :=
  let st : Int := if e.on (R.GU_CTRL.YEN g) then max 1 (e.rd (R.GU_YSTEP.STEP g)) else 65536
  (Int.fdiv (65536 * (nc : Int) - 32768 - e.yPos g first 0) st + 1).toNat

/-- Output lines that a unit makes of a frame (R131). -/
def outsOf (e : Engine) (g first last : Nat) : Nat :=
  let st : Int := if e.on (R.GU_CTRL.YEN g) then max 1 (e.rd (R.GU_YSTEP.STEP g)) else 65536
  (Int.fdiv (65536 * ((last : Int) + 1) - 1 - e.yPos g first 0) st + 1).toNat

/-- Lines a stream of a side has counted of a page before an output line (R142): all of its unit's, or those of its kind of ALT line (R117, R137). -/
def counted (e : Engine) (s n first out : Nat) : Nat :=
  let g := e.guOf n
  let kind := match e.rd (R.STR_CFG.PSET n) with | 4 => some 1 | 5 => some 2 | _ => none
  match kind with
  | none => out
  | some k => ((upTo out).filter fun j => e.kindAt s 3 (centreOf (e.yPos g first j) first).toNat == k).length

/-- The aligned index that a stream of a side has yet to have confirmed first, by its last confirmed line (log 39): past the page where that was its last
one, the same index where another output line shares it. -/
def confirmedTo (e : Engine) (s n : Nat) : Nat :=
  match e.pair.shadow.conf.getD n none with
  | none => 0
  | some (k, no, line) =>
    match (e.frameSide s).pages.find? fun p => p.no == no with
    | none => 0
    | some p =>
      let g := e.guOf n
      let count := e.rd (R.STR_YCROP.COUNT n)
      let cropped := count ≠ 0 && decide (e.rd (R.STR_YCROP.FIRST n) + count ≤ line + 1)
      match p.last with
      | some l => if cropped || decide (e.counted s n p.first (e.outsOf g p.first l) ≤ line + 1) then l + 1
                  else if line + 1 < e.counted s n p.first (e.firstOut g p.first (k + 1)) then k else k + 1
      | none => if cropped then (e.eddySide s).first
                else if line + 1 < e.counted s n p.first (e.firstOut g p.first (k + 1)) then k else k + 1

/-- n_c of a side (R120): the lowest line of a page still to end that some running stream has not confirmed; where there is none, the next aligned
line (DEDUCED, log 39). -/
def unconfirmed (e : Engine) (s : Nat) : Nat :=
  let next := (e.eddySide s).first
  let sh := e.pair.shadow
  match (e.frameSide s).pages, (upTo 16).filter fun n => sh.running.getD n false && e.sideOf n == s with
  | p :: _, n :: ns =>
    min next (max p.first (ns.foldl (fun m k => min m (e.confirmedTo s k)) (e.confirmedTo s n)))
  | _, _ => next

/-- n_c, lowest over the sides. -/
def lowestNc (e : Engine) : Nat :=
  match (upTo 2).filter fun s => !(e.rowsInUse s).isEmpty with
  | s :: t => t.foldl (fun m k => min m (e.unconfirmed k)) (e.unconfirmed s)
  | [] => min (e.unconfirmed 0) (e.unconfirmed 1)

/-- PAIR_NC follows the mirrored state. -/
def showNc (e : Engine) : Engine := e.wrPair R.PAIR_NC_LO.V R.PAIR_NC_HI.V (e.lowestNc % 2 ^ 48)

/-- A register item, or a word of a coefficient window, that the leeward loads into its own: not of the UHP and PAIR blocks. AFE_REF_CTRL acts as a write does (R65, R50); a
new RANGE sets STALE (R53). -/
def mirrorReg (e : Engine) (off : Nat) (v : Word) : Engine :=
  if ((RegMap.find off).isNone ∧ (off < 0x20000 ∨ noWindow off)) ∨ (0x1000 ≤ off ∧ off < 0x2000) ∨ (0x11000 ≤ off ∧ off < 0x12000) then e
  else if off = (R.AFE_REF_CTRL.word 0).off then e.loadRefCtrl 0 v
  else if off = (R.AFE_REF_CTRL.word 1).off then e.loadRefCtrl 1 v
  else e.setWord off v

/-- A channel whose RANGE items have changed is STALE (R53). -/
def staleRanges (e old : Engine) : Engine :=
  (upTo 64).foldl (fun x c =>
    if x.rd (R.AFE_CH_CFG.RANGE (c / 32) (c % 32)) = old.rd (R.AFE_CH_CFG.RANGE (c / 32) (c % 32)) then x
    else x.wr (R.AFE_CH_STATUS.STALE (c / 32) (c % 32)) 1) e

/-- The mirrored position against the leeward's own count (R365): more than one count apart is a FAULT, and the mirrored value is taken. -/
def mirrorPosition (e : Engine) (count pos base : Int) : Engine :=
  let d := e.rdS (R.EN_COUNT.V 0) - count
  let e0 := { e with mot := { e.mot with base := base } }
  let take (x : Engine) : Engine := ({ x with mot := { x.mot with pos := pos, maxPos := max x.mot.maxPos pos } } : Engine).wrS (R.EN_COUNT.V 0) count
  if e.pair.st = 3 then (if 1 < d.natAbs then (take e0).pairFault 1 4 d else e0) else take e0

/-- A command whose CMD_DONE the windward has built is a RELEASE that completed OK: the hand-over has begun (R373). Status and code stand in the mirrored history. -/
def releasedBy (e : Engine) (hs : Nat) : Bool :=
  let w := (Sparse.get RegMap.resetWord e.pair.shadow.regs (R.UHP_CMDH.V (hs % 32) 2).off).toNat
  (e.pair.shadow.opens.any fun c => c.hseq == hs && c.code == 0x15) && w % 256 == stOk && w / 256 % 256 == 0x15

/-- One item. -/
def applyItem (e : Engine) : MirrorItem → Engine
  | .fresh => ({ e with regs := e.regs.filter fun c => !mirroredReg c.1 || c.1 == (R.AFE_REF_CTRL.word 0).off || c.1 == (R.AFE_REF_CTRL.word 1).off } :
      Engine).modShadow fun _ => Shadow.init
  | .reg off v => e.mirrorReg off.toNat v
  | .host off v => e.modShadow fun h => { h with regs := Sparse.set RegMap.resetWord h.regs off.toNat v }
  | .sequence d head beat => e.modShadow fun h => { h with dseq := d, head := head, beat := beat }
  | .cached r idx hseq addr len tag pb => e.modShadow fun h => { h with cached := h.cached ++ [(r.val, shadowBuf idx hseq addr len tag pb)] }
  | .written r idx index page => e.modShadow fun h => { h with cached := writeCached r.val idx index page h.cached }
  | .finished r => e.modShadow fun h => { h with cached := dropCached r.val h.cached }
  | .opened hs tag code => e.modShadow fun h => { h with opens := h.opens ++ [⟨hs, tag, code, .built⟩] }
  | .done hs => (e.modShadow fun h => { h with opens := h.opens.filter fun c => c.hseq != hs }).modPair fun p =>
      { p with releasing := p.releasing || e.releasedBy hs }
  | .position m job id count pos base kept highest causes vovr =>
    let e1 := (e.modShadow fun h => { h with mode := m, job := job, jobId := id, causes := causes }).mirrorPosition count pos base
    { e1 with mot := { e1.mot with kept := kept, highest := highest }, pac := { e1.pac with vovr := vovr } }
  | .time t => e.modShadow fun h => { h with offset := (t : Int) - (e.now : Int) }
  | .feeding pend pats flight speed => { e with feed := { e.feed with pend := pend, patterns := pats, flight := flight, speed := speed } }
  | .frames s x a => (e.modFrame s.val fun _ => x).modEddy s.val fun y => { y with first := a }
  | .detector s g => e.modGeo s.val fun _ => g
  | .windows l => { e with shd := { e.shd with windows := l } }
  | .swaps f q => { e with shd := { e.shd with fade := f, queued := q } }
  | .exposures s l gen => e.modGen s.val fun g => { g with changes := l, expgen := gen }
  | .progress n r c => e.modShadow fun h => { h with running := modAt h.running n.val fun _ => r, conf := modAt h.conf n.val fun _ => c }
  | .gapRequest pend cause n =>
    ((e.wr R.CAL_STATUS.PENDING (b2n pend)).wr R.CAL_STATUS.CAUSE cause).wr R.CAL_STATUS.DEFER n
  | .slices c v => { e with cal := { e.cal with chans := modAt e.cal.chans c.val fun _ => v } }
  | .calRecord r => { e with cal := { e.cal with copies := modAt e.cal.copies e.nextCopy fun _ => some (storeRecord r) } }
  | .mseq n => e.modShadow fun h => { h with mseq := n }

/-! ### Frames (R362) -/

/-- A peer heartbeat arrives: it ends SOLO, and LOST while PAIR_OWN is still asserted (R364, R368). -/
def peerBeat (e : Engine) : Engine :=
  let e1 := e.modPair fun p => { p with lastPeer := some e.now }
  if (e.pair.role = 1 ∧ e.pair.st = 4 ∧ e.pair.plver ≠ 0) ∨ (e.pair.role = 2 ∧ e.pair.st = 5 ∧ e.pair.peerOwn) then e1.pairState 2 else e1

/-- The link partner acknowledges every frame up to a number: deltas then wait for the leeward. -/
def linkAck (e : Engine) (n : Nat) : Engine :=
  e.modPair fun p => { p with tx := (p.tx.filter fun t => t.delta.isSome || decide (n < t.number)).map fun (t : TxFrame) =>
    if t.number ≤ n then { t with sent := none } else t }

/-- What a frame taken carries. -/
def takeFrame (e : Engine) : PairBody → Engine
  | .heartbeat => e.peerBeat
  | .hello vs pref serial fw => e.agree vs pref serial fw
  | .ack n => e.linkAck n
  | .delta items => if e.pair.role = 2 then ((items.foldl applyItem e).staleRanges e).showNc else e
  | .bulkDone => if e.pair.role = 2 ∧ e.pair.st = 2 then e.pairState 3 else e
  | .peerRecord r => if e.pair.plver = 2 then e.metSend (.peer r) else e

/-- PAIR_FRAME_RECEIVE: a frame whose CRC fails is dropped, one seen before or out of order too. An acknowledgement carries no number of its own. -/
def frameArrives (e : Engine) (f : PairFrame) : Engine :=
  if !f.crcOk || !e.pair.linkUp || !e.pairEnabled || (e.modeIn [0, 1] && !e.pair.bootRole) then e
  else match f.body with
    | .ack n => e.linkAck n
    | b => if f.number = e.pair.rxNext then (e.modPair fun p => { p with rxNext := p.rxNext + 1 }).takeFrame b else e

/-- PAIR_RETRANSMIT: every frame not acknowledged for 2 µs goes again, in order. -/
def retransmit (e : Engine) : Engine :=
  let due (t : TxFrame) : Bool := match t.sent with | some x => decide (x + 2000 ≤ e.now) | none => false
  let n := (e.pair.tx.filter due).length
  if !e.pair.linkUp then e
  else (e.modPair fun p => { p with tx := p.tx.map fun (t : TxFrame) => if due t then { t with sent := some e.now } else t }).count R.PAIR_RETX_CNT.V n

/-- RELEASE is over once its completion has been acknowledged (R373): the heartbeat stops, PAIR_OWN goes, M10. -/
def releaseEnds (e : Engine) : Engine :=
  if e.pair.releasing && e.pair.role == 1 && !(e.evt.queue.any fun v => v.held && (match v.book with | .cmd _ _ 0x15 => true | _ => false)) then
    (e.releaseHeld.toLeeward).pairState 2
  else e

/-- Of the records that wait for the leeward the oldest waits no more. -/
def freeRecord : List (Nat × List Byte × Bool) → List (Nat × List Byte × Bool)
  | [] => []
  | (m, b, true) :: l => (m, b, false) :: l
  | x :: l => x :: freeRecord l

/-- The leeward has acknowledged the delta of an event: the writer may write it; one already lost is taken in by the books (R246). -/
def freeEvent (e : Engine) (d : Nat) : Engine :=
  let e1 := { e with evt := { e.evt with
    queue := e.evt.queue.map fun (v : Ev) => if v.dseq = d then { v with held := false } else v
    unacked := e.evt.unacked.filter fun v => v.dseq != d } }
  (e.evt.unacked.filter fun v => v.dseq == d).foldl (fun x v => x.settle v) e1

/-- The leeward acknowledges the oldest delta, and what waited on it may go out (R366). -/
def ackDelta (e : Engine) : Engine :=
  match e.pair.tx.find? fun t => t.delta.isSome with
  | none => e
  | some t =>
    let ns := min (2 ^ 20 - 1) (e.now - t.first)
    let e1 := e.modPair fun p => { p with tx := p.tx.filter fun x => x.number != t.number || x.delta != t.delta }
    let e2 := if e1.rd R.PAIR_MIRROR_MAX.V < ns then e1.wr R.PAIR_MIRROR_MAX.V ns else e1
    match t.delta with
    | some (.event d) => e2.freeEvent d
    | some (.command _) => e2.countCommands 1
    | some .record => { e2 with mets := { e2.mets with recv := freeRecord e2.mets.recv } }
    | _ => e2

/-- MIRROR_ACK: the oldest delta, under PL-2 every one that waits, up to 16, is acknowledged (R363, R366; DESIGN CHOICE, log 159). -/
def mirrorAcked (e : Engine) : Engine := ((upTo (if e.pair.plver = 2 then 16 else 1)).foldl (fun x _ => x.ackDelta) e).releaseEnds

/-! ### Takeover (R368 to R372, R374) -/

/-- PAIR_OWN has been released for 2 ms, since the boot where it was never asserted, with no peer heartbeat in the last `gap` ns: 1 ms for a leeward that takes over by
itself, 2 ms for TAKEOVER (R368). -/
def ownFree (e : Engine) (gap : Nat) : Bool :=
  !e.pair.peerOwn && decide (e.pair.releasedAt.getD e.pins.bootTime + 2000000 ≤ e.now)
    && (match e.pair.lastPeer with | some t => decide (t + gap ≤ e.now) | none => true)

/-- TAKING: PAIR_OWN is asserted and the outputs are driven (R369 step 4). -/
def startTaking (e : Engine) (cause : Nat) : Engine :=
  (e.modPair fun p => { p with drive := true, takeAt := some e.now, cause := cause, lastSent := e.now, hbStopped := false }).pairState 6

/-- TAKEOVER_START: a current leeward in LOST, by itself under POLICY AUTO, or after a RELEASE (R368, R373). -/
def autoTake (e : Engine) : Engine :=
  if e.pair.role = 2 ∧ e.pair.st = 5 ∧ e.pair.current ∧ e.ownFree 1000000 ∧ (!e.on R.PAIR_CTRL.POLICY ∨ e.pair.releasing) then
    e.startTaking (if e.pair.releasing then 2 else 1)
  else e

/-- Largest d_r of a side, in whole lines upward. -/
def maxLag (e : Engine) (s : Nat) : Nat := (maxOf ((e.rowOffsets s).map fun d => d.getD 0) + 63) / 64

/-- n_r of R371: where re-acquisition begins. -/
def resumeIndex (e : Engine) : Nat :=
  match e.convSides with
  | [] => e.mot.kept
  | s :: t => t.foldl (fun m k => min m (e.unconfirmed k - (e.maxLag k + 2))) (e.unconfirmed s - (e.maxLag s + 2))

/-- Distance from the present position back to the boundary of a pitch number, in 10⁻⁶ nm. -/
def backTo (e : Engine) (k : Nat) : Int :=
  let at' : Int := (e.mot.base + k + 1) * e.pitch
  max 0 (Int.fdiv ((e.mot.pos - at') * e.rd (R.EN_NM.V e.trigEnc) * 1000000) 256)

/-- The backtrack of R371 goes no further than PAIR_MAXBACK. -/
def backAllowed (e : Engine) (k : Nat) : Bool :=
  decide ((e.rd R.PAC_BACK.V : Int) * e.rd (R.EN_NM.V e.trigEnc) * 1000000 + e.backTo k ≤ (e.rd R.PAIR_MAXBACK.V : Int) * 1000000000000)

/-- A page holds a line at or above n_c on some side. -/
def anySpans (e : Engine) : Bool := (upTo 2).any fun s => (e.frameSide s).pages.any (e.pageSpans s (e.unconfirmed s))

/-- The units of a side go on with the frames still open, and, where the lines are acquired again (`back`), with the pages not wholly confirmed (R136): each for the
running streams that deliver it. A stream started during an open page still waits for its next (R133). -/
def resumeUnits (e : Engine) (back : Bool) (s : Nat) : Engine :=
  let nc := e.unconfirmed s
  let pages := (e.frameSide s).pages.filter fun p => p.last.isNone || (back && e.pageSpans s nc p)
  (e.sideGus s).foldl (fun x g =>
    let fed := (upTo 16).filter fun n => (x.stream n).running && x.guOf n == g && x.sideOf n == s
    if fed.isEmpty then x
    else
      let opened (n : Nat) : Bool := pages.any fun p => p.last.isNone && p.streams.contains n
      fed.foldl (fun y n => y.modStream n fun t => { t with joined := opened n, waitFrame := !opened n })
        (x.modGu g fun u => { u with runs := (pages.filter fun p => fed.any p.streams.contains).map fun (p : Page) =>
          let k := x.firstOut g p.first nc
          ⟨p.no, p.first, p.last, k, (fed.filter p.streams.contains).map fun n => (n, x.counted s n p.first k), true⟩ })) e

/-- Pages that span the takeover carry TAKEOVER (R371). -/
def markTakeover (e : Engine) (s : Nat) : Engine :=
  let nc := e.unconfirmed s
  e.modFrame s fun f => { f with pages := f.pages.map fun (p : Page) => if e.pageSpans s nc p ∨ p.last.isNone then { p with takeover := true } else p }

/-- Pages of a side that are to be fed again: those with unconfirmed lines, and the open one of a document in flight (R372). -/
def refeedPages (e : Engine) (s : Nat) : List Page :=
  (e.frameSide s).pages.filter fun p =>
    e.pageSpans s (e.unconfirmed s) p || (!p.closed && e.feed.flight.any fun d => d.pages.contains (s, p.no))

/-- R372 on a side: a frame to be fed again closes at its last confirmed line. -/
def refeedSide (e : Engine) (s : Nat) : Engine :=
  let nc := e.unconfirmed s
  let flagged := e.refeedPages s
  let last (p : Page) : Nat := max p.first nc - 1
  let e1 := (e.modFrame s fun f =>
    { f with cur := none, lines := 0, fixed := [], pages := f.pages.map fun (p : Page) =>
        if flagged.any fun q => q.no == p.no then
          { p with closed := true, last := some (last p), incomplete := true, refeed := true, takeover := true }
        else if p.closed then p else { p with closed := true, last := some (last p), takeover := true } }).wr (R.RSM_FRAME_STAT.OPEN s) 0
  let open' := (e.frameSide s).pages.filter fun p => !p.closed
  let e2 := e1.modGeo s fun g => { g with busy := g.busy ++ open'.map fun p => (p.no, p.first, last p, g.back) }
  if open'.isEmpty then e2 else e2.wr (R.GEO_STATUS.BUSY s) 1

/-- A cached buffer that holds lines of a page to be fed again completes PARTIAL with nothing (R372). -/
def refeedBuffers (e : Engine) (flagged : List (Nat × Nat)) : Engine :=
  (upTo 16).foldl (fun x n =>
    let hit (b : Nat × Buf) : Bool := b.1 == 3 + n && b.2.lines.any fun l => flagged.any fun f => f.1 == x.sideOf n && f.2 == l.page
    (x.pair.shadow.cached.filter hit).foldl (fun y b =>
      (y.modStream n fun s => { s with bufs := s.bufs.filter fun c => c.idx != b.2.idx }).bufDone n b.2 stPartial 0 true none) x) e

/-- The UHP block as the shadow holds it; what the link itself reports stays (R370), and the counters are the module's own (R348). -/
def installRegs (e : Engine) : Engine :=
  let up := e.rd R.UHP_STATUS.LINK_UP
  let e1 := (wordDiff hostMirrored e.pair.shadow.regs e.regs).foldl (fun x w => x.setWord w.1 w.2) e
  let e2 := e1.wr R.UHP_STATUS.LINK_UP up
  (upTo 19).foldl (fun x r => if x.ringState r = 1 ∨ x.ringState r = 4 then x.setRing r 1 else x) e2

/-- Instants the engine remembers move with device time when a takeover sets it to the pair's. -/
def moveTimes (e : Engine) (d : Int) : Engine :=
  let mv (t : Nat) : Nat := ((t : Int) + d).toNat
  { e with
    jump := e.jump + d
    pins := { e.pins with bootTime := mv e.pins.bootTime }
    pair := { e.pair with lastSent := mv e.pair.lastSent, stTime := mv e.pair.stTime, lastPeer := e.pair.lastPeer.map mv, releasedAt := e.pair.releasedAt.map mv,
                          takeAt := e.pair.takeAt.map mv }
    afe := e.afe.map fun (a : AfeSide) => { a with settleStart := a.settleStart.map mv, settleAt := mv a.settleAt, bufStart := a.bufStart.map mv }
    cal := { e.cal with bootTime := mv e.cal.bootTime, lastDone := e.cal.lastDone.map mv, rtdTime := e.cal.rtdTime.map fun t => t.map mv }
    qdr := { e.qdr with scrubLast := mv e.qdr.scrubLast, passStart := mv e.qdr.passStart, wdogRest := e.qdr.wdogRest.map mv }
    link := { e.link with vec := e.link.vec.map fun (v : VecSt) => { v with lastMsg := v.lastMsg.map mv } }
    mets := { e.mets with noRec := e.mets.noRec.map mv, fe := e.mets.fe.map fun x => (x.1.map mv, x.2) } }

/-- The host protocol shadow is installed (R370 items 1 to 4): rings, sequences, cached buffers to be filled again, streams. The section's clock stays (R298). -/
def installShadow (e : Engine) : Engine :=
  let sh := e.pair.shadow
  let e1 := (e.installRegs).moveTimes sh.offset
  let fresh (b : Buf) : Buf := { b with lines := [], begun := false, confirm := .writing, replayed := true }
  let now := ((e.now : Int) + sh.offset).toNat
  ({ e1 with
    now := now
    evt := { queue := [], dseq := sh.dseq, lost := none, unacked := [] }
    cmdIn := [], opens := []
    rings := e1.rings.zipIdx.map fun (x, r) => refetch (e1.devIdx r) x
    streams := (upTo 16).map fun n => { Stream.init with
      running := sh.running.getD n false
      conf := sh.conf.getD n none
      bufs := (sh.cached.filter fun c => c.1 == 3 + n).map fun c => fresh c.2 }
    dma := Engine.reset.dma
    status := { e1.status with seq := sh.head, heartbeat := sh.beat, lastMseq := sh.mseq, lastWrite := now, lastPeriodic := now, hbEvent := now,
                               entryWritten := false, syncDue := none }
    mets := { e1.mets with recv := [], queries := [], asked := none, lastPkt := now, lastSync := now }
    trans := Engine.reset.trans, squall := none
    job := { JobSt.init with isOpen := sh.job, id := sh.jobId, ended := !sh.job } } : Engine).wr R.MET_LAST_MSEQ.V sh.mseq

/-- What is not mirrored begins afresh: units, eddy buffers, channels, generators (R120, R136, R346). A gap calibration that the takeover cuts short is abandoned
(R83, R374). -/
def freshImaging (e : Engine) : Engine :=
  let e0 := if e.on R.CAL_STATUS.RUNNING then e.count R.CAL_ABANDON_CNT.V 1 else e
  let e1 := (e0.stopConversion 0).stopConversion 1
  let e2 : Engine := { e1 with
    gus := List.replicate 8 GuSt.init
    eddy := e1.eddy.map fun (y : EddySt) => { EddySt.init with first := y.first }
    tg := e1.tg.map fun (g : TimingGen) => { TimingGen.init with changes := g.changes, expgen := g.expgen, fmax := g.fmax }
    chans := e1.chans.map fun (h : ChanSt) => { h with queue := [], owed := [], done := [], means := [], shift := none, defects := HeldDrops.init, entered := none }
    cal := { e1.cal with gapStart := none, gapSpans := [], result := none, gapWithheld := false } }
  let e2 := (((upTo 67).foldl (fun x q => if q = 64 then x else x.wr (R.QUE_LEVEL.LEVEL q) 0) e2).resetMonitors)
  let e3 := (upTo 64).foldl (fun x c =>
    let inval (y : Engine) (f : Fld) : Engine := if y.rd f = 2 then y.wr f 0 else y
    inval (inval x (R.SHD_CH_BANK.ASTATE c)) (R.SHD_CH_BANK.BSTATE c)) e2
  (e3.liveStreams.foldl (fun (x : Engine) n => x.holdLine n) ((((e3.loadOffsets 0).loadOffsets 1).wr R.CAL_STATUS.RUNNING 0).wr R.CAL_STATUS.FULL_OPEN 0))

/-- Eddy buffers begin at a raw line: aligned lines from the first that its lines can make, or with copies below it. -/
def eddyFrom (e : Engine) (raw : Nat) (copies : Bool) : Engine :=
  (upTo 2).foldl (fun x s => x.modEddy s fun y =>
    if copies then { y with next := raw, low := raw, first := max raw y.first }
    else { y with next := if raw = 0 then 0 else raw + x.maxLag s + 1 }) e

/-- How a takeover goes on: the mode entered, whether documents are fed again, the index at which capture resumes and the extra reverse travel. -/
structure Resume where
  mode : Mode
  refeed : Bool
  index : Nat
  extra : Int
  copies : Bool
  deriving DecidableEq, Repr

/-- R371 and R372. -/
def resumePlan (e : Engine) : Resume :=
  let m := e.pair.shadow.mode
  if m = 7 ∨ m = 8 then
    let k := e.resumeIndex
    if e.gapMode then ⟨.m6, true, e.mot.kept, 0, true⟩
    else if e.backAllowed k then ⟨.m8, false, k, e.backTo k, false⟩
    else if e.anySpans then ⟨.m6, true, e.mot.kept, 0, true⟩
    else ⟨.m8, false, e.mot.kept, 0, true⟩
  else if m = 3 ∨ m = 11 then ⟨.m3, false, e.mot.kept, 0, true⟩
  else ⟨.m6, false, e.mot.kept, 0, true⟩

/-- Motion and pacer at the start of service. -/
def resumeMotion (e : Engine) (r : Resume) : Engine :=
  let lull := r.mode == .m8
  { e with
    mot := { e.mot with
      v := 0, acc := 0, kept := r.index, highest := if lull && !r.copies then some ((r.index : Int) - 1) else e.mot.highest
      lastKeptTime := e.now, maxPosTime := e.now, slipRaised := false, encRaised := false }
    pac := { PacerSt.init with
      vovr := e.pac.vovr, st := if lull then .hold else .idle, causes := if lull then 8 else 0
      lullKept := if r.index = 0 then none else some (r.index - 1), lullTime := e.now, restPos := e.mot.pos, extra := r.extra }
    feed := if r.refeed then FeedSt.init else { FeedSt.init with pend := e.feed.pend, patterns := e.feed.patterns, flight := e.feed.flight, speed := e.feed.speed } }

/-- The events of R370, DSEQ continuing: TAKEOVER (of UHP-3 alone, R257), MODE_CHANGE, PAIR_STATE SOLO, and ABORTED for every mirrored command without CMD_DONE. -/
def takeoverEvents (e : Engine) (m : Mode) (nc us : Nat) (refeed : Bool) (opens : List OpenCmd) : Engine :=
  let e1 := if e.ver = 3 then e.emit 0x11 e.pair.cause 0 0 none [(24, 6, nc), (32, 4, us), (36, 1, b2n refeed)] else e
  let e2 := ((if m = .m3 then (e1.changeMode m 9 none).enterIdle else e1.changeMode m 9 none)).pairState 4
  opens.foldl (fun x c => (({ x with opens := x.opens ++ [c] } : Engine).syncOpen).cmdDone c.hseq c.tag c.code stAborted []) e2

/-- TAKEOVER_INSTALL (R369 step 5, R370 to R372, R374). -/
def install (e : Engine) : Engine :=
  if e.pair.st ≠ 6 then e
  else
    let t := e.finishAll (fun (w : Wait) => w == .takeover) stOk []
    let d := t.drainEvents t.evt.queue.length
    let nc := d.lowestNc
    let plan := d.resumePlan
    let us := match d.pair.releasedAt with | some x => (d.now - x) / 1000 | none => 0
    let spans := ((upTo 2).map fun s => (d.refeedPages s).map fun p => (s, p.no)).flatten
    let flagged := plan.refeed && (!spans.isEmpty || !d.feed.flight.isEmpty)
    let n := d.flash.takeovers + 1
    let opens := d.pair.shadow.opens
    let full := d.pair.shadow.mode = 5
    let e1 := ({ d with flash := { d.flash with takeovers := n } } : Engine).modPair fun p => { p with role := 1, releasing := false, current := false, tx := [] }
    let e2 := (e1.wr R.PAIR_TAKEOVERS.V n).wr R.SYS_RESET_CAUSE.word (64 + 128 * e1.rd R.SYS_RESET_CAUSE.PFAIL)
    let e3 := if plan.refeed then ((e2.refeedSide 0).refeedSide 1) else (e2.markTakeover 0).markTakeover 1
    let e4 := (((e3.installShadow).freshImaging).eddyFrom plan.index plan.copies).resumeMotion plan
    let e5 := if full then e4.selectRecord else e4
    let back := plan.mode == .m8 && !plan.copies
    let e6 := (((e5.resumeUnits back 0).resumeUnits back 1).recalcBpm).recalcCap
    let e7 := e6.takeoverEvents plan.mode nc us flagged opens
    let e8 := if plan.refeed then e7.refeedBuffers spans else e7
    let e9 := ((if e8.canStatus then e8.putStatus false false else e8).startConversion 0).startConversion 1
    e9.modShadow fun h => { Shadow.init with conf := h.conf }

/-! ### Sensed lines (R358) -/

/-- SENSED_LINE_EDGE: a leeward in M10 begins a readout that its own trigger generator labels, marked for discard; slices rotate before it. -/
def sensedLine (e0 : Engine) (s : Nat) : Engine :=
  let e := if e0.mode = .m10 ∧ e0.pair.role = 2 ∧ e0.on (R.TG_CTRL.EN s) then e0.rotateDue s else e0
  if e.mode ≠ .m10 ∨ e.pair.role ≠ 2 ∨ (e.gen s).run.isSome ∨ !e.on (R.TG_CTRL.EN s) then e
  else
    let k := Int.fdiv e.mot.pos e.pitch - 1 - e.mot.base
    let run : LineRun := ⟨⟨k, none, false, e.now⟩, e.now, [0, 0, 0, 0], (e.gen s).expgen, e.on (R.AFE_STATUS.CONV_RUN s), e.trimsNow s, e.cfgsNow s⟩
    e.modGen s fun g => { g with lastStart := some e.now, run := some run }

end Engine

/-- PAIR_HEARTBEAT_SEND (R359): `own` is whether PAIR_OWN is sensed asserted by the peer. -/
def execPairHeartbeatSend (own : Bool) (s : State) : Answer := .next (s.onEng fun e => e.sendBeat own)

/-- PEER_HEARTBEAT_LOSS (R364). -/
def execPeerHeartbeatLoss (s : State) : Answer := .next (s.onEng Engine.peerLost)

/-- PAIR_ACK_TIMEOUT (R364). -/
def execPairAckTimeout (s : State) : Answer := .next (s.onEng Engine.ackTimeout)

/-- OWNERSHIP_TIMER (R359). -/
def execOwnershipTimer (s : State) : Answer := .next (s.onEng Engine.ownTimeout)

/-- PAIR_FRAME_RECEIVE (R362). -/
def execPairFrameReceive (frame : PairFrame) (s : State) : Answer := .next (s.onEng fun e => e.frameArrives frame)

/-- PAIR_RETRANSMIT (R362). -/
def execPairRetransmit (s : State) : Answer := .next (s.onEng Engine.retransmit)

/-- MIRROR_ACK (R366). -/
def execMirrorAck (s : State) : Answer := .next (s.onEng Engine.mirrorAcked)

/-- PAIR_LINK_TRAINED (R360, R363): what the peer offers, its preference, serial number and firmware. -/
def execPairLinkTrained (versions : Nat) (pref : Bool) (serial fw : Nat) (s : State) : Answer :=
  .next (s.onEng fun e => e.linkTrained versions pref serial fw)

/-- BULK_COPY_DONE (R364). -/
def execBulkCopyDone (s : State) : Answer := .next (s.onEng Engine.bulkDone)

/-- BOOT_CLAIM (R360). -/
def execBootClaim (s : State) : Answer := .next (s.onEng Engine.bootClaims)

/-- TAKEOVER_START (R368). -/
def execTakeoverStart (s : State) : Answer := .next (s.onEng Engine.autoTake)

/-- TAKEOVER_INSTALL (R370): the staging memory is empty after it. -/
def execTakeoverInstall (s : State) : Answer :=
  .next (if s.eng.pair.st = 6 then s.onMem fun e _ => (e.install, ⟨[], []⟩) else s)

/-- SENSED_LINE_EDGE (R358): a converting side sends the tap's header, at which the section latches its position (R292). -/
def execSensedLineEdge (side : Side) (s : State) : Answer :=
  let t := s.onEng fun e => e.sensedLine side.val
  let starts := (s.eng.gen side.val).run.isNone && (((t.eng.gen side.val).run.map fun r => r.converting).getD false)
  .next (t.onSec fun x now => (if starts then x.latch side.val now else x, []))

/-- PAIR_LINK_DOWN (R361). -/
def execPairLinkDown (s : State) : Answer := .next (s.onEng Engine.linkLost)

end Sys2Proof.Machine
end

