-- ==== Sys2Proof/Machine/Commands.lean ====
section
/-!
DEFINITION. Host commands (12_commands_events.md R260 to R263, R271): how a consumed command is judged (R241, R261), the meaning of every code of R262, and the
consumption of CMD ring entries (R247).
-/

namespace Sys2Proof.Machine

namespace Engine

/-! ### Judging a command (R241, R261) -/

/-- A command is consumed: fewer than 32 without CMD_DONE, and not the one 32 before it; none in M0, M1 and a reset (R241, R262, R346). -/
def canTake (e : Engine) (h : CmdHdr) : Bool :=
  e.resetting.isNone && decide (2 ≤ e.mode.idx) && decide (e.opens.length < 32)
    && !(e.opens.any fun c => c.hseq == (h.hseq.toNat + 2 ^ 32 - 32) % 2 ^ 32)

/-- The selected version lacks a code. -/
def versionLacks (e : Engine) (code : Nat) : Bool :=
  match e.ver with
  | 1 => decide (0x10 ≤ code ∧ code ≤ 0x15)
  | 2 => decide (code = 0x14 ∨ code = 0x15)
  | _ => false

/-- An entry of the CMD ring is consumed: SEQ and DEV_IDX count it, in PAIRED once the leeward has acknowledged it (R366): its delta brings the open command and the
ring as it will stand, and the image follows. -/
def noteCommand (e : Engine) (h : CmdHdr) (code : Nat) : Engine :=
  if e.mirrorFirst then
    let im := e.pair.image
    let after := ({ e with regs := im.regs } : Engine).countCommands 1
    let open' : MirrorItem := .opened h.hseq.toNat h.tag.toNat code
    ({ e with pair := { e.pair with image := { (imageItem im open') with regs := after.regs } } } : Engine).pairSend (some (.command h.hseq.toNat))
      (.delta (hostItems (wordDiff hostMirrored after.regs im.regs) ++ [open']))
  else e.countCommands 1

/-- The first case of R261 that applies decides. `ok` says that every parameter has an allowed value; `modes` are those of the command's row. -/
def command (e : Engine) (h : CmdHdr) (code : Nat) (ok : Bool) (modes : List Nat) (run : Engine → Engine) : Engine :=
  if !e.canTake h then e
  else if !h.reservedZero || !ok then e.complete h code stRejectedParam []
  else if e.versionLacks code then e.complete h code stVersion []
  else if !e.modeIn modes then e.complete h code stRejectedState []
  else run e

/-- Modes a to b. -/
def modesTo (a b : Nat) : List Nat := (upTo (b + 1)).filter fun m => decide (a ≤ m)

/-- NOP. -/
def cmdNop (e : Engine) (h : CmdHdr) : Engine := e.command h 0x01 true (modesTo 2 11) fun x => x.complete h 0x01 stOk []

/-! ### JOB_OPEN (R262) -/

/-- R114: an offset above 4,095. -/
def offsetsBad (e : Engine) : Bool :=
  (upTo 2).any fun s => (e.rowOffsets s).any fun d => match d with | some v => decide (4095 < v) | none => false

/-- R124: a sensor too near on a side with SRC = SENSOR. -/
def distBad (e : Engine) : Bool :=
  (upTo 2).any fun s => !e.jobFramed s
    && decide (256 * e.rd (R.RSM_FRAME_DIST.DIST s) < (e.rd (R.RSM_FRAME_CTRL.LEAD s) + 16) * e.pitch)

/-- A resampling step in range (R144). -/
def stepOk (n : Nat) : Bool := decide (0x08000 ≤ n ∧ n ≤ 0x80000)

/-- R144 for the enabled units. -/
def unitsBad (e : Engine) : Bool :=
  (upTo 8).any fun g => e.on (R.GU_CTRL.EN g)
    && (!stepOk (e.rd (R.GU_XSTEP.STEP g)) || (e.on (R.GU_CTRL.YEN g) && !stepOk (e.rd (R.GU_YSTEP.STEP g)))
      || decide (7680 < e.rd (R.GU_XWIN.X0 g) + e.rd (R.GU_XWIN.W g)) || decide (e.rd (R.GU_XWIN.W g) % e.binOf g ≠ 0))

/-- R157. The reserved codes 5 to 7 of TG_AUX_MODE.MODE count as OFF (DESIGN CHOICE, log 156). -/
def detectorsBad (e : Engine) : Bool :=
  (upTo 2).any fun s => e.on (R.GEO_CTRL.EN s)
    && (decide (e.rd (R.GEO_THR.T_ON s) < e.rd (R.GEO_THR.T_OFF s)) || (e.rd (R.GEO_CTRL.PLANE s) == 3 && decide (4 ≤ e.rd (R.TG_AUX_MODE.MODE s))))

/-- Step rate of an axis in Hz at PAC_VJOB. -/
def stepRate (e : Engine) (i : Nat) : Rat :=
  let r : Rat := (e.rd R.PAC_VJOB.V * 1000 : Nat) / (max 1 (e.rd (R.AX_NM.V 0)) : Nat)
  match e.rd (R.AX_CTRL.MODE i) with
  | 1 => r
  | 0 => 0
  | _ => r * ((e.rdS (R.AX_RATIO.V i)).natAbs : Rat) / 65536

/-- Distance in mm of the run-up that PAC_BACK must hold (R175); with PAC_JMAX = 0 its term is 0 (R169). -/
def runUpMm (e : Engine) : Rat :=
  let v : Rat := (e.rd R.PAC_VRESUME.V : Rat) / 1000
  let a : Rat := (max 1 (e.rd R.PAC_AMAX.V) : Nat)
  let j := e.rd R.PAC_JMAX.V
  v * v / (2 * a) + (if j = 0 then 0 else v * a / (2000 * j : Nat)) + 16 * e.pitchMm

/-- R175. -/
def pacerBad (e : Engine) : Bool :=
  decide (10000000 < e.rd R.PAC_VJOB.V) || decide (e.rd R.PAC_SQUALL.V < e.rd R.PAC_DMAX.V)
    || !e.on (R.AX_CTRL.EN 0) || e.rd (R.AX_CTRL.MODE 0) != 1
    || ((upTo 4).any fun i => e.on (R.AX_CTRL.EN i) && decide (4000000 < e.stepRate i))
    || decide ((e.rd R.PAC_BACK.V * e.rd (R.EN_NM.V e.trigEnc) : Nat) < 1000000 * e.runUpMm)
    || (e.gapMode && ((upTo 2).any e.jobFramed
      || (upTo 2).any fun s => decide ((e.rd R.PAC_MAXDOC_MM.V : Rat) < (e.rd (R.RSM_FRAME_MAX.MAX s) : Rat) * e.pitchMm)))

/-- Every reason of R262 to refuse a JOB_OPEN with REJECTED_PARAM. -/
def jobBad (e : Engine) : Bool :=
  e.offsetsBad || e.distBad || e.unitsBad || e.detectorsBad || e.pacerBad || e.bandwidthRefuses e.liveStreams

/-- A job opens: line index 0 is the next kept trigger; counts since JOB_OPEN, eddy buffers, detectors, monitors, units and frames begin afresh
(R12, R37, R118, R126, R130, R148). -/
def openJob (e : Engine) (jobId : Nat) : Engine :=
  let e1 := (upTo 4).foldl (fun x n => x.wr (R.EN_COUNT.V n) 0) e
  let frames := (upTo 2).map fun s =>
    { FrameSt.init with fixed := if e.jobFramed s && !(e.rowsInUse s).isEmpty then [⟨0, none, 0, false⟩] else [] }
  let e2 : Engine := { e1 with
    job := { JobSt.init with isOpen := true, id := jobId }
    mot := { MotionSt.init with maxPosTime := e.now, dirs := e.mot.dirs }
    pac := { PacerSt.init with vovr := e.rd R.PAC_VJOB.V }
    feed := FeedSt.init, frames := frames, gus := List.replicate 8 GuSt.init
    shd := { e1.shd with windows := [], force := ShdSt.init.force }
    chans := e1.chans.map fun (h : ChanSt) => { h with entered := none, owed := [], done := [], means := [], shift := none, defects := HeldDrops.init }
    tg := e1.tg.map fun (g : TimingGen) => { g with queue := [], slot := none, lastKept := none, drops := HeldDrops.init, substs := [] }
    geo := (upTo 2).map fun s => { GeoSt.init with back := e.rd (R.GEO_BACK.LEVEL s) }
    cal := { e1.cal with gapSpans := [] } }
  let e3 := (upTo 2).foldl (fun x s =>
    (((x.wr (R.RSM_FRAME_STAT.PAGE_NO s) 0).wr (R.RSM_FRAME_STAT.OPEN s) 0).wr (R.GEO_STATUS.BUSY s) 0).wr (R.QUE_LEVEL.LEVEL (65 + s)) 0) e2
  let e4 := (((((e3.resetEddy 0).resetEddy 1).loadOffsets 0).loadOffsets 1).writeTables).resetMonitors
  let e5 := (e4.recalcCap).recalcBpm
  e5.wr R.PAC_VCEIL.V e5.pace.vjob

/-- JOB_OPEN. -/
def cmdJobOpen (e : Engine) (h : CmdHdr) (jobId : Nat) (run : Bool) : Engine :=
  e.command h 0x02 true [6] fun x =>
    if x.job.isOpen || x.bookFilled + x.bookFlight != 0 then x.complete h 0x02 stRejectedState []
    else if x.jobBad then x.complete h 0x02 stRejectedParam []
    else
      let y := x.openJob jobId
      let z := if run then y.startRun none else y
      z.complete h 0x02 stOk [(40, 4, y.rd R.RSM_STATUS.CAP), (44, 4, y.rd R.PAC_VCEIL.V)]

/-! ### JOB_CLOSE -/

/-- Nothing is left to feed (R186, R187). -/
def clearFeed (e : Engine) : Engine := { e with feed := { e.feed with gate := false, pend := 0, patterns := [], withheld := false } }

/-- How a job that is to close brings AX0 to rest, as the state of the transport allows. -/
def closeMotion (e : Engine) : Engine :=
  if e.squall.isSome && e.mode != .m9 then e
  else match e.mode with
    | .m6 => e.closeLines
    | .m9 => e.closeLines
    | .m7 => match e.pac.st with
      | .run => e.setPac .stopping
      | .gapStop => e.setPac .stopping
      | .runup => e.setPac .stopping
      | _ => e
    | .m8 => match e.pac.st with
      | .hold => e.closeFromLull
      | .back => e.setPac .decel
      | .runup => e.setPac .decel
      | _ => e
    | _ => e

/-- A job is to close: AX0 comes to rest as its state allows, at once where it is at rest (R262, R182); waiting holds, RESUMEs and MARKs complete ABORTED after every
other event of that instant (R270). -/
def closeJob (e : Engine) : Engine :=
  let e1 := ((({ e with job := { e.job with closing := true } } : Engine).clearFeed).gapAbandon).dropFades
  (e1.closeMotion).closeCmds e.shd

/-- JOB_CLOSE. -/
def cmdJobClose (e : Engine) (h : CmdHdr) : Engine :=
  e.command h 0x03 true [6, 7, 8, 9] fun x =>
    if !x.job.isOpen || x.job.closing then x.complete h 0x03 stRejectedState []
    else (x.openCmd h 0x03 .jobClose).closeJob

/-! ### Transport (R186) -/

/-- FEED. -/
def cmdFeed (e : Engine) (h : CmdHdr) (count pattern : Nat) : Engine :=
  e.command h 0x04 true [6, 7, 8] fun x =>
    if !x.job.isOpen || x.job.closing || !x.on R.PAC_CTRL.FEED_EN then x.complete h 0x04 stRejectedState []
    else
      let y : Engine := { x with feed := { x.feed with pend := x.feed.pend + count, patterns := x.feed.patterns ++ [(count, pattern)] } }
      (if y.mode = .m6 then y.startRun none else y).complete h 0x04 stOk []

/-- HOLD: a hold that finds AX0 already at rest for it completes at once. -/
def cmdHold (e : Engine) (h : CmdHdr) (kind : Nat) : Engine :=
  e.command h 0x05 (decide (kind ≤ 1)) [7, 8] fun x =>
    if kind = 0 then
      if x.gapMode then x.complete h 0x05 stRejectedParam []
      else
        let y := (({ x with pac := { x.pac with holdLull := true } } : Engine).lullBegin 2).openCmd h 0x05 (.holdRest false)
        if y.mode = .m8 ∧ y.pac.st = .hold then y.holdsAtRest false else y
    else
      let y := (({ x with pac := { x.pac with holdGap := true } } : Engine).closeGate).openCmd h 0x05 (.holdRest true)
      if y.mode = .m7 ∧ y.pac.st = .gapStop ∧ y.atRest then y.holdsAtRest true else y

/-- RESUME: where a gap hold has not stopped AX0 it runs already. -/
def cmdResume (e : Engine) (h : CmdHdr) : Engine :=
  e.command h 0x06 true [7, 8] fun x =>
    if !x.pac.holdLull && !x.pac.holdGap then x.complete h 0x06 stRejectedState []
    else
      let y : Engine := { x with pac := { x.pac with holdLull := false, holdGap := false } }
      if y.mode = .m7 ∧ y.pac.st ≠ .gapStop ∧ y.pac.st ≠ .decel then y.complete h 0x06 stOk [] else y.openCmd h 0x06 (.resumed x.pac.holdLull)

/-- STOP; in a Lull or a restart all of it takes effect after LULL_EXIT (R182). -/
def cmdStop (e : Engine) (h : CmdHdr) : Engine :=
  e.command h 0x07 true [7, 8] fun x =>
    let now (y : Engine) : Engine := ((y.clearFeed).gapAbandon).openCmd h 0x07 .stopRest
    let later (y : Engine) : Engine := { y with pac := { y.pac with stopping := true } }
    if x.squall.isSome then now x
    else match x.pac.st with
      | .run => (now x).setPac .stopping
      | .gapStop => (now x).setPac .stopping
      | .stopping => now x
      | .runup => if x.mode = .m8 then later (x.openCmd h 0x07 .stopRest) else later (now x)
      | _ => later (x.openCmd h 0x07 .stopRest)

/-- SQUALL. -/
def cmdSquall (e : Engine) (h : CmdHdr) : Engine :=
  e.command h 0x08 true [6, 7, 8, 9] fun x =>
    if x.mode = .m9 then x.complete h 0x08 stOk [] else (x.requestSquall 0 0).openCmd h 0x08 .squallRest

/-! ### Streams -/

/-- R144 for a stream. -/
def streamBad (e : Engine) (n : Nat) : Bool :=
  let g := e.guOf n
  let s := e.sideOf n
  let pset := e.rd (R.STR_CFG.PSET n)
  let lut (f : Fld) : Bool := decide (8 < e.rd f)
  let aux := pset == 3 || (pset == 0 && e.rd (R.STR_CFG.PLANE n) == 3) || pset == 4 || pset == 5
  let x0 := e.rd (R.STR_XCROP.X0 n)
  let w := e.rd (R.STR_XCROP.W n)
  !e.on (R.GU_CTRL.EN g) || decide (5 < pset) || lut (R.STR_LUT.LUT_R n) || lut (R.STR_LUT.LUT_G n) || lut (R.STR_LUT.LUT_B n) || lut (R.STR_LUT.LUT_A n)
    || ((pset == 4 || pset == 5) && !e.altMode s) || (aux && e.altMode s && e.on (R.GU_CTRL.YEN g))
    || decide (e.outW g < x0 + w) || (w == 0 && decide (e.outW g ≤ x0))
    || (e.on (R.STR_STRIDE.V n) && decide (e.rd (R.STR_STRIDE.V n) < e.lineLen n))

/-- The last sentence of R175. -/
def gapRoomBad (e : Engine) (l : List Nat) : Bool :=
  e.gapMode && decide (e.rd R.QDR_STAGE_SIZE.V < e.bpmOf l * (e.rd R.PAC_MAXDOC_MM.V + e.rd R.PAC_GAPRES.V))

/-- The live streams with one more. -/
def withStream (e : Engine) (n : Nat) : List Nat := (upTo 16).filter fun k => (e.stream k).running || k == n

/-- STREAM_START. -/
def cmdStreamStart (e : Engine) (h : CmdHdr) (n : Nat) : Engine :=
  e.command h 0x09 (decide (n ≤ 15)) [6, 7, 8] fun x =>
    if (x.stream n).running || x.ringState (3 + n) != 1 then x.complete h 0x09 stRejectedState []
    else if x.streamBad n || x.bandwidthRefuses (x.withStream n) || x.gapRoomBad (x.withStream n) then x.complete h 0x09 stRejectedParam []
    else
      let y := x.modStream n fun s => { s with running := true, waitFrame := true, joined := false, stopPage := false, ending := none, seen := 0 }
      (((y.holdLine n).recalcBpm).recalcCap).complete h 0x09 stOk []

/-- The stream stops after its page, at once where none is in progress. -/
def stopAfterPage (e : Engine) (n : Nat) : Engine :=
  if (e.stream n).joined then e.modStream n fun s => { s with stopPage := true }
  else
    let e1 := ((e.stopStream n).recalcCap).modStream n fun s => { s with ending := some false }
    (e1.closeEnding n).settleStream n

/-- STREAM_STOP (R262, R279, R282). -/
def cmdStreamStop (e : Engine) (h : CmdHdr) (n whn : Nat) : Engine :=
  e.command h 0x0A (decide (n ≤ 15 ∧ whn ≤ 1)) (modesTo 3 9) fun x =>
    let s := x.stream n
    if !s.running && !s.halted then x.complete h 0x0A stOk []
    else
      let y := x.openCmd h 0x0A (.streamFree n)
      let y := if s.halted then y.discardHalted n else y
      let z := if !s.running then y
        else if whn = 0 then y.stopAfterPage n
        else ((if s.halted then y else y.withdraw n).stopStream n).recalcCap
      z.settleStream n

/-- STREAM_REPLAY (R281). -/
def cmdStreamReplay (e : Engine) (h : CmdHdr) (n : Nat) : Engine :=
  e.command h 0x0B (decide (n ≤ 15)) (modesTo 3 9) fun x =>
    if x.ringState (3 + n) != 4 || (x.stream n).replaying then x.complete h 0x0B stRejectedState []
    else
      let again (l : List Buf) : List Buf := match l with
        | b :: t => { b with redo := true, replayed := true, confirm := .readback } :: t
        | [] => []
      (x.modStream n fun s => { s with replaying := true, rw := (0, 0), bufs := again s.bufs }).openCmd h 0x0B (.replay n)

/-! ### Coefficient banks -/

/-- The fade in progress or the queued swap names a channel. -/
def swapNames (w : Option SwapSt) (c : Nat) : Bool := match w with | some q => bitOf q.mask c | none => false

/-- A named bank may not be loaded (R108). -/
def bankBusy (e : Engine) (bank c : Nat) : Bool :=
  (e.rd (R.SHD_CH_BANK.ACTIVE c) == bank && e.mode != .m3) || swapNames e.shd.fade c
    || (swapNames e.shd.queued c && e.rd (R.SHD_CH_BANK.ACTIVE c) != bank) || e.bankState c bank == 2

/-- LOAD_BANK. -/
def cmdLoadBank (e : Engine) (h : CmdHdr) (addr first count bank : Nat) : Engine :=
  let ok := decide (first ≤ 63 ∧ 1 ≤ count ∧ count ≤ 64 ∧ bank ≤ 1)
  e.command h 0x0C ok [3, 4, 6, 7, 8] fun x =>
    if 64 < first + count ∨ addr % 4 ≠ 0 then x.complete h 0x0C stRejectedParam []
    else if (upTo count).any fun i => x.bankBusy bank (first + i) then x.complete h 0x0C stRejectedState []
    else
      let y := x.setBanks first count bank 2
      ({ y with dma := { y.dma with work := y.dma.work ++ [.bank h.hseq.toNat addr first count bank 0 0 []] } } : Engine).openCmd h 0x0C .bankLoad

/-- Lines of a fade code. -/
def fadeLines (code : Nat) : Nat := if code = 0 then 0 else 16 * 2 ^ (code - 1)

/-- A swap accepted while a fade is in progress is queued: its start index counts from the first line after that fade; the one it replaces completes
ABORTED (R111). -/
def queueSwap (e : Engine) (w0 : SwapSt) : Engine :=
  let after := match e.shd.fade with | some f => f.n0 + f.len | none => 0
  let w := { w0 with n0 := e.firstFree w0.mask (max w0.n0 after) }
  let e1 := match e.shd.queued with
    | some q => ((maskChans q.mask).foldl (fun (x : Engine) c => x.wr (R.SHD_CH_BANK.QUEUED c) 0) e).swapDone q stAborted
    | none => e
  let e2 := (maskChans w.mask).foldl (fun (x : Engine) c => x.wr (R.SHD_CH_BANK.QUEUED c) 1) e1
  (({ e2 with shd := { e2.shd with queued := some w } } : Engine).wr R.SHD_FADE.QUEUED 1)

/-- SWAP_BANK (R109, R111). -/
def cmdSwapBank (e : Engine) (h : CmdHdr) (mask index fade : Nat) : Engine :=
  e.command h 0x0D (decide (fade ≤ 5)) [3, 4, 6, 7, 8] fun x =>
    if mask = 0 then x.complete h 0x0D stRejectedParam []
    else if (maskChans mask).any fun c => x.bankState c (1 - x.rd (R.SHD_CH_BANK.ACTIVE c)) != 1 then x.complete h 0x0D stRejectedState []
    else
      let w : SwapSt := ⟨h.hseq.toNat, h.tag.toNat, mask, index, fadeLines fade, false⟩
      let y := x.openCmd h 0x0D (.bankSwap mask index)
      if !x.job.isOpen then
        let none' : SwapSt := { w with n0 := 2 ^ 48 - 1, len := 0 }
        ((y.swapActive mask).bankSwapped none' (2 ^ 48 - 1)).swapDone none' stOk
      else if y.shd.fade.isSome then y.queueSwap w
      else { y with shd := { y.shd with fade := some { w with n0 := y.firstFree mask index } } }

/-! ### Calibration (R87) and exposure (R45) -/

/-- CALIBRATE with KIND GAP. -/
def cmdCalGap (e : Engine) (h : CmdHdr) : Engine :=
  e.command h 0x0E true [6, 7, 8] fun x =>
    let y := (x.raiseGap 4).openCmd h 0x0E .calGap
    if y.cal.gapStart.isSome then { y with cal := { y.cal with lateCmds := y.cal.lateCmds ++ [h.hseq.toNat] } } else y

/-- CALIBRATE with KIND FULL_TARGET. -/
def cmdCalTarget (e : Engine) (h : CmdHdr) : Engine :=
  e.command h 0x0E true [4, 5] fun x =>
    let ready := if x.mode = .m4 then !x.convMissing && x.trans.target.isNone else x.on R.CAL_STATUS.FULL_OPEN && x.cal.full.kind == 0 && x.cal.writing.isNone
    if !ready then x.complete h 0x0E stRejectedState [] else (x.openCmd h 0x0E .calTarget).startTarget

/-- CALIBRATE with KIND FULL_BACKING. -/
def cmdCalBacking (e : Engine) (h : CmdHdr) : Engine :=
  e.command h 0x0E true [5] fun x =>
    if !x.on R.CAL_STATUS.FULL_OPEN || x.cal.full.kind != 0 || x.cal.writing.isSome then x.complete h 0x0E stRejectedState []
    else (x.openCmd h 0x0E .calBacking).startBacking

/-- SET_EXPOSURE. -/
def cmdSetExposure (e : Engine) (h : CmdHdr) (side rows exp index : Nat) : Engine :=
  e.command h 0x0F (decide (side ≤ 2 ∧ 1 ≤ rows ∧ rows ≤ 15)) [4, 5, 6, 7, 8] fun x =>
    let r := x.setExposure side rows exp index
    match r.2 with
    | some i => r.1.complete h 0x0F stOk [(40, 6, i)]
    | none => r.1.complete h 0x0F stRejectedParam []

/-- MARK: an index that has passed completes at once; where a JOB_CLOSE has come first, or the job's lines have ended, it is aborted. -/
def cmdMark (e : Engine) (h : CmdHdr) (index : Nat) : Engine :=
  e.command h 0x10 true [6, 7, 8] fun x =>
    if !x.job.isOpen then x.complete h 0x10 stRejectedState []
    else if index < x.mot.kept then x.complete h 0x10 stOk [(40, 6, x.mot.kept - 1), (48, 8, x.mot.lastKeptTime)]
    else if x.job.ended || x.job.closing then x.complete h 0x10 stAborted []
    else x.openCmd h 0x10 (.mark index)

/-! ### Host memory work (R283, R284) -/

/-- FILL. -/
def cmdFill (e : Engine) (h : CmdHdr) (addr len pattern width : Nat) : Engine :=
  e.command h 0x11 (decide (1 ≤ len) && (width == 1 || width == 2 || width == 4)) (modesTo 3 9 ++ [11]) fun x =>
    ({ x with dma := { x.dma with work := x.dma.work ++ [.fill h.hseq.toNat addr len pattern width 0 false] } } : Engine).openCmd h 0x11 .fill

/-- COMPARE; of nothing it finds no mismatch. -/
def cmdCompare (e : Engine) (h : CmdHdr) (addr sa len : Nat) : Engine :=
  e.command h 0x12 true (modesTo 3 9 ++ [11]) fun x =>
    if x.capacity < sa + len then x.complete h 0x12 stRejectedParam []
    else if len = 0 then x.complete h 0x12 stOk (compareResult none 0)
    else ({ x with dma := { x.dma with work := x.dma.work ++ [.compare h.hseq.toNat addr sa len 0 0 [] none 0 0 false] } } : Engine).openCmd h 0x12 .compare

/-- MET_QUERY (R312); a leeward refuses it (R367, log 40). -/
def cmdMetQuery (e : Engine) (h : CmdHdr) (query arg : Nat) : Engine :=
  e.command h 0x13 (decide (query ≤ 4)) (modesTo 3 9 ++ [11]) fun x => (x.openCmd h 0x13 .metQuery).addQuery ⟨some h.hseq.toNat, query, arg⟩

/-! ### The pair (R368, R373) -/

/-- TAKEOVER. -/
def cmdTakeover (e : Engine) (h : CmdHdr) : Engine :=
  e.command h 0x14 true [10] fun x =>
    if x.pair.role != 2 || !x.ownFree 2000000 || x.pair.st == 6 then x.complete h 0x14 stRejectedState []
    else if x.pair.current then (x.openCmd h 0x14 .takeover).startTaking 3
    else
      let y := x.modPair fun p => { p with role := 1, drive := true, lastSent := x.now, hbStopped := false }
      ((y.enterM3 10).pairState 4).complete h 0x14 stOk []

/-- RELEASE: AX0 first comes to rest. -/
def cmdRelease (e : Engine) (h : CmdHdr) : Engine :=
  e.command h 0x15 true (modesTo 3 9) fun x =>
    if !x.mirrorFirst then x.complete h 0x15 stRejectedState []
    else
      let y := x.openCmd h 0x15 .release
      if y.squall.isSome && y.mode != .m9 then y
      else match y.mode with
        | .m5 => (y.dropFull.finishAll (fun (w : Wait) => match w with | .calTarget => true | .calBacking => true | _ => false) stAborted []).releaseRest
        | .m7 =>
          if y.gapMode then ({ y with pac := { y.pac with holdGap := true } } : Engine).closeGate
          else ({ y with pac := { y.pac with holdLull := true } } : Engine).lullBegin 2
        | .m8 => if y.pac.st = .hold then y.releaseRest else ({ y with pac := { y.pac with holdLull := true } } : Engine).lullBegin 2
        | _ => y.releaseRest

/-! ### STATUS_SYNC and MODE -/

/-- STATUS_SYNC: its CMD_DONE, then the write of R246. -/
def cmdStatusSync (e : Engine) (h : CmdHdr) : Engine :=
  e.command h 0x16 true (modesTo 2 11) fun x =>
    let y := x.complete h 0x16 stOk []
    { y with status := { y.status with syncDue := some y.evt.dseq } }

/-- MODE: one consumed while a transition is in progress waits for it (R342); a leeward takes no target but 10. -/
def cmdMode (e : Engine) (h : CmdHdr) (target : Nat) : Engine :=
  e.command h 0x17 (decide (target ≤ 11)) (modesTo 2 11) fun x =>
    match Mode.ofNat? target with
    | none => x.complete h 0x17 stRejectedParam []
    | some t =>
      if x.mode = .m10 ∧ t ≠ .m10 then x.complete h 0x17 stRejectedState []
      else
        let y := x.openCmd h 0x17 (.mode t)
        if y.trans.target.isSome ∧ ¬ (t = .m2 ∧ y.trans.wokeAt = some y.now) then { y with trans := { y.trans with waiting := y.trans.waiting ++ [⟨h.hseq.toNat, t⟩] } }
        else y.runMode h.hseq.toNat t

/-! ### Consumption of CMD ring entries (R247, R260, R271) -/

/-- An entry in the layout of R260: under UHP-1 its parameters move to bytes 16 to 39, and the engine numbers it itself. -/
def entryBytes (e : Engine) (b : List Byte) : List Byte :=
  if e.ver = 1 then
    sliceBytes b 0 4 ++ leBytes 4 ((e.takenSeq 0 + 1) % 2 ^ 32) ++ sliceBytes b 4 4 ++ List.replicate 4 0 ++ sliceBytes b 8 24 ++ List.replicate 24 0
  else sliceBytes b 0 64

/-- The header of an entry whose parameters lie in given ranges. -/
def entryHdr (b : List Byte) (params : List (Nat × Nat)) : CmdHdr :=
  ⟨BitVec.ofNat 32 (leAt b 4 4), BitVec.ofNat 64 (leAt b 8 8), zeroOutside b ((0, 1) :: (4, 12) :: params)⟩

/-- The command an entry names is judged and carried out. -/
def runEntry (e : Engine) (b : List Byte) : Engine :=
  match leAt b 0 1 with
  | 0x01 => e.cmdNop (entryHdr b [])
  | 0x02 =>
    let h := entryHdr b [(16, 5)]
    e.cmdJobOpen { h with reservedZero := h.reservedZero && decide (leAt b 20 1 ≤ 1) } (leAt b 16 4) (bitOf (leAt b 20 1) 0)
  | 0x03 => e.cmdJobClose (entryHdr b [])
  | 0x04 => e.cmdFeed (entryHdr b [(16, 3)]) (leAt b 16 2) (leAt b 18 1)
  | 0x05 => e.cmdHold (entryHdr b [(16, 1)]) (leAt b 16 1)
  | 0x06 => e.cmdResume (entryHdr b [])
  | 0x07 => e.cmdStop (entryHdr b [])
  | 0x08 => e.cmdSquall (entryHdr b [])
  | 0x09 => e.cmdStreamStart (entryHdr b [(16, 1)]) (leAt b 16 1)
  | 0x0A => e.cmdStreamStop (entryHdr b [(16, 2)]) (leAt b 16 1) (leAt b 17 1)
  | 0x0B => e.cmdStreamReplay (entryHdr b [(16, 1)]) (leAt b 16 1)
  | 0x0C => e.cmdLoadBank (entryHdr b [(16, 11)]) (leAt b 16 8) (leAt b 24 1) (leAt b 25 1) (leAt b 26 1)
  | 0x0D => e.cmdSwapBank (entryHdr b [(16, 15)]) (leAt b 16 8) (leAt b 24 6) (leAt b 30 1)
  | 0x0E =>
    let h := entryHdr b [(16, 1)]
    match leAt b 16 1 with
    | 0 => e.cmdCalGap h
    | 1 => e.cmdCalTarget h
    | 2 => e.cmdCalBacking h
    | _ => e.complete h 0x0E stRejectedParam []
  | 0x0F => e.cmdSetExposure (entryHdr b [(16, 2), (20, 10)]) (leAt b 16 1) (leAt b 17 1) (leAt b 20 4) (leAt b 24 6)
  | 0x10 => e.cmdMark (entryHdr b [(16, 6)]) (leAt b 16 6)
  | 0x11 => e.cmdFill (entryHdr b [(16, 17)]) (leAt b 16 8) (leAt b 24 4) (leAt b 28 4) (leAt b 32 1)
  | 0x12 => e.cmdCompare (entryHdr b [(16, 16)]) (leAt b 16 8) (leAt b 24 4) (leAt b 28 4)
  | 0x13 => e.cmdMetQuery (entryHdr b [(16, 1), (20, 4)]) (leAt b 16 1) (leAt b 20 4)
  | 0x14 => e.cmdTakeover (entryHdr b [])
  | 0x15 => e.cmdRelease (entryHdr b [])
  | 0x16 => e.cmdStatusSync (entryHdr b [])
  | 0x17 => e.cmdMode (entryHdr b [(16, 1)]) (leAt b 16 1)
  | code => e.complete (entryHdr b []) code stRejectedParam []

/-- COMMAND_CONSUME: the entry at DEV_IDX, if its HSEQ follows SEQ and the limits of R241 allow it; in FETCH_ERR the entries received are still
consumed (R242). -/
def consume (e : Engine) : Engine :=
  match e.cmdIn with
  | [] => e
  | c :: rest =>
    let b := e.entryBytes c.bytes
    let want := (e.takenSeq 0 + 1) % 2 ^ 32
    if e.ringState 0 ≠ 1 ∧ e.ringState 0 ≠ 3 then e
    else if leAt b 4 4 ≠ want then e.seqStop 0 (leAt b 4 4)
    else if !e.canTake (entryHdr b []) then e
    else
      ((({ e with cmdIn := rest } : Engine).showCmdIn).noteCommand (entryHdr b []) (leAt b 0 1)).runEntry b

end Engine

/-- NOP (R262). -/
def execNop (h : CmdHdr) (s : State) : Answer := .next (s.onEng fun e => e.cmdNop h)

/-- JOB_OPEN (R262). -/
def execJobOpen (h : CmdHdr) (jobId : Word) (run : Bool) (s : State) : Answer := .next (s.onEng fun e => e.cmdJobOpen h jobId.toNat run)

/-- JOB_CLOSE (R262). -/
def execJobClose (h : CmdHdr) (s : State) : Answer := .next (s.onEng fun e => e.cmdJobClose h)

/-- FEED (R186). -/
def execFeed (h : CmdHdr) (count : BitVec 16) (pattern : Byte) (s : State) : Answer :=
  .next (s.onEng fun e => e.cmdFeed h count.toNat pattern.toNat)

/-- HOLD (R186). -/
def execHold (h : CmdHdr) (kind : Byte) (s : State) : Answer := .next (s.onEng fun e => e.cmdHold h kind.toNat)

/-- RESUME (R186). -/
def execResume (h : CmdHdr) (s : State) : Answer := .next (s.onEng fun e => e.cmdResume h)

/-- STOP (R186). -/
def execStop (h : CmdHdr) (s : State) : Answer := .next (s.onEng fun e => e.cmdStop h)

/-- SQUALL (R186, R187). -/
def execSquall (h : CmdHdr) (s : State) : Answer := .next (s.onEng fun e => e.cmdSquall h)

/-- STREAM_START (R262). -/
def execStreamStart (h : CmdHdr) (stream : Byte) (s : State) : Answer := .next (s.onEng fun e => e.cmdStreamStart h stream.toNat)

/-- STREAM_STOP (R262). -/
def execStreamStop (h : CmdHdr) (stream whn : Byte) (s : State) : Answer :=
  .next (s.onEng fun e => e.cmdStreamStop h stream.toNat whn.toNat)

/-- STREAM_REPLAY (R281). -/
def execStreamReplay (h : CmdHdr) (stream : Byte) (s : State) : Answer := .next (s.onEng fun e => e.cmdStreamReplay h stream.toNat)

/-- LOAD_BANK (R108). -/
def execLoadBank (h : CmdHdr) (addr : BitVec 64) (first count bank : Byte) (s : State) : Answer :=
  .next (s.onEng fun e => e.cmdLoadBank h addr.toNat first.toNat count.toNat bank.toNat)

/-- SWAP_BANK (R109). -/
def execSwapBank (h : CmdHdr) (mask : BitVec 64) (index : BitVec 48) (fade : Byte) (s : State) : Answer :=
  .next (s.onEng fun e => e.cmdSwapBank h mask.toNat index.toNat fade.toNat)

/-- CALIBRATE_GAP (R87). -/
def execCalibrateGap (h : CmdHdr) (s : State) : Answer := .next (s.onEng fun e => e.cmdCalGap h)

/-- CALIBRATE_FULL_TARGET (R87). -/
def execCalibrateFullTarget (h : CmdHdr) (s : State) : Answer := .next (s.onEng fun e => e.cmdCalTarget h)

/-- CALIBRATE_FULL_BACKING (R87). -/
def execCalibrateFullBacking (h : CmdHdr) (s : State) : Answer := .next (s.onEng fun e => e.cmdCalBacking h)

/-- SET_EXPOSURE (R45). -/
def execSetExposure (h : CmdHdr) (side rows : Byte) (exp : Word) (index : BitVec 48) (s : State) : Answer :=
  .next (s.onEng fun e => e.cmdSetExposure h side.toNat rows.toNat exp.toNat index.toNat)

/-- MARK (R262). -/
def execMark (h : CmdHdr) (index : BitVec 48) (s : State) : Answer := .next (s.onEng fun e => e.cmdMark h index.toNat)

/-- FILL (R283). -/
def execFill (h : CmdHdr) (addr : BitVec 64) (length pattern : Word) (width : Byte) (s : State) : Answer :=
  .next (s.onEng fun e => e.cmdFill h addr.toNat length.toNat pattern.toNat width.toNat)

/-- COMPARE (R284). -/
def execCompare (h : CmdHdr) (addr : BitVec 64) (sa length : Word) (s : State) : Answer :=
  .next (s.onEng fun e => e.cmdCompare h addr.toNat sa.toNat length.toNat)

/-- MET_QUERY (R312). -/
def execMetQuery (h : CmdHdr) (query : Byte) (arg : Word) (s : State) : Answer :=
  .next (s.onEng fun e => e.cmdMetQuery h query.toNat arg.toNat)

/-- TAKEOVER (R368). -/
def execTakeover (h : CmdHdr) (s : State) : Answer := .next (s.onEng fun e => e.cmdTakeover h)

/-- RELEASE (R373). -/
def execRelease (h : CmdHdr) (s : State) : Answer := .next (s.onEng fun e => e.cmdRelease h)

/-- STATUS_SYNC (R246). -/
def execStatusSync (h : CmdHdr) (s : State) : Answer := .next (s.onEng fun e => e.cmdStatusSync h)

/-- MODE (R340, R342). -/
def execMode (h : CmdHdr) (target : Byte) (s : State) : Answer := .next (s.onEng fun e => e.cmdMode h target.toNat)

/-- COMMAND_CONSUME (R241, R247). -/
def execCommandConsume (s : State) : Answer := .next (s.onEng Engine.consume)

end Sys2Proof.Machine
end

