-- ==== Sys2Proof/Machine/Pins.lean ====
section
/-!
DEFINITION. What stands at the pins: the outputs of J7, of the timing generators and of the LED drivers, driven or at high impedance (R167, R338, R349, R357,
R359), the terminations, the sensor supplies (R357, R382, R388). The registers report commanded levels (R389); a pin follows the module's role.
-/

namespace Sys2Proof.Machine

/-- An output pin: at high impedance, or driven to a level. -/
inductive Pin where
  | highZ
  | driven (level : Bool)
  deriving DecidableEq, Repr

/-- A level at a pin whose driver is on or off. -/
def Pin.of (on level : Bool) : Pin := if on then .driven level else .highZ

namespace Engine

/-- Commanded level of a digital output (R166, R167): STATIC gives VAL; every other function gives SAFE in M9 and without a job, else its condition,
inverted by INV. -/
def outLevel (e : Engine) (n : Nat) : Bool :=
  let fn := e.rd (R.DO_CFG.FUNC n)
  if fn = 0 then e.on (R.DO_CFG.VAL n)
  else if e.mode = .m9 ∨ !e.job.isOpen then e.on (R.DO_CFG.SAFE n)
  else
    let a := match fn with
      | 1 => e.feed.gate
      | 2 => e.movingFwd
      | 3 => e.mode == .m8
      | 4 => e.mode == .m9
      | 5 => bitOf e.feed.docPattern (e.rd (R.DO_CFG.BIT n))
      | _ => false
    a != e.on (R.DO_CFG.INV n)

/-- The outputs of J7 are driven: by a module that may drive, in M4 to M9, and in M10 from TAKING on (R369). In every other mode they are at high impedance:
R338 says so in its column Motion, read here of all of J7 (DEDUCED, log 160). -/
def j7Driven (e : Engine) : Bool :=
  e.mayDrive && (decide (4 ≤ e.mode.idx ∧ e.mode.idx ≤ 9) || (e.mode == .m10 && e.pair.drive))

/-- The pin of a digital output. -/
def doPin (e : Engine) (n : Nat) : Pin := Pin.of e.j7Driven (e.outLevel n)

/-- The pin of an axis's enable output. -/
def enablePin (e : Engine) (i : Nat) : Pin := Pin.of e.j7Driven (e.axEnable i)

/-- The pin of an axis's direction output. -/
def directionPin (e : Engine) (i : Nat) : Pin := Pin.of e.j7Driven (e.axDirection i)

/-- The TG outputs of a side are driven: its dies powered, on a module that may drive (R338, R357). A leeward's stand at high impedance, and so do its STEP
outputs with those of J7. -/
def tgDriven (e : Engine) (s : Nat) : Bool := e.mayDrive && e.afePresent s && decide (3 ≤ e.mode.idx)

/-- The ILL drivers are connected: on a module that may drive (R357). -/
def illDriven (e : Engine) : Bool := e.mayDrive && decide (3 ≤ e.mode.idx)

/-- The encoder inputs of J7 are terminated (R357, R389): on a windward or a single module. -/
def j7Terminated (e : Engine) : Bool := e.mayDrive

/-- SA and SD in mV for SSEL2 to SSEL0 (R382). -/
def strapVolts (strap : Nat) : Nat × Nat :=
  ([(5000, 3300), (5000, 1800), (12000, 3300), (12000, 5000), (15000, 5000), (3300, 3300), (3300, 1800)] : List (Nat × Nat)).getD strap (0, 0)

/-- The set-points of a side's supplies SA and SD in mV (R357, R382, R388): the strapped voltages while the supplies are on, 2 % less while leeward; from TAKING
on, the set voltages again (R369). -/
def sensorSupply (e : Engine) (s : Nat) : Nat × Nat :=
  let a := e.afe.getD s AfeSide.init
  let v := strapVolts a.strap
  if !a.supplies || decide (e.mode.idx < 3) then (0, 0)
  else if e.mayDrive then v
  else (v.1 * 98 / 100, v.2 * 98 / 100)

end Engine
end Sys2Proof.Machine
end

