-- ==== Sys2Proof/Machine/Registers.lean ====
section
/-!
DEFINITION. BAR0 reads and writes: the access codes (R6, R7), what the registers read (the values of each owning chapter), what writes to
registers with rules of their own do, and the coefficient windows (R4 to R7, R103, R130, R139, R352, R377).
-/

namespace Sys2Proof.Machine

/-- What a field stores for a written value, by the storage rule of its table. -/
def stored (n : Norm) (v : Nat) : Nat :=
  match n with
  | .asWritten => v
  | .clamp lo hi => clampNat lo hi v
  | .atLeast lo => max lo v
  | .atMost hi => min hi v
  | .zeroTo d => if v = 0 then d else v
  | .slotLen => if v = 0 ∨ 32 < v then 32 else v
  | .ownerFree => if 4 < v then 4 else v
  | .plMax => if v = 0 ∨ v = 3 then 2 else v

/-- A word with several fields set. -/
def putFields (w : Word) (l : List (Fld × Nat)) : Word := l.foldl (fun x p => p.1.put x p.2) w

namespace Engine

/-! ### What registers read -/

/-- Steps of an axis since JOB_OPEN (R162, R163). -/
def axisPos (e : Engine) (n : Nat) : Int :=
  if n = 0 then e.stepsOf e.mot.travel
  else Int.fdiv (e.mot.axTravel.getD (n - 1) 0) (65536 * 1000000 * (max 1 (e.rd (R.AX_NM.V 0)) : Nat))

/-- Present step rate of an axis in Hz. -/
def axisRate (e : Engine) (n : Nat) : Nat :=
  let d := if n = 0 then 65536 * e.mot.v else e.axisStep e.mot.v n
  min (2 ^ 23 - 1) (d.natAbs / (655360 * max 1 (e.rd (R.AX_NM.V 0))))

/-- The peer's heartbeat has arrived within the last 1 ms. -/
def peerAlive (e : Engine) : Bool :=
  match e.pair.lastPeer with | some t => decide (e.now ≤ t + 1000000) | none => false

/-- What a measurement shows: a free value for each millisecond, updated every 1 ms; before the first, the reset value (R339, R392, log 161). -/
def measuredWord (e : Engine) (quantity : Nat) (f : Fld) (w : Word) : Word :=
  if e.now < 1000000 then w else f.put w (Config.measured quantity (e.now / 1000000) % 65536)

/-- Registers whose value stands elsewhere in the state: what they read, over the word stored for them. The access that reads a register has itself passed through
REG_REQ, and REG_RSP counts with it (R216, log 114). -/
def viewOf (e : Engine) (name : String) (is : List Nat) (w : Word) : Word :=
  let i := is.headD 0
  let lo (n : Nat) : Word := BitVec.ofNat 32 n
  match name with
  | "SYS_MODE" => putFields w [(R.SYS_MODE.MODE, e.mode.idx), (R.SYS_MODE.BUSY, b2n e.trans.target.isSome),
      (R.SYS_MODE.TARGET, (e.trans.target.map Mode.idx).getD 0)]
  | "SYS_TIME_LO" => lo e.now
  | "SYS_VIN" => e.measuredWord 0 R.SYS_VIN.V w
  | "SYS_PIN" => e.measuredWord 1 R.SYS_PIN.V w
  | "SYS_TEMP" => e.measuredWord 2 R.SYS_TEMP.V w
  | "SYS_TBASE" => e.measuredWord 3 R.SYS_TBASE.V w
  | "UHP_CACHE" => putFields w [(R.UHP_CACHE.FREE, 1024 - e.cached), (R.UHP_CACHE.CACHED, e.cached)]
  | "UHP_SB_MIRROR" => lo (leAt e.status.mirror (4 * i) 4)
  | "UHP_R_CTRL" => if i < 3 then putFields w [(R.UHP_R_CTRL.QUOTA i, 0)] else w
  | "UHP_R_SEQ" => if e.ver = 1 then 0 else w
  | "DMA_STATUS" => putFields w [(R.DMA_STATUS.BUSY, b2n e.dmaBusy), (R.DMA_STATUS.RB_OUT, e.rbOut),
      (R.DMA_STATUS.HALTED, sumNat ((upTo 16).map fun n => b2n (e.stream n).halted * 2 ^ n))]
  | "DMA_S_HELD" => lo (filledOf (e.stream i) + flightOf (e.stream i))
  | "ARB_STATE" =>
    let a := e.port i
    putFields w [(R.ARB_STATE.GRANTED i, b2n a.granted), (R.ARB_STATE.OWNER i, e.inputOf i a.owner), (R.ARB_STATE.TXN i, if a.granted then a.txns.getD a.owner 0 else 0),
      (R.ARB_STATE.REQ i, sumNat ((upTo 4).map fun c => b2n (raisedAt a c) * 2 ^ e.inputOf i c)), (R.ARB_STATE.SLOT i, if e.slotMode i then a.slot else 0)]
  | "ARB_GRANTS" => if e.portIn i then w else 0
  | "ARB_WAITCYC_LO" => if e.portIn i then w else 0
  | "ARB_WAITCYC_HI" => if e.portIn i then w else 0
  | "ARB_MAXWAIT" => if e.portIn i then w else 0
  | "ARB_PREEMPT" => if e.portIn i then w else 0
  | "QUE_LEVEL" => if i = 77 ∨ i = 78 then putFields w [(R.QUE_LEVEL.HWM i, max 1 (e.rd (R.QUE_LEVEL.HWM i)))] else w
  | "TG_STATUS" => putFields w [(R.TG_STATUS.BUSY i, b2n ((e.gen i).run.isSome || e.flushing i)), (R.TG_STATUS.HELD i, b2n (e.gen i).slot.isSome)]
  | "AFE_STATUS" => putFields w [(R.AFE_STATUS.REF_SETTLED i, b2n (e.refSettled i))]
  | "AFE_REF_AGE" => lo (e.bufMs i)
  | "GEO_BACK" => putFields w [(R.GEO_BACK.LEVEL i, (clampInt 0 65535 (e.geoSide i).back).toNat)]
  | "GU_OUT" => lo (e.outW i % 2 ^ 14)
  | "PAC_STATE" => putFields w [(R.PAC_STATE.STATE, e.pac.st.idx), (R.PAC_STATE.LIMIT, e.pac.limit), (R.PAC_STATE.CAUSE, e.pac.causes),
      (R.PAC_STATE.FEED_PEND, e.feedPend)]
  | "PAC_VACT" => lo (ofSigned 24 e.vact)
  | "PAC_FREE" => lo e.pacFree
  | "PAC_INFLIGHT" => lo (min 255 e.feed.flight.length)
  | "LT_POS_LO" => lo (ofSigned 64 e.mot.pos)
  | "LT_POS_HI" => lo (ofSigned 64 e.mot.pos / 2 ^ 32)
  | "LT_KEPT_LO" => lo e.mot.kept
  | "LT_KEPT_HI" => lo (e.mot.kept / 2 ^ 32 % 2 ^ 16)
  | "LT_DISCARD" => lo e.mot.discards
  | "AX_POS" => lo (ofSigned 32 (e.axisPos i))
  | "AX_RATE" => lo (e.axisRate i)
  | "DO_STATE" => lo (sumNat ((upTo 8).map fun n => b2n (e.outLevel n) * 2 ^ n))
  | "PAIR_STATUS" => putFields w [(R.PAIR_STATUS.LINK, b2n e.pair.linkUp), (R.PAIR_STATUS.OWN_SENSE, b2n (e.pair.drive || e.pair.peerOwn)),
      (R.PAIR_STATUS.OWN_DRIVE, b2n e.pair.drive), (R.PAIR_STATUS.HB_OK, b2n e.peerAlive), (R.PAIR_STATUS.ROLE, e.pair.role),
      (R.PAIR_STATUS.STATE, e.pair.st), (R.PAIR_STATUS.PLVER, e.pair.plver)]
  | _ => w

/-- An offset on the die of a side whose AFE die is absent (R352). -/
def dieAbsent (e : Engine) (off : Nat) : Bool := (upTo 2).any fun s => onDie s off && !e.afePresent s

/-- What the register or window word at an aligned offset reads in M1 and above: 0 before M3 outside SYS and NVM (R345), 0 where nothing stands (R377),
the reset value on an absent die (R352). -/
def readReg (e : Engine) (off : Nat) : Word :=
  if e.mode = .m1 ∧ 0x1000 ≤ off ∧ off / 0x1000 ≠ 0x12 then 0
  else if noWindow off then 0
  else if 0x20000 ≤ off then e.word off
  else match RegMap.find off with
    | some (r, is) => if e.dieAbsent off then RegMap.resetWord off else e.viewOf r.name is (e.word off)
    | none => 0

/-- The byte at an offset. -/
def readByte (e : Engine) (off : Nat) : Byte := BitVec.ofNat 8 ((e.readReg (off / 4 * 4)).toNat / 256 ^ (off % 4))

/-- A read of `n` bytes at any alignment, without side effects (R5). -/
def readBytes (e : Engine) (off n : Nat) : List Byte := (upTo n).map fun i => e.readByte (off + i)

/-- SYS_TIME_LO is read: SYS_TIME_HI latches (R339). -/
def readTime (e : Engine) : Engine :=
  if e.mode = .m0 then e
  else ({ e with rsp := leBytes 4 e.now } : Engine).wr R.SYS_TIME_HI.V (e.now / 2 ^ 32)

/-- A register with read-clear fields is read: the value before, then those fields hold what was counted in the same cycle (R6, R7). -/
def readClear (e : Engine) (off coincident : Nat) : Engine :=
  match RegMap.find off with
  | some (r, is) =>
    if e.mode = .m0 ∨ !(r.fields.any fun f => f.access == .rc) then e
    else
      let e1 := { e with rsp := leBytes 4 (e.readReg off).toNat }
      if e.mode = .m1 ∨ e.dieAbsent off then e1
      else
        let e2 := r.fields.foldl (fun x f => if f.access = .rc then x.wr ⟨off, f.hi, f.lo⟩ (min coincident (2 ^ (f.hi + 1 - f.lo) - 1)) else x) e1
        if r.name == "QUE_LOST" && coincident != 0 then e2.queueLost (is.headD 0) else e2
  | none => e

/-! ### Writes by access code (R6) -/

/-- RWL fields of a register take a write: in M3, those of UHP and PAIR in M10 too. -/
def rwlOpen (e : Engine) (off : Nat) : Bool :=
  e.mode == .m3 || (e.mode == .m10 && (off / 0x1000 == 0x1 || off / 0x1000 == 0x11))

/-- One field takes its part of a written word; a W1C bit that hardware sets in the same cycle stays set (R7). -/
def writeField (off : Nat) (value hw : Word) (unlocked : Bool) (x : Engine) (f : FieldSpec) : Engine :=
  let p : Fld := ⟨off, f.hi, f.lo⟩
  match f.access with
  | .rw => x.wr p (stored f.norm (p.get value))
  | .rwl => if unlocked then x.wr p (stored f.norm (p.get value)) else x
  | .w1c => x.wr p ((x.rd p &&& (2 ^ p.width - 1 - p.get value)) ||| p.get hw)
  | _ => x

/-- A write that a locked RWL field would have to change. A field is compared as it was last written, also where a read returns something else: GEO_BACK.LEVEL
(R146) with the level written, not the one in force, and QUOTA of rings 0 to 2, which reads 0, not at all (DESIGN CHOICE, log 151). -/
def lockedChange (e : Engine) (r : RegSpec) (off : Nat) (value : Word) : Bool :=
  !e.rwlOpen off && r.fields.any fun f => f.access == .rwl && ((⟨off, f.hi, f.lo⟩ : Fld).get value != e.rd ⟨off, f.hi, f.lo⟩)

/-- A word written to a register, field by field. -/
def writeFields (e : Engine) (r : RegSpec) (off : Nat) (value hw : Word) : Engine :=
  let e1 := r.fields.foldl (writeField off value hw (e.rwlOpen off)) e
  if e.lockedChange r off value then e1.writeIgnored off else e1

/-! ### Coefficient windows -/

/-- A word through the shading coefficient window, in M3 and M11: stored, the addressed bank VALID (R103, R343). -/
def writeCoef (e : Engine) (off : Nat) (value : Word) : Engine :=
  if off % 4 ≠ 0 ∨ off < 0x80000 ∨ 0x100000 ≤ off ∨ e.preBoot then e
  else if !e.modeIn [3, 11] then e.writeIgnored off
  else
    let c := (off - 0x80000) / 0x2000
    let b := (off - 0x80000) / 0x1000 % 2
    (e.setWord off value).wr (if b = 0 then R.SHD_CH_BANK.ASTATE c else R.SHD_CH_BANK.BSTATE c) 1

/-- Bits of a LUT or resampler word that the window holds (R130, R139). -/
def windowMask (off : Nat) : Word :=
  if 0x20000 ≤ off ∧ off < 0x28000 then
    let m := off % 0x1000 / 4
    if m < 512 then 0xFFFFFFFF else if m = 512 then 0xFFFF else 0
  else if 0x30000 ≤ off ∧ off < 0x40000 ∧ off % 0x1000 < 0x400 then 0xFFFFFFFF
  else 0

/-- A word through the LUT or the resampler window, in M3. -/
def writeWindow (e : Engine) (off : Nat) (value : Word) : Engine :=
  if noWindow off then e
  else if e.mode ≠ .m3 then e.writeIgnored off
  else e.setWord off (value &&& windowMask off)

/-! ### Registers with rules of their own -/

/-- Flash keeps SYS_FW_PREF, and EN and PREF of PAIR_CTRL (R339, R361). -/
def keepInFlash (e : Engine) : Engine :=
  { e with flash := { e.flash with pref := e.rd R.SYS_FW_PREF.V, pairCfg := 2 * e.rd R.PAIR_CTRL.EN + e.rd R.PAIR_CTRL.PREF } }

/-- Every high-water mark takes the present level (R223). -/
def clearHwm (e : Engine) : Engine :=
  (upTo 104).foldl (fun x q => x.wr (R.QUE_LEVEL.HWM q) (x.rd (R.QUE_LEVEL.LEVEL q))) e

/-- A register of an absent die: a write of 1 to TG_CTRL.EN or AFE_CTRL.CONV_EN sets SYS_WRITE_IGNORED, and no write acts (R352). -/
def writeAbsent (e : Engine) (r : RegSpec) (off : Nat) (value : Word) : Engine :=
  if (r.name == "TG_CTRL" || r.name == "AFE_CTRL") && value.msb then e.writeIgnored off else e

/-- A write to the register at an offset that the gate let through. -/
def writeNamed (e : Engine) (r : RegSpec) (is : List Nat) (off : Nat) (value hw : Word) : Engine :=
  let i := is.headD 0
  let plain := e.writeFields r off value hw
  match r.name with
  | "SYS_RESET" => e.softReset value
  | "SYS_FW_PREF" => plain.keepInFlash
  | "UHP_SELECT" => if (upTo 19).any fun k => e.ringState k != 0 then e.writeIgnored off else plain
  | "UHP_R_CTRL" => e.ringCtrl i value
  | "UHP_R_SEQ" => if e.ringState i = 0 then plain else if !e.rwlOpen off && value.toNat == e.rd (R.UHP_R_SEQ.V i) then e else e.writeIgnored off
  | "DMA_CTRL" => e.dmaSnap value
  | "QDR_MAP_REQ" => e.setMapReq value
  | "ARB_STAT_CTRL" => e.arbStat (R.ARB_STAT_CTRL.SNAP.get value == 1) (R.ARB_STAT_CTRL.CLR.get value == 1)
  | "ARB_RANKMAP_BCAST" => e.setRankmaps value
  | "ARB_RANKMAP" => e.setRankmap i (value.toNat % 256)
  | "ARB_CTRL" => if e.slotMode i then plain else plain.modPort i fun a => { a with slot := if plain.slotMode i then 0 else a.slot }
  | "QUE_CTRL" => if R.QUE_CTRL.HWM_CLR.get value = 1 then e.clearHwm else e
  | "TG_CTRL" => if i = 0 then plain.wr (R.TG_CTRL.FOLLOW 0) 0 else plain
  | "SDB_CTRL" => if (R.SDB_CTRL.LOAD i).get value = 1 then plain.sdbStart i else plain
  | "AFE_REF_CTRL" => e.writeRefCtrl i value
  | "AFE_CH_CFG" => e.writeCfg i (is.getD 1 0) value
  | "MET_Q_CTRL" =>
    if R.MET_Q_CTRL.GO.get value = 1 then plain.mailbox (R.MET_Q_CTRL.QUERY.get value) (e.rd R.MET_Q_ARG.V) else plain
  | "PAIR_CTRL" => plain.keepInFlash
  | "NVM_CTRL" => if R.NVM_CTRL.GO.get value = 1 then e.nvmGo (R.NVM_CTRL.OP.get value) else plain
  | _ => plain

/-- An aligned write of a register or window word. -/
def writeReg (e : Engine) (off : Nat) (value hw : Word) : Engine :=
  if off % 4 ≠ 0 then e
  else e.gate off fun x =>
    if 0x80000 ≤ off then x.writeCoef off value
    else if 0x20000 ≤ off then x.writeWindow off value
    else match RegMap.find off with
      | some (r, is) => if x.dieAbsent off then x.writeAbsent r off value else x.writeNamed r is off value hw
      | none => x

/-! ### BAR2 and configuration space -/

/-- What a word of BAR2 reads: a doorbell its ring's HOSTIDX (R238), the MSI-X table, the pending bits (R233); 0 elsewhere. -/
def readBar2 (e : Engine) (off : Nat) : Nat :=
  let entry (i : Nat) : MsixEntry := e.link.msix.getD i ⟨0, 0, true, false⟩
  if off < 0x13000 ∧ off % 0x1000 = 0 then e.rd (R.UHP_R_HOSTIDX.V (off / 0x1000))
  else if 0x1E000 ≤ off ∧ off < 0x1E200 then msixWord (entry ((off - 0x1E000) / 16)) (off / 4 % 4)
  else if off = 0x1F000 then sumNat ((upTo 32).map fun i => b2n (entry i).pend * 2 ^ i)
  else 0

/-- A word of BAR2 is written (R233, R238). -/
def writeBar2 (e : Engine) (off : Nat) (value : Word) : Engine :=
  if off < 0x13000 ∧ off % 0x1000 = 0 then e.doorbell (off / 0x1000) value
  else if 0x1E000 ≤ off ∧ off < 0x1E200 then
    { e with link := { e.link with msix := modAt e.link.msix ((off - 0x1E000) / 16) fun t => putMsix t (off / 4 % 4) value.toNat } }
  else e

/-- The field of Device Control that stands for a size of 128 bytes or a power of two above it. -/
def sizeCode (n : Nat) : Nat := ((upTo 6).find? fun k => decide (n ≤ 128 * 2 ^ k)).getD 5

/-- What a word of configuration space reads (R227 to R232): the header of a type 0 function where PCI Express has it, the capabilities where the model puts
them (log 142). -/
def readConfig (e : Engine) (off : Nat) : Nat :=
  let vendor := Config.pciVendor % 65536
  let bar (i : Nat) : Nat := e.link.bars.getD i 0
  match off with
  | 0x000 => 0x64080000 + vendor
  | 0x004 => 0x00100000 + 4 * b2n e.link.bme
  | 0x008 => 0x04800000 + Config.siliconRevision % 256
  | 0x010 => bar 0 % 2 ^ 32 + 4
  | 0x014 => bar 0 / 2 ^ 32
  | 0x018 => bar 1 % 2 ^ 32 + 4
  | 0x01C => bar 1 / 2 ^ 32
  | 0x020 => bar 2 % 2 ^ 32 + 12
  | 0x024 => bar 2 / 2 ^ 32
  | 0x02C => e.flash.subsystem.getD (0x64080000 + vendor)
  | 0x034 => 0x40
  | 0x040 => 0x00035001
  | 0x050 => 0x00029010
  | 0x054 => 0x10000022
  | 0x058 => 16 * b2n e.link.roEnable + 32 * sizeCode e.link.mps + 256 * b2n e.link.extTags + 4096 * sizeCode e.link.mrrs
  | 0x05C => 0x00000885
  | 0x060 => 65536 * (e.rd R.UHP_LINK.SPEED + 16 * e.rd R.UHP_LINK.WIDTH)
  | 0x074 => 0x0003000F
  | 0x078 => e.link.timeout + 4096 * b2n e.link.tags10
  | 0x07C => 0x0000003E
  | 0x080 => 0x00000005
  | 0x090 => 0x801F0011
  | 0x094 => 0x0001E002
  | 0x098 => 0x0001F002
  | 0x100 => 0x14820001
  | 0x104 => e.link.aerUnc
  | 0x10C => 0x00062010
  | 0x110 => e.link.aerCor
  | 0x114 => 0x00002000
  | 0x118 => 0xA0 + 64 * b2n e.link.ecrcGen + 256 * b2n e.link.ecrcCheck
  | 0x11C => (e.link.header.getD 0 0).toNat
  | 0x120 => (e.link.header.getD 1 0).toNat
  | 0x124 => (e.link.header.getD 2 0).toNat
  | 0x128 => (e.link.header.getD 3 0).toNat
  | 0x148 => 0x15810003
  | 0x14C => e.rd R.SYS_SERIAL_LO.V
  | 0x150 => e.rd R.SYS_SERIAL_HI.V
  | 0x158 => 0x18010019
  | 0x180 => 0x1B010026
  | 0x1B0 => 0x1E01002A
  | 0x1E0 => 0x00010027
  | _ => 0

/-- A base address takes its low or its high word; the bits below the BAR's size stay 0. -/
def putBar (e : Engine) (i size : Nat) (high : Bool) (v : Nat) : Engine :=
  { e with link := { e.link with bars := modAt e.link.bars i fun b =>
      if high then v * 2 ^ 32 + b % 2 ^ 32 else b / 2 ^ 32 * 2 ^ 32 + v / size * size } }

/-- A word of configuration space is written (R227 to R232, log 142): Bus Master Enable, the bases of the BARs, Device Control with Initiate Function Level
Reset, Device Control 2 (Completion Timeout value, 10-bit tags), the AER status words (a 1 clears its bit), the ECRC enables. -/
def writeConfig (e : Engine) (off : Nat) (value : Word) : Engine :=
  let v := value.toNat
  match off with
  | 0x004 => { e with link := { e.link with bme := bitOf v 2 } }
  | 0x010 => e.putBar 0 0x100000 false v
  | 0x014 => e.putBar 0 0x100000 true v
  | 0x018 => e.putBar 1 0x20000 false v
  | 0x01C => e.putBar 1 0x20000 true v
  | 0x020 => e.putBar 2 0x8000000 false v
  | 0x024 => e.putBar 2 0x8000000 true v
  | 0x058 =>
    let e1 : Engine := { e with link := { e.link with
      roEnable := bitOf v 4, mps := 128 * 2 ^ min 2 (v / 32 % 8), extTags := bitOf v 8, mrrs := 128 * 2 ^ min 5 (v / 4096 % 8) } }
    if bitOf v 15 then e1.requestReset .flr else e1
  | 0x078 => { e with link := { e.link with timeout := v % 16, tags10 := bitOf v 12 } }
  | 0x104 => { e with link := { e.link with aerUnc := e.link.aerUnc &&& (2 ^ 32 - 1 - v) } }
  | 0x110 => { e with link := { e.link with aerCor := e.link.aerCor &&& (2 ^ 32 - 1 - v) } }
  | 0x118 => { e with link := { e.link with ecrcGen := bitOf v 6, ecrcCheck := bitOf v 8 } }
  | _ => e

/-- An aligned 32-bit read of BAR2 or configuration space, of no effect but its answer. -/
def readSpace (e : Engine) (v : Nat) : Engine := if e.mode = .m0 then e else { e with rsp := leBytes 4 v }

/-- A misaligned access: a write does nothing; a read answers its bytes (R5). An aligned 32-bit access is not one. -/
def misaligned (e : Engine) (write : Bool) (off size : Nat) : Engine :=
  if write ∨ e.mode = .m0 ∨ (off % 4 = 0 ∧ size = 4) then e else { e with rsp := e.readBytes off size }

end Engine

/-- SYS_TIME_LO_READ (R339). -/
def execSysTimeLoRead (s : State) : Answer := .next (s.onEng Engine.readTime)

/-- RC_READ (R6, R7): `coincident` is what is counted in the same cycle. A read of BAR2 or configuration space clears nothing. -/
def execRcRead (addr : HostAddr) (coincident : Nat) (s : State) : Answer :=
  .next (s.onEng fun e => match addr.space with
    | .bar0 => e.readClear addr.off.toNat coincident
    | .bar2 => e.readSpace (e.readBar2 addr.off.toNat)
    | .config => e.readSpace (e.readConfig addr.off.toNat))

/-- MISALIGNED_ACCESS (R5). What a write carries makes no difference. -/
def execMisalignedAccess (write : Bool) (off : BitVec 20) (size : Nat) (_data : List Byte) (s : State) : Answer :=
  .next (s.onEng fun e => e.misaligned write off.toNat size)

/-- REGISTER_WRITE (R4, R6, R7): `hwSet` are the W1C bits that hardware sets in the same cycle. -/
def execRegisterWrite (addr : HostAddr) (value hwSet : Word) (s : State) : Answer :=
  .next (s.onEng fun e => match addr.space with
    | .bar0 => e.writeReg addr.off.toNat value hwSet
    | .bar2 => if e.mode = .m0 then e else e.writeBar2 addr.off.toNat value
    | .config => if e.mode = .m0 then e else e.writeConfig addr.off.toNat value)

/-- HWM_CLR (R223). -/
def execHwmClr (s : State) : Answer := .next (s.onEng fun e => e.gate R.QUE_CTRL.HWM_CLR.off Engine.clearHwm)

/-- COEF_WINDOW_WRITE (R103). -/
def execCoefWindowWrite (off : BitVec 20) (value : Word) (s : State) : Answer :=
  .next (s.onEng fun e => e.gate off.toNat fun x => x.writeCoef off.toNat value)

end Sys2Proof.Machine
end

