-- ==== Sys2Proof/Machine/Dispatch.lean ====
section
/-!
DEFINITION. The dispatch: one arm per command, each a direct call of its meaning.
-/

namespace Sys2Proof.Machine

/-- The meaning of a command: its effect on everything but the queue. -/
def exec (i : Instr) (s : State) : Host.Outcome State Fault Refusal :=
  match i with
  | .nop h => Sys2Proof.Machine.execNop h s
  | .jobOpen h jobId run => Sys2Proof.Machine.execJobOpen h jobId run s
  | .jobClose h => Sys2Proof.Machine.execJobClose h s
  | .feed h count pattern => Sys2Proof.Machine.execFeed h count pattern s
  | .hold h kind => Sys2Proof.Machine.execHold h kind s
  | .resume h => Sys2Proof.Machine.execResume h s
  | .stop h => Sys2Proof.Machine.execStop h s
  | .squall h => Sys2Proof.Machine.execSquall h s
  | .streamStart h stream => Sys2Proof.Machine.execStreamStart h stream s
  | .streamStop h stream whn => Sys2Proof.Machine.execStreamStop h stream whn s
  | .streamReplay h stream => Sys2Proof.Machine.execStreamReplay h stream s
  | .loadBank h addr first count bank => Sys2Proof.Machine.execLoadBank h addr first count bank s
  | .swapBank h mask index fade => Sys2Proof.Machine.execSwapBank h mask index fade s
  | .calibrateGap h => Sys2Proof.Machine.execCalibrateGap h s
  | .calibrateFullTarget h => Sys2Proof.Machine.execCalibrateFullTarget h s
  | .calibrateFullBacking h => Sys2Proof.Machine.execCalibrateFullBacking h s
  | .setExposure h side rows exp index => Sys2Proof.Machine.execSetExposure h side rows exp index s
  | .mark h index => Sys2Proof.Machine.execMark h index s
  | .fill h addr length pattern width => Sys2Proof.Machine.execFill h addr length pattern width s
  | .compare h addr sa length => Sys2Proof.Machine.execCompare h addr sa length s
  | .metQuery h query arg => Sys2Proof.Machine.execMetQuery h query arg s
  | .takeover h => Sys2Proof.Machine.execTakeover h s
  | .release h => Sys2Proof.Machine.execRelease h s
  | .statusSync h => Sys2Proof.Machine.execStatusSync h s
  | .mode h target => Sys2Proof.Machine.execMode h target s
  | .queryIdent => Sys2Proof.Machine.execQueryIdent s
  | .queryPubkey => Sys2Proof.Machine.execQueryPubkey s
  | .queryRecord mseq => Sys2Proof.Machine.execQueryRecord mseq s
  | .queryLabel label => Sys2Proof.Machine.execQueryLabel label s
  | .queryTemps => Sys2Proof.Machine.execQueryTemps s
  | .queryTimeout => Sys2Proof.Machine.execQueryTimeout s
  | .softReset value => Sys2Proof.Machine.execSoftReset value s
  | .rstN => Sys2Proof.Machine.execRstN s
  | .sysTimeLoRead => Sys2Proof.Machine.execSysTimeLoRead s
  | .uhpSbMirrorRead => Sys2Proof.Machine.execUhpSbMirrorRead s
  | .monResultRead m => Sys2Proof.Machine.execMonResultRead m s
  | .metRec0Read => Sys2Proof.Machine.execMetRec0Read s
  | .metRec31Read => Sys2Proof.Machine.execMetRec31Read s
  | .rcRead addr coincident => Sys2Proof.Machine.execRcRead addr coincident s
  | .misalignedAccess write off size data => Sys2Proof.Machine.execMisalignedAccess write off size data s
  | .registerWrite addr value hwSet => Sys2Proof.Machine.execRegisterWrite addr value hwSet s
  | .sdbLoad side => Sys2Proof.Machine.execSdbLoad side s
  | .sdbReadDone side image => Sys2Proof.Machine.execSdbReadDone side image s
  | .ringEnable r value => Sys2Proof.Machine.execRingEnable r value s
  | .ringDisable r value => Sys2Proof.Machine.execRingDisable r value s
  | .ringRestart r => Sys2Proof.Machine.execRingRestart r s
  | .ringStop r => Sys2Proof.Machine.execRingStop r s
  | .doorbellWrite r value => Sys2Proof.Machine.execDoorbellWrite r value s
  | .arbSnap clr => Sys2Proof.Machine.execArbSnap clr s
  | .arbClr => Sys2Proof.Machine.execArbClr s
  | .rankmapWrite p value => Sys2Proof.Machine.execRankmapWrite p value s
  | .rankmapBcastWrite value => Sys2Proof.Machine.execRankmapBcastWrite value s
  | .hwmClr => Sys2Proof.Machine.execHwmClr s
  | .dmaSnap share => Sys2Proof.Machine.execDmaSnap share s
  | .nvmErase => Sys2Proof.Machine.execNvmErase s
  | .nvmWrite => Sys2Proof.Machine.execNvmWrite s
  | .nvmVerify => Sys2Proof.Machine.execNvmVerify s
  | .nvmActivate => Sys2Proof.Machine.execNvmActivate s
  | .nvmOpDone ok => Sys2Proof.Machine.execNvmOpDone ok s
  | .coefWindowWrite off value => Sys2Proof.Machine.execCoefWindowWrite off value s
  | .afeCfgWrite side k value => Sys2Proof.Machine.execAfeCfgWrite side k value s
  | .refModeWrite side value => Sys2Proof.Machine.execRefModeWrite side value s
  | .qdrMapReqWrite value => Sys2Proof.Machine.execQdrMapReqWrite value s
  | .bar4Read addr len => Sys2Proof.Machine.execBar4Read addr len s
  | .bar4Write addr data => Sys2Proof.Machine.execBar4Write addr data s
  | .busMasterDisable => Sys2Proof.Machine.execBusMasterDisable s
  | .flr => Sys2Proof.Machine.execFlr s
  | .perst => Sys2Proof.Machine.execPerst s
  | .por => Sys2Proof.Machine.execPor s
  | .resetProper => Sys2Proof.Machine.execResetProper s
  | .engineWatchdog => Sys2Proof.Machine.execEngineWatchdog s
  | .arbWatchdogReset => Sys2Proof.Machine.execArbWatchdogReset s
  | .bootComplete f => Sys2Proof.Machine.execBootComplete f s
  | .pfail => Sys2Proof.Machine.execPfail s
  | .pfailRecovery => Sys2Proof.Machine.execPfailRecovery s
  | .wake => Sys2Proof.Machine.execWake s
  | .wakeRailsSettled dieFails => Sys2Proof.Machine.execWakeRailsSettled dieFails s
  | .warmupComplete => Sys2Proof.Machine.execWarmupComplete s
  | .linkUp speed width => Sys2Proof.Machine.execLinkUp speed width s
  | .linkDown => Sys2Proof.Machine.execLinkDown s
  | .linkRetrain speed width => Sys2Proof.Machine.execLinkRetrain speed width s
  | .aerErrorReceived err => Sys2Proof.Machine.execAerErrorReceived err s
  | .encoderEdge enc up => Sys2Proof.Machine.execEncoderEdge enc up s
  | .illegalTransition enc => Sys2Proof.Machine.execIllegalTransition enc s
  | .encoderIndex enc => Sys2Proof.Machine.execEncoderIndex enc s
  | .diAccept n level => Sys2Proof.Machine.execDiAccept n level s
  | .pacerTick => Sys2Proof.Machine.execPacerTick s
  | .feedGateOpen => Sys2Proof.Machine.execFeedGateOpen s
  | .feedTimeout => Sys2Proof.Machine.execFeedTimeout s
  | .lullRest => Sys2Proof.Machine.execLullRest s
  | .lullExitCondition => Sys2Proof.Machine.execLullExitCondition s
  | .backtrackDone => Sys2Proof.Machine.execBacktrackDone s
  | .ax0Rest => Sys2Proof.Machine.execAx0Rest s
  | .squallRest => Sys2Proof.Machine.execSquallRest s
  | .windowOpen side row => Sys2Proof.Machine.execWindowOpen side row s
  | .triggerArrival side bad => Sys2Proof.Machine.execTriggerArrival side bad s
  | .lineStart side => Sys2Proof.Machine.execLineStart side s
  | .readoutEnd side video => Sys2Proof.Machine.execReadoutEnd side video s
  | .flushReadout side => Sys2Proof.Machine.execFlushReadout side s
  | .lineOverrunHoldoff side => Sys2Proof.Machine.execLineOverrunHoldoff side s
  | .tapLineArrival ch poison coefBad => Sys2Proof.Machine.execTapLineArrival ch poison coefBad s
  | .substOverdue ch => Sys2Proof.Machine.execSubstOverdue ch s
  | .lineDefectHoldoff ch => Sys2Proof.Machine.execLineDefectHoldoff ch s
  | .rowLineAssembly side row => Sys2Proof.Machine.execRowLineAssembly side row s
  | .alignedLineReadout side poison => Sys2Proof.Machine.execAlignedLineReadout side poison s
  | .monitorHoldoff m => Sys2Proof.Machine.execMonitorHoldoff m s
  | .guOutputLine g => Sys2Proof.Machine.execGuOutputLine g s
  | .stageLineCommit n => Sys2Proof.Machine.execStageLineCommit n s
  | .pageGeometryDone side => Sys2Proof.Machine.execPageGeometryDone side s
  | .pageEnd side => Sys2Proof.Machine.execPageEnd side s
  | .stagingRequest p req addr txns data => Sys2Proof.Machine.execStagingRequest p req addr txns data s
  | .arbGrant p badParity => Sys2Proof.Machine.execArbGrant p badParity s
  | .arbWatchdogFire p => Sys2Proof.Machine.execArbWatchdogFire p s
  | .scrubRequest => Sys2Proof.Machine.execScrubRequest s
  | .dmaBurst poison => Sys2Proof.Machine.execDmaBurst poison s
  | .readbackCompletion n => Sys2Proof.Machine.execReadbackCompletion n s
  | .readbackError n kind => Sys2Proof.Machine.execReadbackError n kind s
  | .fastCompletionAck n => Sys2Proof.Machine.execFastCompletionAck n s
  | .descriptorFetch r => Sys2Proof.Machine.execDescriptorFetch r s
  | .fetchError r received kind => Sys2Proof.Machine.execFetchError r received kind s
  | .commandConsume => Sys2Proof.Machine.execCommandConsume s
  | .evtRingWrite => Sys2Proof.Machine.execEvtRingWrite s
  | .metRingWrite => Sys2Proof.Machine.execMetRingWrite s
  | .statusBlockWrite => Sys2Proof.Machine.execStatusBlockWrite s
  | .heartbeat => Sys2Proof.Machine.execHeartbeat s
  | .msixMessage v => Sys2Proof.Machine.execMsixMessage v s
  | .tempCompare t0 t1 => Sys2Proof.Machine.execTempCompare t0 t1 s
  | .gapCalCompute => Sys2Proof.Machine.execGapCalCompute s
  | .targetPhaseDone vcalref => Sys2Proof.Machine.execTargetPhaseDone vcalref s
  | .calRecordWriteDone result => Sys2Proof.Machine.execCalRecordWriteDone result s
  | .sliceRotation side => Sys2Proof.Machine.execSliceRotation side s
  | .spareCalDone ch corr => Sys2Proof.Machine.execSpareCalDone ch corr s
  | .conversionStart side => Sys2Proof.Machine.execConversionStart side s
  | .refTimeout side => Sys2Proof.Machine.execRefTimeout side s
  | .refFault side => Sys2Proof.Machine.execRefFault side s
  | .ledPowerMonitor averageMw => Sys2Proof.Machine.execLedPowerMonitor averageMw s
  | .ledDriverFault n bits => Sys2Proof.Machine.execLedDriverFault n bits s
  | .supplyLimit side => Sys2Proof.Machine.execSupplyLimit side s
  | .metInPacket => Sys2Proof.Machine.execMetInPacket s
  | .recordRetransmit => Sys2Proof.Machine.execRecordRetransmit s
  | .syncSend => Sys2Proof.Machine.execSyncSend s
  | .sectionSilent => Sys2Proof.Machine.execSectionSilent s
  | .sectionRestart watchdog => Sys2Proof.Machine.execSectionRestart watchdog s
  | .sectionQuery => Sys2Proof.Machine.execSectionQuery s
  | .sectionAck => Sys2Proof.Machine.execSectionAck s
  | .sectionSync => Sys2Proof.Machine.execSectionSync s
  | .sectionPeer => Sys2Proof.Machine.execSectionPeer s
  | .metCmdRej => Sys2Proof.Machine.execMetCmdRej s
  | .sectionTapLine side => Sys2Proof.Machine.execSectionTapLine side s
  | .recordSend => Sys2Proof.Machine.execRecordSend s
  | .tempPublish => Sys2Proof.Machine.execTempPublish s
  | .sealOpen => Sys2Proof.Machine.execSealOpen s
  | .sealClose => Sys2Proof.Machine.execSealClose s
  | .servicePortWrite off word => Sys2Proof.Machine.execServicePortWrite off word s
  | .sectionFwInstall image => Sys2Proof.Machine.execSectionFwInstall image s
  | .keyRegeneration => Sys2Proof.Machine.execKeyRegeneration s
  | .converterOutput nanovolts clip cmMv excBad vexBad => Sys2Proof.Machine.execConverterOutput nanovolts clip cmMv excBad vexBad s
  | .ovpClamp n on => Sys2Proof.Machine.execOvpClamp n on s
  | .pairHeartbeatSend own => Sys2Proof.Machine.execPairHeartbeatSend own s
  | .peerHeartbeatLoss => Sys2Proof.Machine.execPeerHeartbeatLoss s
  | .pairAckTimeout => Sys2Proof.Machine.execPairAckTimeout s
  | .ownershipTimer => Sys2Proof.Machine.execOwnershipTimer s
  | .pairFrameReceive frame => Sys2Proof.Machine.execPairFrameReceive frame s
  | .pairRetransmit => Sys2Proof.Machine.execPairRetransmit s
  | .mirrorAck => Sys2Proof.Machine.execMirrorAck s
  | .pairLinkTrained versions pref serial fw => Sys2Proof.Machine.execPairLinkTrained versions pref serial fw s
  | .bulkCopyDone => Sys2Proof.Machine.execBulkCopyDone s
  | .bootClaim => Sys2Proof.Machine.execBootClaim s
  | .takeoverStart => Sys2Proof.Machine.execTakeoverStart s
  | .takeoverInstall => Sys2Proof.Machine.execTakeoverInstall s
  | .internalTrigger => Sys2Proof.Machine.execInternalTrigger s
  | .windowClose side row => Sys2Proof.Machine.execWindowClose side row s
  | .hostReadCompletion data err => Sys2Proof.Machine.execHostReadCompletion data err s
  | .fetchCompletion r data => Sys2Proof.Machine.execFetchCompletion r data s
  | .hostTmoExpiry => Sys2Proof.Machine.execHostTmoExpiry s
  | .busMasterEnable => Sys2Proof.Machine.execBusMasterEnable s
  | .perstDeassert => Sys2Proof.Machine.execPerstDeassert s
  | .rstNRelease => Sys2Proof.Machine.execRstNRelease s
  | .wakeReferencesSettled => Sys2Proof.Machine.execWakeReferencesSettled s
  | .feFaultNoticeHoldoff n => Sys2Proof.Machine.execFeFaultNoticeHoldoff n s
  | .thresholdStatePublish => Sys2Proof.Machine.execThresholdStatePublish s
  | .sensedLineEdge side => Sys2Proof.Machine.execSensedLineEdge side s
  | .refBackInWindow side => Sys2Proof.Machine.execRefBackInWindow side s
  | .pairLinkDown => Sys2Proof.Machine.execPairLinkDown s

end Sys2Proof.Machine
end

