-- ==== Sys2Proof/Safety.lean ====
section
/-!
DEFINITION. The terms the statements use: an event told, a command answered or kept open, and the frames: what a command leaves as it was.
-/

namespace Sys2Proof.Machine

/-- The staging memory is in canonical form: equal contents are equal data. -/
def State.staged (s : State) : Prop := s.stg.wf = true

/-- No event is lost by the next two that are built: no reset is in progress and the supply has not failed, nothing lost waits to be named,
EVT has room (R221, R346, R354). -/
abbrev Engine.hears (e : Engine) : Prop := (e.resetting = none ∧ e.pins.failed = false) ∧ e.evt.lost = none ∧ e.evt.queue.length < 255

/-- What R267 gives an event beside its DSEQ, TIME and payload: code, subject, status, the echoed HSEQ, argument. -/
abbrev Ev.brief (v : Ev) : Nat × Nat × Nat × Option Nat × Nat := (v.code, v.subj, v.status, v.hseq, v.arg)

/-- The last event in EVT is of a code, a subject, a status, an echoed HSEQ and an argument (R267). -/
abbrev Engine.told (e : Engine) (code subj status : Nat) (hseq : Option Nat) (arg : Nat) : Prop :=
  e.evt.queue.getLast?.map Ev.brief = some (code, subj, status, hseq, arg)

/-- The payload of the last event in EVT: bytes 24 to 63 of the event (R267). -/
abbrev Engine.toldBytes (e : Engine) (l : List LayField) : Prop :=
  e.evt.queue.getLast?.map (fun v => v.payload) = some ((layBytes 64 l).drop 24)

/-- The events of EVT are those it held and then, in order, these. -/
abbrev Engine.tells (e x : Engine) (l : List (Nat × Nat × Nat × Option Nat × Nat)) : Prop :=
  x.evt.queue.map Ev.brief = e.evt.queue.map Ev.brief ++ l

/-- The first event that EVT takes beside those it held. -/
abbrev Engine.says (e x : Engine) (code subj status : Nat) (hseq : Option Nat) (arg : Nat) : Prop :=
  x.evt.queue[e.evt.queue.length]?.map Ev.brief = some (code, subj, status, hseq, arg)

/-- EVT has room for a CMD_DONE of every open command and four events more; no event waits to be named lost, no reset is in progress and
the supply has not failed. -/
abbrev Engine.roomy (e : Engine) : Prop := (e.resetting = none ∧ e.pins.failed = false) ∧ e.evt.lost = none ∧ e.evt.queue.length + e.opens.length < 250

/-- The last event in EVT is the CMD_DONE of a command: its HSEQ, its code and its status (R247, R268). -/
abbrev Engine.answered (e : Engine) (hseq code status : Nat) : Prop :=
  e.evt.queue.getLast?.map (fun v => (v.code, v.status, v.hseq, v.book)) = some (1, status, some hseq, Booking.cmd hseq status code)

/-- A command is consumed and stays open until what it waits for happens (R247). -/
abbrev Engine.opened (e : Engine) (h : CmdHdr) (code : Nat) (w : Wait) : Prop :=
  OpenCmd.mk h.hseq.toNat h.tag.toNat code w ∈ e.opens

/-- No open command carries the HSEQ of a command: two commands of a ring that has not been set back never share one (R235). -/
abbrev Engine.unused (e : Engine) (h : CmdHdr) : Prop := (e.opens.any fun c => c.hseq == h.hseq.toNat) = false

/-- A host command passes R241 and R261, the supply has not failed: it is consumed, its reserved bytes are 0, the selected version has its code, the mode is one of its row's. -/
abbrev Engine.accepts (e : Engine) (h : CmdHdr) (code : Nat) (modes : List Nat) : Prop :=
  (e.canTake h = true ∧ e.pins.failed = false) ∧ h.reservedZero = true ∧ e.versionLacks code = false ∧ e.modeIn modes = true

/-- The registers that an event and the books of R245 may change: UHP_CMD_OPEN, LAST_DSEQ, the counts of lost events, the two histories, DONE_IDX, the level
of EVT. -/
def bookReg (off : Nat) : Prop :=
  off = R.UHP_CMD_OPEN.V.off ∨ off = R.UHP_LAST_DSEQ.V.off ∨ off = R.UHP_LOST_EVT.V.off ∨ off = R.UHP_NOK_CNT.V.off ∨ off = (R.QUE_LOST.V 64).off
    ∨ off = (R.QUE_LEVEL.LEVEL 64).off ∨ (∃ k : Fin 32, ∃ j : Fin 4, off = (R.UHP_CMDH.V k.val j.val).off) ∨ (∃ k : Fin 32, ∃ j : Fin 4, off = (R.UHP_NOKH.V k.val j.val).off)
    ∨ ∃ r : Fin 19, off = (R.UHP_R_DONE.V r.val).off

/-- Between two engines nothing differs but the registers, and of those only the named offsets. -/
def Engine.onlyRegs (e x : Engine) (offs : List Nat) : Prop :=
  x = { e with regs := x.regs } ∧ ∀ off, off ∉ offs → x.word off = e.word off

/-- Between two engines nothing differs but what events and answers to commands change (EVT, the books, the open commands, the frames a windward sends of
them with what it then holds of the leeward's state), and of the registers the named offsets beside the books. -/
def Engine.onlyBooks (e x : Engine) (offs : List Nat) : Prop :=
  x = { e with
      regs := x.regs, evt := x.evt, opens := x.opens
      pair := { e.pair with tx := x.pair.tx, txNext := x.pair.txNext, image := x.pair.image } }
    ∧ ∀ off, ¬ bookReg off → off ∉ offs → x.word off = e.word off

/-- Registers whose writes follow rules of their own beside their fields' access codes. -/
abbrev ruledRegs : List String :=
  ["SYS_RESET", "SYS_FW_PREF", "UHP_SELECT", "UHP_R_CTRL", "UHP_R_SEQ", "DMA_CTRL", "QDR_MAP_REQ", "ARB_STAT_CTRL", "ARB_RANKMAP_BCAST", "ARB_RANKMAP",
    "ARB_CTRL", "QUE_CTRL", "TG_CTRL", "SDB_CTRL", "AFE_REF_CTRL", "AFE_CH_CFG", "MET_Q_CTRL", "PAIR_CTRL", "NVM_CTRL"]

/-- What a write of `v` leaves in a field that held `old`, of a register whose RWL fields are open or not; `hw` says which W1C bits hardware sets in the same
cycle (R6, R7). -/
abbrev written (f : FieldSpec) (unlocked : Bool) (old v hw : Nat) : Nat :=
  match f.access with
  | .rw => stored f.norm v % 2 ^ (f.hi + 1 - f.lo)
  | .rwl => if unlocked then stored f.norm v % 2 ^ (f.hi + 1 - f.lo) else old
  | .w1c => (old &&& (2 ^ (f.hi + 1 - f.lo) - 1 - v)) ||| hw
  | _ => old

/-- A step touched neither the staging memory nor the section nor the queue. -/
abbrev State.engineOnly (s t : State) : Prop := t.stg = s.stg ∧ t.sec = s.sec ∧ t.pending = s.pending

/-- A step touched the section alone. -/
abbrev State.sectionOnly (s t : State) : Prop := t.eng = s.eng ∧ t.stg = s.stg ∧ t.pending = s.pending

end Sys2Proof.Machine
end

