-- ==== Sys2Proof/Certificates/Slice0/Obligations.lean ====
section
/-!
DEFINITION. The statements for the provers.
-/

open Sys2Proof Sys2Proof.Machine

/-- A NOP or a STATUS_SYNC that R241 and R261 let through completes OK at once, in whatever mode from M2 on; beside its answer nothing changes but,
for STATUS_SYNC, the status block that then waits for its CMD_DONE. A JOB_OPEN that no reason of R262 refuses completes OK and opens the job: its
JOB_ID, line index 0 next, no trigger kept, nothing fed; with RUN = 1 it enters M7 with the pacer in RUN. Host link, flash, staging controllers,
streams and the section interface stand as they were. In M7 with the pacer in RUN, JOB_CLOSE and STOP close the feed gate, leave nothing to feed, put
the pacer into STOPPING and stay open until AX0 rests; JOB_CLOSE marks the job as closing. SQUALL in M6 to M8 puts the pacer into SQUALL with cause
0, counts it, closes the gate and stays open; in M9 it completes OK at once. That no fade or queued swap carries the HSEQ of the command is a
premise: two commands never share one. -/
def Obligations.JobCommands : Prop :=
  (∀ (h : CmdHdr) (s : State), s.eng.accepts h 0x01 [2, 3, 4, 5, 6, 7, 8, 9, 10, 11] → ∃ t, exec (.nop h) s = .next t ∧ s.engineOnly t ∧
    t.eng.answered h.hseq.toNat 0x01 stOk ∧ s.eng.onlyBooks t.eng []) ∧
  (∀ (h : CmdHdr) (s : State), s.eng.accepts h 0x16 [2, 3, 4, 5, 6, 7, 8, 9, 10, 11] → ∃ t, exec (.statusSync h) s = .next t ∧ s.engineOnly t ∧
    t.eng.answered h.hseq.toNat 0x16 stOk ∧ t.eng.status = { s.eng.status with syncDue := some t.eng.evt.dseq } ∧
    ({ s.eng with status := t.eng.status } : Engine).onlyBooks t.eng []) ∧
  (∀ (h : CmdHdr) (jobId : Word) (run : Bool) (s : State), s.eng.accepts h 0x02 [6] → s.eng.job.isOpen = false → s.eng.bookFilled = 0 →
    s.eng.bookFlight = 0 → s.eng.jobBad = false → ∃ t, exec (.jobOpen h jobId run) s = .next t ∧ s.engineOnly t ∧ t.eng.answered h.hseq.toNat 0x02
    stOk ∧ t.eng.job = ⟨true, false, jobId.toNat, false, [], 0, none, none⟩ ∧ t.eng.mot =
    { MotionSt.init with maxPosTime := s.eng.now, dirs := s.eng.mot.dirs } ∧ t.eng.feed = FeedSt.init ∧ t.eng.mode = (if run then Mode.m7 else
    Mode.m6) ∧ t.eng.pac.st = (if run then PacState.run else PacState.idle) ∧ t.eng =
    { t.eng with trans := s.eng.trans, pins := s.eng.pins, flash := s.eng.flash, link := s.eng.link, cmdIn := s.eng.cmdIn, rings := s.eng.rings, status := s.eng.status, streams := s.eng.streams, dma := s.eng.dma, qdr := s.eng.qdr, afe := s.eng.afe, met := s.eng.met, mets := s.eng.mets }) ∧
  (∀ (h : CmdHdr) (s : State), s.eng.accepts h 0x03 [6, 7, 8, 9] → s.eng.mode = .m7 → s.eng.job.isOpen = true → s.eng.job.closing = false →
    s.eng.job.ended = false → s.eng.squall = none → s.eng.pac.st = .run → s.eng.shd.fade.map SwapSt.hseq ≠ some h.hseq.toNat → s.eng.shd.queued.map
    SwapSt.hseq ≠ some h.hseq.toNat → ∃ t, exec (.jobClose h) s = .next t ∧ s.engineOnly t ∧ t.eng.opened h 0x03 .jobClose ∧ t.eng.job =
    { s.eng.job with closing := true } ∧ t.eng.pac = { s.eng.pac with st := .stopping } ∧ t.eng.feed =
    { s.eng.feed with gate := false, pend := 0, patterns := [], withheld := false } ∧ t.eng.mode = .m7 ∧ t.eng =
    { t.eng with trans := s.eng.trans, pins := s.eng.pins, flash := s.eng.flash, link := s.eng.link, cmdIn := s.eng.cmdIn, rings := s.eng.rings, status := s.eng.status, streams := s.eng.streams, dma := s.eng.dma, tg := s.eng.tg, mot := s.eng.mot, frames := s.eng.frames, gus := s.eng.gus, qdr := s.eng.qdr, afe := s.eng.afe, chans := s.eng.chans, eddy := s.eng.eddy, geo := s.eng.geo, mon := s.eng.mon, met := s.eng.met, mets := s.eng.mets }) ∧
  (∀ (h : CmdHdr) (s : State), s.eng.accepts h 0x07 [7, 8] → s.eng.squall = none → s.eng.pac.st = .run → ∃ t, exec (.stop h) s = .next t ∧
    s.engineOnly t ∧ t.eng.opened h 0x07 .stopRest ∧ t.eng.pac = { s.eng.pac with st := .stopping } ∧ t.eng.feed =
    { s.eng.feed with gate := false, pend := 0, patterns := [], withheld := false } ∧
    ({ s.eng with pac := t.eng.pac, feed := t.eng.feed, cal := t.eng.cal } : Engine).onlyBooks t.eng [R.CAL_STATUS.word.off,
    R.CAL_ABANDON_CNT.V.off]) ∧
  (∀ (h : CmdHdr) (s : State), s.eng.accepts h 0x08 [6, 7, 8, 9] → s.eng.mode ≠ .m9 → s.eng.squall = none → ∃ t, exec (.squall h) s = .next t ∧
    s.engineOnly t ∧ t.eng.opened h 0x08 .squallRest ∧ t.eng.squall = some ⟨0, s.eng.vMicron, 0, [], false, 0, false⟩ ∧ t.eng.pac =
    { s.eng.pac with st := .squall, causes := 0, holdLull := false, holdGap := false, exitSince := none } ∧ t.eng.feed =
    { s.eng.feed with gate := false, pend := 0, patterns := [], withheld := false } ∧ t.eng.rd R.PAC_SQUALL_CNT.V = min (2 ^ 32 - 1) (s.eng.rd
    R.PAC_SQUALL_CNT.V + 1) ∧ ({ s.eng with pac := t.eng.pac, feed := t.eng.feed, cal := t.eng.cal, squall := t.eng.squall, trans := t.eng.trans } :
    Engine).onlyBooks t.eng [R.CAL_STATUS.word.off, R.CAL_ABANDON_CNT.V.off, R.PAC_SQUALL_CNT.V.off]) ∧
  (∀ (h : CmdHdr) (s : State), s.eng.accepts h 0x08 [6, 7, 8, 9] → s.eng.mode = .m9 → ∃ t, exec (.squall h) s = .next t ∧ s.engineOnly t ∧
    t.eng.answered h.hseq.toNat 0x08 stOk ∧ s.eng.onlyBooks t.eng [])

/-- FEED in M7 or M8 with feeding enabled adds its documents with their pattern and completes OK; in M6 it also enters M7 with the pacer in RUN. HOLD
with KIND 1 closes the gate and asks for a gap stop; with KIND 0 in LULL mode it begins a Lull with cause COMMAND. RESUME takes both holds away: in
M7 with the pacer in RUN it completes OK, in M8 it stays open until the restart. -/
def Obligations.FeedHoldResume : Prop :=
  (∀ (h : CmdHdr) (count : BitVec 16) (pattern : Byte) (s : State), s.eng.accepts h 0x04 [6, 7, 8] → s.eng.mode ≠ .m6 → s.eng.job.isOpen = true →
    s.eng.job.closing = false → s.eng.on R.PAC_CTRL.FEED_EN = true → ∃ t, exec (.feed h count pattern) s = .next t ∧ s.engineOnly t ∧ t.eng.answered
    h.hseq.toNat 0x04 stOk ∧
    ({ s.eng with feed := { s.eng.feed with pend := s.eng.feed.pend + count.toNat, patterns := s.eng.feed.patterns ++ [(count.toNat, pattern.toNat)] } }
    : Engine).onlyBooks t.eng []) ∧
  (∀ (h : CmdHdr) (count : BitVec 16) (pattern : Byte) (s : State), s.eng.accepts h 0x04 [6, 7, 8] → s.eng.mode = .m6 → s.eng.job.isOpen = true →
    s.eng.job.closing = false → s.eng.on R.PAC_CTRL.FEED_EN = true → ∃ t, exec (.feed h count pattern) s = .next t ∧ s.engineOnly t ∧ t.eng.answered
    h.hseq.toNat 0x04 stOk ∧ t.eng.mode = .m7 ∧ t.eng.pac = { s.eng.pac with st := .run } ∧ t.eng.feed =
    { s.eng.feed with pend := s.eng.feed.pend + count.toNat, patterns := s.eng.feed.patterns ++ [(count.toNat, pattern.toNat)] } ∧
    ({ s.eng with mode := t.eng.mode, feed := t.eng.feed, pac := t.eng.pac, cal := t.eng.cal } : Engine).onlyBooks t.eng [R.CAL_STATUS.word.off,
    R.CAL_ABANDON_CNT.V.off]) ∧
  (∀ (h : CmdHdr) (kind : Byte) (s : State), s.eng.accepts h 0x05 [7, 8] → kind = 1 → s.eng.pac.st = .run → ∃ t, exec (.hold h kind) s = .next t ∧
    s.engineOnly t ∧ t.eng.opened h 0x05 (.holdRest true) ∧
    ({ s.eng with pac := { s.eng.pac with holdGap := true }, feed := { s.eng.feed with gate := false } } : Engine).onlyBooks t.eng []) ∧
  (∀ (h : CmdHdr) (kind : Byte) (s : State), s.eng.accepts h 0x05 [7, 8] → kind = 0 → s.eng.gapMode = false → s.eng.squall = none → s.eng.mode = .m7
    → s.eng.pac.st = .run → ∃ t, exec (.hold h kind) s = .next t ∧ s.engineOnly t ∧ t.eng.opened h 0x05 (.holdRest false) ∧ t.eng.pac =
    { s.eng.pac with holdLull := true, causes := s.eng.pac.causes ||| 2, st := .decel, lullSpeed := s.eng.vMicron.toNat, exitSince := none } ∧
    t.eng.feed = { s.eng.feed with gate := false } ∧ ({ s.eng with pac := t.eng.pac, feed := t.eng.feed, cal := t.eng.cal } : Engine).onlyBooks t.eng
    [R.CAL_STATUS.word.off, R.CAL_ABANDON_CNT.V.off]) ∧
  (∀ (h : CmdHdr) (s : State), s.eng.accepts h 0x06 [7, 8] → (s.eng.pac.holdLull || s.eng.pac.holdGap) = true → s.eng.mode = .m7 → s.eng.pac.st =
    .run → ∃ t, exec (.resume h) s = .next t ∧ s.engineOnly t ∧ t.eng.answered h.hseq.toNat 0x06 stOk ∧
    ({ s.eng with pac := { s.eng.pac with holdLull := false, holdGap := false } } : Engine).onlyBooks t.eng []) ∧
  (∀ (h : CmdHdr) (s : State), s.eng.accepts h 0x06 [7, 8] → (s.eng.pac.holdLull || s.eng.pac.holdGap) = true → s.eng.mode = .m8 → ∃ t, exec (.resume
    h) s = .next t ∧ s.engineOnly t ∧ t.eng.opened h 0x06 (.resumed s.eng.pac.holdLull) ∧
    ({ s.eng with pac := { s.eng.pac with holdLull := false, holdGap := false } } : Engine).onlyBooks t.eng [])

/-- STREAM_START that R144, R194 and R175 let through makes the stream run from the next frame and completes OK. STREAM_STOP completes OK at once
where the stream neither runs nor is halted; AFTER_PAGE (WHEN 0) of a stream that has joined a page marks it to stop after that page; NOW (WHEN 1)
ends its running at once. STREAM_REPLAY of a halted ring marks its first buffer to be written again and stays open. Every other stream stands as it
was after START and REPLAY. -/
def Obligations.StreamCommands : Prop :=
  (∀ (h : CmdHdr) (stream : Byte) (s : State), s.eng.accepts h 0x09 [6, 7, 8] → stream.toNat ≤ 15 → (s.eng.stream stream.toNat).running = false →
    s.eng.ringState (3 + stream.toNat) = 1 → s.eng.streamBad stream.toNat = false → s.eng.bandwidthRefuses (s.eng.withStream stream.toNat) = false →
    s.eng.gapRoomBad (s.eng.withStream stream.toNat) = false → ∃ t, exec (.streamStart h stream) s = .next t ∧ s.engineOnly t ∧ t.eng.answered
    h.hseq.toNat 0x09 stOk ∧ (t.eng.streams = modAt s.eng.streams stream.toNat fun x =>
    { x with running := true, waitFrame := true, joined := false, stopPage := false, ending := none, seen := 0 }) ∧
    ({ s.eng with streams := t.eng.streams } : Engine).onlyBooks t.eng [(R.STR_LINE.V stream.toNat).off, R.PAC_BPM.V.off, R.RSM_STATUS.CAP.off]) ∧
  (∀ (h : CmdHdr) (stream whn : Byte) (s : State), s.eng.accepts h 0x0A [3, 4, 5, 6, 7, 8, 9] → stream.toNat ≤ 15 → whn.toNat ≤ 1 → (s.eng.stream
    stream.toNat).running = false → (s.eng.stream stream.toNat).halted = false → ∃ t, exec (.streamStop h stream whn) s = .next t ∧ s.engineOnly t ∧
    t.eng.answered h.hseq.toNat 0x0A stOk ∧ s.eng.onlyBooks t.eng []) ∧
  (∀ (h : CmdHdr) (stream whn : Byte) (s : State), s.eng.accepts h 0x0A [3, 4, 5, 6, 7, 8, 9] → stream.toNat ≤ 15 → whn = 0 → (s.eng.stream
    stream.toNat).running = true → (s.eng.stream stream.toNat).halted = false → (s.eng.stream stream.toNat).joined = true → ∃ t, exec (.streamStop h
    stream whn) s = .next t ∧ s.engineOnly t ∧ t.eng.opened h 0x0A (.streamFree stream.toNat) ∧ (t.eng.stream stream.toNat).running = true ∧
    (t.eng.stream stream.toNat).stopPage = true) ∧
  (∀ (h : CmdHdr) (stream whn : Byte) (s : State), s.eng.accepts h 0x0A [3, 4, 5, 6, 7, 8, 9] → stream.toNat ≤ 15 → whn = 1 → (s.eng.stream
    stream.toNat).running = true → (s.eng.stream stream.toNat).halted = false → ∃ t, exec (.streamStop h stream whn) s = .next t ∧ s.engineOnly t ∧
    (t.eng.stream stream.toNat).running = false ∧ (t.eng.stream stream.toNat).stage = [] ∧ t.eng =
    { t.eng with mode := s.eng.mode, now := s.eng.now, trans := s.eng.trans, pins := s.eng.pins, flash := s.eng.flash, cmdIn := s.eng.cmdIn, status := s.eng.status, dma := s.eng.dma, tg := s.eng.tg, mot := s.eng.mot, feed := s.eng.feed, job := s.eng.job, frames := s.eng.frames, gus := s.eng.gus, qdr := s.eng.qdr, afe := s.eng.afe, chans := s.eng.chans, shd := s.eng.shd, eddy := s.eng.eddy, cal := s.eng.cal, geo := s.eng.geo, mon := s.eng.mon, met := s.eng.met, mets := s.eng.mets }) ∧
  (∀ (h : CmdHdr) (stream : Byte) (s : State), s.eng.accepts h 0x0B [3, 4, 5, 6, 7, 8, 9] → stream.toNat ≤ 15 → s.eng.ringState (3 + stream.toNat) =
    4 → (s.eng.stream stream.toNat).replaying = false → ∃ t, exec (.streamReplay h stream) s = .next t ∧ s.engineOnly t ∧ t.eng.opened h 0x0B
    (.replay stream.toNat) ∧ (t.eng.streams = modAt s.eng.streams stream.toNat fun x =>
    { x with replaying := true, rw := (0, 0), bufs := (x.bufs.take 1).map (fun b => { b with redo := true, replayed := true, confirm := .readback }) ++ x.bufs.drop 1 })
    ∧ ({ s.eng with streams := t.eng.streams } : Engine).onlyBooks t.eng [])

/-- LOAD_BANK with parameters in range and no named bank busy puts every named bank into LOADING, queues the DMA work and stays open. SWAP_BANK whose
named channels all have a VALID other bank: in an open job without a fade it fixes its start index and stays open; without a job ACTIVE of every
named channel changes to the other bank at once and it completes OK. -/
def Obligations.BankCommands : Prop :=
  (∀ (h : CmdHdr) (addr : BitVec 64) (first count bank : Byte) (s : State), s.eng.accepts h 0x0C [3, 4, 6, 7, 8] → first.toNat ≤ 63 → 1 ≤ count.toNat
    → first.toNat + count.toNat ≤ 64 → bank.toNat ≤ 1 → addr.toNat % 4 = 0 → ((upTo count.toNat).any fun i => s.eng.bankBusy bank.toNat (first.toNat
    + i)) = false → ∃ t, exec (.loadBank h addr first count bank) s = .next t ∧ s.engineOnly t ∧ t.eng.opened h 0x0C .bankLoad ∧ (∀ i < count.toNat,
    t.eng.bankState (first.toNat + i) bank.toNat = 2) ∧
    (({ s.eng with dma := { s.eng.dma with work := s.eng.dma.work ++ [.bank h.hseq.toNat addr.toNat first.toNat count.toNat bank.toNat 0 0 []] } } :
    Engine).onlyBooks t.eng ((upTo 64).map fun c => (R.SHD_CH_BANK.ASTATE c).off))) ∧
  (∀ (h : CmdHdr) (mask : BitVec 64) (index : BitVec 48) (fade : Byte) (s : State), s.eng.accepts h 0x0D [3, 4, 6, 7, 8] → mask.toNat ≠ 0 →
    fade.toNat ≤ 5 → ((Engine.maskChans mask.toNat).any fun c => s.eng.bankState c (1 - s.eng.rd (R.SHD_CH_BANK.ACTIVE c)) != 1) = false →
    s.eng.job.isOpen = true → s.eng.shd.fade = none → ∃ t, exec (.swapBank h mask index fade) s = .next t ∧ s.engineOnly t ∧ t.eng.opened h 0x0D
    (.bankSwap mask.toNat index.toNat) ∧
    ({ s.eng with shd := { s.eng.shd with fade := some ⟨h.hseq.toNat, h.tag.toNat, mask.toNat, s.eng.firstFree mask.toNat index.toNat, Engine.fadeLines fade.toNat, false⟩ } }
    : Engine).onlyBooks t.eng []) ∧
  (∀ (h : CmdHdr) (mask : BitVec 64) (index : BitVec 48) (fade : Byte) (s : State), s.eng.accepts h 0x0D [3, 4, 6, 7, 8] → mask.toNat ≠ 0 →
    fade.toNat ≤ 5 → ((Engine.maskChans mask.toNat).any fun c => s.eng.bankState c (1 - s.eng.rd (R.SHD_CH_BANK.ACTIVE c)) != 1) = false →
    s.eng.job.isOpen = false → s.eng.unused h → ∃ t, exec (.swapBank h mask index fade) s = .next t ∧ s.engineOnly t ∧ t.eng.answered h.hseq.toNat
    0x0D stOk ∧ (∀ c : Chan, t.eng.rd (R.SHD_CH_BANK.ACTIVE c.val) = (if bitOf mask.toNat c.val then 1 - s.eng.rd (R.SHD_CH_BANK.ACTIVE c.val) else
    s.eng.rd (R.SHD_CH_BANK.ACTIVE c.val))) ∧ (s.eng.onlyBooks t.eng ((upTo 64).map fun c => (R.SHD_CH_BANK.ACTIVE c).off)))

/-- CALIBRATE with KIND GAP raises a pending request with cause COMMAND and stays open; FULL_TARGET in M4 with every side converting enters M5 and
begins the target phase; FULL_BACKING in M5 after a target phase begins the backing phase. SET_EXPOSURE within range and budget adds the change to
each named side for the effective index and completes OK. No fade or queued swap carries the HSEQ of the command (premise of FULL_TARGET). -/
def Obligations.CalibrateAndExposure : Prop :=
  (∀ (h : CmdHdr) (s : State), s.eng.accepts h 0x0E [6, 7, 8] → ∃ t, exec (.calibrateGap h) s = .next t ∧ s.engineOnly t ∧ t.eng.opened h 0x0E
    .calGap ∧ t.eng.rd R.CAL_STATUS.PENDING = 1 ∧ bitOf (t.eng.rd R.CAL_STATUS.CAUSE) 2 = true ∧ ({ s.eng with cal := t.eng.cal } : Engine).onlyBooks
    t.eng [R.CAL_STATUS.word.off]) ∧
  (∀ (h : CmdHdr) (s : State), s.eng.accepts h 0x0E [4, 5] → s.eng.mode = .m4 → s.eng.convMissing = false → s.eng.trans.target = none →
    s.eng.shd.fade.map SwapSt.hseq ≠ some h.hseq.toNat → s.eng.shd.queued.map SwapSt.hseq ≠ some h.hseq.toNat → ∃ t, exec (.calibrateFullTarget h) s
    = .next t ∧ s.engineOnly t ∧ t.eng.opened h 0x0E .calTarget ∧ t.eng.mode = .m5 ∧ t.eng.cal.full.kind = 1 ∧ t.eng.cal.full.step = (if s.eng.on
    R.CAL_CTRL.NOREF = true then 0 else 11) ∧ t.eng =
    { t.eng with trans := s.eng.trans, pins := s.eng.pins, flash := s.eng.flash, link := s.eng.link, cmdIn := s.eng.cmdIn, rings := s.eng.rings, status := s.eng.status, streams := s.eng.streams, dma := s.eng.dma, tg := s.eng.tg, mot := s.eng.mot, pac := s.eng.pac, feed := s.eng.feed, squall := s.eng.squall, job := s.eng.job, frames := s.eng.frames, gus := s.eng.gus, qdr := s.eng.qdr, eddy := s.eng.eddy, geo := s.eng.geo, mon := s.eng.mon, met := s.eng.met, mets := s.eng.mets }) ∧
  (∀ (h : CmdHdr) (s : State), s.eng.accepts h 0x0E [5] → s.eng.on R.CAL_STATUS.FULL_OPEN = true → s.eng.cal.full.kind = 0 → s.eng.cal.writing = none
    → ∃ t, exec (.calibrateFullBacking h) s = .next t ∧ s.engineOnly t ∧ t.eng.opened h 0x0E .calBacking ∧ t.eng.cal.full.kind = 2 ∧
    t.eng.cal.full.step = 0 ∧ ({ s.eng with cal := t.eng.cal } : Engine).onlyBooks t.eng []) ∧
  (∀ (h : CmdHdr) (side rows : Byte) (exp : Word) (index : BitVec 48) (s : State), s.eng.accepts h 0x0F [4, 5, 6, 7, 8] → side.toNat ≤ 2 → 1 ≤
    rows.toNat → rows.toNat ≤ 15 → ((Engine.sidesOf side.toNat).all fun k => s.eng.expOk k exp.toNat) = true → s.eng.budget (s.eng.expWith
    (Engine.sidesOf side.toNat) rows.toNat exp.toNat) (fun n => s.eng.rd (R.ILL_CUR.LEVEL n)) ≤ 40000 → ∃ t, exec (.setExposure h side rows exp
    index) s = .next t ∧ s.engineOnly t ∧ t.eng.answered h.hseq.toNat 0x0F stOk ∧ (t.eng.tg = (Engine.sidesOf side.toNat).foldl (fun l k => modAt l k
    fun g =>
    { g with changes := g.changes ++ [⟨rows.toNat, exp.toNat, maxOf ((Engine.sidesOf side.toNat).map fun j => s.eng.effIndex j rows.toNat index.toNat)⟩] })
    s.eng.tg) ∧ ({ s.eng with tg := t.eng.tg } : Engine).onlyBooks t.eng [R.ILL_PWR.BUDGET_MW.off])

/-- MARK of an index already kept completes OK with the last kept index and its time; one still to come stays open. FILL and COMPARE queue their DMA
work and stay open; COMPARE of no bytes completes OK. MET_QUERY joins the queries and stays open; with none asked it is sent to the section at once.
-/
def Obligations.MarkFillCompareQuery : Prop :=
  (∀ (h : CmdHdr) (index : BitVec 48) (s : State), s.eng.accepts h 0x10 [6, 7, 8] → s.eng.job.isOpen = true → index.toNat < s.eng.mot.kept → ∃ t,
    exec (.mark h index) s = .next t ∧ s.engineOnly t ∧ t.eng.answered h.hseq.toNat 0x10 stOk ∧ t.eng.toldBytes [(24, 8, h.tag.toNat), (32, 1, 0x10),
    (40, 6, s.eng.mot.kept - 1), (48, 8, s.eng.mot.lastKeptTime)] ∧ s.eng.onlyBooks t.eng []) ∧
  (∀ (h : CmdHdr) (index : BitVec 48) (s : State), s.eng.accepts h 0x10 [6, 7, 8] → s.eng.job.isOpen = true → s.eng.mot.kept ≤ index.toNat →
    s.eng.job.ended = false → s.eng.job.closing = false → ∃ t, exec (.mark h index) s = .next t ∧ s.engineOnly t ∧ t.eng.opened h 0x10 (.mark
    index.toNat) ∧ s.eng.onlyBooks t.eng []) ∧
  (∀ (h : CmdHdr) (addr : BitVec 64) (length pattern : Word) (width : Byte) (s : State), s.eng.accepts h 0x11 [3, 4, 5, 6, 7, 8, 9, 11] → 1 ≤
    length.toNat → (width = 1 ∨ width = 2 ∨ width = 4) → ∃ t, exec (.fill h addr length pattern width) s = .next t ∧ s.engineOnly t ∧ t.eng.opened h
    0x11 .fill ∧
    ({ s.eng with dma := { s.eng.dma with work := s.eng.dma.work ++ [.fill h.hseq.toNat addr.toNat length.toNat pattern.toNat width.toNat 0 false] } }
    : Engine).onlyBooks t.eng []) ∧
  (∀ (h : CmdHdr) (addr : BitVec 64) (sa length : Word) (s : State), s.eng.accepts h 0x12 [3, 4, 5, 6, 7, 8, 9, 11] → sa.toNat + length.toNat ≤
    s.eng.capacity → length ≠ 0 → ∃ t, exec (.compare h addr sa length) s = .next t ∧ s.engineOnly t ∧ t.eng.opened h 0x12 .compare ∧
    ({ s.eng with dma := { s.eng.dma with work := s.eng.dma.work ++ [.compare h.hseq.toNat addr.toNat sa.toNat length.toNat 0 0 [] none 0 0 false] } }
    : Engine).onlyBooks t.eng []) ∧
  (∀ (h : CmdHdr) (addr : BitVec 64) (sa length : Word) (s : State), s.eng.accepts h 0x12 [3, 4, 5, 6, 7, 8, 9, 11] → sa.toNat + length.toNat ≤
    s.eng.capacity → length = 0 → ∃ t, exec (.compare h addr sa length) s = .next t ∧ s.engineOnly t ∧ t.eng.answered h.hseq.toNat 0x12 stOk ∧
    s.eng.onlyBooks t.eng []) ∧
  (∀ (h : CmdHdr) (query : Byte) (arg : Word) (s : State), s.eng.accepts h 0x13 [3, 4, 5, 6, 7, 8, 9, 11] → query.toNat ≤ 4 → s.eng.mets.asked = none
    → s.eng.mets.queries = [] → ∃ t, exec (.metQuery h query arg) s = .next t ∧ s.engineOnly t ∧ t.eng.opened h 0x13 .metQuery ∧
    ({ s.eng with met := { s.eng.met with cmd := s.eng.met.cmd ++ [.query s.eng.mets.nextId query.toNat arg.toNat] }, mets := { s.eng.mets with queries := [⟨some h.hseq.toNat, query.toNat, arg.toNat⟩], asked := some (s.eng.mets.nextId, s.eng.now), nextId := s.eng.mets.nextId + 1 } }
    : Engine).onlyBooks t.eng []) ∧
  (∀ (h : CmdHdr) (query : Byte) (arg : Word) (s : State), s.eng.accepts h 0x13 [3, 4, 5, 6, 7, 8, 9, 11] → query.toNat ≤ 4 → s.eng.mets.asked ≠ none
    → ∃ t, exec (.metQuery h query arg) s = .next t ∧ s.engineOnly t ∧ t.eng.opened h 0x13 .metQuery ∧
    ({ s.eng with mets := { s.eng.mets with queries := s.eng.mets.queries ++ [⟨some h.hseq.toNat, query.toNat, arg.toNat⟩] } } : Engine).onlyBooks
    t.eng [])

/-- TAKEOVER on a current leeward that may take asserts PAIR_OWN, enters TAKING and stays open. RELEASE of a windward at rest in M6 completes OK and
is then releasing. MODE with the present mode as its target completes OK and changes nothing; MODE 3 in M4 without a job and without a transition in
progress enters M3 and completes OK. No fade or queued swap carries the HSEQ of the command (premise of the last), and no open command that of a
MODE. -/
def Obligations.PairAndModeCommands : Prop :=
  (∀ (h : CmdHdr) (s : State), s.eng.accepts h 0x14 [10] → s.eng.pair.role = 2 → s.eng.ownFree 2000000 = true → s.eng.pair.st ≠ 6 →
    s.eng.pair.current = true → ∃ t, exec (.takeover h) s = .next t ∧ s.engineOnly t ∧ t.eng.opened h 0x14 .takeover ∧
    ({ s.eng with pair := { s.eng.pair with st := 6, drive := true, takeAt := some s.eng.now, cause := 3, lastSent := s.eng.now, hbStopped := false, stTime := s.eng.now } }
    : Engine).onlyBooks t.eng []) ∧
  (∀ (h : CmdHdr) (s : State), s.eng.accepts h 0x15 [3, 4, 5, 6, 7, 8, 9] → s.eng.mirrorFirst = true → s.eng.mode = .m6 → s.eng.squall = none → ∃ t,
    exec (.release h) s = .next t ∧ s.engineOnly t ∧ t.eng.answered h.hseq.toNat 0x15 stOk ∧
    ({ s.eng with pair := { s.eng.pair with releasing := true } } : Engine).onlyBooks t.eng []) ∧
  (∀ (h : CmdHdr) (target : Byte) (s : State), s.eng.accepts h 0x17 [2, 3, 4, 5, 6, 7, 8, 9, 10, 11] → Mode.ofNat? target.toNat = some s.eng.mode →
    s.eng.trans.target = none → s.eng.trans.wokeAt ≠ some s.eng.now → s.eng.unused h → ∃ t, exec (.mode h target) s = .next t ∧ s.engineOnly t ∧
    t.eng.answered h.hseq.toNat 0x17 stOk ∧ s.eng.onlyBooks t.eng []) ∧
  (∀ (h : CmdHdr) (target : Byte) (s : State), s.eng.accepts h 0x17 [2, 3, 4, 5, 6, 7, 8, 9, 10, 11] → target = 3 → s.eng.mode = .m4 →
    s.eng.trans.target = none → s.eng.job.isOpen = false → s.eng.unused h → s.eng.shd.fade.map SwapSt.hseq ≠ some h.hseq.toNat → s.eng.shd.queued.map
    SwapSt.hseq ≠ some h.hseq.toNat → ∃ t, exec (.mode h target) s = .next t ∧ s.engineOnly t ∧ t.eng.answered h.hseq.toNat 0x17 stOk ∧ t.eng.mode =
    .m3 ∧ t.eng =
    { t.eng with trans := s.eng.trans, pins := s.eng.pins, flash := s.eng.flash, link := s.eng.link, cmdIn := s.eng.cmdIn, rings := s.eng.rings, status := s.eng.status, streams := s.eng.streams, dma := s.eng.dma, pac := s.eng.pac, feed := s.eng.feed, squall := s.eng.squall, frames := s.eng.frames, gus := s.eng.gus, qdr := s.eng.qdr, eddy := s.eng.eddy, geo := s.eng.geo, mon := s.eng.mon, met := s.eng.met, mets := s.eng.mets })

/-- From M2 on, each query of the mailbox sets BUSY, shows its kind and argument, and joins the queries; with none waiting it is sent to the section
at once. A mailbox query asked 50 ms ago without an answer ends: it leaves the queue with STATUS ABORTED. A MET_QUERY command so asked completes
ABORTED. -/
def Obligations.QueriesQueued : Prop :=
  (∀ (s : State), s.eng.preBoot = false → ∃ t, exec (.queryIdent) s = .next t ∧ s.engineOnly t ∧ t.eng.rd R.MET_Q_CTRL.QUERY = 0 ∧ t.eng.rd
    R.MET_Q_CTRL.BUSY = 1 ∧ t.eng.rd R.MET_Q_ARG.V = s.eng.rd R.MET_Q_ARG.V ∧ t.eng.mets.queries = s.eng.mets.queries ++ [⟨none, 0, s.eng.rd
    R.MET_Q_ARG.V⟩] ∧ ((s.eng.mets.asked = none → s.eng.mets.queries = [] → t.eng.met.cmd = s.eng.met.cmd ++ [.query s.eng.mets.nextId 0 (s.eng.rd
    R.MET_Q_ARG.V)])) ∧ ({ s.eng with met := t.eng.met, mets := t.eng.mets } : Engine).onlyRegs t.eng [R.MET_Q_CTRL.word.off, R.MET_Q_ARG.V.off]) ∧
  (∀ (s : State), s.eng.preBoot = false → ∃ t, exec (.queryPubkey) s = .next t ∧ s.engineOnly t ∧ t.eng.rd R.MET_Q_CTRL.QUERY = 1 ∧ t.eng.rd
    R.MET_Q_CTRL.BUSY = 1 ∧ t.eng.rd R.MET_Q_ARG.V = s.eng.rd R.MET_Q_ARG.V ∧ t.eng.mets.queries = s.eng.mets.queries ++ [⟨none, 1, s.eng.rd
    R.MET_Q_ARG.V⟩] ∧ ((s.eng.mets.asked = none → s.eng.mets.queries = [] → t.eng.met.cmd = s.eng.met.cmd ++ [.query s.eng.mets.nextId 1 (s.eng.rd
    R.MET_Q_ARG.V)])) ∧ ({ s.eng with met := t.eng.met, mets := t.eng.mets } : Engine).onlyRegs t.eng [R.MET_Q_CTRL.word.off, R.MET_Q_ARG.V.off]) ∧
  (∀ (mseq : Word) (s : State), s.eng.preBoot = false → ∃ t, exec (.queryRecord mseq) s = .next t ∧ s.engineOnly t ∧ t.eng.rd R.MET_Q_CTRL.QUERY = 2
    ∧ t.eng.rd R.MET_Q_CTRL.BUSY = 1 ∧ t.eng.rd R.MET_Q_ARG.V = mseq.toNat ∧ t.eng.mets.queries = s.eng.mets.queries ++ [⟨none, 2, mseq.toNat⟩] ∧
    ((s.eng.mets.asked = none → s.eng.mets.queries = [] → t.eng.met.cmd = s.eng.met.cmd ++ [.query s.eng.mets.nextId 2 (mseq.toNat)])) ∧
    ({ s.eng with met := t.eng.met, mets := t.eng.mets } : Engine).onlyRegs t.eng [R.MET_Q_CTRL.word.off, R.MET_Q_ARG.V.off]) ∧
  (∀ (label : Word) (s : State), s.eng.preBoot = false → ∃ t, exec (.queryLabel label) s = .next t ∧ s.engineOnly t ∧ t.eng.rd R.MET_Q_CTRL.QUERY = 3
    ∧ t.eng.rd R.MET_Q_CTRL.BUSY = 1 ∧ t.eng.rd R.MET_Q_ARG.V = label.toNat ∧ t.eng.mets.queries = s.eng.mets.queries ++ [⟨none, 3, label.toNat⟩] ∧
    ((s.eng.mets.asked = none → s.eng.mets.queries = [] → t.eng.met.cmd = s.eng.met.cmd ++ [.query s.eng.mets.nextId 3 (label.toNat)])) ∧
    ({ s.eng with met := t.eng.met, mets := t.eng.mets } : Engine).onlyRegs t.eng [R.MET_Q_CTRL.word.off, R.MET_Q_ARG.V.off]) ∧
  (∀ (s : State), s.eng.preBoot = false → ∃ t, exec (.queryTemps) s = .next t ∧ s.engineOnly t ∧ t.eng.rd R.MET_Q_CTRL.QUERY = 4 ∧ t.eng.rd
    R.MET_Q_CTRL.BUSY = 1 ∧ t.eng.rd R.MET_Q_ARG.V = s.eng.rd R.MET_Q_ARG.V ∧ t.eng.mets.queries = s.eng.mets.queries ++ [⟨none, 4, s.eng.rd
    R.MET_Q_ARG.V⟩] ∧ ((s.eng.mets.asked = none → s.eng.mets.queries = [] → t.eng.met.cmd = s.eng.met.cmd ++ [.query s.eng.mets.nextId 4 (s.eng.rd
    R.MET_Q_ARG.V)])) ∧ ({ s.eng with met := t.eng.met, mets := t.eng.mets } : Engine).onlyRegs t.eng [R.MET_Q_CTRL.word.off, R.MET_Q_ARG.V.off]) ∧
  (∀ (i t0 : Nat) (q : MetQuery) (rest : List MetQuery) (s : State), s.eng.mets.asked = some (i, t0) → t0 + 50000000 ≤ s.eng.now → s.eng.mets.queries
    = q :: rest → q.hseq = none → ∃ t, exec (.queryTimeout) s = .next t ∧ s.engineOnly t ∧ t.eng.rd R.MET_Q_CTRL.STATUS = stAborted ∧
    t.eng.mets.queries = rest ∧ ({ s.eng with met := t.eng.met, mets := t.eng.mets } : Engine).onlyRegs t.eng [R.MET_Q_CTRL.word.off]) ∧
  (∀ (i t0 n : Nat) (q : MetQuery) (rest : List MetQuery) (c : OpenCmd) (s : State), s.eng.resetting = none → s.eng.pins.failed = false →
    s.eng.mets.asked = some (i, t0) → t0 + 50000000 ≤ s.eng.now → s.eng.mets.queries = q :: rest → q.hseq = some n → s.eng.opens.find? (fun c =>
    c.hseq == n && c.wait != Wait.built) = some c → ∃ t, exec (.queryTimeout) s = .next t ∧ s.engineOnly t ∧ t.eng.answered n c.code stAborted ∧
    t.eng.mets.queries = rest ∧ ({ s.eng with met := t.eng.met, mets := t.eng.mets } : Engine).onlyBooks t.eng [])

/-- From M2 on, a read of a register that has read-clear fields, on a die that is present, answers its value before; each read-clear field then holds
what is counted in the same cycle (saturating), every other field of it and every other register stands. A loss counted so at a reserved queue sets
RES_LOST with its number and is told by FAULT QUEUE (with no command open and no transition in progress nothing else changes); in M6 to M8 it is a
Squall too. A read of SYS_TIME_LO answers the low word of device time and latches the high word. A read of UHP_SB_MIRROR0 latches a snapshot and
answers its first word. A read of MONm_RESULT answers it and freezes index and place at the present result. A read of MET_REC0 latches the latest
record into MET_REC. A read of MET_REC31 answers it; under UHP-1 it acknowledges the record MET_REC holds. A misaligned write does nothing; a read
that is not one aligned word answers the bytes there without side effect. -/
def Obligations.ReadsAnswer : Prop :=
  (∀ (off : BitVec 20) (coincident : Nat) (r : RegSpec) (ix : List Nat) (s : State), s.eng.mode ≠ .m0 → s.eng.mode ≠ .m1 → RegMap.find off.toNat =
    some (r, ix) → (r.fields.any fun f => f.access == .rc) = true → s.eng.dieAbsent off.toNat = false → (r.name ≠ "QUE_LOST" ∨ coincident = 0) → ∃ t,
    exec (.rcRead ⟨.bar0, off⟩ coincident) s = .next t ∧ s.engineOnly t ∧ t.eng.rsp = leBytes 4 (s.eng.readReg off.toNat).toNat ∧ (∀ f ∈ r.fields,
    t.eng.rd ⟨off.toNat, f.hi, f.lo⟩ = (if f.access = .rc then min coincident (2 ^ (f.hi + 1 - f.lo) - 1) else s.eng.rd ⟨off.toNat, f.hi, f.lo⟩)) ∧
    ({ s.eng with rsp := t.eng.rsp } : Engine).onlyRegs t.eng [off.toNat]) ∧
  (∀ (off : BitVec 20) (q : Nat) (c : Nat) (s : State), s.eng.mode ≠ .m0 → s.eng.mode ≠ .m1 → off.toNat = (R.QUE_LOST.V q).off → Engine.reservedQueue
    q = true → 0 < c → c < 2 ^ 32 → s.eng.on R.QUE_STATUS.RES_LOST = false → s.eng.modeIn [6, 7, 8] = false → s.eng.hears → s.eng.trans =
    Engine.reset.trans → s.eng.opens = [] → ∃ t, exec (.rcRead ⟨.bar0, off⟩ c) s = .next t ∧ s.engineOnly t ∧ t.eng.rsp = leBytes 4 (s.eng.readReg
    off.toNat).toNat ∧ t.eng.rd (R.QUE_LOST.V q) = c ∧ t.eng.on R.QUE_STATUS.RES_LOST = true ∧ t.eng.rd R.QUE_STATUS.FIRST = q ∧ t.eng.told 0x0F 0x0F
    0 none (q + 256) ∧ t.eng.toldBytes [(24, 4, c)] ∧ ({ s.eng with rsp := t.eng.rsp } : Engine).onlyBooks t.eng [off.toNat, R.QUE_STATUS.word.off]) ∧
  (∀ (off : BitVec 20) (q : Nat) (c : Nat) (s : State), s.eng.mode ≠ .m0 → s.eng.mode ≠ .m1 → off.toNat = (R.QUE_LOST.V q).off → Engine.reservedQueue
    q = true → 0 < c → c < 2 ^ 32 → s.eng.modeIn [6, 7, 8] = true → s.eng.squall = none → s.eng.roomy → ∃ t, exec (.rcRead ⟨.bar0, off⟩ c) s = .next
    t ∧ s.engineOnly t ∧ t.eng.on R.QUE_STATUS.RES_LOST = true ∧ s.eng.says t.eng 0x0F 0x0F 0 none (q + 256) ∧ t.eng.squall = some ⟨6, s.eng.vMicron,
    (s.eng.evt.dseq + 1) % 2 ^ 32, [], false, 0, false⟩ ∧ t.eng.pac.st = .squall ∧ t.eng.feed.gate = false) ∧
  (∀ (s : State), s.eng.mode ≠ .m0 → ∃ t, exec (.sysTimeLoRead) s = .next t ∧ s.engineOnly t ∧ t.eng = ({ s.eng with rsp := leBytes 4 s.eng.now } :
    Engine).wr R.SYS_TIME_HI.V (s.eng.now / 2 ^ 32)) ∧
  (∀ (s : State), s.eng.mode ≠ .m0 → s.eng.mode ≠ .m1 → ∃ t, exec (.uhpSbMirrorRead) s = .next t ∧ s.engineOnly t ∧ t.eng =
    { s.eng with status := { s.eng.status with mirror := s.eng.statusBytes s.eng.status.seq false }, rsp := (s.eng.statusBytes s.eng.status.seq false).take 4 }) ∧
  (∀ (m : Fin 16) (s : State), s.eng.mode ≠ .m0 → s.eng.mode ≠ .m1 → ∃ t, exec (.monResultRead m) s = .next t ∧ s.engineOnly t ∧ t.eng.rsp = leBytes
    4 (s.eng.word (R.MON_RESULT.word m.val).off).toNat ∧ (t.eng.mon = modAt s.eng.mon m.val (fun x => { x with frozen := some x.live })) ∧
    ({ s.eng with rsp := t.eng.rsp, mon := t.eng.mon } : Engine).onlyRegs t.eng [(R.MON_INDEX_LO.V m.val).off, (R.MON_INDEX_HI.V m.val).off,
    (R.MON_PEAKX.V m.val).off]) ∧
  (∀ (mseq : Nat) (b : List Byte) (s : State), s.eng.mode ≠ .m0 → s.eng.mode ≠ .m1 → s.eng.mets.latest = some (mseq, b) → b.length = 128 → ∃ t, exec
    (.metRec0Read) s = .next t ∧ s.engineOnly t ∧ t.eng.mets = { s.eng.mets with latched := some mseq } ∧ (∀ j : Fin 32, t.eng.rd (R.MET_REC.V j.val)
    = leAt b (4 * j.val) 4) ∧ t.eng.rsp = leBytes 4 (leAt b 0 4) ∧ (({ s.eng with rsp := t.eng.rsp, mets := t.eng.mets } : Engine).onlyRegs t.eng
    ((upTo 32).map fun j => (R.MET_REC.V j).off))) ∧
  (∀ (m : Nat) (b : List Byte) (held : Bool) (rest : List (Nat × List Byte × Bool)) (s : State), s.eng.mode ≠ .m0 → s.eng.mode ≠ .m1 → s.eng.ver = 1
    → s.eng.mets.latched = some m → s.eng.mets.recv = (m, b, held) :: rest → ∃ t, exec (.metRec31Read) s = .next t ∧ s.engineOnly t ∧ t.eng =
    { s.eng.wr R.MET_LAST_MSEQ.V m with rsp := leBytes 4 (s.eng.rd (R.MET_REC.V 31)), mets := { s.eng.mets with recv := rest }, status := { s.eng.status with lastMseq := m }, met := { s.eng.met with cmd := s.eng.met.cmd ++ [.ack m] } }) ∧
  (∀ (s : State), s.eng.mode ≠ .m0 → s.eng.mode ≠ .m1 → s.eng.ver ≠ 1 → ∃ t, exec (.metRec31Read) s = .next t ∧ s.engineOnly t ∧ t.eng =
    { s.eng with rsp := leBytes 4 (s.eng.rd (R.MET_REC.V 31)) }) ∧
  (∀ (off : BitVec 20) (size : Nat) (data : List Byte) (s : State), ∃ t, exec (.misalignedAccess true off size data) s = .next t ∧ s.engineOnly t ∧
    t.eng = s.eng) ∧
  (∀ (off : BitVec 20) (size : Nat) (data : List Byte) (s : State), s.eng.mode ≠ .m0 → ¬ (off.toNat % 4 = 0 ∧ size = 4) → ∃ t, exec
    (.misalignedAccess false off size data) s = .next t ∧ s.engineOnly t ∧ t.eng = { s.eng with rsp := s.eng.readBytes off.toNat size })

/-- With no reset in progress and the supply good, SYS_RESET with its key and SOFT = 1, RST_N, PERST#, an FLR, the engine watchdog and the arbiter
watchdog (100 ms after its Squall came to rest; after it fired, where AX0 stood and no Squall arose, log 148) each request a reset of their kind: the
job counts as ended and the heartbeat stops, every conversion ends. One that meets a reset in progress joins it. SYS_RESET without the key is ignored
and SYS_WRITE_IGNORED says so. -/
def Obligations.ResetsRequested : Prop :=
  (∀ (value : Word) (s : State), s.eng.pins.failed = false → s.eng.resetting = none → s.eng.mode ≠ .m0 → R.SYS_RESET.KEY.get value = 0x5AFE →
    R.SYS_RESET.SOFT.get value = 1 → ∃ t, exec (.softReset value) s = .next t ∧ s.engineOnly t ∧ t.eng.resetting = some ⟨[.soft]⟩ ∧ t.eng.job =
    { s.eng.job with isOpen := false, ended := true } ∧ t.eng.pair = { s.eng.pair with hbStopped := true } ∧
    (({ s.eng with resetting := t.eng.resetting, job := t.eng.job, pair := t.eng.pair, tg := t.eng.tg, chans := s.eng.chans.zipIdx.map fun x => if x.2 < 64 then { x.1 with owed := [] } else x.1 }
    : Engine).onlyRegs t.eng ([(R.AFE_STATUS.word 0).off, (R.AFE_STATUS.word 1).off] ++ (upTo 64).map fun c => (R.QUE_BAD.V c).off))) ∧
  (∀ (value : Word) (s : State), s.eng.mode ≠ .m0 → R.SYS_RESET.KEY.get value ≠ 0x5AFE → s.eng.on R.SYS_WRITE_IGNORED.FLAG = false → ∃ t, exec
    (.softReset value) s = .next t ∧ s.engineOnly t ∧ t.eng = (s.eng.wr R.SYS_WRITE_IGNORED.FLAG 1).wr R.SYS_WRITE_IGNORED.OFFSET
    R.SYS_RESET.word.off) ∧
  (∀ (s : State), s.eng.pins.failed = false → s.eng.resetting = none → ∃ t, exec (.rstN) s = .next t ∧ s.engineOnly t ∧ t.eng.resetting = some
    ⟨[.rstN]⟩ ∧ t.eng.job = { s.eng.job with isOpen := false, ended := true } ∧ t.eng.pair = { s.eng.pair with hbStopped := true } ∧
    (({ s.eng with resetting := t.eng.resetting, job := t.eng.job, pair := t.eng.pair, tg := t.eng.tg, chans := s.eng.chans.zipIdx.map fun x => if x.2 < 64 then { x.1 with owed := [] } else x.1, pins := { s.eng.pins with rstLow := true } }
    : Engine).onlyRegs t.eng ([(R.AFE_STATUS.word 0).off, (R.AFE_STATUS.word 1).off] ++ (upTo 64).map fun c => (R.QUE_BAD.V c).off))) ∧
  (∀ (s : State), s.eng.pins.failed = false → s.eng.resetting = none → ∃ t, exec (.perst) s = .next t ∧ s.engineOnly t ∧ t.eng.resetting = some
    ⟨[.perst]⟩ ∧ t.eng.job = { s.eng.job with isOpen := false, ended := true } ∧ t.eng.pair = { s.eng.pair with hbStopped := true } ∧
    (({ s.eng with resetting := t.eng.resetting, job := t.eng.job, pair := t.eng.pair, tg := t.eng.tg, chans := s.eng.chans.zipIdx.map fun x => if x.2 < 64 then { x.1 with owed := [] } else x.1, pins := { s.eng.pins with perstLow := true } }
    : Engine).onlyRegs t.eng ([(R.AFE_STATUS.word 0).off, (R.AFE_STATUS.word 1).off] ++ (upTo 64).map fun c => (R.QUE_BAD.V c).off))) ∧
  (∀ (s : State), s.eng.pins.failed = false → s.eng.resetting = none → ∃ t, exec (.flr) s = .next t ∧ s.engineOnly t ∧ t.eng.resetting = some
    ⟨[.flr]⟩ ∧ t.eng.job = { s.eng.job with isOpen := false, ended := true } ∧ t.eng.pair = { s.eng.pair with hbStopped := true } ∧
    (({ s.eng with resetting := t.eng.resetting, job := t.eng.job, pair := t.eng.pair, tg := t.eng.tg, chans := s.eng.chans.zipIdx.map fun x => if x.2 < 64 then { x.1 with owed := [] } else x.1 }
    : Engine).onlyRegs t.eng ([(R.AFE_STATUS.word 0).off, (R.AFE_STATUS.word 1).off] ++ (upTo 64).map fun c => (R.QUE_BAD.V c).off))) ∧
  (∀ (s : State), s.eng.pins.failed = false → s.eng.resetting = none → ∃ t, exec (.engineWatchdog) s = .next t ∧ s.engineOnly t ∧ t.eng.resetting =
    some ⟨[.wdogEng]⟩ ∧ t.eng.job = { s.eng.job with isOpen := false, ended := true } ∧ t.eng.pair = { s.eng.pair with hbStopped := true } ∧
    (({ s.eng with resetting := t.eng.resetting, job := t.eng.job, pair := t.eng.pair, tg := t.eng.tg, chans := s.eng.chans.zipIdx.map fun x => if x.2 < 64 then { x.1 with owed := [] } else x.1 }
    : Engine).onlyRegs t.eng ([(R.AFE_STATUS.word 0).off, (R.AFE_STATUS.word 1).off] ++ (upTo 64).map fun c => (R.QUE_BAD.V c).off))) ∧
  (∀ (q : SquallSt) (s : State), s.eng.pins.failed = false → s.eng.resetting = none → s.eng.squall = some q → q.arbiter = true → q.rest = true →
    q.restTime + 100000000 ≤ s.eng.now → ∃ t, exec (.arbWatchdogReset) s = .next t ∧ s.engineOnly t ∧ t.eng.resetting = some ⟨[.wdogArb]⟩ ∧ t.eng.job
    = { s.eng.job with isOpen := false, ended := true } ∧ t.eng.pair = { s.eng.pair with hbStopped := true } ∧
    (({ s.eng with resetting := t.eng.resetting, job := t.eng.job, pair := t.eng.pair, tg := t.eng.tg, chans := s.eng.chans.zipIdx.map fun x => if x.2 < 64 then { x.1 with owed := [] } else x.1 }
    : Engine).onlyRegs t.eng ([(R.AFE_STATUS.word 0).off, (R.AFE_STATUS.word 1).off] ++ (upTo 64).map fun c => (R.QUE_BAD.V c).off))) ∧
  (∀ (t0 : Nat) (s : State), s.eng.pins.failed = false → s.eng.resetting = none → s.eng.qdr.wdogRest = some t0 → t0 + 100000000 ≤ s.eng.now → ∃ t,
    exec (.arbWatchdogReset) s = .next t ∧ s.engineOnly t ∧ t.eng.resetting = some ⟨[.wdogArb]⟩ ∧ t.eng.job =
    { s.eng.job with isOpen := false, ended := true } ∧ t.eng.pair = { s.eng.pair with hbStopped := true } ∧
    (({ s.eng with resetting := t.eng.resetting, job := t.eng.job, pair := t.eng.pair, tg := t.eng.tg, chans := s.eng.chans.zipIdx.map fun x => if x.2 < 64 then { x.1 with owed := [] } else x.1 }
    : Engine).onlyRegs t.eng ([(R.AFE_STATUS.word 0).off, (R.AFE_STATUS.word 1).off] ++ (upTo 64).map fun c => (R.QUE_BAD.V c).off))) ∧
  (∀ (r : ResetSt) (s : State), s.eng.pins.failed = false → s.eng.resetting = some r → ∃ t, exec (.flr) s = .next t ∧ s.engineOnly t ∧ t.eng =
    { s.eng with resetting := some ⟨r.kinds ++ [.flr]⟩ })

/-- RESET_PROPER, once AX0 has come to rest and with no pin held, leads through M0 to M1: no reset is in progress any more, no command is open, the
job is gone, the staging memory is empty; device time, EPOCH, the count of DSEQ and the section go on. A power-on reset leads to M1 with EPOCH
counted up and no event but the MODE_CHANGE. The release of the last pin held leads from M0 to M1. Bus Master Enable follows its writes. -/
def Obligations.ResetsCarriedOut : Prop :=
  (∀ (r : ResetSt) (s : State), s.eng.resetting = some r → s.eng.mot.v = 0 → s.eng.pinHeld = false → s.eng.pins.failed = false → ∃ t, exec
    (.resetProper) s = .next t ∧ t.stg = ⟨[], []⟩ ∧ t.sec = s.sec ∧ t.pending = s.pending ∧ t.eng.mode = .m1 ∧ t.eng.resetting = none ∧ t.eng.opens =
    [] ∧ t.eng.job = JobSt.init ∧ t.eng.now = s.eng.now ∧ t.eng.pins = s.eng.pins ∧ t.eng.streams = List.replicate 16 Stream.init ∧ t.eng.trans =
    Engine.reset.trans ∧ t.eng.rd R.UHP_EPOCH.V = s.eng.rd R.UHP_EPOCH.V ∧ t.eng.told 0x15 1 0 none 256) ∧
  (∀ (s : State), s.eng.pinHeld = false → ∃ t, exec (.por) s = .next t ∧ t.stg = ⟨[], []⟩ ∧ t.pending = s.pending ∧ t.sec = (s.sec.restart 0 1).1 ∧
    t.eng.mode = .m1 ∧ t.eng.now = 0 ∧ t.eng.opens = [] ∧ t.eng.evt = ⟨[Ev.boot], 1, none, []⟩ ∧ t.eng.flash.porCount = (s.eng.flash.porCount + 1) %
    2 ^ 32 ∧ t.eng.rd R.UHP_EPOCH.V = (s.eng.flash.porCount + 1) % 2 ^ 32 ∧ t.eng.rd R.SYS_RESET_CAUSE.POR = 1) ∧
  (∀ (s : State), s.eng.mode = .m0 → s.eng.pins.perstLow = false → s.eng.pins.failed = false → s.eng.resetting = none → ∃ t, exec (.rstNRelease) s =
    .next t ∧ s.engineOnly t ∧ t.eng.mode = .m1 ∧ t.eng.told 0x15 1 0 none 256 ∧
    (({ s.eng with mode := .m1, pins := { s.eng.pins with rstLow := false }, cal := t.eng.cal, tg := t.eng.tg, chans := s.eng.chans.zipIdx.map fun x => if x.2 < 64 then { x.1 with owed := [] } else x.1 }
    : Engine).onlyBooks t.eng ([R.CAL_STATUS.word.off, R.CAL_ABANDON_CNT.V.off, (R.AFE_STATUS.word 0).off, (R.AFE_STATUS.word 1).off] ++ (upTo
    64).map fun c => (R.QUE_BAD.V c).off))) ∧
  (∀ (s : State), s.eng.mode = .m0 → s.eng.pins.rstLow = false → s.eng.pins.failed = false → s.eng.resetting = none → ∃ t, exec (.perstDeassert) s =
    .next t ∧ s.engineOnly t ∧ t.eng.mode = .m1 ∧ t.eng.told 0x15 1 0 none 256 ∧
    (({ s.eng with mode := .m1, pins := { s.eng.pins with perstLow := false }, cal := t.eng.cal, tg := t.eng.tg, chans := s.eng.chans.zipIdx.map fun x => if x.2 < 64 then { x.1 with owed := [] } else x.1 }
    : Engine).onlyBooks t.eng ([R.CAL_STATUS.word.off, R.CAL_ABANDON_CNT.V.off, (R.AFE_STATUS.word 0).off, (R.AFE_STATUS.word 1).off] ++ (upTo
    64).map fun c => (R.QUE_BAD.V c).off))) ∧
  (∀ (s : State), ∃ t, exec (.busMasterDisable) s = .next t ∧ s.engineOnly t ∧ t.eng = { s.eng with link := { s.eng.link with bme := false } }) ∧
  (∀ (s : State), ∃ t, exec (.busMasterEnable) s = .next t ∧ s.engineOnly t ∧ t.eng = { s.eng with link := { s.eng.link with bme := true } })

/-- In M3 or M11 with no operation in progress, ERASE, WRITE (with a length and an offset in range), VERIFY and ACTIVATE (of a verified slot) of a
slot that does not run set BUSY and begin; ERASE and WRITE take the verification of the slot away. An operation on the running slot ends at once with
RESULT 1. The end of an operation clears BUSY: an ERASE that succeeds leaves the slot blank, a WRITE stores the bytes of NVM_BUF, an ACTIVATE makes
the slot the preferred one; one that fails leaves RESULT 3. -/
def Obligations.FirmwareSlots : Prop :=
  (∀ (s : State), s.eng.modeIn [3, 11] = true → s.eng.on R.NVM_STATUS.BUSY = false → (s.eng.on R.SYS_FW.RECOVERY || s.eng.rd R.NVM_SLOT.V !=
    s.eng.flash.running) = true → ∃ t, exec (.nvmErase) s = .next t ∧ s.engineOnly t ∧ t.eng.rd R.NVM_STATUS.BUSY = 1 ∧ t.eng.rd R.NVM_CTRL.OP = 1 ∧
    (({ s.eng with flash := { s.eng.flash with nvmOp := some ⟨1, s.eng.rd R.NVM_SLOT.V, s.eng.rd R.NVM_OFFSET.V, []⟩, slots := modAt s.eng.flash.slots (s.eng.rd R.NVM_SLOT.V) fun x => { x with verified := false } } }
    : Engine).onlyRegs t.eng [R.NVM_STATUS.word.off, R.NVM_CTRL.word.off])) ∧
  (∀ (s : State), s.eng.modeIn [3, 11] = true → s.eng.on R.NVM_STATUS.BUSY = false → (s.eng.on R.SYS_FW.RECOVERY || s.eng.rd R.NVM_SLOT.V !=
    s.eng.flash.running) = true → 4 ≤ s.eng.rd R.NVM_LEN.V → s.eng.rd R.NVM_LEN.V ≤ 2048 → s.eng.rd R.NVM_LEN.V % 4 = 0 → s.eng.rd R.NVM_OFFSET.V % 4
    = 0 → s.eng.rd R.NVM_OFFSET.V + s.eng.rd R.NVM_LEN.V ≤ 16777216 → ∃ t, exec (.nvmWrite) s = .next t ∧ s.engineOnly t ∧ t.eng.rd R.NVM_STATUS.BUSY
    = 1 ∧ t.eng.rd R.NVM_CTRL.OP = 2 ∧
    (({ s.eng with flash := { s.eng.flash with nvmOp := some ⟨2, s.eng.rd R.NVM_SLOT.V, s.eng.rd R.NVM_OFFSET.V, s.eng.nvmData⟩, slots := modAt s.eng.flash.slots (s.eng.rd R.NVM_SLOT.V) fun x => { x with verified := false } } }
    : Engine).onlyRegs t.eng [R.NVM_STATUS.word.off, R.NVM_CTRL.word.off])) ∧
  (∀ (s : State), s.eng.modeIn [3, 11] = true → s.eng.on R.NVM_STATUS.BUSY = false → (s.eng.on R.SYS_FW.RECOVERY || s.eng.rd R.NVM_SLOT.V !=
    s.eng.flash.running) = true → ∃ t, exec (.nvmVerify) s = .next t ∧ s.engineOnly t ∧ t.eng.rd R.NVM_STATUS.BUSY = 1 ∧ t.eng.rd R.NVM_CTRL.OP = 3 ∧
    ({ s.eng with flash := { s.eng.flash with nvmOp := some ⟨3, s.eng.rd R.NVM_SLOT.V, s.eng.rd R.NVM_OFFSET.V, []⟩ } } : Engine).onlyRegs t.eng
    [R.NVM_STATUS.word.off, R.NVM_CTRL.word.off]) ∧
  (∀ (s : State), s.eng.modeIn [3, 11] = true → s.eng.on R.NVM_STATUS.BUSY = false → (s.eng.on R.SYS_FW.RECOVERY || s.eng.rd R.NVM_SLOT.V !=
    s.eng.flash.running) = true → (s.eng.flash.slots[s.eng.rd R.NVM_SLOT.V]?).map SlotSt.verified = some true → ∃ t, exec (.nvmActivate) s = .next t
    ∧ s.engineOnly t ∧ t.eng.rd R.NVM_STATUS.BUSY = 1 ∧ t.eng.rd R.NVM_CTRL.OP = 4 ∧
    ({ s.eng with flash := { s.eng.flash with nvmOp := some ⟨4, s.eng.rd R.NVM_SLOT.V, s.eng.rd R.NVM_OFFSET.V, []⟩ } } : Engine).onlyRegs t.eng
    [R.NVM_STATUS.word.off, R.NVM_CTRL.word.off]) ∧
  (∀ (s : State), s.eng.mode ≠ .m0 → s.eng.on R.NVM_STATUS.BUSY = false → s.eng.on R.SYS_FW.RECOVERY = false → s.eng.rd R.NVM_SLOT.V =
    s.eng.flash.running → ∃ t, exec (.nvmErase) s = .next t ∧ s.engineOnly t ∧ t.eng.rd R.NVM_STATUS.RESULT = 1 ∧ t.eng.rd R.NVM_STATUS.BUSY = 0 ∧
    s.eng.onlyRegs t.eng [R.NVM_STATUS.word.off, R.NVM_CTRL.word.off]) ∧
  (∀ (o : NvmOp) (s : State), s.eng.flash.nvmOp = some o → o.op = 1 → ∃ t, exec (.nvmOpDone true) s = .next t ∧ s.engineOnly t ∧ t.eng.rd
    R.NVM_STATUS.RESULT = 0 ∧ t.eng.rd R.NVM_STATUS.BUSY = 0 ∧
    (({ s.eng with flash := { s.eng.flash with nvmOp := none, slots := modAt s.eng.flash.slots o.slot fun _ => ⟨[], false, false, false⟩ } } :
    Engine).onlyRegs t.eng [R.NVM_STATUS.word.off])) ∧
  (∀ (o : NvmOp) (s : State), s.eng.flash.nvmOp = some o → o.op = 2 → ∃ t, exec (.nvmOpDone true) s = .next t ∧ s.engineOnly t ∧ t.eng.rd
    R.NVM_STATUS.RESULT = 0 ∧ t.eng.rd R.NVM_STATUS.BUSY = 0 ∧
    (({ s.eng with flash := { s.eng.flash with nvmOp := none, slots := modAt s.eng.flash.slots o.slot fun x => { x with bytes := Sparse.setMany Engine.blank x.bytes o.off o.data, factory := false } } }
    : Engine).onlyRegs t.eng [R.NVM_STATUS.word.off])) ∧
  (∀ (o : NvmOp) (s : State), s.eng.flash.nvmOp = some o → o.op = 4 → ∃ t, exec (.nvmOpDone true) s = .next t ∧ s.engineOnly t ∧ t.eng.rd
    R.NVM_STATUS.RESULT = 0 ∧ t.eng.rd R.NVM_STATUS.BUSY = 0 ∧ t.eng.rd R.SYS_FW_PREF.V = o.slot % 2 ^ R.SYS_FW_PREF.V.width ∧
    ({ s.eng with flash := { s.eng.flash with nvmOp := none, pref := o.slot } } : Engine).onlyRegs t.eng [R.NVM_STATUS.word.off,
    R.SYS_FW_PREF.V.off]) ∧
  (∀ (o : NvmOp) (s : State), s.eng.flash.nvmOp = some o → ∃ t, exec (.nvmOpDone false) s = .next t ∧ s.engineOnly t ∧ t.eng.rd R.NVM_STATUS.RESULT =
    3 ∧ t.eng.rd R.NVM_STATUS.BUSY = 0 ∧ t.eng.flash.nvmOp = none ∧ ({ s.eng with flash := t.eng.flash } : Engine).onlyRegs t.eng
    [R.NVM_STATUS.word.off])

/-- In M3 and M11 a word written through the shading coefficient window is stored at its place and the bank it belongs to becomes VALID; nothing else
changes. Outside those modes the write is ignored and SYS_WRITE_IGNORED says so. An aligned write to a register without rules of its own, where
writes reach it: an RW field takes the value by its storage rule; an RWL field takes it in M3 and else stays; a W1C field loses the bits written 1,
but those that hardware sets in the same cycle stay set; every other field and every other register stays. A write that would change a locked RWL
field latches SYS_WRITE_IGNORED with the first offset. In M1 a write at any offset from 0x1000 that is not in the SYS or NVM block does nothing and
sets no flag (the model's reading, log 108), but for the words AFE_CHk_CFG, where R53 sets SYS_WRITE_IGNORED. -/
def Obligations.RegisterWrites : Prop :=
  (∀ (off : BitVec 20) (value : Word) (s : State), (s.eng.mode = .m3 ∨ s.eng.mode = .m11) → 0x80000 ≤ off.toNat → off.toNat % 4 = 0 → ∃ t, exec
    (.coefWindowWrite off value) s = .next t ∧ s.engineOnly t ∧ t.eng.word off.toNat = value ∧ t.eng.rd (if off.toNat / 0x1000 % 2 = 0 then
    R.SHD_CH_BANK.ASTATE ((off.toNat - 0x80000) / 0x2000) else R.SHD_CH_BANK.BSTATE ((off.toNat - 0x80000) / 0x2000)) = 1 ∧ s.eng.onlyRegs t.eng
    [off.toNat, (R.SHD_CH_BANK.word ((off.toNat - 0x80000) / 0x2000)).off]) ∧
  (∀ (off : BitVec 20) (value : Word) (s : State), s.eng.mode ≠ .m0 → s.eng.mode ≠ .m1 → s.eng.mode ≠ .m2 → s.eng.mode ≠ .m10 → s.eng.mode ≠ .m3 →
    s.eng.mode ≠ .m11 → 0x80000 ≤ off.toNat → off.toNat % 4 = 0 → s.eng.on R.SYS_WRITE_IGNORED.FLAG = false → ∃ t, exec (.coefWindowWrite off value)
    s = .next t ∧ s.engineOnly t ∧ t.eng = (s.eng.wr R.SYS_WRITE_IGNORED.FLAG 1).wr R.SYS_WRITE_IGNORED.OFFSET off.toNat) ∧
  (∀ (off : BitVec 20) (value hw : Word) (r : RegSpec) (ix : List Nat) (s : State), s.eng.mode ≠ .m0 → s.eng.mode ≠ .m1 → s.eng.mode ≠ .m2 →
    s.eng.mode ≠ .m10 → off.toNat % 4 = 0 → off.toNat < 0x20000 → RegMap.find off.toNat = some (r, ix) → s.eng.dieAbsent off.toNat = false →
    ruledRegs.contains r.name = false → s.eng.lockedChange r off.toNat value = false → ∃ t, exec (.registerWrite ⟨.bar0, off⟩ value hw) s = .next t ∧
    s.engineOnly t ∧ (∀ f ∈ r.fields, t.eng.rd ⟨off.toNat, f.hi, f.lo⟩ = written f (s.eng.mode == .m3) (s.eng.rd ⟨off.toNat, f.hi, f.lo⟩)
    ((⟨off.toNat, f.hi, f.lo⟩ : Fld).get value) ((⟨off.toNat, f.hi, f.lo⟩ : Fld).get hw)) ∧ s.eng.onlyRegs t.eng [off.toNat]) ∧
  (∀ (off : BitVec 20) (value hw : Word) (r : RegSpec) (ix : List Nat) (s : State), s.eng.mode ≠ .m0 → s.eng.mode ≠ .m1 → s.eng.mode ≠ .m2 →
    s.eng.mode ≠ .m10 → off.toNat % 4 = 0 → off.toNat < 0x20000 → RegMap.find off.toNat = some (r, ix) → s.eng.dieAbsent off.toNat = false →
    ruledRegs.contains r.name = false → s.eng.lockedChange r off.toNat value = true → s.eng.on R.SYS_WRITE_IGNORED.FLAG = false → ∃ t, exec
    (.registerWrite ⟨.bar0, off⟩ value hw) s = .next t ∧ s.engineOnly t ∧ (∀ f ∈ r.fields, t.eng.rd ⟨off.toNat, f.hi, f.lo⟩ = written f false
    (s.eng.rd ⟨off.toNat, f.hi, f.lo⟩) ((⟨off.toNat, f.hi, f.lo⟩ : Fld).get value) ((⟨off.toNat, f.hi, f.lo⟩ : Fld).get hw)) ∧ t.eng.on
    R.SYS_WRITE_IGNORED.FLAG = true ∧ t.eng.rd R.SYS_WRITE_IGNORED.OFFSET = off.toNat ∧ s.eng.onlyRegs t.eng [off.toNat,
    R.SYS_WRITE_IGNORED.FLAG.off]) ∧
  (∀ (off : BitVec 20) (value hw : Word) (s : State), s.eng.mode = .m1 → off.toNat % 4 = 0 → 0x1000 ≤ off.toNat → off.toNat / 0x1000 ≠ 0x12 → (∀ c :
    Fin 64, off.toNat ≠ (R.AFE_CH_CFG.word (c.val / 32) (c.val % 32)).off) → ∃ t, exec (.registerWrite ⟨.bar0, off⟩ value hw) s = .next t ∧
    s.engineOnly t ∧ t.eng = s.eng) ∧
  (∀ (i : Side) (k : Fin 32) (off : BitVec 20) (value hw : Word) (s : State), s.eng.mode = .m1 → off.toNat = (R.AFE_CH_CFG.word i.val k.val).off →
    s.eng.on R.SYS_WRITE_IGNORED.FLAG = false → ∃ t, exec (.registerWrite ⟨.bar0, off⟩ value hw) s = .next t ∧ s.engineOnly t ∧ t.eng = (s.eng.wr
    R.SYS_WRITE_IGNORED.FLAG 1).wr R.SYS_WRITE_IGNORED.OFFSET off.toNat)

/-- AFE_CHk_CFG of a die that is present takes a write in M3 to M6; the old word stays in force for a line in readout; a new RANGE sets STALE.
AFE_REF_CTRL takes a write in M3: a new MODE starts settling (how long it takes is free, log 13), setting BUF_EN starts the buffer. A write that
another mode refuses sets SYS_WRITE_IGNORED. -/
def Obligations.FrontEndRegisters : Prop :=
  (∀ (i : Side) (k : Fin 32) (value : Word) (s : State), s.eng.modeIn [3, 4, 5, 6] = true → s.eng.afePresent i.val = true → ∃ t, exec (.afeCfgWrite i
    k value) s = .next t ∧ s.engineOnly t ∧ t.eng.rd (R.AFE_CH_CFG.SAMPLING i.val k.val) = (R.AFE_CH_CFG.SAMPLING i.val k.val).get value ∧ t.eng.rd
    (R.AFE_CH_CFG.TERM i.val k.val) = (R.AFE_CH_CFG.TERM i.val k.val).get value ∧ t.eng.rd (R.AFE_CH_CFG.RANGE i.val k.val) = (R.AFE_CH_CFG.RANGE
    i.val k.val).get value ∧ t.eng.rd (R.AFE_CH_CFG.CLAMP i.val k.val) = (R.AFE_CH_CFG.CLAMP i.val k.val).get value ∧ t.eng.rd (R.AFE_CH_STATUS.STALE
    i.val k.val) = (if (R.AFE_CH_CFG.RANGE i.val k.val).get value = s.eng.rd (R.AFE_CH_CFG.RANGE i.val k.val) then s.eng.rd (R.AFE_CH_STATUS.STALE
    i.val k.val) else 1) ∧ t.eng.tg = s.eng.tg ∧ s.eng.onlyRegs t.eng [(R.AFE_CH_CFG.word i.val k.val).off, (R.AFE_CH_STATUS.STALE i.val k.val).off]) ∧
  (∀ (i : Side) (k : Fin 32) (value : Word) (s : State), s.eng.mode ≠ .m0 → s.eng.modeIn [3, 4, 5, 6] = false → s.eng.afePresent i.val = true →
    s.eng.on R.SYS_WRITE_IGNORED.FLAG = false → ∃ t, exec (.afeCfgWrite i k value) s = .next t ∧ s.engineOnly t ∧ t.eng = (s.eng.wr
    R.SYS_WRITE_IGNORED.FLAG 1).wr R.SYS_WRITE_IGNORED.OFFSET (R.AFE_CH_CFG.word i.val k.val).off) ∧
  (∀ (i : Side) (value : Word) (s : State), s.eng.mode = .m3 → s.eng.afePresent i.val = true → (R.AFE_REF_CTRL.MODE i.val).get value ≠ s.eng.rd
    (R.AFE_REF_CTRL.MODE i.val) → ∃ t, exec (.refModeWrite i value) s = .next t ∧ s.engineOnly t ∧ t.eng.rd (R.AFE_REF_CTRL.MODE i.val) =
    (R.AFE_REF_CTRL.MODE i.val).get value ∧ t.eng.rd (R.AFE_REF_CTRL.BUF_EN i.val) = (R.AFE_REF_CTRL.BUF_EN i.val).get value ∧ (t.eng.afe = modAt
    s.eng.afe i.val fun a =>
    { a with settleStart := some s.eng.now, settleAt := s.eng.now + Config.freeValue s.eng.free, timedOut := false, bufStart := if (R.AFE_REF_CTRL.BUF_EN i.val).get value = s.eng.rd (R.AFE_REF_CTRL.BUF_EN i.val) then a.bufStart else if (R.AFE_REF_CTRL.BUF_EN i.val).get value = 1 then some s.eng.now else none })
    ∧ ({ s.eng with afe := t.eng.afe, free := t.eng.free } : Engine).onlyRegs t.eng [(R.AFE_REF_CTRL.word i.val).off]) ∧
  (∀ (i : Side) (value : Word) (s : State), s.eng.mode ≠ .m0 → s.eng.mode ≠ .m1 → s.eng.mode ≠ .m2 → s.eng.mode ≠ .m10 → s.eng.mode ≠ .m3 →
    s.eng.afePresent i.val = true → (R.AFE_REF_CTRL.MODE i.val).get value ≠ s.eng.rd (R.AFE_REF_CTRL.MODE i.val) → s.eng.on R.SYS_WRITE_IGNORED.FLAG
    = false → ∃ t, exec (.refModeWrite i value) s = .next t ∧ s.engineOnly t ∧ t.eng = (s.eng.wr R.SYS_WRITE_IGNORED.FLAG 1).wr
    R.SYS_WRITE_IGNORED.OFFSET (R.AFE_REF_CTRL.word i.val).off)

/-- DMA_CTRL written with SNAP latches the books of free, filled and in-flight bytes and stores CMD_SHARE (0 as 1). HWM_CLR sets the high-water mark
of each of the 104 queues to its present level. A rank map in which no two requesters name one input is stored; another is ignored and sets MAP_ERR.
A broadcast stores a good map at every port of the ranges it selects. SNAP copies every live counter into its shadow, before a CLR written with it
clears them all. QDR_MAP_REQ takes a value other than 0xF in M3 and keeps it in flash; the rest is ignored. -/
def Obligations.ArbiterRegisters : Prop :=
  (∀ (v : Word) (s : State), s.eng.mode ≠ .m0 → s.eng.mode ≠ .m1 → s.eng.mode ≠ .m2 → s.eng.mode ≠ .m10 → ∃ t, exec (.dmaSnap v) s = .next t ∧
    s.engineOnly t ∧ t.eng.rd R.DMA_BOOK_FREE.V = s.eng.bookFree % 2 ^ R.DMA_BOOK_FREE.V.width ∧ t.eng.rd R.DMA_BOOK_FILLED.V = s.eng.bookFilled % 2
    ^ R.DMA_BOOK_FILLED.V.width ∧ t.eng.rd R.DMA_BOOK_INFLIGHT.V = s.eng.bookFlight % 2 ^ R.DMA_BOOK_INFLIGHT.V.width ∧ t.eng.rd R.DMA_CTRL.CMD_SHARE
    = (if R.DMA_CTRL.CMD_SHARE.get v = 0 then 1 else R.DMA_CTRL.CMD_SHARE.get v) ∧ s.eng.onlyRegs t.eng [R.DMA_CTRL.SNAP.off, R.DMA_BOOK_FREE.V.off,
    R.DMA_BOOK_FILLED.V.off, R.DMA_BOOK_INFLIGHT.V.off]) ∧
  (∀ (s : State), s.eng.mode ≠ .m0 → s.eng.mode ≠ .m1 → s.eng.mode ≠ .m2 → s.eng.mode ≠ .m10 → ∃ t, exec (.hwmClr) s = .next t ∧ s.engineOnly t ∧ (∀
    q : Fin 104, t.eng.rd (R.QUE_LEVEL.HWM q.val) = s.eng.rd (R.QUE_LEVEL.LEVEL q.val) ∧ t.eng.rd (R.QUE_LEVEL.LEVEL q.val) = s.eng.rd
    (R.QUE_LEVEL.LEVEL q.val)) ∧ (s.eng.onlyRegs t.eng ((upTo 104).map fun q => (R.QUE_LEVEL.LEVEL q).off))) ∧
  (∀ (p : PortIx) (value : Word) (s : State), s.eng.mode ≠ .m0 → s.eng.mode ≠ .m1 → s.eng.mode ≠ .m2 → s.eng.mode ≠ .m10 → ([value.toNat % 4,
    value.toNat / 4 % 4, value.toNat / 16 % 4, value.toNat / 64 % 4] : List Nat).Nodup → ∃ t, exec (.rankmapWrite p value) s = .next t ∧ s.engineOnly
    t ∧ t.eng = s.eng.wr ⟨(R.ARB_RANKMAP.word p.val).off, 7, 0⟩ (value.toNat % 256)) ∧
  (∀ (p : PortIx) (value : Word) (s : State), s.eng.mode ≠ .m0 → s.eng.mode ≠ .m1 → s.eng.mode ≠ .m2 → s.eng.mode ≠ .m10 → ¬ ([value.toNat % 4,
    value.toNat / 4 % 4, value.toNat / 16 % 4, value.toNat / 64 % 4] : List Nat).Nodup → ∃ t, exec (.rankmapWrite p value) s = .next t ∧ s.engineOnly
    t ∧ t.eng = s.eng.wr (R.ARB_STATE.MAP_ERR p.val) 1) ∧
  (∀ (value : Word) (s : State), s.eng.mode ≠ .m0 → s.eng.mode ≠ .m1 → s.eng.mode ≠ .m2 → s.eng.mode ≠ .m10 → ([R.ARB_RANKMAP_BCAST.MAP.get value %
    4, R.ARB_RANKMAP_BCAST.MAP.get value / 4 % 4, R.ARB_RANKMAP_BCAST.MAP.get value / 16 % 4, R.ARB_RANKMAP_BCAST.MAP.get value / 64 % 4] : List
    Nat).Nodup → ∃ t, exec (.rankmapBcastWrite value) s = .next t ∧ s.engineOnly t ∧ (∀ p : Fin 16, t.eng.rd ⟨(R.ARB_RANKMAP.word p.val).off, 7, 0⟩ =
    (if (p.val < 8 ∧ R.ARB_RANKMAP_BCAST.SELA.get value = 1) ∨ (8 ≤ p.val ∧ R.ARB_RANKMAP_BCAST.SELB.get value = 1) then R.ARB_RANKMAP_BCAST.MAP.get
    value else s.eng.rd ⟨(R.ARB_RANKMAP.word p.val).off, 7, 0⟩)) ∧ (s.eng.onlyRegs t.eng ((upTo 16).map fun p => (R.ARB_RANKMAP.word p).off))) ∧
  (∀ (clr : Bool) (s : State), s.eng.mode ≠ .m0 → s.eng.mode ≠ .m1 → s.eng.mode ≠ .m2 → s.eng.mode ≠ .m10 → ∃ t, exec (.arbSnap clr) s = .next t ∧
    s.engineOnly t ∧ (∀ p : Fin 16, ∀ i : Fin 4, t.eng.rd (R.ARB_GRANTS.V p.val i.val) = ((s.eng.port p.val).live.getD i.val PortCount.zero).grants %
    2 ^ 32 ∧ t.eng.rd (R.ARB_WAITCYC_LO.V p.val i.val) = ((s.eng.port p.val).live.getD i.val PortCount.zero).waits % 2 ^ 32 ∧ t.eng.rd
    (R.ARB_WAITCYC_HI.V p.val i.val) = ((s.eng.port p.val).live.getD i.val PortCount.zero).waits / 2 ^ 32 % 2 ^ 16 ∧ t.eng.rd (R.ARB_MAXWAIT.V p.val
    i.val) = ((s.eng.port p.val).live.getD i.val PortCount.zero).maxWait % 2 ^ 20 ∧ t.eng.rd (R.ARB_PREEMPT.V p.val i.val) = ((s.eng.port
    p.val).live.getD i.val PortCount.zero).preempts % 2 ^ 32) ∧
    (({ s.eng with qdr := { s.eng.qdr with ports := if clr then s.eng.qdr.ports.map fun q => { q with live := List.replicate 4 PortCount.zero } else s.eng.qdr.ports } }
    : Engine).onlyRegs t.eng ((upTo 16).map fun p => (upTo 4).map fun i => [(R.ARB_GRANTS.V p i).off, (R.ARB_WAITCYC_LO.V p i).off,
    (R.ARB_WAITCYC_HI.V p i).off, (R.ARB_MAXWAIT.V p i).off, (R.ARB_PREEMPT.V p i).off]).flatten.flatten)) ∧
  (∀ (s : State), s.eng.mode ≠ .m0 → s.eng.mode ≠ .m1 → s.eng.mode ≠ .m2 → s.eng.mode ≠ .m10 → ∃ t, exec (.arbClr) s = .next t ∧ s.engineOnly t ∧
    (t.eng = { s.eng with qdr := { s.eng.qdr with ports := s.eng.qdr.ports.map fun q => { q with live := List.replicate 4 PortCount.zero } } })) ∧
  (∀ (value : Word) (s : State), s.eng.mode = .m3 → R.QDR_MAP_REQ.OUT.get value ≠ 0xF → ∃ t, exec (.qdrMapReqWrite value) s = .next t ∧ s.engineOnly
    t ∧ t.eng = ({ s.eng with flash := { s.eng.flash with mapReq := R.QDR_MAP_REQ.OUT.get value } } : Engine).wr R.QDR_MAP_REQ.OUT
    (R.QDR_MAP_REQ.OUT.get value)) ∧
  (∀ (value : Word) (s : State), s.eng.mode ≠ .m0 → s.eng.mode ≠ .m1 → s.eng.mode ≠ .m2 → s.eng.mode ≠ .m10 → (s.eng.mode = .m3 →
    R.QDR_MAP_REQ.OUT.get value = 0xF) → R.QDR_MAP_REQ.OUT.get value ≠ s.eng.rd R.QDR_MAP_REQ.OUT → s.eng.on R.SYS_WRITE_IGNORED.FLAG = false → ∃ t,
    exec (.qdrMapReqWrite value) s = .next t ∧ s.engineOnly t ∧ t.eng = (s.eng.wr R.SYS_WRITE_IGNORED.FLAG 1).wr R.SYS_WRITE_IGNORED.OFFSET
    R.QDR_MAP_REQ.OUT.off)

/-- LOAD written in M3 asks for the block unless the policy is OFF. A device that does not acknowledge leaves ERR 1; a block that fails a check
leaves its ERR and changes no register beside SDB_STATUS. A valid one sets VALID with its version, serial number and FMAX_MHZ; under POLICY = LOAD it
loads the line format, the sampling phases, exposures, row spacings and the output templates of its side. Where a calibration record stands it is
also held against the serial number (R94). -/
def Obligations.SensorDescriptor : Prop :=
  (∀ (i : Side) (s : State), s.eng.mode = .m3 → s.eng.rd (R.SDB_CTRL.POLICY i.val) ≠ 2 → ∃ t, exec (.sdbLoad i) s = .next t ∧ s.engineOnly t ∧ t.eng
    = s.eng.wr (R.SDB_CTRL.LOAD i.val) 1) ∧
  (∀ (i : Side) (s : State), s.eng.on (R.SDB_CTRL.LOAD i.val) = true → ∃ t, exec (.sdbReadDone i none) s = .next t ∧ s.engineOnly t ∧ t.eng.rd
    (R.SDB_STATUS.PRESENT i.val) = 0 ∧ t.eng.rd (R.SDB_STATUS.VALID i.val) = 0 ∧ t.eng.rd (R.SDB_STATUS.APPLIED i.val) = 0 ∧ t.eng.rd
    (R.SDB_STATUS.VER_MAJOR i.val) = 0 ∧ t.eng.rd (R.SDB_STATUS.VER_MINOR i.val) = 0 ∧ t.eng.rd (R.SDB_STATUS.ERR i.val) = 1 ∧ t.eng.rd
    (R.SDB_CTRL.LOAD i.val) = 0 ∧ s.eng.onlyRegs t.eng ([(R.SDB_CTRL.LOAD i.val).off, (R.SDB_STATUS.PRESENT i.val).off])) ∧
  (∀ (i : Side) (l : List Byte) (s : State), s.eng.on (R.SDB_CTRL.LOAD i.val) = true → Engine.sdbError l ≠ 0 → ∃ t, exec (.sdbReadDone i (some l)) s
    = .next t ∧ s.engineOnly t ∧ t.eng.rd (R.SDB_STATUS.PRESENT i.val) = 1 ∧ t.eng.rd (R.SDB_STATUS.VALID i.val) = 0 ∧ t.eng.rd (R.SDB_STATUS.APPLIED
    i.val) = 0 ∧ t.eng.rd (R.SDB_STATUS.VER_MAJOR i.val) = leAt l 4 1 ∧ t.eng.rd (R.SDB_STATUS.VER_MINOR i.val) = leAt l 5 1 ∧ t.eng.rd
    (R.SDB_STATUS.ERR i.val) = Engine.sdbError l ∧ t.eng.rd (R.SDB_CTRL.LOAD i.val) = 0 ∧ s.eng.onlyRegs t.eng ([(R.SDB_CTRL.LOAD i.val).off,
    (R.SDB_STATUS.PRESENT i.val).off])) ∧
  (∀ (i : Side) (l : List Byte) (s : State), s.eng.on (R.SDB_CTRL.LOAD i.val) = true → Engine.sdbError l = 0 → s.eng.rd (R.SDB_CTRL.POLICY i.val) ≠ 0
    → s.eng.bestCopy = none → ∃ t, exec (.sdbReadDone i (some l)) s = .next t ∧ s.engineOnly t ∧ t.eng.rd (R.SDB_STATUS.PRESENT i.val) = 1 ∧ t.eng.rd
    (R.SDB_STATUS.VALID i.val) = 1 ∧ t.eng.rd (R.SDB_STATUS.APPLIED i.val) = 0 ∧ t.eng.rd (R.SDB_STATUS.VER_MAJOR i.val) = leAt l 4 1 ∧ t.eng.rd
    (R.SDB_STATUS.VER_MINOR i.val) = leAt l 5 1 ∧ t.eng.rd (R.SDB_STATUS.ERR i.val) = 0 ∧ t.eng.rd (R.SDB_CTRL.LOAD i.val) = 0 ∧ t.eng.rdPair
    (R.SDB_SERIAL_LO.V i.val) (R.SDB_SERIAL_HI.V i.val) = leAt l 8 4 + 2 ^ 32 * leAt l 12 4 ∧
    (({ s.eng with tg := modAt s.eng.tg i.val fun g => { g with fmax := some (leAt l 0x13 1) } } : Engine).onlyRegs t.eng ([(R.SDB_CTRL.LOAD
    i.val).off, (R.SDB_STATUS.PRESENT i.val).off] ++ [(R.SDB_SERIAL_LO.V i.val).off, (R.SDB_SERIAL_HI.V i.val).off]))) ∧
  (∀ (i : Side) (l : List Byte) (s : State), s.eng.on (R.SDB_CTRL.LOAD i.val) = true → Engine.sdbError l = 0 → s.eng.rd (R.SDB_CTRL.POLICY i.val) = 0
    → s.eng.bestCopy = none → ∃ t, exec (.sdbReadDone i (some l)) s = .next t ∧ s.engineOnly t ∧ t.eng.rd (R.SDB_STATUS.PRESENT i.val) = 1 ∧ t.eng.rd
    (R.SDB_STATUS.VALID i.val) = 1 ∧ t.eng.rd (R.SDB_STATUS.APPLIED i.val) = 1 ∧ t.eng.rd (R.SDB_STATUS.VER_MAJOR i.val) = leAt l 4 1 ∧ t.eng.rd
    (R.SDB_STATUS.VER_MINOR i.val) = leAt l 5 1 ∧ t.eng.rd (R.SDB_STATUS.ERR i.val) = 0 ∧ t.eng.rd (R.SDB_CTRL.LOAD i.val) = 0 ∧ t.eng.rdPair
    (R.SDB_SERIAL_LO.V i.val) (R.SDB_SERIAL_HI.V i.val) = leAt l 8 4 + 2 ^ 32 * leAt l 12 4 ∧ t.eng.rd (R.TG_LINE_FMT.ACTIVE i.val) = leAt l 0x14 2 ∧
    t.eng.rd (R.TG_LINE_FMT.DUMMY i.val) = leAt l 0x16 1 ∧ t.eng.rd (R.TG_LINE_FMT.OVH i.val) = leAt l 0x17 1 ∧ t.eng.rd (R.TG_SAMPLE.SHR i.val) =
    leAt l 0x22 1 / 16 ∧ t.eng.rd (R.TG_SAMPLE.SHD i.val) = leAt l 0x22 1 % 16 ∧ (∀ r : Fin 4, t.eng.rd (R.TG_EXP_ROW.EXP i.val r.val) = leAt l (0x24
    + 4 * r.val) 4 ∧ t.eng.rd (R.EDY_SPACE.SPACE i.val r.val) = leAt l (0x1A + 2 * r.val) 2) ∧ (∀ n : Fin 16, t.eng.rd (R.TG_OUT_CFG.word i.val
    n.val) = leAt l (0x40 + 8 * n.val) 4 ∧ t.eng.rd (R.TG_OUT_LINE.word i.val n.val) = leAt l (0x44 + 8 * n.val) 4) ∧ (∀ k : Fin 32, t.eng.rd
    (R.TG_CHMAP.DIR i.val k.val) = b2n (bitOf (leAt l 0x18 1) (s.eng.rd (R.TG_CHMAP.TAP i.val k.val)))) ∧
    (({ s.eng with tg := modAt s.eng.tg i.val fun g => { g with fmax := some (leAt l 0x13 1) } } : Engine).onlyRegs t.eng ([(R.SDB_CTRL.LOAD
    i.val).off, (R.SDB_STATUS.PRESENT i.val).off] ++ [(R.SDB_SERIAL_LO.V i.val).off, (R.SDB_SERIAL_HI.V i.val).off] ++ [(R.TG_LINE_FMT.ACTIVE
    i.val).off, (R.TG_SAMPLE.SHR i.val).off] ++ ((upTo 4).map fun r => (R.TG_EXP_ROW.EXP i.val r).off) ++ ((upTo 4).map fun r => (R.EDY_SPACE.SPACE
    i.val r).off) ++ ((upTo 16).map fun n => (R.TG_OUT_CFG.word i.val n).off) ++ ((upTo 16).map fun n => (R.TG_OUT_LINE.word i.val n).off) ++ (upTo
    32).map fun k => (R.TG_CHMAP.DIR i.val k).off)))

/-- Written in M3 or M10 to a ring that is off, EN = 1 sets DEV_IDX, DONE_IDX and HOSTIDX to 0 and the ring runs. It is refused with VER_ERR where
the version was not selected or lacks the ring or pair operation needs PL-3, and with QUOTA_ERR where the quotas of enabled stream rings exceed
1,024. The EVT ring, running, is told of the dies that failed their boot test. On a leeward in M10 the MET and stream rings stay as they are (R367:
only the CMD and EVT rings run there; log 145). What is left over from before stands in no index of the ring any more. In another mode the write is
ignored and SYS_WRITE_IGNORED says so. -/
def Obligations.RingsEnabled : Prop :=
  (∀ (r : RingIx) (value : Word) (s : State), s.eng.modeIn [3, 10] = true → (s.eng.mode = .m3 ∨ r.val ≤ 1) → (R.UHP_R_CTRL.RESTART r.val).get value =
    0 → (R.UHP_R_CTRL.STOP r.val).get value = 0 → s.eng.rd (R.UHP_R_CTRL.EN r.val) = 0 → s.eng.verRefused r.val = false → r.val ≠ 1 → (3 ≤ r.val →
    (((s.eng.wr (R.UHP_R_CTRL.EN r.val) 1).wr (R.UHP_R_CTRL.QUOTA r.val) ((R.UHP_R_CTRL.QUOTA r.val).get value)).quotaSum) ≤ 1024) → ∃ t, exec
    (.ringEnable r value) s = .next t ∧ s.engineOnly t ∧ t.eng.rd (R.UHP_R_CTRL.EN r.val) = 1 ∧ t.eng.rd (R.UHP_R_CTRL.LOG2 r.val) = clampNat 4 16
    ((R.UHP_R_CTRL.LOG2 r.val).get value) ∧ t.eng.devIdx r.val = 0 ∧ t.eng.rd (R.UHP_R_DONE.V r.val) = 0 ∧ t.eng.rd (R.UHP_R_HOSTIDX.V r.val) = 0 ∧
    t.eng.rings = modAt s.eng.rings r.val (Engine.refetch 0) ∧ t.eng.ringState r.val = 1 ∧ (3 ≤ r.val → t.eng.rd (R.UHP_R_CTRL.QUOTA r.val) =
    (R.UHP_R_CTRL.QUOTA r.val).get value) ∧
    ({ s.eng with rings := t.eng.rings, streams := t.eng.streams, evt := { s.eng.evt with queue := t.eng.evt.queue, unacked := t.eng.evt.unacked }, pair := { s.eng.pair with tx := t.eng.pair.tx } }
    : Engine).onlyRegs t.eng [(R.UHP_R_CTRL.EN r.val).off, (R.UHP_R_STATE.STATE r.val).off, (R.UHP_R_DONE.V r.val).off, (R.UHP_R_HOSTIDX.V
    r.val).off] ∧ (t.eng.streams = (if 3 ≤ r.val then modAt s.eng.streams (r.val - 3) (fun x =>
    { x with bufs := x.bufs.map fun b => { b with stale := true } }) else s.eng.streams)) ∧ t.eng.evt.queue.map Ev.brief = s.eng.evt.queue.map
    Ev.brief ∧ (r.val ≠ 0 → t.eng.pair.tx = s.eng.pair.tx) ∧ t.eng.pair.tx.length = s.eng.pair.tx.length) ∧
  (∀ (r : RingIx) (value : Word) (s : State), s.eng.modeIn [3, 10] = true → (R.UHP_R_CTRL.RESTART r.val).get value = 0 → (R.UHP_R_CTRL.STOP
    r.val).get value = 0 → s.eng.rd (R.UHP_R_CTRL.EN r.val) = 0 → s.eng.verRefused r.val = false → r.val = 1 → s.eng.qdr.dieFaults = [] →
    s.eng.flash.fallback = none → ∃ t, exec (.ringEnable r value) s = .next t ∧ s.engineOnly t ∧ t.eng.rd (R.UHP_R_CTRL.EN r.val) = 1 ∧ t.eng.rd
    (R.UHP_R_CTRL.LOG2 r.val) = clampNat 4 16 ((R.UHP_R_CTRL.LOG2 r.val).get value) ∧ t.eng.devIdx r.val = 0 ∧ t.eng.rd (R.UHP_R_DONE.V r.val) = 0 ∧
    t.eng.rd (R.UHP_R_HOSTIDX.V r.val) = 0 ∧ t.eng.rings = modAt s.eng.rings r.val (Engine.refetch 0) ∧ t.eng.ringState r.val = 1 ∧
    ({ s.eng with rings := t.eng.rings } : Engine).onlyRegs t.eng [(R.UHP_R_CTRL.EN r.val).off, (R.UHP_R_STATE.STATE r.val).off, (R.UHP_R_DONE.V
    r.val).off, (R.UHP_R_HOSTIDX.V r.val).off]) ∧
  (∀ (r : RingIx) (value : Word) (d a : Nat) (s : State), s.eng.modeIn [3, 10] = true → (R.UHP_R_CTRL.RESTART r.val).get value = 0 →
    (R.UHP_R_CTRL.STOP r.val).get value = 0 → s.eng.rd (R.UHP_R_CTRL.EN r.val) = 0 → s.eng.verRefused r.val = false → r.val = 1 → s.eng.qdr.dieFaults
    = [(d, a)] → s.eng.flash.fallback = none → s.eng.hears → ∃ t, exec (.ringEnable r value) s = .next t ∧ s.engineOnly t ∧ t.eng.ringState r.val = 1
    ∧ t.eng.told 0x0F 0x0D 0 none (d + 256) ∧ t.eng.toldBytes [(24, 4, a)] ∧
    ({ s.eng with rings := t.eng.rings, qdr := { s.eng.qdr with dieFaults := [] } } : Engine).onlyBooks t.eng [(R.UHP_R_CTRL.EN r.val).off,
    (R.UHP_R_STATE.STATE r.val).off, (R.UHP_R_DONE.V r.val).off, (R.UHP_R_HOSTIDX.V r.val).off]) ∧
  (∀ (r : RingIx) (value : Word) (s : State), s.eng.modeIn [3, 10] = true → (s.eng.mode = .m3 ∨ r.val ≤ 1) → (R.UHP_R_CTRL.RESTART r.val).get value =
    0 → (R.UHP_R_CTRL.STOP r.val).get value = 0 → s.eng.rd (R.UHP_R_CTRL.EN r.val) = 0 → s.eng.verRefused r.val = true → ∃ t, exec (.ringEnable r
    value) s = .next t ∧ s.engineOnly t ∧ t.eng.rd (R.UHP_R_CTRL.EN r.val) = 1 ∧ t.eng.rd (R.UHP_R_CTRL.LOG2 r.val) = clampNat 4 16
    ((R.UHP_R_CTRL.LOG2 r.val).get value) ∧ t.eng.devIdx r.val = 0 ∧ t.eng.rd (R.UHP_R_DONE.V r.val) = 0 ∧ t.eng.rd (R.UHP_R_HOSTIDX.V r.val) = 0 ∧
    t.eng.rings = modAt s.eng.rings r.val (Engine.refetch 0) ∧ t.eng.ringState r.val = 6 ∧ t.eng.rd R.UHP_STATUS.VER_ERR = 1 ∧
    ({ s.eng with rings := t.eng.rings, streams := t.eng.streams, evt := { s.eng.evt with queue := t.eng.evt.queue, unacked := t.eng.evt.unacked }, pair := { s.eng.pair with tx := t.eng.pair.tx } }
    : Engine).onlyRegs t.eng [(R.UHP_R_CTRL.EN r.val).off, (R.UHP_R_STATE.STATE r.val).off, (R.UHP_R_DONE.V r.val).off, (R.UHP_R_HOSTIDX.V
    r.val).off, R.UHP_STATUS.VER_ERR.off] ∧ (t.eng.streams = (if 3 ≤ r.val then modAt s.eng.streams (r.val - 3) (fun x =>
    { x with bufs := x.bufs.map fun b => { b with stale := true } }) else s.eng.streams)) ∧ t.eng.evt.queue.map Ev.brief = s.eng.evt.queue.map
    Ev.brief ∧ (r.val ≠ 0 → t.eng.pair.tx = s.eng.pair.tx) ∧ t.eng.pair.tx.length = s.eng.pair.tx.length) ∧
  (∀ (r : RingIx) (value : Word) (s : State), s.eng.mode = .m3 → (R.UHP_R_CTRL.RESTART r.val).get value = 0 → (R.UHP_R_CTRL.STOP r.val).get value = 0
    → s.eng.rd (R.UHP_R_CTRL.EN r.val) = 0 → s.eng.verRefused r.val = false → 3 ≤ r.val → 1024 < (((s.eng.wr (R.UHP_R_CTRL.EN r.val) 1).wr
    (R.UHP_R_CTRL.QUOTA r.val) ((R.UHP_R_CTRL.QUOTA r.val).get value)).quotaSum) → ∃ t, exec (.ringEnable r value) s = .next t ∧ s.engineOnly t ∧
    t.eng.rd (R.UHP_R_CTRL.EN r.val) = 1 ∧ t.eng.rd (R.UHP_R_CTRL.LOG2 r.val) = clampNat 4 16 ((R.UHP_R_CTRL.LOG2 r.val).get value) ∧ t.eng.devIdx
    r.val = 0 ∧ t.eng.rd (R.UHP_R_DONE.V r.val) = 0 ∧ t.eng.rd (R.UHP_R_HOSTIDX.V r.val) = 0 ∧ t.eng.rings = modAt s.eng.rings r.val (Engine.refetch
    0) ∧ t.eng.ringState r.val = 7 ∧ t.eng.rd R.UHP_STATUS.QUOTA_ERR = 1 ∧
    ({ s.eng with rings := t.eng.rings, streams := t.eng.streams, evt := { s.eng.evt with queue := t.eng.evt.queue, unacked := t.eng.evt.unacked }, pair := { s.eng.pair with tx := t.eng.pair.tx } }
    : Engine).onlyRegs t.eng [(R.UHP_R_CTRL.EN r.val).off, (R.UHP_R_STATE.STATE r.val).off, (R.UHP_R_DONE.V r.val).off, (R.UHP_R_HOSTIDX.V
    r.val).off, R.UHP_STATUS.VER_ERR.off] ∧ (t.eng.streams = (if 3 ≤ r.val then modAt s.eng.streams (r.val - 3) (fun x =>
    { x with bufs := x.bufs.map fun b => { b with stale := true } }) else s.eng.streams)) ∧ t.eng.evt.queue.map Ev.brief = s.eng.evt.queue.map
    Ev.brief ∧ (r.val ≠ 0 → t.eng.pair.tx = s.eng.pair.tx) ∧ t.eng.pair.tx.length = s.eng.pair.tx.length) ∧
  (∀ (r : RingIx) (value : Word) (s : State), s.eng.mode = .m10 → 2 ≤ r.val → (R.UHP_R_CTRL.RESTART r.val).get value = 0 → (R.UHP_R_CTRL.STOP
    r.val).get value = 0 → s.eng.rd (R.UHP_R_CTRL.EN r.val) = 0 → ∃ t, exec (.ringEnable r value) s = .next t ∧ s.engineOnly t ∧ t.eng.rd
    (R.UHP_R_CTRL.EN r.val) = 1 ∧ t.eng.rd (R.UHP_R_CTRL.LOG2 r.val) = clampNat 4 16 ((R.UHP_R_CTRL.LOG2 r.val).get value) ∧ t.eng.ringState r.val =
    s.eng.ringState r.val ∧ t.eng.devIdx r.val = s.eng.devIdx r.val ∧ s.eng.onlyRegs t.eng [(R.UHP_R_CTRL.EN r.val).off]) ∧
  (∀ (r : RingIx) (value : Word) (s : State), s.eng.modeIn [2, 4, 5, 6, 7, 8, 9, 11] = true → (R.UHP_R_CTRL.RESTART r.val).get value = 0 →
    (R.UHP_R_CTRL.STOP r.val).get value = 0 → s.eng.rd (R.UHP_R_CTRL.EN r.val) = 0 → s.eng.on R.SYS_WRITE_IGNORED.FLAG = false → ∃ t, exec
    (.ringEnable r value) s = .next t ∧ s.engineOnly t ∧ t.eng = (s.eng.wr R.SYS_WRITE_IGNORED.FLAG 1).wr R.SYS_WRITE_IGNORED.OFFSET (R.UHP_R_CTRL.EN
    r.val).off)

/-- EN = 0 turns CMD, EVT or MET off: entries fetched and not consumed are discarded, fetching begins again at DEV_IDX. STOP puts one that has been
started into STOPPED the same way. On a stream ring either first stops the stream: every cached descriptor that took no write completes ABORTED with
0 bytes, in ring order. RESTART puts a ring in SEQ_STOP, FETCH_ERR or STOPPED into RUN, fetching after what it has received; a stream ring whose
stream is halted goes into HALTED (DEDUCED, log 147). -/
def Obligations.RingsStopped : Prop :=
  (∀ (r : RingIx) (value : Word) (s : State), s.eng.modeIn [3, 10] = true → (R.UHP_R_CTRL.RESTART r.val).get value = 0 → (R.UHP_R_CTRL.STOP
    r.val).get value = 0 → s.eng.rd (R.UHP_R_CTRL.EN r.val) = 1 → r.val < 3 → ∃ t, exec (.ringDisable r value) s = .next t ∧ s.engineOnly t ∧
    t.eng.rd (R.UHP_R_CTRL.EN r.val) = 0 ∧ t.eng.ringState r.val = 0 ∧ t.eng.devIdx r.val = s.eng.devIdx r.val ∧ (t.eng.rings = modAt s.eng.rings
    r.val fun x => { x with fetchIdx := t.eng.takenIdx r.val, fetches := x.fetches.map fun f => (f.1, f.2.1, false) }) ∧ t.eng.cmdIn = (if r.val = 0
    then [] else s.eng.cmdIn) ∧ ({ s.eng with rings := t.eng.rings, cmdIn := t.eng.cmdIn } : Engine).onlyRegs t.eng [(R.UHP_R_CTRL.EN r.val).off,
    (R.UHP_R_STATE.STATE r.val).off, (R.QUE_LEVEL.LEVEL 79).off]) ∧
  (∀ (r : RingIx) (value : Word) (s : State), s.eng.modeIn [3, 10] = true → (R.UHP_R_CTRL.RESTART r.val).get value = 0 → (R.UHP_R_CTRL.STOP
    r.val).get value = 0 → s.eng.rd (R.UHP_R_CTRL.EN r.val) = 1 → 3 ≤ r.val → (s.eng.stream (r.val - 3)).halted = false → ((s.eng.stream (r.val -
    3)).bufs.all fun b => !b.begun && b.lines.isEmpty && !b.withdrawn && !b.redo && b.confirm == .writing) = true → (s.eng.stream (r.val -
    3)).bufs.length ≤ 100 → (∀ c ∈ s.eng.opens, c.wait ≠ .streamFree (r.val - 3) ∧ c.wait ≠ .replay (r.val - 3)) → s.eng.resetting = none →
    s.eng.pins.failed = false → s.eng.evt.lost = none → s.eng.evt.queue.length ≤ 100 → s.eng.ringState r.val ≠ 6 → s.eng.ringState r.val ≠ 7 → ∃ t,
    exec (.ringDisable r value) s = .next t ∧ s.engineOnly t ∧ t.eng.rd (R.UHP_R_CTRL.EN r.val) = 0 ∧ t.eng.ringState r.val = 0 ∧ (s.eng.tells t.eng
    ((s.eng.stream (r.val - 3)).bufs.map fun b => (2, r.val - 3, stAborted, some b.hseq, b.idx))) ∧ (t.eng.streams = modAt s.eng.streams (r.val - 3)
    fun x =>
    { x with running := false, waitFrame := false, joined := false, stopPage := false, bufs := [], stage := [], sent := 0, waited := false, replaying := false, ending := none, rw := (0, 0), rbs := x.rbs.map fun q => q.filter fun i => !(s.eng.stream (r.val - 3)).bufs.any fun b => b.idx == i })
    ∧
    (({ s.eng with rings := t.eng.rings, streams := t.eng.streams, dma := { s.eng.dma with owed := s.eng.dma.owed.filter fun q => !(q.1 == r.val - 3 && (s.eng.stream (r.val - 3)).bufs.any fun b => b.idx == q.2.1) } }
    : Engine).onlyBooks t.eng [(R.UHP_R_CTRL.EN r.val).off, (R.UHP_R_STATE.STATE r.val).off, R.PAC_BPM.V.off, R.RSM_STATUS.CAP.off])) ∧
  (∀ (r : RingIx) (s : State), s.eng.preBoot = false → s.eng.modeIn [3, 10] = false → ([1, 2, 3, 4] : List Nat).contains (s.eng.ringState r.val) =
    true → r.val < 3 → s.eng.word (R.UHP_R_CTRL.EN r.val).off &&& 0x40000000 = 0 → ∃ t, exec (.ringStop r) s = .next t ∧ s.engineOnly t ∧
    t.eng.ringState r.val = 5 ∧ t.eng.devIdx r.val = s.eng.devIdx r.val ∧ (t.eng.rings = modAt s.eng.rings r.val fun x =>
    { x with fetchIdx := t.eng.takenIdx r.val, fetches := x.fetches.map fun f => (f.1, f.2.1, false) }) ∧ t.eng.cmdIn = (if r.val = 0 then [] else
    s.eng.cmdIn) ∧ ({ s.eng with rings := t.eng.rings, cmdIn := t.eng.cmdIn } : Engine).onlyRegs t.eng [(R.UHP_R_STATE.STATE r.val).off,
    (R.QUE_LEVEL.LEVEL 79).off]) ∧
  (∀ (r : RingIx) (s : State), s.eng.preBoot = false → s.eng.modeIn [3, 10] = false → ([1, 2, 3] : List Nat).contains (s.eng.ringState r.val) = true
    → s.eng.word (R.UHP_R_CTRL.EN r.val).off &&& 0x40000000 = 0 → 3 ≤ r.val → (s.eng.stream (r.val - 3)).halted = false → ((s.eng.stream (r.val -
    3)).bufs.all fun b => !b.begun && b.lines.isEmpty && !b.withdrawn && !b.redo && b.confirm == .writing) = true → (s.eng.stream (r.val -
    3)).bufs.length ≤ 100 → (∀ c ∈ s.eng.opens, c.wait ≠ .streamFree (r.val - 3) ∧ c.wait ≠ .replay (r.val - 3)) → s.eng.resetting = none →
    s.eng.pins.failed = false → s.eng.evt.lost = none → s.eng.evt.queue.length ≤ 100 → ∃ t, exec (.ringStop r) s = .next t ∧ s.engineOnly t ∧
    t.eng.ringState r.val = 5 ∧ (s.eng.tells t.eng ((s.eng.stream (r.val - 3)).bufs.map fun b => (2, r.val - 3, stAborted, some b.hseq, b.idx))) ∧
    (t.eng.streams = modAt s.eng.streams (r.val - 3) fun x =>
    { x with running := false, waitFrame := false, joined := false, stopPage := false, bufs := [], stage := [], sent := 0, waited := false, replaying := false, ending := none, rw := (0, 0), rbs := x.rbs.map fun q => q.filter fun i => !(s.eng.stream (r.val - 3)).bufs.any fun b => b.idx == i })
    ∧
    (({ s.eng with rings := t.eng.rings, streams := t.eng.streams, dma := { s.eng.dma with owed := s.eng.dma.owed.filter fun q => !(q.1 == r.val - 3 && (s.eng.stream (r.val - 3)).bufs.any fun b => b.idx == q.2.1) } }
    : Engine).onlyBooks t.eng [(R.UHP_R_CTRL.EN r.val).off, (R.UHP_R_STATE.STATE r.val).off, R.PAC_BPM.V.off, R.RSM_STATUS.CAP.off])) ∧
  (∀ (r : RingIx) (s : State), s.eng.preBoot = false → s.eng.modeIn [3, 10] = false → ([2, 3, 5] : List Nat).contains (s.eng.ringState r.val) = true
    → s.eng.word (R.UHP_R_CTRL.EN r.val).off &&& 0x20000000 = 0 → (r.val = 1 → s.eng.qdr.dieFaults = [] ∧ s.eng.flash.fallback = none) → ∃ t, exec
    (.ringRestart r) s = .next t ∧ s.engineOnly t ∧ (t.eng.ringState r.val = (if 3 ≤ r.val ∧ (s.eng.stream (r.val - 3)).halted = true then 4 else 1))
    ∧ (t.eng.rings = modAt s.eng.rings r.val fun x => { x with fetchIdx := (s.eng.takenIdx r.val + s.eng.received r.val) % s.eng.ringSize r.val }) ∧
    ({ s.eng with rings := t.eng.rings } : Engine).onlyRegs t.eng [(R.UHP_R_STATE.STATE r.val).off])

/-- A doorbell of a ring that is not off takes the new HOSTIDX; one at or above the ring size leaves HOSTIDX and sets DB_ERR; one of a ring that is
off changes neither. A doorbell passes through CMD_IN (R216), whose high-water mark may rise. A ring in RUN with posted entries and room asks for 1
to 8 of them in one read that wraps neither the ring nor a 4 KiB page. Commands received join CMD_IN; a stream descriptor whose HSEQ follows is
cached and DEV_IDX moves on; one whose HSEQ does not stops the ring in SEQ_STOP with a FAULT that names both. A fetch that ends in an error with
nothing received puts the ring into FETCH_ERR with a FAULT. What a fetch discarded by a stop brings is ignored. -/
def Obligations.Fetching : Prop :=
  (∀ (r : RingIx) (value : Word) (s : State), s.eng.ringState r.val ≠ 0 → value.toNat % 65536 < s.eng.ringSize r.val → ∃ t, exec (.doorbellWrite r
    value) s = .next t ∧ s.engineOnly t ∧ t.eng.rd (R.UHP_R_HOSTIDX.V r.val) = value.toNat % 65536 ∧ s.eng.onlyRegs t.eng [(R.UHP_R_HOSTIDX.V
    r.val).off, (R.QUE_LEVEL.LEVEL 79).off]) ∧
  (∀ (r : RingIx) (value : Word) (s : State), s.eng.ringState r.val ≠ 0 → s.eng.ringSize r.val ≤ value.toNat % 65536 → ∃ t, exec (.doorbellWrite r
    value) s = .next t ∧ s.engineOnly t ∧ t.eng.rd R.UHP_STATUS.DB_ERR = 1 ∧ s.eng.onlyRegs t.eng [R.UHP_STATUS.DB_ERR.off, (R.QUE_LEVEL.LEVEL
    79).off]) ∧
  (∀ (r : RingIx) (value : Word) (s : State), s.eng.ringState r.val = 0 → ∃ t, exec (.doorbellWrite r value) s = .next t ∧ s.engineOnly t ∧ t.eng.rd
    (R.QUE_LEVEL.LEVEL 79) = s.eng.rd (R.QUE_LEVEL.LEVEL 79) ∧ s.eng.onlyRegs t.eng [(R.QUE_LEVEL.LEVEL 79).off]) ∧
  (∀ (r : RingIx) (s : State), (r.val = 0 ∨ 3 ≤ r.val) → s.eng.canIssue = true → s.eng.ringState r.val = 1 → s.eng.preBoot = false → s.eng.readsOut <
    s.eng.readMax → s.eng.fetchCount r.val ≠ 0 → ∃ t, exec (.descriptorFetch r) s = .next t ∧ s.engineOnly t ∧ t.eng.link.out = s.eng.link.out ++
    [⟨false, s.eng.ringBase r.val + ((s.eng.rings.getD r.val ⟨0, []⟩).fetchIdx) * s.eng.entrySize r.val, s.eng.fetchCount r.val * s.eng.entrySize
    r.val, [], false, .fetch r.val⟩] ∧ s.eng.fetchCount r.val ≤ 8 ∧ s.eng.fetchCount r.val ≤ ahead (s.eng.ringSize r.val) ((s.eng.rings.getD r.val
    ⟨0, []⟩).fetchIdx) (s.eng.rd (R.UHP_R_HOSTIDX.V r.val)) ∧ s.eng.fetchCount r.val ≤ s.eng.ringSize r.val - ((s.eng.rings.getD r.val ⟨0,
    []⟩).fetchIdx) ∧ (s.eng.ringBase r.val + ((s.eng.rings.getD r.val ⟨0, []⟩).fetchIdx) * s.eng.entrySize r.val) % 4096 + s.eng.fetchCount r.val *
    s.eng.entrySize r.val ≤ 4096 ∧ (t.eng.rings = modAt s.eng.rings r.val fun x => ⟨(((s.eng.rings.getD r.val ⟨0, []⟩).fetchIdx) + s.eng.fetchCount
    r.val) % s.eng.ringSize r.val, x.fetches ++ [(((s.eng.rings.getD r.val ⟨0, []⟩).fetchIdx), s.eng.fetchCount r.val, true)]⟩) ∧
    ({ s.eng with link := { s.eng.link with out := t.eng.link.out }, rings := t.eng.rings } : Engine).onlyRegs t.eng []) ∧
  (∀ (r : RingIx) (data : List Byte) (first k : Nat) (rest : List (Nat × Nat × Bool)) (s : State), r.val = 0 → (s.eng.rings.getD r.val ⟨0,
    []⟩).fetches = (first, k, true) :: rest → ∃ t, exec (.fetchCompletion r data) s = .next t ∧ s.engineOnly t ∧ (t.eng.cmdIn = s.eng.cmdIn ++ (upTo
    k).map fun i => ⟨(first + i) % s.eng.ringSize 0, sliceBytes data (i * s.eng.entrySize 0) (s.eng.entrySize 0)⟩) ∧ (t.eng.rings = modAt s.eng.rings
    0 fun x => { x with fetches := rest }) ∧ t.eng.rd (R.QUE_LEVEL.LEVEL 79) = (if s.eng.ver = 1 then 8 else 16) * t.eng.cmdIn.length % 2 ^ 16 ∧
    ({ s.eng with cmdIn := t.eng.cmdIn, rings := t.eng.rings } : Engine).onlyRegs t.eng [(R.QUE_LEVEL.LEVEL 79).off]) ∧
  (∀ (r : RingIx) (data : List Byte) (first k : Nat) (rest : List (Nat × Nat × Bool)) (s : State), (s.eng.rings.getD r.val ⟨0, []⟩).fetches = (first,
    k, false) :: rest → ∃ t, exec (.fetchCompletion r data) s = .next t ∧ s.engineOnly t ∧ (t.eng =
    { s.eng with rings := modAt s.eng.rings r.val fun x => { x with fetches := rest } })) ∧
  (∀ (r : RingIx) (data : List Byte) (first : Nat) (rest : List (Nat × Nat × Bool)) (s : State), 3 ≤ r.val → (s.eng.rings.getD r.val ⟨0, []⟩).fetches
    = (first, 1, true) :: rest → s.eng.ver ≠ 1 → leAt (sliceBytes data 0 64) 4 4 = (s.eng.ringSeq r.val + 1) % 2 ^ 32 → ∃ t, exec (.fetchCompletion r
    data) s = .next t ∧ s.engineOnly t ∧ (t.eng.streams = modAt s.eng.streams (r.val - 3) fun x =>
    { x with bufs := x.bufs ++ [Engine.parseBuf s.eng.ver (s.eng.devIdx r.val) (sliceBytes data 0 64)] }) ∧ t.eng.ringSeq r.val = (s.eng.ringSeq
    r.val + 1) % 2 ^ 32 ∧ t.eng.devIdx r.val = (s.eng.devIdx r.val + 1) % s.eng.ringSize r.val ∧ (t.eng.rings = modAt s.eng.rings r.val fun x =>
    { x with fetches := rest }) ∧ ({ s.eng with rings := t.eng.rings, streams := t.eng.streams } : Engine).onlyRegs t.eng [(R.UHP_R_STATE.STATE
    r.val).off, (R.UHP_R_SEQ.V r.val).off]) ∧
  (∀ (r : RingIx) (data : List Byte) (first : Nat) (rest : List (Nat × Nat × Bool)) (s : State), 3 ≤ r.val → (s.eng.rings.getD r.val ⟨0, []⟩).fetches
    = (first, 1, true) :: rest → s.eng.ver ≠ 1 → leAt (sliceBytes data 0 64) 4 4 ≠ (s.eng.ringSeq r.val + 1) % 2 ^ 32 → s.eng.hears → ∃ t, exec
    (.fetchCompletion r data) s = .next t ∧ s.engineOnly t ∧ t.eng.ringState r.val = 2 ∧ t.eng.devIdx r.val = s.eng.devIdx r.val ∧ t.eng.rd
    (R.UHP_R_FAULT.V r.val) = leAt (sliceBytes data 0 64) 4 4 ∧ t.eng.told 0x0F 0x10 0 none (r.val + 256) ∧ t.eng.toldBytes [(24, 4, (s.eng.ringSeq
    r.val + 1) % 2 ^ 32), (28, 4, leAt (sliceBytes data 0 64) 4 4), (32, 2, s.eng.devIdx r.val)] ∧ ({ s.eng with rings := t.eng.rings } :
    Engine).onlyBooks t.eng [(R.UHP_R_STATE.STATE r.val).off, (R.UHP_R_FAULT.V r.val).off]) ∧
  (∀ (r : RingIx) (kind : ReadErr) (first k : Nat) (rest : List (Nat × Nat × Bool)) (s : State), (s.eng.rings.getD r.val ⟨0, []⟩).fetches = (first,
    k, true) :: rest → s.eng.ringState r.val = 1 → s.eng.hears → ∃ t, exec (.fetchError r [] kind) s = .next t ∧ s.engineOnly t ∧ t.eng.ringState
    r.val = 3 ∧ t.eng.devIdx r.val = s.eng.devIdx r.val ∧ t.eng.told 0x0F 0x10 0 none (r.val + 512) ∧ t.eng.cmdIn = s.eng.cmdIn ∧ t.eng.link.aer =
    s.eng.link.aer ++ [.completion kind] ∧
    ({ s.eng with rings := t.eng.rings, link := { s.eng.link with aer := t.eng.link.aer, aerCor := t.eng.link.aerCor, aerUnc := t.eng.link.aerUnc } }
    : Engine).onlyBooks t.eng [(R.UHP_R_STATE.STATE r.val).off])

/-- With CMD in RUN or FETCH_ERR and the limits of R241 met, an entry whose HSEQ follows SEQ is consumed: SEQ and DEV_IDX move on, and the machine
does what the command of its code does there, with HSEQ, TAG and parameters read from the bytes R260 gives (shown for NOP, JOB_CLOSE, FEED,
STREAM_STOP and MODE). In PAIRED it runs too, but SEQ and DEV_IDX wait for the leeward (R366; shown for NOP). An entry whose HSEQ does not follow
stops CMD in SEQ_STOP with a FAULT; DEV_IDX stays on it. -/
def Obligations.CommandsConsumed : Prop :=
  (∀ (c : CmdEntry) (rest : List CmdEntry) (s : State), s.eng.cmdIn = c :: rest → (s.eng.ringState 0 = 1 ∨ s.eng.ringState 0 = 3) → leAt
    (s.eng.entryBytes c.bytes) 4 4 = (s.eng.takenSeq 0 + 1) % 2 ^ 32 → s.eng.canTake (Engine.entryHdr (s.eng.entryBytes c.bytes) []) = true →
    s.eng.mirrorFirst = false → leAt (s.eng.entryBytes c.bytes) 0 1 = 0x01 → ∃ t, exec (.commandConsume) s = .next t ∧ s.engineOnly t ∧ exec (.nop
    (Engine.entryHdr (s.eng.entryBytes c.bytes) []))
    { s with eng := ((({ s.eng with cmdIn := rest } : Engine).showCmdIn.wr (R.UHP_R_SEQ.V 0) ((s.eng.ringSeq 0 + 1) % 2 ^ 32)).setDevIdx 0 ((s.eng.devIdx 0 + 1) % 2 ^ s.eng.rd (R.UHP_R_CTRL.LOG2 0))) }
    = .next t) ∧
  (∀ (c : CmdEntry) (rest : List CmdEntry) (s : State), s.eng.cmdIn = c :: rest → (s.eng.ringState 0 = 1 ∨ s.eng.ringState 0 = 3) → leAt
    (s.eng.entryBytes c.bytes) 4 4 = (s.eng.takenSeq 0 + 1) % 2 ^ 32 → s.eng.canTake (Engine.entryHdr (s.eng.entryBytes c.bytes) []) = true →
    s.eng.mirrorFirst = false → leAt (s.eng.entryBytes c.bytes) 0 1 = 0x03 → ∃ t, exec (.commandConsume) s = .next t ∧ s.engineOnly t ∧ exec
    (.jobClose (Engine.entryHdr (s.eng.entryBytes c.bytes) []))
    { s with eng := ((({ s.eng with cmdIn := rest } : Engine).showCmdIn.wr (R.UHP_R_SEQ.V 0) ((s.eng.ringSeq 0 + 1) % 2 ^ 32)).setDevIdx 0 ((s.eng.devIdx 0 + 1) % 2 ^ s.eng.rd (R.UHP_R_CTRL.LOG2 0))) }
    = .next t) ∧
  (∀ (c : CmdEntry) (rest : List CmdEntry) (s : State), s.eng.cmdIn = c :: rest → (s.eng.ringState 0 = 1 ∨ s.eng.ringState 0 = 3) → leAt
    (s.eng.entryBytes c.bytes) 4 4 = (s.eng.takenSeq 0 + 1) % 2 ^ 32 → s.eng.canTake (Engine.entryHdr (s.eng.entryBytes c.bytes) []) = true →
    s.eng.mirrorFirst = false → leAt (s.eng.entryBytes c.bytes) 0 1 = 0x04 → ∃ t, exec (.commandConsume) s = .next t ∧ s.engineOnly t ∧ exec (.feed
    (Engine.entryHdr (s.eng.entryBytes c.bytes) [(16, 3)]) (BitVec.ofNat 16 (leAt (s.eng.entryBytes c.bytes) 16 2)) (BitVec.ofNat 8 (leAt
    (s.eng.entryBytes c.bytes) 18 1)))
    { s with eng := ((({ s.eng with cmdIn := rest } : Engine).showCmdIn.wr (R.UHP_R_SEQ.V 0) ((s.eng.ringSeq 0 + 1) % 2 ^ 32)).setDevIdx 0 ((s.eng.devIdx 0 + 1) % 2 ^ s.eng.rd (R.UHP_R_CTRL.LOG2 0))) }
    = .next t) ∧
  (∀ (c : CmdEntry) (rest : List CmdEntry) (s : State), s.eng.cmdIn = c :: rest → (s.eng.ringState 0 = 1 ∨ s.eng.ringState 0 = 3) → leAt
    (s.eng.entryBytes c.bytes) 4 4 = (s.eng.takenSeq 0 + 1) % 2 ^ 32 → s.eng.canTake (Engine.entryHdr (s.eng.entryBytes c.bytes) []) = true →
    s.eng.mirrorFirst = false → leAt (s.eng.entryBytes c.bytes) 0 1 = 0x0A → ∃ t, exec (.commandConsume) s = .next t ∧ s.engineOnly t ∧ exec
    (.streamStop (Engine.entryHdr (s.eng.entryBytes c.bytes) [(16, 2)]) (BitVec.ofNat 8 (leAt (s.eng.entryBytes c.bytes) 16 1)) (BitVec.ofNat 8 (leAt
    (s.eng.entryBytes c.bytes) 17 1)))
    { s with eng := ((({ s.eng with cmdIn := rest } : Engine).showCmdIn.wr (R.UHP_R_SEQ.V 0) ((s.eng.ringSeq 0 + 1) % 2 ^ 32)).setDevIdx 0 ((s.eng.devIdx 0 + 1) % 2 ^ s.eng.rd (R.UHP_R_CTRL.LOG2 0))) }
    = .next t) ∧
  (∀ (c : CmdEntry) (rest : List CmdEntry) (s : State), s.eng.cmdIn = c :: rest → (s.eng.ringState 0 = 1 ∨ s.eng.ringState 0 = 3) → leAt
    (s.eng.entryBytes c.bytes) 4 4 = (s.eng.takenSeq 0 + 1) % 2 ^ 32 → s.eng.canTake (Engine.entryHdr (s.eng.entryBytes c.bytes) []) = true →
    s.eng.mirrorFirst = false → leAt (s.eng.entryBytes c.bytes) 0 1 = 0x17 → ∃ t, exec (.commandConsume) s = .next t ∧ s.engineOnly t ∧ exec (.mode
    (Engine.entryHdr (s.eng.entryBytes c.bytes) [(16, 1)]) (BitVec.ofNat 8 (leAt (s.eng.entryBytes c.bytes) 16 1)))
    { s with eng := ((({ s.eng with cmdIn := rest } : Engine).showCmdIn.wr (R.UHP_R_SEQ.V 0) ((s.eng.ringSeq 0 + 1) % 2 ^ 32)).setDevIdx 0 ((s.eng.devIdx 0 + 1) % 2 ^ s.eng.rd (R.UHP_R_CTRL.LOG2 0))) }
    = .next t) ∧
  (∀ (c : CmdEntry) (rest : List CmdEntry) (s : State), s.eng.cmdIn = c :: rest → (s.eng.ringState 0 = 1 ∨ s.eng.ringState 0 = 3) → leAt
    (s.eng.entryBytes c.bytes) 4 4 = (s.eng.takenSeq 0 + 1) % 2 ^ 32 → s.eng.canTake (Engine.entryHdr (s.eng.entryBytes c.bytes) []) = true →
    s.eng.mirrorFirst = true → leAt (s.eng.entryBytes c.bytes) 0 1 = 0x01 → s.eng.pins.failed = false → ∃ t, exec (.commandConsume) s = .next t ∧
    s.engineOnly t ∧ t.eng.ringSeq 0 = s.eng.ringSeq 0 ∧ t.eng.devIdx 0 = s.eng.devIdx 0 ∧ t.eng.uncounted = s.eng.uncounted + 1 ∧ t.eng.cmdIn = rest
    ∧ ({ s.eng with cmdIn := t.eng.cmdIn } : Engine).onlyBooks t.eng [(R.QUE_LEVEL.LEVEL 79).off]) ∧
  (∀ (c : CmdEntry) (rest : List CmdEntry) (s : State), s.eng.cmdIn = c :: rest → s.eng.ringState 0 = 1 → leAt (s.eng.entryBytes c.bytes) 4 4 ≠
    (s.eng.takenSeq 0 + 1) % 2 ^ 32 → s.eng.hears → ∃ t, exec (.commandConsume) s = .next t ∧ s.engineOnly t ∧ t.eng.ringState 0 = 2 ∧ t.eng.devIdx 0
    = s.eng.devIdx 0 ∧ t.eng.cmdIn = [] ∧ t.eng.rd (R.UHP_R_FAULT.V 0) = leAt (s.eng.entryBytes c.bytes) 4 4 ∧ t.eng.told 0x0F 0x10 0 none 256 ∧
    t.eng.toldBytes [(24, 4, (s.eng.takenSeq 0 + 1) % 2 ^ 32), (28, 4, leAt (s.eng.entryBytes c.bytes) 4 4), (32, 2, s.eng.takenIdx 0)] ∧
    ({ s.eng with rings := t.eng.rings, cmdIn := t.eng.cmdIn } : Engine).onlyBooks t.eng [(R.UHP_R_STATE.STATE 0).off, (R.UHP_R_FAULT.V 0).off,
    (R.QUE_LEVEL.LEVEL 79).off])

/-- A HEARTBEAT event is told once HB_PERIOD ms have passed since the last, with the mode, the pacer state, the status block's HEARTBEAT, V_ACT and
FREE. A vector for which an entry has been written, whose HOLDOFF has passed or whose COUNT is reached, and that is neither masked nor pending sends
its message; a masked one becomes pending (the model's choice, log 5). With the link able to issue, the next event is written to the EVT ring in one
TLP where the ring has room and the pair has it: DEV_IDX and LAST_DSEQ move on, the event leaves EVT, its vector has one entry more. A record is
written to the MET ring likewise; its MSEQ is the last one and the section hears of it. The status block goes out in one TLP, with SEQ counted up at
its head and tail, when it is due; the periodic one counts HEARTBEAT. -/
def Obligations.EngineWrites : Prop :=
  (∀ (s : State), s.eng.on R.UHP_CTRL.HB_PERIOD = true → s.eng.status.hbEvent + 1000000 * s.eng.rd R.UHP_CTRL.HB_PERIOD ≤ s.eng.now → s.eng.hears → ∃
    t, exec (.heartbeat) s = .next t ∧ s.engineOnly t ∧ t.eng.told 0x14 s.eng.mode.idx 0 none s.eng.pac.st.idx ∧ t.eng.toldBytes [(24, 4,
    s.eng.status.heartbeat), (28, 4, ofSigned 32 s.eng.vact), (32, 4, s.eng.pacFree)] ∧
    ({ s.eng with status := { s.eng.status with hbEvent := s.eng.now } } : Engine).onlyBooks t.eng []) ∧
  (∀ (v : Fin 32) (m : MsixEntry) (n : Nat) (s : State), v.val < 20 → s.eng.link.vec[v.val]? = some ⟨none, n + 1⟩ → s.eng.link.msix[v.val]? = some m
    → m.pend = false → m.masked = false → s.eng.canIssue = true → ∃ t, exec (.msixMessage v) s = .next t ∧ s.engineOnly t ∧ (t.eng =
    { s.eng with link := { s.eng.link with out := s.eng.link.out ++ [⟨true, m.addr, 4, leBytes 4 m.data, false, .msix v.val⟩], vec := modAt s.eng.link.vec v.val fun _ => ⟨some s.eng.now, 0⟩ } })) ∧
  (∀ (v : Fin 32) (m : MsixEntry) (x : VecSt) (t0 : Nat) (s : State), v.val < 20 → s.eng.link.vec[v.val]? = some x → x.lastMsg = some t0 → 0 <
    x.entries → (t0 + 1000 * s.eng.rd (R.UHP_VEC_MOD.HOLDOFF v.val) ≤ s.eng.now ∨ (0 < s.eng.rd (R.UHP_VEC_MOD.COUNT v.val) ∧ s.eng.rd
    (R.UHP_VEC_MOD.COUNT v.val) ≤ x.entries)) → s.eng.link.msix[v.val]? = some m → m.pend = false → m.masked = true → ∃ t, exec (.msixMessage v) s =
    .next t ∧ s.engineOnly t ∧ (t.eng =
    { s.eng with link := { s.eng.link with msix := modAt s.eng.link.msix v.val fun y => { y with pend := true } } })) ∧
  (∀ (v : Ev) (rest : List Ev) (s : State), s.eng.evt.queue = v :: rest → s.eng.canIssue = true → s.eng.ringRoom 1 = true → v.held = false → ∃ t,
    exec (.evtRingWrite) s = .next t ∧ s.engineOnly t ∧ t.eng.link.out = s.eng.link.out ++ [⟨true, s.eng.ringBase 1 + s.eng.devIdx 1 *
    s.eng.entrySize 1, (s.eng.eventBytes v).length, s.eng.eventBytes v, false, .evt⟩] ∧ t.eng.evt = { s.eng.evt with queue := rest } ∧ t.eng.devIdx 1
    = (s.eng.devIdx 1 + 1) % s.eng.ringSize 1 ∧ t.eng.rd R.UHP_LAST_DSEQ.V = v.dseq % 2 ^ 32 ∧ ((s.eng.ver ≠ 1 → t.eng.ringSeq 1 = v.dseq % 2 ^ 32))
    ∧ t.eng.status = { s.eng.status with entryWritten := true } ∧
    (({ s.eng with link := { s.eng.link with out := t.eng.link.out, vec := modAt s.eng.link.vec (Engine.vectorOf v) fun x => { x with entries := x.entries + 1 } }, status := t.eng.status }
    : Engine).onlyBooks t.eng [(R.UHP_R_STATE.STATE 1).off, (R.UHP_R_SEQ.V 1).off])) ∧
  (∀ (m : Nat) (b : List Byte) (rest : List (Nat × List Byte × Bool)) (s : State), s.eng.mets.recv = (m, b, false) :: rest → s.eng.canIssue = true →
    s.eng.ringRoom 2 = true → ∃ t, exec (.metRingWrite) s = .next t ∧ s.engineOnly t ∧ t.eng.link.out = s.eng.link.out ++ [⟨true, s.eng.ringBase 2 +
    s.eng.devIdx 2 * 128, b.length, b, false, .met⟩] ∧ t.eng.devIdx 2 = (s.eng.devIdx 2 + 1) % s.eng.ringSize 2 ∧ t.eng.ringSeq 2 = m % 2 ^ 32 ∧
    t.eng.rd R.MET_LAST_MSEQ.V = m % 2 ^ 32 ∧
    (({ s.eng with link := { s.eng.link with out := t.eng.link.out, vec := modAt s.eng.link.vec (1) fun x => { x with entries := x.entries + 1 } }, status := { s.eng.status with entryWritten := true, lastMseq := m }, mets := { s.eng.mets with recv := rest }, met := { s.eng.met with cmd := s.eng.met.cmd ++ [.ack m] } }
    : Engine).onlyRegs t.eng [(R.UHP_R_STATE.STATE 2).off, (R.UHP_R_SEQ.V 2).off, R.MET_LAST_MSEQ.V.off])) ∧
  (∀ (s : State), s.eng.canStatus = true → (s.eng.syncReady || s.eng.periodicDue || s.eng.entriesDue) = true → 256 ≤ s.eng.link.mps → ∃ t, exec
    (.statusBlockWrite) s = .next t ∧ s.engineOnly t ∧ t.eng.link.out = s.eng.link.out ++ [⟨true, 256 * s.eng.rd R.UHP_STATUS_BASE_LO.ADDR + 2 ^ 32 *
    s.eng.rd R.UHP_STATUS_BASE_HI.ADDR, 256, t.eng.statusBytes ((s.eng.status.seq + 1) % 2 ^ 32) s.eng.syncReady, false, .status⟩] ∧ t.eng.status =
    { s.eng.status with seq := (s.eng.status.seq + 1) % 2 ^ 32, heartbeat := if s.eng.periodicDue then (s.eng.status.heartbeat + 1) % 2 ^ 32 else s.eng.status.heartbeat, lastWrite := s.eng.now, lastPeriodic := if s.eng.periodicDue then s.eng.now else s.eng.status.lastPeriodic, entryWritten := false, syncDue := if s.eng.syncReady then none else s.eng.status.syncDue }
    ∧ t.eng = { s.eng with status := t.eng.status, link := { s.eng.link with out := t.eng.link.out } }) ∧
  (∀ (s : State), s.eng.canStatus = true → (s.eng.syncReady || s.eng.periodicDue || s.eng.entriesDue) = true → s.eng.link.mps < 256 → ∃ t, exec
    (.statusBlockWrite) s = .next t ∧ s.engineOnly t ∧ t.eng.link.out.map Tlp.len = s.eng.link.out.map Tlp.len ++ [128, 128] ∧ t.eng.status.seq =
    (s.eng.status.seq + 1) % 2 ^ 32 ∧ t.eng = { s.eng with status := t.eng.status, link := { s.eng.link with out := t.eng.link.out } })

/-- A link that comes up shows its speed and width, DEGRADED below 32 GT/s or x8; after a link down without PERST# it is also acted on as by an FLR.
A link that goes down shows neither and remembers that. A retrain shows the new values. An AER error is logged; a poisoned BAR4 write counts as
dropped, a fatal one stops the requests of the engine; an ECRC Error is one only where the checking of ECRC is enabled. -/
def Obligations.LinkStates : Prop :=
  (∀ (speed : Fin 6) (width : Fin 9) (s : State), s.eng.pins.perstLow = false → s.eng.pins.failed = false → Engine.linkValid speed.val width.val =
    true → s.eng.on R.UHP_STATUS.LINK_UP = false → s.eng.link.flrOnUp = false → ∃ t, exec (.linkUp speed width) s = .next t ∧ s.engineOnly t ∧
    t.eng.rd R.UHP_LINK.SPEED = speed.val ∧ t.eng.rd R.UHP_LINK.WIDTH = width.val ∧ (t.eng.rd R.UHP_LINK.DEGRADED = (if speed.val < 5 ∨ width.val < 8
    then 1 else 0)) ∧ t.eng.rd R.UHP_STATUS.LINK_UP = 1 ∧ s.eng.onlyRegs t.eng [R.UHP_LINK.word.off, R.UHP_STATUS.LINK_UP.off]) ∧
  (∀ (speed : Fin 6) (width : Fin 9) (s : State), s.eng.pins.perstLow = false → s.eng.pins.failed = false → Engine.linkValid speed.val width.val =
    true → s.eng.on R.UHP_STATUS.LINK_UP = false → s.eng.link.flrOnUp = true → s.eng.resetting = none → ∃ t, exec (.linkUp speed width) s = .next t ∧
    s.engineOnly t ∧ t.eng.rd R.UHP_LINK.SPEED = speed.val ∧ t.eng.rd R.UHP_LINK.WIDTH = width.val ∧ (t.eng.rd R.UHP_LINK.DEGRADED = (if speed.val <
    5 ∨ width.val < 8 then 1 else 0)) ∧ t.eng.rd R.UHP_STATUS.LINK_UP = 1 ∧ t.eng.resetting = some ⟨[.flr]⟩ ∧ t.eng.link =
    { s.eng.link with flrOnUp := false }) ∧
  (∀ (s : State), s.eng.on R.UHP_STATUS.LINK_UP = true → ∃ t, exec (.linkDown) s = .next t ∧ s.engineOnly t ∧ t.eng.rd R.UHP_STATUS.LINK_UP = 0 ∧
    t.eng.rd R.UHP_LINK.SPEED = 0 ∧ t.eng.rd R.UHP_LINK.WIDTH = 0 ∧ t.eng.rd R.UHP_LINK.DEGRADED = 0 ∧
    ({ s.eng with link := { s.eng.link with flrOnUp := if s.eng.pins.perstLow then s.eng.link.flrOnUp else true } } : Engine).onlyRegs t.eng
    [R.UHP_LINK.word.off, R.UHP_STATUS.LINK_UP.off]) ∧
  (∀ (speed : Fin 6) (width : Fin 9) (s : State), s.eng.on R.UHP_STATUS.LINK_UP = true → Engine.linkValid speed.val width.val = true → ∃ t, exec
    (.linkRetrain speed width) s = .next t ∧ s.engineOnly t ∧ t.eng.rd R.UHP_LINK.SPEED = speed.val ∧ t.eng.rd R.UHP_LINK.WIDTH = width.val ∧
    (t.eng.rd R.UHP_LINK.DEGRADED = (if speed.val < 5 ∨ width.val < 8 then 1 else 0)) ∧ s.eng.onlyRegs t.eng [R.UHP_LINK.word.off]) ∧
  (∀ (kind : AerKind) (header : Option (List Word)) (s : State), (kind = .ecrc → s.eng.link.ecrcCheck = true) → ∃ t, exec (.aerErrorReceived ⟨kind,
    header⟩) s = .next t ∧ s.engineOnly t ∧ t.eng.link =
    { s.eng.link with aer := s.eng.link.aer ++ [kind], header := header.getD s.eng.link.header, stopped := s.eng.link.stopped || decide (∃ k : Fin 4, kind = .fatal k), aerCor := t.eng.link.aerCor, aerUnc := t.eng.link.aerUnc }
    ∧ t.eng.rd R.QDR_HOST_DROP_CNT.V = (if kind = .poisonedBar4 then min (2 ^ 32 - 1) (s.eng.rd R.QDR_HOST_DROP_CNT.V + 1) else s.eng.rd
    R.QDR_HOST_DROP_CNT.V) ∧ ({ s.eng with link := t.eng.link } : Engine).onlyRegs t.eng [R.QDR_HOST_DROP_CNT.V.off]) ∧
  (∀ (header : Option (List Word)) (s : State), s.eng.link.ecrcCheck = false → ∃ t, exec (.aerErrorReceived ⟨.ecrc, header⟩) s = .next t ∧
    s.engineOnly t ∧ t.eng = s.eng)

/-- A read of the doorbell at BAR2 0x1000 r answers HOSTIDX of ring r; a write acts as a doorbell. The 32 entries of 16 bytes at BAR2 0x1E000 read
and take message address, data and mask; an unmasked vector is pending no more (PRESUMED, log 5); the PBA at 0x1F000 reads the pending bits.
Configuration space holds the IDs and class of R227 (the vendor's and the revision are free), Bus Master Enable, a BAR0 base of 1 MiB steps, Device
Control 2 with its completion timeout and 10-bit tags, the ECRC enables and the header log, at the places of log 142. A read changes nothing but the
answer. In M0 there is none. -/
def Obligations.HostSpaces : Prop :=
  (∀ (r : RingIx) (n : Nat) (s : State), s.eng.mode ≠ .m0 → ∃ t, exec (.rcRead ⟨.bar2, (BitVec.ofNat 20 (0x1000 * r.val))⟩ n) s = .next t ∧
    s.engineOnly t ∧ t.eng = { s.eng with rsp := leBytes 4 (s.eng.rd (R.UHP_R_HOSTIDX.V r.val)) }) ∧
  (∀ (r : RingIx) (value hw : Word) (s : State), s.eng.mode ≠ .m0 → s.eng.ringState r.val ≠ 0 → value.toNat % 65536 < s.eng.ringSize r.val → ∃ t,
    exec (.registerWrite ⟨.bar2, (BitVec.ofNat 20 (0x1000 * r.val))⟩ value hw) s = .next t ∧ s.engineOnly t ∧ t.eng.rd (R.UHP_R_HOSTIDX.V r.val) =
    value.toNat % 65536 ∧ s.eng.onlyRegs t.eng [(R.UHP_R_HOSTIDX.V r.val).off, (R.QUE_LEVEL.LEVEL 79).off]) ∧
  (∀ (i : Fin 32) (n : Nat) (s : State), s.eng.mode ≠ .m0 → ∃ t, exec (.rcRead ⟨.bar2, (BitVec.ofNat 20 (0x1E000 + 16 * i.val + 0))⟩ n) s = .next t ∧
    s.engineOnly t ∧ t.eng = { s.eng with rsp := leBytes 4 ((s.eng.link.msix.getD i.val ⟨0, 0, true, false⟩).addr % 2 ^ 32) }) ∧
  (∀ (i : Fin 32) (n : Nat) (s : State), s.eng.mode ≠ .m0 → ∃ t, exec (.rcRead ⟨.bar2, (BitVec.ofNat 20 (0x1E000 + 16 * i.val + 4))⟩ n) s = .next t ∧
    s.engineOnly t ∧ t.eng = { s.eng with rsp := leBytes 4 ((s.eng.link.msix.getD i.val ⟨0, 0, true, false⟩).addr / 2 ^ 32) }) ∧
  (∀ (i : Fin 32) (n : Nat) (s : State), s.eng.mode ≠ .m0 → ∃ t, exec (.rcRead ⟨.bar2, (BitVec.ofNat 20 (0x1E000 + 16 * i.val + 8))⟩ n) s = .next t ∧
    s.engineOnly t ∧ t.eng = { s.eng with rsp := leBytes 4 (s.eng.link.msix.getD i.val ⟨0, 0, true, false⟩).data }) ∧
  (∀ (i : Fin 32) (n : Nat) (s : State), s.eng.mode ≠ .m0 → ∃ t, exec (.rcRead ⟨.bar2, (BitVec.ofNat 20 (0x1E000 + 16 * i.val + 12))⟩ n) s = .next t
    ∧ s.engineOnly t ∧ t.eng = { s.eng with rsp := leBytes 4 (b2n (s.eng.link.msix.getD i.val ⟨0, 0, true, false⟩).masked) }) ∧
  (∀ (i : Fin 32) (value hw : Word) (s : State), s.eng.mode ≠ .m0 → ∃ t, exec (.registerWrite ⟨.bar2, (BitVec.ofNat 20 (0x1E000 + 16 * i.val + 0))⟩
    value hw) s = .next t ∧ s.engineOnly t ∧ (t.eng =
    { s.eng with link := { s.eng.link with msix := modAt s.eng.link.msix i.val fun y => { y with addr := y.addr / 2 ^ 32 * 2 ^ 32 + value.toNat / 4 * 4 } } })) ∧
  (∀ (i : Fin 32) (value hw : Word) (s : State), s.eng.mode ≠ .m0 → ∃ t, exec (.registerWrite ⟨.bar2, (BitVec.ofNat 20 (0x1E000 + 16 * i.val + 4))⟩
    value hw) s = .next t ∧ s.engineOnly t ∧ (t.eng =
    { s.eng with link := { s.eng.link with msix := modAt s.eng.link.msix i.val fun y => { y with addr := value.toNat * 2 ^ 32 + y.addr % 2 ^ 32 } } })) ∧
  (∀ (i : Fin 32) (value hw : Word) (s : State), s.eng.mode ≠ .m0 → ∃ t, exec (.registerWrite ⟨.bar2, (BitVec.ofNat 20 (0x1E000 + 16 * i.val + 8))⟩
    value hw) s = .next t ∧ s.engineOnly t ∧ (t.eng =
    { s.eng with link := { s.eng.link with msix := modAt s.eng.link.msix i.val fun y => { y with data := value.toNat } } })) ∧
  (∀ (i : Fin 32) (value hw : Word) (s : State), s.eng.mode ≠ .m0 → ∃ t, exec (.registerWrite ⟨.bar2, (BitVec.ofNat 20 (0x1E000 + 16 * i.val + 12))⟩
    value hw) s = .next t ∧ s.engineOnly t ∧ (t.eng =
    { s.eng with link := { s.eng.link with msix := modAt s.eng.link.msix i.val fun y => { y with masked := bitOf value.toNat 0, pend := y.pend && bitOf value.toNat 0 } } })) ∧
  (∀ (n : Nat) (s : State), s.eng.mode ≠ .m0 → ∃ t, exec (.rcRead ⟨.bar2, 0x1F000#20⟩ n) s = .next t ∧ s.engineOnly t ∧ (t.eng =
    { s.eng with rsp := leBytes 4 (sumNat ((upTo 32).map fun k => b2n (s.eng.link.msix.getD k ⟨0, 0, true, false⟩).pend * 2 ^ k)) })) ∧
  (∀ (n : Nat) (s : State), s.eng.mode ≠ .m0 → ∃ t, exec (.rcRead ⟨.config, 0#20⟩ n) s = .next t ∧ s.engineOnly t ∧ t.eng =
    { s.eng with rsp := leBytes 4 (0x6408 * 65536 + Config.pciVendor % 65536) }) ∧
  (∀ (n : Nat) (s : State), s.eng.mode ≠ .m0 → ∃ t, exec (.rcRead ⟨.config, 8#20⟩ n) s = .next t ∧ s.engineOnly t ∧ t.eng =
    { s.eng with rsp := leBytes 4 (0x048000 * 256 + Config.siliconRevision % 256) }) ∧
  (∀ (value hw : Word) (s : State), s.eng.mode ≠ .m0 → ∃ t, exec (.registerWrite ⟨.config, 4#20⟩ value hw) s = .next t ∧ s.engineOnly t ∧ t.eng =
    { s.eng with link := { s.eng.link with bme := bitOf value.toNat 2 } }) ∧
  (∀ (n : Nat) (s : State), s.eng.mode ≠ .m0 → ∃ t, exec (.rcRead ⟨.config, 4#20⟩ n) s = .next t ∧ s.engineOnly t ∧ t.eng =
    { s.eng with rsp := leBytes 4 (0x00100000 + 4 * b2n s.eng.link.bme) }) ∧
  (∀ (value hw : Word) (s : State), s.eng.mode ≠ .m0 → ∃ t, exec (.registerWrite ⟨.config, 0x10#20⟩ value hw) s = .next t ∧ s.engineOnly t ∧ (t.eng =
    { s.eng with link := { s.eng.link with bars := modAt s.eng.link.bars 0 fun b => b / 2 ^ 32 * 2 ^ 32 + value.toNat / 0x100000 * 0x100000 } })) ∧
  (∀ (k : Fin 4) (n : Nat) (s : State), s.eng.mode ≠ .m0 → ∃ t, exec (.rcRead ⟨.config, (BitVec.ofNat 20 (0x11C + 4 * k.val))⟩ n) s = .next t ∧
    s.engineOnly t ∧ t.eng = { s.eng with rsp := leBytes 4 (s.eng.link.header.getD k.val 0).toNat }) ∧
  (∀ (value hw : Word) (s : State), s.eng.mode ≠ .m0 → ∃ t, exec (.registerWrite ⟨.config, 0x78#20⟩ value hw) s = .next t ∧ s.engineOnly t ∧ t.eng =
    { s.eng with link := { s.eng.link with timeout := value.toNat % 16, tags10 := bitOf value.toNat 12 } }) ∧
  (∀ (value hw : Word) (s : State), s.eng.mode ≠ .m0 → ∃ t, exec (.registerWrite ⟨.config, 0x118#20⟩ value hw) s = .next t ∧ s.engineOnly t ∧ t.eng =
    { s.eng with link := { s.eng.link with ecrcGen := bitOf value.toNat 6, ecrcCheck := bitOf value.toNat 8 } }) ∧
  (∀ (n : Nat) (s : State), s.eng.mode ≠ .m0 → ∃ t, exec (.rcRead ⟨.config, 0x78#20⟩ n) s = .next t ∧ s.engineOnly t ∧ t.eng =
    { s.eng with rsp := leBytes 4 (s.eng.link.timeout + 4096 * b2n s.eng.link.tags10) }) ∧
  (∀ (sp : HostSpace) (off : BitVec 20) (value hw : Word) (s : State), s.eng.mode = .m0 → sp ≠ .bar0 → ∃ t, exec (.registerWrite ⟨sp, off⟩ value hw)
    s = .next t ∧ s.engineOnly t ∧ t.eng = s.eng) ∧
  (∀ (sp : HostSpace) (off : BitVec 20) (n : Nat) (s : State), s.eng.mode = .m0 → sp ≠ .bar0 → ∃ t, exec (.rcRead ⟨sp, off⟩ n) s = .next t ∧
    s.engineOnly t ∧ t.eng = s.eng)

/-- In M1, with a slot that passes its check, BOOT_COMPLETE runs its firmware: SYS_FW and SYS_UNITS show what was found, the staging dies that pass
and are not asked out are mapped in, and a module without pair operation enters M3; one whose peer holds ownership enters M10 as leeward. With no
good slot the module stays in M1 in recovery. -/
def Obligations.BootLeads : Prop :=
  (∀ (f : BootFindings) (k : Nat) (s : State), s.eng.mode = .m1 → s.eng.resetting = none → s.eng.on R.SYS_FW.RECOVERY = false → s.eng.pair.bootRole =
    false → s.eng.rd R.SYS_RESET_CAUSE.word % 128 ≠ 4 → s.eng.bootSlot f.flashReadable = some k → s.eng.on R.PAIR_CTRL.EN = false → f.sectionAnswers
    = false → ∃ t, exec (.bootComplete f) s = .next t ∧ s.engineOnly t ∧ t.eng.mode = .m3 ∧ t.eng.rd R.SYS_FW.SLOT = k % 2 ^ R.SYS_FW.SLOT.width ∧
    t.eng.rd R.SYS_FW.MAJOR = f.major.toNat ∧ t.eng.rd R.SYS_FW.MINOR = f.minor.toNat ∧ t.eng.rd R.SYS_FW.BUILD = f.build.toNat ∧ t.eng.flash.running
    = k ∧ t.eng.rd R.SYS_UNITS.SECTION = b2n f.sectionAnswers ∧ t.eng.rd R.SYS_UNITS.AFE0 = b2n (f.afePresent.getD 0 false) ∧ t.eng.rd
    R.SYS_UNITS.AFE1 = b2n (f.afePresent.getD 1 false) ∧ (f.dieFails = [] → ∀ j : Fin 4, bitOf (t.eng.rd R.QDR_STATUS.MAP) j.val = !bitOf (s.eng.rd
    R.QDR_MAP_REQ.OUT) j.val) ∧ (t.eng.rd R.QDR_STATUS.MAP ≠ 0 → t.eng.rd R.QDR_STAGE_SIZE.V + 12582912 = t.eng.capacity) ∧ t.eng.cal.bootTime =
    s.eng.now ∧ t.eng =
    { t.eng with now := s.eng.now, trans := s.eng.trans, resetting := s.eng.resetting, cmdIn := s.eng.cmdIn, streams := s.eng.streams, dma := s.eng.dma, mot := s.eng.mot, pac := s.eng.pac, feed := s.eng.feed, squall := s.eng.squall, job := s.eng.job, frames := s.eng.frames, gus := s.eng.gus, geo := s.eng.geo, mon := s.eng.mon, status := s.eng.status }) ∧
  (∀ (f : BootFindings) (k : Nat) (s : State), s.eng.mode = .m1 → s.eng.resetting = none → s.eng.on R.SYS_FW.RECOVERY = false → s.eng.pair.bootRole =
    false → s.eng.rd R.SYS_RESET_CAUSE.word % 128 ≠ 4 → s.eng.bootSlot f.flashReadable = some k → s.eng.on R.PAIR_CTRL.EN = true → f.peerOwn = true →
    ∃ t, exec (.bootComplete f) s = .next t ∧ t.stg = s.stg ∧ t.sec = s.sec ∧ t.pending = s.pending ∧ t.eng.mode = .m10 ∧ t.eng.pair.role = 2 ∧
    t.eng.pair.st = 1 ∧ t.eng.rd R.SYS_FW.SLOT = k % 2 ^ R.SYS_FW.SLOT.width ∧ t.eng.rd R.SYS_FW.MAJOR = f.major.toNat ∧ t.eng.rd R.SYS_FW.MINOR =
    f.minor.toNat ∧ t.eng.rd R.SYS_FW.BUILD = f.build.toNat ∧ t.eng.flash.running = k ∧ t.eng.rd R.SYS_UNITS.SECTION = b2n f.sectionAnswers ∧
    t.eng.rd R.SYS_UNITS.AFE0 = b2n (f.afePresent.getD 0 false) ∧ t.eng.rd R.SYS_UNITS.AFE1 = b2n (f.afePresent.getD 1 false) ∧ (f.dieFails = [] → ∀
    j : Fin 4, bitOf (t.eng.rd R.QDR_STATUS.MAP) j.val = !bitOf (s.eng.rd R.QDR_MAP_REQ.OUT) j.val) ∧ (t.eng.rd R.QDR_STATUS.MAP ≠ 0 → t.eng.rd
    R.QDR_STAGE_SIZE.V + 12582912 = t.eng.capacity) ∧ t.eng =
    { t.eng with now := s.eng.now, trans := s.eng.trans, resetting := s.eng.resetting, cmdIn := s.eng.cmdIn, streams := s.eng.streams, dma := s.eng.dma, mot := s.eng.mot, pac := s.eng.pac, feed := s.eng.feed, squall := s.eng.squall, job := s.eng.job, frames := s.eng.frames, gus := s.eng.gus, geo := s.eng.geo, mon := s.eng.mon }) ∧
  (∀ (f : BootFindings) (s : State), s.eng.mode = .m1 → s.eng.resetting = none → s.eng.on R.SYS_FW.RECOVERY = false → s.eng.pair.bootRole = false →
    s.eng.rd R.SYS_RESET_CAUSE.word = 4 → s.eng.on R.PAIR_CTRL.EN = false → f.sectionAnswers = false → ∃ t, exec (.bootComplete f) s = .next t ∧
    s.engineOnly t ∧ t.eng.mode = .m3 ∧ t.eng.rd R.SYS_FW.word = s.eng.rd R.SYS_FW.word ∧ t.eng.flash.running = s.eng.flash.running ∧
    t.eng.cal.bootTime = s.eng.now ∧ t.eng =
    { t.eng with now := s.eng.now, trans := s.eng.trans, resetting := s.eng.resetting, cmdIn := s.eng.cmdIn, streams := s.eng.streams, dma := s.eng.dma, mot := s.eng.mot, pac := s.eng.pac, feed := s.eng.feed, squall := s.eng.squall, job := s.eng.job, frames := s.eng.frames, gus := s.eng.gus, geo := s.eng.geo, mon := s.eng.mon, status := s.eng.status }) ∧
  (∀ (f : BootFindings) (s : State), s.eng.mode = .m1 → s.eng.resetting = none → s.eng.on R.SYS_FW.RECOVERY = false → s.eng.pair.bootRole = false →
    s.eng.rd R.SYS_RESET_CAUSE.word % 128 ≠ 4 → s.eng.bootSlot f.flashReadable = none → f.sectionAnswers = false → ∃ t, exec (.bootComplete f) s =
    .next t ∧ s.engineOnly t ∧ t.eng.rd R.SYS_FW.RECOVERY = 1 ∧ t.eng.rd R.SYS_UNITS.FLASH = b2n f.flashReadable ∧ s.eng.onlyRegs t.eng
    [R.SYS_FW.RECOVERY.off, R.SYS_UNITS.FLASH.off])

/-- PFAIL leads to M0 with the supply counted as failed: PFAIL_OUT is driven, the count in flash goes up, AX0, feeding and the job are gone,
ownership is not driven, the staging memory is lost. With the section idle its state stands. Recovery resets the module as a POR does, counts EPOCH
up, and leaves PFAIL in SYS_RESET_CAUSE. -/
def Obligations.PowerFailure : Prop :=
  (∀ (s : State), s.eng.pins.failed = false → s.sec.pieces = [] → ∃ t, exec (.pfail) s = .next t ∧ t.stg = ⟨[], []⟩ ∧ t.sec = s.sec ∧ t.pending =
    s.pending ∧ t.eng.mode = .m0 ∧ t.eng.pins = { s.eng.pins with failed := true } ∧ t.eng.rd R.SYS_PIN.PFAIL_OUT = 1 ∧ t.eng.flash.pfailCnt =
    (s.eng.flash.pfailCnt + 1) % 2 ^ 32 ∧ t.eng.rd R.SYS_PFAIL_CNT.V = (s.eng.flash.pfailCnt + 1) % 2 ^ 32 ∧ t.eng.flash.pfailFlag = true ∧
    t.eng.mot.v = 0 ∧ t.eng.pac = PacerSt.init ∧ t.eng.feed = FeedSt.init ∧ t.eng.job = { JobSt.init with ended := true } ∧ t.eng.resetting = none ∧
    t.eng.pair.drive = false ∧ t.eng.pair.hbStopped = true ∧ (t.eng.chans = s.eng.chans.zipIdx.map fun x => if x.2 < 64 then { x.1 with owed := [] }
    else x.1) ∧ t.eng =
    { t.eng with now := s.eng.now, cmdIn := s.eng.cmdIn, rings := s.eng.rings, streams := s.eng.streams, dma := s.eng.dma, shd := s.eng.shd, eddy := s.eng.eddy, frames := s.eng.frames, gus := s.eng.gus, geo := s.eng.geo, mon := s.eng.mon, mets := s.eng.mets, qdr := s.eng.qdr }) ∧
  (∀ (s : State), s.eng.pins.failed = true → s.eng.pinHeld = false → ∃ t, exec (.pfailRecovery) s = .next t ∧ t.stg = ⟨[], []⟩ ∧ t.sec =
    (s.sec.restart 0 1).1 ∧ t.pending = s.pending ∧ t.eng.mode = .m1 ∧ t.eng.pins.failed = false ∧ t.eng.now = 0 ∧ t.eng.flash.porCount =
    (s.eng.flash.porCount + 1) % 2 ^ 32 ∧ t.eng.rd R.UHP_EPOCH.V = (s.eng.flash.porCount + 1) % 2 ^ 32 ∧ t.eng.rd R.SYS_RESET_CAUSE.POR = 1 ∧
    t.eng.rd R.SYS_RESET_CAUSE.PFAIL = b2n s.eng.flash.pfailFlag ∧ t.eng.rd R.SYS_PFAIL_CNT.V = s.eng.flash.pfailCnt % 2 ^ 32 ∧ t.eng.streams =
    List.replicate 16 Stream.init ∧ t.eng.opens = [])

/-- A rising edge on WAKE in M2 with WAKE_EN begins a wake to the mode WAKE_TGT names; a MODE 2 that meets an edge completes ABORTED (R342). With the
rails settled the staging memory is empty and M3 is entered with cause WAKE; a wake to M3 ends there. With the references settled and the checks
passed M4 is entered; where no die pair is mapped in the wake ends in M3. At the end of warm-up, with every converting side converting and its slices
calibrated, M6 is entered and the wake, or the MODE command, ends. -/
def Obligations.WakeSteps : Prop :=
  (∀ (s : State), s.eng.mode = .m2 → s.eng.on R.SYS_CTRL.WAKE_EN = true → s.eng.trans.target = none → s.eng.resetting = none → ∃ t, exec (.wake) s =
    .next t ∧ s.engineOnly t ∧ t.eng =
    { s.eng with trans := { s.eng.trans with target := some (if s.eng.on R.SYS_CTRL.WAKE_TGT then .m6 else .m3), cmd := none, wake := some ⟨if s.eng.on R.SYS_CTRL.WAKE_TGT then .m6 else .m3, false⟩, warming := false, wokeAt := some s.eng.now } }) ∧
  (∀ (s : State), s.eng.mode ≠ .m2 → s.eng.on R.SYS_CTRL.WAKE_EN = true → s.eng.resetting = none → ∃ t, exec (.wake) s = .next t ∧ s.engineOnly t ∧
    t.eng = { s.eng with trans := { s.eng.trans with wokeAt := some s.eng.now } }) ∧
  (∀ (h : CmdHdr) (s : State), s.eng.accepts h 0x17 [2, 3, 4, 5, 6, 7, 8, 9, 11] → s.eng.unused h → s.eng.trans.wokeAt = some s.eng.now → ∃ t, exec
    (.mode h 2) s = .next t ∧ s.engineOnly t ∧ t.eng.answered h.hseq.toNat 0x17 stAborted ∧ t.eng.mode = s.eng.mode ∧ t.eng.trans = s.eng.trans ∧
    s.eng.onlyBooks t.eng []) ∧
  (∀ (dieFails : List (Fin 8 × Nat)) (s : State), s.eng.mode = .m2 → s.eng.trans.wake = some ⟨.m6, false⟩ → s.eng.trans.cmd = none → ∃ t, exec
    (.wakeRailsSettled dieFails) s = .next t ∧ t.stg = ⟨[], []⟩ ∧ t.sec = s.sec ∧ t.pending = s.pending ∧ t.eng.mode = .m3 ∧ t.eng.trans =
    { s.eng.trans with wake := some ⟨.m6, true⟩ } ∧ (dieFails = [] → ∀ j : Fin 4, bitOf (t.eng.rd R.QDR_STATUS.MAP) j.val = !bitOf (s.eng.rd
    R.QDR_MAP_REQ.OUT) j.val) ∧ t.eng =
    { t.eng with now := s.eng.now, resetting := s.eng.resetting, pins := s.eng.pins, link := s.eng.link, cmdIn := s.eng.cmdIn, streams := s.eng.streams, dma := s.eng.dma, mot := s.eng.mot, pac := s.eng.pac, feed := s.eng.feed, squall := s.eng.squall, frames := s.eng.frames, gus := s.eng.gus, geo := s.eng.geo, mon := s.eng.mon, met := s.eng.met, mets := s.eng.mets }) ∧
  (∀ (dieFails : List (Fin 8 × Nat)) (s : State), s.eng.mode = .m2 → s.eng.trans.wake = some ⟨.m3, false⟩ → s.eng.trans.cmd = none →
    s.eng.trans.waiting = [] → ∃ t, exec (.wakeRailsSettled dieFails) s = .next t ∧ t.stg = ⟨[], []⟩ ∧ t.sec = s.sec ∧ t.pending = s.pending ∧
    t.eng.mode = .m3 ∧ t.eng.trans = { Engine.reset.trans with wokeAt := s.eng.trans.wokeAt } ∧ t.eng =
    { t.eng with now := s.eng.now, resetting := s.eng.resetting, pins := s.eng.pins, link := s.eng.link, cmdIn := s.eng.cmdIn, streams := s.eng.streams, dma := s.eng.dma, mot := s.eng.mot, pac := s.eng.pac, feed := s.eng.feed, squall := s.eng.squall, frames := s.eng.frames, gus := s.eng.gus, geo := s.eng.geo, mon := s.eng.mon, met := s.eng.met, mets := s.eng.mets }) ∧
  (∀ (s : State), s.eng.mode = .m3 → s.eng.trans.wake = some ⟨.m6, true⟩ → s.eng.rd R.QDR_STATUS.MAP = 0 → s.eng.trans.cmd = none →
    s.eng.trans.waiting = [] → ∃ t, exec (.wakeReferencesSettled) s = .next t ∧ s.engineOnly t ∧ t.eng.mode = .m3 ∧ t.eng.trans =
    { Engine.reset.trans with wokeAt := s.eng.trans.wokeAt } ∧ ({ s.eng with trans := t.eng.trans, afe := t.eng.afe } : Engine).onlyRegs t.eng []) ∧
  (∀ (s : State), s.eng.mode = .m3 → s.eng.trans.wake = some ⟨.m6, true⟩ → s.eng.rd R.QDR_STATUS.MAP ≠ 0 → s.eng.pulseLeds.cfgError 0 = 0 →
    s.eng.pulseLeds.cfgError 1 = 0 → s.eng.calRefuses = false → ((s.eng.convSides).any fun i => (s.eng.afeSide i).timedOut) = false → ∃ t, exec
    (.wakeReferencesSettled) s = .next t ∧ s.engineOnly t ∧ t.eng.mode = .m4 ∧ t.eng.trans = { s.eng.trans with warming := true } ∧ t.eng =
    { t.eng with now := s.eng.now, resetting := s.eng.resetting, pins := s.eng.pins, flash := s.eng.flash, link := s.eng.link, cmdIn := s.eng.cmdIn, streams := s.eng.streams, dma := s.eng.dma, mot := s.eng.mot, pac := s.eng.pac, feed := s.eng.feed, squall := s.eng.squall, job := s.eng.job, frames := s.eng.frames, gus := s.eng.gus, geo := s.eng.geo, mon := s.eng.mon, met := s.eng.met, mets := s.eng.mets, qdr := s.eng.qdr }) ∧
  (∀ (s : State), s.eng.mode = .m4 → s.eng.trans.target = some .m6 → s.eng.trans.warming = true → s.eng.trans.cmd = none → s.eng.trans.waiting = [] →
    s.eng.convMissing = false → s.eng.slicesReady = true → s.eng.cal.gapStart = none → s.eng.hears → ∃ t, exec (.warmupComplete) s = .next t ∧
    s.engineOnly t ∧ t.eng.mode = .m6 ∧ t.eng.trans = { Engine.reset.trans with wokeAt := s.eng.trans.wokeAt } ∧ t.eng.told 0x15 6 0 none (4 + 256 *
    11) ∧ ({ s.eng with mode := t.eng.mode, trans := t.eng.trans } : Engine).onlyBooks t.eng []) ∧
  (∀ (m : ModeCmd) (c : OpenCmd) (s : State), s.eng.mode = .m4 → s.eng.trans.target = some .m6 → s.eng.trans.warming = true → s.eng.trans.cmd = some
    m → s.eng.trans.waiting = [] → s.eng.convMissing = false → s.eng.slicesReady = true → s.eng.cal.gapStart = none → s.eng.resetting = none →
    s.eng.pins.failed = false → s.eng.opens.find? (fun c => c.hseq == m.hseq && c.wait != Wait.built) = some c → ∃ t, exec (.warmupComplete) s =
    .next t ∧ s.engineOnly t ∧ t.eng.mode = .m6 ∧ t.eng.trans = { Engine.reset.trans with wokeAt := s.eng.trans.wokeAt } ∧ t.eng.answered m.hseq
    c.code stOk ∧ ({ s.eng with mode := t.eng.mode, trans := t.eng.trans } : Engine).onlyBooks t.eng [])

/-- A count moves EN_COUNT by one, in the sense SWAP gives, wrapping; the section takes EN0's own copy. On the trigger source it moves the position
by 256; a forward count that crosses a boundary with triggers on keeps a trigger of the next pitch number above the highest kept one, which both
running sides receive, and discards one that is not above it; before the first kept one no boundary below boundary 0 keeps anything. An index edge
latches the count. An illegal transition is counted; the first of a job on the trigger source in M7 or M8 is a FAULT and a Squall. -/
def Obligations.EncoderEdges : Prop :=
  (∀ (enc : Fin 4) (up : Bool) (s : State), s.eng.on (R.EN_CTRL.EN enc.val) = true → enc.val ≠ s.eng.trigEnc → ∃ t, exec (.encoderEdge enc up) s =
    .next t ∧ t.stg = s.stg ∧ t.pending = s.pending ∧ t.sec = (if enc = 0 then s.sec.encEdge s.eng.secNow up else s.sec) ∧ t.eng.rd (R.EN_COUNT.V
    enc.val) = ofSigned 32 (s.eng.rdS (R.EN_COUNT.V enc.val) + (if (up != s.eng.on (R.EN_CTRL.SWAP enc.val)) then 1 else -1)) ∧ s.eng.onlyRegs t.eng
    [(R.EN_COUNT.V enc.val).off]) ∧
  (∀ (enc : Fin 4) (up : Bool) (s : State), s.eng.on (R.EN_CTRL.EN enc.val) = true → enc.val = s.eng.trigEnc → (up != s.eng.on (R.EN_CTRL.SWAP
    enc.val)) = s.eng.on R.LT_CTRL.REV → ∃ t, exec (.encoderEdge enc up) s = .next t ∧ t.stg = s.stg ∧ t.pending = s.pending ∧ t.sec = (if enc = 0
    then s.sec.encEdge s.eng.secNow up else s.sec) ∧ t.eng.rd (R.EN_COUNT.V enc.val) = ofSigned 32 (s.eng.rdS (R.EN_COUNT.V enc.val) + (if (up !=
    s.eng.on (R.EN_CTRL.SWAP enc.val)) then 1 else -1)) ∧ t.eng.mot.pos = s.eng.mot.pos - 256 ∧ t.eng.mot.highest = s.eng.mot.highest ∧
    t.eng.mot.kept = s.eng.mot.kept ∧ t.eng.mot.maxPos = max s.eng.mot.maxPos (s.eng.mot.pos - 256) ∧ t.eng.mot.lastEdge = some s.eng.now ∧
    ({ s.eng with mot := t.eng.mot } : Engine).onlyRegs t.eng [(R.EN_COUNT.V enc.val).off]) ∧
  (∀ (enc : Fin 4) (up : Bool) (s : State), s.eng.on (R.EN_CTRL.EN enc.val) = true → enc.val = s.eng.trigEnc → (up != s.eng.on (R.EN_CTRL.SWAP
    enc.val)) ≠ s.eng.on R.LT_CTRL.REV → s.eng.boundaryAt (s.eng.mot.pos + 256) = none → ∃ t, exec (.encoderEdge enc up) s = .next t ∧ t.stg = s.stg
    ∧ t.pending = s.pending ∧ t.sec = (if enc = 0 then s.sec.encEdge s.eng.secNow up else s.sec) ∧ t.eng.rd (R.EN_COUNT.V enc.val) = ofSigned 32
    (s.eng.rdS (R.EN_COUNT.V enc.val) + (if (up != s.eng.on (R.EN_CTRL.SWAP enc.val)) then 1 else -1)) ∧ t.eng.mot.pos = s.eng.mot.pos + 256 ∧
    t.eng.mot.highest = s.eng.mot.highest ∧ t.eng.mot.kept = s.eng.mot.kept ∧ t.eng.mot.lastFwdEdge = some s.eng.now ∧
    ({ s.eng with mot := t.eng.mot, tg := t.eng.tg } : Engine).onlyRegs t.eng [(R.EN_COUNT.V enc.val).off, R.LT_EDGE_NS.V.off, (R.QUE_LEVEL.LEVEL
    65).off, (R.QUE_LEVEL.LEVEL 66).off, (R.QUE_LOST.V 65).off, (R.QUE_LOST.V 66).off]) ∧
  (∀ (enc : Fin 4) (up : Bool) (i : Side) (t0 : Nat) (s : State), s.eng.on (R.EN_CTRL.EN enc.val) = true → enc.val = s.eng.trigEnc → (up != s.eng.on
    (R.EN_CTRL.SWAP enc.val)) ≠ s.eng.on R.LT_CTRL.REV → s.eng.boundaryAt (s.eng.mot.pos + 256) = none → s.eng.triggersOn = true → s.eng.mot.v ≠ 0 →
    s.eng.genRuns i.val = true → i.val < s.eng.tg.length → s.eng.mot.lastFwd = true → s.eng.mot.lastEdge.isSome = true → s.eng.mot.zeroSince = false
    → s.eng.mot.lastFwdEdge = some t0 → ∃ t, exec (.encoderEdge enc up) s = .next t ∧ t.stg = s.stg ∧ t.pending = s.pending ∧ t.sec = (if enc = 0
    then s.sec.encEdge s.eng.secNow up else s.sec) ∧ t.eng.rd R.LT_EDGE_NS.V = min 0xFFFFFFFF (s.eng.now - t0) ∧ (t.eng.gen i.val).queue.getLast? =
    some (.predict (some (s.eng.now + ratNat ((((s.eng.pitch : Int) * ((if s.eng.fromZero = true then max 0 (Int.fdiv (s.eng.mot.pos + 256)
    s.eng.pitch) else Int.fdiv (s.eng.mot.pos + 256) s.eng.pitch) + 1) - (s.eng.mot.pos + 256) : Int) : Rat) / 256 * (min 0xFFFFFFFF (s.eng.now - t0)
    : Nat)))))) ∧
  (∀ (enc : Fin 4) (up : Bool) (j : Int) (i : Side) (s : State), s.eng.on (R.EN_CTRL.EN enc.val) = true → enc.val = s.eng.trigEnc → (up != s.eng.on
    (R.EN_CTRL.SWAP enc.val)) ≠ s.eng.on R.LT_CTRL.REV → s.eng.boundaryAt (s.eng.mot.pos + 256) = some j → s.eng.triggersOn = true →
    (s.eng.mot.highest = none → 0 ≤ j) → (s.eng.mot.highest = none ∨ (∃ h ∈ s.eng.mot.highest, (h : Int) < j - s.eng.mot.base)) → s.eng.on
    (R.TG_CTRL.EN i.val) = true → s.eng.mode = .m7 → i.val < s.eng.tg.length → ∃ t, exec (.encoderEdge enc up) s = .next t ∧ t.stg = s.stg ∧
    t.pending = s.pending ∧ t.sec = (if enc = 0 then s.sec.encEdge s.eng.secNow up else s.sec) ∧ t.eng.mot.pos = s.eng.mot.pos + 256 ∧ t.eng.mot.base
    = (if s.eng.mot.highest = none then 0 else s.eng.mot.base) ∧ t.eng.mot.highest = some (j - t.eng.mot.base).toNat ∧ t.eng.mot.kept = (j -
    t.eng.mot.base).toNat + 1 ∧ t.eng.mot.discards = s.eng.mot.discards ∧ t.eng.mot.lastKeptTime = s.eng.now ∧ ((t.eng.gen i.val).queue.reverse.drop
    1).head? = some (.trigger ⟨(j - t.eng.mot.base).toNat, some (j - t.eng.mot.base).toNat, false, s.eng.now⟩) ∧ (s.eng.cal.gapStart = none →
    t.eng.frames = s.eng.frames) ∧ t.eng =
    { t.eng with now := s.eng.now, trans := s.eng.trans, resetting := s.eng.resetting, pins := s.eng.pins, flash := s.eng.flash, link := s.eng.link, cmdIn := s.eng.cmdIn, rings := s.eng.rings, status := s.eng.status, streams := s.eng.streams, dma := s.eng.dma, squall := s.eng.squall, job := s.eng.job, gus := s.eng.gus, qdr := s.eng.qdr, afe := s.eng.afe, geo := s.eng.geo, mon := s.eng.mon, mets := s.eng.mets }) ∧
  (∀ (enc : Fin 4) (up : Bool) (j : Int) (s : State), s.eng.on (R.EN_CTRL.EN enc.val) = true → enc.val = s.eng.trigEnc → (up != s.eng.on
    (R.EN_CTRL.SWAP enc.val)) ≠ s.eng.on R.LT_CTRL.REV → s.eng.boundaryAt (s.eng.mot.pos + 256) = some j → s.eng.mot.highest = none → j < 0 →
    s.eng.mode = .m7 → ∃ t, exec (.encoderEdge enc up) s = .next t ∧ t.stg = s.stg ∧ t.pending = s.pending ∧ t.sec = (if enc = 0 then s.sec.encEdge
    s.eng.secNow up else s.sec) ∧ t.eng.mot.pos = s.eng.mot.pos + 256 ∧ t.eng.mot.base = s.eng.mot.base ∧ t.eng.mot.highest = none ∧ t.eng.mot.kept =
    s.eng.mot.kept ∧ t.eng.mot.discards = s.eng.mot.discards ∧ t.eng =
    { t.eng with now := s.eng.now, mode := s.eng.mode, trans := s.eng.trans, resetting := s.eng.resetting, pins := s.eng.pins, flash := s.eng.flash, link := s.eng.link, evt := s.eng.evt, opens := s.eng.opens, cmdIn := s.eng.cmdIn, rings := s.eng.rings, status := s.eng.status, streams := s.eng.streams, dma := s.eng.dma, pac := s.eng.pac, feed := s.eng.feed, squall := s.eng.squall, job := s.eng.job, frames := s.eng.frames, gus := s.eng.gus, qdr := s.eng.qdr, pair := s.eng.pair, afe := s.eng.afe, chans := s.eng.chans, shd := s.eng.shd, eddy := s.eng.eddy, cal := s.eng.cal, geo := s.eng.geo, mon := s.eng.mon, mets := s.eng.mets }) ∧
  (∀ (enc : Fin 4) (up : Bool) (j : Int) (i : Side) (h : Nat) (s : State), s.eng.on (R.EN_CTRL.EN enc.val) = true → enc.val = s.eng.trigEnc → (up !=
    s.eng.on (R.EN_CTRL.SWAP enc.val)) ≠ s.eng.on R.LT_CTRL.REV → s.eng.boundaryAt (s.eng.mot.pos + 256) = some j → s.eng.triggersOn = true →
    s.eng.mot.highest = some h → j - s.eng.mot.base ≤ (h : Int) → s.eng.on (R.TG_CTRL.EN i.val) = true → s.eng.imaging = true → i.val <
    s.eng.tg.length → ∃ t, exec (.encoderEdge enc up) s = .next t ∧ t.stg = s.stg ∧ t.pending = s.pending ∧ t.sec = (if enc = 0 then s.sec.encEdge
    s.eng.secNow up else s.sec) ∧ t.eng.mot.pos = s.eng.mot.pos + 256 ∧ t.eng.mot.highest = some h ∧ t.eng.mot.kept = s.eng.mot.kept ∧
    t.eng.mot.discards = s.eng.mot.discards + 1 ∧ ((t.eng.gen i.val).queue.reverse.drop 1).head? = some (.trigger ⟨j - s.eng.mot.base, none, false,
    s.eng.now⟩) ∧ t.eng =
    { t.eng with now := s.eng.now, mode := s.eng.mode, trans := s.eng.trans, resetting := s.eng.resetting, pins := s.eng.pins, flash := s.eng.flash, link := s.eng.link, evt := s.eng.evt, opens := s.eng.opens, cmdIn := s.eng.cmdIn, rings := s.eng.rings, status := s.eng.status, streams := s.eng.streams, dma := s.eng.dma, feed := s.eng.feed, squall := s.eng.squall, job := s.eng.job, frames := s.eng.frames, gus := s.eng.gus, qdr := s.eng.qdr, pair := s.eng.pair, afe := s.eng.afe, chans := s.eng.chans, shd := s.eng.shd, eddy := s.eng.eddy, cal := s.eng.cal, geo := s.eng.geo, mon := s.eng.mon, mets := s.eng.mets }) ∧
  (∀ (enc : Fin 4) (s : State), s.eng.on (R.EN_CTRL.EN enc.val) = true → s.eng.on (R.EN_CTRL.IDX_EN enc.val) = true → ∃ t, exec (.encoderIndex enc) s
    = .next t ∧ s.engineOnly t ∧ t.eng = s.eng.wr (R.EN_IDX.V enc.val) (s.eng.rd (R.EN_COUNT.V enc.val))) ∧
  (∀ (enc : Fin 4) (s : State), s.eng.on (R.EN_CTRL.EN enc.val) = true → (enc.val ≠ s.eng.trigEnc ∨ s.eng.modeIn [7, 8] = false ∨ s.eng.job.isOpen =
    false ∨ s.eng.mot.encRaised = true) → ∃ t, exec (.illegalTransition enc) s = .next t ∧ s.engineOnly t ∧ t.eng.rd (R.EN_ERR.V enc.val) = min (2 ^
    (R.EN_ERR.V enc.val).width - 1) (s.eng.rd (R.EN_ERR.V enc.val) + 1) ∧ s.eng.onlyRegs t.eng [(R.EN_ERR.V enc.val).off]) ∧
  (∀ (enc : Fin 4) (s : State), s.eng.on (R.EN_CTRL.EN enc.val) = true → enc.val = s.eng.trigEnc → s.eng.modeIn [7, 8] = true → s.eng.job.isOpen =
    true → s.eng.mot.encRaised = false → s.eng.squall = none → s.eng.roomy → ∃ t, exec (.illegalTransition enc) s = .next t ∧ s.engineOnly t ∧
    t.eng.rd (R.EN_ERR.V enc.val) = min (2 ^ (R.EN_ERR.V enc.val).width - 1) (s.eng.rd (R.EN_ERR.V enc.val) + 1) ∧ s.eng.says t.eng 0x0F 0x0A 0 none
    enc.val ∧ t.eng.squall = some ⟨3, s.eng.vMicron, (s.eng.evt.dseq + 1) % 2 ^ 32, [], false, 0, false⟩ ∧ t.eng.pac.st = .squall ∧ t.eng.feed.gate =
    false ∧ t.eng.feed.pend = 0 ∧ t.eng.mode = s.eng.mode ∧ t.eng =
    { t.eng with now := s.eng.now, resetting := s.eng.resetting, pins := s.eng.pins, flash := s.eng.flash, link := s.eng.link, cmdIn := s.eng.cmdIn, rings := s.eng.rings, status := s.eng.status, streams := s.eng.streams, dma := s.eng.dma, tg := s.eng.tg, frames := s.eng.frames, gus := s.eng.gus, qdr := s.eng.qdr, afe := s.eng.afe, chans := s.eng.chans, shd := s.eng.shd, eddy := s.eng.eddy, geo := s.eng.geo, mon := s.eng.mon, met := s.eng.met, mets := s.eng.mets })

/-- An input accepted with a new level changes DI_STATE; without a job, nothing else. In M7 a rising edge at a side's frame sensor fixes its next
frame at the line index that the position and the sensor's distance give; one at FEED_DI with the gate open closes the gate and counts a document as
fed. The gate opens when a feed is due and nothing withholds it; one open too long closes with a FAULT and nothing left to feed. -/
def Obligations.SensorsAndFeeding : Prop :=
  (∀ (n : Fin 16) (level : Bool) (s : State), bitOf (s.eng.rd R.DI_STATE.V) n.val ≠ (level != s.eng.on (R.DI_CFG.INV n.val)) → s.eng.job.isOpen =
    false → ∃ t, exec (.diAccept n level) s = .next t ∧ s.engineOnly t ∧ t.eng = (s.eng.wr R.DI_STATE.V (setBit (s.eng.rd R.DI_STATE.V) n.val (level
    != s.eng.on (R.DI_CFG.INV n.val))))) ∧
  (∀ (n : Fin 16) (level : Bool) (s : State), bitOf (s.eng.rd R.DI_STATE.V) n.val = (level != s.eng.on (R.DI_CFG.INV n.val)) → ∃ t, exec (.diAccept n
    level) s = .next t ∧ s.engineOnly t ∧ t.eng = s.eng) ∧
  (∀ (n : Fin 16) (level : Bool) (s : State), bitOf (s.eng.rd R.DI_STATE.V) n.val ≠ (level != s.eng.on (R.DI_CFG.INV n.val)) → (level != s.eng.on
    (R.DI_CFG.INV n.val)) = true → s.eng.mode = .m7 → s.eng.job.isOpen = true → s.eng.job.ended = false → s.eng.resetting = none → n.val = s.eng.rd
    R.PAC_CTRL.FEED_DI → s.eng.on R.PAC_CTRL.FEED_EN = true → s.eng.feed.gate = true → (∀ i ∈ s.eng.sensorSides, s.eng.rd (R.RSM_FRAME_CTRL.DI i) ≠
    n.val) → ∃ t, exec (.diAccept n level) s = .next t ∧ s.engineOnly t ∧ t.eng.feed.gate = false ∧ t.eng.feed.pend = (if s.eng.endless then
    s.eng.feed.pend else s.eng.feed.pend - 1) ∧ t.eng.feed.patterns = (Engine.takePattern s.eng.feed.patterns).2 ∧ t.eng.feed.flight = (if
    s.eng.sensorSides = [] then s.eng.feed.flight else s.eng.feed.flight ++ [⟨(Engine.takePattern s.eng.feed.patterns).1, 0, s.eng.sensorSides, []⟩])
    ∧ t.eng.feed.onSensor = true ∧ bitOf (t.eng.rd R.DI_STATE.V) n.val = true ∧ ({ s.eng with feed := t.eng.feed } : Engine).onlyRegs t.eng
    [R.DI_STATE.V.off, (R.QUE_LEVEL.LEVEL 67).off]) ∧
  (∀ (n : Fin 16) (level : Bool) (i : Nat) (s : State), bitOf (s.eng.rd R.DI_STATE.V) n.val ≠ (level != s.eng.on (R.DI_CFG.INV n.val)) → (level !=
    s.eng.on (R.DI_CFG.INV n.val)) = true → s.eng.mode = .m7 → s.eng.job.isOpen = true → s.eng.job.ended = false → s.eng.resetting = none → (n.val ≠
    s.eng.rd R.PAC_CTRL.FEED_DI ∨ s.eng.on R.PAC_CTRL.FEED_EN = false) → (s.eng.sensorSides.filter fun j => s.eng.rd (R.RSM_FRAME_CTRL.DI j) ==
    n.val) = [i] → (s.eng.frameSide i).fixed = [] → (s.eng.frameSide i).cur = none → ∃ t, exec (.diAccept n level) s = .next t ∧ s.engineOnly t ∧
    (t.eng.frames = modAt s.eng.frames i fun f =>
    { f with fixed := [⟨s.eng.indexOf i (-(s.eng.rd (R.RSM_FRAME_CTRL.LEAD i) : Int)), none, s.eng.frameDoc i, false⟩] }) ∧ bitOf (t.eng.rd
    R.DI_STATE.V) n.val = true ∧ ({ s.eng with frames := t.eng.frames } : Engine).onlyRegs t.eng [R.DI_STATE.V.off, (R.QUE_LEVEL.LEVEL 67).off]) ∧
  (∀ (s : State), s.eng.feedDue = true → s.eng.feedFree = true → ∃ t, exec (.feedGateOpen) s = .next t ∧ s.engineOnly t ∧ t.eng =
    { s.eng with feed := { s.eng.feed with gate := true, opened := s.eng.now, withheld := false } }) ∧
  (∀ (s : State), s.eng.feed.gate = true → s.eng.feed.opened + 1000000 * s.eng.rd R.PAC_FEED_TMO.V ≤ s.eng.now → s.eng.hears → ∃ t, exec
    (.feedTimeout) s = .next t ∧ s.engineOnly t ∧ t.eng.told 0x0F 0x0C 0 none (s.eng.rd R.PAC_CTRL.FEED_DI) ∧
    ({ s.eng with feed := { s.eng.feed with gate := false, pend := 0, patterns := [], withheld := false } } : Engine).onlyBooks t.eng [])

/-- With no job and AX0 at rest a period changes nothing; with AX0 moving it takes one step towards rest. With a job open and the pacer in RUN, no
Lull cause and no hold, a period shows v_job, v_host and v_brake, takes the lowest as v_target with the term that set it, keeps integral and rate,
counts confirmed bytes afresh and moves AX0 by one step of its profile towards v_target. The hold input in LULL mode begins a Lull with cause INPUT.
-/
def Obligations.PacerPeriods : Prop :=
  (∀ (s : State), s.eng.job.isOpen = false → s.eng.mot.v = 0 → ∃ t, exec (.pacerTick) s = .next t ∧ s.engineOnly t ∧ t.eng = s.eng) ∧
  (∀ (s : State), s.eng.job.isOpen = false → s.eng.mot.v ≠ 0 → ∃ t, exec (.pacerTick) s = .next t ∧ s.engineOnly t ∧ t.eng.mot.v = (s.eng.profile 0
    0).1 ∧ t.eng.mot.acc = (s.eng.profile 0 0).2 ∧ t.eng.mot.travel = s.eng.mot.travel + (s.eng.profile 0 0).1 ∧ t.eng.mot.pos = s.eng.mot.pos ∧
    ({ s.eng with mot := t.eng.mot, tg := t.eng.tg } : Engine).onlyRegs t.eng []) ∧
  (∀ (s : State), s.eng.mode = .m7 → s.eng.job.isOpen = true → s.eng.job.ended = false → s.eng.pac.st = .run → s.eng.holdInput = false →
    s.eng.pac.holdGap = false → s.eng.rd R.PAC_VMIN.V ≤ (Engine.vTarget s.eng.pace) → s.eng.rd R.PAC_SLIP.V = 0 → ∃ t, exec (.pacerTick) s = .next t
    ∧ s.engineOnly t ∧ t.eng.rd R.PAC_VCEIL.V = s.eng.pace.vjob % 2 ^ R.PAC_VCEIL.V.width ∧ t.eng.rd R.PAC_VHOST.V = min 0xFFFFFF
    (s.eng.pace.vhost.getD 0xFFFFFF) ∧ t.eng.rd R.PAC_VBRAKE.V = min 0xFFFFFF (s.eng.pace.vbrake.getD 0xFFFFFF) ∧ t.eng.rd R.PAC_VTARGET.V =
    (Engine.vTarget s.eng.pace) % 2 ^ R.PAC_VTARGET.V.width ∧ t.eng.pac =
    { s.eng.pac with integ := s.eng.pace.integ, rate := s.eng.pace.rate, confirmed := 0, limit := Engine.limitOf s.eng.pace, exitSince := none } ∧
    t.eng.mot.v = (s.eng.profile (Engine.vTarget s.eng.pace) s.eng.pace.vjob).1 ∧ t.eng.mot.acc = (s.eng.profile (Engine.vTarget s.eng.pace)
    s.eng.pace.vjob).2 ∧ t.eng.mot.travel = s.eng.mot.travel + (s.eng.profile (Engine.vTarget s.eng.pace) s.eng.pace.vjob).1 ∧ t.eng.mot.pos =
    s.eng.mot.pos ∧ t.eng.mot.kept = s.eng.mot.kept ∧ t.eng.feed = { s.eng.feed with withheld := t.eng.feed.withheld } ∧ (t.eng.streams =
    s.eng.streams.map fun x => { x with waited := x.stage.head?.any fun l => l.committed }) ∧
    ({ s.eng with pac := t.eng.pac, mot := t.eng.mot, feed := t.eng.feed, streams := t.eng.streams, tg := t.eng.tg } : Engine).onlyRegs t.eng
    [R.PAC_VCEIL.V.off, R.PAC_VHOST.V.off, R.PAC_VBRAKE.V.off, R.PAC_VTARGET.V.off, R.PAC_WITHHOLD_CNT.V.off]) ∧
  (∀ (s : State), s.eng.mode = .m7 → s.eng.job.isOpen = true → s.eng.job.ended = false → s.eng.resetting = none → s.eng.pac.st = .run →
    s.eng.holdInput = true → s.eng.gapMode = false → s.eng.squall = none → s.eng.rd R.PAC_SLIP.V = 0 → s.eng.rd R.PAC_VMIN.V ≤ (Engine.vTarget
    s.eng.pace) → ∃ t, exec (.pacerTick) s = .next t ∧ s.engineOnly t ∧ t.eng.pac.st = .decel ∧ t.eng.pac.causes = s.eng.pac.causes ||| 4 ∧
    t.eng.pac.lullSpeed = s.eng.vMicron.toNat ∧ t.eng.feed.gate = false ∧ t.eng.mode = .m7 ∧ t.eng =
    { t.eng with now := s.eng.now, mode := s.eng.mode, trans := s.eng.trans, resetting := s.eng.resetting, pins := s.eng.pins, flash := s.eng.flash, link := s.eng.link, evt := s.eng.evt, opens := s.eng.opens, cmdIn := s.eng.cmdIn, rings := s.eng.rings, status := s.eng.status, frames := s.eng.frames, gus := s.eng.gus, qdr := s.eng.qdr, pair := s.eng.pair, afe := s.eng.afe, chans := s.eng.chans, shd := s.eng.shd, eddy := s.eng.eddy, geo := s.eng.geo, mon := s.eng.mon, met := s.eng.met, mets := s.eng.mets, job := s.eng.job, squall := s.eng.squall, dma := s.eng.dma })

/-- With AX0 at rest in a Lull from M7, M8 is entered, PAC_LULL holds the last kept index, the Lull is counted and LULL_ENTER told. Once the exit
condition has held for 100 µs the backtrack begins; at its end the run-up. A gap hold stop at rest completes the HOLD; a STOP at rest without
documents in flight returns to M6 and completes. The rest of a Squall leads to M9 with the job's lines ended and nothing in flight, and cuts the
section's piece. -/
def Obligations.LullAndRestart : Prop :=
  (∀ (s : State), s.eng.pac.st = .decel → s.eng.atRest = true → s.eng.mode = .m7 → s.eng.cal.gapStart = none → s.eng.job.closing = false → (∀ c ∈
    s.eng.opens, c.wait ≠ .holdRest false ∧ c.wait ≠ .release) → s.eng.roomy → ∃ t, exec (.lullRest) s = .next t ∧ s.engineOnly t ∧ t.eng.mode = .m8
    ∧ t.eng.pac =
    { s.eng.pac with st := .hold, lullKept := if s.eng.mot.kept = 0 then none else some (s.eng.mot.kept - 1), lullTime := s.eng.now, lullDiscards := 0, restPos := s.eng.mot.pos, seamAt := none, exitSince := none }
    ∧ t.eng.rdPair R.PAC_LULL_LO.V R.PAC_LULL_HI.V = (if s.eng.mot.kept = 0 then 2 ^ 48 - 1 else (s.eng.mot.kept - 1) % 2 ^ 48) ∧ t.eng.rd
    R.PAC_LULL_CNT.V = min (2 ^ 32 - 1) (s.eng.rd R.PAC_LULL_CNT.V + 1) ∧ s.eng.tells t.eng [(0x15, 8, 0, none, 7 + 256 * 6), (0x06,
    s.eng.pac.causes, 0, none, 0)] ∧ t.eng.toldBytes [(24, 6, if s.eng.mot.kept = 0 then 2 ^ 48 - 1 else s.eng.mot.kept - 1), (32, 8, ofSigned 64
    s.eng.mot.pos), (40, 4, s.eng.pac.lullSpeed)] ∧ ({ s.eng with mode := t.eng.mode, pac := t.eng.pac } : Engine).onlyBooks t.eng
    [R.PAC_LULL_LO.V.off, R.PAC_LULL_HI.V.off, R.PAC_LULL_CNT.V.off]) ∧
  (∀ (t0 : Nat) (s : State), s.eng.pac.exitSince = some t0 → s.eng.mode = .m8 → s.eng.pac.st = .hold → t0 + 100000 ≤ s.eng.now → s.eng.exitOk = true
    → ∃ t, exec (.lullExitCondition) s = .next t ∧ s.engineOnly t ∧ t.eng =
    { s.eng with pac := { s.eng.pac with st := .back, backFrom := s.eng.mot.travel - s.eng.pac.extra, extra := 0, exitSince := none, lullDiscards := 0 } }) ∧
  (∀ (s : State), s.eng.mode = .m8 → s.eng.pac.st = .back → s.eng.mot.v = 0 → s.eng.backLeft ≤ 0 → ∃ t, exec (.backtrackDone) s = .next t ∧
    s.engineOnly t ∧ t.eng = { s.eng with pac := { s.eng.pac with st := .runup } }) ∧
  (∀ (h tag : Nat) (s : State), s.eng.atRest = true → s.eng.mode = .m7 → s.eng.pac.st = .gapStop → s.eng.opens = [⟨h, tag, 0x05, .holdRest true⟩] →
    s.eng.resetting = none → s.eng.pins.failed = false → ∃ t, exec (.ax0Rest) s = .next t ∧ s.engineOnly t ∧ t.eng.answered h 0x05 stOk ∧
    s.eng.onlyBooks t.eng []) ∧
  (∀ (h tag : Nat) (s : State), s.eng.atRest = true → s.eng.mode = .m7 → s.eng.pac.st = .stopping → s.eng.feed.flight = [] → s.eng.cal.gapStart =
    none → s.eng.job.closing = false → s.eng.opens = [⟨h, tag, 0x07, .stopRest⟩] → s.eng.roomy → ∃ t, exec (.ax0Rest) s = .next t ∧ s.engineOnly t ∧
    t.eng.mode = .m6 ∧ t.eng.pac = { s.eng.pac with st := .idle } ∧ s.eng.says t.eng 0x15 6 0 none (7 + 256 * 5) ∧ t.eng.answered h 0x07 stOk ∧
    ({ s.eng with mode := t.eng.mode, pac := t.eng.pac } : Engine).onlyBooks t.eng []) ∧
  (∀ (q : SquallSt) (s : State), s.eng.squall = some q → q.rest = false → s.eng.atRest = true → s.eng.modeIn [6, 7, 8] = true → s.eng.job.closing =
    false → ∃ t, exec (.squallRest) s = .next t ∧ t.stg = s.stg ∧ t.pending = s.pending ∧ t.sec = s.sec.cutPiece s.eng.secNow ∧ t.eng.mode = .m9 ∧
    t.eng.squall = some { q with rest := true, restTime := s.eng.now } ∧ t.eng.job.ended = true ∧ t.eng.feed = { s.eng.feed with flight := [] } ∧
    t.eng =
    { t.eng with now := s.eng.now, resetting := s.eng.resetting, pins := s.eng.pins, flash := s.eng.flash, cmdIn := s.eng.cmdIn, status := s.eng.status, qdr := s.eng.qdr, mot := s.eng.mot, met := s.eng.met, mets := s.eng.mets })

/-- A row's window opens at once for a trigger that has arrived, or at its place before the predicted trigger, never within 0.25 µs of a line start
or a flush; it closes after its exposure, when the drivers it strobed are measured (free values, log 13). A line starts once its four windows have
closed and the readout before it is over: the slot and the windows are free, lateness is taken, and a converting side sends the header at which the
section latches its position; under FOLLOW side 1 starts with side 0 and not by itself. An idle sensor is flushed; dropped lines held back are told 1
ms after the event before. -/
def Obligations.ExposureWindows : Prop :=
  (∀ (i : Side) (r : RowIx) (tr : Trigger) (s : State), s.eng.genRuns i.val = true → (s.eng.gen i.val).slot = some tr → Engine.windowLimit (s.eng.gen
    i.val) ≤ s.eng.now → (s.eng.gen i.val).windows.getD r.val none = none → (s.eng.gen i.val).stale.getD r.val false = false → ∃ t, exec (.windowOpen
    i r) s = .next t ∧ s.engineOnly t ∧ (t.eng =
    { s.eng with tg := modAt s.eng.tg i.val fun g => { g with windows := modAt g.windows r.val fun _ => some ⟨s.eng.now, none, tr.pitch, tr.index, s.eng.expAt i.val r.val (s.eng.nextIndex i.val), false, s.eng.gapDark tr.index⟩ } })) ∧
  (∀ (i : Side) (r : RowIx) (p : Nat) (s : State), s.eng.genRuns i.val = true → (s.eng.gen i.val).slot = none → Engine.trigsOf (s.eng.gen
    i.val).queue = [] → (s.eng.gen i.val).stale.getD r.val false = false → (s.eng.gen i.val).pred = some p → (p : Rat) ≤ (s.eng.now : Rat) +
    s.eng.expNs i.val (s.eng.expAt i.val r.val (s.eng.nextIndex i.val)) + 250 → s.eng.mode ≠ .m5 → Engine.windowLimit (s.eng.gen i.val) ≤ s.eng.now →
    (s.eng.gen i.val).windows.getD r.val none = none → ∃ t, exec (.windowOpen i r) s = .next t ∧ s.engineOnly t ∧ (t.eng =
    { s.eng with tg := modAt s.eng.tg i.val fun g => { g with windows := modAt g.windows r.val fun _ => some ⟨s.eng.now, none, s.eng.nextBoundary.1, s.eng.nextBoundary.2, s.eng.expAt i.val r.val (s.eng.nextIndex i.val), false, s.eng.gapDark s.eng.nextBoundary.2⟩ } })) ∧
  (∀ (i : Side) (r : RowIx) (p : Nat) (tr : Trigger) (more : List Trigger) (s : State), s.eng.genRuns i.val = true → (s.eng.gen i.val).slot = none →
    Engine.trigsOf (s.eng.gen i.val).queue = tr :: more → (s.eng.gen i.val).stale.getD r.val false = false → (s.eng.gen i.val).pred = some p → (p :
    Rat) ≤ (s.eng.now : Rat) + s.eng.expNs i.val (s.eng.expAt i.val r.val (s.eng.nextIndex i.val)) + 250 → Engine.windowLimit (s.eng.gen i.val) ≤
    s.eng.now → (s.eng.gen i.val).windows.getD r.val none = none → ∃ t, exec (.windowOpen i r) s = .next t ∧ s.engineOnly t ∧ (t.eng =
    { s.eng with tg := modAt s.eng.tg i.val fun g => { g with windows := modAt g.windows r.val fun _ => some ⟨s.eng.now, none, tr.pitch, tr.index, s.eng.expAt i.val r.val (s.eng.nextIndex i.val), false, s.eng.gapDark tr.index⟩ } })) ∧
  (∀ (i : Side) (r : RowIx) (w : Window) (s : State), (s.eng.gen i.val).windows.getD r.val none = some w → w.closed = none → (w.opened : Rat) +
    s.eng.expNs i.val w.exp ≤ (s.eng.now : Rat) → ∃ t, exec (.windowClose i r) s = .next t ∧ s.engineOnly t ∧ (t.eng.tg = modAt s.eng.tg i.val fun g
    => { g with windows := modAt g.windows r.val fun _ => if w.spent then none else some { w with closed := some s.eng.now } }) ∧
    (({ s.eng with tg := t.eng.tg, free := t.eng.free } : Engine).onlyRegs t.eng ((upTo 10).map fun n => (R.ILL_STATUS.VF_MV n).off)) ∧ (w.dark =
    true → t.eng.regs = s.eng.regs)) ∧
  (∀ (i : Side) (tr : Trigger) (s : State), s.eng.startReady i.val = true → (s.eng.gen i.val).slot = some tr → (s.eng.gen i.val).changes = [] →
    (s.eng.gen i.val).expgen < 4 → s.eng.cal.result = none → s.eng.follows i.val = false → (i.val = 1 ∨ s.eng.follows 1 = false) → i.val <
    s.eng.tg.length → ∃ t, exec (.lineStart i) s = .next t ∧ t.stg = s.stg ∧ t.pending = s.pending ∧ t.sec = (if s.eng.on (R.AFE_STATUS.CONV_RUN
    i.val) then s.sec.latch i.val s.eng.secNow else s.sec) ∧ (t.eng.tg = modAt s.eng.tg i.val fun g =>
    { g with slot := none, windows := g.windows.map Engine.spend, stale := [false, false, false, false], lastStart := some s.eng.now, run := some ⟨tr, s.eng.now, (upTo 4).map (fun r => if g.stale.getD r false then 255 else s.eng.latenessNow i.val tr.time), g.expgen, s.eng.on (R.AFE_STATUS.CONV_RUN i.val), s.eng.trimsNow i.val, s.eng.cfgsNow i.val⟩ })
    ∧ (t.eng.rd (R.TG_LATE_CNT.V i.val) = min (2 ^ 32 - 1) (s.eng.rd (R.TG_LATE_CNT.V i.val) + (if s.eng.latenessNow i.val tr.time = 0 ∧ (s.eng.gen
    i.val).stale.any id = false then 0 else 1))) ∧ (s.eng.cal.gapStart = none → t.eng.cal = s.eng.cal) ∧
    ({ s.eng with tg := t.eng.tg, cal := t.eng.cal } : Engine).onlyRegs t.eng [(R.TG_LATE_CNT.V i.val).off]) ∧
  (∀ (a b : Trigger) (s : State), s.eng.startReady 0 = true → (s.eng.gen 0).slot = some a → (s.eng.gen 1).slot = some b → s.eng.cal.result = none →
    s.eng.follows 1 = true → s.eng.genRuns 1 = true → (s.eng.gen 1).run = none → 1 < s.eng.tg.length → ∃ t, exec (.lineStart 0) s = .next t ∧ t.stg =
    s.stg ∧ t.pending = s.pending ∧ ((t.eng.gen 0).run.map (fun x => (x.trig, x.start)) = some (a, s.eng.now)) ∧ ((t.eng.gen 1).run.map (fun x =>
    (x.trig, x.start)) = some (b, s.eng.now)) ∧ (t.eng.gen 0).slot = none ∧ (t.eng.gen 1).slot = none) ∧
  (∀ (s : State), s.eng.follows 1 = true → ∃ t, exec (.lineStart 1) s = .next t ∧ s.engineOnly t ∧ t.eng = s.eng) ∧
  (∀ (i : Side) (s : State), s.eng.genRuns i.val = true → s.eng.on (R.TG_CTRL.FLUSH i.val) = true → (s.eng.gen i.val).run = none → (s.eng.gen
    i.val).slot = none → s.eng.flushing i.val = false → (s.eng.gen i.val).pred = none → s.eng.follows i.val = false → (i.val = 1 ∨ s.eng.follows 1 =
    false) → ((s.eng.gen i.val).freeSince : Rat) + (s.eng.rd (R.TG_CTRL.FLUSH i.val) : Rat) * s.eng.lineNs i.val ≤ (s.eng.now : Rat) → ∃ t, exec
    (.flushReadout i) s = .next t ∧ s.engineOnly t ∧ (t.eng =
    { s.eng with tg := modAt s.eng.tg i.val fun g => { g with lastFlush := some s.eng.now, freeSince := (ratCeil ((s.eng.now : Rat) + s.eng.lineNs i.val)).toNat, windows := g.windows.map Engine.spend } })) ∧
  (∀ (i : Side) (t0 : Nat) (s : State), (s.eng.gen i.val).drops.last = some t0 → 0 < (s.eng.gen i.val).drops.count → t0 + 1000000 ≤ s.eng.now →
    s.eng.hears → ∃ t, exec (.lineOverrunHoldoff i) s = .next t ∧ s.engineOnly t ∧ t.eng.told 0x0D i.val 0 none 0 ∧ t.eng.toldBytes [(24, 6,
    (s.eng.gen i.val).drops.first), (30, 4, (s.eng.gen i.val).drops.count)] ∧
    (({ s.eng with tg := modAt s.eng.tg i.val fun g => { g with drops := ⟨some s.eng.now, 0, 0⟩ }, pac := { s.eng.pac with vovr := max (min (s.eng.rd R.PAC_VMIN.V) s.eng.pac.vovr) (s.eng.pac.vovr - s.eng.rd R.PAC_OVERRUN_STEP.V) } }
    : Engine).onlyBooks t.eng []))

/-- A side whose reference allows it starts to convert: CONV_RUN sets, each channel begins afresh on S0 to S3 with S4 spare and its tracker at
CAL_DARK_TGT. At a line boundary a channel whose spare is calibrated and whose slices have served their lines rotates: the spare takes phase (n − 1)
mod 4 and the slice replaced is the next spare. A spare whose corrections pass is ready; the third that does not converge marks the slice FAILED with
a FAULT. -/
def Obligations.ConversionAndSlices : Prop :=
  (∀ (i : Side) (s : State), s.eng.conversionReady i.val = true → s.eng.chans.length = 64 → ∃ t, exec (.conversionStart i) s = .next t ∧ s.engineOnly
    t ∧ t.eng.on (R.AFE_STATUS.CONV_RUN i.val) = true ∧ (∀ k : Fin 32, t.eng.rd (R.AFE_CH_SLICE.SPARE i.val k.val) = (if s.eng.on
    (R.AFE_CH_SLICE.FAILED i.val k.val) then s.eng.rd (R.AFE_CH_SLICE.SPARE i.val k.val) else 4) ∧ t.eng.rd (R.AFE_CH_SLICE.ROT_COUNT i.val k.val) =
    0 ∧ t.eng.rd (R.SHD_CH_TRK.C (32 * i.val + k.val)) = 256 * s.eng.rd R.CAL_DARK_TGT.V % 2 ^ (R.SHD_CH_TRK.C (32 * i.val + k.val)).width) ∧ (∀ k :
    Fin 32, { t.eng.chan (32 * i.val + k.val) with served := [] } =
    { Engine.startChan (s.eng.on (R.AFE_CH_SLICE.FAILED i.val k.val)) (s.eng.chan (32 * i.val + k.val)) with served := [] }) ∧ (∀ k : Fin 32,
    ((t.eng.chan (32 * i.val + k.val)).phases.all fun p => decide ((s.eng.chan (32 * i.val + k.val)).served.length ≤ p) || ((t.eng.chan (32 * i.val +
    k.val)).served.getD p none).isSome) = true) ∧ (∀ c : Fin 64, c.val / 32 ≠ i.val → t.eng.chan c.val = s.eng.chan c.val) ∧ (t.eng.afe = modAt
    s.eng.afe i.val fun a => { a with bufWait := false }) ∧ (({ s.eng with chans := t.eng.chans, free := t.eng.free, afe := t.eng.afe } :
    Engine).onlyRegs t.eng ([(R.AFE_STATUS.CONV_RUN i.val).off] ++ ((upTo 32).map fun k => (R.AFE_CH_SLICE.word i.val k).off) ++ (upTo 32).map fun k
    => (R.SHD_CH_TRK.C (32 * i.val + k)).off))) ∧
  (∀ (i : Side) (s : State), s.eng.on (R.AFE_STATUS.CONV_RUN i.val) = true → (s.eng.gen i.val).run = none → (s.eng.gen i.val).slot ≠ none → s.eng.on
    (R.AFE_CTRL.ROT_EN i.val) = true → s.eng.refFaulty i.val = false → s.eng.chans.length = 64 → ∃ t, exec (.sliceRotation i) s = .next t ∧
    s.engineOnly t ∧ (∀ k : Fin 32, s.eng.on (R.TG_CHMAP.EN i.val k.val) = true → s.eng.rotationDue i.val k.val = true → (t.eng.chan (32 * i.val +
    k.val)).phases = modAt (s.eng.chan (32 * i.val + k.val)).phases ((s.eng.chan (32 * i.val + k.val)).rotations % 4) (fun _ => s.eng.rd
    (R.AFE_CH_SLICE.SPARE i.val k.val)) ∧ t.eng.rd (R.AFE_CH_SLICE.SPARE i.val k.val) = (s.eng.chan (32 * i.val + k.val)).phases.getD ((s.eng.chan
    (32 * i.val + k.val)).rotations % 4) 0 % 2 ^ (R.AFE_CH_SLICE.SPARE i.val k.val).width ∧ (t.eng.chan (32 * i.val + k.val)).spareReady = false) ∧
    (∀ k : Fin 32, (s.eng.on (R.TG_CHMAP.EN i.val k.val) && s.eng.rotationDue i.val k.val) = false → t.eng.chan (32 * i.val + k.val) = s.eng.chan (32
    * i.val + k.val) ∧ t.eng.word (R.AFE_CH_SLICE.word i.val k.val).off = s.eng.word (R.AFE_CH_SLICE.word i.val k.val).off) ∧
    (({ s.eng with chans := t.eng.chans } : Engine).onlyRegs t.eng ((upTo 32).map fun k => (R.AFE_CH_SLICE.word i.val k).off))) ∧
  (∀ (c : Chan) (x : SliceCorr) (s : State), s.eng.on (R.AFE_STATUS.CONV_RUN (c.val / 32)) = true → s.eng.on (R.TG_CHMAP.EN (c.val / 32) (c.val %
    32)) = true → s.eng.on (R.AFE_CH_SLICE.FAILED (c.val / 32) (c.val % 32)) = false → (s.eng.chan c.val).spareReady = false → s.eng.refFaulty (c.val
    / 32) = false → Engine.sliceFailCode ((s.eng.chan c.val).served.getD (s.eng.spareOf (c.val / 32) (c.val % 32)) none) x = 0 → ∃ t, exec
    (.spareCalDone c (some x)) s = .next t ∧ s.engineOnly t ∧ (t.eng =
    { s.eng with chans := modAt s.eng.chans c.val fun h => { h with spareReady := true, attempts := 0, served := modAt h.served (s.eng.spareOf (c.val / 32) (c.val % 32)) fun _ => some x } })) ∧
  (∀ (c : Chan) (s : State), s.eng.on (R.AFE_STATUS.CONV_RUN (c.val / 32)) = true → s.eng.on (R.TG_CHMAP.EN (c.val / 32) (c.val % 32)) = true →
    s.eng.on (R.AFE_CH_SLICE.FAILED (c.val / 32) (c.val % 32)) = false → (s.eng.chan c.val).spareReady = false → s.eng.refFaulty (c.val / 32) = false
    → (s.eng.chan c.val).attempts < 2 → ∃ t, exec (.spareCalDone c none) s = .next t ∧ s.engineOnly t ∧ (t.eng =
    { s.eng with chans := modAt s.eng.chans c.val fun h => { h with attempts := h.attempts + 1 } })) ∧
  (∀ (c : Chan) (s : State), s.eng.on (R.AFE_STATUS.CONV_RUN (c.val / 32)) = true → s.eng.on (R.TG_CHMAP.EN (c.val / 32) (c.val % 32)) = true →
    s.eng.on (R.AFE_CH_SLICE.FAILED (c.val / 32) (c.val % 32)) = false → (s.eng.chan c.val).spareReady = false → s.eng.refFaulty (c.val / 32) = false
    → (s.eng.chan c.val).attempts = 2 → s.eng.hears → ∃ t, exec (.spareCalDone c none) s = .next t ∧ s.engineOnly t ∧ t.eng.rd (R.AFE_CH_SLICE.FAILED
    (c.val / 32) (c.val % 32)) = 1 ∧ t.eng.rd (R.AFE_CH_SLICE.FAIL_SLICE (c.val / 32) (c.val % 32)) = s.eng.spareOf (c.val / 32) (c.val % 32) ∧
    t.eng.rd (R.AFE_CH_SLICE.FAIL_CODE (c.val / 32) (c.val % 32)) = 5 ∧ bitOf (t.eng.rd (R.AFE_SLICE_FAIL.V (c.val / 32))) (c.val % 32) = true ∧
    t.eng.told 0x0F 0x01 0 none (c.val + 256 * s.eng.spareOf (c.val / 32) (c.val % 32) + 65536 * 5) ∧
    ({ s.eng with chans := t.eng.chans, free := t.eng.free } : Engine).onlyBooks t.eng [(R.AFE_CH_SLICE.word (c.val / 32) (c.val % 32)).off,
    (R.AFE_SLICE_FAIL.V (c.val / 32)).off])

/-- The oldest trigger of a side's queue takes a free slot. A kept one that finds a kept one there takes its place; the line it replaces counts as
overrun and as SUBST. A discard never displaces a kept one. A prediction supersedes the one before it while AX0 moves. A packet that fails its parity
is counted and lost; a prediction so lost leaves the one before it. L after its start a readout ends: the sensor is free from here and the SUBST
lines held behind it follow. On a converting side each enabled channel's samples are converted and its four wire checks shown with the mean of its
optical-black samples; the line goes to the section's tap, or is counted lost where the tap is full (its depth is not stated, log 33). Outputs of a
sensor whose supplies are off rest at 0 V (R383). Outside the modes in which sides convert the line is the last (R340). -/
def Obligations.Readouts : Prop :=
  (∀ (i : Side) (tr : Trigger) (rest : List TrigPkt) (k : Nat) (s : State), (s.eng.gen i.val).queue = .trigger tr :: rest → s.eng.genRuns i.val =
    true → (s.eng.gen i.val).slot = none → tr.index = some k → ((s.eng.gen i.val).lastKept = none ∨ (s.eng.gen i.val).lastKept = some (k - 1)) → (0 <
    k ∨ (s.eng.gen i.val).lastKept = none) → ∃ t, exec (.triggerArrival i 0) s = .next t ∧ s.engineOnly t ∧ (t.eng.tg = modAt s.eng.tg i.val fun g =>
    { g with queue := rest, lastKept := some k, slot := some tr }) ∧ ({ s.eng with tg := t.eng.tg } : Engine).onlyRegs t.eng [(R.QUE_LEVEL.LEVEL (65
    + i.val)).off]) ∧
  (∀ (i : Side) (p : Option Nat) (rest : List TrigPkt) (s : State), (s.eng.gen i.val).queue = .predict p :: rest → s.eng.genRuns i.val = true →
    s.eng.mot.v ≠ 0 → ∃ t, exec (.triggerArrival i 0) s = .next t ∧ s.engineOnly t ∧ (t.eng.tg = modAt s.eng.tg i.val fun g =>
    { g with queue := rest, pred := p }) ∧ t.eng.rd (R.QUE_LEVEL.LEVEL (65 + i.val)) = sumNat (rest.map Engine.trigWords) % 2 ^ 16 ∧
    ({ s.eng with tg := t.eng.tg } : Engine).onlyRegs t.eng [(R.QUE_LEVEL.LEVEL (65 + i.val)).off]) ∧
  (∀ (i : Side) (p : Option Nat) (rest : List TrigPkt) (bad : Nat) (s : State), (s.eng.gen i.val).queue = .predict p :: rest → bad ≠ 0 → ∃ t, exec
    (.triggerArrival i bad) s = .next t ∧ s.engineOnly t ∧ (t.eng.tg = modAt s.eng.tg i.val fun g => { g with queue := rest }) ∧ t.eng.rd
    (R.QUE_POISON.V (65 + i.val)) = min (2 ^ 32 - 1) (s.eng.rd (R.QUE_POISON.V (65 + i.val)) + 1) ∧ ({ s.eng with tg := t.eng.tg } : Engine).onlyRegs
    t.eng [(R.QUE_LEVEL.LEVEL (65 + i.val)).off, (R.QUE_POISON.V (65 + i.val)).off]) ∧
  (∀ (i : Side) (tr : Trigger) (rest : List TrigPkt) (old : Trigger) (s : State), (s.eng.gen i.val).queue = .trigger tr :: rest → s.eng.genRuns i.val
    = true → tr.index = none → (s.eng.gen i.val).slot = some old → old.index ≠ none → ∃ t, exec (.triggerArrival i 0) s = .next t ∧ s.engineOnly t ∧
    (t.eng.tg = modAt s.eng.tg i.val fun g => { g with queue := rest }) ∧ ({ s.eng with tg := t.eng.tg } : Engine).onlyRegs t.eng [(R.QUE_LEVEL.LEVEL
    (65 + i.val)).off]) ∧
  (∀ (i : Side) (tr : Trigger) (rest : List TrigPkt) (old : Trigger) (j k : Nat) (s : State), (s.eng.gen i.val).queue = .trigger tr :: rest →
    s.eng.genRuns i.val = true → tr.index = some k → (s.eng.gen i.val).slot = some old → old.index = some j → (s.eng.gen i.val).lastKept = some j → k
    = j + 1 → s.eng.on (R.AFE_STATUS.CONV_RUN i.val) = false → i.val < s.eng.tg.length → ∃ t, exec (.triggerArrival i 0) s = .next t ∧ s.engineOnly t
    ∧ (t.eng.gen i.val).slot = some tr ∧ (t.eng.gen i.val).queue = rest ∧ (t.eng.gen i.val).lastKept = some k ∧ t.eng.rd (R.TG_OVERRUN_CNT.V i.val) =
    min (2 ^ 32 - 1) (s.eng.rd (R.TG_OVERRUN_CNT.V i.val) + 1) ∧ t.eng.rd (R.TG_SUBST_CNT.V i.val) = min (2 ^ 32 - 1) (s.eng.rd (R.TG_SUBST_CNT.V
    i.val) + 1) ∧ ({ s.eng with tg := t.eng.tg, pac := t.eng.pac } : Engine).onlyBooks t.eng [(R.QUE_LEVEL.LEVEL (65 + i.val)).off,
    (R.TG_OVERRUN_CNT.V i.val).off, (R.TG_SUBST_CNT.V i.val).off]) ∧
  (∀ (i : Side) (tr : Trigger) (rest : List TrigPkt) (bad : Nat) (s : State), (s.eng.gen i.val).queue = .trigger tr :: rest → bad ≠ 0 → ∃ t, exec
    (.triggerArrival i bad) s = .next t ∧ s.engineOnly t ∧ (t.eng.tg = modAt s.eng.tg i.val fun g => { g with queue := rest }) ∧ t.eng.rd
    (R.QUE_POISON.V (65 + i.val)) = min (2 ^ 32 - 1) (s.eng.rd (R.QUE_POISON.V (65 + i.val)) + min bad 2) ∧ ({ s.eng with tg := t.eng.tg } :
    Engine).onlyRegs t.eng [(R.QUE_LEVEL.LEVEL (65 + i.val)).off, (R.QUE_POISON.V (65 + i.val)).off]) ∧
  (∀ (i : Side) (vref : Nat) (video : List VideoLine) (run : LineRun) (s : State), (s.eng.gen i.val).run = some run → (run.start : Rat) +
    s.eng.lineNs i.val ≤ (s.eng.now : Rat) → run.converting = false → (s.eng.gen i.val).substs = [] → ∃ t, exec (.readoutEnd i ⟨vref, video⟩) s =
    .next t ∧ s.engineOnly t ∧ (t.eng =
    { s.eng with tg := modAt s.eng.tg i.val fun g => { g with run := none, freeSince := s.eng.now, substs := [] } })) ∧
  (∀ (i : Side) (vref : Nat) (video : List VideoLine) (run : LineRun) (s : State), (s.eng.gen i.val).run = some run → (run.start : Rat) +
    s.eng.lineNs i.val ≤ (s.eng.now : Rat) → run.converting = true → s.eng.modeIn [7, 8] = false → i.val < s.eng.met.tap.length → ∃ t, exec
    (.readoutEnd i ⟨vref, video⟩) s = .next t ∧ s.engineOnly t ∧ (∀ j : Fin 32, ∀ k : Fin 32, (s.eng.enabledCh i.val)[j.val]? = some k.val → t.eng.rd
    (R.AFE_CH_STATUS.CHK i.val k.val) = s.eng.wireChecks i.val k.val vref run (s.eng.collapse i.val (video.getD j.val ⟨[], [], false⟩))
    (s.eng.convert i.val k.val vref run (s.eng.collapse i.val (video.getD j.val ⟨[], [], false⟩))) ∧ t.eng.rd (R.AFE_CH_STATUS.OB_MEAN i.val k.val) =
    sumNat ((s.eng.convert i.val k.val vref run (s.eng.collapse i.val (video.getD j.val ⟨[], [], false⟩))).black.map fun x => x.code) / 16 % 65536) ∧
    (t.eng.tg = modAt s.eng.tg i.val fun g => { g with run := none, freeSince := s.eng.now, substs := [] }) ∧ (t.eng.afe = modAt s.eng.afe i.val fun
    a => { a with vref := vref }) ∧ (if (s.eng.met.tap.getD i.val []).length < Config.tapDepth then (t.eng.met.tap.getD i.val []).length =
    (s.eng.met.tap.getD i.val []).length + 1 else t.eng.met = s.eng.met) ∧ (s.eng.convMode = false → t.eng.rd (R.AFE_STATUS.CONV_RUN i.val) = 0) ∧
    t.eng =
    { t.eng with now := s.eng.now, mode := s.eng.mode, free := s.eng.free, trans := s.eng.trans, resetting := s.eng.resetting, pins := s.eng.pins, flash := s.eng.flash, link := s.eng.link, cmdIn := s.eng.cmdIn, rings := s.eng.rings, status := s.eng.status, streams := s.eng.streams, dma := s.eng.dma, mot := s.eng.mot, pac := s.eng.pac, feed := s.eng.feed, squall := s.eng.squall, job := s.eng.job, frames := s.eng.frames, gus := s.eng.gus, qdr := s.eng.qdr, shd := s.eng.shd, eddy := s.eng.eddy, cal := s.eng.cal, geo := s.eng.geo, mon := s.eng.mon, mets := s.eng.mets })

/-- Above 44 W every driver turns off with a FAULT and a Squall. A driver that reports OPEN, SHORT or OT shows it, is marked in ILL_FAULT, is off for
the rest of the job, and raises FAULT. A reference outside its window latches REF_FAULT with a FAULT; back inside, it can fault again. One not
settled 100 ms after settling began raises REF_TIMEOUT once. A supply at its limit turns the side's supplies off, with no FAULT. -/
def Obligations.LightAndReferences : Prop :=
  (∀ (mw : Nat) (s : State), 44000 < mw → s.eng.roomy → ∃ t, exec (.ledPowerMonitor mw) s = .next t ∧ s.engineOnly t ∧ s.eng.says t.eng 0x0F 0x04 0
    none 255 ∧ t.eng.job = { s.eng.job with dark := s.eng.job.dark ||| 0x3FF } ∧ t.eng.squall = (if s.eng.modeIn [6, 7, 8] && s.eng.squall.isNone
    then some ⟨2, s.eng.vMicron, (s.eng.evt.dseq + 1) % 2 ^ 32, [], false, 0, false⟩ else s.eng.squall) ∧ t.eng =
    { t.eng with now := s.eng.now, mode := s.eng.mode, resetting := s.eng.resetting, pins := s.eng.pins, flash := s.eng.flash, link := s.eng.link, cmdIn := s.eng.cmdIn, rings := s.eng.rings, status := s.eng.status, streams := s.eng.streams, dma := s.eng.dma, tg := s.eng.tg, mot := s.eng.mot, frames := s.eng.frames, gus := s.eng.gus, qdr := s.eng.qdr, afe := s.eng.afe, chans := s.eng.chans, shd := s.eng.shd, eddy := s.eng.eddy, geo := s.eng.geo, mon := s.eng.mon, met := s.eng.met, mets := s.eng.mets }) ∧
  (∀ (mw : Nat) (s : State), mw ≤ 44000 → ∃ t, exec (.ledPowerMonitor mw) s = .next t ∧ s.engineOnly t ∧ t.eng = s.eng) ∧
  (∀ (n : Fin 10) (bits : Fin 8) (s : State), bits.val ≠ 0 → s.eng.hears → ∃ t, exec (.ledDriverFault n bits) s = .next t ∧ s.engineOnly t ∧ t.eng.rd
    (R.ILL_STATUS.OPEN n.val) = bits.val % 2 ∧ t.eng.rd (R.ILL_STATUS.SHORT n.val) = bits.val / 2 % 2 ∧ t.eng.rd (R.ILL_STATUS.OT n.val) = bits.val /
    4 % 2 ∧ t.eng.rd (R.ILL_STATUS.VF_MV n.val) = (if bits.val % 4 = 0 then s.eng.rd (R.ILL_STATUS.VF_MV n.val) else 24000) ∧ bitOf (t.eng.rd
    R.ILL_FAULT.CH) n.val = true ∧ t.eng.told 0x0F 0x05 0 none (n.val + 256 * bits.val) ∧
    ({ s.eng with job := { s.eng.job with dark := s.eng.job.dark ||| (if s.eng.job.isOpen then 2 ^ n.val else 0) } } : Engine).onlyBooks t.eng
    [(R.ILL_STATUS.word n.val).off, R.ILL_FAULT.CH.off]) ∧
  (∀ (i : Side) (s : State), s.eng.afePowered i.val = true → (s.eng.afeSide i.val).refIn = true → (s.eng.refExternal i.val = true ∨ s.eng.refSettled
    i.val = true) → s.eng.hears → ∃ t, exec (.refFault i) s = .next t ∧ s.engineOnly t ∧ t.eng.rd (R.AFE_STATUS.REF_FAULT i.val) = 1 ∧ t.eng.told
    0x0F 0x03 0 none (i.val + 256) ∧ (t.eng.afe = modAt s.eng.afe i.val fun a => { a with refIn := false, refDseq := t.eng.evt.dseq }) ∧
    ({ s.eng with afe := t.eng.afe } : Engine).onlyBooks t.eng [(R.AFE_STATUS.word i.val).off]) ∧
  (∀ (i : Side) (t0 : Nat) (s : State), s.eng.afePowered i.val = true → s.eng.refExternal i.val = false → s.eng.refSettled i.val = false →
    (s.eng.afeSide i.val).settleStart = some t0 → (s.eng.afeSide i.val).timedOut = false → t0 + 100000000 ≤ s.eng.now → (s.eng.mode ≠ .m4 ∨
    s.eng.trans.wake = none) → s.eng.hears → ∃ t, exec (.refTimeout i) s = .next t ∧ s.engineOnly t ∧ t.eng.rd (R.AFE_STATUS.REF_TIMEOUT i.val) = 1 ∧
    t.eng.told 0x0F 0x03 0 none (i.val + 512) ∧ (({ s.eng with afe := modAt s.eng.afe i.val fun a => { a with timedOut := true } } :
    Engine).onlyBooks t.eng [(R.AFE_STATUS.word i.val).off])) ∧
  (∀ (i : Side) (s : State), ∃ t, exec (.refBackInWindow i) s = .next t ∧ s.engineOnly t ∧ (t.eng =
    { s.eng with afe := modAt s.eng.afe i.val fun a => { a with refIn := true } })) ∧
  (∀ (i : Side) (s : State), ∃ t, exec (.supplyLimit i) s = .next t ∧ s.engineOnly t ∧ (t.eng =
    { s.eng with afe := modAt s.eng.afe i.val fun a => { a with supplies := false, tripped := true } }))

/-- A channel's oldest packet leaves its queue. A poisoned header word or a discard mark ends it there. A kept line waits for the reports of document
edges due before it, and while stage 7 is held back (log 149). One in order absorbs the means that are 80 lines old, keeps its own, and comes out of
stage 6 by R104 (no fade, no swap queued, no defect correction, no pixel poisoned; lines older than new trims are corrected by the tracker without
its shift, R82). An owed tap-line overdue by 2 L + 10 µs is replaced by a SUBST line, counted, with LINE_DEFECT 1 ms apart at most; a held one
follows when the 1 ms has passed. -/
def Obligations.TapLines : Prop :=
  (∀ (c : Chan) (p : TapPkt) (rest : List TapPkt) (poison : List Nat) (coefBad : List (Nat × Fin 2)) (s : State), (s.eng.chan c.val).queue = p ::
    rest → (poison.any (fun w => decide (w < 4)) = true ∨ p.discard = true) → (p.discard = true ∨ (s.eng.reportsDue (c.val / 32) p.index = false ∧
    s.eng.stageHeld c.val = false)) → ∃ t, exec (.tapLineArrival c poison coefBad) s = .next t ∧ s.engineOnly t ∧ (t.eng.chans = modAt s.eng.chans
    c.val fun h => { h with queue := rest }) ∧ t.eng.rd (R.QUE_LEVEL.LEVEL c.val) = Engine.queueWords rest % 2 ^ (R.QUE_LEVEL.LEVEL c.val).width ∧
    (t.eng.rd (R.QUE_POISON.V c.val) = min (2 ^ (R.QUE_POISON.V c.val).width - 1) (s.eng.rd (R.QUE_POISON.V c.val) + (poison.filter fun w => decide
    (w < Engine.pktWords p)).eraseDups.length)) ∧ ({ s.eng with chans := t.eng.chans } : Engine).onlyRegs t.eng [(R.QUE_LEVEL.LEVEL c.val).off,
    (R.QUE_POISON.V c.val).off]) ∧
  (∀ (c : Chan) (p : TapPkt) (rest : List TapPkt) (s : State), (s.eng.chan c.val).queue = p :: rest → p.discard = false → (p.black ++ p.active).all
    (fun x => !x.poison) = true → s.eng.reportsDue (c.val / 32) p.index = false → s.eng.stageHeld c.val = false → s.eng.shd.queued = none →
    s.eng.mode ≠ .m5 → (s.eng.chan c.val).entered.all (fun i => decide (i < p.index)) = true → (s.eng.chan c.val).owed.all (fun o => decide (p.index
    ≤ o.1)) = true → s.eng.shd.fade = none → s.eng.cal.gapStart = none → s.eng.on R.SHD_CTRL.DEFECT_EN = false → ∃ t, exec (.tapLineArrival c [] [])
    s = .next t ∧ s.engineOnly t ∧ (t.eng.chan c.val).queue = rest ∧ (t.eng.rd (R.SHD_CH_TRK.C c.val) = (((s.eng.chan c.val).means.filter fun m =>
    decide (m.1 + 80 ≤ p.index)).foldl (fun v m => if s.eng.inDocWindow (c.val / 32) (s.eng.rd (R.TG_CHMAP.ROW (c.val / 32) (c.val % 32))) m.1 then v
    else Engine.absorb (min 12 (s.eng.rd (if c.val / 32 = 0 then R.SHD_TRK_CTRL.K0 else R.SHD_TRK_CTRL.K1))) v m.2) (s.eng.rd (R.SHD_CH_TRK.C
    c.val))) % 2 ^ (R.SHD_CH_TRK.C c.val).width) ∧ (((t.eng.chan c.val).done.getLast?.map fun d => (d.index, d.pixels)) = some (p.index, (upTo
    p.active.length).map fun i => (Engine.shade (s.eng.on R.SHD_CTRL.EN) (s.eng.rd (R.SHD_KG.KG (4 * (c.val / 32) + (s.eng.rd (R.TG_CHMAP.ROW (c.val
    / 32) (c.val % 32)))))) ((fun i => 256 * ((p.active.getD i ⟨0, 0, false, false⟩).code : Int) - ((t.eng.rd (R.SHD_CH_TRK.C c.val) : Int) -
    s.eng.shiftFor c.val p.index - 256 * s.eng.rd R.CAL_DARK_TGT.V)) i) ((fun i => s.eng.coefOf c.val (s.eng.bankOf c.val) i) i)).1)) ∧ (t.eng.chan
    c.val).done.length = (s.eng.chan c.val).done.length + 1 ∧ (t.eng.chan c.val).entered = some p.index ∧ ((t.eng.chan c.val).means = ((s.eng.chan
    c.val).means.filter fun m => !decide (m.1 + 80 ≤ p.index)) ++ (if (s.eng.noteForce (c.val / 32) p.index).forcedAt (c.val / 32) p.index then []
    else (Engine.obMean p).toList.map fun (m : Nat) => (p.index, ((m : Int) + s.eng.shiftFor c.val p.index).toNat))) ∧ t.eng.shd = (s.eng.noteForce
    (c.val / 32) p.index).shd ∧ (∀ k : Fin 64, k ≠ c → t.eng.chan k.val = s.eng.chan k.val) ∧ ({ s.eng with chans := t.eng.chans, shd := t.eng.shd }
    : Engine).onlyRegs t.eng [(R.QUE_LEVEL.LEVEL c.val).off, (R.QUE_POISON.V c.val).off, (R.SHD_CH_TRK.C c.val).off, R.SHD_OBINV_CNT.V.off,
    R.SHD_TRK_STATUS.FROZEN0.off, R.SHD_POISON_CNT.V.off, R.SHD_SAT_CNT.V.off]) ∧
  (∀ (c : Chan) (p : TapPkt) (rest : List TapPkt) (poison : List Nat) (coefBad : List (Nat × Fin 2)) (s : State), (s.eng.chan c.val).queue = p ::
    rest → p.discard = false → (s.eng.reportsDue (c.val / 32) p.index = true ∨ s.eng.stageHeld c.val = true) → ∃ t, exec (.tapLineArrival c poison
    coefBad) s = .next t ∧ s.engineOnly t ∧ t.eng = s.eng) ∧
  (∀ (c : Chan) (i tm : Nat) (rest : List (Nat × Nat)) (s : State), (s.eng.chan c.val).owed = (i, tm) :: rest → (s.eng.now : Rat) < (tm : Rat) + 2 *
    s.eng.lineNs (c.val / 32) + 10000 → ∃ t, exec (.substOverdue c) s = .next t ∧ s.engineOnly t ∧ t.eng = s.eng) ∧
  (∀ (c : Chan) (i tm : Nat) (rest : List (Nat × Nat)) (s : State), (s.eng.chan c.val).owed = (i, tm) :: rest → s.eng.on (R.AFE_STATUS.CONV_RUN
    (c.val / 32)) = true → (tm : Rat) + 2 * s.eng.lineNs (c.val / 32) + 10000 ≤ (s.eng.now : Rat) → s.eng.reportsDue (c.val / 32) i = false →
    s.eng.stageHeld c.val = false → s.eng.mode ≠ .m5 → s.eng.shd.fade = none → s.eng.cal.gapStart = none → (s.eng.chan c.val).defects.last.all (fun x
    => decide (x + 1000000 ≤ s.eng.now)) = true → (s.eng.chan c.val).defects.count = 0 → s.eng.hears → ∃ t, exec (.substOverdue c) s = .next t ∧
    s.engineOnly t ∧ t.eng.rd (R.TG_SUBST_CNT.V (c.val / 32)) = min (2 ^ (R.TG_SUBST_CNT.V (c.val / 32)).width - 1) (s.eng.rd (R.TG_SUBST_CNT.V
    (c.val / 32)) + 1) ∧ (((t.eng.chan c.val).done.getLast?.map fun d => (d.index, d.flags.subst)) = some (i, true)) ∧ ((t.eng.chan c.val).owed =
    ((i, tm) :: rest).filter fun o => decide (i < o.1)) ∧ (t.eng.chan c.val).defects = ⟨some s.eng.now, 0, 0⟩ ∧ t.eng.told 0x05 c.val 0 none 1 ∧
    t.eng.toldBytes [(24, 6, i), (30, 4, 1)] ∧ (∀ k : Fin 64, k ≠ c → t.eng.chan k.val = s.eng.chan k.val) ∧
    ({ s.eng with chans := t.eng.chans, shd := t.eng.shd } : Engine).onlyBooks t.eng [(R.SHD_CH_TRK.C c.val).off, R.SHD_OBINV_CNT.V.off,
    R.SHD_TRK_STATUS.FROZEN0.off, R.SHD_POISON_CNT.V.off, R.SHD_SAT_CNT.V.off, (R.TG_SUBST_CNT.V (c.val / 32)).off]) ∧
  (∀ (c : Chan) (t0 f n : Nat) (s : State), (s.eng.chan c.val).defects = ⟨some t0, f, n⟩ → 0 < n → t0 + 1000000 ≤ s.eng.now → s.eng.hears → ∃ t, exec
    (.lineDefectHoldoff c) s = .next t ∧ s.engineOnly t ∧ t.eng.told 0x05 c.val 0 none 1 ∧ t.eng.toldBytes [(24, 6, f), (30, 4, n)] ∧
    (({ s.eng with chans := modAt s.eng.chans c.val fun h => { h with defects := ⟨some s.eng.now, 0, 0⟩ } } : Engine).onlyBooks t.eng [])) ∧
  (∀ (c : Chan) (t0 f n : Nat) (s : State), (s.eng.chan c.val).defects = ⟨some t0, f, n⟩ → (n = 0 ∨ s.eng.now < t0 + 1000000) → ∃ t, exec
    (.lineDefectHoldoff c) s = .next t ∧ s.engineOnly t ∧ t.eng = s.eng)

/-- Once line n of every enabled channel of a row stands at its head, the row line is stitched by tap and direction, its bursts are raised for its
place in EDDY with the joined tag noted, and it leaves the channels; not while the line before still waits to be written, or while it would overwrite
one to be read (R27, R206). Aligned line n of a side is asked for once its rows are written, and taken once its bursts are through: a row at offset 0
gives its pixels as they stand, other used rows their weighted sum, unused rows code 0; the running geometry units take it; words of an RQ read with
a poison tag count in its QUE_POISON; a JOB frame counts it (detector and monitors off). A held MONITOR is told 1 ms after the one before. -/
def Obligations.RowLinesAndAlignedLines : Prop :=
  (∀ (i : Side) (r : RowIx) (n : Nat) (s : State), s.eng.rowChans i.val r.val ≠ [] → (∀ c ∈ s.eng.rowChans i.val r.val, ((s.eng.chan
    c).done.head?.map fun d => d.index) = some n) → s.eng.stagingLive = true → s.eng.rowBlocked i.val r.val n = false → s.eng.chans.length = 64 → ∃
    t, exec (.rowLineAssembly i r) s = .next t ∧ s.engineOnly t ∧ (∀ c ∈ s.eng.rowChans i.val r.val, (t.eng.chan c).done = (s.eng.chan c).done.drop
    1) ∧ (∀ c : Fin 64, c.val ∉ s.eng.rowChans i.val r.val → t.eng.chan c.val = s.eng.chan c.val) ∧ (t.eng =
    ({ s.eng with chans := t.eng.chans, eddy := modAt s.eng.eddy i.val fun y => { y with tags := modAt y.tags r.val (fun l => (l ++ [(n, Engine.joinTaps ((s.eng.rowChans i.val r.val).map fun c => ((s.eng.chan c).done.head?.map fun d => d.flags).getD LineFlags.clear))]).drop (l.length - 67)), written := modAt y.written r.val fun _ => some n } }
    : Engine).raiseRange true 3 (Engine.eddyAddr i.val r.val n) 15360 ((((Engine.stitch (s.eng.rd (R.TG_LINE_FMT.ACTIVE i.val)) ((s.eng.rowChans
    i.val r.val).map fun c => (s.eng.rd (R.TG_CHMAP.TAP i.val (c % 32)), s.eng.on (R.TG_CHMAP.DIR i.val (c % 32)), ((s.eng.chan c).done.head?.map fun
    d => d.pixels).getD []))).map fun v => leBytes 2 v).flatten).map some) (.row i.val r.val n)) ∧ ((((Engine.stitch (s.eng.rd (R.TG_LINE_FMT.ACTIVE
    i.val)) ((s.eng.rowChans i.val r.val).map fun c => (s.eng.rd (R.TG_CHMAP.TAP i.val (c % 32)), s.eng.on (R.TG_CHMAP.DIR i.val (c % 32)),
    ((s.eng.chan c).done.head?.map fun d => d.pixels).getD []))).map fun v => leBytes 2 v).flatten).length = 15360)) ∧
  (∀ (i : Side) (r : RowIx) (n : Nat) (s : State), s.eng.rowChans i.val r.val ≠ [] → (∀ c ∈ s.eng.rowChans i.val r.val, ((s.eng.chan
    c).done.head?.map fun d => d.index) = some n) → s.eng.stagingLive = false → s.eng.chans.length = 64 → ∃ t, exec (.rowLineAssembly i r) s = .next
    t ∧ s.engineOnly t ∧ (∀ c ∈ s.eng.rowChans i.val r.val, (t.eng.chan c).done = (s.eng.chan c).done.drop 1) ∧ (∀ c : Fin 64, c.val ∉ s.eng.rowChans
    i.val r.val → t.eng.chan c.val = s.eng.chan c.val) ∧ t.eng = { s.eng with chans := t.eng.chans }) ∧
  (∀ (i : Side) (r : RowIx) (n : Nat) (s : State), s.eng.rowChans i.val r.val ≠ [] → (∀ c ∈ s.eng.rowChans i.val r.val, ((s.eng.chan
    c).done.head?.map fun d => d.index) = some n) → s.eng.rowBlocked i.val r.val n = true → ∃ t, exec (.rowLineAssembly i r) s = .next t ∧
    s.engineOnly t ∧ t.eng = s.eng) ∧
  (∀ (i : Side) (poison : List (Fin 8)) (n : Nat) (s : State), s.eng.alignedReady i.val n = true → s.eng.resetting = none → (s.eng.eddySide
    i.val).reading = false → (s.eng.eddySide i.val).next = n → ∃ t, exec (.alignedLineReadout i poison) s = .next t ∧ s.engineOnly t ∧ (t.eng =
    (s.eng.alignLines i.val n).foldl (fun x k => x.raiseRange false 3 (Engine.eddyAddr i.val k.1 k.2) 15360 [] (.align i.val))
    ({ s.eng with eddy := modAt s.eng.eddy i.val fun y => { y with reading := true } } : Engine))) ∧
  (∀ (i : Side) (poison : List (Fin 8)) (s : State), (s.eng.eddySide i.val).reading = true → s.eng.standing (fun w => w == .align i.val) = true → ∃
    t, exec (.alignedLineReadout i poison) s = .next t ∧ s.engineOnly t ∧ t.eng = s.eng) ∧
  (∀ (i : Side) (poison : List (Fin 8)) (n : Nat) (s : State), s.eng.alignedReady i.val n = true → s.eng.resetting = none → (s.eng.eddySide
    i.val).reading = true → s.eng.standing (fun w => w == .align i.val) = false → (s.eng.eddySide i.val).next = n → (s.eng.eddySide i.val).finish =
    none → (s.eng.eddySide i.val).first ≤ n → i.val < s.eng.eddy.length → s.eng.geoRuns i.val = false → (∀ m : Fin 16, s.eng.on (R.MON_CTRL.EN m.val)
    = false ∧ (s.eng.monOf m.val).enabled = false) → (s.eng.frameSide i.val).cur = none → (s.eng.frameSide i.val).fixed = [] → (∀ r ∈ (s.eng.usedRows
    i.val), (s.eng.planePixels s.stg i.val r n).all (fun v => !v.2) = true) → ∃ t, exec (.alignedLineReadout i poison) s = .next t ∧ s.engineOnly t ∧
    (t.eng.eddy = modAt s.eng.eddy i.val fun y => { y with next := n + 1, prev := (t.eng.eddySide i.val).prev, reading := false }) ∧ ((t.eng.eddySide
    i.val).prev.getD ⟨0, [], []⟩).index = n ∧ (∀ r : Fin 4, ((t.eng.eddySide i.val).prev.getD ⟨0, [], []⟩).planes.getD r.val [] = (if r.val ∈
    (s.eng.usedRows i.val) then (s.eng.planePixels s.stg i.val r.val n).map Prod.fst else List.replicate 7680 0)) ∧ (∀ r : Fin 4, r.val ∈
    (s.eng.usedRows i.val) → s.eng.rd (R.EDY_OFS.D i.val r.val) = 0 → (s.eng.eddySide i.val).low ≤ n → ∀ k : Fin 7680, (((t.eng.eddySide
    i.val).prev.getD ⟨0, [], []⟩).planes.getD r.val []).getD k.val 0 = (s.stg.byte (Engine.eddyAddr i.val r.val n + 2 * k.val)).toNat + 256 *
    (s.stg.byte (Engine.eddyAddr i.val r.val n + 2 * k.val + 1)).toNat) ∧ (∀ r : Fin 4, ((t.eng.eddySide i.val).prev.getD ⟨0, [], []⟩).tags.getD
    r.val LineFlags.clear = (if r.val ∈ (s.eng.usedRows i.val) then s.eng.planeTag i.val r.val n else LineFlags.clear)) ∧ (∀ g : Fin 8, t.eng.gu
    g.val = (if g.val ∈ s.eng.sideGus i.val ∧ (s.eng.gu g.val).runs ≠ [] then
    { s.eng.gu g.val with hist := (s.eng.gu g.val).hist ++ [((t.eng.eddySide i.val).prev.getD ⟨0, [], []⟩)], low := some ((s.eng.gu g.val).low.getD n) }
    else s.eng.gu g.val)) ∧ (∀ d : Fin 8, t.eng.rd (R.QUE_POISON.V (88 + d.val)) = min (2 ^ 32 - 1) (s.eng.rd (R.QUE_POISON.V (88 + d.val)) +
    poison.count d)) ∧ (({ s.eng with eddy := t.eng.eddy, gus := t.eng.gus } : Engine).onlyRegs t.eng ([R.EDY_POISON_CNT.V.off] ++ (upTo 8).map fun d
    => (R.QUE_POISON.V (88 + d)).off))) ∧
  (∀ (i : Side) (poison : List (Fin 8)) (n l : Nat) (f : Frame) (s : State), s.eng.alignedReady i.val n = true → s.eng.resetting = none →
    (s.eng.eddySide i.val).reading = true → s.eng.standing (fun w => w == .align i.val) = false → (s.eng.eddySide i.val).next = n → (s.eng.eddySide
    i.val).finish = none → (s.eng.eddySide i.val).first ≤ n → i.val < s.eng.eddy.length → s.eng.geoRuns i.val = false → (∀ m : Fin 16, s.eng.on
    (R.MON_CTRL.EN m.val) = false ∧ (s.eng.monOf m.val).enabled = false) → (s.eng.frameSide i.val).cur = some f → f.last = some l → n < l →
    s.eng.jobFramed i.val = true → (∀ r ∈ (s.eng.usedRows i.val), (s.eng.planePixels s.stg i.val r n).all (fun v => !v.2) = true) → ∃ t, exec
    (.alignedLineReadout i poison) s = .next t ∧ s.engineOnly t ∧ (t.eng.eddy = modAt s.eng.eddy i.val fun y =>
    { y with next := n + 1, prev := (t.eng.eddySide i.val).prev, reading := false }) ∧ ((t.eng.eddySide i.val).prev.getD ⟨0, [], []⟩).index = n ∧ (∀
    r : Fin 4, ((t.eng.eddySide i.val).prev.getD ⟨0, [], []⟩).planes.getD r.val [] = (if r.val ∈ (s.eng.usedRows i.val) then (s.eng.planePixels s.stg
    i.val r.val n).map Prod.fst else List.replicate 7680 0)) ∧ (∀ r : Fin 4, r.val ∈ (s.eng.usedRows i.val) → s.eng.rd (R.EDY_OFS.D i.val r.val) = 0
    → (s.eng.eddySide i.val).low ≤ n → ∀ k : Fin 7680, (((t.eng.eddySide i.val).prev.getD ⟨0, [], []⟩).planes.getD r.val []).getD k.val 0 =
    (s.stg.byte (Engine.eddyAddr i.val r.val n + 2 * k.val)).toNat + 256 * (s.stg.byte (Engine.eddyAddr i.val r.val n + 2 * k.val + 1)).toNat) ∧ (∀ r
    : Fin 4, ((t.eng.eddySide i.val).prev.getD ⟨0, [], []⟩).tags.getD r.val LineFlags.clear = (if r.val ∈ (s.eng.usedRows i.val) then s.eng.planeTag
    i.val r.val n else LineFlags.clear)) ∧ (∀ g : Fin 8, t.eng.gu g.val = (if g.val ∈ s.eng.sideGus i.val ∧ (s.eng.gu g.val).runs ≠ [] then
    { s.eng.gu g.val with hist := (s.eng.gu g.val).hist ++ [((t.eng.eddySide i.val).prev.getD ⟨0, [], []⟩)], low := some ((s.eng.gu g.val).low.getD n) }
    else s.eng.gu g.val)) ∧ (∀ d : Fin 8, t.eng.rd (R.QUE_POISON.V (88 + d.val)) = min (2 ^ 32 - 1) (s.eng.rd (R.QUE_POISON.V (88 + d.val)) +
    poison.count d)) ∧ (t.eng.frames = modAt s.eng.frames i.val fun x => { x with lines := (s.eng.frameSide i.val).lines + 1 }) ∧
    (({ s.eng with eddy := t.eng.eddy, gus := t.eng.gus, frames := t.eng.frames } : Engine).onlyRegs t.eng ([R.EDY_POISON_CNT.V.off] ++ (upTo 8).map
    fun d => (R.QUE_POISON.V (88 + d)).off))) ∧
  (∀ (i : Side) (poison : List (Fin 8)) (s : State), s.eng.alignedReady i.val (s.eng.eddySide i.val).next = false → ∃ t, exec (.alignedLineReadout i
    poison) s = .next t ∧ s.engineOnly t ∧ t.eng = s.eng) ∧
  (∀ (m : Fin 16) (v px idx : Nat) (out : Bool) (s : State), (s.eng.monOf m.val).held = true → (s.eng.monOf m.val).heldResult = (v, out, px, idx) →
    (s.eng.monOf m.val).lastEvt.all (fun x => decide (x + 1000000 ≤ s.eng.now)) = true → s.eng.hears → ∃ t, exec (.monitorHoldoff m) s = .next t ∧
    s.engineOnly t ∧ t.eng.told 0x13 m.val 0 none (b2n out) ∧ t.eng.toldBytes [(24, 4, v), (28, 2, px), (30, 6, idx), (36, 4, (s.eng.monOf
    m.val).heldFolds)] ∧ (({ s.eng with mon := modAt s.eng.mon m.val fun y => { y with held := false, heldFolds := 0, lastEvt := some s.eng.now } } :
    Engine).onlyBooks t.eng []))

/-- A geometry unit's next output line that is ready goes, formatted, to the STAGE list of the stream it feeds; its bursts are raised for the place
after the stream's previous line, wrapping within STAGE. A unit whose earlier line still waits to be written makes none (R206). A line whose bursts
are through is committed and may be sent; it counts for the documents in flight of its page. The geometry of the oldest closed frame completes: with
the detector off the block holds OFF and CAL_OVERLAP alone. PAGE_END carries the block with the page's own flags. A page whose geometry is complete
and of which no line is held ends: GEO_RES takes the block and PAGE_END carries it. -/
def Obligations.OutputLinesAndPages : Prop :=
  (∀ (g : Fin 8) (n : StreamIx) (r : GuRun) (rest : List GuRun) (c p : Nat) (o : Engine.OutLine) (s : State), s.eng.resetting = none →
    s.eng.stagingLive = true → s.eng.unitHeld g.val = false → (s.eng.stream n.val).place = some p → (s.eng.gu g.val).runs = r :: rest → r.last = none
    → r.resumed = false → r.streams = [(n.val, c)] → s.eng.outLine g.val r = some o → (s.eng.stream n.val).running = true → s.eng.takesLine n.val o =
    true → s.eng.rd (R.STR_YCROP.FIRST n.val) ≤ c → s.eng.rd (R.STR_YCROP.COUNT n.val) = 0 → s.eng.job.closing = false → ∃ t, exec (.guOutputLine g)
    s = .next t ∧ s.engineOnly t ∧ (t.eng.streams = modAt s.eng.streams n.val fun x =>
    { x with seen := c + 1, place := some (p % max 1 (s.eng.rd R.QDR_STAGE_SIZE.V) + (s.eng.formatLine n.val o c r.page).length), stage := x.stage ++ [⟨s.eng.formatLine n.val o c r.page, o.index, r.page, c == s.eng.rd (R.STR_YCROP.FIRST n.val), false, (s.eng.planesOf n.val).any fun p => (o.tags.getD p LineFlags.clear).subst || (o.tags.getD p LineFlags.clear).poison || (o.tags.getD p LineFlags.clear).tapFault, false, false, p % max 1 (s.eng.rd R.QDR_STAGE_SIZE.V), c⟩] })
    ∧ (t.eng.gu g.val).runs = { r with out := r.out + 1, streams := [(n.val, c + 1)] } :: rest ∧ (∀ k : Fin 8, k ≠ g → t.eng.gu k.val = s.eng.gu
    k.val) ∧ t.eng = ({ s.eng with streams := t.eng.streams, gus := t.eng.gus } : Engine).raiseStage true (p % max 1 (s.eng.rd R.QDR_STAGE_SIZE.V))
    (s.eng.formatLine n.val o c r.page).length ((s.eng.formatLine n.val o c r.page).map some) (.stage n.val (p % max 1 (s.eng.rd
    R.QDR_STAGE_SIZE.V)))) ∧
  (∀ (g : Fin 8) (s : State), s.eng.unitHeld g.val = true → ∃ t, exec (.guOutputLine g) s = .next t ∧ s.engineOnly t ∧ t.eng = s.eng) ∧
  (∀ (g : Fin 8) (s : State), (s.eng.gu g.val).runs = [] → s.eng.job.closing = false → ∃ t, exec (.guOutputLine g) s = .next t ∧ s.engineOnly t ∧
    t.eng = s.eng) ∧
  (∀ (n : StreamIx) (l : StageLine) (s : State), ((s.eng.stream n.val).stage.find? fun x => !x.committed) = some l → s.eng.stagingLive = true →
    s.eng.resetting = none → s.eng.standing (fun w => w == .stage n.val l.place) = false → ∃ t, exec (.stageLineCommit n) s = .next t ∧ s.engineOnly
    t ∧ t.eng.rd (R.STR_LINES.V n.val) = min (2 ^ (R.STR_LINES.V n.val).width - 1) (s.eng.rd (R.STR_LINES.V n.val) + 1) ∧ ((t.eng.stream
    n.val).stage.map (fun x => x.bytes) = (s.eng.stream n.val).stage.map fun x => x.bytes) ∧ ((t.eng.stream n.val).stage.map (fun x => x.committed) =
    modAt ((s.eng.stream n.val).stage.map fun x => x.committed) ((s.eng.stream n.val).stage.takeWhile fun x => x.committed).length fun _ => true) ∧
    (∀ k : Fin 16, k ≠ n → t.eng.stream k.val = s.eng.stream k.val) ∧ (t.eng.eddy = modAt s.eng.eddy (s.eng.sideOf n.val) fun y =>
    { y with committed := some (max l.index (y.committed.getD 0)) }) ∧ (t.eng.feed =
    { s.eng.feed with flight := s.eng.feed.flight.map fun d => if d.pages.contains (s.eng.sideOf n.val, l.page) then { d with bytes := d.bytes + l.bytes.length } else d })
    ∧ ({ s.eng with streams := t.eng.streams, eddy := t.eng.eddy, feed := t.eng.feed } : Engine).onlyRegs t.eng [(R.STR_LINES.V n.val).off]) ∧
  (∀ (n : StreamIx) (l : StageLine) (s : State), ((s.eng.stream n.val).stage.find? fun x => !x.committed) = some l → (s.eng.standing (fun w => w ==
    .stage n.val l.place) = true ∨ s.eng.stagingLive = false) → ∃ t, exec (.stageLineCommit n) s = .next t ∧ s.engineOnly t ∧ t.eng = s.eng) ∧
  (∀ (i : Side) (no first last : Nat) (back : Int) (rest : List (Nat × Nat × Nat × Int)) (p : Page) (s : State), (s.eng.geoSide i.val).busy = (no,
    first, last, back) :: rest → ((s.eng.frameSide i.val).pages.find? fun q => q.no == no && q.closed && q.geometry.isNone) = some p → ∃ t, exec
    (.pageGeometryDone i) s = .next t ∧ s.engineOnly t ∧ (t.eng.frames = modAt s.eng.frames i.val fun x =>
    { x with pages := x.pages.map fun q => (if q.no = no ∧ q.closed ∧ q.geometry.isNone then { q with geometry := some (s.eng.geoBlock i.val p first last back) } else q) })
    ∧ ((s.eng.on (R.GEO_CTRL.EN i.val) = false → t.eng.frames = modAt s.eng.frames i.val fun x =>
    { x with pages := x.pages.map fun q => (if q.no = no ∧ q.closed ∧ q.geometry.isNone then { q with geometry := some (layBytes 40 [(16, 2, 256 * b2n p.overlap + 2048)]) } else q) }))
    ∧ t.eng.rd (R.GEO_STATUS.BUSY i.val) = b2n !rest.isEmpty ∧ (t.eng.geo = modAt s.eng.geo i.val fun g =>
    { g with busy := rest, docs := g.docs.filter fun d => match d.nte with | some x => decide (last < x) | none => true }) ∧
    ({ s.eng with frames := t.eng.frames, geo := t.eng.geo } : Engine).onlyRegs t.eng [(R.GEO_STATUS.BUSY i.val).off]) ∧
  (∀ (i : Side) (p : Page) (rest : List Page) (l : List Byte) (s : State), (s.eng.frameSide i.val).pages = p :: rest → p.geometry = some l →
    s.eng.pageHeld i.val p.no = false → s.eng.pageRendering i.val p.no = false → l.length = 40 → s.eng.job.closing = false → s.eng.on
    R.CAL_STATUS.PENDING = false → (∀ n : Fin 16, (s.eng.stream n.val).bufs = []) → s.eng.opens = [] → s.eng.hears → ∃ t, exec (.pageEnd i) s = .next
    t ∧ s.engineOnly t ∧ (∀ k : Fin 10, t.eng.rd (R.GEO_RES.V i.val k.val) = leAt (l.take 16 ++ leBytes 2 (leAt l 16 2 ||| (64 * b2n p.trunc + 128 *
    b2n p.incomplete + 4096 * b2n p.takeover + 8192 * b2n p.refeed)) ++ l.drop 18) (4 * k.val) 4) ∧ t.eng.told 0x04 i.val 0 none p.no ∧
    ((t.eng.evt.queue.getLast?.map fun v => v.payload) = some (l.take 16 ++ leBytes 2 (leAt l 16 2 ||| (64 * b2n p.trunc + 128 * b2n p.incomplete +
    4096 * b2n p.takeover + 8192 * b2n p.refeed)) ++ l.drop 18)) ∧
    (({ s.eng with frames := modAt s.eng.frames i.val fun x => { x with pages := rest } } : Engine).onlyBooks t.eng ((upTo 10).map fun k =>
    (R.GEO_RES.V i.val k).off)))

/-- NATIVE: a holder that no raised input outranks issues its next transaction: a write stores its enabled bytes, of any other byte of staging memory
none changes; the last one lowers its request. A higher input takes the grant: the loser's count of revocations moves and it starts afresh, the slot
is idle. A free grant goes to the highest raised input, idle unless it is the parked owner. With none raised the arbiter parks. SLOT: the pointer
steps and wraps, the slot's owner is served. Under HALT no arbiter grants. -/
def Obligations.PortArbiters : Prop :=
  (∀ (p : PortIx) (b : Burst) (rest : List Burst) (s : State), p.val < 8 → s.eng.stagingLive = true → (∀ q : Fin 16, s.eng.overTenure q.val = none) →
    s.eng.portIn p.val = true → s.eng.slotMode p.val = false → s.eng.qdr.ports.length = 16 → (s.eng.port p.val).bursts.length = 4 → (s.eng.port
    p.val).txns.length = 4 → (s.eng.port p.val).tenures.length = 4 → (∀ c : Fin 4, s.eng.inputOf p.val c.val < 4) → (s.eng.port p.val).live.length =
    4 → (s.eng.port p.val).granted = true → 0 < (s.eng.port p.val).tenures.getD (s.eng.port p.val).owner 0 → ((s.eng.port p.val).bursts.getD
    (s.eng.port p.val).owner []) = b :: rest → (∀ c : Fin 4, Engine.raisedAt (s.eng.port p.val) c.val = true → s.eng.inputOf p.val c.val ≤
    s.eng.inputOf p.val (s.eng.port p.val).owner) → (s.eng.port p.val).txns.getD (s.eng.port p.val).owner 0 + 1 < b.txns → ∃ t, exec (.arbGrant p [])
    s = .next t ∧ (t.sec = s.sec ∧ t.pending = s.pending) ∧ ({ s.eng with qdr := { s.eng.qdr with ports := t.eng.qdr.ports } } : Engine).onlyRegs
    t.eng [(R.QUE_LEVEL.LEVEL (80 + p.val)).off] ∧ t.eng.rd (R.QUE_LEVEL.LEVEL (80 + p.val)) = t.eng.portWords p.val % 2 ^ (R.QUE_LEVEL.LEVEL (80 +
    p.val)).width ∧ (∀ k : Fin 16, k ≠ p → t.eng.port k.val = s.eng.port k.val) ∧ (t.eng.port p.val).bursts = (s.eng.port p.val).bursts ∧ (t.eng.port
    p.val).owner = (s.eng.port p.val).owner ∧ ((t.eng.port p.val).txns = modAt (s.eng.port p.val).txns (s.eng.port p.val).owner fun x => x + 1) ∧
    ((t.eng.port p.val).tenures = modAt (s.eng.port p.val).tenures (s.eng.port p.val).owner fun x => x + 1) ∧ (∀ j x, ((b.data.drop (32 *
    ((s.eng.port p.val).txns.getD (s.eng.port p.val).owner 0))).take 32)[j]? = some (some x) → t.stg.byte (b.addr + 32 * ((s.eng.port
    p.val).txns.getD (s.eng.port p.val).owner 0) + j) = x ∧ t.stg.isBad (b.addr + 32 * ((s.eng.port p.val).txns.getD (s.eng.port p.val).owner 0) + j)
    = false) ∧ (∀ a, (a < b.addr + 32 * ((s.eng.port p.val).txns.getD (s.eng.port p.val).owner 0) ∨ b.addr + 32 * ((s.eng.port p.val).txns.getD
    (s.eng.port p.val).owner 0) + 32 ≤ a ∨ ((b.data.drop (32 * ((s.eng.port p.val).txns.getD (s.eng.port p.val).owner 0))).take 32)[a - (b.addr + 32
    * ((s.eng.port p.val).txns.getD (s.eng.port p.val).owner 0))]? = some none) → t.stg.byte a = s.stg.byte a ∧ t.stg.isBad a = s.stg.isBad a)) ∧
  (∀ (p : PortIx) (b : Burst) (rest : List Burst) (s : State), p.val < 8 → s.eng.stagingLive = true → (∀ q : Fin 16, s.eng.overTenure q.val = none) →
    s.eng.portIn p.val = true → s.eng.slotMode p.val = false → s.eng.qdr.ports.length = 16 → (s.eng.port p.val).bursts.length = 4 → (s.eng.port
    p.val).txns.length = 4 → (s.eng.port p.val).tenures.length = 4 → (∀ c : Fin 4, s.eng.inputOf p.val c.val < 4) → (s.eng.port p.val).live.length =
    4 → (s.eng.port p.val).granted = true → 0 < (s.eng.port p.val).tenures.getD (s.eng.port p.val).owner 0 → ((s.eng.port p.val).bursts.getD
    (s.eng.port p.val).owner []) = b :: rest → (∀ c : Fin 4, Engine.raisedAt (s.eng.port p.val) c.val = true → s.eng.inputOf p.val c.val ≤
    s.eng.inputOf p.val (s.eng.port p.val).owner) → (s.eng.port p.val).txns.getD (s.eng.port p.val).owner 0 + 1 = b.txns → b.what = .other → ∃ t,
    exec (.arbGrant p []) s = .next t ∧ (t.sec = s.sec ∧ t.pending = s.pending) ∧ ({ s.eng with qdr := { s.eng.qdr with ports := t.eng.qdr.ports } }
    : Engine).onlyRegs t.eng [(R.QUE_LEVEL.LEVEL (80 + p.val)).off] ∧ t.eng.rd (R.QUE_LEVEL.LEVEL (80 + p.val)) = t.eng.portWords p.val % 2 ^
    (R.QUE_LEVEL.LEVEL (80 + p.val)).width ∧ (∀ k : Fin 16, k ≠ p → t.eng.port k.val = s.eng.port k.val) ∧ ((t.eng.port p.val).bursts = modAt
    (s.eng.port p.val).bursts (s.eng.port p.val).owner fun _ => rest) ∧ (t.eng.port p.val).owner = (s.eng.port p.val).owner ∧ ((t.eng.port
    p.val).txns = modAt (s.eng.port p.val).txns (s.eng.port p.val).owner fun x => x + 1) ∧ ((t.eng.port p.val).tenures = modAt (s.eng.port
    p.val).tenures (s.eng.port p.val).owner fun n => if s.eng.rd R.ARB_WDOG_LIMIT.V < n + 1 then n + 1 else 0) ∧ (∀ j x, ((b.data.drop (32 *
    ((s.eng.port p.val).txns.getD (s.eng.port p.val).owner 0))).take 32)[j]? = some (some x) → t.stg.byte (b.addr + 32 * ((s.eng.port
    p.val).txns.getD (s.eng.port p.val).owner 0) + j) = x ∧ t.stg.isBad (b.addr + 32 * ((s.eng.port p.val).txns.getD (s.eng.port p.val).owner 0) + j)
    = false) ∧ (∀ a, (a < b.addr + 32 * ((s.eng.port p.val).txns.getD (s.eng.port p.val).owner 0) ∨ b.addr + 32 * ((s.eng.port p.val).txns.getD
    (s.eng.port p.val).owner 0) + 32 ≤ a ∨ ((b.data.drop (32 * ((s.eng.port p.val).txns.getD (s.eng.port p.val).owner 0))).take 32)[a - (b.addr + 32
    * ((s.eng.port p.val).txns.getD (s.eng.port p.val).owner 0))]? = some none) → t.stg.byte a = s.stg.byte a ∧ t.stg.isBad a = s.stg.isBad a)) ∧
  (∀ (p : PortIx) (c : Nat) (b : Burst) (rest : List Burst) (s : State), s.eng.stagingLive = true → (∀ q : Fin 16, s.eng.overTenure q.val = none) →
    s.eng.portIn p.val = true → s.eng.slotMode p.val = false → s.eng.qdr.ports.length = 16 → (s.eng.port p.val).bursts.length = 4 → (s.eng.port
    p.val).txns.length = 4 → (s.eng.port p.val).tenures.length = 4 → (∀ c : Fin 4, s.eng.inputOf p.val c.val < 4) → (s.eng.port p.val).live.length =
    4 → (s.eng.port p.val).granted = true → 0 < (s.eng.port p.val).tenures.getD (s.eng.port p.val).owner 0 → ((s.eng.port p.val).bursts.getD
    (s.eng.port p.val).owner []) = b :: rest → s.eng.highest p.val = some c → s.eng.inputOf p.val (s.eng.port p.val).owner < s.eng.inputOf p.val c →
    (∀ x ∈ (s.eng.port p.val).bursts.getD c [], x.what = .other) → ∃ t, exec (.arbGrant p []) s = .next t ∧ (t.sec = s.sec ∧ t.pending = s.pending) ∧
    t.stg = s.stg ∧ ({ s.eng with qdr := { s.eng.qdr with ports := t.eng.qdr.ports } } : Engine).onlyRegs t.eng [(R.QUE_LEVEL.LEVEL (80 +
    p.val)).off] ∧ t.eng.rd (R.QUE_LEVEL.LEVEL (80 + p.val)) = t.eng.portWords p.val % 2 ^ (R.QUE_LEVEL.LEVEL (80 + p.val)).width ∧ (∀ k : Fin 16, k
    ≠ p → t.eng.port k.val = s.eng.port k.val) ∧ (t.eng.port p.val).owner = c ∧ (t.eng.port p.val).granted = true ∧ (t.eng.port p.val).tenures.getD c
    0 = 1 ∧ (t.eng.port p.val).txns.getD c 0 = 0 ∧ ((t.eng.port p.val).live.getD (s.eng.inputOf p.val c) PortCount.zero).grants = satAdd (2 ^ 32 - 1)
    ((s.eng.port p.val).live.getD (s.eng.inputOf p.val c) PortCount.zero).grants 1 ∧ (t.eng.port p.val).txns.getD (s.eng.port p.val).owner 0 = 0 ∧
    (t.eng.port p.val).tenures.getD (s.eng.port p.val).owner 0 = 0 ∧ (t.eng.port p.val).bursts.getD (s.eng.port p.val).owner [] = b :: rest ∧
    ((t.eng.port p.val).live.getD (s.eng.inputOf p.val (s.eng.port p.val).owner) PortCount.zero).preempts = satAdd (2 ^ 32 - 1) ((s.eng.port
    p.val).live.getD (s.eng.inputOf p.val (s.eng.port p.val).owner) PortCount.zero).preempts 1) ∧
  (∀ (p : PortIx) (c : Nat) (s : State), s.eng.stagingLive = true → (∀ q : Fin 16, s.eng.overTenure q.val = none) → s.eng.portIn p.val = true →
    s.eng.slotMode p.val = false → s.eng.qdr.ports.length = 16 → (s.eng.port p.val).bursts.length = 4 → (s.eng.port p.val).txns.length = 4 →
    (s.eng.port p.val).tenures.length = 4 → (∀ c : Fin 4, s.eng.inputOf p.val c.val < 4) → (s.eng.port p.val).live.length = 4 → (s.eng.port
    p.val).granted = false → s.eng.highest p.val = some c → c ≠ (s.eng.port p.val).owner → (∀ x ∈ (s.eng.port p.val).bursts.getD c [], x.what =
    .other) → ∃ t, exec (.arbGrant p []) s = .next t ∧ (t.sec = s.sec ∧ t.pending = s.pending) ∧ t.stg = s.stg ∧
    ({ s.eng with qdr := { s.eng.qdr with ports := t.eng.qdr.ports } } : Engine).onlyRegs t.eng [(R.QUE_LEVEL.LEVEL (80 + p.val)).off] ∧ t.eng.rd
    (R.QUE_LEVEL.LEVEL (80 + p.val)) = t.eng.portWords p.val % 2 ^ (R.QUE_LEVEL.LEVEL (80 + p.val)).width ∧ (∀ k : Fin 16, k ≠ p → t.eng.port k.val =
    s.eng.port k.val) ∧ (t.eng.port p.val).owner = c ∧ (t.eng.port p.val).granted = true ∧ (t.eng.port p.val).tenures.getD c 0 = 1 ∧ (t.eng.port
    p.val).txns.getD c 0 = 0 ∧ ((t.eng.port p.val).live.getD (s.eng.inputOf p.val c) PortCount.zero).grants = satAdd (2 ^ 32 - 1) ((s.eng.port
    p.val).live.getD (s.eng.inputOf p.val c) PortCount.zero).grants 1) ∧
  (∀ (p : PortIx) (b : Burst) (rest : List Burst) (s : State), p.val < 8 → s.eng.stagingLive = true → (∀ q : Fin 16, s.eng.overTenure q.val = none) →
    s.eng.portIn p.val = true → s.eng.slotMode p.val = false → s.eng.qdr.ports.length = 16 → (s.eng.port p.val).bursts.length = 4 → (s.eng.port
    p.val).txns.length = 4 → (s.eng.port p.val).tenures.length = 4 → (∀ c : Fin 4, s.eng.inputOf p.val c.val < 4) → (s.eng.port p.val).live.length =
    4 → (s.eng.port p.val).granted = false → s.eng.highest p.val = some (s.eng.port p.val).owner → (s.eng.port p.val).bursts.getD (s.eng.port
    p.val).owner [] = b :: rest → b.what = .other → 1 < b.txns → ∃ t, exec (.arbGrant p []) s = .next t ∧ (t.sec = s.sec ∧ t.pending = s.pending) ∧
    ({ s.eng with qdr := { s.eng.qdr with ports := t.eng.qdr.ports } } : Engine).onlyRegs t.eng [(R.QUE_LEVEL.LEVEL (80 + p.val)).off] ∧ t.eng.rd
    (R.QUE_LEVEL.LEVEL (80 + p.val)) = t.eng.portWords p.val % 2 ^ (R.QUE_LEVEL.LEVEL (80 + p.val)).width ∧ (∀ k : Fin 16, k ≠ p → t.eng.port k.val =
    s.eng.port k.val) ∧ (t.eng.port p.val).owner = (s.eng.port p.val).owner ∧ (t.eng.port p.val).granted = true ∧ (t.eng.port p.val).tenures.getD
    ((s.eng.port p.val).owner) 0 = 1 ∧ ((t.eng.port p.val).live.getD (s.eng.inputOf p.val (s.eng.port p.val).owner) PortCount.zero).grants = satAdd
    (2 ^ 32 - 1) ((s.eng.port p.val).live.getD (s.eng.inputOf p.val (s.eng.port p.val).owner) PortCount.zero).grants 1 ∧ (t.eng.port p.val).txns.getD
    (s.eng.port p.val).owner 0 = 1 ∧ (∀ j x, ((b.data.drop (32 * (0))).take 32)[j]? = some (some x) → t.stg.byte (b.addr + 32 * (0) + j) = x ∧
    t.stg.isBad (b.addr + 32 * (0) + j) = false) ∧ (∀ a, (a < b.addr + 32 * (0) ∨ b.addr + 32 * (0) + 32 ≤ a ∨ ((b.data.drop (32 * (0))).take 32)[a -
    (b.addr + 32 * (0))]? = some none) → t.stg.byte a = s.stg.byte a ∧ t.stg.isBad a = s.stg.isBad a)) ∧
  (∀ (p : PortIx) (s : State), s.eng.stagingLive = true → (∀ q : Fin 16, s.eng.overTenure q.val = none) → s.eng.portIn p.val = true → s.eng.slotMode
    p.val = false → s.eng.qdr.ports.length = 16 → (s.eng.port p.val).bursts.length = 4 → (s.eng.port p.val).txns.length = 4 → (s.eng.port
    p.val).tenures.length = 4 → (∀ c : Fin 4, s.eng.inputOf p.val c.val < 4) → (s.eng.port p.val).live.length = 4 → s.eng.highest p.val = none → (∀ c
    d : Fin 4, s.eng.inputOf p.val c.val = s.eng.inputOf p.val d.val → c = d) → ∃ t, exec (.arbGrant p []) s = .next t ∧ (t.sec = s.sec ∧ t.pending =
    s.pending) ∧ t.stg = s.stg ∧ ({ s.eng with qdr := { s.eng.qdr with ports := t.eng.qdr.ports } } : Engine).onlyRegs t.eng [(R.QUE_LEVEL.LEVEL (80
    + p.val)).off] ∧ t.eng.rd (R.QUE_LEVEL.LEVEL (80 + p.val)) = t.eng.portWords p.val % 2 ^ (R.QUE_LEVEL.LEVEL (80 + p.val)).width ∧ (∀ k : Fin 16,
    k ≠ p → t.eng.port k.val = s.eng.port k.val) ∧ ((t.eng.port p.val) =
    { (s.eng.port p.val) with granted := false, live := (s.eng.port p.val).live.map fun k => { k with run := 0 } })) ∧
  (∀ (p : PortIx) (b : Burst) (rest : List Burst) (s : State), 8 ≤ p.val → s.eng.stagingLive = true → (∀ q : Fin 16, s.eng.overTenure q.val = none) →
    s.eng.portIn p.val = true → s.eng.slotMode p.val = true → s.eng.qdr.ports.length = 16 → (s.eng.port p.val).bursts.length = 4 → (s.eng.port
    p.val).txns.length = 4 → (s.eng.port p.val).tenures.length = 4 → (∀ c : Fin 4, s.eng.inputOf p.val c.val < 4) → (s.eng.port p.val).live.length =
    4 → s.eng.slotOwner p.val (s.eng.port p.val).slot < 4 → (s.eng.port p.val).bursts.getD (s.eng.slotOwner p.val (s.eng.port p.val).slot) [] = b ::
    rest → b.what = .other → (s.eng.port p.val).txns.getD (s.eng.slotOwner p.val (s.eng.port p.val).slot) 0 + 1 < b.txns → (∀ k : Fin 32, s.stg.isBad
    (b.addr + 32 * (s.eng.port p.val).txns.getD (s.eng.slotOwner p.val (s.eng.port p.val).slot) 0 + k.val) = false) → ∃ t, exec (.arbGrant p []) s =
    .next t ∧ (t.sec = s.sec ∧ t.pending = s.pending) ∧ t.stg = s.stg ∧ ({ s.eng with qdr := { s.eng.qdr with ports := t.eng.qdr.ports } } :
    Engine).onlyRegs t.eng [(R.QUE_LEVEL.LEVEL (80 + p.val)).off] ∧ t.eng.rd (R.QUE_LEVEL.LEVEL (80 + p.val)) = t.eng.portWords p.val % 2 ^
    (R.QUE_LEVEL.LEVEL (80 + p.val)).width ∧ (∀ k : Fin 16, k ≠ p → t.eng.port k.val = s.eng.port k.val) ∧ (t.eng.port p.val).slot = ((s.eng.port
    p.val).slot + 1) % max 1 (s.eng.rd (R.ARB_CTRL.SLOT_LEN p.val)) ∧ (t.eng.port p.val).owner = s.eng.slotOwner p.val (s.eng.port p.val).slot ∧
    ((t.eng.port p.val).txns = modAt (s.eng.port p.val).txns (s.eng.slotOwner p.val (s.eng.port p.val).slot) fun x => x + 1) ∧ ((t.eng.port
    p.val).tenures = (upTo 4).map fun c => if 0 < (s.eng.port p.val).tenures.getD c 0 ∨ c = s.eng.slotOwner p.val (s.eng.port p.val).slot then
    (s.eng.port p.val).tenures.getD c 0 + 1 else 0)) ∧
  (∀ (p : PortIx) (bad : List Nat) (s : State), s.eng.stagingLive = false → ∃ t, exec (.arbGrant p bad) s = .next t ∧ t = s)

/-- A requester's burst of 1 to 8 transactions in one granule of its region joins the requests of the port of its die; any other is no request. The
scrubber requests the next granule at its interval unless one still stands. A BAR4 access is refused with its count outside the capacity, without
live memory, or for a write outside M3 and M11, else it becomes requests of code 0; one not granted within HOST_TMO fails. A tenure above
ARB_WDOG_LIMIT halts the memory: HALT, the status, FAULT, nothing left to commit, a Squall, or, with AX0 at rest and no Squall to wait for (the model
reads so, log 148), PAIR_OWN released and the reset timed from here. -/
def Obligations.StagingRequests : Prop :=
  (∀ (p : PortIx) (req : Fin 16) (a : BitVec 27) (n : Nat) (l : List Byte) (s : State), s.eng.stagingLive = true → req.val < 4 → a.toNat % 32 = 0 → 1
    ≤ n → n ≤ 8 → a.toNat / 256 = (a.toNat + 32 * n - 1) / 256 → s.eng.regionOk req.val a.toNat (32 * n) = true → s.eng.dieOf a.toNat = p.val % 8 → ∃
    t, exec (.stagingRequest p req a n l) s = .next t ∧ s.engineOnly t ∧ (t.eng.qdr.ports = modAt s.eng.qdr.ports p.val fun q =>
    { q with bursts := modAt q.bursts req.val fun x => x ++ [⟨a.toNat, n, if p.val < 8 then (sliceBytes l 0 (32 * n)).map some else [], .other, false⟩] })
    ∧ ({ s.eng with qdr := { s.eng.qdr with ports := t.eng.qdr.ports } } : Engine).onlyRegs t.eng [(R.QUE_LEVEL.LEVEL (80 + p.val)).off] ∧ t.eng.rd
    (R.QUE_LEVEL.LEVEL (80 + p.val)) = t.eng.portWords p.val % 2 ^ (R.QUE_LEVEL.LEVEL (80 + p.val)).width) ∧
  (∀ (p : PortIx) (req : Fin 16) (a : BitVec 27) (n : Nat) (l : List Byte) (s : State), (s.eng.stagingLive = false ∨ 4 ≤ req.val ∨ a.toNat % 32 ≠ 0 ∨
    n = 0 ∨ 8 < n ∨ s.eng.regionOk req.val a.toNat (32 * n) = false ∨ s.eng.dieOf a.toNat ≠ p.val % 8) → ∃ t, exec (.stagingRequest p req a n l) s =
    .next t ∧ s.engineOnly t ∧ t.eng = s.eng) ∧
  (∀ (k : Nat) (s : State), s.eng.on R.QDR_CTRL.SCRUB_EN = true → s.eng.stagingLive = true → (s.eng.now - s.eng.qdr.scrubLast) / max 1
    s.eng.scrubStep = k → 0 < k → s.eng.standing (fun w => w == .scrub) = false → ∃ t, exec (.scrubRequest) s = .next t ∧ s.engineOnly t ∧ (t.eng.qdr
    =
    { s.eng.qdr with scrubLast := s.eng.qdr.scrubLast + k * s.eng.scrubStep, ports := modAt s.eng.qdr.ports (8 + s.eng.dieOf (256 * s.eng.qdr.scrubNext)) fun q => { q with bursts := modAt q.bursts 1 fun x => x ++ [⟨256 * s.eng.qdr.scrubNext, 8, [], .scrub, false⟩] } })
    ∧ ({ s.eng with qdr := t.eng.qdr } : Engine).onlyRegs t.eng [(R.QUE_LEVEL.LEVEL (80 + (8 + s.eng.dieOf (256 * s.eng.qdr.scrubNext)))).off]) ∧
  (∀ (k : Nat) (s : State), s.eng.on R.QDR_CTRL.SCRUB_EN = true → s.eng.stagingLive = true → (s.eng.now - s.eng.qdr.scrubLast) / max 1
    s.eng.scrubStep = k → 0 < k → s.eng.standing (fun w => w == .scrub) = true → ∃ t, exec (.scrubRequest) s = .next t ∧ s.engineOnly t ∧ t.eng =
    { s.eng with qdr := { s.eng.qdr with scrubLast := s.eng.qdr.scrubLast + k * s.eng.scrubStep } }) ∧
  (∀ (s : State), (s.eng.on R.QDR_CTRL.SCRUB_EN = false ∨ s.eng.stagingLive = false ∨ s.eng.now < s.eng.qdr.scrubLast + max 1 s.eng.scrubStep) → ∃ t,
    exec (.scrubRequest) s = .next t ∧ s.engineOnly t ∧ t.eng = s.eng) ∧
  (∀ (a : BitVec 27) (n : Nat) (s : State), (s.eng.stagingLive = false ∨ s.eng.capacity < a.toNat + n) → ∃ t, exec (.bar4Read a n) s = .next t ∧
    s.engineOnly t ∧ t.eng.qdr =
    { s.eng.qdr with nextBar4 := s.eng.qdr.nextBar4 + 1, bar4Done := s.eng.qdr.bar4Done ++ [⟨s.eng.qdr.nextBar4, true, false, []⟩] } ∧ t.eng.rd
    R.QDR_HOST_ABORT_CNT.V = min (2 ^ 32 - 1) (s.eng.rd R.QDR_HOST_ABORT_CNT.V + 1) ∧ ({ s.eng with qdr := t.eng.qdr } : Engine).onlyRegs t.eng
    [R.QDR_HOST_ABORT_CNT.V.off]) ∧
  (∀ (a : BitVec 27) (n : Nat) (s : State), s.eng.stagingLive = true → 0 < n → a.toNat + n ≤ s.eng.capacity → a.toNat / 256 = (a.toNat + n - 1) / 256
    → s.eng.qdr.ports.length = 16 → ∃ t, exec (.bar4Read a n) s = .next t ∧ s.engineOnly t ∧ ({ s.eng with qdr := t.eng.qdr } : Engine).onlyRegs
    t.eng [(R.QUE_LEVEL.LEVEL 97).off, (R.QUE_LEVEL.LEVEL (80 + s.eng.dieOf (a.toNat / 32 * 32))).off, (R.QUE_LEVEL.LEVEL (88 + s.eng.dieOf (a.toNat
    / 32 * 32))).off] ∧ t.eng.qdr.nextBar4 = s.eng.qdr.nextBar4 + 1 ∧ t.eng.qdr.bar4Done = s.eng.qdr.bar4Done ∧ t.eng.qdr.bar4 = s.eng.qdr.bar4 ++
    [⟨s.eng.qdr.nextBar4, s.eng.now, a.toNat, n, false, 1, 1, [], []⟩] ∧ (t.eng.qdr.ports = modAt s.eng.qdr.ports (8 + s.eng.dieOf (a.toNat / 32 *
    32)) fun q =>
    { q with bursts := modAt q.bursts 0 fun x => x ++ [⟨a.toNat / 32 * 32, ((a.toNat + n + 31) / 32 - a.toNat / 32), [], .host s.eng.qdr.nextBar4, false⟩] })) ∧
  (∀ (a : BitVec 27) (l : List (Option Byte)) (s : State), (s.eng.stagingLive = false ∨ s.eng.capacity < a.toNat + l.length ∨ (s.eng.mode ≠ .m3 ∧
    s.eng.mode ≠ .m11)) → ∃ t, exec (.bar4Write a l) s = .next t ∧ s.engineOnly t ∧ t.eng.qdr = { s.eng.qdr with nextBar4 := s.eng.qdr.nextBar4 + 1 }
    ∧ t.eng.rd R.QDR_HOST_DROP_CNT.V = min (2 ^ 32 - 1) (s.eng.rd R.QDR_HOST_DROP_CNT.V + 1) ∧ ({ s.eng with qdr := t.eng.qdr } : Engine).onlyRegs
    t.eng [R.QDR_HOST_DROP_CNT.V.off, (R.QUE_LEVEL.LEVEL 97).off]) ∧
  (∀ (a : BitVec 27) (l : List (Option Byte)) (s : State), s.eng.stagingLive = true → (s.eng.mode = .m3 ∨ s.eng.mode = .m11) → 0 < l.length → a.toNat
    + l.length ≤ s.eng.capacity → a.toNat / 256 = (a.toNat + l.length - 1) / 256 → s.eng.qdr.ports.length = 16 → ∃ t, exec (.bar4Write a l) s = .next
    t ∧ s.engineOnly t ∧ ({ s.eng with qdr := t.eng.qdr } : Engine).onlyRegs t.eng [(R.QUE_LEVEL.LEVEL 97).off, (R.QUE_LEVEL.LEVEL (80 + s.eng.dieOf
    (a.toNat / 32 * 32))).off, (R.QUE_LEVEL.LEVEL (88 + s.eng.dieOf (a.toNat / 32 * 32))).off] ∧ t.eng.qdr.nextBar4 = s.eng.qdr.nextBar4 + 1 ∧
    t.eng.qdr.bar4Done = s.eng.qdr.bar4Done ∧ t.eng.qdr.bar4 = s.eng.qdr.bar4 ++ [⟨s.eng.qdr.nextBar4, s.eng.now, a.toNat, l.length, true, 1, 1, [],
    []⟩] ∧ (t.eng.qdr.ports = modAt s.eng.qdr.ports (0 + s.eng.dieOf (a.toNat / 32 * 32)) fun q =>
    { q with bursts := modAt q.bursts 0 fun x => x ++ [⟨a.toNat / 32 * 32, ((a.toNat + l.length + 31) / 32 - a.toNat / 32), List.replicate (a.toNat % 32) none ++ l, .host s.eng.qdr.nextBar4, false⟩] })) ∧
  (∀ (s : State), (s.eng.qdr.bar4.filter fun x => decide (0 < x.waiting ∧ x.time + 1000 * s.eng.rd R.QDR_CTRL.HOST_TMO ≤ s.eng.now)) = [] → ∃ t, exec
    (.hostTmoExpiry) s = .next t ∧ s.engineOnly t ∧ t.eng = s.eng) ∧
  (∀ (x : Bar4Acc) (s : State), (s.eng.qdr.bar4.filter fun x => decide (0 < x.waiting ∧ x.time + 1000 * s.eng.rd R.QDR_CTRL.HOST_TMO ≤ s.eng.now)) =
    [x] → ∃ t, exec (.hostTmoExpiry) s = .next t ∧ s.engineOnly t ∧ (t.eng.qdr.bar4 = s.eng.qdr.bar4.filter (fun y => y.id != x.id)) ∧ (∀ q ∈
    t.eng.qdr.ports, ∀ b ∈ q.bursts.getD 0 [], b.what ≠ .host x.id) ∧ t.eng.qdr.bar4Done = (if x.write then s.eng.qdr.bar4Done else
    s.eng.qdr.bar4Done ++ [⟨x.id, true, false, []⟩]) ∧ t.eng.rd R.QDR_HOST_ABORT_CNT.V = (if x.write then s.eng.rd R.QDR_HOST_ABORT_CNT.V else min (2
    ^ 32 - 1) (s.eng.rd R.QDR_HOST_ABORT_CNT.V + 1)) ∧ t.eng.rd R.QDR_HOST_DROP_CNT.V = (if x.write then min (2 ^ 32 - 1) (s.eng.rd
    R.QDR_HOST_DROP_CNT.V + 1) else s.eng.rd R.QDR_HOST_DROP_CNT.V) ∧ (({ s.eng with qdr := t.eng.qdr } : Engine).onlyRegs t.eng
    (R.QDR_HOST_ABORT_CNT.V.off :: R.QDR_HOST_DROP_CNT.V.off :: (upTo 16).map fun q => (R.QUE_LEVEL.LEVEL (80 + q)).off))) ∧
  (∀ (p : PortIx) (c : Nat) (s : State), s.eng.on R.QDR_STATUS.HALT = false → s.eng.overTenure p.val = some c → c < 4 → s.eng.inputOf p.val c < 4 →
    s.eng.roomy → s.eng.opens = [] → s.eng.qdr.bar4 = [] → (∀ n : Fin 16, (s.eng.stream n.val).bufs = []) → ((s.eng.squall = none ∧ s.eng.modeIn [6,
    7, 8] = true) ∨ s.eng.squall.map (fun q => q.rest) = some false) → ∃ t, exec (.arbWatchdogFire p) s = .next t ∧ s.engineOnly t ∧ t.eng.on
    R.QDR_STATUS.HALT = true ∧ t.eng.on R.ARB_WDOG_STATUS.FIRED = true ∧ t.eng.rd R.ARB_WDOG_STATUS.PORT = p.val ∧ t.eng.rd R.ARB_WDOG_STATUS.INPUT =
    (s.eng.inputOf p.val c) ∧ t.eng.rd R.ARB_WDOG_STATUS.REQ = c ∧ s.eng.says t.eng 0x0F 0x0E 0 none (p.val + 256 * (s.eng.inputOf p.val c) + 65536 *
    c) ∧ t.eng.stagingLive = false ∧ t.eng.pair.hbStopped = (s.eng.pair.hbStopped || s.eng.pair.role == 1) ∧ (∀ n : Fin 16, (s.eng.stream
    n.val).halted = false → (t.eng.stream n.val).stage = []) ∧ (t.eng.squall = (if s.eng.squall.isNone then some ⟨5, s.eng.vMicron, (s.eng.evt.dseq +
    1) % 2 ^ 32, [], false, 0, true⟩ else s.eng.squall.map fun q => { q with arbiter := true })) ∧ t.eng =
    { t.eng with now := s.eng.now, mode := s.eng.mode, resetting := s.eng.resetting, pins := s.eng.pins, flash := s.eng.flash, link := s.eng.link, cmdIn := s.eng.cmdIn, status := s.eng.status, dma := s.eng.dma, tg := s.eng.tg, mot := s.eng.mot, frames := s.eng.frames, gus := s.eng.gus, qdr := s.eng.qdr, afe := s.eng.afe, chans := s.eng.chans, shd := s.eng.shd, eddy := s.eng.eddy, geo := s.eng.geo, mon := s.eng.mon, met := s.eng.met, mets := s.eng.mets }) ∧
  (∀ (p : PortIx) (c : Nat) (s : State), s.eng.on R.QDR_STATUS.HALT = false → s.eng.overTenure p.val = some c → c < 4 → s.eng.inputOf p.val c < 4 →
    s.eng.roomy → s.eng.opens = [] → s.eng.qdr.bar4 = [] → (∀ n : Fin 16, (s.eng.stream n.val).bufs = []) → ((s.eng.squall = none ∧ s.eng.modeIn [6,
    7, 8] = false) ∨ s.eng.squall.map (fun q => q.rest) = some true) → ∃ t, exec (.arbWatchdogFire p) s = .next t ∧ s.engineOnly t ∧ t.eng.on
    R.QDR_STATUS.HALT = true ∧ t.eng.on R.ARB_WDOG_STATUS.FIRED = true ∧ t.eng.rd R.ARB_WDOG_STATUS.PORT = p.val ∧ t.eng.rd R.ARB_WDOG_STATUS.INPUT =
    (s.eng.inputOf p.val c) ∧ t.eng.rd R.ARB_WDOG_STATUS.REQ = c ∧ s.eng.says t.eng 0x0F 0x0E 0 none (p.val + 256 * (s.eng.inputOf p.val c) + 65536 *
    c) ∧ t.eng.stagingLive = false ∧ t.eng.pair.hbStopped = (s.eng.pair.hbStopped || s.eng.pair.role == 1) ∧ (∀ n : Fin 16, (s.eng.stream
    n.val).halted = false → (t.eng.stream n.val).stage = []) ∧ t.eng.squall = s.eng.squall ∧ t.eng.qdr =
    { s.eng.qdr with wdogRest := some s.eng.now } ∧ t.eng.pair.drive = (s.eng.pair.drive && s.eng.pair.role != 1) ∧ t.eng =
    { t.eng with now := s.eng.now, mode := s.eng.mode, resetting := s.eng.resetting, pins := s.eng.pins, flash := s.eng.flash, link := s.eng.link, cmdIn := s.eng.cmdIn, status := s.eng.status, dma := s.eng.dma, tg := s.eng.tg, mot := s.eng.mot, frames := s.eng.frames, gus := s.eng.gus, afe := s.eng.afe, chans := s.eng.chans, shd := s.eng.shd, eddy := s.eng.eddy, geo := s.eng.geo, mon := s.eng.mon, met := s.eng.met, mets := s.eng.mets }) ∧
  (∀ (p : PortIx) (s : State), (s.eng.on R.QDR_STATUS.HALT = true ∨ s.eng.overTenure p.val = none) → ∃ t, exec (.arbWatchdogFire p) s = .next t ∧
    s.engineOnly t ∧ t.eng = s.eng)

/-- With no leave to issue, nothing happens. A command alone with work is given the burst: FILL writes its pattern from ADDR on, cut at
Max_Payload_Size, up to the next 4 KiB boundary or its end, where the read-back follows; LOAD_BANK and COMPARE read in requests within the limits. A
stream that is next writes its line from the buffer's start, in one burst where no 4 KiB boundary cuts it; a buffer without room for another line
closes with a read of the DW of its last byte. DMA_WR counts the bytes. Words of DMA_OUT read with a poison tag count in its QUE_POISON. -/
def Obligations.DmaBursts : Prop :=
  (∀ (poison : Nat) (s : State), s.eng.canIssue = false → ∃ t, exec (.dmaBurst poison) s = .next t ∧ s.engineOnly t ∧ t.eng = s.eng) ∧
  (∀ (h addr len pat w done : Nat) (rest : List DmaWork) (s : State), s.eng.canIssue = true → s.eng.dma.owed = [] → s.eng.readingBurst = none →
    s.eng.nextStream = none → s.eng.dma.work = .fill h addr len pat w done false :: rest → 0 < w → done + (min (len - done) (4096 - (addr + done) %
    4096)) < len → s.eng.rbOut < 16 → s.eng.readsOut < s.eng.readMax → ∃ t, exec (.dmaBurst 0) s = .next t ∧ s.engineOnly t ∧ (t.eng.link.out =
    s.eng.link.out ++ (Engine.cutWrites (max 1 s.eng.link.mps) (addr + done) (((upTo (min (len - done) (4096 - (addr + done) % 4096))).map fun i =>
    (BitVec.ofNat 8 (pat / 256 ^ ((done + i) % w)) : Byte))) (((upTo (min (len - done) (4096 - (addr + done) % 4096))).map fun i => (BitVec.ofNat 8
    (pat / 256 ^ ((done + i) % w)) : Byte))).length).map fun x => (⟨true, x.1, x.2.length, x.2, false, .fill⟩ : Tlp)) ∧ t.eng.dma.work = .fill h addr
    len pat w (done + (min (len - done) (4096 - (addr + done) % 4096))) false :: rest ∧ t.eng.rdPair R.DMA_WR_LO.V R.DMA_WR_HI.V = satAdd (2 ^ 48 -
    1) (s.eng.rdPair R.DMA_WR_LO.V R.DMA_WR_HI.V) (min (len - done) (4096 - (addr + done) % 4096)) ∧
    ({ s.eng with link := { s.eng.link with out := t.eng.link.out }, dma := { s.eng.dma with work := t.eng.dma.work, reading := none } } :
    Engine).onlyRegs t.eng [(R.DMA_WR_LO.V.off), (R.DMA_WR_HI.V.off), (R.QUE_LEVEL.LEVEL 96).off]) ∧
  (∀ (h addr len pat w done : Nat) (rest : List DmaWork) (s : State), s.eng.canIssue = true → s.eng.dma.owed = [] → s.eng.readingBurst = none →
    s.eng.nextStream = none → s.eng.dma.work = .fill h addr len pat w done false :: rest → 0 < w → done + (min (len - done) (4096 - (addr + done) %
    4096)) = len → done < len → s.eng.rbOut < 16 → s.eng.readsOut < s.eng.readMax → ∃ t, exec (.dmaBurst 0) s = .next t ∧ s.engineOnly t ∧
    (t.eng.link.out = s.eng.link.out ++ ((Engine.cutWrites (max 1 s.eng.link.mps) (addr + done) (((upTo (min (len - done) (4096 - (addr + done) %
    4096))).map fun i => (BitVec.ofNat 8 (pat / 256 ^ ((done + i) % w)) : Byte))) (((upTo (min (len - done) (4096 - (addr + done) % 4096))).map fun i
    => (BitVec.ofNat 8 (pat / 256 ^ ((done + i) % w)) : Byte))).length).map fun x => (⟨true, x.1, x.2.length, x.2, false, .fill⟩ : Tlp)) ++ [⟨false,
    (addr + len - 1) / 4 * 4, 4, [], false, .fillReadback⟩]) ∧ t.eng.dma.work = .fill h addr len pat w len true :: rest ∧ t.eng.rdPair R.DMA_WR_LO.V
    R.DMA_WR_HI.V = satAdd (2 ^ 48 - 1) (s.eng.rdPair R.DMA_WR_LO.V R.DMA_WR_HI.V) (min (len - done) (4096 - (addr + done) % 4096)) ∧
    ({ s.eng with link := { s.eng.link with out := t.eng.link.out }, dma := { s.eng.dma with work := t.eng.dma.work, reading := none } } :
    Engine).onlyRegs t.eng [(R.DMA_WR_LO.V.off), (R.DMA_WR_HI.V.off), (R.QUE_LEVEL.LEVEL 96).off]) ∧
  (∀ (h addr first count bank asked got : Nat) (reads : List Nat) (rest : List DmaWork) (s : State), s.eng.canIssue = true → s.eng.dma.owed = [] →
    s.eng.readingBurst = none → s.eng.nextStream = none → s.eng.dma.work = .bank h addr first count bank asked got reads :: rest → asked < 4096 *
    count → s.eng.burstReads = true → ∃ t, exec (.dmaBurst 0) s = .next t ∧ s.engineOnly t ∧ (t.eng.link.out = s.eng.link.out ++ (((Engine.cutReads
    s.eng.readLim (min (4096 * count - asked) (4096 - (addr + asked) % 4096)) (min (4096 * count - asked) (4096 - (addr + asked) % 4096))).foldl (fun
    (x : List Tlp × Nat) i => (x.1 ++ [⟨false, x.2, i, [], false, .bank⟩], x.2 + i)) ([], addr + asked)).1)) ∧ t.eng =
    { s.eng with link := { s.eng.link with out := t.eng.link.out }, dma := { s.eng.dma with reading := none, work := .bank h addr first count bank (asked + (min (4096 * count - asked) (4096 - (addr + asked) % 4096))) got (reads ++ (Engine.cutReads s.eng.readLim (min (4096 * count - asked) (4096 - (addr + asked) % 4096)) (min (4096 * count - asked) (4096 - (addr + asked) % 4096)))) :: rest } }) ∧
  (∀ (h addr sa len asked got : Nat) (reads : List Nat) (fb : Option Nat) (k thr : Nat) (rest : List DmaWork) (s : State), s.eng.canIssue = true →
    s.eng.dma.owed = [] → s.eng.readingBurst = none → s.eng.nextStream = none → s.eng.dma.work = .compare h addr sa len asked got reads fb k thr
    false :: rest → asked < len → s.eng.burstReads = true → s.eng.on R.QDR_STATUS.HALT = false → ∃ t, exec (.dmaBurst 0) s = .next t ∧ s.engineOnly t
    ∧ (t.eng.link.out = s.eng.link.out ++ (((Engine.cutReads s.eng.readLim (min (len - asked) (4096 - (addr + asked) % 4096)) (min (len - asked)
    (4096 - (addr + asked) % 4096))).foldl (fun (x : List Tlp × Nat) i => (x.1 ++ [⟨false, x.2, i, [], false, .compare⟩], x.2 + i)) ([], addr +
    asked)).1)) ∧ t.eng =
    { s.eng with link := { s.eng.link with out := t.eng.link.out }, dma := { s.eng.dma with reading := none, work := .compare h addr sa len (asked + (min (len - asked) (4096 - (addr + asked) % 4096))) got (reads ++ (Engine.cutReads s.eng.readLim (min (len - asked) (4096 - (addr + asked) % 4096)) (min (len - asked) (4096 - (addr + asked) % 4096)))) fb k thr false :: rest } }) ∧
  (∀ (n : StreamIx) (l : StageLine) (b : Buf) (s : State), s.eng.canIssue = true → (s.eng.dma.owed = [] ∨ s.eng.canReadback = false) → s.eng.cmdReady
    = false → s.eng.dma.reading = some (n.val, (s.eng.streamSource n.val)) → s.eng.streamReady n.val = true → s.eng.standing (fun w => w == .dma) =
    false → ((s.eng.stream n.val).bufs.find? fun x => x.redo) = none → (s.eng.stream n.val).stage = [l] → (s.eng.stream n.val).bufs = [b] → b.confirm
    = .writing → s.eng.badDesc n.val b = false → b.lines = [] → (s.eng.stream n.val).sent = 0 → 0 < l.bytes.length → b.withdrawn = false → b.addr %
    4096 + l.bytes.length ≤ 4096 → 2 * l.bytes.length + s.eng.strideOf n.val ≤ b.len → s.eng.strideOf n.val = s.eng.lineLen n.val → b.pageBreak =
    false → (s.eng.stream n.val).ending = none → s.eng.lineLen n.val = l.bytes.length → ∃ t, exec (.dmaBurst 0) s = .next t ∧ s.engineOnly t ∧
    (t.eng.link.out = s.eng.link.out ++ (Engine.cutWrites (max 1 s.eng.link.mps) (b.addr) (l.bytes) (l.bytes).length).map fun x => (⟨true, x.1,
    x.2.length, x.2, s.eng.roData, .data n.val⟩ : Tlp)) ∧ t.eng.rdPair R.DMA_WR_LO.V R.DMA_WR_HI.V = satAdd (2 ^ 48 - 1) (s.eng.rdPair R.DMA_WR_LO.V
    R.DMA_WR_HI.V) (l.bytes.length) ∧ t.eng.dma.last = n.val ∧ (t.eng.streams = modAt s.eng.streams n.val fun x =>
    { x with stage := [], sent := 0, waited := false, bufs := [{ b with begun := true, lines := [{ l with parity := l.parity || s.eng.stageBad s.stg (s.eng.streamSource n.val) }] }] })
    ∧
    ({ s.eng with link := { s.eng.link with out := t.eng.link.out }, dma := { s.eng.dma with last := n.val, reading := none }, streams := t.eng.streams }
    : Engine).onlyRegs t.eng [(R.DMA_WR_LO.V.off), (R.DMA_WR_HI.V.off), (R.QUE_LEVEL.LEVEL 96).off]) ∧
  (∀ (n : StreamIx) (l : StageLine) (b : Buf) (s : State), s.eng.canIssue = true → (s.eng.dma.owed = [] ∨ s.eng.canReadback = false) → s.eng.cmdReady
    = false → s.eng.dma.reading = some (n.val, (s.eng.streamSource n.val)) → s.eng.streamReady n.val = true → s.eng.standing (fun w => w == .dma) =
    false → ((s.eng.stream n.val).bufs.find? fun x => x.redo) = none → (s.eng.stream n.val).stage = [l] → (s.eng.stream n.val).bufs = [b] → b.confirm
    = .writing → s.eng.badDesc n.val b = false → b.lines = [] → (s.eng.stream n.val).sent = 0 → 0 < l.bytes.length → b.withdrawn = false → b.addr %
    4096 + l.bytes.length ≤ 4096 → b.len < s.eng.strideOf n.val + s.eng.lineLen n.val → bitOf (s.eng.rd R.DMA_FAST.word) n.val = false →
    (s.eng.stream n.val).rbs = [] → s.eng.dma.owed = [] → s.eng.canReadback = true → ∃ t, exec (.dmaBurst 0) s = .next t ∧ s.engineOnly t ∧
    (t.eng.link.out = s.eng.link.out ++ ((Engine.cutWrites (max 1 s.eng.link.mps) (b.addr) (l.bytes) (l.bytes).length).map fun x => (⟨true, x.1,
    x.2.length, x.2, s.eng.roData, .data n.val⟩ : Tlp)) ++ [⟨false, (b.addr + l.bytes.length - 1) / 4 * 4, 4, [], false, .readback n.val⟩]) ∧
    t.eng.rdPair R.DMA_WR_LO.V R.DMA_WR_HI.V = satAdd (2 ^ 48 - 1) (s.eng.rdPair R.DMA_WR_LO.V R.DMA_WR_HI.V) (l.bytes.length) ∧ (t.eng.streams =
    modAt s.eng.streams n.val fun x =>
    { x with stage := [], sent := 0, waited := false, rbs := [some b.idx], bufs := [{ b with begun := true, lines := [{ l with parity := l.parity || s.eng.stageBad s.stg (s.eng.streamSource n.val) }], confirm := .readback, jobEnd := false, withdrawn := false }] })
    ∧
    ({ s.eng with link := { s.eng.link with out := t.eng.link.out }, dma := { s.eng.dma with last := n.val, reading := none }, streams := t.eng.streams }
    : Engine).onlyRegs t.eng [(R.DMA_WR_LO.V.off), (R.DMA_WR_HI.V.off), (R.QUE_LEVEL.LEVEL 96).off]) ∧
  (∀ (n : StreamIx) (l : StageLine) (b : Buf) (s : State), s.eng.canIssue = true → (s.eng.dma.owed = [] ∨ s.eng.canReadback = false) → s.eng.cmdReady
    = false → s.eng.dma.reading = some (n.val, (s.eng.streamSource n.val)) → s.eng.streamReady n.val = true → s.eng.standing (fun w => w == .dma) =
    false → ((s.eng.stream n.val).bufs.find? fun x => x.redo) = none → (s.eng.stream n.val).stage = [l] → (s.eng.stream n.val).bufs = [b] → b.confirm
    = .writing → s.eng.badDesc n.val b = false → b.lines = [] → (s.eng.stream n.val).sent = 0 → 0 < l.bytes.length → b.withdrawn = false → 4096 <
    b.addr % 4096 + l.bytes.length → ∃ t, exec (.dmaBurst 0) s = .next t ∧ s.engineOnly t ∧ (t.eng.link.out = s.eng.link.out ++ (Engine.cutWrites
    (max 1 s.eng.link.mps) (b.addr) (l.bytes.take (4096 - b.addr % 4096)) (l.bytes.take (4096 - b.addr % 4096)).length).map fun x => (⟨true, x.1,
    x.2.length, x.2, s.eng.roData, .data n.val⟩ : Tlp)) ∧ (t.eng.streams = modAt s.eng.streams n.val fun x =>
    { x with sent := 4096 - b.addr % 4096, stage := [{ l with parity := l.parity || s.eng.stageBad s.stg (s.eng.streamSource n.val) }], bufs := [{ b with begun := true }] })
    ∧
    ({ s.eng with link := { s.eng.link with out := t.eng.link.out }, dma := { s.eng.dma with last := n.val, reading := none }, streams := t.eng.streams }
    : Engine).onlyRegs t.eng [(R.DMA_WR_LO.V.off), (R.DMA_WR_HI.V.off), (R.QUE_LEVEL.LEVEL 96).off]) ∧
  (∀ (n : StreamIx) (poison : Nat) (s : State), s.eng.canIssue = true → (s.eng.dma.owed = [] ∨ s.eng.canReadback = false) → s.eng.cmdReady = false →
    s.eng.readingBurst = none → s.eng.nextStream = some n.val → 0 < (s.eng.streamSource n.val).2 → ∃ t, exec (.dmaBurst poison) s = .next t ∧
    s.engineOnly t ∧ t.eng.dma = { s.eng.dma with reading := some (n.val, (s.eng.streamSource n.val)) } ∧ t.eng.qdr = (s.eng.raiseStage false
    (s.eng.streamSource n.val).1 (s.eng.streamSource n.val).2 [] .dma).qdr ∧ (({ s.eng with qdr := t.eng.qdr, dma := t.eng.dma } : Engine).onlyRegs
    t.eng ((upTo 16).map fun q => (R.QUE_LEVEL.LEVEL (80 + q)).off))) ∧
  (∀ (rd : Nat × Nat × Nat) (poison : Nat) (s : State), s.eng.canIssue = true → (s.eng.dma.owed = [] ∨ s.eng.canReadback = false) →
    s.eng.readingBurst = some rd → s.eng.standing (fun w => w == .dma) = true → ∃ t, exec (.dmaBurst poison) s = .next t ∧ s.engineOnly t ∧ t.eng =
    s.eng) ∧
  (∀ (n idx a : Nat) (rest : List (Nat × Nat × Nat)) (s : State), s.eng.canIssue = true → s.eng.dma.owed = (n, idx, a) :: rest → s.eng.canReadback =
    true → ∃ t, exec (.dmaBurst 0) s = .next t ∧ s.engineOnly t ∧ (t.eng =
    { s.eng with link := { s.eng.link with out := s.eng.link.out ++ [⟨false, a, 4, [], false, .readback n⟩] }, dma := { s.eng.dma with owed := rest }, streams := modAt s.eng.streams n fun x => { x with rbs := x.rbs ++ [some idx] } })) ∧
  (∀ (poison : Nat) (s : State), s.eng.dma.owed ≠ [] → s.eng.canIssue = true → s.eng.canReadback = false → s.eng.cmdReady = false →
    s.eng.readingBurst = none → s.eng.nextStream = none → ∃ t, exec (.dmaBurst poison) s = .next t ∧ s.engineOnly t ∧ t.eng =
    { s.eng with dma := { s.eng.dma with reading := none } }) ∧
  (∀ (poison : Nat) (s : State), 0 < poison → (s.eng.oneBurst s.stg).link.out.length ≠ s.eng.link.out.length → ∃ t, exec (.dmaBurst poison) s = .next
    t ∧ s.engineOnly t ∧ t.eng = (s.eng.oneBurst s.stg).count (R.QUE_POISON.V 96) poison)

/-- A read-back that returns well frees its buffer's STAGE bytes, sets DMA_Sn_CONF to its last LINE_INDEX and builds BUF_DONE OK with the bytes and
lines of R266. FAST streams are confirmed by the Ack the same way. One that fails counts, completes WRITTEN_UNCONFIRMED without passing DONE_IDX,
halts the ring and raises STREAM_HALT with the code. The read-back of a FILL completes it: OK, or WRITTEN_UNCONFIRMED with its count. -/
def Obligations.Confirmations : Prop :=
  (∀ (n : ChannelIx) (b : Buf) (l : StageLine) (more : List (Option Nat)) (s : State), n.val < 16 → (s.eng.stream n.val).bufs = [b] → b.confirm =
    .readback → (s.eng.stream n.val).halted = false → (s.eng.stream n.val).replaying = false → b.lines.getLast? = some l → s.eng.pageOrderOk n.val b
    = true → s.eng.opens = [] → s.eng.hears → b.withdrawn = false → (s.eng.stream n.val).rbs = some b.idx :: more → ∃ t, exec (.readbackCompletion n)
    s = .next t ∧ s.engineOnly t ∧ t.eng.told 0x02 n.val 0 (some b.hseq) b.idx ∧ (t.eng.toldBytes [(24, 8, b.tag), (32, 2, s.eng.bflags n.val
    { b with confirm := .confirmed }), (36, 4, (b.lines.length - 1) * s.eng.strideOf n.val + s.eng.lineLen n.val), (40, 4, b.lines.length), (44, 6,
    (b.lines.head?.map fun x => x.index).getD 0), (50, 2, (b.lines.head?.map fun x => x.page).getD 0), (52, 6, l.index), (58, 2, l.page)]) ∧
    t.eng.rdPair (R.DMA_S_CONF_LO.V n.val) (R.DMA_S_CONF_HI.V n.val) = l.index % 2 ^ 48 ∧ (t.eng.pac =
    { s.eng.pac with confirmed := s.eng.pac.confirmed + sumNat (b.lines.map fun x => x.bytes.length) }) ∧
    (({ s.eng with streams := modAt s.eng.streams n.val fun x => { x with bufs := [], rbs := more, conf := some (l.index, l.page, l.pageLine) }, pac := t.eng.pac }
    : Engine).onlyBooks t.eng [(R.DMA_S_CONF_LO.V n.val).off, (R.DMA_S_CONF_HI.V n.val).off])) ∧
  (∀ (n : StreamIx) (b : Buf) (l : StageLine) (s : State), (s.eng.stream n.val).bufs = [b] → b.confirm = .fast → (s.eng.stream n.val).halted = false
    → (s.eng.stream n.val).replaying = false → b.lines.getLast? = some l → s.eng.pageOrderOk n.val b = true → s.eng.opens = [] → s.eng.hears →
    b.withdrawn = false → ∃ t, exec (.fastCompletionAck n) s = .next t ∧ s.engineOnly t ∧ t.eng.told 0x02 n.val 0 (some b.hseq) b.idx ∧
    (t.eng.toldBytes [(24, 8, b.tag), (32, 2, s.eng.bflags n.val { b with confirm := .confirmed }), (36, 4, (b.lines.length - 1) * s.eng.strideOf
    n.val + s.eng.lineLen n.val), (40, 4, b.lines.length), (44, 6, (b.lines.head?.map fun x => x.index).getD 0), (50, 2, (b.lines.head?.map fun x =>
    x.page).getD 0), (52, 6, l.index), (58, 2, l.page)]) ∧ t.eng.rdPair (R.DMA_S_CONF_LO.V n.val) (R.DMA_S_CONF_HI.V n.val) = l.index % 2 ^ 48 ∧
    (t.eng.pac = { s.eng.pac with confirmed := s.eng.pac.confirmed + sumNat (b.lines.map fun x => x.bytes.length) }) ∧
    (({ s.eng with streams := modAt s.eng.streams n.val fun x => { x with bufs := [], conf := some (l.index, l.page, l.pageLine) }, pac := t.eng.pac }
    : Engine).onlyBooks t.eng [(R.DMA_S_CONF_LO.V n.val).off, (R.DMA_S_CONF_HI.V n.val).off])) ∧
  (∀ (n : StreamIx) (s : State), ((s.eng.stream n.val).bufs.find? fun x => x.confirm == .fast) = none → ∃ t, exec (.fastCompletionAck n) s = .next t
    ∧ s.engineOnly t ∧ t.eng = s.eng) ∧
  (∀ (n : ChannelIx) (s : State), n.val < 16 → (s.eng.stream n.val).rbs = [] → ∃ t, exec (.readbackCompletion n) s = .next t ∧ s.engineOnly t ∧ t.eng
    = s.eng) ∧
  (∀ (n : ChannelIx) (more : List (Option Nat)) (s : State), n.val < 16 → (s.eng.stream n.val).rbs = none :: more → ∃ t, exec (.readbackCompletion n)
    s = .next t ∧ s.engineOnly t ∧ (t.eng = { s.eng with streams := modAt s.eng.streams n.val fun x => { x with rbs := more } })) ∧
  (∀ (n : ChannelIx) (b : Buf) (l : StageLine) (more : List (Option Nat)) (kind : ReadErr) (s : State), n.val < 16 → (s.eng.stream n.val).bufs = [b]
    → b.confirm = .readback → (s.eng.stream n.val).halted = false → (s.eng.stream n.val).replaying = false → b.lines.getLast? = some l →
    s.eng.pageOrderOk n.val b = true → s.eng.opens = [] → s.eng.roomy → b.withdrawn = false → (s.eng.stream n.val).rbs = some b.idx :: more → (∀ o ∈
    s.eng.dma.owed, o.1 ≠ n.val) → ∃ t, exec (.readbackError n kind) s = .next t ∧ s.engineOnly t ∧ s.eng.says t.eng 0x02 n.val 6 (some b.hseq) b.idx
    ∧ t.eng.told 0x16 n.val 0 (some b.hseq) b.idx ∧ t.eng.toldBytes [(24, 8, b.tag), (32, 4, (b.lines.length - 1) * s.eng.strideOf n.val +
    s.eng.lineLen n.val), (36, 1, match kind with | .ur => 1 | .ca => 2 | .poisoned => 3 | .timeout => 4)] ∧ t.eng.ringState (3 + n.val) = (if
    s.eng.ringState (3 + n.val) = 1 then 4 else s.eng.ringState (3 + n.val)) ∧ t.eng.rd (R.UHP_R_DONE.V (3 + n.val)) = s.eng.rd (R.UHP_R_DONE.V (3 +
    n.val)) ∧ t.eng.rd R.DMA_RB_ERR_CNT.V = min (2 ^ 32 - 1) (s.eng.rd R.DMA_RB_ERR_CNT.V + 1) ∧ (t.eng.streams = modAt s.eng.streams n.val fun x =>
    { x with halted := true, rbs := more.map fun _ => none, bufs := [{ b with confirm := .failed kind }] }) ∧
    ({ s.eng with rings := t.eng.rings, streams := t.eng.streams, link := { s.eng.link with aer := s.eng.link.aer ++ [.completion kind], aerCor := t.eng.link.aerCor, aerUnc := t.eng.link.aerUnc } }
    : Engine).onlyBooks t.eng [R.DMA_RB_ERR_CNT.V.off, (R.UHP_R_STATE.STATE (3 + n.val)).off]) ∧
  (∀ (n : ChannelIx) (h addr len pat w : Nat) (rest : List DmaWork) (c : OpenCmd) (s : State), n.val = 16 → s.eng.dma.work = .fill h addr len pat w
    len true :: rest → (s.eng.opens.find? fun o => o.hseq == h && o.wait != Wait.built) = some c → s.eng.hears → ∃ t, exec (.readbackCompletion n) s
    = .next t ∧ s.engineOnly t ∧ t.eng.answered h c.code stOk ∧ t.eng.toldBytes [(24, 8, c.tag), (32, 1, c.code), (40, 4, len)] ∧
    ({ s.eng with dma := { s.eng.dma with work := rest } } : Engine).onlyBooks t.eng []) ∧
  (∀ (n : ChannelIx) (h addr len pat w : Nat) (rest : List DmaWork) (c : OpenCmd) (s : State), n.val = 16 → s.eng.dma.work = .fill h addr len pat w
    len true :: rest → (s.eng.opens.find? fun o => o.hseq == h && o.wait != Wait.built) = some c → s.eng.hears → ∃ t, exec (.readbackError n
    .timeout) s = .next t ∧ s.engineOnly t ∧ t.eng.answered h c.code stUnconfirmed ∧ t.eng.toldBytes [(24, 8, c.tag), (32, 1, c.code), (40, 4, len)]
    ∧ t.eng.rd R.DMA_RB_ERR_CNT.V = min (2 ^ 32 - 1) (s.eng.rd R.DMA_RB_ERR_CNT.V + 1) ∧
    ({ s.eng with dma := { s.eng.dma with work := rest }, link := { s.eng.link with aer := s.eng.link.aer ++ [.completion .timeout], aerCor := t.eng.link.aerCor, aerUnc := t.eng.link.aerUnc } }
    : Engine).onlyBooks t.eng [R.DMA_RB_ERR_CNT.V.off])

/-- A completion of LOAD_BANK stores each received word at its place of its channel and bank; the last one sets every named bank VALID and completes
OK; an error makes every named bank INVALID and completes HOST_READ_ERROR. What a completion of COMPARE brings is held, once its SVC_RD burst is
through at its port, against the staging bytes (here of good parity, in one burst): the last one completes OK or COMPARE_MISMATCH with the first
mismatched offset and the count; an error completes HOST_READ_ERROR with what was compared, once all that came before it is. -/
def Obligations.HostReads : Prop :=
  (∀ (h addr first count bank asked got r : Nat) (reads : List Nat) (rest : List DmaWork) (l : List Byte) (s : State), s.eng.dma.work = .bank h addr
    first count bank asked got (r :: reads) :: rest → bank < 2 → first + count ≤ 64 → r % 4 = 0 → got % 4 = 0 → got + r < 4096 * count → ∃ t, exec
    (.hostReadCompletion l none) s = .next t ∧ s.engineOnly t ∧ (∀ k, k < r / 4 → t.eng.word (0x80000 + 0x2000 * (first + (got + 4 * k) / 4096) +
    0x1000 * bank + (got + 4 * k) % 4096) = BitVec.ofNat 32 (leAt l (4 * k) 4)) ∧
    (({ s.eng with dma := { s.eng.dma with work := .bank h addr first count bank asked (got + r) reads :: rest } } : Engine).onlyRegs t.eng
    ((R.QUE_LEVEL.LEVEL 97).off :: ((upTo (r / 4)).map fun k => 0x80000 + 0x2000 * (first + (got + 4 * k) / 4096) + 0x1000 * bank + (got + 4 * k) %
    4096)))) ∧
  (∀ (h addr first count bank asked got r : Nat) (reads : List Nat) (rest : List DmaWork) (l : List Byte) (c : OpenCmd) (s : State), s.eng.dma.work =
    .bank h addr first count bank asked got (r :: reads) :: rest → bank < 2 → first + count ≤ 64 → r % 4 = 0 → got % 4 = 0 → got + r = 4096 * count →
    (s.eng.opens.find? fun o => o.hseq == h && o.wait != Wait.built) = some c → s.eng.hears → ∃ t, exec (.hostReadCompletion l none) s = .next t ∧
    s.engineOnly t ∧ (∀ k, k < r / 4 → t.eng.word (0x80000 + 0x2000 * (first + (got + 4 * k) / 4096) + 0x1000 * bank + (got + 4 * k) % 4096) =
    BitVec.ofNat 32 (leAt l (4 * k) 4)) ∧ (∀ j, j < count → t.eng.rd (if bank = 0 then R.SHD_CH_BANK.ASTATE (first + j) else R.SHD_CH_BANK.BSTATE
    (first + j)) = 1) ∧ t.eng.answered h c.code stOk ∧ (({ s.eng with dma := { s.eng.dma with work := rest } } : Engine).onlyBooks t.eng
    ((R.QUE_LEVEL.LEVEL 97).off :: ((upTo (r / 4)).map fun k => 0x80000 + 0x2000 * (first + (got + 4 * k) / 4096) + 0x1000 * bank + (got + 4 * k) %
    4096) ++ ((upTo count).map fun j => (R.SHD_CH_BANK.word (first + j)).off)))) ∧
  (∀ (h addr first count bank asked got r : Nat) (reads : List Nat) (rest : List DmaWork) (l : List Byte) (c : OpenCmd) (err : ReadErr) (s : State),
    s.eng.dma.work = .bank h addr first count bank asked got (r :: reads) :: rest → bank < 2 → first + count ≤ 64 → (s.eng.opens.find? fun o =>
    o.hseq == h && o.wait != Wait.built) = some c → s.eng.hears → ∃ t, exec (.hostReadCompletion l (some err)) s = .next t ∧ s.engineOnly t ∧ (∀ j, j
    < count → t.eng.rd (if bank = 0 then R.SHD_CH_BANK.ASTATE (first + j) else R.SHD_CH_BANK.BSTATE (first + j)) = 0) ∧ t.eng.answered h c.code
    stHostReadError ∧
    (({ s.eng with dma := { s.eng.dma with work := (if reads = [] then rest else .spent reads.length :: rest) }, link := { s.eng.link with aer := s.eng.link.aer ++ [.completion err], aerCor := t.eng.link.aerCor, aerUnc := t.eng.link.aerUnc } }
    : Engine).onlyBooks t.eng ((R.QUE_LEVEL.LEVEL 97).off :: ((upTo count).map fun j => (R.SHD_CH_BANK.word (first + j)).off)))) ∧
  (∀ (h addr sa len asked got r : Nat) (reads : List Nat) (fb : Option Nat) (n thr : Nat) (rest : List DmaWork) (l : List Byte) (s : State),
    s.eng.dma.work = .compare h addr sa len asked got (r :: reads) fb n thr false :: rest → ∃ t, exec (.hostReadCompletion l none) s = .next t ∧
    s.engineOnly t ∧ t.eng.qdr = (s.eng.raiseRange false 1 (sa + got) r [] (.compare h sa got (sliceBytes l 0 r))).qdr ∧
    (({ s.eng with qdr := t.eng.qdr, dma := { s.eng.dma with work := .compare h addr sa len asked (got + r) reads fb n thr false :: rest } } :
    Engine).onlyRegs t.eng ((R.QUE_LEVEL.LEVEL 97).off :: (upTo 16).map fun q => (R.QUE_LEVEL.LEVEL (80 + q)).off))) ∧
  (∀ (p : PortIx) (b : Burst) (more : List Burst) (h addr sa off len asked got : Nat) (reads : List Nat) (fb : Option Nat) (n thr : Nat) (rest : List
    DmaWork) (l : List Byte) (s : State), 8 ≤ p.val → s.eng.stagingLive = true → (∀ q : Fin 16, s.eng.overTenure q.val = none) → s.eng.portIn p.val =
    true → s.eng.slotMode p.val = false → s.eng.qdr.ports.length = 16 → (s.eng.port p.val).bursts.length = 4 → (s.eng.port p.val).txns.length = 4 →
    (s.eng.port p.val).tenures.length = 4 → (∀ c : Fin 4, s.eng.inputOf p.val c.val < 4) → (s.eng.port p.val).live.length = 4 → (s.eng.port
    p.val).granted = true → 0 < (s.eng.port p.val).tenures.getD (s.eng.port p.val).owner 0 → ((s.eng.port p.val).bursts.getD (s.eng.port p.val).owner
    []) = b :: more → (∀ c : Fin 4, Engine.raisedAt (s.eng.port p.val) c.val = true → s.eng.inputOf p.val c.val ≤ s.eng.inputOf p.val (s.eng.port
    p.val).owner) → (s.eng.port p.val).txns.getD (s.eng.port p.val).owner 0 + 1 = b.txns → b.what = .compare h sa off l → b.addr ≤ sa + off → sa +
    off + l.length ≤ b.addr + 32 * b.txns → l.length ≤ 256 → (∀ j : Fin 256, l.length ≤ j.val ∨ s.stg.isBad (sa + off + j.val) = false) → (∀ j : Fin
    32, s.stg.isBad (b.addr + 32 * (s.eng.port p.val).txns.getD (s.eng.port p.val).owner 0 + j.val) = false) → s.eng.dma.work = .compare h addr sa
    len asked got reads fb n thr false :: rest → fb.all (fun x => decide (x ≤ off)) = true → thr + l.length < len → ∃ t, exec (.arbGrant p []) s =
    .next t ∧ s.engineOnly t ∧
    (({ s.eng with dma := { s.eng.dma with work := .compare h addr sa len asked got reads (fb.or (((upTo l.length).filter fun j => decide (l.getD j 0 ≠ s.stg.byte (sa + off + j))).head?.map fun j => off + j)) (n + ((upTo l.length).filter fun j => decide (l.getD j 0 ≠ s.stg.byte (sa + off + j))).length) (thr + l.length) false :: rest }, qdr := { s.eng.qdr with ports := t.eng.qdr.ports } }
    : Engine).onlyRegs t.eng [(R.QUE_LEVEL.LEVEL (80 + p.val)).off])) ∧
  (∀ (p : PortIx) (b : Burst) (more : List Burst) (h addr sa off len asked got : Nat) (reads : List Nat) (fb : Option Nat) (n thr : Nat) (rest : List
    DmaWork) (l : List Byte) (c : OpenCmd) (s : State), 8 ≤ p.val → s.eng.stagingLive = true → (∀ q : Fin 16, s.eng.overTenure q.val = none) →
    s.eng.portIn p.val = true → s.eng.slotMode p.val = false → s.eng.qdr.ports.length = 16 → (s.eng.port p.val).bursts.length = 4 → (s.eng.port
    p.val).txns.length = 4 → (s.eng.port p.val).tenures.length = 4 → (∀ c : Fin 4, s.eng.inputOf p.val c.val < 4) → (s.eng.port p.val).live.length =
    4 → (s.eng.port p.val).granted = true → 0 < (s.eng.port p.val).tenures.getD (s.eng.port p.val).owner 0 → ((s.eng.port p.val).bursts.getD
    (s.eng.port p.val).owner []) = b :: more → (∀ c : Fin 4, Engine.raisedAt (s.eng.port p.val) c.val = true → s.eng.inputOf p.val c.val ≤
    s.eng.inputOf p.val (s.eng.port p.val).owner) → (s.eng.port p.val).txns.getD (s.eng.port p.val).owner 0 + 1 = b.txns → b.what = .compare h sa off
    l → b.addr ≤ sa + off → sa + off + l.length ≤ b.addr + 32 * b.txns → l.length ≤ 256 → (∀ j : Fin 256, l.length ≤ j.val ∨ s.stg.isBad (sa + off +
    j.val) = false) → (∀ j : Fin 32, s.stg.isBad (b.addr + 32 * (s.eng.port p.val).txns.getD (s.eng.port p.val).owner 0 + j.val) = false) →
    s.eng.dma.work = .compare h addr sa len asked got reads fb n thr false :: rest → fb.all (fun x => decide (x ≤ off)) = true → thr + l.length = len
    → (s.eng.opens.find? fun o => o.hseq == h && o.wait != Wait.built) = some c → s.eng.hears → ∃ t, exec (.arbGrant p []) s = .next t ∧ s.engineOnly
    t ∧ (t.eng.answered h c.code (if n + ((upTo l.length).filter fun j => decide (l.getD j 0 ≠ s.stg.byte (sa + off + j))).length = 0 then stOk else
    stCompareMismatch)) ∧ (t.eng.toldBytes [(24, 8, c.tag), (32, 1, c.code), (40, 4, (fb.or (((upTo l.length).filter fun j => decide (l.getD j 0 ≠
    s.stg.byte (sa + off + j))).head?.map fun j => off + j)).getD 0xFFFFFFFF), (44, 4, n + ((upTo l.length).filter fun j => decide (l.getD j 0 ≠
    s.stg.byte (sa + off + j))).length)]) ∧
    ({ s.eng with dma := { s.eng.dma with work := rest }, qdr := { s.eng.qdr with ports := t.eng.qdr.ports } } : Engine).onlyBooks t.eng
    [(R.QUE_LEVEL.LEVEL (80 + p.val)).off]) ∧
  (∀ (h addr sa len asked got r : Nat) (reads : List Nat) (fb : Option Nat) (n thr : Nat) (rest : List DmaWork) (l : List Byte) (c : OpenCmd) (err :
    ReadErr) (s : State), s.eng.dma.work = .compare h addr sa len asked got (r :: reads) fb n thr false :: rest → thr = got → (s.eng.opens.find? fun
    o => o.hseq == h && o.wait != Wait.built) = some c → s.eng.hears → ∃ t, exec (.hostReadCompletion l (some err)) s = .next t ∧ s.engineOnly t ∧
    t.eng.answered h c.code stHostReadError ∧ t.eng.toldBytes [(24, 8, c.tag), (32, 1, c.code), (40, 4, fb.getD 0xFFFFFFFF), (44, 4, n)] ∧
    ({ s.eng with dma := { s.eng.dma with work := (if reads = [] then rest else .spent reads.length :: rest) }, link := { s.eng.link with aer := s.eng.link.aer ++ [.completion err], aerCor := t.eng.link.aerCor, aerUnc := t.eng.link.aerUnc } }
    : Engine).onlyBooks t.eng [(R.QUE_LEVEL.LEVEL 97).off]) ∧
  (∀ (h addr sa len asked got r : Nat) (reads : List Nat) (fb : Option Nat) (n thr : Nat) (rest : List DmaWork) (l : List Byte) (err : ReadErr) (s :
    State), s.eng.dma.work = .compare h addr sa len asked got (r :: reads) fb n thr false :: rest → thr ≠ got → ∃ t, exec (.hostReadCompletion l
    (some err)) s = .next t ∧ s.engineOnly t ∧
    ({ s.eng with dma := { s.eng.dma with work := .compare h addr sa len asked got reads fb n thr true :: rest }, link := { s.eng.link with aer := s.eng.link.aer ++ [.completion err], aerCor := t.eng.link.aerCor, aerUnc := t.eng.link.aerUnc } }
    : Engine).onlyRegs t.eng [(R.QUE_LEVEL.LEVEL 97).off]) ∧
  (∀ (l : List Byte) (s : State), s.eng.dma.work = [] → ∃ t, exec (.hostReadCompletion l none) s = .next t ∧ s.engineOnly t ∧ s.eng.onlyRegs t.eng
    [(R.QUE_LEVEL.LEVEL 97).off]) ∧
  (∀ (l : List Byte) (err : ReadErr) (s : State), s.eng.dma.work = [] → ∃ t, exec (.hostReadCompletion l (some err)) s = .next t ∧ s.engineOnly t ∧
    ({ s.eng with link := { s.eng.link with aer := s.eng.link.aer ++ [.completion err], aerCor := t.eng.link.aerCor, aerUnc := t.eng.link.aerUnc } }
    : Engine).onlyRegs t.eng [(R.QUE_LEVEL.LEVEL 97).off]) ∧
  (∀ (l : List Byte) (k : Nat) (rest : List DmaWork) (s : State), s.eng.dma.work = .spent k :: rest → 1 < k → ∃ t, exec (.hostReadCompletion l none)
    s = .next t ∧ s.engineOnly t ∧ ({ s.eng with dma := { s.eng.dma with work := .spent (k - 1) :: rest } } : Engine).onlyRegs t.eng
    [(R.QUE_LEVEL.LEVEL 97).off]) ∧
  (∀ (l : List Byte) (rest : List DmaWork) (s : State), s.eng.dma.work = .spent 1 :: rest → ∃ t, exec (.hostReadCompletion l none) s = .next t ∧
    s.engineOnly t ∧ ({ s.eng with dma := { s.eng.dma with work := rest } } : Engine).onlyRegs t.eng [(R.QUE_LEVEL.LEVEL 97).off])

/-- TEMP_COMPARE takes the die temperatures and marks stale section temperatures; in M6 to M8 a side's die temperature away from its reference by
more than CAL_DT raises the request with its cause, one within it does not. Once a gap is measured, a usable channel of a colour row whose level is
not adjusted takes gain and offset of R81 where both pass R85; a backing mean of 62,000 or more rejects it, keeps its trims and is told by
CAL_REJECT. -/
def Obligations.CalibrationRequestsAndGaps : Prop :=
  (∀ (t0 t1 : BitVec 16) (s : State), s.eng.modeIn [6, 7, 8] = false → ∃ t, exec (.tempCompare t0 t1) s = .next t ∧ s.engineOnly t ∧ t.eng.rd
    (R.AFE_TEMP.TEMP 0) = t0.toNat ∧ t.eng.rd (R.AFE_TEMP.TEMP 1) = t1.toNat ∧ (∀ k : Fin 4, t.eng.rd (R.MET_TEMP.STALE k.val) = b2n (s.eng.rtdStale
    k.val)) ∧ t.eng.rd R.CAL_STATUS.RTD_STALE = b2n ((s.eng.assigned 0).any s.eng.rtdStale) + 2 * b2n ((s.eng.assigned 1).any s.eng.rtdStale) ∧
    (s.eng.onlyRegs t.eng (((upTo 4).map fun x => (R.MET_TEMP.word x).off) ++ [(R.AFE_TEMP.word 0).off, (R.AFE_TEMP.word 1).off,
    R.CAL_STATUS.word.off]))) ∧
  (∀ (t0 t1 : BitVec 16) (s : State), s.eng.modeIn [6, 7, 8] = true → s.eng.convSides = [0] → (s.eng.assigned 0).all (fun i => s.eng.rtdStale i ||
    s.eng.cal.rtd.getD i 0x8000 == s.eng.rd (R.CAL_TREF_RTD.V i) && s.eng.rd (R.CAL_TREF_RTD.V i) != 0x8000) = true → s.eng.rd R.CAL_SCHED.V = 0 →
    s.eng.rd (R.CAL_TREF_AFE.V 0) ≠ 0x8000 → s.eng.cal.gapStart = none → s.eng.rd R.CAL_DT.V < (toSigned 16 t0.toNat - toSigned 16 (s.eng.rd
    (R.CAL_TREF_AFE.V 0))).natAbs → ∃ t, exec (.tempCompare t0 t1) s = .next t ∧ s.engineOnly t ∧ t.eng.rd (R.AFE_TEMP.TEMP 0) = t0.toNat ∧ t.eng.rd
    (R.AFE_TEMP.TEMP 1) = t1.toNat ∧ (∀ k : Fin 4, t.eng.rd (R.MET_TEMP.STALE k.val) = b2n (s.eng.rtdStale k.val)) ∧ t.eng.rd R.CAL_STATUS.RTD_STALE
    = b2n ((s.eng.assigned 0).any s.eng.rtdStale) + 2 * b2n ((s.eng.assigned 1).any s.eng.rtdStale) ∧ t.eng.on R.CAL_STATUS.PENDING = true ∧ t.eng.rd
    R.CAL_STATUS.CAUSE = s.eng.rd R.CAL_STATUS.CAUSE ||| 1 ∧ (s.eng.onlyRegs t.eng (((upTo 4).map fun x => (R.MET_TEMP.word x).off) ++
    [(R.AFE_TEMP.word 0).off, (R.AFE_TEMP.word 1).off, R.CAL_STATUS.word.off]))) ∧
  (∀ (t0 t1 : BitVec 16) (s : State), s.eng.modeIn [6, 7, 8] = true → s.eng.convSides = [0] → (s.eng.assigned 0).all (fun i => s.eng.rtdStale i ||
    s.eng.cal.rtd.getD i 0x8000 == s.eng.rd (R.CAL_TREF_RTD.V i) && s.eng.rd (R.CAL_TREF_RTD.V i) != 0x8000) = true → s.eng.rd R.CAL_SCHED.V = 0 →
    s.eng.rd (R.CAL_TREF_AFE.V 0) ≠ 0x8000 → s.eng.cal.gapStart = none → (toSigned 16 t0.toNat - toSigned 16 (s.eng.rd (R.CAL_TREF_AFE.V 0))).natAbs
    ≤ s.eng.rd R.CAL_DT.V → ∃ t, exec (.tempCompare t0 t1) s = .next t ∧ s.engineOnly t ∧ t.eng.rd (R.AFE_TEMP.TEMP 0) = t0.toNat ∧ t.eng.rd
    (R.AFE_TEMP.TEMP 1) = t1.toNat ∧ (∀ k : Fin 4, t.eng.rd (R.MET_TEMP.STALE k.val) = b2n (s.eng.rtdStale k.val)) ∧ t.eng.rd R.CAL_STATUS.RTD_STALE
    = b2n ((s.eng.assigned 0).any s.eng.rtdStale) + 2 * b2n ((s.eng.assigned 1).any s.eng.rtdStale) ∧ t.eng.rd R.CAL_STATUS.PENDING = s.eng.rd
    R.CAL_STATUS.PENDING ∧ t.eng.rd R.CAL_STATUS.CAUSE = s.eng.rd R.CAL_STATUS.CAUSE ∧ (s.eng.onlyRegs t.eng (((upTo 4).map fun x => (R.MET_TEMP.word
    x).off) ++ [(R.AFE_TEMP.word 0).off, (R.AFE_TEMP.word 1).off, R.CAL_STATUS.word.off]))) ∧
  (∀ (s : State), s.eng.cal.gapStart = none → ∃ t, exec (.gapCalCompute) s = .next t ∧ s.engineOnly t ∧ t.eng = s.eng) ∧
  (∀ (i : Side) (g c r0 : Nat) (s : State), s.eng.cal.gapStart = some g → s.eng.cal.result = none → s.eng.gapMeasured g = true → s.eng.convSides =
    [i.val] → s.eng.on R.CAL_CTRL.LED_EN = false → r0 < 3 → (∀ r : Fin 4, (s.eng.rowChans i.val r.val).filter s.eng.usable = if r.val = r0 then [c]
    else []) → c < 64 → s.eng.backMean c < 62000 → ((if s.eng.on R.CAL_CTRL.GAIN_EN then ratAway (((1 + (s.eng.gainCode c : Rat) / 25600) /
    s.eng.ratioOf c - 1) * 25600) else s.eng.gainCode c)).natAbs ≤ s.eng.rd R.CAL_LIM_GAIN.ABS ∧ ((if s.eng.on R.CAL_CTRL.GAIN_EN then ratAway (((1 +
    (s.eng.gainCode c : Rat) / 25600) / s.eng.ratioOf c - 1) * 25600) else s.eng.gainCode c) - s.eng.gainCode c).natAbs ≤ s.eng.rd
    R.CAL_LIM_GAIN.GAP_STEP → ((if s.eng.on R.CAL_CTRL.OFS_EN then s.eng.ofsOf c + ratAway ((s.eng.darkMean c / (1 + (s.eng.gainCode c : Rat) /
    25600) - s.eng.darkTarget / (1 + ((if s.eng.on R.CAL_CTRL.GAIN_EN then ratAway (((1 + (s.eng.gainCode c : Rat) / 25600) / s.eng.ratioOf c - 1) *
    25600) else s.eng.gainCode c) : Rat) / 25600)) * s.eng.fsRatio c) else s.eng.ofsOf c)).natAbs ≤ s.eng.rd R.CAL_LIM_OFS.ABS ∧ ((if s.eng.on
    R.CAL_CTRL.OFS_EN then s.eng.ofsOf c + ratAway ((s.eng.darkMean c / (1 + (s.eng.gainCode c : Rat) / 25600) - s.eng.darkTarget / (1 + ((if
    s.eng.on R.CAL_CTRL.GAIN_EN then ratAway (((1 + (s.eng.gainCode c : Rat) / 25600) / s.eng.ratioOf c - 1) * 25600) else s.eng.gainCode c) : Rat) /
    25600)) * s.eng.fsRatio c) else s.eng.ofsOf c) - s.eng.ofsOf c).natAbs ≤ s.eng.rd R.CAL_LIM_OFS.GAP_STEP → ∃ t, exec (.gapCalCompute) s = .next t
    ∧ s.engineOnly t ∧ t.eng.cal =
    { s.eng.cal with result := some ⟨[(c, (if s.eng.on R.CAL_CTRL.OFS_EN then s.eng.ofsOf c + ratAway ((s.eng.darkMean c / (1 + (s.eng.gainCode c : Rat) / 25600) - s.eng.darkTarget / (1 + ((if s.eng.on R.CAL_CTRL.GAIN_EN then ratAway (((1 + (s.eng.gainCode c : Rat) / 25600) / s.eng.ratioOf c - 1) * 25600) else s.eng.gainCode c) : Rat) / 25600)) * s.eng.fsRatio c) else s.eng.ofsOf c), (if s.eng.on R.CAL_CTRL.GAIN_EN then ratAway (((1 + (s.eng.gainCode c : Rat) / 25600) / s.eng.ratioOf c - 1) * 25600) else s.eng.gainCode c))], [], 0, 0, !(s.eng.sideChans i.val).all s.eng.usable⟩, consec := t.eng.cal.consec, consecRaised := t.eng.cal.consecRaised }
    ∧ t.eng.cal.consec.getD c 0 = 0 ∧ ({ s.eng with cal := t.eng.cal } : Engine).onlyRegs t.eng [R.CAL_CH_REJ_LO.V.off, R.CAL_CH_REJ_HI.V.off]) ∧
  (∀ (i : Side) (g c r0 : Nat) (s : State), s.eng.cal.gapStart = some g → s.eng.cal.result = none → s.eng.gapMeasured g = true → s.eng.convSides =
    [i.val] → s.eng.on R.CAL_CTRL.LED_EN = false → r0 < 3 → (∀ r : Fin 4, (s.eng.rowChans i.val r.val).filter s.eng.usable = if r.val = r0 then [c]
    else []) → c < 64 → 62000 ≤ s.eng.backMean c → s.eng.cal.consec.getD c 0 < 2 → s.eng.cal.consec.length = 74 → s.eng.hears → ∃ t, exec
    (.gapCalCompute) s = .next t ∧ s.engineOnly t ∧ t.eng.cal =
    { s.eng.cal with result := some ⟨[], [], 1, 0, !(s.eng.sideChans i.val).all s.eng.usable⟩, consec := t.eng.cal.consec, consecRaised := t.eng.cal.consecRaised }
    ∧ t.eng.cal.consec.getD c 0 = s.eng.cal.consec.getD c 0 + 1 ∧ bitOf (t.eng.rd (if c < 32 then R.CAL_CH_REJ_LO.V else R.CAL_CH_REJ_HI.V)) (c % 32)
    = true ∧ t.eng.rd R.CAL_REJ_CNT.V = min (2 ^ R.CAL_REJ_CNT.V.width - 1) (s.eng.rd R.CAL_REJ_CNT.V + 1) ∧ t.eng.told 0x0A c 0 none 7 ∧
    t.eng.toldBytes [(24, 4, ofSigned 32 (s.eng.backMean c).floor), (28, 1, 3), (32, 4, ofSigned 32 (s.eng.ofsOf c)), (36, 1, s.eng.cal.consec.getD c
    0 + 1)] ∧ ({ s.eng with cal := t.eng.cal } : Engine).onlyBooks t.eng [R.CAL_CH_REJ_LO.V.off, R.CAL_CH_REJ_HI.V.off, R.CAL_REJ_CNT.V.off])

/-- An internal trigger, L + 1 µs after the last, is a kept trigger of the phase's own count in the side's TRIG queue; a step with all its lines
gives way to the next. The target phase, with one channel accepted, writes the words of R89 into its inactive bank, sets FULL_OPEN and completes
CALIBRATE; with VCALREF out of its window after 40 ms it completes REJECTED_PARAM back in M4 with nothing else changed; within it the reference
corrections are set and the repetitions begin with fresh slices. The end of the backing measurements samples the record, with a generation above all
others, for the copy that is not in force; written right it completes the backing phase in M4; one that failed leaves its copy invalid, with a FAULT
and PARTIAL. -/
def Obligations.FullCalibration : Prop :=
  (∀ (i : Side) (s : State), s.eng.mode = .m5 → s.eng.convSides = [i.val] → (s.eng.cal.full.lastTrig : Rat) + (1000 + s.eng.lineNs i.val) ≤
    (s.eng.now : Rat) → (s.eng.cal.full.kind = 0 ∨ (s.eng.calChans.any fun c => decide (s.eng.cal.full.counts.getD c 0 < s.eng.cal.full.lines)) =
    true) → s.eng.genRuns i.val = true → sumNat ((s.eng.gen i.val).queue.map Engine.trigWords) ≤ 61 → i.val < s.eng.tg.length → s.eng.chans.length =
    64 → ∃ t, exec (.internalTrigger) s = .next t ∧ s.engineOnly t ∧ (t.eng.gen i.val).queue = (s.eng.gen i.val).queue ++ [.trigger
    ⟨s.eng.cal.full.next, some s.eng.cal.full.next, false, s.eng.now⟩, .predict (some (s.eng.now + ratNat (1000 + s.eng.lineNs i.val)))] ∧ (t.eng.gen
    i.val).pred = (s.eng.gen i.val).pred ∧ t.eng.cal.full = { s.eng.cal.full with next := s.eng.cal.full.next + 1, lastTrig := s.eng.now } ∧ (∀ c :
    Fin 64, (t.eng.chan c.val).owed = (s.eng.chan c.val).owed ++ (if c.val ∈ s.eng.sideChans i.val ∧ s.eng.on (R.AFE_STATUS.CONV_RUN i.val) then
    [(s.eng.cal.full.next, s.eng.now)] else [])) ∧ ({ s.eng with tg := t.eng.tg, chans := t.eng.chans, cal := t.eng.cal } : Engine).onlyRegs t.eng
    [(R.QUE_LOST.V (65 + i.val)).off, (R.QUE_LEVEL.LEVEL (65 + i.val)).off]) ∧
  (∀ (s : State), s.eng.cal.full.kind = 0 → s.eng.mode ≠ .m5 → ∃ t, exec (.internalTrigger) s = .next t ∧ s.engineOnly t ∧ t.eng = s.eng) ∧
  (∀ (s : State), s.eng.cal.full.kind = 1 → s.eng.cal.full.step = 8 → (s.eng.calChans.all fun c => decide (s.eng.cal.full.lines ≤
    s.eng.cal.full.counts.getD c 0)) = true → (s.eng.now : Rat) < (s.eng.cal.full.lastTrig : Rat) + (1000 + (s.eng.convSides.map s.eng.lineNs).foldl
    ratMax 0) → ∃ t, exec (.internalTrigger) s = .next t ∧ s.engineOnly t ∧ t.eng =
    { s.eng with cal := { s.eng.cal with full := { s.eng.cal.full with step := 9, base := s.eng.cal.full.next + 2, lines := s.eng.fullLines, sums := List.replicate 64 0, counts := List.replicate 64 0 } } }) ∧
  (∀ (v : List Int) (s : State), s.eng.cal.full.kind ≠ 1 → ∃ t, exec (.targetPhaseDone v) s = .next t ∧ s.engineOnly t ∧ t.eng = s.eng) ∧
  (∀ (v : List Int) (c : Nat) (o : OpenCmd) (s : State), s.eng.cal.full.kind = 1 → s.eng.cal.full.step = 10 → s.eng.calChans = [c] → c < 64 →
    s.eng.cal.fullRej = 0 → (s.eng.cal.full.dark.getD c []).length ≤ 1024 → s.eng.opens = [o] → o.wait = .calTarget → s.eng.roomy → ∃ t, exec
    (.targetPhaseDone v) s = .next t ∧ s.engineOnly t ∧ (∀ k x, (Engine.coefWords s.eng (s.eng.cal.full.dark.getD c []) (s.eng.cal.full.white.getD c
    []) s.eng.fullLines)[k]? = some x → t.eng.word (0x80000 + 0x2000 * c + 0x1000 * (1 - s.eng.bankOf c) + 4 * k) = x) ∧ t.eng.on
    R.CAL_STATUS.FULL_OPEN = true ∧ t.eng.cal.full = { FullCal.init with next := s.eng.cal.full.next, lastTrig := s.eng.cal.full.lastTrig } ∧
    s.eng.says t.eng 0x09 1 0 (some o.hseq) (s.eng.rd R.CAL_STATUS.CAUSE) ∧ t.eng.answered o.hseq o.code stOk ∧
    (({ s.eng with cal := { s.eng.cal with full := t.eng.cal.full } } : Engine).onlyBooks t.eng ([R.CAL_STATUS.word.off] ++ (upTo 1024).map fun k =>
    0x80000 + 0x2000 * c + 0x1000 * (1 - s.eng.bankOf c) + 4 * k))) ∧
  (∀ (v : List Int) (o : OpenCmd) (s : State), s.eng.cal.full.kind = 1 → s.eng.cal.full.step = 11 → (v.getD 0 0 < 2475000 ∨ 2525000 < v.getD 0 0) →
    s.eng.cal.full.start + 40000000 ≤ s.eng.now → s.eng.mode = .m5 → s.eng.cal.gapStart = none → s.eng.on R.CAL_STATUS.FULL_OPEN = false →
    s.eng.cal.full.buf = [1, 1] → s.eng.opens = [o] → o.wait = .calTarget → s.eng.roomy → ∃ t, exec (.targetPhaseDone v) s = .next t ∧ s.engineOnly t
    ∧ t.eng.mode = .m4 ∧ t.eng.cal = { s.eng.cal with full := FullCal.init, saved := none } ∧ s.eng.says t.eng 0x15 4 0 none (5 + 256 * 8) ∧
    t.eng.answered o.hseq o.code stRejectedParam ∧ ({ s.eng with mode := t.eng.mode, cal := t.eng.cal } : Engine).onlyBooks t.eng []) ∧
  (∀ (v : List Int) (s : State), s.eng.cal.full.kind = 1 → s.eng.cal.full.step = 11 → 2475000 ≤ v.getD 0 0 → v.getD 0 0 ≤ 2525000 → v.getD 1 0 ≠ 0 →
    v.getD 2 0 ≠ 0 → s.eng.cal.full.start + 40000000 ≤ s.eng.now → s.eng.convSides = [0, 1] → ∃ t, exec (.targetPhaseDone v) s = .next t ∧
    s.engineOnly t ∧ t.eng.cal.vcalref = (v.getD 0 0).toNat ∧ (∀ i : Side, t.eng.rdS (R.CAL_REF_CORR.V i.val) = toSigned 32 (ofSigned 32 (ratAway
    (((v.getD 0 0 : Rat) / (v.getD (1 + i.val) 0 : Rat) - 1) * 1000000000)))) ∧ (t.eng.cal.full =
    { s.eng.cal.full with step := 0, base := s.eng.cal.full.next + 2, lines := 64, sums := List.replicate 64 0, counts := List.replicate 64 0, trims := (upTo 64).map fun c => (s.eng.ofsOf c, s.eng.gainCode c) })
    ∧ (∀ c : Fin 64, t.eng.on (R.AFE_CH_SLICE.FAILED (c.val / 32) (c.val % 32)) = false ∧ (t.eng.chan c.val).spareReady = false ∧ (t.eng.chan
    c.val).attempts = 0) ∧ (∀ i : Side, t.eng.rd (R.AFE_SLICE_FAIL.V i.val) = 0) ∧ (∀ c : Fin 64, (t.eng.calOf c.val).bref0 = (s.eng.calOf
    c.val).bref0 ∧ (t.eng.calOf c.val).bref1 = (s.eng.calOf c.val).bref1) ∧
    (({ s.eng with cal := t.eng.cal, chans := t.eng.chans, afe := t.eng.afe, free := t.eng.free } : Engine).onlyRegs t.eng ([(R.CAL_REF_CORR.V
    0).off, (R.CAL_REF_CORR.V 1).off, (R.AFE_SLICE_FAIL.V 0).off, (R.AFE_SLICE_FAIL.V 1).off, (R.AFE_REF_CTRL.BUF_EN 0).off, (R.AFE_REF_CTRL.BUF_EN
    1).off] ++ ((upTo 64).map fun c => (R.AFE_CH_SLICE.FAILED (c / 32) (c % 32)).off)))) ∧
  (∀ (v : List Int) (s : State), s.eng.cal.full.kind = 1 → s.eng.cal.full.step = 11 → s.eng.now < s.eng.cal.full.start + 40000000 → ∃ t, exec
    (.targetPhaseDone v) s = .next t ∧ s.engineOnly t ∧ t.eng = s.eng) ∧
  (∀ (r : Fin 3) (s : State), s.eng.cal.writing = none → ∃ t, exec (.calRecordWriteDone r) s = .next t ∧ s.engineOnly t ∧ t.eng = s.eng) ∧
  (∀ (s : State), s.eng.mode = .m5 → s.eng.cal.full.kind = 2 → s.eng.cal.full.step = 0 → s.eng.auxUsed = false → (s.eng.calChans.all fun c => decide
    (s.eng.cal.full.lines ≤ s.eng.cal.full.counts.getD c 0)) = true → (s.eng.now : Rat) < (s.eng.cal.full.lastTrig : Rat) + (1000 +
    (s.eng.convSides.map s.eng.lineNs).foldl ratMax 0) → ∃ t, exec (.internalTrigger) s = .next t ∧ s.engineOnly t ∧ (t.eng.cal.writing.map (fun x =>
    x.1) = some s.eng.nextCopy) ∧ (t.eng.cal.writing.map (fun x => x.2.generation) = some (s.eng.topGen + 1)) ∧ t.eng.cal.saved = none ∧ t.eng.on
    R.CAL_STATUS.FULL_OPEN = false ∧ t.eng.cal.full.step = 2) ∧
  (∀ (o : OpenCmd) (k : Nat) (x : CalRecord) (s : State), s.eng.cal.writing = some (k, x) → k < s.eng.cal.copies.length → s.eng.mode = .m5 →
    s.eng.cal.gapStart = none → s.eng.cal.fullRej = 0 → s.eng.opens = [o] → o.wait = .calBacking → s.eng.roomy → ∃ t, exec (.calRecordWriteDone 0) s
    = .next t ∧ s.engineOnly t ∧ (t.eng.cal =
    { s.eng.cal with copies := modAt s.eng.cal.copies k (fun _ => some (Engine.storeRecord x)), writing := none, full := FullCal.init }) ∧ t.eng.rd
    R.CAL_GEN.V = x.generation % 2 ^ R.CAL_GEN.V.width ∧ t.eng.mode = .m4 ∧ s.eng.says t.eng 0x09 2 0 (some o.hseq) (s.eng.rd R.CAL_STATUS.CAUSE) ∧
    t.eng.answered o.hseq o.code stOk ∧ ({ s.eng with mode := t.eng.mode, cal := t.eng.cal } : Engine).onlyBooks t.eng [R.CAL_GEN.V.off]) ∧
  (∀ (o : OpenCmd) (k : Nat) (x : CalRecord) (r : Fin 3) (s : State), s.eng.cal.writing = some (k, x) → r.val ≠ 0 → s.eng.mode = .m5 →
    s.eng.cal.gapStart = none → s.eng.opens = [o] → o.wait = .calBacking → s.eng.roomy → ∃ t, exec (.calRecordWriteDone r) s = .next t ∧ s.engineOnly
    t ∧ (t.eng.cal = { s.eng.cal with copies := modAt s.eng.cal.copies k (fun _ => none), writing := none, full := FullCal.init }) ∧ t.eng.mode = .m4
    ∧ s.eng.says t.eng 0x0F 0x07 0 none (256 * r.val) ∧ t.eng.answered o.hseq o.code stPartial ∧ ({ s.eng with mode := t.eng.mode, cal := t.eng.cal }
    : Engine).onlyBooks t.eng [])

/-- The oldest packet of MET_IN sets PRESENT and the mirror of MET_STATUS and MET_LABELS. A record whose MSEQ is one above the last held is kept and
is the latest (under UHP-1 one at a time), and goes to the peer where the section's parameters enable pairing; another is discarded. Temperatures are
stored, fresh ones not stale; a changed threshold state is told; identification fills its registers; the answer of the query asked ends it. Notices
are told by their kind; NO_RECORD counts and is told at most once per 100 ms; so is FE_FAULT of an input, the faults of the meantime ORed into what
the hold-off tells. PRESENT clears after 1 s of silence. -/
def Obligations.SectionPackets : Prop :=
  (∀ (s : State), s.eng.met.inq = [] → ∃ t, exec (.metInPacket) s = .next t ∧ s.engineOnly t ∧ t.eng = s.eng) ∧
  (∀ (p : MetPkt) (rest : List MetPkt) (m : Nat) (b : List Byte) (s : State), s.eng.met.inq = p :: rest → p.body = .record m b → m =
    s.eng.status.lastMseq + s.eng.mets.recv.length + 1 → (s.eng.ver ≠ 1 ∨ s.eng.mets.recv = []) → s.eng.mirrorFirst = false → p.stat.pairing = true →
    s.eng.pair.linkUp = true → s.eng.pair.plver = 2 → ∃ t, exec (.metInPacket) s = .next t ∧ s.engineOnly t ∧ t.eng.rd (R.QUE_LEVEL.LEVEL 68) = 32 *
    rest.length % 65536 ∧ t.eng.on R.MET_STATUS.PRESENT = true ∧ t.eng.on R.MET_STATUS.SEAL_OPEN = p.stat.sealOpen ∧ t.eng.on R.MET_STATUS.TIME_SYNC
    = p.stat.timeSync ∧ t.eng.on R.MET_STATUS.FULL = p.stat.full ∧ t.eng.on R.MET_STATUS.FE_FAULT = p.stat.feFault ∧ t.eng.rd R.MET_STATUS.BACKLOG =
    p.stat.backlog % 65536 ∧ t.eng.rd R.MET_LABELS.V = p.stat.labels % 32 ∧
    ({ s.eng with met := { s.eng.met with inq := rest }, mets := { s.eng.mets with lastPkt := s.eng.now, recv := s.eng.mets.recv ++ [(m, b, false)], latest := some (m, b) }, pair := Engine.sendFrame s.eng.pair s.eng.now none (.peerRecord b) }
    : Engine).onlyRegs t.eng [(R.QUE_LEVEL.LEVEL 68).off, R.MET_STATUS.word.off, R.MET_LABELS.V.off]) ∧
  (∀ (p : MetPkt) (rest : List MetPkt) (m : Nat) (b : List Byte) (s : State), s.eng.met.inq = p :: rest → p.body = .record m b → m =
    s.eng.status.lastMseq + s.eng.mets.recv.length + 1 → (s.eng.ver ≠ 1 ∨ s.eng.mets.recv = []) → s.eng.mirrorFirst = false → (p.stat.pairing &&
    s.eng.pair.linkUp && s.eng.pair.plver == 2) = false → ∃ t, exec (.metInPacket) s = .next t ∧ s.engineOnly t ∧ t.eng.rd (R.QUE_LEVEL.LEVEL 68) =
    32 * rest.length % 65536 ∧ t.eng.on R.MET_STATUS.PRESENT = true ∧ t.eng.on R.MET_STATUS.SEAL_OPEN = p.stat.sealOpen ∧ t.eng.on
    R.MET_STATUS.TIME_SYNC = p.stat.timeSync ∧ t.eng.on R.MET_STATUS.FULL = p.stat.full ∧ t.eng.on R.MET_STATUS.FE_FAULT = p.stat.feFault ∧ t.eng.rd
    R.MET_STATUS.BACKLOG = p.stat.backlog % 65536 ∧ t.eng.rd R.MET_LABELS.V = p.stat.labels % 32 ∧
    ({ s.eng with met := { s.eng.met with inq := rest }, mets := { s.eng.mets with lastPkt := s.eng.now, recv := s.eng.mets.recv ++ [(m, b, false)], latest := some (m, b) } }
    : Engine).onlyRegs t.eng [(R.QUE_LEVEL.LEVEL 68).off, R.MET_STATUS.word.off, R.MET_LABELS.V.off]) ∧
  (∀ (p : MetPkt) (rest : List MetPkt) (m : Nat) (b : List Byte) (s : State), s.eng.met.inq = p :: rest → p.body = .record m b → (m ≠
    s.eng.status.lastMseq + s.eng.mets.recv.length + 1 ∨ (s.eng.ver = 1 ∧ s.eng.mets.recv ≠ [])) → ∃ t, exec (.metInPacket) s = .next t ∧
    s.engineOnly t ∧ t.eng.rd (R.QUE_LEVEL.LEVEL 68) = 32 * rest.length % 65536 ∧ t.eng.on R.MET_STATUS.PRESENT = true ∧ t.eng.on
    R.MET_STATUS.SEAL_OPEN = p.stat.sealOpen ∧ t.eng.on R.MET_STATUS.TIME_SYNC = p.stat.timeSync ∧ t.eng.on R.MET_STATUS.FULL = p.stat.full ∧
    t.eng.on R.MET_STATUS.FE_FAULT = p.stat.feFault ∧ t.eng.rd R.MET_STATUS.BACKLOG = p.stat.backlog % 65536 ∧ t.eng.rd R.MET_LABELS.V =
    p.stat.labels % 32 ∧ ({ s.eng with met := { s.eng.met with inq := rest }, mets := { s.eng.mets with lastPkt := s.eng.now } } : Engine).onlyRegs
    t.eng [(R.QUE_LEVEL.LEVEL 68).off, R.MET_STATUS.word.off, R.MET_LABELS.V.off]) ∧
  (∀ (p : MetPkt) (rest : List MetPkt) (l : List (Nat × Bool)) (s : State), s.eng.met.inq = p :: rest → p.body = .temps l → l.length = 4 →
    s.eng.cal.rtd.length = 4 → s.eng.cal.rtdTime.length = 4 → ∃ t, exec (.metInPacket) s = .next t ∧ s.engineOnly t ∧ t.eng.rd (R.QUE_LEVEL.LEVEL 68)
    = 32 * rest.length % 65536 ∧ t.eng.on R.MET_STATUS.PRESENT = true ∧ t.eng.on R.MET_STATUS.SEAL_OPEN = p.stat.sealOpen ∧ t.eng.on
    R.MET_STATUS.TIME_SYNC = p.stat.timeSync ∧ t.eng.on R.MET_STATUS.FULL = p.stat.full ∧ t.eng.on R.MET_STATUS.FE_FAULT = p.stat.feFault ∧ t.eng.rd
    R.MET_STATUS.BACKLOG = p.stat.backlog % 65536 ∧ t.eng.rd R.MET_LABELS.V = p.stat.labels % 32 ∧ (∀ k : Fin 4, t.eng.rd (R.MET_TEMP.T k.val) =
    (l.getD k.val (0, false)).1 % 65536 ∧ t.eng.cal.rtd.getD k.val 0 = (l.getD k.val (0, false)).1) ∧ (∀ k : Fin 4, (l.getD k.val (0, false)).2 =
    true → t.eng.on (R.MET_TEMP.STALE k.val) = false) ∧ (∀ k : Fin 4, (l.getD k.val (0, false)).2 = false → t.eng.cal.rtdTime.getD k.val none =
    s.eng.cal.rtdTime.getD k.val none) ∧ (∀ k : Fin 4, t.eng.on (R.MET_TEMP.STALE k.val) = t.eng.rtdStale k.val) ∧
    (({ s.eng with met := { s.eng.met with inq := rest }, mets := { s.eng.mets with lastPkt := s.eng.now }, cal := { s.eng.cal with rtd := t.eng.cal.rtd, rtdTime := t.eng.cal.rtdTime } }
    : Engine).onlyRegs t.eng ([(R.QUE_LEVEL.LEVEL 68).off, R.MET_STATUS.word.off, R.MET_LABELS.V.off, R.CAL_STATUS.word.off] ++ (upTo 4).map fun k =>
    (R.MET_TEMP.word k).off))) ∧
  (∀ (p : MetPkt) (rest : List MetPkt) (states : Nat) (v : List Nat) (n : Fin 4) (s : State), s.eng.met.inq = p :: rest → p.body = .thresholds states
    v → (∀ k : Fin 4, bitOf states k.val = bitOf (s.eng.rd R.MET_TH.V) k.val ↔ k ≠ n) → s.eng.hears → ∃ t, exec (.metInPacket) s = .next t ∧
    s.engineOnly t ∧ t.eng.rd (R.QUE_LEVEL.LEVEL 68) = 32 * rest.length % 65536 ∧ t.eng.on R.MET_STATUS.PRESENT = true ∧ t.eng.on
    R.MET_STATUS.SEAL_OPEN = p.stat.sealOpen ∧ t.eng.on R.MET_STATUS.TIME_SYNC = p.stat.timeSync ∧ t.eng.on R.MET_STATUS.FULL = p.stat.full ∧
    t.eng.on R.MET_STATUS.FE_FAULT = p.stat.feFault ∧ t.eng.rd R.MET_STATUS.BACKLOG = p.stat.backlog % 65536 ∧ t.eng.rd R.MET_LABELS.V =
    p.stat.labels % 32 ∧ t.eng.rd R.MET_TH.V = states % 16 ∧ t.eng.told 0x10 n.val 0 none (b2n (bitOf states n.val)) ∧ t.eng.toldBytes [(24, 4,
    states), (28, 4, v.getD n.val 0)] ∧ ({ s.eng with met := { s.eng.met with inq := rest }, mets := { s.eng.mets with lastPkt := s.eng.now } } :
    Engine).onlyBooks t.eng [(R.QUE_LEVEL.LEVEL 68).off, R.MET_STATUS.word.off, R.MET_LABELS.V.off, R.MET_TH.V.off]) ∧
  (∀ (p : MetPkt) (rest : List MetPkt) (fw crc audit key acked : Nat) (pub : List Byte) (s : State), s.eng.met.inq = p :: rest → p.body = .ident fw
    crc audit key pub acked → pub.length = 64 → ∃ t, exec (.metInPacket) s = .next t ∧ s.engineOnly t ∧ t.eng.rd (R.QUE_LEVEL.LEVEL 68) = 32 *
    rest.length % 65536 ∧ t.eng.on R.MET_STATUS.PRESENT = true ∧ t.eng.on R.MET_STATUS.SEAL_OPEN = p.stat.sealOpen ∧ t.eng.on R.MET_STATUS.TIME_SYNC
    = p.stat.timeSync ∧ t.eng.on R.MET_STATUS.FULL = p.stat.full ∧ t.eng.on R.MET_STATUS.FE_FAULT = p.stat.feFault ∧ t.eng.rd R.MET_STATUS.BACKLOG =
    p.stat.backlog % 65536 ∧ t.eng.rd R.MET_LABELS.V = p.stat.labels % 32 ∧ t.eng.rd R.MET_FWVER.V = fw % 2 ^ 32 ∧ t.eng.rd R.MET_FWCRC.V = crc % 2 ^
    32 ∧ t.eng.rd R.MET_AUDIT.V = audit % 2 ^ 32 ∧ t.eng.rd R.MET_KEY_ID.V = key % 2 ^ 32 ∧ (∀ k : Fin 16, t.eng.rd (R.MET_PUBKEY.V k.val) = leAt pub
    (4 * k.val) 4) ∧ (({ s.eng with met := { s.eng.met with inq := rest }, mets := { s.eng.mets with lastPkt := s.eng.now } } : Engine).onlyRegs
    t.eng ([(R.QUE_LEVEL.LEVEL 68).off, R.MET_STATUS.word.off, R.MET_LABELS.V.off, R.MET_FWVER.V.off, R.MET_FWCRC.V.off, R.MET_AUDIT.V.off,
    R.MET_KEY_ID.V.off] ++ (upTo 16).map fun k => (R.MET_PUBKEY.V k).off))) ∧
  (∀ (p : MetPkt) (rest : List MetPkt) (i kind st t0 : Nat) (data extra : List Byte) (q : MetQuery) (s : State), s.eng.met.inq = p :: rest → p.body =
    .answer i kind st data extra → s.eng.mets.asked = some (i, t0) → s.eng.mets.queries = [q] → q.hseq = none → kind ≠ 1 → kind ≠ 2 → data.length =
    24 → ∃ t, exec (.metInPacket) s = .next t ∧ s.engineOnly t ∧ t.eng.rd (R.QUE_LEVEL.LEVEL 68) = 32 * rest.length % 65536 ∧ t.eng.on
    R.MET_STATUS.PRESENT = true ∧ t.eng.on R.MET_STATUS.SEAL_OPEN = p.stat.sealOpen ∧ t.eng.on R.MET_STATUS.TIME_SYNC = p.stat.timeSync ∧ t.eng.on
    R.MET_STATUS.FULL = p.stat.full ∧ t.eng.on R.MET_STATUS.FE_FAULT = p.stat.feFault ∧ t.eng.rd R.MET_STATUS.BACKLOG = p.stat.backlog % 65536 ∧
    t.eng.rd R.MET_LABELS.V = p.stat.labels % 32 ∧ t.eng.rd R.MET_Q_CTRL.STATUS = st % 256 ∧ t.eng.on R.MET_Q_CTRL.BUSY = false ∧ (∀ k : Fin 6,
    t.eng.rd (R.MET_Q_RES.V k.val) = leAt data (4 * k.val) 4) ∧
    (({ s.eng with met := { s.eng.met with inq := rest }, mets := { s.eng.mets with lastPkt := s.eng.now, asked := none, queries := [] } } :
    Engine).onlyRegs t.eng ([(R.QUE_LEVEL.LEVEL 68).off, R.MET_STATUS.word.off, R.MET_LABELS.V.off, R.MET_Q_CTRL.word.off] ++ (upTo 6).map fun k =>
    (R.MET_Q_RES.V k).off))) ∧
  (∀ (p : MetPkt) (rest : List MetPkt) (i kind st t0 : Nat) (data extra : List Byte) (q : MetQuery) (n : Nat) (c : OpenCmd) (s : State),
    s.eng.met.inq = p :: rest → p.body = .answer i kind st data extra → s.eng.mets.asked = some (i, t0) → s.eng.mets.queries = [q] → q.hseq = some n
    → kind = 2 → st = stOk → extra.length = 128 → data.length = 24 → (s.eng.opens.find? fun c => c.hseq == n && c.wait != Wait.built) = some c →
    s.eng.hears → ∃ t, exec (.metInPacket) s = .next t ∧ s.engineOnly t ∧ t.eng.rd (R.QUE_LEVEL.LEVEL 68) = 32 * rest.length % 65536 ∧ t.eng.on
    R.MET_STATUS.PRESENT = true ∧ t.eng.on R.MET_STATUS.SEAL_OPEN = p.stat.sealOpen ∧ t.eng.on R.MET_STATUS.TIME_SYNC = p.stat.timeSync ∧ t.eng.on
    R.MET_STATUS.FULL = p.stat.full ∧ t.eng.on R.MET_STATUS.FE_FAULT = p.stat.feFault ∧ t.eng.rd R.MET_STATUS.BACKLOG = p.stat.backlog % 65536 ∧
    t.eng.rd R.MET_LABELS.V = p.stat.labels % 32 ∧ t.eng.answered n c.code stOk ∧ t.eng.toldBytes [(24, 8, c.tag), (32, 1, c.code), (40, 24, fromLe
    data)] ∧ (∀ k : Fin 32, t.eng.rd (R.MET_QREC.V k.val) = leAt extra (4 * k.val) 4) ∧
    (({ s.eng with met := { s.eng.met with inq := rest }, mets := { s.eng.mets with lastPkt := s.eng.now, asked := none, queries := [] } } :
    Engine).onlyBooks t.eng ([(R.QUE_LEVEL.LEVEL 68).off, R.MET_STATUS.word.off, R.MET_LABELS.V.off] ++ (upTo 32).map fun k => (R.MET_QREC.V
    k).off))) ∧
  (∀ (p : MetPkt) (rest : List MetPkt) (kind m d : Nat) (s : State), s.eng.met.inq = p :: rest → p.body = .notice kind m d → kind ≠ 4 → kind ≠ 8 →
    s.eng.hears → ∃ t, exec (.metInPacket) s = .next t ∧ s.engineOnly t ∧ t.eng.rd (R.QUE_LEVEL.LEVEL 68) = 32 * rest.length % 65536 ∧ t.eng.on
    R.MET_STATUS.PRESENT = true ∧ t.eng.on R.MET_STATUS.SEAL_OPEN = p.stat.sealOpen ∧ t.eng.on R.MET_STATUS.TIME_SYNC = p.stat.timeSync ∧ t.eng.on
    R.MET_STATUS.FULL = p.stat.full ∧ t.eng.on R.MET_STATUS.FE_FAULT = p.stat.feFault ∧ t.eng.rd R.MET_STATUS.BACKLOG = p.stat.backlog % 65536 ∧
    t.eng.rd R.MET_LABELS.V = p.stat.labels % 32 ∧ t.eng.told 0x17 kind 0 none 0 ∧ t.eng.toldBytes [(24, 4, m), (28, 4, d)] ∧
    ({ s.eng with met := { s.eng.met with inq := rest }, mets := { s.eng.mets with lastPkt := s.eng.now } } : Engine).onlyBooks t.eng
    [(R.QUE_LEVEL.LEVEL 68).off, R.MET_STATUS.word.off, R.MET_LABELS.V.off]) ∧
  (∀ (p : MetPkt) (rest : List MetPkt) (kind m d : Nat) (s : State), s.eng.met.inq = p :: rest → p.body = .notice kind m d → kind = 8 →
    s.eng.mets.noRec = none → s.eng.hears → ∃ t, exec (.metInPacket) s = .next t ∧ s.engineOnly t ∧ t.eng.rd (R.QUE_LEVEL.LEVEL 68) = 32 *
    rest.length % 65536 ∧ t.eng.on R.MET_STATUS.PRESENT = true ∧ t.eng.on R.MET_STATUS.SEAL_OPEN = p.stat.sealOpen ∧ t.eng.on R.MET_STATUS.TIME_SYNC
    = p.stat.timeSync ∧ t.eng.on R.MET_STATUS.FULL = p.stat.full ∧ t.eng.on R.MET_STATUS.FE_FAULT = p.stat.feFault ∧ t.eng.rd R.MET_STATUS.BACKLOG =
    p.stat.backlog % 65536 ∧ t.eng.rd R.MET_LABELS.V = p.stat.labels % 32 ∧ t.eng.rd R.MET_NOREC_CNT.V = (min (2 ^ 32 - 1) (s.eng.rd
    R.MET_NOREC_CNT.V + 1)) ∧ t.eng.told 0x17 8 0 none 0 ∧ t.eng.toldBytes [(24, 4, 0), (28, 4, (min (2 ^ 32 - 1) (s.eng.rd R.MET_NOREC_CNT.V + 1)))]
    ∧ ({ s.eng with met := { s.eng.met with inq := rest }, mets := { s.eng.mets with lastPkt := s.eng.now, noRec := some s.eng.now } } :
    Engine).onlyBooks t.eng [(R.QUE_LEVEL.LEVEL 68).off, R.MET_STATUS.word.off, R.MET_LABELS.V.off, R.MET_NOREC_CNT.V.off]) ∧
  (∀ (p : MetPkt) (rest : List MetPkt) (kind m d : Nat) (u : Nat) (s : State), s.eng.met.inq = p :: rest → p.body = .notice kind m d → kind = 8 →
    s.eng.mets.noRec = some u → s.eng.now < u + 100000000 → ∃ t, exec (.metInPacket) s = .next t ∧ s.engineOnly t ∧ t.eng.rd (R.QUE_LEVEL.LEVEL 68) =
    32 * rest.length % 65536 ∧ t.eng.on R.MET_STATUS.PRESENT = true ∧ t.eng.on R.MET_STATUS.SEAL_OPEN = p.stat.sealOpen ∧ t.eng.on
    R.MET_STATUS.TIME_SYNC = p.stat.timeSync ∧ t.eng.on R.MET_STATUS.FULL = p.stat.full ∧ t.eng.on R.MET_STATUS.FE_FAULT = p.stat.feFault ∧ t.eng.rd
    R.MET_STATUS.BACKLOG = p.stat.backlog % 65536 ∧ t.eng.rd R.MET_LABELS.V = p.stat.labels % 32 ∧ t.eng.rd R.MET_NOREC_CNT.V = (min (2 ^ 32 - 1)
    (s.eng.rd R.MET_NOREC_CNT.V + 1)) ∧ ({ s.eng with met := { s.eng.met with inq := rest }, mets := { s.eng.mets with lastPkt := s.eng.now } } :
    Engine).onlyRegs t.eng [(R.QUE_LEVEL.LEVEL 68).off, R.MET_STATUS.word.off, R.MET_LABELS.V.off, R.MET_NOREC_CNT.V.off]) ∧
  (∀ (p : MetPkt) (rest : List MetPkt) (kind m d : Nat) (s : State), s.eng.met.inq = p :: rest → p.body = .notice kind m d → kind = 4 →
    (s.eng.mets.fe.getD (d % 8) (none, none)) = (none, none) → s.eng.hears → ∃ t, exec (.metInPacket) s = .next t ∧ s.engineOnly t ∧ t.eng.rd
    (R.QUE_LEVEL.LEVEL 68) = 32 * rest.length % 65536 ∧ t.eng.on R.MET_STATUS.PRESENT = true ∧ t.eng.on R.MET_STATUS.SEAL_OPEN = p.stat.sealOpen ∧
    t.eng.on R.MET_STATUS.TIME_SYNC = p.stat.timeSync ∧ t.eng.on R.MET_STATUS.FULL = p.stat.full ∧ t.eng.on R.MET_STATUS.FE_FAULT = p.stat.feFault ∧
    t.eng.rd R.MET_STATUS.BACKLOG = p.stat.backlog % 65536 ∧ t.eng.rd R.MET_LABELS.V = p.stat.labels % 32 ∧ t.eng.told 0x17 4 0 none 0 ∧
    t.eng.toldBytes [(24, 4, 0), (28, 4, d)] ∧
    (({ s.eng with met := { s.eng.met with inq := rest }, mets := { s.eng.mets with lastPkt := s.eng.now, fe := modAt s.eng.mets.fe (d % 8) fun _ => (some s.eng.now, none) } }
    : Engine).onlyBooks t.eng [(R.QUE_LEVEL.LEVEL 68).off, R.MET_STATUS.word.off, R.MET_LABELS.V.off])) ∧
  (∀ (p : MetPkt) (rest : List MetPkt) (kind m d : Nat) (u : Nat) (h : Option Nat) (s : State), s.eng.met.inq = p :: rest → p.body = .notice kind m d
    → kind = 4 → (s.eng.mets.fe.getD (d % 8) (none, none)) = (some u, h) → s.eng.now < u + 100000000 → ∃ t, exec (.metInPacket) s = .next t ∧
    s.engineOnly t ∧ t.eng.rd (R.QUE_LEVEL.LEVEL 68) = 32 * rest.length % 65536 ∧ t.eng.on R.MET_STATUS.PRESENT = true ∧ t.eng.on
    R.MET_STATUS.SEAL_OPEN = p.stat.sealOpen ∧ t.eng.on R.MET_STATUS.TIME_SYNC = p.stat.timeSync ∧ t.eng.on R.MET_STATUS.FULL = p.stat.full ∧
    t.eng.on R.MET_STATUS.FE_FAULT = p.stat.feFault ∧ t.eng.rd R.MET_STATUS.BACKLOG = p.stat.backlog % 65536 ∧ t.eng.rd R.MET_LABELS.V =
    p.stat.labels % 32 ∧
    (({ s.eng with met := { s.eng.met with inq := rest }, mets := { s.eng.mets with lastPkt := s.eng.now, fe := modAt s.eng.mets.fe (d % 8) fun _ => (some u, some (h.getD 0 ||| d)) } }
    : Engine).onlyRegs t.eng [(R.QUE_LEVEL.LEVEL 68).off, R.MET_STATUS.word.off, R.MET_LABELS.V.off])) ∧
  (∀ (n : Fin 8) (u d : Nat) (s : State), s.eng.mets.fe.getD n.val (none, none) = (some u, some d) → u + 100000000 ≤ s.eng.now → s.eng.hears → ∃ t,
    exec (.feFaultNoticeHoldoff n) s = .next t ∧ s.engineOnly t ∧ t.eng.told 0x17 4 0 none 0 ∧ t.eng.toldBytes [(24, 4, 0), (28, 4, d)] ∧
    (({ s.eng with mets := { s.eng.mets with fe := modAt s.eng.mets.fe n.val fun _ => (some s.eng.now, none) } } : Engine).onlyBooks t.eng [])) ∧
  (∀ (n : Fin 8) (s : State), (s.eng.mets.fe.getD n.val (none, none)).2 = none → ∃ t, exec (.feFaultNoticeHoldoff n) s = .next t ∧ s.engineOnly t ∧
    t.eng = s.eng) ∧
  (∀ (s : State), s.eng.mets.lastSync + 10000000 ≤ s.eng.now → ∃ t, exec (.syncSend) s = .next t ∧ s.engineOnly t ∧ t.eng =
    { s.eng with mets := { s.eng.mets with lastSync := s.eng.now }, met := { s.eng.met with cmd := s.eng.met.cmd ++ [.sync s.eng.now] } }) ∧
  (∀ (s : State), s.eng.now < s.eng.mets.lastSync + 10000000 → ∃ t, exec (.syncSend) s = .next t ∧ s.engineOnly t ∧ t.eng = s.eng) ∧
  (∀ (s : State), s.eng.on R.MET_STATUS.PRESENT = true → s.eng.mets.lastPkt + 1000000000 ≤ s.eng.now → s.eng.hears → ∃ t, exec (.sectionSilent) s =
    .next t ∧ s.engineOnly t ∧ t.eng.on R.MET_STATUS.PRESENT = false ∧ t.eng.told 0x17 10 0 none 0 ∧ t.eng.toldBytes [(24, 4, 0), (28, 4, 0)] ∧
    s.eng.onlyBooks t.eng [R.MET_STATUS.word.off]) ∧
  (∀ (s : State), (s.eng.on R.MET_STATUS.PRESENT = false ∨ s.eng.now < s.eng.mets.lastPkt + 1000000000) → ∃ t, exec (.sectionSilent) s = .next t ∧
    s.engineOnly t ∧ t.eng = s.eng)

/-- The section takes the packet at the head of MET_CMD by its type. IDENT answers firmware, audit, MSEQ and seal; PUBKEY the KEY_ID and the key;
RECORD the stored record or REJECTED_PARAM; LABEL queues the label, or answers REJECTED_STATE with sixteen queued; TEMPS the temperatures. ACK marks
the record, SYNC sets the time of the latest SYNC, PEER gives a verified record to the first piece without one whose LE_PITCH matches within 2. A
discarded packet counts in MET_CMD_REJ. A packet of another type is left alone. -/
def Obligations.SectionCommandPackets : Prop :=
  (∀ (s : State), s.eng.met.cmd.head?.all (fun c => match c with | .query _ _ _ => false | _ => true) = true → ∃ t, exec (.sectionQuery) s = .next t
    ∧ t = s) ∧
  (∀ (s : State), s.eng.met.cmd.head?.all (fun c => match c with | .ack _ => false | _ => true) = true → ∃ t, exec (.sectionAck) s = .next t ∧ t = s) ∧
  (∀ (s : State), s.eng.met.cmd.head?.all (fun c => match c with | .sync _ => false | _ => true) = true → ∃ t, exec (.sectionSync) s = .next t ∧ t =
    s) ∧
  (∀ (s : State), s.eng.met.cmd.head?.all (fun c => match c with | .peer _ => false | _ => true) = true → ∃ t, exec (.sectionPeer) s = .next t ∧ t =
    s) ∧
  (∀ (id arg : Nat) (rest : List MetCmd) (s : State), s.eng.met.cmd = .query id 0 arg :: rest → s.eng.met.inq.length < 32 → ∃ t, exec (.sectionQuery)
    s = .next t ∧ t.sec = s.sec ∧ t.eng.met.inq = s.eng.met.inq ++ [⟨.answer id 0 stOk (layBytes 24 [(0, 4, s.sec.fwVer), (4, 4, s.sec.fwCrc), (8, 4,
    s.sec.audit), (12, 4, s.sec.mseq), (16, 1, b2n s.sec.sealOpen)]) [], t.sec.stat s.eng.secNow⟩] ∧ t.eng.rd (R.QUE_LEVEL.LEVEL 68) = 32 *
    (s.eng.met.inq.length + 1) ∧ ({ s.eng with met := { s.eng.met with cmd := rest, inq := t.eng.met.inq } } : Engine).onlyRegs t.eng
    [(R.QUE_LEVEL.LEVEL 68).off] ∧ (t.stg = s.stg ∧ t.pending = s.pending)) ∧
  (∀ (id arg : Nat) (rest : List MetCmd) (s : State), s.eng.met.cmd = .query id 1 arg :: rest → s.eng.met.inq.length < 32 → ∃ t, exec (.sectionQuery)
    s = .next t ∧ t.sec = s.sec ∧ t.eng.met.inq = s.eng.met.inq ++ [⟨.answer id 1 stOk (layBytes 24 [(0, 4, s.sec.keyId)]) s.sec.keyBytes, t.sec.stat
    s.eng.secNow⟩] ∧ t.eng.rd (R.QUE_LEVEL.LEVEL 68) = 32 * (s.eng.met.inq.length + 1) ∧
    ({ s.eng with met := { s.eng.met with cmd := rest, inq := t.eng.met.inq } } : Engine).onlyRegs t.eng [(R.QUE_LEVEL.LEVEL 68).off] ∧ (t.stg =
    s.stg ∧ t.pending = s.pending)) ∧
  (∀ (id arg : Nat) (rest : List MetCmd) (r : SecRec) (s : State), s.eng.met.cmd = .query id 2 arg :: rest → s.eng.met.inq.length < 32 →
    (s.sec.store.find? fun r => r.mseq == arg) = some r → ∃ t, exec (.sectionQuery) s = .next t ∧ t.sec = s.sec ∧ t.eng.met.inq = s.eng.met.inq ++
    [⟨.answer id 2 stOk (layBytes 24 []) r.bytes, t.sec.stat s.eng.secNow⟩] ∧ t.eng.rd (R.QUE_LEVEL.LEVEL 68) = 32 * (s.eng.met.inq.length + 1) ∧
    ({ s.eng with met := { s.eng.met with cmd := rest, inq := t.eng.met.inq } } : Engine).onlyRegs t.eng [(R.QUE_LEVEL.LEVEL 68).off] ∧ (t.stg =
    s.stg ∧ t.pending = s.pending)) ∧
  (∀ (id arg : Nat) (rest : List MetCmd) (s : State), s.eng.met.cmd = .query id 2 arg :: rest → s.eng.met.inq.length < 32 → (s.sec.store.find? fun r
    => r.mseq == arg) = none → ∃ t, exec (.sectionQuery) s = .next t ∧ t.sec = s.sec ∧ t.eng.met.inq = s.eng.met.inq ++ [⟨.answer id 2
    stRejectedParam (layBytes 24 []) [], t.sec.stat s.eng.secNow⟩] ∧ t.eng.rd (R.QUE_LEVEL.LEVEL 68) = 32 * (s.eng.met.inq.length + 1) ∧
    ({ s.eng with met := { s.eng.met with cmd := rest, inq := t.eng.met.inq } } : Engine).onlyRegs t.eng [(R.QUE_LEVEL.LEVEL 68).off] ∧ (t.stg =
    s.stg ∧ t.pending = s.pending)) ∧
  (∀ (id arg : Nat) (rest : List MetCmd) (s : State), s.eng.met.cmd = .query id 3 arg :: rest → s.eng.met.inq.length < 32 → s.sec.labels.length < 16
    → ∃ t, exec (.sectionQuery) s = .next t ∧ t.sec = { s.sec with labels := s.sec.labels ++ [arg] } ∧ t.eng.met.inq = s.eng.met.inq ++ [⟨.answer id
    3 stOk (layBytes 24 []) [], t.sec.stat s.eng.secNow⟩] ∧ t.eng.rd (R.QUE_LEVEL.LEVEL 68) = 32 * (s.eng.met.inq.length + 1) ∧
    ({ s.eng with met := { s.eng.met with cmd := rest, inq := t.eng.met.inq } } : Engine).onlyRegs t.eng [(R.QUE_LEVEL.LEVEL 68).off] ∧ (t.stg =
    s.stg ∧ t.pending = s.pending)) ∧
  (∀ (id arg : Nat) (rest : List MetCmd) (s : State), s.eng.met.cmd = .query id 3 arg :: rest → s.eng.met.inq.length < 32 → 16 ≤ s.sec.labels.length
    → ∃ t, exec (.sectionQuery) s = .next t ∧ t.sec = s.sec ∧ t.eng.met.inq = s.eng.met.inq ++ [⟨.answer id 3 stRejectedState (layBytes 24 []) [],
    t.sec.stat s.eng.secNow⟩] ∧ t.eng.rd (R.QUE_LEVEL.LEVEL 68) = 32 * (s.eng.met.inq.length + 1) ∧
    ({ s.eng with met := { s.eng.met with cmd := rest, inq := t.eng.met.inq } } : Engine).onlyRegs t.eng [(R.QUE_LEVEL.LEVEL 68).off] ∧ (t.stg =
    s.stg ∧ t.pending = s.pending)) ∧
  (∀ (id arg : Nat) (rest : List MetCmd) (s : State), s.eng.met.cmd = .query id 4 arg :: rest → s.eng.met.inq.length < 32 → ∃ t, exec (.sectionQuery)
    s = .next t ∧ t.sec = s.sec ∧ (t.eng.met.inq = s.eng.met.inq ++ [⟨.answer id 4 stOk ((layBytes 24 ((s.sec.fe.temps.zipIdx).map fun t => (2 * t.2,
    2, t.1)))) [], t.sec.stat s.eng.secNow⟩]) ∧ t.eng.rd (R.QUE_LEVEL.LEVEL 68) = 32 * (s.eng.met.inq.length + 1) ∧
    ({ s.eng with met := { s.eng.met with cmd := rest, inq := t.eng.met.inq } } : Engine).onlyRegs t.eng [(R.QUE_LEVEL.LEVEL 68).off] ∧ (t.stg =
    s.stg ∧ t.pending = s.pending)) ∧
  (∀ (m : Nat) (rest : List MetCmd) (s : State), s.eng.met.cmd = .ack m :: rest → ∃ t, exec (.sectionAck) s = .next t ∧ (t.sec =
    { s.sec with store := s.sec.store.map (fun r => if r.mseq = m then { r with acked := true } else r), highAck := if s.sec.store.any (fun r => r.mseq == m) then max s.sec.highAck m else s.sec.highAck })
    ∧ t.eng = { s.eng with met := { s.eng.met with cmd := rest } } ∧ (t.stg = s.stg ∧ t.pending = s.pending)) ∧
  (∀ (u : Nat) (rest : List MetCmd) (s : State), s.eng.met.cmd = .sync u :: rest → ∃ t, exec (.sectionSync) s = .next t ∧ t.sec =
    { s.sec with sync := some (s.eng.secNow - (s.eng.now - u), u) } ∧ t.eng = { s.eng with met := { s.eng.met with cmd := rest } } ∧ (t.stg = s.stg ∧
    t.pending = s.pending)) ∧
  (∀ (b : List Byte) (rest : List MetCmd) (s : State), s.eng.met.cmd = .peer b :: rest → ∃ t, exec (.sectionPeer) s = .next t ∧ (t.sec =
    { s.sec with pieces := if (s.sec.params.pairing && b.length == 128 && ecdsaVerify (s.sec.params.peerX, s.sec.params.peerY) (sha256 (b.take 64)) (fromLe (sliceBytes b 64 32).reverse, fromLe (sliceBytes b 96 32).reverse)) = true then ((s.sec.pieces.findIdx? fun p => p.peer.isNone && Section.pitchNear p.lePitch (leAt b 12 4)).map fun i => modAt s.sec.pieces i fun p => { p with peer := some b }).getD s.sec.pieces else s.sec.pieces })
    ∧ t.eng = { s.eng with met := { s.eng.met with cmd := rest } } ∧ (t.stg = s.stg ∧ t.pending = s.pending)) ∧
  (∀ (s : State), ∃ t, exec (.metCmdRej) s = .next t ∧ s.engineOnly t ∧ t.eng.rd R.MET_CMD_REJ.V = min (2 ^ 32 - 1) (s.eng.rd R.MET_CMD_REJ.V + 1) ∧
    s.eng.onlyRegs t.eng [R.MET_CMD_REJ.V.off])

/-- The section uses a line of its side without failed checks, beyond every position used: sixteen lines give the backing level, rounded to nearest;
with it, a document value opens a piece with the oldest label, and enough lines in a row without any close it (how many is the implementation's, log
36). A piece that is ready, and has its peer's record where pairing asks one or waited 50 ms, becomes the record of R299 with the next MSEQ, signed
over its first 64 bytes, stored and sent; with 4,096 unacknowledged it leaves without record and MSEQ. The oldest record unacknowledged 5 ms after it
was sent goes out again and counts. -/
def Obligations.SectionRecords : Prop :=
  (∀ (side : Side) (s : State), s.eng.met.tap.getD side.val [] = [] → ∃ t, exec (.sectionTapLine side) s = .next t ∧ t = s) ∧
  (∀ (side : Side) (b : TapLine) (more : List TapLine) (s : State), s.eng.met.tap.getD side.val [] = b :: more → (b.side ≠ s.sec.params.side ∨
    b.chk.getD s.sec.params.tapSel 0 ≠ 0) → ∃ t, exec (.sectionTapLine side) s = .next t ∧ (t.sec =
    { s.sec with latches := (s.sec.latches.filter fun l => !(l.1 == b.side && decide (l.2.1 ≤ b.time))) }) ∧ (t.eng =
    { s.eng with met := { s.eng.met with tap := modAt s.eng.met.tap side.val fun q => q.drop 1 } }) ∧ (t.stg = s.stg ∧ t.pending = s.pending)) ∧
  (∀ (side : Side) (b : TapLine) (more : List TapLine) (l : Nat × Nat × Int) (u : Int) (s : State), s.eng.met.tap.getD side.val [] = b :: more →
    (s.sec.latches.find? fun l => l.1 == b.side && l.2.1 == b.time) = some l → s.sec.used = some u → l.2.2 ≤ u → ∃ t, exec (.sectionTapLine side) s =
    .next t ∧ (t.sec = { s.sec with latches := (s.sec.latches.filter fun l => !(l.1 == b.side && decide (l.2.1 ≤ b.time))) }) ∧ (t.eng =
    { s.eng with met := { s.eng.met with tap := modAt s.eng.met.tap side.val fun q => q.drop 1 } }) ∧ (t.stg = s.stg ∧ t.pending = s.pending)) ∧
  (∀ (side : Side) (b : TapLine) (more : List TapLine) (l : Nat × Nat × Int) (s : State), s.eng.met.tap.getD side.val [] = b :: more → b.side =
    s.sec.params.side → b.chk.getD s.sec.params.tapSel 0 = 0 → (s.sec.latches.find? fun l => l.1 == b.side && l.2.1 == b.time) = some l →
    s.sec.used.getD (l.2.2 - 1) < l.2.2 → s.sec.learnN < 16 → ∃ t, exec (.sectionTapLine side) s = .next t ∧ (t.sec =
    { s.sec with latches := (s.sec.latches.filter fun l => !(l.1 == b.side && decide (l.2.1 ≤ b.time))), learnN := s.sec.learnN + 1, learnSum := s.sec.learnSum + (sumNat (b.rows.getD s.sec.params.tapSel []) : Nat), back := if s.sec.learnN = 15 then (s.sec.learnSum + (sumNat (b.rows.getD s.sec.params.tapSel []) : Nat) + 7680) / 15360 else s.sec.back })
    ∧ (t.eng = { s.eng with met := { s.eng.met with tap := modAt s.eng.met.tap side.val fun q => q.drop 1 } }) ∧ (t.stg = s.stg ∧ t.pending =
    s.pending)) ∧
  (∀ (side : Side) (b : TapLine) (more : List TapLine) (l : Nat × Nat × Int) (s : State), s.eng.met.tap.getD side.val [] = b :: more → b.side =
    s.sec.params.side → b.chk.getD s.sec.params.tapSel 0 = 0 → (s.sec.latches.find? fun l => l.1 == b.side && l.2.1 == b.time) = some l →
    s.sec.used.getD (l.2.2 - 1) < l.2.2 → 16 ≤ s.sec.learnN → 400 ≤ s.sec.back → s.sec.back ≤ 3900 → s.sec.pieces = [] → (s.sec.docValues
    (s.sec.contrasts (b.rows.getD s.sec.params.tapSel []))).any id = true → ∃ t, exec (.sectionTapLine side) s = .next t ∧ (t.sec.pieces.map (fun p
    => (p.label, p.notLegal, p.lePitch, p.closed, p.first, p.last)) = [(s.sec.labels.headD 0, s.sec.sealOpen, b.pitch, false, l.2.2, l.2.2)]) ∧
    (t.sec =
    { s.sec with latches := (s.sec.latches.filter fun l => !(l.1 == b.side && decide (l.2.1 ≤ b.time))), used := some l.2.2, doc := (s.sec.docValues (s.sec.contrasts (b.rows.getD s.sec.params.tapSel []))), line := some ⟨l.2.2, b.time, s.sec.contrasts (b.rows.getD s.sec.params.tapSel [])⟩, back := s.sec.back, pieces := t.sec.pieces, labels := s.sec.labels.drop 1, free := t.sec.free })
    ∧ (t.eng = { s.eng with met := { s.eng.met with tap := modAt s.eng.met.tap side.val fun q => q.drop 1 } }) ∧ (t.stg = s.stg ∧ t.pending =
    s.pending)) ∧
  (∀ (side : Side) (b : TapLine) (more : List TapLine) (l : Nat × Nat × Int) (p : Piece) (s : State), s.eng.met.tap.getD side.val [] = b :: more →
    b.side = s.sec.params.side → b.chk.getD s.sec.params.tapSel 0 = 0 → (s.sec.latches.find? fun l => l.1 == b.side && l.2.1 == b.time) = some l →
    s.sec.used.getD (l.2.2 - 1) < l.2.2 → 16 ≤ s.sec.learnN → 400 ≤ s.sec.back → s.sec.back ≤ 3900 → s.sec.pieces = [p] → p.closed = false →
    (s.sec.docValues (s.sec.contrasts (b.rows.getD s.sec.params.tapSel []))).any id = false → ∃ t, exec (.sectionTapLine side) s = .next t ∧
    (t.sec.pieces.map (fun p => (p.label, p.notLegal, p.lePitch, p.closed, p.first, p.last)) = [(p.label, p.notLegal, p.lePitch, decide (max 1
    Config.sectionConfirm ≤ p.gap + 1), p.first, if p.gap = 0 then l.2.2 else p.last)]) ∧ (t.sec =
    { s.sec with latches := (s.sec.latches.filter fun l => !(l.1 == b.side && decide (l.2.1 ≤ b.time))), used := some l.2.2, doc := (s.sec.docValues (s.sec.contrasts (b.rows.getD s.sec.params.tapSel []))), line := some ⟨l.2.2, b.time, s.sec.contrasts (b.rows.getD s.sec.params.tapSel [])⟩, back := s.sec.back + Int.fdiv ((sumNat (b.rows.getD s.sec.params.tapSel []) : Nat) + 960 * (32 - s.sec.back)) (960 * 64), pieces := t.sec.pieces, labels := s.sec.labels, free := t.sec.free })
    ∧ (t.eng = { s.eng with met := { s.eng.met with tap := modAt s.eng.met.tap side.val fun q => q.drop 1 } }) ∧ (t.stg = s.stg ∧ t.pending =
    s.pending)) ∧
  (∀ (s : State), (s.sec.pieces.head?.bind fun p => p.ready) = none → ∃ t, exec (.recordSend) s = .next t ∧ t = s) ∧
  (∀ (p : Piece) (rest : List Piece) (u : Nat) (s : State), s.sec.pieces = p :: rest → p.ready = some u → s.sec.params.pairing = true → p.peer = none
    → s.eng.secNow < u + 50000000 → ∃ t, exec (.recordSend) s = .next t ∧ t = s) ∧
  (∀ (p : Piece) (rest : List Piece) (u : Nat) (s : State), s.sec.pieces = p :: rest → p.ready = some u → (s.sec.params.pairing = false ∨ p.peer ≠
    none ∨ u + 50000000 ≤ s.eng.secNow) → s.sec.backlog < 4096 → s.sec.store.length < 4096 → s.eng.met.inq.length < 29 → ∃ t, exec (.recordSend) s =
    .next t ∧ (∀ head : List Byte, head = (layBytes 64 [(0, 4, s.sec.mseq + 1), (4, 2, 1), (6, 2, Section.flagsOf
    { p with notLegal := p.notLegal || !s.sec.paramOk } (s.sec.measure p) ((p.peer.map (Section.peerFields (s.sec.measure p))).getD (0, [0, 0, 0],
    false)).2.2 (s.sec.params.pairing && p.peer.isNone)), (8, 4, p.label), (12, 4, p.lePitch), (16, 2, ofSigned 16 (s.sec.measure p).l), (18, 2,
    ofSigned 16 (s.sec.measure p).h), (20, 2, ofSigned 16 (s.sec.measure p).t), (22, 2, ofSigned 16 (divNearest ((s.sec.measure p).theta * 18000)
    Section.piFix)), (24, 2, (ratNear p.vLe).toNat), (26, 2, (ratNear p.vTe).toNat), (28, 4, s.sec.audit), (32, 4, s.sec.fwVer), (36, 4,
    s.sec.fwCrc), (40, 8, p.time), (48, 4, ((p.peer.map (Section.peerFields (s.sec.measure p))).getD (0, [0, 0, 0], false)).1), (52, 1, Section.sByte
    (((p.peer.map (Section.peerFields (s.sec.measure p))).getD (0, [0, 0, 0], false)).2.1.getD 0 0)), (53, 1, Section.sByte (((p.peer.map
    (Section.peerFields (s.sec.measure p))).getD (0, [0, 0, 0], false)).2.1.getD 1 0)), (54, 1, Section.sByte (((p.peer.map (Section.peerFields
    (s.sec.measure p))).getD (0, [0, 0, 0], false)).2.1.getD 2 0)), (55, 1, s.sec.params.side), (56, 4, s.sec.keyId)]) → t.sec =
    { s.sec with pieces := rest, mseq := s.sec.mseq + 1, store := s.sec.store ++ [⟨s.sec.mseq + 1, (head ++ beBytes 32 (ecdsaSign (Config.sectionKey s.sec.keyGen) (Config.sectionFree s.sec.free) (sha256 head)).1 ++ beBytes 32 (ecdsaSign (Config.sectionKey s.sec.keyGen) (Config.sectionFree s.sec.free) (sha256 head)).2), false, some s.eng.secNow⟩], thick := t.sec.thick, free := s.sec.free + 1 }
    ∧ t.eng.met.inq = s.eng.met.inq ++ (.record (s.sec.mseq + 1) (head ++ beBytes 32 (ecdsaSign (Config.sectionKey s.sec.keyGen) (Config.sectionFree
    s.sec.free) (sha256 head)).1 ++ beBytes 32 (ecdsaSign (Config.sectionKey s.sec.keyGen) (Config.sectionFree s.sec.free) (sha256 head)).2) ::
    Section.recordNotices p (s.sec.mseq + 1) ((p.peer.map (Section.peerFields (s.sec.measure p))).getD (0, [0, 0, 0], false)) (s.sec.params.pairing
    && p.peer.isNone)).map fun m => ⟨m, t.sec.stat s.eng.secNow⟩) ∧ t.eng.rd (R.QUE_LEVEL.LEVEL 68) = 32 * t.eng.met.inq.length ∧
    ({ s.eng with met := { s.eng.met with inq := t.eng.met.inq } } : Engine).onlyRegs t.eng [(R.QUE_LEVEL.LEVEL 68).off] ∧ (t.stg = s.stg ∧ t.pending
    = s.pending)) ∧
  (∀ (p : Piece) (rest : List Piece) (u : Nat) (s : State), s.sec.pieces = p :: rest → p.ready = some u → s.sec.params.pairing = false → 4096 ≤
    s.sec.backlog → s.eng.met.inq.length < 32 → ∃ t, exec (.recordSend) s = .next t ∧ t.sec = { s.sec with pieces := rest, thick := t.sec.thick } ∧
    t.eng.met.inq = s.eng.met.inq ++ [⟨.notice 8 0 0, t.sec.stat s.eng.secNow⟩] ∧ t.eng.rd (R.QUE_LEVEL.LEVEL 68) = 32 * (s.eng.met.inq.length + 1) ∧
    ({ s.eng with met := { s.eng.met with inq := t.eng.met.inq } } : Engine).onlyRegs t.eng [(R.QUE_LEVEL.LEVEL 68).off] ∧ (t.stg = s.stg ∧ t.pending
    = s.pending)) ∧
  (∀ (r : SecRec) (s : State), (s.sec.store.find? fun r => !r.acked && (r.sent.all fun t => decide (t + 5000000 ≤ s.eng.secNow))) = some r →
    s.eng.met.inq.length < 32 → ∃ t, exec (.recordRetransmit) s = .next t ∧ (t.sec =
    { s.sec with store := s.sec.store.map fun q => if q.mseq = r.mseq then { q with sent := some s.eng.secNow } else q }) ∧ t.eng.rd R.MET_RETX_CNT.V
    = min (2 ^ 32 - 1) (s.eng.rd R.MET_RETX_CNT.V + 1) ∧ t.eng.met.inq = s.eng.met.inq ++ [⟨.record r.mseq r.bytes, t.sec.stat s.eng.secNow⟩] ∧
    t.eng.rd (R.QUE_LEVEL.LEVEL 68) = 32 * (s.eng.met.inq.length + 1) ∧ ({ s.eng with met := { s.eng.met with inq := t.eng.met.inq } } :
    Engine).onlyRegs t.eng [(R.QUE_LEVEL.LEVEL 68).off, R.MET_RETX_CNT.V.off] ∧ (t.stg = s.stg ∧ t.pending = s.pending)) ∧
  (∀ (s : State), s.sec.store.all (fun r => r.acked) = true → ∃ t, exec (.recordRetransmit) s = .next t ∧ t = s)

/-- Opening the seal marks every piece not legal, sets SEAL_OPEN and is told; closing it stores map and parameters, counts the audit counter where
they differ from what was stored, sends identification and the notice with it (PARAM_INVALID before them where a CRC does not match, the parameter
block's outcome being free, log 36) and ends M11 with cause SEAL. Port writes, images and key regeneration act with the seal open alone, and the port
answers whether they did (the offsets of the parameters outside the map are the model's, log 38). A restart takes the stored map and parameters and a
new image, drops pieces and labels, and sends identification and notice. -/
def Obligations.SectionSecurity : Prop :=
  (∀ (s : State), s.sec.sealOpen = true → ∃ t, exec (.sealOpen) s = .next t ∧ t = s) ∧
  (∀ (s : State), s.sec.sealOpen = false → s.eng.hears → ∃ t, exec (.sealOpen) s = .next t ∧ (t.sec =
    { s.sec with sealOpen := true, pieces := s.sec.pieces.map fun p => { p with notLegal := true } }) ∧ t.eng.on R.MET_STATUS.SEAL_OPEN = true ∧
    t.eng.told 0x17 1 0 none 0 ∧ t.eng.toldBytes [(24, 4, 0), (28, 4, 0)] ∧
    (({ s.eng with met := { s.eng.met with inq := s.eng.met.inq.map fun p => { p with stat := { p.stat with sealOpen := true } } } } :
    Engine).onlyBooks t.eng [R.MET_STATUS.word.off]) ∧ (t.stg = s.stg ∧ t.pending = s.pending)) ∧
  (∀ (s : State), s.sec.sealOpen = false → ∃ t, exec (.sealClose) s = .next t ∧ t = s) ∧
  (∀ (s : State), s.sec.sealOpen = true → s.eng.mode ≠ .m11 → ∃ t, exec (.sealClose) s = .next t ∧ (t.sec =
    { s.sec with sealOpen := false, stored := Section.configOf s.sec.regs, storedParams := s.sec.params, audit := (if Section.configOf s.sec.regs = Section.configOf s.sec.stored ∧ s.sec.params = s.sec.storedParams then s.sec.audit else s.sec.audit + 1), pieces := t.sec.pieces, fe := t.sec.fe, paramOk := s.sec.takeFree.1 % 2 == 0, free := s.sec.free + 1 })
    ∧ t.eng.on R.MET_STATUS.SEAL_OPEN = false ∧ ((t.eng.met.inq.reverse.take 2).map (fun p => p.body) = [.notice 2 0 t.sec.audit, t.sec.identPkt]) ∧
    ({ s.eng with met := { s.eng.met with inq := t.eng.met.inq } } : Engine).onlyRegs t.eng [(R.QUE_LEVEL.LEVEL 68).off, (R.QUE_LOST.V 68).off,
    R.MET_STATUS.word.off] ∧ (t.stg = s.stg ∧ t.pending = s.pending)) ∧
  (∀ (s : State), s.sec.sealOpen = true → s.eng.mode ≠ .m11 → (crc32c (((upTo 12).map fun k => leBytes 4 (s.sec.rd (R.MET_POLY.V k))).flatten)).toNat
    ≠ s.sec.rd R.MET_POLY_CRC.V → s.eng.met.inq.length < 28 → (∀ n : Fin 4, s.sec.actOn (R.MET_TH_CFG.EN n.val) = false) → s.sec.fe.th = [false,
    false, false, false] → ∃ t, exec (.sealClose) s = .next t ∧ ((t.eng.met.inq.drop s.eng.met.inq.length).map (fun p => p.body) = (if
    s.sec.takeFree.1 % 2 = 0 then [] else [.notice 3 0 0]) ++ [.notice 3 0 0, t.sec.identPkt, .notice 2 0 t.sec.audit]) ∧ t.sec.fe.polyOk = false) ∧
  (∀ (s : State), s.sec.sealOpen = true → s.eng.mode = .m11 → s.eng.roomy → ∃ t, exec (.sealClose) s = .next t ∧ (t.sec =
    { s.sec with sealOpen := false, stored := Section.configOf s.sec.regs, storedParams := s.sec.params, audit := (if Section.configOf s.sec.regs = Section.configOf s.sec.stored ∧ s.sec.params = s.sec.storedParams then s.sec.audit else s.sec.audit + 1), pieces := t.sec.pieces, fe := t.sec.fe, paramOk := s.sec.takeFree.1 % 2 == 0, free := s.sec.free + 1 })
    ∧ t.eng.mode = .m3 ∧ s.eng.says t.eng 0x15 3 0 none (11 + 256 * 12) ∧ (t.stg = s.stg ∧ t.pending = s.pending)) ∧
  (∀ (off : BitVec 16) (value hw : Word) (s : State), (s.sec.sealOpen = false ∨ off.toNat % 4 ≠ 0) → ∃ t, exec (.servicePortWrite off ⟨value, hw⟩) s
    = .next t ∧ t.sec = { s.sec with portAns := some false } ∧ (t.eng = s.eng ∧ t.stg = s.stg ∧ t.pending = s.pending)) ∧
  (∀ (off : BitVec 16) (value hw : Word) (r : RegSpec) (ix : List Nat) (s : State), s.sec.sealOpen = true → off.toNat % 4 = 0 → off.toNat < 0x200 →
    RegMap.findIn RegMap.secRegs (0x200000 + off.toNat) = some (r, ix) → (off.toNat ≠ 4 ∨ s.sec.on R.MET_CONV_CTRL.SEQ_EN = false) → ∃ t, exec
    (.servicePortWrite off ⟨value, hw⟩) s = .next t ∧ (∀ f ∈ r.fields, t.sec.rd ⟨0x200000 + off.toNat, f.hi, f.lo⟩ = written f true (s.sec.rd
    ⟨0x200000 + off.toNat, f.hi, f.lo⟩) ((⟨0, f.hi, f.lo⟩ : Fld).get value) ((⟨0, f.hi, f.lo⟩ : Fld).get hw)) ∧ (t.sec =
    { s.sec with regs := t.sec.regs, fe := { s.sec.fe with ins := t.sec.fe.ins }, portAns := some true } ∧ ∀ o, o ≠ 0x200000 + off.toNat → t.sec.word
    o = s.sec.word o) ∧ (t.sec.fe.ins = (if 0x10 ≤ off.toNat ∧ off.toNat < 0x30 ∧ ¬(s.sec.on (R.MET_IN_CFG.EN ((off.toNat - 0x10) / 4)) = true ∧
    s.sec.on (R.MET_IN_CFG.SEC ((off.toNat - 0x10) / 4)) = true) then modAt s.sec.fe.ins ((off.toNat - 0x10) / 4) (fun n =>
    { n with turn := s.eng.secNow }) else s.sec.fe.ins)) ∧ (t.eng = s.eng ∧ t.stg = s.stg ∧ t.pending = s.pending)) ∧
  (∀ (off : BitVec 16) (value hw : Word) (s : State), s.sec.sealOpen = true → off.toNat = 4 → s.sec.on R.MET_CONV_CTRL.SEQ_EN = true → ∃ t, exec
    (.servicePortWrite off ⟨value, hw⟩) s = .next t ∧ t.sec.rd R.MET_CONV_CH.CH = s.sec.rd R.MET_CONV_CH.CH ∧ t.sec.rd R.MET_CONV_CH.GAIN =
    R.MET_CONV_CH.GAIN.get value ∧ (t.sec = { s.sec with regs := t.sec.regs, fe := { s.sec.fe with ins := t.sec.fe.ins }, portAns := some true } ∧ ∀
    o, o ≠ 0x200000 + off.toNat → t.sec.word o = s.sec.word o) ∧ t.sec.fe.ins = s.sec.fe.ins ∧ (t.eng = s.eng ∧ t.stg = s.stg ∧ t.pending =
    s.pending)) ∧
  (∀ (off : BitVec 16) (value hw : Word) (s : State), s.sec.sealOpen = true → off.toNat = 0x200 → ∃ t, exec (.servicePortWrite off ⟨value, hw⟩) s =
    .next t ∧ t.sec = { s.sec with params := { s.sec.params with sL := value.toNat }, portAns := some true } ∧ (t.eng = s.eng ∧ t.stg = s.stg ∧
    t.pending = s.pending)) ∧
  (∀ (off : BitVec 16) (value hw : Word) (s : State), s.sec.sealOpen = true → off.toNat = 0x218 → ∃ t, exec (.servicePortWrite off ⟨value, hw⟩) s =
    .next t ∧ t.sec = { s.sec with params := { s.sec.params with pairing := bitOf value.toNat 0 }, portAns := some true } ∧ (t.eng = s.eng ∧ t.stg =
    s.stg ∧ t.pending = s.pending)) ∧
  (∀ (image : List Byte) (s : State), ∃ t, exec (.sectionFwInstall image) s = .next t ∧ t.sec = (if s.sec.sealOpen && Config.sectionImageOk image
    then
    { s.sec with newFw := some (Config.sectionImageVersion image % 2 ^ 32, (crc32c image).toNat), audit := s.sec.audit + 1, portAns := some true }
    else { s.sec with portAns := some false }) ∧ (t.eng = s.eng ∧ t.stg = s.stg ∧ t.pending = s.pending)) ∧
  (∀ (s : State), ∃ t, exec (.keyRegeneration) s = .next t ∧ t.sec = (if s.sec.sealOpen then
    { s.sec with keyGen := s.sec.keyGen + 1, audit := s.sec.audit + 1 } else s.sec) ∧ (t.eng = s.eng ∧ t.stg = s.stg ∧ t.pending = s.pending)) ∧
  (∀ (wd : Bool) (s : State), ∃ t, exec (.sectionRestart wd) s = .next t ∧ (t.sec =
    { s.sec with regs := s.sec.stored, params := s.sec.storedParams, fwVer := (s.sec.newFw.getD (s.sec.fwVer, s.sec.fwCrc)).1, fwCrc := (s.sec.newFw.getD (s.sec.fwVer, s.sec.fwCrc)).2, newFw := none, labels := [], pieces := [], thick := [], latches := [], pos := 0, used := none, edgeTime := none, speed := 0, back := 0, learnN := 0, learnSum := 0, doc := List.replicate 960 false, line := none, sync := none, portAns := none, fe := t.sec.fe, store := s.sec.store.map fun r => { r with sent := none } })
    ∧ t.sec.fe.act = Section.configOf s.sec.stored ∧ t.sec.fe.ins.length = 8 ∧ (∀ x ∈ t.sec.fe.ins, x.turn = s.eng.secNow) ∧
    ((t.eng.met.inq.reverse.take 2).map (fun p => p.body) = [.notice 9 0 (if wd then 2 else 1), t.sec.identPkt]) ∧
    ({ s.eng with met := { s.eng.met with inq := t.eng.met.inq } } : Engine).onlyRegs t.eng [(R.QUE_LEVEL.LEVEL 68).off, (R.QUE_LOST.V 68).off] ∧
    (t.stg = s.stg ∧ t.pending = s.pending))

/-- With RUN clear, or no input enabled, a converter at rest takes the map as written and stands. A VOLTAGE input in range without faults (no switch
enabled): before output 5 its result word has DV 0 and code 0; from then DV 1, its gain and round(2^23 G V / V_ref) saturated, with the linearised
value beside it; an overload sets OVR and saturates the code in its direction. A clamp that begins to conduct is live, latched and told, one that
ends is told. The temperatures go out with what is fresh, the switch states with their values; a packet into a full MET_IN overwrites the oldest,
which counts as lost. -/
def Obligations.SectionFrontEnd : Prop :=
  (∀ (nv cm : Int) (clip e v : Bool) (s : State), s.sec.fe.cur = none → s.sec.on R.MET_CONV_CTRL.RUN = false → ∃ t, exec (.converterOutput nv clip cm
    e v) s = .next t ∧ t.sec = s.sec.takeMap none ∧ (t.eng = s.eng ∧ t.stg = s.stg ∧ t.pending = s.pending)) ∧
  (∀ (nv cm : Int) (clip e v : Bool) (s : State), s.sec.on R.MET_CONV_CTRL.RUN = true → s.sec.fe.cur = none → s.sec.on R.MET_CONV_CTRL.SEQ_EN = true
    → s.sec.enabledIn = [] → ∃ t, exec (.converterOutput nv clip cm e v) s = .next t ∧ t.sec = s.sec.takeMap none ∧ (t.eng = s.eng ∧ t.stg = s.stg ∧
    t.pending = s.pending)) ∧
  (∀ (i : Nat) (nv cm : Int) (exc : Bool) (s : State), s.sec.fe.cur = some i → i < 8 → s.sec.fe.ins.length = 8 → (R.MET_IN_CFG.TYPE 0).get
    s.sec.fe.cfg = 0 → (R.MET_IN_CFG.PRESET 0).get s.sec.fe.cfg ≠ 3 → (R.MET_IN_CFG.BURN 0).get s.sec.fe.cfg = 0 → (s.sec.inp i).live = [0, 0, 0, 0,
    0] → (s.sec.act R.MET_CM_WIN.LO : Int) ≤ cm → cm ≤ (s.sec.act R.MET_CM_WIN.HI : Int) → (s.sec.inp i).gain < 8 → (∀ n : Fin 4, s.sec.actOn
    (R.MET_TH_CFG.EN n.val) = false) → s.sec.fe.th = [false, false, false, false] → s.sec.fe.outs < 4 → ∃ t, exec (.converterOutput nv false cm exc
    exc) s = .next t ∧ t.sec.rd (R.MET_RES_LO.DV i) = 0 ∧ t.sec.rd (R.MET_RES_LO.CODE i) = 0 ∧ t.sec.rd (R.MET_RES_LO.OVR i) = 0 ∧ t.sec.rd
    (R.MET_RES_LO.GAIN i) = (s.sec.inp i).gain ∧ t.sec.rd (R.MET_RES_LO.FAULT i) = 0 ∧ (∀ off, off ∉ ([(R.MET_RES_LO.CODE i).off, (R.MET_RES_HI.V
    i).off, R.MET_FE_STAT.V.off, R.MET_VEX.FAULT.off] ++ (upTo 4).map fun m => (R.MET_DET_VAL.V m).off) → t.sec.word off = s.sec.word off) ∧ (t.eng =
    s.eng ∧ t.stg = s.stg ∧ t.pending = s.pending)) ∧
  (∀ (i : Nat) (nv cm : Int) (exc : Bool) (s : State), s.sec.fe.cur = some i → i < 8 → s.sec.fe.ins.length = 8 → (R.MET_IN_CFG.TYPE 0).get
    s.sec.fe.cfg = 0 → (R.MET_IN_CFG.PRESET 0).get s.sec.fe.cfg ≠ 3 → (R.MET_IN_CFG.BURN 0).get s.sec.fe.cfg = 0 → (s.sec.inp i).live = [0, 0, 0, 0,
    0] → (s.sec.act R.MET_CM_WIN.LO : Int) ≤ cm → cm ≤ (s.sec.act R.MET_CM_WIN.HI : Int) → (s.sec.inp i).gain < 8 → (∀ n : Fin 4, s.sec.actOn
    (R.MET_TH_CFG.EN n.val) = false) → s.sec.fe.th = [false, false, false, false] → 4 ≤ s.sec.fe.outs → (R.MET_IN_CFG.LIN 0).get s.sec.fe.cfg = 0 →
    -106 / 100 ≤ ((nv : Rat) / 1000000000 * ((2 ^ (s.sec.inp i).gain : Nat) : Rat) / (5 / 2)) → ((nv : Rat) / 1000000000 * ((2 ^ (s.sec.inp i).gain :
    Nat) : Rat) / (5 / 2)) ≤ 106 / 100 → ∃ t, exec (.converterOutput nv false cm exc exc) s = .next t ∧ t.sec.rd (R.MET_RES_LO.DV i) = 1 ∧ t.sec.rd
    (R.MET_RES_LO.CODE i) = ofSigned 24 (clampInt (-8388608) 8388607 (ratAway (((nv : Rat) / 1000000000 * ((2 ^ (s.sec.inp i).gain : Nat) : Rat) / (5
    / 2)) * 8388608))) ∧ t.sec.rd (R.MET_RES_LO.OVR i) = 0 ∧ t.sec.rd (R.MET_RES_LO.GAIN i) = (s.sec.inp i).gain ∧ t.sec.rd (R.MET_RES_LO.FAULT i) =
    0 ∧ t.sec.rd (R.MET_RES_LO.RANGE_SETTLE i) = b2n ((s.sec.inp i).settle != 0) ∧ t.sec.rd (R.MET_RES_HI.V i) = ratToF32 (5 / 2 * (((clampInt
    (-8388608) 8388607 (ratAway (((nv : Rat) / 1000000000 * ((2 ^ (s.sec.inp i).gain : Nat) : Rat) / (5 / 2)) * 8388608))) : Rat) / ((8388608 * 2 ^
    (s.sec.inp i).gain : Nat) : Rat))) % 2 ^ 32 ∧ (∀ off, off ∉ ([(R.MET_RES_LO.CODE i).off, (R.MET_RES_HI.V i).off, R.MET_FE_STAT.V.off,
    R.MET_VEX.FAULT.off] ++ (upTo 4).map fun m => (R.MET_DET_VAL.V m).off) → t.sec.word off = s.sec.word off) ∧ (t.eng = s.eng ∧ t.stg = s.stg ∧
    t.pending = s.pending)) ∧
  (∀ (i : Nat) (nv cm : Int) (exc : Bool) (s : State), s.sec.fe.cur = some i → i < 8 → s.sec.fe.ins.length = 8 → (R.MET_IN_CFG.TYPE 0).get
    s.sec.fe.cfg = 0 → (R.MET_IN_CFG.PRESET 0).get s.sec.fe.cfg ≠ 3 → (R.MET_IN_CFG.BURN 0).get s.sec.fe.cfg = 0 → (s.sec.inp i).live = [0, 0, 0, 0,
    0] → (s.sec.act R.MET_CM_WIN.LO : Int) ≤ cm → cm ≤ (s.sec.act R.MET_CM_WIN.HI : Int) → (s.sec.inp i).gain < 8 → (∀ n : Fin 4, s.sec.actOn
    (R.MET_TH_CFG.EN n.val) = false) → s.sec.fe.th = [false, false, false, false] → 4 ≤ s.sec.fe.outs → (R.MET_IN_CFG.LIN 0).get s.sec.fe.cfg ≠ 2 →
    ((nv : Rat) / 1000000000 * ((2 ^ (s.sec.inp i).gain : Nat) : Rat) / (5 / 2)) < -106 / 100 → ∃ t, exec (.converterOutput nv false cm exc exc) s =
    .next t ∧ t.sec.rd (R.MET_RES_LO.DV i) = 1 ∧ t.sec.rd (R.MET_RES_LO.CODE i) = 0x800000 ∧ t.sec.rd (R.MET_RES_LO.OVR i) = 1 ∧ (∀ off, off ∉
    ([(R.MET_RES_LO.CODE i).off, (R.MET_RES_HI.V i).off, R.MET_FE_STAT.V.off, R.MET_VEX.FAULT.off] ++ (upTo 4).map fun m => (R.MET_DET_VAL.V m).off)
    → t.sec.word off = s.sec.word off) ∧ (t.eng = s.eng ∧ t.stg = s.stg ∧ t.pending = s.pending)) ∧
  (∀ (n : Fin 8) (s : State), s.sec.fe.ins.length = 8 → (s.sec.inp n.val).live.length = 5 → (∀ n : Fin 4, s.sec.actOn (R.MET_TH_CFG.EN n.val) =
    false) → s.sec.fe.th = [false, false, false, false] → (s.sec.inp n.val).live.getD 3 0 = 0 → s.eng.met.inq.length < 32 → ∃ t, exec (.ovpClamp n
    true) s = .next t ∧ (t.sec.fe.ins = modAt s.sec.fe.ins n.val fun x => { x with live := modAt x.live 3 fun _ => 1 }) ∧ t.sec.rd R.MET_OVP_LATCH.V
    = setBit (s.sec.rd R.MET_OVP_LATCH.V) n.val true % 2 ^ 8 ∧ (t.sec.rd R.MET_FE_STAT.V = ((upTo 8).foldl (fun b k => b + Section.faultBits
    (t.sec.inp k).live * 16 ^ k) 0) % 2 ^ 32) ∧ t.eng.met.inq = s.eng.met.inq ++ [⟨.notice 4 0 (n.val + 2 ^ 11 + 2 ^ 31), t.sec.stat s.eng.secNow⟩] ∧
    t.eng.rd (R.QUE_LEVEL.LEVEL 68) = 32 * (s.eng.met.inq.length + 1) ∧ ({ s.eng with met := { s.eng.met with inq := t.eng.met.inq } } :
    Engine).onlyRegs t.eng [(R.QUE_LEVEL.LEVEL 68).off] ∧ (t.stg = s.stg ∧ t.pending = s.pending)) ∧
  (∀ (n : Fin 8) (s : State), s.sec.fe.ins.length = 8 → (s.sec.inp n.val).live.length = 5 → (∀ n : Fin 4, s.sec.actOn (R.MET_TH_CFG.EN n.val) =
    false) → s.sec.fe.th = [false, false, false, false] → (s.sec.inp n.val).live.getD 3 0 ≠ 0 → s.eng.met.inq.length < 32 → ∃ t, exec (.ovpClamp n
    false) s = .next t ∧ (t.sec.fe.ins = modAt s.sec.fe.ins n.val fun x => { x with live := modAt x.live 3 fun _ => 0 }) ∧ t.sec.rd R.MET_OVP_LATCH.V
    = s.sec.rd R.MET_OVP_LATCH.V ∧ (t.sec.rd R.MET_FE_STAT.V = ((upTo 8).foldl (fun b k => b + Section.faultBits (t.sec.inp k).live * 16 ^ k) 0) % 2
    ^ 32) ∧ t.eng.met.inq = s.eng.met.inq ++ [⟨.notice 4 0 (n.val + 2 ^ 11), t.sec.stat s.eng.secNow⟩] ∧ t.eng.rd (R.QUE_LEVEL.LEVEL 68) = 32 *
    (s.eng.met.inq.length + 1) ∧ ({ s.eng with met := { s.eng.met with inq := t.eng.met.inq } } : Engine).onlyRegs t.eng [(R.QUE_LEVEL.LEVEL 68).off]
    ∧ (t.stg = s.stg ∧ t.pending = s.pending)) ∧
  (∀ (s : State), s.eng.met.inq.length < 32 → ∃ t, exec (.tempPublish) s = .next t ∧ t.sec =
    { s.sec with fe := { s.sec.fe with fresh := [false, false, false, false] } } ∧ t.eng.met.inq = s.eng.met.inq ++ [⟨.temps (s.sec.fe.temps.zip
    s.sec.fe.fresh), t.sec.stat s.eng.secNow⟩] ∧ t.eng.rd (R.QUE_LEVEL.LEVEL 68) = 32 * (s.eng.met.inq.length + 1) ∧
    ({ s.eng with met := { s.eng.met with inq := t.eng.met.inq } } : Engine).onlyRegs t.eng [(R.QUE_LEVEL.LEVEL 68).off] ∧ (t.stg = s.stg ∧ t.pending
    = s.pending)) ∧
  (∀ (p : MetPkt) (rest : List MetPkt) (s : State), s.eng.met.inq = p :: rest → rest.length = 31 → ∃ t, exec (.tempPublish) s = .next t ∧ t.sec =
    { s.sec with fe := { s.sec.fe with fresh := [false, false, false, false] } } ∧ t.eng.met.inq = rest ++ [⟨.temps (s.sec.fe.temps.zip
    s.sec.fe.fresh), t.sec.stat s.eng.secNow⟩] ∧ t.eng.rd (R.QUE_LOST.V 68) = min (2 ^ 32 - 1) (s.eng.rd (R.QUE_LOST.V 68) + 1) ∧ t.eng.rd
    (R.QUE_LEVEL.LEVEL 68) = 1024 ∧ ({ s.eng with met := { s.eng.met with inq := t.eng.met.inq } } : Engine).onlyRegs t.eng [(R.QUE_LEVEL.LEVEL
    68).off, (R.QUE_LOST.V 68).off] ∧ (t.stg = s.stg ∧ t.pending = s.pending)) ∧
  (∀ (s : State), s.eng.met.inq.length < 32 → ∃ t, exec (.thresholdStatePublish) s = .next t ∧ t.sec = s.sec ∧ (t.eng.met.inq = s.eng.met.inq ++
    [⟨.thresholds ((upTo 4).foldl (fun b k => setBit b k (s.sec.fe.th.getD k false)) 0) ((upTo 4).map fun k => ratToF32 ((s.sec.thSource k).getD 0)),
    t.sec.stat s.eng.secNow⟩]) ∧ t.eng.rd (R.QUE_LEVEL.LEVEL 68) = 32 * (s.eng.met.inq.length + 1) ∧
    ({ s.eng with met := { s.eng.met with inq := t.eng.met.inq } } : Engine).onlyRegs t.eng [(R.QUE_LEVEL.LEVEL 68).off] ∧ (t.stg = s.stg ∧ t.pending
    = s.pending))

/-- Every 100 µs an enabled module whose heartbeat nothing stopped sends a frame (an interval without one of the peer's counts in PAIRED). A frame
with a wrong CRC or out of order changes nothing; the next heartbeat is noted and ends SOLO, and a windward repeats its position with its own; a
mirrored register is loaded by a leeward, where a new RANGE makes the channel STALE; the end of the bulk copy makes it current; a PEER record crosses
under PL-2 alone. Frames unacknowledged for 2 µs go again and count. An acknowledged delta lets its event, command or record go, under PL-2 up to
sixteen at once (the model's reading, log 159). Training takes the lower version, the peer's identity and, at boot, the roles; no common version is a
FAULT. A link down clears LINK and PLVER. -/
def Obligations.PairLink : Prop :=
  (∀ (own : Bool) (s : State), s.eng.pairEnabled = true → s.eng.pair.hbStopped = false → s.eng.on R.QDR_STATUS.HALT = false → s.eng.pins.failed =
    false → s.eng.pair.lastSent + 100000 ≤ s.eng.now → s.eng.pair.st ≠ 3 → s.eng.pair.linkUp = true → (¬ (s.eng.pair.role = 1 ∧ (s.eng.pair.st = 2 ∨
    s.eng.pair.st = 3) ∧ s.eng.pair.image.begun = true)) → ∃ t, exec (.pairHeartbeatSend own) s = .next t ∧ s.engineOnly t ∧ t.eng =
    { s.eng with pair := { s.eng.pair with peerOwn := own, releasedAt := if own then none else if s.eng.pair.peerOwn then some s.eng.now else s.eng.pair.releasedAt, lastSent := s.eng.now, tx := s.eng.pair.tx ++ [⟨s.eng.pair.txNext, some s.eng.now, s.eng.now, none, .heartbeat⟩], txNext := s.eng.pair.txNext + 1 } }) ∧
  (∀ (own : Bool) (u : Nat) (s : State), s.eng.pairEnabled = true → s.eng.pair.hbStopped = false → s.eng.on R.QDR_STATUS.HALT = false →
    s.eng.pins.failed = false → s.eng.pair.lastSent + 100000 ≤ s.eng.now → s.eng.pair.st = 3 → s.eng.pair.linkUp = true → (¬ (s.eng.pair.role = 1 ∧
    (s.eng.pair.st = 2 ∨ s.eng.pair.st = 3) ∧ s.eng.pair.image.begun = true)) → s.eng.pair.lastPeer = some u → u + 100000 < s.eng.now → ∃ t, exec
    (.pairHeartbeatSend own) s = .next t ∧ s.engineOnly t ∧ t.eng.rd R.PAIR_HB_MISS.V = min (2 ^ 32 - 1) (s.eng.rd R.PAIR_HB_MISS.V + 1) ∧
    ({ s.eng with pair := { s.eng.pair with peerOwn := own, releasedAt := if own then none else if s.eng.pair.peerOwn then some s.eng.now else s.eng.pair.releasedAt, lastSent := s.eng.now, tx := s.eng.pair.tx ++ [⟨s.eng.pair.txNext, some s.eng.now, s.eng.now, none, .heartbeat⟩], txNext := s.eng.pair.txNext + 1 } }
    : Engine).onlyRegs t.eng [R.PAIR_HB_MISS.V.off]) ∧
  (∀ (own : Bool) (u : Nat) (s : State), s.eng.pairEnabled = true → s.eng.pair.hbStopped = false → s.eng.on R.QDR_STATUS.HALT = false →
    s.eng.pins.failed = false → s.eng.pair.lastSent + 100000 ≤ s.eng.now → s.eng.pair.linkUp = true → (s.eng.pair.role = 1 ∧ (s.eng.pair.st = 2 ∨
    s.eng.pair.st = 3) ∧ s.eng.pair.image.begun = true) → s.eng.pair.lastPeer = some u → s.eng.now ≤ u + 100000 → ∃ t, exec (.pairHeartbeatSend own)
    s = .next t ∧ s.engineOnly t ∧ t.eng =
    { s.eng with pair := { s.eng.pair with peerOwn := own, releasedAt := if own then none else if s.eng.pair.peerOwn then some s.eng.now else s.eng.pair.releasedAt, lastSent := s.eng.now, txNext := s.eng.pair.txNext + 2, tx := s.eng.pair.tx ++ [⟨s.eng.pair.txNext, some s.eng.now, s.eng.now, none, .heartbeat⟩, ⟨s.eng.pair.txNext + 1, some s.eng.now, s.eng.now, none, .delta (s.eng.positionItems ++ [.time s.eng.now])⟩] } }) ∧
  (∀ (own : Bool) (s : State), s.eng.pair.hbStopped = true → (own = false ∨ s.eng.pair.role ≠ 2) → ∃ t, exec (.pairHeartbeatSend own) s = .next t ∧
    s.engineOnly t ∧ t.eng =
    { s.eng with pair := { s.eng.pair with peerOwn := own, releasedAt := if own then none else if s.eng.pair.peerOwn then some s.eng.now else s.eng.pair.releasedAt } }) ∧
  (∀ (own : Bool) (s : State), s.eng.pairEnabled = false → s.eng.pair.hbStopped = false → ∃ t, exec (.pairHeartbeatSend own) s = .next t ∧
    s.engineOnly t ∧ t.eng =
    { s.eng with pair := { s.eng.pair with peerOwn := own, releasedAt := if own then none else if s.eng.pair.peerOwn then some s.eng.now else s.eng.pair.releasedAt } }) ∧
  (∀ (f : PairFrame) (s : State), (f.crcOk = false ∨ s.eng.pair.linkUp = false ∨ s.eng.pairEnabled = false) → ∃ t, exec (.pairFrameReceive f) s =
    .next t ∧ s.engineOnly t ∧ t.eng = s.eng) ∧
  (∀ (f : PairFrame) (s : State), f.crcOk = true → s.eng.pair.linkUp = true → s.eng.pairEnabled = true → s.eng.modeIn [0, 1] = false → f.body =
    .heartbeat → f.number ≠ s.eng.pair.rxNext → ∃ t, exec (.pairFrameReceive f) s = .next t ∧ s.engineOnly t ∧ t.eng = s.eng) ∧
  (∀ (f : PairFrame) (s : State), f.crcOk = true → s.eng.pair.linkUp = true → s.eng.pairEnabled = true → s.eng.modeIn [0, 1] = false → f.body =
    .heartbeat → f.number = s.eng.pair.rxNext → (¬ ((s.eng.pair.role = 1 ∧ s.eng.pair.st = 4 ∧ s.eng.pair.plver ≠ 0) ∨ (s.eng.pair.role = 2 ∧
    s.eng.pair.st = 5 ∧ s.eng.pair.peerOwn = true))) → ∃ t, exec (.pairFrameReceive f) s = .next t ∧ s.engineOnly t ∧ t.eng =
    { s.eng with pair := { s.eng.pair with rxNext := s.eng.pair.rxNext + 1, lastPeer := some s.eng.now } }) ∧
  (∀ (f : PairFrame) (s : State), f.crcOk = true → s.eng.pair.linkUp = true → s.eng.pairEnabled = true → s.eng.modeIn [0, 1] = false → f.body =
    .heartbeat → f.number = s.eng.pair.rxNext → s.eng.pair.role = 1 → s.eng.pair.st = 4 → s.eng.pair.plver ≠ 0 → s.eng.ver = 3 → s.eng.hears → ∃ t,
    exec (.pairFrameReceive f) s = .next t ∧ s.engineOnly t ∧ s.eng.says t.eng 0x12 2 0 none 2 ∧ t.eng.pair.image = MirrorImage.init ∧
    ({ s.eng with pair := { s.eng.pair with rxNext := s.eng.pair.rxNext + 1, lastPeer := some s.eng.now, st := 2, stTime := s.eng.now } } :
    Engine).onlyBooks t.eng []) ∧
  (∀ (f : PairFrame) (n : Nat) (s : State), f.crcOk = true → s.eng.pair.linkUp = true → s.eng.pairEnabled = true → s.eng.modeIn [0, 1] = false →
    f.body = .ack n → ∃ t, exec (.pairFrameReceive f) s = .next t ∧ s.engineOnly t ∧ (t.eng =
    { s.eng with pair := { s.eng.pair with tx := (s.eng.pair.tx.filter fun x => x.delta.isSome || decide (n < x.number)).map fun x => if x.number ≤ n then { x with sent := none } else x } })) ∧
  (∀ (f : PairFrame) (off : BitVec 20) (v : Word) (s : State), f.crcOk = true → s.eng.pair.linkUp = true → s.eng.pairEnabled = true → s.eng.modeIn
    [0, 1] = false → f.body = .delta [.reg off v] → f.number = s.eng.pair.rxNext → s.eng.pair.role = 2 → (RegMap.find off.toNat).isSome = true → (∀ k
    : Fin 2, off.toNat ≠ (R.AFE_REF_CTRL.word k.val).off) → (∀ c : Fin 64, off.toNat ≠ (R.AFE_CH_CFG.RANGE (c.val / 32) (c.val % 32)).off) →
    (off.toNat < 0x1000 ∨ (0x2000 ≤ off.toNat ∧ off.toNat < 0x11000) ∨ 0x12000 ≤ off.toNat) → ∃ t, exec (.pairFrameReceive f) s = .next t ∧
    s.engineOnly t ∧ t.eng.word off.toNat = v ∧ ({ s.eng with pair := { s.eng.pair with rxNext := s.eng.pair.rxNext + 1 } } : Engine).onlyRegs t.eng
    [off.toNat, R.PAIR_NC_LO.V.off, R.PAIR_NC_HI.V.off]) ∧
  (∀ (f : PairFrame) (off : BitVec 20) (v : Word) (c : Fin 64) (s : State), f.crcOk = true → s.eng.pair.linkUp = true → s.eng.pairEnabled = true →
    s.eng.modeIn [0, 1] = false → f.body = .delta [.reg off v] → f.number = s.eng.pair.rxNext → s.eng.pair.role = 2 → off.toNat = (R.AFE_CH_CFG.RANGE
    (c.val / 32) (c.val % 32)).off → (R.AFE_CH_CFG.RANGE (c.val / 32) (c.val % 32)).get v ≠ s.eng.rd (R.AFE_CH_CFG.RANGE (c.val / 32) (c.val % 32)) →
    ∃ t, exec (.pairFrameReceive f) s = .next t ∧ s.engineOnly t ∧ t.eng.word off.toNat = v ∧ t.eng.on (R.AFE_CH_STATUS.STALE (c.val / 32) (c.val %
    32)) = true ∧ ({ s.eng with pair := { s.eng.pair with rxNext := s.eng.pair.rxNext + 1 } } : Engine).onlyRegs t.eng [off.toNat,
    (R.AFE_CH_STATUS.STALE (c.val / 32) (c.val % 32)).off, R.PAIR_NC_LO.V.off, R.PAIR_NC_HI.V.off]) ∧
  (∀ (f : PairFrame) (s : State), f.crcOk = true → s.eng.pair.linkUp = true → s.eng.pairEnabled = true → s.eng.modeIn [0, 1] = false → f.body =
    .bulkDone → f.number = s.eng.pair.rxNext → s.eng.pair.role = 2 → s.eng.pair.st = 2 → s.eng.ver = 3 → s.eng.hears → ∃ t, exec (.pairFrameReceive
    f) s = .next t ∧ s.engineOnly t ∧ s.eng.says t.eng 0x12 3 0 none 1 ∧
    ({ s.eng with pair := { s.eng.pair with rxNext := s.eng.pair.rxNext + 1, st := 3, stTime := s.eng.now } } : Engine).onlyBooks t.eng []) ∧
  (∀ (f : PairFrame) (r : List Byte) (s : State), f.crcOk = true → s.eng.pair.linkUp = true → s.eng.pairEnabled = true → s.eng.modeIn [0, 1] = false
    → f.body = .peerRecord r → f.number = s.eng.pair.rxNext → s.eng.pair.plver = 2 → ∃ t, exec (.pairFrameReceive f) s = .next t ∧ s.engineOnly t ∧
    t.eng = { s.eng with pair := { s.eng.pair with rxNext := s.eng.pair.rxNext + 1 }, met := { s.eng.met with cmd := s.eng.met.cmd ++ [.peer r] } }) ∧
  (∀ (f : PairFrame) (r : List Byte) (s : State), f.crcOk = true → s.eng.pair.linkUp = true → s.eng.pairEnabled = true → s.eng.modeIn [0, 1] = false
    → f.body = .peerRecord r → f.number = s.eng.pair.rxNext → s.eng.pair.plver ≠ 2 → ∃ t, exec (.pairFrameReceive f) s = .next t ∧ s.engineOnly t ∧
    t.eng = { s.eng with pair := { s.eng.pair with rxNext := s.eng.pair.rxNext + 1 } }) ∧
  (∀ (s : State), s.eng.pair.linkUp = false → ∃ t, exec (.pairRetransmit) s = .next t ∧ s.engineOnly t ∧ t.eng = s.eng) ∧
  (∀ (s : State), s.eng.pair.linkUp = true → ∃ t, exec (.pairRetransmit) s = .next t ∧ s.engineOnly t ∧ (t.eng.rd R.PAIR_RETX_CNT.V = min (2 ^ 32 -
    1) (s.eng.rd R.PAIR_RETX_CNT.V + (s.eng.pair.tx.filter (fun (x : TxFrame) => x.sent.any fun u => decide (u + 2000 ≤ s.eng.now))).length)) ∧
    (({ s.eng with pair := { s.eng.pair with tx := s.eng.pair.tx.map fun x => if (fun (x : TxFrame) => x.sent.any fun u => decide (u + 2000 ≤ s.eng.now)) x then { x with sent := some s.eng.now } else x } }
    : Engine).onlyRegs t.eng [R.PAIR_RETX_CNT.V.off])) ∧
  (∀ (s : State), (s.eng.pair.tx.find? fun x => x.delta.isSome) = none → s.eng.pair.releasing = false → ∃ t, exec (.mirrorAck) s = .next t ∧
    s.engineOnly t ∧ t.eng = s.eng) ∧
  (∀ (f : TxFrame) (d : Nat) (s : State), (s.eng.pair.tx.find? fun x => x.delta.isSome) = some f → f.delta = some (.event d) → s.eng.pair.releasing =
    false → s.eng.pair.plver ≠ 2 → (∀ v ∈ s.eng.evt.unacked, v.dseq ≠ d) → ∃ t, exec (.mirrorAck) s = .next t ∧ s.engineOnly t ∧ t.eng.rd
    R.PAIR_MIRROR_MAX.V = max (s.eng.rd R.PAIR_MIRROR_MAX.V) (min (2 ^ 20 - 1) (s.eng.now - f.first)) ∧
    (({ s.eng with evt := { s.eng.evt with queue := s.eng.evt.queue.map fun v => if v.dseq = d then { v with held := false } else v }, pair := { s.eng.pair with tx := s.eng.pair.tx.filter fun x => x.number != f.number || x.delta != f.delta } }
    : Engine).onlyRegs t.eng [R.PAIR_MIRROR_MAX.V.off])) ∧
  (∀ (f : TxFrame) (m : Nat) (b : List Byte) (rest : List (Nat × List Byte × Bool)) (s : State), (s.eng.pair.tx.find? fun x => x.delta.isSome) = some
    f → f.delta = some .record → s.eng.pair.releasing = false → s.eng.pair.plver ≠ 2 → s.eng.mets.recv = (m, b, true) :: rest → ∃ t, exec
    (.mirrorAck) s = .next t ∧ s.engineOnly t ∧ t.eng.rd R.PAIR_MIRROR_MAX.V = max (s.eng.rd R.PAIR_MIRROR_MAX.V) (min (2 ^ 20 - 1) (s.eng.now -
    f.first)) ∧
    (({ s.eng with mets := { s.eng.mets with recv := (m, b, false) :: rest }, pair := { s.eng.pair with tx := s.eng.pair.tx.filter fun x => x.number != f.number || x.delta != f.delta } }
    : Engine).onlyRegs t.eng [R.PAIR_MIRROR_MAX.V.off])) ∧
  (∀ (f : TxFrame) (d : Nat) (v : Ev) (s : State), (s.eng.pair.tx.find? fun x => x.delta.isSome) = some f → f.delta = some (.event d) →
    s.eng.pair.releasing = false → s.eng.pair.plver ≠ 2 → s.eng.evt.unacked = [v] → v.dseq = d → v.book = .none → (∀ x ∈ s.eng.evt.queue, x.dseq ≠ d)
    → ∃ t, exec (.mirrorAck) s = .next t ∧ s.engineOnly t ∧ t.eng.rd R.PAIR_MIRROR_MAX.V = max (s.eng.rd R.PAIR_MIRROR_MAX.V) (min (2 ^ 20 - 1)
    (s.eng.now - f.first)) ∧ t.eng.rd R.UHP_LAST_DSEQ.V = d % 2 ^ 32 ∧
    (({ s.eng with evt := { s.eng.evt with unacked := [] }, pair := { s.eng.pair with tx := s.eng.pair.tx.filter fun x => x.number != f.number || x.delta != f.delta } }
    : Engine).onlyRegs t.eng [R.PAIR_MIRROR_MAX.V.off, R.UHP_LAST_DSEQ.V.off])) ∧
  (∀ (f : TxFrame) (h : Nat) (s : State), (s.eng.pair.tx.find? fun x => x.delta.isSome) = some f → f.delta = some (.command h) → s.eng.pair.releasing
    = false → s.eng.pair.plver ≠ 2 → ∃ t, exec (.mirrorAck) s = .next t ∧ s.engineOnly t ∧ t.eng.rd R.PAIR_MIRROR_MAX.V = max (s.eng.rd
    R.PAIR_MIRROR_MAX.V) (min (2 ^ 20 - 1) (s.eng.now - f.first)) ∧ t.eng.ringSeq 0 = (s.eng.ringSeq 0 + 1) % 2 ^ 32 ∧ t.eng.devIdx 0 = (s.eng.devIdx
    0 + 1) % s.eng.ringSize 0 ∧
    (({ s.eng with pair := { s.eng.pair with tx := s.eng.pair.tx.filter fun x => x.number != f.number || x.delta != f.delta } } : Engine).onlyRegs
    t.eng [R.PAIR_MIRROR_MAX.V.off, (R.UHP_R_SEQ.V 0).off, (R.UHP_R_STATE.DEV_IDX 0).off])) ∧
  (∀ (s : State), s.eng.pair.plver = 2 → s.eng.pair.releasing = false → (∀ x ∈ s.eng.pair.tx, x.delta = none ∨ x.delta = some .state) →
    (s.eng.pair.tx.filter fun x => x.delta.isSome).length ≤ 16 → ∃ t, exec (.mirrorAck) s = .next t ∧ s.engineOnly t ∧
    (({ s.eng with pair := { s.eng.pair with tx := s.eng.pair.tx.filter fun x => x.delta.isNone } } : Engine).onlyRegs t.eng
    [R.PAIR_MIRROR_MAX.V.off])) ∧
  (∀ (versions serial fw : Nat) (pref : Bool) (s : State), s.eng.pairEnabled = true → s.eng.pair.bootRole = false → (min (s.eng.rd R.PAIR_CTRL.PLMAX)
    versions) ≠ 0 → s.eng.pair.st ≠ 1 → ∃ t, exec (.pairLinkTrained versions pref serial fw) s = .next t ∧ s.engineOnly t ∧ t.eng.rdPair
    R.PAIR_PEER_SERIAL_LO.V R.PAIR_PEER_SERIAL_HI.V = serial % 2 ^ 64 ∧ t.eng.rd R.PAIR_PEER_FW.V = fw % 2 ^ R.PAIR_PEER_FW.V.width ∧
    (({ s.eng with pair := { s.eng.pair with linkUp := true, txNext := (s.eng.pair.tx.filter fun x => x.delta.isSome).length, rxNext := 0, plver := (min (s.eng.rd R.PAIR_CTRL.PLMAX) versions), peerPref := pref, tx := (s.eng.pair.tx.filter fun x => x.delta.isSome).zipIdx.map fun x => { x.1 with number := x.2, sent := some s.eng.now } } }
    : Engine).onlyRegs t.eng [R.PAIR_PEER_SERIAL_LO.V.off, R.PAIR_PEER_SERIAL_HI.V.off, R.PAIR_PEER_FW.V.off])) ∧
  (∀ (versions serial fw : Nat) (pref : Bool) (s : State), s.eng.pairEnabled = true → s.eng.pair.bootRole = false → (min (s.eng.rd R.PAIR_CTRL.PLMAX)
    versions) ≠ 0 → s.eng.pair.st = 1 → s.eng.pair.role = 2 → s.eng.ver = 3 → s.eng.hears → ∃ t, exec (.pairLinkTrained versions pref serial fw) s =
    .next t ∧ s.engineOnly t ∧ t.eng.rdPair R.PAIR_PEER_SERIAL_LO.V R.PAIR_PEER_SERIAL_HI.V = serial % 2 ^ 64 ∧ t.eng.rd R.PAIR_PEER_FW.V = fw % 2 ^
    R.PAIR_PEER_FW.V.width ∧ s.eng.says t.eng 0x12 2 0 none 1 ∧
    (({ s.eng with pair := { s.eng.pair with linkUp := true, txNext := (s.eng.pair.tx.filter fun x => x.delta.isSome).length, rxNext := 0, plver := (min (s.eng.rd R.PAIR_CTRL.PLMAX) versions), peerPref := pref, tx := (s.eng.pair.tx.filter fun x => x.delta.isSome).zipIdx.map fun x => { x.1 with number := x.2, sent := some s.eng.now }, st := 2, stTime := s.eng.now, lastPeer := none } }
    : Engine).onlyBooks t.eng [R.PAIR_PEER_SERIAL_LO.V.off, R.PAIR_PEER_SERIAL_HI.V.off, R.PAIR_PEER_FW.V.off])) ∧
  (∀ (versions serial fw : Nat) (pref : Bool) (s : State), s.eng.pairEnabled = true → s.eng.pair.role ≠ 1 → (min (s.eng.rd R.PAIR_CTRL.PLMAX)
    versions) = 0 → s.eng.hears → ∃ t, exec (.pairLinkTrained versions pref serial fw) s = .next t ∧ s.engineOnly t ∧ t.eng.rdPair
    R.PAIR_PEER_SERIAL_LO.V R.PAIR_PEER_SERIAL_HI.V = serial % 2 ^ 64 ∧ t.eng.rd R.PAIR_PEER_FW.V = fw % 2 ^ R.PAIR_PEER_FW.V.width ∧ t.eng.told 0x0F
    0x11 0 none (0 + 256 * 3) ∧ t.eng.toldBytes [(24, 8, serial % 2 ^ 64), (32, 4, 0)] ∧
    (({ s.eng with pair := { s.eng.pair with linkUp := true, txNext := (s.eng.pair.tx.filter fun x => x.delta.isSome).length, rxNext := 0, plver := (min (s.eng.rd R.PAIR_CTRL.PLMAX) versions), peerPref := pref, tx := (s.eng.pair.tx.filter fun x => x.delta.isSome).zipIdx.map fun x => { x.1 with number := x.2, sent := some s.eng.now } } }
    : Engine).onlyBooks t.eng [R.PAIR_PEER_SERIAL_LO.V.off, R.PAIR_PEER_SERIAL_HI.V.off, R.PAIR_PEER_FW.V.off])) ∧
  (∀ (versions serial fw : Nat) (pref : Bool) (s : State), s.eng.pairEnabled = true → s.eng.pair.bootRole = true → (min (s.eng.rd R.PAIR_CTRL.PLMAX)
    versions) ≠ 0 → s.eng.pair.peerOwn = false → (if s.eng.on R.PAIR_CTRL.PREF ≠ pref then s.eng.on R.PAIR_CTRL.PREF else decide (s.eng.rdPair
    R.SYS_SERIAL_LO.V R.SYS_SERIAL_HI.V < serial)) = true → ∃ t, exec (.pairLinkTrained versions pref serial fw) s = .next t ∧ s.engineOnly t ∧
    t.eng.rdPair R.PAIR_PEER_SERIAL_LO.V R.PAIR_PEER_SERIAL_HI.V = serial % 2 ^ 64 ∧ t.eng.rd R.PAIR_PEER_FW.V = fw % 2 ^ R.PAIR_PEER_FW.V.width ∧
    t.eng.mode = .m3 ∧ t.eng.pair.role = 1 ∧ t.eng.pair.drive = true ∧ t.eng.pair.st = 2 ∧ t.eng.pair.bootRole = false ∧ t.eng.pair.hbStopped =
    false) ∧
  (∀ (versions serial fw : Nat) (pref : Bool) (s : State), s.eng.pairEnabled = true → s.eng.pair.bootRole = true → (min (s.eng.rd R.PAIR_CTRL.PLMAX)
    versions) ≠ 0 → (s.eng.pair.peerOwn = true ∨ (if s.eng.on R.PAIR_CTRL.PREF ≠ pref then s.eng.on R.PAIR_CTRL.PREF else decide (s.eng.rdPair
    R.SYS_SERIAL_LO.V R.SYS_SERIAL_HI.V < serial)) = false) → ∃ t, exec (.pairLinkTrained versions pref serial fw) s = .next t ∧ s.engineOnly t ∧
    t.eng.rdPair R.PAIR_PEER_SERIAL_LO.V R.PAIR_PEER_SERIAL_HI.V = serial % 2 ^ 64 ∧ t.eng.rd R.PAIR_PEER_FW.V = fw % 2 ^ R.PAIR_PEER_FW.V.width ∧
    t.eng.mode = .m10 ∧ t.eng.pair.role = 2 ∧ t.eng.pair.drive = false ∧ t.eng.pair.st = 2 ∧ t.eng.pair.bootRole = false) ∧
  (∀ (s : State), s.eng.pair.linkUp = false → ∃ t, exec (.pairLinkDown) s = .next t ∧ s.engineOnly t ∧ t.eng = s.eng) ∧
  (∀ (s : State), s.eng.pair.linkUp = true → s.eng.pairEnabled = true → s.eng.modeIn [0, 1] = false → s.eng.hears → ∃ t, exec (.pairLinkDown) s =
    .next t ∧ s.engineOnly t ∧ t.eng.told 0x0F 0x11 0 none (0 + 256 * 2) ∧ t.eng.toldBytes [(24, 8, s.eng.rdPair R.PAIR_PEER_SERIAL_LO.V
    R.PAIR_PEER_SERIAL_HI.V), (32, 4, 0)] ∧ ({ s.eng with pair := { s.eng.pair with linkUp := false, plver := 0 } } : Engine).onlyBooks t.eng [])

/-- A windward without a heartbeat for 1 ms, or an acknowledgement within PAIR_ACK_TMO, enters SOLO with its FAULT and lets its held events go; a
leeward enters LOST, current if it was PAIRED. An expired ownership timer releases PAIR_OWN and, in M3 to M9, enters M10. The bulk copy done, the
windward is PAIRED and holds what it has built. With the link down or no common version a module claims 100 or 600 ms after boot unless PAIR_OWN is
asserted. A current leeward in LOST takes once PAIR_OWN is free; the install counts the takeover, empties staging memory, takes job and MSEQ from the
shadow, continues its DSEQ with TAKEOVER (UHP-3) and MODE_CHANGE and enters M6, or M3 where the windward was. A sensed line begins a readout. -/
def Obligations.PairRoles : Prop :=
  (∀ (s : State), s.eng.now < s.eng.pair.lastPeer.getD s.eng.pair.stTime + 1000000 → ∃ t, exec (.peerHeartbeatLoss) s = .next t ∧ s.engineOnly t ∧
    t.eng = s.eng) ∧
  (∀ (s : State), s.eng.pair.lastPeer.getD s.eng.pair.stTime + 1000000 ≤ s.eng.now → s.eng.ver = 3 → s.eng.pair.role = 1 → (s.eng.pair.st = 3 ∨
    s.eng.pair.st = 2) → s.eng.roomy → s.eng.uncounted = 0 → ∃ t, exec (.peerHeartbeatLoss) s = .next t ∧ s.engineOnly t ∧ s.eng.says t.eng 0x12 4 0
    none 2 ∧ t.eng.told 0x0F 0x11 0 none (1 + 256 * 5) ∧ t.eng.toldBytes [(24, 8, s.eng.rdPair R.PAIR_PEER_SERIAL_LO.V R.PAIR_PEER_SERIAL_HI.V), (32,
    4, 0)] ∧ ((t.eng.evt.queue.all fun v => !v.held) = true) ∧ ((t.eng.pair.tx.all fun x => x.delta.isNone) = true) ∧
    (({ s.eng with pair := { s.eng.pair with releasing := false, st := 4, stTime := s.eng.now }, mets := { s.eng.mets with recv := s.eng.mets.recv.map fun r => (r.1, r.2.1, false) } }
    : Engine).onlyBooks t.eng [])) ∧
  (∀ (s : State), s.eng.pair.lastPeer.getD s.eng.pair.stTime + 1000000 ≤ s.eng.now → s.eng.ver = 3 → s.eng.pair.role = 2 → (s.eng.pair.st = 3 ∨
    s.eng.pair.st = 2 ∨ s.eng.pair.st = 1) → s.eng.hears → ∃ t, exec (.peerHeartbeatLoss) s = .next t ∧ s.engineOnly t ∧ s.eng.says t.eng 0x12 5 0
    none 1 ∧ ({ s.eng with pair := { s.eng.pair with st := 5, stTime := s.eng.now, current := s.eng.pair.st == 3 } } : Engine).onlyBooks t.eng []) ∧
  (∀ (s : State), (s.eng.pair.tx.find? fun x => x.delta.isSome) = none → ∃ t, exec (.pairAckTimeout) s = .next t ∧ s.engineOnly t ∧ t.eng = s.eng) ∧
  (∀ (f : TxFrame) (s : State), (s.eng.pair.tx.find? fun x => x.delta.isSome) = some f → (s.eng.pair.role ≠ 1 ∨ s.eng.now < f.first + 1000 * s.eng.rd
    R.PAIR_ACK_TMO.V) → ∃ t, exec (.pairAckTimeout) s = .next t ∧ s.engineOnly t ∧ t.eng = s.eng) ∧
  (∀ (f : TxFrame) (s : State), (s.eng.pair.tx.find? fun x => x.delta.isSome) = some f → f.first + 1000 * s.eng.rd R.PAIR_ACK_TMO.V ≤ s.eng.now →
    s.eng.pair.role = 1 → (s.eng.pair.st = 3 ∨ s.eng.pair.st = 2) → s.eng.ver = 3 → s.eng.roomy → s.eng.uncounted = 0 → ∃ t, exec (.pairAckTimeout) s
    = .next t ∧ s.engineOnly t ∧ s.eng.says t.eng 0x12 4 0 none 2 ∧ t.eng.told 0x0F 0x11 0 none (0 + 256 * 1) ∧ t.eng.toldBytes [(24, 8, s.eng.rdPair
    R.PAIR_PEER_SERIAL_LO.V R.PAIR_PEER_SERIAL_HI.V), (32, 4, ofSigned 32 ((s.eng.now - f.first) / 1000 : Nat))] ∧ ((t.eng.evt.queue.all fun v =>
    !v.held) = true) ∧ ((t.eng.pair.tx.all fun x => x.delta.isNone) = true) ∧
    (({ s.eng with pair := { s.eng.pair with releasing := false, st := 4, stTime := s.eng.now }, mets := { s.eng.mets with recv := s.eng.mets.recv.map fun r => (r.1, r.2.1, false) } }
    : Engine).onlyBooks t.eng [])) ∧
  (∀ (s : State), (s.eng.pair.drive = false ∨ s.eng.now < s.eng.pair.lastSent + 1000000 * s.eng.rd R.PAIR_OWN_TMO.V) → ∃ t, exec (.ownershipTimer) s
    = .next t ∧ s.engineOnly t ∧ t.eng = s.eng) ∧
  (∀ (s : State), s.eng.pair.drive = true → s.eng.pair.lastSent + 1000000 * s.eng.rd R.PAIR_OWN_TMO.V ≤ s.eng.now → s.eng.modeIn [3, 4, 5, 6, 7, 8,
    9] = true → s.eng.roomy → ∃ t, exec (.ownershipTimer) s = .next t ∧ s.engineOnly t ∧ s.eng.says t.eng 0x0F 0x11 0 none (2 + 256 * 6) ∧ t.eng.mode
    = .m10 ∧ t.eng.pair.role = 2 ∧ t.eng.pair.drive = false ∧ t.eng.pair.st = 1 ∧ t.eng.opens = [] ∧ t.eng.job = JobSt.init ∧ (∀ r : Fin 17,
    t.eng.ringState (2 + r.val) = 0) ∧ ((t.eng.evt.queue.all fun v => !v.held) = true) ∧ ((t.eng.pair.tx.all fun x => x.delta.isNone) = true)) ∧
  (∀ (s : State), s.eng.pair.drive = true → s.eng.pair.lastSent + 1000000 * s.eng.rd R.PAIR_OWN_TMO.V ≤ s.eng.now → s.eng.modeIn [3, 4, 5, 6, 7, 8,
    9] = false → s.eng.hears → ∃ t, exec (.ownershipTimer) s = .next t ∧ s.engineOnly t ∧ t.eng.told 0x0F 0x11 0 none (2 + 256 * 6) ∧
    ({ s.eng with pair := { s.eng.pair with drive := false } } : Engine).onlyBooks t.eng []) ∧
  (∀ (s : State), s.eng.pair.role = 1 → s.eng.pair.st = 2 → s.eng.pair.linkUp = true → s.eng.ver = 3 → s.eng.hears → ∃ t, exec (.bulkCopyDone) s =
    .next t ∧ s.engineOnly t ∧ t.eng.told 0x12 3 0 none 2 ∧ t.eng.toldBytes [(24, 1, s.eng.pair.plver), (28, 4, s.eng.rd R.PAIR_PEER_FW.V)] ∧
    (t.eng.pair.tx.any (fun x => x.body == .bulkDone) = true) ∧ ((t.eng.evt.queue.take s.eng.evt.queue.length).all (fun v => v.held) = true) ∧
    (({ s.eng with pair := { s.eng.pair with st := 3, stTime := s.eng.now }, mets := { s.eng.mets with recv := s.eng.mets.recv.map fun r => (r.1, r.2.1, true) } }
    : Engine).onlyBooks t.eng [])) ∧
  (∀ (s : State), (s.eng.pair.role ≠ 1 ∨ s.eng.pair.st ≠ 2 ∨ s.eng.pair.linkUp = false) → ∃ t, exec (.bulkCopyDone) s = .next t ∧ s.engineOnly t ∧
    t.eng = s.eng) ∧
  (∀ (s : State), (s.eng.pair.bootRole = false ∨ (s.eng.pair.linkUp = true ∧ s.eng.pair.plver ≠ 0) ∨ s.eng.now < s.eng.pins.bootTime + 100000000) → ∃
    t, exec (.bootClaim) s = .next t ∧ s.engineOnly t ∧ t.eng = s.eng) ∧
  (∀ (s : State), s.eng.pair.bootRole = true → (s.eng.pair.linkUp = false ∨ s.eng.pair.plver = 0) → s.eng.pins.bootTime + (if s.eng.on
    R.PAIR_CTRL.PREF then 100000000 else 600000000) ≤ s.eng.now → s.eng.pair.peerOwn = false → ∃ t, exec (.bootClaim) s = .next t ∧ s.engineOnly t ∧
    t.eng.mode = .m3 ∧ t.eng.pair.role = 1 ∧ t.eng.pair.drive = true ∧ t.eng.pair.st = 4 ∧ t.eng.pair.bootRole = false ∧ t.eng.pair.hbStopped = false
    ∧ t.eng.pair.lastSent = s.eng.now) ∧
  (∀ (s : State), s.eng.pair.bootRole = true → (s.eng.pair.linkUp = false ∨ s.eng.pair.plver = 0) → s.eng.pins.bootTime + (if s.eng.on
    R.PAIR_CTRL.PREF then 100000000 else 600000000) ≤ s.eng.now → s.eng.pair.peerOwn = true → ∃ t, exec (.bootClaim) s = .next t ∧ s.engineOnly t ∧
    t.eng.mode = .m10 ∧ t.eng.pair.role = 2 ∧ t.eng.pair.drive = false ∧ t.eng.pair.bootRole = false) ∧
  (∀ (s : State), s.eng.pair.role = 2 → s.eng.pair.st = 5 → s.eng.pair.current = true → s.eng.ownFree 1000000 = true → (s.eng.on R.PAIR_CTRL.POLICY =
    false ∨ s.eng.pair.releasing = true) → s.eng.ver = 3 → s.eng.hears → ∃ t, exec (.takeoverStart) s = .next t ∧ s.engineOnly t ∧ s.eng.says t.eng
    0x12 6 0 none 1 ∧
    ({ s.eng with pair := { s.eng.pair with drive := true, takeAt := some s.eng.now, cause := if s.eng.pair.releasing then 2 else 1, lastSent := s.eng.now, hbStopped := false, st := 6, stTime := s.eng.now } }
    : Engine).onlyBooks t.eng []) ∧
  (∀ (s : State), (s.eng.pair.role ≠ 2 ∨ s.eng.pair.st ≠ 5 ∨ s.eng.pair.current = false ∨ s.eng.ownFree 1000000 = false ∨ (s.eng.on
    R.PAIR_CTRL.POLICY = true ∧ s.eng.pair.releasing = false)) → ∃ t, exec (.takeoverStart) s = .next t ∧ s.engineOnly t ∧ t.eng = s.eng) ∧
  (∀ (s : State), s.eng.pair.st ≠ 6 → ∃ t, exec (.takeoverInstall) s = .next t ∧ t = s) ∧
  (∀ (s : State), s.eng.pair.st = 6 → s.eng.mode = .m10 → s.eng.resetting = none → s.eng.pins.failed = false → (¬ (s.eng.pair.shadow.mode = 3 ∨
    s.eng.pair.shadow.mode = 7 ∨ s.eng.pair.shadow.mode = 8 ∨ s.eng.pair.shadow.mode = 11)) → R.UHP_SELECT.VER.get (Sparse.get RegMap.resetWord
    s.eng.pair.shadow.regs R.UHP_SELECT.VER.off) = 3 → ∃ t, exec (.takeoverInstall) s = .next t ∧ t.eng.mode = .m6 ∧ t.eng.pair.role = 1 ∧
    t.eng.pair.st = 4 ∧ t.eng.job.isOpen = s.eng.pair.shadow.job ∧ t.eng.job.id = s.eng.pair.shadow.jobId ∧ t.eng.status.lastMseq =
    s.eng.pair.shadow.mseq ∧ t.eng.rd R.PAIR_TAKEOVERS.V = (s.eng.flash.takeovers + 1) % 2 ^ 32 ∧ t.eng.flash.takeovers = s.eng.flash.takeovers + 1 ∧
    t.eng.on R.SYS_RESET_CAUSE.TAKEOVER = true ∧ (t.eng.evt.queue.take 2).map Ev.brief = [(0x11, s.eng.pair.cause, 0, none, 0), (0x15, 6, 0, none, 10
    + 256 * 9)] ∧ (t.eng.evt.queue.head?.map (fun v => v.dseq) = some ((s.eng.pair.shadow.dseq + 1) % 2 ^ 32)) ∧ t.stg = ⟨[], []⟩ ∧ t.sec = s.sec ∧
    t.pending = s.pending) ∧
  (∀ (s : State), s.eng.pair.st = 6 → s.eng.mode = .m10 → s.eng.resetting = none → s.eng.pins.failed = false → (¬ (s.eng.pair.shadow.mode = 3 ∨
    s.eng.pair.shadow.mode = 7 ∨ s.eng.pair.shadow.mode = 8 ∨ s.eng.pair.shadow.mode = 11)) → R.UHP_SELECT.VER.get (Sparse.get RegMap.resetWord
    s.eng.pair.shadow.regs R.UHP_SELECT.VER.off) ≠ 3 → ∃ t, exec (.takeoverInstall) s = .next t ∧ t.eng.mode = .m6 ∧ (t.eng.evt.queue.take 1).map
    Ev.brief = [(0x15, 6, 0, none, 10 + 256 * 9)] ∧ (t.eng.evt.queue.head?.map (fun v => v.dseq) = some ((s.eng.pair.shadow.dseq + 1) % 2 ^ 32)) ∧
    t.stg = ⟨[], []⟩ ∧ t.sec = s.sec ∧ t.pending = s.pending) ∧
  (∀ (s : State), s.eng.pair.st = 6 → s.eng.mode = .m10 → s.eng.resetting = none → s.eng.pins.failed = false → (s.eng.pair.shadow.mode = 3 ∨
    s.eng.pair.shadow.mode = 11) → ∃ t, exec (.takeoverInstall) s = .next t ∧ t.eng.mode = .m3 ∧ t.eng.pair.role = 1 ∧ t.eng.pair.st = 4 ∧ t.stg =
    ⟨[], []⟩ ∧ t.sec = s.sec ∧ t.pending = s.pending) ∧
  (∀ (side : Side) (s : State), (s.eng.mode ≠ .m10 ∨ s.eng.pair.role ≠ 2 ∨ (s.eng.gen side.val).run.isSome ∨ s.eng.on (R.TG_CTRL.EN side.val) =
    false) → ∃ t, exec (.sensedLineEdge side) s = .next t ∧ s.engineOnly t ∧ t.eng = s.eng) ∧
  (∀ (side : Side) (k : Int) (s : State), s.eng.mode = .m10 → s.eng.pair.role = 2 → (s.eng.gen side.val).run = none → s.eng.on (R.TG_CTRL.EN
    side.val) = true → k = Int.fdiv s.eng.mot.pos s.eng.pitch - 1 - s.eng.mot.base → ∃ t, exec (.sensedLineEdge side) s = .next t ∧ (t.eng =
    { (s.eng.rotateDue side.val) with tg := modAt (s.eng.rotateDue side.val).tg side.val fun g => { g with lastStart := some s.eng.now, run := some ⟨⟨k, none, false, s.eng.now⟩, s.eng.now, [0, 0, 0, 0], (s.eng.gen side.val).expgen, s.eng.on (R.AFE_STATUS.CONV_RUN side.val), (s.eng.rotateDue side.val).trimsNow side.val, (s.eng.rotateDue side.val).cfgsNow side.val⟩ } })
    ∧ (t.sec = (if s.eng.on (R.AFE_STATUS.CONV_RUN side.val) = true ∧ side.val < s.eng.tg.length then s.sec.latch side.val s.eng.secNow else s.sec))
    ∧ t.stg = s.stg ∧ t.pending = s.pending)

/-- For every command and state, a step with the command at the front of the queue is exec of that command on the state with the rest of the queue;
with an empty queue device time advances by 1 ns and, but for a windward that mirrors its state to a leeward, nothing else changes; what such a
windward sends changes the pair block alone. The queue and the idle step are the model's own choice (logs 4, 158): the spec names no queue. -/
def Obligations.StepTakesTheFront : Prop :=
  (∀ (c : Instr) (rest : List Instr) (s : State), step { s with pending := c :: rest } = exec c { s with pending := rest }) ∧
  (∀ s : State, s.pending = [] → ¬ (s.eng.pair.role = 1 ∧ s.eng.pair.linkUp = true ∧ (s.eng.pair.st = 2 ∨ s.eng.pair.st = 3)) →
    step s = .next { s with eng := { s.eng with now := (s.eng.now + 1) % 2 ^ 64 } }) ∧
  (∀ s : State, s.pending = [] → ∃ p : PairSt, step s = .next { s with eng := { s.eng with now := (s.eng.now + 1) % 2 ^ 64, pair := p } } ∧
    p = { s.eng.pair with tx := p.tx, txNext := p.txNext, image := p.image })

/-- Every command of the table answers a next state in every state (none ends in a fault or a refusal), and leaves the queue of waiting commands as
it was. -/
def Obligations.CommandsAnswerAndLeaveTheQueue : Prop :=
  ∀ (c : Instr) (s : State), ∃ t, exec c s = .next t ∧ t.pending = s.pending

/-- In every state whose staging memory (its bytes and its marks of bad parity) is in canonical form, whatever command a step takes, the next state's
staging memory is in canonical form: equal contents are equal data. -/
def Obligations.StagingStaysCanonical : Prop :=
  ∀ s t : State, s.staged → step s = .next t → t.staged

/-- State.reset is the block right after a power-on reset: no command waits and none is open, staging memory is empty and canonical, device time is
0, every ring is OFF, no job is open, the mode is M1 (the reset value of SYS_MODE; log 44), EVT holds the one MODE_CHANGE from M0 to M1 with DSEQ 1,
and every register holds its reset word but for the level of EVT. -/
def Obligations.ResetState : Prop :=
  State.reset.pending = [] ∧ State.reset.stg = ⟨[], []⟩ ∧ State.reset.staged ∧ State.reset.eng.opens = [] ∧ State.reset.eng.now = 0 ∧
  State.reset.eng.mode = .m1 ∧ State.reset.eng.job.isOpen = false ∧ State.reset.sec.audit = 0 ∧ State.reset.sec.store = [] ∧
  (∀ r : Fin 19, State.reset.eng.ringState r.val = 0) ∧
  State.reset.eng.evt.queue.map Ev.brief = [(0x15, 1, 0, none, 0 + 256 * 1)] ∧ State.reset.eng.evt.queue.map (fun v => v.dseq) = [1] ∧
  State.reset.eng.rd (R.QUE_LEVEL.LEVEL 64) = 16 ∧
  (∀ off, off ≠ (R.QUE_LEVEL.LEVEL 64).off → State.reset.eng.word off = RegMap.resetWord off)

/-- On fade line n0 + j, j from 0 to N − 1, the weight is ⌊65,536 (j + 1) / (N + 1)⌋, and the D and the G that stage 6 takes for a pixel of a named
channel are old + ⌊((new − old) w + 32,768) / 65,536⌋, in integers, old being the field of the active bank and new that of the other. -/
def Obligations.FadeBlendsCoefficients : Prop :=
  ∀ (e : Engine) (c p j w : Nat) (f : SwapSt), e.shd.fade = some f → bitOf f.mask c = true → j < f.len → w = 65536 * (j + 1) / (f.len + 1) →
    ((e.coefAtLine c (f.n0 + j) p).d : Int) = (e.coefOf c (e.bankOf c) p).d +
        Int.fdiv ((((e.coefOf c (1 - e.bankOf c) p).d : Int) - (e.coefOf c (e.bankOf c) p).d) * w + 32768) 65536 ∧
      ((e.coefAtLine c (f.n0 + j) p).g : Int) = (e.coefOf c (e.bankOf c) p).g +
        Int.fdiv ((((e.coefOf c (1 - e.bankOf c) p).g : Int) - (e.coefOf c (e.bankOf c) p).g) * w + 32768) 65536

/-- When the switches are evaluated, under the map in force (R315), an enabled switch whose source has a value (no fault, no invalid polynomial, no
overload): with SET > CLR it is active at or above SET, inactive at or below CLR; with SET < CLR active at or below SET, inactive at or above CLR;
between the two levels it keeps its state; with SET = CLR it is active exactly at or above SET. -/
def Obligations.ThresholdSwitches : Prop :=
  ∀ (x : Section) (n : Fin 4) (i : Nat) (v lo hi : Rat), x.actOn (R.MET_TH_CFG.EN n.val) = true → x.thInput n.val = some i → x.faulty i = false →
    (x.act (R.MET_IN_CFG.LIN i) ≠ 1 ∨ x.fe.polyOk = true) →
    (x.act (R.MET_TH_CFG.SRC n.val) < 8 → (x.inp i).ovr = none) → x.thSource n.val = some v →
    hi = f32ToRat (x.act (R.MET_TH_SET.V n.val)) → lo = f32ToRat (x.act (R.MET_TH_CLR.V n.val)) →
    (lo < hi → (hi ≤ v → x.switches.1.fe.th.getD n.val false = true) ∧ (v ≤ lo → x.switches.1.fe.th.getD n.val false = false) ∧
        (lo < v → v < hi → x.switches.1.fe.th.getD n.val false = x.fe.th.getD n.val false)) ∧
      (hi < lo → (v ≤ hi → x.switches.1.fe.th.getD n.val false = true) ∧ (lo ≤ v → x.switches.1.fe.th.getD n.val false = false) ∧
        (hi < v → v < lo → x.switches.1.fe.th.getD n.val false = x.fe.th.getD n.val false)) ∧
      (hi = lo → x.switches.1.fe.th.getD n.val false = decide (hi ≤ v))

/-- An aligned write to an offset at which no block table names a register, or in the ranges 0x13000–0x1FFFF, 0x28000–0x2FFFF and 0x40000–0x7FFFF,
changes nothing at all, SYS_WRITE_IGNORED included, in every mode; such an offset reads 0. -/
def Obligations.NothingAtUnlistedOffsets : Prop :=
  ∀ (off : BitVec 20) (value hw : Word) (s : State), off.toNat % 4 = 0 →
    ((off.toNat < 0x20000 ∧ RegMap.find off.toNat = none) ∨ (0x13000 ≤ off.toNat ∧ off.toNat < 0x20000) ∨ (0x28000 ≤ off.toNat ∧ off.toNat < 0x30000) ∨
      (0x40000 ≤ off.toNat ∧ off.toNat < 0x80000)) → exec (.registerWrite ⟨.bar0, off⟩ value hw) s = .next s ∧ s.eng.readReg off.toNat = 0

/-- In every state with the seal closed whose parameters are those stored, whatever command runs: the parameters in force and in flash, the words of
the section's map that set up its front end (EN and LEVEL of MET_VEX among them), the key pair and the audit counter are after it what they were; a
stored record keeps its bytes. -/
def Obligations.SealedSectionKeepsItsParameters : Prop :=
  ∀ (c : Instr) (s t : State), s.sec.sealOpen = false → s.sec.params = s.sec.storedParams →
    (∀ off, off < 0x200140 → off ≠ R.MET_VEX.EN.off → Sparse.get RegMap.resetWord s.sec.stored off = s.sec.word off) →
    R.MET_VEX.EN.get (Sparse.get RegMap.resetWord s.sec.stored R.MET_VEX.EN.off) = s.sec.rd R.MET_VEX.EN →
    R.MET_VEX.LEVEL.get (Sparse.get RegMap.resetWord s.sec.stored R.MET_VEX.EN.off) = s.sec.rd R.MET_VEX.LEVEL → exec c s = .next t →
    t.sec.params = s.sec.params ∧ t.sec.storedParams = s.sec.storedParams ∧ t.sec.stored = s.sec.stored ∧ t.sec.keyGen = s.sec.keyGen ∧
      t.sec.audit = s.sec.audit ∧ t.sec.rd R.MET_VEX.EN = s.sec.rd R.MET_VEX.EN ∧ t.sec.rd R.MET_VEX.LEVEL = s.sec.rd R.MET_VEX.LEVEL ∧
      (∀ off, off < 0x200140 → off ≠ R.MET_VEX.EN.off → t.sec.word off = s.sec.word off) ∧
      (∀ r ∈ t.sec.store, r.mseq ≤ s.sec.mseq → ∃ q ∈ s.sec.store, q.mseq = r.mseq ∧ q.bytes = r.bytes)

/-- In every state, whatever command a step takes: the audit counter, the highest MSEQ given and the count of key pairs do not fall, and every record
of the store that has not been acknowledged is still in the store, with its MSEQ and its bytes (its signature among them); resets, restarts, power
failures and takeovers included. -/
def Obligations.NothingLegalIsLost : Prop :=
  ∀ s t : State, step s = .next t → s.sec.audit ≤ t.sec.audit ∧ s.sec.mseq ≤ t.sec.mseq ∧ s.sec.keyGen ≤ t.sec.keyGen ∧
    ∀ r ∈ s.sec.store, r.acked = false → ∃ q ∈ t.sec.store, q.mseq = r.mseq ∧ q.bytes = r.bytes
end

