-- ==== Sys2Proof/Laws/Sparse.lean ====
section
/-!
SUPPORT. The laws of the sparse stores: what a write changes and what it leaves, and that every operation keeps the canonical form.
-/

namespace Sys2Proof.Sparse

variable {α : Type} (d : Nat → α)

@[simp] theorem get_nil (k : Nat) : get d ([] : Sparse α) k = d k := rfl

theorem get_erase_same (m : Sparse α) (k : Nat) : get d (erase k m) k = d k := by
  induction m with
  | nil => rfl
  | cons c t ih =>
    obtain ⟨a, v⟩ := c
    by_cases h : a = k <;> simp [erase, get, h, ih]

theorem get_erase_ne (m : Sparse α) {k j : Nat} (h : j ≠ k) : get d (erase k m) j = get d m j := by
  induction m with
  | nil => rfl
  | cons c t ih =>
    obtain ⟨a, v⟩ := c
    by_cases ha : a = k
    · subst ha; simp [erase, get, ih, h.symm]
    · simp [erase, get, ha, ih]

theorem get_insert_same (m : Sparse α) (k : Nat) (x : α) : get d (insert k x m) k = x := by
  induction m with
  | nil => simp [insert, get]
  | cons c t ih =>
    obtain ⟨a, v⟩ := c
    unfold insert
    split
    · have : a ≠ k := by omega
      simp [get, this, ih]
    · split <;> simp [get]

theorem get_insert_ne (m : Sparse α) {k j : Nat} (x : α) (h : j ≠ k) : get d (insert k x m) j = get d m j := by
  induction m with
  | nil => simp [insert, get, h.symm]
  | cons c t ih =>
    obtain ⟨a, v⟩ := c
    unfold insert
    split
    · simp [get, ih]
    · split
      · rename_i h1; subst h1; simp [get, h.symm]
      · simp [get, h.symm]

/-! ### The canonical form -/

theorem allAbove_mono {k j : Nat} (h : k ≤ j) (m : Sparse α) (hm : allAbove j m = true) : allAbove k m = true := by
  induction m with
  | nil => rfl
  | cons c t ih =>
    obtain ⟨a, v⟩ := c
    simp only [allAbove, Bool.and_eq_true, decide_eq_true_eq] at hm ⊢
    exact ⟨by omega, ih hm.2⟩

theorem allAbove_erase (k j : Nat) (m : Sparse α) (hm : allAbove j m = true) : allAbove j (erase k m) = true := by
  induction m with
  | nil => rfl
  | cons c t ih =>
    obtain ⟨a, v⟩ := c
    simp only [allAbove, Bool.and_eq_true, decide_eq_true_eq] at hm
    by_cases h : a = k
    · simp [erase, h, ih hm.2]
    · simp [erase, h, allAbove, hm.1, ih hm.2]

theorem allAbove_insert {k j : Nat} (x : α) (m : Sparse α) (hk : j < k) (hm : allAbove j m = true) :
    allAbove j (insert k x m) = true := by
  induction m with
  | nil => simp [insert, allAbove, hk]
  | cons c t ih =>
    obtain ⟨a, v⟩ := c
    have hm' := hm
    simp only [allAbove, Bool.and_eq_true, decide_eq_true_eq] at hm
    unfold insert
    split
    · simp [allAbove, hm.1, ih hm.2]
    · split
      · simp [allAbove, hk, hm.2]
      · simp [allAbove, hk, hm]

variable [DecidableEq α]

/-- A read after a write of the same key gives what was written. -/
@[simp] theorem get_set_same (m : Sparse α) (k : Nat) (x : α) : get d (set d m k x) k = x := by
  unfold set
  split
  · rename_i h; rw [get_erase_same, h]
  · exact get_insert_same d m k x

/-- A write leaves every other key. -/
theorem get_set_ne (m : Sparse α) {k j : Nat} (x : α) (h : j ≠ k) : get d (set d m k x) j = get d m j := by
  unfold set
  split
  · exact get_erase_ne d m h
  · exact get_insert_ne d m x h

theorem wf_erase (k : Nat) (m : Sparse α) (hm : wf d m = true) : wf d (erase k m) = true := by
  induction m with
  | nil => rfl
  | cons c t ih =>
    obtain ⟨a, v⟩ := c
    simp only [wf, Bool.and_eq_true] at hm
    by_cases h : a = k
    · simp [erase, h, ih hm.2]
    · simp only [erase, h, if_false, wf, Bool.and_eq_true]
      exact ⟨⟨hm.1.1, allAbove_erase k a t hm.1.2⟩, ih hm.2⟩

theorem wf_insert (k : Nat) (x : α) (m : Sparse α) (hx : x ≠ d k) (hm : wf d m = true) : wf d (insert k x m) = true := by
  induction m with
  | nil => simp [insert, wf, allAbove, hx]
  | cons c t ih =>
    obtain ⟨a, v⟩ := c
    have hm' := hm
    simp only [wf, Bool.and_eq_true, decide_eq_true_eq] at hm
    unfold insert
    split
    · rename_i h
      simp only [wf, Bool.and_eq_true, decide_eq_true_eq]
      exact ⟨⟨hm.1.1, allAbove_insert x t h hm.1.2⟩, ih hm.2⟩
    · split
      · rename_i h1 h2
        subst h2
        simp only [wf, Bool.and_eq_true, decide_eq_true_eq]
        exact ⟨⟨hx, hm.1.2⟩, hm.2⟩
      · rename_i h1 h2
        have hlt : k < a := by omega
        simp only [wf, allAbove, Bool.and_eq_true, decide_eq_true_eq]
        exact ⟨⟨hx, hlt, allAbove_mono (Nat.le_of_lt hlt) t hm.1.2⟩, hm.1, hm.2⟩

/-- A write keeps the canonical form. -/
theorem wf_set (m : Sparse α) (k : Nat) (x : α) (hm : wf d m = true) : wf d (set d m k x) = true := by
  unfold set
  split
  · exact wf_erase d k m hm
  · rename_i h; exact wf_insert d k x m h hm

/-- A run of writes keeps the canonical form. -/
theorem wf_setMany (l : List α) (m : Sparse α) (k : Nat) (hm : wf d m = true) : wf d (setMany d m k l) = true := by
  induction l generalizing m k with
  | nil => exact hm
  | cons x t ih => exact ih _ _ (wf_set d m k x hm)

/-- What a store in canonical form lists at or above a bound is canonical, and so is any other part of it. -/
theorem wf_filter (p : Nat × α → Bool) (m : Sparse α) (hm : wf d m = true) : wf d (m.filter p) = true := by
  have hab : ∀ (t : Sparse α) (a : Nat), allAbove a t = true → allAbove a (t.filter p) = true := by
    intro t
    induction t with
    | nil => intro a h; rfl
    | cons c t ih =>
      intro a h
      simp only [allAbove, Bool.and_eq_true, decide_eq_true_eq] at h
      by_cases hp : p c = true
      · rw [List.filter_cons_of_pos hp]; simp [allAbove, h.1, ih a h.2]
      · rw [List.filter_cons_of_neg hp]; exact ih a h.2
  induction m with
  | nil => rfl
  | cons c t ih =>
    simp only [wf, Bool.and_eq_true] at hm
    by_cases hp : p c = true
    · rw [List.filter_cons_of_pos hp]
      simp only [wf, Bool.and_eq_true]
      exact ⟨⟨hm.1.1, hab t _ hm.1.2⟩, ih hm.2⟩
    · rw [List.filter_cons_of_neg hp]; exact ih hm.2

end Sys2Proof.Sparse
end

