-- ==== Sys2Proof/Laws/Fields.lean ====
section
/-!
SUPPORT. The laws of register fields: what a write to a field leaves in the same field, in another field of its register, and in another
register.
-/

namespace Sys2Proof

/-- A field lies within a 32-bit register. -/
def Fld.fits (f : Fld) : Prop := f.lo ≤ f.hi ∧ f.hi < 32

/-- Two fields have no bit in common. -/
def Fld.apart (f g : Fld) : Prop := f.hi < g.lo ∨ g.hi < f.lo

theorem Fld.testBit_get (f : Fld) (w : Word) (i : Nat) :
    (f.get w).testBit i = (decide (i < f.width) && w.getLsbD (f.lo + i)) := by
  simp [Fld.get, Nat.testBit_mod_two_pow, Nat.testBit_shiftRight, BitVec.getLsbD]

theorem Fld.getLsbD_put (f : Fld) (w : Word) (v j : Nat) (hj : j < 32) :
    (f.put w v).getLsbD j = if f.lo ≤ j ∧ j < f.lo + f.width then v.testBit (j - f.lo) else w.getLsbD j := by
  have hb (n k : Nat) (hk : k < 32) : (BitVec.ofNat 32 n).getLsbD k = n.testBit k := by rw [BitVec.getLsbD_ofNat]; simp [hk]
  have hm : (2 ^ f.width - 1).testBit (j - f.lo) = decide (j - f.lo < f.width) := Nat.testBit_two_pow_sub_one _ _
  unfold Fld.put Fld.mask
  rw [BitVec.getLsbD_or, BitVec.getLsbD_and, BitVec.getLsbD_not, BitVec.getLsbD_shiftLeft, BitVec.getLsbD_shiftLeft,
    hb _ _ (by omega), hb _ _ (by omega), hm, Nat.testBit_mod_two_pow]
  by_cases h : f.lo ≤ j
  · have hn : ¬ j < f.lo := by omega
    by_cases h2 : j < f.lo + f.width
    · have h3 : j - f.lo < f.width := by omega
      simp [hj, hn, h, h2, h3]
    · have h3 : ¬ j - f.lo < f.width := by omega
      simp [hj, hn, h2, h3]
  · have hl : j < f.lo := by omega
    simp [hj, h, hl]

/-- A field reads back what was put into it, as far as it holds it. -/
theorem Fld.get_put_same (f : Fld) (hf : f.fits) (w : Word) (v : Nat) : f.get (f.put w v) = v % 2 ^ f.width := by
  apply Nat.eq_of_testBit_eq
  intro i
  rw [Fld.testBit_get, Nat.testBit_mod_two_pow]
  by_cases hi : i < f.width
  · have hj : f.lo + i < 32 := by have := hf.1; have := hf.2; unfold Fld.width at hi; omega
    rw [Fld.getLsbD_put f w v _ hj]
    simp [hi]
  · simp [hi]

/-- A field keeps its value when a field apart from it in the same register is written. -/
theorem Fld.get_put_apart (f g : Fld) (hf : f.fits) (hg : g.fits) (h : f.apart g) (w : Word) (v : Nat) :
    f.get (g.put w v) = f.get w := by
  apply Nat.eq_of_testBit_eq
  intro i
  rw [Fld.testBit_get, Fld.testBit_get]
  by_cases hi : i < f.width
  · have hj : f.lo + i < 32 := by have := hf.1; have := hf.2; unfold Fld.width at hi; omega
    rw [Fld.getLsbD_put g w v _ hj]
    have hout : ¬ (g.lo ≤ f.lo + i ∧ f.lo + i < g.lo + g.width) := by
      have := hf.1; have := hg.1
      unfold Fld.width at *
      rcases h with h | h <;> omega
    simp [hi, hout]
  · simp [hi]

/-- A field is below the power of two of its width. -/
theorem Fld.get_lt (f : Fld) (w : Word) : f.get w < 2 ^ f.width := Nat.mod_lt _ (Nat.two_pow_pos _)

end Sys2Proof
end

