-- ==== Sys2Proof/Laws/State.lean ====
section
/-!
SUPPORT. What each named update of the state leaves unchanged: one lemma per field and update, each true by unfolding. A proof about a meaning cites these and
unfolds no record update.
-/

namespace Sys2Proof.Machine

/-! ### The parts of the state -/

@[simp] theorem State.onEng_eng (s : State) (f : Engine → Engine) : (s.onEng f).eng = f s.eng := rfl
@[simp] theorem State.onEng_stg (s : State) (f : Engine → Engine) : (s.onEng f).stg = s.stg := rfl
@[simp] theorem State.onEng_sec (s : State) (f : Engine → Engine) : (s.onEng f).sec = s.sec := rfl
@[simp] theorem State.onEng_pending (s : State) (f : Engine → Engine) : (s.onEng f).pending = s.pending := rfl
@[simp] theorem State.onMem_eng (s : State) (f : Engine → Staging → Engine × Staging) : (s.onMem f).eng = (f s.eng s.stg).1 := rfl
@[simp] theorem State.onMem_stg (s : State) (f : Engine → Staging → Engine × Staging) : (s.onMem f).stg = (f s.eng s.stg).2 := rfl
@[simp] theorem State.onMem_sec (s : State) (f : Engine → Staging → Engine × Staging) : (s.onMem f).sec = s.sec := rfl
@[simp] theorem State.onMem_pending (s : State) (f : Engine → Staging → Engine × Staging) : (s.onMem f).pending = s.pending := rfl
@[simp] theorem State.onSec_sec (s : State) (f : Section → Nat → Section × List MetIn) : (s.onSec f).sec = (f s.sec s.eng.secNow).1 := rfl
@[simp] theorem State.onSec_stg (s : State) (f : Section → Nat → Section × List MetIn) : (s.onSec f).stg = s.stg := rfl
@[simp] theorem State.onSec_pending (s : State) (f : Section → Nat → Section × List MetIn) : (s.onSec f).pending = s.pending := rfl

namespace Engine

/-! ### setWord -/

@[simp] theorem setWord_mode (e : Engine) (off : Nat) (w : Word) : (e.setWord off w).mode = e.mode := rfl
@[simp] theorem setWord_now (e : Engine) (off : Nat) (w : Word) : (e.setWord off w).now = e.now := rfl
@[simp] theorem setWord_jump (e : Engine) (off : Nat) (w : Word) : (e.setWord off w).jump = e.jump := rfl
@[simp] theorem setWord_free (e : Engine) (off : Nat) (w : Word) : (e.setWord off w).free = e.free := rfl
@[simp] theorem setWord_rsp (e : Engine) (off : Nat) (w : Word) : (e.setWord off w).rsp = e.rsp := rfl
@[simp] theorem setWord_trans (e : Engine) (off : Nat) (w : Word) : (e.setWord off w).trans = e.trans := rfl
@[simp] theorem setWord_resetting (e : Engine) (off : Nat) (w : Word) : (e.setWord off w).resetting = e.resetting := rfl
@[simp] theorem setWord_pins (e : Engine) (off : Nat) (w : Word) : (e.setWord off w).pins = e.pins := rfl
@[simp] theorem setWord_flash (e : Engine) (off : Nat) (w : Word) : (e.setWord off w).flash = e.flash := rfl
@[simp] theorem setWord_link (e : Engine) (off : Nat) (w : Word) : (e.setWord off w).link = e.link := rfl
@[simp] theorem setWord_evt (e : Engine) (off : Nat) (w : Word) : (e.setWord off w).evt = e.evt := rfl
@[simp] theorem setWord_opens (e : Engine) (off : Nat) (w : Word) : (e.setWord off w).opens = e.opens := rfl
@[simp] theorem setWord_cmdIn (e : Engine) (off : Nat) (w : Word) : (e.setWord off w).cmdIn = e.cmdIn := rfl
@[simp] theorem setWord_rings (e : Engine) (off : Nat) (w : Word) : (e.setWord off w).rings = e.rings := rfl
@[simp] theorem setWord_status (e : Engine) (off : Nat) (w : Word) : (e.setWord off w).status = e.status := rfl
@[simp] theorem setWord_streams (e : Engine) (off : Nat) (w : Word) : (e.setWord off w).streams = e.streams := rfl
@[simp] theorem setWord_dma (e : Engine) (off : Nat) (w : Word) : (e.setWord off w).dma = e.dma := rfl
@[simp] theorem setWord_tg (e : Engine) (off : Nat) (w : Word) : (e.setWord off w).tg = e.tg := rfl
@[simp] theorem setWord_mot (e : Engine) (off : Nat) (w : Word) : (e.setWord off w).mot = e.mot := rfl
@[simp] theorem setWord_pac (e : Engine) (off : Nat) (w : Word) : (e.setWord off w).pac = e.pac := rfl
@[simp] theorem setWord_feed (e : Engine) (off : Nat) (w : Word) : (e.setWord off w).feed = e.feed := rfl
@[simp] theorem setWord_squall (e : Engine) (off : Nat) (w : Word) : (e.setWord off w).squall = e.squall := rfl
@[simp] theorem setWord_job (e : Engine) (off : Nat) (w : Word) : (e.setWord off w).job = e.job := rfl
@[simp] theorem setWord_frames (e : Engine) (off : Nat) (w : Word) : (e.setWord off w).frames = e.frames := rfl
@[simp] theorem setWord_gus (e : Engine) (off : Nat) (w : Word) : (e.setWord off w).gus = e.gus := rfl
@[simp] theorem setWord_qdr (e : Engine) (off : Nat) (w : Word) : (e.setWord off w).qdr = e.qdr := rfl
@[simp] theorem setWord_pair (e : Engine) (off : Nat) (w : Word) : (e.setWord off w).pair = e.pair := rfl
@[simp] theorem setWord_afe (e : Engine) (off : Nat) (w : Word) : (e.setWord off w).afe = e.afe := rfl
@[simp] theorem setWord_chans (e : Engine) (off : Nat) (w : Word) : (e.setWord off w).chans = e.chans := rfl
@[simp] theorem setWord_shd (e : Engine) (off : Nat) (w : Word) : (e.setWord off w).shd = e.shd := rfl
@[simp] theorem setWord_eddy (e : Engine) (off : Nat) (w : Word) : (e.setWord off w).eddy = e.eddy := rfl
@[simp] theorem setWord_cal (e : Engine) (off : Nat) (w : Word) : (e.setWord off w).cal = e.cal := rfl
@[simp] theorem setWord_geo (e : Engine) (off : Nat) (w : Word) : (e.setWord off w).geo = e.geo := rfl
@[simp] theorem setWord_mon (e : Engine) (off : Nat) (w : Word) : (e.setWord off w).mon = e.mon := rfl
@[simp] theorem setWord_met (e : Engine) (off : Nat) (w : Word) : (e.setWord off w).met = e.met := rfl
@[simp] theorem setWord_mets (e : Engine) (off : Nat) (w : Word) : (e.setWord off w).mets = e.mets := rfl

/-! ### wr -/

@[simp] theorem wr_mode (e : Engine) (f : Fld) (v : Nat) : (e.wr f v).mode = e.mode := rfl
@[simp] theorem wr_now (e : Engine) (f : Fld) (v : Nat) : (e.wr f v).now = e.now := rfl
@[simp] theorem wr_jump (e : Engine) (f : Fld) (v : Nat) : (e.wr f v).jump = e.jump := rfl
@[simp] theorem wr_free (e : Engine) (f : Fld) (v : Nat) : (e.wr f v).free = e.free := rfl
@[simp] theorem wr_rsp (e : Engine) (f : Fld) (v : Nat) : (e.wr f v).rsp = e.rsp := rfl
@[simp] theorem wr_trans (e : Engine) (f : Fld) (v : Nat) : (e.wr f v).trans = e.trans := rfl
@[simp] theorem wr_resetting (e : Engine) (f : Fld) (v : Nat) : (e.wr f v).resetting = e.resetting := rfl
@[simp] theorem wr_pins (e : Engine) (f : Fld) (v : Nat) : (e.wr f v).pins = e.pins := rfl
@[simp] theorem wr_flash (e : Engine) (f : Fld) (v : Nat) : (e.wr f v).flash = e.flash := rfl
@[simp] theorem wr_link (e : Engine) (f : Fld) (v : Nat) : (e.wr f v).link = e.link := rfl
@[simp] theorem wr_evt (e : Engine) (f : Fld) (v : Nat) : (e.wr f v).evt = e.evt := rfl
@[simp] theorem wr_opens (e : Engine) (f : Fld) (v : Nat) : (e.wr f v).opens = e.opens := rfl
@[simp] theorem wr_cmdIn (e : Engine) (f : Fld) (v : Nat) : (e.wr f v).cmdIn = e.cmdIn := rfl
@[simp] theorem wr_rings (e : Engine) (f : Fld) (v : Nat) : (e.wr f v).rings = e.rings := rfl
@[simp] theorem wr_status (e : Engine) (f : Fld) (v : Nat) : (e.wr f v).status = e.status := rfl
@[simp] theorem wr_streams (e : Engine) (f : Fld) (v : Nat) : (e.wr f v).streams = e.streams := rfl
@[simp] theorem wr_dma (e : Engine) (f : Fld) (v : Nat) : (e.wr f v).dma = e.dma := rfl
@[simp] theorem wr_tg (e : Engine) (f : Fld) (v : Nat) : (e.wr f v).tg = e.tg := rfl
@[simp] theorem wr_mot (e : Engine) (f : Fld) (v : Nat) : (e.wr f v).mot = e.mot := rfl
@[simp] theorem wr_pac (e : Engine) (f : Fld) (v : Nat) : (e.wr f v).pac = e.pac := rfl
@[simp] theorem wr_feed (e : Engine) (f : Fld) (v : Nat) : (e.wr f v).feed = e.feed := rfl
@[simp] theorem wr_squall (e : Engine) (f : Fld) (v : Nat) : (e.wr f v).squall = e.squall := rfl
@[simp] theorem wr_job (e : Engine) (f : Fld) (v : Nat) : (e.wr f v).job = e.job := rfl
@[simp] theorem wr_frames (e : Engine) (f : Fld) (v : Nat) : (e.wr f v).frames = e.frames := rfl
@[simp] theorem wr_gus (e : Engine) (f : Fld) (v : Nat) : (e.wr f v).gus = e.gus := rfl
@[simp] theorem wr_qdr (e : Engine) (f : Fld) (v : Nat) : (e.wr f v).qdr = e.qdr := rfl
@[simp] theorem wr_pair (e : Engine) (f : Fld) (v : Nat) : (e.wr f v).pair = e.pair := rfl
@[simp] theorem wr_afe (e : Engine) (f : Fld) (v : Nat) : (e.wr f v).afe = e.afe := rfl
@[simp] theorem wr_chans (e : Engine) (f : Fld) (v : Nat) : (e.wr f v).chans = e.chans := rfl
@[simp] theorem wr_shd (e : Engine) (f : Fld) (v : Nat) : (e.wr f v).shd = e.shd := rfl
@[simp] theorem wr_eddy (e : Engine) (f : Fld) (v : Nat) : (e.wr f v).eddy = e.eddy := rfl
@[simp] theorem wr_cal (e : Engine) (f : Fld) (v : Nat) : (e.wr f v).cal = e.cal := rfl
@[simp] theorem wr_geo (e : Engine) (f : Fld) (v : Nat) : (e.wr f v).geo = e.geo := rfl
@[simp] theorem wr_mon (e : Engine) (f : Fld) (v : Nat) : (e.wr f v).mon = e.mon := rfl
@[simp] theorem wr_met (e : Engine) (f : Fld) (v : Nat) : (e.wr f v).met = e.met := rfl
@[simp] theorem wr_mets (e : Engine) (f : Fld) (v : Nat) : (e.wr f v).mets = e.mets := rfl

/-! ### wrS -/

@[simp] theorem wrS_mode (e : Engine) (f : Fld) (v : Int) : (e.wrS f v).mode = e.mode := rfl
@[simp] theorem wrS_now (e : Engine) (f : Fld) (v : Int) : (e.wrS f v).now = e.now := rfl
@[simp] theorem wrS_jump (e : Engine) (f : Fld) (v : Int) : (e.wrS f v).jump = e.jump := rfl
@[simp] theorem wrS_free (e : Engine) (f : Fld) (v : Int) : (e.wrS f v).free = e.free := rfl
@[simp] theorem wrS_rsp (e : Engine) (f : Fld) (v : Int) : (e.wrS f v).rsp = e.rsp := rfl
@[simp] theorem wrS_trans (e : Engine) (f : Fld) (v : Int) : (e.wrS f v).trans = e.trans := rfl
@[simp] theorem wrS_resetting (e : Engine) (f : Fld) (v : Int) : (e.wrS f v).resetting = e.resetting := rfl
@[simp] theorem wrS_pins (e : Engine) (f : Fld) (v : Int) : (e.wrS f v).pins = e.pins := rfl
@[simp] theorem wrS_flash (e : Engine) (f : Fld) (v : Int) : (e.wrS f v).flash = e.flash := rfl
@[simp] theorem wrS_link (e : Engine) (f : Fld) (v : Int) : (e.wrS f v).link = e.link := rfl
@[simp] theorem wrS_evt (e : Engine) (f : Fld) (v : Int) : (e.wrS f v).evt = e.evt := rfl
@[simp] theorem wrS_opens (e : Engine) (f : Fld) (v : Int) : (e.wrS f v).opens = e.opens := rfl
@[simp] theorem wrS_cmdIn (e : Engine) (f : Fld) (v : Int) : (e.wrS f v).cmdIn = e.cmdIn := rfl
@[simp] theorem wrS_rings (e : Engine) (f : Fld) (v : Int) : (e.wrS f v).rings = e.rings := rfl
@[simp] theorem wrS_status (e : Engine) (f : Fld) (v : Int) : (e.wrS f v).status = e.status := rfl
@[simp] theorem wrS_streams (e : Engine) (f : Fld) (v : Int) : (e.wrS f v).streams = e.streams := rfl
@[simp] theorem wrS_dma (e : Engine) (f : Fld) (v : Int) : (e.wrS f v).dma = e.dma := rfl
@[simp] theorem wrS_tg (e : Engine) (f : Fld) (v : Int) : (e.wrS f v).tg = e.tg := rfl
@[simp] theorem wrS_mot (e : Engine) (f : Fld) (v : Int) : (e.wrS f v).mot = e.mot := rfl
@[simp] theorem wrS_pac (e : Engine) (f : Fld) (v : Int) : (e.wrS f v).pac = e.pac := rfl
@[simp] theorem wrS_feed (e : Engine) (f : Fld) (v : Int) : (e.wrS f v).feed = e.feed := rfl
@[simp] theorem wrS_squall (e : Engine) (f : Fld) (v : Int) : (e.wrS f v).squall = e.squall := rfl
@[simp] theorem wrS_job (e : Engine) (f : Fld) (v : Int) : (e.wrS f v).job = e.job := rfl
@[simp] theorem wrS_frames (e : Engine) (f : Fld) (v : Int) : (e.wrS f v).frames = e.frames := rfl
@[simp] theorem wrS_gus (e : Engine) (f : Fld) (v : Int) : (e.wrS f v).gus = e.gus := rfl
@[simp] theorem wrS_qdr (e : Engine) (f : Fld) (v : Int) : (e.wrS f v).qdr = e.qdr := rfl
@[simp] theorem wrS_pair (e : Engine) (f : Fld) (v : Int) : (e.wrS f v).pair = e.pair := rfl
@[simp] theorem wrS_afe (e : Engine) (f : Fld) (v : Int) : (e.wrS f v).afe = e.afe := rfl
@[simp] theorem wrS_chans (e : Engine) (f : Fld) (v : Int) : (e.wrS f v).chans = e.chans := rfl
@[simp] theorem wrS_shd (e : Engine) (f : Fld) (v : Int) : (e.wrS f v).shd = e.shd := rfl
@[simp] theorem wrS_eddy (e : Engine) (f : Fld) (v : Int) : (e.wrS f v).eddy = e.eddy := rfl
@[simp] theorem wrS_cal (e : Engine) (f : Fld) (v : Int) : (e.wrS f v).cal = e.cal := rfl
@[simp] theorem wrS_geo (e : Engine) (f : Fld) (v : Int) : (e.wrS f v).geo = e.geo := rfl
@[simp] theorem wrS_mon (e : Engine) (f : Fld) (v : Int) : (e.wrS f v).mon = e.mon := rfl
@[simp] theorem wrS_met (e : Engine) (f : Fld) (v : Int) : (e.wrS f v).met = e.met := rfl
@[simp] theorem wrS_mets (e : Engine) (f : Fld) (v : Int) : (e.wrS f v).mets = e.mets := rfl

/-! ### count -/

@[simp] theorem count_mode (e : Engine) (f : Fld) (n : Nat) : (e.count f n).mode = e.mode := rfl
@[simp] theorem count_now (e : Engine) (f : Fld) (n : Nat) : (e.count f n).now = e.now := rfl
@[simp] theorem count_jump (e : Engine) (f : Fld) (n : Nat) : (e.count f n).jump = e.jump := rfl
@[simp] theorem count_free (e : Engine) (f : Fld) (n : Nat) : (e.count f n).free = e.free := rfl
@[simp] theorem count_rsp (e : Engine) (f : Fld) (n : Nat) : (e.count f n).rsp = e.rsp := rfl
@[simp] theorem count_trans (e : Engine) (f : Fld) (n : Nat) : (e.count f n).trans = e.trans := rfl
@[simp] theorem count_resetting (e : Engine) (f : Fld) (n : Nat) : (e.count f n).resetting = e.resetting := rfl
@[simp] theorem count_pins (e : Engine) (f : Fld) (n : Nat) : (e.count f n).pins = e.pins := rfl
@[simp] theorem count_flash (e : Engine) (f : Fld) (n : Nat) : (e.count f n).flash = e.flash := rfl
@[simp] theorem count_link (e : Engine) (f : Fld) (n : Nat) : (e.count f n).link = e.link := rfl
@[simp] theorem count_evt (e : Engine) (f : Fld) (n : Nat) : (e.count f n).evt = e.evt := rfl
@[simp] theorem count_opens (e : Engine) (f : Fld) (n : Nat) : (e.count f n).opens = e.opens := rfl
@[simp] theorem count_cmdIn (e : Engine) (f : Fld) (n : Nat) : (e.count f n).cmdIn = e.cmdIn := rfl
@[simp] theorem count_rings (e : Engine) (f : Fld) (n : Nat) : (e.count f n).rings = e.rings := rfl
@[simp] theorem count_status (e : Engine) (f : Fld) (n : Nat) : (e.count f n).status = e.status := rfl
@[simp] theorem count_streams (e : Engine) (f : Fld) (n : Nat) : (e.count f n).streams = e.streams := rfl
@[simp] theorem count_dma (e : Engine) (f : Fld) (n : Nat) : (e.count f n).dma = e.dma := rfl
@[simp] theorem count_tg (e : Engine) (f : Fld) (n : Nat) : (e.count f n).tg = e.tg := rfl
@[simp] theorem count_mot (e : Engine) (f : Fld) (n : Nat) : (e.count f n).mot = e.mot := rfl
@[simp] theorem count_pac (e : Engine) (f : Fld) (n : Nat) : (e.count f n).pac = e.pac := rfl
@[simp] theorem count_feed (e : Engine) (f : Fld) (n : Nat) : (e.count f n).feed = e.feed := rfl
@[simp] theorem count_squall (e : Engine) (f : Fld) (n : Nat) : (e.count f n).squall = e.squall := rfl
@[simp] theorem count_job (e : Engine) (f : Fld) (n : Nat) : (e.count f n).job = e.job := rfl
@[simp] theorem count_frames (e : Engine) (f : Fld) (n : Nat) : (e.count f n).frames = e.frames := rfl
@[simp] theorem count_gus (e : Engine) (f : Fld) (n : Nat) : (e.count f n).gus = e.gus := rfl
@[simp] theorem count_qdr (e : Engine) (f : Fld) (n : Nat) : (e.count f n).qdr = e.qdr := rfl
@[simp] theorem count_pair (e : Engine) (f : Fld) (n : Nat) : (e.count f n).pair = e.pair := rfl
@[simp] theorem count_afe (e : Engine) (f : Fld) (n : Nat) : (e.count f n).afe = e.afe := rfl
@[simp] theorem count_chans (e : Engine) (f : Fld) (n : Nat) : (e.count f n).chans = e.chans := rfl
@[simp] theorem count_shd (e : Engine) (f : Fld) (n : Nat) : (e.count f n).shd = e.shd := rfl
@[simp] theorem count_eddy (e : Engine) (f : Fld) (n : Nat) : (e.count f n).eddy = e.eddy := rfl
@[simp] theorem count_cal (e : Engine) (f : Fld) (n : Nat) : (e.count f n).cal = e.cal := rfl
@[simp] theorem count_geo (e : Engine) (f : Fld) (n : Nat) : (e.count f n).geo = e.geo := rfl
@[simp] theorem count_mon (e : Engine) (f : Fld) (n : Nat) : (e.count f n).mon = e.mon := rfl
@[simp] theorem count_met (e : Engine) (f : Fld) (n : Nat) : (e.count f n).met = e.met := rfl
@[simp] theorem count_mets (e : Engine) (f : Fld) (n : Nat) : (e.count f n).mets = e.mets := rfl

/-! ### wrPair -/

@[simp] theorem wrPair_mode (e : Engine) (lo hi : Fld) (v : Nat) : (e.wrPair lo hi v).mode = e.mode := rfl
@[simp] theorem wrPair_now (e : Engine) (lo hi : Fld) (v : Nat) : (e.wrPair lo hi v).now = e.now := rfl
@[simp] theorem wrPair_jump (e : Engine) (lo hi : Fld) (v : Nat) : (e.wrPair lo hi v).jump = e.jump := rfl
@[simp] theorem wrPair_free (e : Engine) (lo hi : Fld) (v : Nat) : (e.wrPair lo hi v).free = e.free := rfl
@[simp] theorem wrPair_rsp (e : Engine) (lo hi : Fld) (v : Nat) : (e.wrPair lo hi v).rsp = e.rsp := rfl
@[simp] theorem wrPair_trans (e : Engine) (lo hi : Fld) (v : Nat) : (e.wrPair lo hi v).trans = e.trans := rfl
@[simp] theorem wrPair_resetting (e : Engine) (lo hi : Fld) (v : Nat) : (e.wrPair lo hi v).resetting = e.resetting := rfl
@[simp] theorem wrPair_pins (e : Engine) (lo hi : Fld) (v : Nat) : (e.wrPair lo hi v).pins = e.pins := rfl
@[simp] theorem wrPair_flash (e : Engine) (lo hi : Fld) (v : Nat) : (e.wrPair lo hi v).flash = e.flash := rfl
@[simp] theorem wrPair_link (e : Engine) (lo hi : Fld) (v : Nat) : (e.wrPair lo hi v).link = e.link := rfl
@[simp] theorem wrPair_evt (e : Engine) (lo hi : Fld) (v : Nat) : (e.wrPair lo hi v).evt = e.evt := rfl
@[simp] theorem wrPair_opens (e : Engine) (lo hi : Fld) (v : Nat) : (e.wrPair lo hi v).opens = e.opens := rfl
@[simp] theorem wrPair_cmdIn (e : Engine) (lo hi : Fld) (v : Nat) : (e.wrPair lo hi v).cmdIn = e.cmdIn := rfl
@[simp] theorem wrPair_rings (e : Engine) (lo hi : Fld) (v : Nat) : (e.wrPair lo hi v).rings = e.rings := rfl
@[simp] theorem wrPair_status (e : Engine) (lo hi : Fld) (v : Nat) : (e.wrPair lo hi v).status = e.status := rfl
@[simp] theorem wrPair_streams (e : Engine) (lo hi : Fld) (v : Nat) : (e.wrPair lo hi v).streams = e.streams := rfl
@[simp] theorem wrPair_dma (e : Engine) (lo hi : Fld) (v : Nat) : (e.wrPair lo hi v).dma = e.dma := rfl
@[simp] theorem wrPair_tg (e : Engine) (lo hi : Fld) (v : Nat) : (e.wrPair lo hi v).tg = e.tg := rfl
@[simp] theorem wrPair_mot (e : Engine) (lo hi : Fld) (v : Nat) : (e.wrPair lo hi v).mot = e.mot := rfl
@[simp] theorem wrPair_pac (e : Engine) (lo hi : Fld) (v : Nat) : (e.wrPair lo hi v).pac = e.pac := rfl
@[simp] theorem wrPair_feed (e : Engine) (lo hi : Fld) (v : Nat) : (e.wrPair lo hi v).feed = e.feed := rfl
@[simp] theorem wrPair_squall (e : Engine) (lo hi : Fld) (v : Nat) : (e.wrPair lo hi v).squall = e.squall := rfl
@[simp] theorem wrPair_job (e : Engine) (lo hi : Fld) (v : Nat) : (e.wrPair lo hi v).job = e.job := rfl
@[simp] theorem wrPair_frames (e : Engine) (lo hi : Fld) (v : Nat) : (e.wrPair lo hi v).frames = e.frames := rfl
@[simp] theorem wrPair_gus (e : Engine) (lo hi : Fld) (v : Nat) : (e.wrPair lo hi v).gus = e.gus := rfl
@[simp] theorem wrPair_qdr (e : Engine) (lo hi : Fld) (v : Nat) : (e.wrPair lo hi v).qdr = e.qdr := rfl
@[simp] theorem wrPair_pair (e : Engine) (lo hi : Fld) (v : Nat) : (e.wrPair lo hi v).pair = e.pair := rfl
@[simp] theorem wrPair_afe (e : Engine) (lo hi : Fld) (v : Nat) : (e.wrPair lo hi v).afe = e.afe := rfl
@[simp] theorem wrPair_chans (e : Engine) (lo hi : Fld) (v : Nat) : (e.wrPair lo hi v).chans = e.chans := rfl
@[simp] theorem wrPair_shd (e : Engine) (lo hi : Fld) (v : Nat) : (e.wrPair lo hi v).shd = e.shd := rfl
@[simp] theorem wrPair_eddy (e : Engine) (lo hi : Fld) (v : Nat) : (e.wrPair lo hi v).eddy = e.eddy := rfl
@[simp] theorem wrPair_cal (e : Engine) (lo hi : Fld) (v : Nat) : (e.wrPair lo hi v).cal = e.cal := rfl
@[simp] theorem wrPair_geo (e : Engine) (lo hi : Fld) (v : Nat) : (e.wrPair lo hi v).geo = e.geo := rfl
@[simp] theorem wrPair_mon (e : Engine) (lo hi : Fld) (v : Nat) : (e.wrPair lo hi v).mon = e.mon := rfl
@[simp] theorem wrPair_met (e : Engine) (lo hi : Fld) (v : Nat) : (e.wrPair lo hi v).met = e.met := rfl
@[simp] theorem wrPair_mets (e : Engine) (lo hi : Fld) (v : Nat) : (e.wrPair lo hi v).mets = e.mets := rfl

/-! ### setRing -/

@[simp] theorem setRing_mode (e : Engine) (r st : Nat) : (e.setRing r st).mode = e.mode := rfl
@[simp] theorem setRing_now (e : Engine) (r st : Nat) : (e.setRing r st).now = e.now := rfl
@[simp] theorem setRing_jump (e : Engine) (r st : Nat) : (e.setRing r st).jump = e.jump := rfl
@[simp] theorem setRing_free (e : Engine) (r st : Nat) : (e.setRing r st).free = e.free := rfl
@[simp] theorem setRing_rsp (e : Engine) (r st : Nat) : (e.setRing r st).rsp = e.rsp := rfl
@[simp] theorem setRing_trans (e : Engine) (r st : Nat) : (e.setRing r st).trans = e.trans := rfl
@[simp] theorem setRing_resetting (e : Engine) (r st : Nat) : (e.setRing r st).resetting = e.resetting := rfl
@[simp] theorem setRing_pins (e : Engine) (r st : Nat) : (e.setRing r st).pins = e.pins := rfl
@[simp] theorem setRing_flash (e : Engine) (r st : Nat) : (e.setRing r st).flash = e.flash := rfl
@[simp] theorem setRing_link (e : Engine) (r st : Nat) : (e.setRing r st).link = e.link := rfl
@[simp] theorem setRing_evt (e : Engine) (r st : Nat) : (e.setRing r st).evt = e.evt := rfl
@[simp] theorem setRing_opens (e : Engine) (r st : Nat) : (e.setRing r st).opens = e.opens := rfl
@[simp] theorem setRing_cmdIn (e : Engine) (r st : Nat) : (e.setRing r st).cmdIn = e.cmdIn := rfl
@[simp] theorem setRing_rings (e : Engine) (r st : Nat) : (e.setRing r st).rings = e.rings := rfl
@[simp] theorem setRing_status (e : Engine) (r st : Nat) : (e.setRing r st).status = e.status := rfl
@[simp] theorem setRing_streams (e : Engine) (r st : Nat) : (e.setRing r st).streams = e.streams := rfl
@[simp] theorem setRing_dma (e : Engine) (r st : Nat) : (e.setRing r st).dma = e.dma := rfl
@[simp] theorem setRing_tg (e : Engine) (r st : Nat) : (e.setRing r st).tg = e.tg := rfl
@[simp] theorem setRing_mot (e : Engine) (r st : Nat) : (e.setRing r st).mot = e.mot := rfl
@[simp] theorem setRing_pac (e : Engine) (r st : Nat) : (e.setRing r st).pac = e.pac := rfl
@[simp] theorem setRing_feed (e : Engine) (r st : Nat) : (e.setRing r st).feed = e.feed := rfl
@[simp] theorem setRing_squall (e : Engine) (r st : Nat) : (e.setRing r st).squall = e.squall := rfl
@[simp] theorem setRing_job (e : Engine) (r st : Nat) : (e.setRing r st).job = e.job := rfl
@[simp] theorem setRing_frames (e : Engine) (r st : Nat) : (e.setRing r st).frames = e.frames := rfl
@[simp] theorem setRing_gus (e : Engine) (r st : Nat) : (e.setRing r st).gus = e.gus := rfl
@[simp] theorem setRing_qdr (e : Engine) (r st : Nat) : (e.setRing r st).qdr = e.qdr := rfl
@[simp] theorem setRing_pair (e : Engine) (r st : Nat) : (e.setRing r st).pair = e.pair := rfl
@[simp] theorem setRing_afe (e : Engine) (r st : Nat) : (e.setRing r st).afe = e.afe := rfl
@[simp] theorem setRing_chans (e : Engine) (r st : Nat) : (e.setRing r st).chans = e.chans := rfl
@[simp] theorem setRing_shd (e : Engine) (r st : Nat) : (e.setRing r st).shd = e.shd := rfl
@[simp] theorem setRing_eddy (e : Engine) (r st : Nat) : (e.setRing r st).eddy = e.eddy := rfl
@[simp] theorem setRing_cal (e : Engine) (r st : Nat) : (e.setRing r st).cal = e.cal := rfl
@[simp] theorem setRing_geo (e : Engine) (r st : Nat) : (e.setRing r st).geo = e.geo := rfl
@[simp] theorem setRing_mon (e : Engine) (r st : Nat) : (e.setRing r st).mon = e.mon := rfl
@[simp] theorem setRing_met (e : Engine) (r st : Nat) : (e.setRing r st).met = e.met := rfl
@[simp] theorem setRing_mets (e : Engine) (r st : Nat) : (e.setRing r st).mets = e.mets := rfl

/-! ### setDevIdx -/

@[simp] theorem setDevIdx_mode (e : Engine) (r n : Nat) : (e.setDevIdx r n).mode = e.mode := rfl
@[simp] theorem setDevIdx_now (e : Engine) (r n : Nat) : (e.setDevIdx r n).now = e.now := rfl
@[simp] theorem setDevIdx_jump (e : Engine) (r n : Nat) : (e.setDevIdx r n).jump = e.jump := rfl
@[simp] theorem setDevIdx_free (e : Engine) (r n : Nat) : (e.setDevIdx r n).free = e.free := rfl
@[simp] theorem setDevIdx_rsp (e : Engine) (r n : Nat) : (e.setDevIdx r n).rsp = e.rsp := rfl
@[simp] theorem setDevIdx_trans (e : Engine) (r n : Nat) : (e.setDevIdx r n).trans = e.trans := rfl
@[simp] theorem setDevIdx_resetting (e : Engine) (r n : Nat) : (e.setDevIdx r n).resetting = e.resetting := rfl
@[simp] theorem setDevIdx_pins (e : Engine) (r n : Nat) : (e.setDevIdx r n).pins = e.pins := rfl
@[simp] theorem setDevIdx_flash (e : Engine) (r n : Nat) : (e.setDevIdx r n).flash = e.flash := rfl
@[simp] theorem setDevIdx_link (e : Engine) (r n : Nat) : (e.setDevIdx r n).link = e.link := rfl
@[simp] theorem setDevIdx_evt (e : Engine) (r n : Nat) : (e.setDevIdx r n).evt = e.evt := rfl
@[simp] theorem setDevIdx_opens (e : Engine) (r n : Nat) : (e.setDevIdx r n).opens = e.opens := rfl
@[simp] theorem setDevIdx_cmdIn (e : Engine) (r n : Nat) : (e.setDevIdx r n).cmdIn = e.cmdIn := rfl
@[simp] theorem setDevIdx_rings (e : Engine) (r n : Nat) : (e.setDevIdx r n).rings = e.rings := rfl
@[simp] theorem setDevIdx_status (e : Engine) (r n : Nat) : (e.setDevIdx r n).status = e.status := rfl
@[simp] theorem setDevIdx_streams (e : Engine) (r n : Nat) : (e.setDevIdx r n).streams = e.streams := rfl
@[simp] theorem setDevIdx_dma (e : Engine) (r n : Nat) : (e.setDevIdx r n).dma = e.dma := rfl
@[simp] theorem setDevIdx_tg (e : Engine) (r n : Nat) : (e.setDevIdx r n).tg = e.tg := rfl
@[simp] theorem setDevIdx_mot (e : Engine) (r n : Nat) : (e.setDevIdx r n).mot = e.mot := rfl
@[simp] theorem setDevIdx_pac (e : Engine) (r n : Nat) : (e.setDevIdx r n).pac = e.pac := rfl
@[simp] theorem setDevIdx_feed (e : Engine) (r n : Nat) : (e.setDevIdx r n).feed = e.feed := rfl
@[simp] theorem setDevIdx_squall (e : Engine) (r n : Nat) : (e.setDevIdx r n).squall = e.squall := rfl
@[simp] theorem setDevIdx_job (e : Engine) (r n : Nat) : (e.setDevIdx r n).job = e.job := rfl
@[simp] theorem setDevIdx_frames (e : Engine) (r n : Nat) : (e.setDevIdx r n).frames = e.frames := rfl
@[simp] theorem setDevIdx_gus (e : Engine) (r n : Nat) : (e.setDevIdx r n).gus = e.gus := rfl
@[simp] theorem setDevIdx_qdr (e : Engine) (r n : Nat) : (e.setDevIdx r n).qdr = e.qdr := rfl
@[simp] theorem setDevIdx_pair (e : Engine) (r n : Nat) : (e.setDevIdx r n).pair = e.pair := rfl
@[simp] theorem setDevIdx_afe (e : Engine) (r n : Nat) : (e.setDevIdx r n).afe = e.afe := rfl
@[simp] theorem setDevIdx_chans (e : Engine) (r n : Nat) : (e.setDevIdx r n).chans = e.chans := rfl
@[simp] theorem setDevIdx_shd (e : Engine) (r n : Nat) : (e.setDevIdx r n).shd = e.shd := rfl
@[simp] theorem setDevIdx_eddy (e : Engine) (r n : Nat) : (e.setDevIdx r n).eddy = e.eddy := rfl
@[simp] theorem setDevIdx_cal (e : Engine) (r n : Nat) : (e.setDevIdx r n).cal = e.cal := rfl
@[simp] theorem setDevIdx_geo (e : Engine) (r n : Nat) : (e.setDevIdx r n).geo = e.geo := rfl
@[simp] theorem setDevIdx_mon (e : Engine) (r n : Nat) : (e.setDevIdx r n).mon = e.mon := rfl
@[simp] theorem setDevIdx_met (e : Engine) (r n : Nat) : (e.setDevIdx r n).met = e.met := rfl
@[simp] theorem setDevIdx_mets (e : Engine) (r n : Nat) : (e.setDevIdx r n).mets = e.mets := rfl

/-! ### setRegBit -/

@[simp] theorem setRegBit_mode (e : Engine) (f : Fld) (k : Nat) : (e.setRegBit f k).mode = e.mode := rfl
@[simp] theorem setRegBit_now (e : Engine) (f : Fld) (k : Nat) : (e.setRegBit f k).now = e.now := rfl
@[simp] theorem setRegBit_jump (e : Engine) (f : Fld) (k : Nat) : (e.setRegBit f k).jump = e.jump := rfl
@[simp] theorem setRegBit_free (e : Engine) (f : Fld) (k : Nat) : (e.setRegBit f k).free = e.free := rfl
@[simp] theorem setRegBit_rsp (e : Engine) (f : Fld) (k : Nat) : (e.setRegBit f k).rsp = e.rsp := rfl
@[simp] theorem setRegBit_trans (e : Engine) (f : Fld) (k : Nat) : (e.setRegBit f k).trans = e.trans := rfl
@[simp] theorem setRegBit_resetting (e : Engine) (f : Fld) (k : Nat) : (e.setRegBit f k).resetting = e.resetting := rfl
@[simp] theorem setRegBit_pins (e : Engine) (f : Fld) (k : Nat) : (e.setRegBit f k).pins = e.pins := rfl
@[simp] theorem setRegBit_flash (e : Engine) (f : Fld) (k : Nat) : (e.setRegBit f k).flash = e.flash := rfl
@[simp] theorem setRegBit_link (e : Engine) (f : Fld) (k : Nat) : (e.setRegBit f k).link = e.link := rfl
@[simp] theorem setRegBit_evt (e : Engine) (f : Fld) (k : Nat) : (e.setRegBit f k).evt = e.evt := rfl
@[simp] theorem setRegBit_opens (e : Engine) (f : Fld) (k : Nat) : (e.setRegBit f k).opens = e.opens := rfl
@[simp] theorem setRegBit_cmdIn (e : Engine) (f : Fld) (k : Nat) : (e.setRegBit f k).cmdIn = e.cmdIn := rfl
@[simp] theorem setRegBit_rings (e : Engine) (f : Fld) (k : Nat) : (e.setRegBit f k).rings = e.rings := rfl
@[simp] theorem setRegBit_status (e : Engine) (f : Fld) (k : Nat) : (e.setRegBit f k).status = e.status := rfl
@[simp] theorem setRegBit_streams (e : Engine) (f : Fld) (k : Nat) : (e.setRegBit f k).streams = e.streams := rfl
@[simp] theorem setRegBit_dma (e : Engine) (f : Fld) (k : Nat) : (e.setRegBit f k).dma = e.dma := rfl
@[simp] theorem setRegBit_tg (e : Engine) (f : Fld) (k : Nat) : (e.setRegBit f k).tg = e.tg := rfl
@[simp] theorem setRegBit_mot (e : Engine) (f : Fld) (k : Nat) : (e.setRegBit f k).mot = e.mot := rfl
@[simp] theorem setRegBit_pac (e : Engine) (f : Fld) (k : Nat) : (e.setRegBit f k).pac = e.pac := rfl
@[simp] theorem setRegBit_feed (e : Engine) (f : Fld) (k : Nat) : (e.setRegBit f k).feed = e.feed := rfl
@[simp] theorem setRegBit_squall (e : Engine) (f : Fld) (k : Nat) : (e.setRegBit f k).squall = e.squall := rfl
@[simp] theorem setRegBit_job (e : Engine) (f : Fld) (k : Nat) : (e.setRegBit f k).job = e.job := rfl
@[simp] theorem setRegBit_frames (e : Engine) (f : Fld) (k : Nat) : (e.setRegBit f k).frames = e.frames := rfl
@[simp] theorem setRegBit_gus (e : Engine) (f : Fld) (k : Nat) : (e.setRegBit f k).gus = e.gus := rfl
@[simp] theorem setRegBit_qdr (e : Engine) (f : Fld) (k : Nat) : (e.setRegBit f k).qdr = e.qdr := rfl
@[simp] theorem setRegBit_pair (e : Engine) (f : Fld) (k : Nat) : (e.setRegBit f k).pair = e.pair := rfl
@[simp] theorem setRegBit_afe (e : Engine) (f : Fld) (k : Nat) : (e.setRegBit f k).afe = e.afe := rfl
@[simp] theorem setRegBit_chans (e : Engine) (f : Fld) (k : Nat) : (e.setRegBit f k).chans = e.chans := rfl
@[simp] theorem setRegBit_shd (e : Engine) (f : Fld) (k : Nat) : (e.setRegBit f k).shd = e.shd := rfl
@[simp] theorem setRegBit_eddy (e : Engine) (f : Fld) (k : Nat) : (e.setRegBit f k).eddy = e.eddy := rfl
@[simp] theorem setRegBit_cal (e : Engine) (f : Fld) (k : Nat) : (e.setRegBit f k).cal = e.cal := rfl
@[simp] theorem setRegBit_geo (e : Engine) (f : Fld) (k : Nat) : (e.setRegBit f k).geo = e.geo := rfl
@[simp] theorem setRegBit_mon (e : Engine) (f : Fld) (k : Nat) : (e.setRegBit f k).mon = e.mon := rfl
@[simp] theorem setRegBit_met (e : Engine) (f : Fld) (k : Nat) : (e.setRegBit f k).met = e.met := rfl
@[simp] theorem setRegBit_mets (e : Engine) (f : Fld) (k : Nat) : (e.setRegBit f k).mets = e.mets := rfl

/-! ### syncOpen -/

@[simp] theorem syncOpen_mode (e : Engine) : (e.syncOpen).mode = e.mode := rfl
@[simp] theorem syncOpen_now (e : Engine) : (e.syncOpen).now = e.now := rfl
@[simp] theorem syncOpen_jump (e : Engine) : (e.syncOpen).jump = e.jump := rfl
@[simp] theorem syncOpen_free (e : Engine) : (e.syncOpen).free = e.free := rfl
@[simp] theorem syncOpen_rsp (e : Engine) : (e.syncOpen).rsp = e.rsp := rfl
@[simp] theorem syncOpen_trans (e : Engine) : (e.syncOpen).trans = e.trans := rfl
@[simp] theorem syncOpen_resetting (e : Engine) : (e.syncOpen).resetting = e.resetting := rfl
@[simp] theorem syncOpen_pins (e : Engine) : (e.syncOpen).pins = e.pins := rfl
@[simp] theorem syncOpen_flash (e : Engine) : (e.syncOpen).flash = e.flash := rfl
@[simp] theorem syncOpen_link (e : Engine) : (e.syncOpen).link = e.link := rfl
@[simp] theorem syncOpen_evt (e : Engine) : (e.syncOpen).evt = e.evt := rfl
@[simp] theorem syncOpen_opens (e : Engine) : (e.syncOpen).opens = e.opens := rfl
@[simp] theorem syncOpen_cmdIn (e : Engine) : (e.syncOpen).cmdIn = e.cmdIn := rfl
@[simp] theorem syncOpen_rings (e : Engine) : (e.syncOpen).rings = e.rings := rfl
@[simp] theorem syncOpen_status (e : Engine) : (e.syncOpen).status = e.status := rfl
@[simp] theorem syncOpen_streams (e : Engine) : (e.syncOpen).streams = e.streams := rfl
@[simp] theorem syncOpen_dma (e : Engine) : (e.syncOpen).dma = e.dma := rfl
@[simp] theorem syncOpen_tg (e : Engine) : (e.syncOpen).tg = e.tg := rfl
@[simp] theorem syncOpen_mot (e : Engine) : (e.syncOpen).mot = e.mot := rfl
@[simp] theorem syncOpen_pac (e : Engine) : (e.syncOpen).pac = e.pac := rfl
@[simp] theorem syncOpen_feed (e : Engine) : (e.syncOpen).feed = e.feed := rfl
@[simp] theorem syncOpen_squall (e : Engine) : (e.syncOpen).squall = e.squall := rfl
@[simp] theorem syncOpen_job (e : Engine) : (e.syncOpen).job = e.job := rfl
@[simp] theorem syncOpen_frames (e : Engine) : (e.syncOpen).frames = e.frames := rfl
@[simp] theorem syncOpen_gus (e : Engine) : (e.syncOpen).gus = e.gus := rfl
@[simp] theorem syncOpen_qdr (e : Engine) : (e.syncOpen).qdr = e.qdr := rfl
@[simp] theorem syncOpen_pair (e : Engine) : (e.syncOpen).pair = e.pair := rfl
@[simp] theorem syncOpen_afe (e : Engine) : (e.syncOpen).afe = e.afe := rfl
@[simp] theorem syncOpen_chans (e : Engine) : (e.syncOpen).chans = e.chans := rfl
@[simp] theorem syncOpen_shd (e : Engine) : (e.syncOpen).shd = e.shd := rfl
@[simp] theorem syncOpen_eddy (e : Engine) : (e.syncOpen).eddy = e.eddy := rfl
@[simp] theorem syncOpen_cal (e : Engine) : (e.syncOpen).cal = e.cal := rfl
@[simp] theorem syncOpen_geo (e : Engine) : (e.syncOpen).geo = e.geo := rfl
@[simp] theorem syncOpen_mon (e : Engine) : (e.syncOpen).mon = e.mon := rfl
@[simp] theorem syncOpen_met (e : Engine) : (e.syncOpen).met = e.met := rfl
@[simp] theorem syncOpen_mets (e : Engine) : (e.syncOpen).mets = e.mets := rfl

/-! ### issue -/

@[simp] theorem issue_regs (e : Engine) (t : Tlp) : (e.issue t).regs = e.regs := rfl
@[simp] theorem issue_mode (e : Engine) (t : Tlp) : (e.issue t).mode = e.mode := rfl
@[simp] theorem issue_now (e : Engine) (t : Tlp) : (e.issue t).now = e.now := rfl
@[simp] theorem issue_jump (e : Engine) (t : Tlp) : (e.issue t).jump = e.jump := rfl
@[simp] theorem issue_free (e : Engine) (t : Tlp) : (e.issue t).free = e.free := rfl
@[simp] theorem issue_rsp (e : Engine) (t : Tlp) : (e.issue t).rsp = e.rsp := rfl
@[simp] theorem issue_trans (e : Engine) (t : Tlp) : (e.issue t).trans = e.trans := rfl
@[simp] theorem issue_resetting (e : Engine) (t : Tlp) : (e.issue t).resetting = e.resetting := rfl
@[simp] theorem issue_pins (e : Engine) (t : Tlp) : (e.issue t).pins = e.pins := rfl
@[simp] theorem issue_flash (e : Engine) (t : Tlp) : (e.issue t).flash = e.flash := rfl
@[simp] theorem issue_evt (e : Engine) (t : Tlp) : (e.issue t).evt = e.evt := rfl
@[simp] theorem issue_opens (e : Engine) (t : Tlp) : (e.issue t).opens = e.opens := rfl
@[simp] theorem issue_cmdIn (e : Engine) (t : Tlp) : (e.issue t).cmdIn = e.cmdIn := rfl
@[simp] theorem issue_rings (e : Engine) (t : Tlp) : (e.issue t).rings = e.rings := rfl
@[simp] theorem issue_status (e : Engine) (t : Tlp) : (e.issue t).status = e.status := rfl
@[simp] theorem issue_streams (e : Engine) (t : Tlp) : (e.issue t).streams = e.streams := rfl
@[simp] theorem issue_dma (e : Engine) (t : Tlp) : (e.issue t).dma = e.dma := rfl
@[simp] theorem issue_tg (e : Engine) (t : Tlp) : (e.issue t).tg = e.tg := rfl
@[simp] theorem issue_mot (e : Engine) (t : Tlp) : (e.issue t).mot = e.mot := rfl
@[simp] theorem issue_pac (e : Engine) (t : Tlp) : (e.issue t).pac = e.pac := rfl
@[simp] theorem issue_feed (e : Engine) (t : Tlp) : (e.issue t).feed = e.feed := rfl
@[simp] theorem issue_squall (e : Engine) (t : Tlp) : (e.issue t).squall = e.squall := rfl
@[simp] theorem issue_job (e : Engine) (t : Tlp) : (e.issue t).job = e.job := rfl
@[simp] theorem issue_frames (e : Engine) (t : Tlp) : (e.issue t).frames = e.frames := rfl
@[simp] theorem issue_gus (e : Engine) (t : Tlp) : (e.issue t).gus = e.gus := rfl
@[simp] theorem issue_qdr (e : Engine) (t : Tlp) : (e.issue t).qdr = e.qdr := rfl
@[simp] theorem issue_pair (e : Engine) (t : Tlp) : (e.issue t).pair = e.pair := rfl
@[simp] theorem issue_afe (e : Engine) (t : Tlp) : (e.issue t).afe = e.afe := rfl
@[simp] theorem issue_chans (e : Engine) (t : Tlp) : (e.issue t).chans = e.chans := rfl
@[simp] theorem issue_shd (e : Engine) (t : Tlp) : (e.issue t).shd = e.shd := rfl
@[simp] theorem issue_eddy (e : Engine) (t : Tlp) : (e.issue t).eddy = e.eddy := rfl
@[simp] theorem issue_cal (e : Engine) (t : Tlp) : (e.issue t).cal = e.cal := rfl
@[simp] theorem issue_geo (e : Engine) (t : Tlp) : (e.issue t).geo = e.geo := rfl
@[simp] theorem issue_mon (e : Engine) (t : Tlp) : (e.issue t).mon = e.mon := rfl
@[simp] theorem issue_met (e : Engine) (t : Tlp) : (e.issue t).met = e.met := rfl
@[simp] theorem issue_mets (e : Engine) (t : Tlp) : (e.issue t).mets = e.mets := rfl

/-! ### modStream -/

@[simp] theorem modStream_regs (e : Engine) (n : Nat) (f : Stream → Stream) : (e.modStream n f).regs = e.regs := rfl
@[simp] theorem modStream_mode (e : Engine) (n : Nat) (f : Stream → Stream) : (e.modStream n f).mode = e.mode := rfl
@[simp] theorem modStream_now (e : Engine) (n : Nat) (f : Stream → Stream) : (e.modStream n f).now = e.now := rfl
@[simp] theorem modStream_jump (e : Engine) (n : Nat) (f : Stream → Stream) : (e.modStream n f).jump = e.jump := rfl
@[simp] theorem modStream_free (e : Engine) (n : Nat) (f : Stream → Stream) : (e.modStream n f).free = e.free := rfl
@[simp] theorem modStream_rsp (e : Engine) (n : Nat) (f : Stream → Stream) : (e.modStream n f).rsp = e.rsp := rfl
@[simp] theorem modStream_trans (e : Engine) (n : Nat) (f : Stream → Stream) : (e.modStream n f).trans = e.trans := rfl
@[simp] theorem modStream_resetting (e : Engine) (n : Nat) (f : Stream → Stream) : (e.modStream n f).resetting = e.resetting := rfl
@[simp] theorem modStream_pins (e : Engine) (n : Nat) (f : Stream → Stream) : (e.modStream n f).pins = e.pins := rfl
@[simp] theorem modStream_flash (e : Engine) (n : Nat) (f : Stream → Stream) : (e.modStream n f).flash = e.flash := rfl
@[simp] theorem modStream_link (e : Engine) (n : Nat) (f : Stream → Stream) : (e.modStream n f).link = e.link := rfl
@[simp] theorem modStream_evt (e : Engine) (n : Nat) (f : Stream → Stream) : (e.modStream n f).evt = e.evt := rfl
@[simp] theorem modStream_opens (e : Engine) (n : Nat) (f : Stream → Stream) : (e.modStream n f).opens = e.opens := rfl
@[simp] theorem modStream_cmdIn (e : Engine) (n : Nat) (f : Stream → Stream) : (e.modStream n f).cmdIn = e.cmdIn := rfl
@[simp] theorem modStream_rings (e : Engine) (n : Nat) (f : Stream → Stream) : (e.modStream n f).rings = e.rings := rfl
@[simp] theorem modStream_status (e : Engine) (n : Nat) (f : Stream → Stream) : (e.modStream n f).status = e.status := rfl
@[simp] theorem modStream_dma (e : Engine) (n : Nat) (f : Stream → Stream) : (e.modStream n f).dma = e.dma := rfl
@[simp] theorem modStream_tg (e : Engine) (n : Nat) (f : Stream → Stream) : (e.modStream n f).tg = e.tg := rfl
@[simp] theorem modStream_mot (e : Engine) (n : Nat) (f : Stream → Stream) : (e.modStream n f).mot = e.mot := rfl
@[simp] theorem modStream_pac (e : Engine) (n : Nat) (f : Stream → Stream) : (e.modStream n f).pac = e.pac := rfl
@[simp] theorem modStream_feed (e : Engine) (n : Nat) (f : Stream → Stream) : (e.modStream n f).feed = e.feed := rfl
@[simp] theorem modStream_squall (e : Engine) (n : Nat) (f : Stream → Stream) : (e.modStream n f).squall = e.squall := rfl
@[simp] theorem modStream_job (e : Engine) (n : Nat) (f : Stream → Stream) : (e.modStream n f).job = e.job := rfl
@[simp] theorem modStream_frames (e : Engine) (n : Nat) (f : Stream → Stream) : (e.modStream n f).frames = e.frames := rfl
@[simp] theorem modStream_gus (e : Engine) (n : Nat) (f : Stream → Stream) : (e.modStream n f).gus = e.gus := rfl
@[simp] theorem modStream_qdr (e : Engine) (n : Nat) (f : Stream → Stream) : (e.modStream n f).qdr = e.qdr := rfl
@[simp] theorem modStream_pair (e : Engine) (n : Nat) (f : Stream → Stream) : (e.modStream n f).pair = e.pair := rfl
@[simp] theorem modStream_afe (e : Engine) (n : Nat) (f : Stream → Stream) : (e.modStream n f).afe = e.afe := rfl
@[simp] theorem modStream_chans (e : Engine) (n : Nat) (f : Stream → Stream) : (e.modStream n f).chans = e.chans := rfl
@[simp] theorem modStream_shd (e : Engine) (n : Nat) (f : Stream → Stream) : (e.modStream n f).shd = e.shd := rfl
@[simp] theorem modStream_eddy (e : Engine) (n : Nat) (f : Stream → Stream) : (e.modStream n f).eddy = e.eddy := rfl
@[simp] theorem modStream_cal (e : Engine) (n : Nat) (f : Stream → Stream) : (e.modStream n f).cal = e.cal := rfl
@[simp] theorem modStream_geo (e : Engine) (n : Nat) (f : Stream → Stream) : (e.modStream n f).geo = e.geo := rfl
@[simp] theorem modStream_mon (e : Engine) (n : Nat) (f : Stream → Stream) : (e.modStream n f).mon = e.mon := rfl
@[simp] theorem modStream_met (e : Engine) (n : Nat) (f : Stream → Stream) : (e.modStream n f).met = e.met := rfl
@[simp] theorem modStream_mets (e : Engine) (n : Nat) (f : Stream → Stream) : (e.modStream n f).mets = e.mets := rfl

/-! ### modPair -/

@[simp] theorem modPair_regs (e : Engine) (f : PairSt → PairSt) : (e.modPair f).regs = e.regs := rfl
@[simp] theorem modPair_mode (e : Engine) (f : PairSt → PairSt) : (e.modPair f).mode = e.mode := rfl
@[simp] theorem modPair_now (e : Engine) (f : PairSt → PairSt) : (e.modPair f).now = e.now := rfl
@[simp] theorem modPair_jump (e : Engine) (f : PairSt → PairSt) : (e.modPair f).jump = e.jump := rfl
@[simp] theorem modPair_free (e : Engine) (f : PairSt → PairSt) : (e.modPair f).free = e.free := rfl
@[simp] theorem modPair_rsp (e : Engine) (f : PairSt → PairSt) : (e.modPair f).rsp = e.rsp := rfl
@[simp] theorem modPair_trans (e : Engine) (f : PairSt → PairSt) : (e.modPair f).trans = e.trans := rfl
@[simp] theorem modPair_resetting (e : Engine) (f : PairSt → PairSt) : (e.modPair f).resetting = e.resetting := rfl
@[simp] theorem modPair_pins (e : Engine) (f : PairSt → PairSt) : (e.modPair f).pins = e.pins := rfl
@[simp] theorem modPair_flash (e : Engine) (f : PairSt → PairSt) : (e.modPair f).flash = e.flash := rfl
@[simp] theorem modPair_link (e : Engine) (f : PairSt → PairSt) : (e.modPair f).link = e.link := rfl
@[simp] theorem modPair_evt (e : Engine) (f : PairSt → PairSt) : (e.modPair f).evt = e.evt := rfl
@[simp] theorem modPair_opens (e : Engine) (f : PairSt → PairSt) : (e.modPair f).opens = e.opens := rfl
@[simp] theorem modPair_cmdIn (e : Engine) (f : PairSt → PairSt) : (e.modPair f).cmdIn = e.cmdIn := rfl
@[simp] theorem modPair_rings (e : Engine) (f : PairSt → PairSt) : (e.modPair f).rings = e.rings := rfl
@[simp] theorem modPair_status (e : Engine) (f : PairSt → PairSt) : (e.modPair f).status = e.status := rfl
@[simp] theorem modPair_streams (e : Engine) (f : PairSt → PairSt) : (e.modPair f).streams = e.streams := rfl
@[simp] theorem modPair_dma (e : Engine) (f : PairSt → PairSt) : (e.modPair f).dma = e.dma := rfl
@[simp] theorem modPair_tg (e : Engine) (f : PairSt → PairSt) : (e.modPair f).tg = e.tg := rfl
@[simp] theorem modPair_mot (e : Engine) (f : PairSt → PairSt) : (e.modPair f).mot = e.mot := rfl
@[simp] theorem modPair_pac (e : Engine) (f : PairSt → PairSt) : (e.modPair f).pac = e.pac := rfl
@[simp] theorem modPair_feed (e : Engine) (f : PairSt → PairSt) : (e.modPair f).feed = e.feed := rfl
@[simp] theorem modPair_squall (e : Engine) (f : PairSt → PairSt) : (e.modPair f).squall = e.squall := rfl
@[simp] theorem modPair_job (e : Engine) (f : PairSt → PairSt) : (e.modPair f).job = e.job := rfl
@[simp] theorem modPair_frames (e : Engine) (f : PairSt → PairSt) : (e.modPair f).frames = e.frames := rfl
@[simp] theorem modPair_gus (e : Engine) (f : PairSt → PairSt) : (e.modPair f).gus = e.gus := rfl
@[simp] theorem modPair_qdr (e : Engine) (f : PairSt → PairSt) : (e.modPair f).qdr = e.qdr := rfl
@[simp] theorem modPair_afe (e : Engine) (f : PairSt → PairSt) : (e.modPair f).afe = e.afe := rfl
@[simp] theorem modPair_chans (e : Engine) (f : PairSt → PairSt) : (e.modPair f).chans = e.chans := rfl
@[simp] theorem modPair_shd (e : Engine) (f : PairSt → PairSt) : (e.modPair f).shd = e.shd := rfl
@[simp] theorem modPair_eddy (e : Engine) (f : PairSt → PairSt) : (e.modPair f).eddy = e.eddy := rfl
@[simp] theorem modPair_cal (e : Engine) (f : PairSt → PairSt) : (e.modPair f).cal = e.cal := rfl
@[simp] theorem modPair_geo (e : Engine) (f : PairSt → PairSt) : (e.modPair f).geo = e.geo := rfl
@[simp] theorem modPair_mon (e : Engine) (f : PairSt → PairSt) : (e.modPair f).mon = e.mon := rfl
@[simp] theorem modPair_met (e : Engine) (f : PairSt → PairSt) : (e.modPair f).met = e.met := rfl
@[simp] theorem modPair_mets (e : Engine) (f : PairSt → PairSt) : (e.modPair f).mets = e.mets := rfl

/-! ### modAfe -/

@[simp] theorem modAfe_regs (e : Engine) (s : Nat) (f : AfeSide → AfeSide) : (e.modAfe s f).regs = e.regs := rfl
@[simp] theorem modAfe_mode (e : Engine) (s : Nat) (f : AfeSide → AfeSide) : (e.modAfe s f).mode = e.mode := rfl
@[simp] theorem modAfe_now (e : Engine) (s : Nat) (f : AfeSide → AfeSide) : (e.modAfe s f).now = e.now := rfl
@[simp] theorem modAfe_jump (e : Engine) (s : Nat) (f : AfeSide → AfeSide) : (e.modAfe s f).jump = e.jump := rfl
@[simp] theorem modAfe_free (e : Engine) (s : Nat) (f : AfeSide → AfeSide) : (e.modAfe s f).free = e.free := rfl
@[simp] theorem modAfe_rsp (e : Engine) (s : Nat) (f : AfeSide → AfeSide) : (e.modAfe s f).rsp = e.rsp := rfl
@[simp] theorem modAfe_trans (e : Engine) (s : Nat) (f : AfeSide → AfeSide) : (e.modAfe s f).trans = e.trans := rfl
@[simp] theorem modAfe_resetting (e : Engine) (s : Nat) (f : AfeSide → AfeSide) : (e.modAfe s f).resetting = e.resetting := rfl
@[simp] theorem modAfe_pins (e : Engine) (s : Nat) (f : AfeSide → AfeSide) : (e.modAfe s f).pins = e.pins := rfl
@[simp] theorem modAfe_flash (e : Engine) (s : Nat) (f : AfeSide → AfeSide) : (e.modAfe s f).flash = e.flash := rfl
@[simp] theorem modAfe_link (e : Engine) (s : Nat) (f : AfeSide → AfeSide) : (e.modAfe s f).link = e.link := rfl
@[simp] theorem modAfe_evt (e : Engine) (s : Nat) (f : AfeSide → AfeSide) : (e.modAfe s f).evt = e.evt := rfl
@[simp] theorem modAfe_opens (e : Engine) (s : Nat) (f : AfeSide → AfeSide) : (e.modAfe s f).opens = e.opens := rfl
@[simp] theorem modAfe_cmdIn (e : Engine) (s : Nat) (f : AfeSide → AfeSide) : (e.modAfe s f).cmdIn = e.cmdIn := rfl
@[simp] theorem modAfe_rings (e : Engine) (s : Nat) (f : AfeSide → AfeSide) : (e.modAfe s f).rings = e.rings := rfl
@[simp] theorem modAfe_status (e : Engine) (s : Nat) (f : AfeSide → AfeSide) : (e.modAfe s f).status = e.status := rfl
@[simp] theorem modAfe_streams (e : Engine) (s : Nat) (f : AfeSide → AfeSide) : (e.modAfe s f).streams = e.streams := rfl
@[simp] theorem modAfe_dma (e : Engine) (s : Nat) (f : AfeSide → AfeSide) : (e.modAfe s f).dma = e.dma := rfl
@[simp] theorem modAfe_tg (e : Engine) (s : Nat) (f : AfeSide → AfeSide) : (e.modAfe s f).tg = e.tg := rfl
@[simp] theorem modAfe_mot (e : Engine) (s : Nat) (f : AfeSide → AfeSide) : (e.modAfe s f).mot = e.mot := rfl
@[simp] theorem modAfe_pac (e : Engine) (s : Nat) (f : AfeSide → AfeSide) : (e.modAfe s f).pac = e.pac := rfl
@[simp] theorem modAfe_feed (e : Engine) (s : Nat) (f : AfeSide → AfeSide) : (e.modAfe s f).feed = e.feed := rfl
@[simp] theorem modAfe_squall (e : Engine) (s : Nat) (f : AfeSide → AfeSide) : (e.modAfe s f).squall = e.squall := rfl
@[simp] theorem modAfe_job (e : Engine) (s : Nat) (f : AfeSide → AfeSide) : (e.modAfe s f).job = e.job := rfl
@[simp] theorem modAfe_frames (e : Engine) (s : Nat) (f : AfeSide → AfeSide) : (e.modAfe s f).frames = e.frames := rfl
@[simp] theorem modAfe_gus (e : Engine) (s : Nat) (f : AfeSide → AfeSide) : (e.modAfe s f).gus = e.gus := rfl
@[simp] theorem modAfe_qdr (e : Engine) (s : Nat) (f : AfeSide → AfeSide) : (e.modAfe s f).qdr = e.qdr := rfl
@[simp] theorem modAfe_pair (e : Engine) (s : Nat) (f : AfeSide → AfeSide) : (e.modAfe s f).pair = e.pair := rfl
@[simp] theorem modAfe_chans (e : Engine) (s : Nat) (f : AfeSide → AfeSide) : (e.modAfe s f).chans = e.chans := rfl
@[simp] theorem modAfe_shd (e : Engine) (s : Nat) (f : AfeSide → AfeSide) : (e.modAfe s f).shd = e.shd := rfl
@[simp] theorem modAfe_eddy (e : Engine) (s : Nat) (f : AfeSide → AfeSide) : (e.modAfe s f).eddy = e.eddy := rfl
@[simp] theorem modAfe_cal (e : Engine) (s : Nat) (f : AfeSide → AfeSide) : (e.modAfe s f).cal = e.cal := rfl
@[simp] theorem modAfe_geo (e : Engine) (s : Nat) (f : AfeSide → AfeSide) : (e.modAfe s f).geo = e.geo := rfl
@[simp] theorem modAfe_mon (e : Engine) (s : Nat) (f : AfeSide → AfeSide) : (e.modAfe s f).mon = e.mon := rfl
@[simp] theorem modAfe_met (e : Engine) (s : Nat) (f : AfeSide → AfeSide) : (e.modAfe s f).met = e.met := rfl
@[simp] theorem modAfe_mets (e : Engine) (s : Nat) (f : AfeSide → AfeSide) : (e.modAfe s f).mets = e.mets := rfl

/-! ### modChan -/

@[simp] theorem modChan_regs (e : Engine) (c : Nat) (f : ChanSt → ChanSt) : (e.modChan c f).regs = e.regs := rfl
@[simp] theorem modChan_mode (e : Engine) (c : Nat) (f : ChanSt → ChanSt) : (e.modChan c f).mode = e.mode := rfl
@[simp] theorem modChan_now (e : Engine) (c : Nat) (f : ChanSt → ChanSt) : (e.modChan c f).now = e.now := rfl
@[simp] theorem modChan_jump (e : Engine) (c : Nat) (f : ChanSt → ChanSt) : (e.modChan c f).jump = e.jump := rfl
@[simp] theorem modChan_free (e : Engine) (c : Nat) (f : ChanSt → ChanSt) : (e.modChan c f).free = e.free := rfl
@[simp] theorem modChan_rsp (e : Engine) (c : Nat) (f : ChanSt → ChanSt) : (e.modChan c f).rsp = e.rsp := rfl
@[simp] theorem modChan_trans (e : Engine) (c : Nat) (f : ChanSt → ChanSt) : (e.modChan c f).trans = e.trans := rfl
@[simp] theorem modChan_resetting (e : Engine) (c : Nat) (f : ChanSt → ChanSt) : (e.modChan c f).resetting = e.resetting := rfl
@[simp] theorem modChan_pins (e : Engine) (c : Nat) (f : ChanSt → ChanSt) : (e.modChan c f).pins = e.pins := rfl
@[simp] theorem modChan_flash (e : Engine) (c : Nat) (f : ChanSt → ChanSt) : (e.modChan c f).flash = e.flash := rfl
@[simp] theorem modChan_link (e : Engine) (c : Nat) (f : ChanSt → ChanSt) : (e.modChan c f).link = e.link := rfl
@[simp] theorem modChan_evt (e : Engine) (c : Nat) (f : ChanSt → ChanSt) : (e.modChan c f).evt = e.evt := rfl
@[simp] theorem modChan_opens (e : Engine) (c : Nat) (f : ChanSt → ChanSt) : (e.modChan c f).opens = e.opens := rfl
@[simp] theorem modChan_cmdIn (e : Engine) (c : Nat) (f : ChanSt → ChanSt) : (e.modChan c f).cmdIn = e.cmdIn := rfl
@[simp] theorem modChan_rings (e : Engine) (c : Nat) (f : ChanSt → ChanSt) : (e.modChan c f).rings = e.rings := rfl
@[simp] theorem modChan_status (e : Engine) (c : Nat) (f : ChanSt → ChanSt) : (e.modChan c f).status = e.status := rfl
@[simp] theorem modChan_streams (e : Engine) (c : Nat) (f : ChanSt → ChanSt) : (e.modChan c f).streams = e.streams := rfl
@[simp] theorem modChan_dma (e : Engine) (c : Nat) (f : ChanSt → ChanSt) : (e.modChan c f).dma = e.dma := rfl
@[simp] theorem modChan_tg (e : Engine) (c : Nat) (f : ChanSt → ChanSt) : (e.modChan c f).tg = e.tg := rfl
@[simp] theorem modChan_mot (e : Engine) (c : Nat) (f : ChanSt → ChanSt) : (e.modChan c f).mot = e.mot := rfl
@[simp] theorem modChan_pac (e : Engine) (c : Nat) (f : ChanSt → ChanSt) : (e.modChan c f).pac = e.pac := rfl
@[simp] theorem modChan_feed (e : Engine) (c : Nat) (f : ChanSt → ChanSt) : (e.modChan c f).feed = e.feed := rfl
@[simp] theorem modChan_squall (e : Engine) (c : Nat) (f : ChanSt → ChanSt) : (e.modChan c f).squall = e.squall := rfl
@[simp] theorem modChan_job (e : Engine) (c : Nat) (f : ChanSt → ChanSt) : (e.modChan c f).job = e.job := rfl
@[simp] theorem modChan_frames (e : Engine) (c : Nat) (f : ChanSt → ChanSt) : (e.modChan c f).frames = e.frames := rfl
@[simp] theorem modChan_gus (e : Engine) (c : Nat) (f : ChanSt → ChanSt) : (e.modChan c f).gus = e.gus := rfl
@[simp] theorem modChan_qdr (e : Engine) (c : Nat) (f : ChanSt → ChanSt) : (e.modChan c f).qdr = e.qdr := rfl
@[simp] theorem modChan_pair (e : Engine) (c : Nat) (f : ChanSt → ChanSt) : (e.modChan c f).pair = e.pair := rfl
@[simp] theorem modChan_afe (e : Engine) (c : Nat) (f : ChanSt → ChanSt) : (e.modChan c f).afe = e.afe := rfl
@[simp] theorem modChan_shd (e : Engine) (c : Nat) (f : ChanSt → ChanSt) : (e.modChan c f).shd = e.shd := rfl
@[simp] theorem modChan_eddy (e : Engine) (c : Nat) (f : ChanSt → ChanSt) : (e.modChan c f).eddy = e.eddy := rfl
@[simp] theorem modChan_cal (e : Engine) (c : Nat) (f : ChanSt → ChanSt) : (e.modChan c f).cal = e.cal := rfl
@[simp] theorem modChan_geo (e : Engine) (c : Nat) (f : ChanSt → ChanSt) : (e.modChan c f).geo = e.geo := rfl
@[simp] theorem modChan_mon (e : Engine) (c : Nat) (f : ChanSt → ChanSt) : (e.modChan c f).mon = e.mon := rfl
@[simp] theorem modChan_met (e : Engine) (c : Nat) (f : ChanSt → ChanSt) : (e.modChan c f).met = e.met := rfl
@[simp] theorem modChan_mets (e : Engine) (c : Nat) (f : ChanSt → ChanSt) : (e.modChan c f).mets = e.mets := rfl

/-! ### modGen -/

@[simp] theorem modGen_regs (e : Engine) (s : Nat) (f : TimingGen → TimingGen) : (e.modGen s f).regs = e.regs := rfl
@[simp] theorem modGen_mode (e : Engine) (s : Nat) (f : TimingGen → TimingGen) : (e.modGen s f).mode = e.mode := rfl
@[simp] theorem modGen_now (e : Engine) (s : Nat) (f : TimingGen → TimingGen) : (e.modGen s f).now = e.now := rfl
@[simp] theorem modGen_jump (e : Engine) (s : Nat) (f : TimingGen → TimingGen) : (e.modGen s f).jump = e.jump := rfl
@[simp] theorem modGen_free (e : Engine) (s : Nat) (f : TimingGen → TimingGen) : (e.modGen s f).free = e.free := rfl
@[simp] theorem modGen_rsp (e : Engine) (s : Nat) (f : TimingGen → TimingGen) : (e.modGen s f).rsp = e.rsp := rfl
@[simp] theorem modGen_trans (e : Engine) (s : Nat) (f : TimingGen → TimingGen) : (e.modGen s f).trans = e.trans := rfl
@[simp] theorem modGen_resetting (e : Engine) (s : Nat) (f : TimingGen → TimingGen) : (e.modGen s f).resetting = e.resetting := rfl
@[simp] theorem modGen_pins (e : Engine) (s : Nat) (f : TimingGen → TimingGen) : (e.modGen s f).pins = e.pins := rfl
@[simp] theorem modGen_flash (e : Engine) (s : Nat) (f : TimingGen → TimingGen) : (e.modGen s f).flash = e.flash := rfl
@[simp] theorem modGen_link (e : Engine) (s : Nat) (f : TimingGen → TimingGen) : (e.modGen s f).link = e.link := rfl
@[simp] theorem modGen_evt (e : Engine) (s : Nat) (f : TimingGen → TimingGen) : (e.modGen s f).evt = e.evt := rfl
@[simp] theorem modGen_opens (e : Engine) (s : Nat) (f : TimingGen → TimingGen) : (e.modGen s f).opens = e.opens := rfl
@[simp] theorem modGen_cmdIn (e : Engine) (s : Nat) (f : TimingGen → TimingGen) : (e.modGen s f).cmdIn = e.cmdIn := rfl
@[simp] theorem modGen_rings (e : Engine) (s : Nat) (f : TimingGen → TimingGen) : (e.modGen s f).rings = e.rings := rfl
@[simp] theorem modGen_status (e : Engine) (s : Nat) (f : TimingGen → TimingGen) : (e.modGen s f).status = e.status := rfl
@[simp] theorem modGen_streams (e : Engine) (s : Nat) (f : TimingGen → TimingGen) : (e.modGen s f).streams = e.streams := rfl
@[simp] theorem modGen_dma (e : Engine) (s : Nat) (f : TimingGen → TimingGen) : (e.modGen s f).dma = e.dma := rfl
@[simp] theorem modGen_mot (e : Engine) (s : Nat) (f : TimingGen → TimingGen) : (e.modGen s f).mot = e.mot := rfl
@[simp] theorem modGen_pac (e : Engine) (s : Nat) (f : TimingGen → TimingGen) : (e.modGen s f).pac = e.pac := rfl
@[simp] theorem modGen_feed (e : Engine) (s : Nat) (f : TimingGen → TimingGen) : (e.modGen s f).feed = e.feed := rfl
@[simp] theorem modGen_squall (e : Engine) (s : Nat) (f : TimingGen → TimingGen) : (e.modGen s f).squall = e.squall := rfl
@[simp] theorem modGen_job (e : Engine) (s : Nat) (f : TimingGen → TimingGen) : (e.modGen s f).job = e.job := rfl
@[simp] theorem modGen_frames (e : Engine) (s : Nat) (f : TimingGen → TimingGen) : (e.modGen s f).frames = e.frames := rfl
@[simp] theorem modGen_gus (e : Engine) (s : Nat) (f : TimingGen → TimingGen) : (e.modGen s f).gus = e.gus := rfl
@[simp] theorem modGen_qdr (e : Engine) (s : Nat) (f : TimingGen → TimingGen) : (e.modGen s f).qdr = e.qdr := rfl
@[simp] theorem modGen_pair (e : Engine) (s : Nat) (f : TimingGen → TimingGen) : (e.modGen s f).pair = e.pair := rfl
@[simp] theorem modGen_afe (e : Engine) (s : Nat) (f : TimingGen → TimingGen) : (e.modGen s f).afe = e.afe := rfl
@[simp] theorem modGen_chans (e : Engine) (s : Nat) (f : TimingGen → TimingGen) : (e.modGen s f).chans = e.chans := rfl
@[simp] theorem modGen_shd (e : Engine) (s : Nat) (f : TimingGen → TimingGen) : (e.modGen s f).shd = e.shd := rfl
@[simp] theorem modGen_eddy (e : Engine) (s : Nat) (f : TimingGen → TimingGen) : (e.modGen s f).eddy = e.eddy := rfl
@[simp] theorem modGen_cal (e : Engine) (s : Nat) (f : TimingGen → TimingGen) : (e.modGen s f).cal = e.cal := rfl
@[simp] theorem modGen_geo (e : Engine) (s : Nat) (f : TimingGen → TimingGen) : (e.modGen s f).geo = e.geo := rfl
@[simp] theorem modGen_mon (e : Engine) (s : Nat) (f : TimingGen → TimingGen) : (e.modGen s f).mon = e.mon := rfl
@[simp] theorem modGen_met (e : Engine) (s : Nat) (f : TimingGen → TimingGen) : (e.modGen s f).met = e.met := rfl
@[simp] theorem modGen_mets (e : Engine) (s : Nat) (f : TimingGen → TimingGen) : (e.modGen s f).mets = e.mets := rfl

/-! ### modFrame -/

@[simp] theorem modFrame_regs (e : Engine) (s : Nat) (f : FrameSt → FrameSt) : (e.modFrame s f).regs = e.regs := rfl
@[simp] theorem modFrame_mode (e : Engine) (s : Nat) (f : FrameSt → FrameSt) : (e.modFrame s f).mode = e.mode := rfl
@[simp] theorem modFrame_now (e : Engine) (s : Nat) (f : FrameSt → FrameSt) : (e.modFrame s f).now = e.now := rfl
@[simp] theorem modFrame_jump (e : Engine) (s : Nat) (f : FrameSt → FrameSt) : (e.modFrame s f).jump = e.jump := rfl
@[simp] theorem modFrame_free (e : Engine) (s : Nat) (f : FrameSt → FrameSt) : (e.modFrame s f).free = e.free := rfl
@[simp] theorem modFrame_rsp (e : Engine) (s : Nat) (f : FrameSt → FrameSt) : (e.modFrame s f).rsp = e.rsp := rfl
@[simp] theorem modFrame_trans (e : Engine) (s : Nat) (f : FrameSt → FrameSt) : (e.modFrame s f).trans = e.trans := rfl
@[simp] theorem modFrame_resetting (e : Engine) (s : Nat) (f : FrameSt → FrameSt) : (e.modFrame s f).resetting = e.resetting := rfl
@[simp] theorem modFrame_pins (e : Engine) (s : Nat) (f : FrameSt → FrameSt) : (e.modFrame s f).pins = e.pins := rfl
@[simp] theorem modFrame_flash (e : Engine) (s : Nat) (f : FrameSt → FrameSt) : (e.modFrame s f).flash = e.flash := rfl
@[simp] theorem modFrame_link (e : Engine) (s : Nat) (f : FrameSt → FrameSt) : (e.modFrame s f).link = e.link := rfl
@[simp] theorem modFrame_evt (e : Engine) (s : Nat) (f : FrameSt → FrameSt) : (e.modFrame s f).evt = e.evt := rfl
@[simp] theorem modFrame_opens (e : Engine) (s : Nat) (f : FrameSt → FrameSt) : (e.modFrame s f).opens = e.opens := rfl
@[simp] theorem modFrame_cmdIn (e : Engine) (s : Nat) (f : FrameSt → FrameSt) : (e.modFrame s f).cmdIn = e.cmdIn := rfl
@[simp] theorem modFrame_rings (e : Engine) (s : Nat) (f : FrameSt → FrameSt) : (e.modFrame s f).rings = e.rings := rfl
@[simp] theorem modFrame_status (e : Engine) (s : Nat) (f : FrameSt → FrameSt) : (e.modFrame s f).status = e.status := rfl
@[simp] theorem modFrame_streams (e : Engine) (s : Nat) (f : FrameSt → FrameSt) : (e.modFrame s f).streams = e.streams := rfl
@[simp] theorem modFrame_dma (e : Engine) (s : Nat) (f : FrameSt → FrameSt) : (e.modFrame s f).dma = e.dma := rfl
@[simp] theorem modFrame_tg (e : Engine) (s : Nat) (f : FrameSt → FrameSt) : (e.modFrame s f).tg = e.tg := rfl
@[simp] theorem modFrame_mot (e : Engine) (s : Nat) (f : FrameSt → FrameSt) : (e.modFrame s f).mot = e.mot := rfl
@[simp] theorem modFrame_pac (e : Engine) (s : Nat) (f : FrameSt → FrameSt) : (e.modFrame s f).pac = e.pac := rfl
@[simp] theorem modFrame_feed (e : Engine) (s : Nat) (f : FrameSt → FrameSt) : (e.modFrame s f).feed = e.feed := rfl
@[simp] theorem modFrame_squall (e : Engine) (s : Nat) (f : FrameSt → FrameSt) : (e.modFrame s f).squall = e.squall := rfl
@[simp] theorem modFrame_job (e : Engine) (s : Nat) (f : FrameSt → FrameSt) : (e.modFrame s f).job = e.job := rfl
@[simp] theorem modFrame_gus (e : Engine) (s : Nat) (f : FrameSt → FrameSt) : (e.modFrame s f).gus = e.gus := rfl
@[simp] theorem modFrame_qdr (e : Engine) (s : Nat) (f : FrameSt → FrameSt) : (e.modFrame s f).qdr = e.qdr := rfl
@[simp] theorem modFrame_pair (e : Engine) (s : Nat) (f : FrameSt → FrameSt) : (e.modFrame s f).pair = e.pair := rfl
@[simp] theorem modFrame_afe (e : Engine) (s : Nat) (f : FrameSt → FrameSt) : (e.modFrame s f).afe = e.afe := rfl
@[simp] theorem modFrame_chans (e : Engine) (s : Nat) (f : FrameSt → FrameSt) : (e.modFrame s f).chans = e.chans := rfl
@[simp] theorem modFrame_shd (e : Engine) (s : Nat) (f : FrameSt → FrameSt) : (e.modFrame s f).shd = e.shd := rfl
@[simp] theorem modFrame_eddy (e : Engine) (s : Nat) (f : FrameSt → FrameSt) : (e.modFrame s f).eddy = e.eddy := rfl
@[simp] theorem modFrame_cal (e : Engine) (s : Nat) (f : FrameSt → FrameSt) : (e.modFrame s f).cal = e.cal := rfl
@[simp] theorem modFrame_geo (e : Engine) (s : Nat) (f : FrameSt → FrameSt) : (e.modFrame s f).geo = e.geo := rfl
@[simp] theorem modFrame_mon (e : Engine) (s : Nat) (f : FrameSt → FrameSt) : (e.modFrame s f).mon = e.mon := rfl
@[simp] theorem modFrame_met (e : Engine) (s : Nat) (f : FrameSt → FrameSt) : (e.modFrame s f).met = e.met := rfl
@[simp] theorem modFrame_mets (e : Engine) (s : Nat) (f : FrameSt → FrameSt) : (e.modFrame s f).mets = e.mets := rfl

/-! ### modGu -/

@[simp] theorem modGu_regs (e : Engine) (g : Nat) (f : GuSt → GuSt) : (e.modGu g f).regs = e.regs := rfl
@[simp] theorem modGu_mode (e : Engine) (g : Nat) (f : GuSt → GuSt) : (e.modGu g f).mode = e.mode := rfl
@[simp] theorem modGu_now (e : Engine) (g : Nat) (f : GuSt → GuSt) : (e.modGu g f).now = e.now := rfl
@[simp] theorem modGu_jump (e : Engine) (g : Nat) (f : GuSt → GuSt) : (e.modGu g f).jump = e.jump := rfl
@[simp] theorem modGu_free (e : Engine) (g : Nat) (f : GuSt → GuSt) : (e.modGu g f).free = e.free := rfl
@[simp] theorem modGu_rsp (e : Engine) (g : Nat) (f : GuSt → GuSt) : (e.modGu g f).rsp = e.rsp := rfl
@[simp] theorem modGu_trans (e : Engine) (g : Nat) (f : GuSt → GuSt) : (e.modGu g f).trans = e.trans := rfl
@[simp] theorem modGu_resetting (e : Engine) (g : Nat) (f : GuSt → GuSt) : (e.modGu g f).resetting = e.resetting := rfl
@[simp] theorem modGu_pins (e : Engine) (g : Nat) (f : GuSt → GuSt) : (e.modGu g f).pins = e.pins := rfl
@[simp] theorem modGu_flash (e : Engine) (g : Nat) (f : GuSt → GuSt) : (e.modGu g f).flash = e.flash := rfl
@[simp] theorem modGu_link (e : Engine) (g : Nat) (f : GuSt → GuSt) : (e.modGu g f).link = e.link := rfl
@[simp] theorem modGu_evt (e : Engine) (g : Nat) (f : GuSt → GuSt) : (e.modGu g f).evt = e.evt := rfl
@[simp] theorem modGu_opens (e : Engine) (g : Nat) (f : GuSt → GuSt) : (e.modGu g f).opens = e.opens := rfl
@[simp] theorem modGu_cmdIn (e : Engine) (g : Nat) (f : GuSt → GuSt) : (e.modGu g f).cmdIn = e.cmdIn := rfl
@[simp] theorem modGu_rings (e : Engine) (g : Nat) (f : GuSt → GuSt) : (e.modGu g f).rings = e.rings := rfl
@[simp] theorem modGu_status (e : Engine) (g : Nat) (f : GuSt → GuSt) : (e.modGu g f).status = e.status := rfl
@[simp] theorem modGu_streams (e : Engine) (g : Nat) (f : GuSt → GuSt) : (e.modGu g f).streams = e.streams := rfl
@[simp] theorem modGu_dma (e : Engine) (g : Nat) (f : GuSt → GuSt) : (e.modGu g f).dma = e.dma := rfl
@[simp] theorem modGu_tg (e : Engine) (g : Nat) (f : GuSt → GuSt) : (e.modGu g f).tg = e.tg := rfl
@[simp] theorem modGu_mot (e : Engine) (g : Nat) (f : GuSt → GuSt) : (e.modGu g f).mot = e.mot := rfl
@[simp] theorem modGu_pac (e : Engine) (g : Nat) (f : GuSt → GuSt) : (e.modGu g f).pac = e.pac := rfl
@[simp] theorem modGu_feed (e : Engine) (g : Nat) (f : GuSt → GuSt) : (e.modGu g f).feed = e.feed := rfl
@[simp] theorem modGu_squall (e : Engine) (g : Nat) (f : GuSt → GuSt) : (e.modGu g f).squall = e.squall := rfl
@[simp] theorem modGu_job (e : Engine) (g : Nat) (f : GuSt → GuSt) : (e.modGu g f).job = e.job := rfl
@[simp] theorem modGu_frames (e : Engine) (g : Nat) (f : GuSt → GuSt) : (e.modGu g f).frames = e.frames := rfl
@[simp] theorem modGu_qdr (e : Engine) (g : Nat) (f : GuSt → GuSt) : (e.modGu g f).qdr = e.qdr := rfl
@[simp] theorem modGu_pair (e : Engine) (g : Nat) (f : GuSt → GuSt) : (e.modGu g f).pair = e.pair := rfl
@[simp] theorem modGu_afe (e : Engine) (g : Nat) (f : GuSt → GuSt) : (e.modGu g f).afe = e.afe := rfl
@[simp] theorem modGu_chans (e : Engine) (g : Nat) (f : GuSt → GuSt) : (e.modGu g f).chans = e.chans := rfl
@[simp] theorem modGu_shd (e : Engine) (g : Nat) (f : GuSt → GuSt) : (e.modGu g f).shd = e.shd := rfl
@[simp] theorem modGu_eddy (e : Engine) (g : Nat) (f : GuSt → GuSt) : (e.modGu g f).eddy = e.eddy := rfl
@[simp] theorem modGu_cal (e : Engine) (g : Nat) (f : GuSt → GuSt) : (e.modGu g f).cal = e.cal := rfl
@[simp] theorem modGu_geo (e : Engine) (g : Nat) (f : GuSt → GuSt) : (e.modGu g f).geo = e.geo := rfl
@[simp] theorem modGu_mon (e : Engine) (g : Nat) (f : GuSt → GuSt) : (e.modGu g f).mon = e.mon := rfl
@[simp] theorem modGu_met (e : Engine) (g : Nat) (f : GuSt → GuSt) : (e.modGu g f).met = e.met := rfl
@[simp] theorem modGu_mets (e : Engine) (g : Nat) (f : GuSt → GuSt) : (e.modGu g f).mets = e.mets := rfl

/-! ### modEddy -/

@[simp] theorem modEddy_regs (e : Engine) (s : Nat) (f : EddySt → EddySt) : (e.modEddy s f).regs = e.regs := rfl
@[simp] theorem modEddy_mode (e : Engine) (s : Nat) (f : EddySt → EddySt) : (e.modEddy s f).mode = e.mode := rfl
@[simp] theorem modEddy_now (e : Engine) (s : Nat) (f : EddySt → EddySt) : (e.modEddy s f).now = e.now := rfl
@[simp] theorem modEddy_jump (e : Engine) (s : Nat) (f : EddySt → EddySt) : (e.modEddy s f).jump = e.jump := rfl
@[simp] theorem modEddy_free (e : Engine) (s : Nat) (f : EddySt → EddySt) : (e.modEddy s f).free = e.free := rfl
@[simp] theorem modEddy_rsp (e : Engine) (s : Nat) (f : EddySt → EddySt) : (e.modEddy s f).rsp = e.rsp := rfl
@[simp] theorem modEddy_trans (e : Engine) (s : Nat) (f : EddySt → EddySt) : (e.modEddy s f).trans = e.trans := rfl
@[simp] theorem modEddy_resetting (e : Engine) (s : Nat) (f : EddySt → EddySt) : (e.modEddy s f).resetting = e.resetting := rfl
@[simp] theorem modEddy_pins (e : Engine) (s : Nat) (f : EddySt → EddySt) : (e.modEddy s f).pins = e.pins := rfl
@[simp] theorem modEddy_flash (e : Engine) (s : Nat) (f : EddySt → EddySt) : (e.modEddy s f).flash = e.flash := rfl
@[simp] theorem modEddy_link (e : Engine) (s : Nat) (f : EddySt → EddySt) : (e.modEddy s f).link = e.link := rfl
@[simp] theorem modEddy_evt (e : Engine) (s : Nat) (f : EddySt → EddySt) : (e.modEddy s f).evt = e.evt := rfl
@[simp] theorem modEddy_opens (e : Engine) (s : Nat) (f : EddySt → EddySt) : (e.modEddy s f).opens = e.opens := rfl
@[simp] theorem modEddy_cmdIn (e : Engine) (s : Nat) (f : EddySt → EddySt) : (e.modEddy s f).cmdIn = e.cmdIn := rfl
@[simp] theorem modEddy_rings (e : Engine) (s : Nat) (f : EddySt → EddySt) : (e.modEddy s f).rings = e.rings := rfl
@[simp] theorem modEddy_status (e : Engine) (s : Nat) (f : EddySt → EddySt) : (e.modEddy s f).status = e.status := rfl
@[simp] theorem modEddy_streams (e : Engine) (s : Nat) (f : EddySt → EddySt) : (e.modEddy s f).streams = e.streams := rfl
@[simp] theorem modEddy_dma (e : Engine) (s : Nat) (f : EddySt → EddySt) : (e.modEddy s f).dma = e.dma := rfl
@[simp] theorem modEddy_tg (e : Engine) (s : Nat) (f : EddySt → EddySt) : (e.modEddy s f).tg = e.tg := rfl
@[simp] theorem modEddy_mot (e : Engine) (s : Nat) (f : EddySt → EddySt) : (e.modEddy s f).mot = e.mot := rfl
@[simp] theorem modEddy_pac (e : Engine) (s : Nat) (f : EddySt → EddySt) : (e.modEddy s f).pac = e.pac := rfl
@[simp] theorem modEddy_feed (e : Engine) (s : Nat) (f : EddySt → EddySt) : (e.modEddy s f).feed = e.feed := rfl
@[simp] theorem modEddy_squall (e : Engine) (s : Nat) (f : EddySt → EddySt) : (e.modEddy s f).squall = e.squall := rfl
@[simp] theorem modEddy_job (e : Engine) (s : Nat) (f : EddySt → EddySt) : (e.modEddy s f).job = e.job := rfl
@[simp] theorem modEddy_frames (e : Engine) (s : Nat) (f : EddySt → EddySt) : (e.modEddy s f).frames = e.frames := rfl
@[simp] theorem modEddy_gus (e : Engine) (s : Nat) (f : EddySt → EddySt) : (e.modEddy s f).gus = e.gus := rfl
@[simp] theorem modEddy_qdr (e : Engine) (s : Nat) (f : EddySt → EddySt) : (e.modEddy s f).qdr = e.qdr := rfl
@[simp] theorem modEddy_pair (e : Engine) (s : Nat) (f : EddySt → EddySt) : (e.modEddy s f).pair = e.pair := rfl
@[simp] theorem modEddy_afe (e : Engine) (s : Nat) (f : EddySt → EddySt) : (e.modEddy s f).afe = e.afe := rfl
@[simp] theorem modEddy_chans (e : Engine) (s : Nat) (f : EddySt → EddySt) : (e.modEddy s f).chans = e.chans := rfl
@[simp] theorem modEddy_shd (e : Engine) (s : Nat) (f : EddySt → EddySt) : (e.modEddy s f).shd = e.shd := rfl
@[simp] theorem modEddy_cal (e : Engine) (s : Nat) (f : EddySt → EddySt) : (e.modEddy s f).cal = e.cal := rfl
@[simp] theorem modEddy_geo (e : Engine) (s : Nat) (f : EddySt → EddySt) : (e.modEddy s f).geo = e.geo := rfl
@[simp] theorem modEddy_mon (e : Engine) (s : Nat) (f : EddySt → EddySt) : (e.modEddy s f).mon = e.mon := rfl
@[simp] theorem modEddy_met (e : Engine) (s : Nat) (f : EddySt → EddySt) : (e.modEddy s f).met = e.met := rfl
@[simp] theorem modEddy_mets (e : Engine) (s : Nat) (f : EddySt → EddySt) : (e.modEddy s f).mets = e.mets := rfl

/-! ### modGeo -/

@[simp] theorem modGeo_regs (e : Engine) (s : Nat) (f : GeoSt → GeoSt) : (e.modGeo s f).regs = e.regs := rfl
@[simp] theorem modGeo_mode (e : Engine) (s : Nat) (f : GeoSt → GeoSt) : (e.modGeo s f).mode = e.mode := rfl
@[simp] theorem modGeo_now (e : Engine) (s : Nat) (f : GeoSt → GeoSt) : (e.modGeo s f).now = e.now := rfl
@[simp] theorem modGeo_jump (e : Engine) (s : Nat) (f : GeoSt → GeoSt) : (e.modGeo s f).jump = e.jump := rfl
@[simp] theorem modGeo_free (e : Engine) (s : Nat) (f : GeoSt → GeoSt) : (e.modGeo s f).free = e.free := rfl
@[simp] theorem modGeo_rsp (e : Engine) (s : Nat) (f : GeoSt → GeoSt) : (e.modGeo s f).rsp = e.rsp := rfl
@[simp] theorem modGeo_trans (e : Engine) (s : Nat) (f : GeoSt → GeoSt) : (e.modGeo s f).trans = e.trans := rfl
@[simp] theorem modGeo_resetting (e : Engine) (s : Nat) (f : GeoSt → GeoSt) : (e.modGeo s f).resetting = e.resetting := rfl
@[simp] theorem modGeo_pins (e : Engine) (s : Nat) (f : GeoSt → GeoSt) : (e.modGeo s f).pins = e.pins := rfl
@[simp] theorem modGeo_flash (e : Engine) (s : Nat) (f : GeoSt → GeoSt) : (e.modGeo s f).flash = e.flash := rfl
@[simp] theorem modGeo_link (e : Engine) (s : Nat) (f : GeoSt → GeoSt) : (e.modGeo s f).link = e.link := rfl
@[simp] theorem modGeo_evt (e : Engine) (s : Nat) (f : GeoSt → GeoSt) : (e.modGeo s f).evt = e.evt := rfl
@[simp] theorem modGeo_opens (e : Engine) (s : Nat) (f : GeoSt → GeoSt) : (e.modGeo s f).opens = e.opens := rfl
@[simp] theorem modGeo_cmdIn (e : Engine) (s : Nat) (f : GeoSt → GeoSt) : (e.modGeo s f).cmdIn = e.cmdIn := rfl
@[simp] theorem modGeo_rings (e : Engine) (s : Nat) (f : GeoSt → GeoSt) : (e.modGeo s f).rings = e.rings := rfl
@[simp] theorem modGeo_status (e : Engine) (s : Nat) (f : GeoSt → GeoSt) : (e.modGeo s f).status = e.status := rfl
@[simp] theorem modGeo_streams (e : Engine) (s : Nat) (f : GeoSt → GeoSt) : (e.modGeo s f).streams = e.streams := rfl
@[simp] theorem modGeo_dma (e : Engine) (s : Nat) (f : GeoSt → GeoSt) : (e.modGeo s f).dma = e.dma := rfl
@[simp] theorem modGeo_tg (e : Engine) (s : Nat) (f : GeoSt → GeoSt) : (e.modGeo s f).tg = e.tg := rfl
@[simp] theorem modGeo_mot (e : Engine) (s : Nat) (f : GeoSt → GeoSt) : (e.modGeo s f).mot = e.mot := rfl
@[simp] theorem modGeo_pac (e : Engine) (s : Nat) (f : GeoSt → GeoSt) : (e.modGeo s f).pac = e.pac := rfl
@[simp] theorem modGeo_feed (e : Engine) (s : Nat) (f : GeoSt → GeoSt) : (e.modGeo s f).feed = e.feed := rfl
@[simp] theorem modGeo_squall (e : Engine) (s : Nat) (f : GeoSt → GeoSt) : (e.modGeo s f).squall = e.squall := rfl
@[simp] theorem modGeo_job (e : Engine) (s : Nat) (f : GeoSt → GeoSt) : (e.modGeo s f).job = e.job := rfl
@[simp] theorem modGeo_frames (e : Engine) (s : Nat) (f : GeoSt → GeoSt) : (e.modGeo s f).frames = e.frames := rfl
@[simp] theorem modGeo_gus (e : Engine) (s : Nat) (f : GeoSt → GeoSt) : (e.modGeo s f).gus = e.gus := rfl
@[simp] theorem modGeo_qdr (e : Engine) (s : Nat) (f : GeoSt → GeoSt) : (e.modGeo s f).qdr = e.qdr := rfl
@[simp] theorem modGeo_pair (e : Engine) (s : Nat) (f : GeoSt → GeoSt) : (e.modGeo s f).pair = e.pair := rfl
@[simp] theorem modGeo_afe (e : Engine) (s : Nat) (f : GeoSt → GeoSt) : (e.modGeo s f).afe = e.afe := rfl
@[simp] theorem modGeo_chans (e : Engine) (s : Nat) (f : GeoSt → GeoSt) : (e.modGeo s f).chans = e.chans := rfl
@[simp] theorem modGeo_shd (e : Engine) (s : Nat) (f : GeoSt → GeoSt) : (e.modGeo s f).shd = e.shd := rfl
@[simp] theorem modGeo_eddy (e : Engine) (s : Nat) (f : GeoSt → GeoSt) : (e.modGeo s f).eddy = e.eddy := rfl
@[simp] theorem modGeo_cal (e : Engine) (s : Nat) (f : GeoSt → GeoSt) : (e.modGeo s f).cal = e.cal := rfl
@[simp] theorem modGeo_mon (e : Engine) (s : Nat) (f : GeoSt → GeoSt) : (e.modGeo s f).mon = e.mon := rfl
@[simp] theorem modGeo_met (e : Engine) (s : Nat) (f : GeoSt → GeoSt) : (e.modGeo s f).met = e.met := rfl
@[simp] theorem modGeo_mets (e : Engine) (s : Nat) (f : GeoSt → GeoSt) : (e.modGeo s f).mets = e.mets := rfl

/-! ### modMon -/

@[simp] theorem modMon_regs (e : Engine) (m : Nat) (f : MonSt → MonSt) : (e.modMon m f).regs = e.regs := rfl
@[simp] theorem modMon_mode (e : Engine) (m : Nat) (f : MonSt → MonSt) : (e.modMon m f).mode = e.mode := rfl
@[simp] theorem modMon_now (e : Engine) (m : Nat) (f : MonSt → MonSt) : (e.modMon m f).now = e.now := rfl
@[simp] theorem modMon_jump (e : Engine) (m : Nat) (f : MonSt → MonSt) : (e.modMon m f).jump = e.jump := rfl
@[simp] theorem modMon_free (e : Engine) (m : Nat) (f : MonSt → MonSt) : (e.modMon m f).free = e.free := rfl
@[simp] theorem modMon_rsp (e : Engine) (m : Nat) (f : MonSt → MonSt) : (e.modMon m f).rsp = e.rsp := rfl
@[simp] theorem modMon_trans (e : Engine) (m : Nat) (f : MonSt → MonSt) : (e.modMon m f).trans = e.trans := rfl
@[simp] theorem modMon_resetting (e : Engine) (m : Nat) (f : MonSt → MonSt) : (e.modMon m f).resetting = e.resetting := rfl
@[simp] theorem modMon_pins (e : Engine) (m : Nat) (f : MonSt → MonSt) : (e.modMon m f).pins = e.pins := rfl
@[simp] theorem modMon_flash (e : Engine) (m : Nat) (f : MonSt → MonSt) : (e.modMon m f).flash = e.flash := rfl
@[simp] theorem modMon_link (e : Engine) (m : Nat) (f : MonSt → MonSt) : (e.modMon m f).link = e.link := rfl
@[simp] theorem modMon_evt (e : Engine) (m : Nat) (f : MonSt → MonSt) : (e.modMon m f).evt = e.evt := rfl
@[simp] theorem modMon_opens (e : Engine) (m : Nat) (f : MonSt → MonSt) : (e.modMon m f).opens = e.opens := rfl
@[simp] theorem modMon_cmdIn (e : Engine) (m : Nat) (f : MonSt → MonSt) : (e.modMon m f).cmdIn = e.cmdIn := rfl
@[simp] theorem modMon_rings (e : Engine) (m : Nat) (f : MonSt → MonSt) : (e.modMon m f).rings = e.rings := rfl
@[simp] theorem modMon_status (e : Engine) (m : Nat) (f : MonSt → MonSt) : (e.modMon m f).status = e.status := rfl
@[simp] theorem modMon_streams (e : Engine) (m : Nat) (f : MonSt → MonSt) : (e.modMon m f).streams = e.streams := rfl
@[simp] theorem modMon_dma (e : Engine) (m : Nat) (f : MonSt → MonSt) : (e.modMon m f).dma = e.dma := rfl
@[simp] theorem modMon_tg (e : Engine) (m : Nat) (f : MonSt → MonSt) : (e.modMon m f).tg = e.tg := rfl
@[simp] theorem modMon_mot (e : Engine) (m : Nat) (f : MonSt → MonSt) : (e.modMon m f).mot = e.mot := rfl
@[simp] theorem modMon_pac (e : Engine) (m : Nat) (f : MonSt → MonSt) : (e.modMon m f).pac = e.pac := rfl
@[simp] theorem modMon_feed (e : Engine) (m : Nat) (f : MonSt → MonSt) : (e.modMon m f).feed = e.feed := rfl
@[simp] theorem modMon_squall (e : Engine) (m : Nat) (f : MonSt → MonSt) : (e.modMon m f).squall = e.squall := rfl
@[simp] theorem modMon_job (e : Engine) (m : Nat) (f : MonSt → MonSt) : (e.modMon m f).job = e.job := rfl
@[simp] theorem modMon_frames (e : Engine) (m : Nat) (f : MonSt → MonSt) : (e.modMon m f).frames = e.frames := rfl
@[simp] theorem modMon_gus (e : Engine) (m : Nat) (f : MonSt → MonSt) : (e.modMon m f).gus = e.gus := rfl
@[simp] theorem modMon_qdr (e : Engine) (m : Nat) (f : MonSt → MonSt) : (e.modMon m f).qdr = e.qdr := rfl
@[simp] theorem modMon_pair (e : Engine) (m : Nat) (f : MonSt → MonSt) : (e.modMon m f).pair = e.pair := rfl
@[simp] theorem modMon_afe (e : Engine) (m : Nat) (f : MonSt → MonSt) : (e.modMon m f).afe = e.afe := rfl
@[simp] theorem modMon_chans (e : Engine) (m : Nat) (f : MonSt → MonSt) : (e.modMon m f).chans = e.chans := rfl
@[simp] theorem modMon_shd (e : Engine) (m : Nat) (f : MonSt → MonSt) : (e.modMon m f).shd = e.shd := rfl
@[simp] theorem modMon_eddy (e : Engine) (m : Nat) (f : MonSt → MonSt) : (e.modMon m f).eddy = e.eddy := rfl
@[simp] theorem modMon_cal (e : Engine) (m : Nat) (f : MonSt → MonSt) : (e.modMon m f).cal = e.cal := rfl
@[simp] theorem modMon_geo (e : Engine) (m : Nat) (f : MonSt → MonSt) : (e.modMon m f).geo = e.geo := rfl
@[simp] theorem modMon_met (e : Engine) (m : Nat) (f : MonSt → MonSt) : (e.modMon m f).met = e.met := rfl
@[simp] theorem modMon_mets (e : Engine) (m : Nat) (f : MonSt → MonSt) : (e.modMon m f).mets = e.mets := rfl

/-! ### modPort -/

@[simp] theorem modPort_regs (e : Engine) (p : Nat) (f : PortSt → PortSt) : (e.modPort p f).regs = e.regs := rfl
@[simp] theorem modPort_mode (e : Engine) (p : Nat) (f : PortSt → PortSt) : (e.modPort p f).mode = e.mode := rfl
@[simp] theorem modPort_now (e : Engine) (p : Nat) (f : PortSt → PortSt) : (e.modPort p f).now = e.now := rfl
@[simp] theorem modPort_jump (e : Engine) (p : Nat) (f : PortSt → PortSt) : (e.modPort p f).jump = e.jump := rfl
@[simp] theorem modPort_free (e : Engine) (p : Nat) (f : PortSt → PortSt) : (e.modPort p f).free = e.free := rfl
@[simp] theorem modPort_rsp (e : Engine) (p : Nat) (f : PortSt → PortSt) : (e.modPort p f).rsp = e.rsp := rfl
@[simp] theorem modPort_trans (e : Engine) (p : Nat) (f : PortSt → PortSt) : (e.modPort p f).trans = e.trans := rfl
@[simp] theorem modPort_resetting (e : Engine) (p : Nat) (f : PortSt → PortSt) : (e.modPort p f).resetting = e.resetting := rfl
@[simp] theorem modPort_pins (e : Engine) (p : Nat) (f : PortSt → PortSt) : (e.modPort p f).pins = e.pins := rfl
@[simp] theorem modPort_flash (e : Engine) (p : Nat) (f : PortSt → PortSt) : (e.modPort p f).flash = e.flash := rfl
@[simp] theorem modPort_link (e : Engine) (p : Nat) (f : PortSt → PortSt) : (e.modPort p f).link = e.link := rfl
@[simp] theorem modPort_evt (e : Engine) (p : Nat) (f : PortSt → PortSt) : (e.modPort p f).evt = e.evt := rfl
@[simp] theorem modPort_opens (e : Engine) (p : Nat) (f : PortSt → PortSt) : (e.modPort p f).opens = e.opens := rfl
@[simp] theorem modPort_cmdIn (e : Engine) (p : Nat) (f : PortSt → PortSt) : (e.modPort p f).cmdIn = e.cmdIn := rfl
@[simp] theorem modPort_rings (e : Engine) (p : Nat) (f : PortSt → PortSt) : (e.modPort p f).rings = e.rings := rfl
@[simp] theorem modPort_status (e : Engine) (p : Nat) (f : PortSt → PortSt) : (e.modPort p f).status = e.status := rfl
@[simp] theorem modPort_streams (e : Engine) (p : Nat) (f : PortSt → PortSt) : (e.modPort p f).streams = e.streams := rfl
@[simp] theorem modPort_dma (e : Engine) (p : Nat) (f : PortSt → PortSt) : (e.modPort p f).dma = e.dma := rfl
@[simp] theorem modPort_tg (e : Engine) (p : Nat) (f : PortSt → PortSt) : (e.modPort p f).tg = e.tg := rfl
@[simp] theorem modPort_mot (e : Engine) (p : Nat) (f : PortSt → PortSt) : (e.modPort p f).mot = e.mot := rfl
@[simp] theorem modPort_pac (e : Engine) (p : Nat) (f : PortSt → PortSt) : (e.modPort p f).pac = e.pac := rfl
@[simp] theorem modPort_feed (e : Engine) (p : Nat) (f : PortSt → PortSt) : (e.modPort p f).feed = e.feed := rfl
@[simp] theorem modPort_squall (e : Engine) (p : Nat) (f : PortSt → PortSt) : (e.modPort p f).squall = e.squall := rfl
@[simp] theorem modPort_job (e : Engine) (p : Nat) (f : PortSt → PortSt) : (e.modPort p f).job = e.job := rfl
@[simp] theorem modPort_frames (e : Engine) (p : Nat) (f : PortSt → PortSt) : (e.modPort p f).frames = e.frames := rfl
@[simp] theorem modPort_gus (e : Engine) (p : Nat) (f : PortSt → PortSt) : (e.modPort p f).gus = e.gus := rfl
@[simp] theorem modPort_pair (e : Engine) (p : Nat) (f : PortSt → PortSt) : (e.modPort p f).pair = e.pair := rfl
@[simp] theorem modPort_afe (e : Engine) (p : Nat) (f : PortSt → PortSt) : (e.modPort p f).afe = e.afe := rfl
@[simp] theorem modPort_chans (e : Engine) (p : Nat) (f : PortSt → PortSt) : (e.modPort p f).chans = e.chans := rfl
@[simp] theorem modPort_shd (e : Engine) (p : Nat) (f : PortSt → PortSt) : (e.modPort p f).shd = e.shd := rfl
@[simp] theorem modPort_eddy (e : Engine) (p : Nat) (f : PortSt → PortSt) : (e.modPort p f).eddy = e.eddy := rfl
@[simp] theorem modPort_cal (e : Engine) (p : Nat) (f : PortSt → PortSt) : (e.modPort p f).cal = e.cal := rfl
@[simp] theorem modPort_geo (e : Engine) (p : Nat) (f : PortSt → PortSt) : (e.modPort p f).geo = e.geo := rfl
@[simp] theorem modPort_mon (e : Engine) (p : Nat) (f : PortSt → PortSt) : (e.modPort p f).mon = e.mon := rfl
@[simp] theorem modPort_met (e : Engine) (p : Nat) (f : PortSt → PortSt) : (e.modPort p f).met = e.met := rfl
@[simp] theorem modPort_mets (e : Engine) (p : Nat) (f : PortSt → PortSt) : (e.modPort p f).mets = e.mets := rfl

/-! ### modBar4 -/

@[simp] theorem modBar4_regs (e : Engine) (i : Nat) (f : Bar4Acc → Bar4Acc) : (e.modBar4 i f).regs = e.regs := rfl
@[simp] theorem modBar4_mode (e : Engine) (i : Nat) (f : Bar4Acc → Bar4Acc) : (e.modBar4 i f).mode = e.mode := rfl
@[simp] theorem modBar4_now (e : Engine) (i : Nat) (f : Bar4Acc → Bar4Acc) : (e.modBar4 i f).now = e.now := rfl
@[simp] theorem modBar4_jump (e : Engine) (i : Nat) (f : Bar4Acc → Bar4Acc) : (e.modBar4 i f).jump = e.jump := rfl
@[simp] theorem modBar4_free (e : Engine) (i : Nat) (f : Bar4Acc → Bar4Acc) : (e.modBar4 i f).free = e.free := rfl
@[simp] theorem modBar4_rsp (e : Engine) (i : Nat) (f : Bar4Acc → Bar4Acc) : (e.modBar4 i f).rsp = e.rsp := rfl
@[simp] theorem modBar4_trans (e : Engine) (i : Nat) (f : Bar4Acc → Bar4Acc) : (e.modBar4 i f).trans = e.trans := rfl
@[simp] theorem modBar4_resetting (e : Engine) (i : Nat) (f : Bar4Acc → Bar4Acc) : (e.modBar4 i f).resetting = e.resetting := rfl
@[simp] theorem modBar4_pins (e : Engine) (i : Nat) (f : Bar4Acc → Bar4Acc) : (e.modBar4 i f).pins = e.pins := rfl
@[simp] theorem modBar4_flash (e : Engine) (i : Nat) (f : Bar4Acc → Bar4Acc) : (e.modBar4 i f).flash = e.flash := rfl
@[simp] theorem modBar4_link (e : Engine) (i : Nat) (f : Bar4Acc → Bar4Acc) : (e.modBar4 i f).link = e.link := rfl
@[simp] theorem modBar4_evt (e : Engine) (i : Nat) (f : Bar4Acc → Bar4Acc) : (e.modBar4 i f).evt = e.evt := rfl
@[simp] theorem modBar4_opens (e : Engine) (i : Nat) (f : Bar4Acc → Bar4Acc) : (e.modBar4 i f).opens = e.opens := rfl
@[simp] theorem modBar4_cmdIn (e : Engine) (i : Nat) (f : Bar4Acc → Bar4Acc) : (e.modBar4 i f).cmdIn = e.cmdIn := rfl
@[simp] theorem modBar4_rings (e : Engine) (i : Nat) (f : Bar4Acc → Bar4Acc) : (e.modBar4 i f).rings = e.rings := rfl
@[simp] theorem modBar4_status (e : Engine) (i : Nat) (f : Bar4Acc → Bar4Acc) : (e.modBar4 i f).status = e.status := rfl
@[simp] theorem modBar4_streams (e : Engine) (i : Nat) (f : Bar4Acc → Bar4Acc) : (e.modBar4 i f).streams = e.streams := rfl
@[simp] theorem modBar4_dma (e : Engine) (i : Nat) (f : Bar4Acc → Bar4Acc) : (e.modBar4 i f).dma = e.dma := rfl
@[simp] theorem modBar4_tg (e : Engine) (i : Nat) (f : Bar4Acc → Bar4Acc) : (e.modBar4 i f).tg = e.tg := rfl
@[simp] theorem modBar4_mot (e : Engine) (i : Nat) (f : Bar4Acc → Bar4Acc) : (e.modBar4 i f).mot = e.mot := rfl
@[simp] theorem modBar4_pac (e : Engine) (i : Nat) (f : Bar4Acc → Bar4Acc) : (e.modBar4 i f).pac = e.pac := rfl
@[simp] theorem modBar4_feed (e : Engine) (i : Nat) (f : Bar4Acc → Bar4Acc) : (e.modBar4 i f).feed = e.feed := rfl
@[simp] theorem modBar4_squall (e : Engine) (i : Nat) (f : Bar4Acc → Bar4Acc) : (e.modBar4 i f).squall = e.squall := rfl
@[simp] theorem modBar4_job (e : Engine) (i : Nat) (f : Bar4Acc → Bar4Acc) : (e.modBar4 i f).job = e.job := rfl
@[simp] theorem modBar4_frames (e : Engine) (i : Nat) (f : Bar4Acc → Bar4Acc) : (e.modBar4 i f).frames = e.frames := rfl
@[simp] theorem modBar4_gus (e : Engine) (i : Nat) (f : Bar4Acc → Bar4Acc) : (e.modBar4 i f).gus = e.gus := rfl
@[simp] theorem modBar4_pair (e : Engine) (i : Nat) (f : Bar4Acc → Bar4Acc) : (e.modBar4 i f).pair = e.pair := rfl
@[simp] theorem modBar4_afe (e : Engine) (i : Nat) (f : Bar4Acc → Bar4Acc) : (e.modBar4 i f).afe = e.afe := rfl
@[simp] theorem modBar4_chans (e : Engine) (i : Nat) (f : Bar4Acc → Bar4Acc) : (e.modBar4 i f).chans = e.chans := rfl
@[simp] theorem modBar4_shd (e : Engine) (i : Nat) (f : Bar4Acc → Bar4Acc) : (e.modBar4 i f).shd = e.shd := rfl
@[simp] theorem modBar4_eddy (e : Engine) (i : Nat) (f : Bar4Acc → Bar4Acc) : (e.modBar4 i f).eddy = e.eddy := rfl
@[simp] theorem modBar4_cal (e : Engine) (i : Nat) (f : Bar4Acc → Bar4Acc) : (e.modBar4 i f).cal = e.cal := rfl
@[simp] theorem modBar4_geo (e : Engine) (i : Nat) (f : Bar4Acc → Bar4Acc) : (e.modBar4 i f).geo = e.geo := rfl
@[simp] theorem modBar4_mon (e : Engine) (i : Nat) (f : Bar4Acc → Bar4Acc) : (e.modBar4 i f).mon = e.mon := rfl
@[simp] theorem modBar4_met (e : Engine) (i : Nat) (f : Bar4Acc → Bar4Acc) : (e.modBar4 i f).met = e.met := rfl
@[simp] theorem modBar4_mets (e : Engine) (i : Nat) (f : Bar4Acc → Bar4Acc) : (e.modBar4 i f).mets = e.mets := rfl

/-! ### setPac -/

@[simp] theorem setPac_regs (e : Engine) (st : PacState) : (e.setPac st).regs = e.regs := rfl
@[simp] theorem setPac_mode (e : Engine) (st : PacState) : (e.setPac st).mode = e.mode := rfl
@[simp] theorem setPac_now (e : Engine) (st : PacState) : (e.setPac st).now = e.now := rfl
@[simp] theorem setPac_jump (e : Engine) (st : PacState) : (e.setPac st).jump = e.jump := rfl
@[simp] theorem setPac_free (e : Engine) (st : PacState) : (e.setPac st).free = e.free := rfl
@[simp] theorem setPac_rsp (e : Engine) (st : PacState) : (e.setPac st).rsp = e.rsp := rfl
@[simp] theorem setPac_trans (e : Engine) (st : PacState) : (e.setPac st).trans = e.trans := rfl
@[simp] theorem setPac_resetting (e : Engine) (st : PacState) : (e.setPac st).resetting = e.resetting := rfl
@[simp] theorem setPac_pins (e : Engine) (st : PacState) : (e.setPac st).pins = e.pins := rfl
@[simp] theorem setPac_flash (e : Engine) (st : PacState) : (e.setPac st).flash = e.flash := rfl
@[simp] theorem setPac_link (e : Engine) (st : PacState) : (e.setPac st).link = e.link := rfl
@[simp] theorem setPac_evt (e : Engine) (st : PacState) : (e.setPac st).evt = e.evt := rfl
@[simp] theorem setPac_opens (e : Engine) (st : PacState) : (e.setPac st).opens = e.opens := rfl
@[simp] theorem setPac_cmdIn (e : Engine) (st : PacState) : (e.setPac st).cmdIn = e.cmdIn := rfl
@[simp] theorem setPac_rings (e : Engine) (st : PacState) : (e.setPac st).rings = e.rings := rfl
@[simp] theorem setPac_status (e : Engine) (st : PacState) : (e.setPac st).status = e.status := rfl
@[simp] theorem setPac_streams (e : Engine) (st : PacState) : (e.setPac st).streams = e.streams := rfl
@[simp] theorem setPac_dma (e : Engine) (st : PacState) : (e.setPac st).dma = e.dma := rfl
@[simp] theorem setPac_tg (e : Engine) (st : PacState) : (e.setPac st).tg = e.tg := rfl
@[simp] theorem setPac_mot (e : Engine) (st : PacState) : (e.setPac st).mot = e.mot := rfl
@[simp] theorem setPac_feed (e : Engine) (st : PacState) : (e.setPac st).feed = e.feed := rfl
@[simp] theorem setPac_squall (e : Engine) (st : PacState) : (e.setPac st).squall = e.squall := rfl
@[simp] theorem setPac_job (e : Engine) (st : PacState) : (e.setPac st).job = e.job := rfl
@[simp] theorem setPac_frames (e : Engine) (st : PacState) : (e.setPac st).frames = e.frames := rfl
@[simp] theorem setPac_gus (e : Engine) (st : PacState) : (e.setPac st).gus = e.gus := rfl
@[simp] theorem setPac_qdr (e : Engine) (st : PacState) : (e.setPac st).qdr = e.qdr := rfl
@[simp] theorem setPac_pair (e : Engine) (st : PacState) : (e.setPac st).pair = e.pair := rfl
@[simp] theorem setPac_afe (e : Engine) (st : PacState) : (e.setPac st).afe = e.afe := rfl
@[simp] theorem setPac_chans (e : Engine) (st : PacState) : (e.setPac st).chans = e.chans := rfl
@[simp] theorem setPac_shd (e : Engine) (st : PacState) : (e.setPac st).shd = e.shd := rfl
@[simp] theorem setPac_eddy (e : Engine) (st : PacState) : (e.setPac st).eddy = e.eddy := rfl
@[simp] theorem setPac_cal (e : Engine) (st : PacState) : (e.setPac st).cal = e.cal := rfl
@[simp] theorem setPac_geo (e : Engine) (st : PacState) : (e.setPac st).geo = e.geo := rfl
@[simp] theorem setPac_mon (e : Engine) (st : PacState) : (e.setPac st).mon = e.mon := rfl
@[simp] theorem setPac_met (e : Engine) (st : PacState) : (e.setPac st).met = e.met := rfl
@[simp] theorem setPac_mets (e : Engine) (st : PacState) : (e.setPac st).mets = e.mets := rfl

/-! ### closeGate -/

@[simp] theorem closeGate_regs (e : Engine) : (e.closeGate).regs = e.regs := rfl
@[simp] theorem closeGate_mode (e : Engine) : (e.closeGate).mode = e.mode := rfl
@[simp] theorem closeGate_now (e : Engine) : (e.closeGate).now = e.now := rfl
@[simp] theorem closeGate_jump (e : Engine) : (e.closeGate).jump = e.jump := rfl
@[simp] theorem closeGate_free (e : Engine) : (e.closeGate).free = e.free := rfl
@[simp] theorem closeGate_rsp (e : Engine) : (e.closeGate).rsp = e.rsp := rfl
@[simp] theorem closeGate_trans (e : Engine) : (e.closeGate).trans = e.trans := rfl
@[simp] theorem closeGate_resetting (e : Engine) : (e.closeGate).resetting = e.resetting := rfl
@[simp] theorem closeGate_pins (e : Engine) : (e.closeGate).pins = e.pins := rfl
@[simp] theorem closeGate_flash (e : Engine) : (e.closeGate).flash = e.flash := rfl
@[simp] theorem closeGate_link (e : Engine) : (e.closeGate).link = e.link := rfl
@[simp] theorem closeGate_evt (e : Engine) : (e.closeGate).evt = e.evt := rfl
@[simp] theorem closeGate_opens (e : Engine) : (e.closeGate).opens = e.opens := rfl
@[simp] theorem closeGate_cmdIn (e : Engine) : (e.closeGate).cmdIn = e.cmdIn := rfl
@[simp] theorem closeGate_rings (e : Engine) : (e.closeGate).rings = e.rings := rfl
@[simp] theorem closeGate_status (e : Engine) : (e.closeGate).status = e.status := rfl
@[simp] theorem closeGate_streams (e : Engine) : (e.closeGate).streams = e.streams := rfl
@[simp] theorem closeGate_dma (e : Engine) : (e.closeGate).dma = e.dma := rfl
@[simp] theorem closeGate_tg (e : Engine) : (e.closeGate).tg = e.tg := rfl
@[simp] theorem closeGate_mot (e : Engine) : (e.closeGate).mot = e.mot := rfl
@[simp] theorem closeGate_pac (e : Engine) : (e.closeGate).pac = e.pac := rfl
@[simp] theorem closeGate_squall (e : Engine) : (e.closeGate).squall = e.squall := rfl
@[simp] theorem closeGate_job (e : Engine) : (e.closeGate).job = e.job := rfl
@[simp] theorem closeGate_frames (e : Engine) : (e.closeGate).frames = e.frames := rfl
@[simp] theorem closeGate_gus (e : Engine) : (e.closeGate).gus = e.gus := rfl
@[simp] theorem closeGate_qdr (e : Engine) : (e.closeGate).qdr = e.qdr := rfl
@[simp] theorem closeGate_pair (e : Engine) : (e.closeGate).pair = e.pair := rfl
@[simp] theorem closeGate_afe (e : Engine) : (e.closeGate).afe = e.afe := rfl
@[simp] theorem closeGate_chans (e : Engine) : (e.closeGate).chans = e.chans := rfl
@[simp] theorem closeGate_shd (e : Engine) : (e.closeGate).shd = e.shd := rfl
@[simp] theorem closeGate_eddy (e : Engine) : (e.closeGate).eddy = e.eddy := rfl
@[simp] theorem closeGate_cal (e : Engine) : (e.closeGate).cal = e.cal := rfl
@[simp] theorem closeGate_geo (e : Engine) : (e.closeGate).geo = e.geo := rfl
@[simp] theorem closeGate_mon (e : Engine) : (e.closeGate).mon = e.mon := rfl
@[simp] theorem closeGate_met (e : Engine) : (e.closeGate).met = e.met := rfl
@[simp] theorem closeGate_mets (e : Engine) : (e.closeGate).mets = e.mets := rfl

/-! ### openCmd -/

@[simp] theorem openCmd_mode (e : Engine) (h : CmdHdr) (code : Nat) (w : Wait) : (e.openCmd h code w).mode = e.mode := rfl
@[simp] theorem openCmd_now (e : Engine) (h : CmdHdr) (code : Nat) (w : Wait) : (e.openCmd h code w).now = e.now := rfl
@[simp] theorem openCmd_jump (e : Engine) (h : CmdHdr) (code : Nat) (w : Wait) : (e.openCmd h code w).jump = e.jump := rfl
@[simp] theorem openCmd_free (e : Engine) (h : CmdHdr) (code : Nat) (w : Wait) : (e.openCmd h code w).free = e.free := rfl
@[simp] theorem openCmd_rsp (e : Engine) (h : CmdHdr) (code : Nat) (w : Wait) : (e.openCmd h code w).rsp = e.rsp := rfl
@[simp] theorem openCmd_trans (e : Engine) (h : CmdHdr) (code : Nat) (w : Wait) : (e.openCmd h code w).trans = e.trans := rfl
@[simp] theorem openCmd_resetting (e : Engine) (h : CmdHdr) (code : Nat) (w : Wait) : (e.openCmd h code w).resetting = e.resetting := rfl
@[simp] theorem openCmd_pins (e : Engine) (h : CmdHdr) (code : Nat) (w : Wait) : (e.openCmd h code w).pins = e.pins := rfl
@[simp] theorem openCmd_flash (e : Engine) (h : CmdHdr) (code : Nat) (w : Wait) : (e.openCmd h code w).flash = e.flash := rfl
@[simp] theorem openCmd_link (e : Engine) (h : CmdHdr) (code : Nat) (w : Wait) : (e.openCmd h code w).link = e.link := rfl
@[simp] theorem openCmd_evt (e : Engine) (h : CmdHdr) (code : Nat) (w : Wait) : (e.openCmd h code w).evt = e.evt := rfl
@[simp] theorem openCmd_cmdIn (e : Engine) (h : CmdHdr) (code : Nat) (w : Wait) : (e.openCmd h code w).cmdIn = e.cmdIn := rfl
@[simp] theorem openCmd_rings (e : Engine) (h : CmdHdr) (code : Nat) (w : Wait) : (e.openCmd h code w).rings = e.rings := rfl
@[simp] theorem openCmd_status (e : Engine) (h : CmdHdr) (code : Nat) (w : Wait) : (e.openCmd h code w).status = e.status := rfl
@[simp] theorem openCmd_streams (e : Engine) (h : CmdHdr) (code : Nat) (w : Wait) : (e.openCmd h code w).streams = e.streams := rfl
@[simp] theorem openCmd_dma (e : Engine) (h : CmdHdr) (code : Nat) (w : Wait) : (e.openCmd h code w).dma = e.dma := rfl
@[simp] theorem openCmd_tg (e : Engine) (h : CmdHdr) (code : Nat) (w : Wait) : (e.openCmd h code w).tg = e.tg := rfl
@[simp] theorem openCmd_mot (e : Engine) (h : CmdHdr) (code : Nat) (w : Wait) : (e.openCmd h code w).mot = e.mot := rfl
@[simp] theorem openCmd_pac (e : Engine) (h : CmdHdr) (code : Nat) (w : Wait) : (e.openCmd h code w).pac = e.pac := rfl
@[simp] theorem openCmd_feed (e : Engine) (h : CmdHdr) (code : Nat) (w : Wait) : (e.openCmd h code w).feed = e.feed := rfl
@[simp] theorem openCmd_squall (e : Engine) (h : CmdHdr) (code : Nat) (w : Wait) : (e.openCmd h code w).squall = e.squall := rfl
@[simp] theorem openCmd_job (e : Engine) (h : CmdHdr) (code : Nat) (w : Wait) : (e.openCmd h code w).job = e.job := rfl
@[simp] theorem openCmd_frames (e : Engine) (h : CmdHdr) (code : Nat) (w : Wait) : (e.openCmd h code w).frames = e.frames := rfl
@[simp] theorem openCmd_gus (e : Engine) (h : CmdHdr) (code : Nat) (w : Wait) : (e.openCmd h code w).gus = e.gus := rfl
@[simp] theorem openCmd_qdr (e : Engine) (h : CmdHdr) (code : Nat) (w : Wait) : (e.openCmd h code w).qdr = e.qdr := rfl
@[simp] theorem openCmd_pair (e : Engine) (h : CmdHdr) (code : Nat) (w : Wait) : (e.openCmd h code w).pair = e.pair := rfl
@[simp] theorem openCmd_afe (e : Engine) (h : CmdHdr) (code : Nat) (w : Wait) : (e.openCmd h code w).afe = e.afe := rfl
@[simp] theorem openCmd_chans (e : Engine) (h : CmdHdr) (code : Nat) (w : Wait) : (e.openCmd h code w).chans = e.chans := rfl
@[simp] theorem openCmd_shd (e : Engine) (h : CmdHdr) (code : Nat) (w : Wait) : (e.openCmd h code w).shd = e.shd := rfl
@[simp] theorem openCmd_eddy (e : Engine) (h : CmdHdr) (code : Nat) (w : Wait) : (e.openCmd h code w).eddy = e.eddy := rfl
@[simp] theorem openCmd_cal (e : Engine) (h : CmdHdr) (code : Nat) (w : Wait) : (e.openCmd h code w).cal = e.cal := rfl
@[simp] theorem openCmd_geo (e : Engine) (h : CmdHdr) (code : Nat) (w : Wait) : (e.openCmd h code w).geo = e.geo := rfl
@[simp] theorem openCmd_mon (e : Engine) (h : CmdHdr) (code : Nat) (w : Wait) : (e.openCmd h code w).mon = e.mon := rfl
@[simp] theorem openCmd_met (e : Engine) (h : CmdHdr) (code : Nat) (w : Wait) : (e.openCmd h code w).met = e.met := rfl
@[simp] theorem openCmd_mets (e : Engine) (h : CmdHdr) (code : Nat) (w : Wait) : (e.openCmd h code w).mets = e.mets := rfl

end Engine

end Sys2Proof.Machine
end

