-- ==== Sys2Proof/Laws/Regs.lean ====
section
/-!
SUPPORT. What a register write leaves: in the field written, in the other fields of its register, in every other register.
-/

namespace Sys2Proof.Machine.Engine

@[simp] theorem word_setWord_same (e : Engine) (off : Nat) (w : Word) : (e.setWord off w).word off = w :=
  Sparse.get_set_same _ _ _ _

theorem word_setWord_ne (e : Engine) {off k : Nat} (w : Word) (h : k ≠ off) : (e.setWord off w).word k = e.word k :=
  Sparse.get_set_ne _ _ _ h

theorem word_wr_ne (e : Engine) {f : Fld} {k : Nat} (v : Nat) (h : k ≠ f.off) : (e.wr f v).word k = e.word k :=
  word_setWord_ne e _ h

theorem rd_setWord_ne (e : Engine) {off : Nat} {f : Fld} (w : Word) (h : f.off ≠ off) : (e.setWord off w).rd f = e.rd f := by
  unfold rd; rw [word_setWord_ne e w h]

theorem rd_setWord_same (e : Engine) (f : Fld) (w : Word) : (e.setWord f.off w).rd f = f.get w := by
  unfold rd; rw [word_setWord_same]

/-- A field reads back what hardware put into it. -/
theorem rd_wr_same (e : Engine) {f : Fld} (hf : f.fits) (v : Nat) : (e.wr f v).rd f = v % 2 ^ f.width := by
  unfold rd wr; rw [word_setWord_same, Fld.get_put_same f hf]

/-- A field that holds a value reads back that value. -/
theorem rd_wr_lt (e : Engine) {f : Fld} (hf : f.fits) {v : Nat} (hv : v < 2 ^ f.width) : (e.wr f v).rd f = v := by
  rw [rd_wr_same e hf, Nat.mod_eq_of_lt hv]

/-- A field of another register keeps its value. -/
theorem rd_wr_ne (e : Engine) {f g : Fld} (v : Nat) (h : f.off ≠ g.off) : (e.wr g v).rd f = e.rd f := rd_setWord_ne e _ h

/-- A field apart from the one written keeps its value, in whatever register. -/
theorem rd_wr_apart (e : Engine) {f g : Fld} (hf : f.fits) (hg : g.fits) (h : f.apart g) (v : Nat) : (e.wr g v).rd f = e.rd f := by
  by_cases ho : f.off = g.off
  · unfold rd wr; rw [ho, word_setWord_same, Fld.get_put_apart f g hf hg h]
  · exact rd_wr_ne e v ho

theorem rd_lt (e : Engine) (f : Fld) : e.rd f < 2 ^ f.width := Fld.get_lt f _

/-- What a field reads depends on the registers alone. -/
theorem rd_congr {e x : Engine} (h : e.regs = x.regs) (f : Fld) : e.rd f = x.rd f := by unfold rd word; rw [h]

theorem word_congr {e x : Engine} (h : e.regs = x.regs) (off : Nat) : e.word off = x.word off := by unfold word; rw [h]

theorem on_congr {e x : Engine} (h : e.regs = x.regs) (f : Fld) : e.on f = x.on f := by unfold on; rw [rd_congr h]

end Sys2Proof.Machine.Engine
end

