-- ==== Sys2Proof/Laws/Events.lean ====
section
/-!
SUPPORT. What building an event does (R221, R248, R267): the event stands last in EVT, and nothing but registers, EVT, the open commands and the pair's
frames has changed; where EVT has room, only the level of EVT among the registers, and no open command.
-/

namespace Sys2Proof.Machine.Engine

/-! ### Fields that events leave alone -/

@[simp] theorem level_mode (e : Engine) (q n : Nat) : (e.level q n).mode = e.mode := by
  unfold level; dsimp only; split <;> simp
@[simp] theorem level_now (e : Engine) (q n : Nat) : (e.level q n).now = e.now := by
  unfold level; dsimp only; split <;> simp
@[simp] theorem level_jump (e : Engine) (q n : Nat) : (e.level q n).jump = e.jump := by
  unfold level; dsimp only; split <;> simp
@[simp] theorem level_free (e : Engine) (q n : Nat) : (e.level q n).free = e.free := by
  unfold level; dsimp only; split <;> simp
@[simp] theorem level_rsp (e : Engine) (q n : Nat) : (e.level q n).rsp = e.rsp := by
  unfold level; dsimp only; split <;> simp
@[simp] theorem level_trans (e : Engine) (q n : Nat) : (e.level q n).trans = e.trans := by
  unfold level; dsimp only; split <;> simp
@[simp] theorem level_resetting (e : Engine) (q n : Nat) : (e.level q n).resetting = e.resetting := by
  unfold level; dsimp only; split <;> simp
@[simp] theorem level_pins (e : Engine) (q n : Nat) : (e.level q n).pins = e.pins := by
  unfold level; dsimp only; split <;> simp
@[simp] theorem level_flash (e : Engine) (q n : Nat) : (e.level q n).flash = e.flash := by
  unfold level; dsimp only; split <;> simp
@[simp] theorem level_link (e : Engine) (q n : Nat) : (e.level q n).link = e.link := by
  unfold level; dsimp only; split <;> simp
@[simp] theorem level_cmdIn (e : Engine) (q n : Nat) : (e.level q n).cmdIn = e.cmdIn := by
  unfold level; dsimp only; split <;> simp
@[simp] theorem level_rings (e : Engine) (q n : Nat) : (e.level q n).rings = e.rings := by
  unfold level; dsimp only; split <;> simp
@[simp] theorem level_status (e : Engine) (q n : Nat) : (e.level q n).status = e.status := by
  unfold level; dsimp only; split <;> simp
@[simp] theorem level_streams (e : Engine) (q n : Nat) : (e.level q n).streams = e.streams := by
  unfold level; dsimp only; split <;> simp
@[simp] theorem level_dma (e : Engine) (q n : Nat) : (e.level q n).dma = e.dma := by
  unfold level; dsimp only; split <;> simp
@[simp] theorem level_tg (e : Engine) (q n : Nat) : (e.level q n).tg = e.tg := by
  unfold level; dsimp only; split <;> simp
@[simp] theorem level_mot (e : Engine) (q n : Nat) : (e.level q n).mot = e.mot := by
  unfold level; dsimp only; split <;> simp
@[simp] theorem level_pac (e : Engine) (q n : Nat) : (e.level q n).pac = e.pac := by
  unfold level; dsimp only; split <;> simp
@[simp] theorem level_feed (e : Engine) (q n : Nat) : (e.level q n).feed = e.feed := by
  unfold level; dsimp only; split <;> simp
@[simp] theorem level_squall (e : Engine) (q n : Nat) : (e.level q n).squall = e.squall := by
  unfold level; dsimp only; split <;> simp
@[simp] theorem level_job (e : Engine) (q n : Nat) : (e.level q n).job = e.job := by
  unfold level; dsimp only; split <;> simp
@[simp] theorem level_frames (e : Engine) (q n : Nat) : (e.level q n).frames = e.frames := by
  unfold level; dsimp only; split <;> simp
@[simp] theorem level_gus (e : Engine) (q n : Nat) : (e.level q n).gus = e.gus := by
  unfold level; dsimp only; split <;> simp
@[simp] theorem level_qdr (e : Engine) (q n : Nat) : (e.level q n).qdr = e.qdr := by
  unfold level; dsimp only; split <;> simp
@[simp] theorem level_afe (e : Engine) (q n : Nat) : (e.level q n).afe = e.afe := by
  unfold level; dsimp only; split <;> simp
@[simp] theorem level_chans (e : Engine) (q n : Nat) : (e.level q n).chans = e.chans := by
  unfold level; dsimp only; split <;> simp
@[simp] theorem level_shd (e : Engine) (q n : Nat) : (e.level q n).shd = e.shd := by
  unfold level; dsimp only; split <;> simp
@[simp] theorem level_eddy (e : Engine) (q n : Nat) : (e.level q n).eddy = e.eddy := by
  unfold level; dsimp only; split <;> simp
@[simp] theorem level_cal (e : Engine) (q n : Nat) : (e.level q n).cal = e.cal := by
  unfold level; dsimp only; split <;> simp
@[simp] theorem level_geo (e : Engine) (q n : Nat) : (e.level q n).geo = e.geo := by
  unfold level; dsimp only; split <;> simp
@[simp] theorem level_mon (e : Engine) (q n : Nat) : (e.level q n).mon = e.mon := by
  unfold level; dsimp only; split <;> simp
@[simp] theorem level_met (e : Engine) (q n : Nat) : (e.level q n).met = e.met := by
  unfold level; dsimp only; split <;> simp
@[simp] theorem level_mets (e : Engine) (q n : Nat) : (e.level q n).mets = e.mets := by
  unfold level; dsimp only; split <;> simp
@[simp] theorem level_evt (e : Engine) (q n : Nat) : (e.level q n).evt = e.evt := by
  unfold level; dsimp only; split <;> simp
@[simp] theorem level_opens (e : Engine) (q n : Nat) : (e.level q n).opens = e.opens := by
  unfold level; dsimp only; split <;> simp
@[simp] theorem level_pair (e : Engine) (q n : Nat) : (e.level q n).pair = e.pair := by
  unfold level; dsimp only; split <;> simp

@[simp] theorem cmdHistory_mode (e : Engine) (h d st code : Nat) : (e.cmdHistory h d st code).mode = e.mode := rfl
@[simp] theorem cmdHistory_now (e : Engine) (h d st code : Nat) : (e.cmdHistory h d st code).now = e.now := rfl
@[simp] theorem cmdHistory_jump (e : Engine) (h d st code : Nat) : (e.cmdHistory h d st code).jump = e.jump := rfl
@[simp] theorem cmdHistory_free (e : Engine) (h d st code : Nat) : (e.cmdHistory h d st code).free = e.free := rfl
@[simp] theorem cmdHistory_rsp (e : Engine) (h d st code : Nat) : (e.cmdHistory h d st code).rsp = e.rsp := rfl
@[simp] theorem cmdHistory_trans (e : Engine) (h d st code : Nat) : (e.cmdHistory h d st code).trans = e.trans := rfl
@[simp] theorem cmdHistory_resetting (e : Engine) (h d st code : Nat) : (e.cmdHistory h d st code).resetting = e.resetting := rfl
@[simp] theorem cmdHistory_pins (e : Engine) (h d st code : Nat) : (e.cmdHistory h d st code).pins = e.pins := rfl
@[simp] theorem cmdHistory_flash (e : Engine) (h d st code : Nat) : (e.cmdHistory h d st code).flash = e.flash := rfl
@[simp] theorem cmdHistory_link (e : Engine) (h d st code : Nat) : (e.cmdHistory h d st code).link = e.link := rfl
@[simp] theorem cmdHistory_cmdIn (e : Engine) (h d st code : Nat) : (e.cmdHistory h d st code).cmdIn = e.cmdIn := rfl
@[simp] theorem cmdHistory_rings (e : Engine) (h d st code : Nat) : (e.cmdHistory h d st code).rings = e.rings := rfl
@[simp] theorem cmdHistory_status (e : Engine) (h d st code : Nat) : (e.cmdHistory h d st code).status = e.status := rfl
@[simp] theorem cmdHistory_streams (e : Engine) (h d st code : Nat) : (e.cmdHistory h d st code).streams = e.streams := rfl
@[simp] theorem cmdHistory_dma (e : Engine) (h d st code : Nat) : (e.cmdHistory h d st code).dma = e.dma := rfl
@[simp] theorem cmdHistory_tg (e : Engine) (h d st code : Nat) : (e.cmdHistory h d st code).tg = e.tg := rfl
@[simp] theorem cmdHistory_mot (e : Engine) (h d st code : Nat) : (e.cmdHistory h d st code).mot = e.mot := rfl
@[simp] theorem cmdHistory_pac (e : Engine) (h d st code : Nat) : (e.cmdHistory h d st code).pac = e.pac := rfl
@[simp] theorem cmdHistory_feed (e : Engine) (h d st code : Nat) : (e.cmdHistory h d st code).feed = e.feed := rfl
@[simp] theorem cmdHistory_squall (e : Engine) (h d st code : Nat) : (e.cmdHistory h d st code).squall = e.squall := rfl
@[simp] theorem cmdHistory_job (e : Engine) (h d st code : Nat) : (e.cmdHistory h d st code).job = e.job := rfl
@[simp] theorem cmdHistory_frames (e : Engine) (h d st code : Nat) : (e.cmdHistory h d st code).frames = e.frames := rfl
@[simp] theorem cmdHistory_gus (e : Engine) (h d st code : Nat) : (e.cmdHistory h d st code).gus = e.gus := rfl
@[simp] theorem cmdHistory_qdr (e : Engine) (h d st code : Nat) : (e.cmdHistory h d st code).qdr = e.qdr := rfl
@[simp] theorem cmdHistory_afe (e : Engine) (h d st code : Nat) : (e.cmdHistory h d st code).afe = e.afe := rfl
@[simp] theorem cmdHistory_chans (e : Engine) (h d st code : Nat) : (e.cmdHistory h d st code).chans = e.chans := rfl
@[simp] theorem cmdHistory_shd (e : Engine) (h d st code : Nat) : (e.cmdHistory h d st code).shd = e.shd := rfl
@[simp] theorem cmdHistory_eddy (e : Engine) (h d st code : Nat) : (e.cmdHistory h d st code).eddy = e.eddy := rfl
@[simp] theorem cmdHistory_cal (e : Engine) (h d st code : Nat) : (e.cmdHistory h d st code).cal = e.cal := rfl
@[simp] theorem cmdHistory_geo (e : Engine) (h d st code : Nat) : (e.cmdHistory h d st code).geo = e.geo := rfl
@[simp] theorem cmdHistory_mon (e : Engine) (h d st code : Nat) : (e.cmdHistory h d st code).mon = e.mon := rfl
@[simp] theorem cmdHistory_met (e : Engine) (h d st code : Nat) : (e.cmdHistory h d st code).met = e.met := rfl
@[simp] theorem cmdHistory_mets (e : Engine) (h d st code : Nat) : (e.cmdHistory h d st code).mets = e.mets := rfl
@[simp] theorem cmdHistory_evt (e : Engine) (h d st code : Nat) : (e.cmdHistory h d st code).evt = e.evt := rfl
@[simp] theorem cmdHistory_opens (e : Engine) (h d st code : Nat) : (e.cmdHistory h d st code).opens = e.opens := rfl
@[simp] theorem cmdHistory_pair (e : Engine) (h d st code : Nat) : (e.cmdHistory h d st code).pair = e.pair := rfl

@[simp] theorem nokHistory_mode (e : Engine) (h d st r n : Nat) : (e.nokHistory h d st r n).mode = e.mode := rfl
@[simp] theorem nokHistory_now (e : Engine) (h d st r n : Nat) : (e.nokHistory h d st r n).now = e.now := rfl
@[simp] theorem nokHistory_jump (e : Engine) (h d st r n : Nat) : (e.nokHistory h d st r n).jump = e.jump := rfl
@[simp] theorem nokHistory_free (e : Engine) (h d st r n : Nat) : (e.nokHistory h d st r n).free = e.free := rfl
@[simp] theorem nokHistory_rsp (e : Engine) (h d st r n : Nat) : (e.nokHistory h d st r n).rsp = e.rsp := rfl
@[simp] theorem nokHistory_trans (e : Engine) (h d st r n : Nat) : (e.nokHistory h d st r n).trans = e.trans := rfl
@[simp] theorem nokHistory_resetting (e : Engine) (h d st r n : Nat) : (e.nokHistory h d st r n).resetting = e.resetting := rfl
@[simp] theorem nokHistory_pins (e : Engine) (h d st r n : Nat) : (e.nokHistory h d st r n).pins = e.pins := rfl
@[simp] theorem nokHistory_flash (e : Engine) (h d st r n : Nat) : (e.nokHistory h d st r n).flash = e.flash := rfl
@[simp] theorem nokHistory_link (e : Engine) (h d st r n : Nat) : (e.nokHistory h d st r n).link = e.link := rfl
@[simp] theorem nokHistory_cmdIn (e : Engine) (h d st r n : Nat) : (e.nokHistory h d st r n).cmdIn = e.cmdIn := rfl
@[simp] theorem nokHistory_rings (e : Engine) (h d st r n : Nat) : (e.nokHistory h d st r n).rings = e.rings := rfl
@[simp] theorem nokHistory_status (e : Engine) (h d st r n : Nat) : (e.nokHistory h d st r n).status = e.status := rfl
@[simp] theorem nokHistory_streams (e : Engine) (h d st r n : Nat) : (e.nokHistory h d st r n).streams = e.streams := rfl
@[simp] theorem nokHistory_dma (e : Engine) (h d st r n : Nat) : (e.nokHistory h d st r n).dma = e.dma := rfl
@[simp] theorem nokHistory_tg (e : Engine) (h d st r n : Nat) : (e.nokHistory h d st r n).tg = e.tg := rfl
@[simp] theorem nokHistory_mot (e : Engine) (h d st r n : Nat) : (e.nokHistory h d st r n).mot = e.mot := rfl
@[simp] theorem nokHistory_pac (e : Engine) (h d st r n : Nat) : (e.nokHistory h d st r n).pac = e.pac := rfl
@[simp] theorem nokHistory_feed (e : Engine) (h d st r n : Nat) : (e.nokHistory h d st r n).feed = e.feed := rfl
@[simp] theorem nokHistory_squall (e : Engine) (h d st r n : Nat) : (e.nokHistory h d st r n).squall = e.squall := rfl
@[simp] theorem nokHistory_job (e : Engine) (h d st r n : Nat) : (e.nokHistory h d st r n).job = e.job := rfl
@[simp] theorem nokHistory_frames (e : Engine) (h d st r n : Nat) : (e.nokHistory h d st r n).frames = e.frames := rfl
@[simp] theorem nokHistory_gus (e : Engine) (h d st r n : Nat) : (e.nokHistory h d st r n).gus = e.gus := rfl
@[simp] theorem nokHistory_qdr (e : Engine) (h d st r n : Nat) : (e.nokHistory h d st r n).qdr = e.qdr := rfl
@[simp] theorem nokHistory_afe (e : Engine) (h d st r n : Nat) : (e.nokHistory h d st r n).afe = e.afe := rfl
@[simp] theorem nokHistory_chans (e : Engine) (h d st r n : Nat) : (e.nokHistory h d st r n).chans = e.chans := rfl
@[simp] theorem nokHistory_shd (e : Engine) (h d st r n : Nat) : (e.nokHistory h d st r n).shd = e.shd := rfl
@[simp] theorem nokHistory_eddy (e : Engine) (h d st r n : Nat) : (e.nokHistory h d st r n).eddy = e.eddy := rfl
@[simp] theorem nokHistory_cal (e : Engine) (h d st r n : Nat) : (e.nokHistory h d st r n).cal = e.cal := rfl
@[simp] theorem nokHistory_geo (e : Engine) (h d st r n : Nat) : (e.nokHistory h d st r n).geo = e.geo := rfl
@[simp] theorem nokHistory_mon (e : Engine) (h d st r n : Nat) : (e.nokHistory h d st r n).mon = e.mon := rfl
@[simp] theorem nokHistory_met (e : Engine) (h d st r n : Nat) : (e.nokHistory h d st r n).met = e.met := rfl
@[simp] theorem nokHistory_mets (e : Engine) (h d st r n : Nat) : (e.nokHistory h d st r n).mets = e.mets := rfl
@[simp] theorem nokHistory_evt (e : Engine) (h d st r n : Nat) : (e.nokHistory h d st r n).evt = e.evt := rfl
@[simp] theorem nokHistory_opens (e : Engine) (h d st r n : Nat) : (e.nokHistory h d st r n).opens = e.opens := rfl
@[simp] theorem nokHistory_pair (e : Engine) (h d st r n : Nat) : (e.nokHistory h d st r n).pair = e.pair := rfl

@[simp] theorem settle_mode (e : Engine) (ev : Ev) : (e.settle ev).mode = e.mode := by
  unfold settle; dsimp only; split <;> (try split) <;> (try split) <;> simp
@[simp] theorem settle_now (e : Engine) (ev : Ev) : (e.settle ev).now = e.now := by
  unfold settle; dsimp only; split <;> (try split) <;> (try split) <;> simp
@[simp] theorem settle_jump (e : Engine) (ev : Ev) : (e.settle ev).jump = e.jump := by
  unfold settle; dsimp only; split <;> (try split) <;> (try split) <;> simp
@[simp] theorem settle_free (e : Engine) (ev : Ev) : (e.settle ev).free = e.free := by
  unfold settle; dsimp only; split <;> (try split) <;> (try split) <;> simp
@[simp] theorem settle_rsp (e : Engine) (ev : Ev) : (e.settle ev).rsp = e.rsp := by
  unfold settle; dsimp only; split <;> (try split) <;> (try split) <;> simp
@[simp] theorem settle_trans (e : Engine) (ev : Ev) : (e.settle ev).trans = e.trans := by
  unfold settle; dsimp only; split <;> (try split) <;> (try split) <;> simp
@[simp] theorem settle_resetting (e : Engine) (ev : Ev) : (e.settle ev).resetting = e.resetting := by
  unfold settle; dsimp only; split <;> (try split) <;> (try split) <;> simp
@[simp] theorem settle_pins (e : Engine) (ev : Ev) : (e.settle ev).pins = e.pins := by
  unfold settle; dsimp only; split <;> (try split) <;> (try split) <;> simp
@[simp] theorem settle_flash (e : Engine) (ev : Ev) : (e.settle ev).flash = e.flash := by
  unfold settle; dsimp only; split <;> (try split) <;> (try split) <;> simp
@[simp] theorem settle_link (e : Engine) (ev : Ev) : (e.settle ev).link = e.link := by
  unfold settle; dsimp only; split <;> (try split) <;> (try split) <;> simp
@[simp] theorem settle_cmdIn (e : Engine) (ev : Ev) : (e.settle ev).cmdIn = e.cmdIn := by
  unfold settle; dsimp only; split <;> (try split) <;> (try split) <;> simp
@[simp] theorem settle_rings (e : Engine) (ev : Ev) : (e.settle ev).rings = e.rings := by
  unfold settle; dsimp only; split <;> (try split) <;> (try split) <;> simp
@[simp] theorem settle_status (e : Engine) (ev : Ev) : (e.settle ev).status = e.status := by
  unfold settle; dsimp only; split <;> (try split) <;> (try split) <;> simp
@[simp] theorem settle_streams (e : Engine) (ev : Ev) : (e.settle ev).streams = e.streams := by
  unfold settle; dsimp only; split <;> (try split) <;> (try split) <;> simp
@[simp] theorem settle_dma (e : Engine) (ev : Ev) : (e.settle ev).dma = e.dma := by
  unfold settle; dsimp only; split <;> (try split) <;> (try split) <;> simp
@[simp] theorem settle_tg (e : Engine) (ev : Ev) : (e.settle ev).tg = e.tg := by
  unfold settle; dsimp only; split <;> (try split) <;> (try split) <;> simp
@[simp] theorem settle_mot (e : Engine) (ev : Ev) : (e.settle ev).mot = e.mot := by
  unfold settle; dsimp only; split <;> (try split) <;> (try split) <;> simp
@[simp] theorem settle_pac (e : Engine) (ev : Ev) : (e.settle ev).pac = e.pac := by
  unfold settle; dsimp only; split <;> (try split) <;> (try split) <;> simp
@[simp] theorem settle_feed (e : Engine) (ev : Ev) : (e.settle ev).feed = e.feed := by
  unfold settle; dsimp only; split <;> (try split) <;> (try split) <;> simp
@[simp] theorem settle_squall (e : Engine) (ev : Ev) : (e.settle ev).squall = e.squall := by
  unfold settle; dsimp only; split <;> (try split) <;> (try split) <;> simp
@[simp] theorem settle_job (e : Engine) (ev : Ev) : (e.settle ev).job = e.job := by
  unfold settle; dsimp only; split <;> (try split) <;> (try split) <;> simp
@[simp] theorem settle_frames (e : Engine) (ev : Ev) : (e.settle ev).frames = e.frames := by
  unfold settle; dsimp only; split <;> (try split) <;> (try split) <;> simp
@[simp] theorem settle_gus (e : Engine) (ev : Ev) : (e.settle ev).gus = e.gus := by
  unfold settle; dsimp only; split <;> (try split) <;> (try split) <;> simp
@[simp] theorem settle_qdr (e : Engine) (ev : Ev) : (e.settle ev).qdr = e.qdr := by
  unfold settle; dsimp only; split <;> (try split) <;> (try split) <;> simp
@[simp] theorem settle_afe (e : Engine) (ev : Ev) : (e.settle ev).afe = e.afe := by
  unfold settle; dsimp only; split <;> (try split) <;> (try split) <;> simp
@[simp] theorem settle_chans (e : Engine) (ev : Ev) : (e.settle ev).chans = e.chans := by
  unfold settle; dsimp only; split <;> (try split) <;> (try split) <;> simp
@[simp] theorem settle_shd (e : Engine) (ev : Ev) : (e.settle ev).shd = e.shd := by
  unfold settle; dsimp only; split <;> (try split) <;> (try split) <;> simp
@[simp] theorem settle_eddy (e : Engine) (ev : Ev) : (e.settle ev).eddy = e.eddy := by
  unfold settle; dsimp only; split <;> (try split) <;> (try split) <;> simp
@[simp] theorem settle_cal (e : Engine) (ev : Ev) : (e.settle ev).cal = e.cal := by
  unfold settle; dsimp only; split <;> (try split) <;> (try split) <;> simp
@[simp] theorem settle_geo (e : Engine) (ev : Ev) : (e.settle ev).geo = e.geo := by
  unfold settle; dsimp only; split <;> (try split) <;> (try split) <;> simp
@[simp] theorem settle_mon (e : Engine) (ev : Ev) : (e.settle ev).mon = e.mon := by
  unfold settle; dsimp only; split <;> (try split) <;> (try split) <;> simp
@[simp] theorem settle_met (e : Engine) (ev : Ev) : (e.settle ev).met = e.met := by
  unfold settle; dsimp only; split <;> (try split) <;> (try split) <;> simp
@[simp] theorem settle_mets (e : Engine) (ev : Ev) : (e.settle ev).mets = e.mets := by
  unfold settle; dsimp only; split <;> (try split) <;> (try split) <;> simp
@[simp] theorem settle_evt (e : Engine) (ev : Ev) : (e.settle ev).evt = e.evt := by
  unfold settle; dsimp only; split <;> (try split) <;> (try split) <;> simp
@[simp] theorem settle_pair (e : Engine) (ev : Ev) : (e.settle ev).pair = e.pair := by
  unfold settle; dsimp only; split <;> (try split) <;> (try split) <;> simp

@[simp] theorem loseOldest_mode (e : Engine) : (e.loseOldest).mode = e.mode := by
  unfold loseOldest; split
  · rfl
  · dsimp only; split <;> simp
@[simp] theorem loseOldest_now (e : Engine) : (e.loseOldest).now = e.now := by
  unfold loseOldest; split
  · rfl
  · dsimp only; split <;> simp
@[simp] theorem loseOldest_jump (e : Engine) : (e.loseOldest).jump = e.jump := by
  unfold loseOldest; split
  · rfl
  · dsimp only; split <;> simp
@[simp] theorem loseOldest_free (e : Engine) : (e.loseOldest).free = e.free := by
  unfold loseOldest; split
  · rfl
  · dsimp only; split <;> simp
@[simp] theorem loseOldest_rsp (e : Engine) : (e.loseOldest).rsp = e.rsp := by
  unfold loseOldest; split
  · rfl
  · dsimp only; split <;> simp
@[simp] theorem loseOldest_trans (e : Engine) : (e.loseOldest).trans = e.trans := by
  unfold loseOldest; split
  · rfl
  · dsimp only; split <;> simp
@[simp] theorem loseOldest_resetting (e : Engine) : (e.loseOldest).resetting = e.resetting := by
  unfold loseOldest; split
  · rfl
  · dsimp only; split <;> simp
@[simp] theorem loseOldest_pins (e : Engine) : (e.loseOldest).pins = e.pins := by
  unfold loseOldest; split
  · rfl
  · dsimp only; split <;> simp
@[simp] theorem loseOldest_flash (e : Engine) : (e.loseOldest).flash = e.flash := by
  unfold loseOldest; split
  · rfl
  · dsimp only; split <;> simp
@[simp] theorem loseOldest_link (e : Engine) : (e.loseOldest).link = e.link := by
  unfold loseOldest; split
  · rfl
  · dsimp only; split <;> simp
@[simp] theorem loseOldest_cmdIn (e : Engine) : (e.loseOldest).cmdIn = e.cmdIn := by
  unfold loseOldest; split
  · rfl
  · dsimp only; split <;> simp
@[simp] theorem loseOldest_rings (e : Engine) : (e.loseOldest).rings = e.rings := by
  unfold loseOldest; split
  · rfl
  · dsimp only; split <;> simp
@[simp] theorem loseOldest_status (e : Engine) : (e.loseOldest).status = e.status := by
  unfold loseOldest; split
  · rfl
  · dsimp only; split <;> simp
@[simp] theorem loseOldest_streams (e : Engine) : (e.loseOldest).streams = e.streams := by
  unfold loseOldest; split
  · rfl
  · dsimp only; split <;> simp
@[simp] theorem loseOldest_dma (e : Engine) : (e.loseOldest).dma = e.dma := by
  unfold loseOldest; split
  · rfl
  · dsimp only; split <;> simp
@[simp] theorem loseOldest_tg (e : Engine) : (e.loseOldest).tg = e.tg := by
  unfold loseOldest; split
  · rfl
  · dsimp only; split <;> simp
@[simp] theorem loseOldest_mot (e : Engine) : (e.loseOldest).mot = e.mot := by
  unfold loseOldest; split
  · rfl
  · dsimp only; split <;> simp
@[simp] theorem loseOldest_pac (e : Engine) : (e.loseOldest).pac = e.pac := by
  unfold loseOldest; split
  · rfl
  · dsimp only; split <;> simp
@[simp] theorem loseOldest_feed (e : Engine) : (e.loseOldest).feed = e.feed := by
  unfold loseOldest; split
  · rfl
  · dsimp only; split <;> simp
@[simp] theorem loseOldest_squall (e : Engine) : (e.loseOldest).squall = e.squall := by
  unfold loseOldest; split
  · rfl
  · dsimp only; split <;> simp
@[simp] theorem loseOldest_job (e : Engine) : (e.loseOldest).job = e.job := by
  unfold loseOldest; split
  · rfl
  · dsimp only; split <;> simp
@[simp] theorem loseOldest_frames (e : Engine) : (e.loseOldest).frames = e.frames := by
  unfold loseOldest; split
  · rfl
  · dsimp only; split <;> simp
@[simp] theorem loseOldest_gus (e : Engine) : (e.loseOldest).gus = e.gus := by
  unfold loseOldest; split
  · rfl
  · dsimp only; split <;> simp
@[simp] theorem loseOldest_qdr (e : Engine) : (e.loseOldest).qdr = e.qdr := by
  unfold loseOldest; split
  · rfl
  · dsimp only; split <;> simp
@[simp] theorem loseOldest_afe (e : Engine) : (e.loseOldest).afe = e.afe := by
  unfold loseOldest; split
  · rfl
  · dsimp only; split <;> simp
@[simp] theorem loseOldest_chans (e : Engine) : (e.loseOldest).chans = e.chans := by
  unfold loseOldest; split
  · rfl
  · dsimp only; split <;> simp
@[simp] theorem loseOldest_shd (e : Engine) : (e.loseOldest).shd = e.shd := by
  unfold loseOldest; split
  · rfl
  · dsimp only; split <;> simp
@[simp] theorem loseOldest_eddy (e : Engine) : (e.loseOldest).eddy = e.eddy := by
  unfold loseOldest; split
  · rfl
  · dsimp only; split <;> simp
@[simp] theorem loseOldest_cal (e : Engine) : (e.loseOldest).cal = e.cal := by
  unfold loseOldest; split
  · rfl
  · dsimp only; split <;> simp
@[simp] theorem loseOldest_geo (e : Engine) : (e.loseOldest).geo = e.geo := by
  unfold loseOldest; split
  · rfl
  · dsimp only; split <;> simp
@[simp] theorem loseOldest_mon (e : Engine) : (e.loseOldest).mon = e.mon := by
  unfold loseOldest; split
  · rfl
  · dsimp only; split <;> simp
@[simp] theorem loseOldest_met (e : Engine) : (e.loseOldest).met = e.met := by
  unfold loseOldest; split
  · rfl
  · dsimp only; split <;> simp
@[simp] theorem loseOldest_mets (e : Engine) : (e.loseOldest).mets = e.mets := by
  unfold loseOldest; split
  · rfl
  · dsimp only; split <;> simp
@[simp] theorem loseOldest_pair (e : Engine) : (e.loseOldest).pair = e.pair := by
  unfold loseOldest; split
  · rfl
  · dsimp only; split <;> simp

@[simp] theorem commitEv_mode (e : Engine) (code subj status arg : Nat) (hs : Option Nat) (p : List LayField) (bk : Booking) : (e.commitEv code subj status arg hs p bk).mode = e.mode := by
  unfold commitEv; dsimp only; split <;> simp
@[simp] theorem commitEv_now (e : Engine) (code subj status arg : Nat) (hs : Option Nat) (p : List LayField) (bk : Booking) : (e.commitEv code subj status arg hs p bk).now = e.now := by
  unfold commitEv; dsimp only; split <;> simp
@[simp] theorem commitEv_jump (e : Engine) (code subj status arg : Nat) (hs : Option Nat) (p : List LayField) (bk : Booking) : (e.commitEv code subj status arg hs p bk).jump = e.jump := by
  unfold commitEv; dsimp only; split <;> simp
@[simp] theorem commitEv_free (e : Engine) (code subj status arg : Nat) (hs : Option Nat) (p : List LayField) (bk : Booking) : (e.commitEv code subj status arg hs p bk).free = e.free := by
  unfold commitEv; dsimp only; split <;> simp
@[simp] theorem commitEv_rsp (e : Engine) (code subj status arg : Nat) (hs : Option Nat) (p : List LayField) (bk : Booking) : (e.commitEv code subj status arg hs p bk).rsp = e.rsp := by
  unfold commitEv; dsimp only; split <;> simp
@[simp] theorem commitEv_trans (e : Engine) (code subj status arg : Nat) (hs : Option Nat) (p : List LayField) (bk : Booking) : (e.commitEv code subj status arg hs p bk).trans = e.trans := by
  unfold commitEv; dsimp only; split <;> simp
@[simp] theorem commitEv_resetting (e : Engine) (code subj status arg : Nat) (hs : Option Nat) (p : List LayField) (bk : Booking) : (e.commitEv code subj status arg hs p bk).resetting = e.resetting := by
  unfold commitEv; dsimp only; split <;> simp
@[simp] theorem commitEv_pins (e : Engine) (code subj status arg : Nat) (hs : Option Nat) (p : List LayField) (bk : Booking) : (e.commitEv code subj status arg hs p bk).pins = e.pins := by
  unfold commitEv; dsimp only; split <;> simp
@[simp] theorem commitEv_flash (e : Engine) (code subj status arg : Nat) (hs : Option Nat) (p : List LayField) (bk : Booking) : (e.commitEv code subj status arg hs p bk).flash = e.flash := by
  unfold commitEv; dsimp only; split <;> simp
@[simp] theorem commitEv_link (e : Engine) (code subj status arg : Nat) (hs : Option Nat) (p : List LayField) (bk : Booking) : (e.commitEv code subj status arg hs p bk).link = e.link := by
  unfold commitEv; dsimp only; split <;> simp
@[simp] theorem commitEv_cmdIn (e : Engine) (code subj status arg : Nat) (hs : Option Nat) (p : List LayField) (bk : Booking) : (e.commitEv code subj status arg hs p bk).cmdIn = e.cmdIn := by
  unfold commitEv; dsimp only; split <;> simp
@[simp] theorem commitEv_rings (e : Engine) (code subj status arg : Nat) (hs : Option Nat) (p : List LayField) (bk : Booking) : (e.commitEv code subj status arg hs p bk).rings = e.rings := by
  unfold commitEv; dsimp only; split <;> simp
@[simp] theorem commitEv_status (e : Engine) (code subj status arg : Nat) (hs : Option Nat) (p : List LayField) (bk : Booking) : (e.commitEv code subj status arg hs p bk).status = e.status := by
  unfold commitEv; dsimp only; split <;> simp
@[simp] theorem commitEv_streams (e : Engine) (code subj status arg : Nat) (hs : Option Nat) (p : List LayField) (bk : Booking) : (e.commitEv code subj status arg hs p bk).streams = e.streams := by
  unfold commitEv; dsimp only; split <;> simp
@[simp] theorem commitEv_dma (e : Engine) (code subj status arg : Nat) (hs : Option Nat) (p : List LayField) (bk : Booking) : (e.commitEv code subj status arg hs p bk).dma = e.dma := by
  unfold commitEv; dsimp only; split <;> simp
@[simp] theorem commitEv_tg (e : Engine) (code subj status arg : Nat) (hs : Option Nat) (p : List LayField) (bk : Booking) : (e.commitEv code subj status arg hs p bk).tg = e.tg := by
  unfold commitEv; dsimp only; split <;> simp
@[simp] theorem commitEv_mot (e : Engine) (code subj status arg : Nat) (hs : Option Nat) (p : List LayField) (bk : Booking) : (e.commitEv code subj status arg hs p bk).mot = e.mot := by
  unfold commitEv; dsimp only; split <;> simp
@[simp] theorem commitEv_pac (e : Engine) (code subj status arg : Nat) (hs : Option Nat) (p : List LayField) (bk : Booking) : (e.commitEv code subj status arg hs p bk).pac = e.pac := by
  unfold commitEv; dsimp only; split <;> simp
@[simp] theorem commitEv_feed (e : Engine) (code subj status arg : Nat) (hs : Option Nat) (p : List LayField) (bk : Booking) : (e.commitEv code subj status arg hs p bk).feed = e.feed := by
  unfold commitEv; dsimp only; split <;> simp
@[simp] theorem commitEv_squall (e : Engine) (code subj status arg : Nat) (hs : Option Nat) (p : List LayField) (bk : Booking) : (e.commitEv code subj status arg hs p bk).squall = e.squall := by
  unfold commitEv; dsimp only; split <;> simp
@[simp] theorem commitEv_job (e : Engine) (code subj status arg : Nat) (hs : Option Nat) (p : List LayField) (bk : Booking) : (e.commitEv code subj status arg hs p bk).job = e.job := by
  unfold commitEv; dsimp only; split <;> simp
@[simp] theorem commitEv_frames (e : Engine) (code subj status arg : Nat) (hs : Option Nat) (p : List LayField) (bk : Booking) : (e.commitEv code subj status arg hs p bk).frames = e.frames := by
  unfold commitEv; dsimp only; split <;> simp
@[simp] theorem commitEv_gus (e : Engine) (code subj status arg : Nat) (hs : Option Nat) (p : List LayField) (bk : Booking) : (e.commitEv code subj status arg hs p bk).gus = e.gus := by
  unfold commitEv; dsimp only; split <;> simp
@[simp] theorem commitEv_qdr (e : Engine) (code subj status arg : Nat) (hs : Option Nat) (p : List LayField) (bk : Booking) : (e.commitEv code subj status arg hs p bk).qdr = e.qdr := by
  unfold commitEv; dsimp only; split <;> simp
@[simp] theorem commitEv_afe (e : Engine) (code subj status arg : Nat) (hs : Option Nat) (p : List LayField) (bk : Booking) : (e.commitEv code subj status arg hs p bk).afe = e.afe := by
  unfold commitEv; dsimp only; split <;> simp
@[simp] theorem commitEv_chans (e : Engine) (code subj status arg : Nat) (hs : Option Nat) (p : List LayField) (bk : Booking) : (e.commitEv code subj status arg hs p bk).chans = e.chans := by
  unfold commitEv; dsimp only; split <;> simp
@[simp] theorem commitEv_shd (e : Engine) (code subj status arg : Nat) (hs : Option Nat) (p : List LayField) (bk : Booking) : (e.commitEv code subj status arg hs p bk).shd = e.shd := by
  unfold commitEv; dsimp only; split <;> simp
@[simp] theorem commitEv_eddy (e : Engine) (code subj status arg : Nat) (hs : Option Nat) (p : List LayField) (bk : Booking) : (e.commitEv code subj status arg hs p bk).eddy = e.eddy := by
  unfold commitEv; dsimp only; split <;> simp
@[simp] theorem commitEv_cal (e : Engine) (code subj status arg : Nat) (hs : Option Nat) (p : List LayField) (bk : Booking) : (e.commitEv code subj status arg hs p bk).cal = e.cal := by
  unfold commitEv; dsimp only; split <;> simp
@[simp] theorem commitEv_geo (e : Engine) (code subj status arg : Nat) (hs : Option Nat) (p : List LayField) (bk : Booking) : (e.commitEv code subj status arg hs p bk).geo = e.geo := by
  unfold commitEv; dsimp only; split <;> simp
@[simp] theorem commitEv_mon (e : Engine) (code subj status arg : Nat) (hs : Option Nat) (p : List LayField) (bk : Booking) : (e.commitEv code subj status arg hs p bk).mon = e.mon := by
  unfold commitEv; dsimp only; split <;> simp
@[simp] theorem commitEv_met (e : Engine) (code subj status arg : Nat) (hs : Option Nat) (p : List LayField) (bk : Booking) : (e.commitEv code subj status arg hs p bk).met = e.met := by
  unfold commitEv; dsimp only; split <;> simp
@[simp] theorem commitEv_mets (e : Engine) (code subj status arg : Nat) (hs : Option Nat) (p : List LayField) (bk : Booking) : (e.commitEv code subj status arg hs p bk).mets = e.mets := by
  unfold commitEv; dsimp only; split <;> simp

@[simp] theorem emitBk_mode (e : Engine) (code subj status arg : Nat) (hs : Option Nat) (p : List LayField) (bk : Booking) : (e.emitBk code subj status arg hs p bk).mode = e.mode := by
  unfold emitBk; split
  · rfl
  · dsimp only; split <;> (try split) <;> simp
@[simp] theorem emitBk_now (e : Engine) (code subj status arg : Nat) (hs : Option Nat) (p : List LayField) (bk : Booking) : (e.emitBk code subj status arg hs p bk).now = e.now := by
  unfold emitBk; split
  · rfl
  · dsimp only; split <;> (try split) <;> simp
@[simp] theorem emitBk_jump (e : Engine) (code subj status arg : Nat) (hs : Option Nat) (p : List LayField) (bk : Booking) : (e.emitBk code subj status arg hs p bk).jump = e.jump := by
  unfold emitBk; split
  · rfl
  · dsimp only; split <;> (try split) <;> simp
@[simp] theorem emitBk_free (e : Engine) (code subj status arg : Nat) (hs : Option Nat) (p : List LayField) (bk : Booking) : (e.emitBk code subj status arg hs p bk).free = e.free := by
  unfold emitBk; split
  · rfl
  · dsimp only; split <;> (try split) <;> simp
@[simp] theorem emitBk_rsp (e : Engine) (code subj status arg : Nat) (hs : Option Nat) (p : List LayField) (bk : Booking) : (e.emitBk code subj status arg hs p bk).rsp = e.rsp := by
  unfold emitBk; split
  · rfl
  · dsimp only; split <;> (try split) <;> simp
@[simp] theorem emitBk_trans (e : Engine) (code subj status arg : Nat) (hs : Option Nat) (p : List LayField) (bk : Booking) : (e.emitBk code subj status arg hs p bk).trans = e.trans := by
  unfold emitBk; split
  · rfl
  · dsimp only; split <;> (try split) <;> simp
@[simp] theorem emitBk_resetting (e : Engine) (code subj status arg : Nat) (hs : Option Nat) (p : List LayField) (bk : Booking) : (e.emitBk code subj status arg hs p bk).resetting = e.resetting := by
  unfold emitBk; split
  · rfl
  · dsimp only; split <;> (try split) <;> simp
@[simp] theorem emitBk_pins (e : Engine) (code subj status arg : Nat) (hs : Option Nat) (p : List LayField) (bk : Booking) : (e.emitBk code subj status arg hs p bk).pins = e.pins := by
  unfold emitBk; split
  · rfl
  · dsimp only; split <;> (try split) <;> simp
@[simp] theorem emitBk_flash (e : Engine) (code subj status arg : Nat) (hs : Option Nat) (p : List LayField) (bk : Booking) : (e.emitBk code subj status arg hs p bk).flash = e.flash := by
  unfold emitBk; split
  · rfl
  · dsimp only; split <;> (try split) <;> simp
@[simp] theorem emitBk_link (e : Engine) (code subj status arg : Nat) (hs : Option Nat) (p : List LayField) (bk : Booking) : (e.emitBk code subj status arg hs p bk).link = e.link := by
  unfold emitBk; split
  · rfl
  · dsimp only; split <;> (try split) <;> simp
@[simp] theorem emitBk_cmdIn (e : Engine) (code subj status arg : Nat) (hs : Option Nat) (p : List LayField) (bk : Booking) : (e.emitBk code subj status arg hs p bk).cmdIn = e.cmdIn := by
  unfold emitBk; split
  · rfl
  · dsimp only; split <;> (try split) <;> simp
@[simp] theorem emitBk_rings (e : Engine) (code subj status arg : Nat) (hs : Option Nat) (p : List LayField) (bk : Booking) : (e.emitBk code subj status arg hs p bk).rings = e.rings := by
  unfold emitBk; split
  · rfl
  · dsimp only; split <;> (try split) <;> simp
@[simp] theorem emitBk_status (e : Engine) (code subj status arg : Nat) (hs : Option Nat) (p : List LayField) (bk : Booking) : (e.emitBk code subj status arg hs p bk).status = e.status := by
  unfold emitBk; split
  · rfl
  · dsimp only; split <;> (try split) <;> simp
@[simp] theorem emitBk_streams (e : Engine) (code subj status arg : Nat) (hs : Option Nat) (p : List LayField) (bk : Booking) : (e.emitBk code subj status arg hs p bk).streams = e.streams := by
  unfold emitBk; split
  · rfl
  · dsimp only; split <;> (try split) <;> simp
@[simp] theorem emitBk_dma (e : Engine) (code subj status arg : Nat) (hs : Option Nat) (p : List LayField) (bk : Booking) : (e.emitBk code subj status arg hs p bk).dma = e.dma := by
  unfold emitBk; split
  · rfl
  · dsimp only; split <;> (try split) <;> simp
@[simp] theorem emitBk_tg (e : Engine) (code subj status arg : Nat) (hs : Option Nat) (p : List LayField) (bk : Booking) : (e.emitBk code subj status arg hs p bk).tg = e.tg := by
  unfold emitBk; split
  · rfl
  · dsimp only; split <;> (try split) <;> simp
@[simp] theorem emitBk_mot (e : Engine) (code subj status arg : Nat) (hs : Option Nat) (p : List LayField) (bk : Booking) : (e.emitBk code subj status arg hs p bk).mot = e.mot := by
  unfold emitBk; split
  · rfl
  · dsimp only; split <;> (try split) <;> simp
@[simp] theorem emitBk_pac (e : Engine) (code subj status arg : Nat) (hs : Option Nat) (p : List LayField) (bk : Booking) : (e.emitBk code subj status arg hs p bk).pac = e.pac := by
  unfold emitBk; split
  · rfl
  · dsimp only; split <;> (try split) <;> simp
@[simp] theorem emitBk_feed (e : Engine) (code subj status arg : Nat) (hs : Option Nat) (p : List LayField) (bk : Booking) : (e.emitBk code subj status arg hs p bk).feed = e.feed := by
  unfold emitBk; split
  · rfl
  · dsimp only; split <;> (try split) <;> simp
@[simp] theorem emitBk_squall (e : Engine) (code subj status arg : Nat) (hs : Option Nat) (p : List LayField) (bk : Booking) : (e.emitBk code subj status arg hs p bk).squall = e.squall := by
  unfold emitBk; split
  · rfl
  · dsimp only; split <;> (try split) <;> simp
@[simp] theorem emitBk_job (e : Engine) (code subj status arg : Nat) (hs : Option Nat) (p : List LayField) (bk : Booking) : (e.emitBk code subj status arg hs p bk).job = e.job := by
  unfold emitBk; split
  · rfl
  · dsimp only; split <;> (try split) <;> simp
@[simp] theorem emitBk_frames (e : Engine) (code subj status arg : Nat) (hs : Option Nat) (p : List LayField) (bk : Booking) : (e.emitBk code subj status arg hs p bk).frames = e.frames := by
  unfold emitBk; split
  · rfl
  · dsimp only; split <;> (try split) <;> simp
@[simp] theorem emitBk_gus (e : Engine) (code subj status arg : Nat) (hs : Option Nat) (p : List LayField) (bk : Booking) : (e.emitBk code subj status arg hs p bk).gus = e.gus := by
  unfold emitBk; split
  · rfl
  · dsimp only; split <;> (try split) <;> simp
@[simp] theorem emitBk_qdr (e : Engine) (code subj status arg : Nat) (hs : Option Nat) (p : List LayField) (bk : Booking) : (e.emitBk code subj status arg hs p bk).qdr = e.qdr := by
  unfold emitBk; split
  · rfl
  · dsimp only; split <;> (try split) <;> simp
@[simp] theorem emitBk_afe (e : Engine) (code subj status arg : Nat) (hs : Option Nat) (p : List LayField) (bk : Booking) : (e.emitBk code subj status arg hs p bk).afe = e.afe := by
  unfold emitBk; split
  · rfl
  · dsimp only; split <;> (try split) <;> simp
@[simp] theorem emitBk_chans (e : Engine) (code subj status arg : Nat) (hs : Option Nat) (p : List LayField) (bk : Booking) : (e.emitBk code subj status arg hs p bk).chans = e.chans := by
  unfold emitBk; split
  · rfl
  · dsimp only; split <;> (try split) <;> simp
@[simp] theorem emitBk_shd (e : Engine) (code subj status arg : Nat) (hs : Option Nat) (p : List LayField) (bk : Booking) : (e.emitBk code subj status arg hs p bk).shd = e.shd := by
  unfold emitBk; split
  · rfl
  · dsimp only; split <;> (try split) <;> simp
@[simp] theorem emitBk_eddy (e : Engine) (code subj status arg : Nat) (hs : Option Nat) (p : List LayField) (bk : Booking) : (e.emitBk code subj status arg hs p bk).eddy = e.eddy := by
  unfold emitBk; split
  · rfl
  · dsimp only; split <;> (try split) <;> simp
@[simp] theorem emitBk_cal (e : Engine) (code subj status arg : Nat) (hs : Option Nat) (p : List LayField) (bk : Booking) : (e.emitBk code subj status arg hs p bk).cal = e.cal := by
  unfold emitBk; split
  · rfl
  · dsimp only; split <;> (try split) <;> simp
@[simp] theorem emitBk_geo (e : Engine) (code subj status arg : Nat) (hs : Option Nat) (p : List LayField) (bk : Booking) : (e.emitBk code subj status arg hs p bk).geo = e.geo := by
  unfold emitBk; split
  · rfl
  · dsimp only; split <;> (try split) <;> simp
@[simp] theorem emitBk_mon (e : Engine) (code subj status arg : Nat) (hs : Option Nat) (p : List LayField) (bk : Booking) : (e.emitBk code subj status arg hs p bk).mon = e.mon := by
  unfold emitBk; split
  · rfl
  · dsimp only; split <;> (try split) <;> simp
@[simp] theorem emitBk_met (e : Engine) (code subj status arg : Nat) (hs : Option Nat) (p : List LayField) (bk : Booking) : (e.emitBk code subj status arg hs p bk).met = e.met := by
  unfold emitBk; split
  · rfl
  · dsimp only; split <;> (try split) <;> simp
@[simp] theorem emitBk_mets (e : Engine) (code subj status arg : Nat) (hs : Option Nat) (p : List LayField) (bk : Booking) : (e.emitBk code subj status arg hs p bk).mets = e.mets := by
  unfold emitBk; split
  · rfl
  · dsimp only; split <;> (try split) <;> simp

@[simp] theorem emit_mode (e : Engine) (code subj status arg : Nat) (hs : Option Nat) (p : List LayField) : (e.emit code subj status arg hs p).mode = e.mode := emitBk_mode ..
@[simp] theorem emit_now (e : Engine) (code subj status arg : Nat) (hs : Option Nat) (p : List LayField) : (e.emit code subj status arg hs p).now = e.now := emitBk_now ..
@[simp] theorem emit_jump (e : Engine) (code subj status arg : Nat) (hs : Option Nat) (p : List LayField) : (e.emit code subj status arg hs p).jump = e.jump := emitBk_jump ..
@[simp] theorem emit_free (e : Engine) (code subj status arg : Nat) (hs : Option Nat) (p : List LayField) : (e.emit code subj status arg hs p).free = e.free := emitBk_free ..
@[simp] theorem emit_rsp (e : Engine) (code subj status arg : Nat) (hs : Option Nat) (p : List LayField) : (e.emit code subj status arg hs p).rsp = e.rsp := emitBk_rsp ..
@[simp] theorem emit_trans (e : Engine) (code subj status arg : Nat) (hs : Option Nat) (p : List LayField) : (e.emit code subj status arg hs p).trans = e.trans := emitBk_trans ..
@[simp] theorem emit_resetting (e : Engine) (code subj status arg : Nat) (hs : Option Nat) (p : List LayField) : (e.emit code subj status arg hs p).resetting = e.resetting := emitBk_resetting ..
@[simp] theorem emit_pins (e : Engine) (code subj status arg : Nat) (hs : Option Nat) (p : List LayField) : (e.emit code subj status arg hs p).pins = e.pins := emitBk_pins ..
@[simp] theorem emit_flash (e : Engine) (code subj status arg : Nat) (hs : Option Nat) (p : List LayField) : (e.emit code subj status arg hs p).flash = e.flash := emitBk_flash ..
@[simp] theorem emit_link (e : Engine) (code subj status arg : Nat) (hs : Option Nat) (p : List LayField) : (e.emit code subj status arg hs p).link = e.link := emitBk_link ..
@[simp] theorem emit_cmdIn (e : Engine) (code subj status arg : Nat) (hs : Option Nat) (p : List LayField) : (e.emit code subj status arg hs p).cmdIn = e.cmdIn := emitBk_cmdIn ..
@[simp] theorem emit_rings (e : Engine) (code subj status arg : Nat) (hs : Option Nat) (p : List LayField) : (e.emit code subj status arg hs p).rings = e.rings := emitBk_rings ..
@[simp] theorem emit_status (e : Engine) (code subj status arg : Nat) (hs : Option Nat) (p : List LayField) : (e.emit code subj status arg hs p).status = e.status := emitBk_status ..
@[simp] theorem emit_streams (e : Engine) (code subj status arg : Nat) (hs : Option Nat) (p : List LayField) : (e.emit code subj status arg hs p).streams = e.streams := emitBk_streams ..
@[simp] theorem emit_dma (e : Engine) (code subj status arg : Nat) (hs : Option Nat) (p : List LayField) : (e.emit code subj status arg hs p).dma = e.dma := emitBk_dma ..
@[simp] theorem emit_tg (e : Engine) (code subj status arg : Nat) (hs : Option Nat) (p : List LayField) : (e.emit code subj status arg hs p).tg = e.tg := emitBk_tg ..
@[simp] theorem emit_mot (e : Engine) (code subj status arg : Nat) (hs : Option Nat) (p : List LayField) : (e.emit code subj status arg hs p).mot = e.mot := emitBk_mot ..
@[simp] theorem emit_pac (e : Engine) (code subj status arg : Nat) (hs : Option Nat) (p : List LayField) : (e.emit code subj status arg hs p).pac = e.pac := emitBk_pac ..
@[simp] theorem emit_feed (e : Engine) (code subj status arg : Nat) (hs : Option Nat) (p : List LayField) : (e.emit code subj status arg hs p).feed = e.feed := emitBk_feed ..
@[simp] theorem emit_squall (e : Engine) (code subj status arg : Nat) (hs : Option Nat) (p : List LayField) : (e.emit code subj status arg hs p).squall = e.squall := emitBk_squall ..
@[simp] theorem emit_job (e : Engine) (code subj status arg : Nat) (hs : Option Nat) (p : List LayField) : (e.emit code subj status arg hs p).job = e.job := emitBk_job ..
@[simp] theorem emit_frames (e : Engine) (code subj status arg : Nat) (hs : Option Nat) (p : List LayField) : (e.emit code subj status arg hs p).frames = e.frames := emitBk_frames ..
@[simp] theorem emit_gus (e : Engine) (code subj status arg : Nat) (hs : Option Nat) (p : List LayField) : (e.emit code subj status arg hs p).gus = e.gus := emitBk_gus ..
@[simp] theorem emit_qdr (e : Engine) (code subj status arg : Nat) (hs : Option Nat) (p : List LayField) : (e.emit code subj status arg hs p).qdr = e.qdr := emitBk_qdr ..
@[simp] theorem emit_afe (e : Engine) (code subj status arg : Nat) (hs : Option Nat) (p : List LayField) : (e.emit code subj status arg hs p).afe = e.afe := emitBk_afe ..
@[simp] theorem emit_chans (e : Engine) (code subj status arg : Nat) (hs : Option Nat) (p : List LayField) : (e.emit code subj status arg hs p).chans = e.chans := emitBk_chans ..
@[simp] theorem emit_shd (e : Engine) (code subj status arg : Nat) (hs : Option Nat) (p : List LayField) : (e.emit code subj status arg hs p).shd = e.shd := emitBk_shd ..
@[simp] theorem emit_eddy (e : Engine) (code subj status arg : Nat) (hs : Option Nat) (p : List LayField) : (e.emit code subj status arg hs p).eddy = e.eddy := emitBk_eddy ..
@[simp] theorem emit_cal (e : Engine) (code subj status arg : Nat) (hs : Option Nat) (p : List LayField) : (e.emit code subj status arg hs p).cal = e.cal := emitBk_cal ..
@[simp] theorem emit_geo (e : Engine) (code subj status arg : Nat) (hs : Option Nat) (p : List LayField) : (e.emit code subj status arg hs p).geo = e.geo := emitBk_geo ..
@[simp] theorem emit_mon (e : Engine) (code subj status arg : Nat) (hs : Option Nat) (p : List LayField) : (e.emit code subj status arg hs p).mon = e.mon := emitBk_mon ..
@[simp] theorem emit_met (e : Engine) (code subj status arg : Nat) (hs : Option Nat) (p : List LayField) : (e.emit code subj status arg hs p).met = e.met := emitBk_met ..
@[simp] theorem emit_mets (e : Engine) (code subj status arg : Nat) (hs : Option Nat) (p : List LayField) : (e.emit code subj status arg hs p).mets = e.mets := emitBk_mets ..

@[simp] theorem fault_mode (e : Engine) (c u d d2 : Nat) (p : List LayField) : (e.fault c u d d2 p).mode = e.mode := emitBk_mode ..
@[simp] theorem fault_now (e : Engine) (c u d d2 : Nat) (p : List LayField) : (e.fault c u d d2 p).now = e.now := emitBk_now ..
@[simp] theorem fault_jump (e : Engine) (c u d d2 : Nat) (p : List LayField) : (e.fault c u d d2 p).jump = e.jump := emitBk_jump ..
@[simp] theorem fault_free (e : Engine) (c u d d2 : Nat) (p : List LayField) : (e.fault c u d d2 p).free = e.free := emitBk_free ..
@[simp] theorem fault_rsp (e : Engine) (c u d d2 : Nat) (p : List LayField) : (e.fault c u d d2 p).rsp = e.rsp := emitBk_rsp ..
@[simp] theorem fault_trans (e : Engine) (c u d d2 : Nat) (p : List LayField) : (e.fault c u d d2 p).trans = e.trans := emitBk_trans ..
@[simp] theorem fault_resetting (e : Engine) (c u d d2 : Nat) (p : List LayField) : (e.fault c u d d2 p).resetting = e.resetting := emitBk_resetting ..
@[simp] theorem fault_pins (e : Engine) (c u d d2 : Nat) (p : List LayField) : (e.fault c u d d2 p).pins = e.pins := emitBk_pins ..
@[simp] theorem fault_flash (e : Engine) (c u d d2 : Nat) (p : List LayField) : (e.fault c u d d2 p).flash = e.flash := emitBk_flash ..
@[simp] theorem fault_link (e : Engine) (c u d d2 : Nat) (p : List LayField) : (e.fault c u d d2 p).link = e.link := emitBk_link ..
@[simp] theorem fault_cmdIn (e : Engine) (c u d d2 : Nat) (p : List LayField) : (e.fault c u d d2 p).cmdIn = e.cmdIn := emitBk_cmdIn ..
@[simp] theorem fault_rings (e : Engine) (c u d d2 : Nat) (p : List LayField) : (e.fault c u d d2 p).rings = e.rings := emitBk_rings ..
@[simp] theorem fault_status (e : Engine) (c u d d2 : Nat) (p : List LayField) : (e.fault c u d d2 p).status = e.status := emitBk_status ..
@[simp] theorem fault_streams (e : Engine) (c u d d2 : Nat) (p : List LayField) : (e.fault c u d d2 p).streams = e.streams := emitBk_streams ..
@[simp] theorem fault_dma (e : Engine) (c u d d2 : Nat) (p : List LayField) : (e.fault c u d d2 p).dma = e.dma := emitBk_dma ..
@[simp] theorem fault_tg (e : Engine) (c u d d2 : Nat) (p : List LayField) : (e.fault c u d d2 p).tg = e.tg := emitBk_tg ..
@[simp] theorem fault_mot (e : Engine) (c u d d2 : Nat) (p : List LayField) : (e.fault c u d d2 p).mot = e.mot := emitBk_mot ..
@[simp] theorem fault_pac (e : Engine) (c u d d2 : Nat) (p : List LayField) : (e.fault c u d d2 p).pac = e.pac := emitBk_pac ..
@[simp] theorem fault_feed (e : Engine) (c u d d2 : Nat) (p : List LayField) : (e.fault c u d d2 p).feed = e.feed := emitBk_feed ..
@[simp] theorem fault_squall (e : Engine) (c u d d2 : Nat) (p : List LayField) : (e.fault c u d d2 p).squall = e.squall := emitBk_squall ..
@[simp] theorem fault_job (e : Engine) (c u d d2 : Nat) (p : List LayField) : (e.fault c u d d2 p).job = e.job := emitBk_job ..
@[simp] theorem fault_frames (e : Engine) (c u d d2 : Nat) (p : List LayField) : (e.fault c u d d2 p).frames = e.frames := emitBk_frames ..
@[simp] theorem fault_gus (e : Engine) (c u d d2 : Nat) (p : List LayField) : (e.fault c u d d2 p).gus = e.gus := emitBk_gus ..
@[simp] theorem fault_qdr (e : Engine) (c u d d2 : Nat) (p : List LayField) : (e.fault c u d d2 p).qdr = e.qdr := emitBk_qdr ..
@[simp] theorem fault_afe (e : Engine) (c u d d2 : Nat) (p : List LayField) : (e.fault c u d d2 p).afe = e.afe := emitBk_afe ..
@[simp] theorem fault_chans (e : Engine) (c u d d2 : Nat) (p : List LayField) : (e.fault c u d d2 p).chans = e.chans := emitBk_chans ..
@[simp] theorem fault_shd (e : Engine) (c u d d2 : Nat) (p : List LayField) : (e.fault c u d d2 p).shd = e.shd := emitBk_shd ..
@[simp] theorem fault_eddy (e : Engine) (c u d d2 : Nat) (p : List LayField) : (e.fault c u d d2 p).eddy = e.eddy := emitBk_eddy ..
@[simp] theorem fault_cal (e : Engine) (c u d d2 : Nat) (p : List LayField) : (e.fault c u d d2 p).cal = e.cal := emitBk_cal ..
@[simp] theorem fault_geo (e : Engine) (c u d d2 : Nat) (p : List LayField) : (e.fault c u d d2 p).geo = e.geo := emitBk_geo ..
@[simp] theorem fault_mon (e : Engine) (c u d d2 : Nat) (p : List LayField) : (e.fault c u d d2 p).mon = e.mon := emitBk_mon ..
@[simp] theorem fault_met (e : Engine) (c u d d2 : Nat) (p : List LayField) : (e.fault c u d d2 p).met = e.met := emitBk_met ..
@[simp] theorem fault_mets (e : Engine) (c u d d2 : Nat) (p : List LayField) : (e.fault c u d d2 p).mets = e.mets := emitBk_mets ..

@[simp] theorem cmdDone_mode (e : Engine) (h tag code st : Nat) (r : List LayField) : (e.cmdDone h tag code st r).mode = e.mode := emitBk_mode ..
@[simp] theorem cmdDone_now (e : Engine) (h tag code st : Nat) (r : List LayField) : (e.cmdDone h tag code st r).now = e.now := emitBk_now ..
@[simp] theorem cmdDone_jump (e : Engine) (h tag code st : Nat) (r : List LayField) : (e.cmdDone h tag code st r).jump = e.jump := emitBk_jump ..
@[simp] theorem cmdDone_free (e : Engine) (h tag code st : Nat) (r : List LayField) : (e.cmdDone h tag code st r).free = e.free := emitBk_free ..
@[simp] theorem cmdDone_rsp (e : Engine) (h tag code st : Nat) (r : List LayField) : (e.cmdDone h tag code st r).rsp = e.rsp := emitBk_rsp ..
@[simp] theorem cmdDone_trans (e : Engine) (h tag code st : Nat) (r : List LayField) : (e.cmdDone h tag code st r).trans = e.trans := emitBk_trans ..
@[simp] theorem cmdDone_resetting (e : Engine) (h tag code st : Nat) (r : List LayField) : (e.cmdDone h tag code st r).resetting = e.resetting := emitBk_resetting ..
@[simp] theorem cmdDone_pins (e : Engine) (h tag code st : Nat) (r : List LayField) : (e.cmdDone h tag code st r).pins = e.pins := emitBk_pins ..
@[simp] theorem cmdDone_flash (e : Engine) (h tag code st : Nat) (r : List LayField) : (e.cmdDone h tag code st r).flash = e.flash := emitBk_flash ..
@[simp] theorem cmdDone_link (e : Engine) (h tag code st : Nat) (r : List LayField) : (e.cmdDone h tag code st r).link = e.link := emitBk_link ..
@[simp] theorem cmdDone_cmdIn (e : Engine) (h tag code st : Nat) (r : List LayField) : (e.cmdDone h tag code st r).cmdIn = e.cmdIn := emitBk_cmdIn ..
@[simp] theorem cmdDone_rings (e : Engine) (h tag code st : Nat) (r : List LayField) : (e.cmdDone h tag code st r).rings = e.rings := emitBk_rings ..
@[simp] theorem cmdDone_status (e : Engine) (h tag code st : Nat) (r : List LayField) : (e.cmdDone h tag code st r).status = e.status := emitBk_status ..
@[simp] theorem cmdDone_streams (e : Engine) (h tag code st : Nat) (r : List LayField) : (e.cmdDone h tag code st r).streams = e.streams := emitBk_streams ..
@[simp] theorem cmdDone_dma (e : Engine) (h tag code st : Nat) (r : List LayField) : (e.cmdDone h tag code st r).dma = e.dma := emitBk_dma ..
@[simp] theorem cmdDone_tg (e : Engine) (h tag code st : Nat) (r : List LayField) : (e.cmdDone h tag code st r).tg = e.tg := emitBk_tg ..
@[simp] theorem cmdDone_mot (e : Engine) (h tag code st : Nat) (r : List LayField) : (e.cmdDone h tag code st r).mot = e.mot := emitBk_mot ..
@[simp] theorem cmdDone_pac (e : Engine) (h tag code st : Nat) (r : List LayField) : (e.cmdDone h tag code st r).pac = e.pac := emitBk_pac ..
@[simp] theorem cmdDone_feed (e : Engine) (h tag code st : Nat) (r : List LayField) : (e.cmdDone h tag code st r).feed = e.feed := emitBk_feed ..
@[simp] theorem cmdDone_squall (e : Engine) (h tag code st : Nat) (r : List LayField) : (e.cmdDone h tag code st r).squall = e.squall := emitBk_squall ..
@[simp] theorem cmdDone_job (e : Engine) (h tag code st : Nat) (r : List LayField) : (e.cmdDone h tag code st r).job = e.job := emitBk_job ..
@[simp] theorem cmdDone_frames (e : Engine) (h tag code st : Nat) (r : List LayField) : (e.cmdDone h tag code st r).frames = e.frames := emitBk_frames ..
@[simp] theorem cmdDone_gus (e : Engine) (h tag code st : Nat) (r : List LayField) : (e.cmdDone h tag code st r).gus = e.gus := emitBk_gus ..
@[simp] theorem cmdDone_qdr (e : Engine) (h tag code st : Nat) (r : List LayField) : (e.cmdDone h tag code st r).qdr = e.qdr := emitBk_qdr ..
@[simp] theorem cmdDone_afe (e : Engine) (h tag code st : Nat) (r : List LayField) : (e.cmdDone h tag code st r).afe = e.afe := emitBk_afe ..
@[simp] theorem cmdDone_chans (e : Engine) (h tag code st : Nat) (r : List LayField) : (e.cmdDone h tag code st r).chans = e.chans := emitBk_chans ..
@[simp] theorem cmdDone_shd (e : Engine) (h tag code st : Nat) (r : List LayField) : (e.cmdDone h tag code st r).shd = e.shd := emitBk_shd ..
@[simp] theorem cmdDone_eddy (e : Engine) (h tag code st : Nat) (r : List LayField) : (e.cmdDone h tag code st r).eddy = e.eddy := emitBk_eddy ..
@[simp] theorem cmdDone_cal (e : Engine) (h tag code st : Nat) (r : List LayField) : (e.cmdDone h tag code st r).cal = e.cal := emitBk_cal ..
@[simp] theorem cmdDone_geo (e : Engine) (h tag code st : Nat) (r : List LayField) : (e.cmdDone h tag code st r).geo = e.geo := emitBk_geo ..
@[simp] theorem cmdDone_mon (e : Engine) (h tag code st : Nat) (r : List LayField) : (e.cmdDone h tag code st r).mon = e.mon := emitBk_mon ..
@[simp] theorem cmdDone_met (e : Engine) (h tag code st : Nat) (r : List LayField) : (e.cmdDone h tag code st r).met = e.met := emitBk_met ..
@[simp] theorem cmdDone_mets (e : Engine) (h tag code st : Nat) (r : List LayField) : (e.cmdDone h tag code st r).mets = e.mets := emitBk_mets ..

@[simp] theorem complete_mode (e : Engine) (h : CmdHdr) (code st : Nat) (r : List LayField) : (e.complete h code st r).mode = e.mode := by
  unfold complete; simp
@[simp] theorem complete_now (e : Engine) (h : CmdHdr) (code st : Nat) (r : List LayField) : (e.complete h code st r).now = e.now := by
  unfold complete; simp
@[simp] theorem complete_jump (e : Engine) (h : CmdHdr) (code st : Nat) (r : List LayField) : (e.complete h code st r).jump = e.jump := by
  unfold complete; simp
@[simp] theorem complete_free (e : Engine) (h : CmdHdr) (code st : Nat) (r : List LayField) : (e.complete h code st r).free = e.free := by
  unfold complete; simp
@[simp] theorem complete_rsp (e : Engine) (h : CmdHdr) (code st : Nat) (r : List LayField) : (e.complete h code st r).rsp = e.rsp := by
  unfold complete; simp
@[simp] theorem complete_trans (e : Engine) (h : CmdHdr) (code st : Nat) (r : List LayField) : (e.complete h code st r).trans = e.trans := by
  unfold complete; simp
@[simp] theorem complete_resetting (e : Engine) (h : CmdHdr) (code st : Nat) (r : List LayField) : (e.complete h code st r).resetting = e.resetting := by
  unfold complete; simp
@[simp] theorem complete_pins (e : Engine) (h : CmdHdr) (code st : Nat) (r : List LayField) : (e.complete h code st r).pins = e.pins := by
  unfold complete; simp
@[simp] theorem complete_flash (e : Engine) (h : CmdHdr) (code st : Nat) (r : List LayField) : (e.complete h code st r).flash = e.flash := by
  unfold complete; simp
@[simp] theorem complete_link (e : Engine) (h : CmdHdr) (code st : Nat) (r : List LayField) : (e.complete h code st r).link = e.link := by
  unfold complete; simp
@[simp] theorem complete_cmdIn (e : Engine) (h : CmdHdr) (code st : Nat) (r : List LayField) : (e.complete h code st r).cmdIn = e.cmdIn := by
  unfold complete; simp
@[simp] theorem complete_rings (e : Engine) (h : CmdHdr) (code st : Nat) (r : List LayField) : (e.complete h code st r).rings = e.rings := by
  unfold complete; simp
@[simp] theorem complete_status (e : Engine) (h : CmdHdr) (code st : Nat) (r : List LayField) : (e.complete h code st r).status = e.status := by
  unfold complete; simp
@[simp] theorem complete_streams (e : Engine) (h : CmdHdr) (code st : Nat) (r : List LayField) : (e.complete h code st r).streams = e.streams := by
  unfold complete; simp
@[simp] theorem complete_dma (e : Engine) (h : CmdHdr) (code st : Nat) (r : List LayField) : (e.complete h code st r).dma = e.dma := by
  unfold complete; simp
@[simp] theorem complete_tg (e : Engine) (h : CmdHdr) (code st : Nat) (r : List LayField) : (e.complete h code st r).tg = e.tg := by
  unfold complete; simp
@[simp] theorem complete_mot (e : Engine) (h : CmdHdr) (code st : Nat) (r : List LayField) : (e.complete h code st r).mot = e.mot := by
  unfold complete; simp
@[simp] theorem complete_pac (e : Engine) (h : CmdHdr) (code st : Nat) (r : List LayField) : (e.complete h code st r).pac = e.pac := by
  unfold complete; simp
@[simp] theorem complete_feed (e : Engine) (h : CmdHdr) (code st : Nat) (r : List LayField) : (e.complete h code st r).feed = e.feed := by
  unfold complete; simp
@[simp] theorem complete_squall (e : Engine) (h : CmdHdr) (code st : Nat) (r : List LayField) : (e.complete h code st r).squall = e.squall := by
  unfold complete; simp
@[simp] theorem complete_job (e : Engine) (h : CmdHdr) (code st : Nat) (r : List LayField) : (e.complete h code st r).job = e.job := by
  unfold complete; simp
@[simp] theorem complete_frames (e : Engine) (h : CmdHdr) (code st : Nat) (r : List LayField) : (e.complete h code st r).frames = e.frames := by
  unfold complete; simp
@[simp] theorem complete_gus (e : Engine) (h : CmdHdr) (code st : Nat) (r : List LayField) : (e.complete h code st r).gus = e.gus := by
  unfold complete; simp
@[simp] theorem complete_qdr (e : Engine) (h : CmdHdr) (code st : Nat) (r : List LayField) : (e.complete h code st r).qdr = e.qdr := by
  unfold complete; simp
@[simp] theorem complete_afe (e : Engine) (h : CmdHdr) (code st : Nat) (r : List LayField) : (e.complete h code st r).afe = e.afe := by
  unfold complete; simp
@[simp] theorem complete_chans (e : Engine) (h : CmdHdr) (code st : Nat) (r : List LayField) : (e.complete h code st r).chans = e.chans := by
  unfold complete; simp
@[simp] theorem complete_shd (e : Engine) (h : CmdHdr) (code st : Nat) (r : List LayField) : (e.complete h code st r).shd = e.shd := by
  unfold complete; simp
@[simp] theorem complete_eddy (e : Engine) (h : CmdHdr) (code st : Nat) (r : List LayField) : (e.complete h code st r).eddy = e.eddy := by
  unfold complete; simp
@[simp] theorem complete_cal (e : Engine) (h : CmdHdr) (code st : Nat) (r : List LayField) : (e.complete h code st r).cal = e.cal := by
  unfold complete; simp
@[simp] theorem complete_geo (e : Engine) (h : CmdHdr) (code st : Nat) (r : List LayField) : (e.complete h code st r).geo = e.geo := by
  unfold complete; simp
@[simp] theorem complete_mon (e : Engine) (h : CmdHdr) (code st : Nat) (r : List LayField) : (e.complete h code st r).mon = e.mon := by
  unfold complete; simp
@[simp] theorem complete_met (e : Engine) (h : CmdHdr) (code st : Nat) (r : List LayField) : (e.complete h code st r).met = e.met := by
  unfold complete; simp
@[simp] theorem complete_mets (e : Engine) (h : CmdHdr) (code st : Nat) (r : List LayField) : (e.complete h code st r).mets = e.mets := by
  unfold complete; simp

@[simp] theorem finish_mode (e : Engine) (c : OpenCmd) (st : Nat) (r : List LayField) : (e.finish c st r).mode = e.mode := by
  unfold finish; simp
@[simp] theorem finish_now (e : Engine) (c : OpenCmd) (st : Nat) (r : List LayField) : (e.finish c st r).now = e.now := by
  unfold finish; simp
@[simp] theorem finish_jump (e : Engine) (c : OpenCmd) (st : Nat) (r : List LayField) : (e.finish c st r).jump = e.jump := by
  unfold finish; simp
@[simp] theorem finish_free (e : Engine) (c : OpenCmd) (st : Nat) (r : List LayField) : (e.finish c st r).free = e.free := by
  unfold finish; simp
@[simp] theorem finish_rsp (e : Engine) (c : OpenCmd) (st : Nat) (r : List LayField) : (e.finish c st r).rsp = e.rsp := by
  unfold finish; simp
@[simp] theorem finish_trans (e : Engine) (c : OpenCmd) (st : Nat) (r : List LayField) : (e.finish c st r).trans = e.trans := by
  unfold finish; simp
@[simp] theorem finish_resetting (e : Engine) (c : OpenCmd) (st : Nat) (r : List LayField) : (e.finish c st r).resetting = e.resetting := by
  unfold finish; simp
@[simp] theorem finish_pins (e : Engine) (c : OpenCmd) (st : Nat) (r : List LayField) : (e.finish c st r).pins = e.pins := by
  unfold finish; simp
@[simp] theorem finish_flash (e : Engine) (c : OpenCmd) (st : Nat) (r : List LayField) : (e.finish c st r).flash = e.flash := by
  unfold finish; simp
@[simp] theorem finish_link (e : Engine) (c : OpenCmd) (st : Nat) (r : List LayField) : (e.finish c st r).link = e.link := by
  unfold finish; simp
@[simp] theorem finish_cmdIn (e : Engine) (c : OpenCmd) (st : Nat) (r : List LayField) : (e.finish c st r).cmdIn = e.cmdIn := by
  unfold finish; simp
@[simp] theorem finish_rings (e : Engine) (c : OpenCmd) (st : Nat) (r : List LayField) : (e.finish c st r).rings = e.rings := by
  unfold finish; simp
@[simp] theorem finish_status (e : Engine) (c : OpenCmd) (st : Nat) (r : List LayField) : (e.finish c st r).status = e.status := by
  unfold finish; simp
@[simp] theorem finish_streams (e : Engine) (c : OpenCmd) (st : Nat) (r : List LayField) : (e.finish c st r).streams = e.streams := by
  unfold finish; simp
@[simp] theorem finish_dma (e : Engine) (c : OpenCmd) (st : Nat) (r : List LayField) : (e.finish c st r).dma = e.dma := by
  unfold finish; simp
@[simp] theorem finish_tg (e : Engine) (c : OpenCmd) (st : Nat) (r : List LayField) : (e.finish c st r).tg = e.tg := by
  unfold finish; simp
@[simp] theorem finish_mot (e : Engine) (c : OpenCmd) (st : Nat) (r : List LayField) : (e.finish c st r).mot = e.mot := by
  unfold finish; simp
@[simp] theorem finish_pac (e : Engine) (c : OpenCmd) (st : Nat) (r : List LayField) : (e.finish c st r).pac = e.pac := by
  unfold finish; simp
@[simp] theorem finish_feed (e : Engine) (c : OpenCmd) (st : Nat) (r : List LayField) : (e.finish c st r).feed = e.feed := by
  unfold finish; simp
@[simp] theorem finish_squall (e : Engine) (c : OpenCmd) (st : Nat) (r : List LayField) : (e.finish c st r).squall = e.squall := by
  unfold finish; simp
@[simp] theorem finish_job (e : Engine) (c : OpenCmd) (st : Nat) (r : List LayField) : (e.finish c st r).job = e.job := by
  unfold finish; simp
@[simp] theorem finish_frames (e : Engine) (c : OpenCmd) (st : Nat) (r : List LayField) : (e.finish c st r).frames = e.frames := by
  unfold finish; simp
@[simp] theorem finish_gus (e : Engine) (c : OpenCmd) (st : Nat) (r : List LayField) : (e.finish c st r).gus = e.gus := by
  unfold finish; simp
@[simp] theorem finish_qdr (e : Engine) (c : OpenCmd) (st : Nat) (r : List LayField) : (e.finish c st r).qdr = e.qdr := by
  unfold finish; simp
@[simp] theorem finish_afe (e : Engine) (c : OpenCmd) (st : Nat) (r : List LayField) : (e.finish c st r).afe = e.afe := by
  unfold finish; simp
@[simp] theorem finish_chans (e : Engine) (c : OpenCmd) (st : Nat) (r : List LayField) : (e.finish c st r).chans = e.chans := by
  unfold finish; simp
@[simp] theorem finish_shd (e : Engine) (c : OpenCmd) (st : Nat) (r : List LayField) : (e.finish c st r).shd = e.shd := by
  unfold finish; simp
@[simp] theorem finish_eddy (e : Engine) (c : OpenCmd) (st : Nat) (r : List LayField) : (e.finish c st r).eddy = e.eddy := by
  unfold finish; simp
@[simp] theorem finish_cal (e : Engine) (c : OpenCmd) (st : Nat) (r : List LayField) : (e.finish c st r).cal = e.cal := by
  unfold finish; simp
@[simp] theorem finish_geo (e : Engine) (c : OpenCmd) (st : Nat) (r : List LayField) : (e.finish c st r).geo = e.geo := by
  unfold finish; simp
@[simp] theorem finish_mon (e : Engine) (c : OpenCmd) (st : Nat) (r : List LayField) : (e.finish c st r).mon = e.mon := by
  unfold finish; simp
@[simp] theorem finish_met (e : Engine) (c : OpenCmd) (st : Nat) (r : List LayField) : (e.finish c st r).met = e.met := by
  unfold finish; simp
@[simp] theorem finish_mets (e : Engine) (c : OpenCmd) (st : Nat) (r : List LayField) : (e.finish c st r).mets = e.mets := by
  unfold finish; simp

/-- A fold of steps that each leave something alone leaves it alone. -/
theorem foldl_keep {α β : Type} (p : Engine → β) (f : Engine → α → Engine) (hf : ∀ (x : Engine) (a : α), p (f x a) = p x) (l : List α) (e : Engine) :
    p (l.foldl f e) = p e := by
  induction l generalizing e with
  | nil => rfl
  | cons a t ih => rw [List.foldl_cons, ih, hf]

@[simp] theorem finishAll_mode (e : Engine) (q : Wait → Bool) (st : Nat) (r : List LayField) : (e.finishAll q st r).mode = e.mode :=
  foldl_keep (fun x => x.mode) _ (fun _ _ => finish_mode ..) _ _
@[simp] theorem finishAll_now (e : Engine) (q : Wait → Bool) (st : Nat) (r : List LayField) : (e.finishAll q st r).now = e.now :=
  foldl_keep (fun x => x.now) _ (fun _ _ => finish_now ..) _ _
@[simp] theorem finishAll_jump (e : Engine) (q : Wait → Bool) (st : Nat) (r : List LayField) : (e.finishAll q st r).jump = e.jump :=
  foldl_keep (fun x => x.jump) _ (fun _ _ => finish_jump ..) _ _
@[simp] theorem finishAll_free (e : Engine) (q : Wait → Bool) (st : Nat) (r : List LayField) : (e.finishAll q st r).free = e.free :=
  foldl_keep (fun x => x.free) _ (fun _ _ => finish_free ..) _ _
@[simp] theorem finishAll_rsp (e : Engine) (q : Wait → Bool) (st : Nat) (r : List LayField) : (e.finishAll q st r).rsp = e.rsp :=
  foldl_keep (fun x => x.rsp) _ (fun _ _ => finish_rsp ..) _ _
@[simp] theorem finishAll_trans (e : Engine) (q : Wait → Bool) (st : Nat) (r : List LayField) : (e.finishAll q st r).trans = e.trans :=
  foldl_keep (fun x => x.trans) _ (fun _ _ => finish_trans ..) _ _
@[simp] theorem finishAll_resetting (e : Engine) (q : Wait → Bool) (st : Nat) (r : List LayField) : (e.finishAll q st r).resetting = e.resetting :=
  foldl_keep (fun x => x.resetting) _ (fun _ _ => finish_resetting ..) _ _
@[simp] theorem finishAll_pins (e : Engine) (q : Wait → Bool) (st : Nat) (r : List LayField) : (e.finishAll q st r).pins = e.pins :=
  foldl_keep (fun x => x.pins) _ (fun _ _ => finish_pins ..) _ _
@[simp] theorem finishAll_flash (e : Engine) (q : Wait → Bool) (st : Nat) (r : List LayField) : (e.finishAll q st r).flash = e.flash :=
  foldl_keep (fun x => x.flash) _ (fun _ _ => finish_flash ..) _ _
@[simp] theorem finishAll_link (e : Engine) (q : Wait → Bool) (st : Nat) (r : List LayField) : (e.finishAll q st r).link = e.link :=
  foldl_keep (fun x => x.link) _ (fun _ _ => finish_link ..) _ _
@[simp] theorem finishAll_cmdIn (e : Engine) (q : Wait → Bool) (st : Nat) (r : List LayField) : (e.finishAll q st r).cmdIn = e.cmdIn :=
  foldl_keep (fun x => x.cmdIn) _ (fun _ _ => finish_cmdIn ..) _ _
@[simp] theorem finishAll_rings (e : Engine) (q : Wait → Bool) (st : Nat) (r : List LayField) : (e.finishAll q st r).rings = e.rings :=
  foldl_keep (fun x => x.rings) _ (fun _ _ => finish_rings ..) _ _
@[simp] theorem finishAll_status (e : Engine) (q : Wait → Bool) (st : Nat) (r : List LayField) : (e.finishAll q st r).status = e.status :=
  foldl_keep (fun x => x.status) _ (fun _ _ => finish_status ..) _ _
@[simp] theorem finishAll_streams (e : Engine) (q : Wait → Bool) (st : Nat) (r : List LayField) : (e.finishAll q st r).streams = e.streams :=
  foldl_keep (fun x => x.streams) _ (fun _ _ => finish_streams ..) _ _
@[simp] theorem finishAll_dma (e : Engine) (q : Wait → Bool) (st : Nat) (r : List LayField) : (e.finishAll q st r).dma = e.dma :=
  foldl_keep (fun x => x.dma) _ (fun _ _ => finish_dma ..) _ _
@[simp] theorem finishAll_tg (e : Engine) (q : Wait → Bool) (st : Nat) (r : List LayField) : (e.finishAll q st r).tg = e.tg :=
  foldl_keep (fun x => x.tg) _ (fun _ _ => finish_tg ..) _ _
@[simp] theorem finishAll_mot (e : Engine) (q : Wait → Bool) (st : Nat) (r : List LayField) : (e.finishAll q st r).mot = e.mot :=
  foldl_keep (fun x => x.mot) _ (fun _ _ => finish_mot ..) _ _
@[simp] theorem finishAll_pac (e : Engine) (q : Wait → Bool) (st : Nat) (r : List LayField) : (e.finishAll q st r).pac = e.pac :=
  foldl_keep (fun x => x.pac) _ (fun _ _ => finish_pac ..) _ _
@[simp] theorem finishAll_feed (e : Engine) (q : Wait → Bool) (st : Nat) (r : List LayField) : (e.finishAll q st r).feed = e.feed :=
  foldl_keep (fun x => x.feed) _ (fun _ _ => finish_feed ..) _ _
@[simp] theorem finishAll_squall (e : Engine) (q : Wait → Bool) (st : Nat) (r : List LayField) : (e.finishAll q st r).squall = e.squall :=
  foldl_keep (fun x => x.squall) _ (fun _ _ => finish_squall ..) _ _
@[simp] theorem finishAll_job (e : Engine) (q : Wait → Bool) (st : Nat) (r : List LayField) : (e.finishAll q st r).job = e.job :=
  foldl_keep (fun x => x.job) _ (fun _ _ => finish_job ..) _ _
@[simp] theorem finishAll_frames (e : Engine) (q : Wait → Bool) (st : Nat) (r : List LayField) : (e.finishAll q st r).frames = e.frames :=
  foldl_keep (fun x => x.frames) _ (fun _ _ => finish_frames ..) _ _
@[simp] theorem finishAll_gus (e : Engine) (q : Wait → Bool) (st : Nat) (r : List LayField) : (e.finishAll q st r).gus = e.gus :=
  foldl_keep (fun x => x.gus) _ (fun _ _ => finish_gus ..) _ _
@[simp] theorem finishAll_qdr (e : Engine) (q : Wait → Bool) (st : Nat) (r : List LayField) : (e.finishAll q st r).qdr = e.qdr :=
  foldl_keep (fun x => x.qdr) _ (fun _ _ => finish_qdr ..) _ _
@[simp] theorem finishAll_afe (e : Engine) (q : Wait → Bool) (st : Nat) (r : List LayField) : (e.finishAll q st r).afe = e.afe :=
  foldl_keep (fun x => x.afe) _ (fun _ _ => finish_afe ..) _ _
@[simp] theorem finishAll_chans (e : Engine) (q : Wait → Bool) (st : Nat) (r : List LayField) : (e.finishAll q st r).chans = e.chans :=
  foldl_keep (fun x => x.chans) _ (fun _ _ => finish_chans ..) _ _
@[simp] theorem finishAll_shd (e : Engine) (q : Wait → Bool) (st : Nat) (r : List LayField) : (e.finishAll q st r).shd = e.shd :=
  foldl_keep (fun x => x.shd) _ (fun _ _ => finish_shd ..) _ _
@[simp] theorem finishAll_eddy (e : Engine) (q : Wait → Bool) (st : Nat) (r : List LayField) : (e.finishAll q st r).eddy = e.eddy :=
  foldl_keep (fun x => x.eddy) _ (fun _ _ => finish_eddy ..) _ _
@[simp] theorem finishAll_cal (e : Engine) (q : Wait → Bool) (st : Nat) (r : List LayField) : (e.finishAll q st r).cal = e.cal :=
  foldl_keep (fun x => x.cal) _ (fun _ _ => finish_cal ..) _ _
@[simp] theorem finishAll_geo (e : Engine) (q : Wait → Bool) (st : Nat) (r : List LayField) : (e.finishAll q st r).geo = e.geo :=
  foldl_keep (fun x => x.geo) _ (fun _ _ => finish_geo ..) _ _
@[simp] theorem finishAll_mon (e : Engine) (q : Wait → Bool) (st : Nat) (r : List LayField) : (e.finishAll q st r).mon = e.mon :=
  foldl_keep (fun x => x.mon) _ (fun _ _ => finish_mon ..) _ _
@[simp] theorem finishAll_met (e : Engine) (q : Wait → Bool) (st : Nat) (r : List LayField) : (e.finishAll q st r).met = e.met :=
  foldl_keep (fun x => x.met) _ (fun _ _ => finish_met ..) _ _
@[simp] theorem finishAll_mets (e : Engine) (q : Wait → Bool) (st : Nat) (r : List LayField) : (e.finishAll q st r).mets = e.mets :=
  foldl_keep (fun x => x.mets) _ (fun _ _ => finish_mets ..) _ _

/-! ### EVT with room -/

/-- With room, a commit puts the event at the end of EVT and gives it the next DSEQ. -/
theorem commitEv_evt (e : Engine) (h : e.evt.queue.length < 256) (code subj status arg : Nat) (hs : Option Nat) (p : List LayField) (bk : Booking) :
    (e.commitEv code subj status arg hs p bk).evt = { e.evt with
      queue := e.evt.queue ++ [⟨code, subj, status, hs, (e.evt.dseq + 1) % 2 ^ 32, e.now, arg, (layBytes 64 p).drop 24, bk, e.mirrorFirst⟩]
      dseq := (e.evt.dseq + 1) % 2 ^ 32 } := by
  unfold commitEv; simp [h]

/-- With room, a commit completes no open command. -/
theorem commitEv_opens (e : Engine) (h : e.evt.queue.length < 256) (code subj status arg : Nat) (hs : Option Nat) (p : List LayField) (bk : Booking) :
    (e.commitEv code subj status arg hs p bk).opens = e.opens := by
  unfold commitEv; simp [h]

theorem commitEv_len (e : Engine) (h : e.evt.queue.length < 256) (code subj status arg : Nat) (hs : Option Nat) (p : List LayField) (bk : Booking) :
    (e.commitEv code subj status arg hs p bk).evt.queue.length = e.evt.queue.length + 1 := by
  rw [commitEv_evt e h]; simp

/-- Registers that EVT's level leaves alone. -/
theorem level_word (e : Engine) (q n off : Nat) (h : off ≠ (R.QUE_LEVEL.LEVEL q).off) : (e.level q n).word off = e.word off := by
  unfold level; dsimp only
  split
  · rw [word_wr_ne _ _ (show off ≠ (R.QUE_LEVEL.HWM q).off from h), word_wr_ne _ _ h]
  · rw [word_wr_ne _ _ h]

/-- With room, a commit changes no register but the level of EVT. -/
theorem commitEv_word (e : Engine) (h : e.evt.queue.length < 256) (code subj status arg : Nat) (hs : Option Nat) (p : List LayField) (bk : Booking) (off : Nat)
    (ho : off ≠ (R.QUE_LEVEL.LEVEL 64).off) : (e.commitEv code subj status arg hs p bk).word off = e.word off := by
  unfold commitEv; dsimp only
  rw [level_word _ _ _ _ ho, if_pos h]; rfl

/-- The event is the last of EVT, whatever was lost before it. -/
theorem commitEv_last (e : Engine) (code subj status arg : Nat) (hs : Option Nat) (p : List LayField) (bk : Booking) :
    ∃ v : Ev, (e.commitEv code subj status arg hs p bk).evt.queue.getLast? = some v ∧ v.code = code ∧ v.subj = subj ∧ v.status = status ∧ v.hseq = hs
      ∧ v.arg = arg ∧ v.payload = (layBytes 64 p).drop 24 ∧ v.book = bk ∧ v.time = e.now ∧ v.dseq = (e.evt.dseq + 1) % 2 ^ 32 := by
  unfold commitEv; dsimp only
  rw [level_evt]
  exact ⟨⟨code, subj, status, hs, (e.evt.dseq + 1) % 2 ^ 32, e.now, arg, (layBytes 64 p).drop 24, bk, e.mirrorFirst⟩, by simp, rfl, rfl, rfl, rfl, rfl, rfl, rfl, rfl, rfl⟩

/-- Outside a reset an event is committed, after the notice of a loss where one waits and finds room. -/
theorem emitBk_cases (e : Engine) (hr : e.resetting = none) (hp : e.pins.failed = false) (code subj status arg : Nat) (hs : Option Nat) (p : List LayField) (bk : Booking) :
    ∃ x : Engine, e.emitBk code subj status arg hs p bk = x.commitEv code subj status arg hs p bk ∧
      (x = e ∨ ∃ n f l, e.evt.lost = some (n, f, l) ∧ e.evt.queue.length ≤ 254 ∧
        x = ({ e with evt := { e.evt with lost := none } } : Engine).commitEv 0x0E 64 0 0 none [(24, 4, n), (28, 4, f), (32, 4, l)] .none) := by
  unfold emitBk
  rw [hr, hp]
  cases hl : e.evt.lost with
  | none => exact ⟨e, rfl, .inl rfl⟩
  | some q =>
    obtain ⟨n, f, l⟩ := q
    by_cases hq : e.evt.queue.length ≤ 254
    · exact ⟨_, rfl, .inr ⟨n, f, l, rfl, hq, by simp [hq]⟩⟩
    · exact ⟨_, rfl, .inl (by simp [hq])⟩

/-- What two commits leave of a property that one leaves alone in a queue with room. -/
theorem emitBk_keep {β : Type} (q : Engine → β) (hq : ∀ (x : Engine), x.evt.queue.length < 256 → ∀ code subj status arg hs p bk,
      q (x.commitEv code subj status arg hs p bk) = q x)
    (hl : ∀ x : Engine, q { x with evt := { x.evt with lost := none } } = q x) (e : Engine) (h : e.evt.queue.length < 256) (code subj status arg : Nat) (hs : Option Nat) (p : List LayField) (bk : Booking) :
    q (e.emitBk code subj status arg hs p bk) = q e := by
  by_cases hr : e.resetting = none ∧ e.pins.failed = false
  · obtain ⟨x, hx, rfl | ⟨n, f, l, -, h254, rfl⟩⟩ := emitBk_cases e hr.1 hr.2 code subj status arg hs p bk
    · rw [hx, hq _ h]
    · rw [hx, hq, hq, hl]
      · exact h
      · rw [commitEv_len]
        · show e.evt.queue.length + 1 < 256; omega
        · exact h
  · unfold emitBk
    rw [if_pos (by revert hr; cases e.resetting <;> cases e.pins.failed <;> simp)]

/-- Outside a reset the event is the last of EVT. -/
theorem emitBk_last (e : Engine) (hr : e.resetting = none) (hp : e.pins.failed = false) (code subj status arg : Nat) (hs : Option Nat) (p : List LayField) (bk : Booking) :
    ∃ v : Ev, (e.emitBk code subj status arg hs p bk).evt.queue.getLast? = some v ∧ v.code = code ∧ v.subj = subj ∧ v.status = status ∧ v.hseq = hs
      ∧ v.arg = arg ∧ v.payload = (layBytes 64 p).drop 24 ∧ v.book = bk := by
  obtain ⟨x, hx, -⟩ := emitBk_cases e hr hp code subj status arg hs p bk
  obtain ⟨v, h⟩ := commitEv_last x code subj status arg hs p bk
  rw [hx]
  exact ⟨v, h.1, h.2.1, h.2.2.1, h.2.2.2.1, h.2.2.2.2.1, h.2.2.2.2.2.1, h.2.2.2.2.2.2.1, h.2.2.2.2.2.2.2.1⟩

theorem emit_told (e : Engine) (hr : e.resetting = none) (hf : e.pins.failed = false) (code subj status arg : Nat) (hs : Option Nat) (p : List LayField) :
    (e.emit code subj status arg hs p).told code subj status hs arg := by
  obtain ⟨v, h0, h1, h2, h3, h4, h5, -⟩ := emitBk_last e hr hf code subj status arg hs p .none
  unfold emit told Ev.brief
  rw [h0]; subst h1 h2 h3 h4 h5; rfl

theorem cmdDone_answered (e : Engine) (hr : e.resetting = none) (hf : e.pins.failed = false) (h tag code st : Nat) (r : List LayField) :
    (e.cmdDone h tag code st r).answered h code st := by
  obtain ⟨v, h0, h1, -, h3, h4, -, -, h7⟩ := emitBk_last e hr hf 0x01 0 st 0 (some h) ([(24, 8, tag), (32, 1, code)] ++ r) (.cmd h st code)
  unfold cmdDone answered
  rw [h0]; simp [h1, h3, h4, h7]

/-- A command that completes as it is consumed is answered. -/
theorem complete_answered (e : Engine) (hr : e.resetting = none) (hf : e.pins.failed = false) (h : CmdHdr) (code st : Nat) (r : List LayField) :
    (e.complete h code st r).answered h.hseq.toNat code st :=
  cmdDone_answered (e.openCmd h code .built) (by simpa using hr) (by simpa using hf) _ _ _ _ _

/-- A finished command is answered. -/
theorem finish_answered (e : Engine) (hr : e.resetting = none) (hf : e.pins.failed = false) (c : OpenCmd) (st : Nat) (r : List LayField) :
    (e.finish c st r).answered c.hseq c.code st := by
  unfold finish
  dsimp only
  apply cmdDone_answered
  · exact hr
  · exact hf

/-- With room, an event changes no register but the level of EVT. -/
theorem emitBk_word (e : Engine) (h : e.evt.queue.length < 256) (code subj status arg : Nat) (hs : Option Nat) (p : List LayField) (bk : Booking) (off : Nat)
    (ho : off ≠ (R.QUE_LEVEL.LEVEL 64).off) : (e.emitBk code subj status arg hs p bk).word off = e.word off :=
  emitBk_keep (fun x => x.word off) (fun x hx _ _ _ _ _ _ _ => commitEv_word x hx _ _ _ _ _ _ _ off ho) (fun _ => rfl) e h _ _ _ _ _ _ _

/-- With room, an event completes no open command. -/
theorem emitBk_opens (e : Engine) (h : e.evt.queue.length < 256) (code subj status arg : Nat) (hs : Option Nat) (p : List LayField) (bk : Booking) :
    (e.emitBk code subj status arg hs p bk).opens = e.opens :=
  emitBk_keep (fun x => x.opens) (fun x hx _ _ _ _ _ _ _ => commitEv_opens x hx _ _ _ _ _ _ _) (fun _ => rfl) e h _ _ _ _ _ _ _

theorem emitBk_rd (e : Engine) (h : e.evt.queue.length < 256) (code subj status arg : Nat) (hs : Option Nat) (p : List LayField) (bk : Booking) (f : Fld)
    (ho : f.off ≠ (R.QUE_LEVEL.LEVEL 64).off) : (e.emitBk code subj status arg hs p bk).rd f = e.rd f := by
  unfold rd; rw [emitBk_word e h _ _ _ _ _ _ _ _ ho]

end Sys2Proof.Machine.Engine
end

