-- ==== Sys2Proof/Laws/Books.lean ====
section
/-!
SUPPORT. The frame of events and answers (`onlyBooks`): it holds of one engine to itself, composes, and holds of every operation that builds an event or
answers a command.
-/

namespace Sys2Proof.Machine.Engine

/-- The frame, field by field. -/
theorem onlyBooks_iff (e x : Engine) (offs : List Nat) : e.onlyBooks x offs ↔
    (x.mode = e.mode ∧ x.now = e.now ∧ x.jump = e.jump ∧ x.free = e.free ∧ x.rsp = e.rsp ∧ x.trans = e.trans ∧ x.resetting = e.resetting ∧ x.pins = e.pins
      ∧ x.flash = e.flash ∧ x.link = e.link ∧ x.cmdIn = e.cmdIn ∧ x.rings = e.rings ∧ x.status = e.status ∧ x.streams = e.streams ∧ x.dma = e.dma
      ∧ x.tg = e.tg ∧ x.mot = e.mot ∧ x.pac = e.pac ∧ x.feed = e.feed ∧ x.squall = e.squall ∧ x.job = e.job ∧ x.frames = e.frames ∧ x.gus = e.gus
      ∧ x.qdr = e.qdr ∧ x.afe = e.afe ∧ x.chans = e.chans ∧ x.shd = e.shd ∧ x.eddy = e.eddy ∧ x.cal = e.cal ∧ x.geo = e.geo ∧ x.mon = e.mon
      ∧ x.met = e.met ∧ x.mets = e.mets ∧ x.pair = { e.pair with tx := x.pair.tx, txNext := x.pair.txNext, image := x.pair.image })
    ∧ ∀ off, ¬ bookReg off → off ∉ offs → x.word off = e.word off := by
  unfold onlyBooks
  refine and_congr ?_ Iff.rfl
  cases e; cases x
  simp only [Engine.mk.injEq]
  constructor
  · rintro ⟨-, a0, a1, a2, a3, a4, a5, a6, a7, a8, a9, -, -, a10, a11, a12, a13, a14, a15, a16, a17, a18, a19, a20, a21, a22, a23, a33, a24, a25, a26, a27, a28, a29, a30, a31, a32⟩
    exact ⟨a0, a1, a2, a3, a4, a5, a6, a7, a8, a9, a10, a11, a12, a13, a14, a15, a16, a17, a18, a19, a20, a21, a22, a23, a24, a25, a26, a27, a28, a29, a30, a31, a32, a33⟩
  · rintro ⟨a0, a1, a2, a3, a4, a5, a6, a7, a8, a9, a10, a11, a12, a13, a14, a15, a16, a17, a18, a19, a20, a21, a22, a23, a24, a25, a26, a27, a28, a29, a30, a31, a32, a33⟩
    exact ⟨trivial, a0, a1, a2, a3, a4, a5, a6, a7, a8, a9, trivial, trivial, a10, a11, a12, a13, a14, a15, a16, a17, a18, a19, a20, a21, a22, a23, a33, a24, a25, a26, a27, a28, a29, a30, a31, a32⟩

theorem onlyBooks_refl (e : Engine) (offs : List Nat) : e.onlyBooks e offs := ⟨rfl, fun _ _ _ => rfl⟩

theorem onlyBooks_trans {e x y : Engine} {offs : List Nat} (h : e.onlyBooks x offs) (k : x.onlyBooks y offs) : e.onlyBooks y offs := by
  rw [onlyBooks_iff] at *
  obtain ⟨h1, h2⟩ := h
  obtain ⟨k1, k2⟩ := k
  refine ⟨?_, fun off a b => (k2 off a b).trans (h2 off a b)⟩
  obtain ⟨k1, k2, k3, k4, k5, k6, k7, k8, k9, k10, k11, k12, k13, k14, k15, k16, k17, k18, k19, k20, k21, k22, k23, k24, k25, k26, k27, k28, k29, k30, k31, k32, k33, k34⟩ := k1
  obtain ⟨h1, h2, h3, h4, h5, h6, h7, h8, h9, h10, h11, h12, h13, h14, h15, h16, h17, h18, h19, h20, h21, h22, h23, h24, h25, h26, h27, h28, h29, h30, h31, h32, h33, h34⟩ := h1
  refine ⟨k1.trans h1, k2.trans h2, k3.trans h3, k4.trans h4, k5.trans h5, k6.trans h6, k7.trans h7, k8.trans h8, k9.trans h9, k10.trans h10, k11.trans h11, k12.trans h12, k13.trans h13, k14.trans h14, k15.trans h15, k16.trans h16, k17.trans h17, k18.trans h18, k19.trans h19, k20.trans h20, k21.trans h21, k22.trans h22, k23.trans h23, k24.trans h24, k25.trans h25, k26.trans h26, k27.trans h27, k28.trans h28, k29.trans h29, k30.trans h30, k31.trans h31, k32.trans h32, k33.trans h33, ?_⟩
  rw [k34]; rw [h34]

theorem onlyBooks_mono {e x : Engine} {o p : List Nat} (h : e.onlyBooks x o) (hp : ∀ n ∈ o, n ∈ p) : e.onlyBooks x p :=
  ⟨h.1, fun off a b => h.2 off a fun c => b (hp off c)⟩

/-- A write to a book register or to a named one. -/
theorem wr_books (e : Engine) (f : Fld) (v : Nat) {offs : List Nat} (h : bookReg f.off ∨ f.off ∈ offs) : e.onlyBooks (e.wr f v) offs := by
  refine ⟨rfl, fun off a b => word_wr_ne e v ?_⟩
  rintro rfl
  exact h.elim a b

theorem count_books (e : Engine) (f : Fld) (v : Nat) {offs : List Nat} (h : bookReg f.off ∨ f.off ∈ offs) : e.onlyBooks (e.count f v) offs :=
  wr_books e f _ h

theorem syncOpen_books (e : Engine) (offs : List Nat) : e.onlyBooks e.syncOpen offs := wr_books e _ _ (.inl (.inl rfl))

theorem cmdHistory_books (e : Engine) (h d st code : Nat) (offs : List Nat) : e.onlyBooks (e.cmdHistory h d st code) offs := by
  have hk (j : Fin 4) : bookReg (R.UHP_CMDH.V (h % 32) j.val).off :=
    .inr (.inr (.inr (.inr (.inr (.inr (.inl ⟨⟨h % 32, Nat.mod_lt _ (by decide)⟩, j, rfl⟩))))))
  unfold cmdHistory
  dsimp only
  exact onlyBooks_trans (onlyBooks_trans (onlyBooks_trans (wr_books _ _ _ (.inl (hk 0))) (wr_books _ _ _ (.inl (hk 1))))
    (wr_books _ _ _ (.inl (hk 2)))) (wr_books _ _ _ (.inl (hk 3)))

theorem nokHistory_books (e : Engine) (h d st r n : Nat) (offs : List Nat) : e.onlyBooks (e.nokHistory h d st r n) offs := by
  have hk (j : Fin 4) : bookReg (R.UHP_NOKH.V (e.rd R.UHP_NOK_CNT.V % 32) j.val).off :=
    .inr (.inr (.inr (.inr (.inr (.inr (.inr (.inl ⟨⟨e.rd R.UHP_NOK_CNT.V % 32, Nat.mod_lt _ (by decide)⟩, j, rfl⟩)))))))
  unfold nokHistory
  dsimp only
  exact onlyBooks_trans (onlyBooks_trans (onlyBooks_trans (onlyBooks_trans (wr_books _ _ _ (.inl (hk 0))) (wr_books _ _ _ (.inl (hk 1))))
    (wr_books _ _ _ (.inl (hk 2)))) (wr_books _ _ _ (.inl (hk 3)))) (wr_books _ _ _ (.inl (.inr (.inr (.inr (.inl rfl))))))

theorem opens_books (e : Engine) (l : List OpenCmd) (offs : List Nat) : e.onlyBooks { e with opens := l } offs := ⟨rfl, fun _ _ _ => rfl⟩

theorem evt_books (e : Engine) (q : EvtQueue) (offs : List Nat) : e.onlyBooks { e with evt := q } offs := ⟨rfl, fun _ _ _ => rfl⟩

/-- The books take in an event. -/
theorem settle_books (e : Engine) (v : Ev) (offs : List Nat) : e.onlyBooks (e.settle v) offs := by
  have h0 : e.onlyBooks (e.wr R.UHP_LAST_DSEQ.V v.dseq) offs := wr_books _ _ _ (.inl (.inr (.inl rfl)))
  unfold settle
  dsimp only
  split
  · exact h0
  · exact onlyBooks_trans h0 (onlyBooks_trans (opens_books _ _ _) (onlyBooks_trans (syncOpen_books _ _) (cmdHistory_books ..)))
  · rename_i ring next final nok _
    have h1 : e.onlyBooks (if final && decide (ring < 19) then (e.wr R.UHP_LAST_DSEQ.V v.dseq).wr (R.UHP_R_DONE.V ring) next else e.wr R.UHP_LAST_DSEQ.V v.dseq) offs := by
      split
      · rename_i hb
        have hr : ring < 19 := by simp only [Bool.and_eq_true, decide_eq_true_eq] at hb; exact hb.2
        exact onlyBooks_trans h0 (wr_books _ _ _ (.inl (.inr (.inr (.inr (.inr (.inr (.inr (.inr (.inr ⟨⟨ring, hr⟩, rfl⟩))))))))))
      · exact h0
    split
    · exact onlyBooks_trans h1 (nokHistory_books ..)
    · exact h1

theorem loseOldest_books (e : Engine) (offs : List Nat) : e.onlyBooks e.loseOldest offs := by
  unfold loseOldest
  split
  · exact onlyBooks_refl e offs
  · dsimp only
    have h (q : EvtQueue) := onlyBooks_trans (onlyBooks_trans (evt_books e q offs) (count_books _ R.UHP_LOST_EVT.V 1 (offs := offs) (.inl (.inr (.inr (.inl rfl))))))
      (count_books _ (R.QUE_LOST.V 64) 1 (.inl (.inr (.inr (.inr (.inr (.inl rfl)))))))
    split
    · exact onlyBooks_trans (h _) (evt_books _ _ _)
    · exact onlyBooks_trans (h _) (settle_books ..)

theorem level_books (e : Engine) (n : Nat) (offs : List Nat) : e.onlyBooks (e.level 64 n) offs := by
  have hl : bookReg (R.QUE_LEVEL.LEVEL 64).off := .inr (.inr (.inr (.inr (.inr (.inl rfl)))))
  unfold level
  dsimp only
  split
  · exact onlyBooks_trans (wr_books _ _ _ (.inl hl)) (wr_books _ _ _ (.inl hl))
  · exact wr_books _ _ _ (.inl hl)

/-- Committing an event. -/
theorem commitEv_books (e : Engine) (code subj status arg : Nat) (hs : Option Nat) (p : List LayField) (bk : Booking) (offs : List Nat) :
    e.onlyBooks (e.commitEv code subj status arg hs p bk) offs := by
  unfold commitEv
  dsimp only
  have h1 : e.onlyBooks (if e.evt.queue.length < 256 then e else e.loseOldest) offs := by
    split
    · exact onlyBooks_refl e offs
    · exact loseOldest_books e offs
  refine onlyBooks_trans h1 (onlyBooks_trans ?_ (level_books ..))
  generalize (if e.evt.queue.length < 256 then e else e.loseOldest) = y
  refine ⟨?_, fun _ _ _ => rfl⟩
  split <;> rfl

/-- Building an event. -/
theorem emitBk_books (e : Engine) (code subj status arg : Nat) (hs : Option Nat) (p : List LayField) (bk : Booking) (offs : List Nat) :
    e.onlyBooks (e.emitBk code subj status arg hs p bk) offs := by
  by_cases hr : e.resetting = none ∧ e.pins.failed = false
  · obtain ⟨x, hx, rfl | ⟨n, f, l, -, -, rfl⟩⟩ := emitBk_cases e hr.1 hr.2 code subj status arg hs p bk
    · rw [hx]; exact commitEv_books ..
    · rw [hx]; exact onlyBooks_trans (onlyBooks_trans (evt_books _ _ _) (commitEv_books ..)) (commitEv_books ..)
  · unfold emitBk
    rw [if_pos (by revert hr; cases e.resetting <;> cases e.pins.failed <;> simp)]
    exact onlyBooks_refl e offs

theorem emit_books (e : Engine) (code subj status arg : Nat) (hs : Option Nat) (p : List LayField) (offs : List Nat) :
    e.onlyBooks (e.emit code subj status arg hs p) offs := emitBk_books ..

theorem fault_books (e : Engine) (c u d d2 : Nat) (p : List LayField) (offs : List Nat) : e.onlyBooks (e.fault c u d d2 p) offs := emitBk_books ..

theorem openCmd_books (e : Engine) (h : CmdHdr) (code : Nat) (w : Wait) (offs : List Nat) : e.onlyBooks (e.openCmd h code w) offs :=
  onlyBooks_trans (opens_books _ _ _) (syncOpen_books ..)

theorem complete_books (e : Engine) (h : CmdHdr) (code st : Nat) (r : List LayField) (offs : List Nat) : e.onlyBooks (e.complete h code st r) offs :=
  onlyBooks_trans (openCmd_books ..) (emitBk_books ..)

theorem finish_books (e : Engine) (c : OpenCmd) (st : Nat) (r : List LayField) (offs : List Nat) : e.onlyBooks (e.finish c st r) offs :=
  onlyBooks_trans (opens_books _ _ _) (emitBk_books ..)

theorem foldl_books {α : Type} (f : Engine → α → Engine) (offs : List Nat) (hf : ∀ (x : Engine) (a : α), x.onlyBooks (f x a) offs) (l : List α) (e : Engine) :
    e.onlyBooks (l.foldl f e) offs := by
  induction l generalizing e with
  | nil => exact onlyBooks_refl e offs
  | cons a t ih => exact onlyBooks_trans (hf e a) (ih (f e a))

theorem finishAll_books (e : Engine) (p : Wait → Bool) (st : Nat) (r : List LayField) (offs : List Nat) : e.onlyBooks (e.finishAll p st r) offs :=
  foldl_books _ offs (fun x c => finish_books x c st r offs) _ e

theorem pairSend_books (e : Engine) (w : Option DeltaFor) (b : PairBody) (offs : List Nat) : e.onlyBooks (e.pairSend w b) offs := ⟨rfl, fun _ _ _ => rfl⟩

end Sys2Proof.Machine.Engine
end

