-- ==== Sys2Proof/Laws/Host.lean ====
section
/-!
SUPPORT. Judging a host command (R241, R261): what an accepted one runs on.
-/

namespace Sys2Proof.Machine.Engine

theorem canTake_resetting {e : Engine} {h : CmdHdr} (hc : e.canTake h = true) : e.resetting = none := by
  simp [canTake] at hc; exact hc.1.1.1

/-- An accepted command runs on the engine as it stands. -/
theorem command_accepts {e : Engine} {h : CmdHdr} {code : Nat} {modes : List Nat} (ha : e.accepts h code modes) (run : Engine → Engine) :
    e.command h code true modes run = run e := by
  obtain ⟨⟨h1, -⟩, h2, h3, h4⟩ := ha
  unfold command
  simp [h1, h2, h3, h4]

end Sys2Proof.Machine.Engine
end

