-- ==== Sys2Proof/Laws/Memory.lean ====
section
/-!
SUPPORT. Staging memory (R189 to R191, R195): a byte written reads back and every other byte stays; every operation keeps the canonical form; what raising requests changes.
-/

namespace Sys2Proof.Machine

namespace Staging

@[simp] theorem byte_put_same (m : Staging) (a : Nat) (b : Byte) : (m.put a b).byte a = b := Sparse.get_set_same stgByte m.bytes a b

theorem byte_put_ne (m : Staging) {a k : Nat} (b : Byte) (h : k ≠ a) : (m.put a b).byte k = m.byte k := Sparse.get_set_ne stgByte m.bytes b h

@[simp] theorem isBad_put_same (m : Staging) (a : Nat) (b : Byte) : (m.put a b).isBad a = false := Sparse.get_set_same stgGood m.bad a false

theorem isBad_put_ne (m : Staging) {a k : Nat} (b : Byte) (h : k ≠ a) : (m.put a b).isBad k = m.isBad k :=
  Sparse.get_set_ne stgGood m.bad false h

@[simp] theorem byte_spoil (m : Staging) (a k : Nat) : (m.spoil a).byte k = m.byte k := rfl

@[simp] theorem isBad_spoil_same (m : Staging) (a : Nat) : (m.spoil a).isBad a = true := Sparse.get_set_same stgGood m.bad a true

theorem isBad_spoil_ne (m : Staging) {a k : Nat} (h : k ≠ a) : (m.spoil a).isBad k = m.isBad k :=
  Sparse.get_set_ne stgGood m.bad true h

theorem wf_iff (m : Staging) : m.wf = true ↔ Sparse.wf stgByte m.bytes = true ∧ Sparse.wf stgGood m.bad = true := by
  unfold wf; exact Bool.and_eq_true_iff

theorem wf_put (m : Staging) (a : Nat) (b : Byte) (h : m.wf = true) : (m.put a b).wf = true := by
  rw [wf_iff] at h ⊢
  exact ⟨Sparse.wf_set stgByte m.bytes a b h.1, Sparse.wf_set stgGood m.bad a false h.2⟩

theorem wf_spoil (m : Staging) (a : Nat) (h : m.wf = true) : (m.spoil a).wf = true := by
  rw [wf_iff] at h ⊢
  exact ⟨h.1, Sparse.wf_set stgGood m.bad a true h.2⟩

/-- Bytes written at consecutive places: what stands at each address after it. -/
theorem byte_putMany (l : List (Option Byte)) (m : Staging) (a k : Nat) :
    (m.putMany a l).byte k = if a ≤ k then (match l[k - a]? with | some (some b) => b | _ => m.byte k) else m.byte k := by
  induction l generalizing m a with
  | nil => simp [putMany]
  | cons x t ih =>
    cases x with
    | none =>
      rw [show m.putMany a (none :: t) = m.putMany (a + 1) t from rfl, ih]
      rcases Nat.lt_trichotomy k a with h | h | h
      · simp [show ¬ a + 1 ≤ k by omega, show ¬ a ≤ k by omega]
      · subst h; rw [if_neg (by omega)]; simp
      · rw [if_pos (by omega), if_pos (by omega), show k - a = (k - (a + 1)) + 1 by omega]; simp
    | some b =>
      rw [show m.putMany a (some b :: t) = (m.put a b).putMany (a + 1) t from rfl, ih]
      rcases Nat.lt_trichotomy k a with h | h | h
      · simp [show ¬ a + 1 ≤ k by omega, show ¬ a ≤ k by omega, byte_put_ne m b (show k ≠ a by omega)]
      · subst h; rw [if_neg (by omega)]; simp
      · rw [if_pos (by omega), if_pos (by omega), show k - a = (k - (a + 1)) + 1 by omega, byte_put_ne m b (by omega)]; simp

/-- Bytes written have good parity; the mark of every other byte stays. -/
theorem isBad_putMany (l : List (Option Byte)) (m : Staging) (a k : Nat) :
    (m.putMany a l).isBad k = if a ≤ k then (match l[k - a]? with | some (some _) => false | _ => m.isBad k) else m.isBad k := by
  induction l generalizing m a with
  | nil => simp [putMany]
  | cons x t ih =>
    cases x with
    | none =>
      rw [show m.putMany a (none :: t) = m.putMany (a + 1) t from rfl, ih]
      rcases Nat.lt_trichotomy k a with h | h | h
      · simp [show ¬ a + 1 ≤ k by omega, show ¬ a ≤ k by omega]
      · subst h; rw [if_neg (by omega)]; simp
      · rw [if_pos (by omega), if_pos (by omega), show k - a = (k - (a + 1)) + 1 by omega]; simp
    | some b =>
      rw [show m.putMany a (some b :: t) = (m.put a b).putMany (a + 1) t from rfl, ih]
      rcases Nat.lt_trichotomy k a with h | h | h
      · simp [show ¬ a + 1 ≤ k by omega, show ¬ a ≤ k by omega, isBad_put_ne m b (show k ≠ a by omega)]
      · subst h; rw [if_neg (by omega)]; simp
      · rw [if_pos (by omega), if_pos (by omega), show k - a = (k - (a + 1)) + 1 by omega, isBad_put_ne m b (by omega)]; simp

theorem wf_putMany (l : List (Option Byte)) (m : Staging) (a : Nat) (h : m.wf = true) : (m.putMany a l).wf = true := by
  induction l generalizing m a with
  | nil => exact h
  | cons x t ih => cases x with
    | none => exact ih _ _ h
    | some b => exact ih _ _ (wf_put _ _ _ h)

theorem wf_spoilAll (l : List Nat) (f : Nat → Nat) (m : Staging) (h : m.wf = true) : (l.foldl (fun x i => x.spoil (f i)) m).wf = true := by
  induction l generalizing m with
  | nil => exact h
  | cons i t ih => exact ih _ (wf_spoil _ _ h)

end Staging

namespace Engine

/-- A transaction keeps the canonical form. -/
theorem wf_transact (e : Engine) (m : Staging) (p code : Nat) (b : Burst) (t : Nat) (bad : List Nat) (h : m.wf = true) :
    (e.transact m p code b t bad).2.wf = true := by
  unfold transact
  split
  · exact Staging.wf_putMany _ _ _ h
  · dsimp only
    split <;> exact Staging.wf_spoilAll _ (fun i => b.addr + 32 * t + i) _ h

theorem wf_issueTxn (e : Engine) (m : Staging) (p code : Nat) (bad : List Nat) (h : m.wf = true) : (e.issueTxn m p code bad).2.wf = true := by
  unfold issueTxn
  dsimp only
  split
  · split <;> exact wf_transact _ _ _ _ _ _ _ h
  · exact h

/-- One slot of a port keeps the canonical form. -/
theorem wf_arbSlot (e : Engine) (m : Staging) (p : Nat) (bad : List Nat) (h : m.wf = true) : (e.arbSlot m p bad).2.wf = true := by
  unfold arbSlot
  split
  · exact h
  · split
    · unfold tableSlot
      dsimp only
      split
      · exact wf_issueTxn _ _ _ _ _ h
      · exact h
    · unfold nativeSlot
      dsimp only
      split
      · exact h
      · split
        · split
          · exact h
          · exact wf_issueTxn _ _ _ _ _ h
        · split
          · exact wf_issueTxn _ _ _ _ _ h
          · exact h

/-! ### Requests -/

/-- LEVEL and HWM of a queue are all that its level changes. -/
theorem level_only (e : Engine) (q n : Nat) : e.level q n = { e with regs := (e.level q n).regs } := by
  unfold level
  dsimp only
  split <;> rfl

/-- A burst raised changes the port's requests and the words of its queue. -/
theorem raiseBurst_only (e : Engine) (p code : Nat) (b : Burst) :
    e.raiseBurst p code b = { e with regs := (e.raiseBurst p code b).regs, qdr := (e.raiseBurst p code b).qdr } := by
  unfold raiseBurst showPort
  rw [level_only]
  rfl

/-- So do any number of bursts. -/
theorem raiseAll_only (l : List (Nat × Nat)) (port : Nat × Nat → Nat) (burst : Nat × Nat → Burst) (code : Nat) (e : Engine) :
    let x := l.foldl (fun (x : Engine) b => x.raiseBurst (port b) code (burst b)) e
    x = { e with regs := x.regs, qdr := x.qdr } := by
  induction l generalizing e with
  | nil => rfl
  | cons b t ih =>
    have h := raiseBurst_only e (port b) code (burst b)
    dsimp only at ih ⊢
    rw [List.foldl_cons]
    generalize e.raiseBurst (port b) code (burst b) = y at h ⊢
    rw [ih y, h]

/-- So do the bursts of a range. -/
theorem raiseRange_only (e : Engine) (write : Bool) (code addr len : Nat) (data : List (Option Byte)) (what : BurstFor) :
    e.raiseRange write code addr len data what =
      { e with regs := (e.raiseRange write code addr len data what).regs, qdr := (e.raiseRange write code addr len data what).qdr } :=
  raiseAll_only _ _ _ _ _

/-- And the bursts of bytes in STAGE. -/
theorem raiseStage_only (e : Engine) (write : Bool) (off len : Nat) (data : List (Option Byte)) (what : BurstFor) :
    e.raiseStage write off len data what =
      { e with regs := (e.raiseStage write off len data what).regs, qdr := (e.raiseStage write off len data what).qdr } := by
  unfold raiseStage
  dsimp only
  rw [raiseRange_only, raiseRange_only e]

end Engine

end Sys2Proof.Machine
end

