-- ==== Sys2Proof/Laws/Pair.lean ====
section
/-!
SUPPORT. What mirroring changes (R365): the frames that wait, their number, the image of the leeward's state, and nothing else; what a step without a command
does.
-/

namespace Sys2Proof.Machine.Engine

theorem sendState_only (e : Engine) (k : Option DeltaFor) (l : List MirrorItem) : e.sendState k l = { e with pair := { e.pair with
    tx := (e.sendState k l).pair.tx, txNext := (e.sendState k l).pair.txNext, image := (e.sendState k l).pair.image } } := rfl

theorem sendBulk_only (e : Engine) : e.sendBulk = { e with pair := { e.pair with
    tx := e.sendBulk.pair.tx, txNext := e.sendBulk.pair.txNext, image := e.sendBulk.pair.image } } := rfl

/-- Sending what has changed changes the frames that wait, their number and the image. -/
theorem mirrorState_only (e : Engine) : e.mirrorState = { e with pair := { e.pair with
    tx := e.mirrorState.pair.tx, txNext := e.mirrorState.pair.txNext, image := e.mirrorState.pair.image } } := by
  unfold mirrorState
  split
  · split
    · exact e.sendBulk_only
    · dsimp only
      split
      · rfl
      · exact e.sendState_only _ _
  · rfl

/-- A module that is no windward in SYNCING or PAIRED sends nothing. -/
theorem mirrorState_idle {e : Engine} (h : ¬ (e.pair.role = 1 ∧ e.pair.linkUp = true ∧ (e.pair.st = 2 ∨ e.pair.st = 3))) : e.mirrorState = e := by
  simp only [mirrorState, h, if_false]

/-- Without a command to take, device time and what mirroring changes are all that changes (log 4). -/
theorem idle_only (e : Engine) : e.idle = { e with
    now := (e.now + 1) % 2 ^ 64
    pair := { e.pair with tx := e.idle.pair.tx, txNext := e.idle.pair.txNext, image := e.idle.pair.image } } :=
  mirrorState_only { e with now := (e.now + 1) % 2 ^ 64 }

end Sys2Proof.Machine.Engine
end

