-- ==== Sys2Proof/Laws/Section.lean ====
section
/-!
SUPPORT. The section: what a write to its registers leaves, what a packet for MET_IN changes in the engine (R212, R222), what an operation of the section
touches.
-/

namespace Sys2Proof.Machine

namespace Section

@[simp] theorem word_setWord_same (x : Section) (off : Nat) (w : Word) : (x.setWord off w).word off = w :=
  Sparse.get_set_same RegMap.resetWord x.regs off w

theorem word_setWord_ne (x : Section) {off k : Nat} (w : Word) (h : k ≠ off) : (x.setWord off w).word k = x.word k :=
  Sparse.get_set_ne RegMap.resetWord x.regs w h

theorem word_wr_ne (x : Section) {f : Fld} {k : Nat} (v : Nat) (h : k ≠ f.off) : (x.wr f v).word k = x.word k := word_setWord_ne x _ h

/-- A field reads back what was put into it. -/
theorem rd_wr_same (x : Section) {f : Fld} (hf : f.fits) (v : Nat) : (x.wr f v).rd f = v % 2 ^ f.width := by
  unfold rd wr; rw [word_setWord_same, Fld.get_put_same f hf]

/-- A field of another register keeps its value. -/
theorem rd_wr_ne (x : Section) {f g : Fld} (v : Nat) (h : f.off ≠ g.off) : (x.wr g v).rd f = x.rd f := by
  unfold rd; rw [word_wr_ne x v h]

/-- A field apart from the one written keeps its value, in whatever register. -/
theorem rd_wr_apart (x : Section) {f g : Fld} (hf : f.fits) (hg : g.fits) (h : f.apart g) (v : Nat) : (x.wr g v).rd f = x.rd f := by
  by_cases ho : f.off = g.off
  · unfold rd wr; rw [ho, word_setWord_same, Fld.get_put_apart f g hf hg h]
  · exact rd_wr_ne x v ho

@[simp] theorem setWord_params (x : Section) (off : Nat) (w : Word) : (x.setWord off w).params = x.params := rfl
@[simp] theorem setWord_stored (x : Section) (off : Nat) (w : Word) : (x.setWord off w).stored = x.stored := rfl
@[simp] theorem setWord_storedParams (x : Section) (off : Nat) (w : Word) : (x.setWord off w).storedParams = x.storedParams := rfl
@[simp] theorem setWord_sealOpen (x : Section) (off : Nat) (w : Word) : (x.setWord off w).sealOpen = x.sealOpen := rfl
@[simp] theorem setWord_audit (x : Section) (off : Nat) (w : Word) : (x.setWord off w).audit = x.audit := rfl
@[simp] theorem setWord_keyGen (x : Section) (off : Nat) (w : Word) : (x.setWord off w).keyGen = x.keyGen := rfl
@[simp] theorem setWord_mseq (x : Section) (off : Nat) (w : Word) : (x.setWord off w).mseq = x.mseq := rfl
@[simp] theorem setWord_store (x : Section) (off : Nat) (w : Word) : (x.setWord off w).store = x.store := rfl
@[simp] theorem setWord_fe (x : Section) (off : Nat) (w : Word) : (x.setWord off w).fe = x.fe := rfl
@[simp] theorem setWord_pieces (x : Section) (off : Nat) (w : Word) : (x.setWord off w).pieces = x.pieces := rfl
@[simp] theorem setWord_labels (x : Section) (off : Nat) (w : Word) : (x.setWord off w).labels = x.labels := rfl

@[simp] theorem wr_params (x : Section) (f : Fld) (v : Nat) : (x.wr f v).params = x.params := rfl
@[simp] theorem wr_stored (x : Section) (f : Fld) (v : Nat) : (x.wr f v).stored = x.stored := rfl
@[simp] theorem wr_storedParams (x : Section) (f : Fld) (v : Nat) : (x.wr f v).storedParams = x.storedParams := rfl
@[simp] theorem wr_sealOpen (x : Section) (f : Fld) (v : Nat) : (x.wr f v).sealOpen = x.sealOpen := rfl
@[simp] theorem wr_audit (x : Section) (f : Fld) (v : Nat) : (x.wr f v).audit = x.audit := rfl
@[simp] theorem wr_keyGen (x : Section) (f : Fld) (v : Nat) : (x.wr f v).keyGen = x.keyGen := rfl
@[simp] theorem wr_mseq (x : Section) (f : Fld) (v : Nat) : (x.wr f v).mseq = x.mseq := rfl
@[simp] theorem wr_store (x : Section) (f : Fld) (v : Nat) : (x.wr f v).store = x.store := rfl
@[simp] theorem wr_fe (x : Section) (f : Fld) (v : Nat) : (x.wr f v).fe = x.fe := rfl
@[simp] theorem wr_pieces (x : Section) (f : Fld) (v : Nat) : (x.wr f v).pieces = x.pieces := rfl

/-- Linearising a reading changes nothing of the section but its count of free values. -/
theorem linearise_eq (x : Section) (i : Nat) (a b : Rat) : ∃ n, (x.linearise i a b).2 = { x with free := n } := by
  have h0 : ∃ n, x = { x with free := n } := ⟨x.free, rfl⟩
  have h1 : ∃ n, x.takeFree.2 = { x with free := n } := ⟨x.free + 1, rfl⟩
  unfold linearise
  dsimp only
  split
  · exact h1
  · split
    · exact h0
    · exact h0
    · split
      · exact h1
      · split
        · exact h0
        · exact h1
    · exact h1

end Section

namespace Engine

/-- A packet that finds room in MET_IN joins it, and the level follows. -/
theorem metPush_room (e : Engine) (p : MetPkt) (h : e.met.inq.length < 32) :
    e.metPush p = ({ e with met := { e.met with inq := e.met.inq ++ [p] } } : Engine).level 68 (32 * (e.met.inq.length + 1)) := by
  have hn : ¬ 32 ≤ e.met.inq.length := by omega
  simp [metPush, hn]

/-- A packet that finds MET_IN full overwrites the oldest, which counts as lost. -/
theorem metPush_full (e : Engine) (p : MetPkt) (h : e.met.inq.length = 32) :
    e.metPush p = ({ e.count (R.QUE_LOST.V 68) 1 with met := { e.met with inq := e.met.inq.drop 1 ++ [p] } } : Engine).level 68 1024 := by
  simp [metPush, h, Engine.count, Engine.wr, Engine.setWord]

/-- The level of a queue and its high-water mark share one register: every other register stays. -/
theorem level_word_ne (e : Engine) (q n : Nat) {k : Nat} (h : k ≠ (R.QUE_LEVEL.LEVEL q).off) : (e.level q n).word k = e.word k := by
  unfold level
  dsimp only
  split
  · rw [word_wr_ne _ _ (show k ≠ (R.QUE_LEVEL.HWM q).off from h), word_wr_ne _ _ h]
  · exact word_wr_ne _ _ h

/-- The level reads back. -/
theorem level_rd (e : Engine) (q n : Nat) : (e.level q n).rd (R.QUE_LEVEL.LEVEL q) = n % 65536 := by
  unfold level
  dsimp only
  have ha : (R.QUE_LEVEL.LEVEL q).fits := by unfold Fld.fits; dsimp only; omega
  have hb : (R.QUE_LEVEL.HWM q).fits := by unfold Fld.fits; dsimp only; omega
  have hc : (R.QUE_LEVEL.LEVEL q).apart (R.QUE_LEVEL.HWM q) := by unfold Fld.apart; dsimp only; omega
  split
  · rw [rd_wr_apart _ ha hb hc, rd_wr_same _ ha]; rfl
  · rw [rd_wr_same _ ha]; rfl

end Engine

/-- What the section does of itself leaves staging memory and the queue of commands. -/
theorem onSec_frame (s : State) (f : Section → Nat → Section × List MetIn) : (s.onSec f).stg = s.stg ∧ (s.onSec f).pending = s.pending ∧
    (s.onSec f).sec = (f s.sec s.eng.secNow).1 := ⟨rfl, rfl, rfl⟩

/-- An operation of the section that sends nothing touches the section alone. -/
theorem onSec_quiet (s : State) (f : Section → Nat → Section × List MetIn) (h : (f s.sec s.eng.secNow).2 = []) :
    s.onSec f = { s with sec := (f s.sec s.eng.secNow).1 } := by
  unfold State.onSec; simp [h]

/-- One packet for MET_IN carries what the section reports of itself after the operation. -/
theorem onSec_one (s : State) (f : Section → Nat → Section × List MetIn) (m : MetIn) (h : (f s.sec s.eng.secNow).2 = [m]) :
    s.onSec f = { s with sec := (f s.sec s.eng.secNow).1, eng := s.eng.metPush ⟨m, (f s.sec s.eng.secNow).1.stat s.eng.secNow⟩ } := by
  unfold State.onSec; simp [h]

end Sys2Proof.Machine
end

