-- ==== Sys2Proof/WellFormed.lean ====
section
/-!
DEFINITION. Which commands are well formed: their operands are ones that the interface they come through can carry. A command that is not well
formed has its meaning all the same (the checks of the rules themselves are in the meanings); these are the operands a sender can produce.
-/

namespace Sys2Proof

namespace Instr

/-- Bytes of one access to BAR0 (R5): 1 to 4,096, the most that one request of the link can carry, within the BAR. -/
def accessOk (off size : Nat) : Bool := decide (1 ≤ size ∧ size ≤ 4096 ∧ off + size ≤ 2 ^ 20)

/-- A register of a space: BAR2 has 128 KiB, configuration space 4 KiB (R227). -/
def spaceOk (sp : HostSpace) (off : Nat) : Bool :=
  off % 4 == 0 && match sp with | .bar0 => true | .bar2 => decide (off < 0x20000) | .config => decide (off < 0x1000)

/-- Rates and widths the link trains to (R227). -/
def linkOk (speed width : Nat) : Bool := decide (1 ≤ speed) && (width == 1 || width == 2 || width == 4 || width == 8)

/-- Dies that fail their test, each at an address within its 16 MiB (R193). -/
def failsOk (l : List (Fin 8 × Nat)) : Bool := l.all fun f => decide (f.2 < 2 ^ 24)

/-- A burst of 1 to 8 transactions of 32 bytes within one granule of the interleave (R189, R190). -/
def burstOk (addr txns : Nat) : Bool :=
  decide (addr % 32 = 0 ∧ 1 ≤ txns ∧ txns ≤ 8) && decide (addr / 256 = (addr + 32 * txns - 1) / 256)

/-- What a frame of the pair link carries (R310, R363). -/
def frameOk : PairBody → Bool
  | .peerRecord r => decide (r.length = 128)
  | .hello v _ serial fw => decide (v ≤ 2 ∧ serial < 2 ^ 64 ∧ fw < 2 ^ 24)
  | .heartbeat | .ack _ | .delta _ | .bulkDone => true

/-- The operands are ones that the command's interface can carry. -/
def wellFormed : Instr → Bool
  | .rcRead addr coincident => spaceOk addr.space addr.off.toNat && decide (coincident < 2 ^ 32)
  | .misalignedAccess write off size data =>
    accessOk off.toNat size && !decide (off.toNat % 4 = 0 ∧ size = 4) && data.length == (if write then size else 0)
  | .registerWrite addr _ _ => spaceOk addr.space addr.off.toNat
  | .aerErrorReceived err => match err.header with | some l => l.length == 4 | none => true
  | .coefWindowWrite off _ => decide (off.toNat % 4 = 0 ∧ 0x80000 ≤ off.toNat)
  | .bar4Read addr len => decide (1 ≤ len ∧ len ≤ 4096 ∧ addr.toNat + len ≤ 2 ^ 27)
  | .bar4Write addr data => decide (1 ≤ data.length ∧ data.length ≤ 4096 ∧ addr.toNat + data.length ≤ 2 ^ 27)
  | .bootComplete f => decide (f.afePresent.length = 2) && failsOk f.dieFails
  | .wakeRailsSettled dieFails => failsOk dieFails
  | .linkUp speed width => linkOk speed.val width.val
  | .linkRetrain speed width => linkOk speed.val width.val
  | .readoutEnd _ video => decide (0 < video.vref ∧ video.lines.length ≤ 32) && video.lines.all fun v => decide (v.black.length = 16 ∧ v.active.length ≤ 960)
  | .tapLineArrival _ poison coefBad => (poison.all fun p => decide (p < 980)) && coefBad.all fun p => decide (p.1 < 960)
  | .triggerArrival _ bad => decide (bad ≤ 2)
  | .alignedLineReadout _ poison => decide (poison.length ≤ 3840)
  | .dmaBurst poison => decide (poison ≤ 512)
  | .stagingRequest p req addr txns data => burstOk addr.toNat txns && decide (req.val < 4 ∧ (8 ≤ p.val ∨ data.length = 32 * txns))
  | .arbGrant _ badParity => badParity.all fun k => decide (k < 32)
  | .fetchError _ received _ => decide (received.length ≤ 4096)
  | .targetPhaseDone vcalref => decide (vcalref.length = 3)
  | .ledDriverFault _ bits => decide (bits.val ≠ 0)
  | .servicePortWrite off _ => decide (off.toNat % 4 = 0 ∧ off.toNat < 0x260)
  | .sectionFwInstall image => !image.isEmpty
  | .pairFrameReceive frame => frameOk frame.body
  | .pairLinkTrained versions _ serial fw => decide (versions ≤ 2 ∧ serial < 2 ^ 64 ∧ fw < 2 ^ 24)
  | .hostReadCompletion data _ => decide (data.length ≤ 4096)
  | .fetchCompletion _ data => decide (data.length ≤ 4096)
  | .nop _ | .jobOpen _ _ _ | .jobClose _ | .feed _ _ _ | .hold _ _ | .resume _ | .stop _ | .squall _ | .streamStart _ _ | .streamStop _ _ _
  | .streamReplay _ _ | .loadBank _ _ _ _ _ | .swapBank _ _ _ _ | .calibrateGap _ | .calibrateFullTarget _ | .calibrateFullBacking _
  | .setExposure _ _ _ _ _ | .mark _ _ | .fill _ _ _ _ _ | .compare _ _ _ _ | .metQuery _ _ _ | .takeover _ | .release _ | .statusSync _ | .mode _ _
  | .queryIdent | .queryPubkey | .queryRecord _ | .queryLabel _ | .queryTemps | .queryTimeout | .softReset _ | .rstN | .sysTimeLoRead
  | .uhpSbMirrorRead | .monResultRead _ | .metRec0Read | .metRec31Read | .sdbLoad _ | .sdbReadDone _ _ | .ringEnable _ _ | .ringDisable _ _
  | .ringRestart _ | .ringStop _ | .doorbellWrite _ _ | .arbSnap _ | .arbClr | .rankmapWrite _ _ | .rankmapBcastWrite _ | .hwmClr | .dmaSnap _
  | .nvmErase | .nvmWrite | .nvmVerify | .nvmActivate | .nvmOpDone _ | .afeCfgWrite _ _ _ | .refModeWrite _ _ | .qdrMapReqWrite _ | .busMasterDisable
  | .flr | .perst | .por | .resetProper | .engineWatchdog | .arbWatchdogReset | .pfail | .pfailRecovery | .wake | .warmupComplete | .linkDown
  | .encoderEdge _ _ | .illegalTransition _ | .encoderIndex _ | .diAccept _ _ | .pacerTick | .feedGateOpen | .feedTimeout
  | .lullRest | .lullExitCondition | .backtrackDone | .ax0Rest | .squallRest | .windowOpen _ _ | .lineStart _ | .flushReadout _
  | .lineOverrunHoldoff _ | .substOverdue _ | .lineDefectHoldoff _ | .rowLineAssembly _ _ | .monitorHoldoff _ | .guOutputLine _ | .stageLineCommit _
  | .pageGeometryDone _ | .pageEnd _ | .arbWatchdogFire _ | .scrubRequest | .evtRingWrite | .metInPacket | .readbackCompletion _ | .readbackError _ _
  | .fastCompletionAck _ | .descriptorFetch _ | .commandConsume | .metRingWrite | .statusBlockWrite | .heartbeat | .msixMessage _
  | .tempCompare _ _ | .gapCalCompute | .calRecordWriteDone _ | .sliceRotation _ | .spareCalDone _ _ | .conversionStart _ | .refTimeout _
  | .refFault _ | .ledPowerMonitor _ | .supplyLimit _ | .recordRetransmit | .syncSend | .sectionSilent | .sectionRestart _
  | .sectionQuery | .sectionAck | .sectionSync | .sectionPeer | .metCmdRej | .sectionTapLine _ | .recordSend | .tempPublish | .sealOpen | .sealClose
  | .keyRegeneration | .converterOutput _ _ _ _ _ | .ovpClamp _ _ | .pairHeartbeatSend _ | .peerHeartbeatLoss | .pairAckTimeout | .ownershipTimer
  | .pairRetransmit | .mirrorAck | .bulkCopyDone | .bootClaim | .takeoverStart | .takeoverInstall | .internalTrigger | .windowClose _ _
  | .hostTmoExpiry | .busMasterEnable | .perstDeassert | .rstNRelease | .wakeReferencesSettled | .feFaultNoticeHoldoff _ | .thresholdStatePublish
  | .sensedLineEdge _ | .refBackInWindow _ | .pairLinkDown => true

end Instr

end Sys2Proof
end

