-- ==== Sys2Proof/Tests/Slice0.lean ====
section
/-!
SUPPORT. Tests: ill-formed commands are refused by WellFormed; worked examples of the spec and published check values; and for every statement with hypotheses
a state and operands that meet them together.
-/

open Sys2Proof Sys2Proof.Machine

section

set_option Elab.async false

/-! ### Ill-formed commands -/

/-- Not well formed: an offset that is not aligned. -/
theorem test_illformed_rcRead : Instr.wellFormed (.rcRead ⟨.bar0, 0x4102#20⟩ 0) = false := by decide +kernel

/-- Not well formed: a count wider than a register. -/
theorem test_illformed_rcReadCount : Instr.wellFormed (.rcRead ⟨.bar0, 0x4100#20⟩ 0x100000000) = false := by decide +kernel

/-- Not well formed: an offset beyond BAR2. -/
theorem test_illformed_rcReadBar2 : Instr.wellFormed (.rcRead ⟨.bar2, 0x20000#20⟩ 0) = false := by decide +kernel

/-- Not well formed: an aligned word. -/
theorem test_illformed_misaligned : Instr.wellFormed (.misalignedAccess false 0x1000#20 4 []) = false := by decide +kernel

/-- Not well formed: bytes beyond the BAR. -/
theorem test_illformed_misalignedSize : Instr.wellFormed (.misalignedAccess false 0xFFFFE#20 3 []) = false := by decide +kernel

/-- Not well formed: a byte of the write missing. -/
theorem test_illformed_misalignedData : Instr.wellFormed (.misalignedAccess true 0x1001#20 3 [1, 2]) = false := by decide +kernel

/-- Not well formed: an offset that is not aligned. -/
theorem test_illformed_registerWrite : Instr.wellFormed (.registerWrite ⟨.bar0, 0x1002#20⟩ 0#32 0#32) = false := by decide +kernel

/-- Not well formed: an offset beyond configuration space. -/
theorem test_illformed_registerWriteConfig : Instr.wellFormed (.registerWrite ⟨.config, 0x1000#20⟩ 0#32 0#32) = false := by decide +kernel

/-- Not well formed: three words of a header. -/
theorem test_illformed_aer : Instr.wellFormed (.aerErrorReceived ⟨.completion .ur, some [1, 2, 3]⟩) = false := by decide +kernel

/-- Not well formed: three words of a packet of two. -/
theorem test_illformed_trigger : Instr.wellFormed (.triggerArrival 0 3) = false := by decide +kernel

/-- Not well formed: more words than DMA_OUT holds. -/
theorem test_illformed_dma : Instr.wellFormed (.dmaBurst 513) = false := by decide +kernel

/-- Not well formed: an offset below the window. -/
theorem test_illformed_coefWindow : Instr.wellFormed (.coefWindowWrite 0x7FFFC#20 0#32) = false := by decide +kernel

/-- Not well formed: bytes beyond the space. -/
theorem test_illformed_bar4Read : Instr.wellFormed (.bar4Read 0x7FFFFFF#27 2) = false := by decide +kernel

/-- Not well formed: no bytes. -/
theorem test_illformed_bar4Write : Instr.wellFormed (.bar4Write 0#27 []) = false := by decide +kernel

/-- Not well formed: one AFE die named. -/
theorem test_illformed_boot : Instr.wellFormed (.bootComplete ⟨0, 0, 0, [true], true, true, [], false⟩) = false := by decide +kernel

/-- Not well formed: an address beyond the die. -/
theorem test_illformed_rails : Instr.wellFormed (.wakeRailsSettled [(0, 16777216)]) = false := by decide +kernel

/-- Not well formed: no rate. -/
theorem test_illformed_linkUp : Instr.wellFormed (.linkUp 0 8) = false := by decide +kernel

/-- Not well formed: a width of three lanes. -/
theorem test_illformed_linkRetrain : Instr.wellFormed (.linkRetrain 5 3) = false := by decide +kernel

/-- Not well formed: fifteen optical-black samples missing. -/
theorem test_illformed_readoutEnd : Instr.wellFormed (.readoutEnd 0 ⟨2500000, [⟨[⟨1, 0, none⟩], [], false⟩]⟩) = false := by decide +kernel

/-- Not well formed: a word beyond the tap-line. -/
theorem test_illformed_tapLine : Instr.wellFormed (.tapLineArrival 0 [980] []) = false := by decide +kernel

/-- Not well formed: nine transactions. -/
theorem test_illformed_staging : Instr.wellFormed (.stagingRequest 8 0 0x100#27 9 []) = false := by decide +kernel

/-- Not well formed: two granules. -/
theorem test_illformed_stagingGranule : Instr.wellFormed (.stagingRequest 8 0 0xE0#27 2 []) = false := by decide +kernel

/-- Not well formed: too few bytes. -/
theorem test_illformed_stagingData : Instr.wellFormed (.stagingRequest 0 0 0#27 1 [1]) = false := by decide +kernel

/-- Not well formed: a byte beyond the transaction. -/
theorem test_illformed_arbGrant : Instr.wellFormed (.arbGrant 0 [32]) = false := by decide +kernel

/-- Not well formed: more than a read can bring. -/
theorem test_illformed_fetchError : Instr.wellFormed (.fetchError 0 (List.replicate 4097 0) .ur) = false := by decide +kernel

/-- Not well formed: more than a read can bring. -/
theorem test_illformed_fetchCompletion : Instr.wellFormed (.fetchCompletion 0 (List.replicate 4097 0)) = false := by decide +kernel

/-- Not well formed: more than a read can bring. -/
theorem test_illformed_hostRead : Instr.wellFormed (.hostReadCompletion (List.replicate 4097 0) none) = false := by decide +kernel

/-- Not well formed: the references missing. -/
theorem test_illformed_target : Instr.wellFormed (.targetPhaseDone [2500000]) = false := by decide +kernel

/-- Not well formed: no fault named. -/
theorem test_illformed_led : Instr.wellFormed (.ledDriverFault 0 0) = false := by decide +kernel

/-- Not well formed: an offset past the parameters. -/
theorem test_illformed_port : Instr.wellFormed (.servicePortWrite 0x260#16 ⟨0#32, 0#32⟩) = false := by decide +kernel

/-- Not well formed: no image. -/
theorem test_illformed_image : Instr.wellFormed (.sectionFwInstall []) = false := by decide +kernel

/-- Not well formed: a record of no bytes. -/
theorem test_illformed_frame : Instr.wellFormed (.pairFrameReceive ⟨0, true, .peerRecord []⟩) = false := by decide +kernel

/-- Not well formed: a version that does not exist. -/
theorem test_illformed_hello : Instr.wellFormed (.pairFrameReceive ⟨0, true, .hello 3 true 0 0⟩) = false := by decide +kernel

/-- Not well formed: a version that does not exist. -/
theorem test_illformed_trained : Instr.wellFormed (.pairLinkTrained 3 true 0 0) = false := by decide +kernel

/-- A command with good operands. -/
theorem test_wellformed : Instr.wellFormed (.stagingRequest 11 0 0xE0#27 1 []) = true := by decide +kernel

/-- The table's rows have no bits: no word spells a command, and no command is put at the front. -/
theorem test_no_word : decodeTableWord 16 7 = none ∧ State.reset.withFetchWord 16 7 = State.reset := by decide +kernel

/-! ### Worked examples of the spec -/

/-- R104, the example: CH05 raw 46,210 comes out as 55,241. -/
theorem test_shade_example : Engine.shade true 16384 (256 * 46210 - 2944) ⟨false, 20501, 2051⟩ = (55241, false) := by decide +kernel

/-- R111, the example: fade lines 120,001 and 120,016 use the weights 3,855 and 61,680; a full-scale step then gives these values. -/
theorem test_fade_example : Engine.blend 3855 0 65535 = 3855 ∧ Engine.blend 61680 0 65535 = 61679 := by decide +kernel

/-- R275, the example: head 251 bytes, nine of 256, tail 21. -/
theorem test_cut_example :
    (Engine.cutWrites 256 0x7F3A0005 (List.replicate 2576 0) 12).map (fun x => (x.1, x.2.length)) =
      (0x7F3A0005, 251) :: (upTo 9).map (fun k => (0x7F3A0100 + 256 * k, 256)) ++ [(0x7F3A0A00, 21)] := by decide +kernel

/-- R271, the example: the SET_EXPOSURE descriptor under UHP-2 names its operands. -/
theorem test_entry_example :
    Engine.reset.runEntry (layBytes 64 [(0, 1, 0x0F), (4, 4, 0x13F8), (8, 8, 0xA51C), (17, 1, 4), (20, 4, 0x1B58), (24, 6, 0x9C40)]) =
      Engine.reset.cmdSetExposure ⟨5112#32, 0xA51C#64, true⟩ 0 4 7000 40000 := by decide +kernel

/-- The example of the register index: 0x0E4AC is MON5_LIM, 0x0E098 side 1's GEO_ORPHAN_CNT, 0x0E0C0 its GEO_RES0; 0x0E0B8 and 0x0E068 name nothing. -/
theorem test_index_example :
    ((RegMap.find 0x0E4AC).map fun x => (x.1.name, x.2)) = some ("MON_LIM", [5]) ∧ ((RegMap.find 0x0E098).map fun x => (x.1.name, x.2)) = some ("GEO_ORPHAN_CNT", [1])
      ∧ ((RegMap.find 0x0E0C0).map fun x => (x.1.name, x.2)) = some ("GEO_RES", [1, 0]) ∧ RegMap.find 0x0E0B8 = none ∧ RegMap.find 0x0E068 = none := by
  decide +kernel

/-! ### Published check values -/

/-- The check value of CRC-32C: of the nine digits. -/
theorem test_crc32c : crc32c ([0x31, 0x32, 0x33, 0x34, 0x35, 0x36, 0x37, 0x38, 0x39] : List Byte) = 0xE3069283#32 := by decide +kernel

/-- SHA-256 of "abc" begins with ba7816bf. -/
theorem test_sha256 : sha256 ([0x61, 0x62, 0x63] : List Byte) / 2 ^ 224 = 0xBA7816BF := by decide +kernel

/-! ### Hypotheses of the statements can be met -/

/-- The state after reset with its engine changed. -/
def wS (f : Engine → Engine) : State := { State.reset with eng := f Engine.reset }

/-- A host command of HSEQ 5. -/
def wHdr : CmdHdr := ⟨5#32, 9#64, true⟩

/-- Registers set up for a job: all dies mapped in, AX0 as the axis of the trigger source, side 0 converting on channel 0, unit 0 for stream 0, feeding. -/
def wSetup (e : Engine) : Engine :=
  let e1 := ((((e.wr R.QDR_STATUS.MAP 15).wr R.QDR_STAGE_SIZE.V 100000000).wr R.SYS_UNITS.AFE0 1).wr (R.AX_CTRL.EN 0) 1).wr (R.EN_CTRL.EN 0) 1
  let e2 := (((e1.wr (R.GU_CTRL.EN 0) 1).wr R.PAC_CTRL.FEED_EN 1).wr R.LT_CTRL.EN 1).wr R.RSM_STATUS.CAP 125000
  (((e2.wr (R.TG_CTRL.EN 0) 1).wr (R.AX_CTRL.MODE 0) 1).wr (R.RSM_FRAME_DIST.DIST 0) 60000).wr (R.RSM_FRAME_DIST.DIST 1) 60000

/-- An open job in a mode, the pacer in a state. -/
def wJob (m : Mode) (p : PacState) : State :=
  wS fun e => { wSetup { e with mode := m } with job := ⟨true, false, 7, false, [], 0, none, none⟩, pac := { PacerSt.init with st := p } }

/-- Mode M6 with stream 0 as given, its ring in RUN. -/
def wStream (x : Stream) : State :=
  wS fun e => ({ wSetup { e with mode := .m6 } with streams := modAt e.streams 0 fun _ => x } : Engine).setRing 3 1

/-- A sensor descriptor block that passes every check. -/
def wSdb : List Byte :=
  let l := layBytes 192 ([(0, 4, 0x42445348), (4, 1, 2), (5, 1, 3), (6, 2, 196), (8, 4, 77), (12, 4, 5), (0x13, 1, 30), (0x14, 2, 960), (0x16, 1, 4), (0x17, 1, 20),
    (0x18, 1, 0xA5), (0x1A, 2, 100), (0x22, 1, 0x3C), (0x24, 4, 4000)] ++ (upTo 16).map fun n => (0x44 + 8 * n, 4, 10 + n))
  l ++ leBytes 4 (crc32c l).toNat

/-- The hypotheses of JobCommands can be met together. -/
theorem witness_JobCommands :
    (let h : CmdHdr := wHdr
     let s : State := (wS fun e => { e with mode := .m6 })
     (s.eng.accepts h 0x01 [2, 3, 4, 5, 6, 7, 8, 9, 10, 11])) ∧
    (let h : CmdHdr := wHdr
     let s : State := (wS fun e => { e with mode := .m2 })
     (s.eng.accepts h 0x16 [2, 3, 4, 5, 6, 7, 8, 9, 10, 11])) ∧
    (let h : CmdHdr := wHdr
     let s : State := (wS fun e => wSetup { e with mode := .m6 })
     (s.eng.accepts h 0x02 [6]) ∧ (s.eng.job.isOpen = false) ∧ (s.eng.bookFilled = 0) ∧ (s.eng.bookFlight = 0) ∧ (s.eng.jobBad = false)) ∧
    (let h : CmdHdr := wHdr
     let s : State := (wJob .m7 .run)
     (s.eng.accepts h 0x03 [6, 7, 8, 9]) ∧ (s.eng.mode = .m7) ∧ (s.eng.job.isOpen = true) ∧ (s.eng.job.closing = false) ∧ (s.eng.job.ended = false) ∧
       (s.eng.squall = none) ∧ (s.eng.pac.st = .run) ∧ (s.eng.shd.fade.map SwapSt.hseq ≠ some h.hseq.toNat) ∧ (s.eng.shd.queued.map SwapSt.hseq ≠
       some h.hseq.toNat)) ∧
    (let h : CmdHdr := wHdr
     let s : State := (wJob .m7 .run)
     (s.eng.accepts h 0x07 [7, 8]) ∧ (s.eng.squall = none) ∧ (s.eng.pac.st = .run)) ∧
    (let h : CmdHdr := wHdr
     let s : State := (wJob .m7 .run)
     (s.eng.accepts h 0x08 [6, 7, 8, 9]) ∧ (s.eng.mode ≠ .m9) ∧ (s.eng.squall = none)) ∧
    (let h : CmdHdr := wHdr
     let s : State := (wJob .m9 .squall)
     (s.eng.accepts h 0x08 [6, 7, 8, 9]) ∧ (s.eng.mode = .m9)) := by
  refine ⟨?_, ?_, ?_, ?_, ?_, ?_, ?_⟩ <;> decide +kernel

/-- The hypotheses of FeedHoldResume can be met together. -/
theorem witness_FeedHoldResume :
    (let h : CmdHdr := wHdr
     let s : State := (wJob .m7 .run)
     (s.eng.accepts h 0x04 [6, 7, 8]) ∧ (s.eng.mode ≠ .m6) ∧ (s.eng.job.isOpen = true) ∧ (s.eng.job.closing = false) ∧ (s.eng.on R.PAC_CTRL.FEED_EN =
       true)) ∧
    (let h : CmdHdr := wHdr
     let s : State := (wJob .m6 .idle)
     (s.eng.accepts h 0x04 [6, 7, 8]) ∧ (s.eng.mode = .m6) ∧ (s.eng.job.isOpen = true) ∧ (s.eng.job.closing = false) ∧ (s.eng.on R.PAC_CTRL.FEED_EN =
       true)) ∧
    (let h : CmdHdr := wHdr
     let kind : Byte := 1#8
     let s : State := (wJob .m7 .run)
     (s.eng.accepts h 0x05 [7, 8]) ∧ (kind = 1) ∧ (s.eng.pac.st = .run)) ∧
    (let h : CmdHdr := wHdr
     let kind : Byte := 0#8
     let s : State := (wJob .m7 .run)
     (s.eng.accepts h 0x05 [7, 8]) ∧ (kind = 0) ∧ (s.eng.gapMode = false) ∧ (s.eng.squall = none) ∧ (s.eng.mode = .m7) ∧ (s.eng.pac.st = .run)) ∧
    (let h : CmdHdr := wHdr
     let s : State := (wS fun e => { wSetup { e with mode := .m7 } with pac := { PacerSt.init with st := .run, holdGap := true } })
     (s.eng.accepts h 0x06 [7, 8]) ∧ ((s.eng.pac.holdLull || s.eng.pac.holdGap) = true) ∧ (s.eng.mode = .m7) ∧ (s.eng.pac.st = .run)) ∧
    (let h : CmdHdr := wHdr
     let s : State := (wS fun e => { wSetup { e with mode := .m8 } with pac := { PacerSt.init with st := .hold, holdLull := true } })
     (s.eng.accepts h 0x06 [7, 8]) ∧ ((s.eng.pac.holdLull || s.eng.pac.holdGap) = true) ∧ (s.eng.mode = .m8)) := by
  refine ⟨?_, ?_, ?_, ?_, ?_, ?_⟩ <;> decide +kernel

/-- The hypotheses of StreamCommands can be met together. -/
theorem witness_StreamCommands :
    (let h : CmdHdr := wHdr
     let stream : Byte := 0#8
     let s : State := (wS fun e => (wSetup { e with mode := .m6 }).setRing 3 1)
     (s.eng.accepts h 0x09 [6, 7, 8]) ∧ (stream.toNat ≤ 15) ∧ ((s.eng.stream stream.toNat).running = false) ∧ (s.eng.ringState (3 + stream.toNat) =
       1) ∧ (s.eng.streamBad stream.toNat = false) ∧ (s.eng.bandwidthRefuses (s.eng.withStream stream.toNat) = false) ∧ (s.eng.gapRoomBad
       (s.eng.withStream stream.toNat) = false)) ∧
    (let h : CmdHdr := wHdr
     let stream : Byte := 15#8
     let whn : Byte := 1#8
     let s : State := (wS fun e => { e with mode := .m3 })
     (s.eng.accepts h 0x0A [3, 4, 5, 6, 7, 8, 9]) ∧ (stream.toNat ≤ 15) ∧ (whn.toNat ≤ 1) ∧ ((s.eng.stream stream.toNat).running = false) ∧
       ((s.eng.stream stream.toNat).halted = false)) ∧
    (let h : CmdHdr := wHdr
     let stream : Byte := 0#8
     let whn : Byte := 0#8
     let s : State := (wStream { Stream.init with running := true, joined := true })
     (s.eng.accepts h 0x0A [3, 4, 5, 6, 7, 8, 9]) ∧ (stream.toNat ≤ 15) ∧ (whn = 0) ∧ ((s.eng.stream stream.toNat).running = true) ∧ ((s.eng.stream
       stream.toNat).halted = false) ∧ ((s.eng.stream stream.toNat).joined = true)) ∧
    (let h : CmdHdr := wHdr
     let stream : Byte := 0#8
     let whn : Byte := 1#8
     let s : State := (wStream { Stream.init with running := true, joined := true })
     (s.eng.accepts h 0x0A [3, 4, 5, 6, 7, 8, 9]) ∧ (stream.toNat ≤ 15) ∧ (whn = 1) ∧ ((s.eng.stream stream.toNat).running = true) ∧ ((s.eng.stream
       stream.toNat).halted = false)) ∧
    (let h : CmdHdr := wHdr
     let stream : Byte := 0#8
     let s : State := (wS fun e => ({ e with mode := .m7, streams := modAt e.streams 0 fun x => { x with halted := true } } : Engine).setRing 3 4)
     (s.eng.accepts h 0x0B [3, 4, 5, 6, 7, 8, 9]) ∧ (stream.toNat ≤ 15) ∧ (s.eng.ringState (3 + stream.toNat) = 4) ∧ ((s.eng.stream
       stream.toNat).replaying = false)) := by
  refine ⟨?_, ?_, ?_, ?_, ?_⟩ <;> decide +kernel

/-- The hypotheses of BankCommands can be met together. -/
theorem witness_BankCommands :
    (let h : CmdHdr := wHdr
     let addr : BitVec 64 := 4096#64
     let first : Byte := 62#8
     let count : Byte := 2#8
     let bank : Byte := 1#8
     let s : State := (wS fun e => { e with mode := .m3 })
     (s.eng.accepts h 0x0C [3, 4, 6, 7, 8]) ∧ (first.toNat ≤ 63) ∧ (1 ≤ count.toNat) ∧ (first.toNat + count.toNat ≤ 64) ∧ (bank.toNat ≤ 1) ∧
       (addr.toNat % 4 = 0) ∧ (((upTo count.toNat).any fun i => s.eng.bankBusy bank.toNat (first.toNat + i)) = false)) ∧
    (let h : CmdHdr := wHdr
     let mask : BitVec 64 := 0x8000000000000000#64
     let fade : Byte := 5#8
     let s : State := (wS fun e => (wSetup { e with mode := .m7, job := ⟨true, false, 7, false, [], 0, none, none⟩ }).wr (R.SHD_CH_BANK.BSTATE 63) 1)
     (s.eng.accepts h 0x0D [3, 4, 6, 7, 8]) ∧ (mask.toNat ≠ 0) ∧ (fade.toNat ≤ 5) ∧ (((Engine.maskChans mask.toNat).any fun c => s.eng.bankState c (1
       - s.eng.rd (R.SHD_CH_BANK.ACTIVE c)) != 1) = false) ∧ (s.eng.job.isOpen = true) ∧ (s.eng.shd.fade = none)) ∧
    (let h : CmdHdr := wHdr
     let mask : BitVec 64 := 0x8000000000000000#64
     let fade : Byte := 0#8
     let s : State := (wS fun e => ({ e with mode := .m3 } : Engine).wr (R.SHD_CH_BANK.BSTATE 63) 1)
     (s.eng.accepts h 0x0D [3, 4, 6, 7, 8]) ∧ (mask.toNat ≠ 0) ∧ (fade.toNat ≤ 5) ∧ (((Engine.maskChans mask.toNat).any fun c => s.eng.bankState c (1
       - s.eng.rd (R.SHD_CH_BANK.ACTIVE c)) != 1) = false) ∧ (s.eng.job.isOpen = false) ∧ (s.eng.unused h)) := by
  refine ⟨?_, ?_, ?_⟩ <;> decide +kernel

/-- The hypotheses of CalibrateAndExposure can be met together. -/
theorem witness_CalibrateAndExposure :
    (let h : CmdHdr := wHdr
     let s : State := (wJob .m7 .run)
     (s.eng.accepts h 0x0E [6, 7, 8])) ∧
    (let h : CmdHdr := wHdr
     let s : State := (wS fun e => { wSetup e with mode := .m4 })
     (s.eng.accepts h 0x0E [4, 5]) ∧ (s.eng.mode = .m4) ∧ (s.eng.convMissing = false) ∧ (s.eng.trans.target = none) ∧ (s.eng.shd.fade.map SwapSt.hseq
       ≠ some h.hseq.toNat) ∧ (s.eng.shd.queued.map SwapSt.hseq ≠ some h.hseq.toNat)) ∧
    (let h : CmdHdr := wHdr
     let s : State := (wS fun e => ({ e with mode := .m5 } : Engine).wr R.CAL_STATUS.FULL_OPEN 1)
     (s.eng.accepts h 0x0E [5]) ∧ (s.eng.on R.CAL_STATUS.FULL_OPEN = true) ∧ (s.eng.cal.full.kind = 0) ∧ (s.eng.cal.writing = none)) ∧
    (let h : CmdHdr := wHdr
     let side : Byte := 2#8
     let rows : Byte := 15#8
     let exp : Word := 12000#32
     let s : State := (wJob .m7 .run)
     (s.eng.accepts h 0x0F [4, 5, 6, 7, 8]) ∧ (side.toNat ≤ 2) ∧ (1 ≤ rows.toNat) ∧ (rows.toNat ≤ 15) ∧ (((Engine.sidesOf side.toNat).all fun k =>
       s.eng.expOk k exp.toNat) = true) ∧ (s.eng.budget (s.eng.expWith (Engine.sidesOf side.toNat) rows.toNat exp.toNat) (fun n => s.eng.rd
       (R.ILL_CUR.LEVEL n)) ≤ 40000)) := by
  refine ⟨?_, ?_, ?_, ?_⟩ <;> decide +kernel

/-- The hypotheses of MarkFillCompareQuery can be met together. -/
theorem witness_MarkFillCompareQuery :
    (let h : CmdHdr := wHdr
     let index : BitVec 48 := 3#48
     let s : State := (wS fun e => { wSetup { e with mode := .m7 } with job := ⟨true, false, 7, false, [], 0, none, none⟩, mot := { MotionSt.init with kept := 4, lastKeptTime := 77 } })
     (s.eng.accepts h 0x10 [6, 7, 8]) ∧ (s.eng.job.isOpen = true) ∧ (index.toNat < s.eng.mot.kept)) ∧
    (let h : CmdHdr := wHdr
     let index : BitVec 48 := 0#48
     let s : State := (wJob .m7 .run)
     (s.eng.accepts h 0x10 [6, 7, 8]) ∧ (s.eng.job.isOpen = true) ∧ (s.eng.mot.kept ≤ index.toNat) ∧ (s.eng.job.ended = false) ∧ (s.eng.job.closing =
       false)) ∧
    (let h : CmdHdr := wHdr
     let length : Word := 1#32
     let width : Byte := 4#8
     let s : State := (wS fun e => { e with mode := .m11 })
     (s.eng.accepts h 0x11 [3, 4, 5, 6, 7, 8, 9, 11]) ∧ (1 ≤ length.toNat) ∧ (width = 1 ∨ width = 2 ∨ width = 4)) ∧
    (let h : CmdHdr := wHdr
     let sa : Word := 0#32
     let length : Word := 8#32
     let s : State := (wS fun e => wSetup { e with mode := .m3 })
     (s.eng.accepts h 0x12 [3, 4, 5, 6, 7, 8, 9, 11]) ∧ (sa.toNat + length.toNat ≤ s.eng.capacity) ∧ (length ≠ 0)) ∧
    (let h : CmdHdr := wHdr
     let sa : Word := 0#32
     let length : Word := 0#32
     let s : State := (wS fun e => { e with mode := .m3 })
     (s.eng.accepts h 0x12 [3, 4, 5, 6, 7, 8, 9, 11]) ∧ (sa.toNat + length.toNat ≤ s.eng.capacity) ∧ (length = 0)) ∧
    (let h : CmdHdr := wHdr
     let query : Byte := 4#8
     let s : State := (wS fun e => { e with mode := .m3 })
     (s.eng.accepts h 0x13 [3, 4, 5, 6, 7, 8, 9, 11]) ∧ (query.toNat ≤ 4) ∧ (s.eng.mets.asked = none) ∧ (s.eng.mets.queries = [])) ∧
    (let h : CmdHdr := wHdr
     let query : Byte := 0#8
     let s : State := (wS fun e => { e with mode := .m9, mets := { MetSt.init with asked := some (4, 5), queries := [⟨none, 0, 0⟩] } })
     (s.eng.accepts h 0x13 [3, 4, 5, 6, 7, 8, 9, 11]) ∧ (query.toNat ≤ 4) ∧ (s.eng.mets.asked ≠ none)) := by
  refine ⟨?_, ?_, ?_, ?_, ?_, ?_, ?_⟩ <;> decide +kernel

/-- The hypotheses of PairAndModeCommands can be met together. -/
theorem witness_PairAndModeCommands :
    (let h : CmdHdr := wHdr
     let s : State := (wS fun e => ({ e with mode := .m10, now := 5000000, pair := { PairSt.init with role := 2, st := 5, current := true, releasedAt := some 0 } } : Engine).wr R.UHP_SELECT.VER 3)
     (s.eng.accepts h 0x14 [10]) ∧ (s.eng.pair.role = 2) ∧ (s.eng.ownFree 2000000 = true) ∧ (s.eng.pair.st ≠ 6) ∧ (s.eng.pair.current = true)) ∧
    (let h : CmdHdr := wHdr
     let s : State := (wS fun e => ({ e with mode := .m6, pair := { PairSt.init with role := 1, st := 3 } } : Engine).wr R.UHP_SELECT.VER 3)
     (s.eng.accepts h 0x15 [3, 4, 5, 6, 7, 8, 9]) ∧ (s.eng.mirrorFirst = true) ∧ (s.eng.mode = .m6) ∧ (s.eng.squall = none)) ∧
    (let h : CmdHdr := wHdr
     let target : Byte := 10#8
     let s : State := (wS fun e => { e with mode := .m10 })
     (s.eng.accepts h 0x17 [2, 3, 4, 5, 6, 7, 8, 9, 10, 11]) ∧ (Mode.ofNat? target.toNat = some s.eng.mode) ∧ (s.eng.trans.target = none) ∧
       (s.eng.trans.wokeAt ≠ some s.eng.now) ∧ (s.eng.unused h)) ∧
    (let h : CmdHdr := wHdr
     let target : Byte := 3#8
     let s : State := (wS fun e => { e with mode := .m4 })
     (s.eng.accepts h 0x17 [2, 3, 4, 5, 6, 7, 8, 9, 10, 11]) ∧ (target = 3) ∧ (s.eng.mode = .m4) ∧ (s.eng.trans.target = none) ∧ (s.eng.job.isOpen =
       false) ∧ (s.eng.unused h) ∧ (s.eng.shd.fade.map SwapSt.hseq ≠ some h.hseq.toNat) ∧ (s.eng.shd.queued.map SwapSt.hseq ≠ some h.hseq.toNat)) := by
  refine ⟨?_, ?_, ?_, ?_⟩ <;> decide +kernel

/-- The hypotheses of QueriesQueued can be met together. -/
theorem witness_QueriesQueued :
    (let s : State := (wS fun e => { e with mode := .m3 })
     (s.eng.preBoot = false)) ∧
    (let s : State := (wS fun e => { e with mode := .m3 })
     (s.eng.preBoot = false)) ∧
    (let s : State := (wS fun e => { e with mode := .m3 })
     (s.eng.preBoot = false)) ∧
    (let s : State := (wS fun e => { e with mode := .m3 })
     (s.eng.preBoot = false)) ∧
    (let s : State := (wS fun e => { e with mode := .m3 })
     (s.eng.preBoot = false)) ∧
    (let i : Nat := 0
     let t0 : Nat := 5
     let q : MetQuery := ⟨none, 1, 0⟩
     let rest : List MetQuery := []
     let s : State := (wS fun e => { e with mode := .m3, now := 50000005, mets := { MetSt.init with asked := some (0, 5), queries := [⟨none, 1, 0⟩] } })
     (s.eng.mets.asked = some (i, t0)) ∧ (t0 + 50000000 ≤ s.eng.now) ∧ (s.eng.mets.queries = q :: rest) ∧ (q.hseq = none)) ∧
    (let i : Nat := 0
     let t0 : Nat := 5
     let n : Nat := 9
     let q : MetQuery := ⟨some 9, 1, 0⟩
     let rest : List MetQuery := [⟨none, 0, 0⟩]
     let c : OpenCmd := ⟨9, 1, 0x13, .metQuery⟩
     let s : State := (wS fun e => { e with mode := .m3, now := 50000005, opens := [⟨9, 1, 0x13, .metQuery⟩], mets := { MetSt.init with asked := some (0, 5), queries := [⟨some 9, 1, 0⟩, ⟨none, 0, 0⟩] } })
     (s.eng.resetting = none) ∧ (s.eng.pins.failed = false) ∧ (s.eng.mets.asked = some (i, t0)) ∧ (t0 + 50000000 ≤ s.eng.now) ∧ (s.eng.mets.queries =
       q :: rest) ∧ (q.hseq = some n) ∧ (s.eng.opens.find? (fun c => c.hseq == n && c.wait != Wait.built) = some c)) := by
  refine ⟨?_, ?_, ?_, ?_, ?_, ?_, ?_⟩ <;> decide +kernel

/-- The hypotheses of ReadsAnswer can be met together. -/
theorem witness_ReadsAnswer :
    (let off : BitVec 20 := 0x2028#20
     let coincident : Nat := 3
     let r : RegSpec := ((RegMap.find 0x2028).map Prod.fst).getD ⟨"", 0, [], 0, []⟩
     let ix : List Nat := ((RegMap.find 0x2028).map Prod.snd).getD []
     let s : State := (wS fun e => { e with mode := .m6 })
     (s.eng.mode ≠ .m0) ∧ (s.eng.mode ≠ .m1) ∧ (RegMap.find off.toNat = some (r, ix)) ∧ ((r.fields.any fun f => f.access == .rc) = true) ∧
       (s.eng.dieAbsent off.toNat = false) ∧ (r.name ≠ "QUE_LOST" ∨ coincident = 0)) ∧
    (let off : BitVec 20 := 0x4630#20
     let q : Nat := 83
     let c : Nat := 2
     let s : State := (wS fun e => { e with mode := .m4 })
     (s.eng.mode ≠ .m0) ∧ (s.eng.mode ≠ .m1) ∧ (off.toNat = (R.QUE_LOST.V q).off) ∧ (Engine.reservedQueue q = true) ∧ (0 < c) ∧ (c < 2 ^ 32) ∧
       (s.eng.on R.QUE_STATUS.RES_LOST = false) ∧ (s.eng.modeIn [6, 7, 8] = false) ∧ (s.eng.hears) ∧ (s.eng.trans = Engine.reset.trans) ∧
       (s.eng.opens = [])) ∧
    (let off : BitVec 20 := 0x4530#20
     let q : Nat := 67
     let c : Nat := 1
     let s : State := (wS fun e => { e with mode := .m7 })
     (s.eng.mode ≠ .m0) ∧ (s.eng.mode ≠ .m1) ∧ (off.toNat = (R.QUE_LOST.V q).off) ∧ (Engine.reservedQueue q = true) ∧ (0 < c) ∧ (c < 2 ^ 32) ∧
       (s.eng.modeIn [6, 7, 8] = true) ∧ (s.eng.squall = none) ∧ (s.eng.roomy)) ∧
    (let s : State := State.reset
     (s.eng.mode ≠ .m0)) ∧
    (let s : State := (wS fun e => { e with mode := .m2 })
     (s.eng.mode ≠ .m0) ∧ (s.eng.mode ≠ .m1)) ∧
    (let s : State := (wS fun e => { e with mode := .m6 })
     (s.eng.mode ≠ .m0) ∧ (s.eng.mode ≠ .m1)) ∧
    (let mseq : Nat := 4
     let b : List Byte := List.replicate 128 0xA5
     let s : State := (wS fun e => { e with mode := .m6, mets := { MetSt.init with latest := some (4, List.replicate 128 0xA5) } })
     (s.eng.mode ≠ .m0) ∧ (s.eng.mode ≠ .m1) ∧ (s.eng.mets.latest = some (mseq, b)) ∧ (b.length = 128)) ∧
    (let m : Nat := 4
     let b : List Byte := []
     let held : Bool := false
     let rest : List (Nat × List Byte × Bool) := []
     let s : State := (wS fun e => ({ e with mode := .m6, mets := { MetSt.init with latched := some 4, recv := [(4, [], false)] } } : Engine).wr R.UHP_SELECT.VER 1)
     (s.eng.mode ≠ .m0) ∧ (s.eng.mode ≠ .m1) ∧ (s.eng.ver = 1) ∧ (s.eng.mets.latched = some m) ∧ (s.eng.mets.recv = (m, b, held) :: rest)) ∧
    (let s : State := (wS fun e => { e with mode := .m6 })
     (s.eng.mode ≠ .m0) ∧ (s.eng.mode ≠ .m1) ∧ (s.eng.ver ≠ 1)) ∧
    (let off : BitVec 20 := 0x1001#20
     let size : Nat := 13
     let s : State := State.reset
     (s.eng.mode ≠ .m0) ∧ (¬ (off.toNat % 4 = 0 ∧ size = 4))) := by
  refine ⟨?_, ?_, ?_, ?_, ?_, ?_, ?_, ?_, ?_, ?_⟩ <;> decide +kernel

/-- The hypotheses of ResetsRequested can be met together. -/
theorem witness_ResetsRequested :
    (let value : Word := 0x5AFE0001#32
     let s : State := (wS fun e => { e with mode := .m6 })
     (s.eng.pins.failed = false) ∧ (s.eng.resetting = none) ∧ (s.eng.mode ≠ .m0) ∧ (R.SYS_RESET.KEY.get value = 0x5AFE) ∧ (R.SYS_RESET.SOFT.get value
       = 1)) ∧
    (let value : Word := 0x5AFF0001#32
     let s : State := State.reset
     (s.eng.mode ≠ .m0) ∧ (R.SYS_RESET.KEY.get value ≠ 0x5AFE) ∧ (s.eng.on R.SYS_WRITE_IGNORED.FLAG = false)) ∧
    (let s : State := (wS fun e => { e with mode := .m6 })
     (s.eng.pins.failed = false) ∧ (s.eng.resetting = none)) ∧
    (let s : State := (wS fun e => { e with mode := .m6 })
     (s.eng.pins.failed = false) ∧ (s.eng.resetting = none)) ∧
    (let s : State := (wS fun e => { e with mode := .m6 })
     (s.eng.pins.failed = false) ∧ (s.eng.resetting = none)) ∧
    (let s : State := (wS fun e => { e with mode := .m6 })
     (s.eng.pins.failed = false) ∧ (s.eng.resetting = none)) ∧
    (let q : SquallSt := ⟨5, 0, 0, [], true, 7, true⟩
     let s : State := (wS fun e => { e with mode := .m9, now := 100000007, squall := some ⟨5, 0, 0, [], true, 7, true⟩ })
     (s.eng.pins.failed = false) ∧ (s.eng.resetting = none) ∧ (s.eng.squall = some q) ∧ (q.arbiter = true) ∧ (q.rest = true) ∧ (q.restTime +
       100000000 ≤ s.eng.now)) ∧
    (let t0 : Nat := 7
     let s : State := (wS fun e => { e with mode := .m4, now := 100000007, qdr := { e.qdr with wdogRest := some 7 } })
     (s.eng.pins.failed = false) ∧ (s.eng.resetting = none) ∧ (s.eng.qdr.wdogRest = some t0) ∧ (t0 + 100000000 ≤ s.eng.now)) ∧
    (let r : ResetSt := ⟨[.soft]⟩
     let s : State := (wS fun e => { e with mode := .m6, resetting := some ⟨[.soft]⟩ })
     (s.eng.pins.failed = false) ∧ (s.eng.resetting = some r)) := by
  refine ⟨?_, ?_, ?_, ?_, ?_, ?_, ?_, ?_, ?_⟩ <;> decide +kernel

/-- The hypotheses of ResetsCarriedOut can be met together. -/
theorem witness_ResetsCarriedOut :
    (let r : ResetSt := ⟨[.soft]⟩
     let s : State := (wS fun e => { e with mode := .m6, resetting := some ⟨[.soft]⟩, opens := [⟨3, 1, 5, .resumed true⟩] })
     (s.eng.resetting = some r) ∧ (s.eng.mot.v = 0) ∧ (s.eng.pinHeld = false) ∧ (s.eng.pins.failed = false)) ∧
    (let s : State := (wS fun e => { e with mode := .m6 })
     (s.eng.pinHeld = false)) ∧
    (let s : State := (wS fun e => { e with mode := .m0, pins := ⟨true, false, false, false, 0⟩ })
     (s.eng.mode = .m0) ∧ (s.eng.pins.perstLow = false) ∧ (s.eng.pins.failed = false) ∧ (s.eng.resetting = none)) ∧
    (let s : State := (wS fun e => { e with mode := .m0, pins := ⟨false, true, false, false, 0⟩ })
     (s.eng.mode = .m0) ∧ (s.eng.pins.rstLow = false) ∧ (s.eng.pins.failed = false) ∧ (s.eng.resetting = none)) := by
  refine ⟨?_, ?_, ?_, ?_⟩ <;> decide +kernel

/-- The hypotheses of FirmwareSlots can be met together. -/
theorem witness_FirmwareSlots :
    (let s : State := (wS fun e => ({ e with mode := .m3 } : Engine).wr R.NVM_SLOT.V 1)
     (s.eng.modeIn [3, 11] = true) ∧ (s.eng.on R.NVM_STATUS.BUSY = false) ∧ ((s.eng.on R.SYS_FW.RECOVERY || s.eng.rd R.NVM_SLOT.V !=
       s.eng.flash.running) = true)) ∧
    (let s : State := (wS fun e => (({ e with mode := .m11 } : Engine).wr R.NVM_SLOT.V 1).wr R.NVM_LEN.V 2048)
     (s.eng.modeIn [3, 11] = true) ∧ (s.eng.on R.NVM_STATUS.BUSY = false) ∧ ((s.eng.on R.SYS_FW.RECOVERY || s.eng.rd R.NVM_SLOT.V !=
       s.eng.flash.running) = true) ∧ (4 ≤ s.eng.rd R.NVM_LEN.V) ∧ (s.eng.rd R.NVM_LEN.V ≤ 2048) ∧ (s.eng.rd R.NVM_LEN.V % 4 = 0) ∧ (s.eng.rd
       R.NVM_OFFSET.V % 4 = 0) ∧ (s.eng.rd R.NVM_OFFSET.V + s.eng.rd R.NVM_LEN.V ≤ 16777216)) ∧
    (let s : State := (wS fun e => ({ e with mode := .m3 } : Engine).wr R.NVM_SLOT.V 1)
     (s.eng.modeIn [3, 11] = true) ∧ (s.eng.on R.NVM_STATUS.BUSY = false) ∧ ((s.eng.on R.SYS_FW.RECOVERY || s.eng.rd R.NVM_SLOT.V !=
       s.eng.flash.running) = true)) ∧
    (let s : State := (wS fun e => ({ e with mode := .m3, flash := { FlashSt.init with slots := FlashSt.init.slots.map fun x => { x with verified := true } } } : Engine).wr R.NVM_SLOT.V 1)
     (s.eng.modeIn [3, 11] = true) ∧ (s.eng.on R.NVM_STATUS.BUSY = false) ∧ ((s.eng.on R.SYS_FW.RECOVERY || s.eng.rd R.NVM_SLOT.V !=
       s.eng.flash.running) = true) ∧ ((s.eng.flash.slots[s.eng.rd R.NVM_SLOT.V]?).map SlotSt.verified = some true)) ∧
    (let s : State := (wS fun e => { e with mode := .m3 })
     (s.eng.mode ≠ .m0) ∧ (s.eng.on R.NVM_STATUS.BUSY = false) ∧ (s.eng.on R.SYS_FW.RECOVERY = false) ∧ (s.eng.rd R.NVM_SLOT.V = s.eng.flash.running)) ∧
    (let o : NvmOp := ⟨1, 1, 0, []⟩
     let s : State := (wS fun e => { e with mode := .m3, flash := { FlashSt.init with nvmOp := some ⟨1, 1, 0, []⟩ } })
     (s.eng.flash.nvmOp = some o) ∧ (o.op = 1)) ∧
    (let o : NvmOp := ⟨2, 1, 4, [7, 9, 0, 1]⟩
     let s : State := (wS fun e => { e with mode := .m3, flash := { FlashSt.init with nvmOp := some ⟨2, 1, 4, [7, 9, 0, 1]⟩ } })
     (s.eng.flash.nvmOp = some o) ∧ (o.op = 2)) ∧
    (let o : NvmOp := ⟨4, 1, 0, []⟩
     let s : State := (wS fun e => { e with mode := .m3, flash := { FlashSt.init with nvmOp := some ⟨4, 1, 0, []⟩ } })
     (s.eng.flash.nvmOp = some o) ∧ (o.op = 4)) ∧
    (let o : NvmOp := ⟨3, 0, 0, []⟩
     let s : State := (wS fun e => { e with mode := .m3, flash := { FlashSt.init with nvmOp := some ⟨3, 0, 0, []⟩ } })
     (s.eng.flash.nvmOp = some o)) := by
  refine ⟨?_, ?_, ?_, ?_, ?_, ?_, ?_, ?_, ?_⟩ <;> decide +kernel

/-- The hypotheses of RegisterWrites can be met together. -/
theorem witness_RegisterWrites :
    (let off : BitVec 20 := 0xFFFFC#20
     let s : State := (wS fun e => { e with mode := .m3 })
     (s.eng.mode = .m3 ∨ s.eng.mode = .m11) ∧ (0x80000 ≤ off.toNat) ∧ (off.toNat % 4 = 0)) ∧
    (let off : BitVec 20 := 0x80004#20
     let s : State := (wS fun e => { e with mode := .m6 })
     (s.eng.mode ≠ .m0) ∧ (s.eng.mode ≠ .m1) ∧ (s.eng.mode ≠ .m2) ∧ (s.eng.mode ≠ .m10) ∧ (s.eng.mode ≠ .m3) ∧ (s.eng.mode ≠ .m11) ∧ (0x80000 ≤
       off.toNat) ∧ (off.toNat % 4 = 0) ∧ (s.eng.on R.SYS_WRITE_IGNORED.FLAG = false)) ∧
    (let off : BitVec 20 := 0x100C#20
     let value : Word := 0xC0000001#32
     let r : RegSpec := ((RegMap.find 0x100C).map Prod.fst).getD ⟨"", 0, [], 0, []⟩
     let ix : List Nat := []
     let s : State := (wS fun e => ({ e with mode := .m6 } : Engine).setWord 0x100C 0xE0000001)
     (s.eng.mode ≠ .m0) ∧ (s.eng.mode ≠ .m1) ∧ (s.eng.mode ≠ .m2) ∧ (s.eng.mode ≠ .m10) ∧ (off.toNat % 4 = 0) ∧ (off.toNat < 0x20000) ∧ (RegMap.find
       off.toNat = some (r, ix)) ∧ (s.eng.dieAbsent off.toNat = false) ∧ (ruledRegs.contains r.name = false) ∧ (s.eng.lockedChange r off.toNat value
       = false)) ∧
    (let off : BitVec 20 := 0xD240#20
     let value : Word := 0xFFFFFFFF#32
     let r : RegSpec := ((RegMap.find 0xD240).map Prod.fst).getD ⟨"", 0, [], 0, []⟩
     let ix : List Nat := [1]
     let s : State := (wS fun e => { e with mode := .m6 })
     (s.eng.mode ≠ .m0) ∧ (s.eng.mode ≠ .m1) ∧ (s.eng.mode ≠ .m2) ∧ (s.eng.mode ≠ .m10) ∧ (off.toNat % 4 = 0) ∧ (off.toNat < 0x20000) ∧ (RegMap.find
       off.toNat = some (r, ix)) ∧ (s.eng.dieAbsent off.toNat = false) ∧ (ruledRegs.contains r.name = false) ∧ (s.eng.lockedChange r off.toNat value
       = true) ∧ (s.eng.on R.SYS_WRITE_IGNORED.FLAG = false)) ∧
    (let off : BitVec 20 := 0x5010#20
     let s : State := State.reset
     (s.eng.mode = .m1) ∧ (off.toNat % 4 = 0) ∧ (0x1000 ≤ off.toNat) ∧ (off.toNat / 0x1000 ≠ 0x12) ∧ (∀ c : Fin 64, off.toNat ≠ (R.AFE_CH_CFG.word
       (c.val / 32) (c.val % 32)).off)) ∧
    (let i : Side := 1
     let k : Fin 32 := 31
     let off : BitVec 20 := 0x92F0#20
     let s : State := State.reset
     (s.eng.mode = .m1) ∧ (off.toNat = (R.AFE_CH_CFG.word i.val k.val).off) ∧ (s.eng.on R.SYS_WRITE_IGNORED.FLAG = false)) := by
  refine ⟨?_, ?_, ?_, ?_, ?_, ?_⟩ <;> decide +kernel

/-- The hypotheses of FrontEndRegisters can be met together. -/
theorem witness_FrontEndRegisters :
    (let i : Side := 0
     let s : State := (wS fun e => { wSetup e with mode := .m6 })
     (s.eng.modeIn [3, 4, 5, 6] = true) ∧ (s.eng.afePresent i.val = true)) ∧
    (let i : Side := 0
     let s : State := (wS fun e => { wSetup e with mode := .m7 })
     (s.eng.mode ≠ .m0) ∧ (s.eng.modeIn [3, 4, 5, 6] = false) ∧ (s.eng.afePresent i.val = true) ∧ (s.eng.on R.SYS_WRITE_IGNORED.FLAG = false)) ∧
    (let i : Side := 0
     let value : Word := 0xFFFFFFFF#32
     let s : State := (wS fun e => { wSetup e with mode := .m3 })
     (s.eng.mode = .m3) ∧ (s.eng.afePresent i.val = true) ∧ ((R.AFE_REF_CTRL.MODE i.val).get value ≠ s.eng.rd (R.AFE_REF_CTRL.MODE i.val))) ∧
    (let i : Side := 0
     let value : Word := 0xFFFFFFFF#32
     let s : State := (wS fun e => { wSetup e with mode := .m6 })
     (s.eng.mode ≠ .m0) ∧ (s.eng.mode ≠ .m1) ∧ (s.eng.mode ≠ .m2) ∧ (s.eng.mode ≠ .m10) ∧ (s.eng.mode ≠ .m3) ∧ (s.eng.afePresent i.val = true) ∧
       ((R.AFE_REF_CTRL.MODE i.val).get value ≠ s.eng.rd (R.AFE_REF_CTRL.MODE i.val)) ∧ (s.eng.on R.SYS_WRITE_IGNORED.FLAG = false)) := by
  refine ⟨?_, ?_, ?_, ?_⟩ <;> decide +kernel

/-- The hypotheses of ArbiterRegisters can be met together. -/
theorem witness_ArbiterRegisters :
    (let s : State := (wStream Stream.init)
     (s.eng.mode ≠ .m0) ∧ (s.eng.mode ≠ .m1) ∧ (s.eng.mode ≠ .m2) ∧ (s.eng.mode ≠ .m10)) ∧
    (let s : State := (wS fun e => (({ e with mode := .m6 } : Engine).wr (R.QUE_LEVEL.LEVEL 64) 32).wr (R.QUE_LEVEL.HWM 64) 99)
     (s.eng.mode ≠ .m0) ∧ (s.eng.mode ≠ .m1) ∧ (s.eng.mode ≠ .m2) ∧ (s.eng.mode ≠ .m10)) ∧
    (let value : Word := 0xFFFFFF1B#32
     let s : State := (wS fun e => { e with mode := .m6 })
     (s.eng.mode ≠ .m0) ∧ (s.eng.mode ≠ .m1) ∧ (s.eng.mode ≠ .m2) ∧ (s.eng.mode ≠ .m10) ∧ (([value.toNat % 4, value.toNat / 4 % 4, value.toNat / 16 %
       4, value.toNat / 64 % 4] : List Nat).Nodup)) ∧
    (let value : Word := 0x1A#32
     let s : State := (wS fun e => { e with mode := .m6 })
     (s.eng.mode ≠ .m0) ∧ (s.eng.mode ≠ .m1) ∧ (s.eng.mode ≠ .m2) ∧ (s.eng.mode ≠ .m10) ∧ (¬ ([value.toNat % 4, value.toNat / 4 % 4, value.toNat / 16
       % 4, value.toNat / 64 % 4] : List Nat).Nodup)) ∧
    (let value : Word := (R.ARB_RANKMAP_BCAST.SELB.put (R.ARB_RANKMAP_BCAST.MAP.put 0 0x1B) 1)
     let s : State := (wS fun e => { e with mode := .m6 })
     (s.eng.mode ≠ .m0) ∧ (s.eng.mode ≠ .m1) ∧ (s.eng.mode ≠ .m2) ∧ (s.eng.mode ≠ .m10) ∧ (([R.ARB_RANKMAP_BCAST.MAP.get value % 4,
       R.ARB_RANKMAP_BCAST.MAP.get value / 4 % 4, R.ARB_RANKMAP_BCAST.MAP.get value / 16 % 4, R.ARB_RANKMAP_BCAST.MAP.get value / 64 % 4] : List
       Nat).Nodup)) ∧
    (let s : State := (wS fun e => { e with mode := .m6, qdr := { e.qdr with ports := modAt e.qdr.ports 9 fun q => { q with live := [⟨1, 2 ^ 33 + 7, 3, 4, 5⟩, ⟨6, 7, 8, 9, 10⟩, PortCount.zero, PortCount.zero] } } })
     (s.eng.mode ≠ .m0) ∧ (s.eng.mode ≠ .m1) ∧ (s.eng.mode ≠ .m2) ∧ (s.eng.mode ≠ .m10)) ∧
    (let s : State := (wS fun e => { e with mode := .m6 })
     (s.eng.mode ≠ .m0) ∧ (s.eng.mode ≠ .m1) ∧ (s.eng.mode ≠ .m2) ∧ (s.eng.mode ≠ .m10)) ∧
    (let value : Word := 8#32
     let s : State := (wS fun e => { e with mode := .m3 })
     (s.eng.mode = .m3) ∧ (R.QDR_MAP_REQ.OUT.get value ≠ 0xF)) ∧
    (let value : Word := 15#32
     let s : State := (wS fun e => { e with mode := .m3 })
     (s.eng.mode ≠ .m0) ∧ (s.eng.mode ≠ .m1) ∧ (s.eng.mode ≠ .m2) ∧ (s.eng.mode ≠ .m10) ∧ (s.eng.mode = .m3 → R.QDR_MAP_REQ.OUT.get value = 0xF) ∧
       (R.QDR_MAP_REQ.OUT.get value ≠ s.eng.rd R.QDR_MAP_REQ.OUT) ∧ (s.eng.on R.SYS_WRITE_IGNORED.FLAG = false)) := by
  refine ⟨?_, ?_, ?_, ?_, ?_, ?_, ?_, ?_, ?_⟩ <;> decide +kernel

/-- The hypotheses of SensorDescriptor can be met together. -/
theorem witness_SensorDescriptor :
    (let i : Side := 1
     let s : State := (wS fun e => { e with mode := .m3 })
     (s.eng.mode = .m3) ∧ (s.eng.rd (R.SDB_CTRL.POLICY i.val) ≠ 2)) ∧
    (let i : Side := 1
     let s : State := (wS fun e => e.wr (R.SDB_CTRL.LOAD 1) 1)
     (s.eng.on (R.SDB_CTRL.LOAD i.val) = true)) ∧
    (let i : Side := 1
     let l : List Byte := [0x48, 0x53, 0x44, 0x42, 1, 9]
     let s : State := (wS fun e => e.wr (R.SDB_CTRL.LOAD 1) 1)
     (s.eng.on (R.SDB_CTRL.LOAD i.val) = true) ∧ (Engine.sdbError l ≠ 0)) ∧
    (let i : Side := 1
     let l : List Byte := wSdb
     let s : State := (wS fun e => (e.wr (R.SDB_CTRL.LOAD 1) 1).wr (R.SDB_CTRL.POLICY 1) 1)
     (s.eng.on (R.SDB_CTRL.LOAD i.val) = true) ∧ (Engine.sdbError l = 0) ∧ (s.eng.rd (R.SDB_CTRL.POLICY i.val) ≠ 0) ∧ (s.eng.bestCopy = none)) ∧
    (let i : Side := 1
     let l : List Byte := wSdb
     let s : State := (wS fun e => (e.wr (R.SDB_CTRL.LOAD 1) 1).wr (R.SDB_CTRL.POLICY 1) 0)
     (s.eng.on (R.SDB_CTRL.LOAD i.val) = true) ∧ (Engine.sdbError l = 0) ∧ (s.eng.rd (R.SDB_CTRL.POLICY i.val) = 0) ∧ (s.eng.bestCopy = none)) := by
  refine ⟨?_, ?_, ?_, ?_, ?_⟩ <;> decide +kernel

/-- The hypotheses of RingsEnabled can be met together. -/
theorem witness_RingsEnabled :
    (let r : RingIx := 18
     let value : Word := 0x90400#32
     let s : State := (wS fun e => (({ e with mode := .m3 } : Engine).wr R.UHP_SELECT.VER 3).wr R.UHP_OFFER.VERS 7)
     (s.eng.modeIn [3, 10] = true) ∧ (s.eng.mode = .m3 ∨ r.val ≤ 1) ∧ ((R.UHP_R_CTRL.RESTART r.val).get value = 0) ∧ ((R.UHP_R_CTRL.STOP r.val).get
       value = 0) ∧ (s.eng.rd (R.UHP_R_CTRL.EN r.val) = 0) ∧ (s.eng.verRefused r.val = false) ∧ (r.val ≠ 1) ∧ (3 ≤ r.val → (((s.eng.wr
       (R.UHP_R_CTRL.EN r.val) 1).wr (R.UHP_R_CTRL.QUOTA r.val) ((R.UHP_R_CTRL.QUOTA r.val).get value)).quotaSum) ≤ 1024)) ∧
    (let r : RingIx := 1
     let value : Word := 0xFFFFFFFF#32 - 0x60000000#32
     let s : State := (wS fun e => ({ e with mode := .m3 } : Engine).wr R.UHP_SELECT.VER 3)
     (s.eng.modeIn [3, 10] = true) ∧ ((R.UHP_R_CTRL.RESTART r.val).get value = 0) ∧ ((R.UHP_R_CTRL.STOP r.val).get value = 0) ∧ (s.eng.rd
       (R.UHP_R_CTRL.EN r.val) = 0) ∧ (s.eng.verRefused r.val = false) ∧ (r.val = 1) ∧ (s.eng.qdr.dieFaults = []) ∧ (s.eng.flash.fallback = none)) ∧
    (let r : RingIx := 1
     let value : Word := 0x80000#32
     let d : Nat := 5
     let a : Nat := 77
     let s : State := (wS fun e => ({ ({ e with mode := .m3 } : Engine).wr R.UHP_SELECT.VER 3 with qdr := { e.qdr with dieFaults := [(5, 77)] } } : Engine))
     (s.eng.modeIn [3, 10] = true) ∧ ((R.UHP_R_CTRL.RESTART r.val).get value = 0) ∧ ((R.UHP_R_CTRL.STOP r.val).get value = 0) ∧ (s.eng.rd
       (R.UHP_R_CTRL.EN r.val) = 0) ∧ (s.eng.verRefused r.val = false) ∧ (r.val = 1) ∧ (s.eng.qdr.dieFaults = [(d, a)]) ∧ (s.eng.flash.fallback =
       none) ∧ (s.eng.hears)) ∧
    (let r : RingIx := 4
     let value : Word := 0#32
     let s : State := (wS fun e => (({ e with mode := .m3 } : Engine).wr R.UHP_SELECT.VER 3).wr R.UHP_SELECT.VER 0)
     (s.eng.modeIn [3, 10] = true) ∧ (s.eng.mode = .m3 ∨ r.val ≤ 1) ∧ ((R.UHP_R_CTRL.RESTART r.val).get value = 0) ∧ ((R.UHP_R_CTRL.STOP r.val).get
       value = 0) ∧ (s.eng.rd (R.UHP_R_CTRL.EN r.val) = 0) ∧ (s.eng.verRefused r.val = true)) ∧
    (let r : RingIx := 18
     let value : Word := 0x7FF#32
     let s : State := (wS fun e => ({ e with mode := .m3 } : Engine).wr R.UHP_SELECT.VER 3)
     (s.eng.mode = .m3) ∧ ((R.UHP_R_CTRL.RESTART r.val).get value = 0) ∧ ((R.UHP_R_CTRL.STOP r.val).get value = 0) ∧ (s.eng.rd (R.UHP_R_CTRL.EN
       r.val) = 0) ∧ (s.eng.verRefused r.val = false) ∧ (3 ≤ r.val) ∧ (1024 < (((s.eng.wr (R.UHP_R_CTRL.EN r.val) 1).wr (R.UHP_R_CTRL.QUOTA r.val)
       ((R.UHP_R_CTRL.QUOTA r.val).get value)).quotaSum))) ∧
    (let r : RingIx := 2
     let value : Word := 0x90000#32
     let s : State := (wS fun e => { e with mode := .m10 })
     (s.eng.mode = .m10) ∧ (2 ≤ r.val) ∧ ((R.UHP_R_CTRL.RESTART r.val).get value = 0) ∧ ((R.UHP_R_CTRL.STOP r.val).get value = 0) ∧ (s.eng.rd
       (R.UHP_R_CTRL.EN r.val) = 0)) ∧
    (let r : RingIx := 0
     let value : Word := 0#32
     let s : State := (wS fun e => { e with mode := .m6 })
     (s.eng.modeIn [2, 4, 5, 6, 7, 8, 9, 11] = true) ∧ ((R.UHP_R_CTRL.RESTART r.val).get value = 0) ∧ ((R.UHP_R_CTRL.STOP r.val).get value = 0) ∧
       (s.eng.rd (R.UHP_R_CTRL.EN r.val) = 0) ∧ (s.eng.on R.SYS_WRITE_IGNORED.FLAG = false)) := by
  refine ⟨?_, ?_, ?_, ?_, ?_, ?_, ?_⟩ <;> decide +kernel

/-- The hypotheses of RingsStopped can be met together. -/
theorem witness_RingsStopped :
    (let r : RingIx := 0
     let value : Word := 0#32
     let s : State := (wS fun e => ({ e with mode := .m3, cmdIn := [⟨0, []⟩] } : Engine).wr (R.UHP_R_CTRL.EN 0) 1)
     (s.eng.modeIn [3, 10] = true) ∧ ((R.UHP_R_CTRL.RESTART r.val).get value = 0) ∧ ((R.UHP_R_CTRL.STOP r.val).get value = 0) ∧ (s.eng.rd
       (R.UHP_R_CTRL.EN r.val) = 1) ∧ (r.val < 3)) ∧
    (let r : RingIx := 4
     let value : Word := 0#32
     let s : State := (wS fun e => ({ wSetup { e with mode := .m3 } with streams := modAt e.streams 1 fun _ => { Stream.init with running := true, bufs := [⟨0, 5, 0x1000, 99, 4, false, false, [], none, false, false, false, false, false, .writing, false⟩, ⟨1, 6, 0x2000, 99, 4, false, false, [], none, false, false, false, false, false, .writing, false⟩] } } : Engine).wr (R.UHP_R_CTRL.EN 4) 1 |>.setRing 4 1)
     (s.eng.modeIn [3, 10] = true) ∧ ((R.UHP_R_CTRL.RESTART r.val).get value = 0) ∧ ((R.UHP_R_CTRL.STOP r.val).get value = 0) ∧ (s.eng.rd
       (R.UHP_R_CTRL.EN r.val) = 1) ∧ (3 ≤ r.val) ∧ ((s.eng.stream (r.val - 3)).halted = false) ∧ (((s.eng.stream (r.val - 3)).bufs.all fun b =>
       !b.begun && b.lines.isEmpty && !b.withdrawn && !b.redo && b.confirm == .writing) = true) ∧ ((s.eng.stream (r.val - 3)).bufs.length ≤ 100) ∧ (∀
       c ∈ s.eng.opens, c.wait ≠ .streamFree (r.val - 3) ∧ c.wait ≠ .replay (r.val - 3)) ∧ (s.eng.resetting = none) ∧ (s.eng.pins.failed = false) ∧
       (s.eng.evt.lost = none) ∧ (s.eng.evt.queue.length ≤ 100) ∧ (s.eng.ringState r.val ≠ 6) ∧ (s.eng.ringState r.val ≠ 7)) ∧
    (let r : RingIx := 2
     let s : State := (wS fun e => ({ e with mode := .m6 } : Engine).setRing 2 1)
     (s.eng.preBoot = false) ∧ (s.eng.modeIn [3, 10] = false) ∧ (([1, 2, 3, 4] : List Nat).contains (s.eng.ringState r.val) = true) ∧ (r.val < 3) ∧
       (s.eng.word (R.UHP_R_CTRL.EN r.val).off &&& 0x40000000 = 0)) ∧
    (let r : RingIx := 4
     let s : State := (wS fun e => ({ wSetup { e with mode := .m6 } with streams := modAt e.streams 1 fun _ => { Stream.init with running := true, bufs := [⟨0, 5, 0x1000, 99, 4, false, false, [], none, false, false, false, false, false, .writing, false⟩, ⟨1, 6, 0x2000, 99, 4, false, false, [], none, false, false, false, false, false, .writing, false⟩] } } : Engine).wr (R.UHP_R_CTRL.EN 4) 1 |>.setRing 4 1)
     (s.eng.preBoot = false) ∧ (s.eng.modeIn [3, 10] = false) ∧ (([1, 2, 3] : List Nat).contains (s.eng.ringState r.val) = true) ∧ (s.eng.word
       (R.UHP_R_CTRL.EN r.val).off &&& 0x40000000 = 0) ∧ (3 ≤ r.val) ∧ ((s.eng.stream (r.val - 3)).halted = false) ∧ (((s.eng.stream (r.val -
       3)).bufs.all fun b => !b.begun && b.lines.isEmpty && !b.withdrawn && !b.redo && b.confirm == .writing) = true) ∧ ((s.eng.stream (r.val -
       3)).bufs.length ≤ 100) ∧ (∀ c ∈ s.eng.opens, c.wait ≠ .streamFree (r.val - 3) ∧ c.wait ≠ .replay (r.val - 3)) ∧ (s.eng.resetting = none) ∧
       (s.eng.pins.failed = false) ∧ (s.eng.evt.lost = none) ∧ (s.eng.evt.queue.length ≤ 100)) ∧
    (let r : RingIx := 0
     let s : State := (wS fun e => ({ e with mode := .m6, cmdIn := [⟨0, []⟩] } : Engine).setRing 0 3)
     (s.eng.preBoot = false) ∧ (s.eng.modeIn [3, 10] = false) ∧ (([2, 3, 5] : List Nat).contains (s.eng.ringState r.val) = true) ∧ (s.eng.word
       (R.UHP_R_CTRL.EN r.val).off &&& 0x20000000 = 0) ∧ (r.val = 1 → s.eng.qdr.dieFaults = [] ∧ s.eng.flash.fallback = none)) := by
  refine ⟨?_, ?_, ?_, ?_, ?_⟩ <;> decide +kernel

/-- The hypotheses of Fetching can be met together. -/
theorem witness_Fetching :
    (let r : RingIx := 18
     let value : Word := 0xFFFF0003#32
     let s : State := (wS fun e => e.setRing 18 1)
     (s.eng.ringState r.val ≠ 0) ∧ (value.toNat % 65536 < s.eng.ringSize r.val)) ∧
    (let r : RingIx := 18
     let value : Word := 256#32
     let s : State := (wS fun e => e.setRing 18 1)
     (s.eng.ringState r.val ≠ 0) ∧ (s.eng.ringSize r.val ≤ value.toNat % 65536)) ∧
    (let r : RingIx := 3
     let s : State := State.reset
     (s.eng.ringState r.val = 0)) ∧
    (let r : RingIx := 0
     let s : State := (wS fun e => ((({ e with mode := .m6, link := { e.link with bme := true } } : Engine).wr R.UHP_STATUS.LINK_UP 1).setRing 0 1).wr (R.UHP_R_HOSTIDX.V 0) 20)
     (r.val = 0 ∨ 3 ≤ r.val) ∧ (s.eng.canIssue = true) ∧ (s.eng.ringState r.val = 1) ∧ (s.eng.preBoot = false) ∧ (s.eng.readsOut < s.eng.readMax) ∧
       (s.eng.fetchCount r.val ≠ 0)) ∧
    (let r : RingIx := 0
     let first : Nat := 255
     let k : Nat := 2
     let rest : List (Nat × Nat × Bool) := [(1, 4, false)]
     let s : State := (wS fun e => { e with rings := modAt e.rings 0 fun _ => ⟨5, [(255, 2, true), (1, 4, false)]⟩ })
     (r.val = 0) ∧ ((s.eng.rings.getD r.val ⟨0, []⟩).fetches = (first, k, true) :: rest)) ∧
    (let r : RingIx := 4
     let first : Nat := 3
     let k : Nat := 2
     let rest : List (Nat × Nat × Bool) := []
     let s : State := (wS fun e => { e with rings := modAt e.rings 4 fun _ => ⟨5, [(3, 2, false)]⟩ })
     ((s.eng.rings.getD r.val ⟨0, []⟩).fetches = (first, k, false) :: rest)) ∧
    (let r : RingIx := 4
     let data : List Byte := layBytes 64 [(0, 1, 1), (4, 4, 1), (8, 8, 0x1000), (16, 4, 5000)]
     let first : Nat := 0
     let rest : List (Nat × Nat × Bool) := []
     let s : State := (wS fun e => ({ e with rings := modAt e.rings 4 fun _ => ⟨1, [(0, 1, true)]⟩ } : Engine).wr R.UHP_SELECT.VER 3)
     (3 ≤ r.val) ∧ ((s.eng.rings.getD r.val ⟨0, []⟩).fetches = (first, 1, true) :: rest) ∧ (s.eng.ver ≠ 1) ∧ (leAt (sliceBytes data 0 64) 4 4 =
       (s.eng.ringSeq r.val + 1) % 2 ^ 32)) ∧
    (let r : RingIx := 4
     let data : List Byte := layBytes 64 [(4, 4, 2)]
     let first : Nat := 0
     let rest : List (Nat × Nat × Bool) := []
     let s : State := (wS fun e => (({ e with rings := modAt e.rings 4 fun _ => ⟨1, [(0, 1, true)]⟩ } : Engine).wr R.UHP_SELECT.VER 3).setRing 4 1)
     (3 ≤ r.val) ∧ ((s.eng.rings.getD r.val ⟨0, []⟩).fetches = (first, 1, true) :: rest) ∧ (s.eng.ver ≠ 1) ∧ (leAt (sliceBytes data 0 64) 4 4 ≠
       (s.eng.ringSeq r.val + 1) % 2 ^ 32) ∧ (s.eng.hears)) ∧
    (let r : RingIx := 4
     let first : Nat := 0
     let k : Nat := 4
     let rest : List (Nat × Nat × Bool) := []
     let s : State := (wS fun e => ({ e with rings := modAt e.rings 4 fun _ => ⟨1, [(0, 4, true)]⟩ } : Engine).setRing 4 1)
     ((s.eng.rings.getD r.val ⟨0, []⟩).fetches = (first, k, true) :: rest) ∧ (s.eng.ringState r.val = 1) ∧ (s.eng.hears)) := by
  refine ⟨?_, ?_, ?_, ?_, ?_, ?_, ?_, ?_, ?_⟩ <;> decide +kernel

/-- The hypotheses of CommandsConsumed can be met together. -/
theorem witness_CommandsConsumed :
    (let c : CmdEntry := ⟨0, layBytes 64 [(0, 1, 0x01), (4, 4, 1)]⟩
     let rest : List CmdEntry := []
     let s : State := (wS fun e => ({ e with mode := .m6, cmdIn := [⟨0, layBytes 64 [(0, 1, 0x01), (4, 4, 1)]⟩] } : Engine).wr R.UHP_SELECT.VER 3 |>.setRing 0 1)
     (s.eng.cmdIn = c :: rest) ∧ (s.eng.ringState 0 = 1 ∨ s.eng.ringState 0 = 3) ∧ (leAt (s.eng.entryBytes c.bytes) 4 4 = (s.eng.takenSeq 0 + 1) % 2
       ^ 32) ∧ (s.eng.canTake (Engine.entryHdr (s.eng.entryBytes c.bytes) []) = true) ∧ (s.eng.mirrorFirst = false) ∧ (leAt (s.eng.entryBytes
       c.bytes) 0 1 = 0x01)) ∧
    (let c : CmdEntry := ⟨0, layBytes 64 [(0, 1, 0x03), (4, 4, 1)]⟩
     let rest : List CmdEntry := []
     let s : State := (wS fun e => ({ e with mode := .m6, cmdIn := [⟨0, layBytes 64 [(0, 1, 0x03), (4, 4, 1)]⟩] } : Engine).wr R.UHP_SELECT.VER 3 |>.setRing 0 1)
     (s.eng.cmdIn = c :: rest) ∧ (s.eng.ringState 0 = 1 ∨ s.eng.ringState 0 = 3) ∧ (leAt (s.eng.entryBytes c.bytes) 4 4 = (s.eng.takenSeq 0 + 1) % 2
       ^ 32) ∧ (s.eng.canTake (Engine.entryHdr (s.eng.entryBytes c.bytes) []) = true) ∧ (s.eng.mirrorFirst = false) ∧ (leAt (s.eng.entryBytes
       c.bytes) 0 1 = 0x03)) ∧
    (let c : CmdEntry := ⟨0, layBytes 64 [(0, 1, 0x04), (4, 4, 1)]⟩
     let rest : List CmdEntry := []
     let s : State := (wS fun e => ({ e with mode := .m6, cmdIn := [⟨0, layBytes 64 [(0, 1, 0x04), (4, 4, 1)]⟩] } : Engine).wr R.UHP_SELECT.VER 3 |>.setRing 0 1)
     (s.eng.cmdIn = c :: rest) ∧ (s.eng.ringState 0 = 1 ∨ s.eng.ringState 0 = 3) ∧ (leAt (s.eng.entryBytes c.bytes) 4 4 = (s.eng.takenSeq 0 + 1) % 2
       ^ 32) ∧ (s.eng.canTake (Engine.entryHdr (s.eng.entryBytes c.bytes) []) = true) ∧ (s.eng.mirrorFirst = false) ∧ (leAt (s.eng.entryBytes
       c.bytes) 0 1 = 0x04)) ∧
    (let c : CmdEntry := ⟨0, layBytes 64 [(0, 1, 0x0A), (4, 4, 1)]⟩
     let rest : List CmdEntry := []
     let s : State := (wS fun e => ({ e with mode := .m6, cmdIn := [⟨0, layBytes 64 [(0, 1, 0x0A), (4, 4, 1)]⟩] } : Engine).wr R.UHP_SELECT.VER 3 |>.setRing 0 1)
     (s.eng.cmdIn = c :: rest) ∧ (s.eng.ringState 0 = 1 ∨ s.eng.ringState 0 = 3) ∧ (leAt (s.eng.entryBytes c.bytes) 4 4 = (s.eng.takenSeq 0 + 1) % 2
       ^ 32) ∧ (s.eng.canTake (Engine.entryHdr (s.eng.entryBytes c.bytes) []) = true) ∧ (s.eng.mirrorFirst = false) ∧ (leAt (s.eng.entryBytes
       c.bytes) 0 1 = 0x0A)) ∧
    (let c : CmdEntry := ⟨0, layBytes 64 [(0, 1, 0x17), (4, 4, 1)]⟩
     let rest : List CmdEntry := []
     let s : State := (wS fun e => ({ e with mode := .m6, cmdIn := [⟨0, layBytes 64 [(0, 1, 0x17), (4, 4, 1)]⟩] } : Engine).wr R.UHP_SELECT.VER 3 |>.setRing 0 1)
     (s.eng.cmdIn = c :: rest) ∧ (s.eng.ringState 0 = 1 ∨ s.eng.ringState 0 = 3) ∧ (leAt (s.eng.entryBytes c.bytes) 4 4 = (s.eng.takenSeq 0 + 1) % 2
       ^ 32) ∧ (s.eng.canTake (Engine.entryHdr (s.eng.entryBytes c.bytes) []) = true) ∧ (s.eng.mirrorFirst = false) ∧ (leAt (s.eng.entryBytes
       c.bytes) 0 1 = 0x17)) ∧
    (let c : CmdEntry := ⟨0, layBytes 64 [(0, 1, 0x01), (4, 4, 1)]⟩
     let rest : List CmdEntry := []
     let s : State := (wS fun e => ({ e with mode := .m6, pair := { e.pair with role := 1, st := 3, linkUp := true }, cmdIn := [⟨0, layBytes 64 [(0, 1, 0x01), (4, 4, 1)]⟩] } : Engine).wr R.UHP_SELECT.VER 3 |>.setRing 0 1)
     (s.eng.cmdIn = c :: rest) ∧ (s.eng.ringState 0 = 1 ∨ s.eng.ringState 0 = 3) ∧ (leAt (s.eng.entryBytes c.bytes) 4 4 = (s.eng.takenSeq 0 + 1) % 2
       ^ 32) ∧ (s.eng.canTake (Engine.entryHdr (s.eng.entryBytes c.bytes) []) = true) ∧ (s.eng.mirrorFirst = true) ∧ (leAt (s.eng.entryBytes c.bytes)
       0 1 = 0x01) ∧ (s.eng.pins.failed = false)) ∧
    (let c : CmdEntry := ⟨0, layBytes 64 [(4, 4, 3)]⟩
     let rest : List CmdEntry := []
     let s : State := (wS fun e => ({ e with mode := .m6, cmdIn := [⟨0, layBytes 64 [(4, 4, 3)]⟩] } : Engine).wr R.UHP_SELECT.VER 3 |>.setRing 0 1)
     (s.eng.cmdIn = c :: rest) ∧ (s.eng.ringState 0 = 1) ∧ (leAt (s.eng.entryBytes c.bytes) 4 4 ≠ (s.eng.takenSeq 0 + 1) % 2 ^ 32) ∧ (s.eng.hears)) := by
  refine ⟨?_, ?_, ?_, ?_, ?_, ?_, ?_⟩ <;> decide +kernel

/-- The hypotheses of EngineWrites can be met together. -/
theorem witness_EngineWrites :
    (let s : State := (wS fun e => ({ e with mode := .m6, now := 100000000 } : Engine).wr R.UHP_CTRL.HB_PERIOD 100)
     (s.eng.on R.UHP_CTRL.HB_PERIOD = true) ∧ (s.eng.status.hbEvent + 1000000 * s.eng.rd R.UHP_CTRL.HB_PERIOD ≤ s.eng.now) ∧ (s.eng.hears)) ∧
    (let v : Fin 32 := 3
     let m : MsixEntry := ⟨4096, 9, false, false⟩
     let n : Nat := 0
     let s : State := (wS fun e => ({ e with mode := .m6, link := { e.link with bme := true, vec := modAt e.link.vec 3 fun _ => ⟨none, 1⟩, msix := modAt e.link.msix 3 fun _ => ⟨4096, 9, false, false⟩ } } : Engine).wr R.UHP_STATUS.LINK_UP 1)
     (v.val < 20) ∧ (s.eng.link.vec[v.val]? = some ⟨none, n + 1⟩) ∧ (s.eng.link.msix[v.val]? = some m) ∧ (m.pend = false) ∧ (m.masked = false) ∧
       (s.eng.canIssue = true)) ∧
    (let v : Fin 32 := 3
     let m : MsixEntry := ⟨4096, 9, true, false⟩
     let x : VecSt := ⟨some 0, 2⟩
     let t0 : Nat := 0
     let s : State := (wS fun e => ({ e with mode := .m6, link := { e.link with vec := modAt e.link.vec 3 fun _ => ⟨some 0, 2⟩, msix := modAt e.link.msix 3 fun _ => ⟨4096, 9, true, false⟩ } } : Engine).wr (R.UHP_VEC_MOD.COUNT 3) 2)
     (v.val < 20) ∧ (s.eng.link.vec[v.val]? = some x) ∧ (x.lastMsg = some t0) ∧ (0 < x.entries) ∧ (t0 + 1000 * s.eng.rd (R.UHP_VEC_MOD.HOLDOFF v.val)
       ≤ s.eng.now ∨ (0 < s.eng.rd (R.UHP_VEC_MOD.COUNT v.val) ∧ s.eng.rd (R.UHP_VEC_MOD.COUNT v.val) ≤ x.entries)) ∧ (s.eng.link.msix[v.val]? = some
       m) ∧ (m.pend = false) ∧ (m.masked = true)) ∧
    (let v : Ev := ⟨0x14, 6, 0, none, 1, 0, 2, (layBytes 64 [(24, 4, 9)]).drop 24, .none, false⟩
     let rest : List Ev := []
     let s : State := (wS fun e => (((({ e with mode := .m6, evt := EvtQueue.init, link := { e.link with bme := true, mps := 256 } } : Engine).wr R.UHP_STATUS.LINK_UP 1).emit 0x14 6 0 2 none [(24, 4, 9)]).setRing 1 1).wr (R.UHP_R_HOSTIDX.V 1) 9)
     (s.eng.evt.queue = v :: rest) ∧ (s.eng.canIssue = true) ∧ (s.eng.ringRoom 1 = true) ∧ (v.held = false)) ∧
    (let m : Nat := 4
     let b : List Byte := List.replicate 128 7
     let rest : List (Nat × List Byte × Bool) := []
     let s : State := (wS fun e => (({ ({ e with mode := .m6, link := { e.link with bme := true, mps := 256 } } : Engine).wr R.UHP_STATUS.LINK_UP 1 with mets := { MetSt.init with recv := [(4, List.replicate 128 7, false)] } } : Engine).setRing 2 1).wr (R.UHP_R_HOSTIDX.V 2) 9)
     (s.eng.mets.recv = (m, b, false) :: rest) ∧ (s.eng.canIssue = true) ∧ (s.eng.ringRoom 2 = true)) ∧
    (let s : State := (wS fun e => ({ ({ e with mode := .m6, link := { e.link with bme := true, mps := 256 } } : Engine).wr R.UHP_STATUS.LINK_UP 1 with now := 2000000 } : Engine).wr R.UHP_STATUS_BASE_LO.EN 1)
     (s.eng.canStatus = true) ∧ ((s.eng.syncReady || s.eng.periodicDue || s.eng.entriesDue) = true) ∧ (256 ≤ s.eng.link.mps)) ∧
    (let s : State := (wS fun e => ({ ({ e with mode := .m6, link := { e.link with bme := true, mps := 128 } } : Engine).wr R.UHP_STATUS.LINK_UP 1 with now := 2000000 } : Engine).wr R.UHP_STATUS_BASE_LO.EN 1)
     (s.eng.canStatus = true) ∧ ((s.eng.syncReady || s.eng.periodicDue || s.eng.entriesDue) = true) ∧ (s.eng.link.mps < 256)) := by
  refine ⟨?_, ?_, ?_, ?_, ?_, ?_, ?_⟩ <;> decide +kernel

/-- The hypotheses of LinkStates can be met together. -/
theorem witness_LinkStates :
    (let speed : Fin 6 := 5
     let width : Fin 9 := 8
     let s : State := State.reset
     (s.eng.pins.perstLow = false) ∧ (s.eng.pins.failed = false) ∧ (Engine.linkValid speed.val width.val = true) ∧ (s.eng.on R.UHP_STATUS.LINK_UP =
       false) ∧ (s.eng.link.flrOnUp = false)) ∧
    (let speed : Fin 6 := 1
     let width : Fin 9 := 4
     let s : State := (wS fun e => { e with mode := .m6, link := { e.link with flrOnUp := true } })
     (s.eng.pins.perstLow = false) ∧ (s.eng.pins.failed = false) ∧ (Engine.linkValid speed.val width.val = true) ∧ (s.eng.on R.UHP_STATUS.LINK_UP =
       false) ∧ (s.eng.link.flrOnUp = true) ∧ (s.eng.resetting = none)) ∧
    (let s : State := (wS fun e => e.wr R.UHP_STATUS.LINK_UP 1)
     (s.eng.on R.UHP_STATUS.LINK_UP = true)) ∧
    (let speed : Fin 6 := 4
     let width : Fin 9 := 1
     let s : State := (wS fun e => e.wr R.UHP_STATUS.LINK_UP 1)
     (s.eng.on R.UHP_STATUS.LINK_UP = true) ∧ (Engine.linkValid speed.val width.val = true)) ∧
    (let kind : AerKind := .poisonedBar4
     let s : State := State.reset
     (kind = .ecrc → s.eng.link.ecrcCheck = true)) ∧
    (let s : State := State.reset
     (s.eng.link.ecrcCheck = false)) := by
  refine ⟨?_, ?_, ?_, ?_, ?_, ?_⟩ <;> decide +kernel

/-- The hypotheses of HostSpaces can be met together. -/
theorem witness_HostSpaces :
    (let s : State := (wS fun e => ({ e with mode := .m6, link := { e.link with header := [1, 2, 3, 4], msix := modAt e.link.msix 31 fun _ => ⟨0x500001000, 9, true, true⟩ } } : Engine).setRing 18 1 |>.wr (R.UHP_R_HOSTIDX.V 18) 7)
     (s.eng.mode ≠ .m0)) ∧
    (let r : RingIx := 18
     let value : Word := 0xFFFF0003#32
     let s : State := (wS fun e => ({ e with mode := .m6, link := { e.link with header := [1, 2, 3, 4], msix := modAt e.link.msix 31 fun _ => ⟨0x500001000, 9, true, true⟩ } } : Engine).setRing 18 1 |>.wr (R.UHP_R_HOSTIDX.V 18) 7)
     (s.eng.mode ≠ .m0) ∧ (s.eng.ringState r.val ≠ 0) ∧ (value.toNat % 65536 < s.eng.ringSize r.val)) ∧
    (let s : State := (wS fun e => ({ e with mode := .m6, link := { e.link with header := [1, 2, 3, 4], msix := modAt e.link.msix 31 fun _ => ⟨0x500001000, 9, true, true⟩ } } : Engine).setRing 18 1 |>.wr (R.UHP_R_HOSTIDX.V 18) 7)
     (s.eng.mode ≠ .m0)) ∧
    (let s : State := (wS fun e => ({ e with mode := .m6, link := { e.link with header := [1, 2, 3, 4], msix := modAt e.link.msix 31 fun _ => ⟨0x500001000, 9, true, true⟩ } } : Engine).setRing 18 1 |>.wr (R.UHP_R_HOSTIDX.V 18) 7)
     (s.eng.mode ≠ .m0)) ∧
    (let s : State := (wS fun e => ({ e with mode := .m6, link := { e.link with header := [1, 2, 3, 4], msix := modAt e.link.msix 31 fun _ => ⟨0x500001000, 9, true, true⟩ } } : Engine).setRing 18 1 |>.wr (R.UHP_R_HOSTIDX.V 18) 7)
     (s.eng.mode ≠ .m0)) ∧
    (let s : State := (wS fun e => ({ e with mode := .m6, link := { e.link with header := [1, 2, 3, 4], msix := modAt e.link.msix 31 fun _ => ⟨0x500001000, 9, true, true⟩ } } : Engine).setRing 18 1 |>.wr (R.UHP_R_HOSTIDX.V 18) 7)
     (s.eng.mode ≠ .m0)) ∧
    (let s : State := (wS fun e => ({ e with mode := .m6, link := { e.link with header := [1, 2, 3, 4], msix := modAt e.link.msix 31 fun _ => ⟨0x500001000, 9, true, true⟩ } } : Engine).setRing 18 1 |>.wr (R.UHP_R_HOSTIDX.V 18) 7)
     (s.eng.mode ≠ .m0)) ∧
    (let s : State := (wS fun e => ({ e with mode := .m6, link := { e.link with header := [1, 2, 3, 4], msix := modAt e.link.msix 31 fun _ => ⟨0x500001000, 9, true, true⟩ } } : Engine).setRing 18 1 |>.wr (R.UHP_R_HOSTIDX.V 18) 7)
     (s.eng.mode ≠ .m0)) ∧
    (let s : State := (wS fun e => ({ e with mode := .m6, link := { e.link with header := [1, 2, 3, 4], msix := modAt e.link.msix 31 fun _ => ⟨0x500001000, 9, true, true⟩ } } : Engine).setRing 18 1 |>.wr (R.UHP_R_HOSTIDX.V 18) 7)
     (s.eng.mode ≠ .m0)) ∧
    (let s : State := (wS fun e => ({ e with mode := .m6, link := { e.link with header := [1, 2, 3, 4], msix := modAt e.link.msix 31 fun _ => ⟨0x500001000, 9, true, true⟩ } } : Engine).setRing 18 1 |>.wr (R.UHP_R_HOSTIDX.V 18) 7)
     (s.eng.mode ≠ .m0)) ∧
    (let s : State := (wS fun e => ({ e with mode := .m6, link := { e.link with header := [1, 2, 3, 4], msix := modAt e.link.msix 31 fun _ => ⟨0x500001000, 9, true, true⟩ } } : Engine).setRing 18 1 |>.wr (R.UHP_R_HOSTIDX.V 18) 7)
     (s.eng.mode ≠ .m0)) ∧
    (let s : State := (wS fun e => ({ e with mode := .m6, link := { e.link with header := [1, 2, 3, 4], msix := modAt e.link.msix 31 fun _ => ⟨0x500001000, 9, true, true⟩ } } : Engine).setRing 18 1 |>.wr (R.UHP_R_HOSTIDX.V 18) 7)
     (s.eng.mode ≠ .m0)) ∧
    (let s : State := (wS fun e => ({ e with mode := .m6, link := { e.link with header := [1, 2, 3, 4], msix := modAt e.link.msix 31 fun _ => ⟨0x500001000, 9, true, true⟩ } } : Engine).setRing 18 1 |>.wr (R.UHP_R_HOSTIDX.V 18) 7)
     (s.eng.mode ≠ .m0)) ∧
    (let s : State := (wS fun e => ({ e with mode := .m6, link := { e.link with header := [1, 2, 3, 4], msix := modAt e.link.msix 31 fun _ => ⟨0x500001000, 9, true, true⟩ } } : Engine).setRing 18 1 |>.wr (R.UHP_R_HOSTIDX.V 18) 7)
     (s.eng.mode ≠ .m0)) ∧
    (let s : State := (wS fun e => ({ e with mode := .m6, link := { e.link with header := [1, 2, 3, 4], msix := modAt e.link.msix 31 fun _ => ⟨0x500001000, 9, true, true⟩ } } : Engine).setRing 18 1 |>.wr (R.UHP_R_HOSTIDX.V 18) 7)
     (s.eng.mode ≠ .m0)) ∧
    (let s : State := (wS fun e => ({ e with mode := .m6, link := { e.link with header := [1, 2, 3, 4], msix := modAt e.link.msix 31 fun _ => ⟨0x500001000, 9, true, true⟩ } } : Engine).setRing 18 1 |>.wr (R.UHP_R_HOSTIDX.V 18) 7)
     (s.eng.mode ≠ .m0)) ∧
    (let s : State := (wS fun e => ({ e with mode := .m6, link := { e.link with header := [1, 2, 3, 4], msix := modAt e.link.msix 31 fun _ => ⟨0x500001000, 9, true, true⟩ } } : Engine).setRing 18 1 |>.wr (R.UHP_R_HOSTIDX.V 18) 7)
     (s.eng.mode ≠ .m0)) ∧
    (let s : State := (wS fun e => ({ e with mode := .m6, link := { e.link with header := [1, 2, 3, 4], msix := modAt e.link.msix 31 fun _ => ⟨0x500001000, 9, true, true⟩ } } : Engine).setRing 18 1 |>.wr (R.UHP_R_HOSTIDX.V 18) 7)
     (s.eng.mode ≠ .m0)) ∧
    (let s : State := (wS fun e => ({ e with mode := .m6, link := { e.link with header := [1, 2, 3, 4], msix := modAt e.link.msix 31 fun _ => ⟨0x500001000, 9, true, true⟩ } } : Engine).setRing 18 1 |>.wr (R.UHP_R_HOSTIDX.V 18) 7)
     (s.eng.mode ≠ .m0)) ∧
    (let s : State := (wS fun e => ({ e with mode := .m6, link := { e.link with header := [1, 2, 3, 4], msix := modAt e.link.msix 31 fun _ => ⟨0x500001000, 9, true, true⟩ } } : Engine).setRing 18 1 |>.wr (R.UHP_R_HOSTIDX.V 18) 7)
     (s.eng.mode ≠ .m0)) ∧
    (let sp : HostSpace := .bar2
     let s : State := (wS fun e => { e with mode := .m0 })
     (s.eng.mode = .m0) ∧ (sp ≠ .bar0)) ∧
    (let sp : HostSpace := .config
     let s : State := (wS fun e => { e with mode := .m0 })
     (s.eng.mode = .m0) ∧ (sp ≠ .bar0)) := by
  refine ⟨?_, ?_, ?_, ?_, ?_, ?_, ?_, ?_, ?_, ?_, ?_, ?_, ?_, ?_, ?_, ?_, ?_, ?_, ?_, ?_, ?_, ?_⟩ <;> decide +kernel

/-- The hypotheses of BootLeads can be met together. -/
theorem witness_BootLeads :
    (let f : BootFindings := ⟨1, 2, 3, [true, false], false, true, [], false⟩
     let k : Nat := 0
     let s : State := (wS fun e => { e with mode := .m1 })
     (s.eng.mode = .m1) ∧ (s.eng.resetting = none) ∧ (s.eng.on R.SYS_FW.RECOVERY = false) ∧ (s.eng.pair.bootRole = false) ∧ (s.eng.rd
       R.SYS_RESET_CAUSE.word % 128 ≠ 4) ∧ (s.eng.bootSlot f.flashReadable = some k) ∧ (s.eng.on R.PAIR_CTRL.EN = false) ∧ (f.sectionAnswers = false)) ∧
    (let f : BootFindings := ⟨1, 2, 3, [true, false], true, true, [], true⟩
     let k : Nat := 0
     let s : State := (wS fun e => ({ e with mode := .m1 } : Engine).wr R.PAIR_CTRL.EN 1)
     (s.eng.mode = .m1) ∧ (s.eng.resetting = none) ∧ (s.eng.on R.SYS_FW.RECOVERY = false) ∧ (s.eng.pair.bootRole = false) ∧ (s.eng.rd
       R.SYS_RESET_CAUSE.word % 128 ≠ 4) ∧ (s.eng.bootSlot f.flashReadable = some k) ∧ (s.eng.on R.PAIR_CTRL.EN = true) ∧ (f.peerOwn = true)) ∧
    (let f : BootFindings := ⟨1, 2, 3, [true, false], false, true, [], false⟩
     let s : State := (wS fun e => ({ e with mode := .m1 } : Engine).setWord R.SYS_RESET_CAUSE.word.off 4)
     (s.eng.mode = .m1) ∧ (s.eng.resetting = none) ∧ (s.eng.on R.SYS_FW.RECOVERY = false) ∧ (s.eng.pair.bootRole = false) ∧ (s.eng.rd
       R.SYS_RESET_CAUSE.word = 4) ∧ (s.eng.on R.PAIR_CTRL.EN = false) ∧ (f.sectionAnswers = false)) ∧
    (let f : BootFindings := ⟨1, 2, 3, [true, false], false, false, [], false⟩
     let s : State := (wS fun e => { e with mode := .m1 })
     (s.eng.mode = .m1) ∧ (s.eng.resetting = none) ∧ (s.eng.on R.SYS_FW.RECOVERY = false) ∧ (s.eng.pair.bootRole = false) ∧ (s.eng.rd
       R.SYS_RESET_CAUSE.word % 128 ≠ 4) ∧ (s.eng.bootSlot f.flashReadable = none) ∧ (f.sectionAnswers = false)) := by
  refine ⟨?_, ?_, ?_, ?_⟩ <;> decide +kernel

/-- The hypotheses of PowerFailure can be met together. -/
theorem witness_PowerFailure :
    (let s : State := (wJob .m7 .run)
     (s.eng.pins.failed = false) ∧ (s.sec.pieces = [])) ∧
    (let s : State := (wS fun e => { e with mode := .m0, pins := { e.pins with failed := true }, flash := { e.flash with pfailFlag := true, pfailCnt := 3 } })
     (s.eng.pins.failed = true) ∧ (s.eng.pinHeld = false)) := by
  refine ⟨?_, ?_⟩ <;> decide +kernel

/-- The hypotheses of WakeSteps can be met together. -/
theorem witness_WakeSteps :
    (let s : State := (wS fun e => ({ e with mode := .m2 } : Engine).wr R.SYS_CTRL.WAKE_EN 1)
     (s.eng.mode = .m2) ∧ (s.eng.on R.SYS_CTRL.WAKE_EN = true) ∧ (s.eng.trans.target = none) ∧ (s.eng.resetting = none)) ∧
    (let s : State := (wS fun e => ({ e with mode := .m3 } : Engine).wr R.SYS_CTRL.WAKE_EN 1)
     (s.eng.mode ≠ .m2) ∧ (s.eng.on R.SYS_CTRL.WAKE_EN = true) ∧ (s.eng.resetting = none)) ∧
    (let h : CmdHdr := wHdr
     let s : State := (wS fun e => ({ e with mode := .m3, trans := { e.trans with wokeAt := some e.now } } : Engine).wr R.UHP_SELECT.VER 3)
     (s.eng.accepts h 0x17 [2, 3, 4, 5, 6, 7, 8, 9, 11]) ∧ (s.eng.unused h) ∧ (s.eng.trans.wokeAt = some s.eng.now)) ∧
    (let s : State := (wS fun e => { e with mode := .m2, trans := ⟨some .m6, none, [], some ⟨.m6, false⟩, false, none⟩ })
     (s.eng.mode = .m2) ∧ (s.eng.trans.wake = some ⟨.m6, false⟩) ∧ (s.eng.trans.cmd = none)) ∧
    (let s : State := (wS fun e => { e with mode := .m2, trans := ⟨some .m3, none, [], some ⟨.m3, false⟩, false, none⟩ })
     (s.eng.mode = .m2) ∧ (s.eng.trans.wake = some ⟨.m3, false⟩) ∧ (s.eng.trans.cmd = none) ∧ (s.eng.trans.waiting = [])) ∧
    (let s : State := (wS fun e => ({ e with mode := .m3, trans := ⟨some .m6, none, [], some ⟨.m6, true⟩, false, none⟩ } : Engine).wr R.QDR_STATUS.MAP 0)
     (s.eng.mode = .m3) ∧ (s.eng.trans.wake = some ⟨.m6, true⟩) ∧ (s.eng.rd R.QDR_STATUS.MAP = 0) ∧ (s.eng.trans.cmd = none) ∧ (s.eng.trans.waiting =
       [])) ∧
    (let s : State := (wS fun e => ({ wSetup { e with mode := .m3 } with trans := ⟨some .m6, none, [], some ⟨.m6, true⟩, false, none⟩ } : Engine))
     (s.eng.mode = .m3) ∧ (s.eng.trans.wake = some ⟨.m6, true⟩) ∧ (s.eng.rd R.QDR_STATUS.MAP ≠ 0) ∧ (s.eng.pulseLeds.cfgError 0 = 0) ∧
       (s.eng.pulseLeds.cfgError 1 = 0) ∧ (s.eng.calRefuses = false) ∧ (((s.eng.convSides).any fun i => (s.eng.afeSide i).timedOut) = false)) ∧
    (let s : State := (wS fun e => { e with mode := .m4, trans := ⟨some .m6, none, [], some ⟨.m6, true⟩, true, none⟩ })
     (s.eng.mode = .m4) ∧ (s.eng.trans.target = some .m6) ∧ (s.eng.trans.warming = true) ∧ (s.eng.trans.cmd = none) ∧ (s.eng.trans.waiting = []) ∧
       (s.eng.convMissing = false) ∧ (s.eng.slicesReady = true) ∧ (s.eng.cal.gapStart = none) ∧ (s.eng.hears)) ∧
    (let m : ModeCmd := ⟨4, .m6⟩
     let c : OpenCmd := ⟨4, 1, 0x17, .mode .m6⟩
     let s : State := (wS fun e => { e with mode := .m4, opens := [⟨4, 1, 0x17, .mode .m6⟩], trans := ⟨some .m6, some ⟨4, .m6⟩, [], none, true, none⟩ })
     (s.eng.mode = .m4) ∧ (s.eng.trans.target = some .m6) ∧ (s.eng.trans.warming = true) ∧ (s.eng.trans.cmd = some m) ∧ (s.eng.trans.waiting = []) ∧
       (s.eng.convMissing = false) ∧ (s.eng.slicesReady = true) ∧ (s.eng.cal.gapStart = none) ∧ (s.eng.resetting = none) ∧ (s.eng.pins.failed =
       false) ∧ (s.eng.opens.find? (fun c => c.hseq == m.hseq && c.wait != Wait.built) = some c)) := by
  refine ⟨?_, ?_, ?_, ?_, ?_, ?_, ?_, ?_, ?_⟩ <;> decide +kernel

/-- The hypotheses of EncoderEdges can be met together. -/
theorem witness_EncoderEdges :
    (let enc : Fin 4 := 3
     let s : State := (wS fun e => e.wr (R.EN_CTRL.EN 3) 1 |>.wr (R.EN_COUNT.V 3) 0x7FFFFFFF)
     (s.eng.on (R.EN_CTRL.EN enc.val) = true) ∧ (enc.val ≠ s.eng.trigEnc)) ∧
    (let enc : Fin 4 := 0
     let up : Bool := false
     let s : State := (wS fun e => { wSetup { e with mode := .m7 } with now := 5000000, job := ⟨true, false, 7, false, [], 0, none, none⟩, pac := { PacerSt.init with st := .run }, mot := { MotionSt.init with v := 9000000, pos := 100000, highest := some 3, kept := 4 } })
     (s.eng.on (R.EN_CTRL.EN enc.val) = true) ∧ (enc.val = s.eng.trigEnc) ∧ ((up != s.eng.on (R.EN_CTRL.SWAP enc.val)) = s.eng.on R.LT_CTRL.REV)) ∧
    (let enc : Fin 4 := 0
     let up : Bool := true
     let s : State := (wS fun e => { wSetup { e with mode := .m7 } with now := 5000000, job := ⟨true, false, 7, false, [], 0, none, none⟩, pac := { PacerSt.init with st := .run }, mot := { MotionSt.init with v := 9000000, pos := 1, highest := some 3, kept := 4 } })
     (s.eng.on (R.EN_CTRL.EN enc.val) = true) ∧ (enc.val = s.eng.trigEnc) ∧ ((up != s.eng.on (R.EN_CTRL.SWAP enc.val)) ≠ s.eng.on R.LT_CTRL.REV) ∧
       (s.eng.boundaryAt (s.eng.mot.pos + 256) = none)) ∧
    (let enc : Fin 4 := 0
     let up : Bool := true
     let i : Side := 0
     let t0 : Nat := 4990000
     let s : State := (wS fun e => { wSetup { e with mode := .m7 } with now := 5000000, job := ⟨true, false, 7, false, [], 0, none, none⟩, pac := { PacerSt.init with st := .run }, mot := { MotionSt.init with v := 9000000, lastFwd := true, lastEdge := some 4990000, zeroSince := false, lastFwdEdge := some 4990000, pos := 1, highest := some 3, kept := 4 } })
     (s.eng.on (R.EN_CTRL.EN enc.val) = true) ∧ (enc.val = s.eng.trigEnc) ∧ ((up != s.eng.on (R.EN_CTRL.SWAP enc.val)) ≠ s.eng.on R.LT_CTRL.REV) ∧
       (s.eng.boundaryAt (s.eng.mot.pos + 256) = none) ∧ (s.eng.triggersOn = true) ∧ (s.eng.mot.v ≠ 0) ∧ (s.eng.genRuns i.val = true) ∧ (i.val <
       s.eng.tg.length) ∧ (s.eng.mot.lastFwd = true) ∧ (s.eng.mot.lastEdge.isSome = true) ∧ (s.eng.mot.zeroSince = false) ∧ (s.eng.mot.lastFwdEdge =
       some t0)) ∧
    (let enc : Fin 4 := 0
     let up : Bool := true
     let j : Int := 0
     let i : Side := 0
     let s : State := (wS fun e => ({ wSetup { e with mode := .m7 } with now := 5000000, job := ⟨true, false, 7, false, [], 0, none, none⟩, pac := { PacerSt.init with st := .run }, mot := { MotionSt.init with v := 9000000, pos := 0, highest := none, kept := 0 } } : Engine).wr R.LT_PITCH.PITCH 256)
     (s.eng.on (R.EN_CTRL.EN enc.val) = true) ∧ (enc.val = s.eng.trigEnc) ∧ ((up != s.eng.on (R.EN_CTRL.SWAP enc.val)) ≠ s.eng.on R.LT_CTRL.REV) ∧
       (s.eng.boundaryAt (s.eng.mot.pos + 256) = some j) ∧ (s.eng.triggersOn = true) ∧ (s.eng.mot.highest = none → 0 ≤ j) ∧ (s.eng.mot.highest = none
       ∨ (∃ h ∈ s.eng.mot.highest, (h : Int) < j - s.eng.mot.base)) ∧ (s.eng.on (R.TG_CTRL.EN i.val) = true) ∧ (s.eng.mode = .m7) ∧ (i.val <
       s.eng.tg.length)) ∧
    (let enc : Fin 4 := 0
     let up : Bool := true
     let j : Int := -1
     let s : State := (wS fun e => ({ wSetup { e with mode := .m7 } with now := 5000000, job := ⟨true, false, 7, false, [], 0, none, none⟩, pac := { PacerSt.init with st := .run }, mot := { MotionSt.init with v := 9000000, pos := -256, highest := none, kept := 0 } } : Engine).wr R.LT_PITCH.PITCH 256)
     (s.eng.on (R.EN_CTRL.EN enc.val) = true) ∧ (enc.val = s.eng.trigEnc) ∧ ((up != s.eng.on (R.EN_CTRL.SWAP enc.val)) ≠ s.eng.on R.LT_CTRL.REV) ∧
       (s.eng.boundaryAt (s.eng.mot.pos + 256) = some j) ∧ (s.eng.mot.highest = none) ∧ (j < 0) ∧ (s.eng.mode = .m7)) ∧
    (let enc : Fin 4 := 0
     let up : Bool := true
     let j : Int := 0
     let i : Side := 0
     let h : Nat := 6
     let s : State := (wS fun e => ({ wSetup { e with mode := .m7 } with now := 5000000, job := ⟨true, false, 7, false, [], 0, none, none⟩, pac := { PacerSt.init with st := .run }, mot := { MotionSt.init with v := 9000000, pos := 0, highest := some 6, kept := 7 } } : Engine).wr R.LT_PITCH.PITCH 256)
     (s.eng.on (R.EN_CTRL.EN enc.val) = true) ∧ (enc.val = s.eng.trigEnc) ∧ ((up != s.eng.on (R.EN_CTRL.SWAP enc.val)) ≠ s.eng.on R.LT_CTRL.REV) ∧
       (s.eng.boundaryAt (s.eng.mot.pos + 256) = some j) ∧ (s.eng.triggersOn = true) ∧ (s.eng.mot.highest = some h) ∧ (j - s.eng.mot.base ≤ (h :
       Int)) ∧ (s.eng.on (R.TG_CTRL.EN i.val) = true) ∧ (s.eng.imaging = true) ∧ (i.val < s.eng.tg.length)) ∧
    (let enc : Fin 4 := 2
     let s : State := (wS fun e => (e.wr (R.EN_CTRL.EN 2) 1).wr (R.EN_CTRL.IDX_EN 2) 1)
     (s.eng.on (R.EN_CTRL.EN enc.val) = true) ∧ (s.eng.on (R.EN_CTRL.IDX_EN enc.val) = true)) ∧
    (let enc : Fin 4 := 2
     let s : State := (wS fun e => e.wr (R.EN_CTRL.EN 2) 1)
     (s.eng.on (R.EN_CTRL.EN enc.val) = true) ∧ (enc.val ≠ s.eng.trigEnc ∨ s.eng.modeIn [7, 8] = false ∨ s.eng.job.isOpen = false ∨
       s.eng.mot.encRaised = true)) ∧
    (let enc : Fin 4 := 0
     let s : State := (wS fun e => { wSetup { e with mode := .m7 } with now := 5000000, job := ⟨true, false, 7, false, [], 0, none, none⟩, pac := { PacerSt.init with st := .run }, mot := { MotionSt.init with v := 9000000, pos := 0, highest := none, kept := 0 } })
     (s.eng.on (R.EN_CTRL.EN enc.val) = true) ∧ (enc.val = s.eng.trigEnc) ∧ (s.eng.modeIn [7, 8] = true) ∧ (s.eng.job.isOpen = true) ∧
       (s.eng.mot.encRaised = false) ∧ (s.eng.squall = none) ∧ (s.eng.roomy)) := by
  refine ⟨?_, ?_, ?_, ?_, ?_, ?_, ?_, ?_, ?_, ?_⟩ <;> decide +kernel

/-- The hypotheses of SensorsAndFeeding can be met together. -/
theorem witness_SensorsAndFeeding :
    (let n : Fin 16 := 15
     let level : Bool := true
     let s : State := State.reset
     (bitOf (s.eng.rd R.DI_STATE.V) n.val ≠ (level != s.eng.on (R.DI_CFG.INV n.val))) ∧ (s.eng.job.isOpen = false)) ∧
    (let n : Fin 16 := 3
     let level : Bool := false
     let s : State := State.reset
     (bitOf (s.eng.rd R.DI_STATE.V) n.val = (level != s.eng.on (R.DI_CFG.INV n.val)))) ∧
    (let n : Fin 16 := 7
     let level : Bool := true
     let s : State := (wS fun e => ({ wSetup { e with mode := .m7 } with now := 5000000, job := ⟨true, false, 7, false, [], 0, none, none⟩, pac := { PacerSt.init with st := .run }, feed := { FeedSt.init with gate := true, pend := 2, patterns := [(2, 9)] } } : Engine).wr R.PAC_CTRL.FEED_DI 7)
     (bitOf (s.eng.rd R.DI_STATE.V) n.val ≠ (level != s.eng.on (R.DI_CFG.INV n.val))) ∧ ((level != s.eng.on (R.DI_CFG.INV n.val)) = true) ∧
       (s.eng.mode = .m7) ∧ (s.eng.job.isOpen = true) ∧ (s.eng.job.ended = false) ∧ (s.eng.resetting = none) ∧ (n.val = s.eng.rd R.PAC_CTRL.FEED_DI)
       ∧ (s.eng.on R.PAC_CTRL.FEED_EN = true) ∧ (s.eng.feed.gate = true) ∧ (∀ i ∈ s.eng.sensorSides, s.eng.rd (R.RSM_FRAME_CTRL.DI i) ≠ n.val)) ∧
    (let n : Fin 16 := 2
     let level : Bool := true
     let i : Nat := 0
     let s : State := (wS fun e => ({ wSetup { e with mode := .m7 } with now := 5000000, job := ⟨true, false, 7, false, [], 0, none, none⟩, pac := { PacerSt.init with st := .run } } : Engine).wr (R.EDY_OFS.USED 0 0) 1 |>.wr (R.RSM_FRAME_CTRL.DI 0) 2 |>.wr (R.RSM_FRAME_CTRL.SRC 0) 0)
     (bitOf (s.eng.rd R.DI_STATE.V) n.val ≠ (level != s.eng.on (R.DI_CFG.INV n.val))) ∧ ((level != s.eng.on (R.DI_CFG.INV n.val)) = true) ∧
       (s.eng.mode = .m7) ∧ (s.eng.job.isOpen = true) ∧ (s.eng.job.ended = false) ∧ (s.eng.resetting = none) ∧ (n.val ≠ s.eng.rd R.PAC_CTRL.FEED_DI ∨
       s.eng.on R.PAC_CTRL.FEED_EN = false) ∧ ((s.eng.sensorSides.filter fun j => s.eng.rd (R.RSM_FRAME_CTRL.DI j) == n.val) = [i]) ∧
       ((s.eng.frameSide i).fixed = []) ∧ ((s.eng.frameSide i).cur = none)) ∧
    (let s : State := (wS fun e => { wSetup { e with mode := .m7 } with now := 5000000, job := ⟨true, false, 7, false, [], 0, none, none⟩, pac := { PacerSt.init with st := .run }, feed := { FeedSt.init with pend := 2, patterns := [(2, 9)] } })
     (s.eng.feedDue = true) ∧ (s.eng.feedFree = true)) ∧
    (let s : State := (wS fun e => { wSetup { e with mode := .m7 } with now := 90000000000, job := ⟨true, false, 7, false, [], 0, none, none⟩, pac := { PacerSt.init with st := .run }, feed := { FeedSt.init with gate := true } })
     (s.eng.feed.gate = true) ∧ (s.eng.feed.opened + 1000000 * s.eng.rd R.PAC_FEED_TMO.V ≤ s.eng.now) ∧ (s.eng.hears)) := by
  refine ⟨?_, ?_, ?_, ?_, ?_, ?_⟩ <;> decide +kernel

/-- The hypotheses of PacerPeriods can be met together. -/
theorem witness_PacerPeriods :
    (let s : State := State.reset
     (s.eng.job.isOpen = false) ∧ (s.eng.mot.v = 0)) ∧
    (let s : State := (wS fun e => { wSetup { e with mode := .m6 } with mot := { MotionSt.init with v := 4000000 } })
     (s.eng.job.isOpen = false) ∧ (s.eng.mot.v ≠ 0)) ∧
    (let s : State := (wS fun e => ({ wSetup { e with mode := .m7 } with now := 5000000, job := ⟨true, false, 7, false, [], 0, none, none⟩, pac := { PacerSt.init with st := .run } } : Engine).wr R.PAC_VMIN.V 0 |>.wr R.PAC_SLIP.V 0 |>.wr R.PAC_VJOB.V 500000)
     (s.eng.mode = .m7) ∧ (s.eng.job.isOpen = true) ∧ (s.eng.job.ended = false) ∧ (s.eng.pac.st = .run) ∧ (s.eng.holdInput = false) ∧
       (s.eng.pac.holdGap = false) ∧ (s.eng.rd R.PAC_VMIN.V ≤ (Engine.vTarget s.eng.pace)) ∧ (s.eng.rd R.PAC_SLIP.V = 0)) ∧
    (let s : State := (wS fun e => ({ wSetup { e with mode := .m7 } with now := 5000000, job := ⟨true, false, 7, false, [], 0, none, none⟩, pac := { PacerSt.init with st := .run } } : Engine).wr R.PAC_VMIN.V 0 |>.wr R.PAC_SLIP.V 0 |>.wr R.PAC_VJOB.V 500000 |>.wr R.PAC_CTRL.HOLD_EN 1 |>.wr R.DI_STATE.V 0xFFFF)
     (s.eng.mode = .m7) ∧ (s.eng.job.isOpen = true) ∧ (s.eng.job.ended = false) ∧ (s.eng.resetting = none) ∧ (s.eng.pac.st = .run) ∧ (s.eng.holdInput
       = true) ∧ (s.eng.gapMode = false) ∧ (s.eng.squall = none) ∧ (s.eng.rd R.PAC_SLIP.V = 0) ∧ (s.eng.rd R.PAC_VMIN.V ≤ (Engine.vTarget
       s.eng.pace))) := by
  refine ⟨?_, ?_, ?_, ?_⟩ <;> decide +kernel

/-- The hypotheses of LullAndRestart can be met together. -/
theorem witness_LullAndRestart :
    (let s : State := (wS fun e => { wSetup { e with mode := .m7 } with now := 900000000000, job := ⟨true, false, 7, false, [], 0, none, none⟩, pac := { PacerSt.init with st := .decel, causes := 2 }, mot := { MotionSt.init with kept := 77, pos := 900 } })
     (s.eng.pac.st = .decel) ∧ (s.eng.atRest = true) ∧ (s.eng.mode = .m7) ∧ (s.eng.cal.gapStart = none) ∧ (s.eng.job.closing = false) ∧ (∀ c ∈
       s.eng.opens, c.wait ≠ .holdRest false ∧ c.wait ≠ .release) ∧ (s.eng.roomy)) ∧
    (let t0 : Nat := 5
     let s : State := (wS fun e => { wSetup { e with mode := .m8 } with now := 900000000000, job := ⟨true, false, 7, false, [], 0, none, none⟩, pac := { PacerSt.init with st := .hold, exitSince := some 5 } })
     (s.eng.pac.exitSince = some t0) ∧ (s.eng.mode = .m8) ∧ (s.eng.pac.st = .hold) ∧ (t0 + 100000 ≤ s.eng.now) ∧ (s.eng.exitOk = true)) ∧
    (let s : State := (wS fun e => { wSetup { e with mode := .m8 } with now := 900000000000, job := ⟨true, false, 7, false, [], 0, none, none⟩, pac := { PacerSt.init with st := .back, backFrom := 10 ^ 18 } })
     (s.eng.mode = .m8) ∧ (s.eng.pac.st = .back) ∧ (s.eng.mot.v = 0) ∧ (s.eng.backLeft ≤ 0)) ∧
    (let h : Nat := 3
     let tag : Nat := 4
     let s : State := (wS fun e => { wSetup { e with mode := .m7 } with now := 900000000000, job := ⟨true, false, 7, false, [], 0, none, none⟩, pac := { PacerSt.init with st := .gapStop }, opens := [⟨3, 4, 5, .holdRest true⟩] })
     (s.eng.atRest = true) ∧ (s.eng.mode = .m7) ∧ (s.eng.pac.st = .gapStop) ∧ (s.eng.opens = [⟨h, tag, 0x05, .holdRest true⟩]) ∧ (s.eng.resetting =
       none) ∧ (s.eng.pins.failed = false)) ∧
    (let h : Nat := 3
     let tag : Nat := 4
     let s : State := (wS fun e => { wSetup { e with mode := .m7 } with now := 900000000000, job := ⟨true, false, 7, false, [], 0, none, none⟩, pac := { PacerSt.init with st := .stopping }, opens := [⟨3, 4, 7, .stopRest⟩] })
     (s.eng.atRest = true) ∧ (s.eng.mode = .m7) ∧ (s.eng.pac.st = .stopping) ∧ (s.eng.feed.flight = []) ∧ (s.eng.cal.gapStart = none) ∧
       (s.eng.job.closing = false) ∧ (s.eng.opens = [⟨h, tag, 0x07, .stopRest⟩]) ∧ (s.eng.roomy)) ∧
    (let q : SquallSt := ⟨3, 0, 0, [], false, 0, false⟩
     let s : State := (wS fun e => { wSetup { e with mode := .m7 } with now := 900000000000, job := ⟨true, false, 7, false, [], 0, none, none⟩, pac := { PacerSt.init with st := .squall }, squall := some ⟨3, 0, 0, [], false, 0, false⟩ })
     (s.eng.squall = some q) ∧ (q.rest = false) ∧ (s.eng.atRest = true) ∧ (s.eng.modeIn [6, 7, 8] = true) ∧ (s.eng.job.closing = false)) := by
  refine ⟨?_, ?_, ?_, ?_, ?_, ?_⟩ <;> decide +kernel

/-- The hypotheses of ExposureWindows can be met together. -/
theorem witness_ExposureWindows :
    (let i : Side := 0
     let r : RowIx := 3
     let tr : Trigger := ⟨4, some 4, false, 5⟩
     let s : State := (wS fun e => ({ wSetup { e with mode := .m6 } with now := 900000000, tg := modAt e.tg 0 fun g => { g with slot := some ⟨4, some 4, false, 5⟩ } } : Engine))
     (s.eng.genRuns i.val = true) ∧ ((s.eng.gen i.val).slot = some tr) ∧ (Engine.windowLimit (s.eng.gen i.val) ≤ s.eng.now) ∧ ((s.eng.gen
       i.val).windows.getD r.val none = none) ∧ ((s.eng.gen i.val).stale.getD r.val false = false)) ∧
    (let i : Side := 0
     let r : RowIx := 0
     let p : Nat := 900000100
     let s : State := (wS fun e => ({ wSetup { e with mode := .m6 } with now := 900000000, tg := modAt e.tg 0 fun g => { g with pred := some 900000100 } } : Engine))
     (s.eng.genRuns i.val = true) ∧ ((s.eng.gen i.val).slot = none) ∧ (Engine.trigsOf (s.eng.gen i.val).queue = []) ∧ ((s.eng.gen i.val).stale.getD
       r.val false = false) ∧ ((s.eng.gen i.val).pred = some p) ∧ ((p : Rat) ≤ (s.eng.now : Rat) + s.eng.expNs i.val (s.eng.expAt i.val r.val
       (s.eng.nextIndex i.val)) + 250) ∧ (s.eng.mode ≠ .m5) ∧ (Engine.windowLimit (s.eng.gen i.val) ≤ s.eng.now) ∧ ((s.eng.gen i.val).windows.getD
       r.val none = none)) ∧
    (let i : Side := 0
     let r : RowIx := 3
     let p : Nat := 900000100
     let tr : Trigger := ⟨4, some 4, false, 5⟩
     let more : List Trigger := []
     let s : State := (wS fun e => ({ wSetup { e with mode := .m6 } with now := 900000000, tg := modAt e.tg 0 fun g => { g with pred := some 900000100, queue := [.predict none, .trigger ⟨4, some 4, false, 5⟩] } } : Engine))
     (s.eng.genRuns i.val = true) ∧ ((s.eng.gen i.val).slot = none) ∧ (Engine.trigsOf (s.eng.gen i.val).queue = tr :: more) ∧ ((s.eng.gen
       i.val).stale.getD r.val false = false) ∧ ((s.eng.gen i.val).pred = some p) ∧ ((p : Rat) ≤ (s.eng.now : Rat) + s.eng.expNs i.val (s.eng.expAt
       i.val r.val (s.eng.nextIndex i.val)) + 250) ∧ (Engine.windowLimit (s.eng.gen i.val) ≤ s.eng.now) ∧ ((s.eng.gen i.val).windows.getD r.val none
       = none)) ∧
    (let i : Side := 0
     let r : RowIx := 0
     let w : Window := ⟨5, none, 4, some 4, 160, false, false⟩
     let s : State := (wS fun e => ({ wSetup { e with mode := .m6 } with now := 900000000, tg := modAt e.tg 0 fun g => { g with windows := [some ⟨5, none, 4, some 4, 160, false, false⟩, none, none, none] } } : Engine))
     ((s.eng.gen i.val).windows.getD r.val none = some w) ∧ (w.closed = none) ∧ ((w.opened : Rat) + s.eng.expNs i.val w.exp ≤ (s.eng.now : Rat))) ∧
    (let i : Side := 0
     let tr : Trigger := ⟨4, some 4, false, 5⟩
     let s : State := (wS fun e => ({ wSetup { e with mode := .m6 } with now := 900000000, tg := modAt e.tg 0 fun g => { g with slot := some ⟨4, some 4, false, 5⟩, windows := List.replicate 4 (some ⟨5, some 899999750, 4, some 4, 160, false, false⟩) } } : Engine))
     (s.eng.startReady i.val = true) ∧ ((s.eng.gen i.val).slot = some tr) ∧ ((s.eng.gen i.val).changes = []) ∧ ((s.eng.gen i.val).expgen < 4) ∧
       (s.eng.cal.result = none) ∧ (s.eng.follows i.val = false) ∧ (i.val = 1 ∨ s.eng.follows 1 = false) ∧ (i.val < s.eng.tg.length)) ∧
    (let a : Trigger := ⟨4, some 4, false, 5⟩
     let b : Trigger := ⟨4, some 4, false, 6⟩
     let s : State := (wS fun e => ({ wSetup { e with mode := .m6 } with now := 900000000, tg := modAt (modAt e.tg 1 fun g => { g with slot := some ⟨4, some 4, false, 6⟩ }) 0 fun g => { g with slot := some ⟨4, some 4, false, 5⟩, windows := List.replicate 4 (some ⟨5, some 899999750, 4, some 4, 160, false, false⟩) } } : Engine).wr (R.TG_CTRL.FOLLOW 1) 1 |>.wr (R.TG_CTRL.EN 1) 1)
     (s.eng.startReady 0 = true) ∧ ((s.eng.gen 0).slot = some a) ∧ ((s.eng.gen 1).slot = some b) ∧ (s.eng.cal.result = none) ∧ (s.eng.follows 1 =
       true) ∧ (s.eng.genRuns 1 = true) ∧ ((s.eng.gen 1).run = none) ∧ (1 < s.eng.tg.length)) ∧
    (let s : State := (wS fun e => ({ wSetup { e with mode := .m6 } with now := 900000000, tg := modAt e.tg 0 fun g => { g with  } } : Engine).wr (R.TG_CTRL.FOLLOW 1) 1)
     (s.eng.follows 1 = true)) ∧
    (let i : Side := 0
     let s : State := (wS fun e => ({ wSetup { e with mode := .m6 } with now := 900000000, tg := modAt e.tg 0 fun g => { g with freeSince := 0 } } : Engine).wr (R.TG_CTRL.FLUSH 0) 1)
     (s.eng.genRuns i.val = true) ∧ (s.eng.on (R.TG_CTRL.FLUSH i.val) = true) ∧ ((s.eng.gen i.val).run = none) ∧ ((s.eng.gen i.val).slot = none) ∧
       (s.eng.flushing i.val = false) ∧ ((s.eng.gen i.val).pred = none) ∧ (s.eng.follows i.val = false) ∧ (i.val = 1 ∨ s.eng.follows 1 = false) ∧
       (((s.eng.gen i.val).freeSince : Rat) + (s.eng.rd (R.TG_CTRL.FLUSH i.val) : Rat) * s.eng.lineNs i.val ≤ (s.eng.now : Rat))) ∧
    (let i : Side := 0
     let t0 : Nat := 5
     let s : State := (wS fun e => ({ wSetup { e with mode := .m6 } with now := 900000000, tg := modAt e.tg 0 fun g => { g with drops := ⟨some 5, 9, 3⟩ } } : Engine))
     ((s.eng.gen i.val).drops.last = some t0) ∧ (0 < (s.eng.gen i.val).drops.count) ∧ (t0 + 1000000 ≤ s.eng.now) ∧ (s.eng.hears)) := by
  refine ⟨?_, ?_, ?_, ?_, ?_, ?_, ?_, ?_, ?_⟩ <;> decide +kernel

/-- The hypotheses of ConversionAndSlices can be met together. -/
theorem witness_ConversionAndSlices :
    (let i : Side := 0
     let s : State := (wS fun e => ({ wSetup { e with mode := .m4 } with now := 900000000, afe := modAt e.afe 0 fun a => { a with settleStart := some 5, settleAt := 10 } } : Engine).wr (R.AFE_CTRL.CONV_EN 0) 1)
     (s.eng.conversionReady i.val = true) ∧ (s.eng.chans.length = 64)) ∧
    (let i : Side := 0
     let s : State := (wS fun e => ({ wSetup { e with mode := .m6 } with now := 900000000, chans := modAt e.chans 5 fun h => { h with phases := [0, 1, 2, 3], spareReady := true, since := 100000, rotations := 2 }, tg := modAt e.tg 0 fun g => { g with slot := some ⟨4, some 4, false, 5⟩ } } : Engine).wr (R.AFE_STATUS.CONV_RUN 0) 1 |>.wr (R.TG_CHMAP.EN 0 5) 1 |>.wr (R.AFE_CH_SLICE.SPARE 0 5) 4)
     (s.eng.on (R.AFE_STATUS.CONV_RUN i.val) = true) ∧ ((s.eng.gen i.val).run = none) ∧ ((s.eng.gen i.val).slot ≠ none) ∧ (s.eng.on
       (R.AFE_CTRL.ROT_EN i.val) = true) ∧ (s.eng.refFaulty i.val = false) ∧ (s.eng.chans.length = 64)) ∧
    (let c : Chan := 5
     let x : SliceCorr := ⟨-4096, 10000, -800⟩
     let s : State := (wS fun e => ({ wSetup { e with mode := .m6 } with now := 900000000 } : Engine).wr (R.AFE_STATUS.CONV_RUN 0) 1 |>.wr (R.TG_CHMAP.EN 0 5) 1)
     (s.eng.on (R.AFE_STATUS.CONV_RUN (c.val / 32)) = true) ∧ (s.eng.on (R.TG_CHMAP.EN (c.val / 32) (c.val % 32)) = true) ∧ (s.eng.on
       (R.AFE_CH_SLICE.FAILED (c.val / 32) (c.val % 32)) = false) ∧ ((s.eng.chan c.val).spareReady = false) ∧ (s.eng.refFaulty (c.val / 32) = false)
       ∧ (Engine.sliceFailCode ((s.eng.chan c.val).served.getD (s.eng.spareOf (c.val / 32) (c.val % 32)) none) x = 0)) ∧
    (let c : Chan := 5
     let s : State := (wS fun e => ({ wSetup { e with mode := .m6 } with now := 900000000 } : Engine).wr (R.AFE_STATUS.CONV_RUN 0) 1 |>.wr (R.TG_CHMAP.EN 0 5) 1)
     (s.eng.on (R.AFE_STATUS.CONV_RUN (c.val / 32)) = true) ∧ (s.eng.on (R.TG_CHMAP.EN (c.val / 32) (c.val % 32)) = true) ∧ (s.eng.on
       (R.AFE_CH_SLICE.FAILED (c.val / 32) (c.val % 32)) = false) ∧ ((s.eng.chan c.val).spareReady = false) ∧ (s.eng.refFaulty (c.val / 32) = false)
       ∧ ((s.eng.chan c.val).attempts < 2)) ∧
    (let c : Chan := 5
     let s : State := (wS fun e => ({ wSetup { e with mode := .m6 } with now := 900000000, chans := modAt e.chans 5 fun h => { h with attempts := 2 } } : Engine).wr (R.AFE_STATUS.CONV_RUN 0) 1 |>.wr (R.TG_CHMAP.EN 0 5) 1)
     (s.eng.on (R.AFE_STATUS.CONV_RUN (c.val / 32)) = true) ∧ (s.eng.on (R.TG_CHMAP.EN (c.val / 32) (c.val % 32)) = true) ∧ (s.eng.on
       (R.AFE_CH_SLICE.FAILED (c.val / 32) (c.val % 32)) = false) ∧ ((s.eng.chan c.val).spareReady = false) ∧ (s.eng.refFaulty (c.val / 32) = false)
       ∧ ((s.eng.chan c.val).attempts = 2) ∧ (s.eng.hears)) := by
  refine ⟨?_, ?_, ?_, ?_, ?_⟩ <;> decide +kernel

/-- The hypotheses of Readouts can be met together. -/
theorem witness_Readouts :
    (let i : Side := 0
     let tr : Trigger := ⟨4, some 4, false, 5⟩
     let rest : List TrigPkt := []
     let k : Nat := 4
     let s : State := (wS fun e => ({ wSetup { e with mode := .m6 } with now := 900000000, tg := modAt e.tg 0 fun g => { g with queue := [.trigger ⟨4, some 4, false, 5⟩], lastKept := some 3 } } : Engine))
     ((s.eng.gen i.val).queue = .trigger tr :: rest) ∧ (s.eng.genRuns i.val = true) ∧ ((s.eng.gen i.val).slot = none) ∧ (tr.index = some k) ∧
       ((s.eng.gen i.val).lastKept = none ∨ (s.eng.gen i.val).lastKept = some (k - 1)) ∧ (0 < k ∨ (s.eng.gen i.val).lastKept = none)) ∧
    (let i : Side := 0
     let p : Option Nat := (some 77)
     let rest : List TrigPkt := [.predict none]
     let s : State := (wS fun e => ({ wSetup { e with mode := .m6 } with now := 900000000, mot := { MotionSt.init with v := 5 }, tg := modAt e.tg 0 fun g => { g with queue := [.predict (some 77), .predict none] } } : Engine))
     ((s.eng.gen i.val).queue = .predict p :: rest) ∧ (s.eng.genRuns i.val = true) ∧ (s.eng.mot.v ≠ 0)) ∧
    (let i : Side := 0
     let p : Option Nat := (some 77)
     let rest : List TrigPkt := [.predict none]
     let bad : Nat := 9
     let s : State := (wS fun e => ({ wSetup { e with mode := .m6 } with now := 900000000, tg := modAt e.tg 0 fun g => { g with queue := [.predict (some 77), .predict none] } } : Engine))
     ((s.eng.gen i.val).queue = .predict p :: rest) ∧ (bad ≠ 0)) ∧
    (let i : Side := 0
     let tr : Trigger := ⟨4, none, false, 5⟩
     let rest : List TrigPkt := []
     let old : Trigger := ⟨3, some 3, false, 5⟩
     let s : State := (wS fun e => ({ wSetup { e with mode := .m6 } with now := 900000000, tg := modAt e.tg 0 fun g => { g with queue := [.trigger ⟨4, none, false, 5⟩], slot := some ⟨3, some 3, false, 5⟩ } } : Engine))
     ((s.eng.gen i.val).queue = .trigger tr :: rest) ∧ (s.eng.genRuns i.val = true) ∧ (tr.index = none) ∧ ((s.eng.gen i.val).slot = some old) ∧
       (old.index ≠ none)) ∧
    (let i : Side := 0
     let tr : Trigger := ⟨4, some 4, false, 5⟩
     let rest : List TrigPkt := []
     let old : Trigger := ⟨3, some 3, false, 5⟩
     let j : Nat := 3
     let k : Nat := 4
     let s : State := (wS fun e => ({ wSetup { e with mode := .m6 } with now := 900000000, tg := modAt e.tg 0 fun g => { g with queue := [.trigger ⟨4, some 4, false, 5⟩], slot := some ⟨3, some 3, false, 5⟩, lastKept := some 3 } } : Engine))
     ((s.eng.gen i.val).queue = .trigger tr :: rest) ∧ (s.eng.genRuns i.val = true) ∧ (tr.index = some k) ∧ ((s.eng.gen i.val).slot = some old) ∧
       (old.index = some j) ∧ ((s.eng.gen i.val).lastKept = some j) ∧ (k = j + 1) ∧ (s.eng.on (R.AFE_STATUS.CONV_RUN i.val) = false) ∧ (i.val <
       s.eng.tg.length)) ∧
    (let i : Side := 0
     let tr : Trigger := ⟨4, none, false, 5⟩
     let rest : List TrigPkt := []
     let bad : Nat := 2
     let s : State := (wS fun e => ({ wSetup { e with mode := .m6 } with now := 900000000, tg := modAt e.tg 0 fun g => { g with queue := [.trigger ⟨4, none, false, 5⟩] } } : Engine))
     ((s.eng.gen i.val).queue = .trigger tr :: rest) ∧ (bad ≠ 0)) ∧
    (let i : Side := 0
     let run : LineRun := ⟨⟨4, some 4, false, 5⟩, 10, [0, 0, 0, 0], 0, false, List.replicate 32 (0, 0), List.replicate 32 0x80000000⟩
     let s : State := (wS fun e => ({ wSetup { e with mode := .m6 } with now := 900000000, tg := modAt e.tg 0 fun g => { g with run := some ⟨⟨4, some 4, false, 5⟩, 10, [0, 0, 0, 0], 0, false, List.replicate 32 (0, 0), List.replicate 32 0x80000000⟩ } } : Engine))
     ((s.eng.gen i.val).run = some run) ∧ ((run.start : Rat) + s.eng.lineNs i.val ≤ (s.eng.now : Rat)) ∧ (run.converting = false) ∧ ((s.eng.gen
       i.val).substs = [])) ∧
    (let i : Side := 0
     let run : LineRun := ⟨⟨4, some 4, false, 5⟩, 10, [0, 0, 0, 0], 0, true, List.replicate 32 (0, 0), List.replicate 32 0x80000000⟩
     let s : State := (wS fun e => ({ wSetup { e with mode := .m6 } with now := 900000000, tg := modAt e.tg 0 fun g => { g with run := some ⟨⟨4, some 4, false, 5⟩, 10, [0, 0, 0, 0], 0, true, List.replicate 32 (0, 0), List.replicate 32 0x80000000⟩ } } : Engine).wr (R.TG_CHMAP.EN 0 5) 1 |>.wr (R.TG_LINE_FMT.ACTIVE 0) 64)
     ((s.eng.gen i.val).run = some run) ∧ ((run.start : Rat) + s.eng.lineNs i.val ≤ (s.eng.now : Rat)) ∧ (run.converting = true) ∧ (s.eng.modeIn [7,
       8] = false) ∧ (i.val < s.eng.met.tap.length)) := by
  refine ⟨?_, ?_, ?_, ?_, ?_, ?_, ?_, ?_⟩ <;> decide +kernel

/-- The hypotheses of LightAndReferences can be met together. -/
theorem witness_LightAndReferences :
    (let mw : Nat := 44001
     let s : State := (wJob .m7 .run)
     (44000 < mw) ∧ (s.eng.roomy)) ∧
    (let mw : Nat := 44000
     let s : State := (wJob .m7 .run)
     (mw ≤ 44000)) ∧
    (let bits : Fin 8 := 5
     let s : State := (wJob .m7 .run)
     (bits.val ≠ 0) ∧ (s.eng.hears)) ∧
    (let i : Side := 0
     let s : State := (wS fun e => ({ wSetup { e with mode := .m6 } with now := 100, afe := modAt e.afe 0 fun a => { a with settleStart := some 1, settleAt := 5, refIn := true } } : Engine))
     (s.eng.afePowered i.val = true) ∧ ((s.eng.afeSide i.val).refIn = true) ∧ (s.eng.refExternal i.val = true ∨ s.eng.refSettled i.val = true) ∧
       (s.eng.hears)) ∧
    (let i : Side := 0
     let t0 : Nat := 1
     let s : State := (wS fun e => ({ wSetup { e with mode := .m6 } with now := 100000001, afe := modAt e.afe 0 fun a => { a with settleStart := some 1, settleAt := 999999999 } } : Engine))
     (s.eng.afePowered i.val = true) ∧ (s.eng.refExternal i.val = false) ∧ (s.eng.refSettled i.val = false) ∧ ((s.eng.afeSide i.val).settleStart =
       some t0) ∧ ((s.eng.afeSide i.val).timedOut = false) ∧ (t0 + 100000000 ≤ s.eng.now) ∧ (s.eng.mode ≠ .m4 ∨ s.eng.trans.wake = none) ∧
       (s.eng.hears)) := by
  refine ⟨?_, ?_, ?_, ?_, ?_⟩ <;> decide +kernel

/-- The hypotheses of TapLines can be met together. -/
theorem witness_TapLines :
    (let c : Chan := 5
     let p : TapPkt := ⟨7, 5, 0, false, false, false, false, false, 0, 0, 0, 0, List.replicate 16 ⟨2059, 0, false, false⟩, [⟨46210, 1, false, false⟩, ⟨65535, 2, true, false⟩]⟩
     let rest : List TapPkt := []
     let poison : List Nat := [9, 2, 9, 700]
     let s : State := (wS fun e => ({ wSetup { e with mode := .m6 } with now := 900000000, chans := modAt e.chans 5 fun h => { h with queue := [⟨7, 5, 0, false, false, false, false, false, 0, 0, 0, 0, List.replicate 16 ⟨2059, 0, false, false⟩, [⟨46210, 1, false, false⟩, ⟨65535, 2, true, false⟩]⟩] } } : Engine))
     ((s.eng.chan c.val).queue = p :: rest) ∧ (poison.any (fun w => decide (w < 4)) = true ∨ p.discard = true) ∧ (p.discard = true ∨
       (s.eng.reportsDue (c.val / 32) p.index = false ∧ s.eng.stageHeld c.val = false))) ∧
    (let c : Chan := 5
     let p : TapPkt := ⟨107, 5, 0, false, false, false, false, false, 0, 0, 0, 0, List.replicate 16 ⟨2059, 0, false, false⟩, [⟨46210, 1, false, false⟩, ⟨65535, 2, true, false⟩]⟩
     let rest : List TapPkt := []
     let s : State := (wS fun e => ({ wSetup { e with mode := .m6 } with now := 900000000, chans := modAt e.chans 5 fun h => { h with queue := [⟨107, 5, 0, false, false, false, false, false, 0, 0, 0, 0, List.replicate 16 ⟨2059, 0, false, false⟩, [⟨46210, 1, false, false⟩, ⟨65535, 2, true, false⟩]⟩], means := [(7, 530000), (30, 1)], entered := some 106, owed := [(107, 5)] } } : Engine) |>.wr (R.SHD_CH_TRK.C 5) 527232 |>.wr R.SHD_CTRL.EN 1 |>.wr (R.SHD_KG.KG 0) 16384 |>.setWord 0x8A000 0x50150803 |>.wr R.SHD_CTRL.DEFECT_EN 0 |>.wr R.SHD_TRK_CTRL.K0 6)
     ((s.eng.chan c.val).queue = p :: rest) ∧ (p.discard = false) ∧ ((p.black ++ p.active).all (fun x => !x.poison) = true) ∧ (s.eng.reportsDue
       (c.val / 32) p.index = false) ∧ (s.eng.stageHeld c.val = false) ∧ (s.eng.shd.queued = none) ∧ (s.eng.mode ≠ .m5) ∧ ((s.eng.chan
       c.val).entered.all (fun i => decide (i < p.index)) = true) ∧ ((s.eng.chan c.val).owed.all (fun o => decide (p.index ≤ o.1)) = true) ∧
       (s.eng.shd.fade = none) ∧ (s.eng.cal.gapStart = none) ∧ (s.eng.on R.SHD_CTRL.DEFECT_EN = false)) ∧
    (let c : Chan := 5
     let p : TapPkt := ⟨7, 5, 0, false, false, false, false, false, 0, 0, 0, 0, List.replicate 16 ⟨2059, 0, false, false⟩, [⟨46210, 1, false, false⟩, ⟨65535, 2, true, false⟩]⟩
     let rest : List TapPkt := []
     let s : State := (wS fun e => ({ wSetup { e with mode := .m6 } with now := 900000000, job := ⟨true, false, 7, false, [], 0, none, none⟩, chans := modAt e.chans 5 fun h => { h with queue := [⟨7, 5, 0, false, false, false, false, false, 0, 0, 0, 0, List.replicate 16 ⟨2059, 0, false, false⟩, [⟨46210, 1, false, false⟩, ⟨65535, 2, true, false⟩]⟩] } } : Engine) |>.wr (R.GEO_CTRL.EN 0) 1)
     ((s.eng.chan c.val).queue = p :: rest) ∧ (p.discard = false) ∧ (s.eng.reportsDue (c.val / 32) p.index = true ∨ s.eng.stageHeld c.val = true)) ∧
    (let c : Chan := 5
     let i : Nat := 4
     let tm : Nat := 899999999
     let rest : List (Nat × Nat) := []
     let s : State := (wS fun e => ({ wSetup { e with mode := .m6 } with now := 900000000, chans := modAt e.chans 5 fun h => { h with queue := [], owed := [(4, 899999999)] } } : Engine))
     ((s.eng.chan c.val).owed = (i, tm) :: rest) ∧ ((s.eng.now : Rat) < (tm : Rat) + 2 * s.eng.lineNs (c.val / 32) + 10000)) ∧
    (let c : Chan := 5
     let i : Nat := 4
     let tm : Nat := 5
     let rest : List (Nat × Nat) := [(6, 900)]
     let s : State := (wS fun e => ({ wSetup { e with mode := .m6 } with now := 900000000, chans := modAt e.chans 5 fun h => { h with queue := [], owed := [(4, 5), (6, 900)] } } : Engine)|>.wr (R.AFE_STATUS.CONV_RUN 0) 1)
     ((s.eng.chan c.val).owed = (i, tm) :: rest) ∧ (s.eng.on (R.AFE_STATUS.CONV_RUN (c.val / 32)) = true) ∧ ((tm : Rat) + 2 * s.eng.lineNs (c.val /
       32) + 10000 ≤ (s.eng.now : Rat)) ∧ (s.eng.reportsDue (c.val / 32) i = false) ∧ (s.eng.stageHeld c.val = false) ∧ (s.eng.mode ≠ .m5) ∧
       (s.eng.shd.fade = none) ∧ (s.eng.cal.gapStart = none) ∧ ((s.eng.chan c.val).defects.last.all (fun x => decide (x + 1000000 ≤ s.eng.now)) =
       true) ∧ ((s.eng.chan c.val).defects.count = 0) ∧ (s.eng.hears)) ∧
    (let c : Chan := 5
     let t0 : Nat := 5
     let f : Nat := 9
     let n : Nat := 3
     let s : State := (wS fun e => ({ wSetup { e with mode := .m6 } with now := 900000000, chans := modAt e.chans 5 fun h => { h with queue := [], defects := ⟨some 5, 9, 3⟩ } } : Engine))
     ((s.eng.chan c.val).defects = ⟨some t0, f, n⟩) ∧ (0 < n) ∧ (t0 + 1000000 ≤ s.eng.now) ∧ (s.eng.hears)) ∧
    (let c : Chan := 5
     let t0 : Nat := 899999999
     let f : Nat := 9
     let n : Nat := 3
     let s : State := (wS fun e => ({ wSetup { e with mode := .m6 } with now := 900000000, chans := modAt e.chans 5 fun h => { h with queue := [], defects := ⟨some 899999999, 9, 3⟩ } } : Engine))
     ((s.eng.chan c.val).defects = ⟨some t0, f, n⟩) ∧ (n = 0 ∨ s.eng.now < t0 + 1000000)) := by
  refine ⟨?_, ?_, ?_, ?_, ?_, ?_, ?_⟩ <;> decide +kernel

/-- The hypotheses of RowLinesAndAlignedLines can be met together. -/
theorem witness_RowLinesAndAlignedLines :
    (let i : Side := 0
     let r : RowIx := 2
     let n : Nat := 4
     let s : State := (wS fun e => ({ wSetup { e with mode := .m6 } with chans := (upTo 8).foldl (fun l k => modAt l (16 + k) fun h => { h with done := [⟨4, [2 * k + 1, 1024 + k], { LineFlags.clear with late := true, lateness := 9, ovr := 3 }⟩] }) e.chans } : Engine)|>.wr (R.TG_CHMAP.DIR 0 17) 1 |>.wr (R.TG_LINE_FMT.ACTIVE 0) 2)
     (s.eng.rowChans i.val r.val ≠ []) ∧ (∀ c ∈ s.eng.rowChans i.val r.val, ((s.eng.chan c).done.head?.map fun d => d.index) = some n) ∧
       (s.eng.stagingLive = true) ∧ (s.eng.rowBlocked i.val r.val n = false) ∧ (s.eng.chans.length = 64)) ∧
    (let i : Side := 0
     let r : RowIx := 2
     let n : Nat := 4
     let s : State := (wS fun e => ({ wSetup { e with mode := .m6 } with chans := (upTo 8).foldl (fun l k => modAt l (16 + k) fun h => { h with done := [⟨4, [2 * k + 1, 1024 + k], { LineFlags.clear with late := true, lateness := 9, ovr := 3 }⟩] }) e.chans } : Engine)|>.wr (R.TG_CHMAP.DIR 0 17) 1 |>.wr (R.TG_LINE_FMT.ACTIVE 0) 2 |>.wr R.QDR_STATUS.HALT 1)
     (s.eng.rowChans i.val r.val ≠ []) ∧ (∀ c ∈ s.eng.rowChans i.val r.val, ((s.eng.chan c).done.head?.map fun d => d.index) = some n) ∧
       (s.eng.stagingLive = false) ∧ (s.eng.chans.length = 64)) ∧
    (let i : Side := 0
     let r : RowIx := 2
     let n : Nat := 68
     let s : State := (wS fun e => ({ wSetup { e with mode := .m6 } with chans := (upTo 8).foldl (fun l k => modAt l (16 + k) fun h => { h with done := [⟨68, [2 * k + 1, 1024 + k], { LineFlags.clear with late := true, lateness := 9, ovr := 3 }⟩] }) e.chans } : Engine)|>.wr (R.TG_CHMAP.DIR 0 17) 1 |>.wr (R.TG_LINE_FMT.ACTIVE 0) 2)
     (s.eng.rowChans i.val r.val ≠ []) ∧ (∀ c ∈ s.eng.rowChans i.val r.val, ((s.eng.chan c).done.head?.map fun d => d.index) = some n) ∧
       (s.eng.rowBlocked i.val r.val n = true)) ∧
    (let i : Side := 0
     let n : Nat := 4
     let s : State := ({ wS (fun e => ({ wSetup { e with mode := .m6 } with eddy := modAt e.eddy 0 fun y => { y with next := 4, written := [some 4, none, none, none] }, gus := modAt e.gus 0 fun u => { u with runs := [⟨1, 0, none, 0, [(0, 0)], false⟩] } } : Engine)|>.wr (R.EDY_OFS.USED 0 0) 1) with stg := State.reset.stg.putMany (Engine.eddyAddr 0 0 4) [some 5, some 1, some 7] })
     (s.eng.alignedReady i.val n = true) ∧ (s.eng.resetting = none) ∧ ((s.eng.eddySide i.val).reading = false) ∧ ((s.eng.eddySide i.val).next = n)) ∧
    (let i : Side := 0
     let s : State := ({ wS (fun e => (({ wSetup { e with mode := .m6 } with eddy := modAt e.eddy 0 fun y => { y with next := 4, written := [some 4, none, none, none], reading := true }, gus := modAt e.gus 0 fun u => { u with runs := [⟨1, 0, none, 0, [(0, 0)], false⟩] } } : Engine).raiseRange false 3 0 32 [] (.align 0))|>.wr (R.EDY_OFS.USED 0 0) 1) with stg := State.reset.stg.putMany (Engine.eddyAddr 0 0 4) [some 5, some 1, some 7] })
     ((s.eng.eddySide i.val).reading = true) ∧ (s.eng.standing (fun w => w == .align i.val) = true)) ∧
    (let i : Side := 0
     let n : Nat := 4
     let s : State := ({ wS (fun e => ({ wSetup { e with mode := .m6 } with eddy := modAt e.eddy 0 fun y => { y with next := 4, written := [some 4, none, none, none], reading := true }, gus := modAt e.gus 0 fun u => { u with runs := [⟨1, 0, none, 0, [(0, 0)], false⟩] } } : Engine)|>.wr (R.EDY_OFS.USED 0 0) 1) with stg := State.reset.stg.putMany (Engine.eddyAddr 0 0 4) [some 5, some 1, some 7] })
     (s.eng.alignedReady i.val n = true) ∧ (s.eng.resetting = none) ∧ ((s.eng.eddySide i.val).reading = true) ∧ (s.eng.standing (fun w => w == .align
       i.val) = false) ∧ ((s.eng.eddySide i.val).next = n) ∧ ((s.eng.eddySide i.val).finish = none) ∧ ((s.eng.eddySide i.val).first ≤ n) ∧ (i.val <
       s.eng.eddy.length) ∧ (s.eng.geoRuns i.val = false) ∧ (∀ m : Fin 16, s.eng.on (R.MON_CTRL.EN m.val) = false ∧ (s.eng.monOf m.val).enabled =
       false) ∧ ((s.eng.frameSide i.val).cur = none) ∧ ((s.eng.frameSide i.val).fixed = []) ∧ (∀ r ∈ (s.eng.usedRows i.val), (s.eng.planePixels s.stg
       i.val r n).all (fun v => !v.2) = true)) ∧
    (let i : Side := 0
     let n : Nat := 4
     let l : Nat := 9
     let f : Frame := ⟨1, some 9, 0, false⟩
     let s : State := ({ wS (fun e => ({ wSetup { e with mode := .m6 } with eddy := modAt e.eddy 0 fun y => { y with next := 4, written := [some 4, none, none, none], reading := true }, gus := modAt e.gus 0 fun u => { u with runs := [⟨1, 0, none, 0, [(0, 0)], false⟩] }, frames := modAt e.frames 0 fun x => { x with cur := some ⟨1, some 9, 0, false⟩ } } : Engine)|>.wr (R.EDY_OFS.USED 0 0) 1 |>.wr (R.RSM_FRAME_CTRL.SRC 0) 1) with stg := State.reset.stg.putMany (Engine.eddyAddr 0 0 4) [some 5, some 1, some 7] })
     (s.eng.alignedReady i.val n = true) ∧ (s.eng.resetting = none) ∧ ((s.eng.eddySide i.val).reading = true) ∧ (s.eng.standing (fun w => w == .align
       i.val) = false) ∧ ((s.eng.eddySide i.val).next = n) ∧ ((s.eng.eddySide i.val).finish = none) ∧ ((s.eng.eddySide i.val).first ≤ n) ∧ (i.val <
       s.eng.eddy.length) ∧ (s.eng.geoRuns i.val = false) ∧ (∀ m : Fin 16, s.eng.on (R.MON_CTRL.EN m.val) = false ∧ (s.eng.monOf m.val).enabled =
       false) ∧ ((s.eng.frameSide i.val).cur = some f) ∧ (f.last = some l) ∧ (n < l) ∧ (s.eng.jobFramed i.val = true) ∧ (∀ r ∈ (s.eng.usedRows
       i.val), (s.eng.planePixels s.stg i.val r n).all (fun v => !v.2) = true)) ∧
    (let i : Side := 1
     let s : State := State.reset
     (s.eng.alignedReady i.val (s.eng.eddySide i.val).next = false)) ∧
    (let m : Fin 16 := 15
     let v : Nat := 65536
     let px : Nat := 700
     let idx : Nat := 2000
     let out : Bool := true
     let s : State := (wS fun e => { wSetup { e with mode := .m6 } with now := 2000000, mon := modAt e.mon 15 fun x => { x with held := true, heldResult := (65536, true, 700, 2000), heldFolds := 3, lastEvt := some 999999 } })
     ((s.eng.monOf m.val).held = true) ∧ ((s.eng.monOf m.val).heldResult = (v, out, px, idx)) ∧ ((s.eng.monOf m.val).lastEvt.all (fun x => decide (x
       + 1000000 ≤ s.eng.now)) = true) ∧ (s.eng.hears)) := by
  refine ⟨?_, ?_, ?_, ?_, ?_, ?_, ?_, ?_, ?_⟩ <;> decide +kernel

/-- The hypotheses of OutputLinesAndPages can be met together. -/
theorem witness_OutputLinesAndPages :
    (let g : Fin 8 := 0
     let n : StreamIx := 0
     let r : GuRun := ⟨1, 7, none, 0, [(0, 0)], false⟩
     let rest : List GuRun := []
     let c : Nat := 0
     let p : Nat := 100000700
     let o : Engine.OutLine := (((wS fun e => (({ wSetup { e with mode := .m6 } with streams := modAt e.streams 0 fun _ => { Stream.init with running := true, joined := true, place := some 100000700 }, gus := modAt e.gus 0 fun u => { u with hist := [⟨7, [List.replicate 32 40000, [], [], []], [{ LineFlags.clear with late := true, lateness := 9, ovr := 3 }, LineFlags.clear, LineFlags.clear, LineFlags.clear]⟩], runs := [⟨1, 7, none, 0, [(0, 0)], false⟩] } } : Engine)|>.wr (R.GU_XWIN.W 0) 8 |>.wr (R.GU_XWIN.X0 0) 0 |>.wr (R.GU_CTRL.YEN 0) 0 |>.wr (R.STR_XCROP.W 0) 4)).eng.outLine 0 ⟨1, 7, none, 0, [(0, 0)], false⟩).getD ⟨0, [], []⟩)
     let s : State := (wS fun e => (({ wSetup { e with mode := .m6 } with streams := modAt e.streams 0 fun _ => { Stream.init with running := true, joined := true, place := some 100000700 }, gus := modAt e.gus 0 fun u => { u with hist := [⟨7, [List.replicate 32 40000, [], [], []], [{ LineFlags.clear with late := true, lateness := 9, ovr := 3 }, LineFlags.clear, LineFlags.clear, LineFlags.clear]⟩], runs := [⟨1, 7, none, 0, [(0, 0)], false⟩] } } : Engine)|>.wr (R.GU_XWIN.W 0) 8 |>.wr (R.GU_XWIN.X0 0) 0 |>.wr (R.GU_CTRL.YEN 0) 0 |>.wr (R.STR_XCROP.W 0) 4))
     (s.eng.resetting = none) ∧ (s.eng.stagingLive = true) ∧ (s.eng.unitHeld g.val = false) ∧ ((s.eng.stream n.val).place = some p) ∧ ((s.eng.gu
       g.val).runs = r :: rest) ∧ (r.last = none) ∧ (r.resumed = false) ∧ (r.streams = [(n.val, c)]) ∧ (s.eng.outLine g.val r = some o) ∧
       ((s.eng.stream n.val).running = true) ∧ (s.eng.takesLine n.val o = true) ∧ (s.eng.rd (R.STR_YCROP.FIRST n.val) ≤ c) ∧ (s.eng.rd
       (R.STR_YCROP.COUNT n.val) = 0) ∧ (s.eng.job.closing = false)) ∧
    (let g : Fin 8 := 0
     let s : State := (wS fun e => (({ wSetup { e with mode := .m6 } with gus := modAt e.gus 0 fun u => { u with runs := [⟨1, 7, none, 0, [(0, 0)], false⟩] } } : Engine).raiseStage true 0 32 [] (.stage 0 0)))
     (s.eng.unitHeld g.val = true)) ∧
    (let g : Fin 8 := 7
     let s : State := State.reset
     ((s.eng.gu g.val).runs = []) ∧ (s.eng.job.closing = false)) ∧
    (let n : StreamIx := 0
     let l : StageLine := ⟨[9, 8, 7], 4, 1, false, false, false, false, false, 99999999, 1⟩
     let s : State := (wStream { Stream.init with stage := [⟨[1, 2], 3, 1, true, false, false, false, true, 99999997, 0⟩, ⟨[9, 8, 7], 4, 1, false, false, false, false, false, 99999999, 1⟩], place := some 100000002 })
     (((s.eng.stream n.val).stage.find? fun x => !x.committed) = some l) ∧ (s.eng.stagingLive = true) ∧ (s.eng.resetting = none) ∧ (s.eng.standing
       (fun w => w == .stage n.val l.place) = false)) ∧
    (let n : StreamIx := 0
     let l : StageLine := ⟨[9, 8, 7], 4, 1, false, false, false, false, false, 99999999, 1⟩
     let s : State := ({ wStream { Stream.init with stage := [⟨[1, 2], 3, 1, true, false, false, false, true, 99999997, 0⟩, ⟨[9, 8, 7], 4, 1, false, false, false, false, false, 99999999, 1⟩], place := some 100000002 } with eng := (wStream { Stream.init with stage := [⟨[1, 2], 3, 1, true, false, false, false, true, 99999997, 0⟩, ⟨[9, 8, 7], 4, 1, false, false, false, false, false, 99999999, 1⟩], place := some 100000002 }).eng.wr R.QDR_STATUS.HALT 1 })
     (((s.eng.stream n.val).stage.find? fun x => !x.committed) = some l) ∧ (s.eng.standing (fun w => w == .stage n.val l.place) = true ∨
       s.eng.stagingLive = false)) ∧
    (let i : Side := 0
     let no : Nat := 1
     let first : Nat := 7
     let last : Nat := 20
     let back : Int := 900
     let rest : List (Nat × Nat × Nat × Int) := []
     let p : Page := ⟨1, 7, some 20, true, true, false, false, false, false, none, []⟩
     let s : State := (wS fun e => ({ wSetup { e with mode := .m6 } with frames := modAt e.frames 0 fun x => { x with pages := [⟨1, 7, some 20, true, true, false, false, false, false, none, []⟩] }, geo := modAt e.geo 0 fun g => { g with busy := [(1, 7, 20, 900)] } } : Engine) |>.wr (R.GEO_CTRL.EN 0) 0)
     ((s.eng.geoSide i.val).busy = (no, first, last, back) :: rest) ∧ (((s.eng.frameSide i.val).pages.find? fun q => q.no == no && q.closed &&
       q.geometry.isNone) = some p)) ∧
    (let i : Side := 0
     let p : Page := ⟨1, 7, some 20, true, true, false, false, false, false, some ((upTo 40).map fun k => BitVec.ofNat 8 (k + 1)), []⟩
     let rest : List Page := []
     let l : List Byte := (upTo 40).map fun k => BitVec.ofNat 8 (k + 1)
     let s : State := (wS fun e => ({ wSetup { e with mode := .m6 } with frames := modAt e.frames 0 fun x => { x with pages := [⟨1, 7, some 20, true, true, false, false, false, false, some ((upTo 40).map fun k => BitVec.ofNat 8 (k + 1)), []⟩] }, geo := modAt e.geo 0 fun g => { g with busy := [(1, 7, 20, 900)] } } : Engine))
     ((s.eng.frameSide i.val).pages = p :: rest) ∧ (p.geometry = some l) ∧ (s.eng.pageHeld i.val p.no = false) ∧ (s.eng.pageRendering i.val p.no =
       false) ∧ (l.length = 40) ∧ (s.eng.job.closing = false) ∧ (s.eng.on R.CAL_STATUS.PENDING = false) ∧ (∀ n : Fin 16, (s.eng.stream n.val).bufs =
       []) ∧ (s.eng.opens = []) ∧ (s.eng.hears)) := by
  refine ⟨?_, ?_, ?_, ?_, ?_, ?_, ?_⟩ <;> decide +kernel

/-- The hypotheses of PortArbiters can be met together. -/
theorem witness_PortArbiters :
    (let p : PortIx := 3
     let b : Burst := ⟨8388608, 2, (List.replicate 32 (some 1)) ++ some 7 :: none :: List.replicate 30 (some 9), .other, true⟩
     let rest : List Burst := []
     let s : State := (wS fun e => ({ wSetup { e with mode := .m6 } with qdr := { e.qdr with ports := modAt e.qdr.ports 3 fun q => { q with owner := 2, granted := true, bursts := [[], [], [⟨8388608, 2, (List.replicate 32 (some 1)) ++ some 7 :: none :: List.replicate 30 (some 9), .other, true⟩], []], txns := [0, 0, 0, 0], tenures := [0, 0, 1, 0] } } } : Engine))
     (p.val < 8) ∧ (s.eng.stagingLive = true) ∧ (∀ q : Fin 16, s.eng.overTenure q.val = none) ∧ (s.eng.portIn p.val = true) ∧ (s.eng.slotMode p.val =
       false) ∧ (s.eng.qdr.ports.length = 16) ∧ ((s.eng.port p.val).bursts.length = 4) ∧ ((s.eng.port p.val).txns.length = 4) ∧ ((s.eng.port
       p.val).tenures.length = 4) ∧ (∀ c : Fin 4, s.eng.inputOf p.val c.val < 4) ∧ ((s.eng.port p.val).live.length = 4) ∧ ((s.eng.port p.val).granted
       = true) ∧ (0 < (s.eng.port p.val).tenures.getD (s.eng.port p.val).owner 0) ∧ (((s.eng.port p.val).bursts.getD (s.eng.port p.val).owner []) = b
       :: rest) ∧ (∀ c : Fin 4, Engine.raisedAt (s.eng.port p.val) c.val = true → s.eng.inputOf p.val c.val ≤ s.eng.inputOf p.val (s.eng.port
       p.val).owner) ∧ ((s.eng.port p.val).txns.getD (s.eng.port p.val).owner 0 + 1 < b.txns)) ∧
    (let p : PortIx := 3
     let b : Burst := ⟨8388608, 2, (List.replicate 32 (some 1)) ++ some 7 :: none :: List.replicate 30 (some 9), .other, true⟩
     let rest : List Burst := []
     let s : State := (wS fun e => ({ wSetup { e with mode := .m6 } with qdr := { e.qdr with ports := modAt e.qdr.ports 3 fun q => { q with owner := 2, granted := true, bursts := [[], [], [⟨8388608, 2, (List.replicate 32 (some 1)) ++ some 7 :: none :: List.replicate 30 (some 9), .other, true⟩], []], txns := [0, 0, 1, 0], tenures := [0, 0, 1, 0] } } } : Engine))
     (p.val < 8) ∧ (s.eng.stagingLive = true) ∧ (∀ q : Fin 16, s.eng.overTenure q.val = none) ∧ (s.eng.portIn p.val = true) ∧ (s.eng.slotMode p.val =
       false) ∧ (s.eng.qdr.ports.length = 16) ∧ ((s.eng.port p.val).bursts.length = 4) ∧ ((s.eng.port p.val).txns.length = 4) ∧ ((s.eng.port
       p.val).tenures.length = 4) ∧ (∀ c : Fin 4, s.eng.inputOf p.val c.val < 4) ∧ ((s.eng.port p.val).live.length = 4) ∧ ((s.eng.port p.val).granted
       = true) ∧ (0 < (s.eng.port p.val).tenures.getD (s.eng.port p.val).owner 0) ∧ (((s.eng.port p.val).bursts.getD (s.eng.port p.val).owner []) = b
       :: rest) ∧ (∀ c : Fin 4, Engine.raisedAt (s.eng.port p.val) c.val = true → s.eng.inputOf p.val c.val ≤ s.eng.inputOf p.val (s.eng.port
       p.val).owner) ∧ ((s.eng.port p.val).txns.getD (s.eng.port p.val).owner 0 + 1 = b.txns) ∧ (b.what = .other)) ∧
    (let p : PortIx := 9
     let c : Nat := 3
     let b : Burst := ⟨256, 8, [], .other, false⟩
     let rest : List Burst := []
     let s : State := (wS fun e => ({ wSetup { e with mode := .m6 } with qdr := { e.qdr with ports := modAt e.qdr.ports 9 fun q => { q with owner := 1, granted := true, bursts := [[], [⟨256, 8, [], .other, false⟩], [], [⟨256, 8, [], .other, false⟩]], txns := [0, 5, 0, 0], tenures := [0, 6, 0, 0] } } } : Engine))
     (s.eng.stagingLive = true) ∧ (∀ q : Fin 16, s.eng.overTenure q.val = none) ∧ (s.eng.portIn p.val = true) ∧ (s.eng.slotMode p.val = false) ∧
       (s.eng.qdr.ports.length = 16) ∧ ((s.eng.port p.val).bursts.length = 4) ∧ ((s.eng.port p.val).txns.length = 4) ∧ ((s.eng.port
       p.val).tenures.length = 4) ∧ (∀ c : Fin 4, s.eng.inputOf p.val c.val < 4) ∧ ((s.eng.port p.val).live.length = 4) ∧ ((s.eng.port p.val).granted
       = true) ∧ (0 < (s.eng.port p.val).tenures.getD (s.eng.port p.val).owner 0) ∧ (((s.eng.port p.val).bursts.getD (s.eng.port p.val).owner []) = b
       :: rest) ∧ (s.eng.highest p.val = some c) ∧ (s.eng.inputOf p.val (s.eng.port p.val).owner < s.eng.inputOf p.val c) ∧ (∀ x ∈ (s.eng.port
       p.val).bursts.getD c [], x.what = .other)) ∧
    (let p : PortIx := 9
     let c : Nat := 3
     let s : State := (wS fun e => ({ wSetup { e with mode := .m6 } with qdr := { e.qdr with ports := modAt e.qdr.ports 9 fun q => { q with owner := 1, bursts := [[], [], [], [⟨256, 8, [], .other, false⟩]] } } } : Engine))
     (s.eng.stagingLive = true) ∧ (∀ q : Fin 16, s.eng.overTenure q.val = none) ∧ (s.eng.portIn p.val = true) ∧ (s.eng.slotMode p.val = false) ∧
       (s.eng.qdr.ports.length = 16) ∧ ((s.eng.port p.val).bursts.length = 4) ∧ ((s.eng.port p.val).txns.length = 4) ∧ ((s.eng.port
       p.val).tenures.length = 4) ∧ (∀ c : Fin 4, s.eng.inputOf p.val c.val < 4) ∧ ((s.eng.port p.val).live.length = 4) ∧ ((s.eng.port p.val).granted
       = false) ∧ (s.eng.highest p.val = some c) ∧ (c ≠ (s.eng.port p.val).owner) ∧ (∀ x ∈ (s.eng.port p.val).bursts.getD c [], x.what = .other)) ∧
    (let p : PortIx := 3
     let b : Burst := ⟨8388608, 2, (List.replicate 32 (some 1)) ++ some 7 :: none :: List.replicate 30 (some 9), .other, true⟩
     let rest : List Burst := []
     let s : State := (wS fun e => ({ wSetup { e with mode := .m6 } with qdr := { e.qdr with ports := modAt e.qdr.ports 3 fun q => { q with owner := 2, bursts := [[], [], [⟨8388608, 2, (List.replicate 32 (some 1)) ++ some 7 :: none :: List.replicate 30 (some 9), .other, true⟩], []] } } } : Engine))
     (p.val < 8) ∧ (s.eng.stagingLive = true) ∧ (∀ q : Fin 16, s.eng.overTenure q.val = none) ∧ (s.eng.portIn p.val = true) ∧ (s.eng.slotMode p.val =
       false) ∧ (s.eng.qdr.ports.length = 16) ∧ ((s.eng.port p.val).bursts.length = 4) ∧ ((s.eng.port p.val).txns.length = 4) ∧ ((s.eng.port
       p.val).tenures.length = 4) ∧ (∀ c : Fin 4, s.eng.inputOf p.val c.val < 4) ∧ ((s.eng.port p.val).live.length = 4) ∧ ((s.eng.port p.val).granted
       = false) ∧ (s.eng.highest p.val = some (s.eng.port p.val).owner) ∧ ((s.eng.port p.val).bursts.getD (s.eng.port p.val).owner [] = b :: rest) ∧
       (b.what = .other) ∧ (1 < b.txns)) ∧
    (let p : PortIx := 15
     let s : State := (wS fun e => ({ wSetup { e with mode := .m6 } with qdr := { e.qdr with ports := modAt e.qdr.ports 15 fun q => { q with granted := true } } } : Engine))
     (s.eng.stagingLive = true) ∧ (∀ q : Fin 16, s.eng.overTenure q.val = none) ∧ (s.eng.portIn p.val = true) ∧ (s.eng.slotMode p.val = false) ∧
       (s.eng.qdr.ports.length = 16) ∧ ((s.eng.port p.val).bursts.length = 4) ∧ ((s.eng.port p.val).txns.length = 4) ∧ ((s.eng.port
       p.val).tenures.length = 4) ∧ (∀ c : Fin 4, s.eng.inputOf p.val c.val < 4) ∧ ((s.eng.port p.val).live.length = 4) ∧ (s.eng.highest p.val =
       none) ∧ (∀ c d : Fin 4, s.eng.inputOf p.val c.val = s.eng.inputOf p.val d.val → c = d)) ∧
    (let p : PortIx := 9
     let b : Burst := ⟨256, 8, [], .other, false⟩
     let rest : List Burst := []
     let s : State := (wS fun e => ({ wSetup { e with mode := .m6 } with qdr := { e.qdr with ports := modAt e.qdr.ports 9 fun q => { q with slot := 31, bursts := [[], [⟨256, 8, [], .other, false⟩], [], [⟨256, 8, [], .other, false⟩]], txns := [0, 5, 0, 0], tenures := [0, 6, 0, 0] } } } : Engine) |>.wr (R.ARB_CTRL.MODE 9) 1 |>.wr (R.ARB_CTRL.SLOT_LEN 9) 32 |>.setWord (R.ARB_SLOT.OWN0 9 3).off 0x10000000)
     (8 ≤ p.val) ∧ (s.eng.stagingLive = true) ∧ (∀ q : Fin 16, s.eng.overTenure q.val = none) ∧ (s.eng.portIn p.val = true) ∧ (s.eng.slotMode p.val =
       true) ∧ (s.eng.qdr.ports.length = 16) ∧ ((s.eng.port p.val).bursts.length = 4) ∧ ((s.eng.port p.val).txns.length = 4) ∧ ((s.eng.port
       p.val).tenures.length = 4) ∧ (∀ c : Fin 4, s.eng.inputOf p.val c.val < 4) ∧ ((s.eng.port p.val).live.length = 4) ∧ (s.eng.slotOwner p.val
       (s.eng.port p.val).slot < 4) ∧ ((s.eng.port p.val).bursts.getD (s.eng.slotOwner p.val (s.eng.port p.val).slot) [] = b :: rest) ∧ (b.what =
       .other) ∧ ((s.eng.port p.val).txns.getD (s.eng.slotOwner p.val (s.eng.port p.val).slot) 0 + 1 < b.txns) ∧ (∀ k : Fin 32, s.stg.isBad (b.addr +
       32 * (s.eng.port p.val).txns.getD (s.eng.slotOwner p.val (s.eng.port p.val).slot) 0 + k.val) = false)) ∧
    (let s : State := (wS fun e => ({ wSetup { e with mode := .m6 } with qdr := { e.qdr with ports := modAt e.qdr.ports 9 fun q => { q with bursts := [[], [⟨256, 8, [], .other, false⟩], [], []] } } } : Engine) |>.wr R.QDR_STATUS.HALT 1)
     (s.eng.stagingLive = false)) := by
  refine ⟨?_, ?_, ?_, ?_, ?_, ?_, ?_, ?_⟩ <;> decide +kernel

/-- The hypotheses of StagingRequests can be met together. -/
theorem witness_StagingRequests :
    (let p : PortIx := 3
     let req : Fin 16 := 2
     let a : BitVec 27 := 8389376#27
     let n : Nat := 8
     let s : State := (wS fun e => { wSetup { e with mode := .m6 } with now := 7000000 })
     (s.eng.stagingLive = true) ∧ (req.val < 4) ∧ (a.toNat % 32 = 0) ∧ (1 ≤ n) ∧ (n ≤ 8) ∧ (a.toNat / 256 = (a.toNat + 32 * n - 1) / 256) ∧
       (s.eng.regionOk req.val a.toNat (32 * n) = true) ∧ (s.eng.dieOf a.toNat = p.val % 8)) ∧
    (let p : PortIx := 3
     let req : Fin 16 := 3
     let a : BitVec 27 := 8389376#27
     let n : Nat := 8
     let s : State := (wS fun e => { wSetup { e with mode := .m6 } with now := 7000000 })
     (s.eng.stagingLive = false ∨ 4 ≤ req.val ∨ a.toNat % 32 ≠ 0 ∨ n = 0 ∨ 8 < n ∨ s.eng.regionOk req.val a.toNat (32 * n) = false ∨ s.eng.dieOf
       a.toNat ≠ p.val % 8)) ∧
    (let k : Nat := 367
     let s : State := (wS fun e => { wSetup { e with mode := .m6 } with now := 7000000, qdr := { e.qdr with scrubNext := 1029 } })
     (s.eng.on R.QDR_CTRL.SCRUB_EN = true) ∧ (s.eng.stagingLive = true) ∧ ((s.eng.now - s.eng.qdr.scrubLast) / max 1 s.eng.scrubStep = k) ∧ (0 < k) ∧
       (s.eng.standing (fun w => w == .scrub) = false)) ∧
    (let k : Nat := 367
     let s : State := (wS fun e => { wSetup { e with mode := .m6 } with now := 7000000, qdr := { e.qdr with ports := modAt e.qdr.ports 9 fun q => { q with bursts := [[], [⟨256, 8, [], .scrub, false⟩], [], []] } } })
     (s.eng.on R.QDR_CTRL.SCRUB_EN = true) ∧ (s.eng.stagingLive = true) ∧ ((s.eng.now - s.eng.qdr.scrubLast) / max 1 s.eng.scrubStep = k) ∧ (0 < k) ∧
       (s.eng.standing (fun w => w == .scrub) = true)) ∧
    (let s : State := State.reset
     (s.eng.on R.QDR_CTRL.SCRUB_EN = false ∨ s.eng.stagingLive = false ∨ s.eng.now < s.eng.qdr.scrubLast + max 1 s.eng.scrubStep)) ∧
    (let a : BitVec 27 := 134217727#27
     let n : Nat := 2
     let s : State := (wS fun e => { wSetup { e with mode := .m6 } with now := 7000000 })
     (s.eng.stagingLive = false ∨ s.eng.capacity < a.toNat + n)) ∧
    (let a : BitVec 27 := 300#27
     let n : Nat := 60
     let s : State := (wS fun e => { wSetup { e with mode := .m6 } with now := 7000000 })
     (s.eng.stagingLive = true) ∧ (0 < n) ∧ (a.toNat + n ≤ s.eng.capacity) ∧ (a.toNat / 256 = (a.toNat + n - 1) / 256) ∧ (s.eng.qdr.ports.length =
       16)) ∧
    (let a : BitVec 27 := 0#27
     let l : List (Option Byte) := [some 3]
     let s : State := (wS fun e => { wSetup { e with mode := .m6 } with now := 7000000 })
     (s.eng.stagingLive = false ∨ s.eng.capacity < a.toNat + l.length ∨ (s.eng.mode ≠ .m3 ∧ s.eng.mode ≠ .m11))) ∧
    (let a : BitVec 27 := 300#27
     let l : List (Option Byte) := [some 3, none, some 4]
     let s : State := (wS fun e => { wSetup { e with mode := .m3 } with now := 7000000 })
     (s.eng.stagingLive = true) ∧ (s.eng.mode = .m3 ∨ s.eng.mode = .m11) ∧ (0 < l.length) ∧ (a.toNat + l.length ≤ s.eng.capacity) ∧ (a.toNat / 256 =
       (a.toNat + l.length - 1) / 256) ∧ (s.eng.qdr.ports.length = 16)) ∧
    (let s : State := State.reset
     ((s.eng.qdr.bar4.filter fun x => decide (0 < x.waiting ∧ x.time + 1000 * s.eng.rd R.QDR_CTRL.HOST_TMO ≤ s.eng.now)) = [])) ∧
    (let x : Bar4Acc := ⟨4, 7, 0, 4, false, 1, 1, [], []⟩
     let s : State := (wS fun e => { wSetup { e with mode := .m6 } with now := 900000000000, qdr := { e.qdr with bar4 := [⟨4, 7, 0, 4, false, 1, 1, [], []⟩, ⟨5, 899999999999, 0, 4, false, 1, 1, [], []⟩] } })
     ((s.eng.qdr.bar4.filter fun x => decide (0 < x.waiting ∧ x.time + 1000 * s.eng.rd R.QDR_CTRL.HOST_TMO ≤ s.eng.now)) = [x])) ∧
    (let p : PortIx := 12
     let c : Nat := 3
     let s : State := (wS fun e => ({ wSetup { e with mode := .m6 } with qdr := { e.qdr with ports := modAt e.qdr.ports 12 fun q => { q with owner := 3, granted := true, tenures := [0, 0, 0, 5000], bursts := [[], [], [], [⟨256, 8, [], .other, false⟩]] } } } : Engine))
     (s.eng.on R.QDR_STATUS.HALT = false) ∧ (s.eng.overTenure p.val = some c) ∧ (c < 4) ∧ (s.eng.inputOf p.val c < 4) ∧ (s.eng.roomy) ∧ (s.eng.opens
       = []) ∧ (s.eng.qdr.bar4 = []) ∧ (∀ n : Fin 16, (s.eng.stream n.val).bufs = []) ∧ ((s.eng.squall = none ∧ s.eng.modeIn [6, 7, 8] = true) ∨
       s.eng.squall.map (fun q => q.rest) = some false)) ∧
    (let p : PortIx := 12
     let c : Nat := 3
     let s : State := (wS fun e => ({ wSetup { e with mode := .m4 } with qdr := { e.qdr with ports := modAt e.qdr.ports 12 fun q => { q with owner := 3, granted := true, tenures := [0, 0, 0, 5000], bursts := [[], [], [], [⟨256, 8, [], .other, false⟩]] } } } : Engine))
     (s.eng.on R.QDR_STATUS.HALT = false) ∧ (s.eng.overTenure p.val = some c) ∧ (c < 4) ∧ (s.eng.inputOf p.val c < 4) ∧ (s.eng.roomy) ∧ (s.eng.opens
       = []) ∧ (s.eng.qdr.bar4 = []) ∧ (∀ n : Fin 16, (s.eng.stream n.val).bufs = []) ∧ ((s.eng.squall = none ∧ s.eng.modeIn [6, 7, 8] = false) ∨
       s.eng.squall.map (fun q => q.rest) = some true)) ∧
    (let p : PortIx := 0
     let s : State := State.reset
     (s.eng.on R.QDR_STATUS.HALT = true ∨ s.eng.overTenure p.val = none)) := by
  refine ⟨?_, ?_, ?_, ?_, ?_, ?_, ?_, ?_, ?_, ?_, ?_, ?_, ?_, ?_⟩ <;> decide +kernel

/-- The hypotheses of DmaBursts can be met together. -/
theorem witness_DmaBursts :
    (let s : State := State.reset
     (s.eng.canIssue = false)) ∧
    (let h : Nat := 5
     let addr : Nat := 3840
     let len : Nat := 1000
     let pat : Nat := 0xA1B2
     let w : Nat := 2
     let done : Nat := 0
     let rest : List DmaWork := []
     let s : State := (wS fun e => ({ wSetup { e with mode := .m6 } with link := { e.link with bme := true, mps := 256, mrrs := 512, extTags := true }, dma := { e.dma with work := [.fill 5 3840 1000 0xA1B2 2 0 false] } } : Engine).wr R.UHP_STATUS.LINK_UP 1)
     (s.eng.canIssue = true) ∧ (s.eng.dma.owed = []) ∧ (s.eng.readingBurst = none) ∧ (s.eng.nextStream = none) ∧ (s.eng.dma.work = .fill h addr len
       pat w done false :: rest) ∧ (0 < w) ∧ (done + (min (len - done) (4096 - (addr + done) % 4096)) < len) ∧ (s.eng.rbOut < 16) ∧ (s.eng.readsOut <
       s.eng.readMax)) ∧
    (let h : Nat := 5
     let addr : Nat := 3840
     let len : Nat := 300
     let pat : Nat := 0xA1B2
     let w : Nat := 2
     let done : Nat := 256
     let rest : List DmaWork := []
     let s : State := (wS fun e => ({ wSetup { e with mode := .m6 } with link := { e.link with bme := true, mps := 256, mrrs := 512, extTags := true }, dma := { e.dma with work := [.fill 5 3840 300 0xA1B2 2 256 false] } } : Engine).wr R.UHP_STATUS.LINK_UP 1)
     (s.eng.canIssue = true) ∧ (s.eng.dma.owed = []) ∧ (s.eng.readingBurst = none) ∧ (s.eng.nextStream = none) ∧ (s.eng.dma.work = .fill h addr len
       pat w done false :: rest) ∧ (0 < w) ∧ (done + (min (len - done) (4096 - (addr + done) % 4096)) = len) ∧ (done < len) ∧ (s.eng.rbOut < 16) ∧
       (s.eng.readsOut < s.eng.readMax)) ∧
    (let h : Nat := 5
     let addr : Nat := 8448
     let first : Nat := 3
     let count : Nat := 2
     let bank : Nat := 1
     let asked : Nat := 0
     let got : Nat := 0
     let reads : List Nat := []
     let rest : List DmaWork := []
     let s : State := (wS fun e => ({ wSetup { e with mode := .m6 } with link := { e.link with bme := true, mps := 256, mrrs := 512, extTags := true }, dma := { e.dma with work := [.bank 5 8448 3 2 1 0 0 []] } } : Engine).wr R.UHP_STATUS.LINK_UP 1)
     (s.eng.canIssue = true) ∧ (s.eng.dma.owed = []) ∧ (s.eng.readingBurst = none) ∧ (s.eng.nextStream = none) ∧ (s.eng.dma.work = .bank h addr first
       count bank asked got reads :: rest) ∧ (asked < 4096 * count) ∧ (s.eng.burstReads = true)) ∧
    (let h : Nat := 5
     let addr : Nat := 8448
     let sa : Nat := 64
     let len : Nat := 700
     let asked : Nat := 0
     let got : Nat := 0
     let reads : List Nat := []
     let fb : Option Nat := none
     let k : Nat := 0
     let thr : Nat := 0
     let rest : List DmaWork := []
     let s : State := (wS fun e => ({ wSetup { e with mode := .m6 } with link := { e.link with bme := true, mps := 256, mrrs := 512, extTags := true }, dma := { e.dma with work := [.compare 5 8448 64 700 0 0 [] none 0 0 false] } } : Engine).wr R.UHP_STATUS.LINK_UP 1)
     (s.eng.canIssue = true) ∧ (s.eng.dma.owed = []) ∧ (s.eng.readingBurst = none) ∧ (s.eng.nextStream = none) ∧ (s.eng.dma.work = .compare h addr sa
       len asked got reads fb k thr false :: rest) ∧ (asked < len) ∧ (s.eng.burstReads = true) ∧ (s.eng.on R.QDR_STATUS.HALT = false)) ∧
    (let n : StreamIx := 2
     let l : StageLine := ⟨List.replicate 300 5, 9, 1, true, false, false, false, true, 0, 4⟩
     let b : Buf := ⟨3, 77, 0x7F3A0E05, 99999, 42, false, false, [], none, false, false, false, false, false, .writing, false⟩
     let s : State := (wS fun e => (({ wSetup { e with mode := .m6 } with link := { e.link with bme := true, mps := 256, mrrs := 512, extTags := true }, dma := { e.dma with reading := some (2, 0, 300) }, streams := modAt e.streams 2 fun _ => { Stream.init with running := true, stage := [⟨List.replicate 300 5, 9, 1, true, false, false, false, true, 0, 4⟩], bufs := [⟨3, 77, 0x7F3A0E05, 99999, 42, false, false, [], none, false, false, false, false, false, .writing, false⟩] } } : Engine).wr R.UHP_STATUS.LINK_UP 1 |>.wr (R.GU_XWIN.W 0) 7680 |>.wr (R.STR_XCROP.W 2) 300 |>.wr (R.STR_CFG.TAG 2) 0 |>.wr (R.STR_CFG.GU 2) 0 |>.wr (R.STR_CFG.PSET 2) 0 |>.wr (R.STR_CFG.DEPTH 2) 0).setRing 5 1)
     (s.eng.canIssue = true) ∧ (s.eng.dma.owed = [] ∨ s.eng.canReadback = false) ∧ (s.eng.cmdReady = false) ∧ (s.eng.dma.reading = some (n.val,
       (s.eng.streamSource n.val))) ∧ (s.eng.streamReady n.val = true) ∧ (s.eng.standing (fun w => w == .dma) = false) ∧ (((s.eng.stream
       n.val).bufs.find? fun x => x.redo) = none) ∧ ((s.eng.stream n.val).stage = [l]) ∧ ((s.eng.stream n.val).bufs = [b]) ∧ (b.confirm = .writing) ∧
       (s.eng.badDesc n.val b = false) ∧ (b.lines = []) ∧ ((s.eng.stream n.val).sent = 0) ∧ (0 < l.bytes.length) ∧ (b.withdrawn = false) ∧ (b.addr %
       4096 + l.bytes.length ≤ 4096) ∧ (2 * l.bytes.length + s.eng.strideOf n.val ≤ b.len) ∧ (s.eng.strideOf n.val = s.eng.lineLen n.val) ∧
       (b.pageBreak = false) ∧ ((s.eng.stream n.val).ending = none) ∧ (s.eng.lineLen n.val = l.bytes.length)) ∧
    (let n : StreamIx := 2
     let l : StageLine := ⟨List.replicate 300 5, 9, 1, true, false, false, false, true, 0, 4⟩
     let b : Buf := ⟨3, 77, 0x7F3A0E05, 310, 42, false, false, [], none, false, false, false, false, false, .writing, false⟩
     let s : State := (wS fun e => (({ wSetup { e with mode := .m6 } with link := { e.link with bme := true, mps := 256, mrrs := 512, extTags := true }, dma := { e.dma with reading := some (2, 0, 300) }, streams := modAt e.streams 2 fun _ => { Stream.init with running := true, stage := [⟨List.replicate 300 5, 9, 1, true, false, false, false, true, 0, 4⟩], bufs := [⟨3, 77, 0x7F3A0E05, 310, 42, false, false, [], none, false, false, false, false, false, .writing, false⟩] } } : Engine).wr R.UHP_STATUS.LINK_UP 1 |>.wr (R.GU_XWIN.W 0) 7680 |>.wr (R.STR_XCROP.W 2) 300 |>.wr (R.STR_CFG.TAG 2) 0 |>.wr (R.STR_CFG.GU 2) 0 |>.wr (R.STR_CFG.PSET 2) 0 |>.wr (R.STR_CFG.DEPTH 2) 0).setRing 5 1)
     (s.eng.canIssue = true) ∧ (s.eng.dma.owed = [] ∨ s.eng.canReadback = false) ∧ (s.eng.cmdReady = false) ∧ (s.eng.dma.reading = some (n.val,
       (s.eng.streamSource n.val))) ∧ (s.eng.streamReady n.val = true) ∧ (s.eng.standing (fun w => w == .dma) = false) ∧ (((s.eng.stream
       n.val).bufs.find? fun x => x.redo) = none) ∧ ((s.eng.stream n.val).stage = [l]) ∧ ((s.eng.stream n.val).bufs = [b]) ∧ (b.confirm = .writing) ∧
       (s.eng.badDesc n.val b = false) ∧ (b.lines = []) ∧ ((s.eng.stream n.val).sent = 0) ∧ (0 < l.bytes.length) ∧ (b.withdrawn = false) ∧ (b.addr %
       4096 + l.bytes.length ≤ 4096) ∧ (b.len < s.eng.strideOf n.val + s.eng.lineLen n.val) ∧ (bitOf (s.eng.rd R.DMA_FAST.word) n.val = false) ∧
       ((s.eng.stream n.val).rbs = []) ∧ (s.eng.dma.owed = []) ∧ (s.eng.canReadback = true)) ∧
    (let n : StreamIx := 2
     let l : StageLine := ⟨List.replicate 300 5, 9, 1, true, false, false, false, true, 0, 4⟩
     let b : Buf := ⟨3, 77, 0x7F3A0F05, 99999, 42, false, false, [], none, false, false, false, false, false, .writing, false⟩
     let s : State := (wS fun e => (({ wSetup { e with mode := .m6 } with link := { e.link with bme := true, mps := 256, mrrs := 512, extTags := true }, dma := { e.dma with reading := some (2, 0, 251) }, streams := modAt e.streams 2 fun _ => { Stream.init with running := true, stage := [⟨List.replicate 300 5, 9, 1, true, false, false, false, true, 0, 4⟩], bufs := [⟨3, 77, 0x7F3A0F05, 99999, 42, false, false, [], none, false, false, false, false, false, .writing, false⟩] } } : Engine).wr R.UHP_STATUS.LINK_UP 1 |>.wr (R.GU_XWIN.W 0) 7680 |>.wr (R.STR_XCROP.W 2) 300 |>.wr (R.STR_CFG.TAG 2) 0 |>.wr (R.STR_CFG.GU 2) 0 |>.wr (R.STR_CFG.PSET 2) 0 |>.wr (R.STR_CFG.DEPTH 2) 0).setRing 5 1)
     (s.eng.canIssue = true) ∧ (s.eng.dma.owed = [] ∨ s.eng.canReadback = false) ∧ (s.eng.cmdReady = false) ∧ (s.eng.dma.reading = some (n.val,
       (s.eng.streamSource n.val))) ∧ (s.eng.streamReady n.val = true) ∧ (s.eng.standing (fun w => w == .dma) = false) ∧ (((s.eng.stream
       n.val).bufs.find? fun x => x.redo) = none) ∧ ((s.eng.stream n.val).stage = [l]) ∧ ((s.eng.stream n.val).bufs = [b]) ∧ (b.confirm = .writing) ∧
       (s.eng.badDesc n.val b = false) ∧ (b.lines = []) ∧ ((s.eng.stream n.val).sent = 0) ∧ (0 < l.bytes.length) ∧ (b.withdrawn = false) ∧ (4096 <
       b.addr % 4096 + l.bytes.length)) ∧
    (let n : StreamIx := 2
     let s : State := (wS fun e => (({ wSetup { e with mode := .m6 } with link := { e.link with bme := true, mps := 256, mrrs := 512, extTags := true }, dma := { e.dma with reading := none }, streams := modAt e.streams 2 fun _ => { Stream.init with running := true, stage := [⟨List.replicate 300 5, 9, 1, true, false, false, false, true, 0, 4⟩], bufs := [⟨3, 77, 0x7F3A0F05, 99999, 42, false, false, [], none, false, false, false, false, false, .writing, false⟩] } } : Engine).wr R.UHP_STATUS.LINK_UP 1 |>.wr (R.GU_XWIN.W 0) 7680 |>.wr (R.STR_XCROP.W 2) 300 |>.wr (R.STR_CFG.TAG 2) 0 |>.wr (R.STR_CFG.GU 2) 0 |>.wr (R.STR_CFG.PSET 2) 0 |>.wr (R.STR_CFG.DEPTH 2) 0).setRing 5 1)
     (s.eng.canIssue = true) ∧ (s.eng.dma.owed = [] ∨ s.eng.canReadback = false) ∧ (s.eng.cmdReady = false) ∧ (s.eng.readingBurst = none) ∧
       (s.eng.nextStream = some n.val) ∧ (0 < (s.eng.streamSource n.val).2)) ∧
    (let rd : Nat × Nat × Nat := (2, 0, 251)
     let s : State := (wS fun e => (({ wSetup { e with mode := .m6 } with link := { e.link with bme := true, mps := 256, mrrs := 512, extTags := true }, qdr := { e.qdr with ports := modAt e.qdr.ports 9 fun q => { q with bursts := [[], [], [⟨8388864, 2, [], .dma, false⟩], []] } }, dma := { e.dma with reading := some (2, 0, 251) }, streams := modAt e.streams 2 fun _ => { Stream.init with running := true, stage := [⟨List.replicate 300 5, 9, 1, true, false, false, false, true, 0, 4⟩], bufs := [⟨3, 77, 0x7F3A0F05, 99999, 42, false, false, [], none, false, false, false, false, false, .writing, false⟩] } } : Engine).wr R.UHP_STATUS.LINK_UP 1 |>.wr (R.GU_XWIN.W 0) 7680 |>.wr (R.STR_XCROP.W 2) 300 |>.wr (R.STR_CFG.TAG 2) 0 |>.wr (R.STR_CFG.GU 2) 0 |>.wr (R.STR_CFG.PSET 2) 0 |>.wr (R.STR_CFG.DEPTH 2) 0).setRing 5 1)
     (s.eng.canIssue = true) ∧ (s.eng.dma.owed = [] ∨ s.eng.canReadback = false) ∧ (s.eng.readingBurst = some rd) ∧ (s.eng.standing (fun w => w ==
       .dma) = true)) ∧
    (let n : Nat := 2
     let idx : Nat := 3
     let a : Nat := 2130710788
     let rest : List (Nat × Nat × Nat) := []
     let s : State := (wS fun e => (({ wSetup { e with mode := .m6 } with link := { e.link with bme := true, mps := 256, mrrs := 512, extTags := true }, dma := { e.dma with owed := [(2, 3, 2130710788)] }, streams := modAt e.streams 2 fun _ => { Stream.init with running := true, stage := [⟨List.replicate 300 5, 9, 1, true, false, false, false, true, 0, 4⟩], bufs := [⟨3, 77, 0x7F3A0F05, 99999, 42, false, false, [], none, false, false, false, false, false, .writing, false⟩] } } : Engine).wr R.UHP_STATUS.LINK_UP 1 |>.wr (R.GU_XWIN.W 0) 7680 |>.wr (R.STR_XCROP.W 2) 300 |>.wr (R.STR_CFG.TAG 2) 0 |>.wr (R.STR_CFG.GU 2) 0 |>.wr (R.STR_CFG.PSET 2) 0 |>.wr (R.STR_CFG.DEPTH 2) 0).setRing 5 1)
     (s.eng.canIssue = true) ∧ (s.eng.dma.owed = (n, idx, a) :: rest) ∧ (s.eng.canReadback = true)) ∧
    (let s : State := (wS fun e => ({ wSetup { e with mode := .m6 } with link := { e.link with bme := true, mps := 256, mrrs := 512, extTags := false }, dma := { e.dma with owed := [(2, 3, 2130710788)], work := [.spent 40] } } : Engine).wr R.UHP_STATUS.LINK_UP 1)
     (s.eng.dma.owed ≠ []) ∧ (s.eng.canIssue = true) ∧ (s.eng.canReadback = false) ∧ (s.eng.cmdReady = false) ∧ (s.eng.readingBurst = none) ∧
       (s.eng.nextStream = none)) ∧
    (let poison : Nat := 3
     let s : State := (wS fun e => (({ wSetup { e with mode := .m6 } with link := { e.link with bme := true, mps := 256, mrrs := 512, extTags := true }, dma := { e.dma with owed := [(2, 3, 2130710788)] }, streams := modAt e.streams 2 fun _ => { Stream.init with running := true, stage := [⟨List.replicate 300 5, 9, 1, true, false, false, false, true, 0, 4⟩], bufs := [⟨3, 77, 0x7F3A0F05, 99999, 42, false, false, [], none, false, false, false, false, false, .writing, false⟩] } } : Engine).wr R.UHP_STATUS.LINK_UP 1 |>.wr (R.GU_XWIN.W 0) 7680 |>.wr (R.STR_XCROP.W 2) 300 |>.wr (R.STR_CFG.TAG 2) 0 |>.wr (R.STR_CFG.GU 2) 0 |>.wr (R.STR_CFG.PSET 2) 0 |>.wr (R.STR_CFG.DEPTH 2) 0).setRing 5 1)
     (0 < poison) ∧ ((s.eng.oneBurst s.stg).link.out.length ≠ s.eng.link.out.length)) := by
  refine ⟨?_, ?_, ?_, ?_, ?_, ?_, ?_, ?_, ?_, ?_, ?_, ?_, ?_⟩ <;> decide +kernel

/-- The hypotheses of Confirmations can be met together. -/
theorem witness_Confirmations :
    (let n : ChannelIx := 2
     let b : Buf := ⟨15, 77, 0x7F3A0F05, 310, 42, false, false, [⟨List.replicate 300 5, 9, 1, true, false, false, false, true, 0, 4⟩], none, true, false, false, false, false, .readback, false⟩
     let l : StageLine := ⟨List.replicate 300 5, 9, 1, true, false, false, false, true, 0, 4⟩
     let more : List (Option Nat) := []
     let s : State := (wS fun e => (({ wSetup { e with mode := .m6 } with streams := modAt e.streams 2 fun _ => { Stream.init with running := true, rbs := [some 15], bufs := [⟨15, 77, 0x7F3A0F05, 310, 42, false, false, [⟨List.replicate 300 5, 9, 1, true, false, false, false, true, 0, 4⟩], none, true, false, false, false, false, .readback, false⟩] } } : Engine).setRing 5 1 |>.wr (R.UHP_R_CTRL.LOG2 5) 4 |>.wr (R.GU_XWIN.W 0) 7680 |>.wr (R.STR_XCROP.W 2) 300 |>.wr (R.STR_CFG.TAG 2) 0 |>.wr (R.STR_CFG.GU 2) 0 |>.wr (R.STR_CFG.PSET 2) 0 |>.wr (R.STR_CFG.DEPTH 2) 0))
     (n.val < 16) ∧ ((s.eng.stream n.val).bufs = [b]) ∧ (b.confirm = .readback) ∧ ((s.eng.stream n.val).halted = false) ∧ ((s.eng.stream
       n.val).replaying = false) ∧ (b.lines.getLast? = some l) ∧ (s.eng.pageOrderOk n.val b = true) ∧ (s.eng.opens = []) ∧ (s.eng.hears) ∧
       (b.withdrawn = false) ∧ ((s.eng.stream n.val).rbs = some b.idx :: more)) ∧
    (let n : StreamIx := 2
     let b : Buf := ⟨15, 77, 0x7F3A0F05, 310, 42, false, false, [⟨List.replicate 300 5, 9, 1, true, false, false, false, true, 0, 4⟩], none, true, false, false, false, false, .fast, false⟩
     let l : StageLine := ⟨List.replicate 300 5, 9, 1, true, false, false, false, true, 0, 4⟩
     let s : State := (wS fun e => (({ wSetup { e with mode := .m6 } with streams := modAt e.streams 2 fun _ => { Stream.init with running := true, rbs := [], bufs := [⟨15, 77, 0x7F3A0F05, 310, 42, false, false, [⟨List.replicate 300 5, 9, 1, true, false, false, false, true, 0, 4⟩], none, true, false, false, false, false, .fast, false⟩] } } : Engine).setRing 5 1 |>.wr (R.UHP_R_CTRL.LOG2 5) 4 |>.wr (R.GU_XWIN.W 0) 7680 |>.wr (R.STR_XCROP.W 2) 300 |>.wr (R.STR_CFG.TAG 2) 0 |>.wr (R.STR_CFG.GU 2) 0 |>.wr (R.STR_CFG.PSET 2) 0 |>.wr (R.STR_CFG.DEPTH 2) 0))
     ((s.eng.stream n.val).bufs = [b]) ∧ (b.confirm = .fast) ∧ ((s.eng.stream n.val).halted = false) ∧ ((s.eng.stream n.val).replaying = false) ∧
       (b.lines.getLast? = some l) ∧ (s.eng.pageOrderOk n.val b = true) ∧ (s.eng.opens = []) ∧ (s.eng.hears) ∧ (b.withdrawn = false)) ∧
    (let n : StreamIx := 3
     let s : State := State.reset
     (((s.eng.stream n.val).bufs.find? fun x => x.confirm == .fast) = none)) ∧
    (let n : ChannelIx := 3
     let s : State := State.reset
     (n.val < 16) ∧ ((s.eng.stream n.val).rbs = [])) ∧
    (let n : ChannelIx := 2
     let more : List (Option Nat) := [some 15]
     let s : State := (wS fun e => (({ wSetup { e with mode := .m6 } with streams := modAt e.streams 2 fun _ => { Stream.init with running := true, rbs := [none, some 15], bufs := [⟨15, 77, 0x7F3A0F05, 310, 42, false, false, [⟨List.replicate 300 5, 9, 1, true, false, false, false, true, 0, 4⟩], none, true, false, false, false, false, .readback, false⟩] } } : Engine).setRing 5 1 |>.wr (R.UHP_R_CTRL.LOG2 5) 4 |>.wr (R.GU_XWIN.W 0) 7680 |>.wr (R.STR_XCROP.W 2) 300 |>.wr (R.STR_CFG.TAG 2) 0 |>.wr (R.STR_CFG.GU 2) 0 |>.wr (R.STR_CFG.PSET 2) 0 |>.wr (R.STR_CFG.DEPTH 2) 0))
     (n.val < 16) ∧ ((s.eng.stream n.val).rbs = none :: more)) ∧
    (let n : ChannelIx := 2
     let b : Buf := ⟨15, 77, 0x7F3A0F05, 310, 42, false, false, [⟨List.replicate 300 5, 9, 1, true, false, false, false, true, 0, 4⟩], none, true, false, false, false, false, .readback, false⟩
     let l : StageLine := ⟨List.replicate 300 5, 9, 1, true, false, false, false, true, 0, 4⟩
     let more : List (Option Nat) := []
     let s : State := (wS fun e => (({ wSetup { e with mode := .m6 } with streams := modAt e.streams 2 fun _ => { Stream.init with running := true, rbs := [some 15], bufs := [⟨15, 77, 0x7F3A0F05, 310, 42, false, false, [⟨List.replicate 300 5, 9, 1, true, false, false, false, true, 0, 4⟩], none, true, false, false, false, false, .readback, false⟩] } } : Engine).setRing 5 1 |>.wr (R.UHP_R_CTRL.LOG2 5) 4 |>.wr (R.GU_XWIN.W 0) 7680 |>.wr (R.STR_XCROP.W 2) 300 |>.wr (R.STR_CFG.TAG 2) 0 |>.wr (R.STR_CFG.GU 2) 0 |>.wr (R.STR_CFG.PSET 2) 0 |>.wr (R.STR_CFG.DEPTH 2) 0))
     (n.val < 16) ∧ ((s.eng.stream n.val).bufs = [b]) ∧ (b.confirm = .readback) ∧ ((s.eng.stream n.val).halted = false) ∧ ((s.eng.stream
       n.val).replaying = false) ∧ (b.lines.getLast? = some l) ∧ (s.eng.pageOrderOk n.val b = true) ∧ (s.eng.opens = []) ∧ (s.eng.roomy) ∧
       (b.withdrawn = false) ∧ ((s.eng.stream n.val).rbs = some b.idx :: more) ∧ (∀ o ∈ s.eng.dma.owed, o.1 ≠ n.val)) ∧
    (let n : ChannelIx := 16
     let h : Nat := 5
     let addr : Nat := 3840
     let len : Nat := 300
     let pat : Nat := 0xA1B2
     let w : Nat := 2
     let rest : List DmaWork := []
     let c : OpenCmd := ⟨5, 9, 0x20, .fill⟩
     let s : State := (wS fun e => { wSetup { e with mode := .m6 } with dma := { e.dma with work := [.fill 5 3840 300 0xA1B2 2 300 true] }, opens := [⟨5, 9, 0x20, .fill⟩] })
     (n.val = 16) ∧ (s.eng.dma.work = .fill h addr len pat w len true :: rest) ∧ ((s.eng.opens.find? fun o => o.hseq == h && o.wait != Wait.built) =
       some c) ∧ (s.eng.hears)) ∧
    (let n : ChannelIx := 16
     let h : Nat := 5
     let addr : Nat := 3840
     let len : Nat := 300
     let pat : Nat := 0xA1B2
     let w : Nat := 2
     let rest : List DmaWork := []
     let c : OpenCmd := ⟨5, 9, 0x20, .fill⟩
     let s : State := (wS fun e => { wSetup { e with mode := .m6 } with dma := { e.dma with work := [.fill 5 3840 300 0xA1B2 2 300 true] }, opens := [⟨5, 9, 0x20, .fill⟩] })
     (n.val = 16) ∧ (s.eng.dma.work = .fill h addr len pat w len true :: rest) ∧ ((s.eng.opens.find? fun o => o.hseq == h && o.wait != Wait.built) =
       some c) ∧ (s.eng.hears)) := by
  refine ⟨?_, ?_, ?_, ?_, ?_, ?_, ?_, ?_⟩ <;> decide +kernel

/-- The hypotheses of HostReads can be met together. -/
theorem witness_HostReads :
    (let h : Nat := 5
     let addr : Nat := 8448
     let first : Nat := 3
     let count : Nat := 2
     let bank : Nat := 1
     let asked : Nat := 8192
     let got : Nat := 4092
     let r : Nat := 8
     let reads : List Nat := [512]
     let rest : List DmaWork := []
     let s : State := (wS fun e => { wSetup { e with mode := .m6 } with dma := { e.dma with work := [.bank 5 8448 3 2 1 8192 4092 [8, 512]] }, opens := [⟨5, 9, 0x22, .bankLoad⟩] })
     (s.eng.dma.work = .bank h addr first count bank asked got (r :: reads) :: rest) ∧ (bank < 2) ∧ (first + count ≤ 64) ∧ (r % 4 = 0) ∧ (got % 4 =
       0) ∧ (got + r < 4096 * count)) ∧
    (let h : Nat := 5
     let addr : Nat := 8448
     let first : Nat := 3
     let count : Nat := 2
     let bank : Nat := 1
     let asked : Nat := 8192
     let got : Nat := 8184
     let r : Nat := 8
     let reads : List Nat := []
     let rest : List DmaWork := []
     let c : OpenCmd := ⟨5, 9, 0x22, .bankLoad⟩
     let s : State := (wS fun e => { wSetup { e with mode := .m6 } with dma := { e.dma with work := [.bank 5 8448 3 2 1 8192 8184 [8]] }, opens := [⟨5, 9, 0x22, .bankLoad⟩] })
     (s.eng.dma.work = .bank h addr first count bank asked got (r :: reads) :: rest) ∧ (bank < 2) ∧ (first + count ≤ 64) ∧ (r % 4 = 0) ∧ (got % 4 =
       0) ∧ (got + r = 4096 * count) ∧ ((s.eng.opens.find? fun o => o.hseq == h && o.wait != Wait.built) = some c) ∧ (s.eng.hears)) ∧
    (let h : Nat := 5
     let addr : Nat := 8448
     let first : Nat := 3
     let count : Nat := 2
     let bank : Nat := 1
     let asked : Nat := 8192
     let got : Nat := 8184
     let r : Nat := 8
     let reads : List Nat := []
     let rest : List DmaWork := []
     let c : OpenCmd := ⟨5, 9, 0x22, .bankLoad⟩
     let s : State := (wS fun e => { wSetup { e with mode := .m6 } with dma := { e.dma with work := [.bank 5 8448 3 2 1 8192 8184 [8]] }, opens := [⟨5, 9, 0x22, .bankLoad⟩] })
     (s.eng.dma.work = .bank h addr first count bank asked got (r :: reads) :: rest) ∧ (bank < 2) ∧ (first + count ≤ 64) ∧ ((s.eng.opens.find? fun o
       => o.hseq == h && o.wait != Wait.built) = some c) ∧ (s.eng.hears)) ∧
    (let h : Nat := 5
     let addr : Nat := 8448
     let sa : Nat := 64
     let len : Nat := 700
     let asked : Nat := 700
     let got : Nat := 0
     let r : Nat := 4
     let reads : List Nat := [696]
     let fb : Option Nat := none
     let n : Nat := 0
     let thr : Nat := 0
     let rest : List DmaWork := []
     let s : State := (wS fun e => { wSetup { e with mode := .m6 } with dma := { e.dma with work := [.compare 5 8448 64 700 700 0 [4, 696] none 0 0 false] }, opens := [⟨5, 9, 0x21, .compare⟩] })
     (s.eng.dma.work = .compare h addr sa len asked got (r :: reads) fb n thr false :: rest)) ∧
    (let p : PortIx := 8
     let b : Burst := ⟨64, 1, [], .compare 5 64 0 [0, 3, 0, 4], false⟩
     let more : List Burst := []
     let h : Nat := 5
     let addr : Nat := 8448
     let sa : Nat := 64
     let off : Nat := 0
     let len : Nat := 700
     let asked : Nat := 700
     let got : Nat := 4
     let reads : List Nat := []
     let fb : Option Nat := none
     let n : Nat := 0
     let thr : Nat := 0
     let rest : List DmaWork := []
     let l : List Byte := [0, 3, 0, 4]
     let s : State := (wS fun e => { wSetup { e with mode := .m6 } with qdr := { e.qdr with ports := modAt e.qdr.ports 8 fun q => { q with owner := 1, granted := true, bursts := [[], [⟨64, 1, [], .compare 5 64 0 [0, 3, 0, 4], false⟩], [], []], txns := [0, 0, 0, 0], tenures := [0, 1, 0, 0] } }, dma := { e.dma with work := [.compare 5 8448 64 700 700 4 [] none 0 0 false] }, opens := [⟨5, 9, 0x21, .compare⟩] })
     (8 ≤ p.val) ∧ (s.eng.stagingLive = true) ∧ (∀ q : Fin 16, s.eng.overTenure q.val = none) ∧ (s.eng.portIn p.val = true) ∧ (s.eng.slotMode p.val =
       false) ∧ (s.eng.qdr.ports.length = 16) ∧ ((s.eng.port p.val).bursts.length = 4) ∧ ((s.eng.port p.val).txns.length = 4) ∧ ((s.eng.port
       p.val).tenures.length = 4) ∧ (∀ c : Fin 4, s.eng.inputOf p.val c.val < 4) ∧ ((s.eng.port p.val).live.length = 4) ∧ ((s.eng.port p.val).granted
       = true) ∧ (0 < (s.eng.port p.val).tenures.getD (s.eng.port p.val).owner 0) ∧ (((s.eng.port p.val).bursts.getD (s.eng.port p.val).owner []) = b
       :: more) ∧ (∀ c : Fin 4, Engine.raisedAt (s.eng.port p.val) c.val = true → s.eng.inputOf p.val c.val ≤ s.eng.inputOf p.val (s.eng.port
       p.val).owner) ∧ ((s.eng.port p.val).txns.getD (s.eng.port p.val).owner 0 + 1 = b.txns) ∧ (b.what = .compare h sa off l) ∧ (b.addr ≤ sa + off)
       ∧ (sa + off + l.length ≤ b.addr + 32 * b.txns) ∧ (l.length ≤ 256) ∧ (∀ j : Fin 256, l.length ≤ j.val ∨ s.stg.isBad (sa + off + j.val) = false)
       ∧ (∀ j : Fin 32, s.stg.isBad (b.addr + 32 * (s.eng.port p.val).txns.getD (s.eng.port p.val).owner 0 + j.val) = false) ∧ (s.eng.dma.work =
       .compare h addr sa len asked got reads fb n thr false :: rest) ∧ (fb.all (fun x => decide (x ≤ off)) = true) ∧ (thr + l.length < len)) ∧
    (let p : PortIx := 8
     let b : Burst := ⟨64, 1, [], .compare 5 64 4 [0, 3, 0, 4], false⟩
     let more : List Burst := []
     let h : Nat := 5
     let addr : Nat := 8448
     let sa : Nat := 64
     let off : Nat := 4
     let len : Nat := 8
     let asked : Nat := 8
     let got : Nat := 8
     let reads : List Nat := []
     let fb : Option Nat := none
     let n : Nat := 0
     let thr : Nat := 4
     let rest : List DmaWork := []
     let l : List Byte := [0, 3, 0, 4]
     let c : OpenCmd := ⟨5, 9, 0x21, .compare⟩
     let s : State := (wS fun e => { wSetup { e with mode := .m6 } with qdr := { e.qdr with ports := modAt e.qdr.ports 8 fun q => { q with owner := 1, granted := true, bursts := [[], [⟨64, 1, [], .compare 5 64 4 [0, 3, 0, 4], false⟩], [], []], txns := [0, 0, 0, 0], tenures := [0, 1, 0, 0] } }, dma := { e.dma with work := [.compare 5 8448 64 8 8 8 [] none 0 4 false] }, opens := [⟨5, 9, 0x21, .compare⟩] })
     (8 ≤ p.val) ∧ (s.eng.stagingLive = true) ∧ (∀ q : Fin 16, s.eng.overTenure q.val = none) ∧ (s.eng.portIn p.val = true) ∧ (s.eng.slotMode p.val =
       false) ∧ (s.eng.qdr.ports.length = 16) ∧ ((s.eng.port p.val).bursts.length = 4) ∧ ((s.eng.port p.val).txns.length = 4) ∧ ((s.eng.port
       p.val).tenures.length = 4) ∧ (∀ c : Fin 4, s.eng.inputOf p.val c.val < 4) ∧ ((s.eng.port p.val).live.length = 4) ∧ ((s.eng.port p.val).granted
       = true) ∧ (0 < (s.eng.port p.val).tenures.getD (s.eng.port p.val).owner 0) ∧ (((s.eng.port p.val).bursts.getD (s.eng.port p.val).owner []) = b
       :: more) ∧ (∀ c : Fin 4, Engine.raisedAt (s.eng.port p.val) c.val = true → s.eng.inputOf p.val c.val ≤ s.eng.inputOf p.val (s.eng.port
       p.val).owner) ∧ ((s.eng.port p.val).txns.getD (s.eng.port p.val).owner 0 + 1 = b.txns) ∧ (b.what = .compare h sa off l) ∧ (b.addr ≤ sa + off)
       ∧ (sa + off + l.length ≤ b.addr + 32 * b.txns) ∧ (l.length ≤ 256) ∧ (∀ j : Fin 256, l.length ≤ j.val ∨ s.stg.isBad (sa + off + j.val) = false)
       ∧ (∀ j : Fin 32, s.stg.isBad (b.addr + 32 * (s.eng.port p.val).txns.getD (s.eng.port p.val).owner 0 + j.val) = false) ∧ (s.eng.dma.work =
       .compare h addr sa len asked got reads fb n thr false :: rest) ∧ (fb.all (fun x => decide (x ≤ off)) = true) ∧ (thr + l.length = len) ∧
       ((s.eng.opens.find? fun o => o.hseq == h && o.wait != Wait.built) = some c) ∧ (s.eng.hears)) ∧
    (let h : Nat := 5
     let addr : Nat := 8448
     let sa : Nat := 64
     let len : Nat := 8
     let asked : Nat := 8
     let got : Nat := 4
     let r : Nat := 4
     let reads : List Nat := []
     let fb : Option Nat := (some 2)
     let n : Nat := 1
     let thr : Nat := 4
     let rest : List DmaWork := []
     let c : OpenCmd := ⟨5, 9, 0x21, .compare⟩
     let s : State := (wS fun e => { wSetup { e with mode := .m6 } with dma := { e.dma with work := [.compare 5 8448 64 8 8 4 [4] (some 2) 1 4 false] }, opens := [⟨5, 9, 0x21, .compare⟩] })
     (s.eng.dma.work = .compare h addr sa len asked got (r :: reads) fb n thr false :: rest) ∧ (thr = got) ∧ ((s.eng.opens.find? fun o => o.hseq == h
       && o.wait != Wait.built) = some c) ∧ (s.eng.hears)) ∧
    (let h : Nat := 5
     let addr : Nat := 8448
     let sa : Nat := 64
     let len : Nat := 8
     let asked : Nat := 8
     let got : Nat := 4
     let r : Nat := 4
     let reads : List Nat := []
     let fb : Option Nat := (some 2)
     let n : Nat := 1
     let thr : Nat := 0
     let rest : List DmaWork := []
     let s : State := (wS fun e => { wSetup { e with mode := .m6 } with dma := { e.dma with work := [.compare 5 8448 64 8 8 4 [4] (some 2) 1 0 false] }, opens := [⟨5, 9, 0x21, .compare⟩] })
     (s.eng.dma.work = .compare h addr sa len asked got (r :: reads) fb n thr false :: rest) ∧ (thr ≠ got)) ∧
    (let s : State := State.reset
     (s.eng.dma.work = [])) ∧
    (let s : State := State.reset
     (s.eng.dma.work = [])) ∧
    (let k : Nat := 3
     let rest : List DmaWork := []
     let s : State := (wS fun e => { wSetup { e with mode := .m6 } with dma := { e.dma with work := [.spent 3] } })
     (s.eng.dma.work = .spent k :: rest) ∧ (1 < k)) ∧
    (let rest : List DmaWork := [.spent 2]
     let s : State := (wS fun e => { wSetup { e with mode := .m6 } with dma := { e.dma with work := [.spent 1, .spent 2] } })
     (s.eng.dma.work = .spent 1 :: rest)) := by
  refine ⟨?_, ?_, ?_, ?_, ?_, ?_, ?_, ?_, ?_, ?_, ?_, ?_⟩ <;> decide +kernel

/-- The hypotheses of CalibrationRequestsAndGaps can be met together. -/
theorem witness_CalibrationRequestsAndGaps :
    (let s : State := State.reset
     (s.eng.modeIn [6, 7, 8] = false)) ∧
    (let t0 : BitVec 16 := 0x0651#16
     let s : State := (wS fun e => ({ wSetup { e with mode := .m7 } with now := 5000000000 } : Engine).wr (R.AFE_CTRL.CONV_EN 0) 1 |>.wr (R.AFE_CTRL.CONV_EN 1) 0 |>.wr (R.CAL_TREF_AFE.V 0) 0x0640 |>.wr R.CAL_DT.V 16 |>.wr R.CAL_SCHED.V 0)
     (s.eng.modeIn [6, 7, 8] = true) ∧ (s.eng.convSides = [0]) ∧ ((s.eng.assigned 0).all (fun i => s.eng.rtdStale i || s.eng.cal.rtd.getD i 0x8000 ==
       s.eng.rd (R.CAL_TREF_RTD.V i) && s.eng.rd (R.CAL_TREF_RTD.V i) != 0x8000) = true) ∧ (s.eng.rd R.CAL_SCHED.V = 0) ∧ (s.eng.rd (R.CAL_TREF_AFE.V
       0) ≠ 0x8000) ∧ (s.eng.cal.gapStart = none) ∧ (s.eng.rd R.CAL_DT.V < (toSigned 16 t0.toNat - toSigned 16 (s.eng.rd (R.CAL_TREF_AFE.V
       0))).natAbs)) ∧
    (let t0 : BitVec 16 := 0x0650#16
     let s : State := (wS fun e => ({ wSetup { e with mode := .m7 } with now := 5000000000 } : Engine).wr (R.AFE_CTRL.CONV_EN 0) 1 |>.wr (R.AFE_CTRL.CONV_EN 1) 0 |>.wr (R.CAL_TREF_AFE.V 0) 0x0640 |>.wr R.CAL_DT.V 16 |>.wr R.CAL_SCHED.V 0)
     (s.eng.modeIn [6, 7, 8] = true) ∧ (s.eng.convSides = [0]) ∧ ((s.eng.assigned 0).all (fun i => s.eng.rtdStale i || s.eng.cal.rtd.getD i 0x8000 ==
       s.eng.rd (R.CAL_TREF_RTD.V i) && s.eng.rd (R.CAL_TREF_RTD.V i) != 0x8000) = true) ∧ (s.eng.rd R.CAL_SCHED.V = 0) ∧ (s.eng.rd (R.CAL_TREF_AFE.V
       0) ≠ 0x8000) ∧ (s.eng.cal.gapStart = none) ∧ ((toSigned 16 t0.toNat - toSigned 16 (s.eng.rd (R.CAL_TREF_AFE.V 0))).natAbs ≤ s.eng.rd
       R.CAL_DT.V)) ∧
    (let s : State := State.reset
     (s.eng.cal.gapStart = none)) ∧
    (let i : Side := 0
     let g : Nat := 100
     let c : Nat := 5
     let r0 : Nat := 0
     let s : State := (wS fun e => (({ wSetup { e with mode := .m7 } with now := 5000000000, chans := e.chans.map fun h => { h with entered := some 151 }, cal := { e.cal with gapStart := some 100, chans := modAt e.cal.chans 5 fun _ => ⟨0, 0, 50000, 0⟩, meas := modAt e.cal.meas 5 fun _ => ⟨32960, 16, 1498000, 30, 0, 0⟩ } } : Engine)|>.wr (R.AFE_CTRL.CONV_EN 0) 1 |>.wr (R.AFE_CTRL.CONV_EN 1) 0 |>.wr R.CAL_CTRL.LED_EN 0 |>.wr R.CAL_CTRL.GAIN_EN 1 |>.wr R.CAL_CTRL.OFS_EN 1))
     (s.eng.cal.gapStart = some g) ∧ (s.eng.cal.result = none) ∧ (s.eng.gapMeasured g = true) ∧ (s.eng.convSides = [i.val]) ∧ (s.eng.on
       R.CAL_CTRL.LED_EN = false) ∧ (r0 < 3) ∧ ((∀ r : Fin 4, (s.eng.rowChans i.val r.val).filter s.eng.usable = if r.val = r0 then [c] else [])) ∧
       (c < 64) ∧ (s.eng.backMean c < 62000) ∧ (((if s.eng.on R.CAL_CTRL.GAIN_EN then ratAway (((1 + (s.eng.gainCode c : Rat) / 25600) /
       s.eng.ratioOf c - 1) * 25600) else s.eng.gainCode c)).natAbs ≤ s.eng.rd R.CAL_LIM_GAIN.ABS ∧ ((if s.eng.on R.CAL_CTRL.GAIN_EN then ratAway
       (((1 + (s.eng.gainCode c : Rat) / 25600) / s.eng.ratioOf c - 1) * 25600) else s.eng.gainCode c) - s.eng.gainCode c).natAbs ≤ s.eng.rd
       R.CAL_LIM_GAIN.GAP_STEP) ∧ (((if s.eng.on R.CAL_CTRL.OFS_EN then s.eng.ofsOf c + ratAway ((s.eng.darkMean c / (1 + (s.eng.gainCode c : Rat) /
       25600) - s.eng.darkTarget / (1 + ((if s.eng.on R.CAL_CTRL.GAIN_EN then ratAway (((1 + (s.eng.gainCode c : Rat) / 25600) / s.eng.ratioOf c - 1)
       * 25600) else s.eng.gainCode c) : Rat) / 25600)) * s.eng.fsRatio c) else s.eng.ofsOf c)).natAbs ≤ s.eng.rd R.CAL_LIM_OFS.ABS ∧ ((if s.eng.on
       R.CAL_CTRL.OFS_EN then s.eng.ofsOf c + ratAway ((s.eng.darkMean c / (1 + (s.eng.gainCode c : Rat) / 25600) - s.eng.darkTarget / (1 + ((if
       s.eng.on R.CAL_CTRL.GAIN_EN then ratAway (((1 + (s.eng.gainCode c : Rat) / 25600) / s.eng.ratioOf c - 1) * 25600) else s.eng.gainCode c) :
       Rat) / 25600)) * s.eng.fsRatio c) else s.eng.ofsOf c) - s.eng.ofsOf c).natAbs ≤ s.eng.rd R.CAL_LIM_OFS.GAP_STEP)) ∧
    (let i : Side := 0
     let g : Nat := 100
     let c : Nat := 5
     let r0 : Nat := 0
     let s : State := (wS fun e => (({ wSetup { e with mode := .m7 } with now := 5000000000, chans := e.chans.map fun h => { h with entered := some 151 }, cal := { e.cal with gapStart := some 100, chans := modAt e.cal.chans 5 fun _ => ⟨0, 0, 50000, 0⟩, meas := modAt e.cal.meas 5 fun _ => ⟨32960, 16, 1860000, 30, 0, 0⟩ } } : Engine)|>.wr (R.AFE_CTRL.CONV_EN 0) 1 |>.wr (R.AFE_CTRL.CONV_EN 1) 0 |>.wr R.CAL_CTRL.LED_EN 0 |>.wr R.CAL_CTRL.GAIN_EN 1 |>.wr R.CAL_CTRL.OFS_EN 1))
     (s.eng.cal.gapStart = some g) ∧ (s.eng.cal.result = none) ∧ (s.eng.gapMeasured g = true) ∧ (s.eng.convSides = [i.val]) ∧ (s.eng.on
       R.CAL_CTRL.LED_EN = false) ∧ (r0 < 3) ∧ ((∀ r : Fin 4, (s.eng.rowChans i.val r.val).filter s.eng.usable = if r.val = r0 then [c] else [])) ∧
       (c < 64) ∧ (62000 ≤ s.eng.backMean c) ∧ (s.eng.cal.consec.getD c 0 < 2) ∧ (s.eng.cal.consec.length = 74) ∧ (s.eng.hears)) := by
  refine ⟨?_, ?_, ?_, ?_, ?_, ?_⟩ <;> decide +kernel

/-- The hypotheses of FullCalibration can be met together. -/
theorem witness_FullCalibration :
    (let i : Side := 0
     let s : State := (wS fun e => ({ wSetup { e with mode := .m5 } with now := 5000000000, cal := { e.cal with full := { FullCal.init with kind := 1, step := 8, next := 70, lastTrig := 4000000000, lines := 64 } } } : Engine).wr (R.AFE_CTRL.CONV_EN 0) 1 |>.wr (R.AFE_CTRL.CONV_EN 1) 0 |>.wr (R.AFE_STATUS.CONV_RUN 0) 1)
     (s.eng.mode = .m5) ∧ (s.eng.convSides = [i.val]) ∧ ((s.eng.cal.full.lastTrig : Rat) + (1000 + s.eng.lineNs i.val) ≤ (s.eng.now : Rat)) ∧
       (s.eng.cal.full.kind = 0 ∨ (s.eng.calChans.any fun c => decide (s.eng.cal.full.counts.getD c 0 < s.eng.cal.full.lines)) = true) ∧
       (s.eng.genRuns i.val = true) ∧ (sumNat ((s.eng.gen i.val).queue.map Engine.trigWords) ≤ 61) ∧ (i.val < s.eng.tg.length) ∧ (s.eng.chans.length
       = 64)) ∧
    (let s : State := State.reset
     (s.eng.cal.full.kind = 0) ∧ (s.eng.mode ≠ .m5)) ∧
    (let s : State := (wS fun e => ({ wSetup { e with mode := .m5 } with now := 5000000000, cal := { e.cal with full := { FullCal.init with kind := 1, step := 8, next := 70, lastTrig := 4999999999, lines := 0 } } } : Engine).wr (R.AFE_CTRL.CONV_EN 0) 1 |>.wr (R.AFE_CTRL.CONV_EN 1) 0 |>.wr (R.AFE_STATUS.CONV_RUN 0) 1)
     (s.eng.cal.full.kind = 1) ∧ (s.eng.cal.full.step = 8) ∧ ((s.eng.calChans.all fun c => decide (s.eng.cal.full.lines ≤ s.eng.cal.full.counts.getD
       c 0)) = true) ∧ ((s.eng.now : Rat) < (s.eng.cal.full.lastTrig : Rat) + (1000 + (s.eng.convSides.map s.eng.lineNs).foldl ratMax 0))) ∧
    (let s : State := State.reset
     (s.eng.cal.full.kind ≠ 1)) ∧
    (let c : Nat := 5
     let o : OpenCmd := ⟨5, 9, 0x0E, .calTarget⟩
     let s : State := (wS fun e => (upTo 32).foldl (fun x k => x.wr (R.TG_CHMAP.EN 0 k) (if k = 5 then 1 else 0)) (({ wSetup { e with mode := .m5 } with now := 5000000000, opens := [⟨5, 9, 0x0E, .calTarget⟩], cal := { e.cal with full := { FullCal.init with kind := 1, step := 10, start := 100, next := 70, dark := modAt (List.replicate 64 []) 5 fun _ => [134217728, 134217728], white := modAt (List.replicate 64 []) 5 fun _ => [3355443200, 3355443200] } } } : Engine)|>.wr R.CAL_CTRL.NOREF 1 |>.wr (R.AFE_CTRL.CONV_EN 0) 1 |>.wr (R.AFE_CTRL.CONV_EN 1) 0))
     (s.eng.cal.full.kind = 1) ∧ (s.eng.cal.full.step = 10) ∧ (s.eng.calChans = [c]) ∧ (c < 64) ∧ (s.eng.cal.fullRej = 0) ∧
       ((s.eng.cal.full.dark.getD c []).length ≤ 1024) ∧ (s.eng.opens = [o]) ∧ (o.wait = .calTarget) ∧ (s.eng.roomy)) ∧
    (let v : List Int := [2474999, 2500000, 2500000]
     let o : OpenCmd := ⟨5, 9, 0x0E, .calTarget⟩
     let s : State := (wS fun e => (({ wSetup { e with mode := .m5 } with now := 5000000000, opens := [⟨5, 9, 0x0E, .calTarget⟩], cal := { e.cal with full := { FullCal.init with kind := 1, step := 11, start := 100, next := 70, buf := [1, 1] } } } : Engine)|>.wr (R.AFE_CTRL.CONV_EN 0) 1 |>.wr (R.AFE_CTRL.CONV_EN 1) 1 |>.wr R.SYS_UNITS.AFE1 1))
     (s.eng.cal.full.kind = 1) ∧ (s.eng.cal.full.step = 11) ∧ (v.getD 0 0 < 2475000 ∨ 2525000 < v.getD 0 0) ∧ (s.eng.cal.full.start + 40000000 ≤
       s.eng.now) ∧ (s.eng.mode = .m5) ∧ (s.eng.cal.gapStart = none) ∧ (s.eng.on R.CAL_STATUS.FULL_OPEN = false) ∧ (s.eng.cal.full.buf = [1, 1]) ∧
       (s.eng.opens = [o]) ∧ (o.wait = .calTarget) ∧ (s.eng.roomy)) ∧
    (let v : List Int := [2500500, 2500000, 2501000]
     let s : State := (wS fun e => (({ wSetup { e with mode := .m5 } with now := 5000000000, opens := [⟨5, 9, 0x0E, .calTarget⟩], cal := { e.cal with full := { FullCal.init with kind := 1, step := 11, start := 100, next := 70, buf := [1, 1] } } } : Engine)|>.wr (R.AFE_CTRL.CONV_EN 0) 1 |>.wr (R.AFE_CTRL.CONV_EN 1) 1 |>.wr R.SYS_UNITS.AFE1 1))
     (s.eng.cal.full.kind = 1) ∧ (s.eng.cal.full.step = 11) ∧ (2475000 ≤ v.getD 0 0) ∧ (v.getD 0 0 ≤ 2525000) ∧ (v.getD 1 0 ≠ 0) ∧ (v.getD 2 0 ≠ 0) ∧
       (s.eng.cal.full.start + 40000000 ≤ s.eng.now) ∧ (s.eng.convSides = [0, 1])) ∧
    (let s : State := (wS fun e => (({ wSetup { e with mode := .m5 } with now := 40000099, opens := [⟨5, 9, 0x0E, .calTarget⟩], cal := { e.cal with full := { FullCal.init with kind := 1, step := 11, start := 100, next := 70, buf := [1, 1] } } } : Engine)|>.wr (R.AFE_CTRL.CONV_EN 0) 1 |>.wr (R.AFE_CTRL.CONV_EN 1) 1 |>.wr R.SYS_UNITS.AFE1 1))
     (s.eng.cal.full.kind = 1) ∧ (s.eng.cal.full.step = 11) ∧ (s.eng.now < s.eng.cal.full.start + 40000000)) ∧
    (let s : State := State.reset
     (s.eng.cal.writing = none)) ∧
    (let s : State := (wS fun e => (upTo 32).foldl (fun x k => x.wr (R.TG_CHMAP.EN 0 k) (if k = 5 then 1 else 0)) (({ wSetup { e with mode := .m5 } with now := 5000000000, cal := { e.cal with full := { FullCal.init with kind := 2, step := 0, next := 70, lastTrig := 4999999999, lines := 64, counts := List.replicate 64 64, sums := List.replicate 64 1920000 } } } : Engine).wr (R.AFE_CTRL.CONV_EN 0) 1 |>.wr (R.AFE_CTRL.CONV_EN 1) 0 |>.wr R.CAL_STATUS.FULL_OPEN 1))
     (s.eng.mode = .m5) ∧ (s.eng.cal.full.kind = 2) ∧ (s.eng.cal.full.step = 0) ∧ (s.eng.auxUsed = false) ∧ ((s.eng.calChans.all fun c => decide
       (s.eng.cal.full.lines ≤ s.eng.cal.full.counts.getD c 0)) = true) ∧ ((s.eng.now : Rat) < (s.eng.cal.full.lastTrig : Rat) + (1000 +
       (s.eng.convSides.map s.eng.lineNs).foldl ratMax 0))) ∧
    (let o : OpenCmd := ⟨5, 9, 0x0E, .calBacking⟩
     let k : Nat := 1
     let x : CalRecord := ⟨0, 8, [0, 0], [0, 0], [0, 0], [0, 0, 0, 0], [3], [], 0, [], []⟩
     let s : State := (wS fun e => { wSetup { e with mode := .m5 } with now := 5000000000, opens := [⟨5, 9, 0x0E, .calBacking⟩], cal := { e.cal with full := { FullCal.init with kind := 2, step := 2, start := 100, next := 70, dark := modAt (List.replicate 64 []) 5 fun _ => [134217728, 134217728], white := modAt (List.replicate 64 []) 5 fun _ => [3355443200, 3355443200] }, writing := some (1, ⟨0, 8, [0, 0], [0, 0], [0, 0], [0, 0, 0, 0], [3], [], 0, [], []⟩) } })
     (s.eng.cal.writing = some (k, x)) ∧ (k < s.eng.cal.copies.length) ∧ (s.eng.mode = .m5) ∧ (s.eng.cal.gapStart = none) ∧ (s.eng.cal.fullRej = 0) ∧
       (s.eng.opens = [o]) ∧ (o.wait = .calBacking) ∧ (s.eng.roomy)) ∧
    (let o : OpenCmd := ⟨5, 9, 0x0E, .calBacking⟩
     let k : Nat := 0
     let x : CalRecord := ⟨0, 8, [0, 0], [0, 0], [0, 0], [0, 0, 0, 0], [3], [], 0, [], []⟩
     let r : Fin 3 := 2
     let s : State := (wS fun e => { wSetup { e with mode := .m5 } with now := 5000000000, opens := [⟨5, 9, 0x0E, .calBacking⟩], cal := { e.cal with full := { FullCal.init with kind := 2, step := 2, start := 100, next := 70, dark := modAt (List.replicate 64 []) 5 fun _ => [134217728, 134217728], white := modAt (List.replicate 64 []) 5 fun _ => [3355443200, 3355443200] }, writing := some (0, ⟨0, 8, [0, 0], [0, 0], [0, 0], [0, 0, 0, 0], [3], [], 0, [], []⟩) } })
     (s.eng.cal.writing = some (k, x)) ∧ (r.val ≠ 0) ∧ (s.eng.mode = .m5) ∧ (s.eng.cal.gapStart = none) ∧ (s.eng.opens = [o]) ∧ (o.wait =
       .calBacking) ∧ (s.eng.roomy)) := by
  refine ⟨?_, ?_, ?_, ?_, ?_, ?_, ?_, ?_, ?_, ?_, ?_, ?_⟩ <;> decide +kernel

/-- The hypotheses of SectionPackets can be met together. -/
theorem witness_SectionPackets :
    (let s : State := State.reset
     (s.eng.met.inq = [])) ∧
    (let p : MetPkt := ⟨.record 8 [1, 2], ⟨true, false, false, true, 3, 2, true⟩⟩
     let rest : List MetPkt := []
     let m : Nat := 8
     let b : List Byte := [1, 2]
     let s : State := (wS fun e => { e with mode := .m6, now := 5000000000, met := { e.met with inq := [⟨.record 8 [1, 2], ⟨true, false, false, true, 3, 2, true⟩⟩] }, status := { e.status with lastMseq := 6 }, pair := { e.pair with linkUp := true, plver := 2 }, mets := { e.mets with recv := [(7, [], false)] } })
     (s.eng.met.inq = p :: rest) ∧ (p.body = .record m b) ∧ (m = s.eng.status.lastMseq + s.eng.mets.recv.length + 1) ∧ (s.eng.ver ≠ 1 ∨
       s.eng.mets.recv = []) ∧ (s.eng.mirrorFirst = false) ∧ (p.stat.pairing = true) ∧ (s.eng.pair.linkUp = true) ∧ (s.eng.pair.plver = 2)) ∧
    (let p : MetPkt := ⟨.record 8 [1, 2], ⟨true, false, false, true, 3, 2, false⟩⟩
     let rest : List MetPkt := []
     let m : Nat := 8
     let b : List Byte := [1, 2]
     let s : State := (wS fun e => { e with mode := .m6, now := 5000000000, met := { e.met with inq := [⟨.record 8 [1, 2], ⟨true, false, false, true, 3, 2, false⟩⟩] }, status := { e.status with lastMseq := 6 }, mets := { e.mets with recv := [(7, [], false)] } })
     (s.eng.met.inq = p :: rest) ∧ (p.body = .record m b) ∧ (m = s.eng.status.lastMseq + s.eng.mets.recv.length + 1) ∧ (s.eng.ver ≠ 1 ∨
       s.eng.mets.recv = []) ∧ (s.eng.mirrorFirst = false) ∧ ((p.stat.pairing && s.eng.pair.linkUp && s.eng.pair.plver == 2) = false)) ∧
    (let p : MetPkt := ⟨.record 7 [1, 2], ⟨true, false, false, true, 3, 2, false⟩⟩
     let rest : List MetPkt := []
     let m : Nat := 7
     let b : List Byte := [1, 2]
     let s : State := (wS fun e => { e with mode := .m6, now := 5000000000, met := { e.met with inq := [⟨.record 7 [1, 2], ⟨true, false, false, true, 3, 2, false⟩⟩] }, status := { e.status with lastMseq := 6 }, mets := { e.mets with recv := [(7, [], false)] } })
     (s.eng.met.inq = p :: rest) ∧ (p.body = .record m b) ∧ (m ≠ s.eng.status.lastMseq + s.eng.mets.recv.length + 1 ∨ (s.eng.ver = 1 ∧
       s.eng.mets.recv ≠ []))) ∧
    (let p : MetPkt := ⟨.temps [(400, true), (0x8000, false), (410, true), (420, false)], ⟨true, false, false, true, 3, 2, false⟩⟩
     let rest : List MetPkt := []
     let l : List (Nat × Bool) := [(400, true), (0x8000, false), (410, true), (420, false)]
     let s : State := (wS fun e => { e with mode := .m6, now := 5000000000, met := { e.met with inq := [⟨.temps [(400, true), (0x8000, false), (410, true), (420, false)], ⟨true, false, false, true, 3, 2, false⟩⟩] } })
     (s.eng.met.inq = p :: rest) ∧ (p.body = .temps l) ∧ (l.length = 4) ∧ (s.eng.cal.rtd.length = 4) ∧ (s.eng.cal.rtdTime.length = 4)) ∧
    (let p : MetPkt := ⟨.thresholds 4 [0, 0, 0x40490FDB, 0], ⟨true, false, false, true, 3, 2, false⟩⟩
     let rest : List MetPkt := []
     let states : Nat := 4
     let v : List Nat := [0, 0, 0x40490FDB, 0]
     let n : Fin 4 := 2
     let s : State := (wS fun e => { e with mode := .m6, now := 5000000000, met := { e.met with inq := [⟨.thresholds 4 [0, 0, 0x40490FDB, 0], ⟨true, false, false, true, 3, 2, false⟩⟩] } })
     (s.eng.met.inq = p :: rest) ∧ (p.body = .thresholds states v) ∧ (∀ k : Fin 4, bitOf states k.val = bitOf (s.eng.rd R.MET_TH.V) k.val ↔ k ≠ n) ∧
       (s.eng.hears)) ∧
    (let p : MetPkt := ⟨.ident 1 2 3 4 (List.replicate 64 9) 5, ⟨true, false, false, true, 3, 2, false⟩⟩
     let rest : List MetPkt := []
     let fw : Nat := 1
     let crc : Nat := 2
     let audit : Nat := 3
     let key : Nat := 4
     let acked : Nat := 5
     let pub : List Byte := List.replicate 64 9
     let s : State := (wS fun e => { e with mode := .m6, now := 5000000000, met := { e.met with inq := [⟨.ident 1 2 3 4 (List.replicate 64 9) 5, ⟨true, false, false, true, 3, 2, false⟩⟩] } })
     (s.eng.met.inq = p :: rest) ∧ (p.body = .ident fw crc audit key pub acked) ∧ (pub.length = 64)) ∧
    (let p : MetPkt := ⟨.answer 6 4 0 (List.replicate 24 7) [], ⟨true, false, false, true, 3, 2, false⟩⟩
     let rest : List MetPkt := []
     let i : Nat := 6
     let kind : Nat := 4
     let st : Nat := 0
     let t0 : Nat := 4999000000
     let data : List Byte := List.replicate 24 7
     let extra : List Byte := []
     let q : MetQuery := ⟨none, 4, 0⟩
     let s : State := (wS fun e => { e with mode := .m6, now := 5000000000, met := { e.met with inq := [⟨.answer 6 4 0 (List.replicate 24 7) [], ⟨true, false, false, true, 3, 2, false⟩⟩] }, mets := { e.mets with asked := some (6, 4999000000), queries := [⟨none, 4, 0⟩] } })
     (s.eng.met.inq = p :: rest) ∧ (p.body = .answer i kind st data extra) ∧ (s.eng.mets.asked = some (i, t0)) ∧ (s.eng.mets.queries = [q]) ∧ (q.hseq
       = none) ∧ (kind ≠ 1) ∧ (kind ≠ 2) ∧ (data.length = 24)) ∧
    (let p : MetPkt := ⟨.answer 6 2 0 (List.replicate 24 0) (List.replicate 128 7), ⟨true, false, false, true, 3, 2, false⟩⟩
     let rest : List MetPkt := []
     let i : Nat := 6
     let kind : Nat := 2
     let st : Nat := 0
     let t0 : Nat := 4999000000
     let data : List Byte := List.replicate 24 0
     let extra : List Byte := List.replicate 128 7
     let q : MetQuery := ⟨some 9, 2, 8⟩
     let n : Nat := 9
     let c : OpenCmd := ⟨9, 1, 0x13, .metQuery⟩
     let s : State := (wS fun e => { e with mode := .m6, now := 5000000000, met := { e.met with inq := [⟨.answer 6 2 0 (List.replicate 24 0) (List.replicate 128 7), ⟨true, false, false, true, 3, 2, false⟩⟩] }, opens := [⟨9, 1, 0x13, .metQuery⟩], mets := { e.mets with asked := some (6, 4999000000), queries := [⟨some 9, 2, 8⟩] } })
     (s.eng.met.inq = p :: rest) ∧ (p.body = .answer i kind st data extra) ∧ (s.eng.mets.asked = some (i, t0)) ∧ (s.eng.mets.queries = [q]) ∧ (q.hseq
       = some n) ∧ (kind = 2) ∧ (st = stOk) ∧ (extra.length = 128) ∧ (data.length = 24) ∧ ((s.eng.opens.find? fun c => c.hseq == n && c.wait !=
       Wait.built) = some c) ∧ (s.eng.hears)) ∧
    (let p : MetPkt := ⟨.notice 2 0 7, ⟨true, false, false, true, 3, 2, false⟩⟩
     let rest : List MetPkt := []
     let kind : Nat := 2
     let m : Nat := 0
     let d : Nat := 7
     let s : State := (wS fun e => { e with mode := .m6, now := 5000000000, met := { e.met with inq := [⟨.notice 2 0 7, ⟨true, false, false, true, 3, 2, false⟩⟩] } })
     (s.eng.met.inq = p :: rest) ∧ (p.body = .notice kind m d) ∧ (kind ≠ 4) ∧ (kind ≠ 8) ∧ (s.eng.hears)) ∧
    (let p : MetPkt := ⟨.notice 8 0 0, ⟨true, false, false, true, 3, 2, false⟩⟩
     let rest : List MetPkt := []
     let kind : Nat := 8
     let m : Nat := 0
     let d : Nat := 0
     let s : State := (wS fun e => { e with mode := .m6, now := 5000000000, met := { e.met with inq := [⟨.notice 8 0 0, ⟨true, false, false, true, 3, 2, false⟩⟩] } })
     (s.eng.met.inq = p :: rest) ∧ (p.body = .notice kind m d) ∧ (kind = 8) ∧ (s.eng.mets.noRec = none) ∧ (s.eng.hears)) ∧
    (let p : MetPkt := ⟨.notice 8 0 0, ⟨true, false, false, true, 3, 2, false⟩⟩
     let rest : List MetPkt := []
     let kind : Nat := 8
     let m : Nat := 0
     let d : Nat := 0
     let u : Nat := 4950000000
     let s : State := (wS fun e => { e with mode := .m6, now := 5000000000, met := { e.met with inq := [⟨.notice 8 0 0, ⟨true, false, false, true, 3, 2, false⟩⟩] }, mets := { e.mets with noRec := some 4950000000 } })
     (s.eng.met.inq = p :: rest) ∧ (p.body = .notice kind m d) ∧ (kind = 8) ∧ (s.eng.mets.noRec = some u) ∧ (s.eng.now < u + 100000000)) ∧
    (let p : MetPkt := ⟨.notice 4 0 0x80000103, ⟨true, false, false, true, 3, 2, false⟩⟩
     let rest : List MetPkt := []
     let kind : Nat := 4
     let m : Nat := 0
     let d : Nat := 0x80000103
     let s : State := (wS fun e => { e with mode := .m6, now := 5000000000, met := { e.met with inq := [⟨.notice 4 0 0x80000103, ⟨true, false, false, true, 3, 2, false⟩⟩] } })
     (s.eng.met.inq = p :: rest) ∧ (p.body = .notice kind m d) ∧ (kind = 4) ∧ ((s.eng.mets.fe.getD (d % 8) (none, none)) = (none, none)) ∧
       (s.eng.hears)) ∧
    (let p : MetPkt := ⟨.notice 4 0 0x80000203, ⟨true, false, false, true, 3, 2, false⟩⟩
     let rest : List MetPkt := []
     let kind : Nat := 4
     let m : Nat := 0
     let d : Nat := 0x80000203
     let u : Nat := 4950000000
     let h : Option Nat := some 0x80000103
     let s : State := (wS fun e => { e with mode := .m6, now := 5000000000, met := { e.met with inq := [⟨.notice 4 0 0x80000203, ⟨true, false, false, true, 3, 2, false⟩⟩] }, mets := { e.mets with fe := modAt e.mets.fe 3 fun _ => (some 4950000000, some 0x80000103) } })
     (s.eng.met.inq = p :: rest) ∧ (p.body = .notice kind m d) ∧ (kind = 4) ∧ ((s.eng.mets.fe.getD (d % 8) (none, none)) = (some u, h)) ∧ (s.eng.now
       < u + 100000000)) ∧
    (let n : Fin 8 := 3
     let u : Nat := 4900000000
     let d : Nat := 0x80000303
     let s : State := (wS fun e => { e with mode := .m6, now := 5000000000, mets := { e.mets with fe := modAt e.mets.fe 3 fun _ => (some 4900000000, some 0x80000303) } })
     (s.eng.mets.fe.getD n.val (none, none) = (some u, some d)) ∧ (u + 100000000 ≤ s.eng.now) ∧ (s.eng.hears)) ∧
    (let n : Fin 8 := 3
     let s : State := State.reset
     ((s.eng.mets.fe.getD n.val (none, none)).2 = none)) ∧
    (let s : State := (wS fun e => { e with now := 10000000 })
     (s.eng.mets.lastSync + 10000000 ≤ s.eng.now)) ∧
    (let s : State := State.reset
     (s.eng.now < s.eng.mets.lastSync + 10000000)) ∧
    (let s : State := ((wS fun e => { e with now := 1000000000 }.wr R.MET_STATUS.PRESENT 1))
     (s.eng.on R.MET_STATUS.PRESENT = true) ∧ (s.eng.mets.lastPkt + 1000000000 ≤ s.eng.now) ∧ (s.eng.hears)) ∧
    (let s : State := State.reset
     (s.eng.on R.MET_STATUS.PRESENT = false ∨ s.eng.now < s.eng.mets.lastPkt + 1000000000)) := by
  refine ⟨?_, ?_, ?_, ?_, ?_, ?_, ?_, ?_, ?_, ?_, ?_, ?_, ?_, ?_, ?_, ?_, ?_, ?_, ?_, ?_⟩ <;> decide +kernel

/-- The hypotheses of SectionCommandPackets can be met together. -/
theorem witness_SectionCommandPackets :
    (let s : State := (wS fun e => { e with met := { e.met with cmd := [.ack 3] } })
     (s.eng.met.cmd.head?.all (fun c => match c with | .query _ _ _ => false | _ => true) = true)) ∧
    (let s : State := (wS fun e => { e with met := { e.met with cmd := [.sync 3] } })
     (s.eng.met.cmd.head?.all (fun c => match c with | .ack _ => false | _ => true) = true)) ∧
    (let s : State := (wS fun e => { e with met := { e.met with cmd := [.ack 3] } })
     (s.eng.met.cmd.head?.all (fun c => match c with | .sync _ => false | _ => true) = true)) ∧
    (let s : State := (wS fun e => { e with met := { e.met with cmd := [.ack 3] } })
     (s.eng.met.cmd.head?.all (fun c => match c with | .peer _ => false | _ => true) = true)) ∧
    (let id : Nat := 4
     let arg : Nat := 7
     let rest : List MetCmd := [.sync 9]
     let s : State := ({ wS (fun e => { e with mode := .m6, now := 5000000000, met := { e.met with cmd := [.query 4 0 7, .sync 9] } }) with sec := { Section.reset with mseq := 6, store := [⟨6, List.replicate 128 3, false, none⟩] } })
     (s.eng.met.cmd = .query id 0 arg :: rest) ∧ (s.eng.met.inq.length < 32)) ∧
    (let id : Nat := 4
     let arg : Nat := 7
     let rest : List MetCmd := [.sync 9]
     let s : State := ({ wS (fun e => { e with mode := .m6, now := 5000000000, met := { e.met with cmd := [.query 4 1 7, .sync 9] } }) with sec := { Section.reset with mseq := 6, store := [⟨6, List.replicate 128 3, false, none⟩] } })
     (s.eng.met.cmd = .query id 1 arg :: rest) ∧ (s.eng.met.inq.length < 32)) ∧
    (let id : Nat := 4
     let arg : Nat := 6
     let rest : List MetCmd := [.sync 9]
     let r : SecRec := ⟨6, List.replicate 128 3, false, none⟩
     let s : State := ({ wS (fun e => { e with mode := .m6, now := 5000000000, met := { e.met with cmd := [.query 4 2 6, .sync 9] } }) with sec := { Section.reset with mseq := 6, store := [⟨6, List.replicate 128 3, false, none⟩] } })
     (s.eng.met.cmd = .query id 2 arg :: rest) ∧ (s.eng.met.inq.length < 32) ∧ ((s.sec.store.find? fun r => r.mseq == arg) = some r)) ∧
    (let id : Nat := 4
     let arg : Nat := 7
     let rest : List MetCmd := [.sync 9]
     let s : State := ({ wS (fun e => { e with mode := .m6, now := 5000000000, met := { e.met with cmd := [.query 4 2 7, .sync 9] } }) with sec := { Section.reset with mseq := 6, store := [⟨6, List.replicate 128 3, false, none⟩] } })
     (s.eng.met.cmd = .query id 2 arg :: rest) ∧ (s.eng.met.inq.length < 32) ∧ ((s.sec.store.find? fun r => r.mseq == arg) = none)) ∧
    (let id : Nat := 4
     let arg : Nat := 7
     let rest : List MetCmd := [.sync 9]
     let s : State := ({ wS (fun e => { e with mode := .m6, now := 5000000000, met := { e.met with cmd := [.query 4 3 7, .sync 9] } }) with sec := { Section.reset with mseq := 6, store := [⟨6, List.replicate 128 3, false, none⟩] } })
     (s.eng.met.cmd = .query id 3 arg :: rest) ∧ (s.eng.met.inq.length < 32) ∧ (s.sec.labels.length < 16)) ∧
    (let id : Nat := 4
     let arg : Nat := 7
     let rest : List MetCmd := [.sync 9]
     let s : State := ({ wS (fun e => { e with mode := .m6, now := 5000000000, met := { e.met with cmd := [.query 4 3 7, .sync 9] } }) with sec := { Section.reset with mseq := 6, store := [⟨6, List.replicate 128 3, false, none⟩], labels := List.replicate 16 1 } })
     (s.eng.met.cmd = .query id 3 arg :: rest) ∧ (s.eng.met.inq.length < 32) ∧ (16 ≤ s.sec.labels.length)) ∧
    (let id : Nat := 4
     let arg : Nat := 7
     let rest : List MetCmd := [.sync 9]
     let s : State := ({ wS (fun e => { e with mode := .m6, now := 5000000000, met := { e.met with cmd := [.query 4 4 7, .sync 9] } }) with sec := { Section.reset with mseq := 6, store := [⟨6, List.replicate 128 3, false, none⟩] } })
     (s.eng.met.cmd = .query id 4 arg :: rest) ∧ (s.eng.met.inq.length < 32)) ∧
    (let m : Nat := 7
     let rest : List MetCmd := [.ack 3]
     let s : State := ({ wS (fun e => { e with mode := .m6, now := 5000000000, met := { e.met with cmd := [.ack 7, .ack 3] } }) with sec := { Section.reset with store := [⟨6, [3], false, none⟩, ⟨7, [4], false, none⟩] } })
     (s.eng.met.cmd = .ack m :: rest)) ∧
    (let u : Nat := 7
     let rest : List MetCmd := [.ack 3]
     let s : State := ({ wS (fun e => { e with mode := .m6, now := 5000000000, met := { e.met with cmd := [.sync 7, .ack 3] } }) with sec := { Section.reset with store := [⟨6, [3], false, none⟩, ⟨7, [4], false, none⟩] } })
     (s.eng.met.cmd = .sync u :: rest)) ∧
    (let b : List Byte := List.replicate 128 3
     let rest : List MetCmd := [.ack 3]
     let s : State := ({ wS (fun e => { e with mode := .m6, now := 5000000000, met := { e.met with cmd := [.peer (List.replicate 128 3), .ack 3] } }) with sec := { Section.reset with store := [⟨6, [3], false, none⟩, ⟨7, [4], false, none⟩], params := { SecParams.delivered with pairing := true } } })
     (s.eng.met.cmd = .peer b :: rest)) := by
  refine ⟨?_, ?_, ?_, ?_, ?_, ?_, ?_, ?_, ?_, ?_, ?_, ?_, ?_, ?_⟩ <;> decide +kernel

/-- The hypotheses of SectionRecords can be met together. -/
theorem witness_SectionRecords :
    (let side : Side := 1
     let s : State := State.reset
     (s.eng.met.tap.getD side.val [] = [])) ∧
    (let side : Side := 0
     let b : TapLine := ⟨0, 77, false, 0, 4000, [[], [], [], List.replicate 960 1000], [0, 0, 0, 1]⟩
     let more : List TapLine := []
     let s : State := ({ wS (fun e => { e with mode := .m6, now := 5000000000, met := { e.met with tap := [[⟨0, 77, false, 0, 4000, [[], [], [], List.replicate 960 1000], [0, 0, 0, 1]⟩], []] } }) with sec := { Section.reset with latches := [(0, 3000, 90), (0, 4000, 120)] } })
     (s.eng.met.tap.getD side.val [] = b :: more) ∧ (b.side ≠ s.sec.params.side ∨ b.chk.getD s.sec.params.tapSel 0 ≠ 0)) ∧
    (let side : Side := 0
     let b : TapLine := ⟨0, 77, false, 0, 4000, [[], [], [], List.replicate 960 1000], [0, 0, 0, 0]⟩
     let more : List TapLine := []
     let l : Nat × Nat × Int := (0, 4000, 120)
     let u : Int := 120
     let s : State := ({ wS (fun e => { e with mode := .m6, now := 5000000000, met := { e.met with tap := [[⟨0, 77, false, 0, 4000, [[], [], [], List.replicate 960 1000], [0, 0, 0, 0]⟩], []] } }) with sec := { Section.reset with latches := [(0, 3000, 90), (0, 4000, 120)], used := some 120 } })
     (s.eng.met.tap.getD side.val [] = b :: more) ∧ ((s.sec.latches.find? fun l => l.1 == b.side && l.2.1 == b.time) = some l) ∧ (s.sec.used = some
       u) ∧ (l.2.2 ≤ u)) ∧
    (let side : Side := 0
     let b : TapLine := ⟨0, 77, false, 0, 4000, [[], [], [], List.replicate 960 1000], [0, 0, 0, 0]⟩
     let more : List TapLine := []
     let l : Nat × Nat × Int := (0, 4000, 120)
     let s : State := ({ wS (fun e => { e with mode := .m6, now := 5000000000, met := { e.met with tap := [[⟨0, 77, false, 0, 4000, [[], [], [], List.replicate 960 1000], [0, 0, 0, 0]⟩], []] } }) with sec := { Section.reset with latches := [(0, 3000, 90), (0, 4000, 120)], learnN := 15, learnSum := 14400000 } })
     (s.eng.met.tap.getD side.val [] = b :: more) ∧ (b.side = s.sec.params.side) ∧ (b.chk.getD s.sec.params.tapSel 0 = 0) ∧ ((s.sec.latches.find? fun
       l => l.1 == b.side && l.2.1 == b.time) = some l) ∧ (s.sec.used.getD (l.2.2 - 1) < l.2.2) ∧ (s.sec.learnN < 16)) ∧
    (let side : Side := 0
     let b : TapLine := ⟨0, 77, false, 0, 4000, [[], [], [], List.replicate 959 1000 ++ [1200]], [0, 0, 0, 0]⟩
     let more : List TapLine := []
     let l : Nat × Nat × Int := (0, 4000, 120)
     let s : State := ({ wS (fun e => { e with mode := .m6, now := 5000000000, met := { e.met with tap := [[⟨0, 77, false, 0, 4000, [[], [], [], List.replicate 959 1000 ++ [1200]], [0, 0, 0, 0]⟩], []] } }) with sec := { Section.reset with latches := [(0, 3000, 90), (0, 4000, 120)], learnN := 16, back := 1000, labels := [44, 45] } })
     (s.eng.met.tap.getD side.val [] = b :: more) ∧ (b.side = s.sec.params.side) ∧ (b.chk.getD s.sec.params.tapSel 0 = 0) ∧ ((s.sec.latches.find? fun
       l => l.1 == b.side && l.2.1 == b.time) = some l) ∧ (s.sec.used.getD (l.2.2 - 1) < l.2.2) ∧ (16 ≤ s.sec.learnN) ∧ (400 ≤ s.sec.back) ∧
       (s.sec.back ≤ 3900) ∧ (s.sec.pieces = []) ∧ ((s.sec.docValues (s.sec.contrasts (b.rows.getD s.sec.params.tapSel []))).any id = true)) ∧
    (let side : Side := 0
     let b : TapLine := ⟨0, 77, false, 0, 4000, [[], [], [], List.replicate 959 1000 ++ [1100]], [0, 0, 0, 0]⟩
     let more : List TapLine := []
     let l : Nat × Nat × Int := (0, 4000, 120)
     let p : Piece := ⟨9, 4000000, none, 500, false, false, false, false, false, [], [], [], 1000, 1000, 50, 90, false, none, none, 0⟩
     let s : State := ({ wS (fun e => { e with mode := .m6, now := 5000000000, met := { e.met with tap := [[⟨0, 77, false, 0, 4000, [[], [], [], List.replicate 959 1000 ++ [1100]], [0, 0, 0, 0]⟩], []] } }) with sec := { Section.reset with latches := [(0, 3000, 90), (0, 4000, 120)], learnN := 16, back := 1000, pieces := [⟨9, 4000000, none, 500, false, false, false, false, false, [], [], [], 1000, 1000, 50, 90, false, none, none, 0⟩] } })
     (s.eng.met.tap.getD side.val [] = b :: more) ∧ (b.side = s.sec.params.side) ∧ (b.chk.getD s.sec.params.tapSel 0 = 0) ∧ ((s.sec.latches.find? fun
       l => l.1 == b.side && l.2.1 == b.time) = some l) ∧ (s.sec.used.getD (l.2.2 - 1) < l.2.2) ∧ (16 ≤ s.sec.learnN) ∧ (400 ≤ s.sec.back) ∧
       (s.sec.back ≤ 3900) ∧ (s.sec.pieces = [p]) ∧ (p.closed = false) ∧ ((s.sec.docValues (s.sec.contrasts (b.rows.getD s.sec.params.tapSel
       []))).any id = false)) ∧
    (let s : State := State.reset
     ((s.sec.pieces.head?.bind fun p => p.ready) = none)) ∧
    (let p : Piece := ⟨9, 4000000, none, 500, false, false, false, false, false, [], [], [], 1000, 1000, 100, 300, true, some 4960000000, none, 0⟩
     let rest : List Piece := []
     let u : Nat := 4960000000
     let s : State := ({ wS (fun e => { e with mode := .m6, now := 5000000000 }) with sec := { Section.reset with mseq := 6, pieces := [⟨9, 4000000, none, 500, false, false, false, false, false, [], [], [], 1000, 1000, 100, 300, true, some 4960000000, none, 0⟩], params := { SecParams.delivered with pairing := true } } })
     (s.sec.pieces = p :: rest) ∧ (p.ready = some u) ∧ (s.sec.params.pairing = true) ∧ (p.peer = none) ∧ (s.eng.secNow < u + 50000000)) ∧
    (let p : Piece := ⟨9, 4000000, none, 500, false, false, false, false, false, [], [], [], 1000, 1000, 100, 300, true, some 4960000000, none, 0⟩
     let rest : List Piece := []
     let u : Nat := 4960000000
     let s : State := ({ wS (fun e => { e with mode := .m6, now := 5000000000 }) with sec := { Section.reset with mseq := 6, pieces := [⟨9, 4000000, none, 500, false, false, false, false, false, [], [], [], 1000, 1000, 100, 300, true, some 4960000000, none, 0⟩] } })
     (s.sec.pieces = p :: rest) ∧ (p.ready = some u) ∧ (s.sec.params.pairing = false ∨ p.peer ≠ none ∨ u + 50000000 ≤ s.eng.secNow) ∧ (s.sec.backlog
       < 4096) ∧ (s.sec.store.length < 4096) ∧ (s.eng.met.inq.length < 29)) ∧
    (let p : Piece := ⟨9, 4000000, none, 500, false, false, false, false, false, [], [], [], 1000, 1000, 100, 300, true, some 4960000000, none, 0⟩
     let rest : List Piece := []
     let u : Nat := 4960000000
     let s : State := ({ wS (fun e => { e with mode := .m6, now := 5000000000 }) with sec := { Section.reset with mseq := 6, pieces := [⟨9, 4000000, none, 500, false, false, false, false, false, [], [], [], 1000, 1000, 100, 300, true, some 4960000000, none, 0⟩], store := List.replicate 4096 ⟨1, [], false, none⟩ } })
     (s.sec.pieces = p :: rest) ∧ (p.ready = some u) ∧ (s.sec.params.pairing = false) ∧ (4096 ≤ s.sec.backlog) ∧ (s.eng.met.inq.length < 32)) ∧
    (let r : SecRec := ⟨6, [3], false, none⟩
     let s : State := ({ wS (fun e => { e with mode := .m6, now := 5000000000, met := { e.met with cmd := [.ack 7, .ack 3] } }) with sec := { Section.reset with store := [⟨6, [3], false, none⟩, ⟨7, [4], false, none⟩] } })
     ((s.sec.store.find? fun r => !r.acked && (r.sent.all fun t => decide (t + 5000000 ≤ s.eng.secNow))) = some r) ∧ (s.eng.met.inq.length < 32)) ∧
    (let s : State := State.reset
     (s.sec.store.all (fun r => r.acked) = true)) := by
  refine ⟨?_, ?_, ?_, ?_, ?_, ?_, ?_, ?_, ?_, ?_, ?_, ?_⟩ <;> decide +kernel

/-- The hypotheses of SectionSecurity can be met together. -/
theorem witness_SectionSecurity :
    (let s : State := ({ wS (fun e => { e with mode := .m6, now := 5000000000 }) with sec := { Section.reset with sealOpen := true } })
     (s.sec.sealOpen = true)) ∧
    (let s : State := ({ wS (fun e => { e with mode := .m6, now := 5000000000, met := { e.met with inq := [⟨.notice 2 0 0, ⟨false, false, false, false, 0, 0, false⟩⟩] } }) with sec := { Section.reset with pieces := [⟨9, 4000000, none, 500, false, false, false, false, false, [], [], [], 1000, 1000, 50, 90, false, none, none, 0⟩] } })
     (s.sec.sealOpen = false) ∧ (s.eng.hears)) ∧
    (let s : State := State.reset
     (s.sec.sealOpen = false)) ∧
    (let s : State := ({ wS (fun e => { e with mode := .m6, now := 5000000000 }) with sec := { Section.reset with sealOpen := true, audit := 4, params := { SecParams.delivered with sL := 50000 } } })
     (s.sec.sealOpen = true) ∧ (s.eng.mode ≠ .m11)) ∧
    (let s : State := ({ wS (fun e => { e with mode := .m6, now := 5000000000 }) with sec := { Section.reset with sealOpen := true } })
     (s.sec.sealOpen = true) ∧ (s.eng.mode ≠ .m11) ∧ ((crc32c (((upTo 12).map fun k => leBytes 4 (s.sec.rd (R.MET_POLY.V k))).flatten)).toNat ≠
       s.sec.rd R.MET_POLY_CRC.V) ∧ (s.eng.met.inq.length < 28) ∧ ((∀ n : Fin 4, s.sec.actOn (R.MET_TH_CFG.EN n.val) = false)) ∧ (s.sec.fe.th =
       [false, false, false, false])) ∧
    (let s : State := ({ wS (fun e => { e with mode := .m11, now := 5000000000 }) with sec := { Section.reset with sealOpen := true } })
     (s.sec.sealOpen = true) ∧ (s.eng.mode = .m11) ∧ (s.eng.roomy)) ∧
    (let off : BitVec 16 := 0#16
     let s : State := State.reset
     (s.sec.sealOpen = false ∨ off.toNat % 4 ≠ 0)) ∧
    (let off : BitVec 16 := 0x144#16
     let r : RegSpec := ((RegMap.findIn RegMap.secRegs 0x200144).map Prod.fst).getD ⟨"", 0, [], 0, []⟩
     let ix : List Nat := []
     let s : State := ({ wS (fun e => { e with mode := .m6, now := 5000000000 }) with sec := { Section.reset with sealOpen := true } })
     (s.sec.sealOpen = true) ∧ (off.toNat % 4 = 0) ∧ (off.toNat < 0x200) ∧ (RegMap.findIn RegMap.secRegs (0x200000 + off.toNat) = some (r, ix)) ∧
       (off.toNat ≠ 4 ∨ s.sec.on R.MET_CONV_CTRL.SEQ_EN = false)) ∧
    (let off : BitVec 16 := 4#16
     let s : State := ({ wS (fun e => { e with mode := .m6, now := 5000000000 }) with sec := { Section.reset with sealOpen := true } })
     (s.sec.sealOpen = true) ∧ (off.toNat = 4) ∧ (s.sec.on R.MET_CONV_CTRL.SEQ_EN = true)) ∧
    (let off : BitVec 16 := 0x200#16
     let s : State := ({ wS (fun e => { e with mode := .m6, now := 5000000000 }) with sec := { Section.reset with sealOpen := true } })
     (s.sec.sealOpen = true) ∧ (off.toNat = 0x200)) ∧
    (let off : BitVec 16 := 0x218#16
     let s : State := ({ wS (fun e => { e with mode := .m6, now := 5000000000 }) with sec := { Section.reset with sealOpen := true } })
     (s.sec.sealOpen = true) ∧ (off.toNat = 0x218)) := by
  refine ⟨?_, ?_, ?_, ?_, ?_, ?_, ?_, ?_, ?_, ?_, ?_⟩ <;> decide +kernel

/-- The hypotheses of SectionFrontEnd can be met together. -/
theorem witness_SectionFrontEnd :
    (let s : State := ({ wS (fun e => { e with mode := .m6, now := 5000000000 }) with sec := (Section.reset.wr R.MET_CONV_CTRL.RUN 0) })
     (s.sec.fe.cur = none) ∧ (s.sec.on R.MET_CONV_CTRL.RUN = false)) ∧
    (let s : State := State.reset
     (s.sec.on R.MET_CONV_CTRL.RUN = true) ∧ (s.sec.fe.cur = none) ∧ (s.sec.on R.MET_CONV_CTRL.SEQ_EN = true) ∧ (s.sec.enabledIn = [])) ∧
    (let i : Nat := 2
     let cm : Int := 2500
     let s : State := ({ wS (fun e => { e with mode := .m6, now := 5000000000 }) with sec := { (Section.reset.wr (R.MET_IN_CFG.EN 2) 1) with fe := { FeSt.init with cur := some 2, outs := 3 } } })
     (s.sec.fe.cur = some i) ∧ (i < 8) ∧ (s.sec.fe.ins.length = 8) ∧ ((R.MET_IN_CFG.TYPE 0).get s.sec.fe.cfg = 0) ∧ ((R.MET_IN_CFG.PRESET 0).get
       s.sec.fe.cfg ≠ 3) ∧ ((R.MET_IN_CFG.BURN 0).get s.sec.fe.cfg = 0) ∧ ((s.sec.inp i).live = [0, 0, 0, 0, 0]) ∧ ((s.sec.act R.MET_CM_WIN.LO : Int)
       ≤ cm) ∧ (cm ≤ (s.sec.act R.MET_CM_WIN.HI : Int)) ∧ ((s.sec.inp i).gain < 8) ∧ ((∀ n : Fin 4, s.sec.actOn (R.MET_TH_CFG.EN n.val) = false)) ∧
       (s.sec.fe.th = [false, false, false, false]) ∧ (s.sec.fe.outs < 4)) ∧
    (let i : Nat := 2
     let nv : Int := -1250000000
     let cm : Int := 2500
     let s : State := ({ wS (fun e => { e with mode := .m6, now := 5000000000 }) with sec := { (Section.reset.wr (R.MET_IN_CFG.EN 2) 1) with fe := { FeSt.init with cur := some 2, outs := 4 } } })
     (s.sec.fe.cur = some i) ∧ (i < 8) ∧ (s.sec.fe.ins.length = 8) ∧ ((R.MET_IN_CFG.TYPE 0).get s.sec.fe.cfg = 0) ∧ ((R.MET_IN_CFG.PRESET 0).get
       s.sec.fe.cfg ≠ 3) ∧ ((R.MET_IN_CFG.BURN 0).get s.sec.fe.cfg = 0) ∧ ((s.sec.inp i).live = [0, 0, 0, 0, 0]) ∧ ((s.sec.act R.MET_CM_WIN.LO : Int)
       ≤ cm) ∧ (cm ≤ (s.sec.act R.MET_CM_WIN.HI : Int)) ∧ ((s.sec.inp i).gain < 8) ∧ ((∀ n : Fin 4, s.sec.actOn (R.MET_TH_CFG.EN n.val) = false)) ∧
       (s.sec.fe.th = [false, false, false, false]) ∧ (4 ≤ s.sec.fe.outs) ∧ ((R.MET_IN_CFG.LIN 0).get s.sec.fe.cfg = 0) ∧ (-106 / 100 ≤ ((nv : Rat) /
       1000000000 * ((2 ^ (s.sec.inp i).gain : Nat) : Rat) / (5 / 2))) ∧ (((nv : Rat) / 1000000000 * ((2 ^ (s.sec.inp i).gain : Nat) : Rat) / (5 /
       2)) ≤ 106 / 100)) ∧
    (let i : Nat := 2
     let nv : Int := -2750000000
     let cm : Int := 2500
     let s : State := ({ wS (fun e => { e with mode := .m6, now := 5000000000 }) with sec := { (Section.reset.wr (R.MET_IN_CFG.EN 2) 1) with fe := { FeSt.init with cur := some 2, outs := 4 } } })
     (s.sec.fe.cur = some i) ∧ (i < 8) ∧ (s.sec.fe.ins.length = 8) ∧ ((R.MET_IN_CFG.TYPE 0).get s.sec.fe.cfg = 0) ∧ ((R.MET_IN_CFG.PRESET 0).get
       s.sec.fe.cfg ≠ 3) ∧ ((R.MET_IN_CFG.BURN 0).get s.sec.fe.cfg = 0) ∧ ((s.sec.inp i).live = [0, 0, 0, 0, 0]) ∧ ((s.sec.act R.MET_CM_WIN.LO : Int)
       ≤ cm) ∧ (cm ≤ (s.sec.act R.MET_CM_WIN.HI : Int)) ∧ ((s.sec.inp i).gain < 8) ∧ ((∀ n : Fin 4, s.sec.actOn (R.MET_TH_CFG.EN n.val) = false)) ∧
       (s.sec.fe.th = [false, false, false, false]) ∧ (4 ≤ s.sec.fe.outs) ∧ ((R.MET_IN_CFG.LIN 0).get s.sec.fe.cfg ≠ 2) ∧ (((nv : Rat) / 1000000000 *
       ((2 ^ (s.sec.inp i).gain : Nat) : Rat) / (5 / 2)) < -106 / 100)) ∧
    (let n : Fin 8 := 5
     let s : State := ({ wS (fun e => { e with mode := .m6, now := 5000000000 }) with sec := Section.reset })
     (s.sec.fe.ins.length = 8) ∧ ((s.sec.inp n.val).live.length = 5) ∧ ((∀ n : Fin 4, s.sec.actOn (R.MET_TH_CFG.EN n.val) = false)) ∧ (s.sec.fe.th =
       [false, false, false, false]) ∧ ((s.sec.inp n.val).live.getD 3 0 = 0) ∧ (s.eng.met.inq.length < 32)) ∧
    (let n : Fin 8 := 5
     let s : State := ({ wS (fun e => { e with mode := .m6, now := 5000000000 }) with sec := { Section.reset with fe := { FeSt.init with ins := modAt FeSt.init.ins 5 fun x => { x with live := [0, 0, 0, 1, 0] } } } })
     (s.sec.fe.ins.length = 8) ∧ ((s.sec.inp n.val).live.length = 5) ∧ ((∀ n : Fin 4, s.sec.actOn (R.MET_TH_CFG.EN n.val) = false)) ∧ (s.sec.fe.th =
       [false, false, false, false]) ∧ ((s.sec.inp n.val).live.getD 3 0 ≠ 0) ∧ (s.eng.met.inq.length < 32)) ∧
    (let s : State := State.reset
     (s.eng.met.inq.length < 32)) ∧
    (let p : MetPkt := ⟨.temps [], ⟨false, false, false, false, 0, 0, false⟩⟩
     let rest : List MetPkt := List.replicate 31 ⟨.temps [], ⟨false, false, false, false, 0, 0, false⟩⟩
     let s : State := ({ wS (fun e => { e with mode := .m6, now := 5000000000, met := { e.met with inq := List.replicate 32 ⟨.temps [], ⟨false, false, false, false, 0, 0, false⟩⟩ } }) with sec := Section.reset })
     (s.eng.met.inq = p :: rest) ∧ (rest.length = 31)) ∧
    (let s : State := State.reset
     (s.eng.met.inq.length < 32)) := by
  refine ⟨?_, ?_, ?_, ?_, ?_, ?_, ?_, ?_, ?_, ?_⟩ <;> decide +kernel

/-- The hypotheses of PairLink can be met together. -/
theorem witness_PairLink :
    (let s : State := (wS fun e => ({ wSetup { e with mode := .m6, now := 5000000000 } with pair := { PairSt.init with hbStopped := false, linkUp := true, role := 1, st := 2 } } : Engine)|>.wr R.PAIR_CTRL.EN 1 |>.wr R.UHP_SELECT.VER 3)
     (s.eng.pairEnabled = true) ∧ (s.eng.pair.hbStopped = false) ∧ (s.eng.on R.QDR_STATUS.HALT = false) ∧ (s.eng.pins.failed = false) ∧
       (s.eng.pair.lastSent + 100000 ≤ s.eng.now) ∧ (s.eng.pair.st ≠ 3) ∧ (s.eng.pair.linkUp = true) ∧ (¬ (s.eng.pair.role = 1 ∧ (s.eng.pair.st = 2 ∨
       s.eng.pair.st = 3) ∧ s.eng.pair.image.begun = true))) ∧
    (let u : Nat := 4999800000
     let s : State := (wS fun e => ({ wSetup { e with mode := .m6, now := 5000000000 } with pair := { PairSt.init with hbStopped := false, linkUp := true, role := 1, st := 3, lastPeer := some 4999800000 } } : Engine)|>.wr R.PAIR_CTRL.EN 1 |>.wr R.UHP_SELECT.VER 3)
     (s.eng.pairEnabled = true) ∧ (s.eng.pair.hbStopped = false) ∧ (s.eng.on R.QDR_STATUS.HALT = false) ∧ (s.eng.pins.failed = false) ∧
       (s.eng.pair.lastSent + 100000 ≤ s.eng.now) ∧ (s.eng.pair.st = 3) ∧ (s.eng.pair.linkUp = true) ∧ (¬ (s.eng.pair.role = 1 ∧ (s.eng.pair.st = 2 ∨
       s.eng.pair.st = 3) ∧ s.eng.pair.image.begun = true)) ∧ (s.eng.pair.lastPeer = some u) ∧ (u + 100000 < s.eng.now)) ∧
    (let u : Nat := 4999950000
     let s : State := (wS fun e => ({ wSetup { e with mode := .m6, now := 5000000000 } with pair := { PairSt.init with hbStopped := false, linkUp := true, role := 1, st := 3, lastPeer := some 4999950000, image := { MirrorImage.init with begun := true } } } : Engine)|>.wr R.PAIR_CTRL.EN 1 |>.wr R.UHP_SELECT.VER 3)
     (s.eng.pairEnabled = true) ∧ (s.eng.pair.hbStopped = false) ∧ (s.eng.on R.QDR_STATUS.HALT = false) ∧ (s.eng.pins.failed = false) ∧
       (s.eng.pair.lastSent + 100000 ≤ s.eng.now) ∧ (s.eng.pair.linkUp = true) ∧ (s.eng.pair.role = 1 ∧ (s.eng.pair.st = 2 ∨ s.eng.pair.st = 3) ∧
       s.eng.pair.image.begun = true) ∧ (s.eng.pair.lastPeer = some u) ∧ (s.eng.now ≤ u + 100000)) ∧
    (let own : Bool := false
     let s : State := (wS fun e => ({ wSetup { e with mode := .m6, now := 5000000000 } with pair := { PairSt.init with hbStopped := true, role := 1, st := 3, peerOwn := true } } : Engine)|>.wr R.PAIR_CTRL.EN 1 |>.wr R.UHP_SELECT.VER 3)
     (s.eng.pair.hbStopped = true) ∧ (own = false ∨ s.eng.pair.role ≠ 2)) ∧
    (let s : State := (wS fun e => { e with pair := { PairSt.init with hbStopped := false } })
     (s.eng.pairEnabled = false) ∧ (s.eng.pair.hbStopped = false)) ∧
    (let f : PairFrame := ⟨0, true, .heartbeat⟩
     let s : State := State.reset
     (f.crcOk = false ∨ s.eng.pair.linkUp = false ∨ s.eng.pairEnabled = false)) ∧
    (let f : PairFrame := ⟨6, true, .heartbeat⟩
     let s : State := (wS fun e => ({ wSetup { e with mode := .m6, now := 5000000000 } with pair := { PairSt.init with linkUp := true, plver := 2, rxNext := 7, role := 1, st := 4 } } : Engine)|>.wr R.PAIR_CTRL.EN 1 |>.wr R.UHP_SELECT.VER 3)
     (f.crcOk = true) ∧ (s.eng.pair.linkUp = true) ∧ (s.eng.pairEnabled = true) ∧ (s.eng.modeIn [0, 1] = false) ∧ (f.body = .heartbeat) ∧ (f.number ≠
       s.eng.pair.rxNext)) ∧
    (let f : PairFrame := ⟨7, true, .heartbeat⟩
     let s : State := (wS fun e => ({ wSetup { e with mode := .m6, now := 5000000000 } with pair := { PairSt.init with linkUp := true, plver := 2, rxNext := 7, role := 2, st := 5 } } : Engine)|>.wr R.PAIR_CTRL.EN 1 |>.wr R.UHP_SELECT.VER 3)
     (f.crcOk = true) ∧ (s.eng.pair.linkUp = true) ∧ (s.eng.pairEnabled = true) ∧ (s.eng.modeIn [0, 1] = false) ∧ (f.body = .heartbeat) ∧ (f.number =
       s.eng.pair.rxNext) ∧ (¬ ((s.eng.pair.role = 1 ∧ s.eng.pair.st = 4 ∧ s.eng.pair.plver ≠ 0) ∨ (s.eng.pair.role = 2 ∧ s.eng.pair.st = 5 ∧
       s.eng.pair.peerOwn = true)))) ∧
    (let f : PairFrame := ⟨7, true, .heartbeat⟩
     let s : State := (wS fun e => ({ wSetup { e with mode := .m6, now := 5000000000 } with pair := { PairSt.init with linkUp := true, plver := 2, rxNext := 7, role := 1, st := 4 } } : Engine)|>.wr R.PAIR_CTRL.EN 1 |>.wr R.UHP_SELECT.VER 3)
     (f.crcOk = true) ∧ (s.eng.pair.linkUp = true) ∧ (s.eng.pairEnabled = true) ∧ (s.eng.modeIn [0, 1] = false) ∧ (f.body = .heartbeat) ∧ (f.number =
       s.eng.pair.rxNext) ∧ (s.eng.pair.role = 1) ∧ (s.eng.pair.st = 4) ∧ (s.eng.pair.plver ≠ 0) ∧ (s.eng.ver = 3) ∧ (s.eng.hears)) ∧
    (let f : PairFrame := ⟨0, true, .ack 4⟩
     let n : Nat := 4
     let s : State := (wS fun e => ({ wSetup { e with mode := .m6, now := 5000000000 } with pair := { PairSt.init with linkUp := true, plver := 2, rxNext := 7, role := 1, st := 3, tx := [⟨3, some 1, 1, none, .heartbeat⟩, ⟨4, some 2, 2, some (.event 9), .delta []⟩, ⟨5, some 3, 3, none, .heartbeat⟩] } } : Engine)|>.wr R.PAIR_CTRL.EN 1 |>.wr R.UHP_SELECT.VER 3)
     (f.crcOk = true) ∧ (s.eng.pair.linkUp = true) ∧ (s.eng.pairEnabled = true) ∧ (s.eng.modeIn [0, 1] = false) ∧ (f.body = .ack n)) ∧
    (let f : PairFrame := ⟨7, true, .delta [.reg 0x5104 77]⟩
     let off : BitVec 20 := 0x5104#20
     let v : Word := 77#32
     let s : State := (wS fun e => ({ wSetup { e with mode := .m6, now := 5000000000 } with pair := { PairSt.init with linkUp := true, plver := 2, rxNext := 7, role := 2, st := 2 } } : Engine)|>.wr R.PAIR_CTRL.EN 1 |>.wr R.UHP_SELECT.VER 3)
     (f.crcOk = true) ∧ (s.eng.pair.linkUp = true) ∧ (s.eng.pairEnabled = true) ∧ (s.eng.modeIn [0, 1] = false) ∧ (f.body = .delta [.reg off v]) ∧
       (f.number = s.eng.pair.rxNext) ∧ (s.eng.pair.role = 2) ∧ ((RegMap.find off.toNat).isSome = true) ∧ (∀ k : Fin 2, off.toNat ≠
       (R.AFE_REF_CTRL.word k.val).off) ∧ (∀ c : Fin 64, off.toNat ≠ (R.AFE_CH_CFG.RANGE (c.val / 32) (c.val % 32)).off) ∧ (off.toNat < 0x1000 ∨
       (0x2000 ≤ off.toNat ∧ off.toNat < 0x11000) ∨ 0x12000 ≤ off.toNat)) ∧
    (let f : PairFrame := ⟨7, true, .delta [.reg (BitVec.ofNat 20 (R.AFE_CH_CFG.RANGE 1 3).off) ((R.AFE_CH_CFG.RANGE 1 3).put 0 1)]⟩
     let off : BitVec 20 := BitVec.ofNat 20 (R.AFE_CH_CFG.RANGE 1 3).off
     let v : Word := (R.AFE_CH_CFG.RANGE 1 3).put 0 1
     let c : Fin 64 := 35
     let s : State := (wS fun e => ({ wSetup { e with mode := .m6, now := 5000000000 } with pair := { PairSt.init with linkUp := true, plver := 2, rxNext := 7, role := 2, st := 2 } } : Engine)|>.wr R.PAIR_CTRL.EN 1 |>.wr R.UHP_SELECT.VER 3)
     (f.crcOk = true) ∧ (s.eng.pair.linkUp = true) ∧ (s.eng.pairEnabled = true) ∧ (s.eng.modeIn [0, 1] = false) ∧ (f.body = .delta [.reg off v]) ∧
       (f.number = s.eng.pair.rxNext) ∧ (s.eng.pair.role = 2) ∧ (off.toNat = (R.AFE_CH_CFG.RANGE (c.val / 32) (c.val % 32)).off) ∧
       ((R.AFE_CH_CFG.RANGE (c.val / 32) (c.val % 32)).get v ≠ s.eng.rd (R.AFE_CH_CFG.RANGE (c.val / 32) (c.val % 32)))) ∧
    (let f : PairFrame := ⟨7, true, .bulkDone⟩
     let s : State := (wS fun e => ({ wSetup { e with mode := .m6, now := 5000000000 } with pair := { PairSt.init with linkUp := true, plver := 2, rxNext := 7, role := 2, st := 2 } } : Engine)|>.wr R.PAIR_CTRL.EN 1 |>.wr R.UHP_SELECT.VER 3)
     (f.crcOk = true) ∧ (s.eng.pair.linkUp = true) ∧ (s.eng.pairEnabled = true) ∧ (s.eng.modeIn [0, 1] = false) ∧ (f.body = .bulkDone) ∧ (f.number =
       s.eng.pair.rxNext) ∧ (s.eng.pair.role = 2) ∧ (s.eng.pair.st = 2) ∧ (s.eng.ver = 3) ∧ (s.eng.hears)) ∧
    (let f : PairFrame := ⟨7, true, .peerRecord [1]⟩
     let r : List Byte := [1]
     let s : State := (wS fun e => ({ wSetup { e with mode := .m6, now := 5000000000 } with pair := { PairSt.init with linkUp := true, plver := 2, rxNext := 7, role := 1, st := 3 } } : Engine)|>.wr R.PAIR_CTRL.EN 1 |>.wr R.UHP_SELECT.VER 3)
     (f.crcOk = true) ∧ (s.eng.pair.linkUp = true) ∧ (s.eng.pairEnabled = true) ∧ (s.eng.modeIn [0, 1] = false) ∧ (f.body = .peerRecord r) ∧
       (f.number = s.eng.pair.rxNext) ∧ (s.eng.pair.plver = 2)) ∧
    (let f : PairFrame := ⟨7, true, .peerRecord [1]⟩
     let r : List Byte := [1]
     let s : State := (wS fun e => ({ wSetup { e with mode := .m6, now := 5000000000 } with pair := { PairSt.init with linkUp := true, plver := 1, rxNext := 7, role := 1, st := 3 } } : Engine)|>.wr R.PAIR_CTRL.EN 1 |>.wr R.UHP_SELECT.VER 3)
     (f.crcOk = true) ∧ (s.eng.pair.linkUp = true) ∧ (s.eng.pairEnabled = true) ∧ (s.eng.modeIn [0, 1] = false) ∧ (f.body = .peerRecord r) ∧
       (f.number = s.eng.pair.rxNext) ∧ (s.eng.pair.plver ≠ 2)) ∧
    (let s : State := State.reset
     (s.eng.pair.linkUp = false)) ∧
    (let s : State := (wS fun e => ({ wSetup { e with mode := .m6, now := 5000000000 } with pair := { PairSt.init with linkUp := true, role := 1, st := 3, tx := [⟨3, some 1, 1, none, .heartbeat⟩, ⟨4, some 4999999000, 2, none, .heartbeat⟩, ⟨5, none, 3, some (.event 9), .delta []⟩] } } : Engine)|>.wr R.PAIR_CTRL.EN 1 |>.wr R.UHP_SELECT.VER 3)
     (s.eng.pair.linkUp = true)) ∧
    (let s : State := State.reset
     ((s.eng.pair.tx.find? fun x => x.delta.isSome) = none) ∧ (s.eng.pair.releasing = false)) ∧
    (let f : TxFrame := ⟨4, none, 4999990000, some (.event 9), .delta []⟩
     let d : Nat := 9
     let s : State := (wS fun e => ({ wSetup { e with mode := .m6, now := 5000000000, evt := { e.evt with queue := [⟨1, 0, 0, some 5, 9, 4999990000, 0, [], .none, true⟩] } } with pair := { PairSt.init with role := 1, st := 3, tx := [⟨3, some 1, 1, none, .heartbeat⟩, ⟨4, none, 4999990000, some (.event 9), .delta []⟩] } } : Engine)|>.wr R.PAIR_CTRL.EN 1 |>.wr R.UHP_SELECT.VER 3)
     ((s.eng.pair.tx.find? fun x => x.delta.isSome) = some f) ∧ (f.delta = some (.event d)) ∧ (s.eng.pair.releasing = false) ∧ (s.eng.pair.plver ≠ 2)
       ∧ (∀ v ∈ s.eng.evt.unacked, v.dseq ≠ d)) ∧
    (let f : TxFrame := ⟨4, none, 4999990000, some .record, .delta []⟩
     let m : Nat := 8
     let b : List Byte := [1]
     let rest : List (Nat × List Byte × Bool) := [(9, [2], true)]
     let s : State := (wS fun e => ({ wSetup { e with mode := .m6, now := 5000000000, mets := { e.mets with recv := [(8, [1], true), (9, [2], true)] } } with pair := { PairSt.init with role := 1, st := 3, tx := [⟨4, none, 4999990000, some .record, .delta []⟩] } } : Engine)|>.wr R.PAIR_CTRL.EN 1 |>.wr R.UHP_SELECT.VER 3)
     ((s.eng.pair.tx.find? fun x => x.delta.isSome) = some f) ∧ (f.delta = some .record) ∧ (s.eng.pair.releasing = false) ∧ (s.eng.pair.plver ≠ 2) ∧
       (s.eng.mets.recv = (m, b, true) :: rest)) ∧
    (let f : TxFrame := ⟨4, none, 4999990000, some (.event 9), .delta []⟩
     let d : Nat := 9
     let v : Ev := ⟨1, 0, 0, some 5, 9, 4999990000, 0, [], .none, true⟩
     let s : State := (wS fun e => ({ wSetup { e with mode := .m6, now := 5000000000, evt := { e.evt with unacked := [⟨1, 0, 0, some 5, 9, 4999990000, 0, [], .none, true⟩] } } with pair := { PairSt.init with role := 1, st := 3, tx := [⟨4, none, 4999990000, some (.event 9), .delta []⟩] } } : Engine)|>.wr R.PAIR_CTRL.EN 1 |>.wr R.UHP_SELECT.VER 3)
     ((s.eng.pair.tx.find? fun x => x.delta.isSome) = some f) ∧ (f.delta = some (.event d)) ∧ (s.eng.pair.releasing = false) ∧ (s.eng.pair.plver ≠ 2)
       ∧ (s.eng.evt.unacked = [v]) ∧ (v.dseq = d) ∧ (v.book = .none) ∧ (∀ x ∈ s.eng.evt.queue, x.dseq ≠ d)) ∧
    (let f : TxFrame := ⟨4, none, 4999990000, some (.command 9), .delta []⟩
     let h : Nat := 9
     let s : State := (wS fun e => ({ wSetup { e with mode := .m6, now := 5000000000 } with pair := { PairSt.init with role := 1, st := 3, tx := [⟨4, none, 4999990000, some (.command 9), .delta []⟩] } } : Engine)|>.wr R.PAIR_CTRL.EN 1 |>.wr R.UHP_SELECT.VER 3 |>.wr (R.UHP_R_CTRL.LOG2 0) 4 |>.wr (R.UHP_R_STATE.DEV_IDX 0) 15)
     ((s.eng.pair.tx.find? fun x => x.delta.isSome) = some f) ∧ (f.delta = some (.command h)) ∧ (s.eng.pair.releasing = false) ∧ (s.eng.pair.plver ≠
       2)) ∧
    (let s : State := (wS fun e => ({ wSetup { e with mode := .m6, now := 5000000000 } with pair := { PairSt.init with role := 1, st := 3, plver := 2, tx := [⟨3, some 1, 1, none, .heartbeat⟩, ⟨4, none, 4999990000, some .state, .delta []⟩, ⟨5, none, 4999990000, some .state, .delta [.fresh]⟩] } } : Engine)|>.wr R.PAIR_CTRL.EN 1 |>.wr R.UHP_SELECT.VER 3)
     (s.eng.pair.plver = 2) ∧ (s.eng.pair.releasing = false) ∧ (∀ x ∈ s.eng.pair.tx, x.delta = none ∨ x.delta = some .state) ∧ ((s.eng.pair.tx.filter
       fun x => x.delta.isSome).length ≤ 16)) ∧
    (let versions : Nat := 2
     let s : State := (wS fun e => ({ wSetup { e with mode := .m6, now := 5000000000 } with pair := { PairSt.init with role := 1, st := 4, tx := [⟨3, some 1, 1, none, .heartbeat⟩, ⟨6, none, 1, some .state, .delta []⟩] } } : Engine)|>.wr R.PAIR_CTRL.EN 1 |>.wr R.UHP_SELECT.VER 3)
     (s.eng.pairEnabled = true) ∧ (s.eng.pair.bootRole = false) ∧ ((min (s.eng.rd R.PAIR_CTRL.PLMAX) versions) ≠ 0) ∧ (s.eng.pair.st ≠ 1)) ∧
    (let versions : Nat := 2
     let s : State := (wS fun e => ({ wSetup { e with mode := .m6, now := 5000000000 } with pair := { PairSt.init with role := 2, st := 1 } } : Engine)|>.wr R.PAIR_CTRL.EN 1 |>.wr R.UHP_SELECT.VER 3)
     (s.eng.pairEnabled = true) ∧ (s.eng.pair.bootRole = false) ∧ ((min (s.eng.rd R.PAIR_CTRL.PLMAX) versions) ≠ 0) ∧ (s.eng.pair.st = 1) ∧
       (s.eng.pair.role = 2) ∧ (s.eng.ver = 3) ∧ (s.eng.hears)) ∧
    (let versions : Nat := 0
     let s : State := (wS fun e => ({ wSetup { e with mode := .m6, now := 5000000000 } with pair := { PairSt.init with role := 2, st := 1 } } : Engine)|>.wr R.PAIR_CTRL.EN 1 |>.wr R.UHP_SELECT.VER 3)
     (s.eng.pairEnabled = true) ∧ (s.eng.pair.role ≠ 1) ∧ ((min (s.eng.rd R.PAIR_CTRL.PLMAX) versions) = 0) ∧ (s.eng.hears)) ∧
    (let versions : Nat := 2
     let serial : Nat := 6
     let pref : Bool := true
     let s : State := (wS fun e => ({ wSetup { e with mode := .m1, now := 5000000000 } with pair := { PairSt.init with role := 0, st := 1, bootRole := true } } : Engine)|>.wr R.PAIR_CTRL.EN 1 |>.wr R.UHP_SELECT.VER 3 |>.wr R.SYS_SERIAL_LO.V 5 |>.wr R.PAIR_CTRL.PREF 1)
     (s.eng.pairEnabled = true) ∧ (s.eng.pair.bootRole = true) ∧ ((min (s.eng.rd R.PAIR_CTRL.PLMAX) versions) ≠ 0) ∧ (s.eng.pair.peerOwn = false) ∧
       ((if s.eng.on R.PAIR_CTRL.PREF ≠ pref then s.eng.on R.PAIR_CTRL.PREF else decide (s.eng.rdPair R.SYS_SERIAL_LO.V R.SYS_SERIAL_HI.V < serial))
       = true)) ∧
    (let versions : Nat := 2
     let serial : Nat := 6
     let pref : Bool := true
     let s : State := (wS fun e => ({ wSetup { e with mode := .m1, now := 5000000000 } with pair := { PairSt.init with role := 0, st := 1, bootRole := true } } : Engine)|>.wr R.PAIR_CTRL.EN 1 |>.wr R.UHP_SELECT.VER 3)
     (s.eng.pairEnabled = true) ∧ (s.eng.pair.bootRole = true) ∧ ((min (s.eng.rd R.PAIR_CTRL.PLMAX) versions) ≠ 0) ∧ (s.eng.pair.peerOwn = true ∨ (if
       s.eng.on R.PAIR_CTRL.PREF ≠ pref then s.eng.on R.PAIR_CTRL.PREF else decide (s.eng.rdPair R.SYS_SERIAL_LO.V R.SYS_SERIAL_HI.V < serial)) =
       false)) ∧
    (let s : State := State.reset
     (s.eng.pair.linkUp = false)) ∧
    (let s : State := (wS fun e => ({ wSetup { e with mode := .m6, now := 5000000000 } with pair := { PairSt.init with linkUp := true, plver := 2, role := 1, st := 3 } } : Engine)|>.wr R.PAIR_CTRL.EN 1 |>.wr R.UHP_SELECT.VER 3)
     (s.eng.pair.linkUp = true) ∧ (s.eng.pairEnabled = true) ∧ (s.eng.modeIn [0, 1] = false) ∧ (s.eng.hears)) := by
  refine ⟨?_, ?_, ?_, ?_, ?_, ?_, ?_, ?_, ?_, ?_, ?_, ?_, ?_, ?_, ?_, ?_, ?_, ?_, ?_, ?_, ?_, ?_, ?_, ?_, ?_, ?_, ?_, ?_, ?_, ?_⟩ <;> decide +kernel

/-- The hypotheses of PairRoles can be met together. -/
theorem witness_PairRoles :
    (let s : State := (wS fun e => ({ wSetup { e with mode := .m6, now := 5000000000 } with pair := { PairSt.init with role := 2, st := 3, lastPeer := some 4999500000 } } : Engine)|>.wr R.PAIR_CTRL.EN 1 |>.wr R.UHP_SELECT.VER 3)
     (s.eng.now < s.eng.pair.lastPeer.getD s.eng.pair.stTime + 1000000)) ∧
    (let s : State := (wS fun e => ({ wSetup { e with mode := .m6, now := 5000000000, evt := { e.evt with queue := [⟨1, 0, 0, some 5, 9, 4999990000, 0, [], .none, true⟩] } } with pair := { PairSt.init with role := 1, st := 3, linkUp := true, lastPeer := some 4999000000, tx := [⟨4, none, 4999990000, some (.event 9), .delta []⟩] } } : Engine)|>.wr R.PAIR_CTRL.EN 1 |>.wr R.UHP_SELECT.VER 3)
     (s.eng.pair.lastPeer.getD s.eng.pair.stTime + 1000000 ≤ s.eng.now) ∧ (s.eng.ver = 3) ∧ (s.eng.pair.role = 1) ∧ (s.eng.pair.st = 3 ∨
       s.eng.pair.st = 2) ∧ (s.eng.roomy) ∧ (s.eng.uncounted = 0)) ∧
    (let s : State := (wS fun e => ({ wSetup { e with mode := .m6, now := 5000000000 } with pair := { PairSt.init with role := 2, st := 3, linkUp := true, stTime := 4999000000 } } : Engine)|>.wr R.PAIR_CTRL.EN 1 |>.wr R.UHP_SELECT.VER 3)
     (s.eng.pair.lastPeer.getD s.eng.pair.stTime + 1000000 ≤ s.eng.now) ∧ (s.eng.ver = 3) ∧ (s.eng.pair.role = 2) ∧ (s.eng.pair.st = 3 ∨
       s.eng.pair.st = 2 ∨ s.eng.pair.st = 1) ∧ (s.eng.hears)) ∧
    (let s : State := State.reset
     ((s.eng.pair.tx.find? fun x => x.delta.isSome) = none)) ∧
    (let f : TxFrame := ⟨4, none, 4999990000, some (.event 9), .delta []⟩
     let s : State := (wS fun e => ({ wSetup { e with mode := .m6, now := 5000000000 } with pair := { PairSt.init with role := 1, st := 3, tx := [⟨4, none, 4999990000, some (.event 9), .delta []⟩] } } : Engine)|>.wr R.PAIR_CTRL.EN 1 |>.wr R.UHP_SELECT.VER 3)
     ((s.eng.pair.tx.find? fun x => x.delta.isSome) = some f) ∧ (s.eng.pair.role ≠ 1 ∨ s.eng.now < f.first + 1000 * s.eng.rd R.PAIR_ACK_TMO.V)) ∧
    (let f : TxFrame := ⟨4, none, 4998000000, some (.event 9), .delta []⟩
     let s : State := (wS fun e => ({ wSetup { e with mode := .m6, now := 5000000000 } with pair := { PairSt.init with role := 1, st := 3, linkUp := true, tx := [⟨4, none, 4998000000, some (.event 9), .delta []⟩] } } : Engine)|>.wr R.PAIR_CTRL.EN 1 |>.wr R.UHP_SELECT.VER 3)
     ((s.eng.pair.tx.find? fun x => x.delta.isSome) = some f) ∧ (f.first + 1000 * s.eng.rd R.PAIR_ACK_TMO.V ≤ s.eng.now) ∧ (s.eng.pair.role = 1) ∧
       (s.eng.pair.st = 3 ∨ s.eng.pair.st = 2) ∧ (s.eng.ver = 3) ∧ (s.eng.roomy) ∧ (s.eng.uncounted = 0)) ∧
    (let s : State := State.reset
     (s.eng.pair.drive = false ∨ s.eng.now < s.eng.pair.lastSent + 1000000 * s.eng.rd R.PAIR_OWN_TMO.V)) ∧
    (let s : State := (wS fun e => ({ wSetup { e with mode := .m6, now := 5000000000 } with pair := { PairSt.init with role := 1, st := 3, drive := true, lastSent := 4700000000 } } : Engine)|>.wr R.PAIR_CTRL.EN 1 |>.wr R.UHP_SELECT.VER 3)
     (s.eng.pair.drive = true) ∧ (s.eng.pair.lastSent + 1000000 * s.eng.rd R.PAIR_OWN_TMO.V ≤ s.eng.now) ∧ (s.eng.modeIn [3, 4, 5, 6, 7, 8, 9] =
       true) ∧ (s.eng.roomy)) ∧
    (let s : State := (wS fun e => ({ wSetup { e with mode := .m11, now := 5000000000 } with pair := { PairSt.init with role := 1, st := 3, drive := true, lastSent := 4700000000 } } : Engine)|>.wr R.PAIR_CTRL.EN 1 |>.wr R.UHP_SELECT.VER 3)
     (s.eng.pair.drive = true) ∧ (s.eng.pair.lastSent + 1000000 * s.eng.rd R.PAIR_OWN_TMO.V ≤ s.eng.now) ∧ (s.eng.modeIn [3, 4, 5, 6, 7, 8, 9] =
       false) ∧ (s.eng.hears)) ∧
    (let s : State := (wS fun e => ({ wSetup { e with mode := .m6, now := 5000000000, evt := { e.evt with queue := [⟨1, 0, 0, some 5, 9, 4999990000, 0, [], .none, false⟩] } } with pair := { PairSt.init with role := 1, st := 2, linkUp := true, plver := 2 } } : Engine)|>.wr R.PAIR_CTRL.EN 1 |>.wr R.UHP_SELECT.VER 3)
     (s.eng.pair.role = 1) ∧ (s.eng.pair.st = 2) ∧ (s.eng.pair.linkUp = true) ∧ (s.eng.ver = 3) ∧ (s.eng.hears)) ∧
    (let s : State := State.reset
     (s.eng.pair.role ≠ 1 ∨ s.eng.pair.st ≠ 2 ∨ s.eng.pair.linkUp = false)) ∧
    (let s : State := State.reset
     (s.eng.pair.bootRole = false ∨ (s.eng.pair.linkUp = true ∧ s.eng.pair.plver ≠ 0) ∨ s.eng.now < s.eng.pins.bootTime + 100000000)) ∧
    (let s : State := (wS fun e => ({ wSetup { e with mode := .m1, now := 5000000000 } with pair := { PairSt.init with role := 0, st := 1, bootRole := true } } : Engine)|>.wr R.PAIR_CTRL.EN 1 |>.wr R.UHP_SELECT.VER 3)
     (s.eng.pair.bootRole = true) ∧ (s.eng.pair.linkUp = false ∨ s.eng.pair.plver = 0) ∧ (s.eng.pins.bootTime + (if s.eng.on R.PAIR_CTRL.PREF then
       100000000 else 600000000) ≤ s.eng.now) ∧ (s.eng.pair.peerOwn = false)) ∧
    (let s : State := (wS fun e => ({ wSetup { e with mode := .m1, now := 5000000000 } with pair := { PairSt.init with role := 0, st := 1, bootRole := true, peerOwn := true } } : Engine)|>.wr R.PAIR_CTRL.EN 1 |>.wr R.UHP_SELECT.VER 3)
     (s.eng.pair.bootRole = true) ∧ (s.eng.pair.linkUp = false ∨ s.eng.pair.plver = 0) ∧ (s.eng.pins.bootTime + (if s.eng.on R.PAIR_CTRL.PREF then
       100000000 else 600000000) ≤ s.eng.now) ∧ (s.eng.pair.peerOwn = true)) ∧
    (let s : State := (wS fun e => ({ wSetup { e with mode := .m10, now := 5000000000 } with pair := { PairSt.init with role := 2, st := 5, current := true, releasedAt := some 4998000000 } } : Engine)|>.wr R.PAIR_CTRL.EN 1 |>.wr R.UHP_SELECT.VER 3)
     (s.eng.pair.role = 2) ∧ (s.eng.pair.st = 5) ∧ (s.eng.pair.current = true) ∧ (s.eng.ownFree 1000000 = true) ∧ (s.eng.on R.PAIR_CTRL.POLICY =
       false ∨ s.eng.pair.releasing = true) ∧ (s.eng.ver = 3) ∧ (s.eng.hears)) ∧
    (let s : State := State.reset
     (s.eng.pair.role ≠ 2 ∨ s.eng.pair.st ≠ 5 ∨ s.eng.pair.current = false ∨ s.eng.ownFree 1000000 = false ∨ (s.eng.on R.PAIR_CTRL.POLICY = true ∧
       s.eng.pair.releasing = false))) ∧
    (let s : State := State.reset
     (s.eng.pair.st ≠ 6)) ∧
    (let s : State := (wS fun e => ({ wSetup { e with mode := .m10, now := 5000000000 } with flash := { e.flash with takeovers := 4 }, pair := { PairSt.init with role := 2, st := 6, current := true, drive := true, releasedAt := some 4990000000, cause := 1, shadow := { Shadow.init with mode := 6, job := true, jobId := 7, dseq := 41, mseq := 6, regs := Sparse.set RegMap.resetWord Shadow.init.regs R.UHP_SELECT.VER.off (R.UHP_SELECT.VER.put 0 3) } } } : Engine)|>.wr R.PAIR_CTRL.EN 1)
     (s.eng.pair.st = 6) ∧ (s.eng.mode = .m10) ∧ (s.eng.resetting = none) ∧ (s.eng.pins.failed = false) ∧ (¬ (s.eng.pair.shadow.mode = 3 ∨
       s.eng.pair.shadow.mode = 7 ∨ s.eng.pair.shadow.mode = 8 ∨ s.eng.pair.shadow.mode = 11)) ∧ (R.UHP_SELECT.VER.get (Sparse.get RegMap.resetWord
       s.eng.pair.shadow.regs R.UHP_SELECT.VER.off) = 3)) ∧
    (let s : State := (wS fun e => ({ wSetup { e with mode := .m10, now := 5000000000 } with flash := { e.flash with takeovers := 4 }, pair := { PairSt.init with role := 2, st := 6, current := true, drive := true, releasedAt := some 4990000000, cause := 1, shadow := { Shadow.init with mode := 6, job := true, jobId := 7, dseq := 41, mseq := 6 } } } : Engine)|>.wr R.PAIR_CTRL.EN 1)
     (s.eng.pair.st = 6) ∧ (s.eng.mode = .m10) ∧ (s.eng.resetting = none) ∧ (s.eng.pins.failed = false) ∧ (¬ (s.eng.pair.shadow.mode = 3 ∨
       s.eng.pair.shadow.mode = 7 ∨ s.eng.pair.shadow.mode = 8 ∨ s.eng.pair.shadow.mode = 11)) ∧ (R.UHP_SELECT.VER.get (Sparse.get RegMap.resetWord
       s.eng.pair.shadow.regs R.UHP_SELECT.VER.off) ≠ 3)) ∧
    (let s : State := (wS fun e => ({ wSetup { e with mode := .m10, now := 5000000000 } with flash := { e.flash with takeovers := 4 }, pair := { PairSt.init with role := 2, st := 6, current := true, drive := true, releasedAt := some 4990000000, cause := 1, shadow := { Shadow.init with mode := 11, job := true, jobId := 7, dseq := 41, mseq := 6, opens := [⟨7, 8, 0x20, .built⟩] } } } : Engine)|>.wr R.PAIR_CTRL.EN 1)
     (s.eng.pair.st = 6) ∧ (s.eng.mode = .m10) ∧ (s.eng.resetting = none) ∧ (s.eng.pins.failed = false) ∧ (s.eng.pair.shadow.mode = 3 ∨
       s.eng.pair.shadow.mode = 11)) ∧
    (let side : Side := 1
     let s : State := State.reset
     (s.eng.mode ≠ .m10 ∨ s.eng.pair.role ≠ 2 ∨ (s.eng.gen side.val).run.isSome ∨ s.eng.on (R.TG_CTRL.EN side.val) = false)) ∧
    (let side : Side := 0
     let k : Int := let s : State := (wS fun e => { wSetup { e with mode := .m10, now := 5000000000 } with pair := { PairSt.init with role := 2, st := 3 }, mot := { e.mot with pos := 90000 } }); Int.fdiv s.eng.mot.pos s.eng.pitch - 1 - s.eng.mot.base
     let s : State := (wS fun e => ({ wSetup { e with mode := .m10, now := 5000000000 } with pair := { PairSt.init with role := 2, st := 3 }, mot := { e.mot with pos := 90000 } } : Engine)|>.wr (R.AFE_STATUS.CONV_RUN 0) 1)
     (s.eng.mode = .m10) ∧ (s.eng.pair.role = 2) ∧ ((s.eng.gen side.val).run = none) ∧ (s.eng.on (R.TG_CTRL.EN side.val) = true) ∧ (k = Int.fdiv
       s.eng.mot.pos s.eng.pitch - 1 - s.eng.mot.base)) := by
  refine ⟨?_, ?_, ?_, ?_, ?_, ?_, ?_, ?_, ?_, ?_, ?_, ?_, ?_, ?_, ?_, ?_, ?_, ?_, ?_, ?_, ?_, ?_⟩ <;> decide +kernel

/-- An empty queue is met. -/
theorem witness_StepTakesTheFront : State.reset.pending = [] ∧ State.reset.eng.pair.role ≠ 1 := by decide +kernel


/-- A state with a spoiled and a written byte, and the step that empties the memory. -/
theorem witness_StagingStaysCanonical :
    ∃ s t : State, s.staged ∧ s.stg.isBad 9 = true ∧ step s = .next t :=
  ⟨{ State.reset with stg := ((⟨[], []⟩ : Staging).put 7 5).spoil 9, pending := [.pairRetransmit] }, _, by unfold State.staged; decide +kernel, by decide +kernel, rfl⟩


/-- A fade of three lines over channel 5, its last line. -/
theorem witness_FadeBlendsCoefficients :
    (let f : SwapSt := ⟨7, 1, 32, 90, 3, true⟩
     let e : Engine := { Engine.reset with shd := ⟨some f, none, [], []⟩ }
     e.shd.fade = some f ∧ bitOf f.mask 5 = true ∧ 2 < f.len ∧ 49152 = 65536 * (2 + 1) / (f.len + 1)) := by
  decide +kernel

/-- A section whose switch 2 looks at the detector of input 5 with SET 2.0 and CLR 1.0, between them; then on SET, on CLR, and with the levels the other way. -/
def wSwitch (set clr : Nat) (v : Rat) : Section :=
  let x : Section := ((((({ Section.reset with fe := { FeSt.init with dets := [DetSt.init, ⟨0, 0, 0, 0, some v⟩, DetSt.init, DetSt.init] } } : Section).wr (R.MET_TH_CFG.EN 2) 1).wr
    (R.MET_TH_CFG.SRC 2) 9).wr (R.MET_DET_CFG.SRC 1) 5).wr (R.MET_TH_SET.V 2) set).wr (R.MET_TH_CLR.V 2) clr
  { x with fe := { x.fe with act := Section.configOf x.regs } }

/-- The hypotheses of ThresholdSwitches are met by a switch between its levels, at each level, and with the levels the other way or equal. -/
theorem witness_ThresholdSwitches :
    (∀ q ∈ [(0x40000000, 0x3F800000, (3 / 2 : Rat)), (0x40000000, 0x3F800000, 2), (0x40000000, 0x3F800000, 1), (0x3F800000, 0x40000000, 1), (0x3F800000, 0x40000000, 2),
        (0x3F800000, 0x40000000, 3 / 2), (0x3F800000, 0x3F800000, 1)],
      let x := wSwitch q.1 q.2.1 q.2.2
      x.actOn (R.MET_TH_CFG.EN 2) = true ∧ x.thInput 2 = some 5 ∧ x.faulty 5 = false ∧ x.act (R.MET_IN_CFG.LIN 5) ≠ 1 ∧
        x.thSource 2 = some q.2.2) ∧ f32ToRat 0x40000000 = 2 ∧ f32ToRat 0x3F800000 = 1 := by
  decide +kernel

/-- Offsets in each of the ranges, their first and last, and one inside a block. -/
theorem witness_NothingAtUnlistedOffsets :
    RegMap.find 0x1008 ≠ none ∧ RegMap.find 0x0FFC = none ∧ RegMap.find 0x13000 = none ∧ RegMap.find 0x1FFFC = none ∧
    (∀ off ∈ [0x0FFC, 0x13000, 0x1FFFC, 0x28000, 0x2FFFC, 0x40000, 0x7FFFC], off % 4 = 0 ∧ ((off < 0x20000 ∧ RegMap.find off = none) ∨
      (0x13000 ≤ off ∧ off < 0x20000) ∨ (0x28000 ≤ off ∧ off < 0x30000) ∨ (0x40000 ≤ off ∧ off < 0x80000))) := by
  decide +kernel

/-- The section as delivered is sealed, with what it stores in force. -/
theorem witness_SealedSectionKeepsItsParameters :
    State.reset.sec.sealOpen = false ∧ State.reset.sec.params = State.reset.sec.storedParams ∧
    (∀ off, off < 0x200140 → off ≠ R.MET_VEX.EN.off → Sparse.get RegMap.resetWord State.reset.sec.stored off = State.reset.sec.word off) ∧
    R.MET_VEX.EN.get (Sparse.get RegMap.resetWord State.reset.sec.stored R.MET_VEX.EN.off) = State.reset.sec.rd R.MET_VEX.EN ∧
    R.MET_VEX.LEVEL.get (Sparse.get RegMap.resetWord State.reset.sec.stored R.MET_VEX.EN.off) = State.reset.sec.rd R.MET_VEX.LEVEL :=
  ⟨rfl, rfl, fun _ _ _ => rfl, rfl, rfl⟩

/-- A step of a section with a record unacknowledged. -/
theorem witness_NothingLegalIsLost :
    ∃ (s t : State) (r : SecRec), step s = .next t ∧ r ∈ s.sec.store ∧ r.acked = false :=
  ⟨{ State.reset with sec := { Section.reset with store := [⟨1, [7], false, none⟩], mseq := 1 }, pending := [.recordSend] }, _, _, rfl, List.mem_singleton.mpr rfl, rfl⟩

end
end

section
/-!
PROOFS. Every command answers a next state and leaves the queue of waiting commands to the step (R4, R261).
-/

namespace Sys2Proof.Machine

/-- An answer is a next state that has the commands waiting in `s`. -/
def State.queueKept (s : State) (a : Answer) : Prop := ∃ t, a = .next t ∧ t.pending = s.pending

theorem State.queueKept_next {s t : State} (h : t.pending = s.pending) : s.queueKept (.next t) := ⟨t, rfl, h⟩

theorem State.queueKept_onEng (s : State) (f : Engine → Engine) : s.queueKept (.next (s.onEng f)) := queueKept_next (s.onEng_pending f)

theorem State.queueKept_onMem (s : State) (f : Engine → Staging → Engine × Staging) : s.queueKept (.next (s.onMem f)) :=
  queueKept_next (s.onMem_pending f)

theorem State.queueKept_onSec (s : State) (f : Section → Nat → Section × List MetIn) : s.queueKept (.next (s.onSec f)) :=
  queueKept_next (s.onSec_pending f)

/-- What the section does after the engine or the staging memory has acted leaves the queue as well. -/
theorem State.queueKept_onEng_onSec (s : State) (f : Engine → Engine) (g : Section → Nat → Section × List MetIn) :
    s.queueKept (.next ((s.onEng f).onSec g)) :=
  queueKept_next (by simp)

theorem State.queueKept_onMem_onSec (s : State) (f : Engine → Staging → Engine × Staging) (g : Section → Nat → Section × List MetIn) :
    s.queueKept (.next ((s.onMem f).onSec g)) :=
  queueKept_next (by simp)

/-- Every meaning is the next state of named updates of the engine, the staging memory and the section, none of which reaches the queue. -/
theorem exec_queueKept (c : Instr) (s : State) : s.queueKept (exec c s) := by
  cases c
  -- Meanings that first look at the state, and may leave it whole.
  case sectionQuery | sectionAck | sectionSync | sectionPeer | sectionTapLine | recordRetransmit | sealOpen | sealClose | bootComplete | pfail
      | pfailRecovery | takeoverInstall =>
    refine State.queueKept_next ?_
    split <;> simp
  case resetProper =>
    refine State.queueKept_next ?_
    split
    · split <;> simp
    · rfl
  -- Meanings that act in the section.
  case converterOutput | ovpClamp | tempPublish | thresholdStatePublish | recordSend | servicePortWrite | sectionFwInstall | keyRegeneration
      | sectionRestart =>
    exact s.queueKept_onSec _
  case encoderEdge | squallRest | lineStart | sensedLineEdge => exact s.queueKept_onEng_onSec _ _
  -- Meanings that act in the staging memory.
  case arbGrant | wakeRailsSettled => exact s.queueKept_onMem _
  case por => exact s.queueKept_onMem_onSec _ _
  -- Every other meaning acts in the engine alone.
  all_goals exact s.queueKept_onEng _

/-- Settles O53: no meaning faults or refuses, and none of the updates it is made of reaches the queue. -/
theorem commandsAnswerAndLeaveTheQueue : Obligations.CommandsAnswerAndLeaveTheQueue := exec_queueKept

end Sys2Proof.Machine
end

section
/-!
PROOFS. Writes to registers and to the coefficient window (R6, R7, R103, R339): what the gate lets through, what the register table says of a register found at
an offset, what one field takes and what a write of all fields leaves.
-/

namespace Sys2Proof.Machine

/-! ### The frame of register writes -/

namespace Engine

theorem onlyRegs_refl (e : Engine) (offs : List Nat) : e.onlyRegs e offs := ⟨rfl, fun _ _ => rfl⟩

theorem onlyRegs_trans {e x y : Engine} {offs : List Nat} (h : e.onlyRegs x offs) (k : x.onlyRegs y offs) : e.onlyRegs y offs := by
  obtain ⟨hx, hw⟩ := h
  obtain ⟨ky, kw⟩ := k
  refine ⟨ky.trans ?_, fun off ho => (kw off ho).trans (hw off ho)⟩
  rw [hx]

theorem onlyRegs_mono {e x : Engine} {o p : List Nat} (h : e.onlyRegs x o) (hp : ∀ n ∈ o, n ∈ p) : e.onlyRegs x p :=
  ⟨h.1, fun off ho => h.2 off fun hm => ho (hp off hm)⟩

theorem setWord_onlyRegs (e : Engine) (w : Word) {off : Nat} {offs : List Nat} (h : off ∈ offs) : e.onlyRegs (e.setWord off w) offs :=
  ⟨rfl, fun _ hk => word_setWord_ne e w fun hko => hk (hko ▸ h)⟩

theorem wr_onlyRegs (e : Engine) (v : Nat) {f : Fld} {offs : List Nat} (h : f.off ∈ offs) : e.onlyRegs (e.wr f v) offs :=
  setWord_onlyRegs e _ h

/-! ### The gate, and a write that is ignored -/

/-- Outside M0, M1, M2 and M10 every write reaches its register. -/
theorem gate_open {e : Engine} (h0 : e.mode ≠ .m0) (h1 : e.mode ≠ .m1) (h2 : e.mode ≠ .m2) (h10 : e.mode ≠ .m10) (off : Nat) (f : Engine → Engine) :
    e.gate off f = f e := by
  simp [gate, h0, h1, h2, h10]

/-- M3 and M11 are among them. -/
theorem gate_setUp {e : Engine} (hm : e.mode = .m3 ∨ e.mode = .m11) (off : Nat) (f : Engine → Engine) : e.gate off f = f e := by
  rcases hm with hm | hm <;> simp [gate, hm]

/-- In M1 no write from 0x1000 on reaches a register outside the NVM block; the words of R53 alone leave a trace (R345). -/
theorem gate_m1 {e : Engine} {off : Nat} (h1 : e.mode = .m1) (hlo : 0x1000 ≤ off) (hnvm : off / 0x1000 ≠ 0x12) (f : Engine → Engine) :
    e.gate off f = if chCfgReg off then e.writeIgnored off else e := by
  simp [gate, h1, hlo, hnvm]

/-- The first write ignored sets FLAG and names its offset (R339). -/
theorem writeIgnored_first {e : Engine} (h : e.on R.SYS_WRITE_IGNORED.FLAG = false) (off : Nat) :
    e.writeIgnored off = (e.wr R.SYS_WRITE_IGNORED.FLAG 1).wr R.SYS_WRITE_IGNORED.OFFSET off := by
  simp [writeIgnored, h]

theorem writeIgnored_onlyRegs (e : Engine) (off : Nat) {offs : List Nat} (h : R.SYS_WRITE_IGNORED.FLAG.off ∈ offs) :
    e.onlyRegs (e.writeIgnored off) offs := by
  unfold writeIgnored
  split
  · exact e.onlyRegs_refl offs
  · exact onlyRegs_trans (wr_onlyRegs _ _ h) (wr_onlyRegs _ _ h)

theorem rd_writeIgnored_ne (e : Engine) (off : Nat) {f : Fld} (h : f.off ≠ R.SYS_WRITE_IGNORED.FLAG.off) : (e.writeIgnored off).rd f = e.rd f := by
  unfold rd
  rw [(e.writeIgnored_onlyRegs off (List.mem_singleton.mpr rfl)).2 f.off (by simpa using h)]

theorem ignoredFlag_fits : R.SYS_WRITE_IGNORED.FLAG.fits := by unfold Fld.fits; decide

theorem ignoredOffset_fits : R.SYS_WRITE_IGNORED.OFFSET.fits := by unfold Fld.fits; decide

/-- After the first write ignored FLAG is set. -/
theorem writeIgnored_flag {e : Engine} (h : e.on R.SYS_WRITE_IGNORED.FLAG = false) (off : Nat) :
    (e.writeIgnored off).on R.SYS_WRITE_IGNORED.FLAG = true := by
  have hapart : R.SYS_WRITE_IGNORED.FLAG.apart R.SYS_WRITE_IGNORED.OFFSET := by unfold Fld.apart; decide
  rw [writeIgnored_first h, on, rd_wr_apart _ ignoredFlag_fits ignoredOffset_fits hapart, rd_wr_same _ ignoredFlag_fits]
  rfl

/-- After the first write ignored OFFSET names it. -/
theorem writeIgnored_offset {e : Engine} (h : e.on R.SYS_WRITE_IGNORED.FLAG = false) {off : Nat} (hoff : off < 2 ^ 20) :
    (e.writeIgnored off).rd R.SYS_WRITE_IGNORED.OFFSET = off := by
  rw [writeIgnored_first h, rd_wr_lt _ ignoredOffset_fits hoff]

/-! ### The shading coefficient window -/

/-- The field of SHD_CH_BANK that tells the state of the bank to which a coefficient word belongs (R103). -/
def coefBank (off : Nat) : Fld :=
  if off / 0x1000 % 2 = 0 then R.SHD_CH_BANK.ASTATE ((off - 0x80000) / 0x2000) else R.SHD_CH_BANK.BSTATE ((off - 0x80000) / 0x2000)

theorem coefBank_off (off : Nat) : (coefBank off).off = (R.SHD_CH_BANK.word ((off - 0x80000) / 0x2000)).off := by
  unfold coefBank; split <;> rfl

theorem coefBank_fits (off : Nat) : (coefBank off).fits := by
  unfold coefBank Fld.fits; split <;> simp

theorem coefBank_width (off : Nat) : (coefBank off).width = 2 := by
  unfold coefBank; split <;> rfl

/-- The bank registers stand below the window. -/
theorem coefBank_off_lt {off : Nat} (hlo : 0x80000 ≤ off) (hhi : off < 2 ^ 20) : (coefBank off).off < off := by
  rw [coefBank_off]; dsimp only; omega

/-- From M2 on an aligned word of the window is stored and its bank becomes VALID in M3 and M11, and is ignored in every other mode (R103, R343). -/
theorem writeCoef_window {e : Engine} {off : Nat} (hboot : e.preBoot = false) (hlo : 0x80000 ≤ off) (hhi : off < 2 ^ 20) (h4 : off % 4 = 0)
    (value : Word) :
    e.writeCoef off value = if e.modeIn [3, 11] then (e.setWord off value).wr (coefBank off) 1 else e.writeIgnored off := by
  have hin : ¬ (off % 4 ≠ 0 ∨ off < 0x80000 ∨ 0x100000 ≤ off ∨ e.preBoot = true) := by
    simp only [hboot, Bool.false_eq_true, or_false]; omega
  have hbank : (off - 0x80000) / 0x1000 % 2 = off / 0x1000 % 2 := by omega
  unfold writeCoef coefBank
  rw [if_neg hin, hbank]
  cases e.modeIn [3, 11] <;> rfl

theorem writeCoef_stores {e : Engine} {off : Nat} (hm : e.mode = .m3 ∨ e.mode = .m11) (hlo : 0x80000 ≤ off) (hhi : off < 2 ^ 20) (h4 : off % 4 = 0)
    (value : Word) : e.writeCoef off value = (e.setWord off value).wr (coefBank off) 1 := by
  have hopen : e.preBoot = false ∧ e.modeIn [3, 11] = true := by
    rcases hm with hm | hm <;> simp [preBoot, modeIn, hm, Mode.idx]
  rw [writeCoef_window hopen.1 hlo hhi h4, if_pos hopen.2]

theorem writeCoef_ignored {e : Engine} {off : Nat} (h0 : e.mode ≠ .m0) (h1 : e.mode ≠ .m1) (h3 : e.mode ≠ .m3) (h11 : e.mode ≠ .m11)
    (hlo : 0x80000 ≤ off) (hhi : off < 2 ^ 20) (h4 : off % 4 = 0) (value : Word) : e.writeCoef off value = e.writeIgnored off := by
  have hboot : e.preBoot = false := by simp [preBoot, h0, h1]
  have hshut : ¬ e.modeIn [3, 11] = true := by
    unfold modeIn
    cases hm : e.mode <;> simp_all [Mode.idx]
  rw [writeCoef_window hboot hlo hhi h4, if_neg hshut]

end Engine

/-! ### The register table -/

/-- A field lies within 32 bits. -/
abbrev FieldInWord (f : FieldSpec) : Prop := f.lo ≤ f.hi ∧ f.hi < 32

/-- Two fields have no bit in common. -/
abbrev FieldsApart (f g : FieldSpec) : Prop := f.hi < g.lo ∨ g.hi < f.lo

/-- The fields of a register lie within 32 bits and have no bit in common. -/
abbrev FieldsDisjoint (l : List FieldSpec) : Prop := (∀ f ∈ l, FieldInWord f) ∧ l.Pairwise FieldsApart

/-- So it is with every register of the table. -/
theorem blockOf_fieldsDisjoint (off : Nat) : ∀ r ∈ RegMap.blockOf off, FieldsDisjoint r.fields := by
  unfold RegMap.blockOf
  split <;> decide +kernel

/-- One family of registers alone bears the name AFE_CH_CFG. -/
theorem blockOf_chCfg (off : Nat) : ∀ r ∈ RegMap.blockOf off, r.name = "AFE_CH_CFG" → r.base = 0x8100 ∧ r.dims = [(0x1000, 2), (0x10, 32)] := by
  unfold RegMap.blockOf
  split <;> decide +kernel

/-- A register found stands in the list, and at its base and stride. -/
theorem findIn_some {l : List RegSpec} {off : Nat} {r : RegSpec} {is : List Nat} (h : RegMap.findIn l off = some (r, is)) :
    r ∈ l ∧ r.base ≤ off ∧ RegMap.matchDims r.dims (off - r.base) = some is := by
  induction l with
  | nil => cases h
  | cons a t ih =>
    unfold RegMap.findIn at h
    split at h
    · next hbase =>
      split at h
      · next js hdims =>
        obtain ⟨rfl, rfl⟩ := Prod.mk.inj (Option.some.inj h)
        exact ⟨List.mem_cons_self, hbase, hdims⟩
      · exact (ih h).imp_left (List.mem_cons_of_mem a)
    · exact (ih h).imp_left (List.mem_cons_of_mem a)

theorem find_fieldsDisjoint {off : Nat} {r : RegSpec} {is : List Nat} (h : RegMap.find off = some (r, is)) : FieldsDisjoint r.fields :=
  blockOf_fieldsDisjoint off r (findIn_some h).1

namespace Engine

/-- An AFE_CHk_CFG register stands at one of the 64 offsets of its family. -/
theorem chCfgReg_offset {off : Nat} (h : chCfgReg off = true) : ∃ c : Fin 64, off = (R.AFE_CH_CFG.word (c.val / 32) (c.val % 32)).off := by
  unfold chCfgReg at h
  split at h
  · next r is hfind =>
    obtain ⟨hmem, hbase, hdims⟩ := findIn_some hfind
    obtain ⟨hb, hd⟩ := blockOf_chCfg off r hmem (by simpa using h)
    rw [hb] at hbase
    simp only [hb, hd, RegMap.matchDims] at hdims
    split at hdims
    · split at hdims
      · split at hdims
        · refine ⟨⟨32 * ((off - 0x8100) / 0x1000) + (off - 0x8100) % 0x1000 / 0x10, by omega⟩, ?_⟩
          dsimp only
          omega
        · cases hdims
      · cases hdims
    · cases hdims
  · cases h

/-- At each of those offsets stands one. -/
theorem chCfgReg_word (i : Side) (k : Fin 32) : chCfgReg (R.AFE_CH_CFG.word i.val k.val).off = true := by
  revert i k
  decide +kernel

/-! ### One field of a write -/

/-- A field in the register at an offset. -/
abbrev fieldAt (off : Nat) (f : FieldSpec) : Fld := ⟨off, f.hi, f.lo⟩

/-- What a field of the register at an offset takes of a written word, by its access code (R6, R7). -/
abbrev taken (off : Nat) (value hw : Word) (unlocked : Bool) (x : Engine) (f : FieldSpec) : Nat :=
  written f unlocked (x.rd (fieldAt off f)) ((fieldAt off f).get value) ((fieldAt off f).get hw)

section
variable (off : Nat) (value hw : Word) (unlocked : Bool)

theorem writeField_onlyRegs (x : Engine) (f : FieldSpec) : x.onlyRegs (writeField off value hw unlocked x f) [off] := by
  unfold writeField
  dsimp only
  split
  · exact wr_onlyRegs _ _ (List.mem_singleton.mpr rfl)
  · split
    · exact wr_onlyRegs _ _ (List.mem_singleton.mpr rfl)
    · exact x.onlyRegs_refl _
  · exact wr_onlyRegs _ _ (List.mem_singleton.mpr rfl)
  · exact x.onlyRegs_refl _

theorem rd_writeField_same (x : Engine) {f : FieldSpec} (hf : FieldInWord f) :
    (writeField off value hw unlocked x f).rd (fieldAt off f) = taken off value hw unlocked x f := by
  have hfits : (fieldAt off f).fits := hf
  cases hacc : f.access with
  | rw =>
    simp only [writeField, taken, written, hacc]
    exact rd_wr_same _ hfits _
  | rwl =>
    simp only [writeField, taken, written, hacc]
    cases unlocked
    · rfl
    · exact rd_wr_same _ hfits _
  | w1c =>
    simp only [writeField, taken, written, hacc]
    exact rd_wr_lt _ hfits (Nat.or_lt_two_pow (Nat.lt_of_le_of_lt Nat.and_le_left (rd_lt _ _)) (Fld.get_lt _ _))
  | ro | wo | w1s | rc => simp only [writeField, taken, written, hacc]

/-- A field leaves the fields apart from it. -/
theorem rd_writeField_apart (x : Engine) {f g : FieldSpec} (hf : FieldInWord f) (hg : FieldInWord g) (h : FieldsApart f g) :
    (writeField off value hw unlocked x g).rd (fieldAt off f) = x.rd (fieldAt off f) := by
  have hwr (v : Nat) : (x.wr (fieldAt off g) v).rd (fieldAt off f) = x.rd (fieldAt off f) :=
    rd_wr_apart x (f := fieldAt off f) (g := fieldAt off g) hf hg h v
  unfold writeField
  dsimp only
  split
  · exact hwr _
  · split
    · exact hwr _
    · rfl
  · exact hwr _
  · rfl

/-! ### All fields of a write -/

theorem foldl_writeField_onlyRegs (l : List FieldSpec) (e : Engine) : e.onlyRegs (l.foldl (writeField off value hw unlocked) e) [off] := by
  induction l generalizing e with
  | nil => exact e.onlyRegs_refl _
  | cons g t ih => exact onlyRegs_trans (writeField_onlyRegs off value hw unlocked e g) (ih _)

theorem rd_foldl_writeField_apart {f : FieldSpec} (hf : FieldInWord f) (l : List FieldSpec) (e : Engine)
    (hl : ∀ g ∈ l, FieldInWord g ∧ FieldsApart f g) :
    (l.foldl (writeField off value hw unlocked) e).rd (fieldAt off f) = e.rd (fieldAt off f) := by
  induction l generalizing e with
  | nil => rfl
  | cons g t ih =>
    obtain ⟨hg, hfg⟩ := hl g List.mem_cons_self
    rw [List.foldl_cons, ih _ fun k hk => hl k (List.mem_cons_of_mem g hk), rd_writeField_apart off value hw unlocked e hf hg hfg]

/-- Each of the fields takes its part of the word, as if it were written alone. -/
theorem rd_foldl_writeField (l : List FieldSpec) (e : Engine) (hl : FieldsDisjoint l) :
    ∀ f ∈ l, (l.foldl (writeField off value hw unlocked) e).rd (fieldAt off f) = taken off value hw unlocked e f := by
  induction l generalizing e with
  | nil => intro f hf; cases hf
  | cons g t ih =>
    obtain ⟨hfits, hpair⟩ := hl
    obtain ⟨hgt, htt⟩ := List.pairwise_cons.mp hpair
    obtain ⟨hg, ht⟩ := List.forall_mem_cons.mp hfits
    intro f hf
    rw [List.foldl_cons]
    rcases List.mem_cons.mp hf with rfl | hft
    · rw [rd_foldl_writeField_apart off value hw unlocked hg t _ fun k hk => ⟨ht k hk, hgt k hk⟩, rd_writeField_same off value hw unlocked e hg]
    · rw [ih _ ⟨ht, htt⟩ f hft, taken, rd_writeField_apart off value hw unlocked e (ht f hft) hg (hgt f hft).symm]

end

/-! ### A write to a register without rules of its own -/

/-- Outside M10 the RWL fields of every register are open in M3 alone. -/
theorem rwlOpen_eq {e : Engine} (h10 : e.mode ≠ .m10) (off : Nat) : e.rwlOpen off = (e.mode == .m3) := by
  simp [rwlOpen, h10]

/-- SYS_WRITE_IGNORED itself has no field to lock. -/
theorem lockedChange_off_ne {e : Engine} {r : RegSpec} {is : List Nat} {off : Nat} {value : Word} (hfind : RegMap.find off = some (r, is))
    (hl : e.lockedChange r off value = true) : off ≠ R.SYS_WRITE_IGNORED.FLAG.off := by
  rintro rfl
  have hno : ∀ p, RegMap.find R.SYS_WRITE_IGNORED.FLAG.off = some p → ∀ f ∈ p.1.fields, f.access ≠ .rwl := by decide +kernel
  obtain ⟨-, f, hf, hacc, -⟩ : _ ∧ ∃ f ∈ r.fields, f.access = .rwl ∧ _ := by simpa [lockedChange] using hl
  exact hno _ hfind f hf hacc

/-- A change of a locked field means that the RWL fields are not open. -/
theorem lockedChange_rwlOpen {e : Engine} {r : RegSpec} {off : Nat} {value : Word} (hl : e.lockedChange r off value = true) : e.rwlOpen off = false := by
  simp only [lockedChange, Bool.and_eq_true, Bool.not_eq_true'] at hl
  exact hl.1

/-- Only the named registers have rules of their own. -/
theorem writeNamed_plain {r : RegSpec} (hr : ruledRegs.contains r.name = false) (e : Engine) (is : List Nat) (off : Nat) (value hw : Word) :
    e.writeNamed r is off value hw = e.writeFields r off value hw := by
  have hne : ∀ n, ruledRegs.contains n = true → r.name ≠ n := by
    rintro n hn rfl
    exact Bool.false_ne_true (hr.symm.trans hn)
  unfold writeNamed
  split
  case h_20 => rfl
  all_goals exact absurd ‹r.name = _› (hne _ (by decide))

section
variable {e : Engine} {off : Nat} {r : RegSpec} {ix : List Nat} {value : Word}

/-- A write that the gate lets through to a plain register is a write of its fields. -/
theorem writeReg_plain (h0 : e.mode ≠ .m0) (h1 : e.mode ≠ .m1) (h2 : e.mode ≠ .m2) (h10 : e.mode ≠ .m10) (h4 : off % 4 = 0) (hoff : off < 0x20000)
    (hfind : RegMap.find off = some (r, ix)) (hdie : e.dieAbsent off = false) (hr : ruledRegs.contains r.name = false) (hw : Word) :
    e.writeReg off value hw = e.writeFields r off value hw := by
  have hcoef : ¬ 0x80000 ≤ off := by omega
  have hwin : ¬ 0x20000 ≤ off := by omega
  simp only [writeReg, h4, gate_open h0 h1 h2 h10, hcoef, hwin, hfind, hdie, writeNamed_plain hr, ne_eq, not_true_eq_false, if_false, Bool.false_eq_true]

/-- Where no locked field would change, every field takes its part, and nothing else changes. -/
theorem writeFields_unlocked (hfind : RegMap.find off = some (r, ix)) (hl : e.lockedChange r off value = false) (hw : Word) :
    (∀ f ∈ r.fields, (e.writeFields r off value hw).rd (fieldAt off f) = taken off value hw (e.rwlOpen off) e f) ∧
    e.onlyRegs (e.writeFields r off value hw) [off] := by
  have heq : e.writeFields r off value hw = r.fields.foldl (writeField off value hw (e.rwlOpen off)) e := by simp [writeFields, hl]
  rw [heq]
  exact ⟨rd_foldl_writeField _ _ _ _ _ _ (find_fieldsDisjoint hfind), foldl_writeField_onlyRegs _ _ _ _ _ _⟩

/-- Where a locked field would change, it stays, the others take their part, and SYS_WRITE_IGNORED says so. -/
theorem writeFields_locked (hfind : RegMap.find off = some (r, ix)) (hl : e.lockedChange r off value = true) (hoff : off < 2 ^ 20)
    (hflag : e.on R.SYS_WRITE_IGNORED.FLAG = false) (hw : Word) :
    (∀ f ∈ r.fields, (e.writeFields r off value hw).rd (fieldAt off f) = taken off value hw false e f) ∧
    (e.writeFields r off value hw).on R.SYS_WRITE_IGNORED.FLAG = true ∧
    (e.writeFields r off value hw).rd R.SYS_WRITE_IGNORED.OFFSET = off ∧
    e.onlyRegs (e.writeFields r off value hw) [off, R.SYS_WRITE_IGNORED.FLAG.off] := by
  have hne := lockedChange_off_ne hfind hl
  have heq : e.writeFields r off value hw = (r.fields.foldl (writeField off value hw false) e).writeIgnored off := by
    simp [writeFields, hl, lockedChange_rwlOpen hl]
  have honly := foldl_writeField_onlyRegs off value hw false r.fields e
  have hflag' : (r.fields.foldl (writeField off value hw false) e).on R.SYS_WRITE_IGNORED.FLAG = false := by
    have hword := honly.2 R.SYS_WRITE_IGNORED.FLAG.off (by simpa using hne.symm)
    rwa [on, rd, hword]
  rw [heq]
  refine ⟨fun f hf => ?_, writeIgnored_flag hflag' off, writeIgnored_offset hflag' hoff, ?_⟩
  · rw [rd_writeIgnored_ne _ _ hne, rd_foldl_writeField _ _ _ _ _ _ (find_fieldsDisjoint hfind) f hf]
  · exact onlyRegs_trans (onlyRegs_mono honly (by simp)) (writeIgnored_onlyRegs _ _ (by simp))

end

/-- In M1 an aligned write outside the SYS and NVM blocks meets the gate alone. -/
theorem writeReg_m1 {e : Engine} {off : Nat} (h1 : e.mode = .m1) (h4 : off % 4 = 0) (hlo : 0x1000 ≤ off) (hnvm : off / 0x1000 ≠ 0x12) (value hw : Word) :
    e.writeReg off value hw = if chCfgReg off then e.writeIgnored off else e := by
  simp only [writeReg, h4, gate_m1 h1 hlo hnvm, ne_eq, not_true_eq_false, if_false]

end Engine

/-! ### The commands -/

theorem exec_coefWindowWrite (off : BitVec 20) (value : Word) (s : State) :
    exec (.coefWindowWrite off value) s = .next (s.onEng fun e => e.gate off.toNat fun x => x.writeCoef off.toNat value) := rfl

theorem exec_registerWrite_bar0 (off : BitVec 20) (value hw : Word) (s : State) :
    exec (.registerWrite ⟨.bar0, off⟩ value hw) s = .next (s.onEng fun e => e.writeReg off.toNat value hw) := rfl

theorem State.onEng_engineOnly (s : State) (f : Engine → Engine) : s.engineOnly (s.onEng f) :=
  ⟨s.onEng_stg f, s.onEng_sec f, s.onEng_pending f⟩

/-- Settles O13: the gate lets a write through or not; a write let through acts field by field, and the fields of a register have no bit in common. -/
theorem registerWrites : Obligations.RegisterWrites := by
  unfold Obligations.RegisterWrites
  refine ⟨?coefStored, ?coefIgnored, ?unlocked, ?locked, ?m1Silent, ?m1ChCfg⟩
  case coefStored =>
    intro off value s hm hlo h4
    have hhi : off.toNat < 2 ^ 20 := off.isLt
    refine ⟨_, exec_coefWindowWrite off value s, s.onEng_engineOnly _, ?_⟩
    rw [State.onEng_eng, Engine.gate_setUp hm, Engine.writeCoef_stores hm hlo hhi h4]
    refine ⟨?_, ?_, Engine.onlyRegs_trans (Engine.setWord_onlyRegs _ _ (by simp)) (Engine.wr_onlyRegs _ _ (by simp [Engine.coefBank_off]))⟩
    · rw [Engine.word_wr_ne _ _ (Engine.coefBank_off_lt hlo hhi).ne', Engine.word_setWord_same]
    · exact Engine.rd_wr_lt _ (Engine.coefBank_fits _) (by rw [Engine.coefBank_width]; decide)
  case coefIgnored =>
    intro off value s h0 h1 h2 h10 h3 h11 hlo h4 hflag
    refine ⟨_, exec_coefWindowWrite off value s, s.onEng_engineOnly _, ?_⟩
    rw [State.onEng_eng, Engine.gate_open h0 h1 h2 h10, Engine.writeCoef_ignored h0 h1 h3 h11 hlo off.isLt h4, Engine.writeIgnored_first hflag]
  case unlocked =>
    intro off value hw r ix s h0 h1 h2 h10 h4 hoff hfind hdie hr hl
    refine ⟨_, exec_registerWrite_bar0 off value hw s, s.onEng_engineOnly _, ?_⟩
    rw [State.onEng_eng, Engine.writeReg_plain h0 h1 h2 h10 h4 hoff hfind hdie hr, ← Engine.rwlOpen_eq h10 off.toNat]
    exact Engine.writeFields_unlocked hfind hl hw
  case locked =>
    intro off value hw r ix s h0 h1 h2 h10 h4 hoff hfind hdie hr hl hflag
    refine ⟨_, exec_registerWrite_bar0 off value hw s, s.onEng_engineOnly _, ?_⟩
    rw [State.onEng_eng, Engine.writeReg_plain h0 h1 h2 h10 h4 hoff hfind hdie hr]
    exact Engine.writeFields_locked hfind hl off.isLt hflag hw
  case m1Silent =>
    intro off value hw s h1 h4 hlo hnvm hcfg
    refine ⟨_, exec_registerWrite_bar0 off value hw s, s.onEng_engineOnly _, ?_⟩
    have hno : ¬ Engine.chCfgReg off.toNat = true := fun h => (Engine.chCfgReg_offset h).elim hcfg
    rw [State.onEng_eng, Engine.writeReg_m1 h1 h4 hlo hnvm, if_neg hno]
  case m1ChCfg =>
    intro i k off value hw s h1 hoff hflag
    refine ⟨_, exec_registerWrite_bar0 off value hw s, s.onEng_engineOnly _, ?_⟩
    have hk := k.isLt
    have hi := i.isLt
    dsimp only at hoff
    rw [State.onEng_eng, Engine.writeReg_m1 h1 (by omega) (by omega) (by omega), hoff, if_pos (Engine.chCfgReg_word i k), Engine.writeIgnored_first hflag]

end Sys2Proof.Machine
end

section
/-!
PROOFS. Windows and a pending gap calibration (R77, R78): the first window of the next kept line starts it.
-/

namespace Sys2Proof.Machine

namespace Engine

/-- Opening a window touches no calibration state. -/
theorem openWindow_cal (e : Engine) (s r : Nat) : (e.openWindow s r).cal = e.cal := by
  unfold openWindow
  split <;> rfl

/-- A window due that is the first of the next kept line starts the gap calibration that may start there (R78 step 2). -/
theorem windowOpens_starts_gap {e : Engine} {s r i : Nat} (hdue : e.windowDue s r = true) (hline : (e.nextLine s).2 = some i) (hkept : i = e.mot.kept)
    (hgap : e.gapMayStart i = true) : (e.windowOpens s r).cal.gapStart = some i := by
  have hstart : e.windowOpens s r = (e.gapBegin i).openWindow s r := by
    simp [windowOpens, hline, hdue, ← hkept, gapStartsAt, hgap]
  rw [hstart, openWindow_cal]
  rfl

end Engine

/-- A job runs in M7: AX0 moves, side 0 waits for the line of boundary 0, predicted 100 ns from now, and a gap calibration is pending, the feed withheld for it. -/
def gapPending : State :=
  let e := ((Engine.reset.wr (R.TG_CTRL.EN 0) 1).wr R.CAL_STATUS.PENDING 1).wr R.CAL_CTRL.GAP_EN 1
  { State.reset with eng := { e with
      mode := .m7
      job := { e.job with isOpen := true }
      pac := { e.pac with st := .run }
      mot := { e.mot with v := 1000000 }
      tg := modAt e.tg 0 fun g => { g with pred := some 100 }
      cal := { e.cal with gapWithheld := true } } }

/-- Refutes O31: a window opened before the predicted trigger of the next kept line starts a pending gap calibration (R77, R78), so more changes than the
timing generator: its first line is then known. -/
theorem not_exposureWindows : ¬ Obligations.ExposureWindows := by
  unfold Obligations.ExposureWindows
  rintro ⟨-, hpred, -⟩
  obtain ⟨t, hexec, -, heng⟩ := hpred 0 0 100 gapPending (by decide +kernel) (by decide +kernel) (by decide +kernel) (by decide +kernel)
    (by decide +kernel) (by decide +kernel) (by decide +kernel) (by decide +kernel) (by decide +kernel)
  have hopens : t.eng = gapPending.eng.windowOpens 0 0 := by
    cases hexec
    rfl
  have hstarts : t.eng.cal.gapStart = some 0 := by
    rw [hopens]
    exact Engine.windowOpens_starts_gap (by decide +kernel) (by decide +kernel) (by decide +kernel) (by decide +kernel)
  have hnone : gapPending.eng.cal.gapStart = none := by decide +kernel
  rw [heng] at hstarts
  cases hnone.symm.trans hstarts

end Sys2Proof.Machine
end

section
/-!
PROOFS. Runs of register writes: what a run leaves of the registers it does not name, and what it leaves in one register that one of its steps writes.
Bounds of the little-endian values that such runs take from bytes, and a bit that is set.
-/

namespace Sys2Proof.Machine

/-! ### Bytes and numbers -/

theorem fromLe_lt (l : List Byte) : fromLe l < 256 ^ l.length := by
  induction l with
  | nil => exact Nat.one_pos
  | cons b t ih =>
    have hb : b.toNat < 256 := b.isLt
    rw [List.length_cons, pow_succ]
    unfold fromLe
    omega

theorem sliceBytes_length (l : List Byte) (off n : Nat) : (sliceBytes l off n).length = n := by
  simp [sliceBytes]

/-- A little-endian value of `n` bytes is below 256 to the `n`. -/
theorem leAt_lt (l : List Byte) (off n : Nat) : leAt l off n < 256 ^ n := by
  simpa [leAt, sliceBytes_length] using fromLe_lt (sliceBytes l off n)

theorem b2n_lt_two (b : Bool) : b2n b < 2 := by
  cases b <;> decide

theorem bitOf_eq_testBit (v i : Nat) : bitOf v i = v.testBit i := by
  rw [bitOf, Nat.testBit_eq_decide_div_mod_eq]

theorem bitOf_setBit_same (v i : Nat) : bitOf (setBit v i true) i = true := by
  unfold setBit
  cases h : bitOf v i
  · rw [bitOf_eq_testBit] at h ⊢
    rw [if_neg (by decide), if_pos rfl, Nat.sub_zero, Nat.add_comm, Nat.testBit_two_pow_add_eq, h]
    rfl
  · rw [bitOf_eq_testBit] at h
    simp only [if_true]
    rw [Nat.sub_add_cancel (Nat.ge_two_pow_of_testBit h), bitOf_eq_testBit, h]

namespace Engine

/-! ### Runs of register writes -/

/-- A field outside the named offsets keeps its value. -/
theorem onlyRegs_rd {e x : Engine} {offs : List Nat} (h : e.onlyRegs x offs) {f : Fld} (hf : f.off ∉ offs) : x.rd f = e.rd f := by
  unfold rd
  rw [h.2 f.off hf]

/-- A write to one of the named offsets more. -/
theorem onlyRegs_wr {e x : Engine} {offs : List Nat} (h : e.onlyRegs x offs) {f : Fld} (hf : f.off ∈ offs) (v : Nat) : e.onlyRegs (x.wr f v) offs :=
  onlyRegs_trans h (wr_onlyRegs x v hf)

/-- Two runs of writes, each with offsets of its own. -/
theorem onlyRegs_append {e x y : Engine} {o p : List Nat} (h : e.onlyRegs x o) (k : x.onlyRegs y p) : e.onlyRegs y (o ++ p) :=
  onlyRegs_trans (onlyRegs_mono h fun _ => List.mem_append_left p) (onlyRegs_mono k fun _ => List.mem_append_right o)

/-- A change of a timing generator before a run of writes or after it is the same. -/
theorem onlyRegs_modGen {e x : Engine} {offs : List Nat} (h : e.onlyRegs x offs) (s : Nat) (g : TimingGen → TimingGen) :
    (e.modGen s g).onlyRegs (x.modGen s g) offs := by
  refine ⟨?_, h.2⟩
  conv_lhs => rw [h.1]
  rfl

section
variable {α β γ : Type} {f : Engine → α → Engine} {l : List α}

theorem foldl_onlyRegs {offs : List Nat} (hf : ∀ x : Engine, ∀ a ∈ l, x.onlyRegs (f x a) offs) (e : Engine) : e.onlyRegs (l.foldl f e) offs := by
  induction l generalizing e with
  | nil => exact e.onlyRegs_refl offs
  | cons a t ih =>
    exact onlyRegs_trans (hf e a List.mem_cons_self) (ih (fun x b hb => hf x b (List.mem_cons_of_mem a hb)) _)

/-- What every step on a listed element leaves alone, their fold leaves alone. -/
theorem foldl_keeps (p : Engine → β) (hp : ∀ x, ∀ a ∈ l, p (f x a) = p x) (e : Engine) : p (l.foldl f e) = p e := by
  induction l generalizing e with
  | nil => rfl
  | cons a t ih => rw [List.foldl_cons, ih fun x b hb => hp x b (List.mem_cons_of_mem a hb), hp e a List.mem_cons_self]

/-- The step on one element of a list sets something, from what no step changes; the steps on the others leave it alone: so the fold sets it. -/
theorem foldl_sets (p : Engine → β) (q : Engine → γ) (v : γ → β) {a : α} (ha : a ∈ l) (hl : l.Nodup) (hset : ∀ x, p (f x a) = v (q x))
    (hq : ∀ x, ∀ b ∈ l, q (f x b) = q x) (hp : ∀ x, ∀ b ∈ l, b ≠ a → p (f x b) = p x) (e : Engine) : p (l.foldl f e) = v (q e) := by
  induction l generalizing e with
  | nil => cases ha
  | cons c t ih =>
    obtain ⟨hc, ht⟩ := List.nodup_cons.mp hl
    rw [List.foldl_cons]
    by_cases hca : c = a
    · subst hca
      rw [foldl_keeps p (fun x b hb => hp x b (List.mem_cons_of_mem c hb) fun hbc => hc (hbc ▸ hb)), hset]
    · rw [ih ((List.mem_cons.mp ha).resolve_left (Ne.symm hca)) ht (fun x b hb => hq x b (List.mem_cons_of_mem c hb))
        (fun x b hb => hp x b (List.mem_cons_of_mem c hb)), hq e c List.mem_cons_self]

/-- The same of a value known beforehand. -/
theorem foldl_puts (p : Engine → β) {v : β} {a : α} (ha : a ∈ l) (hl : l.Nodup) (hset : ∀ x, p (f x a) = v)
    (hp : ∀ x, ∀ b ∈ l, b ≠ a → p (f x b) = p x) (e : Engine) : p (l.foldl f e) = v :=
  foldl_sets p (fun _ => ()) (fun _ => v) ha hl hset (fun _ _ _ => rfl) hp e

end

end Engine
end Sys2Proof.Machine
end

section
/-!
PROOFS. The sensor descriptor block (R33, R34): SDB_STATUS, the four groups of registers that a valid block loads, and what each outcome of a read writes.
-/

namespace Sys2Proof.Machine

namespace Engine

/-! ### SDB_STATUS -/

section
variable (e : Engine) (s : Nat)

theorem sdbStatus_onlyRegs (present valid applied major minor err : Nat) :
    e.onlyRegs (e.sdbStatus s present valid applied major minor err) [(R.SDB_STATUS.PRESENT s).off] := by
  refine onlyRegs_wr (onlyRegs_wr (onlyRegs_wr (onlyRegs_wr (onlyRegs_wr (wr_onlyRegs e _ ?_) ?_ _) ?_ _) ?_ _) ?_ _) ?_ _
  all_goals exact List.mem_singleton.mpr rfl

end

/-! ### What a valid block loads (R33) -/

section
variable (e : Engine) (s : Nat) (l : List Byte)

/-- The line format and the sampling phases. -/
def sdbLine : Engine :=
  ((((e.wr (R.TG_LINE_FMT.ACTIVE s) (leAt l 0x14 2)).wr (R.TG_LINE_FMT.DUMMY s) (leAt l 0x16 1)).wr (R.TG_LINE_FMT.OVH s) (leAt l 0x17 1)).wr
    (R.TG_SAMPLE.SHR s) (leAt l 0x22 1 / 16)).wr (R.TG_SAMPLE.SHD s) (leAt l 0x22 1 % 16)

/-- Exposure and spacing of a row. -/
def sdbRow (r : Nat) : Engine := (e.wr (R.TG_EXP_ROW.EXP s r) (leAt l (0x24 + 4 * r) 4)).wr (R.EDY_SPACE.SPACE s r) (leAt l (0x1A + 2 * r) 2)

/-- The template of an output. -/
def sdbOutput (n : Nat) : Engine := (e.wr (R.TG_OUT_CFG.word s n) (leAt l (0x40 + 8 * n) 4)).wr (R.TG_OUT_LINE.word s n) (leAt l (0x44 + 8 * n) 4)

/-- The direction of a channel, that of its tap. -/
def sdbTap (k : Nat) : Engine := e.wr (R.TG_CHMAP.DIR s k) (b2n (bitOf (leAt l 0x18 1) (e.rd (R.TG_CHMAP.TAP s k))))

theorem sdbApply_eq : e.sdbApply s l =
    (upTo 32).foldl (fun x k => x.sdbTap s l k)
      ((upTo 16).foldl (fun x n => x.sdbOutput s l n) ((upTo 4).foldl (fun x r => x.sdbRow s l r) (e.sdbLine s l))) := rfl

theorem sdbLine_onlyRegs : e.onlyRegs (e.sdbLine s l) [(R.TG_LINE_FMT.ACTIVE s).off, (R.TG_SAMPLE.SHR s).off] := by
  unfold sdbLine
  refine onlyRegs_wr (onlyRegs_wr (onlyRegs_wr (onlyRegs_wr (wr_onlyRegs e _ ?_) ?_ _) ?_ _) ?_ _) ?_ _
  all_goals simp

theorem sdbRow_onlyRegs (r : Nat) : e.onlyRegs (e.sdbRow s l r) [(R.TG_EXP_ROW.EXP s r).off, (R.EDY_SPACE.SPACE s r).off] := by
  unfold sdbRow
  refine onlyRegs_wr (wr_onlyRegs e _ ?_) ?_ _
  all_goals simp

theorem sdbOutput_onlyRegs (n : Nat) : e.onlyRegs (e.sdbOutput s l n) [(R.TG_OUT_CFG.word s n).off, (R.TG_OUT_LINE.word s n).off] := by
  unfold sdbOutput
  refine onlyRegs_wr (wr_onlyRegs e _ ?_) ?_ _
  all_goals simp

theorem sdbTap_onlyRegs (k : Nat) : e.onlyRegs (e.sdbTap s l k) [(R.TG_CHMAP.DIR s k).off] := wr_onlyRegs _ _ (List.mem_singleton.mpr rfl)

end

/-- What the checks say of the fields that a register holds in part (R34). -/
theorem sdbError_fields {l : List Byte} (h : sdbError l = 0) :
    leAt l 0x14 2 ≤ 960 ∧ leAt l 0x16 1 ≤ 8 ∧ leAt l 0x17 1 ≤ 63 ∧ (∀ r < 4, leAt l (0x1A + 2 * r) 2 ≤ 4095) ∧
      (∀ r < 4, leAt l (0x24 + 4 * r) 4 < 2 ^ 24) := by
  have hok : sdbFieldsOk l = true := by
    unfold sdbError at h
    dsimp only at h
    split_ifs at h with _ _ _ _ hfields
    simpa using hfields
  simp only [sdbFieldsOk, Bool.and_eq_true, decide_eq_true_eq, List.all_eq_true, upTo, List.mem_range] at hok
  obtain ⟨⟨⟨⟨⟨⟨-, hact, -⟩, hdummy⟩, -, hovh⟩, hspace⟩, hexp⟩, -⟩ := hok
  exact ⟨hact, hdummy, hovh, hspace, hexp⟩

/-- ERR is one of seven codes. -/
theorem sdbError_lt (l : List Byte) : sdbError l < 16 := by
  unfold sdbError
  dsimp only
  split_ifs <;> decide

/-! ### The four groups, register by register -/

theorem off_notMem {n off : Nat} {g : Nat → Nat} (h : ∀ k < n, off ≠ g k) : off ∉ (upTo n).map g := by
  simpa [upTo, eq_comm] using h

theorem off_mem {n k : Nat} (g : Nat → Nat) (hk : k < n) : g k ∈ (upTo n).map g :=
  List.mem_map_of_mem (List.mem_range.mpr hk)

section
variable (e : Engine) (s : Nat) (l : List Byte)

theorem sdbRows_onlyRegs : e.onlyRegs ((upTo 4).foldl (fun x r => x.sdbRow s l r) e)
    (((upTo 4).map fun r => (R.TG_EXP_ROW.EXP s r).off) ++ (upTo 4).map fun r => (R.EDY_SPACE.SPACE s r).off) := by
  refine foldl_onlyRegs (fun x r hr => onlyRegs_mono (x.sdbRow_onlyRegs s l r) ?_) e
  simp only [List.mem_cons, List.not_mem_nil, or_false, forall_eq_or_imp, forall_eq]
  exact ⟨List.mem_append_left _ (List.mem_map_of_mem hr), List.mem_append_right _ (List.mem_map_of_mem hr)⟩

theorem sdbOutputs_onlyRegs : e.onlyRegs ((upTo 16).foldl (fun x n => x.sdbOutput s l n) e)
    (((upTo 16).map fun n => (R.TG_OUT_CFG.word s n).off) ++ (upTo 16).map fun n => (R.TG_OUT_LINE.word s n).off) := by
  refine foldl_onlyRegs (fun x n hn => onlyRegs_mono (x.sdbOutput_onlyRegs s l n) ?_) e
  simp only [List.mem_cons, List.not_mem_nil, or_false, forall_eq_or_imp, forall_eq]
  exact ⟨List.mem_append_left _ (List.mem_map_of_mem hn), List.mem_append_right _ (List.mem_map_of_mem hn)⟩

theorem sdbTaps_onlyRegs : e.onlyRegs ((upTo 32).foldl (fun x k => x.sdbTap s l k) e) ((upTo 32).map fun k => (R.TG_CHMAP.DIR s k).off) := by
  refine foldl_onlyRegs (fun x k hk => onlyRegs_mono (x.sdbTap_onlyRegs s l k) ?_) e
  simpa only [List.mem_singleton, forall_eq] using List.mem_map_of_mem hk

/-- The registers that a valid block loads. -/
abbrev sdbOffs : List Nat :=
  [(R.TG_LINE_FMT.ACTIVE s).off, (R.TG_SAMPLE.SHR s).off] ++ ((upTo 4).map fun r => (R.TG_EXP_ROW.EXP s r).off) ++
    ((upTo 4).map fun r => (R.EDY_SPACE.SPACE s r).off) ++ ((upTo 16).map fun n => (R.TG_OUT_CFG.word s n).off) ++
    ((upTo 16).map fun n => (R.TG_OUT_LINE.word s n).off) ++ (upTo 32).map fun k => (R.TG_CHMAP.DIR s k).off

theorem sdbApply_onlyRegs : e.onlyRegs (e.sdbApply s l) (sdbOffs s) := by
  rw [sdbApply_eq]
  refine onlyRegs_mono (onlyRegs_append (onlyRegs_append (onlyRegs_append (e.sdbLine_onlyRegs s l) (sdbRows_onlyRegs _ s l))
    (sdbOutputs_onlyRegs _ s l)) (sdbTaps_onlyRegs _ s l)) fun off => ?_
  simp only [sdbOffs, List.append_assoc, imp_self]

end

section
variable (e : Engine) (i : Side) {l : List Byte}

/-- The SDB registers of a side are not among them. -/
theorem sdbOffs_notMem {off : Nat} (hlo : 0x5300 + 0x1000 * i.val ≤ off) (hhi : off ≤ 0x530C + 0x1000 * i.val) : off ∉ sdbOffs i.val := by
  have hi := i.isLt
  simp only [sdbOffs, List.mem_append, not_or, List.mem_cons, List.not_mem_nil, not_false_eq_true, and_true]
  refine ⟨⟨⟨⟨⟨?_, off_notMem fun r hr => ?_⟩, off_notMem fun r hr => ?_⟩, off_notMem fun n hn => ?_⟩, off_notMem fun n hn => ?_⟩,
    off_notMem fun k hk => ?_⟩
  all_goals omega

theorem sdbApply_rd_sdb (l : List Byte) {f : Fld} (hlo : 0x5300 + 0x1000 * i.val ≤ f.off) (hhi : f.off ≤ 0x530C + 0x1000 * i.val) :
    (e.sdbApply i.val l).rd f = e.rd f :=
  onlyRegs_rd (e.sdbApply_onlyRegs i.val l) (sdbOffs_notMem i hlo hhi)

/-- The line format and the sampling phases: nothing after them reaches their registers. -/
theorem sdbApply_line (hl : sdbError l = 0) :
    (e.sdbApply i.val l).rd (R.TG_LINE_FMT.ACTIVE i.val) = leAt l 0x14 2 ∧ (e.sdbApply i.val l).rd (R.TG_LINE_FMT.DUMMY i.val) = leAt l 0x16 1 ∧
    (e.sdbApply i.val l).rd (R.TG_LINE_FMT.OVH i.val) = leAt l 0x17 1 ∧ (e.sdbApply i.val l).rd (R.TG_SAMPLE.SHR i.val) = leAt l 0x22 1 / 16 ∧
    (e.sdbApply i.val l).rd (R.TG_SAMPLE.SHD i.val) = leAt l 0x22 1 % 16 := by
  obtain ⟨hact, hdummy, hovh, -, -⟩ := sdbError_fields hl
  have hphase := leAt_lt l 0x22 1
  have hi := i.isLt
  have hkeep {f : Fld} (hlo : 0x500C + 0x1000 * i.val ≤ f.off) (hhi : f.off ≤ 0x5010 + 0x1000 * i.val) :
      (e.sdbApply i.val l).rd f = (e.sdbLine i.val l).rd f := by
    rw [sdbApply_eq, onlyRegs_rd (sdbTaps_onlyRegs _ _ l), onlyRegs_rd (sdbOutputs_onlyRegs _ _ l), onlyRegs_rd (sdbRows_onlyRegs _ _ l)]
    all_goals
      simp only [List.mem_append, not_or]
    · exact ⟨off_notMem fun r hr => by omega, off_notMem fun r hr => by omega⟩
    · exact ⟨off_notMem fun n hn => by omega, off_notMem fun n hn => by omega⟩
    · exact off_notMem fun k hk => by omega
  refine ⟨?_, ?_, ?_, ?_, ?_⟩
  all_goals
    rw [hkeep (by dsimp only; omega) (by dsimp only; omega)]
    simp (disch := simp only [Fld.fits, Fld.apart, Fld.width]; omega) only [sdbLine, rd_wr_lt, rd_wr_ne, rd_wr_apart]

/-- Exposure and spacing of each row: its own step of the run writes them, and nothing after the rows reaches their registers. -/
theorem sdbApply_row (hl : sdbError l = 0) {r : Nat} (hr : r < 4) :
    (e.sdbApply i.val l).rd (R.TG_EXP_ROW.EXP i.val r) = leAt l (0x24 + 4 * r) 4 ∧
    (e.sdbApply i.val l).rd (R.EDY_SPACE.SPACE i.val r) = leAt l (0x1A + 2 * r) 2 := by
  obtain ⟨-, -, -, hspaces, hexps⟩ := sdbError_fields hl
  have hspace := hspaces r hr
  have hexp := hexps r hr
  have hi := i.isLt
  have hput {f : Fld} (hf : f.off = (R.TG_EXP_ROW.EXP i.val r).off ∨ f.off = (R.EDY_SPACE.SPACE i.val r).off) {v : Nat}
      (hset : ∀ x : Engine, (x.sdbRow i.val l r).rd f = v) : (e.sdbApply i.val l).rd f = v := by
    dsimp only at hf
    rw [sdbApply_eq, onlyRegs_rd (sdbTaps_onlyRegs _ _ l) (off_notMem fun k hk => by dsimp only; omega),
      onlyRegs_rd (sdbOutputs_onlyRegs _ _ l) (List.not_mem_append (off_notMem fun n hn => by dsimp only; omega) (off_notMem fun n hn => by dsimp only; omega))]
    refine foldl_puts (fun x => x.rd f) (List.mem_range.mpr hr) List.nodup_range hset (fun x b hb hne => ?_) _
    have hb4 := List.mem_range.mp hb
    refine onlyRegs_rd (x.sdbRow_onlyRegs i.val l b) ?_
    simp only [List.mem_cons, List.not_mem_nil, or_false, not_or]
    omega
  refine ⟨hput (.inl rfl) fun x => ?_, hput (.inr rfl) fun x => ?_⟩ <;>
    simp (disch := simp only [Fld.fits, Fld.width]; omega) only [sdbRow, rd_wr_lt, rd_wr_ne]

/-- The template of each output. -/
theorem sdbApply_output (l : List Byte) {n : Nat} (hn : n < 16) :
    (e.sdbApply i.val l).rd (R.TG_OUT_CFG.word i.val n) = leAt l (0x40 + 8 * n) 4 ∧
    (e.sdbApply i.val l).rd (R.TG_OUT_LINE.word i.val n) = leAt l (0x44 + 8 * n) 4 := by
  have hcfg := leAt_lt l (0x40 + 8 * n) 4
  have hline := leAt_lt l (0x44 + 8 * n) 4
  have hput {f : Fld} (hf : f.off = (R.TG_OUT_CFG.word i.val n).off ∨ f.off = (R.TG_OUT_LINE.word i.val n).off) {v : Nat}
      (hset : ∀ x : Engine, (x.sdbOutput i.val l n).rd f = v) : (e.sdbApply i.val l).rd f = v := by
    dsimp only at hf
    rw [sdbApply_eq, onlyRegs_rd (sdbTaps_onlyRegs _ _ l) (off_notMem fun k hk => by dsimp only; omega)]
    refine foldl_puts (fun x => x.rd f) (List.mem_range.mpr hn) List.nodup_range hset (fun x b _ hne => ?_) _
    refine onlyRegs_rd (x.sdbOutput_onlyRegs i.val l b) ?_
    simp only [List.mem_cons, List.not_mem_nil, or_false, not_or]
    omega
  refine ⟨hput (.inl rfl) fun x => ?_, hput (.inr rfl) fun x => ?_⟩ <;>
    simp (disch := simp only [Fld.fits, Fld.width]; omega) only [sdbOutput, rd_wr_lt, rd_wr_ne]

/-- The direction of each channel: that which the block gives the tap the channel map names. -/
theorem sdbApply_tap (l : List Byte) {k : Nat} (hk : k < 32) :
    (e.sdbApply i.val l).rd (R.TG_CHMAP.DIR i.val k) = b2n (bitOf (leAt l 0x18 1) (e.rd (R.TG_CHMAP.TAP i.val k))) := by
  have hi := i.isLt
  have hbefore : ((upTo 16).foldl (fun x n => x.sdbOutput i.val l n) ((upTo 4).foldl (fun x r => x.sdbRow i.val l r) (e.sdbLine i.val l))).rd
      (R.TG_CHMAP.TAP i.val k) = e.rd (R.TG_CHMAP.TAP i.val k) := by
    rw [onlyRegs_rd (sdbOutputs_onlyRegs _ _ l), onlyRegs_rd (sdbRows_onlyRegs _ _ l), onlyRegs_rd (sdbLine_onlyRegs _ _ l)]
    · simp only [List.mem_cons, List.not_mem_nil, or_false, not_or]
      omega
    · exact List.not_mem_append (off_notMem fun r hr => by dsimp only; omega) (off_notMem fun r hr => by dsimp only; omega)
    · exact List.not_mem_append (off_notMem fun n hn => by dsimp only; omega) (off_notMem fun n hn => by dsimp only; omega)
  rw [sdbApply_eq, ← hbefore]
  refine foldl_sets (fun x => x.rd (R.TG_CHMAP.DIR i.val k)) (fun x => x.rd (R.TG_CHMAP.TAP i.val k)) (fun tap => b2n (bitOf (leAt l 0x18 1) tap))
    (List.mem_range.mpr hk) List.nodup_range (fun x => ?_) (fun x b _ => ?_) (fun x b _ hne => ?_) _
  · have hb := b2n_lt_two (bitOf (leAt l 0x18 1) (x.rd (R.TG_CHMAP.TAP i.val k)))
    simp (disch := simp only [Fld.fits, Fld.width]; omega) only [sdbTap, rd_wr_lt]
  · simp (disch := simp only [Fld.fits, Fld.apart]; omega) only [sdbTap, rd_wr_apart]
  · simp (disch := dsimp only; omega) only [sdbTap, rd_wr_ne]

end

/-! ### The end of a read -/

section
variable {e : Engine} {s : Nat} {l : List Byte}

theorem bestCopy_congr {e x : Engine} (h : x.cal = e.cal) : x.bestCopy = e.bestCopy := by
  unfold bestCopy validCopy
  rw [h]

/-- Without a calibration record there is no serial number to compare (R94). -/
theorem checkSerial_none (h : e.bestCopy = none) (s : Nat) : e.checkSerial s = e := by
  unfold checkSerial
  rw [h]

/-- LOAD is taken back and SDB_STATUS shown. -/
abbrev sdbShown (e : Engine) (s present valid applied major minor err : Nat) : Engine :=
  (e.wr (R.SDB_CTRL.LOAD s) 0).sdbStatus s present valid applied major minor err

theorem sdbEnd_absent (hon : e.on (R.SDB_CTRL.LOAD s) = true) : e.sdbEnd s none = e.sdbShown s 0 0 0 0 0 1 := by
  simp [sdbEnd, hon]

theorem sdbEnd_wrong (hon : e.on (R.SDB_CTRL.LOAD s) = true) (herr : sdbError l ≠ 0) :
    e.sdbEnd s (some l) = e.sdbShown s 1 0 0 (leAt l 4 1) (leAt l 5 1) (sdbError l) := by
  simp [sdbEnd, hon, herr, b2n]

/-- A valid block: its status, its serial number and its FMAX_MHZ. -/
def sdbTaken (e : Engine) (s : Nat) (l : List Byte) (applied : Nat) : Engine :=
  (((e.sdbShown s 1 1 applied (leAt l 4 1) (leAt l 5 1) 0).wr (R.SDB_SERIAL_LO.V s) (leAt l 8 4)).wr (R.SDB_SERIAL_HI.V s) (leAt l 12 4)).modGen s
    fun g => { g with fmax := some (leAt l 0x13 1) }

theorem sdbEnd_checked (hon : e.on (R.SDB_CTRL.LOAD s) = true) (herr : sdbError l = 0) (hpol : e.rd (R.SDB_CTRL.POLICY s) ≠ 0)
    (hcal : e.bestCopy = none) : e.sdbEnd s (some l) = e.sdbTaken s l 0 := by
  have hnone : (e.sdbTaken s l 0).bestCopy = none := (bestCopy_congr rfl).trans hcal
  rw [← checkSerial_none hnone s]
  simp [sdbEnd, hon, herr, hpol, b2n, sdbTaken]

theorem sdbEnd_applied (hon : e.on (R.SDB_CTRL.LOAD s) = true) (herr : sdbError l = 0) (hpol : e.rd (R.SDB_CTRL.POLICY s) = 0)
    (hcal : e.bestCopy = none) : e.sdbEnd s (some l) = (e.sdbTaken s l 1).sdbApply s l := by
  have hkeep : ((e.sdbTaken s l 1).sdbApply s l).cal = e.cal := by
    rw [(sdbApply_onlyRegs _ s l).1]
    rfl
  rw [← checkSerial_none ((bestCopy_congr hkeep).trans hcal) s]
  simp [sdbEnd, hon, herr, hpol, b2n, sdbTaken]

end

section
variable (e : Engine) (s : Nat)

theorem sdbShown_onlyRegs (present valid applied major minor err : Nat) :
    e.onlyRegs (e.sdbShown s present valid applied major minor err) [(R.SDB_CTRL.LOAD s).off, (R.SDB_STATUS.PRESENT s).off] :=
  onlyRegs_append (wr_onlyRegs e 0 (List.mem_singleton.mpr rfl)) (sdbStatus_onlyRegs _ s present valid applied major minor err)

/-- The fields of SDB_STATUS hold what is shown, and no read is asked for. -/
theorem sdbShown_status {present valid applied major minor err : Nat} (hp : present < 2) (hv : valid < 2) (ha : applied < 2) (hmaj : major < 256)
    (hmin : minor < 256) (herr : err < 16) :
    (e.sdbShown s present valid applied major minor err).rd (R.SDB_STATUS.PRESENT s) = present ∧
    (e.sdbShown s present valid applied major minor err).rd (R.SDB_STATUS.VALID s) = valid ∧
    (e.sdbShown s present valid applied major minor err).rd (R.SDB_STATUS.APPLIED s) = applied ∧
    (e.sdbShown s present valid applied major minor err).rd (R.SDB_STATUS.VER_MAJOR s) = major ∧
    (e.sdbShown s present valid applied major minor err).rd (R.SDB_STATUS.VER_MINOR s) = minor ∧
    (e.sdbShown s present valid applied major minor err).rd (R.SDB_STATUS.ERR s) = err ∧
    (e.sdbShown s present valid applied major minor err).rd (R.SDB_CTRL.LOAD s) = 0 := by
  unfold sdbShown sdbStatus
  refine ⟨?_, ?_, ?_, ?_, ?_, ?_, ?_⟩ <;>
    simp (disch := simp only [Fld.fits, Fld.apart, Fld.width]; omega) only [rd_wr_lt, rd_wr_apart, rd_wr_ne]

theorem rd_modGen (g : TimingGen → TimingGen) (f : Fld) : (e.modGen s g).rd f = e.rd f := rd_congr rfl f

variable (l : List Byte)

/-- The serial number and FMAX_MHZ leave SDB_CTRL and SDB_STATUS as they are shown. -/
theorem sdbTaken_rd (applied : Nat) {f : Fld} (hf : f.off < (R.SDB_SERIAL_LO.V s).off) :
    (e.sdbTaken s l applied).rd f = (e.sdbShown s 1 1 applied (leAt l 4 1) (leAt l 5 1) 0).rd f := by
  dsimp only at hf
  rw [sdbTaken, rd_modGen, rd_wr_ne _ _ (by dsimp only; omega), rd_wr_ne _ _ (by dsimp only; omega)]

theorem sdbTaken_status {applied : Nat} (h : applied < 2) :
    (e.sdbTaken s l applied).rd (R.SDB_STATUS.PRESENT s) = 1 ∧ (e.sdbTaken s l applied).rd (R.SDB_STATUS.VALID s) = 1 ∧
    (e.sdbTaken s l applied).rd (R.SDB_STATUS.APPLIED s) = applied ∧ (e.sdbTaken s l applied).rd (R.SDB_STATUS.VER_MAJOR s) = leAt l 4 1 ∧
    (e.sdbTaken s l applied).rd (R.SDB_STATUS.VER_MINOR s) = leAt l 5 1 ∧ (e.sdbTaken s l applied).rd (R.SDB_STATUS.ERR s) = 0 ∧
    (e.sdbTaken s l applied).rd (R.SDB_CTRL.LOAD s) = 0 := by
  simp (disch := simp) only [sdbTaken_rd]
  exact e.sdbShown_status s (by decide) (by decide) h (leAt_lt l 4 1) (leAt_lt l 5 1) (by decide)

theorem sdbTaken_serial (applied : Nat) :
    (e.sdbTaken s l applied).rdPair (R.SDB_SERIAL_LO.V s) (R.SDB_SERIAL_HI.V s) = leAt l 8 4 + 2 ^ 32 * leAt l 12 4 := by
  have hlo := leAt_lt l 8 4
  have hhi := leAt_lt l 12 4
  rw [rdPair, sdbTaken, rd_modGen, rd_modGen]
  simp (disch := simp only [Fld.fits, Fld.width]; omega) only [rd_wr_lt, rd_wr_ne]

theorem sdbTaken_onlyRegs (applied : Nat) :
    (e.modGen s fun g => { g with fmax := some (leAt l 0x13 1) }).onlyRegs (e.sdbTaken s l applied)
      ([(R.SDB_CTRL.LOAD s).off, (R.SDB_STATUS.PRESENT s).off] ++ [(R.SDB_SERIAL_LO.V s).off, (R.SDB_SERIAL_HI.V s).off]) := by
  refine onlyRegs_modGen (onlyRegs_append (e.sdbShown_onlyRegs s 1 1 applied (leAt l 4 1) (leAt l 5 1) 0) (onlyRegs_wr (wr_onlyRegs _ _ ?_) ?_ _)) s _
  all_goals simp

/-- It leaves the channel map as it stands. -/
theorem sdbTaken_tap (e : Engine) (i : Side) (l : List Byte) (applied : Nat) (k : Fin 32) :
    (e.sdbTaken i.val l applied).rd (R.TG_CHMAP.TAP i.val k.val) = e.rd (R.TG_CHMAP.TAP i.val k.val) := by
  rw [onlyRegs_rd (e.sdbTaken_onlyRegs i.val l applied), rd_modGen]
  simp only [List.cons_append, List.nil_append, List.mem_cons, List.not_mem_nil, or_false, not_or]
  omega

end

end Engine

theorem exec_sdbLoad (i : Side) (s : State) :
    exec (.sdbLoad i) s = .next (s.onEng fun e => e.gate (R.SDB_CTRL.LOAD i.val).off fun x => x.sdbStart i.val) := rfl

theorem exec_sdbReadDone (i : Side) (image : Option (List Byte)) (s : State) :
    exec (.sdbReadDone i image) s = .next (s.onEng fun e => e.sdbEnd i.val image) := rfl

/-- Settles O16: each outcome of a read is one run of register writes, and the groups of registers it writes have no offset in common. -/
theorem sensorDescriptor : Obligations.SensorDescriptor := by
  unfold Obligations.SensorDescriptor
  refine ⟨?asked, ?absent, ?wrong, ?checked, ?applied⟩
  case asked =>
    intro i s hm hpol
    refine ⟨_, exec_sdbLoad i s, s.onEng_engineOnly _, ?_⟩
    rw [State.onEng_eng, Engine.gate_setUp (.inl hm), Engine.sdbStart, if_pos ⟨hm, hpol⟩]
  case absent =>
    intro i s hon
    refine ⟨_, exec_sdbReadDone i none s, s.onEng_engineOnly _, ?_⟩
    rw [State.onEng_eng, Engine.sdbEnd_absent hon]
    obtain ⟨hpresent, hvalid, happlied, hmajor, hminor, herr, hload⟩ := s.eng.sdbShown_status i.val (present := 0) (valid := 0) (applied := 0)
      (major := 0) (minor := 0) (err := 1) (by decide) (by decide) (by decide) (by decide) (by decide) (by decide)
    exact ⟨hpresent, hvalid, happlied, hmajor, hminor, herr, hload, Engine.sdbShown_onlyRegs ..⟩
  case wrong =>
    intro i l s hon hl
    refine ⟨_, exec_sdbReadDone i (some l) s, s.onEng_engineOnly _, ?_⟩
    rw [State.onEng_eng, Engine.sdbEnd_wrong hon hl]
    obtain ⟨hpresent, hvalid, happlied, hmajor, hminor, herr, hload⟩ := s.eng.sdbShown_status i.val (present := 1) (valid := 0) (applied := 0)
      (by decide) (by decide) (by decide) (leAt_lt l 4 1) (leAt_lt l 5 1) (Engine.sdbError_lt l)
    exact ⟨hpresent, hvalid, happlied, hmajor, hminor, herr, hload, Engine.sdbShown_onlyRegs ..⟩
  case checked =>
    intro i l s hon hl hpol hcal
    refine ⟨_, exec_sdbReadDone i (some l) s, s.onEng_engineOnly _, ?_⟩
    rw [State.onEng_eng, Engine.sdbEnd_checked hon hl hpol hcal]
    obtain ⟨hpresent, hvalid, happlied, hmajor, hminor, herr, hload⟩ := s.eng.sdbTaken_status i.val l (applied := 0) (by decide)
    exact ⟨hpresent, hvalid, happlied, hmajor, hminor, herr, hload, Engine.sdbTaken_serial .., Engine.sdbTaken_onlyRegs ..⟩
  case applied =>
    intro i l s hon hl hpol hcal
    refine ⟨_, exec_sdbReadDone i (some l) s, s.onEng_engineOnly _, ?_⟩
    rw [State.onEng_eng, Engine.sdbEnd_applied hon hl hpol hcal]
    have htap (k : Fin 32) := s.eng.sdbTaken_tap i l 1 k
    have htaken := s.eng.sdbTaken_onlyRegs i.val l 1
    have hserial := s.eng.sdbTaken_serial i.val l 1
    obtain ⟨hpresent, hvalid, happlied, hmajor, hminor, herr, hload⟩ := s.eng.sdbTaken_status i.val l (applied := 1) (by decide)
    generalize s.eng.sdbTaken i.val l 1 = x at *
    have hshown {f : Fld} {v : Nat} (h : x.rd f = v) (hlo : 0x5300 + 0x1000 * i.val ≤ f.off) (hhi : f.off ≤ 0x530C + 0x1000 * i.val) :
        (x.sdbApply i.val l).rd f = v := (x.sdbApply_rd_sdb i l hlo hhi).trans h
    obtain ⟨hactive, hdummy, hovh, hshr, hshd⟩ := x.sdbApply_line i hl
    refine ⟨hshown hpresent (by simp) (by simp), hshown hvalid (by simp) (by simp), hshown happlied (by simp) (by simp), hshown hmajor (by simp) (by simp),
      hshown hminor (by simp) (by simp), hshown herr (by simp) (by simp), hshown hload (by simp) (by simp), ?serial, hactive, hdummy, hovh, hshr, hshd,
      fun r => x.sdbApply_row i hl r.isLt, fun n => x.sdbApply_output i l n.isLt, fun k => (x.sdbApply_tap i l k.isLt).trans (by rw [htap k]), ?frame⟩
    case serial =>
      rw [Engine.rdPair, x.sdbApply_rd_sdb i l (by simp) (by simp), x.sdbApply_rd_sdb i l (by simp) (by simp)]
      exact hserial
    case frame =>
      refine Engine.onlyRegs_mono (Engine.onlyRegs_append htaken (x.sdbApply_onlyRegs i.val l)) fun off => ?_
      simp only [Engine.sdbOffs, List.append_assoc, imp_self]

end Sys2Proof.Machine
end

section
/-!
PROOFS. A FAULT and the Squall it causes (R187, R270): with room in EVT for the answers to every open command nothing is lost, so that the FAULT stays the first
event after those held; what a Squall changes.
-/

namespace Sys2Proof.Machine

namespace Engine

/-! ### Room in EVT -/

/-- The open commands that wait for more than the writing of their CMD_DONE. -/
def unanswered (e : Engine) : List OpenCmd := e.opens.filter fun c => c.wait != .built

/-- From one engine to another EVT has only grown, lost nothing, and by no more events than commands were answered. -/
structure growsBy (e x : Engine) : Prop where
  kept : e.evt.queue <+: x.evt.queue
  noLoss : x.evt.lost = none
  within : x.evt.queue.length + x.unanswered.length ≤ e.evt.queue.length + e.unanswered.length

theorem growsBy.trans {e x y : Engine} (h : e.growsBy x) (k : x.growsBy y) : e.growsBy y :=
  ⟨h.kept.trans k.kept, k.noLoss, k.within.trans h.within⟩

/-- What touches neither EVT nor the open commands. -/
theorem growsBy_of_eq {e x : Engine} (hl : e.evt.lost = none) (hevt : x.evt = e.evt) (hopens : x.opens = e.opens) : e.growsBy x := by
  refine ⟨by rw [hevt], by rw [hevt, hl], ?_⟩
  unfold unanswered
  rw [hevt, hopens]

/-- With room and nothing lost before, an event outside a reset joins the end of EVT. -/
theorem emitBk_queue {e : Engine} (hr : e.resetting = none) (hf : e.pins.failed = false) (hl : e.evt.lost = none) (hq : e.evt.queue.length < 256)
    (code subj status arg : Nat) (hs : Option Nat) (p : List LayField) (bk : Booking) :
    ∃ v : Ev, (e.emitBk code subj status arg hs p bk).evt = { e.evt with queue := e.evt.queue ++ [v], dseq := (e.evt.dseq + 1) % 2 ^ 32 } ∧
      v.brief = (code, subj, status, hs, arg) := by
  obtain ⟨x, hx, rfl | ⟨n, f, l, hlost, -⟩⟩ := emitBk_cases e hr hf code subj status arg hs p bk
  · exact ⟨_, by rw [hx, commitEv_evt _ hq], rfl⟩
  · simp [hl] at hlost

/-- During a reset and after the power-fail sequence no event is built (R346, R354). -/
theorem emitBk_silent {e : Engine} (h : ¬ (e.resetting = none ∧ e.pins.failed = false)) (code subj status arg : Nat) (hs : Option Nat) (p : List LayField)
    (bk : Booking) : e.emitBk code subj status arg hs p bk = e := by
  have hguard : (e.resetting.isSome || e.pins.failed) = true := by
    cases hr : e.resetting <;> simp_all
  rw [emitBk, if_pos hguard]

/-- With room and nothing lost before, EVT takes one event at most, and that at its end. -/
theorem emitBk_extends {e : Engine} (hl : e.evt.lost = none) (hq : e.evt.queue.length < 256) (code subj status arg : Nat) (hs : Option Nat)
    (p : List LayField) (bk : Booking) :
    e.evt.queue <+: (e.emitBk code subj status arg hs p bk).evt.queue ∧ (e.emitBk code subj status arg hs p bk).evt.lost = none ∧
      (e.emitBk code subj status arg hs p bk).evt.queue.length ≤ e.evt.queue.length + 1 := by
  by_cases h : e.resetting = none ∧ e.pins.failed = false
  · obtain ⟨v, hv, -⟩ := emitBk_queue h.1 h.2 hl hq code subj status arg hs p bk
    rw [hv]
    exact ⟨⟨[v], rfl⟩, hl, by simp⟩
  · rw [emitBk_silent h]
    exact ⟨⟨[], List.append_nil _⟩, hl, Nat.le_succ _⟩

/-! ### Commands answered -/

/-- A command answered waits for nothing more; the others stay as they are. -/
theorem markBuilt_filter {c : OpenCmd} (hc : c.wait ≠ .built) (l : List OpenCmd) :
    (markBuilt c l).filter (fun o => o.wait != .built) = (l.filter fun o => o.wait != .built).erase c := by
  induction l with
  | nil => rfl
  | cons o t ih =>
    unfold markBuilt
    by_cases ho : o = c
    · simp [ho, hc]
    · rw [if_neg ho]
      by_cases hw : o.wait = .built
      · simpa [hw] using ih
      · rw [List.filter_cons_of_pos (by simpa using hw), List.filter_cons_of_pos (by simpa using hw), List.erase_cons_tail (by simpa using ho), ih]

theorem finish_grows {e : Engine} (hl : e.evt.lost = none) (hroom : e.evt.queue.length + e.unanswered.length ≤ 256) {c : OpenCmd} (hc : c ∈ e.unanswered)
    (st : Nat) (r : List LayField) : e.growsBy (e.finish c st r) ∧ (e.finish c st r).unanswered = e.unanswered.erase c := by
  have hwait : c.wait ≠ .built := by simpa using (List.mem_filter.mp hc).2
  have hlen := List.length_erase_of_mem hc
  have hpos := List.length_pos_of_mem hc
  have hq : e.evt.queue.length < 256 := by omega
  have hopens : (e.finish c st r).opens = markBuilt c e.opens := emitBk_opens { e with opens := markBuilt c e.opens } hq _ _ _ _ _ _ _
  have hleft : (e.finish c st r).unanswered = e.unanswered.erase c := by
    rw [unanswered, hopens, markBuilt_filter hwait]
    rfl
  obtain ⟨hkept, hnone, hone⟩ := emitBk_extends (e := { e with opens := markBuilt c e.opens }) hl hq 0x01 0 st 0 (some c.hseq)
    ([(24, 8, c.tag), (32, 1, c.code)] ++ r) (.cmd c.hseq st c.code)
  refine ⟨⟨hkept, hnone, ?_⟩, hleft⟩
  rw [hleft, hlen]
  change (e.finish c st r).evt.queue.length ≤ e.evt.queue.length + 1 at hone
  omega

theorem foldl_finish_grows (st : Nat) (r : List LayField) (l : List OpenCmd) {e : Engine} (hl : e.evt.lost = none)
    (hroom : e.evt.queue.length + e.unanswered.length ≤ 256) (hsub : l.Subperm e.unanswered) : e.growsBy (l.foldl (fun x c => x.finish c st r) e) := by
  induction l generalizing e with
  | nil => exact growsBy_of_eq hl rfl rfl
  | cons c t ih =>
    obtain ⟨hgrows, hleft⟩ := finish_grows hl hroom (hsub.subset List.mem_cons_self) st r
    refine hgrows.trans (ih hgrows.noLoss (hgrows.within.trans hroom) ?_)
    rw [hleft]
    simpa using hsub.erase c

/-- Answering every command that waits for something of a kind. -/
theorem finishAll_grows {e : Engine} (hl : e.evt.lost = none) (hroom : e.evt.queue.length + e.unanswered.length ≤ 256) {q : Wait → Bool}
    (hq : q .built = false) (st : Nat) (r : List LayField) : e.growsBy (e.finishAll q st r) := by
  refine foldl_finish_grows st r _ hl hroom (List.Sublist.subperm ?_)
  refine List.monotone_filter_right _ fun c hc => ?_
  have hne : c.wait ≠ .built := fun h => by simp [h, hq] at hc
  simpa using hne

/-! ### A Squall -/

theorem gapAbandon_evt (e : Engine) : e.gapAbandon.evt = e.evt := by
  unfold gapAbandon
  split <;> rfl

theorem gapAbandon_opens (e : Engine) : e.gapAbandon.opens = e.opens := by
  unfold gapAbandon
  split <;> rfl

theorem abortModes_grows {e : Engine} (hl : e.evt.lost = none) (hroom : e.evt.queue.length + e.unanswered.length ≤ 256) : e.growsBy e.abortModes := by
  have hidle : e.growsBy { e with trans := ⟨none, none, [], none, false, none⟩ } := growsBy_of_eq hl rfl rfl
  unfold abortModes
  exact hidle.trans (finishAll_grows hidle.noLoss (hidle.within.trans hroom) (by rfl) _ _)

/-- The Squall stands, the pacer and the feed follow it; no command has been answered yet. -/
def squallBegun (e : Engine) (cause faultDseq : Nat) : Engine :=
  ({ e.gapAbandon with
      squall := some ⟨cause, e.vMicron, faultDseq, [], false, 0, false⟩
      pac := { e.gapAbandon.pac with st := .squall, causes := 0, holdLull := false, holdGap := false, exitSince := none }
      feed := { e.gapAbandon.feed with gate := false, pend := 0, patterns := [], withheld := false } } : Engine).count R.PAC_SQUALL_CNT.V 1

/-- Waits that a Squall ends beside those of mode changes and of gap calibrations (R187). -/
def squallEnds : Wait → Bool
  | .holdRest _ => true
  | .resumed _ => true
  | _ => false

/-- What a request of a Squall does: nothing during a Squall or a reset, only the abort of mode changes outside M6 to M8, else the Squall begins. -/
theorem requestSquall_cases (e : Engine) (cause d : Nat) :
    (e.squall.isSome || e.resetting.isSome) = true ∧ e.requestSquall cause d = e ∨
    (e.squall.isSome || e.resetting.isSome) = false ∧ e.modeIn [6, 7, 8] = false ∧ e.requestSquall cause d = e.abortModes ∨
    (e.squall.isSome || e.resetting.isSome) = false ∧ e.modeIn [6, 7, 8] = true ∧
      e.requestSquall cause d = ((e.squallBegun cause d).abortModes.finishAll squallEnds stAborted []).abortCalGap := by
  unfold requestSquall
  cases hbusy : e.squall.isSome || e.resetting.isSome
  · cases hmode : e.modeIn [6, 7, 8]
    · exact .inr (.inl ⟨rfl, rfl, rfl⟩)
    · refine .inr (.inr ⟨rfl, rfl, ?_⟩)
      rfl
  · exact .inl ⟨rfl, rfl⟩

theorem requestSquall_grows {e : Engine} (hl : e.evt.lost = none) (hroom : e.evt.queue.length + e.unanswered.length ≤ 256) (cause d : Nat) :
    e.growsBy (e.requestSquall cause d) := by
  obtain ⟨-, h⟩ | ⟨-, -, h⟩ | ⟨-, -, h⟩ := requestSquall_cases e cause d
  · rw [h]
    exact growsBy_of_eq hl rfl rfl
  · rw [h]
    exact abortModes_grows hl hroom
  · rw [h]
    have hbegun : e.growsBy (e.squallBegun cause d) := growsBy_of_eq hl e.gapAbandon_evt e.gapAbandon_opens
    have hmodes := hbegun.trans (abortModes_grows hbegun.noLoss (hbegun.within.trans hroom))
    have hholds := hmodes.trans (finishAll_grows hmodes.noLoss (hmodes.within.trans hroom) (q := squallEnds) rfl stAborted [])
    exact hholds.trans (finishAll_grows hholds.noLoss (hholds.within.trans hroom) (by rfl) stAborted [])

/-! ### The frame of a Squall -/

/-- From one engine to another nothing has changed but what a Squall changes: pacer, feed, a gap calibration, the Squall, mode changes in progress, the answers
to commands, and of the registers the named ones beside the books. -/
def onlySquall (e x : Engine) (offs : List Nat) : Prop :=
  ({ e with pac := x.pac, feed := x.feed, cal := x.cal, squall := x.squall, trans := x.trans } : Engine).onlyBooks x offs

theorem onlySquall_trans {e x y : Engine} {offs : List Nat} (h : e.onlySquall x offs) (k : x.onlySquall y offs) : e.onlySquall y offs := by
  obtain ⟨hx, hw⟩ := h
  obtain ⟨ky, kw⟩ := k
  refine ⟨ky.trans ?_, fun off hb ho => (kw off hb ho).trans (hw off hb ho)⟩
  rw [hx]

theorem onlySquall_of_onlyBooks {e x : Engine} {offs : List Nat} (h : e.onlyBooks x offs) : e.onlySquall x offs := by
  refine ⟨?_, h.2⟩
  conv_lhs => rw [h.1]
  rw [h.1]

/-- The registers that a Squall may change beside the books. -/
abbrev squallOffs : List Nat := [R.CAL_STATUS.word.off, R.CAL_ABANDON_CNT.V.off, R.PAC_SQUALL_CNT.V.off]

theorem gapAbandon_onlySquall (e : Engine) : e.onlySquall e.gapAbandon squallOffs := by
  unfold gapAbandon
  split
  · refine ⟨rfl, fun off _ ho => ?_⟩
    simp only [squallOffs, List.mem_cons, List.not_mem_nil, or_false, not_or] at ho
    dsimp only [count]
    rw [word_wr_ne _ _ ho.2.1, word_wr_ne _ _ ho.1]
    rfl
  · exact onlySquall_of_onlyBooks (e.onlyBooks_refl _)

theorem squallBegun_onlySquall (e : Engine) (cause d : Nat) : e.onlySquall (e.squallBegun cause d) squallOffs := by
  refine onlySquall_trans e.gapAbandon_onlySquall ⟨rfl, fun off _ ho => ?_⟩
  simp only [squallOffs, List.mem_cons, List.not_mem_nil, or_false, not_or] at ho
  exact word_wr_ne _ _ ho.2.2

theorem abortModes_onlySquall (e : Engine) (offs : List Nat) : e.onlySquall e.abortModes offs := by
  have hidle : e.onlySquall { e with trans := ⟨none, none, [], none, false, none⟩ } offs := ⟨rfl, fun _ _ _ => rfl⟩
  unfold abortModes
  exact onlySquall_trans hidle (onlySquall_of_onlyBooks (finishAll_books _ _ _ _ _))

theorem requestSquall_onlySquall (e : Engine) (cause d : Nat) : e.onlySquall (e.requestSquall cause d) squallOffs := by
  obtain ⟨-, h⟩ | ⟨-, -, h⟩ | ⟨-, -, h⟩ := requestSquall_cases e cause d
  · rw [h]
    exact onlySquall_of_onlyBooks (e.onlyBooks_refl _)
  · rw [h]
    exact e.abortModes_onlySquall _
  · rw [h]
    exact onlySquall_trans (onlySquall_trans (onlySquall_trans (e.squallBegun_onlySquall cause d) (abortModes_onlySquall _ _))
      (onlySquall_of_onlyBooks (finishAll_books _ _ _ _ _))) (onlySquall_of_onlyBooks (finishAll_books _ _ _ _ _))

/-- In M6 to M8 the first request makes the Squall. -/
theorem requestSquall_squall {e : Engine} (hr : e.resetting = none) (cause d : Nat) : (e.requestSquall cause d).squall =
    if e.modeIn [6, 7, 8] && e.squall.isNone then some ⟨cause, e.vMicron, d, [], false, 0, false⟩ else e.squall := by
  obtain ⟨hbusy, h⟩ | ⟨-, hmode, h⟩ | ⟨hfree, hmode, h⟩ := requestSquall_cases e cause d
  · have hsome : e.squall.isSome = true := by simpa [hr] using hbusy
    simp [h, Option.isSome_iff_ne_none.mp hsome]
  · simp [h, hmode, abortModes]
  · have hnone : e.squall = none := by simpa [hr] using hfree
    simp [h, hmode, hnone, abortCalGap, abortModes, squallBegun]

/-! ### A FAULT, and the Squall it causes -/

theorem fault_told {e : Engine} (hr : e.resetting = none) (hf : e.pins.failed = false) (cls unit detail detail2 : Nat) (p : List LayField) :
    (e.fault cls unit detail detail2 p).told 0x0F cls 0 none (unit + 256 * detail + 65536 * detail2) := emit_told e hr hf _ _ _ _ _ _

theorem fault_rd {e : Engine} (hq : e.evt.queue.length < 256) (cls unit detail detail2 : Nat) (p : List LayField) {f : Fld}
    (hf : f.off ≠ (R.QUE_LEVEL.LEVEL 64).off) : (e.fault cls unit detail detail2 p).rd f = e.rd f := emitBk_rd e hq _ _ _ _ _ _ _ _ hf

theorem says_of_extension {e x : Engine} {v : Ev} (h : e.evt.queue ++ [v] <+: x.evt.queue) : e.says x v.code v.subj v.status v.hseq v.arg := by
  obtain ⟨l, hl⟩ := h
  rw [Engine.says, ← hl]
  simp

/-- What a FAULT with its Squall leaves, where EVT has room for the answers to every open command (R187, R270). -/
theorem faultSquall_spec {e : Engine} (h : e.roomy) (cls unit detail detail2 : Nat) (p : List LayField) (cause : Nat) :
    e.says (e.faultSquall cls unit detail detail2 p cause) 0x0F cls 0 none (unit + 256 * detail + 65536 * detail2) ∧
    (e.faultSquall cls unit detail detail2 p cause).squall = (if e.modeIn [6, 7, 8] && e.squall.isNone
      then some ⟨cause, e.vMicron, (e.evt.dseq + 1) % 2 ^ 32, [], false, 0, false⟩ else e.squall) ∧
    e.onlySquall (e.faultSquall cls unit detail detail2 p cause) squallOffs := by
  obtain ⟨⟨hr, hf⟩, hl, hroom⟩ := h
  have hq : e.evt.queue.length < 256 := by omega
  obtain ⟨v, hevt, hbrief⟩ : ∃ v : Ev, (e.fault cls unit detail detail2 p).evt =
      { e.evt with queue := e.evt.queue ++ [v], dseq := (e.evt.dseq + 1) % 2 ^ 32 } ∧ v.brief = _ := emitBk_queue hr hf hl hq _ _ _ _ _ _ _
  have hopens : (e.fault cls unit detail detail2 p).opens = e.opens := emitBk_opens e hq _ _ _ _ _ _ _
  have hresetting : (e.fault cls unit detail detail2 p).resetting = none := by rwa [fault_resetting]
  have hmode : (e.fault cls unit detail detail2 p).modeIn [6, 7, 8] = e.modeIn [6, 7, 8] := by simp [modeIn]
  have hspeed : (e.fault cls unit detail detail2 p).vMicron = e.vMicron := by simp [vMicron]
  have hbefore := e.fault_squall cls unit detail detail2 p
  have hframe := e.fault_books cls unit detail detail2 p squallOffs
  unfold faultSquall
  dsimp only
  generalize e.fault cls unit detail detail2 p = y at *
  have hqueue : y.evt.queue = e.evt.queue ++ [v] := by rw [hevt]
  have hwait : y.unanswered.length ≤ e.opens.length := hopens ▸ List.length_filter_le _ _
  have hroom' : y.evt.queue.length + y.unanswered.length ≤ 256 := by
    rw [hqueue, List.length_append, List.length_singleton]
    omega
  have hkept := (requestSquall_grows (by rw [hevt]; exact hl) hroom' cause y.evt.dseq).kept
  refine ⟨?_, ?_, onlySquall_trans (onlySquall_of_onlyBooks hframe) (y.requestSquall_onlySquall cause y.evt.dseq)⟩
  · rw [hqueue] at hkept
    have hsays := says_of_extension hkept
    simp only [Prod.mk.injEq] at hbrief
    obtain ⟨hcode, hsubj, hstatus, hhseq, harg⟩ := hbrief
    rwa [hcode, hsubj, hstatus, hhseq, harg] at hsays
  · rw [requestSquall_squall hresetting, hmode, hspeed, hbefore, hevt]

end Engine
end Sys2Proof.Machine
end

section
/-!
PROOFS. Light and references (R48, R49, R68, R383): what a driver reports, and the two faults of a reference.
-/

namespace Sys2Proof.Machine

namespace Engine

/-! ### The lights -/

/-- What a driver reports stands in its status register and in ILL_FAULT. -/
def ledShown (e : Engine) (n bits : Nat) : Engine :=
  let e1 := ((e.wr (R.ILL_STATUS.OPEN n) (bits % 2)).wr (R.ILL_STATUS.SHORT n) (bits / 2 % 2)).wr (R.ILL_STATUS.OT n) (bits / 4 % 2)
  let e2 := if bits % 4 = 0 then e1 else e1.wr (R.ILL_STATUS.VF_MV n) 24000
  e2.wr R.ILL_FAULT.CH (setBit (e.rd R.ILL_FAULT.CH) n true)

theorem ledFault_eq (e : Engine) (n : Nat) {bits : Nat} (h : bits ≠ 0) :
    e.ledFault n bits = ((e.ledShown n bits).darken (if e.job.isOpen then 2 ^ n else 0)).fault 0x05 n bits 0 [] := if_neg h

theorem ledShown_onlyRegs (e : Engine) (n bits : Nat) : e.onlyRegs (e.ledShown n bits) [(R.ILL_STATUS.word n).off, R.ILL_FAULT.CH.off] := by
  unfold ledShown
  dsimp only
  split
  · refine onlyRegs_wr (onlyRegs_wr (onlyRegs_wr (wr_onlyRegs e _ ?_) ?_ _) ?_ _) ?_ _
    all_goals simp
  · refine onlyRegs_wr (onlyRegs_wr (onlyRegs_wr (onlyRegs_wr (wr_onlyRegs e _ ?_) ?_ _) ?_ _) ?_ _) ?_ _
    all_goals simp

theorem ledShown_rd (e : Engine) (n : Fin 10) (bits : Nat) :
    (e.ledShown n.val bits).rd (R.ILL_STATUS.OPEN n.val) = bits % 2 ∧ (e.ledShown n.val bits).rd (R.ILL_STATUS.SHORT n.val) = bits / 2 % 2 ∧
    (e.ledShown n.val bits).rd (R.ILL_STATUS.OT n.val) = bits / 4 % 2 ∧
    (e.ledShown n.val bits).rd (R.ILL_STATUS.VF_MV n.val) = (if bits % 4 = 0 then e.rd (R.ILL_STATUS.VF_MV n.val) else 24000) ∧
    bitOf ((e.ledShown n.val bits).rd R.ILL_FAULT.CH) n.val = true := by
  have hn := n.isLt
  refine ⟨?_, ?_, ?_, ?_, ?_⟩
  case refine_5 =>
    unfold ledShown
    dsimp only
    rw [rd_wr_same _ ⟨by decide, by decide⟩, bitOf_eq_testBit, Nat.testBit_mod_two_pow, ← bitOf_eq_testBit, bitOf_setBit_same]
    simp [Fld.width]
  all_goals
    unfold ledShown
    dsimp only
    split <;> simp (disch := simp only [Fld.fits, Fld.apart, Fld.width]; omega) only [rd_wr_lt, rd_wr_apart, rd_wr_ne]

theorem onlyRegs_hears {e x : Engine} {offs : List Nat} (h : e.onlyRegs x offs) (hh : e.hears) : x.hears := by
  rw [h.1]
  exact hh

/-- A run of register writes is within the frame of events, and drivers turned off before it or after it are the same. -/
theorem onlyBooks_darken {e x : Engine} {offs : List Nat} (h : e.onlyRegs x offs) (mask : Nat) : (e.darken mask).onlyBooks (x.darken mask) offs := by
  refine ⟨?_, fun off _ ho => h.2 off ho⟩
  rw [h.1]
  rfl

/-! ### The references -/

/-- A change of an AFE die before a frame or after it is the same. -/
theorem onlyBooks_modAfe {e x : Engine} {offs : List Nat} (h : e.onlyBooks x offs) (s : Nat) (f : AfeSide → AfeSide) :
    (e.modAfe s f).onlyBooks (x.modAfe s f) offs := by
  refine ⟨?_, h.2⟩
  conv_lhs => rw [h.1]
  rfl

/-- A latch of AFE_STATUS sets, and a FAULT of class 3 tells of it. -/
def refTold (e : Engine) (s : Nat) (latch : Fld) (detail : Nat) : Engine := (e.wr latch 1).fault 0x03 s detail 0 []

theorem refTold_rd {e : Engine} (hq : e.evt.queue.length < 256) {s : Nat} {latch : Fld} (hfits : latch.fits)
    (hoff : latch.off ≠ (R.QUE_LEVEL.LEVEL 64).off) (detail : Nat) : (e.refTold s latch detail).rd latch = 1 := by
  have hwidth : 0 < latch.width := by
    unfold Fld.fits at hfits
    unfold Fld.width
    omega
  rw [refTold, fault_rd (e := e.wr latch 1) hq _ _ _ _ _ hoff, rd_wr_lt _ hfits (Nat.one_lt_two_pow hwidth.ne')]

theorem refTold_told {e : Engine} (hr : e.resetting = none) (hf : e.pins.failed = false) (s : Nat) (latch : Fld) (detail : Nat) :
    (e.refTold s latch detail).told 0x0F 0x03 0 none (s + 256 * detail) :=
  fault_told (e := e.wr latch 1) hr hf 0x03 s detail 0 []

theorem refTold_books (e : Engine) (s : Nat) (latch : Fld) (detail : Nat) : e.onlyBooks (e.refTold s latch detail) [latch.off] :=
  onlyBooks_trans (wr_books e latch 1 (.inr (List.mem_singleton.mpr rfl))) (fault_books (e.wr latch 1) 0x03 s detail 0 [] [latch.off])

theorem refTold_afe (e : Engine) (s : Nat) (latch : Fld) (detail : Nat) : (e.refTold s latch detail).afe = e.afe := fault_afe (e.wr latch 1) 0x03 s detail 0 []

theorem refFault_eq {e : Engine} {s : Nat} (hpow : e.afePowered s = true) (hin : (e.afeSide s).refIn = true)
    (hon : e.refExternal s = true ∨ e.refSettled s = true) : e.refFault s = (e.refTold s (R.AFE_STATUS.REF_FAULT s) 1).modAfe s fun a =>
      { a with refIn := false, refDseq := (e.refTold s (R.AFE_STATUS.REF_FAULT s) 1).evt.dseq } := by
  have hcond : (e.afePowered s && (e.afeSide s).refIn && (e.refExternal s || e.refSettled s)) = true := by simp [hpow, hin, hon]
  exact if_pos hcond

theorem refTimeout_eq {e : Engine} {s t : Nat} (hpow : e.afePowered s = true) (hext : e.refExternal s = false) (hset : e.refSettled s = false)
    (hstart : (e.afeSide s).settleStart = some t) (hout : (e.afeSide s).timedOut = false) (hlate : t + 100000000 ≤ e.now) :
    e.refTimeout s = (e.refTold s (R.AFE_STATUS.REF_TIMEOUT s) 2).modAfe s fun a => { a with timedOut := true } := by
  simp [refTimeout, hstart, hpow, hext, hout, hlate, hset, refTold]

/-- Outside a wake a timeout ends no wake (R340). -/
theorem timeoutInWake_awake {e : Engine} (h : e.mode ≠ .m4 ∨ e.trans.wake = none) (s : Nat) : e.timeoutInWake s = e := by
  unfold timeoutInWake
  rw [if_neg]
  rintro ⟨hm, hwake, -⟩
  rcases h with h | h
  · exact h hm
  · simp [h] at hwake

end Engine

/-! ### The commands -/

theorem exec_ledPowerMonitor (mw : Nat) (s : State) : exec (.ledPowerMonitor mw) s = .next (s.onEng fun e => e.ledPower mw) := rfl

theorem exec_ledDriverFault (n : Fin 10) (bits : Fin 8) (s : State) :
    exec (.ledDriverFault n bits) s = .next (s.onEng fun e => e.ledFault n.val bits.val) := rfl

theorem exec_refFault (i : Side) (s : State) : exec (.refFault i) s = .next (s.onEng fun e => e.refFault i.val) := rfl

theorem exec_refTimeout (i : Side) (s : State) :
    exec (.refTimeout i) s = .next (s.onEng fun e => (e.refTimeout i.val).timeoutInWake i.val) := rfl

theorem exec_refBackInWindow (i : Side) (s : State) :
    exec (.refBackInWindow i) s = .next (s.onEng fun e => e.modAfe i.val fun a => { a with refIn := true }) := rfl

theorem exec_supplyLimit (i : Side) (s : State) :
    exec (.supplyLimit i) s = .next (s.onEng fun e => e.modAfe i.val fun a => { a with supplies := false, tripped := true }) := rfl

/-- Settles O34: a FAULT is built with room in EVT, so that it and the latch it tells of stand, and a Squall it causes answers commands only after it. -/
theorem lightAndReferences : Obligations.LightAndReferences := by
  unfold Obligations.LightAndReferences
  refine ⟨?overPower, ?withinPower, ?driver, ?refFault, ?refTimeout, ?refBack, ?supply⟩
  case overPower =>
    intro mw s hmw hroomy
    refine ⟨_, exec_ledPowerMonitor mw s, s.onEng_engineOnly _, ?_⟩
    rw [State.onEng_eng, Engine.ledPower, if_pos hmw]
    obtain ⟨hsays, hsquall, hframe, -⟩ := Engine.faultSquall_spec (e := s.eng.darken 0x3FF) hroomy 0x04 0xFF 0 0 [(24, 4, mw)] 2
    generalize (s.eng.darken 0x3FF).faultSquall 0x04 0xFF 0 0 [(24, 4, mw)] 2 = x at *
    refine ⟨hsays, ?_, hsquall, ?_⟩
    all_goals
      rw [hframe]
      rfl
  case withinPower =>
    intro mw s hmw
    exact ⟨_, exec_ledPowerMonitor mw s, s.onEng_engineOnly _, if_neg hmw.not_gt⟩
  case driver =>
    intro n bits s hbits hhears
    refine ⟨_, exec_ledDriverFault n bits s, s.onEng_engineOnly _, ?_⟩
    rw [State.onEng_eng, Engine.ledFault_eq _ _ hbits]
    have honly := s.eng.ledShown_onlyRegs n.val bits.val
    obtain ⟨hopen, hshort, hot, hvf, hch⟩ := s.eng.ledShown_rd n bits.val
    obtain ⟨⟨hr, hf⟩, -, hroom⟩ := Engine.onlyRegs_hears honly hhears
    generalize s.eng.ledShown n.val bits.val = x at *
    have hframe := Engine.onlyBooks_darken honly (if s.eng.job.isOpen then 2 ^ n.val else 0)
    generalize (if s.eng.job.isOpen then 2 ^ n.val else 0) = mask at *
    have hkeep {f : Fld} (hoff : f.off ≠ (R.QUE_LEVEL.LEVEL 64).off) : ((x.darken mask).fault 0x05 n.val bits.val 0 []).rd f = x.rd f :=
      Engine.fault_rd (e := x.darken mask) (hroom.trans (by decide)) _ _ _ _ _ hoff
    refine ⟨(hkeep ?_).trans hopen, (hkeep ?_).trans hshort, (hkeep ?_).trans hot, (hkeep ?_).trans hvf, by rwa [hkeep (by decide)],
      Engine.fault_told (e := x.darken mask) hr hf 0x05 n.val bits.val 0 [], Engine.onlyBooks_trans hframe (Engine.fault_books _ _ _ _ _ _ _)⟩
    all_goals
      dsimp only
      omega
  case refFault =>
    intro i s hpow hin hon hhears
    obtain ⟨⟨hr, hf⟩, -, hroom⟩ := hhears
    refine ⟨_, exec_refFault i s, s.onEng_engineOnly _, ?_⟩
    rw [State.onEng_eng, Engine.refFault_eq hpow hin hon]
    have hlatch := Engine.refTold_rd (e := s.eng) (hroom.trans (by decide)) (s := i.val) (latch := R.AFE_STATUS.REF_FAULT i.val) (detail := 1)
      ⟨by simp, by simp⟩ (by dsimp only; omega)
    have htold := Engine.refTold_told (e := s.eng) hr hf i.val (R.AFE_STATUS.REF_FAULT i.val) 1
    have hbooks := s.eng.refTold_books i.val (R.AFE_STATUS.REF_FAULT i.val) 1
    have hafe := s.eng.refTold_afe i.val (R.AFE_STATUS.REF_FAULT i.val) 1
    generalize s.eng.refTold i.val (R.AFE_STATUS.REF_FAULT i.val) 1 = x at *
    have hafe' : (x.modAfe i.val fun a => { a with refIn := false, refDseq := x.evt.dseq }).afe =
        modAt s.eng.afe i.val fun a => { a with refIn := false, refDseq := x.evt.dseq } := by rw [← hafe]; rfl
    refine ⟨hlatch, htold, hafe', ?_⟩
    rw [hafe']
    exact Engine.onlyBooks_modAfe hbooks i.val _
  case refTimeout =>
    intro i t0 s hpow hext hset hstart hout hlate hawake hhears
    obtain ⟨⟨hr, hf⟩, -, hroom⟩ := hhears
    refine ⟨_, exec_refTimeout i s, s.onEng_engineOnly _, ?_⟩
    rw [State.onEng_eng, Engine.refTimeout_eq hpow hext hset hstart hout hlate, Engine.timeoutInWake_awake (by simpa [Engine.refTold] using hawake)]
    have hlatch := Engine.refTold_rd (e := s.eng) (hroom.trans (by decide)) (s := i.val) (latch := R.AFE_STATUS.REF_TIMEOUT i.val) (detail := 2)
      ⟨by simp, by simp⟩ (by dsimp only; omega)
    have htold := Engine.refTold_told (e := s.eng) hr hf i.val (R.AFE_STATUS.REF_TIMEOUT i.val) 2
    have hbooks := s.eng.refTold_books i.val (R.AFE_STATUS.REF_TIMEOUT i.val) 2
    generalize s.eng.refTold i.val (R.AFE_STATUS.REF_TIMEOUT i.val) 2 = x at *
    exact ⟨hlatch, htold, Engine.onlyBooks_modAfe hbooks i.val _⟩
  case refBack =>
    intro i s
    exact ⟨_, exec_refBackInWindow i s, s.onEng_engineOnly _, rfl⟩
  case supply =>
    intro i s
    exact ⟨_, exec_supplyLimit i s, s.onEng_engineOnly _, rfl⟩

end Sys2Proof.Machine
end

section
/-!
PROOFS. The registers of the front end (R53, R65, R68): the four fields of AFE_CHk_CFG and the two of AFE_REF_CTRL, and the writes that a mode refuses.
-/

namespace Sys2Proof.Machine

/-- Two changes at one place are one change. -/
theorem modAt_modAt {α : Type} (l : List α) (i : Nat) (f g : α → α) : modAt (modAt l i f) i g = modAt l i (g ∘ f) := List.modify_modify_eq f g i l

namespace Engine

/-! ### The gate -/

/-- In M3 to M6 every write reaches its register. -/
theorem gate_m3_m6 {e : Engine} (h : e.modeIn [3, 4, 5, 6] = true) (off : Nat) (f : Engine → Engine) : e.gate off f = f e := by
  refine gate_open ?_ ?_ ?_ ?_ off f
  all_goals
    intro hm
    simp [modeIn, hm, Mode.idx] at h

/-- What a register would ignore, the gate before it ignores too: an AFE_CHk_CFG register, in every mode that answers (R53, R344, R345, R367). -/
theorem gate_cfg_ignored {e : Engine} (h0 : e.mode ≠ .m0) (i : Side) (k : Fin 32) {f : Engine → Engine}
    (hf : f e = e.writeIgnored (R.AFE_CH_CFG.word i.val k.val).off) :
    e.gate (R.AFE_CH_CFG.word i.val k.val).off f = e.writeIgnored (R.AFE_CH_CFG.word i.val k.val).off := by
  rw [gate, hf, if_neg h0, if_pos (chCfgReg_word i k)]
  simp only [ite_self]

/-! ### AFE_CHk_CFG -/

section
variable (e : Engine) (s k : Nat) (v : Word)

/-- The four fields take their parts of the word. -/
def cfgTaken : Engine :=
  (((e.wr (R.AFE_CH_CFG.SAMPLING s k) ((R.AFE_CH_CFG.SAMPLING s k).get v)).wr (R.AFE_CH_CFG.TERM s k) ((R.AFE_CH_CFG.TERM s k).get v)).wr
    (R.AFE_CH_CFG.RANGE s k) ((R.AFE_CH_CFG.RANGE s k).get v)).wr (R.AFE_CH_CFG.CLAMP s k) ((R.AFE_CH_CFG.CLAMP s k).get v)

theorem cfgTaken_onlyRegs : e.onlyRegs (e.cfgTaken s k v) [(R.AFE_CH_CFG.word s k).off] := by
  unfold cfgTaken
  refine onlyRegs_wr (onlyRegs_wr (onlyRegs_wr (wr_onlyRegs e _ ?_) ?_ _) ?_ _) ?_ _
  all_goals exact List.mem_singleton.mpr rfl

theorem cfgTaken_rd :
    (e.cfgTaken s k v).rd (R.AFE_CH_CFG.SAMPLING s k) = (R.AFE_CH_CFG.SAMPLING s k).get v ∧
    (e.cfgTaken s k v).rd (R.AFE_CH_CFG.TERM s k) = (R.AFE_CH_CFG.TERM s k).get v ∧
    (e.cfgTaken s k v).rd (R.AFE_CH_CFG.RANGE s k) = (R.AFE_CH_CFG.RANGE s k).get v ∧
    (e.cfgTaken s k v).rd (R.AFE_CH_CFG.CLAMP s k) = (R.AFE_CH_CFG.CLAMP s k).get v := by
  unfold cfgTaken
  refine ⟨?_, ?_, ?_, ?_⟩ <;> simp (disch := simp only [Fld.fits, Fld.apart, Fld.get_lt] <;> omega) only [rd_wr_lt, rd_wr_apart]

end

/-- A write that a present die takes: the four fields, and STALE where RANGE changes. -/
theorem writeCfg_taken {e : Engine} {s : Nat} (hmode : e.modeIn [3, 4, 5, 6] = true) (hdie : e.afePresent s = true) (k : Nat) (v : Word) :
    e.writeCfg s k v = if (R.AFE_CH_CFG.RANGE s k).get v = e.rd (R.AFE_CH_CFG.RANGE s k) then e.cfgTaken s k v
      else (e.cfgTaken s k v).wr (R.AFE_CH_STATUS.STALE s k) 1 := by
  simp only [writeCfg, hdie, hmode, Bool.not_true, Bool.false_eq_true, if_false]
  rfl

theorem writeCfg_ignored {e : Engine} {s : Nat} (hmode : e.modeIn [3, 4, 5, 6] = false) (hdie : e.afePresent s = true) (k : Nat) (v : Word) :
    e.writeCfg s k v = e.writeIgnored (R.AFE_CH_CFG.word s k).off := by
  simp [writeCfg, hdie, hmode]

/-- A field of AFE_CHk_CFG does not feel STALE. -/
theorem rd_cfg_wr_stale (e : Engine) (i : Side) (k : Fin 32) (v : Nat) {f : Fld} (hf : f.off = (R.AFE_CH_CFG.word i.val k.val).off) :
    (e.wr (R.AFE_CH_STATUS.STALE i.val k.val) v).rd f = e.rd f := by
  refine rd_wr_ne e v ?_
  dsimp only at hf ⊢
  omega

/-- What a write taken leaves in both registers. -/
theorem writeCfg_spec {e : Engine} {i : Side} (hmode : e.modeIn [3, 4, 5, 6] = true) (hdie : e.afePresent i.val = true) (k : Fin 32) (v : Word) :
    (∀ f : Fld, f.off = (R.AFE_CH_CFG.word i.val k.val).off → (e.writeCfg i.val k.val v).rd f = (e.cfgTaken i.val k.val v).rd f) ∧
    (e.writeCfg i.val k.val v).rd (R.AFE_CH_STATUS.STALE i.val k.val) =
      (if (R.AFE_CH_CFG.RANGE i.val k.val).get v = e.rd (R.AFE_CH_CFG.RANGE i.val k.val) then e.rd (R.AFE_CH_STATUS.STALE i.val k.val) else 1) ∧
    e.onlyRegs (e.writeCfg i.val k.val v) [(R.AFE_CH_CFG.word i.val k.val).off, (R.AFE_CH_STATUS.STALE i.val k.val).off] := by
  have honly := e.cfgTaken_onlyRegs i.val k.val v
  rw [writeCfg_taken hmode hdie]
  split
  · refine ⟨fun _ _ => rfl, onlyRegs_rd honly ?_, onlyRegs_mono honly (by simp)⟩
    simp only [List.mem_singleton]
    omega
  · exact ⟨fun f hf => rd_cfg_wr_stale _ i k 1 hf, rd_wr_lt _ (by simp [Fld.fits]) (by simp [Fld.width]),
      onlyRegs_wr (onlyRegs_mono honly (by simp)) (by simp) 1⟩

/-! ### AFE_REF_CTRL -/

/-- A die whose reference begins to settle at a time; how long that takes is a free value (log 13). -/
def settling (start free : Nat) (a : AfeSide) : AfeSide := { a with settleStart := some start, settleAt := start + Config.freeValue free, timedOut := false }

theorem startSettling_eq (e : Engine) (s : Nat) : e.startSettling s = ({ e with free := e.free + 1 } : Engine).modAfe s (settling e.now e.free) := rfl

/-- The die may have changed before. -/
theorem startSettling_modAfe (e : Engine) (s : Nat) (f : AfeSide → AfeSide) :
    (e.modAfe s f).startSettling s = ({ e with free := e.free + 1 } : Engine).modAfe s (settling e.now e.free ∘ f) := by
  rw [startSettling_eq, modAfe, modAfe, modAfe, modAt_modAt]

section
variable (e : Engine) (s : Nat) (v : Word)

/-- The two fields take their parts of the word. -/
def refTaken : Engine :=
  (e.wr (R.AFE_REF_CTRL.MODE s) ((R.AFE_REF_CTRL.MODE s).get v)).wr (R.AFE_REF_CTRL.BUF_EN s) ((R.AFE_REF_CTRL.BUF_EN s).get v)

theorem refTaken_onlyRegs : e.onlyRegs (e.refTaken s v) [(R.AFE_REF_CTRL.word s).off] := by
  unfold refTaken
  refine onlyRegs_wr (wr_onlyRegs e _ ?_) ?_ _
  all_goals exact List.mem_singleton.mpr rfl

theorem refTaken_rd : (e.refTaken s v).rd (R.AFE_REF_CTRL.MODE s) = (R.AFE_REF_CTRL.MODE s).get v ∧
    (e.refTaken s v).rd (R.AFE_REF_CTRL.BUF_EN s) = (R.AFE_REF_CTRL.BUF_EN s).get v := by
  unfold refTaken
  refine ⟨?_, ?_⟩ <;> simp (disch := simp only [Fld.fits, Fld.apart, Fld.get_lt] <;> omega) only [rd_wr_lt, rd_wr_apart]

/-- The die after a write that changes MODE: settling starts, and the buffer starts or stops where BUF_EN changes (R65). -/
def refRestarted (a : AfeSide) : AfeSide :=
  settling e.now e.free { a with bufStart :=
    if (R.AFE_REF_CTRL.BUF_EN s).get v = e.rd (R.AFE_REF_CTRL.BUF_EN s) then a.bufStart
    else if (R.AFE_REF_CTRL.BUF_EN s).get v = 1 then some e.now else none }

end

/-- A write that M3 takes and that changes MODE. -/
theorem writeRefCtrl_taken {e : Engine} {s : Nat} {v : Word} (hm : e.mode = .m3) (hdie : e.afePresent s = true)
    (hne : (R.AFE_REF_CTRL.MODE s).get v ≠ e.rd (R.AFE_REF_CTRL.MODE s)) :
    e.writeRefCtrl s v = ({ e.refTaken s v with free := e.free + 1 } : Engine).modAfe s (e.refRestarted s v) := by
  have hload : e.writeRefCtrl s v = e.loadRefCtrl s v := by simp [writeRefCtrl, hm, hdie, hne]
  have hnow : (e.refTaken s v).now = e.now := by simp [refTaken]
  have hfree : (e.refTaken s v).free = e.free := by simp [refTaken]
  rw [hload, loadRefCtrl, ← refTaken]
  generalize e.refTaken s v = x at *
  unfold refRestarted
  by_cases hbuf : (R.AFE_REF_CTRL.BUF_EN s).get v = e.rd (R.AFE_REF_CTRL.BUF_EN s)
  · simp only [hne, hbuf, if_true, if_false, startSettling_eq, hnow, hfree]
  · simp only [hne, hbuf, if_false, startSettling_modAfe, hnow, hfree]
    rfl

theorem writeRefCtrl_ignored {e : Engine} {s : Nat} {v : Word} (hm : e.mode ≠ .m3) (hdie : e.afePresent s = true)
    (hne : (R.AFE_REF_CTRL.MODE s).get v ≠ e.rd (R.AFE_REF_CTRL.MODE s)) : e.writeRefCtrl s v = e.writeIgnored (R.AFE_REF_CTRL.word s).off := by
  simp [writeRefCtrl, hm, hdie, hne]

end Engine

/-! ### The commands -/

theorem exec_afeCfgWrite (i : Side) (k : Fin 32) (v : Word) (s : State) : exec (.afeCfgWrite i k v) s =
    .next (s.onEng fun e => e.gate (R.AFE_CH_CFG.word i.val k.val).off fun x => x.writeCfg i.val k.val v) := rfl

theorem exec_refModeWrite (i : Side) (v : Word) (s : State) : exec (.refModeWrite i v) s =
    .next (s.onEng fun e => e.gate (R.AFE_REF_CTRL.word i.val).off fun x => x.writeRefCtrl i.val v) := rfl

/-- Settles O14: a write let through acts on the fields of its one register; what a mode refuses is the first write ignored. -/
theorem frontEndRegisters : Obligations.FrontEndRegisters := by
  unfold Obligations.FrontEndRegisters
  refine ⟨?cfgTaken, ?cfgIgnored, ?refTaken, ?refIgnored⟩
  case cfgTaken =>
    intro i k v s hmode hdie
    refine ⟨_, exec_afeCfgWrite i k v s, s.onEng_engineOnly _, ?_⟩
    rw [State.onEng_eng, Engine.gate_m3_m6 hmode]
    obtain ⟨hcfg, hstale, honly⟩ := Engine.writeCfg_spec hmode hdie k v
    obtain ⟨hsampling, hterm, hrange, hclamp⟩ := s.eng.cfgTaken_rd i.val k.val v
    exact ⟨(hcfg (R.AFE_CH_CFG.SAMPLING i.val k.val) rfl).trans hsampling, (hcfg (R.AFE_CH_CFG.TERM i.val k.val) rfl).trans hterm,
      (hcfg (R.AFE_CH_CFG.RANGE i.val k.val) rfl).trans hrange, (hcfg (R.AFE_CH_CFG.CLAMP i.val k.val) rfl).trans hclamp, hstale, by rw [honly.1], honly⟩
  case cfgIgnored =>
    intro i k v s h0 hmode hdie hflag
    refine ⟨_, exec_afeCfgWrite i k v s, s.onEng_engineOnly _, ?_⟩
    rw [State.onEng_eng, Engine.gate_cfg_ignored h0 i k (Engine.writeCfg_ignored hmode hdie k.val v), Engine.writeIgnored_first hflag]
  case refTaken =>
    intro i v s hm hdie hne
    refine ⟨_, exec_refModeWrite i v s, s.onEng_engineOnly _, ?_⟩
    rw [State.onEng_eng, Engine.gate_setUp (.inl hm), Engine.writeRefCtrl_taken hm hdie hne]
    have hrd := s.eng.refTaken_rd i.val v
    have honly := s.eng.refTaken_onlyRegs i.val v
    generalize s.eng.refTaken i.val v = x at *
    obtain ⟨hmode, hbuf⟩ := hrd
    obtain ⟨hframe, hwords⟩ := honly
    have hafe : x.afe = s.eng.afe := by rw [hframe]
    refine ⟨(Engine.rd_congr rfl _).trans hmode, (Engine.rd_congr rfl _).trans hbuf, ?_, ?_, hwords⟩
    · rw [← hafe]
      rfl
    · rw [hframe]
      rfl
  case refIgnored =>
    intro i v s h0 h1 h2 h10 h3 hdie hne hflag
    refine ⟨_, exec_refModeWrite i v s, s.onEng_engineOnly _, ?_⟩
    rw [State.onEng_eng, Engine.gate_open h0 h1 h2 h10, Engine.writeRefCtrl_ignored h3 hdie hne, Engine.writeIgnored_first hflag]

end Sys2Proof.Machine
end

section
/-!
PROOFS. Conversion and its slices (R56, R57, R59 to R61, R66): a run over the channels of a side, each with a register of its slices and one of its tracker
that no other channel's step reaches; what a start, a rotation and a calibration of the spare do to one channel.
-/

namespace Sys2Proof.Machine

namespace Engine

/-! ### One channel -/

theorem getElem?_modChan_ne (e : Engine) {c d : Nat} (h : d ≠ c) (f : ChanSt → ChanSt) : (e.modChan c f).chans[d]? = e.chans[d]? :=
  List.getElem?_modify_ne _ _ h.symm

theorem chan_modChan_ne (e : Engine) {c d : Nat} (h : d ≠ c) (f : ChanSt → ChanSt) : (e.modChan c f).chan d = e.chan d := by
  simp only [chan, List.getD_eq_getElem?_getD, getElem?_modChan_ne e h]

theorem chan_modChan_same {e : Engine} {c : Nat} (h : c < e.chans.length) (f : ChanSt → ChanSt) : (e.modChan c f).chan c = f (e.chan c) := by
  simp [chan, modChan, modAt, h]

/-- A change of a channel is what it makes of the channel as it stands. -/
theorem modChan_congr {e : Engine} {c : Nat} {f g : ChanSt → ChanSt} (h : f (e.chan c) = g (e.chan c)) : e.modChan c f = e.modChan c g := by
  have hchans : modAt e.chans c f = modAt e.chans c g := by
    refine List.ext_getElem? fun j => ?_
    simp only [modAt, List.getElem?_modify]
    by_cases hj : c = j
    · subst hj
      cases hc : e.chans[c]? with
      | none => rfl
      | some a =>
        have ha : e.chan c = a := by simp [chan, hc]
        simpa [ha] using h
    · simp [hj]
  rw [modChan, modChan, hchans]

/-- What a run over the channels of a side does to one of them: the channel itself, the register of its slices and that of its tracker. -/
def ofChan (s k : Nat) (e : Engine) : Option ChanSt × Word × Word :=
  (e.chans[32 * s + k]?, e.word (R.AFE_CH_SLICE.word s k).off, e.word (R.SHD_CH_TRK.C (32 * s + k)).off)

section
variable {e x : Engine} {s k : Nat}

theorem ofChan_eq_iff : ofChan s k x = ofChan s k e ↔ x.chans[32 * s + k]? = e.chans[32 * s + k]? ∧
    x.word (R.AFE_CH_SLICE.word s k).off = e.word (R.AFE_CH_SLICE.word s k).off ∧
    x.word (R.SHD_CH_TRK.C (32 * s + k)).off = e.word (R.SHD_CH_TRK.C (32 * s + k)).off := by
  simp only [ofChan, Prod.mk.injEq]

theorem chan_of_ofChan (h : ofChan s k x = ofChan s k e) : x.chan (32 * s + k) = e.chan (32 * s + k) := by
  simp only [chan, List.getD_eq_getElem?_getD, (ofChan_eq_iff.mp h).1]

theorem rd_of_ofChan (h : ofChan s k x = ofChan s k e) {f : Fld} (hf : f.off = (R.AFE_CH_SLICE.word s k).off) : x.rd f = e.rd f := by
  rw [rd, rd, hf, (ofChan_eq_iff.mp h).2.1]

theorem lt_length_of_ofChan (h : ofChan s k x = ofChan s k e) (hc : 32 * s + k < e.chans.length) : 32 * s + k < x.chans.length := by
  have hx := (ofChan_eq_iff.mp h).1
  rw [List.getElem?_eq_getElem hc] at hx
  exact (List.getElem?_eq_some_iff.mp hx).1

end

/-- A change of another channel. -/
theorem ofChan_modChan_ne (e : Engine) {s k b : Nat} (h : b ≠ k) (f : ChanSt → ChanSt) : ofChan s k (e.modChan (32 * s + b) f) = ofChan s k e :=
  ofChan_eq_iff.mpr ⟨getElem?_modChan_ne e (by omega) f, rfl, rfl⟩

/-- A write to a register of another channel. -/
theorem ofChan_wr_ne (e : Engine) {i : Side} {k b : Nat} (hk : k < 32) (hb : b < 32) (h : b ≠ k) {f : Fld}
    (hf : f.off = (R.AFE_CH_SLICE.word i.val b).off ∨ f.off = (R.SHD_CH_TRK.C (32 * i.val + b)).off) (v : Nat) :
    ofChan i.val k (e.wr f v) = ofChan i.val k e := by
  have hi := i.isLt
  dsimp only at hf
  refine ofChan_eq_iff.mpr ⟨rfl, word_wr_ne e v ?_, word_wr_ne e v ?_⟩
  all_goals
    dsimp only
    omega

/-- The registers of the slices of a side. -/
abbrev sliceOffs (s : Nat) : List Nat := (upTo 32).map fun k => (R.AFE_CH_SLICE.word s k).off

/-- The registers of the trackers of a side. -/
abbrev trackOffs (s : Nat) : List Nat := (upTo 32).map fun k => (R.SHD_CH_TRK.C (32 * s + k)).off

/-! ### Runs over channels -/

/-- Between two engines nothing has changed but channels, the free values taken, and of the registers the named ones. -/
def onlyChans (e x : Engine) (offs : List Nat) : Prop := ({ e with chans := x.chans, free := x.free } : Engine).onlyRegs x offs

theorem onlyChans_of_onlyRegs {e x : Engine} {offs : List Nat} (h : e.onlyRegs x offs) : e.onlyChans x offs := by
  refine ⟨?_, h.2⟩
  conv_lhs => rw [h.1]
  rw [h.1]

theorem onlyChans_trans {e x y : Engine} {offs : List Nat} (h : e.onlyChans x offs) (k : x.onlyChans y offs) : e.onlyChans y offs := by
  obtain ⟨hx, hw⟩ := h
  obtain ⟨ky, kw⟩ := k
  refine ⟨ky.trans ?_, fun off ho => (kw off ho).trans (hw off ho)⟩
  rw [hx]

theorem modChan_onlyChans (e : Engine) (c : Nat) (f : ChanSt → ChanSt) (offs : List Nat) : e.onlyChans (e.modChan c f) offs := ⟨rfl, fun _ _ => rfl⟩

section
variable {α β : Type} {f : Engine → α → Engine} {l : List α}

theorem foldl_onlyChans {offs : List Nat} (hf : ∀ x : Engine, ∀ a ∈ l, x.onlyChans (f x a) offs) (e : Engine) : e.onlyChans (l.foldl f e) offs := by
  induction l generalizing e with
  | nil => exact onlyChans_of_onlyRegs (e.onlyRegs_refl offs)
  | cons a t ih => exact onlyChans_trans (hf e a List.mem_cons_self) (ih (fun x b hb => hf x b (List.mem_cons_of_mem a hb)) _)

/-- What the steps on the other elements of a list leave alone stands, when the step on one element comes, as it stood first, and after that step as it
stands last. -/
theorem foldl_at (p : Engine → β) {a : α} (ha : a ∈ l) (hl : l.Nodup) (hp : ∀ x, ∀ b ∈ l, b ≠ a → p (f x b) = p x) (e : Engine) :
    ∃ x, p x = p e ∧ p (l.foldl f e) = p (f x a) := by
  induction l generalizing e with
  | nil => cases ha
  | cons c t ih =>
    obtain ⟨hc, ht⟩ := List.nodup_cons.mp hl
    have hp' : ∀ x, ∀ b ∈ t, b ≠ a → p (f x b) = p x := fun x b hb => hp x b (List.mem_cons_of_mem c hb)
    rw [List.foldl_cons]
    by_cases hca : c = a
    · subst hca
      exact ⟨e, rfl, foldl_keeps p (fun x b hb => hp' x b hb fun hbc => hc (hbc ▸ hb)) _⟩
    · obtain ⟨x, hx, hfold⟩ := ih ((List.mem_cons.mp ha).resolve_left (Ne.symm hca)) ht hp' (f e c)
      exact ⟨x, hx.trans (hp e c List.mem_cons_self hca), hfold⟩

end

/-! ### Corrections the slices serve under -/

/-- The corrections of a channel once the listed slices have taken theirs, the first of them the n-th free value. -/
def serveFrom (n : Nat) : List Nat → List (Option SliceCorr) → List (Option SliceCorr)
  | [], l => l
  | p :: t, l => serveFrom (n + 1) t (modAt l p fun _ => some (someCorr (Config.freeValue n)))

theorem serveFrom_length (ps : List Nat) (n : Nat) (l : List (Option SliceCorr)) : (serveFrom n ps l).length = l.length := by
  induction ps generalizing n l with
  | nil => rfl
  | cons p t ih =>
    rw [serveFrom, ih]
    exact List.length_modify ..

/-- A slice that has its corrections keeps some. -/
theorem serveFrom_keeps (ps : List Nat) (n : Nat) {l : List (Option SliceCorr)} {q : Nat} (h : (l.getD q none).isSome = true) :
    ((serveFrom n ps l).getD q none).isSome = true := by
  induction ps generalizing n l with
  | nil => exact h
  | cons p t ih =>
    refine ih _ ?_
    rw [List.getD_eq_getElem?_getD] at h ⊢
    rw [modAt, List.getElem?_modify]
    cases hq : l[q]? with
    | none => simp [hq] at h
    | some a =>
      rw [hq] at h
      by_cases hpq : p = q
      · simp [hpq]
      · simpa [hpq] using h

/-- Every listed slice of the channel has its corrections. -/
theorem serveFrom_serves {ps : List Nat} (n : Nat) {l : List (Option SliceCorr)} {q : Nat} (hq : q ∈ ps) (hlt : q < l.length) :
    ((serveFrom n ps l).getD q none).isSome = true := by
  induction ps generalizing n l with
  | nil => cases hq
  | cons p t ih =>
    rw [serveFrom]
    by_cases hqp : q = p
    · subst hqp
      refine serveFrom_keeps t _ ?_
      simp [modAt, hlt]
    · exact ih _ ((List.mem_cons.mp hq).resolve_left hqp) (by simpa [modAt] using hlt)

/-- The slices of a list that have no corrections yet. -/
def unserved (e : Engine) (c : Nat) (slices : List Nat) : List Nat := slices.filter fun p => ((e.chan c).served.getD p none).isNone

theorem foldl_serve_eq (c : Nat) (ps : List Nat) (e : Engine) :
    ps.foldl (fun x p => x.takeFree.2.modChan c fun h => { h with served := modAt h.served p fun _ => some (someCorr x.takeFree.1) }) e =
      ({ e with free := e.free + ps.length } : Engine).modChan c fun h => { h with served := serveFrom e.free ps h.served } := by
  induction ps generalizing e with
  | nil =>
    have hid : modAt e.chans c (fun h => h) = e.chans := List.modify_id ..
    simp only [List.foldl_nil, List.length_nil, Nat.add_zero, modChan, serveFrom, hid]
  | cons p t ih =>
    rw [List.foldl_cons, ih, List.length_cons]
    simp only [modChan, takeFree, modAt_modAt, serveFrom, Function.comp_def, Nat.add_assoc, Nat.add_comm 1]

theorem serveSlices_eq (e : Engine) (c : Nat) (slices : List Nat) : e.serveSlices c slices =
    ({ e with free := e.free + (e.unserved c slices).length } : Engine).modChan c fun h => { h with served := serveFrom e.free (e.unserved c slices) h.served } :=
  foldl_serve_eq c (e.unserved c slices) e

/-- After it every slice of the list serves, and nothing of the channel has changed but the corrections. -/
theorem chan_serveSlices {e : Engine} {c : Nat} (hc : c < e.chans.length) (slices : List Nat) :
    { (e.serveSlices c slices).chan c with served := [] } = { e.chan c with served := [] } ∧
    ∀ p ∈ slices, p < (e.chan c).served.length → (((e.serveSlices c slices).chan c).served.getD p none).isSome = true := by
  have hchan : (e.serveSlices c slices).chan c = { e.chan c with served := serveFrom e.free (e.unserved c slices) (e.chan c).served } := by
    rw [serveSlices_eq]
    exact chan_modChan_same hc _
  rw [hchan]
  refine ⟨rfl, fun p hp hlt => ?_⟩
  cases hserved : ((e.chan c).served.getD p none).isNone with
  | true => exact serveFrom_serves _ (List.mem_filter.mpr ⟨hp, hserved⟩) hlt
  | false => exact serveFrom_keeps _ _ (by simpa [Option.isSome_iff_ne_none] using hserved)

/-! ### A side starts to convert (R56, R57, R66) -/

section
variable (bad : Bool) (slices : List Nat) (tgt s : Nat) (x : Engine) (k : Nat)

/-- One channel begins afresh: on slices that serve, with the spare of a channel that has not failed the fifth. -/
def chanBegun : Engine := (x.modChan (32 * s + k) (startChan bad)).serveSlices (32 * s + k) slices

/-- Its registers. -/
def chanRegsBegun : Engine :=
  (if bad then x.wr (R.AFE_CH_SLICE.ROT_COUNT s k) 0 else (x.wr (R.AFE_CH_SLICE.ROT_COUNT s k) 0).wr (R.AFE_CH_SLICE.SPARE s k) 4).wr
    (R.SHD_CH_TRK.C (32 * s + k)) tgt

end

/-- The step of a conversion start for one channel, from what stood when the side started. -/
def startStep (e : Engine) (s : Nat) (x : Engine) (k : Nat) : Engine :=
  (x.chanBegun (e.on (R.AFE_CH_SLICE.FAILED s k))
    (if e.on (R.AFE_CH_SLICE.FAILED s k) then (e.chan (32 * s + k)).phases else [0, 1, 2, 3]) s k).chanRegsBegun
    (e.on (R.AFE_CH_SLICE.FAILED s k)) (256 * e.rd R.CAL_DARK_TGT.V) s k

/-- CONV_RUN sets and the hold of the buffer ends. -/
def sideRuns (e : Engine) (s : Nat) : Engine := (e.wr (R.AFE_STATUS.CONV_RUN s) 1).modAfe s fun a => { a with bufWait := false }

theorem startConversion_eq {e : Engine} {s : Nat} (h : e.conversionReady s = true) :
    e.startConversion s = (upTo 32).foldl (e.startStep s) (e.sideRuns s) := by
  rw [startConversion, h]
  rfl

section
variable (bad : Bool) (slices : List Nat) (tgt s : Nat) (x : Engine) (k : Nat)

theorem chanBegun_regs : (x.chanBegun bad slices s k).regs = x.regs := by
  rw [chanBegun, serveSlices_eq]
  rfl

theorem chanBegun_onlyChans (offs : List Nat) : x.onlyChans (x.chanBegun bad slices s k) offs := by
  rw [chanBegun, serveSlices_eq]
  exact ⟨rfl, fun _ _ => rfl⟩

theorem chanBegun_chans_ne {c : Nat} (h : c ≠ 32 * s + k) : (x.chanBegun bad slices s k).chans[c]? = x.chans[c]? := by
  rw [chanBegun, serveSlices_eq, getElem?_modChan_ne _ h]
  exact getElem?_modChan_ne _ h _

/-- The channel is that of R56 but for the corrections of its slices, and every slice of its phases that it knows has some. -/
theorem chan_chanBegun {x : Engine} (hc : 32 * s + k < x.chans.length)
    (hslices : slices = if bad then (x.chan (32 * s + k)).phases else [0, 1, 2, 3]) :
    { (x.chanBegun bad slices s k).chan (32 * s + k) with served := [] } = { startChan bad (x.chan (32 * s + k)) with served := [] } ∧
    (((x.chanBegun bad slices s k).chan (32 * s + k)).phases.all fun p => decide ((x.chan (32 * s + k)).served.length ≤ p) ||
      (((x.chanBegun bad slices s k).chan (32 * s + k)).served.getD p none).isSome) = true := by
  have hbegun : (x.modChan (32 * s + k) (startChan bad)).chan (32 * s + k) = startChan bad (x.chan (32 * s + k)) := chan_modChan_same hc _
  obtain ⟨hframe, hserved⟩ := chan_serveSlices (e := x.modChan (32 * s + k) (startChan bad)) (c := 32 * s + k) (by simpa [modChan, modAt] using hc) slices
  rw [hbegun] at hframe hserved
  refine ⟨hframe, ?_⟩
  have hphases : ((x.chanBegun bad slices s k).chan (32 * s + k)).phases = slices :=
    (congrArg ChanSt.phases hframe).trans hslices.symm
  rw [hphases, List.all_eq_true]
  intro p hp
  by_cases hlt : p < (x.chan (32 * s + k)).served.length
  · rw [chanBegun, hserved p hp hlt, Bool.or_true]
  · simp [not_lt.mp hlt]

theorem chanRegsBegun_onlyRegs :
    x.onlyRegs (x.chanRegsBegun bad tgt s k) [(R.AFE_CH_SLICE.word s k).off, (R.SHD_CH_TRK.C (32 * s + k)).off] := by
  unfold chanRegsBegun
  refine onlyRegs_wr ?_ (by simp) _
  split
  · exact wr_onlyRegs x 0 (by simp)
  · exact onlyRegs_wr (wr_onlyRegs x 0 (by simp)) (by simp) 4

end

/-- What a channel that begins afresh shows: the fifth slice as spare unless one has failed, no rotation, its tracker at the target (R56, R98). -/
theorem chanRegsBegun_rd (x : Engine) (i : Side) (k : Fin 32) (bad : Bool) (tgt : Nat) :
    (x.chanRegsBegun bad tgt i.val k.val).rd (R.AFE_CH_SLICE.SPARE i.val k.val) = (if bad then x.rd (R.AFE_CH_SLICE.SPARE i.val k.val) else 4) ∧
    (x.chanRegsBegun bad tgt i.val k.val).rd (R.AFE_CH_SLICE.ROT_COUNT i.val k.val) = 0 ∧
    (x.chanRegsBegun bad tgt i.val k.val).rd (R.SHD_CH_TRK.C (32 * i.val + k.val)) = tgt % 2 ^ (R.SHD_CH_TRK.C (32 * i.val + k.val)).width := by
  have hi := i.isLt
  have hk := k.isLt
  refine ⟨?_, ?_, rd_wr_same _ ⟨by simp, by simp⟩ _⟩ <;>
    cases bad <;>
    simp (disch := simp only [Fld.fits, Fld.apart, Fld.width]; omega) only [chanRegsBegun, Bool.false_eq_true, if_true, if_false, rd_wr_ne, rd_wr_lt, rd_wr_apart]

theorem startStep_onlyChans (e : Engine) (s : Nat) (x : Engine) {k : Nat} (hk : k < 32) : x.onlyChans (e.startStep s x k) (sliceOffs s ++ trackOffs s) := by
  refine onlyChans_trans (chanBegun_onlyChans _ _ s x k _) (onlyChans_of_onlyRegs (onlyRegs_mono (chanRegsBegun_onlyRegs ..) ?_))
  simp only [List.mem_cons, List.not_mem_nil, or_false, forall_eq_or_imp, forall_eq]
  exact ⟨List.mem_append_left _ (off_mem _ hk), List.mem_append_right _ (off_mem _ hk)⟩

theorem startStep_chans (e : Engine) (s : Nat) (x : Engine) (k : Nat) : (e.startStep s x k).chans = (x.chanBegun (e.on (R.AFE_CH_SLICE.FAILED s k))
    (if e.on (R.AFE_CH_SLICE.FAILED s k) then (e.chan (32 * s + k)).phases else [0, 1, 2, 3]) s k).chans := by
  rw [startStep, (chanRegsBegun_onlyRegs ..).1]

/-- The step of one channel leaves the others alone. -/
theorem ofChan_startStep_ne (e : Engine) (i : Side) (x : Engine) {k b : Nat} (hk : k < 32) (hb : b < 32) (h : b ≠ k) :
    ofChan i.val k (e.startStep i.val x b) = ofChan i.val k x := by
  have hi := i.isLt
  have hwords : ∀ off, off ≠ (R.AFE_CH_SLICE.word i.val b).off → off ≠ (R.SHD_CH_TRK.C (32 * i.val + b)).off →
      (e.startStep i.val x b).word off = x.word off := by
    intro off hslice htrack
    refine ((chanRegsBegun_onlyRegs ..).2 off ?_).trans (word_congr (chanBegun_regs ..) off)
    simp only [List.mem_cons, List.not_mem_nil, or_false, not_or]
    exact ⟨hslice, htrack⟩
  refine ofChan_eq_iff.mpr ⟨?_, hwords _ ?_ ?_, hwords _ ?_ ?_⟩
  · rw [startStep_chans]
    exact chanBegun_chans_ne _ _ _ x b (by omega)
  all_goals
    dsimp only
    omega

section
variable {e : Engine} {i : Side} (hready : e.conversionReady i.val = true)
include hready

theorem startConversion_onlyChans : (e.sideRuns i.val).onlyChans (e.startConversion i.val) (sliceOffs i.val ++ trackOffs i.val) := by
  rw [startConversion_eq hready]
  exact foldl_onlyChans (fun x k hk => e.startStep_onlyChans i.val x (List.mem_range.mp hk)) _

theorem startConversion_convRun : (e.startConversion i.val).on (R.AFE_STATUS.CONV_RUN i.val) = true := by
  have hi := i.isLt
  have hrd : (e.startConversion i.val).rd (R.AFE_STATUS.CONV_RUN i.val) = (e.sideRuns i.val).rd (R.AFE_STATUS.CONV_RUN i.val) := by
    refine onlyRegs_rd (startConversion_onlyChans hready) (List.not_mem_append (off_notMem fun k hk => ?_) (off_notMem fun k hk => ?_))
    all_goals
      dsimp only
      omega
  have hset : (e.sideRuns i.val).rd (R.AFE_STATUS.CONV_RUN i.val) = 1 := rd_wr_lt e ⟨by simp, by simp⟩ (by simp [Fld.width])
  rw [on, hrd, hset]
  rfl

/-- The step of a channel is the last that reaches it, and the first. -/
theorem startConversion_ofChan (k : Fin 32) :
    ∃ x, ofChan i.val k.val x = ofChan i.val k.val e ∧ ofChan i.val k.val (e.startConversion i.val) = ofChan i.val k.val (e.startStep i.val x k.val) := by
  have hi := i.isLt
  obtain ⟨x, hx, hlast⟩ := foldl_at (f := e.startStep i.val) (ofChan i.val k.val) (List.mem_range.mpr k.isLt) List.nodup_range
    (fun y b hb hne => e.ofChan_startStep_ne i y k.isLt (List.mem_range.mp hb) hne) (e.sideRuns i.val)
  refine ⟨x, hx.trans (ofChan_eq_iff.mpr ⟨rfl, word_wr_ne e 1 ?_, word_wr_ne e 1 ?_⟩), by rwa [startConversion_eq hready]⟩
  all_goals
    dsimp only
    omega

/-- What each channel shows (R56, R98). -/
theorem startConversion_rd (k : Fin 32) :
    (e.startConversion i.val).rd (R.AFE_CH_SLICE.SPARE i.val k.val) =
      (if e.on (R.AFE_CH_SLICE.FAILED i.val k.val) then e.rd (R.AFE_CH_SLICE.SPARE i.val k.val) else 4) ∧
    (e.startConversion i.val).rd (R.AFE_CH_SLICE.ROT_COUNT i.val k.val) = 0 ∧
    (e.startConversion i.val).rd (R.SHD_CH_TRK.C (32 * i.val + k.val)) =
      256 * e.rd R.CAL_DARK_TGT.V % 2 ^ (R.SHD_CH_TRK.C (32 * i.val + k.val)).width := by
  obtain ⟨x, hx, hlast⟩ := startConversion_ofChan hready k
  have htrack := congrArg (R.SHD_CH_TRK.C (32 * i.val + k.val)).get (ofChan_eq_iff.mp hlast).2.2
  rw [rd_of_ofChan hlast (f := R.AFE_CH_SLICE.SPARE i.val k.val) rfl, rd_of_ofChan hlast (f := R.AFE_CH_SLICE.ROT_COUNT i.val k.val) rfl,
    ← rd_of_ofChan hx (f := R.AFE_CH_SLICE.SPARE i.val k.val) rfl, ← rd_congr (chanBegun_regs _ _ i.val x k.val)]
  obtain ⟨hspare, hcount, htrk⟩ := chanRegsBegun_rd (x.chanBegun (e.on (R.AFE_CH_SLICE.FAILED i.val k.val))
    (if e.on (R.AFE_CH_SLICE.FAILED i.val k.val) then (e.chan (32 * i.val + k.val)).phases else [0, 1, 2, 3]) i.val k.val) i k
    (e.on (R.AFE_CH_SLICE.FAILED i.val k.val)) (256 * e.rd R.CAL_DARK_TGT.V)
  exact ⟨hspare, hcount, htrack.trans htrk⟩

/-- Each channel begins afresh, and the slices of its phases serve (R56, R57). -/
theorem startConversion_chan (hlen : e.chans.length = 64) (k : Fin 32) :
    { (e.startConversion i.val).chan (32 * i.val + k.val) with served := [] } =
      { startChan (e.on (R.AFE_CH_SLICE.FAILED i.val k.val)) (e.chan (32 * i.val + k.val)) with served := [] } ∧
    (((e.startConversion i.val).chan (32 * i.val + k.val)).phases.all fun p => decide ((e.chan (32 * i.val + k.val)).served.length ≤ p) ||
      (((e.startConversion i.val).chan (32 * i.val + k.val)).served.getD p none).isSome) = true := by
  obtain ⟨x, hx, hlast⟩ := startConversion_ofChan hready k
  have hc : 32 * i.val + k.val < x.chans.length := lt_length_of_ofChan hx (by omega)
  have hchan : (e.startConversion i.val).chan (32 * i.val + k.val) = (x.chanBegun (e.on (R.AFE_CH_SLICE.FAILED i.val k.val))
      (if e.on (R.AFE_CH_SLICE.FAILED i.val k.val) then (e.chan (32 * i.val + k.val)).phases else [0, 1, 2, 3]) i.val k.val).chan (32 * i.val + k.val) := by
    rw [chan_of_ofChan hlast, chan, startStep_chans]
    rfl
  rw [hchan, ← chan_of_ofChan hx]
  exact chan_chanBegun _ _ i.val k.val hc rfl

/-- The channels of the other side stay as they are. -/
theorem startConversion_chan_other {c : Nat} (h : c / 32 ≠ i.val) : (e.startConversion i.val).chan c = e.chan c := by
  rw [startConversion_eq hready]
  refine foldl_keeps (fun x => x.chan c) (fun x k hk => ?_) _
  have hk32 := List.mem_range.mp hk
  have hne : c ≠ 32 * i.val + k := by omega
  simp only [chan, List.getD_eq_getElem?_getD, startStep_chans, chanBegun_chans_ne _ _ _ x k hne]

theorem startConversion_onlyRegs :
    (e.startConversion i.val).afe = modAt e.afe i.val (fun a => { a with bufWait := false }) ∧
    ({ e with chans := (e.startConversion i.val).chans, free := (e.startConversion i.val).free, afe := (e.startConversion i.val).afe } : Engine).onlyRegs
      (e.startConversion i.val) ([(R.AFE_STATUS.CONV_RUN i.val).off] ++ sliceOffs i.val ++ trackOffs i.val) := by
  obtain ⟨hframe, hwords⟩ := startConversion_onlyChans hready
  have hregs (off : Nat) (hoff : off ≠ (R.AFE_STATUS.CONV_RUN i.val).off) : (e.sideRuns i.val).word off = e.word off := word_wr_ne e 1 hoff
  refine ⟨by rw [hframe]; rfl, ?_, fun off hoff => ?_⟩
  · rw [hframe]
    rfl
  · rw [List.append_assoc] at hoff
    exact (hwords off fun h => hoff (List.mem_append_right _ h)).trans (hregs off fun h => hoff (List.mem_append_left _ (List.mem_singleton.mpr h)))

end

/-! ### A rotation (R56, R60, R61) -/

/-- One channel at a line boundary. -/
def rotateStep (s : Nat) (x : Engine) (k : Nat) : Engine := if x.rotationDue s k then x.rotate s k else x

theorem rotateSide_eq {e : Engine} {s : Nat} (hslot : (e.gen s).slot ≠ none) (hconv : e.on (R.AFE_STATUS.CONV_RUN s) = true) (hrun : (e.gen s).run = none)
    (hrot : e.on (R.AFE_CTRL.ROT_EN s) = true) (href : e.refFaulty s = false) : e.rotateSide s = (e.enabledCh s).foldl (rotateStep s) e := by
  have hsome : (e.gen s).slot.isSome = true := Option.isSome_iff_ne_none.mpr hslot
  simp only [rotateSide, rotateDue, hsome, hconv, hrun, hrot, href, Option.isNone_none, Bool.and_self, Bool.not_false, if_true]
  rfl

/-- The channel after its rotation. -/
def chanRotated (spare : Nat) (h : ChanSt) : ChanSt :=
  { h with phases := modAt h.phases (h.rotations % 4) (fun _ => spare), spareReady := false, rotations := h.rotations + 1, attempts := 0, since := 0,
           service := modAt h.service spare fun _ => (none, none) }

section
variable (x : Engine) (s k : Nat)

/-- The registers of a rotation: the slice replaced is the next spare. -/
def slicesShown (spare count : Nat) : Engine := (x.wr (R.AFE_CH_SLICE.SPARE s k) spare).wr (R.AFE_CH_SLICE.ROT_COUNT s k) count

theorem rotate_eq : x.rotate s k = (x.modChan (32 * s + k) (chanRotated (x.spareOf s k))).slicesShown s k
    ((x.chan (32 * s + k)).phases.getD ((x.chan (32 * s + k)).rotations % 4) 0) ((x.chan (32 * s + k)).rotations + 1) := by
  have hchan : x.modChan (32 * s + k) (chanRotated (x.spareOf s k)) = x.modChan (32 * s + k) fun h =>
      { h with phases := modAt h.phases ((x.chan (32 * s + k)).rotations % 4) (fun _ => x.spareOf s k), spareReady := false,
               rotations := h.rotations + 1, attempts := 0, since := 0, service := modAt h.service (x.spareOf s k) fun _ => (none, none) } :=
    modChan_congr rfl
  rw [hchan]
  rfl

theorem slicesShown_onlyRegs (spare count : Nat) : x.onlyRegs (x.slicesShown s k spare count) [(R.AFE_CH_SLICE.word s k).off] := by
  unfold slicesShown
  refine onlyRegs_wr (wr_onlyRegs x spare ?_) ?_ count
  all_goals exact List.mem_singleton.mpr rfl

theorem slicesShown_spare (spare count : Nat) :
    (x.slicesShown s k spare count).rd (R.AFE_CH_SLICE.SPARE s k) = spare % 2 ^ (R.AFE_CH_SLICE.SPARE s k).width := by
  rw [slicesShown, rd_wr_apart _ ⟨by simp, by simp⟩ ⟨by simp, by simp⟩ (by simp [Fld.apart]), rd_wr_same _ ⟨by simp, by simp⟩]

theorem rotate_onlyChans : x.onlyChans (x.rotate s k) [(R.AFE_CH_SLICE.word s k).off] := by
  rw [rotate_eq]
  exact onlyChans_trans (modChan_onlyChans x _ _ _) (onlyChans_of_onlyRegs (slicesShown_onlyRegs ..))

theorem rotate_chans : (x.rotate s k).chans = (x.modChan (32 * s + k) (chanRotated (x.spareOf s k))).chans := by
  rw [rotate_eq, (slicesShown_onlyRegs ..).1]

theorem rotate_free : (x.rotate s k).free = x.free := by
  rw [rotate_eq, (slicesShown_onlyRegs ..).1]
  rfl

theorem rotateStep_free : (rotateStep s x k).free = x.free := by
  unfold rotateStep
  split
  · exact rotate_free x s k
  · rfl

theorem rotateStep_onlyChans : x.onlyChans (rotateStep s x k) [(R.AFE_CH_SLICE.word s k).off] := by
  unfold rotateStep
  split
  · exact rotate_onlyChans x s k
  · exact onlyChans_of_onlyRegs (x.onlyRegs_refl _)

theorem rotateStep_chans_ne {c : Nat} (h : c ≠ 32 * s + k) : (rotateStep s x k).chans[c]? = x.chans[c]? := by
  unfold rotateStep
  split
  · rw [rotate_chans]
    exact getElem?_modChan_ne x h _
  · rfl

end

/-- What decides of the rotation of a channel, and what it changes: the channel with its registers, and how many lines its slices serve. -/
def ofRotation (s k : Nat) (e : Engine) : (Option ChanSt × Word × Word) × Word := (ofChan s k e, e.word (R.AFE_ROT.LINES s).off)

/-- The rotation of one channel leaves the others alone. -/
theorem ofRotation_rotateStep_ne (i : Side) (x : Engine) {k b : Nat} (hk : k < 32) (hb : b < 32) (h : b ≠ k) :
    ofRotation i.val k (rotateStep i.val x b) = ofRotation i.val k x := by
  have hi := i.isLt
  have hwords : ∀ off, off ≠ (R.AFE_CH_SLICE.word i.val b).off → (rotateStep i.val x b).word off = x.word off := fun off hoff =>
    (rotateStep_onlyChans x i.val b).2 off (by simpa using hoff)
  refine Prod.ext (ofChan_eq_iff.mpr ⟨rotateStep_chans_ne x i.val b (by omega), hwords _ ?_, hwords _ ?_⟩) (hwords _ ?_)
  all_goals
    dsimp only
    omega

theorem rotationDue_congr {e x : Engine} {s k : Nat} (h : ofRotation s k x = ofRotation s k e) : x.rotationDue s k = e.rotationDue s k := by
  obtain ⟨hchan, hlines⟩ : ofChan s k x = ofChan s k e ∧ x.word (R.AFE_ROT.LINES s).off = e.word (R.AFE_ROT.LINES s).off := Prod.mk.inj h
  have hrd : x.rd (R.AFE_ROT.LINES s) = e.rd (R.AFE_ROT.LINES s) := congrArg (R.AFE_ROT.LINES s).get hlines
  have hfailed : x.on (R.AFE_CH_SLICE.FAILED s k) = e.on (R.AFE_CH_SLICE.FAILED s k) := by
    rw [on, on, rd_of_ofChan hchan (f := R.AFE_CH_SLICE.FAILED s k) rfl]
  rw [rotationDue, rotationDue, chan_of_ofChan hchan, hfailed, hrd]

theorem mem_enabledCh {e : Engine} {s k : Nat} : k ∈ e.enabledCh s ↔ k < 32 ∧ e.on (R.TG_CHMAP.EN s k) = true :=
  List.mem_filter.trans (and_congr_left fun _ => List.mem_range)

section
variable (e : Engine) (i : Side)

theorem foldl_rotateStep_frame :
    ({ e with chans := ((e.enabledCh i.val).foldl (rotateStep i.val) e).chans } : Engine).onlyRegs ((e.enabledCh i.val).foldl (rotateStep i.val) e)
      (sliceOffs i.val) := by
  have hfree : ((e.enabledCh i.val).foldl (rotateStep i.val) e).free = e.free := foldl_keeps Engine.free (fun x k _ => rotateStep_free x i.val k) e
  have honly : e.onlyChans ((e.enabledCh i.val).foldl (rotateStep i.val) e) (sliceOffs i.val) := by
    refine foldl_onlyChans (fun x k hk => ?_) e
    obtain ⟨hframe, hwords⟩ := rotateStep_onlyChans x i.val k
    refine ⟨hframe, fun off hoff => hwords off fun h => hoff ?_⟩
    rw [List.mem_singleton.mp h]
    exact off_mem _ (mem_enabledCh.mp hk).1
  rwa [onlyChans, hfree] at honly

/-- A channel that is not enabled, or not due, keeps its slices. -/
theorem foldl_rotateStep_kept (k : Fin 32) (h : (e.on (R.TG_CHMAP.EN i.val k.val) && e.rotationDue i.val k.val) = false) :
    ofChan i.val k.val ((e.enabledCh i.val).foldl (rotateStep i.val) e) = ofChan i.val k.val e := by
  have hothers : ∀ x, ∀ b ∈ e.enabledCh i.val, b ≠ k.val → ofRotation i.val k.val (rotateStep i.val x b) = ofRotation i.val k.val x :=
    fun x b hb hne => ofRotation_rotateStep_ne i x k.isLt (mem_enabledCh.mp hb).1 hne
  refine congrArg Prod.fst (?_ : ofRotation i.val k.val _ = ofRotation i.val k.val e)
  by_cases hen : e.on (R.TG_CHMAP.EN i.val k.val) = true
  · have hdue : e.rotationDue i.val k.val = false := by simpa [hen] using h
    obtain ⟨x, hx, hlast⟩ := foldl_at (f := rotateStep i.val) (ofRotation i.val k.val) (mem_enabledCh.mpr ⟨k.isLt, hen⟩) (List.nodup_range.filter _) hothers e
    rw [hlast, rotateStep, rotationDue_congr hx, hdue]
    exact hx
  · exact foldl_keeps (ofRotation i.val k.val) (fun x b hb => hothers x b hb fun hbk => hen (hbk ▸ (mem_enabledCh.mp hb).2)) e

/-- A channel that is due rotates once (R56). -/
theorem foldl_rotateStep_rotated (hlen : e.chans.length = 64) (k : Fin 32) (hen : e.on (R.TG_CHMAP.EN i.val k.val) = true)
    (hdue : e.rotationDue i.val k.val = true) :
    ((e.enabledCh i.val).foldl (rotateStep i.val) e).chan (32 * i.val + k.val) =
      chanRotated (e.spareOf i.val k.val) (e.chan (32 * i.val + k.val)) ∧
    ((e.enabledCh i.val).foldl (rotateStep i.val) e).rd (R.AFE_CH_SLICE.SPARE i.val k.val) =
      (e.chan (32 * i.val + k.val)).phases.getD ((e.chan (32 * i.val + k.val)).rotations % 4) 0 % 2 ^ (R.AFE_CH_SLICE.SPARE i.val k.val).width := by
  obtain ⟨x, hx, hlast⟩ := foldl_at (f := rotateStep i.val) (ofRotation i.val k.val) (mem_enabledCh.mpr ⟨k.isLt, hen⟩) (List.nodup_range.filter _)
    (fun x b hb hne => ofRotation_rotateStep_ne i x k.isLt (mem_enabledCh.mp hb).1 hne) e
  have hrotates : rotateStep i.val x k.val = x.rotate i.val k.val := by rw [rotateStep, rotationDue_congr hx, if_pos hdue]
  rw [hrotates] at hlast
  have hfirst : ofChan i.val k.val x = ofChan i.val k.val e := congrArg Prod.fst hx
  have hend : ofChan i.val k.val ((e.enabledCh i.val).foldl (rotateStep i.val) e) = ofChan i.val k.val (x.rotate i.val k.val) := congrArg Prod.fst hlast
  have hc : 32 * i.val + k.val < x.chans.length := lt_length_of_ofChan hfirst (by omega)
  have hspare : x.spareOf i.val k.val = e.spareOf i.val k.val := rd_of_ofChan hfirst (f := R.AFE_CH_SLICE.SPARE i.val k.val) rfl
  rw [chan_of_ofChan hend, rd_of_ofChan hend (f := R.AFE_CH_SLICE.SPARE i.val k.val) rfl, ← chan_of_ofChan hfirst, ← hspare]
  refine ⟨?_, ?_⟩
  · rw [chan, rotate_chans]
    exact chan_modChan_same hc _
  · rw [rotate_eq]
    exact slicesShown_spare ..

end

/-! ### The calibration of a spare (R57, R59, R60) -/

section
variable {e : Engine} {c : Nat} (hconv : e.on (R.AFE_STATUS.CONV_RUN (c / 32)) = true) (hen : e.on (R.TG_CHMAP.EN (c / 32) (c % 32)) = true)
  (hgood : e.on (R.AFE_CH_SLICE.FAILED (c / 32) (c % 32)) = false) (hready : (e.chan c).spareReady = false) (href : e.refFaulty (c / 32) = false)
include hconv hen hgood hready href

theorem spareCal_ready {x : SliceCorr} (hx : sliceFailCode ((e.chan c).served.getD (e.spareOf (c / 32) (c % 32)) none) x = 0) :
    e.spareCal c (some x) = e.modChan c fun h =>
      { h with spareReady := true, attempts := 0, served := modAt h.served (e.spareOf (c / 32) (c % 32)) fun _ => some x } := by
  simp only [spareCal, hconv, hen, hgood, hready, href, hx, Bool.not_true, Bool.or_self, Bool.false_eq_true, if_false, if_true]

/-- An attempt that did not converge is counted; the third fails the slice. -/
theorem spareCal_unconverged : e.spareCal c none =
    if (e.chan c).attempts + 1 < 3 then e.modChan c fun h => { h with attempts := h.attempts + 1 }
    else (e.modChan c fun h => { h with attempts := h.attempts + 1 }).sliceFail (c / 32) (c % 32) 5 none := by
  have hcount : (e.modChan c fun h => { h with attempts := (e.chan c).attempts + 1 }) = e.modChan c fun h => { h with attempts := h.attempts + 1 } :=
    modChan_congr rfl
  simp [spareCal, hconv, hen, hgood, hready, href, hcount]

end

/-- The registers of a slice that failed. -/
def sliceMarked (e : Engine) (s k slice code : Nat) : Engine :=
  (((e.wr (R.AFE_CH_SLICE.FAILED s k) 1).wr (R.AFE_CH_SLICE.FAIL_SLICE s k) slice).wr (R.AFE_CH_SLICE.FAIL_CODE s k) code).setRegBit (R.AFE_SLICE_FAIL.V s) k

theorem sliceMarked_onlyRegs (e : Engine) (s k slice code : Nat) :
    e.onlyRegs (e.sliceMarked s k slice code) [(R.AFE_CH_SLICE.word s k).off, (R.AFE_SLICE_FAIL.V s).off] := by
  unfold sliceMarked setRegBit
  refine onlyRegs_wr (onlyRegs_wr (onlyRegs_wr (wr_onlyRegs e _ ?_) ?_ _) ?_ _) ?_ _
  all_goals simp

theorem sliceMarked_rd (e : Engine) {s k slice code : Nat} (hk : k < 32) (hslice : slice < 8) (hcode : code < 16) :
    (e.sliceMarked s k slice code).rd (R.AFE_CH_SLICE.FAILED s k) = 1 ∧ (e.sliceMarked s k slice code).rd (R.AFE_CH_SLICE.FAIL_SLICE s k) = slice ∧
    (e.sliceMarked s k slice code).rd (R.AFE_CH_SLICE.FAIL_CODE s k) = code ∧ bitOf ((e.sliceMarked s k slice code).rd (R.AFE_SLICE_FAIL.V s)) k = true := by
  unfold sliceMarked setRegBit
  refine ⟨?_, ?_, ?_, ?_⟩
  case refine_4 =>
    rw [rd_wr_same _ ⟨by simp, by simp⟩, bitOf_eq_testBit, Nat.testBit_mod_two_pow, ← bitOf_eq_testBit, bitOf_setBit_same]
    simp [Fld.width, hk]
  all_goals simp (disch := simp only [Fld.fits, Fld.apart, Fld.width]; omega) only [rd_wr_lt, rd_wr_apart, rd_wr_ne]

/-- A number the event names, or a free value: nothing but the free values taken changes. -/
theorem orFree_snd {e x : Engine} (h : x = { e with free := x.free }) (n : Option Nat) : (x.orFree n).2 = { e with free := (x.orFree n).2.free } := by
  cases n with
  | some n => exact h
  | none =>
    simp only [orFree, takeFree]
    conv_lhs => rw [h]

/-- The same of the five numbers of SLICE_FAIL. -/
theorem orFree_snd_five (e : Engine) (n1 n2 n3 n4 n5 : Option Nat) : (((((e.orFree n1).2.orFree n2).2.orFree n3).2.orFree n4).2.orFree n5).2 =
    { e with free := (((((e.orFree n1).2.orFree n2).2.orFree n3).2.orFree n4).2.orFree n5).2.free } :=
  orFree_snd (orFree_snd (orFree_snd (orFree_snd (orFree_snd rfl n1) n2) n3) n4) n5

/-- A slice failure marks its registers, takes free values for what the spec does not state, and raises a FAULT. -/
theorem sliceFail_eq (e : Engine) (s k code : Nat) (drift : Option (Int × Int × Int)) :
    ∃ (x : Engine) (p : List LayField), x = { e.sliceMarked s k (e.spareOf s k) code with free := x.free } ∧ e.sliceFail s k code drift =
      (x.modChan (32 * s + k) fun h => { h with spareReady := false }).fault 0x01 (32 * s + k) (e.spareOf s k) code p :=
  ⟨_, _, orFree_snd_five _ _ _ _ _ _, rfl⟩


/-- What a channel shows whose slice has failed, and the FAULT that tells of it (R60). -/
theorem sliceFail_spec {e t : Engine} (h : e.hears) (c : Chan) {code : Nat} (hcode : code < 16) {drift : Option (Int × Int × Int)}
    (ht : e.sliceFail (c.val / 32) (c.val % 32) code drift = t) :
    t.rd (R.AFE_CH_SLICE.FAILED (c.val / 32) (c.val % 32)) = 1 ∧
    t.rd (R.AFE_CH_SLICE.FAIL_SLICE (c.val / 32) (c.val % 32)) = e.spareOf (c.val / 32) (c.val % 32) ∧
    t.rd (R.AFE_CH_SLICE.FAIL_CODE (c.val / 32) (c.val % 32)) = code ∧ bitOf (t.rd (R.AFE_SLICE_FAIL.V (c.val / 32))) (c.val % 32) = true ∧
    t.told 0x0F 0x01 0 none (c.val + 256 * e.spareOf (c.val / 32) (c.val % 32) + 65536 * code) ∧
    ({ e with chans := t.chans, free := t.free } : Engine).onlyBooks t
      [(R.AFE_CH_SLICE.word (c.val / 32) (c.val % 32)).off, (R.AFE_SLICE_FAIL.V (c.val / 32)).off] := by
  have hc := c.isLt
  have hmarked := e.sliceMarked_rd (s := c.val / 32) (k := c.val % 32) (slice := e.spareOf (c.val / 32) (c.val % 32)) (code := code)
    (Nat.mod_lt _ (by decide)) (rd_lt e _) hcode
  have honly := e.sliceMarked_onlyRegs (c.val / 32) (c.val % 32) (e.spareOf (c.val / 32) (c.val % 32)) code
  obtain ⟨x, p, hx, hfail⟩ := e.sliceFail_eq (c.val / 32) (c.val % 32) code drift
  rw [hfail, Nat.div_add_mod] at ht
  subst ht
  generalize e.sliceMarked (c.val / 32) (c.val % 32) (e.spareOf (c.val / 32) (c.val % 32)) code = m at *
  have hregs : x.regs = m.regs := by rw [hx]
  obtain ⟨hfailed, hslice, hshown, hbit⟩ := hmarked
  obtain ⟨⟨hr, hf⟩, -, hroom⟩ := h
  have hframe : e.onlyChans (x.modChan c.val fun h => { h with spareReady := false })
      [(R.AFE_CH_SLICE.word (c.val / 32) (c.val % 32)).off, (R.AFE_SLICE_FAIL.V (c.val / 32)).off] := by
    refine onlyChans_trans (onlyChans_of_onlyRegs honly) (onlyChans_trans (x := x) ⟨?_, fun off _ => word_congr hregs off⟩ (modChan_onlyChans x _ _ _))
    rw [hx]
  have hyregs : (x.modChan c.val fun h => { h with spareReady := false }).regs = m.regs := hregs
  generalize (x.modChan c.val fun h => { h with spareReady := false }) = y at *
  have hevt : y.evt = e.evt := by rw [hframe.1]
  have hkeep {f : Fld} (hoff : f.off ≠ (R.QUE_LEVEL.LEVEL 64).off) : (y.fault 0x01 c.val (e.spareOf (c.val / 32) (c.val % 32)) code p).rd f = m.rd f :=
    (fault_rd (by rw [hevt]; omega) _ _ _ _ _ hoff).trans (rd_congr hyregs f)
  refine ⟨(hkeep ?_).trans hfailed, (hkeep ?_).trans hslice, (hkeep ?_).trans hshown, by rwa [hkeep (by dsimp only; omega)],
    fault_told (by rw [hframe.1]; exact hr) (by rw [hframe.1]; exact hf) .., ?_⟩
  case refine_4 =>
    rw [fault_chans, fault_free]
    exact onlyBooks_trans ⟨by rw [hframe.1], fun off _ ho => hframe.2 off ho⟩ (fault_books ..)
  all_goals
    dsimp only
    omega

end Engine

/-! ### The commands -/

theorem exec_conversionStart (i : Side) (s : State) : exec (.conversionStart i) s = .next (s.onEng fun e => e.startConversion i.val) := rfl

theorem exec_sliceRotation (i : Side) (s : State) : exec (.sliceRotation i) s = .next (s.onEng fun e => e.rotateSide i.val) := rfl

theorem exec_spareCalDone (c : Chan) (corr : Option SliceCorr) (s : State) :
    exec (.spareCalDone c corr) s = .next (s.onEng fun e => e.spareCal c.val corr) := rfl

/-- Settles O32: the run over the channels of a side reaches each of them in one step, and a spare is judged by what its calibration found. -/
theorem conversionAndSlices : Obligations.ConversionAndSlices := by
  unfold Obligations.ConversionAndSlices
  refine ⟨?start, ?rotation, ?ready, ?unconverged, ?failed⟩
  case start =>
    intro i s hready hlen
    refine ⟨_, exec_conversionStart i s, s.onEng_engineOnly _, ?_⟩
    rw [State.onEng_eng]
    obtain ⟨hafe, hframe⟩ := Engine.startConversion_onlyRegs hready
    exact ⟨Engine.startConversion_convRun hready, Engine.startConversion_rd hready, fun k => (Engine.startConversion_chan hready hlen k).1,
      fun k => (Engine.startConversion_chan hready hlen k).2, fun c hc => Engine.startConversion_chan_other hready hc, hafe, hframe⟩
  case rotation =>
    intro i s hconv hrun hslot hrot href hlen
    refine ⟨_, exec_sliceRotation i s, s.onEng_engineOnly _, ?_⟩
    rw [State.onEng_eng, Engine.rotateSide_eq hslot hconv hrun hrot href]
    refine ⟨fun k hen hdue => ?_, fun k hkept => ?_, s.eng.foldl_rotateStep_frame i⟩
    · obtain ⟨hchan, hspare⟩ := s.eng.foldl_rotateStep_rotated i hlen k hen hdue
      rw [hchan]
      exact ⟨rfl, hspare, rfl⟩
    · have hchan := s.eng.foldl_rotateStep_kept i k hkept
      exact ⟨Engine.chan_of_ofChan hchan, (Engine.ofChan_eq_iff.mp hchan).2.1⟩
  case ready =>
    intro c x s hconv hen hgood hready href hx
    exact ⟨_, exec_spareCalDone c (some x) s, s.onEng_engineOnly _, Engine.spareCal_ready hconv hen hgood hready href hx⟩
  case unconverged =>
    intro c s hconv hen hgood hready href hfew
    refine ⟨_, exec_spareCalDone c none s, s.onEng_engineOnly _, ?_⟩
    rw [State.onEng_eng, Engine.spareCal_unconverged hconv hen hgood hready href, if_pos (Nat.succ_lt_succ hfew)]
    rfl
  case failed =>
    intro c s hconv hen hgood hready href hthird hhears
    refine ⟨_, exec_spareCalDone c none s, s.onEng_engineOnly _, ?_⟩
    rw [State.onEng_eng, Engine.spareCal_unconverged hconv hen hgood hready href, if_neg (by rw [hthird]; decide)]
    exact Engine.sliceFail_spec (e := s.eng.modChan c.val fun h => { h with attempts := h.attempts + 1 }) hhears c (by decide) rfl

end Sys2Proof.Machine
end

section
/-!
PROOFS. The end of VCALREF's settling (R87, R88): BUF_EN comes back on every die of which the phase has noted it, however many the state notes.
-/

namespace Sys2Proof.Machine

/-- A target phase in M5 whose VCALREF has settled for 40 ms, both sides converting, with a third entry in the BUF_EN noted before the phase; where the
register of a third die would be stands CAL_DT, its bit 31 set. -/
def threeDiesNoted : State :=
  let dies := (Engine.reset.wr R.SYS_UNITS.AFE0 1).wr R.SYS_UNITS.AFE1 1
  let e := ((dies.wr (R.AFE_CTRL.CONV_EN 0) 1).wr (R.AFE_CTRL.CONV_EN 1) 1).wr (R.AFE_REF_CTRL.BUF_EN 2) 1
  { State.reset with eng := { e with
      mode := .m5
      now := 40000000
      cal := { e.cal with full := { FullCal.init with kind := 1, step := 11, buf := [1, 1, 0] } } } }

/-- Its phase goes on, and clears that bit. -/
theorem threeDiesNoted_clears_third : (threeDiesNoted.eng.targetDone [2500000, 2500000, 2500000]).word (R.AFE_REF_CTRL.BUF_EN 2).off ≠
    threeDiesNoted.eng.word (R.AFE_REF_CTRL.BUF_EN 2).off := by
  decide +kernel

theorem targetPhaseDone_eng {v : List Int} {s t : State} (h : exec (.targetPhaseDone v) s = .next t) : t.eng = s.eng.targetDone v := by
  cases h
  rfl

/-- What the statement says of the register of a third die where a phase goes on. -/
theorem third_kept_of_fullCalibration (h : Obligations.FullCalibration) {v : List Int} {s : State} (hkind : s.eng.cal.full.kind = 1)
    (hstep : s.eng.cal.full.step = 11) (hlo : 2475000 ≤ v.getD 0 0) (hhi : v.getD 0 0 ≤ 2525000) (hv0 : v.getD 1 0 ≠ 0) (hv1 : v.getD 2 0 ≠ 0)
    (hsettled : s.eng.cal.full.start + 40000000 ≤ s.eng.now) (hsides : s.eng.convSides = [0, 1]) :
    (s.eng.targetDone v).word (R.AFE_REF_CTRL.BUF_EN 2).off = s.eng.word (R.AFE_REF_CTRL.BUF_EN 2).off := by
  unfold Obligations.FullCalibration at h
  obtain ⟨-, -, -, -, -, -, hwithin, -⟩ := h
  obtain ⟨t, hexec, -, -, -, -, -, -, -, -, hword⟩ := hwithin v s hkind hstep hlo hhi hv0 hv1 hsettled hsides
  rw [← targetPhaseDone_eng hexec]
  exact hword _ (by decide +kernel)

/-- Refutes O44: the clause of the reference corrections does not ask, as the one before it does, that BUF_EN is noted of two dies; a third entry is restored
too, in a register that the clause's frame does not name. -/
theorem not_fullCalibration : ¬ Obligations.FullCalibration := fun h =>
  threeDiesNoted_clears_third (third_kept_of_fullCalibration h (by decide +kernel) (by decide +kernel) (by decide) (by decide) (by decide) (by decide)
    (by decide +kernel) (by decide +kernel))

end Sys2Proof.Machine
end

section
/-!
PROOFS. The commands of calibration and exposure (R45, R76, R87, R88, R90): what stays open through the end of fades and through events, and what the start of
a target phase leaves alone.
-/

namespace Sys2Proof.Machine

namespace Engine

/-! ### The end of a fade -/

/-- An engine without its registers and its fades. -/
def beyondFades (e : Engine) : Engine := { e with regs := [], shd := ShdSt.init }

/-- The end of a fade tells of a swap that has not begun; beside that it changes the registers and the fades alone (R111). -/
theorem dropFades_cases (e : Engine) : ∃ y, (y = e ∨ ∃ w : SwapSt, y = e.bankSwapped w w.n0) ∧ e.dropFades.beyondFades = y.beyondFades := by
  have hactive (y : Engine) (mask : Nat) : (y.swapActive mask).beyondFades = y.beyondFades := by
    refine foldl_keep beyondFades _ ?_ _ _
    exact fun _ _ => rfl
  unfold dropFades
  split
  next => exact ⟨e, .inl rfl, rfl⟩
  next w _ =>
    refine ⟨if w.begun then e else e.bankSwapped w w.n0, ?_, ?_⟩
    · split
      · exact .inl rfl
      · exact .inr ⟨w, rfl⟩
    · generalize (if w.begun then e else e.bankSwapped w w.n0) = y
      dsimp only
      split
      · refine (foldl_keep beyondFades _ ?_ _ _).trans (hactive y w.mask)
        exact fun _ _ => rfl
      · exact hactive y w.mask

/-! ### Commands that stay open -/

theorem mem_dropBuilt {c : OpenCmd} (hc : c.wait ≠ .built) (h : Nat) {l : List OpenCmd} (hl : c ∈ l) : c ∈ dropBuilt h l := by
  induction l with
  | nil => cases hl
  | cons o t ih =>
    unfold dropBuilt
    rcases List.mem_cons.mp hl with rfl | ht
    · rw [if_neg (by simp [hc])]
      exact List.mem_cons_self
    · split
      · exact ht
      · exact List.mem_cons_of_mem o (ih ht)

theorem mem_markBuilt {c d : OpenCmd} (hc : c ≠ d) {l : List OpenCmd} (hl : c ∈ l) : c ∈ markBuilt d l := by
  induction l with
  | nil => cases hl
  | cons o t ih =>
    unfold markBuilt
    rcases List.mem_cons.mp hl with rfl | ht
    · rw [if_neg hc]
      exact List.mem_cons_self
    · split
      · exact List.mem_cons_of_mem _ ht
      · exact List.mem_cons_of_mem o (ih ht)

section
variable {c : OpenCmd} (hc : c.wait ≠ .built)
include hc

/-- The books drop a command only once its CMD_DONE is built. -/
theorem mem_settle_opens {e : Engine} (ev : Ev) (he : c ∈ e.opens) : c ∈ (e.settle ev).opens := by
  unfold settle
  dsimp only
  split
  · exact he
  · exact mem_dropBuilt hc _ he
  · split
    · split <;> exact he
    · split <;> exact he

theorem mem_loseOldest_opens {e : Engine} (he : c ∈ e.opens) : c ∈ e.loseOldest.opens := by
  unfold loseOldest
  split
  · exact he
  · dsimp only
    split
    · exact he
    · exact mem_settle_opens hc _ he

theorem mem_commitEv_opens {e : Engine} (code subj status arg : Nat) (hs : Option Nat) (p : List LayField) (bk : Booking) (he : c ∈ e.opens) :
    c ∈ (e.commitEv code subj status arg hs p bk).opens := by
  unfold commitEv
  rw [level_opens]
  split
  · exact he
  · exact mem_loseOldest_opens hc he

/-- An event, even one that displaces others, closes no command that still waits. -/
theorem mem_emitBk_opens {e : Engine} (code subj status arg : Nat) (hs : Option Nat) (p : List LayField) (bk : Booking) (he : c ∈ e.opens) :
    c ∈ (e.emitBk code subj status arg hs p bk).opens := by
  by_cases h : e.resetting = none ∧ e.pins.failed = false
  · obtain ⟨x, hx, rfl | ⟨n, f, l, -, -, rfl⟩⟩ := emitBk_cases e h.1 h.2 code subj status arg hs p bk
    · rw [hx]
      exact mem_commitEv_opens hc _ _ _ _ _ _ _ he
    · rw [hx]
      exact mem_commitEv_opens hc _ _ _ _ _ _ _ (mem_commitEv_opens hc _ _ _ _ _ _ _ he)
  · rw [emitBk_silent h]
    exact he

/-- The answer to a swap closes no command of another HSEQ. -/
theorem mem_swapDone_opens {e : Engine} {w : SwapSt} (hw : w.hseq ≠ c.hseq) (status : Nat) (he : c ∈ e.opens) : c ∈ (e.swapDone w status).opens := by
  unfold swapDone
  split
  next d hd =>
    have hseq : d.hseq = w.hseq := by
      have := List.find?_some hd
      simp only [Bool.and_eq_true, beq_iff_eq] at this
      exact this.1
    have hne : c ≠ d := by
      rintro rfl
      exact hw hseq.symm
    exact mem_emitBk_opens (e := { e with opens := markBuilt d e.opens }) hc _ _ _ _ _ _ _ (mem_markBuilt hne he)
  next => exact he

/-- The answers to a fade and to the swap behind it close no command of another HSEQ. -/
theorem mem_fadesDone_opens {e : Engine} {d : ShdSt} (hfade : d.fade.map SwapSt.hseq ≠ some c.hseq) (hqueued : d.queued.map SwapSt.hseq ≠ some c.hseq)
    (he : c ∈ e.opens) : c ∈ (e.fadesDone d).opens := by
  unfold fadesDone
  split
  next => exact he
  next w hw =>
    have hfirst : c ∈ (e.swapDone w stOk).opens := mem_swapDone_opens hc (by simpa [hw] using hfade) _ he
    dsimp only
    split
    next q hq => exact mem_swapDone_opens hc (by simpa [hq] using hqueued) _ hfirst
    next => exact hfirst

/-- What ends a fade names the swap at most; beside that it changes registers and the fades alone. -/
theorem mem_dropFades_opens {e : Engine} (he : c ∈ e.opens) : c ∈ e.dropFades.opens := by
  obtain ⟨y, hy, hbeyond⟩ := e.dropFades_cases
  change c ∈ e.dropFades.beyondFades.opens
  rw [hbeyond]
  rcases hy with rfl | ⟨w, rfl⟩
  · exact he
  · exact mem_emitBk_opens hc _ _ _ _ _ _ _ he

end

theorem mem_openCmd (e : Engine) (h : CmdHdr) (code : Nat) (w : Wait) : (e.openCmd h code w).opened h code w :=
  List.mem_append_right e.opens (List.mem_singleton_self _)

/-! ### What an entry to M5 leaves alone (R111, R340) -/

/-- The parts of the engine that neither the end of a fade nor a calibration touches. -/
def blocks (e : Engine) : Engine :=
  { e with regs := [], mode := .m0, now := 0, jump := 0, free := 0, rsp := [], resetting := none, evt := Engine.reset.evt, opens := [],
           pair := PairSt.init, afe := [], chans := [], shd := ShdSt.init, cal := Engine.reset.cal }

theorem eq_of_blocks {e x : Engine} (h : x.blocks = e.blocks) : x =
    { x with trans := e.trans, pins := e.pins, flash := e.flash, link := e.link, cmdIn := e.cmdIn, rings := e.rings, status := e.status, streams := e.streams, dma := e.dma, tg := e.tg, mot := e.mot, pac := e.pac, feed := e.feed, squall := e.squall, job := e.job, frames := e.frames, gus := e.gus, qdr := e.qdr, eddy := e.eddy, geo := e.geo, mon := e.mon, met := e.met, mets := e.mets } := by
  cases e
  cases x
  simp only [blocks, Engine.mk.injEq] at h ⊢
  simp only [h, and_self]

theorem onlyBooks_blocks {e x : Engine} {offs : List Nat} (h : e.onlyBooks x offs) : x.blocks = e.blocks := by
  rw [h.1]
  rfl

theorem gapAbandon_blocks (e : Engine) : e.gapAbandon.blocks = e.blocks := by
  unfold gapAbandon
  split <;> rfl

theorem emit_blocks (e : Engine) (code subj status arg : Nat) (hs : Option Nat) (p : List LayField) : (e.emit code subj status arg hs p).blocks = e.blocks :=
  onlyBooks_blocks (emit_books e code subj status arg hs p [])

theorem dropFades_blocks (e : Engine) : e.dropFades.blocks = e.blocks := by
  obtain ⟨y, hy, hbeyond⟩ := e.dropFades_cases
  change e.dropFades.beyondFades.blocks = e.blocks
  rw [hbeyond]
  rcases hy with rfl | ⟨w, rfl⟩
  · rfl
  · exact e.emit_blocks ..

theorem swapDone_books (e : Engine) (w : SwapSt) (st : Nat) (offs : List Nat) : e.onlyBooks (e.swapDone w st) offs := by
  unfold swapDone
  split
  · exact finish_books ..
  · exact e.onlyBooks_refl offs

theorem fadesDone_books (e : Engine) (d : ShdSt) (offs : List Nat) : e.onlyBooks (e.fadesDone d) offs := by
  unfold fadesDone
  split
  · exact e.onlyBooks_refl offs
  · dsimp only
    split
    · exact onlyBooks_trans (swapDone_books ..) (swapDone_books ..)
    · exact swapDone_books ..

/-- In M5 the trackers meet its indices anew. -/
def inM5 (e : Engine) : Engine :=
  { e with mode := .m5, chans := e.chans.map fun h => { h with means := [] }, shd := { e.shd with windows := [], force := ShdSt.init.force } }

theorem changeMode_m5_eq {e : Engine} (h : e.mode = .m4) (cause : Nat) (hs : Option Nat) : e.changeMode .m5 cause hs =
    (e.gapAbandon.dropFades.inM5.emit 0x15 5 0 (4 + 256 * cause) hs []).fadesDone e.gapAbandon.shd := by
  simp [changeMode, h, inM5, Mode.idx]

theorem changeMode_m5_mode {e : Engine} (h : e.mode = .m4) (cause : Nat) (hs : Option Nat) : (e.changeMode .m5 cause hs).mode = .m5 := by
  rw [changeMode_m5_eq h]
  generalize hx : e.gapAbandon.dropFades.inM5.emit 0x15 5 0 (4 + 256 * cause) hs [] = x
  rw [(fadesDone_books x e.gapAbandon.shd []).1, ← hx]
  exact emit_mode ..

theorem changeMode_m5_blocks {e : Engine} (h : e.mode = .m4) (cause : Nat) (hs : Option Nat) : (e.changeMode .m5 cause hs).blocks = e.blocks := by
  rw [changeMode_m5_eq h]
  calc _ = (e.gapAbandon.dropFades.inM5.emit 0x15 5 0 (4 + 256 * cause) hs []).blocks := onlyBooks_blocks (fadesDone_books _ _ [])
    _ = e.gapAbandon.dropFades.inM5.blocks := onlyBooks_blocks (emit_books _ _ _ _ _ _ _ [])
    _ = e.gapAbandon.dropFades.blocks := rfl
    _ = e.blocks := (dropFades_blocks _).trans e.gapAbandon_blocks

/-- An entry to M5 closes no command that waits, but for those of the fades it ends (R111). -/
theorem mem_changeMode_m5_opens {e : Engine} (h : e.mode = .m4) {c : OpenCmd} (hc : c.wait ≠ .built) (hfade : e.shd.fade.map SwapSt.hseq ≠ some c.hseq)
    (hqueued : e.shd.queued.map SwapSt.hseq ≠ some c.hseq) (cause : Nat) (hs : Option Nat) (he : c ∈ e.opens) :
    c ∈ (e.changeMode .m5 cause hs).opens := by
  have hshd : e.gapAbandon.shd = e.shd := by
    unfold gapAbandon
    split <;> rfl
  rw [changeMode_m5_eq h, hshd]
  refine mem_fadesDone_opens hc hfade hqueued (mem_emitBk_opens hc _ _ _ _ _ _ _ ?_)
  change c ∈ e.gapAbandon.dropFades.opens
  exact mem_dropFades_opens hc (by rwa [gapAbandon_opens])

/-! ### The start of a phase (R87, R88, R90) -/

/-- An engine without its registers, the free values taken, its AFE dies, its channels and its calibration. -/
def beyondPhase (e : Engine) : Engine := { e with regs := [], free := 0, afe := [], chans := [], cal := CalSt.init }

theorem wr_beyondPhase (e : Engine) (f : Fld) (v : Nat) : (e.wr f v).beyondPhase = e.beyondPhase := rfl

theorem fullStep_beyondPhase (e : Engine) (step lines : Nat) : (e.fullStep step lines).beyondPhase = e.beyondPhase := rfl

theorem withTrims_beyondPhase (e : Engine) : e.withTrims.beyondPhase = e.beyondPhase := rfl

theorem serveSlices_beyondPhase (e : Engine) (c : Nat) (slices : List Nat) : (e.serveSlices c slices).beyondPhase = e.beyondPhase := by
  rw [serveSlices_eq]
  rfl

theorem serveSlices_cal (e : Engine) (c : Nat) (slices : List Nat) : (e.serveSlices c slices).cal = e.cal := by
  rw [serveSlices_eq]
  rfl

theorem freshSlices_beyondPhase (e : Engine) (spare : Bool) : (e.freshSlices spare).beyondPhase = e.beyondPhase := by
  unfold freshSlices
  exact foldl_keep beyondPhase _ (fun x c => x.serveSlices_beyondPhase c _) _ _

theorem freshSlices_cal (e : Engine) (spare : Bool) : (e.freshSlices spare).cal = e.cal := by
  unfold freshSlices
  exact foldl_keep (fun x : Engine => x.cal) _ (fun x c => x.serveSlices_cal c _) _ _

/-- The registers of the slices before their retest: none failed (R88). -/
def slicesCleared (e : Engine) : Engine :=
  (((upTo 64).foldl (fun x c => ((x.wr (R.AFE_CH_SLICE.FAILED (c / 32) (c % 32)) 0).wr (R.AFE_CH_SLICE.FAIL_SLICE (c / 32) (c % 32)) 0).wr
    (R.AFE_CH_SLICE.FAIL_CODE (c / 32) (c % 32)) 0) e).wr (R.AFE_SLICE_FAIL.V 0) 0).wr (R.AFE_SLICE_FAIL.V 1) 0

theorem beginTarget_eq (e : Engine) : e.beginTarget = (e.slicesCleared.freshSlices false).withTrims.fullStep 0 64 := rfl

theorem slicesCleared_only (e : Engine) : e.slicesCleared.beyondPhase = e.beyondPhase ∧ e.slicesCleared.cal = e.cal := by
  unfold slicesCleared
  rw [wr_beyondPhase, wr_beyondPhase, wr_cal, wr_cal]
  constructor
  · refine foldl_keep beyondPhase _ (fun x c => ?_) _ _
    simp only [wr_beyondPhase]
  · refine foldl_keep (fun x : Engine => x.cal) _ (fun x c => ?_) _ _
    simp only [wr_cal]

theorem beginTarget_beyondPhase (e : Engine) : e.beginTarget.beyondPhase = e.beyondPhase := by
  rw [beginTarget_eq, fullStep_beyondPhase, withTrims_beyondPhase, freshSlices_beyondPhase, e.slicesCleared_only.1]

/-- The repetitions begin with step 0. -/
theorem beginTarget_full (e : Engine) : e.beginTarget.cal.full.kind = e.cal.full.kind ∧ e.beginTarget.cal.full.step = 0 := by
  have hcal : (e.slicesCleared.freshSlices false).cal = e.cal := (freshSlices_cal _ false).trans e.slicesCleared_only.2
  rw [beginTarget_eq, ← hcal]
  exact ⟨rfl, rfl⟩

/-- VCALREF is buffered on a die that did not buffer it (R88). -/
def bufferOn (now : Nat) (old : List Nat) (x : Engine) (s : Nat) : Engine :=
  if old.getD s 0 = 0 then (x.wr (R.AFE_REF_CTRL.BUF_EN s) 1).modAfe s fun a => { a with bufStart := some now } else x

/-- M5 is entered and the target phase noted, no step of it begun. -/
def targetNoted (e : Engine) : Engine :=
  let e1 := (({ e with cal := { e.cal with saved := if e.on R.CAL_STATUS.FULL_OPEN then e.cal.saved else some e.snapshot, fullRej := 0 } } : Engine).changeMode
    .m5 8 none).wr R.CAL_STATUS.FULL_OPEN (e.rd R.CAL_STATUS.FULL_OPEN)
  { e1 with cal := { e1.cal with full :=
      { FullCal.init with kind := 1, buf := (upTo 2).map fun s => e.rd (R.AFE_REF_CTRL.BUF_EN s), start := e.now, lastTrig := e.now } } }

theorem startTarget_noref {e : Engine} (h : e.on R.CAL_CTRL.NOREF = true) : e.startTarget =
    (({ e.targetNoted with cal := { e.targetNoted.cal with vcalref := 0 } }.wr (R.CAL_REF_CORR.V 0) 0).wr (R.CAL_REF_CORR.V 1) 0).beginTarget := if_pos h

theorem startTarget_ref {e : Engine} (h : e.on R.CAL_CTRL.NOREF = false) : e.startTarget =
    ((upTo 2).foldl (bufferOn e.now ((upTo 2).map fun s => e.rd (R.AFE_REF_CTRL.BUF_EN s))) e.targetNoted).fullStep 11 0 :=
  if_neg (by rw [h]; decide)

theorem startTarget_beyondPhase (e : Engine) : e.startTarget.beyondPhase = e.targetNoted.beyondPhase := by
  cases h : e.on R.CAL_CTRL.NOREF
  · rw [startTarget_ref h, fullStep_beyondPhase]
    refine foldl_keep beyondPhase _ (fun x s => ?_) _ _
    unfold bufferOn
    split <;> rfl
  · rw [startTarget_noref h, beginTarget_beyondPhase]
    rfl

/-- The target phase begins with its repetitions where there is no reference, else with the settling of VCALREF. -/
theorem startTarget_full (e : Engine) : e.startTarget.cal.full.kind = 1 ∧ e.startTarget.cal.full.step = if e.on R.CAL_CTRL.NOREF = true then 0 else 11 := by
  cases h : e.on R.CAL_CTRL.NOREF
  · rw [startTarget_ref h]
    refine ⟨?_, rfl⟩
    refine (foldl_keep (fun x : Engine => x.cal.full.kind) _ (fun x s => ?_) _ _).trans rfl
    unfold bufferOn
    split <;> rfl
  · rw [startTarget_noref h]
    exact beginTarget_full _

/-- FULL_TARGET from M4: the command stays open in M5, and beside calibration, its channels and the fades nothing is touched. -/
theorem startTarget_spec {e : Engine} (h : e.mode = .m4) {c : OpenCmd} (hc : c.wait ≠ .built) (hfade : e.shd.fade.map SwapSt.hseq ≠ some c.hseq)
    (hqueued : e.shd.queued.map SwapSt.hseq ≠ some c.hseq) (he : c ∈ e.opens) :
    c ∈ e.startTarget.opens ∧ e.startTarget.mode = .m5 ∧ e.startTarget.blocks = e.blocks := by
  change c ∈ e.startTarget.beyondPhase.opens ∧ e.startTarget.beyondPhase.mode = .m5 ∧ e.startTarget.beyondPhase.blocks = e.blocks
  rw [startTarget_beyondPhase]
  unfold targetNoted
  generalize { e.cal with saved := if e.on R.CAL_STATUS.FULL_OPEN then e.cal.saved else some e.snapshot, fullRej := 0 } = k
  exact ⟨mem_changeMode_m5_opens (e := { e with cal := k }) h hc hfade hqueued 8 none he, changeMode_m5_mode (e := { e with cal := k }) h 8 none,
    changeMode_m5_blocks (e := { e with cal := k }) h 8 none⟩

/-! ### The commands on an engine that accepts them -/

/-- Another calibration before a frame or after it is the same. -/
theorem onlyBooks_cal {e x : Engine} {offs : List Nat} (h : e.onlyBooks x offs) (k : CalSt) :
    ({ e with cal := k } : Engine).onlyBooks { x with cal := k } offs := by
  refine ⟨?_, h.2⟩
  conv_lhs => rw [h.1]

theorem rd_openCmd (e : Engine) (h : CmdHdr) (code : Nat) (w : Wait) {f : Fld} (hf : f.off ≠ R.UHP_CMD_OPEN.V.off) : (e.openCmd h code w).rd f = e.rd f :=
  rd_wr_ne { e with opens := e.opens ++ [OpenCmd.mk h.hseq.toNat h.tag.toNat code w] } _ hf

/-- A request with cause COMMAND stands in CAL_STATUS (R76). -/
def gapAsked (e : Engine) : Engine := (e.wr R.CAL_STATUS.PENDING 1).wr R.CAL_STATUS.CAUSE (e.rd R.CAL_STATUS.CAUSE ||| 4)

theorem gapAsked_books (e : Engine) : e.onlyBooks e.gapAsked [R.CAL_STATUS.word.off] :=
  onlyBooks_trans (wr_books e R.CAL_STATUS.PENDING 1 (.inr (List.mem_singleton_self R.CAL_STATUS.word.off)))
    (wr_books (e.wr R.CAL_STATUS.PENDING 1) R.CAL_STATUS.CAUSE _ (.inr (List.mem_singleton_self R.CAL_STATUS.word.off)))

theorem gapAsked_rd (e : Engine) : e.gapAsked.rd R.CAL_STATUS.PENDING = 1 ∧ bitOf (e.gapAsked.rd R.CAL_STATUS.CAUSE) 2 = true := by
  constructor
  · rw [gapAsked, rd_wr_apart _ ⟨by decide, by decide⟩ ⟨by decide, by decide⟩ (.inr (by decide)), rd_wr_lt _ ⟨by decide, by decide⟩ (by decide)]
  · rw [gapAsked, rd_wr_same _ ⟨by decide, by decide⟩, bitOf_eq_testBit, Nat.testBit_mod_two_pow, Nat.testBit_or]
    have hfour : Nat.testBit 4 2 = true := by decide
    simp [hfour, Fld.width]

theorem cmdCalGap_only {e : Engine} {h : CmdHdr} (ha : e.accepts h 0x0E [6, 7, 8]) :
    e.cmdCalGap h = { e.gapAsked.openCmd h 0x0E .calGap with cal := (e.cmdCalGap h).cal } := by
  unfold cmdCalGap
  rw [command_accepts ha]
  unfold raiseGap
  dsimp only
  split <;> split <;> rfl

/-- CALIBRATE GAP is a request that stays open. -/
theorem cmdCalGap_spec {e : Engine} {h : CmdHdr} (ha : e.accepts h 0x0E [6, 7, 8]) : (e.cmdCalGap h).opened h 0x0E .calGap ∧
    (e.cmdCalGap h).rd R.CAL_STATUS.PENDING = 1 ∧ bitOf ((e.cmdCalGap h).rd R.CAL_STATUS.CAUSE) 2 = true ∧
    ({ e with cal := (e.cmdCalGap h).cal } : Engine).onlyBooks (e.cmdCalGap h) [R.CAL_STATUS.word.off] := by
  rw [cmdCalGap_only ha]
  generalize (e.cmdCalGap h).cal = k
  obtain ⟨hpending, hcause⟩ := e.gapAsked_rd
  refine ⟨mem_openCmd e.gapAsked h 0x0E .calGap, ?_, ?_, onlyBooks_cal (onlyBooks_trans e.gapAsked_books (openCmd_books ..)) k⟩
  · exact (rd_openCmd e.gapAsked h 0x0E .calGap (by decide)).trans hpending
  · exact (congrArg (bitOf · 2) (rd_openCmd e.gapAsked h 0x0E .calGap (by decide))).trans hcause

theorem cmdCalTarget_eq {e : Engine} {h : CmdHdr} (ha : e.accepts h 0x0E [4, 5]) (hmode : e.mode = .m4) (hconv : e.convMissing = false)
    (htrans : e.trans.target = none) : e.cmdCalTarget h = (e.openCmd h 0x0E .calTarget).startTarget := by
  unfold cmdCalTarget
  rw [command_accepts ha]
  simp [hmode, hconv, htrans]

theorem cmdCalBacking_eq {e : Engine} {h : CmdHdr} (ha : e.accepts h 0x0E [5]) (hopen : e.on R.CAL_STATUS.FULL_OPEN = true) (hkind : e.cal.full.kind = 0)
    (hwriting : e.cal.writing = none) : e.cmdCalBacking h = (e.openCmd h 0x0E .calBacking).startBacking := by
  unfold cmdCalBacking
  rw [command_accepts ha]
  simp [hopen, hkind, hwriting]

/-- Exposures wait at the timing generators of some sides. -/
def exposed (e : Engine) (sides : List Nat) (c : ExpChange) : Engine :=
  { e with tg := sides.foldl (fun l k => modAt l k fun g => { g with changes := g.changes ++ [c] }) e.tg }

theorem foldl_modGen_eq (sides : List Nat) (c : ExpChange) (e : Engine) :
    sides.foldl (fun x s => x.modGen s fun g => { g with changes := g.changes ++ [c] }) e = e.exposed sides c := by
  induction sides generalizing e with
  | nil => rfl
  | cons k t ih =>
    rw [List.foldl_cons, ih]
    rfl

/-- An exposure within range and budget is accepted for the effective index (R45). -/
theorem setExposure_accepted {e : Engine} {side rows exp : Nat} (index : Nat) (hexp : ((sidesOf side).all fun k => e.expOk k exp) = true)
    (hbudget : e.budget (e.expWith (sidesOf side) rows exp) (fun n => e.rd (R.ILL_CUR.LEVEL n)) ≤ 40000) :
    e.setExposure side rows exp index = ((e.putBudget (e.budget (e.expWith (sidesOf side) rows exp) fun n => e.rd (R.ILL_CUR.LEVEL n))).exposed (sidesOf side)
      ⟨rows, exp, maxOf ((sidesOf side).map fun j => e.effIndex j rows index)⟩, some (maxOf ((sidesOf side).map fun j => e.effIndex j rows index))) := by
  unfold setExposure
  dsimp only
  rw [if_neg (by simp [hexp, hbudget]), foldl_modGen_eq]

theorem cmdSetExposure_eq {e : Engine} {h : CmdHdr} {side rows exp : Nat} (index : Nat) (ha : e.accepts h 0x0F [4, 5, 6, 7, 8]) (hside : side ≤ 2)
    (hlo : 1 ≤ rows) (hhi : rows ≤ 15) (hexp : ((sidesOf side).all fun k => e.expOk k exp) = true)
    (hbudget : e.budget (e.expWith (sidesOf side) rows exp) (fun n => e.rd (R.ILL_CUR.LEVEL n)) ≤ 40000) :
    e.cmdSetExposure h side rows exp index =
      ((e.putBudget (e.budget (e.expWith (sidesOf side) rows exp) fun n => e.rd (R.ILL_CUR.LEVEL n))).exposed (sidesOf side)
        ⟨rows, exp, maxOf ((sidesOf side).map fun j => e.effIndex j rows index)⟩).complete h 0x0F stOk
        [(40, 6, maxOf ((sidesOf side).map fun j => e.effIndex j rows index))] := by
  unfold cmdSetExposure
  rw [decide_eq_true (And.intro hside (And.intro hlo hhi)), command_accepts ha, setExposure_accepted index hexp hbudget]

theorem exposed_answered (e : Engine) (b : Rat) (sides : List Nat) (c : ExpChange) (hr : e.resetting = none) (hf : e.pins.failed = false) (h : CmdHdr)
    (code st : Nat) (r : List LayField) : (((e.putBudget b).exposed sides c).complete h code st r).answered h.hseq.toNat code st :=
  complete_answered ((e.putBudget b).exposed sides c) hr hf h code st r

theorem exposed_books (e : Engine) (b : Rat) (sides : List Nat) (c : ExpChange) :
    ({ e with tg := ((e.putBudget b).exposed sides c).tg } : Engine).onlyBooks ((e.putBudget b).exposed sides c) [R.ILL_PWR.BUDGET_MW.off] :=
  ⟨rfl, fun _ _ ho => word_wr_ne e _ fun h => ho (List.mem_singleton.mpr h)⟩

end Engine

/-! ### The commands -/

theorem exec_calibrateGap (h : CmdHdr) (s : State) : exec (.calibrateGap h) s = .next (s.onEng fun e => e.cmdCalGap h) := rfl

theorem exec_calibrateFullTarget (h : CmdHdr) (s : State) : exec (.calibrateFullTarget h) s = .next (s.onEng fun e => e.cmdCalTarget h) := rfl

theorem exec_calibrateFullBacking (h : CmdHdr) (s : State) : exec (.calibrateFullBacking h) s = .next (s.onEng fun e => e.cmdCalBacking h) := rfl

theorem exec_setExposure (h : CmdHdr) (side rows : Byte) (exp : Word) (index : BitVec 48) (s : State) : exec (.setExposure h side rows exp index) s =
    .next (s.onEng fun e => e.cmdSetExposure h side.toNat rows.toNat exp.toNat index.toNat) := rfl

/-- Settles O5: a command that is accepted stays open through the end of fades, which answers swaps of other HSEQs alone. -/
theorem calibrateAndExposure : Obligations.CalibrateAndExposure := by
  unfold Obligations.CalibrateAndExposure
  refine ⟨?gap, ?target, ?backing, ?exposure⟩
  case gap =>
    intro h s ha
    exact ⟨_, exec_calibrateGap h s, s.onEng_engineOnly _, Engine.cmdCalGap_spec ha⟩
  case target =>
    intro h s ha hmode hconv htrans hfade hqueued
    refine ⟨_, exec_calibrateFullTarget h s, s.onEng_engineOnly _, ?_⟩
    rw [State.onEng_eng, Engine.cmdCalTarget_eq ha hmode hconv htrans]
    obtain ⟨hopened, hm5, hblocks⟩ := Engine.startTarget_spec (e := s.eng.openCmd h 0x0E .calTarget)
      (c := ⟨h.hseq.toNat, h.tag.toNat, 0x0E, .calTarget⟩) hmode Wait.noConfusion hfade hqueued
      (s.eng.mem_openCmd h 0x0E .calTarget)
    obtain ⟨hkind, hstep⟩ := (s.eng.openCmd h 0x0E .calTarget).startTarget_full
    have hnoref : (s.eng.openCmd h 0x0E .calTarget).on R.CAL_CTRL.NOREF = s.eng.on R.CAL_CTRL.NOREF :=
      congrArg (· != 0) (s.eng.rd_openCmd h 0x0E .calTarget (by decide))
    rw [hnoref] at hstep
    exact ⟨hopened, hm5, hkind, hstep, Engine.eq_of_blocks (hblocks.trans (Engine.onlyBooks_blocks (s.eng.openCmd_books h 0x0E .calTarget [])))⟩
  case backing =>
    intro h s ha hopen hkind hwriting
    refine ⟨_, exec_calibrateFullBacking h s, s.onEng_engineOnly _, ?_⟩
    rw [State.onEng_eng, Engine.cmdCalBacking_eq ha hopen hkind hwriting]
    exact ⟨s.eng.mem_openCmd h 0x0E .calBacking, rfl, rfl, Engine.onlyBooks_cal (s.eng.openCmd_books h 0x0E .calBacking []) _⟩
  case exposure =>
    intro h side rows exp index s ha hside hlo hhi hexp hbudget
    refine ⟨_, exec_setExposure h side rows exp index s, s.onEng_engineOnly _, ?_⟩
    rw [State.onEng_eng, Engine.cmdSetExposure_eq index.toNat ha hside hlo hhi hexp hbudget]
    obtain ⟨⟨htake, hpins⟩, -⟩ := ha
    refine ⟨Engine.exposed_answered s.eng _ _ _ (Engine.canTake_resetting htake) hpins h 0x0F stOk _, Engine.complete_tg .., ?_⟩
    rw [Engine.complete_tg]
    exact Engine.onlyBooks_trans (s.eng.exposed_books ..) (Engine.complete_books ..)

end Sys2Proof.Machine
end

section
/-!
PROOFS. Bank fades (R110, R111): the coefficients of a fade line where the swap queued behind the fade starts after it, as every swap that is queued does; and
a queued swap that starts within the fade, which the statement of a fade's coefficients does not exclude.
-/

namespace Sys2Proof.Machine

namespace Engine

/-! ### A fade line -/

/-- A blend by a weight of at most 1 is no negative number, so it is the integer that R110 names. -/
theorem blend_cast {w : Nat} (hw : w ≤ 65536) (old new : Nat) :
    (blend w old new : Int) = old + Int.fdiv (((new : Int) - old) * w + 32768) 65536 := by
  have hshare : (old : Int) * w ≤ old * 65536 := mul_le_mul_of_nonneg_left (by exact_mod_cast hw) (Int.natCast_nonneg old)
  have hnew : (0 : Int) ≤ new * w := mul_nonneg (Int.natCast_nonneg new) (Int.natCast_nonneg w)
  have hlow : -(old : Int) ≤ (((new : Int) - old) * w + 32768) / 65536 := by
    rw [Int.le_ediv_iff_mul_le (by decide), sub_mul]
    omega
  unfold blend
  rw [Int.fdiv_eq_ediv_of_nonneg _ (by decide)]
  exact Int.toNat_of_nonneg (by omega)

theorem fadeWeight_le {j n : Nat} (h : j < n) : 65536 * (j + 1) / (n + 1) ≤ 65536 :=
  Nat.div_le_of_le_mul (by rw [Nat.mul_comm]; exact Nat.mul_le_mul_right _ (by omega))

section
variable {e : Engine} {c j : Nat} {f : SwapSt} (hfade : e.shd.fade = some f) (hbit : bitOf f.mask c = true) (hj : j < f.len)
  (hqueued : ∀ q, e.shd.queued = some q → f.n0 + f.len ≤ q.n0)
include hfade hbit hj hqueued

/-- A line of the fade is before the line at which the swap behind it starts. -/
theorem bankAt_fade : e.bankAt c (f.n0 + j) = (e.bankOf c, some (65536 * (j + 1) / (f.len + 1))) := by
  unfold bankAt swaps
  rw [hfade]
  cases hq : e.shd.queued with
  | none => simp [hbit, hj]
  | some q =>
    have hlater : ¬ q.n0 ≤ f.n0 + j := by
      have := hqueued q hq
      omega
    simp [hbit, hj, hlater]

/-- The coefficient of a fade line, where the swap queued behind the fade starts after it (R110, R111). -/
theorem coefAtLine_fade (p : Nat) : e.coefAtLine c (f.n0 + j) p =
    blendCoef (65536 * (j + 1) / (f.len + 1)) (e.coefOf c (e.bankOf c) p) (e.coefOf c (1 - e.bankOf c) p) := by
  unfold coefAtLine
  rw [bankAt_fade hfade hbit hj hqueued]

/-- What R110 says of D and G holds of such a line. -/
theorem coefAtLine_fade_blends (p w : Nat) (hw : w = 65536 * (j + 1) / (f.len + 1)) :
    ((e.coefAtLine c (f.n0 + j) p).d : Int) = (e.coefOf c (e.bankOf c) p).d +
        Int.fdiv ((((e.coefOf c (1 - e.bankOf c) p).d : Int) - (e.coefOf c (e.bankOf c) p).d) * w + 32768) 65536 ∧
      ((e.coefAtLine c (f.n0 + j) p).g : Int) = (e.coefOf c (e.bankOf c) p).g +
        Int.fdiv ((((e.coefOf c (1 - e.bankOf c) p).g : Int) - (e.coefOf c (e.bankOf c) p).g) * w + 32768) 65536 := by
  subst hw
  rw [coefAtLine_fade hfade hbit hj hqueued]
  exact ⟨blend_cast (fadeWeight_le hj) _ _, blend_cast (fadeWeight_le hj) _ _⟩

end

/-! ### A swap that is queued -/

theorem le_firstFree (e : Engine) (mask index : Nat) : index ≤ e.firstFree mask index := by
  unfold firstFree
  generalize maskChans mask = l
  induction l generalizing index with
  | nil => exact Nat.le_refl index
  | cons c t ih =>
    rw [List.foldl_cons]
    refine Nat.le_trans ?_ (ih _)
    split
    · exact Nat.le_max_left ..
    · exact Nat.le_refl index

/-- SWAP_BANK queues a swap for a line after the fade in progress (R111). -/
theorem queueSwap_after_fade {e : Engine} {f : SwapSt} (hfade : e.shd.fade = some f) (w : SwapSt) :
    ∃ q, (e.queueSwap w).shd.queued = some q ∧ f.n0 + f.len ≤ q.n0 := by
  refine ⟨{ w with n0 := e.firstFree w.mask (max w.n0 (f.n0 + f.len)) }, ?_, Nat.le_trans (Nat.le_max_right ..) (e.le_firstFree ..)⟩
  unfold queueSwap
  simp only [hfade]
  rfl

end Engine

/-! ### A queued swap within the fade -/

/-- A fade of one line at line 90 of channel 0, whose pixel 0 has D = 0 in the active bank and D = 2 in the other, and behind it a swap without a fade that
starts at that same line. -/
def swapWithinFade : Engine :=
  { Engine.reset.setWord (Engine.coefAt 0 1 0) 0x40000002 with shd := ⟨some ⟨7, 1, 1, 90, 1, true⟩, some ⟨8, 2, 1, 90, 0, false⟩, [], []⟩ }

/-- The line takes the D of the queued swap's bank, where the fade alone gives 1. -/
theorem swapWithinFade_coef : (swapWithinFade.coefAtLine 0 90 0).d = 2 ∧ (swapWithinFade.coefOf 0 (swapWithinFade.bankOf 0) 0).d = 0 ∧
    (swapWithinFade.coefOf 0 (1 - swapWithinFade.bankOf 0) 0).d = 2 := by
  decide +kernel

/-- Refutes O56: a line that lies in a fade and in the swap queued behind it takes the bank of the swap, and the statement does not ask, as SWAP_BANK sees to it
(`queueSwap_after_fade`), that the queued swap starts after the fade; where it does, D and G are those of R110 (`coefAtLine_fade_blends`). -/
theorem not_fadeBlendsCoefficients : ¬ Obligations.FadeBlendsCoefficients := by
  unfold Obligations.FadeBlendsCoefficients
  intro h
  obtain ⟨hline, hold, hnew⟩ := swapWithinFade_coef
  obtain ⟨hd, -⟩ := h swapWithinFade 0 0 0 32768 ⟨7, 1, 1, 90, 1, true⟩ rfl (by decide) (by decide) (by decide)
  rw [Nat.add_zero, hline, hold, hnew] at hd
  exact absurd hd (by decide)

end Sys2Proof.Machine
end

section
/-!
PROOFS. LOAD_BANK and SWAP_BANK (R108, R109, R111): the states of the named banks, the change of ACTIVE, and the answer to a swap that has no job.
-/

namespace Sys2Proof.Machine

namespace Engine

/-! ### Frames -/

theorem onlyBooks_of_onlyRegs {e x : Engine} {offs : List Nat} (h : e.onlyRegs x offs) : e.onlyBooks x offs := by
  refine ⟨?_, fun off _ ho => h.2 off ho⟩
  conv_lhs => rw [h.1]
  rw [h.1]

/-- Another shading block before a frame or after it is the same. -/
theorem onlyBooks_shd {e x : Engine} {offs : List Nat} (h : e.onlyBooks x offs) (k : ShdSt) :
    ({ e with shd := k } : Engine).onlyBooks { x with shd := k } offs := by
  refine ⟨?_, h.2⟩
  conv_lhs => rw [h.1]

/-- Other work of the DMA engine before a frame or after it is the same. -/
theorem onlyRegs_dma {e x : Engine} {offs : List Nat} (h : e.onlyRegs x offs) (k : DmaSt) :
    ({ e with dma := k } : Engine).onlyRegs { x with dma := k } offs := by
  refine ⟨?_, h.2⟩
  conv_lhs => rw [h.1]

/-- The registers of the channels' banks are none of the books. -/
theorem not_bookReg_chBank {c : Nat} (hc : c < 64) : ¬ bookReg (R.SHD_CH_BANK.word c).off := by
  unfold bookReg
  rintro (h | h | h | h | h | h | ⟨k, j, h⟩ | ⟨k, j, h⟩ | ⟨r, h⟩)
  all_goals
    dsimp only at h
    omega

/-! ### States of the banks -/

/-- The field of SHD_CH_BANK that holds the state of a channel's bank. -/
def bankField (c bank : Nat) : Fld := if bank = 0 then R.SHD_CH_BANK.ASTATE c else R.SHD_CH_BANK.BSTATE c

theorem bankField_off (c bank : Nat) : (bankField c bank).off = (R.SHD_CH_BANK.word c).off := by
  unfold bankField
  split <;> rfl

theorem bankField_fits (c bank : Nat) : (bankField c bank).fits := by
  unfold bankField Fld.fits
  split <;> simp

theorem bankField_width (c bank : Nat) : (bankField c bank).width = 2 := by
  unfold bankField
  split <;> rfl

theorem bankState_eq (e : Engine) (c bank : Nat) : e.bankState c bank = e.rd (bankField c bank) := rfl

theorem bankState_setBank_same (e : Engine) (c bank : Nat) {st : Nat} (hst : st < 4) : (e.setBank c bank st).bankState c bank = st :=
  rd_wr_lt e (bankField_fits c bank) (by rwa [bankField_width])

theorem bankState_setBank_ne (e : Engine) {c d : Nat} (h : c ≠ d) (bank st : Nat) : (e.setBank d bank st).bankState c bank = e.bankState c bank := by
  refine rd_wr_ne (f := bankField c bank) (g := bankField d bank) e st ?_
  rw [bankField_off, bankField_off]
  dsimp only
  omega

theorem bankState_setBanks (e : Engine) {i count : Nat} (hi : i < count) (first bank : Nat) {st : Nat} (hst : st < 4) :
    (e.setBanks first count bank st).bankState (first + i) bank = st := by
  unfold setBanks
  refine foldl_puts (fun x => x.bankState (first + i) bank) (List.mem_range.mpr hi) List.nodup_range ?_ ?_ e
  · exact fun x => bankState_setBank_same x (first + i) bank hst
  · exact fun x j _ hj => bankState_setBank_ne x (by omega) bank st

/-- The registers of the channels' banks. -/
abbrev bankOffs : List Nat := (upTo 64).map fun c => (R.SHD_CH_BANK.word c).off

theorem chBank_mem_bankOffs {c : Nat} (hc : c < 64) : (R.SHD_CH_BANK.word c).off ∈ bankOffs := List.mem_map_of_mem (List.mem_range.mpr hc)

theorem setBanks_onlyRegs (e : Engine) {first count : Nat} (h : first + count ≤ 64) (bank st : Nat) :
    e.onlyRegs (e.setBanks first count bank st) bankOffs := by
  refine foldl_onlyRegs (fun x i hi => wr_onlyRegs (f := bankField (first + i) bank) x st ?_) e
  have hlt : i < count := List.mem_range.mp hi
  rw [bankField_off]
  exact chBank_mem_bankOffs (by omega)

/-! ### LOAD_BANK -/

/-- The named banks are in LOADING and their words are asked for (R108). -/
def bankAsked (e : Engine) (hseq addr first count bank : Nat) : Engine :=
  { e.setBanks first count bank 2 with dma := { e.dma with work := e.dma.work ++ [.bank hseq addr first count bank 0 0 []] } }

theorem setBanks_dma (e : Engine) (first count bank st : Nat) : (e.setBanks first count bank st).dma = e.dma := by
  unfold setBanks
  exact foldl_keep (fun x : Engine => x.dma) _ (fun x i => wr_dma x _ st) _ _

theorem cmdLoadBank_eq {e : Engine} {h : CmdHdr} {addr first count bank : Nat} (ha : e.accepts h 0x0C [3, 4, 6, 7, 8]) (hfirst : first ≤ 63)
    (hone : 1 ≤ count) (hcount : first + count ≤ 64) (hbank : bank ≤ 1) (haddr : addr % 4 = 0)
    (hfree : ((upTo count).any fun i => e.bankBusy bank (first + i)) = false) :
    e.cmdLoadBank h addr first count bank = (e.bankAsked h.hseq.toNat addr first count bank).openCmd h 0x0C .bankLoad := by
  have hok : first ≤ 63 ∧ 1 ≤ count ∧ count ≤ 64 ∧ bank ≤ 1 := by omega
  have hparam : ¬ (64 < first + count ∨ addr % 4 ≠ 0) := by omega
  unfold cmdLoadBank
  rw [decide_eq_true hok, command_accepts ha, if_neg hparam, if_neg (by rw [hfree]; decide)]
  unfold bankAsked
  rw [← e.setBanks_dma first count bank 2]

/-- What an accepted LOAD_BANK leaves (R108). -/
theorem bankAsked_books (e : Engine) (h : CmdHdr) (addr bank : Nat) {first count : Nat} (hcount : first + count ≤ 64) :
    ({ e with dma := { e.dma with work := e.dma.work ++ [.bank h.hseq.toNat addr first count bank 0 0 []] } } : Engine).onlyBooks
      ((e.bankAsked h.hseq.toNat addr first count bank).openCmd h 0x0C .bankLoad) bankOffs :=
  onlyBooks_trans (onlyBooks_of_onlyRegs (onlyRegs_dma (e.setBanks_onlyRegs hcount bank 2) _)) (openCmd_books ..)

theorem bankAsked_loading (e : Engine) (h : CmdHdr) (addr bank : Nat) {i first count : Nat} (hi : i < count) :
    ((e.bankAsked h.hseq.toNat addr first count bank).openCmd h 0x0C .bankLoad).bankState (first + i) bank = 2 := by
  rw [bankState_eq, rd_openCmd]
  · exact e.bankState_setBanks hi first bank (by decide)
  · rw [bankField_off]
    dsimp only
    omega

/-! ### SWAP_BANK in a job -/

/-- The swap that SWAP_BANK makes of its parameters, before its start index is known. -/
def swapOf (h : CmdHdr) (mask index fade : Nat) : SwapSt := ⟨h.hseq.toNat, h.tag.toNat, mask, index, fadeLines fade, false⟩

section
variable {e : Engine} {h : CmdHdr} {mask fade : Nat} (index : Nat) (ha : e.accepts h 0x0D [3, 4, 6, 7, 8]) (hmask : mask ≠ 0) (hfade : fade ≤ 5)
  (hvalid : ((maskChans mask).any fun c => e.bankState c (1 - e.rd (R.SHD_CH_BANK.ACTIVE c)) != 1) = false)
include ha hmask hfade hvalid

/-- In an open job without a fade the swap gets its start index (R109). -/
theorem cmdSwapBank_job (hjob : e.job.isOpen = true) (hnone : e.shd.fade = none) : e.cmdSwapBank h mask index fade =
    { e.openCmd h 0x0D (.bankSwap mask index) with
      shd := { e.shd with fade := some (swapOf h mask (e.firstFree mask index) fade) } } := by
  unfold cmdSwapBank
  rw [decide_eq_true hfade, command_accepts ha, if_neg hmask, if_neg (by rw [hvalid]; decide)]
  simp [hjob, hnone]
  rfl

/-- Without a job the banks change at once (R109). -/
theorem cmdSwapBank_jobless (hjob : e.job.isOpen = false) : e.cmdSwapBank h mask index fade =
    (((e.openCmd h 0x0D (.bankSwap mask index)).swapActive mask).bankSwapped (swapOf h mask (2 ^ 48 - 1) 0) (2 ^ 48 - 1)).swapDone
      (swapOf h mask (2 ^ 48 - 1) 0) stOk := by
  unfold cmdSwapBank
  rw [decide_eq_true hfade, command_accepts ha, if_neg hmask, if_neg (by rw [hvalid]; decide)]
  simp only [hjob]
  rfl

end

/-! ### The banks in force -/

theorem active_fits (c : Nat) : (R.SHD_CH_BANK.ACTIVE c).fits := ⟨Nat.le_refl 31, Nat.lt_succ_self 31⟩

theorem fading_fits (c : Nat) : (R.SHD_CH_BANK.FADING c).fits := ⟨Nat.le_refl 30, Nat.lt_of_succ_lt (Nat.lt_succ_self 31)⟩

theorem active_apart_fading (c : Nat) : (R.SHD_CH_BANK.ACTIVE c).apart (R.SHD_CH_BANK.FADING c) := .inr (Nat.lt_succ_self 30)

/-- One named channel changes to its other bank. -/
def swapOne (e : Engine) (c : Nat) : Engine := (e.wr (R.SHD_CH_BANK.ACTIVE c) (1 - e.rd (R.SHD_CH_BANK.ACTIVE c))).wr (R.SHD_CH_BANK.FADING c) 0

theorem swapActive_eq (e : Engine) (mask : Nat) : e.swapActive mask = (maskChans mask).foldl swapOne e := rfl

theorem active_swapOne_same (e : Engine) (c : Nat) : (e.swapOne c).rd (R.SHD_CH_BANK.ACTIVE c) = 1 - e.rd (R.SHD_CH_BANK.ACTIVE c) := by
  have hfit : 1 - e.rd (R.SHD_CH_BANK.ACTIVE c) < 2 ^ (R.SHD_CH_BANK.ACTIVE c).width := by
    rw [show (R.SHD_CH_BANK.ACTIVE c).width = 1 from rfl]
    omega
  unfold swapOne
  rw [rd_wr_apart _ (active_fits c) (fading_fits c) (active_apart_fading c), rd_wr_lt e (active_fits c) hfit]

theorem active_swapOne_ne (e : Engine) {c d : Nat} (h : d ≠ c) : (e.swapOne d).rd (R.SHD_CH_BANK.ACTIVE c) = e.rd (R.SHD_CH_BANK.ACTIVE c) := by
  have hoff : (R.SHD_CH_BANK.ACTIVE c).off ≠ (R.SHD_CH_BANK.word d).off := by
    dsimp only
    omega
  exact (rd_wr_ne (g := R.SHD_CH_BANK.FADING d) _ 0 hoff).trans (rd_wr_ne (g := R.SHD_CH_BANK.ACTIVE d) e _ hoff)

theorem mem_maskChans {mask c : Nat} : c ∈ maskChans mask ↔ c < 64 ∧ bitOf mask c = true := by
  simp [maskChans, upTo]

theorem nodup_maskChans (mask : Nat) : (maskChans mask).Nodup := List.nodup_range.filter _

/-- ACTIVE of the named channels changes to the other bank, that of the others stays (R109). -/
theorem active_swapActive (e : Engine) (mask : Nat) {c : Nat} (hc : c < 64) : (e.swapActive mask).rd (R.SHD_CH_BANK.ACTIVE c) =
    if bitOf mask c then 1 - e.rd (R.SHD_CH_BANK.ACTIVE c) else e.rd (R.SHD_CH_BANK.ACTIVE c) := by
  rw [swapActive_eq]
  split
  next hbit =>
    obtain ⟨x, hx, hfold⟩ := foldl_at (fun x : Engine => x.rd (R.SHD_CH_BANK.ACTIVE c)) (mem_maskChans.mpr ⟨hc, hbit⟩) (nodup_maskChans mask)
      (fun x b _ hb => x.active_swapOne_ne hb) e
    rw [hfold, active_swapOne_same, hx]
  next hbit =>
    exact foldl_keeps (fun x => x.rd (R.SHD_CH_BANK.ACTIVE c))
      (fun x b hb => x.active_swapOne_ne fun hbc => hbit (hbc ▸ (mem_maskChans.mp hb).2)) e

theorem swapActive_onlyRegs (e : Engine) (mask : Nat) : e.onlyRegs (e.swapActive mask) bankOffs := by
  rw [swapActive_eq]
  refine foldl_onlyRegs (fun x c hc => ?_) e
  have hmem := chBank_mem_bankOffs (mem_maskChans.mp hc).1
  exact onlyRegs_wr (f := R.SHD_CH_BANK.FADING c) (wr_onlyRegs (f := R.SHD_CH_BANK.ACTIVE c) x _ hmem) hmem 0

/-! ### Events open no command -/

theorem dropBuilt_subset (h : Nat) (l : List OpenCmd) : dropBuilt h l ⊆ l := by
  induction l with
  | nil => exact List.Subset.refl _
  | cons o t ih =>
    unfold dropBuilt
    split
    · exact List.subset_cons_self o t
    · exact List.cons_subset_cons o ih

theorem settle_opens_subset (e : Engine) (v : Ev) : (e.settle v).opens ⊆ e.opens := by
  unfold settle
  dsimp only
  split
  · exact List.Subset.refl _
  · exact dropBuilt_subset _ _
  · split
    · split <;> exact List.Subset.refl _
    · split <;> exact List.Subset.refl _

theorem loseOldest_opens_subset (e : Engine) : e.loseOldest.opens ⊆ e.opens := by
  unfold loseOldest
  split
  · exact List.Subset.refl _
  · dsimp only
    split
    · exact List.Subset.refl _
    · exact settle_opens_subset _ _

theorem commitEv_opens_subset (e : Engine) (code subj status arg : Nat) (hs : Option Nat) (p : List LayField) (bk : Booking) :
    (e.commitEv code subj status arg hs p bk).opens ⊆ e.opens := by
  unfold commitEv
  rw [level_opens]
  dsimp only
  split
  · exact List.Subset.refl _
  · exact e.loseOldest_opens_subset

theorem emitBk_opens_subset (e : Engine) (code subj status arg : Nat) (hs : Option Nat) (p : List LayField) (bk : Booking) :
    (e.emitBk code subj status arg hs p bk).opens ⊆ e.opens := by
  by_cases h : e.resetting = none ∧ e.pins.failed = false
  · obtain ⟨x, hx, rfl | ⟨n, f, l, -, -, rfl⟩⟩ := emitBk_cases e h.1 h.2 code subj status arg hs p bk
    · rw [hx]
      exact commitEv_opens_subset ..
    · rw [hx]
      exact List.Subset.trans (commitEv_opens_subset ..) (commitEv_opens_subset ..)
  · rw [emitBk_silent h]
    exact List.Subset.refl _

/-! ### SWAP_BANK without a job -/

/-- The answer to a swap of which one command waits. -/
theorem swapDone_answered {e : Engine} {w : SwapSt} {c : OpenCmd} (hr : e.resetting = none) (hf : e.pins.failed = false) (hc : c ∈ e.opens)
    (hwait : c.wait ≠ .built) (hseq : c.hseq = w.hseq) (hone : ∀ d ∈ e.opens, d.hseq = w.hseq → d = c) (st : Nat) :
    (e.swapDone w st).answered w.hseq c.code st := by
  have hfound : (e.opens.find? fun d => d.hseq == w.hseq && d.wait != Wait.built) = some c := by
    cases hd : e.opens.find? fun d => d.hseq == w.hseq && d.wait != Wait.built with
    | none =>
      have := List.find?_eq_none.mp hd c hc
      simp [hseq, hwait] at this
    | some d =>
      have hdseq := List.find?_some hd
      simp only [Bool.and_eq_true, beq_iff_eq] at hdseq
      rw [hone d (List.mem_of_find?_eq_some hd) hdseq.1]
  unfold swapDone
  rw [hfound, ← hseq]
  exact finish_answered e hr hf c st _

/-- The banks of the named channels have changed and BANK_SWAPPED tells of it, the command still open. -/
def swappedTold (e : Engine) (h : CmdHdr) (mask index : Nat) : Engine :=
  ((e.openCmd h 0x0D (.bankSwap mask index)).swapActive mask).bankSwapped (swapOf h mask (2 ^ 48 - 1) 0) (2 ^ 48 - 1)

theorem swapActive_opens (e : Engine) (mask : Nat) : (e.swapActive mask).opens = e.opens := by
  rw [(e.swapActive_onlyRegs mask).1]

theorem swappedTold_books (e : Engine) (h : CmdHdr) (mask index : Nat) : e.onlyBooks (e.swappedTold h mask index) bankOffs :=
  onlyBooks_trans (onlyBooks_trans (openCmd_books ..) (onlyBooks_of_onlyRegs (swapActive_onlyRegs ..))) (emit_books ..)

/-- SWAP_BANK without a job completes OK where no other open command carries its HSEQ. -/
theorem swappedTold_answered {e : Engine} {h : CmdHdr} (hr : e.resetting = none) (hf : e.pins.failed = false) (hunused : e.unused h) (mask index : Nat) :
    ((e.swappedTold h mask index).swapDone (swapOf h mask (2 ^ 48 - 1) 0) stOk).answered h.hseq.toNat 0x0D stOk := by
  have hbooks := (e.swappedTold_books h mask index).1
  refine swapDone_answered (w := swapOf h mask (2 ^ 48 - 1) 0) (c := ⟨h.hseq.toNat, h.tag.toNat, 0x0D, .bankSwap mask index⟩) ?_ ?_ ?_
    Wait.noConfusion rfl ?_ stOk
  · rw [hbooks]
    exact hr
  · rw [hbooks]
    exact hf
  · refine mem_emitBk_opens Wait.noConfusion _ _ _ _ _ _ _ ?_
    rw [swapActive_opens]
    exact e.mem_openCmd h 0x0D (.bankSwap mask index)
  · intro d hd hseq
    have hopen := emitBk_opens_subset _ _ _ _ _ _ _ _ hd
    rw [swapActive_opens] at hopen
    refine (List.mem_append.mp hopen).elim (fun hold => ?_) List.mem_singleton.mp
    have hany := List.any_eq_false.mp hunused d hold
    exact absurd (beq_iff_eq.mpr hseq) hany

/-- Events leave ACTIVE as the swap has set it. -/
theorem swappedTold_active (e : Engine) (h : CmdHdr) (mask index : Nat) (w : SwapSt) {c : Nat} (hc : c < 64) :
    ((e.swappedTold h mask index).swapDone w stOk).rd (R.SHD_CH_BANK.ACTIVE c) =
      if bitOf mask c then 1 - e.rd (R.SHD_CH_BANK.ACTIVE c) else e.rd (R.SHD_CH_BANK.ACTIVE c) := by
  have hevents : (e.swappedTold h mask index |>.swapDone w stOk).word (R.SHD_CH_BANK.word c).off =
      ((e.openCmd h 0x0D (.bankSwap mask index)).swapActive mask).word (R.SHD_CH_BANK.word c).off :=
    (onlyBooks_trans (emit_books ..) (swapDone_books _ w stOk [])).2 _ (not_bookReg_chBank hc) List.not_mem_nil
  have hopen : (e.openCmd h 0x0D (.bankSwap mask index)).rd (R.SHD_CH_BANK.ACTIVE c) = e.rd (R.SHD_CH_BANK.ACTIVE c) := by
    refine rd_openCmd e h _ _ ?_
    dsimp only
    omega
  rw [← hopen, ← active_swapActive _ mask hc]
  exact congrArg (R.SHD_CH_BANK.ACTIVE c).get hevents

end Engine

/-! ### The commands -/

theorem exec_loadBank (h : CmdHdr) (addr : BitVec 64) (first count bank : Byte) (s : State) : exec (.loadBank h addr first count bank) s =
    .next (s.onEng fun e => e.cmdLoadBank h addr.toNat first.toNat count.toNat bank.toNat) := rfl

theorem exec_swapBank (h : CmdHdr) (mask : BitVec 64) (index : BitVec 48) (fade : Byte) (s : State) : exec (.swapBank h mask index fade) s =
    .next (s.onEng fun e => e.cmdSwapBank h mask.toNat index.toNat fade.toNat) := rfl

/-- Settles O4: the named banks are each written in one step of a run; a swap without a job answers the one command that carries its HSEQ. -/
theorem bankCommands : Obligations.BankCommands := by
  unfold Obligations.BankCommands
  refine ⟨?load, ?swapInJob, ?swapAtOnce⟩
  case load =>
    intro h addr first count bank s ha hfirst hone hcount hbank haddr hfree
    refine ⟨_, exec_loadBank h addr first count bank s, s.onEng_engineOnly _, ?_⟩
    rw [State.onEng_eng, Engine.cmdLoadBank_eq ha hfirst hone hcount hbank haddr hfree]
    exact ⟨Engine.mem_openCmd _ h 0x0C .bankLoad, fun i hi => Engine.bankAsked_loading s.eng h _ _ hi, Engine.bankAsked_books s.eng h _ _ hcount⟩
  case swapInJob =>
    intro h mask index fade s ha hmask hfade hvalid hjob hnone
    refine ⟨_, exec_swapBank h mask index fade s, s.onEng_engineOnly _, ?_⟩
    rw [State.onEng_eng, Engine.cmdSwapBank_job index.toNat ha hmask hfade hvalid hjob hnone]
    exact ⟨s.eng.mem_openCmd h 0x0D _, Engine.onlyBooks_shd (s.eng.openCmd_books h 0x0D _ []) _⟩
  case swapAtOnce =>
    intro h mask index fade s ha hmask hfade hvalid hjob hunused
    refine ⟨_, exec_swapBank h mask index fade s, s.onEng_engineOnly _, ?_⟩
    rw [State.onEng_eng, Engine.cmdSwapBank_jobless index.toNat ha hmask hfade hvalid hjob]
    obtain ⟨⟨htake, hpins⟩, -⟩ := ha
    exact ⟨Engine.swappedTold_answered (Engine.canTake_resetting htake) hpins hunused mask.toNat index.toNat,
      fun c => s.eng.swappedTold_active h mask.toNat index.toNat _ c.isLt,
      Engine.onlyBooks_trans (s.eng.swappedTold_books h mask.toNat index.toNat) (Engine.swapDone_books ..)⟩

end Sys2Proof.Machine
end

section
/-!
PROOFS. Row lines (R17, R21, R27, R112, R187, R206): the heads of a row's channels, the bytes of the row line, and what assembling it takes from the channels.
-/

namespace Sys2Proof.Machine

theorem leBytes_length (n v : Nat) : (leBytes n v).length = n := by
  induction n generalizing v with
  | zero => rfl
  | succ n ih => rw [leBytes, List.length_cons, ih]

namespace Engine

/-! ### The channels of a row -/

theorem nodup_rowChans (e : Engine) (s r : Nat) : (e.rowChans s r).Nodup :=
  ((List.nodup_range.filter _).filter _).map fun _ _ h => Nat.add_left_cancel h

theorem rowChans_lt {e : Engine} {s r c : Nat} (hs : s < 2) (hc : c ∈ e.rowChans s r) : c < 64 := by
  obtain ⟨k, hk, rfl⟩ := List.mem_map.mp hc
  have hlt : k < 32 := List.mem_range.mp (List.mem_of_mem_filter (List.mem_of_mem_filter hk))
  omega

/-- The line at the head of a channel that has one. -/
def headLine (e : Engine) (c : Nat) : TapDone := (e.chan c).done.head?.getD ⟨0, [], LineFlags.clear⟩

/-- Line n stands at the head of every channel of a row that has channels. -/
def RowStands (e : Engine) (s r n : Nat) : Prop :=
  e.rowChans s r ≠ [] ∧ ∀ c ∈ e.rowChans s r, ((e.chan c).done.head?.map fun d => d.index) = some n

/-- The tag of the row line (R112). -/
def rowTag (e : Engine) (s r : Nat) : LineFlags :=
  joinTaps ((e.rowChans s r).map fun c => ((e.chan c).done.head?.map fun d => d.flags).getD LineFlags.clear)

/-- The bytes of the row line, stitched by tap and direction (R112). -/
def rowBytes (e : Engine) (s r : Nat) : List Byte :=
  ((stitch (e.rd (R.TG_LINE_FMT.ACTIVE s)) ((e.rowChans s r).map fun c => (e.rd (R.TG_CHMAP.TAP s (c % 32)), e.on (R.TG_CHMAP.DIR s (c % 32)),
    ((e.chan c).done.head?.map fun d => d.pixels).getD []))).map fun v => leBytes 2 v).flatten

theorem stitch_length (act : Nat) (taps : List (Nat × Bool × List Nat)) : (stitch act taps).length = 7680 := by
  unfold stitch
  dsimp only
  rw [List.length_take, List.length_append, List.length_replicate]
  omega

theorem rowBytes_length (e : Engine) (s r : Nat) : (e.rowBytes s r).length = 15360 := by
  have htwo : (fun v => (leBytes 2 v).length) = fun _ : Nat => 2 := funext fun v => leBytes_length 2 v
  rw [rowBytes, List.length_flatten, List.map_map, Function.comp_def, htwo, List.map_const', stitch_length, List.sum_replicate]
  rfl

section
variable {e : Engine} {s r n : Nat} (hstands : e.RowStands s r n)
include hstands

theorem RowStands.head {c : Nat} (hc : c ∈ e.rowChans s r) : (e.chan c).done.head? = some (e.headLine c) ∧ (e.headLine c).index = n := by
  obtain ⟨d, hd, hn⟩ := Option.map_eq_some_iff.mp (hstands.2 c hc)
  simp [headLine, hd, hn]

theorem RowStands.heads : ((e.rowChans s r).filterMap fun c => (e.chan c).done.head?) = (e.rowChans s r).map e.headLine := by
  rw [← List.filterMap_eq_map]
  exact List.filterMap_congr fun c hc => (hstands.head hc).1

theorem RowStands.tag : joinTaps (((e.rowChans s r).map e.headLine).map fun x => x.flags) = e.rowTag s r := by
  rw [List.map_map]
  refine congrArg joinTaps (List.map_congr_left fun c hc => ?_)
  rw [(hstands.head hc).1]
  rfl

theorem RowStands.bytes : (((stitch (e.rd (R.TG_LINE_FMT.ACTIVE s)) (((e.rowChans s r).zip ((e.rowChans s r).map e.headLine)).map fun (c, x) =>
    (e.rd (R.TG_CHMAP.TAP s (c % 32)), e.on (R.TG_CHMAP.DIR s (c % 32)), x.pixels))).map fun v => leBytes 2 v).flatten) = e.rowBytes s r := by
  unfold rowBytes
  rw [← List.map_prod_left_eq_zip, List.map_map]
  congr 3
  refine List.map_congr_left fun c hc => ?_
  rw [(hstands.head hc).1]
  rfl

end

/-! ### Assembling the row line -/

/-- The line at the head of some channels leaves them. -/
def headsTaken (e : Engine) (cs : List Nat) : Engine := cs.foldl (fun x c => x.modChan c fun h => { h with done := h.done.drop 1 }) e

theorem headsTaken_only (e : Engine) (cs : List Nat) : e.headsTaken cs = { e with chans := (e.headsTaken cs).chans } := by
  unfold headsTaken
  induction cs generalizing e with
  | nil => rfl
  | cons c t ih =>
    rw [List.foldl_cons, ih]
    rfl

theorem chan_headsTaken_ne (e : Engine) {cs : List Nat} {c : Nat} (hc : c ∉ cs) : (e.headsTaken cs).chan c = e.chan c :=
  foldl_keeps (fun x => x.chan c) (fun x a ha => x.chan_modChan_ne (fun h : c = a => hc (h ▸ ha)) _) e

theorem done_headsTaken {e : Engine} {cs : List Nat} {c : Nat} (hc : c ∈ cs) (hcs : cs.Nodup) (hlt : c < e.chans.length) :
    ((e.headsTaken cs).chan c).done = (e.chan c).done.drop 1 := by
  obtain ⟨x, hx, hfold⟩ := foldl_at (f := fun x c => x.modChan c fun h => { h with done := h.done.drop 1 }) (fun x : Engine => x.chans[c]?) hc hcs
    (fun x b _ hb => x.getElem?_modChan_ne hb.symm _) e
  have hold : e.chans[c]? = some e.chans[c] := List.getElem?_eq_getElem hlt
  have hnew : (e.headsTaken cs).chans[c]? = some { e.chans[c] with done := e.chans[c].done.drop 1 } := by
    rw [headsTaken, hfold]
    simp [modChan, modAt, hx, hold]
  simp only [chan, List.getD_eq_getElem?_getD, hnew, hold, Option.getD_some]

/-- The row line's tag and its place among those written are noted. -/
def rowNoted (e : Engine) (s r n : Nat) (tag : LineFlags) : Engine :=
  e.modEddy s fun y => { y with tags := modAt y.tags r (fun l => (l ++ [(n, tag)]).drop (l.length - 67)), written := modAt y.written r fun _ => some n }

section
variable {e : Engine} {s r n : Nat} (hstands : e.RowStands s r n)
include hstands

theorem assembleRow_blocked (hblocked : e.rowBlocked s r n = true) : e.assembleRow s r = e := by
  obtain ⟨c, t, hcs⟩ := List.exists_cons_of_ne_nil hstands.1
  have hindex : (e.headLine c).index = n := (hstands.head (hcs ▸ List.mem_cons_self)).2
  unfold assembleRow
  dsimp only
  rw [hstands.heads, hcs, List.map_cons, List.head?_cons]
  dsimp only
  rw [hindex, if_pos (.inr (.inr hblocked))]

/-- The row line leaves its channels; with the staging memory live its bursts are raised (R27, R187). -/
theorem assembleRow_eq (hfree : e.rowBlocked s r n = false) : e.assembleRow s r =
    if e.stagingLive = true then
      ((e.headsTaken (e.rowChans s r)).rowNoted s r n (e.rowTag s r)).raiseRange true 3 (eddyAddr s r n) 15360 ((e.rowBytes s r).map some) (.row s r n)
    else e.headsTaken (e.rowChans s r) := by
  have hsame : ((e.rowChans s r).map e.headLine).all (fun x => x.index == n) = true := by
    rw [List.all_map, List.all_eq_true]
    exact fun c hc => beq_iff_eq.mpr (hstands.head hc).2
  obtain ⟨c, t, hcs⟩ := List.exists_cons_of_ne_nil hstands.1
  have hfirst : ((e.rowChans s r).map e.headLine).head? = some (e.headLine c) := by rw [hcs, List.map_cons, List.head?_cons]
  have hindex : (e.headLine c).index = n := (hstands.head (hcs ▸ List.mem_cons_self)).2
  unfold assembleRow
  dsimp only
  rw [hstands.heads, hfirst]
  dsimp only
  rw [hindex, hstands.tag, hstands.bytes, rowBytes_length, if_neg (by simp [hsame, hfree])]
  cases e.stagingLive <;> rfl

end

/-- Bursts raised leave everything but registers and ports. -/
theorem raiseRange_chans (e : Engine) (write : Bool) (code addr len : Nat) (data : List (Option Byte)) (what : BurstFor) :
    (e.raiseRange write code addr len data what).chans = e.chans := by
  rw [raiseRange_only]

theorem raiseRange_eddy (e : Engine) (write : Bool) (code addr len : Nat) (data : List (Option Byte)) (what : BurstFor) :
    (e.raiseRange write code addr len data what).eddy = e.eddy := by
  rw [raiseRange_only]

/-- An assembled row line has left the channels of its row and no other. -/
theorem headsTaken_chans {e x : Engine} {i : Side} {r : Nat} (hx : x.chans = (e.headsTaken (e.rowChans i.val r)).chans) (hlen : e.chans.length = 64) :
    (∀ c ∈ e.rowChans i.val r, (x.chan c).done = (e.chan c).done.drop 1) ∧
    ∀ c : Fin 64, c.val ∉ e.rowChans i.val r → x.chan c.val = e.chan c.val := by
  have hchan (c : Nat) : x.chan c = (e.headsTaken (e.rowChans i.val r)).chan c := by rw [chan, hx, chan]
  constructor
  · intro c hc
    rw [hchan]
    exact done_headsTaken hc (e.nodup_rowChans i.val r) (hlen ▸ rowChans_lt i.isLt hc)
  · intro c hc
    rw [hchan]
    exact e.chan_headsTaken_ne hc

end Engine

theorem exec_rowLineAssembly (i : Side) (r : RowIx) (s : State) : exec (.rowLineAssembly i r) s = .next (s.onEng fun e => e.assembleRow i.val r.val) := rfl

end Sys2Proof.Machine
end

section
/-!
PROOFS. Aligned lines (R17, R22, R113 to R121, R133, R211): when the readout of the next line does nothing, when it asks for the rows, and the line that it takes
from rows without parity errors, with the detector and the monitors off; what the poison tags of the reads count.
-/

namespace Sys2Proof.Machine

theorem foldl_eq_self {α β : Type} {f : β → α → β} {b : β} {l : List α} (h : ∀ a ∈ l, f b a = b) : l.foldl f b = b := by
  induction l with
  | nil => rfl
  | cons a t ih => rw [List.foldl_cons, h a List.mem_cons_self, ih fun x hx => h x (List.mem_cons_of_mem a hx)]

namespace Engine

theorem eddySide_modEddy_same {e : Engine} {s : Nat} (h : s < e.eddy.length) (f : EddySt → EddySt) :
    (e.modEddy s f).eddySide s = f (e.eddySide s) := by
  simp [eddySide, modEddy, modAt, h]

/-! ### A counter that saturates -/

theorem rd_count_same (e : Engine) {f : Fld} (hf : f.fits) (n : Nat) : (e.count f n).rd f = min (2 ^ f.width - 1) (e.rd f + n) := by
  have hpos := Nat.two_pow_pos f.width
  rw [count, rd_wr_same e hf]
  exact Nat.mod_eq_of_lt (by unfold satAdd; omega)

theorem rd_count_ne (e : Engine) {f g : Fld} (n : Nat) (h : f.off ≠ g.off) : (e.count g n).rd f = e.rd f := rd_wr_ne e _ h

/-! ### Readout of the next aligned line -/

section
variable {e : Engine} (m : Staging) {s : Nat}

theorem readAligned_waits (h : e.alignedReady s (e.eddySide s).next = false) : e.readAligned m s = e := by
  simp [readAligned, h]

theorem readAligned_asks (h : e.alignedReady s (e.eddySide s).next = true) (hr : e.resetting = none) (hreading : (e.eddySide s).reading = false) :
    e.readAligned m s = (e.alignLines s (e.eddySide s).next).foldl (fun x k => x.raiseRange false 3 (eddyAddr s k.1 k.2) 15360 [] (.align s))
      (e.modEddy s fun y => { y with reading := true }) := by
  simp [readAligned, h, hr, hreading]

theorem readAligned_stands (hreading : (e.eddySide s).reading = true) (hstands : e.standing (fun w => w == .align s) = true) : e.readAligned m s = e := by
  simp [readAligned, hreading, hstands]

theorem readAligned_takes (h : e.alignedReady s (e.eddySide s).next = true) (hr : e.resetting = none) (hreading : (e.eddySide s).reading = true)
    (hthrough : e.standing (fun w => w == .align s) = false) : e.readAligned m s = e.takeAligned m s := by
  simp [readAligned, h, hr, hreading, hthrough]

end

/-- The words of the RQs read with a poison tag are counted (R211). -/
def poisonCounted (e : Engine) (poison : List (Fin 8)) : Engine := poison.foldl (fun x d => x.count (R.QUE_POISON.V (88 + d.val)) 1) e

/-- A readout with the count of its poison tags, which belong to a line taken (log 143). -/
def readCounted (e : Engine) (m : Staging) (s : Nat) (poison : List (Fin 8)) : Engine :=
  if ((e.readAligned m s).eddySide s).next = (e.eddySide s).next then e.readAligned m s else (e.readAligned m s).poisonCounted poison

theorem readCounted_idle {e : Engine} {m : Staging} {s : Nat} (h : e.readAligned m s = e) (poison : List (Fin 8)) : e.readCounted m s poison = e := by
  rw [readCounted, h, if_pos rfl]

/-- The readout asks for the rows of the line and takes none. -/
theorem readCounted_asks {e : Engine} {m : Staging} {s : Nat} (h : e.alignedReady s (e.eddySide s).next = true) (hr : e.resetting = none)
    (hreading : (e.eddySide s).reading = false) (poison : List (Fin 8)) : e.readCounted m s poison =
    (e.alignLines s (e.eddySide s).next).foldl (fun x k => x.raiseRange false 3 (eddyAddr s k.1 k.2) 15360 [] (.align s))
      (e.modEddy s fun y => { y with reading := true }) := by
  have hnext : ((e.readAligned m s).eddySide s).next = (e.eddySide s).next := by
    have heddy : (e.readAligned m s).eddy = modAt e.eddy s fun y => { y with reading := true } := by
      rw [readAligned_asks m h hr hreading]
      exact foldl_keep (fun x : Engine => x.eddy) _ (fun x k => raiseRange_eddy ..) _ _
    rw [eddySide, heddy]
    by_cases hlt : s < e.eddy.length
    · simp [modAt, eddySide, hlt]
    · simp [modAt, eddySide, hlt]
  rw [readCounted, if_pos hnext, readAligned_asks m h hr hreading]

theorem rd_poisonCounted (e : Engine) (poison : List (Fin 8)) (d : Fin 8) : (e.poisonCounted poison).rd (R.QUE_POISON.V (88 + d.val)) =
    min (2 ^ 32 - 1) (e.rd (R.QUE_POISON.V (88 + d.val)) + poison.count d) := by
  unfold poisonCounted
  induction poison generalizing e with
  | nil =>
    have hlt : e.rd (R.QUE_POISON.V (88 + d.val)) < 2 ^ 32 := rd_lt e _
    simp only [List.foldl_nil, List.count_nil]
    omega
  | cons b t ih =>
    rw [List.foldl_cons, ih, List.count_cons]
    by_cases hb : b = d
    · subst hb
      have hone : (e.count (R.QUE_POISON.V (88 + b.val)) 1).rd (R.QUE_POISON.V (88 + b.val)) =
          min (2 ^ 32 - 1) (e.rd (R.QUE_POISON.V (88 + b.val)) + 1) := rd_count_same e ⟨Nat.zero_le 31, Nat.lt_succ_self 31⟩ 1
      rw [hone, if_pos (beq_self_eq_true b)]
      omega
    · have hoff : (R.QUE_POISON.V (88 + d.val)).off ≠ (R.QUE_POISON.V (88 + b.val)).off := by
        have := Fin.val_ne_of_ne hb
        dsimp only
        omega
      rw [rd_count_ne e 1 hoff, if_neg (by simpa using hb), Nat.add_zero]

theorem poisonCounted_onlyRegs (e : Engine) (poison : List (Fin 8)) :
    e.onlyRegs (e.poisonCounted poison) ((upTo 8).map fun d => (R.QUE_POISON.V (88 + d)).off) :=
  foldl_onlyRegs (fun x d _ => wr_onlyRegs (f := R.QUE_POISON.V (88 + d.val)) x _ (List.mem_map.mpr ⟨d.val, List.mem_range.mpr d.isLt, rfl⟩)) e

/-! ### The line that is taken -/

/-- A plane of aligned line n of a side: the weighted sum of a used row's lines, code 0 of an unused row (R115). -/
def alignedPlane (e : Engine) (m : Staging) (s n r : Nat) : List Nat :=
  if r ∈ e.usedRows s then (e.planePixels m s r n).map Prod.fst else List.replicate 7680 0

/-- Its tag (R17). -/
def alignedTag (e : Engine) (s n r : Nat) : LineFlags := if r ∈ e.usedRows s then e.planeTag s r n else LineFlags.clear

/-- Aligned line n of a side, read without a parity error. -/
def alignedLine (e : Engine) (m : Staging) (s n : Nat) : AlignedLine := ⟨n, (upTo 4).map (e.alignedPlane m s n), (upTo 4).map (e.alignedTag s n)⟩

/-- No pixel of a used row reads with bad parity in aligned line n. -/
def ReadsClean (e : Engine) (m : Staging) (s n : Nat) : Prop := ∀ r ∈ e.usedRows s, (e.planePixels m s r n).all (fun v => !v.2) = true

theorem zipIdx_map_upTo {α : Type} (f : Nat → α) (n : Nat) : ((upTo n).map f).zipIdx = (upTo n).map fun i => (f i, i) := by
  refine List.ext_getElem (by simp) fun i _ _ => ?_
  simp [upTo]

/-- A pixel without a parity error stands as read. -/
theorem map_zipIdx_clean {l : List (Nat × Bool)} (h : ∀ v ∈ l, v.2 = false) (g : (Nat × Bool) × Nat → Nat) :
    (l.zipIdx.map fun x => if x.1.2 = true then g x else x.1.1) = l.map Prod.fst := by
  calc (l.zipIdx.map fun x => if x.1.2 = true then g x else x.1.1) = l.zipIdx.map (Prod.fst ∘ Prod.fst) :=
        List.map_congr_left fun x hx => by simp [h x.1 (List.fst_mem_of_mem_zipIdx hx)]
    _ = l.map Prod.fst := by rw [← List.map_map, List.zipIdx_map_fst]

/-- The pixels of a row as aligned line n has them. -/
def alignedRead (e : Engine) (m : Staging) (s n r : Nat) : List (Nat × Bool) :=
  if (e.usedRows s).contains r then e.planePixels m s r n else List.replicate 7680 (0, false)

section
variable {e : Engine} {m : Staging} {s n : Nat} (hclean : e.ReadsClean m s n)
include hclean

theorem ReadsClean.pixel (r : Nat) : ∀ v ∈ e.alignedRead m s n r, v.2 = false := by
  intro v hv
  unfold alignedRead at hv
  split at hv
  next hr => simpa using List.all_eq_true.mp (hclean r (List.contains_iff_mem.mp hr)) v hv
  next => rw [List.eq_of_mem_replicate hv]

theorem ReadsClean.plane (r : Nat) (g : (Nat × Bool) × Nat → Nat) :
    ((e.alignedRead m s n r).zipIdx.map fun x => if x.1.2 = true then g x else x.1.1) = e.alignedPlane m s n r := by
  rw [map_zipIdx_clean (hclean.pixel r)]
  unfold alignedRead alignedPlane
  simp only [List.contains_iff_mem]
  split
  · rfl
  · rw [List.map_replicate]

theorem ReadsClean.unpoisoned (r : Nat) : (e.alignedRead m s n r).any (fun v => v.2) = false :=
  List.any_eq_false.mpr fun v hv => by simp [hclean.pixel r v hv]

theorem ReadsClean.none_bad (r : Nat) : ((e.alignedRead m s n r).filter fun v => v.2).length = 0 := by
  rw [List.length_eq_zero_iff, List.filter_eq_nil_iff]
  exact fun v hv => by simp [hclean.pixel r v hv]

end

/-- A side goes on to the line after the one it has taken; its rows are no longer being read. -/
def lineNoted (e : Engine) (s : Nat) (al : AlignedLine) : Engine :=
  (e.count R.EDY_POISON_CNT.V 0).modEddy s fun y => { y with next := al.index + 1, prev := some al, reading := false }

theorem takeAligned_clean {e : Engine} {m : Staging} {s n : Nat} (hnext : (e.eddySide s).next = n) (hclean : e.ReadsClean m s n) :
    e.takeAligned m s = (e.lineNoted s (e.alignedLine m s n)).deliver s (e.alignedLine m s n) := by
  subst hnext
  have hraw : (fun r => if (e.usedRows s).contains r then e.planePixels m s r (e.eddySide s).next else List.replicate 7680 (0, false)) =
      e.alignedRead m s (e.eddySide s).next := rfl
  have hsum : sumNat ((upTo 4).map fun _ => 0) = 0 := rfl
  unfold takeAligned
  dsimp only
  rw [hraw]
  simp only [zipIdx_map_upTo, List.map_map, Function.comp_def, hclean.none_bad, hsum, hclean.unpoisoned, Bool.or_false, ne_eq, not_true_eq_false,
    false_and, if_false]
  refine congrArg (fun al => (e.lineNoted s al).deliver s al) (?_ : AlignedLine.mk _ _ _ = _)
  rw [alignedLine, AlignedLine.mk.injEq]
  refine ⟨rfl, List.map_congr_left fun r _ => hclean.plane r _, List.map_congr_left fun r _ => ?_⟩
  unfold alignedTag
  simp only [List.contains_iff_mem]

/-! ### What the line holds -/

theorem getD_map_upTo {α : Type} (f : Nat → α) {n r : Nat} (hr : r < n) (d : α) : ((upTo n).map f).getD r d = f r := by
  simp [upTo, hr]

/-- With offset 0 aligned line n of a row is its line n (R115). -/
theorem footprint_zero {e : Engine} {s r : Nat} (hd : e.rd (R.EDY_OFS.D s r) = 0) (n : Nat) : e.footprint s r n = [((n : Int), 16384)] := by
  unfold footprint
  simp [hd]

theorem planePixels_zero {e : Engine} {s r n : Nat} (hd : e.rd (R.EDY_OFS.D s r) = 0) (hlow : (e.eddySide s).low ≤ n)
    (hfinish : (e.eddySide s).finish = none) (m : Staging) : e.planePixels m s r n = readRow m s r n := by
  have hclip : clipLine (e.eddySide s).low (e.eddySide s).finish n = (n, false) := by
    simp [clipLine, hfinish, hlow]
  unfold planePixels
  simp only [footprint_zero hd, List.map_cons, List.map_nil, hclip]

theorem alignedPlane_zero {e : Engine} {s r n : Nat} (hused : r ∈ e.usedRows s) (hd : e.rd (R.EDY_OFS.D s r) = 0) (hlow : (e.eddySide s).low ≤ n)
    (hfinish : (e.eddySide s).finish = none) (m : Staging) {k : Nat} (hk : k < 7680) : (e.alignedPlane m s n r).getD k 0 =
    (m.byte (eddyAddr s r n + 2 * k)).toNat + 256 * (m.byte (eddyAddr s r n + 2 * k + 1)).toNat := by
  rw [alignedPlane, if_pos hused, planePixels_zero hd hlow hfinish, readRow, List.map_map]
  exact getD_map_upTo _ hk 0

/-! ### What the line feeds -/

/-- Nothing but the geometry units and the frames of a side takes its aligned lines: the detector and the monitors are off (R147, R160). -/
def OnlyUnitsTake (e : Engine) (s : Nat) : Prop := e.geoRuns s = false ∧ ∀ m : Fin 16, e.on (R.MON_CTRL.EN m.val) = false ∧ (e.monOf m.val).enabled = false

/-- A geometry unit that runs takes a line. -/
def unitFed (al : AlignedLine) (u : GuSt) : GuSt := if u.runs ≠ [] then { u with hist := u.hist ++ [al], low := some (u.low.getD al.index) } else u

/-- The geometry units of a side once they have taken a line after which more come (R133). -/
theorem feedGus_eq (e : Engine) (s : Nat) (al : AlignedLine) : e.feedGus s al false =
    { e with gus := (e.sideGus s).foldl (fun l g => modAt l g (unitFed al)) e.gus } := by
  have hstep : (fun u : GuSt => if u.runs.isEmpty then u
      else { u with hist := u.hist ++ [al], ended := if false then some al.index else u.ended, low := some (u.low.getD al.index) }) = unitFed al := by
    funext u
    unfold unitFed
    cases u.runs <;> simp
  unfold feedGus
  simp only [hstep]
  generalize e.sideGus s = l
  induction l generalizing e with
  | nil => rfl
  | cons g t ih =>
    rw [List.foldl_cons, ih]
    rfl

theorem monitors_off {e : Engine} (h : ∀ m : Fin 16, e.on (R.MON_CTRL.EN m.val) = false ∧ (e.monOf m.val).enabled = false) (s n : Nat) (al : AlignedLine)
    (frame : Option Nat) (closes : Bool) : e.monitors s n al frame closes = e := by
  refine foldl_eq_self fun m hm => ?_
  obtain ⟨hen, hold⟩ := h ⟨m, List.mem_range.mp hm⟩
  split
  · simp [monLine, hen, hold]
  · rfl

theorem detect_off {e : Engine} {s : Nat} (h : e.geoRuns s = false) (n : Nat) (pixels : List Nat) (auxkind : Nat) : e.detect s n pixels auxkind = e := by
  simp [detect, h]

theorem frameArrive_open {e : Engine} {s : Nat} {f : Frame} (hcur : (e.frameSide s).cur = some f) (n : Nat) : e.frameArrive s n = e := by
  simp [frameArrive, hcur]

theorem frameArrive_none {e : Engine} {s : Nat} (hcur : (e.frameSide s).cur = none) (hfixed : (e.frameSide s).fixed = []) (n : Nat) : e.frameArrive s n = e := by
  simp [frameArrive, hcur, hfixed]

/-- The geometry units of a side take the line, and its open frame counts it: what stays when neither an edge nor the end of a frame comes with it. -/
theorem deliver_eq {e : Engine} {s : Nat} {al : AlignedLine} (hfinish : (e.eddySide s).finish = none) (hfirst : (e.eddySide s).first ≤ al.index)
    (htake : e.OnlyUnitsTake s) (harrive : e.frameArrive s al.index = e) {fr : List FrameSt}
    (hleave : (e.feedGus s al false).frameLeave s al.index none = { e.feedGus s al false with frames := fr }) :
    e.deliver s al = { e.feedGus s al false with frames := fr } := by
  obtain ⟨hgeo, hmon⟩ := htake
  have hends : decide ((none : Option Nat) = some al.index) = false := rfl
  unfold deliver
  simp only [hfinish, hends, if_neg (Nat.not_lt.mpr hfirst), harrive, detect_off hgeo, Bool.false_and, Bool.false_eq_true, if_false, hleave]
  rw [feedGus_eq]
  exact monitors_off (e := { e with gus := (e.sideGus s).foldl (fun l g => modAt l g (unitFed al)) e.gus, frames := fr }) hmon ..

end Engine
end Sys2Proof.Machine
end

section
/-!
PROOFS. The commands of row lines, aligned lines and held MONITOR events (R112, R116, R161, R190, R206): an aligned line whose bursts are through, with all that
it changes.
-/

namespace Sys2Proof.Machine

namespace Engine

/-! ### An aligned line whose bursts are through -/

/-- The bursts of aligned line n of a side are through and it read clean; no end of the kept lines is known, and the units and frames alone take it. -/
structure LineThrough (e : Engine) (m : Staging) (s n : Nat) : Prop where
  ready : e.alignedReady s n = true
  awake : e.resetting = none
  reading : (e.eddySide s).reading = true
  through : e.standing (fun w => w == .align s) = false
  next : (e.eddySide s).next = n
  endless : (e.eddySide s).finish = none
  first : (e.eddySide s).first ≤ n
  side : s < e.eddy.length
  units : e.OnlyUnitsTake s
  clean : e.ReadsClean m s n

/-- The frames once the open one of a side has counted a line. -/
def framesCount (e : Engine) (s : Nat) : List FrameSt := modAt e.frames s fun x => { x with lines := (e.frameSide s).lines + 1 }

/-- The line taken, with the frames as they then stand. -/
def lineTaken (e : Engine) (m : Staging) (s n : Nat) (fr : List FrameSt) : Engine :=
  { e.lineNoted s (e.alignedLine m s n) with gus := (e.sideGus s).foldl (fun l g => modAt l g (unitFed (e.alignedLine m s n))) e.gus, frames := fr }

theorem frameLeave_none {e : Engine} {s : Nat} (hcur : (e.frameSide s).cur = none) (n : Nat) (finish : Option Nat) : e.frameLeave s n finish = e := by
  simp [frameLeave, hcur]

/-- A JOB frame counts a line before its last (R127). -/
theorem frameLeave_counts {e : Engine} {s n l : Nat} {f : Frame} (hcur : (e.frameSide s).cur = some f) (hlast : f.last = some l) (hn : n < l)
    (hjob : e.jobFramed s = true) : e.frameLeave s n none = { e with frames := e.framesCount s } := by
  have hbefore : ¬ l ≤ n := by omega
  simp [frameLeave, hcur, hlast, hbefore, hjob, framesCount, modFrame]

theorem lineNoted_onlyRegs (e : Engine) (s : Nat) (al : AlignedLine) :
    ({ e with eddy := (e.lineNoted s al).eddy } : Engine).onlyRegs (e.lineNoted s al) [R.EDY_POISON_CNT.V.off] :=
  ⟨rfl, fun _ ho => word_wr_ne e _ fun h => ho (List.mem_singleton.mpr h)⟩

/-- The one register that a line taken writes is EDY_POISON_CNT. -/
theorem rd_lineNoted (e : Engine) (s : Nat) (al : AlignedLine) {f : Fld} (h : f.off ≠ R.EDY_POISON_CNT.V.off) : (e.lineNoted s al).rd f = e.rd f :=
  rd_count_ne e 0 h

theorem on_lineNoted (e : Engine) (s : Nat) (al : AlignedLine) {f : Fld} (h : f.off ≠ R.EDY_POISON_CNT.V.off) : (e.lineNoted s al).on f = e.on f :=
  congrArg (· != 0) (e.rd_lineNoted s al h)

theorem sideGus_lineNoted (e : Engine) (s : Nat) (al : AlignedLine) : (e.lineNoted s al).sideGus s = e.sideGus s := by
  unfold sideGus
  refine List.filter_congr fun g _ => ?_
  have hoff : (R.GU_CTRL.word g).off ≠ R.EDY_POISON_CNT.V.off := by
    dsimp only
    omega
  rw [on_lineNoted (f := R.GU_CTRL.EN g) _ _ _ hoff, rd_lineNoted (f := R.GU_CTRL.SIDE g) _ _ _ hoff]

theorem OnlyUnitsTake.noted {e : Engine} {s : Nat} (h : e.OnlyUnitsTake s) (al : AlignedLine) : (e.lineNoted s al).OnlyUnitsTake s := by
  obtain ⟨hgeo, hmon⟩ := h
  constructor
  · rw [← hgeo]
    unfold geoRuns
    rw [on_lineNoted (f := R.GEO_CTRL.EN s) _ _ _ (by dsimp only; omega)]
    rfl
  · intro m
    rw [on_lineNoted (f := R.MON_CTRL.EN m.val) _ _ _ (by dsimp only; omega)]
    exact hmon m

section
variable {e : Engine} {m : Staging} {s n : Nat} (h : e.LineThrough m s n)
include h

theorem LineThrough.eddySide_noted : (e.lineNoted s (e.alignedLine m s n)).eddySide s =
    { e.eddySide s with next := n + 1, prev := some (e.alignedLine m s n), reading := false } :=
  eddySide_modEddy_same (e := e.count R.EDY_POISON_CNT.V 0) h.side _

/-- The line is taken once, with the frames as `fr` has them. -/
theorem LineThrough.readAligned_eq {fr : List FrameSt} (harrive : (e.lineNoted s (e.alignedLine m s n)).frameArrive s n = e.lineNoted s (e.alignedLine m s n))
    (hleave : ((e.lineNoted s (e.alignedLine m s n)).feedGus s (e.alignedLine m s n) false).frameLeave s n none =
      { (e.lineNoted s (e.alignedLine m s n)).feedGus s (e.alignedLine m s n) false with frames := fr }) :
    e.readAligned m s = e.lineTaken m s n fr := by
  have hnext := h.next
  rw [readAligned_takes m (hnext.symm ▸ h.ready) h.awake h.reading h.through, takeAligned_clean hnext h.clean,
    deliver_eq (by rw [h.eddySide_noted]; exact h.endless) (by rw [h.eddySide_noted]; exact h.first) (h.units.noted _) harrive hleave, feedGus_eq,
    sideGus_lineNoted]
  rfl

theorem LineThrough.readCounted_eq {fr : List FrameSt} (hread : e.readAligned m s = e.lineTaken m s n fr) (poison : List (Fin 8)) :
    e.readCounted m s poison = (e.lineTaken m s n fr).poisonCounted poison := by
  have hside : ((e.lineTaken m s n fr).eddySide s).next = n + 1 := congrArg EddySt.next h.eddySide_noted
  rw [readCounted, hread, hside, h.next, if_neg (Nat.succ_ne_self n)]

/-- No frame is open and none is to open. -/
theorem LineThrough.unframed (hcur : (e.frameSide s).cur = none) (hfixed : (e.frameSide s).fixed = []) : e.readAligned m s = e.lineTaken m s n e.frames := by
  refine h.readAligned_eq (frameArrive_none (e := e.lineNoted s _) hcur hfixed n) ?_
  rw [frameLeave_none (by rw [feedGus_eq]; exact hcur), feedGus_eq]
  rfl

/-- A JOB frame is open, its last line known and still to come. -/
theorem LineThrough.framed {f : Frame} {l : Nat} (hcur : (e.frameSide s).cur = some f) (hlast : f.last = some l) (hn : n < l) (hjob : e.jobFramed s = true) :
    e.readAligned m s = e.lineTaken m s n (e.framesCount s) := by
  refine h.readAligned_eq (frameArrive_open (e := e.lineNoted s _) hcur n) ?_
  have hjob' : (e.lineNoted s (e.alignedLine m s n)).jobFramed s = true :=
    (on_lineNoted (f := R.RSM_FRAME_CTRL.SRC s) _ _ _ (by dsimp only; omega)).trans hjob
  rw [frameLeave_counts (by rw [feedGus_eq]; exact hcur) hlast hn (by rw [feedGus_eq]; exact hjob'), feedGus_eq]
  rfl

end

/-! ### What a line taken changes -/

theorem getD_foldl_modAt {α : Type} {f : α → α} {d : α} (hd : f d = d) {l : List Nat} (hl : l.Nodup) (gs : List α) (k : Nat) :
    (l.foldl (fun x g => modAt x g f) gs).getD k d = if k ∈ l then f (gs.getD k d) else gs.getD k d := by
  have hstep (gs : List α) (g : Nat) : (modAt gs g f).getD k d = if g = k then f (gs.getD k d) else gs.getD k d := by
    simp only [List.getD_eq_getElem?_getD, modAt, List.getElem?_modify]
    cases gs[k]? <;> split <;> simp [hd]
  induction l generalizing gs with
  | nil => rfl
  | cons g t ih =>
    obtain ⟨hg, ht⟩ := List.nodup_cons.mp hl
    rw [List.foldl_cons, ih ht, hstep]
    by_cases hgk : g = k
    · subst hgk
      simp [hg]
    · simp [hgk, Ne.symm hgk]

theorem nodup_sideGus (e : Engine) (s : Nat) : (e.sideGus s).Nodup := List.nodup_range.filter _

section
variable (e : Engine) (m : Staging) (s n : Nat) (fr : List FrameSt) (poison : List (Fin 8))

theorem eddy_lineTaken : ((e.lineTaken m s n fr).poisonCounted poison).eddy =
    modAt e.eddy s fun y => { y with next := n + 1, prev := some (e.alignedLine m s n), reading := false } := by
  rw [((e.lineTaken m s n fr).poisonCounted_onlyRegs poison).1]
  rfl

theorem frames_lineTaken : ((e.lineTaken m s n fr).poisonCounted poison).frames = fr := by
  rw [((e.lineTaken m s n fr).poisonCounted_onlyRegs poison).1]
  rfl

theorem gus_lineTaken : ((e.lineTaken m s n fr).poisonCounted poison).gus =
    (e.sideGus s).foldl (fun l g => modAt l g (unitFed (e.alignedLine m s n))) e.gus := by
  rw [((e.lineTaken m s n fr).poisonCounted_onlyRegs poison).1]
  rfl

theorem gu_lineTaken (g : Nat) : ((e.lineTaken m s n fr).poisonCounted poison).gu g =
    if g ∈ e.sideGus s ∧ (e.gu g).runs ≠ [] then
      { e.gu g with hist := (e.gu g).hist ++ [e.alignedLine m s n], low := some ((e.gu g).low.getD n) }
    else e.gu g := by
  have hidle : unitFed (e.alignedLine m s n) GuSt.init = GuSt.init := if_neg (by simp [GuSt.init])
  rw [gu, gus_lineTaken, getD_foldl_modAt hidle (e.nodup_sideGus s), ite_and]
  rfl

theorem queuePoison_lineTaken (d : Fin 8) : ((e.lineTaken m s n fr).poisonCounted poison).rd (R.QUE_POISON.V (88 + d.val)) =
    min (2 ^ 32 - 1) (e.rd (R.QUE_POISON.V (88 + d.val)) + poison.count d) := by
  have hrd : (e.lineTaken m s n fr).rd (R.QUE_POISON.V (88 + d.val)) = e.rd (R.QUE_POISON.V (88 + d.val)) :=
    e.rd_lineNoted s (e.alignedLine m s n) (f := R.QUE_POISON.V (88 + d.val)) (by dsimp only; omega)
  rw [rd_poisonCounted, hrd]

theorem lineTaken_onlyRegs : ({ e with
      eddy := ((e.lineTaken m s n fr).poisonCounted poison).eddy
      gus := ((e.lineTaken m s n fr).poisonCounted poison).gus
      frames := fr } : Engine).onlyRegs ((e.lineTaken m s n fr).poisonCounted poison)
    ([R.EDY_POISON_CNT.V.off] ++ (upTo 8).map fun d => (R.QUE_POISON.V (88 + d)).off) := by
  rw [eddy_lineTaken, gus_lineTaken]
  exact onlyRegs_append (x := e.lineTaken m s n fr) ⟨rfl, (e.lineNoted_onlyRegs s (e.alignedLine m s n)).2⟩
    ((e.lineTaken m s n fr).poisonCounted_onlyRegs poison)

end

/-- What a line taken leaves where side and index are known: EDDY, the planes and tags of the line, the units, the counts of poison tags. -/
theorem LineThrough.tells {e : Engine} {m : Staging} {i : Side} {n : Nat} (h : e.LineThrough m i.val n) (fr : List FrameSt) (poison : List (Fin 8))
    {t : Engine} (ht : t = (e.lineTaken m i.val n fr).poisonCounted poison) :
    (t.eddySide i.val).prev = some (e.alignedLine m i.val n) ∧
    (t.eddy = modAt e.eddy i.val fun y => { y with next := n + 1, prev := (t.eddySide i.val).prev, reading := false }) ∧
    (∀ r : Fin 4, (e.alignedLine m i.val n).planes.getD r.val [] = e.alignedPlane m i.val n r.val) ∧
    (∀ r : Fin 4, r.val ∈ e.usedRows i.val → e.rd (R.EDY_OFS.D i.val r.val) = 0 → (e.eddySide i.val).low ≤ n → ∀ k : Fin 7680,
      ((e.alignedLine m i.val n).planes.getD r.val []).getD k.val 0 =
        (m.byte (eddyAddr i.val r.val n + 2 * k.val)).toNat + 256 * (m.byte (eddyAddr i.val r.val n + 2 * k.val + 1)).toNat) ∧
    ∀ r : Fin 4, (e.alignedLine m i.val n).tags.getD r.val LineFlags.clear = e.alignedTag i.val n r.val := by
  subst ht
  have hprev : (((e.lineTaken m i.val n fr).poisonCounted poison).eddySide i.val).prev = some (e.alignedLine m i.val n) := by
    rw [eddySide, eddy_lineTaken]
    exact congrArg EddySt.prev (eddySide_modEddy_same h.side _)
  have hplane (r : Fin 4) : (e.alignedLine m i.val n).planes.getD r.val [] = e.alignedPlane m i.val n r.val := getD_map_upTo _ r.isLt []
  refine ⟨hprev, ?_, hplane, ?_, fun r => getD_map_upTo _ r.isLt LineFlags.clear⟩
  · rw [hprev]
    exact eddy_lineTaken ..
  · intro r hused hd hlow k
    rw [hplane]
    exact alignedPlane_zero hused hd hlow h.endless m k.isLt

/-! ### Held MONITOR events (R161) -/

theorem emit_toldBytes (e : Engine) (hr : e.resetting = none) (hf : e.pins.failed = false) (code subj status arg : Nat) (hs : Option Nat)
    (p : List LayField) : (e.emit code subj status arg hs p).toldBytes p := by
  obtain ⟨v, hlast, -, -, -, -, -, hpayload, -⟩ := emitBk_last e hr hf code subj status arg hs p .none
  unfold emit toldBytes
  rw [hlast, ← hpayload]
  rfl

/-- A held event is told once 1 ms has passed since the one before. -/
def heldTold (e : Engine) (m : Nat) : Engine :=
  if (e.monOf m).held && (match (e.monOf m).lastEvt with | some t => decide (t + 1000000 ≤ e.now) | none => true) then e.monEvent m else e

theorem heldTold_due {e : Engine} {m : Nat} (hheld : (e.monOf m).held = true)
    (hdue : (e.monOf m).lastEvt.all (fun t => decide (t + 1000000 ≤ e.now)) = true) : e.heldTold m = e.monEvent m := by
  unfold heldTold
  cases hlast : (e.monOf m).lastEvt with
  | none => simp [hheld]
  | some t =>
    rw [hlast] at hdue
    exact if_pos (by rw [hheld]; exact hdue)

theorem monEvent_eq {e : Engine} {m v px idx : Nat} {out : Bool} (h : (e.monOf m).heldResult = (v, out, px, idx)) : e.monEvent m =
    (e.modMon m fun y => { y with held := false, heldFolds := 0, lastEvt := some e.now }).emit 0x13 m 0 (b2n out) none
      [(24, 4, v), (28, 2, px), (30, 6, idx), (36, 4, (e.monOf m).heldFolds)] := by
  simp [monEvent, h]

end Engine

/-! ### The commands -/

theorem exec_alignedLineReadout (i : Side) (poison : List (Fin 8)) (s : State) : exec (.alignedLineReadout i poison) s =
    .next (s.onEng fun e => e.readCounted s.stg i.val poison) := rfl

theorem exec_monitorHoldoff (m : Fin 16) (s : State) : exec (.monitorHoldoff m) s = .next (s.onEng fun e => e.heldTold m.val) := rfl

/-- Settles O36: the lines at the heads of a row's channels are the row line's parts; an aligned line read clean is delivered to the units of its side and to the
open frame alone. -/
theorem rowLinesAndAlignedLines : Obligations.RowLinesAndAlignedLines := by
  unfold Obligations.RowLinesAndAlignedLines
  refine ⟨?stitched, ?halted, ?blocked, ?asked, ?standing, ?unframed, ?framed, ?waiting, ?monitor⟩
  case stitched =>
    intro i r n s hcs hheads hlive hfree hlen
    refine ⟨_, exec_rowLineAssembly i r s, s.onEng_engineOnly _, ?_⟩
    rw [State.onEng_eng, Engine.assembleRow_eq ⟨hcs, hheads⟩ hfree, if_pos hlive]
    have hchans := Engine.raiseRange_chans ((s.eng.headsTaken (s.eng.rowChans i.val r.val)).rowNoted i.val r.val n (s.eng.rowTag i.val r.val)) true 3
      (Engine.eddyAddr i.val r.val n) 15360 ((s.eng.rowBytes i.val r.val).map some) (.row i.val r.val n)
    obtain ⟨htaken, hkept⟩ := Engine.headsTaken_chans hchans hlen
    refine ⟨htaken, hkept, ?_, s.eng.rowBytes_length i.val r.val⟩
    rw [hchans, s.eng.headsTaken_only (s.eng.rowChans i.val r.val)]
    rfl
  case halted =>
    intro i r n s hcs hheads hhalt hlen
    have hfree : s.eng.rowBlocked i.val r.val n = false := by simp [Engine.rowBlocked, hhalt]
    refine ⟨_, exec_rowLineAssembly i r s, s.onEng_engineOnly _, ?_⟩
    rw [State.onEng_eng, Engine.assembleRow_eq ⟨hcs, hheads⟩ hfree, if_neg (by rw [hhalt]; decide)]
    obtain ⟨htaken, hkept⟩ := Engine.headsTaken_chans (e := s.eng) (i := i) rfl hlen
    exact ⟨htaken, hkept, s.eng.headsTaken_only _⟩
  case blocked =>
    intro i r n s hcs hheads hblocked
    exact ⟨_, exec_rowLineAssembly i r s, s.onEng_engineOnly _, Engine.assembleRow_blocked ⟨hcs, hheads⟩ hblocked⟩
  case asked =>
    intro i poison n s hready hawake hreading hnext
    subst hnext
    exact ⟨_, exec_alignedLineReadout i poison s, s.onEng_engineOnly _, Engine.readCounted_asks hready hawake hreading poison⟩
  case standing =>
    intro i poison s hreading hstands
    exact ⟨_, exec_alignedLineReadout i poison s, s.onEng_engineOnly _, Engine.readCounted_idle (Engine.readAligned_stands _ hreading hstands) poison⟩
  case unframed =>
    intro i poison n s hready hawake hreading hthrough hnext hendless hfirst hside hgeo hmon hcur hfixed hclean
    have hline : s.eng.LineThrough s.stg i.val n := ⟨hready, hawake, hreading, hthrough, hnext, hendless, hfirst, hside, ⟨hgeo, hmon⟩, hclean⟩
    refine ⟨_, exec_alignedLineReadout i poison s, s.onEng_engineOnly _, ?_⟩
    rw [State.onEng_eng, hline.readCounted_eq (hline.unframed hcur hfixed) poison]
    obtain ⟨hprev, heddy, hplanes, hpixels, htags⟩ := hline.tells s.eng.frames poison rfl
    refine ⟨heddy, ?_⟩
    rw [hprev]
    exact ⟨rfl, hplanes, hpixels, htags, fun g => s.eng.gu_lineTaken s.stg i.val n _ poison g.val,
      s.eng.queuePoison_lineTaken s.stg i.val n _ poison, s.eng.lineTaken_onlyRegs s.stg i.val n s.eng.frames poison⟩
  case framed =>
    intro i poison n l f s hready hawake hreading hthrough hnext hendless hfirst hside hgeo hmon hcur hlast hbefore hjob hclean
    have hline : s.eng.LineThrough s.stg i.val n := ⟨hready, hawake, hreading, hthrough, hnext, hendless, hfirst, hside, ⟨hgeo, hmon⟩, hclean⟩
    refine ⟨_, exec_alignedLineReadout i poison s, s.onEng_engineOnly _, ?_⟩
    rw [State.onEng_eng, hline.readCounted_eq (hline.framed hcur hlast hbefore hjob) poison]
    obtain ⟨hprev, heddy, hplanes, hpixels, htags⟩ := hline.tells (s.eng.framesCount i.val) poison rfl
    refine ⟨heddy, ?_⟩
    rw [hprev, Engine.frames_lineTaken]
    exact ⟨rfl, hplanes, hpixels, htags, fun g => s.eng.gu_lineTaken s.stg i.val n _ poison g.val,
      s.eng.queuePoison_lineTaken s.stg i.val n _ poison, rfl, s.eng.lineTaken_onlyRegs s.stg i.val n _ poison⟩
  case waiting =>
    intro i poison s hwaits
    exact ⟨_, exec_alignedLineReadout i poison s, s.onEng_engineOnly _, Engine.readCounted_idle (Engine.readAligned_waits _ hwaits) poison⟩
  case monitor =>
    intro m v px idx out s hheld hresult hdue hhears
    obtain ⟨⟨hr, hf⟩, -, -⟩ := hhears
    refine ⟨_, exec_monitorHoldoff m s, s.onEng_engineOnly _, ?_⟩
    rw [State.onEng_eng, Engine.heldTold_due hheld hdue, Engine.monEvent_eq hresult]
    exact ⟨Engine.emit_told (s.eng.modMon m.val _) hr hf .., Engine.emit_toldBytes (s.eng.modMon m.val _) hr hf .., Engine.emit_books ..⟩

end Sys2Proof.Machine
end

section
/-!
PROOFS. Output lines (R131, R133, R143, R206, R278): the line of a geometry unit that one stream takes, with its bursts towards STAGE; when a unit makes none; the
commit of a line whose bursts are through.
-/

namespace Sys2Proof.Machine

theorem getD_modAt_same {α : Type} {l : List α} {i : Nat} (h : i < l.length) (f : α → α) (d : α) : (modAt l i f).getD i d = f (l.getD i d) := by
  simp [modAt, h]

theorem getD_modAt_ne {α : Type} (l : List α) {i k : Nat} (h : k ≠ i) (f : α → α) (d : α) : (modAt l i f).getD k d = l.getD k d := by
  simp only [List.getD_eq_getElem?_getD, modAt, List.getElem?_modify, if_neg h.symm, id_map']

/-- A place that holds something else than the default lies in the list. -/
theorem lt_length_of_getD_ne {α : Type} {l : List α} {i : Nat} {d : α} (h : l.getD i d ≠ d) : i < l.length :=
  Nat.lt_of_not_le fun hle => h (List.getD_eq_default l d hle)

namespace Engine

/-! ### Bursts and the geometry units -/

section
variable (e : Engine) (g : Nat) (f : GuSt → GuSt)

theorem wr_modGu (a : Fld) (v : Nat) : (e.modGu g f).wr a v = (e.wr a v).modGu g f := rfl

theorem level_modGu (q n : Nat) : (e.modGu g f).level q n = (e.level q n).modGu g f := by
  unfold level
  dsimp only
  rw [wr_modGu, rd_congr (modGu_regs (e.wr (R.QUE_LEVEL.LEVEL q) n) g f)]
  split
  · exact wr_modGu ..
  · rfl

theorem raiseBurst_modGu (p code : Nat) (b : Burst) : (e.modGu g f).raiseBurst p code b = (e.raiseBurst p code b).modGu g f :=
  level_modGu (e.modPort p fun a => { a with bursts := modAt a.bursts code fun l => l ++ [b] }) g f ..

theorem raiseRange_modGu (write : Bool) (code addr len : Nat) (data : List (Option Byte)) (what : BurstFor) :
    (e.modGu g f).raiseRange write code addr len data what = (e.raiseRange write code addr len data what).modGu g f :=
  List.foldl_hom (fun x : Engine => x.modGu g f) fun x _ => x.raiseBurst_modGu g f ..

/-- Bursts raised before or after a change of a geometry unit are the same. -/
theorem raiseStage_modGu (write : Bool) (off len : Nat) (data : List (Option Byte)) (what : BurstFor) :
    (e.modGu g f).raiseStage write off len data what = (e.raiseStage write off len data what).modGu g f := by
  unfold raiseStage
  dsimp only
  rw [raiseRange_modGu, raiseRange_modGu]
  rfl

end

/-! ### When a unit makes no line -/

theorem jobCheck_open {e : Engine} (h : e.job.closing = false) : e.jobCheck = e := by
  simp [jobCheck, drainJob, h]

theorem guOutput_held {e : Engine} {g : Nat} (h : e.unitHeld g = true) : e.guOutput g = e := by
  simp [guOutput, h]

theorem finishRuns_idle {e : Engine} {g : Nat} (h : (e.gu g).runs = []) (k : Nat) : e.finishRuns g k = e := by
  cases k <;> simp [finishRuns, h]

theorem guOutput_idle {e : Engine} {g : Nat} (h : (e.gu g).runs = []) (hopen : e.job.closing = false) : e.guOutput g = e := by
  unfold guOutput
  simp [finishRuns_idle h, h, jobCheck_open hopen]

theorem finishRuns_goesOn {e : Engine} {g : Nat} {r : GuRun} {rest : List GuRun} (h : (e.gu g).runs = r :: rest) (hgoes : e.runOver g r = false) (k : Nat) :
    e.finishRuns g k = e := by
  cases k <;> simp [finishRuns, h, hgoes]

/-- A frame that has not closed goes on while the stream it feeds runs (R133). -/
theorem runOver_unended {e : Engine} {g n c : Nat} {r : GuRun} (hlast : r.last = none) (hfed : r.streams = [(n, c)]) (hruns : (e.stream n).running = true) :
    e.runOver g r = false := by
  simp [runOver, hlast, hfed, hruns]

/-! ### The line that a stream takes -/

/-- The place in STAGE after a stream's previous line, which ends at p. -/
def stageAfter (e : Engine) (p : Nat) : Nat := p % max 1 (e.rd R.QDR_STAGE_SIZE.V)

/-- Output line o, line c of its page, as it waits in STAGE for its bursts. -/
def stagedLine (e : Engine) (n : Nat) (o : OutLine) (page c p : Nat) : StageLine :=
  ⟨e.formatLine n o c page, o.index, page, c == e.rd (R.STR_YCROP.FIRST n), false,
   (e.planesOf n).any fun q => (o.tags.getD q LineFlags.clear).subst || (o.tags.getD q LineFlags.clear).poison || (o.tags.getD q LineFlags.clear).tapFault,
   false, false, e.stageAfter p, c⟩

/-- A stream with the line in its STAGE list. -/
def lineStaged (e : Engine) (n : Nat) (o : OutLine) (page c p : Nat) (x : Stream) : Stream :=
  { x with seen := c + 1, place := some (e.stageAfter p + (e.formatLine n o c page).length), stage := x.stage ++ [e.stagedLine n o page c p] }

/-- The bursts that write the line. -/
def raiseLine (e : Engine) (n : Nat) (o : OutLine) (page c p : Nat) (x : Engine) : Engine :=
  x.raiseStage true (e.stageAfter p) (e.formatLine n o c page).length ((e.formatLine n o c page).map some) (.stage n (e.stageAfter p))

/-- The run of a unit once the line is made. -/
def runAfter (r : GuRun) (n c : Nat) : GuRun := { r with out := r.out + 1, streams := [(n, c + 1)] }

/-- A unit with its first run gone on: the aligned lines that no run needs leave its history. -/
def unitAfter (e : Engine) (g : Nat) (r : GuRun) (rest : List GuRun) (u : GuSt) : GuSt :=
  { u with
    runs := r :: rest
    hist := u.hist.filter fun l => decide (rest.foldl (fun m q => min m (e.runNeeds g q)) (e.runNeeds g r) ≤ (l.index : Int)) || u.ended == some l.index }

/-- The line made: it stands in the stream's STAGE list, the unit has gone on, the bursts are raised. -/
def lineMade (e : Engine) (g n : Nat) (r : GuRun) (rest : List GuRun) (c p : Nat) (o : OutLine) : Engine :=
  e.raiseLine n o r.page c p ((e.modStream n (e.lineStaged n o r.page c p)).modGu g (e.unitAfter g (runAfter r n c) rest))

section
variable (e : Engine) (g n : Nat) (r : GuRun) (rest : List GuRun) (c p : Nat) (o : OutLine)

theorem streams_lineMade : (e.lineMade g n r rest c p o).streams = modAt e.streams n (e.lineStaged n o r.page c p) := by
  rw [lineMade, raiseLine, raiseStage_only]
  rfl

theorem gus_lineMade : (e.lineMade g n r rest c p o).gus = modAt e.gus g (e.unitAfter g (runAfter r n c) rest) := by
  rw [lineMade, raiseLine, raiseStage_only]
  rfl

theorem job_lineMade : (e.lineMade g n r rest c p o).job = e.job := by
  rw [lineMade, raiseLine, raiseStage_only]
  rfl

/-- Beside the streams and the units only the bursts change anything. -/
theorem lineMade_raises : e.lineMade g n r rest c p o = e.raiseLine n o r.page c p
    { e with streams := (e.lineMade g n r rest c p o).streams, gus := (e.lineMade g n r rest c p o).gus } := by
  rw [streams_lineMade, gus_lineMade]
  rfl

end

/-- Unit g can make its next line o, line c of its page for stream n alone, whose previous line ends at p; the stream takes it. -/
structure LineReady (e : Engine) (g n : Nat) (r : GuRun) (rest : List GuRun) (c p : Nat) (o : OutLine) : Prop where
  awake : e.resetting = none
  live : e.stagingLive = true
  free : e.unitHeld g = false
  place : (e.stream n).place = some p
  runs : (e.gu g).runs = r :: rest
  unended : r.last = none
  fresh : r.resumed = false
  fed : r.streams = [(n, c)]
  line : e.outLine g r = some o
  running : (e.stream n).running = true
  taken : e.takesLine n o = true
  begun : e.rd (R.STR_YCROP.FIRST n) ≤ c
  uncropped : e.rd (R.STR_YCROP.COUNT n) = 0
  jobOpen : e.job.closing = false

section
variable {e : Engine} {g n : Nat} {r : GuRun} {rest : List GuRun} {c p : Nat} {o : OutLine} (h : e.LineReady g n r rest c p o)
include h

theorem LineReady.streamLine_eq : e.streamLine n o r.page c = (e.raiseLine n o r.page c p (e.modStream n (e.lineStaged n o r.page c p)), c + 1) := by
  have hcrop : ¬ (c < e.rd (R.STR_YCROP.FIRST n) ∨ e.rd (R.STR_YCROP.COUNT n) ≠ 0 ∧
      e.rd (R.STR_YCROP.FIRST n) + e.rd (R.STR_YCROP.COUNT n) ≤ c) := by
    have hbegun := h.begun
    have huncropped := h.uncropped
    omega
  have hlast : (e.rd (R.STR_YCROP.COUNT n) != 0 && c + 1 == e.rd (R.STR_YCROP.FIRST n) + e.rd (R.STR_YCROP.COUNT n)) = false := by
    simp [h.uncropped]
  unfold streamLine
  simp only [h.running, h.taken, Bool.not_true, Bool.or_self, Bool.false_eq_true, if_false, if_neg hcrop, hlast, h.place, h.live, if_true, List.any_map]
  rfl

theorem LineReady.unit_lt : g < e.gus.length :=
  lt_length_of_getD_ne (d := GuSt.init) fun hinit => by simpa [GuSt.init] using (congrArg GuSt.runs hinit).symm.trans h.runs

theorem LineReady.stream_lt : n < e.streams.length :=
  lt_length_of_getD_ne (d := Stream.init) fun hinit => by simpa [Stream.init] using (congrArg Stream.place hinit).symm.trans h.place

/-- The frame goes on, and so does the job. -/
theorem LineReady.lineMade_settled : ((e.lineMade g n r rest c p o).finishRuns g 16).jobCheck = e.lineMade g n r rest c p o := by
  have hruns : ((e.lineMade g n r rest c p o).gu g).runs = runAfter r n c :: rest := by
    rw [gu, gus_lineMade, getD_modAt_same h.unit_lt]
    rfl
  have hrunning : ((e.lineMade g n r rest c p o).stream n).running = true := by
    rw [stream, streams_lineMade, getD_modAt_same h.stream_lt]
    exact h.running
  rw [finishRuns_goesOn hruns (runOver_unended (r := runAfter r n c) h.unended rfl hrunning), jobCheck_open (by rw [job_lineMade]; exact h.jobOpen)]

theorem LineReady.guOutput_eq : e.guOutput g = e.lineMade g n r rest c p o := by
  have hgoes := finishRuns_goesOn h.runs (runOver_unended h.unended h.fed h.running) 16
  have hfresh : (r.resumed && e.confirmedBefore n r.page c) = false := by simp [h.fresh]
  have hraised : (e.raiseLine n o r.page c p (e.modStream n (e.lineStaged n o r.page c p))).modGu g (e.unitAfter g (runAfter r n c) rest) =
      e.lineMade g n r rest c p o := (raiseStage_modGu ..).symm
  unfold guOutput
  simp only [h.awake, h.free, Option.isSome_none, Bool.or_self, Bool.false_eq_true, if_false, hgoes, h.runs, h.line, h.fed, hfresh, List.foldl_cons,
    List.foldl_nil, h.streamLine_eq, List.nil_append]
  rw [← h.lineMade_settled, ← hraised]
  rfl

end

/-! ### The commit of a line -/

/-- The stream's oldest line that is still being written is complete in STAGE. -/
def commitLine (e : Engine) (n : Nat) (l : StageLine) : Engine :=
  (((e.count (R.STR_LINES.V n) 1).docBytes (e.sideOf n) l.page l.bytes.length).noteCommit (e.sideOf n) l.index).modStream n fun x =>
    { x with stage := execStageLineCommit.mark x.stage }

/-- STAGE_LINE_COMMIT of a stream. -/
def stageCommit (e : Engine) (n : Nat) : Engine :=
  match (e.stream n).stage.find? fun l => !l.committed with
  | some l => if !e.stagingLive || e.resetting.isSome || e.standing (fun w => w == .stage n l.place) then e else e.commitLine n l
  | none => e

section
variable {e : Engine} {n : Nat} {l : StageLine} (h : ((e.stream n).stage.find? fun x => !x.committed) = some l)
include h

theorem stageCommit_through (hlive : e.stagingLive = true) (hr : e.resetting = none) (hthrough : e.standing (fun w => w == .stage n l.place) = false) :
    e.stageCommit n = e.commitLine n l := by
  simp [stageCommit, h, hlive, hr, hthrough]

theorem stageCommit_waits (hwaits : e.standing (fun w => w == .stage n l.place) = true ∨ e.stagingLive = false) : e.stageCommit n = e := by
  rcases hwaits with hstands | hhalt
  · simp [stageCommit, h, hstands]
  · simp [stageCommit, h, hhalt]

theorem stream_lt_of_staged : n < e.streams.length :=
  lt_length_of_getD_ne (d := Stream.init) fun hinit => by
    have hnone : (Stream.init.stage.find? fun x => !x.committed) = some l := hinit ▸ h
    simp [Stream.init] at hnone

theorem stage_commitLine : ((e.commitLine n l).stream n).stage = execStageLineCommit.mark (e.stream n).stage :=
  congrArg Stream.stage (getD_modAt_same (stream_lt_of_staged h) _ _)

end

theorem commitLine_onlyRegs (e : Engine) (n : Nat) (l : StageLine) :
    ({ e with streams := (e.commitLine n l).streams, eddy := (e.commitLine n l).eddy, feed := (e.commitLine n l).feed } : Engine).onlyRegs (e.commitLine n l)
      [(R.STR_LINES.V n).off] :=
  ⟨rfl, fun _ ho => word_wr_ne e _ fun h => ho (List.mem_singleton.mpr h)⟩

/-- A commit changes no byte of a line. -/
theorem bytes_mark (l : List StageLine) : (execStageLineCommit.mark l).map (fun x => x.bytes) = l.map fun x => x.bytes := by
  induction l with
  | nil => rfl
  | cons x t ih =>
    rw [execStageLineCommit.mark]
    split
    · simp [ih]
    · rfl

/-- It marks the line after those that are committed. -/
theorem committed_mark (l : List StageLine) : (execStageLineCommit.mark l).map (fun x => x.committed) =
    modAt (l.map fun x => x.committed) (l.takeWhile fun x => x.committed).length fun _ => true := by
  induction l with
  | nil => rfl
  | cons x t ih =>
    rw [execStageLineCommit.mark]
    split
    next hx => simp [hx, ih, modAt]
    next hx => simp [hx, modAt]

end Engine

/-! ### The commands -/

theorem exec_guOutputLine (g : Fin 8) (s : State) : exec (.guOutputLine g) s = .next (s.onEng fun e => e.guOutput g.val) := rfl

theorem exec_stageLineCommit (n : StreamIx) (s : State) : exec (.stageLineCommit n) s = .next (s.onEng fun e => e.stageCommit n.val) := rfl

end Sys2Proof.Machine
end

section
/-!
PROOFS. The end of pages (R29, R84, R153 to R155, R270): the geometry of the oldest closed frame; the PAGE_END of a page of which no line is held, with GEO_RES and
the payload that carry the block.
-/

namespace Sys2Proof.Machine

/-! ### A block as a payload -/

/-- Bytes put one after the other from a place on stand there. -/
theorem foldl_putBytes_bytewise (l : List Byte) (off k : Nat) {a z : List Byte} (ha : a.length = off + k) (hz : z.length = l.length) :
    ((l.zipIdx k).map fun (b, i) => ((off + i, 1, b.toNat) : LayField)).foldl (fun x f => putBytes x f.1 (leBytes f.2.1 f.2.2)) (a ++ z) = a ++ l := by
  induction l generalizing k a z with
  | nil => rw [List.eq_nil_of_length_eq_zero hz]; rfl
  | cons b t ih =>
    obtain ⟨y, z, rfl⟩ := List.exists_cons_of_length_eq_add_one hz
    have hput : putBytes (a ++ y :: z) (off + k) (leBytes 1 b.toNat) = (a ++ [b]) ++ z := by
      simp [putBytes, leBytes, ← ha]
    rw [List.zipIdx_cons, List.map_cons, List.foldl_cons]
    dsimp only
    rw [hput, ih (k + 1) (by simp [ha, Nat.add_assoc]) (by simpa using hz), List.append_assoc, List.singleton_append]

/-- The 40 bytes of an event after its header are those laid there one by one. -/
theorem layBytes_bytewise {l : List Byte} (h : l.length = 40) : (layBytes 64 (l.zipIdx.map fun (b, i) => (24 + i, 1, b.toNat))).drop 24 = l := by
  have hz : List.replicate 64 (0 : Byte) = List.replicate 24 0 ++ List.replicate 40 0 := rfl
  rw [layBytes, hz, foldl_putBytes_bytewise l 24 0 (by simp) (by simp [h])]
  exact List.drop_left' (by simp)

namespace Engine

theorem pageBlock_length (p : Page) {l : List Byte} (h : l.length = 40) : (pageBlock p l).length = 40 := by
  simp [pageBlock, leBytes_length, h]

/-! ### The geometry of a closed frame -/

/-- The page of the frame takes its block, and the detector forgets the frame and the documents that end with it. -/
def geometryTaken (e : Engine) (s no last : Nat) (rest : List (Nat × Nat × Nat × Int)) (block : List Byte) : Engine :=
  ((e.modFrame s fun x =>
    { x with pages := x.pages.map fun q => if q.no = no ∧ q.closed ∧ q.geometry.isNone then { q with geometry := some block } else q }).modGeo s fun g =>
    { g with busy := rest, docs := g.docs.filter fun d => match d.nte with | some t => decide (last < t) | none => true }).wr
    (R.GEO_STATUS.BUSY s) (b2n !rest.isEmpty)

theorem geometryDone_eq {e : Engine} {s no first last : Nat} {back : Int} {rest : List (Nat × Nat × Nat × Int)} {p : Page}
    (hbusy : (e.geoSide s).busy = (no, first, last, back) :: rest)
    (hpage : ((e.frameSide s).pages.find? fun q => q.no == no && q.closed && q.geometry.isNone) = some p) :
    e.geometryDone s = e.geometryTaken s no last rest (e.geoBlock s p first last back) := by
  unfold geometryDone
  rw [hbusy]
  dsimp only
  rw [hpage]
  rfl

/-- With the detector off the block holds OFF and CAL_OVERLAP alone (R154). -/
theorem geoBlock_off {e : Engine} {s : Nat} (hoff : e.on (R.GEO_CTRL.EN s) = false) (p : Page) (first last : Nat) (back : Int) :
    e.geoBlock s p first last back = layBytes 40 [(16, 2, 256 * b2n p.overlap + 2048)] := by
  simp [geoBlock, hoff, overlapFlag]

section
variable (e : Engine) (s no last : Nat) (rest : List (Nat × Nat × Nat × Int)) (block : List Byte)

theorem geometryTaken_busy :
    (e.geometryTaken s no last rest block).rd (R.GEO_STATUS.BUSY s) = b2n !rest.isEmpty :=
  rd_wr_lt _ ⟨Nat.le_refl 30, Nat.lt_of_succ_lt (Nat.lt_succ_self 31)⟩ (b2n_lt_two _)

theorem geometryTaken_onlyRegs :
    ({ e with frames := (e.geometryTaken s no last rest block).frames, geo := (e.geometryTaken s no last rest block).geo } : Engine).onlyRegs
      (e.geometryTaken s no last rest block) [(R.GEO_STATUS.BUSY s).off] :=
  ⟨rfl, fun _ ho => word_wr_ne _ _ fun h => ho (List.mem_singleton.mpr h)⟩

end

/-! ### What waits on a page, where nothing does -/

theorem deferCal_idle {e : Engine} (h : e.on R.CAL_STATUS.PENDING = false) : e.deferCal = e := by
  simp [deferCal, h]

theorem flushDone_empty {e : Engine} {n : Nat} (h : (e.stream n).bufs = []) (k : Nat) : e.flushDone n k = e := by
  cases k <;> simp [flushDone, h]

/-- With no command open and the stream as it was, its commands stand. -/
theorem streamCmds_idle {e : Engine} (h : e.opens = []) (n : Nat) : e.streamCmds n (e.stream n) = e := by
  simp [streamCmds, checkStop, h]

theorem settleStreams_idle {e : Engine} (hbufs : ∀ n : Fin 16, (e.stream n.val).bufs = []) (hopens : e.opens = []) : e.settleStreams = e := by
  have hflushed : (upTo 16).foldl (fun x n => x.flushDone n 1025) e = e :=
    foldl_eq_self fun n hn => flushDone_empty (hbufs ⟨n, List.mem_range.mp hn⟩) 1025
  unfold settleStreams
  rw [hflushed]
  exact foldl_eq_self fun n _ => streamCmds_idle hopens n

/-! ### PAGE_END -/

/-- GEO_RES of a side takes a block. -/
def resultShown (e : Engine) (s : Nat) (block : List Byte) : Engine := (upTo 10).foldl (fun x k => x.wr (R.GEO_RES.V s k) (leAt block (4 * k) 4)) e

/-- The oldest page of a side leaves it. -/
def pageLeft (e : Engine) (s : Nat) (rest : List Page) : Engine := e.modFrame s fun x => { x with pages := rest }

/-- PAGE_END with its block, before what waits on it goes on. -/
def pageTold (e : Engine) (s : Nat) (p : Page) (rest : List Page) (block : List Byte) : Engine :=
  ((e.resultShown s block).pageLeft s rest).emit 0x04 s 0 p.no none (block.zipIdx.map fun (b, i) => (24 + i, 1, b.toNat))

theorem resultShown_onlyRegs (e : Engine) (s : Nat) (block : List Byte) :
    e.onlyRegs (e.resultShown s block) ((upTo 10).map fun k => (R.GEO_RES.V s k).off) :=
  foldl_onlyRegs (fun x k hk => wr_onlyRegs (f := R.GEO_RES.V s k) x _ (off_mem (fun k => (R.GEO_RES.V s k).off) (List.mem_range.mp hk))) e

theorem resultShown_rd (e : Engine) (s : Nat) (block : List Byte) (k : Fin 10) :
    (e.resultShown s block).rd (R.GEO_RES.V s k.val) = leAt block (4 * k.val) 4 := by
  have hset (x : Engine) : (x.wr (R.GEO_RES.V s k.val) (leAt block (4 * k.val) 4)).rd (R.GEO_RES.V s k.val) = leAt block (4 * k.val) 4 :=
    rd_wr_lt x ⟨Nat.zero_le 31, Nat.lt_succ_self 31⟩ (leAt_lt block _ 4)
  have hkeep (x : Engine) (j : Nat) (hj : j ≠ k.val) : (x.wr (R.GEO_RES.V s j) (leAt block (4 * j) 4)).rd (R.GEO_RES.V s k.val) =
      x.rd (R.GEO_RES.V s k.val) := rd_wr_ne x _ (by dsimp only; omega)
  exact foldl_puts (fun x : Engine => x.rd (R.GEO_RES.V s k.val)) (List.mem_range.mpr k.isLt) List.nodup_range hset (fun x j _ => hkeep x j) e

theorem onlyRegs_pageLeft {e x : Engine} {offs : List Nat} (h : e.onlyRegs x offs) (s : Nat) (rest : List Page) :
    (e.pageLeft s rest).onlyRegs (x.pageLeft s rest) offs := by
  refine ⟨?_, h.2⟩
  conv_lhs => rw [h.1]
  rfl

theorem pageLeft_onlyRegs (e : Engine) (s : Nat) (rest : List Page) (block : List Byte) :
    (e.pageLeft s rest).onlyRegs ((e.resultShown s block).pageLeft s rest) ((upTo 10).map fun k => (R.GEO_RES.V s k).off) :=
  onlyRegs_pageLeft (e.resultShown_onlyRegs s block) s rest

/-- PAGE_END changes the frames, GEO_RES and the books. -/
theorem pageTold_books (e : Engine) (s : Nat) (p : Page) (rest : List Page) (block : List Byte) :
    (e.pageLeft s rest).onlyBooks (e.pageTold s p rest block) ((upTo 10).map fun k => (R.GEO_RES.V s k).off) :=
  onlyBooks_trans (onlyBooks_of_onlyRegs (e.pageLeft_onlyRegs s rest block)) (emit_books ..)

theorem evt_pageLeft (e : Engine) (s : Nat) (rest : List Page) (block : List Byte) : ((e.resultShown s block).pageLeft s rest).evt = e.evt := by
  rw [(e.pageLeft_onlyRegs s rest block).1]
  rfl

section
variable {e : Engine} {s : Nat} {p : Page} {rest : List Page} {block : List Byte}

/-- With room PAGE_END changes no register but GEO_RES and the level of EVT. -/
theorem pageTold_rd (hq : e.evt.queue.length < 255) {f : Fld} (hf : f.off ≠ (R.QUE_LEVEL.LEVEL 64).off) :
    (e.pageTold s p rest block).rd f = (e.resultShown s block).rd f := by
  unfold pageTold emit
  rw [emitBk_rd _ (by rw [evt_pageLeft]; omega) _ _ _ _ _ _ _ f hf]
  exact rd_congr (modFrame_regs ..) f

theorem pageTold_opens (hq : e.evt.queue.length < 255) : (e.pageTold s p rest block).opens = e.opens := by
  refine (emitBk_opens ((e.resultShown s block).pageLeft s rest) (by rw [evt_pageLeft]; omega) ..).trans ?_
  rw [(e.pageLeft_onlyRegs s rest block).1]
  rfl

theorem pageTold_streams : (e.pageTold s p rest block).streams = e.streams := by
  rw [(e.pageTold_books s p rest block).1]
  rfl

theorem pageTold_job : (e.pageTold s p rest block).job = e.job := by
  rw [(e.pageTold_books s p rest block).1]
  rfl

theorem pageTold_told (hr : e.resetting = none) (hf : e.pins.failed = false) : (e.pageTold s p rest block).told 0x04 s 0 none p.no := by
  have honly := (e.pageLeft_onlyRegs s rest block).1
  exact emit_told _ (by rw [honly]; exact hr) (by rw [honly]; exact hf) ..

/-- The payload of PAGE_END is the block. -/
theorem pageTold_payload (hr : e.resetting = none) (hf : e.pins.failed = false) (hlen : block.length = 40) :
    (e.pageTold s p rest block).evt.queue.getLast?.map (fun v => v.payload) = some block := by
  have honly := (e.pageLeft_onlyRegs s rest block).1
  exact (emit_toldBytes _ (by rw [honly]; exact hr) (by rw [honly]; exact hf) ..).trans (congrArg some (layBytes_bytewise hlen))

end

theorem pageEnds_eq {e : Engine} {s : Nat} {p : Page} {rest : List Page} {l : List Byte} (hpages : (e.frameSide s).pages = p :: rest)
    (hgeo : p.geometry = some l) (hheld : e.pageHeld s p.no = false) (hrendered : e.pageRendering s p.no = false) :
    e.pageEnds s = (e.pageTold s p rest (pageBlock p l)).deferCal.settleStreams := by
  unfold pageEnds
  simp only [hpages, hgeo, hheld, hrendered, Bool.or_self, Bool.false_eq_true, if_false]
  rfl

/-- With no request of a calibration, no buffer and no command that waits on the page, PAGE_END is all. -/
theorem pageEnds_jobCheck {e : Engine} {i : Side} {p : Page} {rest : List Page} {l : List Byte} (hpages : (e.frameSide i.val).pages = p :: rest)
    (hgeo : p.geometry = some l) (hheld : e.pageHeld i.val p.no = false) (hrendered : e.pageRendering i.val p.no = false)
    (hopen : e.job.closing = false) (hcal : e.on R.CAL_STATUS.PENDING = false) (hbufs : ∀ n : Fin 16, (e.stream n.val).bufs = []) (hopens : e.opens = [])
    (hq : e.evt.queue.length < 255) : (e.pageEnds i.val).jobCheck = e.pageTold i.val p rest (pageBlock p l) := by
  have hpending : (e.pageTold i.val p rest (pageBlock p l)).on R.CAL_STATUS.PENDING = false := by
    rw [on, pageTold_rd hq (by decide), onlyRegs_rd (e.resultShown_onlyRegs i.val (pageBlock p l)) (off_notMem fun k _ => by dsimp only; omega)]
    exact hcal
  have hstill (n : Fin 16) : ((e.pageTold i.val p rest (pageBlock p l)).stream n.val).bufs = [] := by
    rw [stream, pageTold_streams]
    exact hbufs n
  rw [pageEnds_eq hpages hgeo hheld hrendered, deferCal_idle hpending, settleStreams_idle hstill (by rw [pageTold_opens hq]; exact hopens),
    jobCheck_open (by rw [pageTold_job]; exact hopen)]

end Engine

/-! ### The commands -/

theorem exec_pageGeometryDone (i : Side) (s : State) : exec (.pageGeometryDone i) s = .next (s.onEng fun e => e.geometryDone i.val) := rfl

theorem exec_pageEnd (i : Side) (s : State) : exec (.pageEnd i) s = .next (s.onEng fun e => (e.pageEnds i.val).jobCheck) := rfl

/-- Settles O37: a unit's line is raised towards STAGE and stands last in its stream's list, a line whose bursts are through is marked committed, and a page whose
geometry is complete ends once nothing of it is held. -/
theorem outputLinesAndPages : Obligations.OutputLinesAndPages := by
  unfold Obligations.OutputLinesAndPages
  refine ⟨?line, ?held, ?idle, ?commit, ?waiting, ?geometry, ?page⟩
  case line =>
    intro g n r rest c p o s hawake hlive hfree hplace hruns hunended hfresh hfed hline hrunning htaken hbegun huncropped hopen
    have hready : s.eng.LineReady g.val n.val r rest c p o :=
      ⟨hawake, hlive, hfree, hplace, hruns, hunended, hfresh, hfed, hline, hrunning, htaken, hbegun, huncropped, hopen⟩
    refine ⟨_, exec_guOutputLine g s, s.onEng_engineOnly _, ?_⟩
    rw [State.onEng_eng, hready.guOutput_eq]
    refine ⟨Engine.streams_lineMade .., ?_, fun k hk => ?_, Engine.lineMade_raises ..⟩
    · rw [Engine.gu, Engine.gus_lineMade, getD_modAt_same hready.unit_lt]
      rfl
    · rw [Engine.gu, Engine.gus_lineMade, getD_modAt_ne _ (Fin.val_ne_of_ne hk)]
      rfl
  case held =>
    intro g s hheld
    exact ⟨_, exec_guOutputLine g s, s.onEng_engineOnly _, Engine.guOutput_held hheld⟩
  case idle =>
    intro g s hruns hopen
    exact ⟨_, exec_guOutputLine g s, s.onEng_engineOnly _, Engine.guOutput_idle hruns hopen⟩
  case commit =>
    intro n l s hl hlive hr hthrough
    refine ⟨_, exec_stageLineCommit n s, s.onEng_engineOnly _, ?_⟩
    rw [State.onEng_eng, Engine.stageCommit_through hl hlive hr hthrough, Engine.stage_commitLine hl]
    exact ⟨Engine.rd_count_same (f := R.STR_LINES.V n.val) s.eng ⟨Nat.zero_le 31, Nat.lt_succ_self 31⟩ 1, Engine.bytes_mark _, Engine.committed_mark _,
      fun k hk => getD_modAt_ne _ (Fin.val_ne_of_ne hk) _ _, rfl, rfl, s.eng.commitLine_onlyRegs n.val l⟩
  case waiting =>
    intro n l s hl hwaits
    exact ⟨_, exec_stageLineCommit n s, s.onEng_engineOnly _, Engine.stageCommit_waits hl hwaits⟩
  case geometry =>
    intro i no first last back rest p s hbusy hpage
    refine ⟨_, exec_pageGeometryDone i s, s.onEng_engineOnly _, ?_⟩
    rw [State.onEng_eng, Engine.geometryDone_eq hbusy hpage]
    exact ⟨rfl, fun hoff => by rw [Engine.geoBlock_off hoff]; rfl, Engine.geometryTaken_busy .., rfl, Engine.geometryTaken_onlyRegs ..⟩
  case page =>
    intro i p rest l s hpages hgeo hheld hrendered hlen hopen hcal hbufs hopens hhears
    obtain ⟨⟨hr, hf⟩, -, hq⟩ := hhears
    refine ⟨_, exec_pageEnd i s, s.onEng_engineOnly _, ?_⟩
    rw [State.onEng_eng, Engine.pageEnds_jobCheck hpages hgeo hheld hrendered hopen hcal hbufs hopens hq]
    refine ⟨fun k => ?_, Engine.pageTold_told hr hf, Engine.pageTold_payload hr hf (Engine.pageBlock_length p hlen), s.eng.pageTold_books ..⟩
    rw [Engine.pageTold_rd hq (by dsimp only; omega), Engine.resultShown_rd]
    rfl

end Sys2Proof.Machine
end

section
/-!
PROOFS. What the commands of transport share (R83, R176, R186, R340): frames that a change of a block before them leaves standing, a gap calibration given up, a
change of mode within a job, the begin of a Lull.
-/

namespace Sys2Proof.Machine

namespace Engine

/-! ### Frames -/

/-- A change that no register enters, before register writes or after them, is the same. -/
theorem onlyRegs_map {e x : Engine} {offs : List Nat} (h : e.onlyRegs x offs) {f : Engine → Engine}
    (hf : ∀ (y : Engine) r, f { y with regs := r } = { f y with regs := r }) : (f e).onlyRegs (f x) offs := by
  obtain ⟨hx, hw⟩ := h
  have hregs (y : Engine) : (f y).regs = y.regs := (congrArg Engine.regs (hf y y.regs) :)
  refine ⟨?_, fun off ho => ?_⟩
  · rw [hregs]
    conv_lhs => rw [hx, hf]
  · rw [word_congr (hregs x), word_congr (hregs e), hw off ho]

/-- A change that neither the registers nor events nor answers enter, before events and answers or after them, is the same. -/
theorem onlyBooks_map {e x : Engine} {offs : List Nat} (h : e.onlyBooks x offs) {f : Engine → Engine}
    (hf : ∀ (y : Engine) r v o p, f { y with regs := r, evt := v, opens := o, pair := p } = { f y with regs := r, evt := v, opens := o, pair := p }) :
    (f e).onlyBooks (f x) offs := by
  obtain ⟨hx, hw⟩ := h
  have hself (y : Engine) := hf y y.regs y.evt y.opens y.pair
  have hregs (y : Engine) : (f y).regs = y.regs := (congrArg Engine.regs (hself y) :)
  have hevt (y : Engine) : (f y).evt = y.evt := (congrArg Engine.evt (hself y) :)
  have hopens (y : Engine) : (f y).opens = y.opens := (congrArg Engine.opens (hself y) :)
  have hpair (y : Engine) : (f y).pair = y.pair := (congrArg Engine.pair (hself y) :)
  refine ⟨?_, fun off hb ho => ?_⟩
  · rw [hregs, hevt, hopens, hpair, hpair]
    conv_lhs => rw [hx, hf]
  · rw [word_congr (hregs x), word_congr (hregs e), hw off hb ho]

/-- What a frame says of the blocks that the pacer's commands change. -/
theorem onlyBooks_blocksSet {e x : Engine} {m : Mode} {p : PacerSt} {f : FeedSt} {c : CalSt} {offs : List Nat}
    (h : ({ e with mode := m, pac := p, feed := f, cal := c } : Engine).onlyBooks x offs) : x.mode = m ∧ x.pac = p ∧ x.feed = f ∧ x.cal = c := by
  rw [h.1]
  exact ⟨rfl, rfl, rfl, rfl⟩

/-! ### A gap calibration given up (R83) -/

/-- The registers that giving up a gap calibration changes. -/
abbrev gapOffs : List Nat := [R.CAL_STATUS.word.off, R.CAL_ABANDON_CNT.V.off]

theorem gapAbandon_onlyRegs (e : Engine) : ({ e with cal := e.gapAbandon.cal } : Engine).onlyRegs e.gapAbandon gapOffs := by
  unfold gapAbandon
  split
  · exact onlyRegs_wr (wr_onlyRegs _ _ (by simp)) (by simp) _
  · exact e.onlyRegs_refl _

theorem gapAbandon_idle {e : Engine} (h : e.cal.gapStart = none) : e.gapAbandon = e := by
  unfold gapAbandon
  rw [h]

/-! ### A change of mode within a job (R340) -/

/-- The module has entered a mode, a running gap calibration given up. -/
def entered (e : Engine) (m : Mode) : Engine := { e.gapAbandon with mode := m }

theorem changeMode_eq {e : Engine} {m : Mode} (hjob : m = .m6 ∨ m = .m7 ∨ m = .m8 ∨ m = .m9) (hne : m ≠ e.mode) (cause : Nat) (hs : Option Nat) :
    e.changeMode m cause hs = (e.entered m).emit 0x15 m.idx 0 (e.mode.idx + 256 * cause) hs [] := by
  unfold changeMode
  rw [if_neg hne]
  rcases hjob with rfl | rfl | rfl | rfl <;> simp [entered, Mode.idx]

theorem entered_onlyRegs (e : Engine) (m : Mode) : ({ e with mode := m, cal := e.gapAbandon.cal } : Engine).onlyRegs (e.entered m) gapOffs :=
  onlyRegs_map e.gapAbandon_onlyRegs (f := fun y => { y with mode := m }) fun _ _ => rfl

/-! ### The begin of a Lull (R176, R177) -/

/-- AX0 begins to stop for a cause, and the gate closes. -/
def lullBegun (e : Engine) (bit : Nat) : Engine :=
  { e with
    pac := { e.pac with causes := e.pac.causes ||| bit, st := .decel, lullSpeed := e.vMicron.toNat, exitSince := none }
    feed := { e.feed with gate := false } }

theorem lullBegin_run {e : Engine} (hsquall : e.squall = none) (hgap : e.gapMode = false) (hrun : e.pac.st = .run) (bit : Nat) :
    e.lullBegin bit = (e.lullBegun bit).gapAbandon := by
  have hstop : (e.pac.stopping || PacState.run == PacState.stopping) = e.pac.stopping := by cases e.pac.stopping <;> rfl
  unfold lullBegin
  rw [if_neg (by simp [hsquall, hgap])]
  simp only [hrun, hstop]
  rfl

end Engine
end Sys2Proof.Machine
end

section
/-!
PROOFS. FEED, HOLD and RESUME (R177, R186, R262).
-/

namespace Sys2Proof.Machine

namespace Engine

/-- Documents join those to feed. -/
def fedMore (e : Engine) (count pattern : Nat) : Engine :=
  { e with feed := { e.feed with pend := e.feed.pend + count, patterns := e.feed.patterns ++ [(count, pattern)] } }

/-- FEED starts a job that does not run yet. -/
theorem cmdFeed_eq {e : Engine} {h : CmdHdr} (ha : e.accepts h 0x04 [6, 7, 8]) (hopen : e.job.isOpen = true) (hclosing : e.job.closing = false)
    (hfeed : e.on R.PAC_CTRL.FEED_EN = true) (count pattern : Nat) : e.cmdFeed h count pattern =
      (if e.mode = .m6 then (e.fedMore count pattern).startRun none else e.fedMore count pattern).complete h 0x04 stOk [] := by
  unfold cmdFeed
  rw [command_accepts ha]
  simp only [hopen, hclosing, hfeed]
  rfl

/-- A job that starts to run is in M7 with the pacer in RUN. -/
theorem startRun_books {e : Engine} (h6 : e.mode = .m6) :
    ({ e with mode := .m7, pac := { e.pac with st := .run }, cal := e.gapAbandon.cal } : Engine).onlyBooks (e.startRun none) gapOffs := by
  have hpac : e.gapAbandon.pac = e.pac := by rw [e.gapAbandon_onlyRegs.1]
  unfold startRun
  rw [changeMode_eq (by decide) (by rw [h6]; decide)]
  refine onlyBooks_trans (onlyBooks_trans ?_ (onlyBooks_map (emit_books (e.entered .m7) 0x15 7 0 (e.mode.idx + 256 * 4) none [] gapOffs)
    (f := fun y => y.setPac .run) fun _ _ _ _ _ => rfl)) (finishAll_books ..)
  exact onlyBooks_of_onlyRegs (onlyRegs_map (e.entered_onlyRegs .m7) (f := fun y => y.setPac .run) fun _ _ => rfl)

/-- HOLD with KIND 1 asks for a gap stop. -/
theorem cmdHold_gap {e : Engine} {h : CmdHdr} (ha : e.accepts h 0x05 [7, 8]) (hrun : e.pac.st = .run) : e.cmdHold h 1 =
    ({ e with pac := { e.pac with holdGap := true }, feed := { e.feed with gate := false } } : Engine).openCmd h 0x05 (.holdRest true) := by
  unfold cmdHold
  rw [decide_eq_true (Nat.le_refl 1), command_accepts ha]
  simp [hrun, closeGate]

/-- HOLD with KIND 0 in LULL mode begins a Lull. -/
theorem cmdHold_lull {e : Engine} {h : CmdHdr} (ha : e.accepts h 0x05 [7, 8]) (hgap : e.gapMode = false) (hsquall : e.squall = none) (h7 : e.mode = .m7)
    (hrun : e.pac.st = .run) : e.cmdHold h 0 =
      ((({ e with pac := { e.pac with holdLull := true } } : Engine).lullBegun 2).gapAbandon).openCmd h 0x05 (.holdRest false) := by
  have hlull := lullBegin_run (e := { e with pac := { e.pac with holdLull := true } }) hsquall hgap hrun 2
  have hmode : ((({ e with pac := { e.pac with holdLull := true } } : Engine).lullBegun 2).gapAbandon).mode = .m7 := by
    rw [(gapAbandon_onlyRegs _).1]
    exact h7
  unfold cmdHold
  rw [decide_eq_true (Nat.zero_le 1), command_accepts ha]
  simp [hgap, hlull, hmode]

/-- RESUME takes both holds away. -/
def unheld (e : Engine) : Engine := { e with pac := { e.pac with holdLull := false, holdGap := false } }

theorem cmdResume_eq {e : Engine} {h : CmdHdr} (ha : e.accepts h 0x06 [7, 8]) (hheld : (e.pac.holdLull || e.pac.holdGap) = true) : e.cmdResume h =
    if e.mode = .m7 ∧ e.pac.st ≠ .gapStop ∧ e.pac.st ≠ .decel then e.unheld.complete h 0x06 stOk [] else e.unheld.openCmd h 0x06 (.resumed e.pac.holdLull) := by
  have hsome : ¬ (!e.pac.holdLull && !e.pac.holdGap) = true := by
    rw [← Bool.not_or, hheld]
    exact Bool.false_ne_true
  unfold cmdResume
  rw [command_accepts ha]
  dsimp only
  rw [if_neg hsome]
  rfl

end Engine

/-! ### The commands -/

theorem exec_feed (h : CmdHdr) (count : BitVec 16) (pattern : Byte) (s : State) :
    exec (.feed h count pattern) s = .next (s.onEng fun e => e.cmdFeed h count.toNat pattern.toNat) := rfl

theorem exec_hold (h : CmdHdr) (kind : Byte) (s : State) : exec (.hold h kind) s = .next (s.onEng fun e => e.cmdHold h kind.toNat) := rfl

theorem exec_resume (h : CmdHdr) (s : State) : exec (.resume h) s = .next (s.onEng fun e => e.cmdResume h) := rfl

/-- Settles O2: each command is one change of pacer and feed, then the answer or the opening of the command; events change neither. -/
theorem feedHoldResume : Obligations.FeedHoldResume := by
  unfold Obligations.FeedHoldResume
  refine ⟨?feed, ?feedStarts, ?holdGap, ?holdLull, ?resume, ?resumeInLull⟩
  case feed =>
    intro h count pattern s ha h6 hopen hclosing hfeed
    refine ⟨_, exec_feed h count pattern s, s.onEng_engineOnly _, ?_⟩
    rw [State.onEng_eng, Engine.cmdFeed_eq ha hopen hclosing hfeed, if_neg h6]
    exact ⟨Engine.complete_answered (s.eng.fedMore _ _) (Engine.canTake_resetting ha.1.1) ha.1.2 h 0x04 stOk [], Engine.complete_books ..⟩
  case feedStarts =>
    intro h count pattern s ha h6 hopen hclosing hfeed
    refine ⟨_, exec_feed h count pattern s, s.onEng_engineOnly _, ?_⟩
    rw [State.onEng_eng, Engine.cmdFeed_eq ha hopen hclosing hfeed, if_pos h6]
    have hawake : s.eng.resetting = none := Engine.canTake_resetting ha.1.1
    have hstart := Engine.startRun_books (e := s.eng.fedMore count.toNat pattern.toNat) h6
    have hframe := Engine.onlyBooks_trans hstart (Engine.complete_books _ h 0x04 stOk [] _)
    refine ⟨Engine.complete_answered _ ?_ ?_ h 0x04 stOk [], ?_⟩
    · rw [hstart.1]
      exact hawake
    · rw [hstart.1]
      exact ha.1.2
    generalize ((s.eng.fedMore count.toNat pattern.toNat).startRun none).complete h 0x04 stOk [] = x at hframe
    obtain ⟨hmode, hpac, hfed, hcal⟩ := Engine.onlyBooks_blocksSet (e := s.eng) hframe
    refine ⟨hmode, hpac, hfed, ?_⟩
    rw [hmode, hpac, hfed, hcal]
    exact hframe
  case holdGap =>
    rintro h kind s ha rfl hrun
    refine ⟨_, exec_hold h 1 s, s.onEng_engineOnly _, ?_⟩
    rw [State.onEng_eng, show (1 : Byte).toNat = 1 from rfl, Engine.cmdHold_gap ha hrun]
    exact ⟨Engine.mem_openCmd .., Engine.openCmd_books ..⟩
  case holdLull =>
    rintro h kind s ha rfl hgap hsquall h7 hrun
    refine ⟨_, exec_hold h 0 s, s.onEng_engineOnly _, ?_⟩
    rw [State.onEng_eng, show (0 : Byte).toNat = 0 from rfl, Engine.cmdHold_lull ha hgap hsquall h7 hrun]
    refine ⟨Engine.mem_openCmd .., ?_⟩
    have hframe := Engine.onlyBooks_trans (Engine.onlyBooks_of_onlyRegs (Engine.gapAbandon_onlyRegs
      (({ s.eng with pac := { s.eng.pac with holdLull := true } } : Engine).lullBegun 2))) (Engine.openCmd_books _ h 0x05 (.holdRest false) _)
    generalize Engine.openCmd _ h 0x05 (.holdRest false) = x at hframe
    obtain ⟨-, hpac, hfed, hcal⟩ := Engine.onlyBooks_blocksSet (e := s.eng) (m := s.eng.mode) hframe
    refine ⟨hpac, hfed, ?_⟩
    rw [hpac, hfed, hcal]
    exact hframe
  case resume =>
    intro h s ha hheld h7 hrun
    refine ⟨_, exec_resume h s, s.onEng_engineOnly _, ?_⟩
    rw [State.onEng_eng, Engine.cmdResume_eq ha hheld, if_pos (by simp [h7, hrun])]
    exact ⟨Engine.complete_answered s.eng.unheld (Engine.canTake_resetting ha.1.1) ha.1.2 h 0x06 stOk [], Engine.complete_books ..⟩
  case resumeInLull =>
    intro h s ha hheld h8
    refine ⟨_, exec_resume h s, s.onEng_engineOnly _, ?_⟩
    rw [State.onEng_eng, Engine.cmdResume_eq ha hheld, if_neg (by simp [h8])]
    exact ⟨Engine.mem_openCmd .., Engine.openCmd_books ..⟩

end Sys2Proof.Machine
end

section
/-!
PROOFS. Document sensors and the feed gate (R124, R125, R167, R184): what an accepted input changes, the frame a rising edge fixes, the
document it counts as fed.
-/

namespace Sys2Proof.Machine

namespace Engine

/-! ### An input accepted -/

/-- A new level stands in DI_STATE. -/
def diTaken (e : Engine) (n : Nat) (v : Bool) : Engine := e.wr R.DI_STATE.V (setBit (e.rd R.DI_STATE.V) n v)

theorem diTaken_onlyRegs (e : Engine) (n : Nat) (v : Bool) : e.onlyRegs (e.diTaken n v) [R.DI_STATE.V.off] := wr_onlyRegs e _ (List.mem_singleton.mpr rfl)

theorem diTaken_rd (e : Engine) (n : Nat) (v : Bool) {f : Fld} (hf : f.off ≠ R.DI_STATE.V.off) : (e.diTaken n v).rd f = e.rd f := rd_wr_ne e _ hf

theorem diTaken_on (e : Engine) (n : Nat) (v : Bool) {f : Fld} (hf : f.off ≠ R.DI_STATE.V.off) : (e.diTaken n v).on f = e.on f := by
  rw [on, diTaken_rd e n v hf, on]

theorem diTaken_bit (e : Engine) {n : Nat} (hn : n < 16) : bitOf ((e.diTaken n true).rd R.DI_STATE.V) n = true := by
  rw [diTaken, rd_wr_same _ ⟨by decide, by decide⟩, bitOf_eq_testBit, Nat.testBit_mod_two_pow, ← bitOf_eq_testBit, bitOf_setBit_same]
  simpa [Fld.width] using hn

/-- The sides whose frames an input fixes. -/
def framedBy (e : Engine) (n : Nat) : List Nat := e.sensorSides.filter fun s => e.rd (R.RSM_FRAME_CTRL.DI s) == n

theorem sensorSides_lt {e : Engine} {s : Nat} (h : s ∈ e.sensorSides) : s < 2 := List.mem_range.mp (List.mem_filter.mp h).1

theorem sensorSides_diTaken (e : Engine) (n : Nat) (v : Bool) : (e.diTaken n v).sensorSides = e.sensorSides := by
  refine List.filter_congr fun s hs => ?_
  have hs2 : s < 2 := List.mem_range.mp hs
  have hused : (e.diTaken n v).usedRows s = e.usedRows s := by
    refine List.filter_congr fun r hr => ?_
    have hr4 : r < 4 := List.mem_range.mp hr
    exact diTaken_on e n v (by dsimp only; omega)
  have hframed : (e.diTaken n v).jobFramed s = e.jobFramed s := diTaken_on e n v (by dsimp only; omega)
  rw [hused, hframed]

theorem framedBy_diTaken (e : Engine) (k n : Nat) (v : Bool) : (e.diTaken k v).framedBy n = e.framedBy n := by
  unfold framedBy
  rw [sensorSides_diTaken]
  refine List.filter_congr fun s hs => ?_
  have hs2 := sensorSides_lt hs
  rw [diTaken_rd e k v (by dsimp only; omega)]

theorem passes_onlyRegs (e : Engine) (q n : Nat) : e.onlyRegs (e.passes q n) [(R.QUE_LEVEL.LEVEL q).off] := by
  unfold passes
  split
  · exact wr_onlyRegs e _ (List.mem_singleton.mpr rfl)
  · exact e.onlyRegs_refl _

/-- A change that no register enters, made on a rising edge that passes through POS. -/
theorem diTaken_passes (e : Engine) {n : Nat} (hn : n < 16) {f : Engine → Engine} (hf : ∀ (y : Engine) r, f { y with regs := r } = { f y with regs := r }) :
    (f e).onlyRegs ((f (e.diTaken n true)).passes 67 1) [R.DI_STATE.V.off, (R.QUE_LEVEL.LEVEL 67).off] ∧
    bitOf (((f (e.diTaken n true)).passes 67 1).rd R.DI_STATE.V) n = true := by
  refine ⟨onlyRegs_append (onlyRegs_map (e.diTaken_onlyRegs n true) hf) (passes_onlyRegs _ 67 1), ?_⟩
  have hregs : (f (e.diTaken n true)).regs = (e.diTaken n true).regs := (congrArg Engine.regs (hf (e.diTaken n true) (e.diTaken n true).regs) :)
  rw [onlyRegs_rd (passes_onlyRegs _ 67 1) (by decide), rd_congr hregs]
  exact e.diTaken_bit hn

/-- What a level that has just changed acts on: the document at FEED_DI, then the frames of the sides it is the sensor of. -/
def diActs (e : Engine) (n : Nat) (v : Bool) : Engine :=
  if !e.sensorsAct || !e.job.isOpen || e.job.ended || e.resetting.isSome then e
  else
    let fed := if n ≠ e.rd R.PAC_CTRL.FEED_DI ∨ !e.on R.PAC_CTRL.FEED_EN then e else if v then e.fedEdge else e.trailEdge
    let framed := (e.framedBy n).foldl (fun x s => if v then x.frameRise s else x.frameFall s) fed
    if (e.framedBy n).isEmpty && n != e.rd R.PAC_CTRL.FEED_DI then framed else framed.passes 67 1

theorem diChange_same {e : Engine} {n : Nat} {level : Bool} (hsame : bitOf (e.rd R.DI_STATE.V) n = (level != e.on (R.DI_CFG.INV n))) :
    e.diChange n level = e := if_pos hsame

theorem diChange_new {e : Engine} {n : Nat} {level : Bool} (hnew : bitOf (e.rd R.DI_STATE.V) n ≠ (level != e.on (R.DI_CFG.INV n))) :
    e.diChange n level = (e.diTaken n (level != e.on (R.DI_CFG.INV n))).diActs n (level != e.on (R.DI_CFG.INV n)) := if_neg hnew

theorem diActs_jobless {e : Engine} (hjob : e.job.isOpen = false) (n : Nat) (v : Bool) : e.diActs n v = e := if_pos (by simp [hjob])

section
variable {e : Engine} (h7 : e.mode = .m7) (hopen : e.job.isOpen = true) (hended : e.job.ended = false) (hawake : e.resetting = none)
include h7 hopen hended hawake

theorem acts_in_m7 : ¬ (!e.sensorsAct || !e.job.isOpen || e.job.ended || e.resetting.isSome) = true := by
  simp [sensorsAct, h7, hopen, hended, hawake]

/-- In M7 a rising edge at FEED_DI, an input that is no frame sensor, counts a document as fed. -/
theorem diActs_fed {n : Nat} (hfeed : n = e.rd R.PAC_CTRL.FEED_DI) (hen : e.on R.PAC_CTRL.FEED_EN = true) (hnone : e.framedBy n = []) :
    e.diActs n true = e.fedEdge.passes 67 1 := by
  unfold diActs
  rw [if_neg (acts_in_m7 h7 hopen hended hawake), hnone]
  simp [← hfeed, hen]

/-- In M7 a rising edge at the frame sensor of one side, an input that feeds nothing, fixes a frame there. -/
theorem diActs_framed {n s : Nat} (hfeed : n ≠ e.rd R.PAC_CTRL.FEED_DI ∨ e.on R.PAC_CTRL.FEED_EN = false) (hone : e.framedBy n = [s]) :
    e.diActs n true = (e.frameRise s).passes 67 1 := by
  unfold diActs
  rw [if_neg (acts_in_m7 h7 hopen hended hawake), hone]
  simp [hfeed]

end

/-! ### Frames and documents -/

/-- What a change of a side's frames makes of them as they stand. -/
theorem modFrame_congr {e : Engine} {s : Nat} {f g : FrameSt → FrameSt} (h : f (e.frameSide s) = g (e.frameSide s)) :
    modAt e.frames s f = modAt e.frames s g := by
  refine List.ext_getElem? fun j => ?_
  simp only [modAt, List.getElem?_modify]
  by_cases hj : s = j
  · subst hj
    cases hs : e.frames[s]? with
    | none => rfl
    | some a =>
      have ha : e.frameSide s = a := by simp [frameSide, hs]
      simp [← ha, h]
  · simp [hj]

/-- The frames once a rising edge has fixed one of a side that had none (R124). -/
def framesRisen (e : Engine) (s : Nat) : List FrameSt :=
  modAt e.frames s fun f => { f with fixed := [⟨e.indexOf s (-(e.rd (R.RSM_FRAME_CTRL.LEAD s) : Int)), none, e.frameDoc s, false⟩] }

theorem frameRise_first {e : Engine} {s : Nat} (hfixed : (e.frameSide s).fixed = []) (hcur : (e.frameSide s).cur = none) :
    e.frameRise s = { e with frames := e.framesRisen s } := by
  have hadd : e.frameRise s = { e with frames := modAt e.frames s fun f =>
      { f with fixed := f.fixed ++ [⟨e.indexOf s (-(e.rd (R.RSM_FRAME_CTRL.LEAD s) : Int)), none, e.frameDoc s, false⟩] } } := by
    unfold frameRise
    simp only [hfixed, hcur]
    rfl
  rw [hadd, framesRisen, modFrame_congr]
  rw [hfixed, List.nil_append]

/-- The index that the position fixes does not hang on DI_STATE. -/
theorem framesRisen_diTaken (e : Engine) {s : Nat} (hs : s < 2) (n : Nat) (v : Bool) : (e.diTaken n v).framesRisen s = e.framesRisen s := by
  have hlead : (e.diTaken n v).rd (R.RSM_FRAME_CTRL.LEAD s) = e.rd (R.RSM_FRAME_CTRL.LEAD s) := diTaken_rd e n v (by dsimp only; omega)
  have hdist : (e.diTaken n v).rd (R.RSM_FRAME_DIST.DIST s) = e.rd (R.RSM_FRAME_DIST.DIST s) := diTaken_rd e n v (by dsimp only; omega)
  have hpitch : (e.diTaken n v).rd R.LT_PITCH.PITCH = e.rd R.LT_PITCH.PITCH := diTaken_rd e n v (by decide)
  unfold framesRisen indexOf pitch
  rw [hlead, hdist, hpitch]
  rfl

/-- What the feed is once the document at an open gate is fed (R184). -/
def docFed (e : Engine) : FeedSt :=
  { e.feed with
    gate := false
    pend := if e.endless then e.feed.pend else e.feed.pend - 1
    patterns := (takePattern e.feed.patterns).2
    onSensor := true
    speed := if e.feed.flight.isEmpty then e.vMicron.toNat else e.feed.speed
    flight := if e.sensorSides = [] then e.feed.flight else e.feed.flight ++ [⟨(takePattern e.feed.patterns).1, 0, e.sensorSides, []⟩] }

theorem fedEdge_open {e : Engine} (hgate : e.feed.gate = true) : e.fedEdge = { e with feed := e.docFed } := by
  have hshut : ¬ (!e.feed.gate) = true := by simp [hgate]
  unfold fedEdge docFed
  rw [if_neg hshut]
  simp only [List.isEmpty_iff]

theorem docFed_diTaken (e : Engine) (n : Nat) (v : Bool) : (e.diTaken n v).docFed = e.docFed := by
  unfold docFed
  rw [sensorSides_diTaken]
  rfl

/-! ### The gate -/

theorem gateTimeout_due {e : Engine} (hgate : e.feed.gate = true) (hdue : e.feed.opened + 1000000 * e.rd R.PAC_FEED_TMO.V ≤ e.now) : e.gateTimeout =
    e.clearFeed.fault 0x0C (e.rd R.PAC_CTRL.FEED_DI) 0 0 [] :=
  if_pos (by simp [hgate, hdue])

end Engine

/-! ### The commands -/

theorem exec_diAccept (n : Fin 16) (level : Bool) (s : State) : exec (.diAccept n level) s = .next (s.onEng fun e => e.diChange n.val level) := rfl

theorem exec_feedGateOpen (s : State) : exec .feedGateOpen s = .next (s.onEng Engine.openGate) := rfl

theorem exec_feedTimeout (s : State) : exec .feedTimeout s = .next (s.onEng Engine.gateTimeout) := rfl

/-- Settles O28: a new level is one register write, behind which the sensors' sides and distances read as before; in M7 a frame or a fed document follows. -/
theorem sensorsAndFeeding : Obligations.SensorsAndFeeding := by
  unfold Obligations.SensorsAndFeeding
  refine ⟨?jobless, ?same, ?fed, ?framed, ?gateOpens, ?timeout⟩
  case jobless =>
    intro n level s hnew hjob
    refine ⟨_, exec_diAccept n level s, s.onEng_engineOnly _, ?_⟩
    rw [State.onEng_eng, Engine.diChange_new hnew, Engine.diActs_jobless (e := s.eng.diTaken _ _) hjob]
    rfl
  case same =>
    intro n level s hsame
    exact ⟨_, exec_diAccept n level s, s.onEng_engineOnly _, Engine.diChange_same hsame⟩
  case fed =>
    intro n level s hnew hrise h7 hopen hended hawake hdi hen hgate hsides
    have hnone : (s.eng.diTaken n.val true).framedBy n.val = [] := by
      rw [Engine.framedBy_diTaken]
      exact List.filter_eq_nil_iff.mpr fun i hi => by simpa using hsides i hi
    refine ⟨_, exec_diAccept n level s, s.onEng_engineOnly _, ?_⟩
    rw [State.onEng_eng, Engine.diChange_new hnew, hrise, Engine.diActs_fed (e := s.eng.diTaken n.val true) h7 hopen hended hawake
      (by rw [Engine.diTaken_rd _ _ _ (by decide)]; exact hdi) (by rw [Engine.diTaken_on _ _ _ (by decide)]; exact hen) hnone,
      Engine.fedEdge_open (e := s.eng.diTaken n.val true) hgate, Engine.docFed_diTaken]
    obtain ⟨hframe, hbit⟩ := s.eng.diTaken_passes n.isLt (f := fun y => { y with feed := s.eng.docFed }) fun _ _ => rfl
    generalize ({ s.eng.diTaken n.val true with feed := s.eng.docFed } : Engine).passes 67 1 = x at hframe hbit
    have hfeed : x.feed = s.eng.docFed := by rw [hframe.1]
    rw [hfeed]
    exact ⟨rfl, rfl, rfl, rfl, rfl, hbit, hframe⟩
  case framed =>
    intro n level i s hnew hrise h7 hopen hended hawake hdi hsides hfixed hcur
    have hi : i < 2 := Engine.sensorSides_lt (List.mem_filter.mp (hsides ▸ List.mem_singleton_self i)).1
    refine ⟨_, exec_diAccept n level s, s.onEng_engineOnly _, ?_⟩
    rw [State.onEng_eng, Engine.diChange_new hnew, hrise, Engine.diActs_framed (e := s.eng.diTaken n.val true) h7 hopen hended hawake
      (by rw [Engine.diTaken_rd _ _ _ (by decide), Engine.diTaken_on _ _ _ (by decide)]; exact hdi)
      ((Engine.framedBy_diTaken ..).trans hsides), Engine.frameRise_first (e := s.eng.diTaken n.val true) hfixed hcur, Engine.framesRisen_diTaken _ hi]
    obtain ⟨hframe, hbit⟩ := s.eng.diTaken_passes n.isLt (f := fun y => { y with frames := s.eng.framesRisen i }) fun _ _ => rfl
    generalize ({ s.eng.diTaken n.val true with frames := s.eng.framesRisen i } : Engine).passes 67 1 = x at hframe hbit
    have hframes : x.frames = s.eng.framesRisen i := by rw [hframe.1]
    rw [hframes]
    exact ⟨rfl, hbit, hframe⟩
  case gateOpens =>
    intro s hdue hfree
    exact ⟨_, exec_feedGateOpen s, s.onEng_engineOnly _, if_pos (by rw [hdue, hfree]; rfl)⟩
  case timeout =>
    intro s hgate hdue hhears
    refine ⟨_, exec_feedTimeout s, s.onEng_engineOnly _, ?_⟩
    rw [State.onEng_eng, Engine.gateTimeout_due hgate hdue]
    obtain ⟨⟨hawake, hsupply⟩, -, -⟩ := hhears
    have htold := Engine.fault_told (e := s.eng.clearFeed) hawake hsupply 0x0C (s.eng.rd R.PAC_CTRL.FEED_DI) 0 0 []
    exact ⟨htold, Engine.fault_books ..⟩

end Sys2Proof.Machine
end

section
/-!
PROOFS. A period of the pacer (R163, R169, R172, R175, R176): what it shows, what it decides in RUN and for the hold input, and one
step of AX0 along its profile.
-/

namespace Sys2Proof.Machine

namespace Engine

/-! ### The frame of a period -/

/-- An engine with the pacer, motion, feed, streams, timing generators and gap calibration of another. -/
def withPeriodOf (e x : Engine) : Engine := { e with pac := x.pac, mot := x.mot, feed := x.feed, streams := x.streams, tg := x.tg, cal := x.cal }

/-- Between two engines nothing differs but pacer, motion, feed, the streams, the timing generators, a gap calibration, and of the registers the named ones. -/
def onlyPeriod (e x : Engine) (offs : List Nat) : Prop := (e.withPeriodOf x).onlyRegs x offs

/-- A frame that leaves no more than these blocks to differ. -/
theorem onlyPeriod_of_onlyRegs {e b x : Engine} {offs : List Nat} (h : b.onlyRegs x offs) (hb : e.withPeriodOf x = b.withPeriodOf x) : e.onlyPeriod x offs := by
  rw [onlyPeriod, hb]
  exact onlyRegs_map h (f := fun y => y.withPeriodOf x) fun _ _ => rfl

theorem onlyPeriod_trans {e x y : Engine} {offs : List Nat} (h : e.onlyPeriod x offs) (k : x.onlyPeriod y offs) : e.onlyPeriod y offs := by
  obtain ⟨hx, hw⟩ := h
  obtain ⟨ky, kw⟩ := k
  refine ⟨ky.trans ?_, fun off ho => (kw off ho).trans (hw off ho)⟩
  rw [hx]
  rfl

theorem onlyPeriod_mono {e x : Engine} {o p : List Nat} (h : e.onlyPeriod x o) (hp : ∀ n ∈ o, n ∈ p) : e.onlyPeriod x p :=
  ⟨h.1, fun off ho => h.2 off fun hm => ho (hp off hm)⟩

theorem onlyPeriod_rd {e x : Engine} {offs : List Nat} (h : e.onlyPeriod x offs) {f : Fld} (hf : f.off ∉ offs) : x.rd f = e.rd f :=
  onlyRegs_rd h hf

theorem onlyPeriod_on {e x : Engine} {offs : List Nat} (h : e.onlyPeriod x offs) {f : Fld} (hf : f.off ∉ offs) : x.on f = e.on f := by
  rw [on, onlyPeriod_rd h hf, on]

/-! ### The parts of a period -/

/-- The three terms stand in their registers, integral and rate are kept, confirmed bytes counted afresh. -/
def periodShown (e : Engine) : Engine :=
  ((({ e with pac := { e.pac with integ := e.pace.integ, rate := e.pace.rate, confirmed := 0 } } : Engine).wr R.PAC_VCEIL.V e.pace.vjob).wr R.PAC_VHOST.V
    (min 0xFFFFFF (e.pace.vhost.getD 0xFFFFFF))).wr R.PAC_VBRAKE.V (min 0xFFFFFF (e.pace.vbrake.getD 0xFFFFFF))

/-- What a period decides: the causes of a Lull, the gap hold stop, the exit condition, a feed withheld. -/
def periodDecided (e : Engine) : Engine :=
  (((e.periodShown.lullCauses (vTarget e.pace)).gapDecide (vTarget e.pace)).watchExit).countWithheld

/-- PAC_VTARGET and the term that sets it. -/
def targetShown (x : Engine) (p : Pace) : Engine :=
  { x.wr R.PAC_VTARGET.V (if x.pac.st = .runup then x.vSeam else vTarget p) with
    pac := { x.pac with limit :=
      if x.pac.st = .runup then 3 else if (x.modeIn [7, 8] && (x.pac.st == .run || x.pac.st == .stopping || x.pac.st == .gapStop)) then limitOf p else 4 } }

/-- The axes take a step of AX0's speed and acceleration, and the streams that hold lines are noted. -/
def stepTaken (x : Engine) (r : Int × Int) : Engine := (((x.moveAxes r.1 r.2).slipCheck).markWaiting).clearPred

theorem tick_jobless {e : Engine} (hjob : e.job.isOpen = false) :
    e.tick = if e.mot.v = 0 then e else (e.moveAxes (e.profile 0 0).1 (e.profile 0 0).2).clearPred := if_pos (by rw [hjob]; rfl)

theorem tick_job {e : Engine} (hjob : e.job.isOpen = true) : e.tick = (e.periodDecided.targetShown e.pace).stepTaken
    ((e.periodDecided.targetShown e.pace).profile (vTarget e.pace) e.pace.vjob) := if_neg (by rw [hjob]; exact Bool.false_ne_true)

theorem clearPred_only (e : Engine) : e.clearPred = { e with tg := e.clearPred.tg } := by
  unfold clearPred
  split <;> rfl

theorem slipCheck_off {e : Engine} (h : e.rd R.PAC_SLIP.V = 0) : e.slipCheck = e := if_pos (.inr (.inl h))

theorem stepTaken_eq {x : Engine} (hslip : x.rd R.PAC_SLIP.V = 0) (r : Int × Int) : x.stepTaken r =
    { x with mot := (x.moveAxes r.1 r.2).mot, streams := x.markWaiting.streams, tg := (x.stepTaken r).tg } := by
  unfold stepTaken
  rw [slipCheck_off (e := x.moveAxes r.1 r.2) hslip, clearPred_only]
  rfl

/-! ### What is shown -/

/-- The registers of the three terms. -/
abbrev shownOffs : List Nat := [R.PAC_VCEIL.V.off, R.PAC_VHOST.V.off, R.PAC_VBRAKE.V.off]

theorem periodShown_onlyRegs (e : Engine) : ({ e with pac := e.periodShown.pac } : Engine).onlyRegs e.periodShown shownOffs :=
  onlyRegs_wr (onlyRegs_wr (wr_onlyRegs _ _ (by simp)) (by simp) _) (by simp) _

theorem periodShown_onlyPeriod (e : Engine) : e.onlyPeriod e.periodShown shownOffs := onlyPeriod_of_onlyRegs e.periodShown_onlyRegs rfl

theorem periodShown_rd (e : Engine) : e.periodShown.rd R.PAC_VCEIL.V = e.pace.vjob % 2 ^ R.PAC_VCEIL.V.width ∧
    e.periodShown.rd R.PAC_VHOST.V = min 0xFFFFFF (e.pace.vhost.getD 0xFFFFFF) ∧
    e.periodShown.rd R.PAC_VBRAKE.V = min 0xFFFFFF (e.pace.vbrake.getD 0xFFFFFF) := by
  have hlt (n : Nat) : min 0xFFFFFF n < 2 ^ 24 := by omega
  refine ⟨?_, ?_, ?_⟩
  · rw [periodShown, rd_wr_ne _ _ (by decide), rd_wr_ne _ _ (by decide), rd_wr_same _ ⟨by decide, by decide⟩]
  · rw [periodShown, rd_wr_ne _ _ (by decide), rd_wr_lt _ ⟨by decide, by decide⟩ (hlt _)]
  · rw [periodShown, rd_wr_lt _ ⟨by decide, by decide⟩ (hlt _)]

theorem periodShown_holdInput (e : Engine) : e.periodShown.holdInput = e.holdInput := by
  unfold holdInput
  rw [onlyPeriod_on e.periodShown_onlyPeriod (by decide), onlyPeriod_rd e.periodShown_onlyPeriod (by decide),
    onlyPeriod_rd e.periodShown_onlyPeriod (by decide)]

theorem periodShown_gapMode (e : Engine) : e.periodShown.gapMode = e.gapMode := onlyPeriod_on e.periodShown_onlyPeriod (by decide)

theorem periodShown_vmin (e : Engine) : e.periodShown.rd R.PAC_VMIN.V = e.rd R.PAC_VMIN.V := onlyPeriod_rd e.periodShown_onlyPeriod (by decide)

/-! ### What is decided -/

section
variable {e : Engine} {vt : Nat}

/-- The speed suffices and nothing holds: no Lull begins. -/
theorem lullCauses_none (hspeed : e.rd R.PAC_VMIN.V ≤ vt) (hinput : e.holdInput = false) : e.lullCauses vt = e := by
  simp [lullCauses, Nat.not_lt.mpr hspeed, hinput]

/-- In LULL mode the hold input begins a Lull with cause INPUT (R176). -/
theorem lullCauses_input (hspeed : e.rd R.PAC_VMIN.V ≤ vt) (hinput : e.holdInput = true) (h7 : e.mode = .m7) (hsquall : e.squall = none)
    (hgap : e.gapMode = false) (hrun : e.pac.st = .run) : e.lullCauses vt = (e.lullBegun 4).gapAbandon := by
  rw [← lullBegin_run hsquall hgap hrun]
  simp [lullCauses, Nat.not_lt.mpr hspeed, hinput, modeIn, h7, Mode.idx]

theorem gapDecide_runs (hrun : e.pac.st = .run) (hspeed : e.rd R.PAC_VMIN.V ≤ vt) (hinput : e.holdInput = false) (hhold : e.pac.holdGap = false) :
    e.gapDecide vt = e := by
  simp [gapDecide, hrun, Nat.not_lt.mpr hspeed, hinput, hhold]

theorem gapDecide_stops (hdecel : e.pac.st = .decel) : e.gapDecide vt = e := by
  simp [gapDecide, hdecel]

theorem watchExit_m7 (h7 : e.mode = .m7) : e.watchExit = { e with pac := { e.pac with exitSince := none } } := by
  simp [watchExit, h7]

theorem watchExit_idle (h7 : e.mode = .m7) (hsince : e.pac.exitSince = none) : e.watchExit = e :=
  (watchExit_m7 h7).trans (by rw [← hsince])

theorem countWithheld_stops (hdecel : e.pac.st = .decel) : e.countWithheld = e := by
  simp [countWithheld, feedDue, hdecel]

theorem countWithheld_onlyRegs (e : Engine) : ({ e with feed := e.countWithheld.feed } : Engine).onlyRegs e.countWithheld [R.PAC_WITHHOLD_CNT.V.off] := by
  unfold countWithheld
  split
  · exact wr_onlyRegs _ _ (List.mem_singleton.mpr rfl)
  · exact e.onlyRegs_refl _

theorem countWithheld_feed (e : Engine) : e.countWithheld.feed = { e.feed with withheld := e.countWithheld.feed.withheld } := by
  unfold countWithheld
  split <;> rfl

end

/-! ### A period in RUN -/

/-- The registers that a period changes. -/
abbrev periodOffs : List Nat := [R.PAC_VCEIL.V.off, R.PAC_VHOST.V.off, R.PAC_VBRAKE.V.off, R.PAC_VTARGET.V.off, R.PAC_WITHHOLD_CNT.V.off]

/-- Nothing withholds motion: M7 with an open job, the pacer in RUN, speed enough, no hold. -/
structure RunsOn (e : Engine) : Prop where
  m7 : e.mode = .m7
  run : e.pac.st = .run
  noInput : e.holdInput = false
  noGap : e.pac.holdGap = false
  speed : e.rd R.PAC_VMIN.V ≤ vTarget e.pace

/-- What a period in RUN has decided before a withheld feed is counted: the exit condition of a Lull is not watched. -/
def shownRunning (e : Engine) : Engine := { e.periodShown with pac := { e.periodShown.pac with exitSince := none } }

theorem shownRunning_onlyPeriod (e : Engine) : e.onlyPeriod e.shownRunning shownOffs :=
  onlyPeriod_trans e.periodShown_onlyPeriod (onlyPeriod_of_onlyRegs (e.shownRunning.onlyRegs_refl _) rfl)

/-- In RUN, AX0 makes for v_target, in gap mode for the speed that the documents in flight run at. -/
theorem wishSpeed_run {e : Engine} (hrun : e.pac.st = .run) (vt vJob : Nat) : e.wishSpeed vt vJob =
    10000 * (if (e.gapMode && !e.feed.flight.isEmpty) then e.feed.speed else if e.cal.gapWithheld then vJob else vt : Nat) := by
  simp only [wishSpeed, hrun]

theorem profile_run {e : Engine} (hrun : e.pac.st = .run) (vt vJob : Nat) : e.profile vt vJob =
    if e.resetting.isSome then follow e.mot.v 0 0 (100 * e.rd R.PAC_SQUALL.V) (100 * e.rd R.PAC_SQUALL.V) 0
    else follow e.mot.v e.mot.acc (if (e.on R.PAC_CTRL.EN && e.job.isOpen && e.modeIn [7, 8]) then e.wishSpeed vt vJob else 0) (100 * e.rd R.PAC_AMAX.V)
      (if e.mode = .m8 then 100 * e.rd R.PAC_AMAX.V else 100 * e.rd R.PAC_DMAX.V) (e.rd R.PAC_JMAX.V) := by
  simp only [profile, hrun, reduceCtorEq, false_or, false_and, if_false]

/-- AX0's step in RUN hangs on nothing that a period shows or counts. -/
theorem profile_congr {e x : Engine} {offs : List Nat} (h : e.onlyPeriod x offs) (hrun : e.pac.st = .run) (hrun' : x.pac.st = .run) (hmot : x.mot = e.mot)
    (hcal : x.cal = e.cal) (hfeed : x.feed = { e.feed with withheld := x.feed.withheld }) (hoffs : offs ⊆ periodOffs) (vt vJob : Nat) :
    x.profile vt vJob = e.profile vt vJob := by
  have hrd {f : Fld} (hf : f.off ∉ periodOffs) : x.rd f = e.rd f := onlyPeriod_rd h fun hm => hf (hoffs hm)
  have hon {f : Fld} (hf : f.off ∉ periodOffs) : x.on f = e.on f := onlyPeriod_on h fun hm => hf (hoffs hm)
  have hmode : x.mode = e.mode := (congrArg Engine.mode h.1 :)
  have hjob : x.job = e.job := (congrArg Engine.job h.1 :)
  have hreset : x.resetting = e.resetting := (congrArg Engine.resetting h.1 :)
  have hflight : x.feed.flight = e.feed.flight := by rw [hfeed]
  have hspeed : x.feed.speed = e.feed.speed := by rw [hfeed]
  rw [profile_run hrun, profile_run hrun', wishSpeed_run hrun, wishSpeed_run hrun']
  simp only [gapMode, modeIn, hmode, hjob, hreset, hmot, hcal, hflight, hspeed, hrd (f := R.PAC_SQUALL.V) (by decide), hrd (f := R.PAC_AMAX.V) (by decide),
    hrd (f := R.PAC_DMAX.V) (by decide), hrd (f := R.PAC_JMAX.V) (by decide), hon (f := R.PAC_CTRL.EN) (by decide),
    hon (f := R.PAC_CTRL.STOPMODE) (by decide)]
  congr!

section
variable {e : Engine} (h : e.RunsOn)
include h

theorem RunsOn.decided : e.periodDecided = e.shownRunning.countWithheld := by
  have hspeed : e.periodShown.rd R.PAC_VMIN.V ≤ vTarget e.pace := e.periodShown_vmin.trans_le h.speed
  have hinput : e.periodShown.holdInput = false := e.periodShown_holdInput.trans h.noInput
  unfold periodDecided
  rw [lullCauses_none hspeed hinput, gapDecide_runs (e := e.periodShown) h.run hspeed hinput h.noGap, watchExit_m7 (e := e.periodShown) h.m7]
  rfl

/-- The blocks once a period in RUN has decided. -/
theorem RunsOn.decided_onlyRegs : ({ e.shownRunning with feed := e.periodDecided.feed } : Engine).onlyRegs e.periodDecided [R.PAC_WITHHOLD_CNT.V.off] := by
  rw [h.decided]
  exact countWithheld_onlyRegs _

theorem RunsOn.decided_onlyPeriod : e.onlyPeriod e.periodDecided periodOffs :=
  onlyPeriod_trans (onlyPeriod_mono e.shownRunning_onlyPeriod (by decide)) (onlyPeriod_mono
    (onlyPeriod_of_onlyRegs h.decided_onlyRegs rfl) (by decide))

theorem RunsOn.decided_rd {f : Fld} (hf : f.off ≠ R.PAC_WITHHOLD_CNT.V.off) : e.periodDecided.rd f = e.periodShown.rd f :=
  onlyRegs_rd (e := { e.shownRunning with feed := e.periodDecided.feed }) h.decided_onlyRegs fun hm => hf (List.mem_singleton.mp hm)

/-- What stands shown at the end of the decisions, v_target with the term that sets it. -/
theorem RunsOn.decided_blocks :
    e.periodDecided.pac = { e.pac with integ := e.pace.integ, rate := e.pace.rate, confirmed := 0, exitSince := none } ∧ e.periodDecided.mode = .m7 ∧
    e.periodDecided.mot = e.mot ∧ e.periodDecided.cal = e.cal ∧ e.periodDecided.streams = e.streams ∧ e.periodDecided.tg = e.tg ∧
    e.periodDecided.feed = { e.feed with withheld := e.periodDecided.feed.withheld } := by
  obtain ⟨hx, -⟩ := h.decided_onlyRegs
  refine ⟨(congrArg Engine.pac hx :), (congrArg Engine.mode hx :).trans h.m7, (congrArg Engine.mot hx :), (congrArg Engine.cal hx :),
    (congrArg Engine.streams hx :), (congrArg Engine.tg hx :), ?_⟩
  rw [h.decided, countWithheld_feed]
  rfl

end

theorem targetShown_run {x : Engine} (h7 : x.mode = .m7) (hrun : x.pac.st = .run) (p : Pace) :
    x.targetShown p = { x.wr R.PAC_VTARGET.V (vTarget p) with pac := { x.pac with limit := limitOf p } } := by
  simp [targetShown, hrun, modeIn, h7, Mode.idx]

theorem targetShown_onlyPeriod (x : Engine) (p : Pace) : x.onlyPeriod (x.targetShown p) [R.PAC_VTARGET.V.off] :=
  onlyPeriod_trans (onlyPeriod_of_onlyRegs (wr_onlyRegs x _ (List.mem_singleton_self _)) rfl) (onlyPeriod_of_onlyRegs (onlyRegs_refl ..) rfl)

theorem targetShown_rd (x : Engine) (p : Pace) {f : Fld} (hf : f.off ≠ R.PAC_VTARGET.V.off) : (x.targetShown p).rd f = x.rd f :=
  rd_wr_ne x _ hf

theorem stepTaken_onlyPeriod {x : Engine} (hslip : x.rd R.PAC_SLIP.V = 0) (r : Int × Int) : x.onlyPeriod (x.stepTaken r) [] := by
  rw [stepTaken_eq hslip]
  exact onlyPeriod_of_onlyRegs (onlyRegs_refl ..) rfl

theorem stepTaken_rd {x : Engine} (hslip : x.rd R.PAC_SLIP.V = 0) (r : Int × Int) (f : Fld) : (x.stepTaken r).rd f = x.rd f :=
  onlyPeriod_rd (stepTaken_onlyPeriod hslip r) List.not_mem_nil

/-- What a step leaves standing, and what it changes. -/
theorem stepTaken_blocks {x : Engine} (hslip : x.rd R.PAC_SLIP.V = 0) (r : Int × Int) : (x.stepTaken r).pac = x.pac ∧ (x.stepTaken r).feed = x.feed ∧
    (x.stepTaken r).cal = x.cal ∧ (x.stepTaken r).streams = x.markWaiting.streams ∧ (x.stepTaken r).mot = (x.moveAxes r.1 r.2).mot := by
  have hx := stepTaken_eq hslip r
  exact ⟨(congrArg Engine.pac hx :), (congrArg Engine.feed hx :), (congrArg Engine.cal hx :), (congrArg Engine.streams hx :), (congrArg Engine.mot hx :)⟩

/-- Where no gap calibration changed, a frame does not name it. -/
theorem onlyPeriod_calSame {e x : Engine} {offs : List Nat} (h : e.onlyPeriod x offs) (hcal : x.cal = e.cal) :
    ({ e with pac := x.pac, mot := x.mot, feed := x.feed, streams := x.streams, tg := x.tg } : Engine).onlyRegs x offs := by
  unfold onlyPeriod withPeriodOf at h
  rw [hcal] at h
  exact h

section
variable {e : Engine} (h : e.RunsOn)
include h

/-- What AX0 starts its step from: v_target shown with the term that sets it, the blocks otherwise as decided. -/
theorem RunsOn.target_blocks : (e.periodDecided.targetShown e.pace).pac =
      { e.pac with integ := e.pace.integ, rate := e.pace.rate, confirmed := 0, limit := limitOf e.pace, exitSince := none } ∧
    (e.periodDecided.targetShown e.pace).mot = e.mot ∧ (e.periodDecided.targetShown e.pace).cal = e.cal ∧
    (e.periodDecided.targetShown e.pace).streams = e.streams ∧
    (e.periodDecided.targetShown e.pace).feed = { e.feed with withheld := (e.periodDecided.targetShown e.pace).feed.withheld } := by
  obtain ⟨hpac, h7, hmot, hcal, hstreams, -, hfeed⟩ := h.decided_blocks
  refine ⟨?_, hmot, hcal, hstreams, hfeed⟩
  rw [targetShown_run h7 ((congrArg PacerSt.st hpac :).trans h.run), hpac]

theorem RunsOn.target_onlyPeriod : e.onlyPeriod (e.periodDecided.targetShown e.pace) periodOffs :=
  onlyPeriod_trans h.decided_onlyPeriod (onlyPeriod_mono (e.periodDecided.targetShown_onlyPeriod e.pace) (by decide))

/-- The registers of the period hold the three terms and v_target. -/
theorem RunsOn.target_rd : (e.periodDecided.targetShown e.pace).rd R.PAC_VCEIL.V = e.pace.vjob % 2 ^ R.PAC_VCEIL.V.width ∧
    (e.periodDecided.targetShown e.pace).rd R.PAC_VHOST.V = min 0xFFFFFF (e.pace.vhost.getD 0xFFFFFF) ∧
    (e.periodDecided.targetShown e.pace).rd R.PAC_VBRAKE.V = min 0xFFFFFF (e.pace.vbrake.getD 0xFFFFFF) ∧
    (e.periodDecided.targetShown e.pace).rd R.PAC_VTARGET.V = vTarget e.pace % 2 ^ R.PAC_VTARGET.V.width := by
  obtain ⟨hpac, h7, -, -, -, -, -⟩ := h.decided_blocks
  obtain ⟨hceil, hhost, hbrake⟩ := e.periodShown_rd
  refine ⟨?_, ?_, ?_, ?_⟩
  · rw [targetShown_rd _ _ (by decide), h.decided_rd (by decide), hceil]
  · rw [targetShown_rd _ _ (by decide), h.decided_rd (by decide), hhost]
  · rw [targetShown_rd _ _ (by decide), h.decided_rd (by decide), hbrake]
  · rw [targetShown_run h7 ((congrArg PacerSt.st hpac :).trans h.run)]
    exact rd_wr_same _ ⟨by decide, by decide⟩ _

/-- AX0 moves in RUN by the step that its profile takes from the state before the period. -/
theorem RunsOn.tick_eq (hopen : e.job.isOpen = true) : e.tick = (e.periodDecided.targetShown e.pace).stepTaken (e.profile (vTarget e.pace) e.pace.vjob) := by
  obtain ⟨hpac, hmot, hcal, -, hfeed⟩ := h.target_blocks
  rw [tick_job hopen, profile_congr h.target_onlyPeriod h.run ((congrArg PacerSt.st hpac :).trans h.run) hmot hcal hfeed (List.Subset.refl _)]

end

/-! ### A period at the hold input -/

/-- What a period decides when the hold input begins a Lull. -/
theorem periodDecided_held {e : Engine} (h7 : e.mode = .m7) (hrun : e.pac.st = .run) (hinput : e.holdInput = true) (hgap : e.gapMode = false)
    (hsquall : e.squall = none) (hspeed : e.rd R.PAC_VMIN.V ≤ vTarget e.pace) : e.periodDecided = ((e.periodShown.lullBegun 4).gapAbandon) := by
  have hdecel : ((e.periodShown.lullBegun 4).gapAbandon).pac.st = .decel := by rw [(gapAbandon_onlyRegs _).1]; rfl
  have hm7 : ((e.periodShown.lullBegun 4).gapAbandon).mode = .m7 := by rw [(gapAbandon_onlyRegs _).1]; exact h7
  have hsince : ((e.periodShown.lullBegun 4).gapAbandon).pac.exitSince = none := by rw [(gapAbandon_onlyRegs _).1]; rfl
  unfold periodDecided
  rw [lullCauses_input (e := e.periodShown) (e.periodShown_vmin.trans_le hspeed) (e.periodShown_holdInput.trans hinput) h7 hsquall
    (e.periodShown_gapMode.trans hgap) hrun, gapDecide_stops hdecel, watchExit_idle hm7 hsince, countWithheld_stops hdecel]

/-- The registers that a period changes in which a gap calibration may be given up. -/
abbrev heldOffs : List Nat := [R.PAC_VCEIL.V.off, R.PAC_VHOST.V.off, R.PAC_VBRAKE.V.off, R.PAC_VTARGET.V.off, R.CAL_STATUS.word.off, R.CAL_ABANDON_CNT.V.off]

theorem lullBegun_onlyPeriod (e : Engine) : e.onlyPeriod (e.periodShown.lullBegun 4).gapAbandon heldOffs :=
  onlyPeriod_trans (onlyPeriod_mono e.periodShown_onlyPeriod (by decide)) (onlyPeriod_mono
    (onlyPeriod_of_onlyRegs (gapAbandon_onlyRegs (e.periodShown.lullBegun 4)) rfl) (by decide))

end Engine

/-! ### The commands -/

theorem exec_pacerTick (s : State) : exec .pacerTick s = .next (s.onEng Engine.tick) := rfl

/-- Settles O29: what a period shows and decides touches neither AX0 nor what its profile reads, so the step is the one of the state before. -/
theorem pacerPeriods : Obligations.PacerPeriods := by
  unfold Obligations.PacerPeriods
  refine ⟨?jobless, ?brakes, ?runs, ?held⟩
  case jobless =>
    intro s hjob hv
    exact ⟨_, exec_pacerTick s, s.onEng_engineOnly _, (Engine.tick_jobless hjob).trans (if_pos hv)⟩
  case brakes =>
    intro s hjob hv
    refine ⟨_, exec_pacerTick s, s.onEng_engineOnly _, ?_⟩
    rw [State.onEng_eng, Engine.tick_jobless hjob, if_neg hv, Engine.clearPred_only]
    exact ⟨rfl, rfl, rfl, rfl, Engine.onlyRegs_refl ..⟩
  case runs =>
    intro s h7 hopen hended hrun hinput hgap hspeed hslip
    have h : s.eng.RunsOn := ⟨h7, hrun, hinput, hgap, hspeed⟩
    refine ⟨_, exec_pacerTick s, s.onEng_engineOnly _, ?_⟩
    rw [State.onEng_eng, h.tick_eq hopen]
    obtain ⟨hpac, hmot, hcal, hstreams, hfeed⟩ := h.target_blocks
    obtain ⟨hceil, hhost, hbrake, htarget⟩ := h.target_rd
    have hframe := h.target_onlyPeriod
    generalize s.eng.periodDecided.targetShown s.eng.pace = z at *
    have hslip' : z.rd R.PAC_SLIP.V = 0 := (Engine.onlyPeriod_rd hframe (by decide)).trans hslip
    have hlast := Engine.onlyPeriod_trans hframe (Engine.onlyPeriod_mono
      (Engine.stepTaken_onlyPeriod hslip' (s.eng.profile (Engine.vTarget s.eng.pace) s.eng.pace.vjob)) fun _ => False.elim ∘ List.not_mem_nil)
    obtain ⟨hpac', hfeed', hcal', hstreams', hmot'⟩ := Engine.stepTaken_blocks hslip' (s.eng.profile (Engine.vTarget s.eng.pace) s.eng.pace.vjob)
    have hkeeps := Engine.stepTaken_rd hslip' (s.eng.profile (Engine.vTarget s.eng.pace) s.eng.pace.vjob)
    refine ⟨(hkeeps _).trans hceil, (hkeeps _).trans hhost, (hkeeps _).trans hbrake, (hkeeps _).trans htarget, hpac'.trans hpac, ?_, ?_, ?_, ?_, ?_, ?_, ?_,
      Engine.onlyPeriod_calSame hlast (hcal'.trans hcal)⟩
    · rw [hmot']
      rfl
    · rw [hmot']
      rfl
    · rw [hmot', ← hmot]
      rfl
    · rw [hmot', ← hmot]
      rfl
    · rw [hmot', ← hmot]
      rfl
    · rw [hfeed', hfeed]
    · rw [hstreams', ← hstreams]
      rfl
  case held =>
    intro s h7 hopen hended hawake hrun hinput hgap hsquall hslip hspeed
    refine ⟨_, exec_pacerTick s, s.onEng_engineOnly _, ?_⟩
    rw [State.onEng_eng, Engine.tick_job hopen, Engine.periodDecided_held h7 hrun hinput hgap hsquall hspeed]
    generalize Engine.profile _ _ _ = r
    have hdecided : (s.eng.periodShown.lullBegun 4).gapAbandon.pac = (s.eng.periodShown.lullBegun 4).pac ∧
        (s.eng.periodShown.lullBegun 4).gapAbandon.feed = (s.eng.periodShown.lullBegun 4).feed := by
      rw [(Engine.gapAbandon_onlyRegs _).1]
      exact ⟨rfl, rfl⟩
    have hframe := s.eng.lullBegun_onlyPeriod
    generalize (s.eng.periodShown.lullBegun 4).gapAbandon = y at *
    obtain ⟨hpac, hfeed⟩ := hdecided
    have hshown := Engine.onlyPeriod_trans hframe (Engine.onlyPeriod_mono (y.targetShown_onlyPeriod s.eng.pace) (by decide))
    have hslip' : (y.targetShown s.eng.pace).rd R.PAC_SLIP.V = 0 := (Engine.onlyPeriod_rd hshown (by decide)).trans hslip
    have hlast := Engine.onlyPeriod_trans hshown (Engine.onlyPeriod_mono (Engine.stepTaken_onlyPeriod hslip' r) fun _ => False.elim ∘ List.not_mem_nil)
    obtain ⟨hpac', hfeed', -, -, -⟩ := Engine.stepTaken_blocks hslip' r
    have hst : (y.targetShown s.eng.pace).pac = { y.pac with limit := (y.targetShown s.eng.pace).pac.limit } := rfl
    refine ⟨?_, ?_, ?_, ?_, ?_, ?_⟩
    · rw [hpac', hst, hpac]
      rfl
    · rw [hpac', hst, hpac]
      rfl
    · rw [hpac', hst, hpac]
      rfl
    · rw [hfeed']
      exact (congrArg FeedSt.gate hfeed :)
    · exact (congrArg Engine.mode hlast.1 :).trans h7
    · generalize (y.targetShown s.eng.pace).stepTaken r = x at hlast
      rw [hlast.1]
      rfl

end Sys2Proof.Machine
end

section
/-!
PROOFS. Triggers and predictions on their way to the sides (R212, R216, R220): what a TRIG queue holds after a packet has entered it.
-/

namespace Sys2Proof.Machine

namespace Engine

/-- Of a list whose end fits, the words kept include that end. -/
theorem trimWords_suffix {α : Type} (words : α → Nat) {cap : Nat} {tail : List α} (hfits : sumNat (tail.map words) ≤ cap) (front : List α) :
    ∃ kept, (trimWords words cap (front ++ tail)).1 = kept ++ tail := by
  induction front with
  | nil => 
    cases tail with
    | nil => exact ⟨[], rfl⟩
    | cons p t => exact ⟨[], by rw [List.nil_append, trimWords, if_neg (Nat.not_lt.mpr hfits)]⟩
  | cons p t ih =>
    rw [List.cons_append, trimWords]
    split
    · exact ih
    · exact ⟨p :: t, rfl⟩

/-! ### Both queues -/

/-- A packet goes to both sides. -/
def pushBoth (e : Engine) (p : TrigPkt) : Engine := (upTo 2).foldl (fun x s => x.pushTrig s p) e

theorem level_onlyRegs (e : Engine) (q n : Nat) : e.onlyRegs (e.level q n) [(R.QUE_LEVEL.LEVEL q).off] :=
  ⟨e.level_only q n, fun off ho => e.level_word q n off fun h => ho (List.mem_singleton.mpr h)⟩

theorem pushTrig_onlyRegs (e : Engine) (s : Nat) (p : TrigPkt) :
    ({ e with tg := (e.pushTrig s p).tg } : Engine).onlyRegs (e.pushTrig s p) [(R.QUE_LEVEL.LEVEL (65 + s)).off, (R.QUE_LOST.V (65 + s)).off] := by
  unfold pushTrig
  split
  · have hlevel : ∀ off ∈ [(R.QUE_LEVEL.LEVEL (65 + s)).off], off ∈ [(R.QUE_LEVEL.LEVEL (65 + s)).off, (R.QUE_LOST.V (65 + s)).off] :=
      fun _ h => List.mem_cons.mpr (.inl (List.mem_singleton.mp h))
    refine onlyRegs_wr (onlyRegs_trans ?_ (onlyRegs_mono (level_onlyRegs _ _ _) hlevel)) List.mem_cons_self _
    simp only [wr_tg, level_tg]
    exact wr_onlyRegs _ _ (by simp)
  · exact e.onlyRegs_refl _

theorem pushTrig_tg {e : Engine} {s : Nat} (h : e.genRuns s = true) (p : TrigPkt) :
    (e.pushTrig s p).tg = modAt e.tg s fun g => { g with queue := (trimWords trigWords 64 ((e.gen s).queue ++ [p])).1 } := by
  unfold pushTrig
  rw [if_pos h]
  simp
  rfl

theorem pushTrig_still {e : Engine} {s : Nat} (h : e.genRuns s = false) (p : TrigPkt) : e.pushTrig s p = e := if_neg (by rw [h]; exact Bool.false_ne_true)

/-- A packet for one side leaves the generator of the other. -/
theorem gen_pushTrig_ne (e : Engine) {s k : Nat} (hk : k ≠ s) (p : TrigPkt) : (e.pushTrig s p).gen k = e.gen k := by
  cases h : e.genRuns s
  · rw [pushTrig_still h]
  · rw [gen, pushTrig_tg h, getD_modAt_ne _ hk]
    rfl

theorem length_tg_pushTrig (e : Engine) (s : Nat) (p : TrigPkt) : (e.pushTrig s p).tg.length = e.tg.length := by
  cases h : e.genRuns s
  · rw [pushTrig_still h]
  · rw [pushTrig_tg h]
    exact List.length_modify ..

theorem genRuns_pushTrig (e : Engine) (s k : Side) (p : TrigPkt) : (e.pushTrig s.val p).genRuns k.val = e.genRuns k.val := by
  have hframe := e.pushTrig_onlyRegs s.val p
  have hmode : (e.pushTrig s.val p).mode = e.mode := (congrArg Engine.mode hframe.1 :)
  have hoff : (R.TG_CTRL.EN k.val).off ∉ [(R.QUE_LEVEL.LEVEL (65 + s.val)).off, (R.QUE_LOST.V (65 + s.val)).off] := by
    clear hframe hmode
    decide +revert
  have hen : (e.pushTrig s.val p).rd (R.TG_CTRL.EN k.val) = e.rd (R.TG_CTRL.EN k.val) := onlyRegs_rd hframe hoff
  rw [genRuns, genRuns, on, on, hen, imaging, imaging, modeIn, modeIn, hmode]

theorem pushTrig_queue {e : Engine} {s : Nat} (h : e.genRuns s = true) (hl : s < e.tg.length) (p : TrigPkt) :
    ((e.pushTrig s p).gen s).queue = (trimWords trigWords 64 ((e.gen s).queue ++ [p])).1 := by
  rw [gen, pushTrig_tg h, getD_modAt_same hl]

theorem pushBoth_queue {e : Engine} {i : Side} (h : e.genRuns i.val = true) (hl : i.val < e.tg.length) (p : TrigPkt) :
    ((e.pushBoth p).gen i.val).queue = (trimWords trigWords 64 ((e.gen i.val).queue ++ [p])).1 := by
  match i with
  | 0 => exact (congrArg TimingGen.queue (gen_pushTrig_ne (e.pushTrig 0 p) (by decide) p)).trans (pushTrig_queue h hl p)
  | 1 =>
    refine (pushTrig_queue ((e.genRuns_pushTrig 0 1 p).trans h) ((e.length_tg_pushTrig 0 p).symm ▸ hl) p).trans ?_
    rw [gen_pushTrig_ne e (by decide) p]

/-- The registers of both TRIG queues. -/
abbrev trigOffs : List Nat := [(R.QUE_LEVEL.LEVEL 65).off, (R.QUE_LEVEL.LEVEL 66).off, (R.QUE_LOST.V 65).off, (R.QUE_LOST.V 66).off]

theorem pushBoth_onlyRegs (e : Engine) (p : TrigPkt) : ({ e with tg := (e.pushBoth p).tg } : Engine).onlyRegs (e.pushBoth p) trigOffs :=
  onlyRegs_trans (onlyRegs_map (onlyRegs_mono (e.pushTrig_onlyRegs 0 p) (by decide)) (f := fun y => { y with tg := (e.pushBoth p).tg }) fun _ _ => rfl)
    (onlyRegs_mono ((e.pushTrig 0 p).pushTrig_onlyRegs 1 p) (by decide))

theorem length_tg_pushBoth (e : Engine) (p : TrigPkt) : (e.pushBoth p).tg.length = e.tg.length :=
  (length_tg_pushTrig _ 1 p).trans (length_tg_pushTrig e 0 p)

/-- The packet stands last. -/
theorem pushBoth_last {e : Engine} {i : Side} (h : e.genRuns i.val = true) (hl : i.val < e.tg.length) (p : TrigPkt) :
    ∃ kept, ((e.pushBoth p).gen i.val).queue = kept ++ [p] := by
  rw [pushBoth_queue h hl p]
  refine trimWords_suffix trigWords ?_ _
  cases p <;> simp [trigWords, sumNat]

/-- A PREDICT that follows a packet leaves it in the queue before it. -/
theorem pushBoth_predict {e : Engine} {i : Side} (h : e.genRuns i.val = true) (hl : i.val < e.tg.length) {p : TrigPkt} {front : List TrigPkt}
    (hq : (e.gen i.val).queue = front ++ [p]) (t : Option Nat) : ∃ kept, ((e.pushBoth (.predict t)).gen i.val).queue = kept ++ [p, .predict t] := by
  rw [pushBoth_queue h hl, hq, List.append_assoc]
  refine trimWords_suffix trigWords ?_ _
  cases p <;> simp [trigWords, sumNat]

end Engine
end Sys2Proof.Machine
end

section
/-!
PROOFS. Encoder counts (R37, R164, R165, R398): the count, the position and its clocks, t_pred after a forward count; index edges and illegal transitions.
-/

namespace Sys2Proof.Machine

namespace Engine

/-! ### The count -/

/-- EN_COUNT has moved by one. -/
def edgeCounted (e : Engine) (n : Nat) (d : Bool) : Engine := e.addWrap (R.EN_COUNT.V n) (if d then 1 else -1)

theorem edgeCounted_onlyRegs (e : Engine) (n : Nat) (d : Bool) : e.onlyRegs (e.edgeCounted n d) [(R.EN_COUNT.V n).off] :=
  wr_onlyRegs e _ (List.mem_singleton_self _)

theorem ofSigned_lt (w : Nat) (i : Int) : ofSigned w i < 2 ^ w := by
  have hpos : (0 : Int) < 2 ^ w := by positivity
  have hlt := Int.emod_lt_of_pos i hpos
  have hnonneg := Int.emod_nonneg i hpos.ne'
  unfold ofSigned
  zify
  omega

theorem edgeCounted_rd (e : Engine) (n : Nat) (d : Bool) :
    (e.edgeCounted n d).rd (R.EN_COUNT.V n) = ofSigned 32 (e.rdS (R.EN_COUNT.V n) + (if d then 1 else -1)) :=
  rd_wr_lt e (f := R.EN_COUNT.V n) ⟨by simp, by simp⟩ (ofSigned_lt 32 _)

/-! ### A count of the trigger source -/

/-- Position and clocks of the trigger source after a count (R37, R398). -/
def edgeMot (e : Engine) (fwd : Bool) : MotionSt :=
  { e.mot with
    pos := e.mot.pos + (if fwd then 256 else -256)
    fwdCount := e.mot.fwdCount + (if fwd then 1 else -1)
    maxPos := max e.mot.maxPos (e.mot.pos + (if fwd then 256 else -256))
    maxPosTime := if e.mot.maxPos < e.mot.pos + (if fwd then 256 else -256) then e.now else e.mot.maxPosTime
    lastEdge := some e.now
    lastFwdEdge := if fwd then some e.now else e.mot.lastFwdEdge
    edgeNs := if (e.mot.lastEdge.isSome && e.mot.lastFwd == fwd) then max 1 (match e.mot.lastEdge with | some t => e.now - t | none => 0) else 0
    lastFwd := fwd
    prevFwd := e.mot.lastFwd
    zeroSince := e.mot.v == 0 }

/-- Time from the forward count before. -/
def edgeTime (e : Engine) : Nat := match e.mot.lastFwdEdge with | some t => min 0xFFFFFFFF (e.now - t) | none => 0

/-- A forward count with its time taken. -/
def edgeTimed (e : Engine) : Engine :=
  if e.mot.lastFwdEdge.isSome then ({ e with mot := e.edgeMot true } : Engine).wr R.LT_EDGE_NS.V e.edgeTime else { e with mot := e.edgeMot true }

/-- The time between counts that a prediction goes by: that of two forward counts with AX0 never at 0 between them. -/
def edgePace (e : Engine) : Option Nat := if (e.mot.lastFwd && e.mot.lastEdge.isSome && !e.mot.zeroSince) then some e.edgeTime else none

theorem sourceEdge_back (e : Engine) : e.sourceEdge false = { e with mot := e.edgeMot false } := rfl

theorem sourceEdge_forward (e : Engine) : e.sourceEdge true = (e.edgeTimed.crossBoundary).predict e.edgePace := by
  unfold sourceEdge edgePace
  rfl

theorem edgeTimed_onlyRegs (e : Engine) : ({ e with mot := e.edgeMot true } : Engine).onlyRegs e.edgeTimed [R.LT_EDGE_NS.V.off] := by
  unfold edgeTimed
  split
  · exact wr_onlyRegs _ _ (List.mem_singleton_self _)
  · exact onlyRegs_refl ..

/-! ### An edge of an encoder -/

section
variable {e : Engine} {n : Nat} {up : Bool}

theorem encEdge_other (hen : e.on (R.EN_CTRL.EN n) = true) (hn : n ≠ e.trigEnc) : e.encEdge n up = e.edgeCounted n (up != e.on (R.EN_CTRL.SWAP n)) := by
  simp [encEdge, hen, hn, edgeCounted]

theorem encEdge_source (hen : e.on (R.EN_CTRL.EN n) = true) (hn : n = e.trigEnc) :
    e.encEdge n up = (e.edgeCounted n (up != e.on (R.EN_CTRL.SWAP n))).sourceEdge ((up != e.on (R.EN_CTRL.SWAP n)) != e.on R.LT_CTRL.REV) := by
  unfold encEdge
  rw [if_neg (by simp [hen]), if_pos hn]
  rfl

/-- A backward count moves the position and nothing more. -/
theorem encEdge_back (hen : e.on (R.EN_CTRL.EN n) = true) (hn : n = e.trigEnc) (hback : (up != e.on (R.EN_CTRL.SWAP n)) = e.on R.LT_CTRL.REV) :
    e.encEdge n up = { e.edgeCounted n (up != e.on (R.EN_CTRL.SWAP n)) with mot := e.edgeMot false } := by
  rw [encEdge_source hen hn, bne_eq_false_iff_eq.mpr hback, sourceEdge_back]
  rfl

/-- A forward count, taken and timed. -/
def edgeTaken (e : Engine) (n : Nat) (up : Bool) : Engine := (e.edgeCounted n (up != e.on (R.EN_CTRL.SWAP n))).edgeTimed

theorem encEdge_forward (hen : e.on (R.EN_CTRL.EN n) = true) (hn : n = e.trigEnc) (hfwd : (up != e.on (R.EN_CTRL.SWAP n)) ≠ e.on R.LT_CTRL.REV) :
    e.encEdge n up = ((e.edgeTaken n up).crossBoundary).predict e.edgePace := by
  rw [encEdge_source hen hn, bne_iff_ne.mpr hfwd, sourceEdge_forward]
  rfl

end

theorem edgeTaken_onlyRegs (e : Engine) (n : Nat) (up : Bool) :
    ({ e with mot := e.edgeMot true } : Engine).onlyRegs (e.edgeTaken n up) [(R.EN_COUNT.V n).off, R.LT_EDGE_NS.V.off] :=
  onlyRegs_append (onlyRegs_map (e.edgeCounted_onlyRegs n _) (f := fun y => { y with mot := e.edgeMot true }) fun _ _ => rfl)
    (edgeTimed_onlyRegs (e.edgeCounted n _))

theorem edgeTaken_rd (e : Engine) (n : Nat) (up : Bool) {f : Fld} (hf : f.off ∉ [(R.EN_COUNT.V n).off, R.LT_EDGE_NS.V.off]) :
    (e.edgeTaken n up).rd f = e.rd f := onlyRegs_rd (e.edgeTaken_onlyRegs n up) hf

theorem edgeTaken_blocks (e : Engine) (n : Nat) (up : Bool) : (e.edgeTaken n up).mot = e.edgeMot true ∧ (e.edgeTaken n up).mode = e.mode ∧
    (e.edgeTaken n up).tg = e.tg ∧ (e.edgeTaken n up).now = e.now := by
  have hx := (e.edgeTaken_onlyRegs n up).1
  exact ⟨(congrArg Engine.mot hx :), (congrArg Engine.mode hx :), (congrArg Engine.tg hx :), (congrArg Engine.now hx :)⟩

/-- The registers that a count changes are none of those that the next lines and triggers go by. -/
theorem edgeOffs_apart (n : Fin 4) : R.LT_PITCH.PITCH.off ∉ [(R.EN_COUNT.V n.val).off, R.LT_EDGE_NS.V.off] ∧
    R.LT_CTRL.EN.off ∉ [(R.EN_COUNT.V n.val).off, R.LT_EDGE_NS.V.off] ∧
    ∀ i : Side, (R.TG_CTRL.EN i.val).off ∉ [(R.EN_COUNT.V n.val).off, R.LT_EDGE_NS.V.off] := by
  decide +revert

theorem genRuns_congr {e x : Engine} {i : Nat} (hmode : x.mode = e.mode) (hen : x.rd (R.TG_CTRL.EN i) = e.rd (R.TG_CTRL.EN i)) : x.genRuns i = e.genRuns i := by
  rw [genRuns, genRuns, on, on, imaging, imaging, modeIn, modeIn, hmode, hen]

section
variable (e : Engine) (n : Fin 4) (up : Bool)

theorem edgeTaken_pitch : (e.edgeTaken n.val up).pitch = e.pitch := by
  rw [pitch, pitch, e.edgeTaken_rd n.val up (edgeOffs_apart n).1]

theorem edgeTaken_boundaryAt (p : Int) : (e.edgeTaken n.val up).boundaryAt p = e.boundaryAt p := by
  unfold boundaryAt
  rw [edgeTaken_pitch]

theorem edgeTaken_triggersOn : (e.edgeTaken n.val up).triggersOn = e.triggersOn := by
  have hx := (e.edgeTaken_onlyRegs n.val up).1
  have hjob : (e.edgeTaken n.val up).job = e.job := (congrArg Engine.job hx :)
  have hreset : (e.edgeTaken n.val up).resetting = e.resetting := (congrArg Engine.resetting hx :)
  have hmode : (e.edgeTaken n.val up).mode = e.mode := (congrArg Engine.mode hx :)
  have hen : (e.edgeTaken n.val up).rd R.LT_CTRL.EN = e.rd R.LT_CTRL.EN := e.edgeTaken_rd n.val up (edgeOffs_apart n).2.1
  rw [triggersOn, triggersOn, on, on, modeIn, modeIn, hjob, hreset, hmode, hen]

theorem edgeTaken_genRuns (i : Side) : (e.edgeTaken n.val up).genRuns i.val = e.genRuns i.val :=
  genRuns_congr (congrArg Engine.mode (e.edgeTaken_onlyRegs n.val up).1 :) (e.edgeTaken_rd n.val up ((edgeOffs_apart n).2.2 i))

theorem edgeTaken_count : (e.edgeTaken n.val up).rd (R.EN_COUNT.V n.val) =
    ofSigned 32 (e.rdS (R.EN_COUNT.V n.val) + (if (up != e.on (R.EN_CTRL.SWAP n.val)) then 1 else -1)) :=
  (onlyRegs_rd (edgeTimed_onlyRegs _) (by revert n; decide)).trans (e.edgeCounted_rd n.val _)

end

/-! ### Predictions (R39, R398) -/

/-- t_pred after a count. -/
def predicted (e : Engine) (edgeNs : Option Nat) : Option Nat :=
  if (e.triggersOn && e.mot.v != 0) then
    some (e.now + ratNat ((((e.pitch : Int) * (e.boundaryAhead + 1) - e.mot.pos : Int) : Rat) / 256 *
      (match edgeNs with | some n => (n : Rat) | none => (e.rd (R.EN_NM.V e.trigEnc) : Rat) * 10000000000 / (max 1 e.mot.v.natAbs : Nat))))
  else none

theorem predict_eq {e : Engine} (h5 : e.mode ≠ .m5) (edgeNs : Option Nat) : e.predict edgeNs = e.pushBoth (.predict (e.predicted edgeNs)) := if_neg h5

theorem predict_onlyRegs (e : Engine) (edgeNs : Option Nat) : ({ e with tg := (e.predict edgeNs).tg } : Engine).onlyRegs (e.predict edgeNs) trigOffs := by
  by_cases h5 : e.mode = .m5
  · rw [show e.predict edgeNs = e from if_pos h5]
    exact onlyRegs_refl ..
  · rw [predict_eq h5]
    exact e.pushBoth_onlyRegs _

/-- Triggers are issued outside M5 alone. -/
theorem mode_of_triggersOn {e : Engine} (h : e.triggersOn = true) : e.mode ≠ .m5 := by
  intro h5
  simp [triggersOn, modeIn, h5, Mode.idx] at h

/-! ### No boundary crossed -/

theorem crossBoundary_none {e : Engine} (h : e.boundaryAt e.mot.pos = none) : e.crossBoundary = e := by
  unfold crossBoundary
  rw [h]

/-- Where the prediction goes by the time between two forward counts (R39). -/
theorem edgeTaken_predicted (e : Engine) (n : Fin 4) (up : Bool) (htrig : e.triggersOn = true) (hv : e.mot.v ≠ 0) (ns : Nat) :
    (e.edgeTaken n.val up).predicted (some ns) = some (e.now + ratNat ((((e.pitch : Int) * ((if e.fromZero = true then
      max 0 (Int.fdiv (e.mot.pos + 256) e.pitch) else Int.fdiv (e.mot.pos + 256) e.pitch) + 1) - (e.mot.pos + 256) : Int) : Rat) / 256 * (ns : Rat))) := by
  obtain ⟨hmot, hmode, -, hnow⟩ := e.edgeTaken_blocks n.val up
  have hzero : (e.edgeTaken n.val up).fromZero = e.fromZero := by
    rw [fromZero, fromZero, hmot, hmode]
    rfl
  have hpos : (e.edgeTaken n.val up).mot.pos = e.mot.pos + 256 := by
    rw [hmot]
    rfl
  have hspeed : (e.edgeTaken n.val up).mot.v = e.mot.v := by
    rw [hmot]
    rfl
  rw [predicted, boundaryAhead, hzero, hpos, hspeed, hnow, edgeTaken_pitch, edgeTaken_triggersOn, if_pos (by simp [htrig, hv])]

end Engine

theorem encoderEdge_answer (enc : Fin 4) (up : Bool) (s : State) {x : Engine} (hx : s.eng.encEdge enc.val up = x) (hnow : x.now = s.eng.now)
    (hjump : x.jump = s.eng.jump) : ∃ t, exec (.encoderEdge enc up) s = .next t ∧ t.stg = s.stg ∧ t.pending = s.pending ∧
      t.sec = (if enc = 0 then s.sec.encEdge s.eng.secNow up else s.sec) ∧ t.eng = x := by
  have hsec : x.secNow = s.eng.secNow := by rw [Engine.secNow, hnow, hjump, Engine.secNow]
  refine ⟨{ s with eng := x, sec := if enc = 0 then s.sec.encEdge s.eng.secNow up else s.sec }, ?_, rfl, rfl, rfl, rfl⟩
  have hexec : exec (.encoderEdge enc up) s =
    .next ((s.onEng fun e => e.encEdge enc.val up).onSec fun y now => (if enc.val = 0 then y.encEdge now up else y, [])) := rfl
  rw [hexec, onSec_quiet _ _ rfl, State.onEng_eng, hx, hsec]
  simp only [Fin.ext_iff]
  rfl

end Sys2Proof.Machine
end

section
/-!
PROOFS. A boundary crossed (R37, R398): the trigger that is kept or discarded, what it leaves unchanged, and its place in both TRIG queues.
-/

namespace Sys2Proof.Machine

namespace Engine

/-! ### A trigger marked for discard -/

/-- One more discard. -/
def discardCounted (e : Engine) : Engine :=
  { e with mot := { e.mot with discards := e.mot.discards + 1 }, pac := { e.pac with lullDiscards := e.pac.lullDiscards + b2n (e.mode == .m8) } }

theorem discardTrigger_eq (e : Engine) (k : Int) : e.discardTrigger k = (e.discardCounted.pushBoth (.trigger ⟨k, none, false, e.now⟩)).passes 67 1 := rfl

/-- The registers of POS and of both TRIG queues. -/
abbrev posOffs : List Nat := trigOffs ++ [(R.QUE_LEVEL.LEVEL 67).off]

theorem issued_onlyRegs (e : Engine) (p : TrigPkt) :
    ({ e with tg := ((e.pushBoth p).passes 67 1).tg } : Engine).onlyRegs ((e.pushBoth p).passes 67 1) posOffs := by
  have htg : ((e.pushBoth p).passes 67 1).tg = (e.pushBoth p).tg := (congrArg Engine.tg (passes_onlyRegs (e.pushBoth p) 67 1).1 :)
  rw [htg]
  exact onlyRegs_append (e.pushBoth_onlyRegs p) (passes_onlyRegs _ 67 1)

/-- A packet issued stands last in the queue of a side whose generator runs. -/
theorem issued_last {e : Engine} {i : Side} (h : e.genRuns i.val = true) (hl : i.val < e.tg.length) (p : TrigPkt) :
    (∃ kept, (((e.pushBoth p).passes 67 1).gen i.val).queue = kept ++ [p]) ∧ i.val < ((e.pushBoth p).passes 67 1).tg.length := by
  have htg : ((e.pushBoth p).passes 67 1).tg = (e.pushBoth p).tg := (congrArg Engine.tg (passes_onlyRegs (e.pushBoth p) 67 1).1 :)
  rw [gen, htg]
  exact ⟨pushBoth_last h hl p, (e.length_tg_pushBoth p).symm ▸ hl⟩

/-- The PREDICT behind it leaves it the last but one. -/
theorem predict_behind {e : Engine} {i : Side} (h : e.genRuns i.val = true) (hl : i.val < e.tg.length) (h5 : e.mode ≠ .m5) {p : TrigPkt}
    (hq : ∃ front, (e.gen i.val).queue = front ++ [p]) (ns : Option Nat) : (((e.predict ns).gen i.val).queue.reverse.drop 1).head? = some p := by
  obtain ⟨front, hfront⟩ := hq
  obtain ⟨kept, hkept⟩ := pushBoth_predict h hl hfront (e.predicted ns)
  rw [predict_eq h5, hkept]
  simp

/-! ### What a kept trigger may change -/

/-- An engine with what a kept trigger may change, of another engine. -/
def withKeptOf (e x : Engine) : Engine :=
  { e with tg := x.tg, mot := x.mot, pac := x.pac, feed := x.feed, frames := x.frames, chans := x.chans, cal := x.cal }

/-- From one engine to another nothing has changed but events, answers, timing generators, motion, pacer, feed, frames, tap channels, a gap calibration,
and of the registers the named ones. -/
def onlyKept (e x : Engine) (offs : List Nat) : Prop := (e.withKeptOf x).onlyBooks x offs

theorem onlyKept_of_onlyBooks {e b x : Engine} {offs : List Nat} (h : b.onlyBooks x offs) (hb : e.withKeptOf x = b.withKeptOf x) : e.onlyKept x offs := by
  rw [onlyKept, hb]
  exact onlyBooks_map h (f := fun y => y.withKeptOf x) fun _ _ _ _ _ => rfl

theorem onlyKept_trans {e x y : Engine} {offs : List Nat} (h : e.onlyKept x offs) (k : x.onlyKept y offs) : e.onlyKept y offs := by
  obtain ⟨hx, hw⟩ := h
  obtain ⟨ky, kw⟩ := k
  refine ⟨ky.trans ?_, fun off hb ho => (kw off hb ho).trans (hw off hb ho)⟩
  rw [hx]
  rfl

theorem onlyKept_mono {e x : Engine} {o p : List Nat} (h : e.onlyKept x o) (hp : ∀ n ∈ o, n ∈ p) : e.onlyKept x p := onlyBooks_mono h hp

theorem onlyKept_genRuns {e x : Engine} {offs : List Nat} (h : e.onlyKept x offs) (i : Side) (hi : (R.TG_CTRL.EN i.val).off ∉ offs) :
    x.genRuns i.val = e.genRuns i.val := by
  have hbook : ¬ bookReg (R.TG_CTRL.EN i.val).off := by
    clear h hi
    unfold bookReg
    decide +revert
  exact genRuns_congr (congrArg Engine.mode h.1 :) (by rw [rd, h.2 _ hbook hi]; rfl)

/-! ### The parts of a kept trigger -/

/-- The frames that begin by a line carry the overlap. -/
def framesOverlap (e : Engine) (k : Nat) : Engine :=
  (upTo 2).foldl (fun x s => x.modFrame s fun y => { y with fixed := y.fixed.map fun f => if f.first ≤ k then { f with overlap := true } else f }) e

theorem framesOverlap_eq (e : Engine) (k : Nat) : e.framesOverlap k = { e with frames := (e.framesOverlap k).frames } := by
  have hrest : ({ e.framesOverlap k with frames := [] } : Engine) = { e with frames := [] } := by
    refine foldl_keeps (fun x => ({ x with frames := [] } : Engine)) (fun x s _ => ?_) e
    rfl
  exact congrArg (fun y => ({ y with frames := (e.framesOverlap k).frames } : Engine)) hrest

theorem frameInGap_books (e : Engine) (k : Nat) :
    ({ e with frames := (e.frameInGap k).frames, cal := (e.frameInGap k).cal } : Engine).onlyBooks (e.frameInGap k) gapOffs := by
  unfold frameInGap
  dsimp only
  split
  · change ({ e with
        frames := ((e.framesOverlap k).gapAbandon.fault 0x08 _ 0 0 _).frames
        cal := ((e.framesOverlap k).gapAbandon.fault 0x08 _ 0 0 _).cal } : Engine).onlyBooks
      ((e.framesOverlap k).gapAbandon.fault 0x08 _ 0 0 _) gapOffs
    have hgap := (e.framesOverlap k).gapAbandon_onlyRegs
    have hframes : (e.framesOverlap k).gapAbandon.frames = (e.framesOverlap k).frames := (congrArg Engine.frames hgap.1 :)
    rw [fault_frames, fault_cal, hframes]
    refine onlyBooks_trans (onlyBooks_of_onlyRegs ?_) (fault_books ..)
    rw [framesOverlap_eq] at hgap
    rw [framesOverlap_eq]
    exact hgap
  · exact e.onlyBooks_refl _

theorem frameInGap_idle {e : Engine} (h : e.cal.gapStart = none) (k : Nat) : e.frameInGap k = e := by
  simp [frameInGap, h]

theorem seamPassed_eq (e : Engine) (k : Nat) : e.seamPassed k = { e with pac := (e.seamPassed k).pac, feed := (e.seamPassed k).feed } := by
  unfold seamPassed
  split
  · split_ifs <;> rfl
  · rfl

theorem gapStartsAt_onlyRegs (e : Engine) (k : Nat) :
    ({ e with tg := (e.gapStartsAt k).tg, cal := (e.gapStartsAt k).cal } : Engine).onlyRegs (e.gapStartsAt k) gapOffs := by
  unfold gapStartsAt
  split
  · exact onlyRegs_map (wr_onlyRegs e 1 (f := R.CAL_STATUS.RUNNING) (by decide))
      (f := fun y => { y with tg := (e.gapBegin k).tg, cal := (e.gapBegin k).cal }) fun _ _ => rfl
  · exact onlyRegs_refl ..

/-- A gap calibration that starts leaves the packets of a side. -/
theorem gapStartsAt_queue (e : Engine) (k i : Nat) : ((e.gapStartsAt k).gen i).queue = (e.gen i).queue ∧ (e.gapStartsAt k).tg.length = e.tg.length := by
  unfold gapStartsAt
  split
  · refine ⟨?_, List.length_map ..⟩
    rw [gen, gen, gapBegin, List.getD_eq_getElem?_getD, List.getElem?_map, List.getD_eq_getElem?_getD]
    cases e.tg[i]? <;> rfl
  · exact ⟨rfl, rfl⟩

/-- The taps of the sides that convert owe a line. -/
def tapsOwed (e : Engine) (k t : Nat) : Engine :=
  (upTo 2).foldl (fun x s => if x.on (R.AFE_STATUS.CONV_RUN s) then
    (x.sideChans s).foldl (fun y c => y.modChan c fun h => { h with owed := h.owed ++ [(k, t)] }) x else x) e

theorem tapsOwed_eq (e : Engine) (k t : Nat) : e.tapsOwed k t = { e with chans := (e.tapsOwed k t).chans } := by
  have hrest : ({ e.tapsOwed k t with chans := [] } : Engine) = { e with chans := [] } := by
    refine foldl_keeps (fun x => ({ x with chans := [] } : Engine)) (fun x s _ => ?_) e
    split
    · refine foldl_keeps (fun x => ({ x with chans := [] } : Engine)) (fun y c _ => ?_) x
      rfl
    · rfl
  exact congrArg (fun y => ({ y with chans := (e.tapsOwed k t).chans } : Engine)) hrest

/-! ### A kept trigger in M7 -/

/-- The index is the highest kept. -/
def keptMot (e : Engine) (k : Nat) : Engine :=
  { e.frameInGap k with mot := { (e.frameInGap k).mot with highest := some (k : Int), kept := k + 1, lastKeptTime := e.now } }

/-- All that a kept trigger of M7 does before it is issued. -/
def keptReady (e : Engine) (k : Nat) : Engine := (((e.keptMot k).seamPassed k).gapStartsAt k).tapsOwed k e.now

theorem keepTrigger_run {e : Engine} (h7 : e.mode = .m7) (k : Nat) :
    e.keepTrigger k = (((e.keptReady k).pushBoth (.trigger ⟨k, some k, false, e.now⟩)).passes 67 1).marksDone k := by
  have hm8 : (e.mode == .m8) = false := by rw [h7]; rfl
  unfold keepTrigger
  simp only [hm8, Bool.false_and, Bool.or_false]
  rfl

/-- What stands before a kept trigger of M7 is issued. -/
theorem keptReady_onlyKept (e : Engine) (k : Nat) : e.onlyKept (e.keptReady k) gapOffs := by
  have hmot : e.onlyKept (e.keptMot k) gapOffs := onlyKept_trans (onlyKept_of_onlyBooks (e.frameInGap_books k) rfl)
    (onlyKept_of_onlyBooks ((e.keptMot k).onlyBooks_refl _) rfl)
  have hseam : (e.keptMot k).onlyKept ((e.keptMot k).seamPassed k) gapOffs := by
    rw [seamPassed_eq]
    exact onlyKept_of_onlyBooks (onlyBooks_refl ..) rfl
  have howed : (((e.keptMot k).seamPassed k).gapStartsAt k).onlyKept (e.keptReady k) gapOffs := by
    unfold keptReady
    rw [tapsOwed_eq]
    exact onlyKept_of_onlyBooks (onlyBooks_refl ..) rfl
  exact onlyKept_trans hmot (onlyKept_trans hseam (onlyKept_trans (onlyKept_of_onlyBooks (onlyBooks_of_onlyRegs (gapStartsAt_onlyRegs _ k)) rfl) howed))

theorem keptReady_blocks (e : Engine) (k : Nat) :
    (e.keptReady k).mot = { e.mot with highest := some (k : Int), kept := k + 1, lastKeptTime := e.now } ∧ (e.keptReady k).tg.length = e.tg.length ∧
    (∀ i, ((e.keptReady k).gen i).queue = (e.gen i).queue) ∧ (e.cal.gapStart = none → (e.keptReady k).frames = e.frames) := by
  have hframe := (e.frameInGap_books k).1
  have htg0 : (e.frameInGap k).tg = e.tg := (congrArg Engine.tg hframe :)
  have hmot0 : (e.frameInGap k).mot = e.mot := (congrArg Engine.mot hframe :)
  have hseam := (e.keptMot k).seamPassed_eq k
  have htg1 : ((e.keptMot k).seamPassed k).tg = e.tg := (congrArg Engine.tg hseam :).trans htg0
  have hgap := (((e.keptMot k).seamPassed k).gapStartsAt_onlyRegs k).1
  have howed := (((e.keptMot k).seamPassed k).gapStartsAt k).tapsOwed_eq k e.now
  have htg2 : (e.keptReady k).tg = (((e.keptMot k).seamPassed k).gapStartsAt k).tg := (congrArg Engine.tg howed :)
  refine ⟨?_, ?_, fun i => ?_, fun hnone => ?_⟩
  · calc (e.keptReady k).mot = (((e.keptMot k).seamPassed k).gapStartsAt k).mot := (congrArg Engine.mot howed :)
      _ = ((e.keptMot k).seamPassed k).mot := (congrArg Engine.mot hgap :)
      _ = (e.keptMot k).mot := (congrArg Engine.mot hseam :)
      _ = _ := by rw [keptMot, hmot0]
  · rw [htg2, (gapStartsAt_queue _ k 0).2, htg1]
  · rw [gen, htg2]
    refine (gapStartsAt_queue _ k i).1.trans ?_
    rw [gen, htg1, gen]
  · calc (e.keptReady k).frames = (((e.keptMot k).seamPassed k).gapStartsAt k).frames := (congrArg Engine.frames howed :)
      _ = ((e.keptMot k).seamPassed k).frames := (congrArg Engine.frames hgap :)
      _ = (e.frameInGap k).frames := (congrArg Engine.frames hseam :)
      _ = e.frames := by rw [frameInGap_idle hnone]

theorem generatorEn_apart : ∀ i : Side, (R.TG_CTRL.EN i.val).off ∉ gapOffs ++ posOffs := by decide

/-- A kept trigger of M7: motion, its place in the queues, its frame. -/
theorem keepTrigger_spec {e : Engine} (h7 : e.mode = .m7) (k : Nat) : e.onlyKept (e.keepTrigger k) (gapOffs ++ posOffs) ∧
    (e.keepTrigger k).mot = { e.mot with highest := some (k : Int), kept := k + 1, lastKeptTime := e.now } ∧
    (e.cal.gapStart = none → (e.keepTrigger k).frames = e.frames) ∧
    ∀ i : Side, e.genRuns i.val = true → i.val < e.tg.length →
      (∃ front, ((e.keepTrigger k).gen i.val).queue = front ++ [.trigger ⟨k, some k, false, e.now⟩]) ∧ i.val < (e.keepTrigger k).tg.length ∧
        (e.keepTrigger k).genRuns i.val = true := by
  obtain ⟨hmot, hlen, -, hframes⟩ := e.keptReady_blocks k
  have hready := e.keptReady_onlyKept k
  have hruns (i : Side) : (e.keptReady k).genRuns i.val = e.genRuns i.val := onlyKept_genRuns hready i fun h => generatorEn_apart i (List.mem_append_left _ h)
  rw [keepTrigger_run h7]
  have hissued := (e.keptReady k).issued_onlyRegs (.trigger ⟨k, some k, false, e.now⟩)
  have hlast (i : Side) := issued_last (e := e.keptReady k) (i := i) (p := .trigger ⟨k, some k, false, e.now⟩)
  generalize ((e.keptReady k).pushBoth (.trigger ⟨k, some k, false, e.now⟩)).passes 67 1 = y at *
  have hdone : y.onlyBooks (y.marksDone k) (gapOffs ++ posOffs) := finishAll_books ..
  have htg : (y.marksDone k).tg = y.tg := (congrArg Engine.tg hdone.1 :)
  have hall : e.onlyKept (y.marksDone k) (gapOffs ++ posOffs) :=
    onlyKept_trans (onlyKept_trans (onlyKept_mono hready fun _ => List.mem_append_left _)
      (onlyKept_mono (onlyKept_of_onlyBooks (onlyBooks_of_onlyRegs hissued) rfl) fun _ => List.mem_append_right _)) (onlyKept_of_onlyBooks hdone rfl)
  refine ⟨hall, ?_, fun hnone => ?_, fun i hr hl => ?_⟩
  · exact ((congrArg Engine.mot hdone.1 :).trans (congrArg Engine.mot hissued.1 :)).trans hmot
  · exact ((congrArg Engine.frames hdone.1 :).trans (congrArg Engine.frames hissued.1 :)).trans (hframes hnone)
  · obtain ⟨hq, hl'⟩ := hlast i ((hruns i).trans hr) (hlen.symm ▸ hl)
    rw [gen, htg]
    exact ⟨hq, hl', (onlyKept_genRuns hall i (generatorEn_apart i)).trans hr⟩

end Engine
end Sys2Proof.Machine
end

section
/-!
PROOFS. Encoder edges settled (R37, R164, R165, R292, R398): what a boundary does where it is crossed, index edges, illegal transitions.
-/

namespace Sys2Proof.Machine

namespace Engine

/-! ### A boundary crossed -/

section
variable {e : Engine} {j : Int}

theorem restartCut_run (h7 : e.mode = .m7) : e.restartCut = false := by
  rw [restartCut, h7]
  rfl

/-- The base that pitch numbers count from once a boundary has been kept. -/
def basedAt (e : Engine) : Engine := { e with mot := { e.mot with base := if e.mot.highest = none then 0 else e.mot.base } }

theorem basedAt_later {h : Int} (hh : e.mot.highest = some h) : e.basedAt = e := by
  rw [basedAt, hh, if_neg (Option.some_ne_none h)]

theorem crossBoundary_kept (h7 : e.mode = .m7) (hb : e.boundaryAt e.mot.pos = some j) (htrig : e.triggersOn = true) (hfirst : e.mot.highest = none → 0 ≤ j)
    (habove : e.mot.highest = none ∨ ∃ h ∈ e.mot.highest, (h : Int) < j - e.mot.base) :
    e.crossBoundary = e.basedAt.keepTrigger (j - e.basedAt.mot.base).toNat := by
  unfold crossBoundary
  rw [hb]
  cases hh : e.mot.highest with
  | none =>
    have hj : 0 ≤ j := hfirst hh
    simp [htrig, restartCut_run h7, Int.not_lt.mpr hj, Int.min_eq_left hj, basedAt, hh]
  | some h =>
    have hlt : h < j - e.mot.base := by simpa [hh] using habove
    simp [htrig, restartCut_run h7, hlt, basedAt_later hh]

/-- Before the first kept trigger no boundary below boundary 0 keeps anything. -/
theorem crossBoundary_belowZero (h7 : e.mode = .m7) (hb : e.boundaryAt e.mot.pos = some j) (hh : e.mot.highest = none) (hj : j < 0) : e.crossBoundary = e := by
  have hzero : e.fromZero = true := by rw [fromZero, hh, h7]; rfl
  unfold crossBoundary
  rw [hb, hh]
  simp [hzero, hj]

theorem crossBoundary_discarded {h : Int} (hb : e.boundaryAt e.mot.pos = some j) (htrig : e.triggersOn = true) (hh : e.mot.highest = some h)
    (hle : j - e.mot.base ≤ h) : e.crossBoundary = e.discardTrigger (j - e.mot.base) := by
  unfold crossBoundary
  rw [hb, hh]
  simp [htrig, Int.not_lt.mpr hle]

end

/-- A forward count reaches what lies at the position one count on. -/
theorem edgeTaken_reaches (e : Engine) (n : Fin 4) (up : Bool) :
    (e.edgeTaken n.val up).boundaryAt (e.edgeTaken n.val up).mot.pos = e.boundaryAt (e.mot.pos + 256) := by
  rw [edgeTaken_boundaryAt, (e.edgeTaken_blocks n.val up).1]
  rfl

theorem encCount_apart : ∀ n : Fin 4, (R.EN_COUNT.V n.val).off ∉ trigOffs := by decide

/-- A forward count at which no trigger is kept or discarded: the position moves on, and the sides hear of it. -/
theorem encEdge_quiet {e : Engine} {n : Fin 4} {up : Bool} (hen : e.on (R.EN_CTRL.EN n.val) = true) (hn : n.val = e.trigEnc)
    (hfwd : (up != e.on (R.EN_CTRL.SWAP n.val)) ≠ e.on R.LT_CTRL.REV) (hcross : (e.edgeTaken n.val up).crossBoundary = e.edgeTaken n.val up) :
    e.encEdge n.val up = (e.edgeTaken n.val up).predict e.edgePace ∧
    (e.encEdge n.val up).rd (R.EN_COUNT.V n.val) = ofSigned 32 (e.rdS (R.EN_COUNT.V n.val) + (if (up != e.on (R.EN_CTRL.SWAP n.val)) then 1 else -1)) ∧
    ({ e with mot := e.edgeMot true, tg := (e.encEdge n.val up).tg } : Engine).onlyRegs (e.encEdge n.val up)
      ([(R.EN_COUNT.V n.val).off, R.LT_EDGE_NS.V.off] ++ trigOffs) := by
  have hpredict := (e.edgeTaken n.val up).predict_onlyRegs e.edgePace
  rw [encEdge_forward hen hn hfwd, hcross]
  refine ⟨rfl, (onlyRegs_rd hpredict (encCount_apart n)).trans (e.edgeTaken_count n up), onlyRegs_append ?_ hpredict⟩
  exact onlyRegs_map (e.edgeTaken_onlyRegs n.val up) (f := fun z => { z with tg := ((e.edgeTaken n.val up).predict e.edgePace).tg }) fun _ _ => rfl

/-- LT_EDGE_NS takes the time between two forward counts. -/
theorem edgeTaken_edgeNs {e : Engine} {t0 : Nat} (h : e.mot.lastFwdEdge = some t0) (n : Nat) (up : Bool) :
    (e.edgeTaken n up).rd R.LT_EDGE_NS.V = min 0xFFFFFFFF (e.now - t0) := by
  have htime : (e.edgeCounted n (up != e.on (R.EN_CTRL.SWAP n))).edgeTime = min 0xFFFFFFFF (e.now - t0) := by
    change e.edgeTime = _
    rw [edgeTime, h]
  have hsome : (e.edgeCounted n (up != e.on (R.EN_CTRL.SWAP n))).mot.lastFwdEdge.isSome = true := by
    change e.mot.lastFwdEdge.isSome = true
    rw [h]
    rfl
  rw [edgeTaken, edgeTimed, if_pos hsome, htime]
  exact rd_wr_lt _ ⟨by decide, by decide⟩ (Nat.lt_of_le_of_lt (Nat.min_le_left _ _) (by decide))

theorem discardTrigger_onlyRegs (e : Engine) (k : Int) :
    ({ e.discardCounted with tg := (e.discardTrigger k).tg } : Engine).onlyRegs (e.discardTrigger k) posOffs := e.discardCounted.issued_onlyRegs _

/-- A forward count that keeps a trigger in M7: what it changes at most, the motion, the trigger's place before the PREDICT. -/
theorem encEdge_kept {e : Engine} {n : Fin 4} {up : Bool} {j : Int} (hen : e.on (R.EN_CTRL.EN n.val) = true) (hn : n.val = e.trigEnc)
    (hfwd : (up != e.on (R.EN_CTRL.SWAP n.val)) ≠ e.on R.LT_CTRL.REV) (hb : e.boundaryAt (e.mot.pos + 256) = some j) (htrig : e.triggersOn = true)
    (hfirst : e.mot.highest = none → 0 ≤ j) (habove : e.mot.highest = none ∨ ∃ h ∈ e.mot.highest, (h : Int) < j - e.mot.base) (h7 : e.mode = .m7) :
    ∃ offs k, k = (j - if e.mot.highest = none then 0 else e.mot.base).toNat ∧ e.onlyKept (e.encEdge n.val up) offs ∧
      (e.encEdge n.val up).mot = { e.edgeMot true with
        base := if e.mot.highest = none then 0 else e.mot.base, highest := some (k : Int), kept := k + 1, lastKeptTime := e.now } ∧
      (e.cal.gapStart = none → (e.encEdge n.val up).frames = e.frames) ∧
      ∀ i : Side, e.genRuns i.val = true → i.val < e.tg.length →
        (((e.encEdge n.val up).gen i.val).queue.reverse.drop 1).head? = some (.trigger ⟨k, some k, false, e.now⟩) := by
  obtain ⟨hmot, hmode, htg, hnow⟩ := e.edgeTaken_blocks n.val up
  have hframes : (e.edgeTaken n.val up).frames = e.frames := (congrArg Engine.frames (e.edgeTaken_onlyRegs n.val up).1 :)
  have hcal : (e.edgeTaken n.val up).cal = e.cal := (congrArg Engine.cal (e.edgeTaken_onlyRegs n.val up).1 :)
  have hcross := crossBoundary_kept (hmode.trans h7) ((e.edgeTaken_reaches n up).trans hb) ((e.edgeTaken_triggersOn n up).trans htrig)
    (by rw [hmot]; exact hfirst) (by rw [hmot]; exact habove)
  have hruns := e.edgeTaken_genRuns n up
  have htaken := e.edgeTaken_onlyRegs n.val up
  rw [encEdge_forward hen hn hfwd, hcross]
  generalize e.edgeTaken n.val up = y at *
  have hbased : y.basedAt.mot = { e.edgeMot true with base := if e.mot.highest = none then 0 else e.mot.base } := by
    rw [basedAt, hmot]
    rfl
  have hk : (j - y.basedAt.mot.base).toNat = (j - if e.mot.highest = none then 0 else e.mot.base).toNat := by rw [hbased]
  rw [hk]
  generalize hkk : (j - if e.mot.highest = none then 0 else e.mot.base).toNat = k
  obtain ⟨hkept, hmotz, hframesz, hqueue⟩ := keepTrigger_spec (e := y.basedAt) (hmode.trans h7) k
  have h5 : (y.basedAt.keepTrigger k).mode ≠ .m5 := by
    have hm : (y.basedAt.keepTrigger k).mode = .m7 := (congrArg Engine.mode hkept.1 :).trans (hmode.trans h7)
    rw [hm]
    decide
  generalize y.basedAt.keepTrigger k = z at *
  have hpredict := z.predict_onlyRegs e.edgePace
  refine ⟨[(R.EN_COUNT.V n.val).off, R.LT_EDGE_NS.V.off] ++ ((gapOffs ++ posOffs) ++ trigOffs), k, rfl, ?_, ?_, fun hnone => ?_, fun i hr hl => ?_⟩
  · refine onlyKept_trans (onlyKept_mono (onlyKept_of_onlyBooks (onlyBooks_of_onlyRegs htaken) rfl) fun _ => List.mem_append_left _)
      (onlyKept_mono (onlyKept_trans (x := z) ?_ ?_) fun _ => List.mem_append_right _)
    · exact onlyKept_trans (onlyKept_of_onlyBooks (y.basedAt.onlyBooks_refl _) rfl) (onlyKept_mono hkept fun _ => List.mem_append_left _)
    · exact onlyKept_mono (onlyKept_of_onlyBooks (onlyBooks_of_onlyRegs hpredict) rfl) fun _ => List.mem_append_right _
  · rw [(congrArg Engine.mot hpredict.1 :), hmotz, hbased, ← hnow]
    rfl
  · exact ((congrArg Engine.frames hpredict.1 :).trans (hframesz (by rw [← hcal] at hnone; exact hnone))).trans hframes
  · obtain ⟨hfront, hlz, hrz⟩ := hqueue i ((hruns i).trans hr) (htg.symm ▸ hl)
    rw [← hnow]
    exact predict_behind hrz hlz h5 hfront _

theorem generatorEn_apart_pos (i : Side) : (R.TG_CTRL.EN i.val).off ∉ posOffs := fun h => generatorEn_apart i (List.mem_append_right _ h)

/-- A forward count whose trigger is discarded. -/
theorem encEdge_discarded {e : Engine} {n : Fin 4} {up : Bool} {j h : Int} (hen : e.on (R.EN_CTRL.EN n.val) = true) (hn : n.val = e.trigEnc)
    (hfwd : (up != e.on (R.EN_CTRL.SWAP n.val)) ≠ e.on R.LT_CTRL.REV) (hb : e.boundaryAt (e.mot.pos + 256) = some j) (htrig : e.triggersOn = true)
    (hh : e.mot.highest = some h) (hle : j - e.mot.base ≤ h) :
    ∃ offs, ({ e with
        mot := { e.edgeMot true with discards := e.mot.discards + 1 }
        pac := (e.encEdge n.val up).pac
        tg := (e.encEdge n.val up).tg } : Engine).onlyRegs (e.encEdge n.val up) offs ∧
      ∀ i : Side, e.genRuns i.val = true → i.val < e.tg.length →
        (((e.encEdge n.val up).gen i.val).queue.reverse.drop 1).head? = some (.trigger ⟨j - e.mot.base, none, false, e.now⟩) := by
  obtain ⟨hmot, hmode, htg, hnow⟩ := e.edgeTaken_blocks n.val up
  have hcross := crossBoundary_discarded (h := h) ((e.edgeTaken_reaches n up).trans hb) ((e.edgeTaken_triggersOn n up).trans htrig)
    (by rw [hmot]; exact hh) (by rw [hmot]; exact hle)
  have hruns := e.edgeTaken_genRuns n up
  have htaken := e.edgeTaken_onlyRegs n.val up
  have hbase : (e.edgeTaken n.val up).mot.base = e.mot.base := by
    rw [hmot]
    rfl
  rw [encEdge_forward hen hn hfwd, hcross, hbase]
  generalize e.edgeTaken n.val up = y at *
  have hz := y.discardTrigger_onlyRegs (j - e.mot.base)
  have hlast (i : Side) := issued_last (e := y.discardCounted) (i := i) (p := .trigger ⟨j - e.mot.base, none, false, y.now⟩)
  rw [← discardTrigger_eq] at hlast
  generalize y.discardTrigger (j - e.mot.base) = z at *
  have hmodez : z.mode = e.mode := (congrArg Engine.mode hz.1 :).trans hmode
  have hrunsz (i : Side) : z.genRuns i.val = y.genRuns i.val :=
    genRuns_congr (congrArg Engine.mode hz.1 :) (onlyRegs_rd hz (generatorEn_apart_pos i))
  have hpredict := z.predict_onlyRegs e.edgePace
  refine ⟨[(R.EN_COUNT.V n.val).off, R.LT_EDGE_NS.V.off] ++ (posOffs ++ trigOffs), ?_, fun i hr hl => ?_⟩
  · generalize z.predict e.edgePace = x at *
    have hpac : x.pac = y.discardCounted.pac := (congrArg Engine.pac hpredict.1 :).trans (congrArg Engine.pac hz.1 :)
    refine onlyRegs_append (onlyRegs_map htaken
      (f := fun w => { w with mot := { e.edgeMot true with discards := e.mot.discards + 1 }, pac := x.pac, tg := x.tg }) fun _ _ => rfl)
      (onlyRegs_append ?_ hpredict)
    have hcounted : y.discardCounted.mot = { e.edgeMot true with discards := e.mot.discards + 1 } := by
      rw [discardCounted, hmot]
      rfl
    rw [← hcounted, hpac]
    exact onlyRegs_map hz (f := fun w => { w with tg := x.tg }) fun _ _ => rfl
  · obtain ⟨hfront, hlz⟩ := hlast i ((hruns i).trans hr) (htg.symm ▸ hl)
    rw [← hnow]
    exact predict_behind ((hrunsz i).trans ((hruns i).trans hr)) hlz (hmodez ▸ mode_of_triggersOn htrig) hfront _

/-! ### Index edges and illegal transitions -/

theorem indexEdge_latches {e : Engine} {n : Nat} (h : e.on (R.EN_CTRL.IDX_EN n) = true) : e.indexEdge n = e.wr (R.EN_IDX.V n) (e.rd (R.EN_COUNT.V n)) :=
  if_pos h

theorem illegal_counted {e : Engine} {n : Nat}
    (h : n ≠ e.trigEnc ∨ e.modeIn [7, 8] = false ∨ e.job.isOpen = false ∨ e.mot.encRaised = true) : e.illegal n = e.count (R.EN_ERR.V n) 1 := by
  refine if_neg ?_
  rintro ⟨hn, hmode, hopen, hfirst⟩
  simp [hn, hmode, hopen] at h
  simp [h] at hfirst

/-- An illegal transition is counted, and marked as the job's first. -/
def encMarked (e : Engine) (n : Nat) : Engine := { e.count (R.EN_ERR.V n) 1 with mot := { e.mot with encRaised := true } }

theorem illegal_first {e : Engine} {n : Nat} (hn : n = e.trigEnc) (hmode : e.modeIn [7, 8] = true) (hopen : e.job.isOpen = true)
    (hfirst : e.mot.encRaised = false) : e.illegal n = (e.encMarked n).faultSquall 0x0A n 0 0 [(24, 4, e.rd (R.EN_COUNT.V n))] 3 :=
  if_pos ⟨hn, hmode, hopen, by rw [hfirst]; rfl⟩

/-- The Squall that a FAULT causes stops the pacer, closes the gate and leaves nothing to feed (R187). -/
theorem requestSquall_stops {e : Engine} (hfree : (e.squall.isSome || e.resetting.isSome) = false) (hmode : e.modeIn [6, 7, 8] = true) (cause d : Nat) :
    (e.requestSquall cause d).pac.st = .squall ∧ (e.requestSquall cause d).feed.gate = false ∧ (e.requestSquall cause d).feed.pend = 0 := by
  obtain ⟨hbusy, -⟩ | ⟨-, hother, -⟩ | ⟨-, -, h⟩ := requestSquall_cases e cause d
  · simp [hfree] at hbusy
  · simp [hmode] at hother
  · simp [h, abortCalGap, abortModes, squallBegun]

theorem faultSquall_stops {e : Engine} (hsquall : e.squall = none) (hr : e.resetting = none) (hmode : e.modeIn [6, 7, 8] = true)
    (cls unit detail detail2 : Nat) (p : List LayField) (cause : Nat) :
    (e.faultSquall cls unit detail detail2 p cause).pac.st = .squall ∧ (e.faultSquall cls unit detail detail2 p cause).feed.gate = false ∧
    (e.faultSquall cls unit detail detail2 p cause).feed.pend = 0 :=
  requestSquall_stops (by rw [fault_squall, fault_resetting, hsquall, hr]; rfl) (by rw [modeIn, fault_mode]; exact hmode) _ _

end Engine

theorem exec_encoderIndex (enc : Fin 4) (s : State) : exec (.encoderIndex enc) s = .next (s.onEng fun e => e.indexEdge enc.val) := rfl

theorem exec_illegalTransition (enc : Fin 4) (s : State) : exec (.illegalTransition enc) s = .next (s.onEng fun e => e.illegal enc.val) := rfl

theorem errCount_apart (n : Fin 4) : ¬ bookReg (R.EN_ERR.V n.val).off ∧ (R.EN_ERR.V n.val).off ∉ Engine.squallOffs := by
  unfold bookReg
  decide +revert

/-- Settles O27: a count is one register write and one step of the position; a boundary reached hands a trigger to both queues, before the PREDICT. -/
theorem encoderEdges : Obligations.EncoderEdges := by
  unfold Obligations.EncoderEdges
  refine ⟨?other, ?back, ?between, ?predicts, ?kept, ?belowZero, ?discarded, ?index, ?illegal, ?squall⟩
  case other =>
    intro enc up s hen hn
    obtain ⟨t, hexec, hstg, hpend, hsec, heng⟩ := encoderEdge_answer enc up s (Engine.encEdge_other hen hn) rfl rfl
    refine ⟨t, hexec, hstg, hpend, hsec, ?_⟩
    rw [heng]
    exact ⟨Engine.edgeCounted_rd .., Engine.edgeCounted_onlyRegs ..⟩
  case back =>
    intro enc up s hen hn hback
    obtain ⟨t, hexec, hstg, hpend, hsec, heng⟩ := encoderEdge_answer enc up s (Engine.encEdge_back hen hn hback) rfl rfl
    refine ⟨t, hexec, hstg, hpend, hsec, ?_⟩
    rw [heng]
    exact ⟨Engine.edgeCounted_rd .., rfl, rfl, rfl, rfl, rfl,
      Engine.onlyRegs_map (s.eng.edgeCounted_onlyRegs enc.val _) (f := fun y => { y with mot := s.eng.edgeMot false }) fun _ _ => rfl⟩
  case between =>
    intro enc up s hen hn hfwd hb
    obtain ⟨-, hcount, hframe⟩ := Engine.encEdge_quiet hen hn hfwd (Engine.crossBoundary_none ((s.eng.edgeTaken_reaches enc up).trans hb))
    obtain ⟨t, hexec, hstg, hpend, hsec, heng⟩ := encoderEdge_answer enc up s rfl (congrArg Engine.now hframe.1 :) (congrArg Engine.jump hframe.1 :)
    refine ⟨t, hexec, hstg, hpend, hsec, ?_⟩
    rw [heng]
    have hmot : (s.eng.encEdge enc.val up).mot = s.eng.edgeMot true := (congrArg Engine.mot hframe.1 :)
    rw [hmot]
    exact ⟨hcount, rfl, rfl, rfl, rfl, hframe⟩
  case predicts =>
    intro enc up i t0 s hen hn hfwd hb htrig hv hruns hl hlast hedge hzero ht0
    obtain ⟨hpredict, -, hframe⟩ := Engine.encEdge_quiet hen hn hfwd (Engine.crossBoundary_none ((s.eng.edgeTaken_reaches enc up).trans hb))
    obtain ⟨t, hexec, hstg, hpend, hsec, heng⟩ := encoderEdge_answer enc up s rfl (congrArg Engine.now hframe.1 :) (congrArg Engine.jump hframe.1 :)
    refine ⟨t, hexec, hstg, hpend, hsec, ?_⟩
    obtain ⟨-, hmode, htg, -⟩ := s.eng.edgeTaken_blocks enc.val up
    have hpace : s.eng.edgePace = some (min 0xFFFFFFFF (s.eng.now - t0)) := by
      rw [Engine.edgePace, if_pos (by simp [hlast, hedge, hzero]), Engine.edgeTime, ht0]
    have h5 : (s.eng.edgeTaken enc.val up).mode ≠ .m5 := hmode ▸ Engine.mode_of_triggersOn htrig
    have hpred := s.eng.edgeTaken_predicted enc up htrig hv (min 0xFFFFFFFF (s.eng.now - t0))
    have hns := Engine.edgeTaken_edgeNs ht0 enc.val up
    have hruns' := (s.eng.edgeTaken_genRuns enc up i).trans hruns
    rw [heng, hpredict, hpace]
    refine ⟨(Engine.onlyRegs_rd (Engine.predict_onlyRegs ..) (by decide)).trans hns, ?_⟩
    obtain ⟨kept, hkept⟩ := Engine.pushBoth_last hruns' (htg.symm ▸ hl)
      (.predict ((s.eng.edgeTaken enc.val up).predicted (some (min 0xFFFFFFFF (s.eng.now - t0)))))
    rw [Engine.predict_eq h5, hkept, hpred, List.getLast?_concat]
  case kept =>
    intro enc up j i s hen hn hfwd hb htrig hfirst habove hgen h7 hl
    have hruns : s.eng.genRuns i.val = true := by
      rw [Engine.genRuns, hgen, Engine.imaging, Engine.modeIn, h7]
      rfl
    obtain ⟨offs, k, hk, hframe, hmot, hframes, hqueue⟩ := Engine.encEdge_kept hen hn hfwd hb htrig hfirst habove h7 (up := up)
    obtain ⟨t, hexec, hstg, hpend, hsec, heng⟩ := encoderEdge_answer enc up s rfl (congrArg Engine.now hframe.1 :) (congrArg Engine.jump hframe.1 :)
    refine ⟨t, hexec, hstg, hpend, hsec, ?_⟩
    rw [heng]
    have hbase : (s.eng.encEdge enc.val up).mot.base = if s.eng.mot.highest = none then 0 else s.eng.mot.base := by rw [hmot]
    rw [hbase, ← hk]
    refine ⟨by rw [hmot]; rfl, rfl, by rw [hmot]; rfl, by rw [hmot], by rw [hmot]; rfl, by rw [hmot], hqueue i hruns hl, hframes, ?_⟩
    generalize s.eng.encEdge enc.val up = x at hframe
    rw [hframe.1]
    rfl
  case belowZero =>
    intro enc up j s hen hn hfwd hb hh hj h7
    obtain ⟨hmot, hmode, -, -⟩ := s.eng.edgeTaken_blocks enc.val up
    obtain ⟨-, -, hframe⟩ := Engine.encEdge_quiet hen hn hfwd
      (Engine.crossBoundary_belowZero (hmode.trans h7) ((s.eng.edgeTaken_reaches enc up).trans hb) (by rw [hmot]; exact hh) hj)
    obtain ⟨t, hexec, hstg, hpend, hsec, heng⟩ := encoderEdge_answer enc up s rfl (congrArg Engine.now hframe.1 :) (congrArg Engine.jump hframe.1 :)
    refine ⟨t, hexec, hstg, hpend, hsec, ?_⟩
    rw [heng]
    have hmot : (s.eng.encEdge enc.val up).mot = s.eng.edgeMot true := (congrArg Engine.mot hframe.1 :)
    refine ⟨by rw [hmot]; rfl, by rw [hmot]; rfl, by rw [hmot]; exact hh, by rw [hmot]; rfl, by rw [hmot]; rfl, ?_⟩
    generalize s.eng.encEdge enc.val up = x at hframe
    rw [hframe.1]
  case discarded =>
    intro enc up j i h s hen hn hfwd hb htrig hh hle hgen himaging hl
    have hruns : s.eng.genRuns i.val = true := by rw [Engine.genRuns, hgen, himaging]; rfl
    obtain ⟨offs, hframe, hqueue⟩ := Engine.encEdge_discarded hen hn hfwd hb htrig hh hle (up := up)
    obtain ⟨t, hexec, hstg, hpend, hsec, heng⟩ := encoderEdge_answer enc up s rfl (congrArg Engine.now hframe.1 :) (congrArg Engine.jump hframe.1 :)
    refine ⟨t, hexec, hstg, hpend, hsec, ?_⟩
    rw [heng]
    have hmot : (s.eng.encEdge enc.val up).mot = { s.eng.edgeMot true with discards := s.eng.mot.discards + 1 } := (congrArg Engine.mot hframe.1 :)
    refine ⟨by rw [hmot]; rfl, by rw [hmot]; exact hh, by rw [hmot]; rfl, by rw [hmot], hqueue i hruns hl, ?_⟩
    generalize s.eng.encEdge enc.val up = x at hframe
    rw [hframe.1]
  case index =>
    intro enc s hen hidx
    exact ⟨_, exec_encoderIndex enc s, s.onEng_engineOnly _, Engine.indexEdge_latches hidx⟩
  case illegal =>
    intro enc s hen hwhy
    refine ⟨_, exec_illegalTransition enc s, s.onEng_engineOnly _, ?_⟩
    rw [State.onEng_eng, Engine.illegal_counted hwhy]
    exact ⟨Engine.rd_count_same _ ⟨by simp, by simp⟩ 1, Engine.wr_onlyRegs _ _ (List.mem_singleton_self _)⟩
  case squall =>
    intro enc s hen hn hmode hopen hfirst hsquall hroomy
    refine ⟨_, exec_illegalTransition enc s, s.onEng_engineOnly _, ?_⟩
    rw [State.onEng_eng, Engine.illegal_first hn hmode hopen hfirst]
    have hmode' : (s.eng.encMarked enc.val).modeIn [6, 7, 8] = true := by
      have h : s.eng.modeIn [6, 7, 8] = true := by
        cases hm : s.eng.mode <;> simp [Engine.modeIn, hm, Mode.idx] at hmode ⊢
      exact h
    obtain ⟨hsays, hsq, hframe⟩ := Engine.faultSquall_spec (e := s.eng.encMarked enc.val) hroomy 0x0A enc.val 0 0 [(24, 4, s.eng.rd (R.EN_COUNT.V enc.val))] 3
    obtain ⟨hpac, hgate, hpend⟩ := Engine.faultSquall_stops (e := s.eng.encMarked enc.val) hsquall hroomy.1.1 hmode' 0x0A enc.val 0 0
      [(24, 4, s.eng.rd (R.EN_COUNT.V enc.val))] 3
    have hcount : (s.eng.encMarked enc.val).rd (R.EN_ERR.V enc.val) = _ := Engine.rd_count_same s.eng (f := R.EN_ERR.V enc.val) ⟨by simp, by simp⟩ 1
    generalize (s.eng.encMarked enc.val).faultSquall 0x0A enc.val 0 0 [(24, 4, s.eng.rd (R.EN_COUNT.V enc.val))] 3 = x at *
    have hbook : ¬ bookReg (R.EN_ERR.V enc.val).off ∧ (R.EN_ERR.V enc.val).off ∉ Engine.squallOffs := errCount_apart enc
    refine ⟨?_, hsays, ?_, hpac, hgate, hpend, (congrArg Engine.mode hframe.1 :), ?_⟩
    · rw [← hcount, Engine.rd, hframe.2 _ hbook.1 hbook.2]
      rfl
    · rw [hsq, hmode']
      simp [Engine.encMarked, hsquall, Engine.vMicron]
    · rw [hframe.1]
      rfl

end Sys2Proof.Machine
end

section
/-!
PROOFS. Rest of a Lull, of a hold and of a STOP (R177, R179, R180, R183, R185, R186): the commands that complete there, and what else changes.
-/

namespace Sys2Proof.Machine

namespace Engine

/-! ### Commands that complete at rest -/

theorem finishAll_none {e : Engine} {p : Wait → Bool} (h : ∀ c ∈ e.opens, p c.wait = false) (st : Nat) (r : List LayField) : e.finishAll p st r = e := by
  have hnil : (e.opens.filter fun c => p c.wait) = [] := List.filter_eq_nil_iff.mpr fun c hc => by simp [h c hc]
  rw [finishAll, hnil, List.foldl_nil]

theorem finishAll_one {e : Engine} {p : Wait → Bool} {c : OpenCmd} (hopens : e.opens = [c]) (hp : p c.wait = true) (st : Nat) (r : List LayField) :
    e.finishAll p st r = e.finish c st r := by
  have hone : (e.opens.filter fun c => p c.wait) = [c] := by rw [hopens, List.filter_cons_of_pos (by simpa using hp), List.filter_nil]
  rw [finishAll, hone, List.foldl_cons, List.foldl_nil]

theorem releaseRest_none {e : Engine} (h : ∀ c ∈ e.opens, c.wait ≠ .release) : e.releaseRest = e := by
  refine if_neg ?_
  simpa using h

/-- The one open command has been answered: nothing waits any more. -/
theorem finish_one_opens {e : Engine} {c d : OpenCmd} (hopens : e.opens = [c]) {st : Nat} {r : List LayField}
    (hd : d ∈ (e.finish c st r).opens) : d.wait = .built := by
  have hsub := emitBk_opens_subset { e with opens := markBuilt c e.opens } _ _ _ _ _ _ _ hd
  rw [hopens] at hsub
  simp only [markBuilt, if_true, List.mem_singleton] at hsub
  rw [hsub]

theorem releaseRest_finished {e : Engine} {c : OpenCmd} (hopens : e.opens = [c]) (st : Nat) (r : List LayField) :
    (e.finish c st r).releaseRest = e.finish c st r :=
  releaseRest_none fun d hd => by rw [finish_one_opens hopens hd]; exact Wait.noConfusion

/-! ### A job that does not close -/

theorem closeLines_open {e : Engine} (h : e.job.closing = false) : e.closeLines = e := if_pos (by rw [h]; rfl)

theorem closeCmds_open {e : Engine} (h : e.job.closing = false) (d : ShdSt) : e.closeCmds d = e := if_pos (by rw [h]; rfl)

theorem closeFromLull_open {e : Engine} (h : e.job.closing = false) : e.closeFromLull = e := if_pos (by rw [h]; rfl)

/-! ### The rest of a Lull from M7 -/

/-- PAC_LULL holds the last kept index, the Lull is counted, the pacer holds (R183). -/
def lullHeld (e : Engine) : Engine :=
  { (e.wrPair R.PAC_LULL_LO.V R.PAC_LULL_HI.V e.lastKept).count R.PAC_LULL_CNT.V 1 with
    pac := { e.pac with st := .hold, lullKept := if e.mot.kept = 0 then none else some e.lastKept, lullTime := e.now, lullDiscards := 0,
                        restPos := e.mot.pos, seamAt := none, exitSince := none } }

/-- M8, and LULL_ENTER. -/
def lullEntered (e : Engine) : Engine :=
  ((e.lullHeld.entered .m8).emit 0x15 8 0 (e.mode.idx + 256 * 6) none []).emit 0x06 e.pac.causes 0 0 none
    [(24, 6, e.lastKept), (32, 8, ofSigned 64 e.mot.pos), (40, 4, e.pac.lullSpeed)]

theorem lullCmds_none {e was : Engine} (hclosing : e.job.closing = false) (hwas : was.job.closing = false)
    (hopens : ∀ c ∈ e.opens, c.wait ≠ .holdRest false ∧ c.wait ≠ .release) : e.lullCmds was = e := by
  have hholds : e.holdsAtRest false = e := by
    refine finishAll_none (fun c hc => ?_) _ _
    obtain ⟨hhold, -⟩ := hopens c hc
    cases hw : c.wait with
    | holdRest g => cases g <;> simp_all
    | _ => rfl
  unfold lullCmds
  dsimp only
  rw [hholds, closeCmds_open hclosing, hwas]
  exact releaseRest_none fun c hc => (hopens c hc).2

theorem lullEntered_opens (e : Engine) (hgap : e.cal.gapStart = none) : e.lullEntered.opens ⊆ e.opens := by
  refine List.Subset.trans (emitBk_opens_subset ..) (List.Subset.trans (emitBk_opens_subset ..) ?_)
  rw [entered, gapAbandon_idle (e := e.lullHeld) hgap]
  exact List.Subset.refl _

/-- The registers of PAC_LULL. -/
abbrev lullOffs : List Nat := [R.PAC_LULL_LO.V.off, R.PAC_LULL_HI.V.off, R.PAC_LULL_CNT.V.off]

theorem lullHeld_onlyRegs (e : Engine) : ({ e with pac := e.lullHeld.pac } : Engine).onlyRegs e.lullHeld lullOffs :=
  onlyRegs_wr (onlyRegs_wr (wr_onlyRegs { e with pac := e.lullHeld.pac } _ (by simp)) (by simp) _) (by simp) _

theorem lullHeld_rd (e : Engine) : e.lullHeld.rdPair R.PAC_LULL_LO.V R.PAC_LULL_HI.V = e.lastKept % 2 ^ 48 ∧
    e.lullHeld.rd R.PAC_LULL_CNT.V = min (2 ^ 32 - 1) (e.rd R.PAC_LULL_CNT.V + 1) := by
  have hlo : e.lullHeld.rd R.PAC_LULL_LO.V = e.lastKept % 2 ^ 32 := by
    refine (rd_count_ne _ 1 (by decide)).trans ?_
    rw [wrPair, rd_wr_ne _ _ (by decide)]
    exact rd_wr_lt _ ⟨by decide, by decide⟩ (Nat.mod_lt _ (by decide))
  have hhi : e.lullHeld.rd R.PAC_LULL_HI.V = e.lastKept / 2 ^ 32 % 2 ^ 16 := by
    refine (rd_count_ne _ 1 (by decide)).trans ?_
    rw [wrPair]
    exact rd_wr_same _ ⟨by decide, by decide⟩ _
  refine ⟨?_, ?_⟩
  · rw [rdPair, hlo, hhi]
    omega
  · refine (rd_count_same _ ⟨by decide, by decide⟩ 1).trans ?_
    rw [wrPair, rd_wr_ne _ _ (by decide), rd_wr_ne _ _ (by decide)]
    rfl

theorem lullEntered_books {e : Engine} (hgap : e.cal.gapStart = none) :
    ({ e with mode := .m8, pac := e.lullHeld.pac } : Engine).onlyBooks e.lullEntered lullOffs := by
  have hheld : ({ e with mode := .m8, pac := e.lullHeld.pac } : Engine).onlyRegs (e.lullHeld.entered .m8) lullOffs := by
    rw [entered, gapAbandon_idle (e := e.lullHeld) hgap]
    exact onlyRegs_map e.lullHeld_onlyRegs (f := fun y => { y with mode := .m8 }) fun _ _ => rfl
  exact onlyBooks_trans (onlyBooks_of_onlyRegs hheld) (onlyBooks_trans (emit_books ..) (emit_books ..))

theorem restLull_enters {e : Engine} (hst : e.pac.st = .decel) (hrest : e.atRest = true) (h7 : e.mode = .m7) (hgap : e.cal.gapStart = none)
    (hclosing : e.job.closing = false) (hopens : ∀ c ∈ e.opens, c.wait ≠ .holdRest false ∧ c.wait ≠ .release) : e.restLull = e.lullEntered := by
  have hentered : e.lullHeld.changeMode .m8 6 none = (e.lullHeld.entered .m8).emit 0x15 8 0 (e.mode.idx + 256 * 6) none [] :=
    changeMode_eq (.inr (.inr (.inl rfl))) (by change Mode.m8 ≠ e.mode; rw [h7]; decide) 6 none
  have hjob : e.lullEntered.job.closing = false := by
    have h : e.lullEntered.job = e.job := (congrArg Engine.job (lullEntered_books hgap).1 :)
    rw [h, hclosing]
  unfold restLull
  rw [if_neg (by simp [hst, hrest]), if_neg (by rw [h7]; decide)]
  change (((e.lullHeld.changeMode .m8 6 none).emit 0x06 e.pac.causes 0 0 none _).closeFromLull).lullCmds e = _
  rw [hentered]
  change (e.lullEntered.closeFromLull).lullCmds e = _
  rw [closeFromLull_open hjob, lullCmds_none hjob hclosing fun c hc => hopens c (e.lullEntered_opens hgap hc)]

/-- Registers outside the books stand while events are told. -/
theorem lullEntered_rd {e : Engine} (hgap : e.cal.gapStart = none) {f : Fld} (hf : ¬ bookReg f.off) : e.lullEntered.rd f = e.lullHeld.rd f := by
  have hbooks : (e.lullHeld.entered .m8).onlyBooks e.lullEntered [] := onlyBooks_trans (emit_books ..) (emit_books ..)
  rw [entered, gapAbandon_idle (e := e.lullHeld) hgap] at hbooks
  rw [rd, hbooks.2 _ hf List.not_mem_nil]
  rfl

theorem lullOffs_apart : ∀ off ∈ lullOffs, ¬ bookReg off := by
  unfold bookReg
  decide

/-- With room, an event joins the end of EVT. -/
theorem emit_queue {e : Engine} (hr : e.resetting = none) (hf : e.pins.failed = false) (hl : e.evt.lost = none) (hq : e.evt.queue.length < 256)
    (code subj status arg : Nat) (hs : Option Nat) (p : List LayField) : ∃ v : Ev, v.brief = (code, subj, status, hs, arg) ∧
      (e.emit code subj status arg hs p).evt.queue = e.evt.queue ++ [v] ∧ (e.emit code subj status arg hs p).evt.lost = none ∧
      (e.emit code subj status arg hs p).opens = e.opens := by
  obtain ⟨v, hevt, hbrief⟩ := emitBk_queue hr hf hl hq code subj status arg hs p .none
  refine ⟨v, hbrief, congrArg EvtQueue.queue hevt, ?_, emitBk_opens e hq ..⟩
  exact (congrArg EvtQueue.lost hevt).trans hl

/-- MODE_CHANGED and LULL_ENTER are told, in that order. -/
theorem lullEntered_tells {e : Engine} (h : e.roomy) (h7 : e.mode = .m7) (hgap : e.cal.gapStart = none) :
    e.tells e.lullEntered [(0x15, 8, 0, none, 7 + 256 * 6), (0x06, e.pac.causes, 0, none, 0)] ∧
    e.lullEntered.toldBytes [(24, 6, e.lastKept), (32, 8, ofSigned 64 e.mot.pos), (40, 4, e.pac.lullSpeed)] := by
  obtain ⟨⟨hr, hf⟩, hl, hroom⟩ := h
  have hmode : e.mode.idx = 7 := by rw [h7]; rfl
  have hentered : e.lullHeld.entered .m8 = { e.lullHeld with mode := .m8 } := by rw [entered, gapAbandon_idle (e := e.lullHeld) hgap]
  obtain ⟨v, hv, hqueue, hlost, -⟩ := emit_queue (e := e.lullHeld.entered .m8) (by rw [hentered]; exact hr) (by rw [hentered]; exact hf)
    (by rw [hentered]; exact hl) (by rw [hentered]; change e.evt.queue.length < 256; omega) 0x15 8 0 (e.mode.idx + 256 * 6) none []
  have hevt : (e.lullHeld.entered .m8).evt = e.evt := by rw [hentered]; rfl
  have hr' : ((e.lullHeld.entered .m8).emit 0x15 8 0 (e.mode.idx + 256 * 6) none []).resetting = none := by rw [emit_resetting, hentered]; exact hr
  have hf' : ((e.lullHeld.entered .m8).emit 0x15 8 0 (e.mode.idx + 256 * 6) none []).pins.failed = false := by rw [emit_pins, hentered]; exact hf
  obtain ⟨w, hw, hqueue', -, -⟩ := emit_queue hr' hf' hlost (by rw [hqueue, hevt, List.length_append, List.length_singleton]; omega) 0x06 e.pac.causes 0 0 none
    [(24, 6, e.lastKept), (32, 8, ofSigned 64 e.mot.pos), (40, 4, e.pac.lullSpeed)]
  refine ⟨?_, emit_toldBytes _ hr' hf' ..⟩
  rw [Engine.tells, lullEntered, hqueue', hqueue, hevt]
  simp [hv, hw, hmode]

/-! ### AX0 at rest for a hold or a STOP -/

theorem restAx0_gapStop {e : Engine} {h tag : Nat} (hrest : e.atRest = true) (h7 : e.mode = .m7) (hst : e.pac.st = .gapStop)
    (hopens : e.opens = [⟨h, tag, 0x05, .holdRest true⟩]) : e.restAx0 = e.finish ⟨h, tag, 0x05, .holdRest true⟩ stOk [] := by
  have hone : e.holdsAtRest true = e.finish ⟨h, tag, 0x05, .holdRest true⟩ stOk [] := finishAll_one hopens (by rfl) _ _
  unfold restAx0
  rw [if_neg (by simp [hrest, h7]), hst]
  dsimp only
  rw [hone, releaseRest_finished hopens]

/-- The module is back in M6, the pacer idle. -/
def stopEntered (e : Engine) : Engine := ((e.setPac .idle).entered .m6).emit 0x15 6 0 (e.mode.idx + 256 * 5) none []

theorem stopEntered_books {e : Engine} (hgap : e.cal.gapStart = none) :
    ({ e with mode := .m6, pac := { e.pac with st := .idle } } : Engine).onlyBooks e.stopEntered [] := by
  have hheld : (e.setPac .idle).entered .m6 = { e with mode := .m6, pac := { e.pac with st := .idle } } := by
    rw [entered, gapAbandon_idle (e := e.setPac .idle) hgap]
    rfl
  rw [stopEntered, hheld]
  exact emit_books ..

/-- MODE_CHANGED is told, and what the STOP's answer may add comes behind it. -/
theorem stopEntered_told {e : Engine} (h : e.roomy) (h7 : e.mode = .m7) (hgap : e.cal.gapStart = none) : e.stopEntered.opens = e.opens ∧
    e.stopEntered.evt.lost = none ∧ ∃ v : Ev, v.brief = (0x15, 6, 0, none, 7 + 256 * 5) ∧ e.stopEntered.evt.queue = e.evt.queue ++ [v] := by
  obtain ⟨⟨hr, hf⟩, hl, hroom⟩ := h
  have hmode : e.mode.idx = 7 := by rw [h7]; rfl
  have hentered : (e.setPac .idle).entered .m6 = { e.setPac .idle with mode := .m6 } := by rw [entered, gapAbandon_idle (e := e.setPac .idle) hgap]
  rw [stopEntered, hentered, hmode]
  obtain ⟨v, hv, hqueue, hlost, hopens⟩ := emit_queue (e := { e.setPac .idle with mode := .m6 }) hr hf hl
    (by change e.evt.queue.length < 256; omega) 0x15 6 0 (7 + 256 * 5) none []
  exact ⟨hopens, hlost, v, hv, hqueue⟩

/-- The answer to the one open command leaves what EVT held before. -/
theorem finish_one_keeps {e : Engine} {c : OpenCmd} (hopens : e.opens = [c]) (hwait : c.wait ≠ .built) (hl : e.evt.lost = none)
    (hq : e.evt.queue.length < 256) (st : Nat) (r : List LayField) : e.evt.queue <+: (e.finish c st r).evt.queue := by
  have hun : e.unanswered = [c] := by rw [unanswered, hopens, List.filter_cons_of_pos (by simpa using hwait), List.filter_nil]
  exact (finish_grows hl (by rw [hun, List.length_singleton]; omega) (hun ▸ List.mem_singleton_self c) st r).1.kept

theorem restAx0_stopping {e : Engine} {h tag : Nat} (hrest : e.atRest = true) (h7 : e.mode = .m7) (hst : e.pac.st = .stopping) (hflight : e.feed.flight = [])
    (hgap : e.cal.gapStart = none) (hclosing : e.job.closing = false) (hopens : e.stopEntered.opens = [⟨h, tag, 0x07, .stopRest⟩]) :
    e.restAx0 = e.stopEntered.finish ⟨h, tag, 0x07, .stopRest⟩ stOk [] := by
  have hentered : ((e.setPac .idle).gapAbandon).changeMode .m6 5 none = e.stopEntered := by
    rw [gapAbandon_idle (e := e.setPac .idle) hgap]
    exact changeMode_eq (e := e.setPac .idle) (.inl rfl) (by change Mode.m6 ≠ e.mode; rw [h7]; decide) 5 none
  have hjob : e.stopEntered.job.closing = false := by
    have hj : e.stopEntered.job = e.job := (congrArg Engine.job (stopEntered_books hgap).1 :)
    rw [hj, hclosing]
  have hholds : e.stopEntered.holdsAtRest true = e.stopEntered := finishAll_none (by rw [hopens]; simp) _ _
  have hone : e.stopEntered.stopsAtRest = e.stopEntered.finish ⟨h, tag, 0x07, .stopRest⟩ stOk [] := finishAll_one hopens (by rfl) _ _
  unfold restAx0
  rw [if_neg (by simp [hrest, h7]), hst]
  dsimp only
  rw [if_neg (by simp [hflight]), hentered, closeLines_open hjob, hholds, closeCmds_open hjob, hone, releaseRest_finished hopens]

end Engine

end Sys2Proof.Machine
end

section
/-!
PROOFS. The rest of a Squall (R116, R127, R187): the lines of the job end, with the frames, pages, buffers and monitors that end
there; what all of that leaves alone.
-/

namespace Sys2Proof.Machine

namespace Engine

/-! ### What the end of a job's lines leaves alone -/

/-- Mode and time, reset, pins, flash, commands taken, the status block, the memory, motion, the section's words, Squall, job and feed. -/
def besideLines (e : Engine) :=
  ((e.mode, e.now, e.jump, e.resetting, e.pins, e.flash, e.cmdIn), (e.status, e.qdr, e.mot, e.met, e.mets), (e.squall, e.job, e.feed))

section
variable (e : Engine)

@[simp] theorem besideLines_wr (f : Fld) (v : Nat) : (e.wr f v).besideLines = e.besideLines := rfl

@[simp] theorem besideLines_count (f : Fld) (n : Nat) : (e.count f n).besideLines = e.besideLines := rfl

@[simp] theorem besideLines_wrPair (lo hi : Fld) (v : Nat) : (e.wrPair lo hi v).besideLines = e.besideLines := rfl

@[simp] theorem besideLines_modStream (n : Nat) (f : Stream → Stream) : (e.modStream n f).besideLines = e.besideLines := rfl

@[simp] theorem besideLines_modFrame (n : Nat) (f : FrameSt → FrameSt) : (e.modFrame n f).besideLines = e.besideLines := rfl

@[simp] theorem besideLines_modGu (n : Nat) (f : GuSt → GuSt) : (e.modGu n f).besideLines = e.besideLines := rfl

@[simp] theorem besideLines_modMon (n : Nat) (f : MonSt → MonSt) : (e.modMon n f).besideLines = e.besideLines := rfl

@[simp] theorem besideLines_modEddy (n : Nat) (f : EddySt → EddySt) : (e.modEddy n f).besideLines = e.besideLines := rfl

@[simp] theorem besideLines_issueReadback (n idx addr : Nat) : (e.issueReadback n idx addr).besideLines = e.besideLines := rfl

theorem besideLines_of_books {e x : Engine} (h : e.onlyBooks x []) : x.besideLines = e.besideLines := by
  rw [h.1]
  rfl

@[simp] theorem besideLines_emitBk (code subj status arg : Nat) (hs : Option Nat) (p : List LayField) (bk : Booking) :
    (e.emitBk code subj status arg hs p bk).besideLines = e.besideLines := besideLines_of_books (emitBk_books ..)

@[simp] theorem besideLines_emit (code subj status arg : Nat) (hs : Option Nat) (p : List LayField) :
    (e.emit code subj status arg hs p).besideLines = e.besideLines := besideLines_of_books (emit_books ..)

@[simp] theorem besideLines_finishAll (p : Wait → Bool) (st : Nat) (r : List LayField) : (e.finishAll p st r).besideLines = e.besideLines :=
  besideLines_of_books (finishAll_books ..)

/-! ### Monitors and geometry -/

@[simp] theorem besideLines_monEvent (m : Nat) : (e.monEvent m).besideLines = e.besideLines := besideLines_emit ..

@[simp] theorem besideLines_monShow (m : Nat) : (e.monShow m).besideLines = e.besideLines := rfl

theorem besideLines_monResult (m : Nat) : (e.monResult m).besideLines = e.besideLines := by
  unfold monResult
  dsimp only
  split_ifs
  · simp
  all_goals
    split
    · split_ifs <;> simp
    · simp

theorem besideLines_closePageWindows (s : Nat) : (e.closePageWindows s).besideLines = e.besideLines := by
  refine foldl_keeps besideLines (fun x m _ => ?_) e
  dsimp only
  split
  · exact besideLines_monResult ..
  · rfl

theorem besideLines_trailingEdge (s n : Nat) : (e.trailingEdge s n).besideLines = e.besideLines := by
  unfold trailingEdge
  dsimp only
  split <;> rfl

/-! ### Streams -/

/-- A stream's ring leaves RUN: commands received stay, they have a ring of their own. -/
theorem besideLines_leaveRun (n st : Nat) : (e.leaveRun (3 + n) st).besideLines = e.besideLines := by
  unfold leaveRun
  dsimp only
  rw [if_neg (by omega)]
  rfl

@[simp] theorem besideLines_bufDone (n : Nat) (b : Buf) (st k : Nat) (final : Bool) (nok : Option (Nat × Nat × Nat)) :
    (e.bufDone n b st k final nok).besideLines = e.besideLines := besideLines_emitBk ..

@[simp] theorem besideLines_forgetReads (n : Nat) : (e.forgetReads n).besideLines = e.besideLines := rfl

@[simp] theorem besideLines_resumeReplay (n : Nat) : (e.resumeReplay n).besideLines = e.besideLines := by
  unfold resumeReplay unhalt
  split <;> rfl

theorem besideLines_flushDone (n fuel : Nat) : (e.flushDone n fuel).besideLines = e.besideLines := by
  induction fuel generalizing e with
  | zero => rfl
  | succ fuel ih =>
    unfold flushDone
    dsimp only
    split
    · rfl
    · split
      · rfl
      · split
        · split
          · rfl
          · rw [ih]
            split_ifs <;> simp
        · rw [ih]
          simp
        · rw [ih]
          simp
        · split
          · rw [ih]
            simp
          · split
            · rfl
            · split <;> simp [besideLines_leaveRun]
        · rfl

@[simp] theorem besideLines_recalcCap : e.recalcCap.besideLines = e.besideLines := rfl

theorem besideLines_streamCmds (n : Nat) (old : Stream) : (e.streamCmds n old).besideLines = e.besideLines := by
  have hstop (x : Engine) : (x.checkStop n).besideLines = x.besideLines := by
    unfold checkStop
    dsimp only
    split
    · simp [recalcBpm]
    · rfl
  unfold streamCmds
  dsimp only
  rw [hstop]
  split
  · exact besideLines_finishAll ..
  · rfl

theorem besideLines_settleStream (n : Nat) : (e.settleStream n).besideLines = e.besideLines := by
  rw [settleStream, besideLines_streamCmds, besideLines_flushDone]

@[simp] theorem besideLines_closeBuf (n : Nat) (b : Buf) (last : Nat) (job gone : Bool) : (e.closeBuf n b last job gone).besideLines = e.besideLines := by
  unfold closeBuf
  dsimp only
  split_ifs <;> rfl

theorem besideLines_closeEnding (n : Nat) : (e.closeEnding n).besideLines = e.besideLines := by
  unfold closeEnding
  dsimp only
  split
  · rfl
  · split
    · rfl
    · split
      · split <;> simp
      · rfl

/-! ### Pages -/

theorem besideLines_pageLast (n no : Nat) : (e.pageLast n no).besideLines = e.besideLines := by
  unfold pageLast
  dsimp only
  split
  · rfl
  · split
    · split <;> simp
    · rfl

theorem besideLines_pageOver (n no : Nat) : (e.pageOver n no).besideLines = e.besideLines := by
  unfold pageOver
  dsimp only
  split
  · exact e.besideLines_pageLast n no
  · split
    · rw [besideLines_settleStream, besideLines_closeEnding, besideLines_modStream, besideLines_recalcCap, stopStream, besideLines_modStream,
        besideLines_pageLast]
    · rw [besideLines_modStream, besideLines_pageLast]

theorem besideLines_finishRuns (g fuel : Nat) : (e.finishRuns g fuel).besideLines = e.besideLines := by
  induction fuel generalizing e with
  | zero => rfl
  | succ fuel ih =>
    unfold finishRuns
    split
    · split
      · rw [ih, foldl_keeps besideLines (fun x k _ => x.besideLines_pageOver k.1 _), besideLines_modGu]
      · rfl
    · rfl

theorem besideLines_finishSide (s : Nat) : (e.finishSide s).besideLines = e.besideLines :=
  foldl_keeps besideLines (fun x g _ => x.besideLines_finishRuns g 16) e

/-! ### Frames, with nothing in flight -/

theorem feed_of_besideLines {e x : Engine} (h : x.besideLines = e.besideLines) : x.feed = e.feed := by
  simp only [besideLines, Prod.mk.injEq] at h
  exact h.2.2.2.2

variable {e}

/-- A frame that closes takes its document out of flight: where nothing is in flight, nothing changes. -/
theorem docClosed_idle (h : e.feed.flight = []) (s : Nat) : e.docClosed s = e := by
  have hflight : (docClosed.go s e.feed.flight).filter (fun d => !d.sides.isEmpty) = e.feed.flight := by rw [h]; rfl
  rw [docClosed, hflight]

theorem besideLines_docClosed (h : e.feed.flight = []) {y : Engine} (hy : y.besideLines = e.besideLines) (s : Nat) :
    ((y.docClosed s).finishSide s).besideLines = e.besideLines := by
  rw [besideLines_finishSide, docClosed_idle (by rw [feed_of_besideLines hy, h]), hy]

theorem besideLines_closeFrame (h : e.feed.flight = []) (s n : Nat) (trunc incomplete : Bool) :
    (e.closeFrame s n trunc incomplete).besideLines = e.besideLines := by
  unfold closeFrame
  refine besideLines_docClosed h ?_ s
  rw [besideLines_wr]
  refine (foldl_keeps besideLines (fun _ _ _ => besideLines_modGu ..) _ :).trans ?_
  rw [besideLines_modFrame]
  split <;> rfl

theorem besideLines_cutLines (h : e.feed.flight = []) (s last n : Nat) (squall : Bool) : (e.cutLines s last n squall).besideLines = e.besideLines := by
  have htrail : (if e.docInView s then e.trailingEdge s last else e).besideLines = e.besideLines := by
    split
    · exact e.besideLines_trailingEdge s last
    · rfl
  unfold cutLines
  dsimp only
  generalize (if e.docInView s then e.trailingEdge s last else e) = x at *
  refine (foldl_keeps besideLines (fun _ _ _ => besideLines_modGu ..) _).trans ?_
  split
  · rw [besideLines_closePageWindows, besideLines_closeFrame (by rw [feed_of_besideLines htrail, h]), htrail]
  · exact htrail

theorem besideLines_endLines (h : e.feed.flight = []) (s : Nat) (squall : Bool) : (e.endLines s squall).besideLines = e.besideLines := by
  unfold endLines
  dsimp only
  generalize hx : (e.modEddy s _).modFrame s _ = x
  have hkept : x.besideLines = e.besideLines := by rw [← hx, besideLines_modFrame, besideLines_modEddy]
  have hcut (last n : Nat) : (x.cutLines s last n squall).besideLines = e.besideLines :=
    (besideLines_cutLines (by rw [feed_of_besideLines hkept, h]) s last n squall).trans hkept
  split
  · exact hkept
  · split
    · exact hkept
    · exact hcut ..
  · split_ifs
    · exact hcut ..
    · exact hcut ..
    · exact hkept

end

/-! ### The rest of a Squall (R187) -/

/-- The lines of the job have ended. -/
def jobEnded (e : Engine) : Engine := { e with job := { e.job with ended := true } }

theorem besideLines_endJobLines {e : Engine} (h : e.feed.flight = []) (squall : Bool) : (e.endJobLines squall).besideLines = e.jobEnded.besideLines := by
  unfold endJobLines
  cases hended : e.job.ended
  · have hfirst : (e.jobEnded.endLines 0 squall).besideLines = e.jobEnded.besideLines := besideLines_endLines (e := e.jobEnded) h 0 squall
    have hflight : (e.jobEnded.endLines 0 squall).feed.flight = [] := by
      rw [feed_of_besideLines hfirst]
      exact h
    exact (besideLines_endLines hflight 1 squall).trans hfirst
  · have hsame : e.jobEnded = e := by rw [jobEnded, ← hended]
    rw [hsame]
    rfl

theorem besideLines_gapAbandon (e : Engine) : e.gapAbandon.besideLines = e.besideLines := by
  unfold gapAbandon
  split <;> rfl

/-- The same mode entered leaves the same beside the lines. -/
theorem besideLines_modeSet {e x : Engine} (h : x.besideLines = e.besideLines) (m : Mode) :
    ({ x with mode := m } : Engine).besideLines = ({ e with mode := m } : Engine).besideLines := by
  simp only [besideLines, Prod.mk.injEq] at h ⊢
  tauto

theorem besideLines_releaseRest (e : Engine) : e.releaseRest.besideLines = e.besideLines := by
  unfold releaseRest
  split
  · split
    · exact besideLines_finishAll ..
    · exact besideLines_finishAll ..
  · rfl

/-- AX0 is at rest in a Squall: nothing is in flight any more. -/
def squallRested (e : Engine) (q : SquallSt) : Engine :=
  { e with squall := some { q with rest := true, restTime := e.now }, feed := { e.feed with flight := [] } }

section
variable {e x : Engine} (h : x.besideLines = e.besideLines) (hclosing : e.job.closing = false)
include h hclosing

theorem closing_of_besideLines : x.job.closing = false := by
  simp only [besideLines, Prod.mk.injEq] at h
  obtain ⟨-, -, -, hjob, -⟩ := h
  rw [hjob, hclosing]

theorem besideLines_closeLines : x.closeLines.besideLines = e.besideLines := by
  rw [closeLines_open (closing_of_besideLines h hclosing), h]

theorem besideLines_closeCmds (d : ShdSt) : (x.closeCmds d).besideLines = e.besideLines := by
  rw [closeCmds_open (closing_of_besideLines h hclosing), h]

end

theorem besideLines_pairSet (e : Engine) (b : Bool) (p : PairSt) : (if b then { e with pair := p } else e : Engine).besideLines = e.besideLines := by
  cases b <;> rfl

theorem besideLines_enter9 {e : Engine} (h : Mode.m9 ≠ e.mode) (cause : Nat) (hs : Option Nat) :
    (e.changeMode .m9 cause hs).besideLines = ({ e with mode := .m9 } : Engine).besideLines := by
  rw [changeMode_eq (.inr (.inr (.inr rfl))) h, besideLines_emit]
  exact besideLines_modeSet (besideLines_gapAbandon e) .m9

theorem besideLines_restSquall {e : Engine} {q : SquallSt} (hq : e.squall = some q) (hqrest : q.rest = false) (hrest : e.atRest = true)
    (hmode : e.modeIn [6, 7, 8] = true) (hclosing : e.job.closing = false) :
    e.restSquall.besideLines = ({ (e.squallRested q).jobEnded with mode := .m9 } : Engine).besideLines := by
  have hended : ((e.squallRested q).endJobLines true).besideLines = (e.squallRested q).jobEnded.besideLines := besideLines_endJobLines (by rfl) true
  have hne : Mode.m9 ≠ ((e.squallRested q).endJobLines true).mode := by
    have hm : ((e.squallRested q).endJobLines true).mode = e.mode := (congrArg (fun l => l.1.1) hended :)
    rw [hm]
    rintro h9
    rw [modeIn, ← h9] at hmode
    exact absurd hmode (by decide)
  have hopen : ({ (e.squallRested q).jobEnded with mode := .m9 } : Engine).job.closing = false := hclosing
  have hentered := (besideLines_enter9 hne 7 none).trans (besideLines_modeSet hended .m9)
  unfold restSquall
  rw [hq]
  dsimp only
  rw [if_neg (by simp [hqrest, hrest])]
  refine (besideLines_releaseRest _).trans (besideLines_closeCmds ((besideLines_finishAll ..).trans ?_) hopen _)
  have hlines := besideLines_closeLines ((besideLines_emit _ 0x08 q.cause 0 0
    (if q.cause = 0 then e.waitingHseq (fun (w : Wait) => w == .squallRest) else none)
    [(24, 6, e.lastKept), (32, 8, ofSigned 64 e.mot.pos), (40, 4, ofSigned 32 q.speed), (44, 4, q.fault)]).trans hentered) hopen
  exact (besideLines_pairSet ..).trans ((besideLines_finishAll ..).trans hlines)

end Engine

theorem exec_lullRest (s : State) : exec .lullRest s = .next (s.onEng Engine.restLull) := rfl

theorem exec_lullExitCondition (s : State) : exec .lullExitCondition s = .next (s.onEng Engine.exitLull) := rfl

theorem exec_backtrackDone (s : State) : exec .backtrackDone s = .next (s.onEng Engine.backDone) := rfl

theorem exec_ax0Rest (s : State) : exec .ax0Rest s = .next (s.onEng Engine.restAx0) := rfl

theorem exec_squallRest (s : State) : exec .squallRest s = .next ((s.onEng Engine.restSquall).onSec fun x now =>
    (if (s.onEng Engine.restSquall).eng.mode = .m9 ∧ s.eng.mode ≠ .m9 then x.cutPiece now else x, [])) := rfl

/-- A Squall that comes to rest in M6 to M8: the module is in M9, with what the end of the job's lines leaves alone. -/
theorem squallRest_rests {s : State} {q : SquallSt} (hq : s.eng.squall = some q) (hqrest : q.rest = false) (hrest : s.eng.atRest = true)
    (hmode : s.eng.modeIn [6, 7, 8] = true) (hclosing : s.eng.job.closing = false) : ∃ t, exec .squallRest s = .next t ∧ t.stg = s.stg ∧
      t.pending = s.pending ∧ t.sec = s.sec.cutPiece s.eng.secNow ∧
      t.eng.besideLines = ({ (s.eng.squallRested q).jobEnded with mode := .m9 } : Engine).besideLines := by
  have hbeside := Engine.besideLines_restSquall hq hqrest hrest hmode hclosing
  have h9 : s.eng.restSquall.mode = .m9 := (congrArg (fun l => l.1.1) hbeside :)
  have hnow : s.eng.restSquall.now = s.eng.now := (congrArg (fun l => l.1.2.1) hbeside :)
  have hjump : s.eng.restSquall.jump = s.eng.jump := (congrArg (fun l => l.1.2.2.1) hbeside :)
  have hsec : s.eng.restSquall.secNow = s.eng.secNow := by rw [Engine.secNow, hnow, hjump, Engine.secNow]
  have hne : s.eng.mode ≠ .m9 := by
    intro hm
    rw [Engine.modeIn, hm] at hmode
    exact absurd hmode (by decide)
  refine ⟨{ s with eng := s.eng.restSquall, sec := s.sec.cutPiece s.eng.secNow }, ?_, rfl, rfl, rfl, hbeside⟩
  rw [exec_squallRest, onSec_quiet _ _ rfl, State.onEng_eng, if_pos ⟨h9, hne⟩, hsec]
  rfl

/-- Settles O30: at rest each of these is one change of the pacer, with the events it tells; no command answered there changes more. -/
theorem lullAndRestart : Obligations.LullAndRestart := by
  unfold Obligations.LullAndRestart
  refine ⟨?enters, ?exits, ?backtracked, ?gapHold, ?stop, ?squall⟩
  case enters =>
    intro s hst hrest h7 hgap hclosing hopens hroomy
    refine ⟨_, exec_lullRest s, s.onEng_engineOnly _, ?_⟩
    rw [State.onEng_eng, Engine.restLull_enters hst hrest h7 hgap hclosing hopens]
    have hbooks := Engine.lullEntered_books hgap
    obtain ⟨htells, hbytes⟩ := Engine.lullEntered_tells hroomy h7 hgap
    obtain ⟨hpair, hcount⟩ := s.eng.lullHeld_rd
    have hrd {f : Fld} (hf : f.off ∈ Engine.lullOffs) := Engine.lullEntered_rd hgap (Engine.lullOffs_apart f.off hf)
    have hpair' : s.eng.lullEntered.rdPair R.PAC_LULL_LO.V R.PAC_LULL_HI.V = s.eng.lastKept % 2 ^ 48 := by
      rw [← hpair, Engine.rdPair, hrd (by simp), hrd (by simp), Engine.rdPair]
    have hcount' := (hrd (f := R.PAC_LULL_CNT.V) (by simp)).trans hcount
    generalize s.eng.lullEntered = x at *
    have hmode : x.mode = .m8 := (congrArg Engine.mode hbooks.1 :)
    have hpac : x.pac = s.eng.lullHeld.pac := (congrArg Engine.pac hbooks.1 :)
    refine ⟨hmode, ?_, ?_, hcount', htells, hbytes, ?_⟩
    · rw [hpac, Engine.lullHeld, Engine.lastKept]
      by_cases hk : s.eng.mot.kept = 0 <;> simp [hk]
    · rw [hpair', Engine.lastKept]
      split_ifs <;> rfl
    · rw [hmode, hpac]
      exact hbooks
  case exits =>
    intro t0 s hsince h8 hst hdue hexit
    refine ⟨_, exec_lullExitCondition s, s.onEng_engineOnly _, ?_⟩
    rw [State.onEng_eng, Engine.exitLull, hsince]
    exact if_pos ⟨h8, hst, hdue, hexit⟩
  case backtracked =>
    intro s h8 hst hv hleft
    exact ⟨_, exec_backtrackDone s, s.onEng_engineOnly _, if_pos ⟨h8, hst, hv, hleft⟩⟩
  case gapHold =>
    intro h tag s hrest h7 hst hopens hr hf
    refine ⟨_, exec_ax0Rest s, s.onEng_engineOnly _, ?_⟩
    rw [State.onEng_eng, Engine.restAx0_gapStop hrest h7 hst hopens]
    exact ⟨Engine.finish_answered _ hr hf .., Engine.finish_books ..⟩
  case stop =>
    intro h tag s hrest h7 hst hflight hgap hclosing hopens hroomy
    refine ⟨_, exec_ax0Rest s, s.onEng_engineOnly _, ?_⟩
    obtain ⟨hkept, hlost, v, hv, hqueue⟩ := Engine.stopEntered_told hroomy h7 hgap
    have hopens' := hkept.trans hopens
    obtain ⟨⟨hr, hf⟩, -, hroom⟩ := hroomy
    rw [State.onEng_eng, Engine.restAx0_stopping hrest h7 hst hflight hgap hclosing hopens']
    have hbooks := Engine.stopEntered_books hgap
    have hr' : s.eng.stopEntered.resetting = none := (congrArg Engine.resetting hbooks.1 :).trans hr
    have hf' : s.eng.stopEntered.pins.failed = false := (congrArg (fun x => x.pins.failed) hbooks.1 :).trans hf
    have hkeeps := Engine.finish_one_keeps hopens' Wait.noConfusion hlost
      (by rw [hqueue, List.length_append, List.length_singleton]; omega) stOk []
    have hanswered := Engine.finish_answered s.eng.stopEntered hr' hf' ⟨h, tag, 0x07, .stopRest⟩ stOk []
    have hall := Engine.onlyBooks_trans hbooks (Engine.finish_books s.eng.stopEntered ⟨h, tag, 0x07, .stopRest⟩ stOk [] [])
    generalize s.eng.stopEntered.finish ⟨h, tag, 0x07, .stopRest⟩ stOk [] = x at *
    rw [hqueue] at hkeeps
    have hsays := Engine.says_of_extension hkeeps
    have hmode : x.mode = .m6 := (congrArg Engine.mode hall.1 :)
    have hpac : x.pac = { s.eng.pac with st := .idle } := (congrArg Engine.pac hall.1 :)
    refine ⟨hmode, hpac, ?_, hanswered, ?_⟩
    · simp only [Prod.mk.injEq] at hv
      obtain ⟨hcode, hsubj, hstatus, hhseq, harg⟩ := hv
      rwa [hcode, hsubj, hstatus, hhseq, harg] at hsays
    · rw [hmode, hpac]
      exact hall
  case squall =>
    intro q s hq hqrest hrest hmode hclosing
    obtain ⟨t, hexec, hstg, hpend, hsec, hbeside⟩ := squallRest_rests hq hqrest hrest hmode hclosing
    refine ⟨t, hexec, hstg, hpend, hsec, ?_⟩
    simp only [Engine.besideLines, Prod.mk.injEq] at hbeside
    obtain ⟨⟨h9, hnow, hjump, hreset, hpins, hflash, hcmd⟩, ⟨hstatus, hqdr, hmot, hmet, hmets⟩, hsquall, hjob, hfeed⟩ := hbeside
    refine ⟨h9, hsquall, by rw [hjob]; rfl, hfeed, ?_⟩
    change t.eng.now = s.eng.now at hnow
    change t.eng.resetting = s.eng.resetting at hreset
    change t.eng.pins = s.eng.pins at hpins
    change t.eng.flash = s.eng.flash at hflash
    change t.eng.cmdIn = s.eng.cmdIn at hcmd
    change t.eng.status = s.eng.status at hstatus
    change t.eng.qdr = s.eng.qdr at hqdr
    change t.eng.mot = s.eng.mot at hmot
    change t.eng.met = s.eng.met at hmet
    change t.eng.mets = s.eng.mets at hmets
    rw [← hnow, ← hreset, ← hpins, ← hflash, ← hcmd, ← hstatus, ← hqdr, ← hmot, ← hmet, ← hmets]

end Sys2Proof.Machine
end

section
/-!
PROOFS. Staging memory over a step (R189, R195, R197): a command leaves it as it is, runs one slot of a port on it, or empties it with the power of its dies; each of
these keeps the canonical form.
-/

namespace Sys2Proof.Machine

/-- What a command can make of the staging memory. -/
inductive State.StagingNext (s : State) : Staging → Prop
  /-- It stays. -/
  | stays : s.StagingNext s.stg
  /-- One slot of a port acts on it. -/
  | slot (p : Nat) (bad : List Nat) : s.StagingNext (s.eng.arbSlot s.stg p bad).2
  /-- It loses its contents. -/
  | emptied : s.StagingNext ⟨[], []⟩

/-- An answer is a next state with such a staging memory. -/
def State.stagingStep (s : State) (a : Answer) : Prop := ∃ t, a = .next t ∧ s.StagingNext t.stg

theorem State.stagingStep_stays {s t : State} (h : t.stg = s.stg) : s.stagingStep (.next t) := ⟨t, rfl, h ▸ .stays⟩

theorem State.stagingStep_emptied {s t : State} (h : t.stg = ⟨[], []⟩) : s.stagingStep (.next t) := ⟨t, rfl, h ▸ .emptied⟩

theorem State.stagingStep_onEng (s : State) (f : Engine → Engine) : s.stagingStep (.next (s.onEng f)) := stagingStep_stays (s.onEng_stg f)

theorem State.stagingStep_onSec (s : State) (f : Section → Nat → Section × List MetIn) : s.stagingStep (.next (s.onSec f)) :=
  stagingStep_stays (s.onSec_stg f)

/-- What the section does after the engine leaves the memory as well. -/
theorem State.stagingStep_onEng_onSec (s : State) (f : Engine → Engine) (g : Section → Nat → Section × List MetIn) :
    s.stagingStep (.next ((s.onEng f).onSec g)) :=
  stagingStep_stays (by simp)

/-- The settling of the rails empties the memory when it ends a wake in M2 (R344). -/
theorem execWakeRailsSettled_stagingStep (dieFails : List (Fin 8 × Nat)) (s : State) : s.stagingStep (execWakeRailsSettled dieFails s) := by
  unfold execWakeRailsSettled
  cases hw : s.eng.trans.wake with
  | none => exact State.stagingStep_stays (by simp [hw])
  | some w =>
    by_cases hm : s.eng.mode = .m2 ∧ (!w.railsOn) = true
    · exact State.stagingStep_emptied (by simp only [State.onMem_stg, hw, if_pos hm])
    · exact State.stagingStep_stays (by simp only [State.onMem_stg, hw, if_neg hm])

/-- A power failure empties it but for one under way (R354). -/
theorem execPfail_stagingStep (s : State) : s.stagingStep (execPfail s) := by
  unfold execPfail
  split
  · exact State.stagingStep_stays rfl
  · exact State.stagingStep_emptied (by simp)

/-- Recovery from one empties it (R355). -/
theorem execPfailRecovery_stagingStep (s : State) : s.stagingStep (execPfailRecovery s) := by
  unfold execPfailRecovery
  split
  · exact State.stagingStep_emptied (by simp)
  · exact State.stagingStep_stays rfl

/-- The install of a takeover empties it (R370). -/
theorem execTakeoverInstall_stagingStep (s : State) : s.stagingStep (execTakeoverInstall s) := by
  unfold execTakeoverInstall
  split
  · exact State.stagingStep_emptied (by simp)
  · exact State.stagingStep_stays rfl

/-- The reset proper empties it, once one is under way and AX0 stands (R346). -/
theorem execResetProper_stagingStep (s : State) : s.stagingStep (execResetProper s) := by
  unfold execResetProper
  split
  · split
    · exact State.stagingStep_emptied (by simp)
    · exact State.stagingStep_stays rfl
  · exact State.stagingStep_stays rfl

/-- A slot of a port acts on the staging memory; the wake, the resets, the power failures and a takeover's install may empty it; no other command reaches it. -/
theorem exec_stagingStep (c : Instr) (s : State) : s.stagingStep (exec c s) := by
  cases c
  case arbGrant p bad => exact ⟨_, rfl, .slot p.val bad⟩
  case wakeRailsSettled dieFails => exact execWakeRailsSettled_stagingStep dieFails s
  case por => exact State.stagingStep_emptied (by simp)
  case pfail => exact execPfail_stagingStep s
  case pfailRecovery => exact execPfailRecovery_stagingStep s
  case takeoverInstall => exact execTakeoverInstall_stagingStep s
  case resetProper => exact execResetProper_stagingStep s
  -- Meanings of the section and of boot that first look at the state.
  case sectionQuery | sectionAck | sectionSync | sectionPeer | sectionTapLine | recordRetransmit | sealOpen | sealClose | bootComplete =>
    refine State.stagingStep_stays ?_
    split <;> simp
  -- Other meanings that act in the section.
  case converterOutput | ovpClamp | tempPublish | thresholdStatePublish | recordSend | servicePortWrite | sectionFwInstall | keyRegeneration
      | sectionRestart =>
    exact s.stagingStep_onSec _
  case encoderEdge | squallRest | lineStart | sensedLineEdge => exact s.stagingStep_onEng_onSec _ _
  -- Every other meaning acts in the engine alone.
  all_goals exact s.stagingStep_onEng _

/-- Each of the outcomes keeps the canonical form. -/
theorem State.StagingNext.wf {s : State} {m : Staging} (h : s.StagingNext m) (hs : s.staged) : m.wf = true := by
  cases h with
  | stays => exact hs
  | slot p bad => exact Engine.wf_arbSlot s.eng s.stg p bad hs
  | emptied => rfl

/-- Settles O54: what a command makes of the staging memory is one of three things, each canonical; without a command only the engine idles. -/
theorem stagingStaysCanonical : Obligations.StagingStaysCanonical := by
  intro s t hs hstep
  unfold step at hstep
  split at hstep
  · cases hstep
    exact hs
  · next c rest _ =>
    obtain ⟨u, hexec, hnext⟩ := exec_stagingStep c { s with pending := rest }
    cases hexec.symm.trans hstep
    exact hnext.wf hs

end Sys2Proof.Machine
end

section
/-!
PROOFS. The registers of DMA engine, queues, arbiters and memory (R192, R201, R202, R205, R223, R272, R278): the books, high-water marks, rank maps, the shadows of
the live counters, requests to map dies out.
-/

namespace Sys2Proof.Machine

namespace Engine

/-! ### The books of the DMA engine -/

section
variable {v : Word}

/-- DMA_CTRL written with SNAP stores CMD_SHARE, then latches the three books. -/
theorem dmaSnap_snap (e : Engine) (h : R.DMA_CTRL.SNAP.get v = 1) :
    e.dmaSnap v = (((e.wr R.DMA_CTRL.CMD_SHARE (if R.DMA_CTRL.CMD_SHARE.get v = 0 then 1 else R.DMA_CTRL.CMD_SHARE.get v)).wr R.DMA_BOOK_FREE.V
      e.bookFree).wr R.DMA_BOOK_FILLED.V e.bookFilled).wr R.DMA_BOOK_INFLIGHT.V e.bookFlight := by
  simp only [dmaSnap, h, if_true]

/-- The command DMA_SNAP writes SNAP, whatever else its word says. -/
theorem snap_get_or (v : Word) : R.DMA_CTRL.SNAP.get (v ||| 0x80000000) = 1 := by
  have hbit : (v ||| 0x80000000#32).toNat.testBit 31 = true := by
    rw [BitVec.testBit_toNat, BitVec.getLsbD_or, show (0x80000000#32).getLsbD 31 = true by decide, Bool.or_true]
  have hget := Nat.testBit_eq_decide_div_mod_eq (x := (v ||| 0x80000000#32).toNat) (i := 31)
  rw [hbit] at hget
  rw [Fld.get, Nat.shiftRight_eq_div_pow]
  exact of_decide_eq_true hget.symm

/-- It leaves CMD_SHARE as the word has it. -/
theorem share_get_or (v : Word) : R.DMA_CTRL.CMD_SHARE.get (v ||| 0x80000000) = R.DMA_CTRL.CMD_SHARE.get v := by
  have hlow : ∀ i < 4, (0x80000000 : Word).getLsbD (R.DMA_CTRL.CMD_SHARE.lo + i) = false := by decide
  apply Nat.eq_of_testBit_eq
  intro i
  rw [Fld.testBit_get, Fld.testBit_get, BitVec.getLsbD_or]
  by_cases hi : i < 4
  · rw [hlow i hi, Bool.or_false]
  · simp [Fld.width, hi]

theorem dmaSnap_rd (e : Engine) (h : R.DMA_CTRL.SNAP.get v = 1) :
    (e.dmaSnap v).rd R.DMA_BOOK_FREE.V = e.bookFree % 2 ^ R.DMA_BOOK_FREE.V.width ∧
    (e.dmaSnap v).rd R.DMA_BOOK_FILLED.V = e.bookFilled % 2 ^ R.DMA_BOOK_FILLED.V.width ∧
    (e.dmaSnap v).rd R.DMA_BOOK_INFLIGHT.V = e.bookFlight % 2 ^ R.DMA_BOOK_INFLIGHT.V.width ∧
    (e.dmaSnap v).rd R.DMA_CTRL.CMD_SHARE = if R.DMA_CTRL.CMD_SHARE.get v = 0 then 1 else R.DMA_CTRL.CMD_SHARE.get v := by
  have hshare : (if R.DMA_CTRL.CMD_SHARE.get v = 0 then 1 else R.DMA_CTRL.CMD_SHARE.get v) < 2 ^ R.DMA_CTRL.CMD_SHARE.width := by
    split
    · decide
    · exact Fld.get_lt _ _
  rw [dmaSnap_snap e h]
  rw [← Nat.mod_eq_of_lt hshare]
  refine ⟨?_, ?_, ?_, ?_⟩
  all_goals simp (disch := simp only [Fld.fits] <;> omega) only [rd_wr_same, rd_wr_ne, Nat.mod_mod]

theorem dmaSnap_onlyRegs (e : Engine) (h : R.DMA_CTRL.SNAP.get v = 1) :
    e.onlyRegs (e.dmaSnap v) [R.DMA_CTRL.SNAP.off, R.DMA_BOOK_FREE.V.off, R.DMA_BOOK_FILLED.V.off, R.DMA_BOOK_INFLIGHT.V.off] := by
  rw [dmaSnap_snap e h]
  refine onlyRegs_wr (onlyRegs_wr (onlyRegs_wr (wr_onlyRegs e _ ?_) ?_ _) ?_ _) ?_ _
  all_goals simp

end

/-! ### High-water marks -/

theorem clearHwm_onlyRegs (e : Engine) : e.onlyRegs e.clearHwm ((upTo 104).map fun q => (R.QUE_LEVEL.LEVEL q).off) := by
  unfold clearHwm
  refine foldl_onlyRegs (fun x q hq => wr_onlyRegs x _ ?_) e
  exact off_mem (fun q => (R.QUE_LEVEL.LEVEL q).off) (List.mem_range.mp hq)

/-- A high-water mark and a level are apart in their registers. -/
theorem rd_level_wr_hwm (e : Engine) (q k v : Nat) : (e.wr (R.QUE_LEVEL.HWM k) v).rd (R.QUE_LEVEL.LEVEL q) = e.rd (R.QUE_LEVEL.LEVEL q) :=
  rd_wr_apart e (by simp [Fld.fits]) (by simp [Fld.fits]) (by simp [Fld.apart]) v

/-- Every level stays. -/
theorem clearHwm_level (e : Engine) (q : Nat) : e.clearHwm.rd (R.QUE_LEVEL.LEVEL q) = e.rd (R.QUE_LEVEL.LEVEL q) :=
  foldl_keeps (fun x => x.rd (R.QUE_LEVEL.LEVEL q)) (fun x k _ => rd_level_wr_hwm x q k _) e

/-- The high-water mark of each queue takes its level: that queue's own write does it. -/
theorem clearHwm_hwm (e : Engine) {q : Nat} (hq : q < 104) : e.clearHwm.rd (R.QUE_LEVEL.HWM q) = e.rd (R.QUE_LEVEL.LEVEL q) := by
  refine foldl_sets (fun x => x.rd (R.QUE_LEVEL.HWM q)) (fun x => x.rd (R.QUE_LEVEL.LEVEL q)) id (List.mem_range.mpr hq) List.nodup_range
    (fun x => ?_) (fun x k _ => rd_level_wr_hwm x q k _) (fun x k _ hne => ?_) e
  · exact rd_wr_lt x (by simp [Fld.fits]) (x.rd_lt _)
  · exact rd_wr_ne x _ (by dsimp only; omega)

/-! ### Rank maps -/

/-- The inputs that a rank map names for the four requesters (R201). -/
abbrev rankInputs (v : Nat) : List Nat := [v % 4, v / 4 % 4, v / 16 % 4, v / 64 % 4]

/-- The map in ARBp_RANKMAP: the low byte of the register. -/
abbrev rankMap (p : Nat) : Fld := ⟨(R.ARB_RANKMAP.word p).off, 7, 0⟩

/-- What lies above the low byte of a written word names no input. -/
theorem rankInputs_lowByte (v : Nat) : rankInputs (v % 256) = rankInputs v := by
  simp only [rankInputs, List.cons.injEq, and_true]
  omega

theorem setRankmap_eq (e : Engine) (p v : Nat) :
    e.setRankmap p v = if (rankInputs v).Nodup then e.wr (rankMap p) v else e.wr (R.ARB_STATE.MAP_ERR p) 1 := by
  have hinputs : ([v / 4 ^ 0 % 4, v / 4 ^ 1 % 4, v / 4 ^ 2 % 4, v / 4 ^ 3 % 4] : List Nat) = rankInputs v := by norm_num
  unfold setRankmap
  dsimp only
  rw [hinputs]

/-- A broadcast selects the ports A by SELA, the ports B by SELB (R202). -/
abbrev bcastSelects (value : Word) (p : Nat) : Prop :=
  (p < 8 ∧ R.ARB_RANKMAP_BCAST.SELA.get value = 1) ∨ (8 ≤ p ∧ R.ARB_RANKMAP_BCAST.SELB.get value = 1)

section
variable {value : Word} (hgood : (rankInputs (R.ARB_RANKMAP_BCAST.MAP.get value)).Nodup)
include hgood

/-- The broadcast of a good map is a run of writes. -/
theorem setRankmaps_good (e : Engine) : e.setRankmaps value =
    (upTo 16).foldl (fun x p => if bcastSelects value p then x.wr (rankMap p) (R.ARB_RANKMAP_BCAST.MAP.get value) else x) e := by
  simp only [setRankmaps, setRankmap_eq, if_pos hgood]

theorem setRankmaps_onlyRegs (e : Engine) : e.onlyRegs (e.setRankmaps value) ((upTo 16).map fun p => (R.ARB_RANKMAP.word p).off) := by
  rw [setRankmaps_good hgood]
  refine foldl_onlyRegs (fun x p hp => ?_) e
  split
  · exact wr_onlyRegs x _ (List.mem_map_of_mem (f := fun p => (R.ARB_RANKMAP.word p).off) hp)
  · exact x.onlyRegs_refl _

/-- A selected port takes the map in its own step of the run; no step reaches the map of another port. -/
theorem setRankmaps_rd (e : Engine) {p : Nat} (hp : p < 16) : (e.setRankmaps value).rd (rankMap p) =
    if bcastSelects value p then R.ARB_RANKMAP_BCAST.MAP.get value else e.rd (rankMap p) := by
  have hother (x : Engine) (b : Nat) (hne : b ≠ p) :
      (if bcastSelects value b then x.wr (rankMap b) (R.ARB_RANKMAP_BCAST.MAP.get value) else x).rd (rankMap p) = x.rd (rankMap p) := by
    split
    · exact rd_wr_ne x _ (by dsimp only; omega)
    · rfl
  rw [setRankmaps_good hgood]
  by_cases hsel : bcastSelects value p
  · rw [if_pos hsel]
    refine foldl_puts (fun x => x.rd (rankMap p)) (List.mem_range.mpr hp) List.nodup_range (fun x => ?_) (fun x b _ => hother x b) e
    rw [if_pos hsel]
    exact rd_wr_lt x (by simp [Fld.fits]) (Fld.get_lt _ _)
  · rw [if_neg hsel]
    refine foldl_keeps (fun x => x.rd (rankMap p)) (fun x b _ => ?_) e
    by_cases hb : b = p
    · rw [hb, if_neg hsel]
    · exact hother x b hb

end

/-! ### The shadows of the live counters -/

/-- The live counters of an input of a port. -/
abbrev liveCount (e : Engine) (p i : Nat) : PortCount := (e.port p).live.getD i PortCount.zero

/-- The live counters of one input are copied into their shadows. -/
def snapInput (e : Engine) (p i : Nat) : Engine :=
  (((e.wr (R.ARB_GRANTS.V p i) (e.liveCount p i).grants).wrPair (R.ARB_WAITCYC_LO.V p i) (R.ARB_WAITCYC_HI.V p i) (e.liveCount p i).waits).wr
    (R.ARB_MAXWAIT.V p i) (e.liveCount p i).maxWait).wr (R.ARB_PREEMPT.V p i) (e.liveCount p i).preempts

/-- The live counters of the four inputs of a port are. -/
def snapPort (e : Engine) (p : Nat) : Engine := (upTo 4).foldl (fun x i => x.snapInput p i) e

theorem arbSnapAll_eq (e : Engine) : e.arbSnapAll = (upTo 16).foldl (fun x p => x.snapPort p) e := rfl

/-- The shadow registers of an input. -/
abbrev shadowOffs (p i : Nat) : List Nat :=
  [(R.ARB_GRANTS.V p i).off, (R.ARB_WAITCYC_LO.V p i).off, (R.ARB_WAITCYC_HI.V p i).off, (R.ARB_MAXWAIT.V p i).off, (R.ARB_PREEMPT.V p i).off]

theorem snapInput_onlyRegs (e : Engine) (p i : Nat) : e.onlyRegs (e.snapInput p i) (shadowOffs p i) := by
  unfold snapInput wrPair
  refine onlyRegs_wr (onlyRegs_wr (onlyRegs_wr (onlyRegs_wr (wr_onlyRegs e _ ?_) ?_ _) ?_ _) ?_ _) ?_ _
  all_goals simp

theorem snapPort_onlyRegs (e : Engine) (p : Nat) : e.onlyRegs (e.snapPort p) ((upTo 4).map fun i => shadowOffs p i).flatten :=
  foldl_onlyRegs (fun x i hi => onlyRegs_mono (x.snapInput_onlyRegs p i)
    fun _ ho => List.mem_flatten_of_mem (List.mem_map_of_mem (f := fun i => shadowOffs p i) hi) ho) e

theorem arbSnapAll_onlyRegs (e : Engine) :
    e.onlyRegs e.arbSnapAll ((upTo 16).map fun p => (upTo 4).map fun i => shadowOffs p i).flatten.flatten := by
  rw [arbSnapAll_eq]
  refine foldl_onlyRegs (fun x p hp => onlyRegs_mono (x.snapPort_onlyRegs p) fun off ho => ?_) e
  obtain ⟨l, hl, hoff⟩ := List.mem_flatten.mp ho
  exact List.mem_flatten_of_mem (List.mem_flatten_of_mem (List.mem_map_of_mem (f := fun p => (upTo 4).map fun i => shadowOffs p i) hp) hl) hoff

/-- What each shadow of an input takes: the counter as far as the register holds it. -/
theorem snapInput_rd (e : Engine) (p i : Nat) :
    (e.snapInput p i).rd (R.ARB_GRANTS.V p i) = (e.liveCount p i).grants % 2 ^ 32 ∧
    (e.snapInput p i).rd (R.ARB_WAITCYC_LO.V p i) = (e.liveCount p i).waits % 2 ^ 32 ∧
    (e.snapInput p i).rd (R.ARB_WAITCYC_HI.V p i) = (e.liveCount p i).waits / 2 ^ 32 % 2 ^ 16 ∧
    (e.snapInput p i).rd (R.ARB_MAXWAIT.V p i) = (e.liveCount p i).maxWait % 2 ^ 20 ∧
    (e.snapInput p i).rd (R.ARB_PREEMPT.V p i) = (e.liveCount p i).preempts % 2 ^ 32 := by
  unfold snapInput wrPair
  refine ⟨?_, ?_, ?_, ?_, ?_⟩
  all_goals simp (disch := simp only [Fld.fits] <;> omega) only [rd_wr_same, rd_wr_ne, Fld.width, Nat.mod_mod]

theorem snapInput_liveCount (e : Engine) (p i q k : Nat) : (e.snapInput p i).liveCount q k = e.liveCount q k := rfl

theorem snapPort_liveCount (e : Engine) (p q k : Nat) : (e.snapPort p).liveCount q k = e.liveCount q k :=
  foldl_keeps (fun x => x.liveCount q k) (fun x i _ => x.snapInput_liveCount p i q k) e

/-- A register that one input's copy sets from its live counters holds that after the copy of them all: no two inputs share a shadow. -/
theorem arbSnapAll_rd {f : Fld} {p i : Nat} (hp : p < 16) (hi : i < 4) (hf : f.off ∈ shadowOffs p i) {v : PortCount → Nat}
    (hset : ∀ x : Engine, (x.snapInput p i).rd f = v (x.liveCount p i)) (e : Engine) : e.arbSnapAll.rd f = v (e.liveCount p i) := by
  have hinput (q k : Nat) (hk : k < 4) (hne : q ≠ p ∨ k ≠ i) : f.off ∉ shadowOffs q k := by
    simp only [List.mem_cons, List.not_mem_nil, or_false, not_or] at hf ⊢
    omega
  have hport (x : Engine) : (x.snapPort p).rd f = v (x.liveCount p i) :=
    foldl_sets (fun x => x.rd f) (fun x => x.liveCount p i) v (List.mem_range.mpr hi) List.nodup_range hset
      (fun x k _ => x.snapInput_liveCount p k p i)
      (fun x k hk hne => onlyRegs_rd (x.snapInput_onlyRegs p k) (hinput p k (List.mem_range.mp hk) (.inr hne))) x
  have hothers (x : Engine) (q : Nat) (hne : q ≠ p) : (x.snapPort q).rd f = x.rd f := by
    refine onlyRegs_rd (x.snapPort_onlyRegs q) fun ho => ?_
    obtain ⟨l, hl, hoff⟩ := List.mem_flatten.mp ho
    obtain ⟨k, hk, rfl⟩ := List.mem_map.mp hl
    exact hinput q k (List.mem_range.mp hk) (.inl hne) hoff
  rw [arbSnapAll_eq]
  exact foldl_sets (fun x => x.rd f) (fun x => x.liveCount p i) v (List.mem_range.mpr hp) List.nodup_range hport
    (fun x q _ => x.snapPort_liveCount q p i) (fun x q _ => hothers x q) e

/-- The five shadows of every input hold what its live counters held (R205). -/
theorem arbSnapAll_shadows (e : Engine) {p i : Nat} (hp : p < 16) (hi : i < 4) :
    e.arbSnapAll.rd (R.ARB_GRANTS.V p i) = (e.liveCount p i).grants % 2 ^ 32 ∧
    e.arbSnapAll.rd (R.ARB_WAITCYC_LO.V p i) = (e.liveCount p i).waits % 2 ^ 32 ∧
    e.arbSnapAll.rd (R.ARB_WAITCYC_HI.V p i) = (e.liveCount p i).waits / 2 ^ 32 % 2 ^ 16 ∧
    e.arbSnapAll.rd (R.ARB_MAXWAIT.V p i) = (e.liveCount p i).maxWait % 2 ^ 20 ∧
    e.arbSnapAll.rd (R.ARB_PREEMPT.V p i) = (e.liveCount p i).preempts % 2 ^ 32 := by
  have hrd := fun x : Engine => x.snapInput_rd p i
  simp only [forall_and] at hrd
  obtain ⟨hgrants, hlo, hhi, hmax, hpreempts⟩ := hrd
  exact ⟨arbSnapAll_rd hp hi (by simp) (v := fun c => c.grants % 2 ^ 32) hgrants e,
    arbSnapAll_rd hp hi (by simp) (v := fun c => c.waits % 2 ^ 32) hlo e,
    arbSnapAll_rd hp hi (by simp) (v := fun c => c.waits / 2 ^ 32 % 2 ^ 16) hhi e,
    arbSnapAll_rd hp hi (by simp) (v := fun c => c.maxWait % 2 ^ 20) hmax e,
    arbSnapAll_rd hp hi (by simp) (v := fun c => c.preempts % 2 ^ 32) hpreempts e⟩

/-- Clearing the live counters reaches no register. -/
theorem onlyRegs_arbClrAll {e x : Engine} {offs : List Nat} (h : e.onlyRegs x offs) : e.arbClrAll.onlyRegs x.arbClrAll offs := by
  refine ⟨?_, h.2⟩
  conv_lhs => rw [h.1]
  rfl

/-- With SNAP and CLR written together the shadows are filled before the clear. -/
theorem arbStat_snap (e : Engine) (clr : Bool) : e.arbStat true clr = if clr then e.arbSnapAll.arbClrAll else e.arbSnapAll := rfl

theorem arbClrAll_rd (e : Engine) (f : Fld) : e.arbClrAll.rd f = e.rd f := rd_congr (e := e.arbClrAll) rfl f

theorem arbStat_rd (e : Engine) (clr : Bool) (f : Fld) : (e.arbStat true clr).rd f = e.arbSnapAll.rd f := by
  rw [arbStat_snap]
  split
  · exact arbClrAll_rd _ f
  · rfl

theorem arbStat_onlyRegs (e : Engine) (clr : Bool) :
    ({ e with qdr := { e.qdr with ports := if clr then e.qdr.ports.map fun q => { q with live := List.replicate 4 PortCount.zero } else e.qdr.ports } }
      : Engine).onlyRegs (e.arbStat true clr) ((upTo 16).map fun p => (upTo 4).map fun i => shadowOffs p i).flatten.flatten := by
  rw [arbStat_snap]
  cases clr
  · exact e.arbSnapAll_onlyRegs
  · exact onlyRegs_arbClrAll e.arbSnapAll_onlyRegs

/-! ### QDR_MAP_REQ -/

/-- M3 takes a value other than 0xF and keeps it in flash (R192). -/
theorem setMapReq_taken {e : Engine} {value : Word} (hm : e.mode = .m3) (hv : R.QDR_MAP_REQ.OUT.get value ≠ 0xF) :
    e.setMapReq value = ({ e with flash := { e.flash with mapReq := R.QDR_MAP_REQ.OUT.get value } } : Engine).wr R.QDR_MAP_REQ.OUT
      (R.QDR_MAP_REQ.OUT.get value) := by
  have hin : e.modeIn [3] = true := by rw [modeIn, hm]; rfl
  simp only [setMapReq, hin, hv, Bool.not_true, Bool.false_eq_true, if_false]

/-- Any other value, or another mode, is a write ignored, where it would change the register. -/
theorem setMapReq_ignored {e : Engine} {value : Word} (hm : e.mode = .m3 → R.QDR_MAP_REQ.OUT.get value = 0xF)
    (hne : R.QDR_MAP_REQ.OUT.get value ≠ e.rd R.QDR_MAP_REQ.OUT) : e.setMapReq value = e.writeIgnored R.QDR_MAP_REQ.OUT.off := by
  by_cases hin : e.modeIn [3] = true
  · have hv : R.QDR_MAP_REQ.OUT.get value = 0xF := hm (by revert hin; cases hmode : e.mode <;> simp [modeIn, hmode, Mode.idx])
    simp only [setMapReq, hin, hv, Bool.not_true, Bool.false_eq_true, if_false, if_true]
  · simp [setMapReq, hin, hne]

end Engine

/-! ### The commands -/

theorem exec_dmaSnap (v : Word) (s : State) :
    exec (.dmaSnap v) s = .next (s.onEng fun e => e.gate R.DMA_CTRL.SNAP.off fun x => x.dmaSnap (v ||| 0x80000000)) := rfl

theorem exec_hwmClr (s : State) : exec .hwmClr s = .next (s.onEng fun e => e.gate R.QUE_CTRL.HWM_CLR.off Engine.clearHwm) := rfl

theorem exec_rankmapWrite (p : PortIx) (value : Word) (s : State) : exec (.rankmapWrite p value) s =
    .next (s.onEng fun e => e.gate (R.ARB_RANKMAP.IN0 p.val).off fun x => x.setRankmap p.val (value.toNat % 256)) := rfl

theorem exec_rankmapBcastWrite (value : Word) (s : State) : exec (.rankmapBcastWrite value) s =
    .next (s.onEng fun e => e.gate R.ARB_RANKMAP_BCAST.MAP.off fun x => x.setRankmaps value) := rfl

theorem exec_arbSnap (clr : Bool) (s : State) :
    exec (.arbSnap clr) s = .next (s.onEng fun e => e.gate R.ARB_STAT_CTRL.SNAP.off fun x => x.arbStat true clr) := rfl

theorem exec_arbClr (s : State) : exec .arbClr s = .next (s.onEng fun e => e.gate R.ARB_STAT_CTRL.CLR.off fun x => x.arbStat false true) := rfl

theorem exec_qdrMapReqWrite (value : Word) (s : State) :
    exec (.qdrMapReqWrite value) s = .next (s.onEng fun e => e.gate R.QDR_MAP_REQ.OUT.off fun x => x.setMapReq value) := rfl

/-- Settles O15: each command is one run of register writes that the gate lets through; a run sets each of its registers in one of its steps. -/
theorem arbiterRegisters : Obligations.ArbiterRegisters := by
  unfold Obligations.ArbiterRegisters
  refine ⟨?dmaSnap, ?hwmClr, ?goodMap, ?badMap, ?broadcast, ?snap, ?clr, ?mapReqTaken, ?mapReqIgnored⟩
  case dmaSnap =>
    intro v s h0 h1 h2 h10
    refine ⟨_, exec_dmaSnap v s, s.onEng_engineOnly _, ?_⟩
    rw [State.onEng_eng, Engine.gate_open h0 h1 h2 h10, ← Engine.share_get_or]
    obtain ⟨hfree, hfilled, hflight, hshare⟩ := s.eng.dmaSnap_rd (Engine.snap_get_or v)
    exact ⟨hfree, hfilled, hflight, hshare, s.eng.dmaSnap_onlyRegs (Engine.snap_get_or v)⟩
  case hwmClr =>
    intro s h0 h1 h2 h10
    refine ⟨_, exec_hwmClr s, s.onEng_engineOnly _, ?_⟩
    rw [State.onEng_eng, Engine.gate_open h0 h1 h2 h10]
    exact ⟨fun q => ⟨s.eng.clearHwm_hwm q.isLt, s.eng.clearHwm_level q.val⟩, s.eng.clearHwm_onlyRegs⟩
  case goodMap =>
    intro p value s h0 h1 h2 h10 hgood
    refine ⟨_, exec_rankmapWrite p value s, s.onEng_engineOnly _, ?_⟩
    rw [State.onEng_eng, Engine.gate_open h0 h1 h2 h10, Engine.setRankmap_eq, Engine.rankInputs_lowByte, if_pos hgood]
  case badMap =>
    intro p value s h0 h1 h2 h10 hbad
    refine ⟨_, exec_rankmapWrite p value s, s.onEng_engineOnly _, ?_⟩
    rw [State.onEng_eng, Engine.gate_open h0 h1 h2 h10, Engine.setRankmap_eq, Engine.rankInputs_lowByte, if_neg hbad]
  case broadcast =>
    intro value s h0 h1 h2 h10 hgood
    refine ⟨_, exec_rankmapBcastWrite value s, s.onEng_engineOnly _, ?_⟩
    rw [State.onEng_eng, Engine.gate_open h0 h1 h2 h10]
    exact ⟨fun p => Engine.setRankmaps_rd hgood s.eng p.isLt, Engine.setRankmaps_onlyRegs hgood s.eng⟩
  case snap =>
    intro clr s h0 h1 h2 h10
    refine ⟨_, exec_arbSnap clr s, s.onEng_engineOnly _, ?_⟩
    rw [State.onEng_eng, Engine.gate_open h0 h1 h2 h10]
    refine ⟨fun p i => ?_, s.eng.arbStat_onlyRegs clr⟩
    simp only [Engine.arbStat_rd]
    exact s.eng.arbSnapAll_shadows p.isLt i.isLt
  case clr =>
    intro s h0 h1 h2 h10
    refine ⟨_, exec_arbClr s, s.onEng_engineOnly _, ?_⟩
    rw [State.onEng_eng, Engine.gate_open h0 h1 h2 h10]
    rfl
  case mapReqTaken =>
    intro value s hm hv
    refine ⟨_, exec_qdrMapReqWrite value s, s.onEng_engineOnly _, ?_⟩
    rw [State.onEng_eng, Engine.gate_setUp (.inl hm), Engine.setMapReq_taken hm hv]
  case mapReqIgnored =>
    intro value s h0 h1 h2 h10 hm hne hflag
    refine ⟨_, exec_qdrMapReqWrite value s, s.onEng_engineOnly _, ?_⟩
    rw [State.onEng_eng, Engine.gate_open h0 h1 h2 h10, Engine.setMapReq_ignored hm hne, Engine.writeIgnored_first hflag]

end Sys2Proof.Machine
end

section
/-!
PROOFS. Packets of MET_IN (R222, R302, R311, R312): what reading a packet changes of itself, words that bytes put into a run of registers, a record, temperatures and
threshold states.
-/

namespace Sys2Proof.Machine

namespace Engine

/-! ### The oldest packet is read -/

/-- The oldest packet leaves MET_IN. -/
def packetOff (e : Engine) (rest : List MetPkt) : Engine := { e with met := { e.met with inq := rest }, mets := { e.mets with lastPkt := e.now } }

/-- Its words leave the queue's level, and what the section reports of itself with it is mirrored (R311). -/
def packetRead (e : Engine) (p : MetPkt) (rest : List MetPkt) : Engine :=
  ((e.packetOff rest).wr (R.QUE_LEVEL.LEVEL 68) (32 * rest.length)).mirror p.stat

theorem metTake_cons {e : Engine} {p : MetPkt} {rest : List MetPkt} (h : e.met.inq = p :: rest) :
    e.metTake = (e.packetRead p rest).takeBody p.stat.pairing p.body := by
  unfold metTake
  rw [h]
  rfl

/-- The registers that every packet writes. -/
abbrev packetOffs : List Nat := [(R.QUE_LEVEL.LEVEL 68).off, R.MET_STATUS.word.off, R.MET_LABELS.V.off]

theorem packetRead_onlyRegs (e : Engine) (p : MetPkt) (rest : List MetPkt) : (e.packetOff rest).onlyRegs (e.packetRead p rest) packetOffs := by
  unfold packetRead mirror
  refine onlyRegs_wr (onlyRegs_wr (onlyRegs_wr (onlyRegs_wr (onlyRegs_wr (onlyRegs_wr (onlyRegs_wr (wr_onlyRegs _ _ ?_) ?_ _) ?_ _) ?_ _) ?_ _) ?_ _) ?_ _) ?_ _
  all_goals simp

/-- The engine on which the body of a packet runs, outside its registers. -/
theorem packetOff_blocks {e x : Engine} {rest : List MetPkt} (h : (e.packetOff rest).onlyRegs x packetOffs) :
    x.mets = { e.mets with lastPkt := e.now } ∧ x.now = e.now ∧ x.cal = e.cal ∧ x.opens = e.opens ∧ x.status = e.status ∧ x.pair = e.pair := by
  rw [h.1]
  exact ⟨rfl, rfl, rfl, rfl, rfl, rfl⟩

/-- A field that the packet itself does not write. -/
theorem packetOff_rd {e x : Engine} {rest : List MetPkt} (h : (e.packetOff rest).onlyRegs x packetOffs) {f : Fld} (hf : f.off ∉ packetOffs) :
    x.rd f = e.rd f := onlyRegs_rd h hf

/-- The level of MET_IN is that of the packets left, and MET_STATUS and MET_LABELS show what the section reports. -/
abbrev mirrors (x : Engine) (st : MetStat) (left : Nat) : Prop :=
  x.rd (R.QUE_LEVEL.LEVEL 68) = 32 * left % 65536 ∧ x.on R.MET_STATUS.PRESENT = true ∧ x.on R.MET_STATUS.SEAL_OPEN = st.sealOpen ∧
    x.on R.MET_STATUS.TIME_SYNC = st.timeSync ∧ x.on R.MET_STATUS.FULL = st.full ∧ x.on R.MET_STATUS.FE_FAULT = st.feFault ∧
    x.rd R.MET_STATUS.BACKLOG = st.backlog % 65536 ∧ x.rd R.MET_LABELS.V = st.labels % 32

/-- Two engines agree in the registers that every packet writes. -/
def samePacketRegs (e x : Engine) : Prop := ∀ off ∈ packetOffs, x.word off = e.word off

theorem samePacketRegs_of_onlyRegs {e x : Engine} {offs : List Nat} (h : e.onlyRegs x offs) (hapart : ∀ off ∈ packetOffs, off ∉ offs) : e.samePacketRegs x :=
  fun off ho => h.2 off (hapart off ho)

theorem samePacketRegs_trans {e x y : Engine} (h : e.samePacketRegs x) (k : x.samePacketRegs y) : e.samePacketRegs y :=
  fun off ho => (k off ho).trans (h off ho)

theorem mirrors_congr {e x : Engine} (h : e.samePacketRegs x) {st : MetStat} {left : Nat} (he : e.mirrors st left) : x.mirrors st left := by
  have hrd (f : Fld) (hf : f.off ∈ packetOffs) : x.rd f = e.rd f := by rw [rd, rd, h f.off hf]
  unfold mirrors on at *
  rw [hrd (R.QUE_LEVEL.LEVEL 68) (by decide), hrd R.MET_STATUS.PRESENT (by decide), hrd R.MET_STATUS.SEAL_OPEN (by decide),
    hrd R.MET_STATUS.TIME_SYNC (by decide), hrd R.MET_STATUS.FULL (by decide), hrd R.MET_STATUS.FE_FAULT (by decide),
    hrd R.MET_STATUS.BACKLOG (by decide), hrd R.MET_LABELS.V (by decide)]
  exact he

theorem b2n_ne_zero (b : Bool) : (b2n b % 2 != 0) = b := by
  cases b <;> rfl

theorem packetRead_mirrors (e : Engine) (p : MetPkt) (rest : List MetPkt) : (e.packetRead p rest).mirrors p.stat rest.length := by
  unfold packetRead mirror mirrors on
  refine ⟨?level, ?_, ?_, ?_, ?_, ?_, ?_, rd_wr_same _ (by simp [Fld.fits]) _⟩
  case level =>
    simp (disch := decide) only [rd_wr_ne]
    exact rd_wr_same _ (by simp [Fld.fits]) _
  all_goals
    rw [rd_wr_ne _ _ (by decide)]
    simp (disch := simp only [Fld.fits, Fld.apart] <;> omega) only [rd_wr_same, rd_wr_apart]
  case refine_1 | refine_6 => rfl
  all_goals exact b2n_ne_zero _

end Engine

theorem exec_metInPacket (s : State) : exec .metInPacket s = .next (s.onEng Engine.metTake) := rfl

/-- What a packet of MET_IN answers. Its body runs on an engine that differs from the one without the packet in the registers of the mirror alone; as the body
leaves these, the mirror of R311 stands. -/
theorem metInPacket_answer {s : State} {p : MetPkt} {rest : List MetPkt} (h : s.eng.met.inq = p :: rest) {body : MetIn} (hbody : p.body = body)
    {q : State → Prop} (hq : ∀ e : Engine, (s.eng.packetOff rest).onlyRegs e Engine.packetOffs →
      ∃ x, e.takeBody p.stat.pairing body = x ∧ e.samePacketRegs x ∧ ∀ t : State, t.eng = x → q t) : ∃ t, exec .metInPacket s = .next t ∧ s.engineOnly t ∧
      t.eng.rd (R.QUE_LEVEL.LEVEL 68) = 32 * rest.length % 65536 ∧ t.eng.on R.MET_STATUS.PRESENT = true ∧ t.eng.on R.MET_STATUS.SEAL_OPEN = p.stat.sealOpen ∧
      t.eng.on R.MET_STATUS.TIME_SYNC = p.stat.timeSync ∧ t.eng.on R.MET_STATUS.FULL = p.stat.full ∧ t.eng.on R.MET_STATUS.FE_FAULT = p.stat.feFault ∧
      t.eng.rd R.MET_STATUS.BACKLOG = p.stat.backlog % 65536 ∧ t.eng.rd R.MET_LABELS.V = p.stat.labels % 32 ∧ q t := by
  obtain ⟨x, hx, hsame, hqx⟩ := hq _ (s.eng.packetRead_onlyRegs p rest)
  have ht : (s.onEng Engine.metTake).eng = x := by rw [State.onEng_eng, Engine.metTake_cons h, hbody, hx]
  have hmirror := Engine.mirrors_congr hsame (s.eng.packetRead_mirrors p rest)
  rw [← ht] at hmirror
  obtain ⟨hlevel, hpresent, hseal, hsync, hfull, hfault, hbacklog, hlabels⟩ := hmirror
  exact ⟨_, exec_metInPacket s, s.onEng_engineOnly _, hlevel, hpresent, hseal, hsync, hfull, hfault, hbacklog, hlabels, hqx _ ht⟩

namespace Engine

/-! ### Bytes into a run of registers -/

/-- A run of 32-bit registers, one after the other. -/
def WordRun (g : Nat → Fld) : Prop := ∀ k, g k = ⟨(g 0).off + 4 * k, 31, 0⟩

theorem wordRun_off {g : Nat → Fld} (h : WordRun g) (k : Nat) : (g k).off = (g 0).off + 4 * k := by rw [h k]

theorem putWords_onlyRegs (e : Engine) {g : Nat → Fld} (hg : WordRun g) {b : List Byte} {n : Nat} (hb : b.length = 4 * n) :
    e.onlyRegs (e.putWords (g 0).off b) ((upTo n).map fun k => (g k).off) := by
  unfold putWords
  rw [hb, Nat.mul_div_cancel_left n (by decide)]
  exact foldl_onlyRegs (fun x j hj => setWord_onlyRegs x _ (wordRun_off hg j ▸ List.mem_map_of_mem (f := fun k => (g k).off) hj)) e

/-- Each register takes four of the bytes in its own step of the run. -/
theorem putWords_rd (e : Engine) {g : Nat → Fld} (hg : WordRun g) {b : List Byte} {n : Nat} (hb : b.length = 4 * n) {k : Nat} (hk : k < n) :
    (e.putWords (g 0).off b).rd (g k) = leAt b (4 * k) 4 := by
  unfold putWords
  rw [hb, Nat.mul_div_cancel_left n (by decide)]
  refine foldl_puts (l := upTo n) (fun x => x.rd (g k)) (List.mem_range.mpr hk) List.nodup_range (fun x => ?_) (fun x j _ hj => ?_) e
  · have hlt := leAt_lt b (4 * k) 4
    rw [← wordRun_off hg, rd_setWord_same, hg k]
    simp only [Fld.get, Fld.width, BitVec.toNat_ofNat]
    omega
  · exact rd_setWord_ne x _ (by rw [wordRun_off hg]; omega)

/-! ### A record (R222, R302) -/

/-- A record is kept, and is the latest. -/
def recordKept (e : Engine) (m : Nat) (b : List Byte) : Engine :=
  { e with mets := { e.mets with recv := e.mets.recv ++ [(m, b, false)], latest := some (m, b) } }

/-- A record that follows the last one held is kept; it goes to the peer where pairing is enabled and the link speaks PL-2. -/
theorem takeRecord_next {e : Engine} {m : Nat} (hm : m = e.status.lastMseq + e.mets.recv.length + 1) (hver : e.ver ≠ 1 ∨ e.mets.recv = [])
    (hfirst : e.mirrorFirst = false) (b : List Byte) (peer : Bool) : e.takeRecord m b peer =
      if (peer && e.pair.linkUp && e.pair.plver == 2) = true then (e.recordKept m b).pairSend none (.peerRecord b) else e.recordKept m b := by
  have htaken : m = e.status.lastMseq + e.mets.recv.length + 1 ∧ (e.ver ≠ 1 ∨ e.mets.recv.isEmpty = true) := ⟨hm, by simpa using hver⟩
  unfold takeRecord
  simp only [if_pos htaken, hfirst, Bool.false_eq_true, if_false]
  rfl

/-- Any other record is discarded. -/
theorem takeRecord_other {e : Engine} {m : Nat} (h : m ≠ e.status.lastMseq + e.mets.recv.length + 1 ∨ (e.ver = 1 ∧ e.mets.recv ≠ [])) (b : List Byte)
    (peer : Bool) : e.takeRecord m b peer = e := by
  unfold takeRecord
  refine if_neg ?_
  rintro ⟨hm, hver⟩
  rcases h with h | ⟨hv, hr⟩
  · exact h hm
  · simp [hv, hr] at hver

/-! ### Temperatures (R76) -/

/-- One temperature takes its value; a fresh one its time too. -/
def tempTaken (x : Engine) (a : (Nat × Bool) × Nat) : Engine :=
  { x.wr (R.MET_TEMP.T a.2) a.1.1 with cal := { x.cal with
      rtd := modAt x.cal.rtd a.2 fun _ => a.1.1
      rtdTime := if a.1.2 then modAt x.cal.rtdTime a.2 fun _ => some x.now else x.cal.rtdTime } }

/-- All of them, before it is marked which are stale. -/
def tempsTaken (e : Engine) (l : List (Nat × Bool)) : Engine := l.zipIdx.foldl tempTaken e

theorem takeTemps_eq (e : Engine) (l : List (Nat × Bool)) : e.takeTemps l = (e.tempsTaken l).markStale := rfl

/-- The engine with the temperatures of another, and their times. -/
def withTempsOf (e x : Engine) : Engine := { e with cal := { e.cal with rtd := x.cal.rtd, rtdTime := x.cal.rtdTime } }

/-- The frame of temperatures: beside them and their times, the named registers. -/
def onlyTemps (e x : Engine) (offs : List Nat) : Prop := (e.withTempsOf x).onlyRegs x offs

theorem onlyTemps_trans {e x y : Engine} {offs : List Nat} (h : e.onlyTemps x offs) (k : x.onlyTemps y offs) : e.onlyTemps y offs :=
  onlyRegs_trans (onlyRegs_map h (f := fun z => z.withTempsOf y) fun _ _ => rfl) k

/-- The registers of the four temperatures. -/
abbrev tempOffs : List Nat := (upTo 4).map fun k => (R.MET_TEMP.word k).off

theorem tempTaken_onlyTemps (x : Engine) {a : (Nat × Bool) × Nat} (ha : a.2 < 4) : x.onlyTemps (tempTaken x a) tempOffs :=
  ⟨rfl, (wr_onlyRegs x a.1.1 (f := R.MET_TEMP.T a.2) (List.mem_map_of_mem (f := fun k => (R.MET_TEMP.word k).off) (List.mem_range.mpr ha))).2⟩

section
variable {l : List (Nat × Bool)}

theorem zipIdx_place_lt {a : (Nat × Bool) × Nat} (ha : a ∈ l.zipIdx) : a.2 < l.length := (List.mem_zipIdx' ha).1

/-- No place comes twice. -/
theorem zipIdx_place_ne {a b : (Nat × Bool) × Nat} (ha : a ∈ l.zipIdx) (hb : b ∈ l.zipIdx) (hne : b ≠ a) : a.2 ≠ b.2 := fun h =>
  hne (Prod.ext (by rw [(List.mem_zipIdx' hb).2, (List.mem_zipIdx' ha).2]; simp only [h]) h.symm)

theorem nodup_zipIdx : l.zipIdx.Nodup := by
  refine List.Nodup.of_map Prod.snd ?_
  rw [List.zipIdx_map_snd]
  exact List.nodup_range'

theorem mem_zipIdx_getD {k : Nat} (hk : k < l.length) : (l.getD k (0, false), k) ∈ l.zipIdx := by
  rw [List.mem_zipIdx_iff_getElem?]
  simp [hk]

theorem tempsTaken_now (e : Engine) : (e.tempsTaken l).now = e.now := foldl_keeps (f := tempTaken) (fun x => x.now) (fun _ _ _ => rfl) e

variable (hl : l.length = 4)
include hl

theorem tempsTaken_onlyTemps (e : Engine) : e.onlyTemps (e.tempsTaken l) tempOffs := by
  have hfold : ∀ (t : List ((Nat × Bool) × Nat)) (x : Engine), (∀ a ∈ t, a.2 < 4) → x.onlyTemps (t.foldl tempTaken x) tempOffs := by
    intro t
    induction t with
    | nil => exact fun x _ => x.onlyRegs_refl _
    | cons a t ih =>
      intro x ht
      exact onlyTemps_trans (tempTaken_onlyTemps x (ht a List.mem_cons_self)) (ih _ fun b hb => ht b (List.mem_cons_of_mem a hb))
  exact hfold _ e fun a ha => hl ▸ zipIdx_place_lt ha

/-- Each temperature is shown and stored in its own step. -/
theorem tempsTaken_value (e : Engine) (he : e.cal.rtd.length = 4) {k : Nat} (hk : k < 4) :
    (e.tempsTaken l).rd (R.MET_TEMP.T k) = (l.getD k (0, false)).1 % 65536 ∧ (e.tempsTaken l).cal.rtd.getD k 0 = (l.getD k (0, false)).1 := by
  have hmem := mem_zipIdx_getD (hl.symm ▸ hk : k < l.length)
  constructor
  · have hset (x : Engine) : (tempTaken x (l.getD k (0, false), k)).rd (R.MET_TEMP.T k) = (l.getD k (0, false)).1 % 65536 :=
      rd_wr_same x (f := R.MET_TEMP.T k) (by simp [Fld.fits]) _
    have hother (x : Engine) (b : (Nat × Bool) × Nat) (hb : b ∈ l.zipIdx) (hne : b ≠ (l.getD k (0, false), k)) :
        (tempTaken x b).rd (R.MET_TEMP.T k) = x.rd (R.MET_TEMP.T k) := by
      have hplace := zipIdx_place_ne hmem hb hne
      exact rd_wr_ne x (f := R.MET_TEMP.T k) (g := R.MET_TEMP.T b.2) _ (by dsimp only at hplace ⊢; omega)
    exact foldl_puts (fun x => x.rd (R.MET_TEMP.T k)) hmem nodup_zipIdx hset hother e
  · refine (foldl_sets (fun x => x.cal.rtd.getD k 0) (fun x => x.cal.rtd.length) (fun n => if k < n then (l.getD k (0, false)).1 else 0) hmem nodup_zipIdx
      (fun x => ?_) (fun x b _ => List.length_modify ..) (fun x b hb hne => getD_modAt_ne _ (zipIdx_place_ne hmem hb hne) _ _) e).trans (if_pos (he.symm ▸ hk))
    split
    · exact getD_modAt_same ‹_› _ _
    · exact List.getD_eq_default _ _ ((List.length_modify ..).le.trans (Nat.le_of_not_lt ‹_›))

/-- A fresh temperature takes the time of its packet; one that is not keeps the time it had. -/
theorem tempsTaken_time (e : Engine) (he : e.cal.rtdTime.length = 4) {k : Nat} (hk : k < 4) :
    (e.tempsTaken l).cal.rtdTime.getD k none = if (l.getD k (0, false)).2 = true then some e.now else e.cal.rtdTime.getD k none := by
  have hmem := mem_zipIdx_getD (hl.symm ▸ hk : k < l.length)
  have hlen (x : Engine) (a : (Nat × Bool) × Nat) : (tempTaken x a).cal.rtdTime.length = x.cal.rtdTime.length := by
    unfold tempTaken
    dsimp only
    split
    · exact List.length_modify ..
    · rfl
  have hother (x : Engine) (b : (Nat × Bool) × Nat) (hb : k ≠ b.2) : (tempTaken x b).cal.rtdTime.getD k none = x.cal.rtdTime.getD k none := by
    unfold tempTaken
    dsimp only
    split
    · exact getD_modAt_ne _ hb _ _
    · rfl
  split
  · next hfresh =>
    refine (foldl_sets (fun x => x.cal.rtdTime.getD k none) (fun x => (x.cal.rtdTime.length, x.now)) (fun q => if k < q.1 then some q.2 else none) hmem
      nodup_zipIdx (fun x => ?_) (fun x b _ => Prod.ext (hlen x b) rfl) (fun x b hb hne => hother x b (zipIdx_place_ne hmem hb hne)) e).trans
        (if_pos (he.symm ▸ hk))
    dsimp only [tempTaken]
    rw [if_pos hfresh]
    split
    · exact getD_modAt_same ‹_› _ _
    · exact List.getD_eq_default _ _ ((List.length_modify ..).le.trans (Nat.le_of_not_lt ‹_›))
  · next hold =>
    refine foldl_keeps (fun x => x.cal.rtdTime.getD k none) (fun x b hb => ?_) e
    by_cases hbk : b = (l.getD k (0, false), k)
    · subst hbk
      dsimp only [tempTaken]
      rw [if_neg hold]
    · exact hother x b (zipIdx_place_ne hmem hb hbk)

end

/-! ### Stale temperatures -/

theorem markStale_onlyRegs (e : Engine) : e.onlyRegs e.markStale (R.CAL_STATUS.word.off :: tempOffs) :=
  onlyRegs_trans (wr_onlyRegs e _ (f := R.CAL_STATUS.RTD_STALE) List.mem_cons_self) (foldl_onlyRegs (fun x k hk =>
    wr_onlyRegs x _ (f := R.MET_TEMP.STALE k) (List.mem_cons_of_mem _ (List.mem_map_of_mem (f := fun k => (R.MET_TEMP.word k).off) hk))) _)

theorem markStale_cal (e : Engine) : e.markStale.cal = e.cal := congrArg (fun x => x.cal) e.markStale_onlyRegs.1

theorem markStale_now (e : Engine) : e.markStale.now = e.now := congrArg (fun x => x.now) e.markStale_onlyRegs.1

theorem markStale_temp (e : Engine) {k : Nat} (hk : k < 4) : e.markStale.rd (R.MET_TEMP.T k) = e.rd (R.MET_TEMP.T k) := by
  unfold markStale
  refine (foldl_keeps (fun x => x.rd (R.MET_TEMP.T k)) (fun x i _ => ?_) _).trans (rd_wr_ne e _ (by dsimp only; omega))
  by_cases hi : i = k
  · subst hi
    exact rd_wr_apart x (by simp [Fld.fits]) (by simp [Fld.fits]) (by simp [Fld.apart]) _
  · exact rd_wr_ne x _ (by dsimp only; omega)

theorem markStale_stale (e : Engine) {k : Nat} (hk : k < 4) : e.markStale.on (R.MET_TEMP.STALE k) = e.rtdStale k := by
  have hrd : e.markStale.rd (R.MET_TEMP.STALE k) = b2n (e.rtdStale k) % 2 := by
    unfold markStale
    refine foldl_puts (l := upTo 4) (fun x => x.rd (R.MET_TEMP.STALE k)) (List.mem_range.mpr hk) List.nodup_range (fun x => ?_)
      (fun x i _ hi => ?_) _
    · exact rd_wr_same x (by simp [Fld.fits]) _
    · exact rd_wr_ne x _ (by dsimp only; omega)
  rw [on, hrd, b2n_ne_zero]

/-- Temperatures taken: beside them and their times, the registers that show them and which are stale. -/
theorem takeTemps_onlyTemps (e : Engine) {l : List (Nat × Bool)} (hl : l.length = 4) :
    e.onlyTemps (e.takeTemps l) (R.CAL_STATUS.word.off :: tempOffs) := by
  unfold onlyTemps withTempsOf
  rw [takeTemps_eq, markStale_cal]
  exact onlyRegs_trans (onlyRegs_mono (tempsTaken_onlyTemps hl e) fun _ => List.mem_cons_of_mem _) (e.tempsTaken l).markStale_onlyRegs

theorem takeTemps_samePacketRegs (e : Engine) {l : List (Nat × Bool)} (hl : l.length = 4) : e.samePacketRegs (e.takeTemps l) :=
  fun off ho => (e.takeTemps_onlyTemps hl).2 off ((by decide : ∀ off ∈ packetOffs, off ∉ R.CAL_STATUS.word.off :: tempOffs) off ho)

/-! ### Threshold states (R268, R288) -/

/-- Of the steps on the elements of a list one alone does anything. -/
theorem foldl_only {α β : Type} {f : β → α → β} {a : α} {l : List α} (ha : a ∈ l) (hl : l.Nodup) (h : ∀ x, ∀ b ∈ l, b ≠ a → f x b = x) (x : β) :
    l.foldl f x = f x a := by
  induction l generalizing x with
  | nil => cases ha
  | cons c t ih =>
    obtain ⟨hc, ht⟩ := List.nodup_cons.mp hl
    rw [List.foldl_cons]
    by_cases hca : c = a
    · subst hca
      exact foldl_eq_self fun b hb => h _ b (List.mem_cons_of_mem c hb) fun hbc => hc (hbc ▸ hb)
    · rw [h x c List.mem_cons_self hca]
      exact ih ((List.mem_cons.mp ha).resolve_left (Ne.symm hca)) ht (fun y b hb => h y b (List.mem_cons_of_mem c hb)) x

/-- Where one state alone has changed, one THRESHOLD tells of it. -/
theorem takeThresholds_one {e : Engine} {states : Nat} {n : Fin 4} (h : ∀ k : Fin 4, bitOf states k.val = bitOf (e.rd R.MET_TH.V) k.val ↔ k ≠ n)
    (values : List Nat) : e.takeThresholds states values =
      (e.wr R.MET_TH.V states).emit 0x10 n.val 0 (b2n (bitOf states n.val)) none [(24, 4, states), (28, 4, values.getD n.val 0)] := by
  unfold takeThresholds
  refine (foldl_only (List.mem_range.mpr n.isLt) List.nodup_range (fun x k hk hne => if_pos ?_) _).trans (if_neg fun hsame => (h n).mp hsame rfl)
  exact (h ⟨k, List.mem_range.mp hk⟩).mpr fun hkn => hne (congrArg Fin.val hkn)

end Engine
end Sys2Proof.Machine
end

section
/-!
PROOFS. What the section answers and notices on MET_IN (R268, R301, R309, R312, R313, R336), and the commands of the engine's side of the section.
-/

namespace Sys2Proof.Machine

namespace Engine

/-! ### The answer of a query (R312) -/

theorem askNext_none {e : Engine} (h : e.mets.queries = []) : e.askNext = e := by
  unfold askNext
  rw [h]
  split
  · next hcons => cases hcons
  · rfl

/-- The engine once its last query is answered. -/
def askedNone (e : Engine) : Engine := { e with mets := { e.mets with queries := [], asked := none } }

/-- What the mailbox shows of an answer: its status, that it asks nothing any more, and the result bytes. -/
def mailboxShown (e : Engine) (status : Nat) (data : List Byte) : Engine :=
  ((e.wr R.MET_Q_CTRL.STATUS status).wr R.MET_Q_CTRL.BUSY 0).putWords (R.MET_Q_RES.V 0).off data

theorem wordRun_results : WordRun R.MET_Q_RES.V := fun k => by simp

theorem wordRun_record : WordRun R.MET_QREC.V := fun k => by simp

theorem wordRun_key : WordRun R.MET_PUBKEY.V := fun k => by simp

section
variable (e : Engine) (status : Nat) {data : List Byte} (hdata : data.length = 24)
include hdata

theorem mailboxShown_onlyRegs : e.onlyRegs (e.mailboxShown status data) ([R.MET_Q_CTRL.word.off] ++ (upTo 6).map fun k => (R.MET_Q_RES.V k).off) := by
  refine onlyRegs_append (onlyRegs_wr (wr_onlyRegs e _ ?_) ?_ _) (putWords_onlyRegs _ wordRun_results (n := 6) hdata)
  all_goals simp

theorem mailboxShown_rd : (e.mailboxShown status data).rd R.MET_Q_CTRL.STATUS = status % 256 ∧ (e.mailboxShown status data).on R.MET_Q_CTRL.BUSY = false ∧
    ∀ k : Fin 6, (e.mailboxShown status data).rd (R.MET_Q_RES.V k.val) = leAt data (4 * k.val) 4 := by
  have hctrl (f : Fld) (hf : f.off = R.MET_Q_CTRL.word.off) : (e.mailboxShown status data).rd f =
      ((e.wr R.MET_Q_CTRL.STATUS status).wr R.MET_Q_CTRL.BUSY 0).rd f := by
    refine onlyRegs_rd (putWords_onlyRegs _ wordRun_results (n := 6) hdata) ?_
    rw [hf]
    decide
  refine ⟨?_, ?_, fun k => putWords_rd _ wordRun_results (n := 6) hdata k.isLt⟩
  · rw [hctrl R.MET_Q_CTRL.STATUS rfl, rd_wr_apart _ (by simp [Fld.fits]) (by simp [Fld.fits]) (by simp [Fld.apart]), rd_wr_same _ (by simp [Fld.fits])]
    rfl
  · rw [on, hctrl R.MET_Q_CTRL.BUSY rfl, rd_wr_same _ (by simp [Fld.fits])]
    rfl

end

section
variable {e : Engine} {q : MetQuery} (hq : e.mets.queries = [q])
include hq

/-- The one query asked was the mailbox's. -/
theorem endQuery_mailbox (hmail : q.hseq = none) (status : Nat) {data : List Byte} (hdata : data.length = 24) : e.endQuery status data = e.askedNone.mailboxShown status data := by
  unfold endQuery
  rw [hq]
  dsimp only
  rw [hmail]
  exact askNext_none (congrArg (fun x => x.mets.queries) (putWords_onlyRegs _ wordRun_results (n := 6) hdata).1)

/-- The one query asked was that of a MET_QUERY, which its answer completes. -/
theorem endQuery_command {h : Nat} (hcmd : q.hseq = some h) {c : OpenCmd}
    (hopen : (e.opens.find? fun c => c.hseq == h && c.wait != Wait.built) = some c) (status : Nat) {data : List Byte} (hdata : data ≠ []) :
    e.endQuery status data = e.askedNone.finish c status [(40, 24, fromLe data)] := by
  have hfinish : e.askedNone.finishHseq h status [(40, 24, fromLe data)] = e.askedNone.finish c status [(40, 24, fromLe data)] := by
    unfold finishHseq
    rw [show e.askedNone.opens = e.opens from rfl, hopen]
  unfold endQuery
  rw [hq]
  dsimp only
  rw [hcmd]
  dsimp only
  rw [if_neg (by simpa using hdata)]
  refine (congrArg askNext hfinish).trans (askNext_none ?_)
  rw [finish_mets]
  rfl

end

/-- An answer ends the query asked; that of RECORD brings the record. -/
theorem takeBody_answer {e : Engine} {id t : Nat} (hasked : e.mets.asked = some (id, t)) (peer : Bool) (status : Nat) (data extra : List Byte) :
    (∀ {kind : Nat}, kind ≠ 1 → kind ≠ 2 → e.takeBody peer (.answer id kind status data extra) = e.endQuery status data) ∧
    (status = stOk → e.takeBody peer (.answer id 2 status data extra) = (e.putWords (R.MET_QREC.V 0).off extra).endQuery status data) := by
  constructor
  · intro kind h1 h2
    simp [takeBody, hasked, h1, h2]
  · intro hok
    simp [takeBody, hasked, hok]

theorem finish_toldBytes {e : Engine} (hr : e.resetting = none) (hf : e.pins.failed = false) (c : OpenCmd) (status : Nat) (r : List LayField) :
    (e.finish c status r).toldBytes ([(24, 8, c.tag), (32, 1, c.code)] ++ r) := by
  obtain ⟨v, hlast, -, -, -, -, -, hpayload, -⟩ := emitBk_last ({ e with opens := markBuilt c e.opens } : Engine) hr hf 0x01 0 status 0 (some c.hseq)
    ([(24, 8, c.tag), (32, 1, c.code)] ++ r) (.cmd c.hseq status c.code)
  unfold finish cmdDone toldBytes
  rw [hlast, ← hpayload]
  rfl

theorem finish_rd {e : Engine} (hroom : e.evt.queue.length < 256) (c : OpenCmd) (status : Nat) (r : List LayField) {f : Fld}
    (hf : f.off ≠ (R.QUE_LEVEL.LEVEL 64).off) : (e.finish c status r).rd f = e.rd f :=
  emitBk_rd ({ e with opens := markBuilt c e.opens } : Engine) hroom _ _ _ _ _ _ _ _ hf

theorem finish_word {e : Engine} (hroom : e.evt.queue.length < 256) (c : OpenCmd) (status : Nat) (r : List LayField) {off : Nat}
    (hoff : off ≠ (R.QUE_LEVEL.LEVEL 64).off) : (e.finish c status r).word off = e.word off :=
  emitBk_word ({ e with opens := markBuilt c e.opens } : Engine) hroom _ _ _ _ _ _ _ _ hoff

/-! ### Identification (R311) -/

/-- The registers that identification fills. -/
def identShown (e : Engine) (fw crc audit key : Nat) (pub : List Byte) : Engine :=
  ((((e.wr R.MET_FWVER.V fw).wr R.MET_FWCRC.V crc).wr R.MET_AUDIT.V audit).wr R.MET_KEY_ID.V key).putWords (R.MET_PUBKEY.V 0).off pub

/-- The four of them that hold no part of the key. -/
abbrev identOffs : List Nat := [R.MET_FWVER.V.off, R.MET_FWCRC.V.off, R.MET_AUDIT.V.off, R.MET_KEY_ID.V.off]

section
variable (e : Engine) (fw crc audit key : Nat) {pub : List Byte} (hpub : pub.length = 64)
include hpub

theorem identShown_onlyRegs : e.onlyRegs (e.identShown fw crc audit key pub) (identOffs ++ (upTo 16).map fun k => (R.MET_PUBKEY.V k).off) := by
  refine onlyRegs_append (onlyRegs_wr (onlyRegs_wr (onlyRegs_wr (wr_onlyRegs e _ ?_) ?_ _) ?_ _) ?_ _) (putWords_onlyRegs _ wordRun_key (n := 16) hpub)
  all_goals simp

theorem identShown_rd : (e.identShown fw crc audit key pub).rd R.MET_FWVER.V = fw % 2 ^ 32 ∧
    (e.identShown fw crc audit key pub).rd R.MET_FWCRC.V = crc % 2 ^ 32 ∧ (e.identShown fw crc audit key pub).rd R.MET_AUDIT.V = audit % 2 ^ 32 ∧
    (e.identShown fw crc audit key pub).rd R.MET_KEY_ID.V = key % 2 ^ 32 ∧
    ∀ k : Fin 16, (e.identShown fw crc audit key pub).rd (R.MET_PUBKEY.V k.val) = leAt pub (4 * k.val) 4 := by
  have hrun (f : Fld) (hf : f.off ∉ (upTo 16).map fun k => (R.MET_PUBKEY.V k).off) : (e.identShown fw crc audit key pub).rd f =
      ((((e.wr R.MET_FWVER.V fw).wr R.MET_FWCRC.V crc).wr R.MET_AUDIT.V audit).wr R.MET_KEY_ID.V key).rd f :=
    onlyRegs_rd (putWords_onlyRegs _ wordRun_key (n := 16) hpub) hf
  refine ⟨?_, ?_, ?_, ?key, fun k => putWords_rd _ wordRun_key (n := 16) hpub k.isLt⟩
  all_goals rw [hrun _ (by decide)]
  case key => exact rd_wr_same _ (by simp [Fld.fits]) _
  all_goals
    simp (disch := decide) only [rd_wr_ne]
    exact rd_wr_same _ (by simp [Fld.fits]) _

end

/-! ### Notices (R313) -/

theorem notice_told {e : Engine} (h : e.hears) (kind mseq detail : Nat) :
    (e.notice kind mseq detail).told 0x17 kind 0 none 0 ∧ (e.notice kind mseq detail).toldBytes [(24, 4, mseq), (28, 4, detail)] := by
  obtain ⟨⟨hr, hf⟩, -⟩ := h
  exact ⟨emit_told e hr hf .., emit_toldBytes e hr hf ..⟩

theorem notice_rd {e : Engine} (h : e.hears) (kind mseq detail : Nat) {f : Fld} (hf : f.off ≠ (R.QUE_LEVEL.LEVEL 64).off) :
    (e.notice kind mseq detail).rd f = e.rd f := by
  obtain ⟨-, -, hroom⟩ := h
  exact emitBk_rd e (hroom.trans (by decide)) _ _ _ _ _ _ _ f hf

/-- With room an event leaves the registers of the packet. -/
theorem emit_samePacketRegs {e : Engine} (h : e.hears) (code subj status arg : Nat) (hs : Option Nat) (p : List LayField) :
    e.samePacketRegs (e.emit code subj status arg hs p) := by
  obtain ⟨-, -, hroom⟩ := h
  refine fun off ho => emitBk_word e (hroom.trans (by decide)) _ _ _ _ _ _ _ off ?_
  rintro rfl
  revert ho
  decide

/-- A NO_RECORD is told at a time, from which the next waits 100 ms. -/
def noRecordAt (e : Engine) (t : Nat) : Engine := { e with mets := { e.mets with noRec := some t } }

theorem takeNotice_told {e : Engine} {kind : Nat} (h4 : kind ≠ 4) (h8 : kind ≠ 8) (mseq detail : Nat) :
    e.takeNotice kind mseq detail = e.notice kind mseq detail := by
  rw [takeNotice, if_neg h4, if_neg h8]

/-- The first NO_RECORD is counted and told with the count. -/
theorem takeNotice_noRecord {e : Engine} (h : e.mets.noRec = none) (mseq detail : Nat) :
    e.takeNotice 8 mseq detail = ((e.count R.MET_NOREC_CNT.V 1).noRecordAt e.now).notice 8 0 ((e.count R.MET_NOREC_CNT.V 1).rd R.MET_NOREC_CNT.V) := by
  simp [takeNotice, h, noRecordAt]

/-- One within 100 ms of the last told is counted alone. -/
theorem takeNotice_noRecord_held {e : Engine} {t : Nat} (h : e.mets.noRec = some t) (ht : e.now < t + 100000000) (mseq detail : Nat) :
    e.takeNotice 8 mseq detail = e.count R.MET_NOREC_CNT.V 1 := by
  simp [takeNotice, h, ht]

/-- What is kept of the FE_FAULT notices of an input: when it was last told, and what is held of the meantime. -/
def feKept (e : Engine) (i : Nat) (v : Option Nat × Option Nat) : Engine := { e with mets := { e.mets with fe := modAt e.mets.fe i fun _ => v } }

/-- The first FE_FAULT of an input is told. -/
theorem takeNotice_feFault {e : Engine} {detail : Nat} (h : e.mets.fe.getD (detail % 8) (none, none) = (none, none)) (mseq : Nat) :
    e.takeNotice 4 mseq detail = (e.feKept (detail % 8) (some e.now, none)).notice 4 0 detail := by
  rw [takeNotice, if_pos rfl, feNote]
  dsimp only
  rw [h]
  rfl

/-- One within 100 ms joins what is held. -/
theorem takeNotice_feFault_held {e : Engine} {detail t : Nat} {held : Option Nat} (h : e.mets.fe.getD (detail % 8) (none, none) = (some t, held))
    (ht : e.now < t + 100000000) (mseq : Nat) : e.takeNotice 4 mseq detail = e.feKept (detail % 8) (some t, some (held.getD 0 ||| detail)) := by
  rw [takeNotice, if_pos rfl, feNote]
  dsimp only
  rw [h]
  exact if_neg (by simp [ht])

theorem feHoldoff_due {e : Engine} {i t d : Nat} (h : e.mets.fe.getD i (none, none) = (some t, some d)) (ht : t + 100000000 ≤ e.now) :
    e.feHoldoff i = (e.feKept i (some e.now, none)).notice 4 0 d := by
  unfold feHoldoff
  rw [h]
  exact if_pos ht

theorem feHoldoff_nothing {e : Engine} {i : Nat} (h : (e.mets.fe.getD i (none, none)).2 = none) : e.feHoldoff i = e := by
  unfold feHoldoff
  split
  · next hheld => rw [hheld] at h; cases h
  · rfl

end Engine

/-! ### The commands -/

theorem exec_feFaultNoticeHoldoff (n : Fin 8) (s : State) : exec (.feFaultNoticeHoldoff n) s = .next (s.onEng fun e => e.feHoldoff n.val) := rfl

theorem exec_syncSend (s : State) : exec .syncSend s = .next (s.onEng Engine.syncSend) := rfl

theorem exec_sectionSilent (s : State) : exec .sectionSilent s = .next (s.onEng Engine.silent) := rfl

/-- Settles O45: a packet read writes its level and the mirror; what its body does leaves these registers alone, so that they stand beside it. -/
theorem sectionPackets : Obligations.SectionPackets := by
  unfold Obligations.SectionPackets
  refine ⟨?empty, ?recordPeer, ?record, ?recordOther, ?temps, ?thresholds, ?ident, ?mailbox, ?query, ?notice, ?noRecord, ?noRecordHeld, ?feFault,
    ?feFaultHeld, ?holdoff, ?nothingHeld, ?sync, ?syncEarly, ?silent, ?heard⟩
  case empty =>
    intro s h
    refine ⟨_, exec_metInPacket s, s.onEng_engineOnly _, ?_⟩
    rw [State.onEng_eng, Engine.metTake, h]
  case recordPeer =>
    intro p rest m b s hinq hbody hm hver hfirst hpairing hlink hpl
    refine metInPacket_answer hinq hbody fun e hread => ?_
    obtain ⟨hmets, -, -, -, hstatus, hpair⟩ := Engine.packetOff_blocks hread
    have hpeer : (p.stat.pairing && e.pair.linkUp && e.pair.plver == 2) = true := by simp [hpair, hpairing, hlink, hpl]
    refine ⟨_, (Engine.takeRecord_next (e := e) (by rwa [hstatus, hmets]) ?_ (by rwa [Engine.mirrorFirst, hpair]) b _).trans (if_pos hpeer),
      fun _ _ => rfl, fun t ht => ?_⟩
    · rwa [hmets, Engine.ver, Engine.packetOff_rd hread (by decide)]
    · rw [ht]
      exact Engine.onlyRegs_map hread (f := fun e => (e.recordKept m b).pairSend none (.peerRecord b)) fun _ _ => rfl
  case record =>
    intro p rest m b s hinq hbody hm hver hfirst hpeer
    refine metInPacket_answer hinq hbody fun e hread => ?_
    obtain ⟨hmets, -, -, -, hstatus, hpair⟩ := Engine.packetOff_blocks hread
    refine ⟨_, (Engine.takeRecord_next (e := e) (by rwa [hstatus, hmets]) ?_ (by rwa [Engine.mirrorFirst, hpair]) b _).trans
      (if_neg (by rw [hpair, hpeer]; exact Bool.false_ne_true)), fun _ _ => rfl, fun t ht => ?_⟩
    · rwa [hmets, Engine.ver, Engine.packetOff_rd hread (by decide)]
    · rw [ht]
      exact Engine.onlyRegs_map hread (f := fun e => e.recordKept m b) fun _ _ => rfl
  case recordOther =>
    intro p rest m b s hinq hbody hother
    refine metInPacket_answer hinq hbody fun e hread => ?_
    obtain ⟨hmets, -, -, -, hstatus, -⟩ := Engine.packetOff_blocks hread
    refine ⟨e, Engine.takeRecord_other ?_ b _, fun _ _ => rfl, fun t ht => ?_⟩
    · rwa [hmets, hstatus, Engine.ver, Engine.packetOff_rd hread (by decide)]
    · rw [ht]
      exact hread
  case temps =>
    intro p rest l s hinq hbody hl hrtd htime
    refine metInPacket_answer hinq hbody fun e hread => ?_
    obtain ⟨-, -, hcal, -⟩ := Engine.packetOff_blocks hread
    rw [← hcal] at hrtd htime
    refine ⟨e.takeTemps l, rfl, e.takeTemps_samePacketRegs hl, fun t ht => ?_⟩
    rw [ht]
    have htimes (k : Fin 4) := Engine.tempsTaken_time hl e htime k.isLt
    refine ⟨fun k => ?_, fun k hfresh => ?_, fun k hold => ?_, fun k => ?_, ?_⟩
    · rw [Engine.takeTemps_eq, Engine.markStale_temp _ k.isLt, Engine.markStale_cal]
      exact Engine.tempsTaken_value hl e hrtd k.isLt
    · rw [Engine.takeTemps_eq, Engine.markStale_stale _ k.isLt, Engine.rtdStale, htimes k, if_pos hfresh, Engine.tempsTaken_now]
      simp
    · rw [Engine.takeTemps_eq, Engine.markStale_cal, htimes k, if_neg (ne_true_of_eq_false hold), hcal]
    · rw [Engine.takeTemps_eq, Engine.markStale_stale _ k.isLt, Engine.rtdStale, Engine.rtdStale, Engine.markStale_cal, Engine.markStale_now]
    · have hbase := Engine.onlyRegs_map hread (f := fun x => x.withTempsOf (e.takeTemps l)) fun _ _ => rfl
      have hframe := Engine.onlyRegs_append hbase (e.takeTemps_onlyTemps hl)
      exact hframe
  case thresholds =>
    intro p rest states v n s hinq hbody hone hhears
    refine metInPacket_answer hinq hbody fun e hread => ?_
    rw [← Engine.packetOff_rd hread (f := R.MET_TH.V) (by decide)] at hone
    have hset : e.onlyRegs (e.wr R.MET_TH.V states) [R.MET_TH.V.off] := Engine.wr_onlyRegs _ _ (List.mem_singleton.mpr rfl)
    have hhears' := Engine.onlyRegs_hears (Engine.onlyRegs_append hread hset) hhears
    refine ⟨_, Engine.takeThresholds_one hone v, Engine.samePacketRegs_trans (Engine.samePacketRegs_of_onlyRegs hset (by decide))
      (Engine.emit_samePacketRegs hhears' _ _ _ _ _ _), fun t ht => ?_⟩
    rw [ht]
    obtain ⟨⟨hr, hf⟩, -, hroom⟩ := hhears'
    refine ⟨?_, Engine.emit_told _ hr hf .., Engine.emit_toldBytes _ hr hf ..,
      Engine.onlyBooks_trans (Engine.onlyBooks_of_onlyRegs (Engine.onlyRegs_append hread hset)) (Engine.emit_books ..)⟩
    exact (Engine.emitBk_rd _ (hroom.trans (by decide)) _ _ _ _ _ _ _ _ (by decide)).trans (Engine.rd_wr_same _ (by simp [Fld.fits]) _)
  case ident =>
    intro p rest fw crc audit key acked pub s hinq hbody hpub
    refine metInPacket_answer hinq hbody fun e hread => ?_
    have hshown := e.identShown_onlyRegs fw crc audit key hpub
    obtain ⟨hfw, hcrc, haudit, hkey, hrun⟩ := e.identShown_rd fw crc audit key hpub
    refine ⟨e.identShown fw crc audit key pub, rfl, Engine.samePacketRegs_of_onlyRegs hshown (by decide), fun t ht => ?_⟩
    rw [ht]
    have hframe := Engine.onlyRegs_append hread hshown
    rw [← List.append_assoc] at hframe
    exact ⟨hfw, hcrc, haudit, hkey, hrun, hframe⟩
  case mailbox =>
    intro p rest i kind st t0 data extra q s hinq hbody hasked hqueries hmail h1 h2 hdata
    refine metInPacket_answer hinq hbody fun e hread => ?_
    obtain ⟨hmets, -⟩ := Engine.packetOff_blocks hread
    have hshown := e.askedNone.mailboxShown_onlyRegs st hdata
    obtain ⟨hstatus, hbusy, hrun⟩ := e.askedNone.mailboxShown_rd st hdata
    refine ⟨_, ((Engine.takeBody_answer (by rw [hmets]; exact hasked) _ st data extra).1 h1 h2).trans
      (Engine.endQuery_mailbox (by rw [hmets]; exact hqueries) hmail st hdata), Engine.samePacketRegs_of_onlyRegs (e := e.askedNone) hshown (by decide),
      fun t ht => ?_⟩
    rw [ht]
    have hframe := Engine.onlyRegs_append (Engine.onlyRegs_map hread (f := Engine.askedNone) fun _ _ => rfl) hshown
    rw [← List.append_assoc] at hframe
    exact ⟨hstatus, hbusy, hrun, hframe⟩
  case query =>
    intro p rest i kind st t0 data extra q n c s hinq hbody hasked hqueries hcmd hkind hst hextra hdata hopen hhears
    subst hkind hst
    refine metInPacket_answer hinq hbody fun e hread => ?_
    obtain ⟨hmets, -, -, hopens, -⟩ := Engine.packetOff_blocks hread
    have hput := e.putWords_onlyRegs Engine.wordRun_record (n := 32) hextra
    have hrun (k : Fin 32) := e.putWords_rd Engine.wordRun_record (n := 32) hextra k.isLt
    have hbody := (Engine.takeBody_answer (by rw [hmets]; exact hasked) p.stat.pairing stOk data extra).2 rfl
    generalize e.putWords (R.MET_QREC.V 0).off extra = x at *
    have hasks := Engine.onlyRegs_map (Engine.onlyRegs_append hread hput) (f := Engine.askedNone) fun _ _ => rfl
    have hhears' := Engine.onlyRegs_hears hasks hhears
    obtain ⟨⟨hr, hf⟩, -, hroom⟩ := hhears'
    have hkeep {off : Nat} (hoff : off ≠ (R.QUE_LEVEL.LEVEL 64).off) := Engine.finish_word (e := x.askedNone) (hroom.trans (by decide)) c stOk
      [(40, 24, fromLe data)] hoff
    refine ⟨_, hbody.trans (Engine.endQuery_command (by rw [hput.1, hmets]; exact hqueries) hcmd (by rw [hput.1, hopens]; exact hopen) stOk
      (List.ne_nil_of_length_pos (by omega))), ?_, fun t ht => ?_⟩
    · exact fun off ho => (hkeep fun h64 => absurd (h64 ▸ ho) (by decide)).trans (Engine.samePacketRegs_of_onlyRegs hput (by decide) off ho)
    · rw [ht]
      have hhseq : c.hseq = n := by
        have hc := List.find?_some hopen
        simp only [Bool.and_eq_true, beq_iff_eq] at hc
        exact hc.1
      refine ⟨hhseq ▸ Engine.finish_answered x.askedNone hr hf c stOk _, Engine.finish_toldBytes hr hf c stOk _, fun k => ?_,
        Engine.onlyBooks_trans (Engine.onlyBooks_of_onlyRegs hasks) (Engine.finish_books ..)⟩
      rw [Engine.finish_rd (hroom.trans (by decide)) c stOk _ (by dsimp only; omega)]
      exact hrun k
  case notice =>
    intro p rest kind m d s hinq hbody h4 h8 hhears
    refine metInPacket_answer hinq hbody fun e hread => ?_
    have hhears' := Engine.onlyRegs_hears hread hhears
    obtain ⟨htold, hbytes⟩ := Engine.notice_told hhears' kind m d
    refine ⟨_, Engine.takeNotice_told h4 h8 m d, Engine.emit_samePacketRegs hhears' _ _ _ _ _ _, fun t ht => ?_⟩
    rw [ht]
    exact ⟨htold, hbytes, Engine.onlyBooks_trans (Engine.onlyBooks_of_onlyRegs hread) (Engine.emit_books ..)⟩
  case noRecord =>
    intro p rest kind m d s hinq hbody hkind hnone hhears
    subst hkind
    refine metInPacket_answer hinq hbody fun e hread => ?_
    obtain ⟨hmets, hnow, -⟩ := Engine.packetOff_blocks hread
    have hcount : e.onlyRegs (e.count R.MET_NOREC_CNT.V 1) [R.MET_NOREC_CNT.V.off] := Engine.wr_onlyRegs _ _ (List.mem_singleton.mpr rfl)
    have hrd : (e.count R.MET_NOREC_CNT.V 1).rd R.MET_NOREC_CNT.V = min (2 ^ 32 - 1) (s.eng.rd R.MET_NOREC_CNT.V + 1) := by
      rw [Engine.rd_count_same _ (by simp [Fld.fits]), Engine.packetOff_rd hread (by decide)]
      rfl
    have htaken := Engine.takeNotice_noRecord (e := e) (by rw [hmets]; exact hnone) m d
    rw [hrd, hnow] at htaken
    have hframe := Engine.onlyRegs_map (Engine.onlyRegs_append hread hcount) (f := fun x => x.noRecordAt s.eng.now) fun _ _ => rfl
    have hhears' := Engine.onlyRegs_hears hframe hhears
    obtain ⟨htold, hbytes⟩ := Engine.notice_told hhears' 8 0 (min (2 ^ 32 - 1) (s.eng.rd R.MET_NOREC_CNT.V + 1))
    refine ⟨_, htaken, Engine.samePacketRegs_trans (Engine.samePacketRegs_of_onlyRegs hcount (by decide))
      (Engine.emit_samePacketRegs hhears' _ _ _ _ _ _), fun t ht => ?_⟩
    rw [ht]
    exact ⟨(Engine.notice_rd hhears' _ _ _ (by decide)).trans hrd, htold, hbytes,
      Engine.onlyBooks_trans (Engine.onlyBooks_of_onlyRegs hframe) (Engine.emit_books ..)⟩
  case noRecordHeld =>
    intro p rest kind m d u s hinq hbody hkind hsome hsoon
    subst hkind
    refine metInPacket_answer hinq hbody fun e hread => ?_
    obtain ⟨hmets, hnow, -⟩ := Engine.packetOff_blocks hread
    have hcount : e.onlyRegs (e.count R.MET_NOREC_CNT.V 1) [R.MET_NOREC_CNT.V.off] := Engine.wr_onlyRegs _ _ (List.mem_singleton.mpr rfl)
    refine ⟨_, Engine.takeNotice_noRecord_held (by rw [hmets]; exact hsome) (by rwa [hnow]) m d, Engine.samePacketRegs_of_onlyRegs hcount (by decide),
      fun t ht => ?_⟩
    rw [ht]
    refine ⟨?_, Engine.onlyRegs_append hread hcount⟩
    rw [Engine.rd_count_same _ (by simp [Fld.fits]), Engine.packetOff_rd hread (by decide)]
    rfl
  case feFault =>
    intro p rest kind m d s hinq hbody hkind hnone hhears
    subst hkind
    refine metInPacket_answer hinq hbody fun e hread => ?_
    obtain ⟨hmets, hnow, -⟩ := Engine.packetOff_blocks hread
    have hkept := Engine.onlyRegs_map hread (f := fun x => x.feKept (d % 8) (some s.eng.now, none)) fun _ _ => rfl
    have hhears' : (e.feKept (d % 8) (some s.eng.now, none)).hears := Engine.onlyRegs_hears hkept hhears
    obtain ⟨htold, hbytes⟩ := Engine.notice_told hhears' 4 0 d
    refine ⟨(e.feKept (d % 8) (some s.eng.now, none)).notice 4 0 d, hnow ▸ Engine.takeNotice_feFault (by rw [hmets]; exact hnone) m,
      Engine.emit_samePacketRegs hhears' _ _ _ _ _ _, fun t ht => ?_⟩
    rw [ht]
    exact ⟨htold, hbytes, Engine.onlyBooks_trans (Engine.onlyBooks_of_onlyRegs hkept) (Engine.emit_books ..)⟩
  case feFaultHeld =>
    intro p rest kind m d u held s hinq hbody hkind hsome hsoon
    subst hkind
    refine metInPacket_answer hinq hbody fun e hread => ?_
    obtain ⟨hmets, hnow, -⟩ := Engine.packetOff_blocks hread
    refine ⟨_, Engine.takeNotice_feFault_held (by rw [hmets]; exact hsome) (by rwa [hnow]) m, fun _ _ => rfl, fun t ht => ?_⟩
    rw [ht]
    exact Engine.onlyRegs_map hread (f := fun x => x.feKept (d % 8) (some u, some (held.getD 0 ||| d))) fun _ _ => rfl
  case holdoff =>
    intro n u d s hsome hdue hhears
    refine ⟨_, exec_feFaultNoticeHoldoff n s, s.onEng_engineOnly _, ?_⟩
    rw [State.onEng_eng, Engine.feHoldoff_due hsome hdue]
    obtain ⟨htold, hbytes⟩ := Engine.notice_told (e := s.eng.feKept n.val (some s.eng.now, none)) hhears 4 0 d
    exact ⟨htold, hbytes, Engine.emit_books ..⟩
  case nothingHeld =>
    intro n s hnone
    exact ⟨_, exec_feFaultNoticeHoldoff n s, s.onEng_engineOnly _, Engine.feHoldoff_nothing hnone⟩
  case sync =>
    intro s hdue
    exact ⟨_, exec_syncSend s, s.onEng_engineOnly _, if_pos hdue⟩
  case syncEarly =>
    intro s hearly
    exact ⟨_, exec_syncSend s, s.onEng_engineOnly _, if_neg hearly.not_ge⟩
  case silent =>
    intro s hpresent hlate hhears
    refine ⟨_, exec_sectionSilent s, s.onEng_engineOnly _, ?_⟩
    rw [State.onEng_eng, Engine.silent, if_pos (by simp [hpresent, hlate])]
    obtain ⟨htold, hbytes⟩ := Engine.notice_told (e := s.eng.wr R.MET_STATUS.PRESENT 0) hhears 10 0 0
    have hcleared := s.eng.wr_books R.MET_STATUS.PRESENT 0 (offs := [R.MET_STATUS.word.off]) (.inr (List.mem_singleton.mpr rfl))
    refine ⟨?_, htold, hbytes, Engine.onlyBooks_trans hcleared (Engine.emit_books ..)⟩
    rw [Engine.on, Engine.notice_rd (e := s.eng.wr R.MET_STATUS.PRESENT 0) hhears 10 0 0 (by decide), Engine.rd_wr_same _ (by simp [Fld.fits])]
    rfl
  case heard =>
    intro s hheard
    refine ⟨_, exec_sectionSilent s, s.onEng_engineOnly _, if_neg ?_⟩
    rcases hheard with h | h
    · simp [h]
    · simp [h]

end Sys2Proof.Machine
end

section
/-!
PROOFS. Stages 5 and 6 for a kept tap-line (R96, R97, R104): the frame of a channel's line, what the tracker leaves, and what a line without fade, calibration and
poisoned pixels gives.
-/

namespace Sys2Proof.Machine

namespace Engine

/-! ### The frame of a tap-line -/

/-- The engine with the channels and the shading state of another. -/
def withTapOf (e x : Engine) : Engine := { e with chans := x.chans, shd := x.shd }

/-- The frame of a tap-line: beside channels and shading state, the named registers. -/
def onlyTap (e x : Engine) (offs : List Nat) : Prop := (e.withTapOf x).onlyRegs x offs

theorem onlyTap_of_onlyRegs {e x : Engine} {offs : List Nat} (h : e.onlyRegs x offs) : e.onlyTap x offs := by
  refine ⟨?_, h.2⟩
  conv_lhs => rw [h.1]
  rw [h.1]
  rfl

theorem onlyTap_trans {e x y : Engine} {offs : List Nat} (h : e.onlyTap x offs) (k : x.onlyTap y offs) : e.onlyTap y offs :=
  onlyRegs_trans (onlyRegs_map h (f := fun z => z.withTapOf y) fun _ _ => rfl) k

theorem onlyTap_mono {e x : Engine} {o p : List Nat} (h : e.onlyTap x o) (hp : ∀ n ∈ o, n ∈ p) : e.onlyTap x p := onlyRegs_mono h hp

theorem onlyTap_rd {e x : Engine} {offs : List Nat} (h : e.onlyTap x offs) {f : Fld} (hf : f.off ∉ offs) : x.rd f = e.rd f := onlyRegs_rd h hf

theorem modChan_onlyTap (e : Engine) (c : Nat) (f : ChanSt → ChanSt) (offs : List Nat) : e.onlyTap (e.modChan c f) offs := ⟨rfl, fun _ _ => rfl⟩

theorem count_onlyTap (e : Engine) (n : Nat) {f : Fld} {offs : List Nat} (hf : f.off ∈ offs) : e.onlyTap (e.count f n) offs :=
  onlyTap_of_onlyRegs (wr_onlyRegs e _ hf)

/-! ### FORCE and document windows (R99, R101) -/

theorem noteForce_eq (e : Engine) (s idx : Nat) : e.noteForce s idx = { e with shd := (e.noteForce s idx).shd } := by
  unfold noteForce
  dsimp only
  split <;> rfl

theorem noteForce_shd (e : Engine) (s idx : Nat) : (e.noteForce s idx).shd = { e.shd with force := (e.noteForce s idx).shd.force } := by
  unfold noteForce
  dsimp only
  split <;> rfl

theorem noteForce_onlyTap (e : Engine) (s idx : Nat) (offs : List Nat) : e.onlyTap (e.noteForce s idx) offs := by
  rw [noteForce_eq]
  exact ⟨rfl, fun _ _ => rfl⟩

section
variable {e x : Engine} {s : Nat} (hshd : x.shd = e.shd) (hforced : x.forced s = e.forced s)
include hshd hforced

theorem noteForce_congr (idx : Nat) : (x.noteForce s idx).shd = (e.noteForce s idx).shd := by
  unfold noteForce
  rw [hshd, hforced]
  dsimp only
  split
  · exact hshd
  · rfl

theorem forcedAt_congr (idx : Nat) : x.forcedAt s idx = e.forcedAt s idx := by
  unfold forcedAt
  rw [hshd, hforced]

end

theorem forced_congr {e x : Engine} {s : Nat} (h : x.word R.SHD_TRK_CTRL.word.off = e.word R.SHD_TRK_CTRL.word.off) : x.forced s = e.forced s := by
  unfold forced
  split <;> simp only [on, rd, h]

theorem inDocWindow_congr {e x : Engine} {s : Nat} (hwindows : x.shd.windows = e.shd.windows)
    (h : x.word R.SHD_TRK_CTRL.word.off = e.word R.SHD_TRK_CTRL.word.off) (r idx : Nat) : x.inDocWindow s r idx = e.inDocWindow s r idx := by
  unfold inDocWindow
  rw [hwindows]
  split <;> simp only [on, rd, h]

theorem shiftFor_congr {e x : Engine} {c : Nat} (h : (x.chan c).shift = (e.chan c).shift) (idx : Nat) : x.shiftFor c idx = e.shiftFor c idx := by
  unfold shiftFor
  rw [h]

/-! ### The tracker (R96, R97) -/

/-- The row of a channel. -/
abbrev rowOf (e : Engine) (c : Nat) : Nat := e.rd (R.TG_CHMAP.ROW (c / 32) (c % 32))

/-- What the tracker's level becomes once the means due at a line are absorbed, those in a document window left out. -/
def levelAt (e : Engine) (c idx : Nat) : Nat :=
  ((e.chan c).means.filter fun m => decide (m.1 + 80 ≤ idx)).foldl
    (fun v m => if e.inDocWindow (c / 32) (e.rowOf c) m.1 then v
      else absorb (min 12 (e.rd (if c / 32 = 0 then R.SHD_TRK_CTRL.K0 else R.SHD_TRK_CTRL.K1))) v m.2) (e.rd (R.SHD_CH_TRK.C c))

/-- The mean of its own that a line leaves for later: none under FORCE, nor where it is invalid. -/
def ownMean (e : Engine) (c : Nat) (p : TapPkt) : List (Nat × Nat) :=
  if (e.noteForce (c / 32) p.index).forcedAt (c / 32) p.index then []
  else (obMean p).toList.map fun (m : Nat) => (p.index, ((m : Int) + e.shiftFor c p.index).toNat)

/-- The means that wait after a line. -/
def meansPast (e : Engine) (c : Nat) (p : TapPkt) (h : ChanSt) : ChanSt :=
  { h with means := (h.means.filter fun m => !decide (m.1 + 80 ≤ p.index)) ++ e.ownMean c p }

section
variable {e x : Engine} {c : Nat}

theorem levelAt_congr (hmeans : (x.chan c).means = (e.chan c).means) (hwindows : x.shd.windows = e.shd.windows)
    (hctrl : x.word R.SHD_TRK_CTRL.word.off = e.word R.SHD_TRK_CTRL.word.off) (hrow : x.rowOf c = e.rowOf c)
    (hlevel : x.rd (R.SHD_CH_TRK.C c) = e.rd (R.SHD_CH_TRK.C c)) (idx : Nat) : x.levelAt c idx = e.levelAt c idx := by
  have hk : x.rd (if c / 32 = 0 then R.SHD_TRK_CTRL.K0 else R.SHD_TRK_CTRL.K1) = e.rd (if c / 32 = 0 then R.SHD_TRK_CTRL.K0 else R.SHD_TRK_CTRL.K1) := by
    split <;> simp only [rd, hctrl]
  unfold levelAt
  simp only [hmeans, hrow, hlevel, hk, inDocWindow_congr hwindows hctrl]

theorem noteForce_forced (e : Engine) (s idx : Nat) : (e.noteForce s idx).forced s = e.forced s := by
  rw [noteForce_eq]
  rfl

theorem ownMean_congr (hshift : (x.chan c).shift = (e.chan c).shift) (hshd : x.shd = e.shd) (hforced : x.forced (c / 32) = e.forced (c / 32)) (p : TapPkt) :
    x.ownMean c p = e.ownMean c p := by
  unfold ownMean
  rw [forcedAt_congr (noteForce_congr hshd hforced p.index) (by rw [noteForce_forced, noteForce_forced, hforced])]
  simp only [shiftFor_congr hshift]

end

/-- The engine once the level is set and the line's own mean waits. -/
def tracked (e : Engine) (c : Nat) (p : TapPkt) : Engine :=
  ((e.noteForce (c / 32) p.index).wr (R.SHD_CH_TRK.C c) (e.levelAt c p.index)).modChan c (e.meansPast c p)

/-- FROZEN of a side. -/
abbrev frozenField (s : Nat) : Fld := if s = 0 then R.SHD_TRK_STATUS.FROZEN0 else R.SHD_TRK_STATUS.FROZEN1

theorem frozenField_off (s : Nat) : (frozenField s).off = R.SHD_TRK_STATUS.word.off := by
  unfold frozenField
  split <;> rfl

theorem chan_noteForce (e : Engine) (s idx c : Nat) : (e.noteForce s idx).chan c = e.chan c := by
  rw [noteForce_eq]
  rfl

/-- A channel whose waiting means alone change keeps its shift. -/
theorem shift_modMeans (e : Engine) (c : Nat) (f : ChanSt → List (Nat × Nat)) : ((e.modChan c fun h => { h with means := f h }).chan c).shift =
    (e.chan c).shift := by
  by_cases hc : c < e.chans.length
  · rw [chan_modChan_same hc]
  · rw [modChan, modAt, List.modify_eq_self (Nat.le_of_not_lt hc)]

theorem noteForce_windows (e : Engine) (s idx : Nat) : (e.noteForce s idx).shd.windows = e.shd.windows := by rw [noteForce_shd]

theorem levelAt_noteForce (e : Engine) (c s i idx : Nat) : (e.noteForce s i).levelAt c idx = e.levelAt c idx := by
  refine levelAt_congr (by rw [chan_noteForce]) (noteForce_windows e s i) ?_ ?_ ?_ idx
  all_goals
    rw [noteForce_eq]
    rfl

/-- Two changes of one channel are one. -/
theorem modChan_modChan (e : Engine) (c : Nat) (f g : ChanSt → ChanSt) : (e.modChan c f).modChan c g = e.modChan c fun h => g (f h) := by
  simp only [modChan, modAt_modAt]
  rfl

/-- What the tracker does beside: an invalid mean is counted, and FROZEN shows whether the line's mean counts. -/
theorem track_eq (e : Engine) (c : Nat) (p : TapPkt) : ∃ b : Bool, e.track c p =
    (if (obMean p).isSome then e.tracked c p else (e.tracked c p).count R.SHD_OBINV_CNT.V 1).wr (frozenField (c / 32)) (b2n b) := by
  refine ⟨(e.noteForce (c / 32) p.index).forcedAt (c / 32) p.index ||
    (e.noteForce (c / 32) p.index).inDocWindow (c / 32) ((e.noteForce (c / 32) p.index).rowOf c) p.index, ?_⟩
  unfold tracked
  rw [← levelAt_noteForce e c (c / 32) p.index]
  have hshift : ∀ v, ((((e.noteForce (c / 32) p.index).wr (R.SHD_CH_TRK.C c) v).modChan c fun h =>
      { h with means := h.means.filter fun m => !decide (m.1 + 80 ≤ p.index) }).shiftFor c p.index) = e.shiftFor c p.index := fun v =>
    shiftFor_congr ((shift_modMeans _ c fun h => h.means.filter fun m => !decide (m.1 + 80 ≤ p.index)).trans
      (congrArg ChanSt.shift (chan_noteForce e (c / 32) p.index c))) p.index
  unfold track meansPast ownMean
  dsimp only
  rw [hshift]
  cases obMean p with
  | none =>
    simp only [Option.toList_none, List.map_nil, ite_self, List.append_nil, Option.isSome_none, Bool.false_eq_true, if_false]
    rfl
  | some m =>
    simp only [Option.toList_some, List.map_cons, List.map_nil, Option.isSome_some, if_true]
    cases hforce : (e.noteForce (c / 32) p.index).forcedAt (c / 32) p.index with
    | true =>
      simp only [if_true, List.append_nil]
      rfl
    | false =>
      simp only [Bool.false_eq_true, if_false, modChan_modChan]
      rfl

/-- The registers that a line's way through stages 5 and 6 writes. -/
def lineRegs (c : Nat) : List Nat :=
  [(R.SHD_CH_TRK.C c).off, R.SHD_OBINV_CNT.V.off, R.SHD_TRK_STATUS.FROZEN0.off, R.SHD_POISON_CNT.V.off, R.SHD_SAT_CNT.V.off]

theorem frozen_mem_lineRegs (s c : Nat) : (frozenField s).off ∈ lineRegs c := by
  rw [frozenField_off]
  exact List.mem_of_mem_drop (i := 2) List.mem_cons_self

theorem obinv_mem_lineRegs (c : Nat) : R.SHD_OBINV_CNT.V.off ∈ lineRegs c := List.mem_of_mem_drop (i := 1) List.mem_cons_self

theorem tracked_onlyTap (e : Engine) (c : Nat) (p : TapPkt) : e.onlyTap (e.tracked c p) (lineRegs c) :=
  onlyTap_trans (noteForce_onlyTap e (c / 32) p.index (lineRegs c)) (onlyTap_trans (onlyTap_of_onlyRegs (wr_onlyRegs _ _ List.mem_cons_self))
    (modChan_onlyTap _ c _ _))

section
variable (e : Engine) (c : Nat) (p : TapPkt)

theorem tracked_chans : (e.tracked c p).chans = modAt e.chans c (e.meansPast c p) := by
  unfold tracked
  rw [noteForce_eq]
  rfl

theorem tracked_level : (e.tracked c p).rd (R.SHD_CH_TRK.C c) = e.levelAt c p.index % 2 ^ (R.SHD_CH_TRK.C c).width :=
  rd_wr_same _ (by simp [Fld.fits]) _

theorem track_onlyTap : e.onlyTap (e.track c p) (lineRegs c) := by
  obtain ⟨b, h⟩ := track_eq e c p
  rw [h]
  refine onlyTap_trans ?_ (onlyTap_of_onlyRegs (wr_onlyRegs _ _ (frozen_mem_lineRegs (c / 32) c)))
  split
  · exact tracked_onlyTap e c p
  · exact onlyTap_trans (tracked_onlyTap e c p) (count_onlyTap _ 1 (obinv_mem_lineRegs c))

theorem track_chans : (e.track c p).chans = modAt e.chans c (e.meansPast c p) := by
  obtain ⟨b, h⟩ := track_eq e c p
  rw [h, ← tracked_chans]
  split <;> rfl

theorem track_shd : (e.track c p).shd = (e.noteForce (c / 32) p.index).shd := by
  obtain ⟨b, h⟩ := track_eq e c p
  rw [h]
  split <;> rfl

theorem track_level : (e.track c p).rd (R.SHD_CH_TRK.C c) = e.levelAt c p.index % 2 ^ (R.SHD_CH_TRK.C c).width := by
  obtain ⟨b, h⟩ := track_eq e c p
  rw [h, ← tracked_level, rd_wr_ne _ _ (by rw [frozenField_off]; dsimp only; omega)]
  split
  · rfl
  · exact rd_count_ne _ _ (by dsimp only; omega)

end

/-! ### Stages 5 and 6 of a line without fade and calibration (R104, R107) -/

/-- The raw line that a channel keeps for a SUBST line, and the owed tap-lines that a line leaves. -/
def rawKept (p : TapPkt) (h : ChanSt) : ChanSt :=
  { h with
    owed := h.owed.filter fun o => decide (p.index < o.1)
    raw5 := [some ⟨p.black, p.active⟩, if p.index % 2 = 0 then some ⟨p.black, p.active⟩ else h.raw5.getD 1 none,
      if p.index % 2 = 1 then some ⟨p.black, p.active⟩ else h.raw5.getD 2 none] }

/-- A corrected line waits for stage 7. -/
def lineDone (p : TapPkt) (out : List Nat) (fl : LineFlags) (h : ChanSt) : ChanSt :=
  { h with
    outPrev := some out
    outEven := if p.index % 2 = 0 then some out else h.outEven
    outOdd := if p.index % 2 = 1 then some out else h.outOdd
    done := h.done ++ [⟨p.index, out, fl⟩] }

/-- A line of an index has entered stage 6. -/
def enteredAt (idx : Nat) (h : ChanSt) : ChanSt := { h with entered := some idx }

/-- Stage 5 of a line: the tracker, then what the channel keeps of it. -/
def fifth (e : Engine) (c : Nat) (p : TapPkt) : Engine := (e.track c p).modChan c (rawKept p)

/-- What stage 6 makes of a line that has passed stage 5. -/
def sixth (e : Engine) (c : Nat) (p : TapPkt) : List Nat × Nat × Nat := (e.fifth c p).stageSix c p ((e.fifth c p).restored c p) []

/-- A line leaves stage 6: its counts, and its pixels for stage 7. -/
def corrected (e : Engine) (c : Nat) (p : TapPkt) (fl : LineFlags) : Engine :=
  (((e.fifth c p).count R.SHD_POISON_CNT.V (e.sixth c p).2.1).count R.SHD_SAT_CNT.V (e.sixth c p).2.2).modChan c
    fun h => enteredAt p.index (lineDone p (e.sixth c p).1 fl h)

theorem fifth_shd (e : Engine) (c : Nat) (p : TapPkt) : (e.fifth c p).shd = (e.noteForce (c / 32) p.index).shd := track_shd e c p

theorem noteForce_fade (e : Engine) (s idx : Nat) : (e.noteForce s idx).shd.fade = e.shd.fade := by rw [noteForce_shd]

theorem noteForce_queued (e : Engine) (s idx : Nat) : (e.noteForce s idx).shd.queued = e.shd.queued := by rw [noteForce_shd]

theorem fifth_onlyTap (e : Engine) (c : Nat) (p : TapPkt) : e.onlyTap (e.fifth c p) (lineRegs c) := onlyTap_trans (track_onlyTap e c p) (modChan_onlyTap _ c _ _)

theorem enterSix_of_noFade {e : Engine} (h : e.shd.fade = none) (c idx : Nat) : e.enterSix c idx = e.modChan c (enteredAt idx) := by
  have hnone : (e.modChan c (enteredAt idx)).shd.fade = none := h
  unfold enteredAt at hnone ⊢
  unfold enterSix
  dsimp only
  rw [hnone]

/-- Where no fade runs and no calibration measures, a line passes stages 5 and 6 with its level, its counts and its pixels alone. -/
theorem stageFive_eq_corrected {e : Engine} {c : Nat} {p : TapPkt} (hmode : e.mode ≠ .m5) (hfade : e.shd.fade = none) (hgap : e.cal.gapStart = none) :
    ∃ frozen, e.stageFive c p [] = e.corrected c p ((e.fifth c p).tapFlags c p frozen) := by
  have hmeasure : (e.fifth c p).measureGap c p = e.fifth c p := by
    have h : (e.fifth c p).cal = e.cal := (congrArg Engine.cal (fifth_onlyTap e c p).1).trans rfl
    unfold measureGap
    rw [h, hgap]
  have hnone : (e.fifth c p).shd.fade = none := (congrArg ShdSt.fade (fifth_shd e c p)).trans ((noteForce_fade e _ _).trans hfade)
  refine ⟨(e.fifth c p).on (frozenField (c / 32)), ?_⟩
  have hstages : e.stageFive c p [] = ((((((e.fifth c p).measureGap c p).coefParity c p.index []).count R.SHD_POISON_CNT.V (e.sixth c p).2.1).count
      R.SHD_SAT_CNT.V (e.sixth c p).2.2).modChan c
        (lineDone p (e.sixth c p).1 ((e.fifth c p).tapFlags c p ((e.fifth c p).on (frozenField (c / 32)))))).enterSix c p.index := by
    unfold stageFive
    dsimp only
    rw [if_neg hmode]
    rfl
  rw [hstages, hmeasure]
  exact (enterSix_of_noFade (by exact hnone) c p.index).trans (modChan_modChan _ c _ _)

section
variable (e : Engine) (c : Nat) (p : TapPkt) (fl : LineFlags)

theorem corrected_onlyTap : e.onlyTap (e.corrected c p fl) (lineRegs c) :=
  onlyTap_trans (fifth_onlyTap e c p) (onlyTap_trans (count_onlyTap _ _ (List.mem_of_mem_drop (i := 3) List.mem_cons_self))
    (onlyTap_trans (count_onlyTap _ _ (List.mem_of_mem_drop (i := 4) List.mem_cons_self)) (modChan_onlyTap _ c _ _)))

theorem corrected_shd : (e.corrected c p fl).shd = (e.noteForce (c / 32) p.index).shd := fifth_shd e c p

theorem corrected_chans : (e.corrected c p fl).chans =
    modAt e.chans c fun h => enteredAt p.index (lineDone p (e.sixth c p).1 fl (rawKept p (e.meansPast c p h))) := by
  have h : (e.corrected c p fl).chans = modAt (modAt (e.track c p).chans c (rawKept p)) c fun h => enteredAt p.index (lineDone p (e.sixth c p).1 fl h) := rfl
  rw [h, track_chans, modAt_modAt, modAt_modAt]
  rfl

theorem fifth_level : (e.fifth c p).rd (R.SHD_CH_TRK.C c) = e.levelAt c p.index % 2 ^ (R.SHD_CH_TRK.C c).width := track_level e c p

theorem corrected_level : (e.corrected c p fl).rd (R.SHD_CH_TRK.C c) = e.levelAt c p.index % 2 ^ (R.SHD_CH_TRK.C c).width :=
  ((rd_count_ne _ _ (by dsimp only; omega)).trans (rd_count_ne _ _ (by dsimp only; omega))).trans (fifth_level e c p)

end

/-! ### Stage 6 of a line without poisoned pixels (R104 to R106) -/

/-- Where no pixel is to be replaced, the repair keeps every value. -/
theorem repair_keeps (alone : Nat → Nat) (l left : List Pix) (h : ∀ x ∈ l, x.2.2 = false) : repair alone left l = l.map Prod.fst := by
  induction l generalizing left with
  | nil => rfl
  | cons x l ih =>
    obtain ⟨hx, hl⟩ := List.forall_mem_cons.mp h
    rw [repair, hx, if_neg Bool.false_ne_true, ih _ hl, List.map_cons]

theorem length_upTo (n : Nat) : (upTo n).length = n := by simp [upTo]

/-- A list against a list told by index is a list told by index. -/
theorem zipWith_map_upTo {α β γ : Type} (f : α → β → γ) (xs : List α) (k : Nat → β) (d : α) :
    xs.zipWith f ((upTo xs.length).map k) = (upTo xs.length).map fun i => f (xs.getD i d) (k i) := by
  refine List.ext_getElem (by simp [upTo]) fun i h _ => ?_
  have hi : i < xs.length := by simpa [upTo] using h
  simp [upTo, List.getElem?_eq_getElem hi]

theorem coefAtLine_of_noSwaps {e : Engine} (h : e.swaps = []) (c idx : Nat) : e.coefAtLine c idx = e.coefOf c (e.bankOf c) := by
  funext i
  unfold coefAtLine bankAt
  rw [h]
  rfl

/-- Values with no mark for replacement by the previous line keep. -/
theorem map_unmarked (own : List Nat) (prev : List Nat) {poison : List Bool} (hlen : poison.length = own.length) (h : ∀ b ∈ poison, b = false) :
    ((own.zip poison).zipIdx.map fun (v, i) => if v.2 then prev.getD i 0 else v.1) = own := by
  refine List.ext_getElem (by simp [hlen]) fun i hi hi' => ?_
  simp [h _ (List.getElem_mem (by omega : i < poison.length))]

/-- Values of which none is to be replaced keep in the repair. -/
theorem repair_unmarked (alone : Nat → Nat) (own : List Nat) {poison bad : List Bool} (hlen : poison.length = own.length) (hbad : bad.length = own.length)
    (h : ∀ b ∈ poison, b = false) : repair alone [] ((own.zip (poison.zip bad)).map fun (v, q, b) => (v, q || b, q)) = own := by
  rw [repair_keeps]
  · rw [List.map_map]
    exact List.map_fst_zip (by simp [hlen, hbad])
  · intro x hx
    obtain ⟨⟨v, q, b⟩, hmem, rfl⟩ := List.mem_map.mp hx
    exact h q (List.of_mem_zip (List.of_mem_zip hmem).2).1

/-- A line without poisoned pixels, without a swap and without defect correction leaves stage 6 as R104 shades it. -/
theorem stageSix_sound {e : Engine} {c : Nat} {p : TapPkt} {xs : List Int} (hswaps : e.swaps = []) (hdefect : e.on R.SHD_CTRL.DEFECT_EN = false)
    (hpoison : ∀ x ∈ p.active, x.poison = false) (hlen : xs.length = p.active.length) :
    (e.stageSix c p xs []).1 = (upTo xs.length).map fun i =>
      (shade (e.on R.SHD_CTRL.EN) (e.rd (R.SHD_KG.KG (4 * (c / 32) + e.rowOf c))) (xs.getD i 0) (e.coefOf c (e.bankOf c) i)).1 := by
  have hmarks : ∀ b ∈ p.active.map fun x => x.poison, b = false := by simpa using hpoison
  rw [← Function.comp_def Prod.fst, ← List.map_map, ← zipWith_map_upTo (shade _ _)]
  unfold stageSix
  dsimp only
  rw [hdefect, if_neg Bool.false_ne_true, coefAtLine_of_noSwaps hswaps]
  cases e.prevOut c p.index with
  | some prev => exact map_unmarked _ prev (by simp [hlen, length_upTo]) hmarks
  | none =>
    exact repair_unmarked _ _ (by simp [hlen, length_upTo]) (by simp [hlen, length_upTo]) hmarks

/-! ### The pixels of a line -/

section
variable {e x : Engine} {c : Nat} {f : ChanSt → ChanSt} (h : x.chans = modAt e.chans c f)
include h

theorem chan_of_modAt (hc : c < e.chans.length) : x.chan c = f (e.chan c) := (congrArg (·.getD c ChanSt.init) h).trans (getD_modAt_same hc f _)

theorem chan_of_modAt_ne {d : Nat} (hd : d ≠ c) : x.chan d = e.chan d := (congrArg (·.getD d ChanSt.init) h).trans (getD_modAt_ne _ hd f _)

end

/-- The registers that reading a packet from its queue writes. -/
def queueRegs (c : Nat) : List Nat := [(R.QUE_LEVEL.LEVEL c).off, (R.QUE_POISON.V c).off]

section
variable {e x : Engine} {c : Nat} (hc : c < 64) (h : e.onlyTap x (queueRegs c ++ lineRegs c))
include hc h

/-- Reading and correcting a line keeps the words that are neither its level nor one of its counts. -/
theorem onlyTap_lineKeeps {f : Fld} (hf : f.off < 0x4000 ∨ (0x4600 ≤ f.off ∧ f.off < 0xB008) ∨ (0xB00C ≤ f.off ∧ f.off < 0xB030) ∨
    (0xB100 ≤ f.off ∧ f.off < 0xB200)) : x.rd f = e.rd f := onlyTap_rd h (by simp [queueRegs, lineRegs]; omega)

theorem onlyTap_lineKeeps_rowOf : x.rowOf c = e.rowOf c := onlyTap_lineKeeps hc h (by dsimp only; omega)

theorem onlyTap_lineKeeps_gain : x.rd (R.SHD_KG.KG (4 * (c / 32) + e.rowOf c)) = e.rd (R.SHD_KG.KG (4 * (c / 32) + e.rowOf c)) := by
  have hrow : e.rowOf c < 4 := rd_lt e _
  exact onlyTap_lineKeeps hc h (by dsimp only; omega)

theorem onlyTap_lineKeeps_bankOf : x.bankOf c = e.bankOf c := onlyTap_lineKeeps hc h (by dsimp only; omega)

theorem onlyTap_lineKeeps_coefOf (bank i : Nat) : x.coefOf c bank i = e.coefOf c bank i := by
  have hword : x.word (coefAt c bank i) = e.word (coefAt c bank i) := h.2 _ (by simp [queueRegs, lineRegs, coefAt]; omega)
  unfold coefOf
  rw [hword]

end

/-- Stage 5 of the engine x that a line's packet was read from e into. -/
theorem onlyTap_fifth {e x : Engine} {c : Nat} (h : e.onlyTap x (queueRegs c)) (p : TapPkt) : e.onlyTap (x.fifth c p) (queueRegs c ++ lineRegs c) :=
  onlyTap_trans (onlyTap_mono h fun _ => List.mem_append_left _) (onlyTap_mono (fifth_onlyTap x c p) fun _ => List.mem_append_right _)

theorem fifth_chans (e : Engine) (c : Nat) (p : TapPkt) : (e.fifth c p).chans = modAt e.chans c fun h => rawKept p (e.meansPast c p h) := by
  have h : (e.fifth c p).chans = modAt (e.track c p).chans c (rawKept p) := rfl
  rw [h, track_chans, modAt_modAt]
  rfl

/-- A line of sound pixels, without a fade, a queued swap and defect correction, leaves stage 6 as R104 shades the black-restored codes. -/
theorem sixth_pixels {e x : Engine} {c : Nat} {p : TapPkt} (hc : c < 64) (hread : e.onlyTap x (queueRegs c)) (hlen : c < x.chans.length)
    (hx : (x.chan c).shift = (e.chan c).shift) (hfade : x.shd.fade = none) (hqueued : x.shd.queued = none)
    (hdefect : e.on R.SHD_CTRL.DEFECT_EN = false) (hpoison : ∀ x ∈ p.active, x.poison = false) :
    (x.sixth c p).1 = (upTo p.active.length).map fun i =>
      (shade (e.on R.SHD_CTRL.EN) (e.rd (R.SHD_KG.KG (4 * (c / 32) + e.rowOf c)))
        (256 * ((p.active.getD i ⟨0, 0, false, false⟩).code : Int) -
          (((x.fifth c p).rd (R.SHD_CH_TRK.C c) : Int) - e.shiftFor c p.index - 256 * e.rd R.CAL_DARK_TGT.V))
        (e.coefOf c (e.bankOf c) i)).1 := by
  have htap : e.onlyTap (x.fifth c p) (queueRegs c ++ lineRegs c) := onlyTap_fifth hread p
  have hswaps : (x.fifth c p).swaps = [] := by
    unfold swaps
    rw [fifth_shd, noteForce_fade, noteForce_queued, hfade, hqueued]
    rfl
  have hon : ∀ f : Fld, f.off = 0xB000 → (x.fifth c p).on f = e.on f := fun f hf => by
    rw [on, on, onlyTap_lineKeeps hc htap (by omega)]
  have hshift : (x.fifth c p).shiftFor c p.index = e.shiftFor c p.index :=
    shiftFor_congr ((congrArg ChanSt.shift (chan_of_modAt (fifth_chans x c p) hlen)).trans hx) p.index
  have hlength : ((x.fifth c p).restored c p).length = p.active.length := List.length_map ..
  unfold sixth
  rw [stageSix_sound hswaps ((hon _ rfl).trans hdefect) hpoison hlength, hlength, hon _ rfl, onlyTap_lineKeeps_rowOf hc htap,
    onlyTap_lineKeeps_gain hc htap, onlyTap_lineKeeps_bankOf hc htap]
  refine List.map_congr_left fun i hi => ?_
  have hi' : i < p.active.length := by simpa [upTo] using hi
  rw [onlyTap_lineKeeps_coefOf hc htap]
  unfold restored
  dsimp only
  rw [hshift, onlyTap_lineKeeps hc htap (f := R.CAL_DARK_TGT.V) (by dsimp only; omega)]
  simp [List.getElem?_eq_getElem hi']

/-! ### A packet is read (R214, R219) -/

/-- The packets that remain in a channel's queue. -/
def queueLeft (rest : List TapPkt) (h : ChanSt) : ChanSt := { h with queue := rest }

/-- A channel's oldest packet leaves its queue; words of it that failed parity count. -/
def tapRead (e : Engine) (c : Nat) (rest : List TapPkt) (bad : Nat) : Engine :=
  ((e.modChan c (queueLeft rest)).wr (R.QUE_LEVEL.LEVEL c) (queueWords rest)).count (R.QUE_POISON.V c) bad

/-- Words of a packet that failed parity. -/
def badWords (p : TapPkt) (poison : List Nat) : List Nat := (poison.filter fun w => decide (w < pktWords p)).eraseDups

section
variable (e : Engine) (c : Nat) (rest : List TapPkt) (bad : Nat)

theorem tapRead_chans : (e.tapRead c rest bad).chans = modAt e.chans c (queueLeft rest) := rfl

theorem tapRead_regs : ({ e with chans := (e.tapRead c rest bad).chans } : Engine).onlyRegs (e.tapRead c rest bad) (queueRegs c) :=
  onlyRegs_trans (wr_onlyRegs (e.modChan c (queueLeft rest)) _ List.mem_cons_self) (wr_onlyRegs _ _ (List.mem_of_mem_drop (i := 1) List.mem_cons_self))

theorem tapRead_onlyTap : e.onlyTap (e.tapRead c rest bad) (queueRegs c) :=
  onlyTap_trans (modChan_onlyTap e c (queueLeft rest) _) (onlyTap_of_onlyRegs (tapRead_regs e c rest bad))

theorem tapRead_level : (e.tapRead c rest bad).rd (R.QUE_LEVEL.LEVEL c) = queueWords rest % 2 ^ (R.QUE_LEVEL.LEVEL c).width :=
  (rd_count_ne _ _ (by dsimp only; omega)).trans (rd_wr_same _ (by simp [Fld.fits]) _)

theorem tapRead_poison : (e.tapRead c rest bad).rd (R.QUE_POISON.V c) = min (2 ^ (R.QUE_POISON.V c).width - 1) (e.rd (R.QUE_POISON.V c) + bad) := by
  rw [tapRead, rd_count_same _ (by simp [Fld.fits]), rd_wr_ne _ _ (by dsimp only; omega)]
  rfl

end

/-- A sound sample marked with no poison keeps. -/
theorem map_unpoisoned (f : Nat → Bool) (hf : ∀ i, f i = false) {l : List Sample} (h : ∀ x ∈ l, x.poison = false) :
    (l.zipIdx.map fun x => { x.1 with poison := f x.2 }) = l := by
  refine List.ext_getElem (by simp) fun i hi hi' => ?_
  have hx := h _ (List.getElem_mem hi')
  simp [hf, ← hx]

/-- Marking no word of a packet of sound samples keeps it. -/
theorem withPoison_nil {p : TapPkt} (h : ∀ x ∈ p.black ++ p.active, x.poison = false) : withPoison p [] = p := by
  unfold withPoison
  dsimp only
  rw [map_unpoisoned (fun i => [].contains (4 + i)) (fun _ => rfl) fun x hx => h x (List.mem_append_left _ hx),
    map_unpoisoned (fun i => [].contains (4 + p.black.length + i)) (fun _ => rfl) fun x hx => h x (List.mem_append_right _ hx)]

section
variable {e : Engine} {c : Nat} {p : TapPkt} {rest : List TapPkt} (hq : (e.chan c).queue = p :: rest)
include hq

theorem chan_lt_of_queue : c < e.chans.length := lt_length_of_getD_ne (d := ChanSt.init) fun h => by
  have hnil : (e.chan c).queue = [] := congrArg ChanSt.queue h
  rw [hq] at hnil
  cases hnil

/-- A kept line waits for the reports due before it and while stage 7 is held back. -/
theorem tapArrives_held (hd : p.discard = false) (hheld : e.reportsDue (c / 32) p.index = true ∨ e.stageHeld c = true) (poison : List Nat)
    (coefBad : List (Nat × Fin 2)) : e.tapArrives c poison coefBad = e := by
  unfold tapArrives
  rw [hq]
  dsimp only
  rw [if_pos]
  simpa [hd] using hheld

variable (hready : p.discard = true ∨ (e.reportsDue (c / 32) p.index = false ∧ e.stageHeld c = false))
include hready

/-- A line that does not wait is read: a poisoned header word or a discard mark ends it there, and one already replaced is dropped. -/
theorem tapArrives_ready (poison : List Nat) (coefBad : List (Nat × Fin 2)) : e.tapArrives c poison coefBad =
    (let x := e.tapRead c rest (badWords p poison).length
    if (badWords p poison).any (fun w => decide (w < 4)) || p.discard then x
    else if (x.chan c).entered.any (fun i => decide (p.index ≤ i)) && e.mode != .m5 then x
    else (((x.chan c).owed.filter fun o => decide (o.1 < p.index)).foldl (fun y o => y.insertSubst c o.1) x).stageFive c
      (withPoison p (badWords p poison)) coefBad) := by
  unfold tapArrives
  rw [hq]
  dsimp only
  rw [if_neg]
  · cases h : ((e.tapRead c rest (badWords p poison).length).chan c).entered
    all_goals
      unfold tapRead badWords queueLeft at h
      rw [h]
      rfl
  · obtain hd | ⟨hdue, hheld⟩ := hready
    · simp [hd]
    · simp [hdue, hheld]

theorem tapArrives_lost {poison : List Nat} (hlost : poison.any (fun w => decide (w < 4)) = true ∨ p.discard = true) (coefBad : List (Nat × Fin 2)) :
    e.tapArrives c poison coefBad = e.tapRead c rest (badWords p poison).length := by
  rw [tapArrives_ready hq hready]
  dsimp only
  rw [if_pos]
  obtain hhead | hd := hlost
  · obtain ⟨w, hw, hlt⟩ := List.any_eq_true.mp hhead
    have hlt' : w < 4 := of_decide_eq_true hlt
    have hmem : w ∈ badWords p poison :=
      List.mem_eraseDups.mpr (List.mem_filter.mpr ⟨hw, decide_eq_true (by unfold pktWords; omega)⟩)
    rw [List.any_eq_true.mpr ⟨w, hmem, hlt⟩]
    rfl
  · rw [hd, Bool.or_true]

/-- A kept line in order, read without a poisoned word, goes to stage 5. -/
theorem tapArrives_kept (hd : p.discard = false) (hsound : ∀ x ∈ p.black ++ p.active, x.poison = false)
    (hentered : (e.chan c).entered.all (fun i => decide (i < p.index)) = true)
    (howed : (e.chan c).owed.all (fun o => decide (p.index ≤ o.1)) = true) : e.tapArrives c [] [] = (e.tapRead c rest 0).stageFive c p [] := by
  have hchan : (e.tapRead c rest 0).chan c = queueLeft rest (e.chan c) := chan_of_modAt (tapRead_chans ..) (chan_lt_of_queue hq)
  have hgone : (e.chan c).owed.filter (fun o => decide (o.1 < p.index)) = [] :=
    List.filter_eq_nil_iff.mpr fun o ho => by simpa using (List.all_eq_true.mp howed) o ho
  have hfresh : (e.chan c).entered.any (fun i => decide (p.index ≤ i)) = false := by
    cases h : (e.chan c).entered with
    | none => rfl
    | some i =>
      rw [h] at hentered
      simpa using hentered
  have hbad : badWords p [] = [] := rfl
  rw [tapArrives_ready hq hready, hbad]
  dsimp only
  rw [List.length_nil, hchan, hd, withPoison_nil hsound]
  simp only [queueLeft, hgone, hfresh]
  rfl

end

end Engine
end Sys2Proof.Machine
end

section
/-!
PROOFS. TAP_LINE_ARRIVAL, SUBST_OVERDUE and LINE_DEFECT_HOLDOFF (R14, R96, R97, R104, R218, R219).
-/

namespace Sys2Proof.Machine

namespace Engine

/-! ### A kept line, read and corrected -/

/-- A line read from its queue that has passed stages 5 and 6. -/
def keptLine (e : Engine) (c : Nat) (p : TapPkt) (rest : List TapPkt) (fl : LineFlags) : Engine := (e.tapRead c rest 0).corrected c p fl

section
variable (e : Engine) (c : Nat) (rest : List TapPkt)

theorem tapRead_shd : (e.tapRead c rest 0).shd = e.shd := rfl

theorem tapRead_rd {f : Fld} (hf : f.off ∉ queueRegs c) : (e.tapRead c rest 0).rd f = e.rd f := onlyTap_rd (tapRead_onlyTap e c rest 0) hf

end

section
variable (e : Engine) {c : Nat} (rest : List TapPkt) (p : TapPkt) (fl : LineFlags)

theorem keptLine_onlyTap : e.onlyTap (e.keptLine c p rest fl) (queueRegs c ++ lineRegs c) :=
  onlyTap_trans (onlyTap_mono (tapRead_onlyTap e c rest 0) fun _ => List.mem_append_left _)
    (onlyTap_mono (corrected_onlyTap _ c p fl) fun _ => List.mem_append_right _)

theorem keptLine_chan_ne {d : Nat} (hd : d ≠ c) : (e.keptLine c p rest fl).chan d = e.chan d :=
  (chan_of_modAt_ne (corrected_chans ..) hd).trans (chan_of_modAt_ne (tapRead_chans ..) hd)

end

section
variable (e : Engine) {c : Nat} (rest : List TapPkt) (hc : c < 64)
include hc

theorem tapRead_trackCtrl : (e.tapRead c rest 0).word R.SHD_TRK_CTRL.word.off = e.word R.SHD_TRK_CTRL.word.off :=
  (tapRead_onlyTap e c rest 0).2 _ (by simp [queueRegs]; omega)

theorem tapRead_noteForce (idx : Nat) : ((e.tapRead c rest 0).noteForce (c / 32) idx).shd = (e.noteForce (c / 32) idx).shd :=
  noteForce_congr (e := e) (x := e.tapRead c rest 0) (tapRead_shd e c rest) (forced_congr (tapRead_trackCtrl e rest hc)) idx

theorem keptLine_shd (p : TapPkt) (fl : LineFlags) : (e.keptLine c p rest fl).shd = (e.noteForce (c / 32) p.index).shd :=
  (corrected_shd ..).trans (tapRead_noteForce e rest hc p.index)

end

section
variable (e : Engine) {c : Nat} (rest : List TapPkt) (p : TapPkt) (fl : LineFlags) (hlen : c < e.chans.length)
include hlen

theorem tapRead_chan : (e.tapRead c rest 0).chan c = queueLeft rest (e.chan c) := chan_of_modAt (tapRead_chans ..) hlen

theorem tapRead_shift : ((e.tapRead c rest 0).chan c).shift = (e.chan c).shift := (congrArg ChanSt.shift (tapRead_chan e rest hlen)).trans rfl

theorem keptLine_chan : (e.keptLine c p rest fl).chan c = enteredAt p.index (lineDone p ((e.tapRead c rest 0).sixth c p).1 fl
    (rawKept p ((e.tapRead c rest 0).meansPast c p (queueLeft rest (e.chan c))))) := by
  rw [keptLine, chan_of_modAt (corrected_chans ..) (by simpa [tapRead_chans, modAt] using hlen), tapRead_chan e rest hlen]

/-- The line last handed to stage 7 is the kept one, as stage 6 shaded it. -/
theorem keptLine_last : (((e.keptLine c p rest fl).chan c).done.getLast?.map fun d => (d.index, d.pixels)) =
    some (p.index, ((e.tapRead c rest 0).sixth c p).1) := by
  rw [keptLine_chan e rest p fl hlen]
  simp [enteredAt, lineDone]

variable (hc : c < 64)
include hc

theorem tapRead_levelAt (idx : Nat) : (e.tapRead c rest 0).levelAt c idx = e.levelAt c idx := by
  have hmeans : ((e.tapRead c rest 0).chan c).means = (e.chan c).means := (congrArg ChanSt.means (tapRead_chan e rest hlen)).trans rfl
  have hrow : (e.tapRead c rest 0).rowOf c = e.rowOf c := tapRead_rd e c rest (f := R.TG_CHMAP.ROW (c / 32) (c % 32)) (by simp [queueRegs]; omega)
  have hlevel := tapRead_rd e c rest (f := R.SHD_CH_TRK.C c) (by simp [queueRegs]; omega)
  exact levelAt_congr hmeans (congrArg ShdSt.windows (tapRead_shd e c rest)) (tapRead_trackCtrl e rest hc) hrow hlevel idx

theorem tapRead_ownMean : (e.tapRead c rest 0).ownMean c p = e.ownMean c p :=
  ownMean_congr (e := e) (x := e.tapRead c rest 0) (tapRead_shift e rest hlen) (tapRead_shd e c rest) (forced_congr (tapRead_trackCtrl e rest hc)) p

theorem keptLine_level : (e.keptLine c p rest fl).rd (R.SHD_CH_TRK.C c) = e.levelAt c p.index % 2 ^ (R.SHD_CH_TRK.C c).width := by
  rw [keptLine, corrected_level, tapRead_levelAt e rest hlen hc]

theorem keptLine_means : ((e.keptLine c p rest fl).chan c).means =
    ((e.chan c).means.filter fun m => !decide (m.1 + 80 ≤ p.index)) ++ e.ownMean c p := by
  rw [keptLine_chan e rest p fl hlen, ← tapRead_ownMean e rest p hlen hc]
  rfl

end

/-- The pixels of a kept line without poisoned words, fade, queued swap and defect correction. -/
theorem keptLine_pixels {e : Engine} {c : Nat} {p : TapPkt} (hc : c < 64) (hlen : c < e.chans.length) (hfade : e.shd.fade = none)
    (hqueued : e.shd.queued = none) (hdefect : e.on R.SHD_CTRL.DEFECT_EN = false) (hpoison : ∀ x ∈ p.active, x.poison = false)
    (rest : List TapPkt) (fl : LineFlags) :
    ((e.tapRead c rest 0).sixth c p).1 = (upTo p.active.length).map fun i =>
      (shade (e.on R.SHD_CTRL.EN) (e.rd (R.SHD_KG.KG (4 * (c / 32) + e.rowOf c)))
        (256 * ((p.active.getD i ⟨0, 0, false, false⟩).code : Int) -
          (((e.keptLine c p rest fl).rd (R.SHD_CH_TRK.C c) : Int) - e.shiftFor c p.index - 256 * e.rd R.CAL_DARK_TGT.V))
        (e.coefOf c (e.bankOf c) i)).1 := by
  have hlevel : (e.keptLine c p rest fl).rd (R.SHD_CH_TRK.C c) = ((e.tapRead c rest 0).fifth c p).rd (R.SHD_CH_TRK.C c) :=
    (corrected_level ..).trans (fifth_level ..).symm
  rw [hlevel]
  exact sixth_pixels hc (tapRead_onlyTap e c rest 0) (by simpa [tapRead_chans, modAt] using hlen) (tapRead_shift e rest hlen) hfade hqueued hdefect hpoison

/-! ### Replacement of an owed tap-line (R218) -/

/-- A replaced tap-line is counted for LINE_DEFECT; the first since the last one told names it. -/
def defectNoted (idx : Nat) (h : ChanSt) : ChanSt :=
  { h with defects := { h.defects with first := (if h.defects.count = 0 then idx else h.defects.first), count := h.defects.count + 1 } }

/-- LINE_DEFECT has been told: its hold-off begins. -/
def defectTold (now : Nat) (h : ChanSt) : ChanSt := { h with defects := ⟨some now, 0, 0⟩ }

/-- The raw line that a SUBST line of a channel copies at stage 5. -/
def rawCopied (e : Engine) (c idx : Nat) : Option RawLine :=
  if e.altChan c then (e.chan c).raw5.getD (1 + idx % 2) none else (e.chan c).raw5.getD 0 none

/-- The SUBST line that takes the place of an owed one. -/
def substLine (e : Engine) (c idx : Nat) : TapPkt := e.substPkt c idx idx (e.gen (c / 32)).expgen (e.rawCopied c idx)

/-- A replaced tap-line of a channel counts, and is noted for LINE_DEFECT. -/
def substNoted (e : Engine) (c idx : Nat) : Engine := (e.count (R.TG_SUBST_CNT.V (c / 32)) 1).modChan c (defectNoted idx)

theorem rd_modChan (e : Engine) (c : Nat) (f : ChanSt → ChanSt) (fld : Fld) : (e.modChan c f).rd fld = e.rd fld := rfl

section
variable (e : Engine) (c idx : Nat)

theorem substNoted_now : (e.substNoted c idx).now = e.now := rfl

theorem substNoted_chans : (e.substNoted c idx).chans = modAt e.chans c (defectNoted idx) := rfl

theorem substNoted_count : (e.substNoted c idx).rd (R.TG_SUBST_CNT.V (c / 32)) =
    min (2 ^ (R.TG_SUBST_CNT.V (c / 32)).width - 1) (e.rd (R.TG_SUBST_CNT.V (c / 32)) + 1) :=
  rd_count_same e (f := R.TG_SUBST_CNT.V (c / 32)) (by simp [Fld.fits]) 1

theorem substNoted_onlyTap : e.onlyTap (e.substNoted c idx) [(R.TG_SUBST_CNT.V (c / 32)).off] :=
  onlyTap_trans (count_onlyTap e 1 List.mem_cons_self) (modChan_onlyTap _ c (defectNoted idx) _)

end

/-- A SUBST line has passed stages 5 and 6, is counted, and noted for LINE_DEFECT. -/
def substituted (e : Engine) (c idx : Nat) : Engine := (e.stageFive c (e.substLine c idx) []).substNoted c idx

/-- Once 1 ms has passed since the last LINE_DEFECT, a replaced line is told at once. -/
theorem insertSubst_eq {e : Engine} {c : Nat} (h : (e.chan c).defects.last.all (fun x => decide (x + 1000000 ≤ e.now)) = true) (idx : Nat) :
    e.insertSubst c idx = (e.substituted c idx).defectEvent c := by
  unfold insertSubst substituted substNoted substLine rawCopied defectNoted
  dsimp only
  generalize e.stageFive c _ [] = x
  cases hlast : (e.chan c).defects.last with
  | none => dsimp only
  | some t =>
    rw [hlast, Option.all_some, decide_eq_true_eq] at h
    dsimp only
    rw [if_neg (Nat.not_lt.mpr h)]

section
variable {e : Engine} {c i tm : Nat} {rest : List (Nat × Nat)} (howed : (e.chan c).owed = (i, tm) :: rest)
include howed

theorem chan_lt_of_owed : c < e.chans.length := lt_length_of_getD_ne (d := ChanSt.init) fun h => by
  have hnil : (e.chan c).owed = [] := congrArg ChanSt.owed h
  rw [howed] at hnil
  cases hnil

theorem substOverdue_early (h : (e.now : Rat) < (tm : Rat) + 2 * e.lineNs (c / 32) + 10000) : e.substOverdue c = e := by
  unfold substOverdue
  rw [howed]
  dsimp only
  rw [if_neg]
  rintro ⟨-, hdue, -⟩
  exact absurd h (not_lt.mpr hdue)

theorem substOverdue_due (hrun : e.on (R.AFE_STATUS.CONV_RUN (c / 32)) = true) (hdue : (tm : Rat) + 2 * e.lineNs (c / 32) + 10000 ≤ (e.now : Rat))
    (hreports : e.reportsDue (c / 32) i = false) (hheld : e.stageHeld c = false) : e.substOverdue c = e.insertSubst c i := by
  unfold substOverdue
  rw [howed]
  dsimp only
  rw [if_pos ⟨hrun, hdue, by simp [hreports], by simp [hheld]⟩]

end

theorem onlyTap_now {e x : Engine} {offs : List Nat} (h : e.onlyTap x offs) : x.now = e.now := (congrArg Engine.now h.1).trans rfl

theorem onlyTap_hears {e x : Engine} {offs : List Nat} (h : e.onlyTap x offs) (hh : e.hears) : x.hears :=
  onlyRegs_hears h (show (e.withTapOf x).hears from hh)

/-- LINE_DEFECT tells what the channel has noted. -/
theorem defectEvent_eq {e : Engine} {c f n : Nat} {l : Option Nat} (h : (e.chan c).defects = ⟨l, f, n⟩) :
    e.defectEvent c = (e.modChan c (defectTold e.now)).emit 0x05 c 0 1 none [(24, 6, f), (30, 4, n)] := by
  unfold defectEvent
  rw [h]
  rfl

/-- A channel once a line of it has passed stages 5 and 6, noted as replaced and told. -/
def chanReplaced (e : Engine) (c idx : Nat) (fl : LineFlags) (h : ChanSt) : ChanSt :=
  defectTold e.now (defectNoted idx (enteredAt idx (lineDone (e.substLine c idx) (e.sixth c (e.substLine c idx)).1 fl
    (rawKept (e.substLine c idx) (e.meansPast c (e.substLine c idx) h)))))

/-- An owed tap-line has been replaced, and LINE_DEFECT is to be told. -/
def replaced (e : Engine) (c idx : Nat) (fl : LineFlags) : Engine :=
  ((e.corrected c (e.substLine c idx) fl).substNoted c idx).modChan c (defectTold e.now)

section
variable (e : Engine) (c idx : Nat) (fl : LineFlags)

theorem replaced_chans : (e.replaced c idx fl).chans = modAt e.chans c (e.chanReplaced c idx fl) := by
  rw [replaced, modChan, substNoted_chans, corrected_chans, modAt_modAt, modAt_modAt]
  rfl

/-- The SUBST line is the last that the channel hands to stage 7. -/
theorem chanReplaced_last (h : ChanSt) : ((e.chanReplaced c idx fl h).done.getLast?.map fun d => (d.index, d.flags.subst)) = some (idx, fl.subst) := by
  simp [chanReplaced, defectTold, defectNoted, enteredAt, lineDone, substLine, substPkt]

theorem chanReplaced_owed (h : ChanSt) : (e.chanReplaced c idx fl h).owed = h.owed.filter fun o => decide (idx < o.1) := rfl

theorem chanReplaced_defects (h : ChanSt) : (e.chanReplaced c idx fl h).defects = ⟨some e.now, 0, 0⟩ := rfl

theorem replaced_onlyTap : e.onlyTap (e.replaced c idx fl) (lineRegs c ++ [(R.TG_SUBST_CNT.V (c / 32)).off]) :=
  onlyTap_trans (onlyTap_mono (corrected_onlyTap e c _ fl) fun _ => List.mem_append_left _) (onlyTap_trans
    (onlyTap_mono (substNoted_onlyTap _ c idx) fun _ => List.mem_append_right _) (modChan_onlyTap _ c _ _))

theorem replaced_count (hc : c < 64) : (e.replaced c idx fl).rd (R.TG_SUBST_CNT.V (c / 32)) =
    min (2 ^ (R.TG_SUBST_CNT.V (c / 32)).width - 1) (e.rd (R.TG_SUBST_CNT.V (c / 32)) + 1) := by
  have hkept : (e.corrected c (e.substLine c idx) fl).rd (R.TG_SUBST_CNT.V (c / 32)) = e.rd (R.TG_SUBST_CNT.V (c / 32)) :=
    onlyTap_rd (corrected_onlyTap ..) (by simp [lineRegs]; omega)
  rw [replaced, rd_modChan, substNoted_count, hkept]

end

/-- An overdue tap-line is replaced and told at once, where no earlier LINE_DEFECT holds it back and the line meets neither fade nor calibration. -/
theorem insertSubst_replaced {e : Engine} {c : Nat} (hlen : c < e.chans.length) (hmode : e.mode ≠ .m5) (hfade : e.shd.fade = none)
    (hgap : e.cal.gapStart = none) (hpast : (e.chan c).defects.last.all (fun x => decide (x + 1000000 ≤ e.now)) = true)
    (hnone : (e.chan c).defects.count = 0) (idx : Nat) : ∃ fl : LineFlags, fl.subst = true ∧
      e.insertSubst c idx = (e.replaced c idx fl).emit 0x05 c 0 1 none [(24, 6, idx), (30, 4, 1)] := by
  obtain ⟨fl, hsubst, hfive⟩ : ∃ fl : LineFlags, fl.subst = true ∧ e.stageFive c (e.substLine c idx) [] = e.corrected c (e.substLine c idx) fl := by
    obtain ⟨frozen, h⟩ := stageFive_eq_corrected (c := c) (p := e.substLine c idx) hmode hfade hgap
    exact ⟨(e.fifth c (e.substLine c idx)).tapFlags c (e.substLine c idx) frozen, rfl, h⟩
  refine ⟨fl, hsubst, ?_⟩
  have hnow : (e.substituted c idx).now = e.now := by
    rw [substituted, substNoted_now, hfive]
    exact onlyTap_now (corrected_onlyTap e c (e.substLine c idx) fl)
  have hdefects : ((e.corrected c (e.substLine c idx) fl).chan c).defects = (e.chan c).defects := by
    rw [chan_of_modAt (corrected_chans e c (e.substLine c idx) fl) hlen]
    rfl
  have hnoted : ((e.substituted c idx).chan c).defects = ⟨(e.chan c).defects.last, idx, 1⟩ := by
    rw [substituted, hfive, chan_of_modAt (substNoted_chans ..) (by rw [corrected_chans]; simpa [modAt] using hlen), defectNoted, hdefects, hnone]
    rfl
  rw [insertSubst_eq hpast, defectEvent_eq hnoted, hnow, substituted, hfive, replaced]

/-- A LINE_DEFECT held back is told once 1 ms has passed since the one before. -/
def heldDefects (e : Engine) (c : Nat) : Engine :=
  match (e.chan c).defects.last with
  | some t => if 0 < (e.chan c).defects.count ∧ t + 1000000 ≤ e.now then e.defectEvent c else e
  | none => e

section
variable {e : Engine} {c t0 f n : Nat} (h : (e.chan c).defects = ⟨some t0, f, n⟩)
include h

theorem heldDefects_due (hn : 0 < n) (hdue : t0 + 1000000 ≤ e.now) : e.heldDefects c =
    (e.modChan c (defectTold e.now)).emit 0x05 c 0 1 none [(24, 6, f), (30, 4, n)] := by
  rw [← defectEvent_eq h]
  unfold heldDefects
  rw [h]
  exact if_pos ⟨hn, hdue⟩

theorem heldDefects_quiet (hquiet : n = 0 ∨ e.now < t0 + 1000000) : e.heldDefects c = e := by
  unfold heldDefects
  rw [h]
  refine if_neg ?_
  rintro ⟨hn, hdue⟩
  exact hquiet.elim (Nat.ne_of_gt hn) (Nat.not_lt.mpr hdue)

end

end Engine

/-! ### The commands -/

theorem exec_tapLineArrival (c : Chan) (poison : List Nat) (coefBad : List (Nat × Fin 2)) (s : State) :
    exec (.tapLineArrival c poison coefBad) s = .next (s.onEng fun e => e.tapArrives c.val poison coefBad) := rfl

theorem exec_substOverdue (c : Chan) (s : State) : exec (.substOverdue c) s = .next (s.onEng fun e => e.substOverdue c.val) := rfl

theorem exec_lineDefectHoldoff (c : Chan) (s : State) : exec (.lineDefectHoldoff c) s = .next (s.onEng fun e => e.heldDefects c.val) := rfl

/-- Settles O35: a packet that is read leaves its queue with its counts alone; a kept line adds the tracker's level and its pixels; a replaced line passes the same
stages and is told. -/
theorem tapLines : Obligations.TapLines := by
  unfold Obligations.TapLines
  refine ⟨?lost, ?kept, ?waiting, ?early, ?overdue, ?told, ?quiet⟩
  case lost =>
    intro c p rest poison coefBad s hq hlost hready
    refine ⟨_, exec_tapLineArrival c poison coefBad s, s.onEng_engineOnly _, ?_⟩
    rw [State.onEng_eng, Engine.tapArrives_lost hq hready hlost]
    exact ⟨Engine.tapRead_chans .., Engine.tapRead_level .., Engine.tapRead_poison .., Engine.tapRead_regs ..⟩
  case kept =>
    intro c p rest s hq hd hsound hdue hheld hqueued hmode hentered howed hfade hgap hdefect
    have hclean : ∀ x ∈ p.black ++ p.active, x.poison = false := by simpa [or_imp, forall_and] using hsound
    have hlen : c.val < s.eng.chans.length := Engine.chan_lt_of_queue hq
    obtain ⟨frozen, hfive⟩ := Engine.stageFive_eq_corrected (e := s.eng.tapRead c.val rest 0) (c := c.val) (p := p) hmode hfade hgap
    refine ⟨_, exec_tapLineArrival c [] [] s, s.onEng_engineOnly _, ?_⟩
    rw [State.onEng_eng, Engine.tapArrives_kept hq (.inr ⟨hdue, hheld⟩) hd hclean hentered howed, hfive, ← Engine.keptLine]
    generalize Engine.tapFlags _ c.val p frozen = fl
    have hchan := s.eng.keptLine_chan rest p fl hlen
    refine ⟨?_, s.eng.keptLine_level rest p fl hlen c.isLt, ?_, ?_, ?_, s.eng.keptLine_means rest p fl hlen c.isLt,
      s.eng.keptLine_shd rest c.isLt p fl, ?_, s.eng.keptLine_onlyTap rest p fl⟩
    · rw [hchan]
      rfl
    · exact (s.eng.keptLine_last rest p fl hlen).trans (congrArg (fun l => some (p.index, l)) (Engine.keptLine_pixels c.isLt hlen hfade hqueued hdefect
        (fun x hx => hclean x (List.mem_append_right _ hx)) rest fl))
    · rw [hchan]
      exact List.length_append
    · rw [hchan]
      rfl
    · intro k hk
      exact s.eng.keptLine_chan_ne rest p fl fun h => hk (Fin.ext h)
  case waiting =>
    intro c p rest poison coefBad s hq hd hheld
    refine ⟨_, exec_tapLineArrival c poison coefBad s, s.onEng_engineOnly _, ?_⟩
    rw [State.onEng_eng, Engine.tapArrives_held hq hd hheld]
  case early =>
    intro c i tm rest s howed hearly
    refine ⟨_, exec_substOverdue c s, s.onEng_engineOnly _, ?_⟩
    rw [State.onEng_eng, Engine.substOverdue_early howed hearly]
  case overdue =>
    intro c i tm rest s howed hrun hdue hreports hheld hmode hfade hgap hpast hnone hhears
    have hlen : c.val < s.eng.chans.length := Engine.chan_lt_of_owed howed
    obtain ⟨fl, hsubst, hreplaced⟩ := Engine.insertSubst_replaced hlen hmode hfade hgap hpast hnone i
    refine ⟨_, exec_substOverdue c s, s.onEng_engineOnly _, ?_⟩
    rw [State.onEng_eng, Engine.substOverdue_due howed hrun hdue hreports hheld, hreplaced]
    have hframe := s.eng.replaced_onlyTap c.val i fl
    have hcount := s.eng.replaced_count c.val i fl c.isLt
    have hchans := s.eng.replaced_chans c.val i fl
    generalize s.eng.replaced c.val i fl = x at hframe hcount hchans
    obtain ⟨⟨hawake, hpower⟩, -, hroom⟩ := Engine.onlyTap_hears hframe hhears
    have htold : (x.emit 0x05 c.val 0 1 none [(24, 6, i), (30, 4, 1)]).chans = modAt s.eng.chans c.val (s.eng.chanReplaced c.val i fl) :=
      (Engine.emit_chans ..).trans hchans
    have hchan := Engine.chan_of_modAt htold hlen
    refine ⟨?_, ?_, ?_, ?_, Engine.emit_told x hawake hpower .., Engine.emit_toldBytes x hawake hpower .., ?_, ?_⟩
    · exact (Engine.emitBk_rd x (by omega) 0x05 c.val 0 1 none _ .none _ (by dsimp only; omega)).trans hcount
    · rw [hchan, Engine.chanReplaced_last, hsubst]
    · rw [hchan, Engine.chanReplaced_owed, howed]
    · rw [hchan, Engine.chanReplaced_defects]
    · intro k hk
      exact Engine.chan_of_modAt_ne htold fun h => hk (Fin.ext h)
    · rw [Engine.emit_chans, Engine.emit_shd]
      exact Engine.onlyBooks_trans (Engine.onlyBooks_of_onlyRegs hframe) (Engine.emit_books x ..)
  case told =>
    intro c t0 f n s hdefects hn hdue hhears
    obtain ⟨⟨hawake, hpower⟩, -⟩ := hhears
    refine ⟨_, exec_lineDefectHoldoff c s, s.onEng_engineOnly _, ?_⟩
    rw [State.onEng_eng, Engine.heldDefects_due hdefects hn hdue]
    have htold := Engine.emit_told (s.eng.modChan c.val (Engine.defectTold s.eng.now)) hawake hpower 0x05 c.val 0 1 none [(24, 6, f), (30, 4, n)]
    have hbytes := Engine.emit_toldBytes (s.eng.modChan c.val (Engine.defectTold s.eng.now)) hawake hpower 0x05 c.val 0 1 none [(24, 6, f), (30, 4, n)]
    exact ⟨htold, hbytes, Engine.emit_books (s.eng.modChan c.val (Engine.defectTold s.eng.now)) ..⟩
  case quiet =>
    intro c t0 f n s hdefects hquiet
    refine ⟨_, exec_lineDefectHoldoff c s, s.onEng_engineOnly _, ?_⟩
    rw [State.onEng_eng, Engine.heldDefects_quiet hdefects hquiet]

end Sys2Proof.Machine
end

section
/-!
PROOFS. The step and the state after reset: the front of the queue (log 4), what the block does without a command (logs 4, 158), the words after a power-on reset.
-/

namespace Sys2Proof.Machine

theorem step_idle {s : State} (h : s.pending = []) : step s = .next (s.onEng Engine.idle) := by
  unfold step
  rw [h]

/-- Without a command, device time and the pair block are all that changes. -/
theorem Engine.idle_pair (e : Engine) : e.idle = { e with now := (e.now + 1) % 2 ^ 64, pair := e.idle.pair } := by
  have hpair : e.idle.pair = { e.pair with tx := e.idle.pair.tx, txNext := e.idle.pair.txNext, image := e.idle.pair.image } :=
    congrArg Engine.pair e.idle_only
  have honly := e.idle_only
  rwa [← hpair] at honly

/-- Settles O52: a step is defined on the front of the queue; a module that mirrors nothing idles in device time alone. -/
theorem stepTakesTheFront : Obligations.StepTakesTheFront := by
  unfold Obligations.StepTakesTheFront
  refine ⟨fun _ _ _ => rfl, ?_, ?_⟩
  · intro s hqueue hnone
    have hidle : s.eng.idle = { s.eng with now := (s.eng.now + 1) % 2 ^ 64 } :=
      Engine.mirrorState_idle (e := { s.eng with now := (s.eng.now + 1) % 2 ^ 64 }) hnone
    rw [step_idle hqueue, State.onEng, hidle]
  · intro s hqueue
    refine ⟨s.eng.idle.pair, ?_, congrArg Engine.pair s.eng.idle_only⟩
    rw [step_idle hqueue, State.onEng, ← s.eng.idle_pair]

/-- After reset every register but the level of EVT holds its reset word. -/
theorem Engine.reset_word {off : Nat} (h : off ≠ (R.QUE_LEVEL.LEVEL 64).off) : Engine.reset.word off = RegMap.resetWord off :=
  if_neg h.symm

/-- Settles O55: of the registers the state after reset stores the level of EVT alone; the rest of it is written out. -/
theorem resetState : Obligations.ResetState := by
  unfold Obligations.ResetState
  refine ⟨rfl, rfl, rfl, rfl, rfl, rfl, rfl, rfl, rfl, ?_, rfl, rfl, ?_, fun _ => Engine.reset_word⟩
  · decide +kernel
  · decide +kernel

end Sys2Proof.Machine
end

section
/-!
PROOFS. The link (R228, R229, R232): what comes up, goes down and retrains shows in UHP_LINK and LINK_UP; a link down without PERST# is made up for by an FLR; errors
received reach the AER log.
-/

namespace Sys2Proof.Machine

namespace Engine

/-! ### UHP_LINK -/

theorem putLink_onlyRegs (e : Engine) (speed width : Nat) : e.onlyRegs (e.putLink speed width) [R.UHP_LINK.word.off] := by
  unfold putLink
  exact onlyRegs_wr (onlyRegs_wr (wr_onlyRegs _ _ (by decide)) (by decide) _) (by decide) _

theorem putLink_rd (e : Engine) {speed width : Nat} (hspeed : speed < 16) (hwidth : width < 64) :
    (e.putLink speed width).rd R.UHP_LINK.SPEED = speed ∧ (e.putLink speed width).rd R.UHP_LINK.WIDTH = width ∧
    (e.putLink speed width).rd R.UHP_LINK.DEGRADED = b2n (speed != 0 && decide (speed < 5 ∨ width < 8)) := by
  have hbit := b2n_lt_two (speed != 0 && decide (speed < 5 ∨ width < 8))
  unfold putLink
  refine ⟨?_, ?_, ?_⟩ <;> simp (disch := simp only [Fld.fits, Fld.apart, Fld.width]; omega) only [rd_wr_lt, rd_wr_apart]

/-- A link that has trained is DEGRADED below 32 GT/s or x8 (R228). -/
theorem putLink_valid (e : Engine) {speed : Fin 6} {width : Fin 9} (hvalid : linkValid speed.val width.val = true) :
    (e.putLink speed.val width.val).rd R.UHP_LINK.SPEED = speed.val ∧ (e.putLink speed.val width.val).rd R.UHP_LINK.WIDTH = width.val ∧
    (e.putLink speed.val width.val).rd R.UHP_LINK.DEGRADED = if speed.val < 5 ∨ width.val < 8 then 1 else 0 := by
  obtain ⟨hs, hw, hd⟩ := e.putLink_rd (speed := speed.val) (width := width.val) (by omega) (by omega)
  have hne : (speed.val != 0) = true := (Bool.and_eq_true_iff.mp hvalid).1
  refine ⟨hs, hw, hd.trans ?_⟩
  rw [hne, Bool.true_and, b2n]
  simp only [decide_eq_true_eq]

/-! ### Up, down -/

/-- The link is up with a speed and a width. -/
def linkShown (e : Engine) (speed width : Nat) : Engine := (e.wr R.UHP_STATUS.LINK_UP 1).putLink speed width

/-- The link is down. -/
def linkHidden (e : Engine) : Engine := (e.wr R.UHP_STATUS.LINK_UP 0).putLink 0 0

/-- The registers that tell of the link. -/
abbrev linkOffs : List Nat := [R.UHP_LINK.word.off, R.UHP_STATUS.LINK_UP.off]

theorem linkShown_onlyRegs (e : Engine) (speed width : Nat) : e.onlyRegs (e.linkShown speed width) linkOffs :=
  onlyRegs_trans (wr_onlyRegs _ _ (by decide)) (onlyRegs_mono (putLink_onlyRegs ..) (by decide))

theorem linkHidden_onlyRegs (e : Engine) : e.onlyRegs e.linkHidden linkOffs :=
  onlyRegs_trans (wr_onlyRegs _ _ (by decide)) (onlyRegs_mono (putLink_onlyRegs ..) (by decide))

theorem linkShown_up (e : Engine) (speed width : Nat) : (e.linkShown speed width).rd R.UHP_STATUS.LINK_UP = 1 :=
  (onlyRegs_rd (putLink_onlyRegs ..) (by decide)).trans (rd_wr_lt _ ⟨by decide, by decide⟩ (by decide))

theorem linkHidden_up (e : Engine) : e.linkHidden.rd R.UHP_STATUS.LINK_UP = 0 :=
  (onlyRegs_rd (putLink_onlyRegs ..) (by decide)).trans (rd_wr_lt _ ⟨by decide, by decide⟩ (by decide))

section
variable {e : Engine} {speed width : Nat} (hperst : e.pins.perstLow = false) (hpower : e.pins.failed = false) (hvalid : linkValid speed width = true)
  (hdown : e.on R.UHP_STATUS.LINK_UP = false)
include hperst hpower hvalid hdown

theorem linkComes_shown (hflr : e.link.flrOnUp = false) : e.linkComes speed width = e.linkShown speed width := by
  have hkeep : (e.linkShown speed width).link.flrOnUp = false := by rw [(e.linkShown_onlyRegs speed width).1]; exact hflr
  simp only [linkComes, hperst, hpower, hvalid, hdown, Bool.not_true, Bool.or_false, Bool.false_eq_true, if_false]
  exact if_neg (by rw [← linkShown, hkeep]; decide)

theorem linkComes_flr (hflr : e.link.flrOnUp = true) :
    e.linkComes speed width =
      ({ e.linkShown speed width with link := { (e.linkShown speed width).link with flrOnUp := false } } : Engine).requestReset .flr := by
  have hkeep : (e.linkShown speed width).link.flrOnUp = true := by rw [(e.linkShown_onlyRegs speed width).1]; exact hflr
  simp only [linkComes, hperst, hpower, hvalid, hdown, Bool.not_true, Bool.or_false, Bool.false_eq_true, if_false]
  exact if_pos hkeep

end

theorem linkGoes_hidden {e : Engine} (hup : e.on R.UHP_STATUS.LINK_UP = true) :
    e.linkGoes = { e.linkHidden with link := { e.link with flrOnUp := if e.pins.perstLow then e.link.flrOnUp else true } } := by
  have hlink : e.linkHidden.link = e.link := (congrArg Engine.link e.linkHidden_onlyRegs.1 :)
  simp only [linkGoes, hup, Bool.not_true, Bool.false_eq_true, if_false]
  split
  · exact (congrArg (fun l => ({ e.linkHidden with link := l } : Engine)) hlink :)
  · rw [← linkHidden, hlink]

/-! ### An FLR is asked for -/

/-- A side that stops converting touches the registers of its AFE and its channels' counts alone. -/
theorem stopConversion_word (e : Engine) (s : Nat) {off : Nat} (h : off < 0x4000) : (e.stopConversion s).word off = e.word off := by
  have hrun : (e.wr (R.AFE_STATUS.CONV_RUN s) 0).word off = e.word off := word_wr_ne e 0 (by dsimp only; omega)
  have hcounts (x : Engine) (l : List Nat) : (l.foldl (fun x k => x.count (R.QUE_BAD.V (32 * s + k)) 1) x).word off = x.word off :=
    foldl_keeps (fun y => y.word off) (fun y k _ => word_wr_ne y _ (by dsimp only; omega)) x
  unfold stopConversion
  dsimp only
  split
  · split
    · exact (hcounts _ _).trans hrun
    · exact hrun
  · exact hrun

theorem stopConversion_link (e : Engine) (s : Nat) : (e.stopConversion s).link = e.link := by
  unfold stopConversion
  dsimp only
  split
  · split
    · exact foldl_keeps (f := fun x k => x.count (R.QUE_BAD.V (32 * s + k)) 1) Engine.link (fun _ _ _ => rfl) _
    · rfl
  · rfl

/-- A reset asked for where none is in progress begins; the link stands as it did. -/
theorem requestReset_first {e : Engine} (hpower : e.pins.failed = false) (hnone : e.resetting = none) (k : ResetKind) :
    (e.requestReset k).resetting = some ⟨[k]⟩ ∧ (e.requestReset k).link = e.link ∧ ∀ off < 0x4000, (e.requestReset k).word off = e.word off := by
  have hreset : e.requestReset k = (let x := (e.stopConversion 0).stopConversion 1
      { x with resetting := some ⟨[k]⟩, job := { x.job with isOpen := false, ended := true }, pair := { x.pair with hbStopped := true } }) := by
    simp only [requestReset, hpower, hnone, Bool.false_eq_true, if_false]
  rw [hreset]
  exact ⟨rfl, (stopConversion_link _ 1).trans (stopConversion_link e 0),
    fun off h => (stopConversion_word _ 1 h).trans (stopConversion_word e 0 h)⟩

/-! ### Errors received -/

/-- A poisoned BAR4 write counts as dropped too. -/
theorem aerError_bar4 (e : Engine) (header : Option (List Word)) :
    e.aerError .poisonedBar4 header = (e.noteAer .poisonedBar4 header).count R.QDR_HOST_DROP_CNT.V 1 := by
  simp [aerError]

/-- A fatal one stops the requests. -/
theorem aerError_fatal (e : Engine) (n : Fin 4) (header : Option (List Word)) : e.aerError (.fatal n) header =
    { e.noteAer (.fatal n) header with link := { (e.noteAer (.fatal n) header).link with stopped := true } } := by
  simp [aerError]

/-- Any other is logged and no more. -/
theorem aerError_logged {e : Engine} {k : AerKind} (hecrc : k = .ecrc → e.link.ecrcCheck = true) (hbar4 : k ≠ .poisonedBar4)
    (hfatal : ∀ n : Fin 4, k ≠ .fatal n) (header : Option (List Word)) : e.aerError k header = e.noteAer k header := by
  have hone : ¬ (k = .ecrc ∧ e.link.ecrcCheck = false) := fun h => by
    rw [hecrc h.1] at h
    exact absurd h.2 (by decide)
  unfold aerError
  rw [if_neg hone]
  cases k with
  | poisonedBar4 => exact absurd rfl hbar4
  | fatal n => exact absurd rfl (hfatal n)
  | _ => rfl

theorem aerError_unchecked {e : Engine} (h : e.link.ecrcCheck = false) (header : Option (List Word)) : e.aerError .ecrc header = e :=
  if_pos ⟨rfl, h⟩

end Engine

/-! ### The commands -/

theorem exec_linkUp (speed : Fin 6) (width : Fin 9) (s : State) :
    exec (.linkUp speed width) s = .next (s.onEng fun e => e.linkComes speed.val width.val) := rfl

theorem exec_linkDown (s : State) : exec .linkDown s = .next (s.onEng Engine.linkGoes) := rfl

theorem exec_linkRetrain (speed : Fin 6) (width : Fin 9) (s : State) : exec (.linkRetrain speed width) s =
    .next (s.onEng fun e => if e.on R.UHP_STATUS.LINK_UP && Engine.linkValid speed.val width.val then e.putLink speed.val width.val else e) := rfl

theorem exec_aerErrorReceived (err : AerReport) (s : State) :
    exec (.aerErrorReceived err) s = .next (s.onEng fun e => e.aerError err.kind err.header) := rfl

/-- Settles O22: each change of the link is a few register writes, after which an FLR may be asked for, which leaves them; an error is logged by its kind. -/
theorem linkStates : Obligations.LinkStates := by
  unfold Obligations.LinkStates
  refine ⟨?up, ?upReset, ?down, ?retrain, ?error, ?unchecked⟩
  case up =>
    intro speed width s hperst hpower hvalid hdown hflr
    refine ⟨_, exec_linkUp speed width s, s.onEng_engineOnly _, ?_⟩
    rw [State.onEng_eng, Engine.linkComes_shown hperst hpower hvalid hdown hflr]
    obtain ⟨hspeed, hwidth, hdegraded⟩ := (s.eng.wr R.UHP_STATUS.LINK_UP 1).putLink_valid hvalid
    exact ⟨hspeed, hwidth, hdegraded, s.eng.linkShown_up _ _, s.eng.linkShown_onlyRegs _ _⟩
  case upReset =>
    intro speed width s hperst hpower hvalid hdown hflr hnone
    refine ⟨_, exec_linkUp speed width s, s.onEng_engineOnly _, ?_⟩
    rw [State.onEng_eng, Engine.linkComes_flr hperst hpower hvalid hdown hflr]
    have hframe := (s.eng.linkShown_onlyRegs speed.val width.val).1
    have hlink : (s.eng.linkShown speed.val width.val).link = s.eng.link := (congrArg Engine.link hframe :)
    obtain ⟨hspeed, hwidth, hdegraded⟩ := (s.eng.wr R.UHP_STATUS.LINK_UP 1).putLink_valid hvalid
    obtain ⟨hresetting, hkeeps, hword⟩ := Engine.requestReset_first
      (e := { s.eng.linkShown speed.val width.val with link := { (s.eng.linkShown speed.val width.val).link with flrOnUp := false } })
      ((congrArg (fun e => e.pins.failed) hframe :).trans hpower) ((congrArg Engine.resetting hframe :).trans hnone) .flr
    have hread {f : Fld} (hf : f.off < 0x4000) {v : Nat} (hv : (s.eng.linkShown speed.val width.val).rd f = v) := (congrArg f.get (hword f.off hf)).trans hv
    refine ⟨hread (by decide) hspeed, hread (by decide) hwidth, hread (by decide) hdegraded, hread (by decide) (s.eng.linkShown_up _ _), hresetting,
      hkeeps.trans ?_⟩
    rw [hlink]
  case down =>
    intro s hup
    refine ⟨_, exec_linkDown s, s.onEng_engineOnly _, ?_⟩
    rw [State.onEng_eng, Engine.linkGoes_hidden hup]
    obtain ⟨hspeed, hwidth, hdegraded⟩ := (s.eng.wr R.UHP_STATUS.LINK_UP 0).putLink_rd (speed := 0) (width := 0) (by decide) (by decide)
    exact ⟨s.eng.linkHidden_up, hspeed, hwidth, hdegraded, Engine.onlyRegs_map s.eng.linkHidden_onlyRegs
      (f := fun e => { e with link := { s.eng.link with flrOnUp := if s.eng.pins.perstLow then s.eng.link.flrOnUp else true } }) fun _ _ => rfl⟩
  case retrain =>
    intro speed width s hup hvalid
    refine ⟨_, exec_linkRetrain speed width s, s.onEng_engineOnly _, ?_⟩
    rw [State.onEng_eng, hup, hvalid, Bool.and_self, if_pos rfl]
    obtain ⟨hspeed, hwidth, hdegraded⟩ := s.eng.putLink_valid hvalid
    exact ⟨hspeed, hwidth, hdegraded, s.eng.putLink_onlyRegs _ _⟩
  case error =>
    intro kind header s hecrc
    refine ⟨_, exec_aerErrorReceived ⟨kind, header⟩ s, s.onEng_engineOnly _, ?_⟩
    rw [State.onEng_eng]
    dsimp only
    by_cases hbar4 : kind = .poisonedBar4
    · subst hbar4
      rw [Engine.aerError_bar4]
      refine ⟨by simp [Engine.noteAer], ?_, Engine.wr_onlyRegs (s.eng.noteAer .poisonedBar4 header) _ List.mem_cons_self⟩
      rw [if_pos rfl]
      exact Engine.rd_wr_lt _ ⟨by decide, by decide⟩ (by simp only [Fld.width, satAdd]; omega)
    · rw [if_neg hbar4]
      by_cases hfatal : ∃ n : Fin 4, kind = .fatal n
      · obtain ⟨n, rfl⟩ := hfatal
        rw [Engine.aerError_fatal]
        exact ⟨by simp [Engine.noteAer], rfl, Engine.onlyRegs_refl _ _⟩
      · rw [Engine.aerError_logged hecrc hbar4 (fun n hn => hfatal ⟨n, hn⟩)]
        exact ⟨by simp [Engine.noteAer, hfatal], rfl, Engine.onlyRegs_refl _ _⟩
  case unchecked =>
    intro header s hcheck
    exact ⟨_, exec_aerErrorReceived ⟨.ecrc, header⟩ s, s.onEng_engineOnly _, Engine.aerError_unchecked hcheck header⟩

end Sys2Proof.Machine
end

section
/-!
PROOFS. Doorbells, the MSI-X table and configuration space (R227, R231 to R233, R238, log 142): each word of BAR2 and of configuration space has one place.
-/

namespace Sys2Proof.Machine

namespace Engine

/-! ### Doorbells (R216, R238) -/

/-- A doorbell has passed through CMD_IN. -/
def belled (e : Engine) : Engine := e.passes 79 (e.rd (R.QUE_LEVEL.LEVEL 79) + 1)

theorem belled_onlyRegs (e : Engine) : e.onlyRegs e.belled [(R.QUE_LEVEL.LEVEL 79).off] := e.passes_onlyRegs _ _

theorem belled_rd (e : Engine) {f : Fld} (hf : f.off < 0x4000) : e.belled.rd f = e.rd f :=
  onlyRegs_rd e.belled_onlyRegs (by simp only [List.mem_singleton]; omega)

section
variable {e : Engine} {r : RingIx} {value : Word}

theorem doorbell_on (hstate : e.ringState r.val ≠ 0) : e.doorbell r.val value =
    if e.ringSize r.val ≤ value.toNat % 65536 then e.belled.wr R.UHP_STATUS.DB_ERR 1
    else e.belled.wr (R.UHP_R_HOSTIDX.V r.val) (value.toNat % 65536) := by
  have hkept : e.belled.ringState r.val ≠ 0 := fun h => hstate ((e.belled_rd (by dsimp only; omega)).symm.trans h)
  have hsize : e.belled.ringSize r.val = e.ringSize r.val := congrArg (2 ^ ·) (e.belled_rd (by dsimp only; omega))
  rw [← hsize]
  exact if_neg hkept

/-- A doorbell within its ring sets HOSTIDX. -/
theorem doorbell_taken (hstate : e.ringState r.val ≠ 0) (hindex : value.toNat % 65536 < e.ringSize r.val) :
    (e.doorbell r.val value).rd (R.UHP_R_HOSTIDX.V r.val) = value.toNat % 65536 ∧
    e.onlyRegs (e.doorbell r.val value) [(R.UHP_R_HOSTIDX.V r.val).off, (R.QUE_LEVEL.LEVEL 79).off] := by
  rw [doorbell_on hstate, if_neg (Nat.not_le.mpr hindex)]
  exact ⟨rd_wr_lt _ (by simp only [Fld.fits]; omega) (Nat.mod_lt _ (by decide)),
    onlyRegs_wr (onlyRegs_mono e.belled_onlyRegs fun _ => List.mem_cons_of_mem _) List.mem_cons_self _⟩

end

/-! ### BAR2 -/

theorem readBar2_doorbell (e : Engine) (r : RingIx) : e.readBar2 (0x1000 * r.val) = e.rd (R.UHP_R_HOSTIDX.V r.val) := by
  have hdiv : 0x1000 * r.val / 0x1000 = r.val := by omega
  simp only [readBar2]
  rw [if_pos ⟨by omega, by omega⟩, hdiv]

theorem writeBar2_doorbell (e : Engine) (r : RingIx) (value : Word) : e.writeBar2 (0x1000 * r.val) value = e.doorbell r.val value := by
  have hdiv : 0x1000 * r.val / 0x1000 = r.val := by omega
  simp only [writeBar2]
  rw [if_pos ⟨by omega, by omega⟩, hdiv]

theorem readBar2_msix (e : Engine) (i : Fin 32) (k : Fin 4) :
    e.readBar2 (0x1E000 + 16 * i.val + 4 * k.val) = msixWord (e.link.msix.getD i.val ⟨0, 0, true, false⟩) k.val := by
  have hentry : (0x1E000 + 16 * i.val + 4 * k.val - 0x1E000) / 16 = i.val := by omega
  have hword : (0x1E000 + 16 * i.val + 4 * k.val) / 4 % 4 = k.val := by omega
  simp only [readBar2]
  rw [if_neg (by omega), if_pos (by omega), hentry, hword]

theorem writeBar2_msix (e : Engine) (i : Fin 32) (k : Fin 4) (value : Word) : e.writeBar2 (0x1E000 + 16 * i.val + 4 * k.val) value =
    { e with link := { e.link with msix := modAt e.link.msix i.val fun t => putMsix t k.val value.toNat } } := by
  have hentry : (0x1E000 + 16 * i.val + 4 * k.val - 0x1E000) / 16 = i.val := by omega
  have hword : (0x1E000 + 16 * i.val + 4 * k.val) / 4 % 4 = k.val := by omega
  simp only [writeBar2]
  rw [if_neg (by omega), if_pos (by omega), hentry, hword]

/-! ### Configuration space -/

theorem readConfig_header (e : Engine) (k : Fin 4) : e.readConfig (0x11C + 4 * k.val) = (e.link.header.getD k.val 0).toNat := by
  match k with
  | 0 | 1 | 2 | 3 => rfl

end Engine

/-! ### The commands -/

section
variable {s : State} (hawake : s.eng.mode ≠ .m0)
include hawake

/-- A read of a word of BAR2 answers what stands there. -/
theorem rcRead_bar2 {off : BitVec 20} {a v : Nat} (ha : off.toNat = a) (hv : s.eng.readBar2 a = v) (n : Nat) :
    ∃ t, exec (.rcRead ⟨.bar2, off⟩ n) s = .next t ∧ s.engineOnly t ∧ t.eng = { s.eng with rsp := leBytes 4 v } := by
  refine ⟨_, rfl, s.onEng_engineOnly _, (if_neg hawake).trans ?_⟩
  rw [ha, hv]

/-- So does one of configuration space. -/
theorem rcRead_config {off : BitVec 20} {a v : Nat} (ha : off.toNat = a) (hv : s.eng.readConfig a = v) (n : Nat) :
    ∃ t, exec (.rcRead ⟨.config, off⟩ n) s = .next t ∧ s.engineOnly t ∧ t.eng = { s.eng with rsp := leBytes 4 v } := by
  refine ⟨_, rfl, s.onEng_engineOnly _, (if_neg hawake).trans ?_⟩
  rw [ha, hv]

theorem registerWrite_bar2 {off : BitVec 20} {a : Nat} (ha : off.toNat = a) (value hw : Word) :
    ∃ t, exec (.registerWrite ⟨.bar2, off⟩ value hw) s = .next t ∧ s.engineOnly t ∧ t.eng = s.eng.writeBar2 a value := by
  refine ⟨_, rfl, s.onEng_engineOnly _, (if_neg hawake).trans ?_⟩
  rw [ha]

theorem registerWrite_config {off : BitVec 20} {a : Nat} (ha : off.toNat = a) (value hw : Word) :
    ∃ t, exec (.registerWrite ⟨.config, off⟩ value hw) s = .next t ∧ s.engineOnly t ∧ t.eng = s.eng.writeConfig a value := by
  refine ⟨_, rfl, s.onEng_engineOnly _, (if_neg hawake).trans ?_⟩
  rw [ha]

/-- A read of a word of the MSI-X table answers it. -/
theorem rcRead_msix (i : Fin 32) (k : Fin 4) {a : Nat} (ha : a = 4 * k.val) (n : Nat) :
    ∃ t, exec (.rcRead ⟨.bar2, BitVec.ofNat 20 (0x1E000 + 16 * i.val + a)⟩ n) s = .next t ∧ s.engineOnly t ∧
      t.eng = { s.eng with rsp := leBytes 4 (Engine.msixWord (s.eng.link.msix.getD i.val ⟨0, 0, true, false⟩) k.val) } :=
  rcRead_bar2 hawake (by rw [BitVec.toNat_ofNat, ha]; exact Nat.mod_eq_of_lt (by omega)) (s.eng.readBar2_msix i k) n

/-- A write of one is taken there. -/
theorem registerWrite_msix (i : Fin 32) (k : Fin 4) {a : Nat} (ha : a = 4 * k.val) (value hw : Word) :
    ∃ t, exec (.registerWrite ⟨.bar2, BitVec.ofNat 20 (0x1E000 + 16 * i.val + a)⟩ value hw) s = .next t ∧ s.engineOnly t ∧
      t.eng = { s.eng with link := { s.eng.link with
        msix := modAt s.eng.link.msix i.val fun y => Engine.putMsix y k.val value.toNat } } := by
  rw [← s.eng.writeBar2_msix i k value]
  exact registerWrite_bar2 hawake (by rw [BitVec.toNat_ofNat, ha]; exact Nat.mod_eq_of_lt (by omega)) value hw

end

/-- Settles O23: each offset is in one of the ranges of BAR2 or is one word of configuration space; a read is the answer alone. -/
theorem hostSpaces : Obligations.HostSpaces := by
  unfold Obligations.HostSpaces
  have hbell (r : RingIx) : (BitVec.ofNat 20 (0x1000 * r.val)).toNat = 0x1000 * r.val := by
    rw [BitVec.toNat_ofNat]
    exact Nat.mod_eq_of_lt (by omega)
  refine ⟨?bellRead, ?bellWrite, ?_, ?_, ?_, ?_, ?_, ?_, ?_, ?_, ?pending, ?ids, ?classCode, ?busMaster, ?status, ?base, ?header, ?control,
    ?ecrc, ?timeout, ?deadWrite, ?deadRead⟩
  case bellRead => exact fun r n s hawake => rcRead_bar2 hawake (hbell r) (s.eng.readBar2_doorbell r) n
  case bellWrite =>
    intro r value hw s hawake hstate hindex
    obtain ⟨t, hexec, honly, ht⟩ := registerWrite_bar2 hawake (hbell r) value hw
    rw [s.eng.writeBar2_doorbell] at ht
    refine ⟨t, hexec, honly, ?_⟩
    rw [ht]
    exact Engine.doorbell_taken hstate hindex
  · exact fun i n s hawake => rcRead_msix hawake i 0 rfl n
  · exact fun i n s hawake => rcRead_msix hawake i 1 rfl n
  · exact fun i n s hawake => rcRead_msix hawake i 2 rfl n
  · exact fun i n s hawake => rcRead_msix hawake i 3 rfl n
  · exact fun i value hw s hawake => registerWrite_msix hawake i 0 rfl value hw
  · exact fun i value hw s hawake => registerWrite_msix hawake i 1 rfl value hw
  · exact fun i value hw s hawake => registerWrite_msix hawake i 2 rfl value hw
  · exact fun i value hw s hawake => registerWrite_msix hawake i 3 rfl value hw
  case pending => exact fun n s hawake => rcRead_bar2 hawake (a := 0x1F000) rfl rfl n
  case ids => exact fun n s hawake => rcRead_config hawake (a := 0) rfl rfl n
  case classCode => exact fun n s hawake => rcRead_config hawake (a := 8) rfl rfl n
  case busMaster => exact fun value hw s hawake => registerWrite_config hawake (a := 4) rfl value hw
  case status => exact fun n s hawake => rcRead_config hawake (a := 4) rfl rfl n
  case base => exact fun value hw s hawake => registerWrite_config hawake (a := 0x10) rfl value hw
  case header =>
    exact fun k n s hawake => rcRead_config hawake (by rw [BitVec.toNat_ofNat]; exact Nat.mod_eq_of_lt (by omega)) (s.eng.readConfig_header k) n
  case control => exact fun value hw s hawake => registerWrite_config hawake (a := 0x78) rfl value hw
  case ecrc => exact fun value hw s hawake => registerWrite_config hawake (a := 0x118) rfl value hw
  case timeout => exact fun n s hawake => rcRead_config hawake (a := 0x78) rfl rfl n
  case deadWrite =>
    intro sp off value hw s hdead hspace
    refine ⟨_, rfl, s.onEng_engineOnly _, ?_⟩
    cases sp with
    | bar0 => exact absurd rfl hspace
    | bar2 | config => exact if_pos hdead
  case deadRead =>
    intro sp off n s hdead hspace
    refine ⟨_, rfl, s.onEng_engineOnly _, ?_⟩
    cases sp with
    | bar0 => exact absurd rfl hspace
    | bar2 | config => exact if_pos hdead

end Sys2Proof.Machine
end

section
/-!
PROOFS. A fetch of commands that brings nothing (R239, R242): CMD_IN stays, and its level is shown again.
-/

namespace Sys2Proof.Machine

/-- The CMD ring runs and a read of one entry is outstanding; CMD_IN is empty, and its level still tells of the entry that stood in it. -/
def emptiedCmdIn : State :=
  let e := (Engine.reset.setRing 0 1).wr (R.QUE_LEVEL.LEVEL 79) 16
  { State.reset with eng := { e with rings := modAt e.rings 0 fun _ => ⟨1, [(0, 1, true)]⟩ } }

/-- The read ends in an error, and the level is that of an empty CMD_IN. -/
theorem emptiedCmdIn_level_shown (kind : ReadErr) : ((emptiedCmdIn.eng.fetchFailed 0 []).noteAer (.completion kind) none).word (R.QUE_LEVEL.LEVEL 79).off ≠
    emptiedCmdIn.eng.word (R.QUE_LEVEL.LEVEL 79).off := by
  have hfailed : (emptiedCmdIn.eng.fetchFailed 0 []).word (R.QUE_LEVEL.LEVEL 79).off ≠ emptiedCmdIn.eng.word (R.QUE_LEVEL.LEVEL 79).off := by
    decide +kernel
  exact hfailed

theorem fetchError_eng {r : RingIx} {received : List Byte} {kind : ReadErr} {s t : State} (h : exec (.fetchError r received kind) s = .next t) :
    t.eng = (s.eng.fetchFailed r.val received).noteAer (.completion kind) none := by
  cases h
  rfl

/-- The level of CMD_IN is none of the books. -/
theorem not_bookReg_cmdIn : ¬ bookReg (R.QUE_LEVEL.LEVEL 79).off := by
  unfold bookReg
  rintro (h | h | h | h | h | h | ⟨k, j, h⟩ | ⟨k, j, h⟩ | ⟨r, h⟩)
  all_goals
    dsimp only at h
    omega

/-- Refutes O19: the clause of a fetch that fails with nothing received names no register of CMD_IN, whose level is shown again on the CMD ring; it does not
ask that the level tells of the entries that stand there, and a takeover empties CMD_IN without showing it. -/
theorem not_fetching : ¬ Obligations.Fetching := by
  unfold Obligations.Fetching
  rintro ⟨-, -, -, -, -, -, -, -, hfailed⟩
  obtain ⟨t, hexec, -, -, -, -, -, -, -, hword⟩ := hfailed 0 .timeout 0 1 [] emptiedCmdIn (by decide +kernel) (by decide +kernel) (by decide +kernel)
  have hkept := hword _ not_bookReg_cmdIn (by decide)
  rw [fetchError_eng hexec] at hkept
  exact emptiedCmdIn_level_shown .timeout hkept

end Sys2Proof.Machine
end

section
/-!
PROOFS. Rings enabled (R193, R237, R251, R258, R367): what a write with EN = 1 stores, what a ring that begins afresh leaves behind, and how it then stands.
-/

namespace Sys2Proof.Machine

/-- A field below bit 31 is of the word written, whatever the command sets above it. -/
theorem get_or_bit31 {f : Fld} (hfits : f.fits) (hlow : f.hi < 31) (v : Word) : f.get (v ||| 0x80000000) = f.get v := by
  have hclear : ∀ j < 31, (0x80000000 : Word).getLsbD j = false := by decide
  obtain ⟨hle, -⟩ := hfits
  apply Nat.eq_of_testBit_eq
  intro i
  rw [Fld.testBit_get, Fld.testBit_get, BitVec.getLsbD_or]
  by_cases hi : i < f.width
  · rw [hclear (f.lo + i) (by unfold Fld.width at hi; omega), Bool.or_false]
  · simp [hi]

namespace Engine

/-! ### What a write with EN = 1 stores -/

/-- EN, LOG2 and QUOTA of a ring take a written word with EN = 1; rings 0 to 2 have no QUOTA. -/
def ctrlTaken (e : Engine) (r : Nat) (value : Word) : Engine :=
  ((e.wr (R.UHP_R_CTRL.EN r) 1).wr (R.UHP_R_CTRL.LOG2 r) (clampNat 4 16 ((R.UHP_R_CTRL.LOG2 r).get value))).wr (R.UHP_R_CTRL.QUOTA r)
    (if 3 ≤ r then (R.UHP_R_CTRL.QUOTA r).get value else e.rd (R.UHP_R_CTRL.QUOTA r))

theorem ctrlTaken_onlyRegs (e : Engine) (r : Nat) (value : Word) : e.onlyRegs (e.ctrlTaken r value) [(R.UHP_R_CTRL.EN r).off] :=
  onlyRegs_wr (onlyRegs_wr (wr_onlyRegs _ _ (by simp)) (by simp) _) (by simp) _

theorem ctrlTaken_rd (e : Engine) (r : Nat) (value : Word) : (e.ctrlTaken r value).rd (R.UHP_R_CTRL.EN r) = 1 ∧
    (e.ctrlTaken r value).rd (R.UHP_R_CTRL.LOG2 r) = clampNat 4 16 ((R.UHP_R_CTRL.LOG2 r).get value) ∧
    (3 ≤ r → (e.ctrlTaken r value).rd (R.UHP_R_CTRL.QUOTA r) = (R.UHP_R_CTRL.QUOTA r).get value) := by
  have hlog : clampNat 4 16 ((R.UHP_R_CTRL.LOG2 r).get value) < 32 := by unfold clampNat; omega
  have hquota : (R.UHP_R_CTRL.QUOTA r).get value < 2048 := Fld.get_lt _ _
  unfold ctrlTaken
  refine ⟨?_, ?_, fun h => ?_⟩
  · simp (disch := simp only [Fld.fits, Fld.apart, Fld.width]; omega) only [rd_wr_lt, rd_wr_apart]
  · simp (disch := simp only [Fld.fits, Fld.apart, Fld.width]; omega) only [rd_wr_lt, rd_wr_apart]
  · rw [if_pos h]
    exact rd_wr_lt _ (by simp only [Fld.fits]; omega) hquota

section
variable {e : Engine} {r : Nat} {value : Word} (hrestart : (R.UHP_R_CTRL.RESTART r).get value = 0) (hstop : (R.UHP_R_CTRL.STOP r).get value = 0)
  (hoff : e.rd (R.UHP_R_CTRL.EN r) = 0)
include hrestart hstop hoff

/-- EN = 1 without RESTART or STOP, on a ring that is off: the write is taken where RWL fields are open, else ignored. -/
theorem ringCtrl_enable : e.ringCtrl r (value ||| 0x80000000) =
    if e.rwlUhp then (if e.mode = .m10 ∧ 2 ≤ r then e.ctrlTaken r value else (e.ctrlTaken r value).startRing r)
    else e.writeIgnored (R.UHP_R_CTRL.EN r).off := by
  obtain ⟨w, hw⟩ : ∃ w : Word, w = value ||| 0x80000000 := ⟨_, rfl⟩
  have hlow {f : Fld} (hfits : f.fits) (hlow : f.hi < 31) : f.get w = f.get value := hw ▸ get_or_bit31 hfits hlow value
  have hen : (R.UHP_R_CTRL.EN r).get w = 1 := hw ▸ snap_get_or value
  have hlog : (R.UHP_R_CTRL.LOG2 r).get w = (R.UHP_R_CTRL.LOG2 r).get value := hlow (by simp only [Fld.fits]; omega) (by dsimp only; omega)
  have hquota : (R.UHP_R_CTRL.QUOTA r).get w = (R.UHP_R_CTRL.QUOTA r).get value := hlow (by simp only [Fld.fits]; omega) (by dsimp only; omega)
  have hno : (R.UHP_R_CTRL.RESTART r).get w = 0 := (hlow (by simp only [Fld.fits]; omega) (by dsimp only; omega)).trans hrestart
  have hon : (R.UHP_R_CTRL.STOP r).get w = 0 := (hlow (by simp only [Fld.fits]; omega) (by dsimp only; omega)).trans hstop
  rw [← hw]
  simp [ringCtrl, hen, hlog, hquota, hno, hon, hoff, ctrlTaken]

theorem ringCtrl_starts (hopen : e.modeIn [3, 10] = true) (hruns : e.mode = .m3 ∨ r ≤ 1) :
    e.ringCtrl r (value ||| 0x80000000) = (e.ctrlTaken r value).startRing r := by
  rw [ringCtrl_enable hrestart hstop hoff, if_pos (show e.rwlUhp = true from hopen), if_neg]
  rintro ⟨h10, h2⟩
  rcases hruns with h3 | h1
  · exact Mode.noConfusion (h3.symm.trans h10)
  · omega

/-- A leeward stores the word; its MET and stream rings do not start (R367). -/
theorem ringCtrl_leeward (h10 : e.mode = .m10) (h2 : 2 ≤ r) : e.ringCtrl r (value ||| 0x80000000) = e.ctrlTaken r value := by
  rw [ringCtrl_enable hrestart hstop hoff, if_pos (by unfold rwlUhp modeIn; rw [h10]; rfl), if_pos ⟨h10, h2⟩]

theorem ringCtrl_locked (hlocked : e.modeIn [3, 10] = false) : e.ringCtrl r (value ||| 0x80000000) = e.writeIgnored (R.UHP_R_CTRL.EN r).off := by
  rw [ringCtrl_enable hrestart hstop hoff, if_neg (by rw [rwlUhp, hlocked]; decide)]

end

/-! ### A ring begins afresh (R237, R252) -/

theorem forgetRing_only (e : Engine) (r : Nat) : e.forgetRing r = { e with
    streams := (e.forgetRing r).streams
    evt := { e.evt with queue := (e.forgetRing r).evt.queue, unacked := (e.forgetRing r).evt.unacked }
    pair := { e.pair with tx := (e.forgetRing r).pair.tx } } := by
  unfold forgetRing
  dsimp only
  split
  · rfl
  · split <;> rfl

/-- What is forgotten does not depend on the registers. -/
theorem forgetRing_regs (e : Engine) (r : Nat) (w : Sparse Word) : ({ e with regs := w } : Engine).forgetRing r = { e.forgetRing r with regs := w } := by
  unfold forgetRing
  dsimp only
  split
  · rfl
  · split <;> rfl

theorem forgetRing_streams (e : Engine) (r : Nat) : (e.forgetRing r).streams = if 3 ≤ r then
    modAt e.streams (r - 3) (fun x => { x with bufs := x.bufs.map fun b => { b with stale := true } }) else e.streams := by
  unfold forgetRing
  dsimp only
  split
  · rfl
  · split <;> rfl

/-- The events of EVT keep all that R267 gives them; only what the books will make of them changes. -/
theorem forgetRing_brief (e : Engine) (r : Nat) : (e.forgetRing r).evt.queue.map Ev.brief = e.evt.queue.map Ev.brief := by
  unfold forgetRing
  dsimp only
  split
  · rw [List.map_map]
    refine List.map_congr_left fun v _ => ?_
    rw [Function.comp_apply]
    split
    · split <;> rfl
    · rfl
  · split <;> rfl

theorem forgetRing_tx {e : Engine} {r : Nat} (h : r ≠ 0) : (e.forgetRing r).pair.tx = e.pair.tx := by
  unfold forgetRing
  dsimp only
  rw [if_neg h]
  split <;> rfl

theorem forgetRing_tx_length (e : Engine) (r : Nat) : (e.forgetRing r).pair.tx.length = e.pair.tx.length := by
  unfold forgetRing
  dsimp only
  split
  · rfl
  · split
    · exact List.length_map _
    · rfl

/-- What was left over of a ring stands in none of its indices any more, and its fetching begins again. -/
def forgotten (e : Engine) (r : Nat) : Engine := { e.forgetRing r with rings := modAt (e.forgetRing r).rings r (refetch 0) }

/-- A ring begins: the word is taken, what was left over forgotten, the indices are 0. -/
def ringZeroed (e : Engine) (r : Nat) (value : Word) : Engine :=
  ((((e.ctrlTaken r value).forgotten r).setDevIdx r 0).wr (R.UHP_R_DONE.V r) 0).wr (R.UHP_R_HOSTIDX.V r) 0

/-- A ring begins in a state. -/
def ringBegun (e : Engine) (r : Nat) (value : Word) (st : Nat) : Engine := (e.ringZeroed r value).setRing r st

/-- The registers of a ring that its start writes. -/
abbrev startOffs (r : Nat) : List Nat := [(R.UHP_R_CTRL.EN r).off, (R.UHP_R_STATE.STATE r).off, (R.UHP_R_DONE.V r).off, (R.UHP_R_HOSTIDX.V r).off]

theorem ringBegun_onlyRegs (e : Engine) (r : Nat) (value : Word) (st : Nat) : (e.forgotten r).onlyRegs (e.ringBegun r value st) (startOffs r) := by
  have htaken : (e.forgotten r).onlyRegs ((e.ctrlTaken r value).forgotten r) (startOffs r) :=
    onlyRegs_map (onlyRegs_mono (e.ctrlTaken_onlyRegs r value) (by simp)) (f := fun y => y.forgotten r) fun y w => by
      unfold forgotten
      rw [forgetRing_regs]
  exact onlyRegs_wr (onlyRegs_wr (onlyRegs_wr (onlyRegs_wr htaken (by simp) _) (by simp) _) (by simp) _) (by simp) _

theorem forgotten_rd (e : Engine) (r : Nat) (f : Fld) : (e.forgotten r).rd f = e.rd f :=
  rd_congr (congrArg Engine.regs (e.forgetRing_only r) :) f

theorem ringBegun_rd (e : Engine) (r : Nat) (value : Word) {st : Nat} (hst : st < 16) : (e.ringBegun r value st).rd (R.UHP_R_CTRL.EN r) = 1 ∧
    (e.ringBegun r value st).rd (R.UHP_R_CTRL.LOG2 r) = clampNat 4 16 ((R.UHP_R_CTRL.LOG2 r).get value) ∧ (e.ringBegun r value st).devIdx r = 0 ∧
    (e.ringBegun r value st).rd (R.UHP_R_DONE.V r) = 0 ∧ (e.ringBegun r value st).rd (R.UHP_R_HOSTIDX.V r) = 0 ∧
    (e.ringBegun r value st).ringState r = st ∧ (3 ≤ r → (e.ringBegun r value st).rd (R.UHP_R_CTRL.QUOTA r) = (R.UHP_R_CTRL.QUOTA r).get value) := by
  obtain ⟨hen, hlog, hquota⟩ := e.ctrlTaken_rd r value
  unfold ringBegun ringZeroed devIdx ringState setRing setDevIdx
  refine ⟨?_, ?_, ?_, ?_, ?_, ?_, fun h => ?_⟩ <;>
    simp (disch := simp only [Fld.fits, Fld.apart, Fld.width]; omega) only [rd_wr_lt, rd_wr_ne, rd_wr_apart, forgotten_rd, hen, hlog]
  exact hquota h

theorem ringBegun_rings (e : Engine) (r : Nat) (value : Word) (st : Nat) : (e.ringBegun r value st).rings = modAt e.rings r (refetch 0) := by
  have hbegun : (e.ringBegun r value st).rings = modAt (e.forgetRing r).rings r (refetch 0) := (congrArg Engine.rings (e.ringBegun_onlyRegs r value st).1 :)
  rw [hbegun, (congrArg Engine.rings (e.forgetRing_only r) :)]

/-! ### VER_ERR, QUOTA_ERR or RUN (R251, R258) -/

theorem verRefused_ctrlTaken (e : Engine) (r : RingIx) (k : Nat) (value : Word) : (e.ctrlTaken r.val value).verRefused k = e.verRefused k := by
  have hkept {f : Fld} (hf : f.off < 0x1108 ∨ 0x2000 ≤ f.off) : (e.ctrlTaken r.val value).rd f = e.rd f :=
    onlyRegs_rd (e.ctrlTaken_onlyRegs r.val value) (by simp only [List.mem_singleton]; omega)
  have hver : (e.ctrlTaken r.val value).ver = e.ver := hkept (by decide)
  have hpair : (e.ctrlTaken r.val value).pairEnabled = e.pairEnabled := congrArg (· != 0) (hkept (by decide))
  unfold verRefused
  rw [hver, hpair, hkept (by decide)]

/-- The sum of QUOTA depends on EN and QUOTA of the stream rings. -/
theorem quotaSum_congr {e x : Engine} (h : ∀ k, x.rd (R.UHP_R_CTRL.EN k) = e.rd (R.UHP_R_CTRL.EN k) ∧ x.rd (R.UHP_R_CTRL.QUOTA k) = e.rd (R.UHP_R_CTRL.QUOTA k)) :
    x.quotaSum = e.quotaSum := by
  have hon (k : Nat) : x.on (R.UHP_R_CTRL.EN k) = e.on (R.UHP_R_CTRL.EN k) := congrArg (· != 0) (h k).1
  unfold quotaSum
  simp only [hon, h]

theorem quotaSum_ringZeroed (e : Engine) {r : Nat} (value : Word) (h3 : 3 ≤ r) : (e.ringZeroed r value).quotaSum =
    ((e.wr (R.UHP_R_CTRL.EN r) 1).wr (R.UHP_R_CTRL.QUOTA r) ((R.UHP_R_CTRL.QUOTA r).get value)).quotaSum := by
  refine quotaSum_congr fun k => ?_
  unfold ringZeroed setDevIdx
  simp (disch := dsimp only; omega) only [rd_wr_ne, forgotten_rd]
  unfold ctrlTaken
  rw [if_pos h3]
  refine ⟨?_, ?_⟩
  · simp (disch := simp only [Fld.fits, Fld.apart]; omega) only [rd_wr_apart]
  · by_cases hk : k = r
    · subst hk
      simp (disch := simp only [Fld.fits]; omega) only [rd_wr_same]
    · simp (disch := simp only [Fld.fits, Fld.apart]; omega) only [rd_wr_ne]

/-- How a ring whose EN has just been set goes on. -/
theorem startRing_taken (e : Engine) (r : RingIx) (value : Word) : (e.ctrlTaken r.val value).startRing r.val =
    if e.verRefused r.val then (e.ringBegun r.val value 6).wr R.UHP_STATUS.VER_ERR 1
    else if 3 ≤ r.val ∧ 1024 < ((e.wr (R.UHP_R_CTRL.EN r.val) 1).wr (R.UHP_R_CTRL.QUOTA r.val) ((R.UHP_R_CTRL.QUOTA r.val).get value)).quotaSum then
      (e.ringBegun r.val value 7).wr R.UHP_STATUS.QUOTA_ERR 1
    else if r.val = 1 then (e.ringBegun r.val value 1).raiseBoot
    else e.ringBegun r.val value 1 := by
  have hmore : (3 ≤ r.val ∧ 1024 < (e.ringZeroed r.val value).quotaSum) ↔
      (3 ≤ r.val ∧ 1024 < ((e.wr (R.UHP_R_CTRL.EN r.val) 1).wr (R.UHP_R_CTRL.QUOTA r.val) ((R.UHP_R_CTRL.QUOTA r.val).get value)).quotaSum) :=
    and_congr_right fun h3 => by rw [quotaSum_ringZeroed e value h3]
  simp only [← verRefused_ctrlTaken e r r.val value, ← hmore]
  rfl

/-! ### The frame of a start -/

section
variable {e t : Engine} {r : Nat} {offs : List Nat} (h : (e.forgotten r).onlyRegs t offs)
include h

theorem begun_onlyRegs :
    ({ e with rings := t.rings, streams := t.streams, evt := { e.evt with queue := t.evt.queue, unacked := t.evt.unacked }, pair := { e.pair with tx := t.pair.tx } }
    : Engine).onlyRegs t offs := by
  have hforgot : ∃ g l q u x, e.forgotten r =
      { e with rings := g, streams := l, evt := { e.evt with queue := q, unacked := u }, pair := { e.pair with tx := x } } :=
    ⟨_, _, _, _, _, congrArg (fun y => { y with rings := modAt (e.forgetRing r).rings r (refetch 0) }) (e.forgetRing_only r)⟩
  obtain ⟨g, l, q, u, x, hforgot⟩ := hforgot
  rw [hforgot] at h
  rw [h.1]
  exact ⟨rfl, h.2⟩

/-- A stream ring's buffers become stale, the late BUF_DONE of EVT enter no index, and the frames of CMD count no command. -/
theorem begun_forgets : (t.streams = if 3 ≤ r then
      modAt e.streams (r - 3) (fun x => { x with bufs := x.bufs.map fun b => { b with stale := true } }) else e.streams) ∧
    t.evt.queue.map Ev.brief = e.evt.queue.map Ev.brief ∧ (r ≠ 0 → t.pair.tx = e.pair.tx) ∧ t.pair.tx.length = e.pair.tx.length := by
  rw [h.1]
  exact ⟨e.forgetRing_streams r, e.forgetRing_brief r, forgetRing_tx, e.forgetRing_tx_length r⟩

end

/-- EVT has nothing of its own to forget but its fetching. -/
theorem begun_evt {e t : Engine} {offs : List Nat} (h : (e.forgotten 1).onlyRegs t offs) : ({ e with rings := t.rings } : Engine).onlyRegs t offs := by
  rw [h.1]
  exact ⟨rfl, h.2⟩

/-- A refusal's flag in UHP_STATUS leaves what the start gave the ring. -/
theorem ringRefused_rd (e : Engine) (r : Nat) (value : Word) {st : Nat} (hst : st < 16) {f : Fld} (hf : f.off = R.UHP_STATUS.VER_ERR.off) :
    ((e.ringBegun r value st).wr f 1).rd (R.UHP_R_CTRL.EN r) = 1 ∧
    ((e.ringBegun r value st).wr f 1).rd (R.UHP_R_CTRL.LOG2 r) = clampNat 4 16 ((R.UHP_R_CTRL.LOG2 r).get value) ∧
    ((e.ringBegun r value st).wr f 1).devIdx r = 0 ∧ ((e.ringBegun r value st).wr f 1).rd (R.UHP_R_DONE.V r) = 0 ∧
    ((e.ringBegun r value st).wr f 1).rd (R.UHP_R_HOSTIDX.V r) = 0 ∧ ((e.ringBegun r value st).wr f 1).rings = modAt e.rings r (refetch 0) ∧
    ((e.ringBegun r value st).wr f 1).ringState r = st := by
  have hkept (g : Fld) (hg : 0x100C < g.off) : ((e.ringBegun r value st).wr f 1).rd g = (e.ringBegun r value st).rd g :=
    rd_wr_ne _ 1 (hf.trans_lt hg).ne'
  rw [devIdx, ringState, hkept (R.UHP_R_CTRL.EN r) (by dsimp only; omega), hkept (R.UHP_R_CTRL.LOG2 r) (by dsimp only; omega),
    hkept (R.UHP_R_STATE.DEV_IDX r) (by dsimp only; omega), hkept (R.UHP_R_DONE.V r) (by dsimp only; omega),
    hkept (R.UHP_R_HOSTIDX.V r) (by dsimp only; omega), hkept (R.UHP_R_STATE.STATE r) (by dsimp only; omega)]
  obtain ⟨hen, hlog, hdev, hdone, hidx, hst, -⟩ := e.ringBegun_rd r value hst
  exact ⟨hen, hlog, hdev, hdone, hidx, (wr_rings ..).trans (e.ringBegun_rings r value st), hst⟩

theorem ringRefused_onlyRegs (e : Engine) (r : Nat) (value : Word) (st : Nat) {f : Fld} (hf : f.off = R.UHP_STATUS.VER_ERR.off) :
    (e.forgotten r).onlyRegs ((e.ringBegun r value st).wr f 1) (startOffs r ++ [R.UHP_STATUS.VER_ERR.off]) :=
  onlyRegs_append (e.ringBegun_onlyRegs r value st) (wr_onlyRegs _ 1 (by simp [hf]))

/-! ### What EVT, running, is told of the boot (R193) -/

theorem raiseBoot_nothing {e : Engine} (hdies : e.qdr.dieFaults = []) (hslot : e.flash.fallback = none) : e.raiseBoot = e := by
  unfold raiseBoot
  rw [hdies, hslot, List.foldl_nil, ← hdies]
  dsimp only
  rw [← hslot]

/-- No die's fault waits to be told. -/
def diesTold (e : Engine) : Engine := { e with qdr := { e.qdr with dieFaults := [] } }

theorem raiseBoot_die {e : Engine} {d a : Nat} (hdies : e.qdr.dieFaults = [(d, a)]) (hslot : e.flash.fallback = none) :
    e.raiseBoot = (e.fault 0x0D d 1 0 [(24, 4, a)]).diesTold := by
  have hflash : (e.fault 0x0D d 1 0 [(24, 4, a)]).flash = e.flash := (congrArg Engine.flash (e.fault_books 0x0D d 1 0 [(24, 4, a)] []).1 :)
  unfold raiseBoot diesTold
  rw [hdies, hslot, List.foldl_cons, List.foldl_nil]
  dsimp only
  rw [← hslot, ← hflash]

/-! ### The gate -/

/-- UHP_Rr_CTRL takes writes from M2 on, in M10 too. -/
theorem gate_ringCtrl {e : Engine} (h0 : e.mode ≠ .m0) (h1 : e.mode ≠ .m1) (r : RingIx) (f : Engine → Engine) :
    e.gate (R.UHP_R_CTRL.EN r.val).off f = f e := by
  have hr := r.isLt
  have hdie (s : Nat) : onDie s (R.UHP_R_CTRL.EN r.val).off = false := by
    simp only [onDie, Bool.or_eq_false_iff, beq_eq_false_iff_ne]
    omega
  have hset : setUpReg (R.UHP_R_CTRL.EN r.val).off = false := by
    simp only [setUpReg, Bool.and_eq_false_iff, decide_eq_false_iff_not]
    left
    omega
  simp [gate, h0, h1, hdie, hset]

end Engine

theorem exec_ringEnable {s : State} (h0 : s.eng.mode ≠ .m0) (h1 : s.eng.mode ≠ .m1) (r : RingIx) (value : Word) :
    exec (.ringEnable r value) s = .next (s.onEng fun e => e.ringCtrl r.val (value ||| 0x80000000)) := by
  have hgate := Engine.gate_ringCtrl h0 h1 r fun x => x.ringCtrl r.val (value ||| 0x80000000)
  exact congrArg Host.Outcome.next (congrArg (fun e => { s with eng := e }) hgate)

/-- A mode of a list that holds neither 0 nor 1 is neither M0 nor M1. -/
theorem Engine.answers_of_modeIn {e : Engine} {l : List Nat} (h : e.modeIn l = true) (h0 : 0 ∉ l) (h1 : 1 ∉ l) : e.mode ≠ .m0 ∧ e.mode ≠ .m1 := by
  have hmem : e.mode.idx ∈ l := List.contains_iff_mem.1 h
  exact ⟨fun hm => h0 (by rwa [hm] at hmem), fun hm => h1 (by rwa [hm] at hmem)⟩

section
variable {s : State} {r : RingIx} {value : Word} (hopen : s.eng.modeIn [3, 10] = true) (hruns : s.eng.mode = .m3 ∨ r.val ≤ 1)
  (hrestart : (R.UHP_R_CTRL.RESTART r.val).get value = 0) (hstop : (R.UHP_R_CTRL.STOP r.val).get value = 0)
  (hoff : s.eng.rd (R.UHP_R_CTRL.EN r.val) = 0)
include hopen hruns hrestart hstop hoff

/-- EN = 1 starts the ring. -/
theorem exec_ringEnable_starts : exec (.ringEnable r value) s = .next (s.onEng fun e => (e.ctrlTaken r.val value).startRing r.val) := by
  obtain ⟨h0, h1⟩ := Engine.answers_of_modeIn hopen (by decide) (by decide)
  rw [exec_ringEnable h0 h1]
  exact congrArg Host.Outcome.next (congrArg (fun e => { s with eng := e }) (Engine.ringCtrl_starts hrestart hstop hoff hopen hruns))

theorem exec_ringEnable_verErr (hver : s.eng.verRefused r.val = true) :
    exec (.ringEnable r value) s = .next (s.onEng fun e => (e.ringBegun r.val value 6).wr R.UHP_STATUS.VER_ERR 1) := by
  rw [exec_ringEnable_starts hopen hruns hrestart hstop hoff, State.onEng, Engine.startRing_taken, if_pos hver]
  rfl

theorem exec_ringEnable_quotaErr (hver : s.eng.verRefused r.val = false) (h3 : 3 ≤ r.val) (hmore : 1024 <
    ((s.eng.wr (R.UHP_R_CTRL.EN r.val) 1).wr (R.UHP_R_CTRL.QUOTA r.val) ((R.UHP_R_CTRL.QUOTA r.val).get value)).quotaSum) :
    exec (.ringEnable r value) s = .next (s.onEng fun e => (e.ringBegun r.val value 7).wr R.UHP_STATUS.QUOTA_ERR 1) := by
  rw [exec_ringEnable_starts hopen hruns hrestart hstop hoff, State.onEng, Engine.startRing_taken, if_neg (by simp [hver]), if_pos ⟨h3, hmore⟩]
  rfl

theorem exec_ringEnable_runs (hver : s.eng.verRefused r.val = false) (hr : r.val ≠ 1) (hfits : 3 ≤ r.val →
    ((s.eng.wr (R.UHP_R_CTRL.EN r.val) 1).wr (R.UHP_R_CTRL.QUOTA r.val) ((R.UHP_R_CTRL.QUOTA r.val).get value)).quotaSum ≤ 1024) :
    exec (.ringEnable r value) s = .next (s.onEng fun e => e.ringBegun r.val value 1) := by
  rw [exec_ringEnable_starts hopen hruns hrestart hstop hoff, State.onEng, Engine.startRing_taken, if_neg (by simp [hver]),
    if_neg fun h => absurd h.2 (Nat.not_lt.2 (hfits h.1)), if_neg hr]
  rfl

omit hruns in
theorem exec_ringEnable_evt (hver : s.eng.verRefused r.val = false) (hr : r.val = 1) :
    exec (.ringEnable r value) s = .next (s.onEng fun e => (e.ringBegun r.val value 1).raiseBoot) := by
  rw [exec_ringEnable_starts hopen (.inr (by omega)) hrestart hstop hoff, State.onEng, Engine.startRing_taken, if_neg (by simp [hver]),
    if_neg (by omega), if_pos hr]
  rfl

end

/-- Settles O17: the word taken, what was left over forgotten, the indices 0; then VER_ERR, QUOTA_ERR or RUN. -/
theorem ringsEnabled : Obligations.RingsEnabled := by
  unfold Obligations.RingsEnabled
  refine ⟨?runs, ?evt, ?evtTold, ?verErr, ?quotaErr, ?leeward, ?ignored⟩
  case runs =>
    intro r value s hopen hruns hrestart hstop hoff hver hr hfits
    refine ⟨_, exec_ringEnable_runs hopen hruns hrestart hstop hoff hver hr hfits, s.onEng_engineOnly _, ?_⟩
    rw [State.onEng_eng]
    obtain ⟨hen, hlog, hdev, hdone, hidx, hstate, hquota⟩ := s.eng.ringBegun_rd r.val value (st := 1) (by decide)
    have hframe := s.eng.ringBegun_onlyRegs r.val value 1
    exact ⟨hen, hlog, hdev, hdone, hidx, s.eng.ringBegun_rings .., hstate, hquota, Engine.begun_onlyRegs hframe, Engine.begun_forgets hframe⟩
  case evt =>
    intro r value s hopen hrestart hstop hoff hver hr hdies hslot
    refine ⟨_, exec_ringEnable_evt hopen hrestart hstop hoff hver hr, s.onEng_engineOnly _, ?_⟩
    rw [State.onEng_eng]
    obtain ⟨hen, hlog, hdev, hdone, hidx, hstate, -⟩ := s.eng.ringBegun_rd r.val value (st := 1) (by decide)
    have hframe := s.eng.ringBegun_onlyRegs r.val value 1
    have hrings := s.eng.ringBegun_rings r.val value 1
    rw [hr] at *
    have hbegun := Engine.begun_evt hframe
    rw [Engine.raiseBoot_nothing ((congrArg (fun x => x.qdr.dieFaults) hbegun.1 :).trans hdies) ((congrArg (fun x => x.flash.fallback) hbegun.1 :).trans hslot)]
    exact ⟨hen, hlog, hdev, hdone, hidx, hrings, hstate, hbegun⟩
  case evtTold =>
    intro r value d a s hopen hrestart hstop hoff hver hr hdies hslot hhears
    refine ⟨_, exec_ringEnable_evt hopen hrestart hstop hoff hver hr, s.onEng_engineOnly _, ?_⟩
    rw [State.onEng_eng]
    obtain ⟨-, -, -, -, -, hstate, -⟩ := s.eng.ringBegun_rd r.val value (st := 1) (by decide)
    have hframe := s.eng.ringBegun_onlyRegs r.val value 1
    rw [hr] at *
    have hbegun := Engine.begun_evt hframe
    obtain ⟨⟨hawake, hpower⟩, -, hroom⟩ := Engine.onlyRegs_hears hbegun hhears
    have hfault := (s.eng.ringBegun 1 value 1).fault_books 0x0D d 1 0 [(24, 4, a)] (Engine.startOffs 1)
    rw [Engine.raiseBoot_die ((congrArg (fun x => x.qdr.dieFaults) hbegun.1 :).trans hdies) ((congrArg (fun x => x.flash.fallback) hbegun.1 :).trans hslot)]
    refine ⟨(Engine.fault_rd (by omega) _ _ _ _ _ (by decide)).trans hstate, Engine.fault_told hawake hpower .., Engine.emit_toldBytes _ hawake hpower .., ?_⟩
    have hrings : (((s.eng.ringBegun 1 value 1).fault 0x0D d 1 0 [(24, 4, a)]).diesTold).rings = (s.eng.ringBegun 1 value 1).rings :=
      (congrArg Engine.rings hfault.1 :)
    rw [hrings]
    exact Engine.onlyBooks_map (Engine.onlyBooks_trans (Engine.onlyBooks_of_onlyRegs hbegun) hfault) fun _ _ _ _ _ => rfl
  case verErr =>
    intro r value s hopen hruns hrestart hstop hoff hver
    refine ⟨_, exec_ringEnable_verErr hopen hruns hrestart hstop hoff hver, s.onEng_engineOnly _, ?_⟩
    rw [State.onEng_eng]
    obtain ⟨hen, hlog, hdev, hdone, hidx, hrings, hstate⟩ := s.eng.ringRefused_rd r.val value (st := 6) (by decide) (f := R.UHP_STATUS.VER_ERR) rfl
    have hframe := s.eng.ringRefused_onlyRegs r.val value 6 (f := R.UHP_STATUS.VER_ERR) rfl
    exact ⟨hen, hlog, hdev, hdone, hidx, hrings, hstate, Engine.rd_wr_lt _ ⟨by decide, by decide⟩ (by decide),
      Engine.begun_onlyRegs hframe, Engine.begun_forgets hframe⟩
  case quotaErr =>
    intro r value s hm3 hrestart hstop hoff hver h3 hmore
    have hopen : s.eng.modeIn [3, 10] = true := by rw [Engine.modeIn, hm3]; rfl
    refine ⟨_, exec_ringEnable_quotaErr hopen (.inl hm3) hrestart hstop hoff hver h3 hmore, s.onEng_engineOnly _, ?_⟩
    rw [State.onEng_eng]
    obtain ⟨hen, hlog, hdev, hdone, hidx, hrings, hstate⟩ := s.eng.ringRefused_rd r.val value (st := 7) (by decide) (f := R.UHP_STATUS.QUOTA_ERR) rfl
    have hframe := s.eng.ringRefused_onlyRegs r.val value 7 (f := R.UHP_STATUS.QUOTA_ERR) rfl
    exact ⟨hen, hlog, hdev, hdone, hidx, hrings, hstate, Engine.rd_wr_lt _ ⟨by decide, by decide⟩ (by decide),
      Engine.begun_onlyRegs hframe, Engine.begun_forgets hframe⟩
  case leeward =>
    intro r value s h10 h2 hrestart hstop hoff
    refine ⟨_, exec_ringEnable (by rw [h10]; decide) (by rw [h10]; decide) r value, s.onEng_engineOnly _, ?_⟩
    rw [State.onEng_eng, Engine.ringCtrl_leeward hrestart hstop hoff h10 h2]
    have hframe := s.eng.ctrlTaken_onlyRegs r.val value
    obtain ⟨hen, hlog, -⟩ := s.eng.ctrlTaken_rd r.val value
    exact ⟨hen, hlog, Engine.onlyRegs_rd hframe (by simp), Engine.onlyRegs_rd hframe (by simp), hframe⟩
  case ignored =>
    intro r value s hmode hrestart hstop hoff hfirst
    obtain ⟨h0, h1⟩ := Engine.answers_of_modeIn hmode (by decide) (by decide)
    have hdisjoint : ∀ m : Mode, [2, 4, 5, 6, 7, 8, 9, 11].contains m.idx = true → [3, 10].contains m.idx = false := by
      intro m
      cases m <;> decide
    have hlocked : s.eng.modeIn [3, 10] = false := hdisjoint s.eng.mode hmode
    refine ⟨_, exec_ringEnable h0 h1 r value, s.onEng_engineOnly _, ?_⟩
    rw [State.onEng_eng, Engine.ringCtrl_locked hrestart hstop hoff hlocked, Engine.writeIgnored_first hfirst]

end Sys2Proof.Machine
end

section
/-!
PROOFS. Commands consumed (R241, R247, R260, R366): what an entry of CMD_IN in order becomes, what counts it, and what one out of order does to the ring.
-/

namespace Sys2Proof.Machine

/-- A parameter of `n` bytes is the word of its size that it fills. -/
theorem toNat_ofNat_leAt (l : List Byte) (off : Nat) {n w : Nat} (hw : w = 8 * n) : (BitVec.ofNat w (leAt l off n)).toNat = leAt l off n := by
  have hlt : leAt l off n < 2 ^ w := by
    rw [hw, pow_mul]
    exact leAt_lt l off n
  rw [BitVec.toNat_ofNat, Nat.mod_eq_of_lt hlt]

namespace Engine

/-! ### The command that an entry names (R260, R262) -/

section
variable {b : List Byte} (e : Engine)

theorem runEntry_nop (hcode : leAt b 0 1 = 0x01) : e.runEntry b = e.cmdNop (entryHdr b []) := by
  unfold runEntry
  rw [hcode]
  rfl

theorem runEntry_jobClose (hcode : leAt b 0 1 = 0x03) : e.runEntry b = e.cmdJobClose (entryHdr b []) := by
  unfold runEntry
  rw [hcode]
  rfl

theorem runEntry_feed (hcode : leAt b 0 1 = 0x04) : e.runEntry b =
    e.cmdFeed (entryHdr b [(16, 3)]) (BitVec.ofNat 16 (leAt b 16 2)).toNat (BitVec.ofNat 8 (leAt b 18 1)).toNat := by
  rw [toNat_ofNat_leAt (n := 2) (w := 16) b 16 rfl, toNat_ofNat_leAt (n := 1) (w := 8) b 18 rfl]
  unfold runEntry
  rw [hcode]
  rfl

theorem runEntry_streamStop (hcode : leAt b 0 1 = 0x0A) : e.runEntry b =
    e.cmdStreamStop (entryHdr b [(16, 2)]) (BitVec.ofNat 8 (leAt b 16 1)).toNat (BitVec.ofNat 8 (leAt b 17 1)).toNat := by
  rw [toNat_ofNat_leAt (n := 1) (w := 8) b 16 rfl, toNat_ofNat_leAt (n := 1) (w := 8) b 17 rfl]
  unfold runEntry
  rw [hcode]
  rfl

theorem runEntry_mode (hcode : leAt b 0 1 = 0x17) : e.runEntry b = e.cmdMode (entryHdr b [(16, 1)]) (BitVec.ofNat 8 (leAt b 16 1)).toNat := by
  rw [toNat_ofNat_leAt (n := 1) (w := 8) b 16 rfl]
  unfold runEntry
  rw [hcode]
  rfl

end

/-! ### CMD_IN loses an entry, and SEQ and DEV_IDX count it (R223, R241) -/

/-- What is left in CMD_IN, with its level shown. -/
def leftIn (e : Engine) (rest : List CmdEntry) : Engine := ({ e with cmdIn := rest } : Engine).showCmdIn

theorem leftIn_onlyRegs (e : Engine) (rest : List CmdEntry) : ({ e with cmdIn := rest } : Engine).onlyRegs (e.leftIn rest) [(R.QUE_LEVEL.LEVEL 79).off] :=
  level_onlyRegs _ 79 _

theorem leftIn_rd (e : Engine) (rest : List CmdEntry) {f : Fld} (hf : f.off ≠ (R.QUE_LEVEL.LEVEL 79).off) : (e.leftIn rest).rd f = e.rd f :=
  onlyRegs_rd (e.leftIn_onlyRegs rest) (by simpa using hf)

/-- An entry is consumed: it has left CMD_IN, and SEQ and DEV_IDX have moved past it. -/
def consumed (e : Engine) (rest : List CmdEntry) : Engine :=
  ((e.leftIn rest).wr (R.UHP_R_SEQ.V 0) ((e.ringSeq 0 + 1) % 2 ^ 32)).setDevIdx 0 ((e.devIdx 0 + 1) % 2 ^ e.rd (R.UHP_R_CTRL.LOG2 0))

/-- Where no leeward is to acknowledge it, a command counts at once. -/
theorem noteCommand_leftIn {e : Engine} (hfirst : e.mirrorFirst = false) (rest : List CmdEntry) (h : CmdHdr) (code : Nat) :
    (e.leftIn rest).noteCommand h code = e.consumed rest := by
  have hsame : (e.leftIn rest).mirrorFirst = false := (congrArg Engine.mirrorFirst (e.leftIn_onlyRegs rest).1 :).trans hfirst
  rw [noteCommand, if_neg (by simp [hsame]), countCommands, if_neg Nat.one_ne_zero, consumed, leftIn_rd _ _ (by decide), leftIn_rd _ _ (by decide),
    leftIn_rd _ _ (by decide)]
  rfl

section
variable {e : Engine} {c : CmdEntry} {rest : List CmdEntry} (hfront : e.cmdIn = c :: rest) (hring : e.ringState 0 = 1 ∨ e.ringState 0 = 3)
include hfront hring

/-- An entry whose HSEQ follows is taken, noted and carried out. -/
theorem consume_next (hseq : leAt (e.entryBytes c.bytes) 4 4 = (e.takenSeq 0 + 1) % 2 ^ 32)
    (htake : e.canTake (entryHdr (e.entryBytes c.bytes) []) = true) : e.consume =
    ((e.leftIn rest).noteCommand (entryHdr (e.entryBytes c.bytes) []) (leAt (e.entryBytes c.bytes) 0 1)).runEntry (e.entryBytes c.bytes) := by
  unfold consume
  rw [hfront]
  dsimp only
  rw [if_neg (by omega), if_neg (not_not.2 hseq), if_neg (by simp [htake])]
  rfl

theorem consume_mismatch (hseq : leAt (e.entryBytes c.bytes) 4 4 ≠ (e.takenSeq 0 + 1) % 2 ^ 32) :
    e.consume = e.seqStop 0 (leAt (e.entryBytes c.bytes) 4 4) := by
  unfold consume
  rw [hfront]
  dsimp only
  rw [if_neg (by omega), if_pos hseq]

end

/-! ### Commands that wait for the leeward to count (R366) -/

/-- Whether a frame counts a command when it is acknowledged. -/
def countsCommand (t : TxFrame) : Bool := match t.delta with | some (.command _) => true | _ => false

theorem uncounted_eq (e : Engine) : e.uncounted = (e.pair.tx.filter countsCommand).length := rfl

theorem uncounted_congr {e x : Engine} (h : x.pair = e.pair) : x.uncounted = e.uncounted := by
  rw [uncounted_eq, uncounted_eq, h]

/-- The delta of an event counts no command. -/
theorem commitEv_uncounted (e : Engine) (code subj status arg : Nat) (hs : Option Nat) (p : List LayField) (bk : Booking) :
    (e.commitEv code subj status arg hs p bk).uncounted = e.uncounted := by
  have hroom : (if e.evt.queue.length < 256 then e else e.loseOldest).pair = e.pair := by
    split
    · rfl
    · exact e.loseOldest_pair
  unfold commitEv
  dsimp only
  rw [uncounted_congr (level_pair ..), ← uncounted_congr hroom]
  generalize (if e.evt.queue.length < 256 then e else e.loseOldest) = x
  rw [uncounted_eq, uncounted_eq]
  dsimp only
  split
  · simp [sendEvent, sendFrame, countsCommand]
  · rfl

theorem emitBk_uncounted (e : Engine) (code subj status arg : Nat) (hs : Option Nat) (p : List LayField) (bk : Booking) :
    (e.emitBk code subj status arg hs p bk).uncounted = e.uncounted := by
  by_cases h : e.resetting = none ∧ e.pins.failed = false
  · obtain ⟨x, hx, rfl | ⟨n, f, l, -, -, rfl⟩⟩ := emitBk_cases e h.1 h.2 code subj status arg hs p bk
    · rw [hx, commitEv_uncounted]
    · rw [hx, commitEv_uncounted, commitEv_uncounted]
      rfl
  · rw [emitBk_silent h]

theorem complete_uncounted (e : Engine) (h : CmdHdr) (code st : Nat) (r : List LayField) : (e.complete h code st r).uncounted = e.uncounted :=
  (emitBk_uncounted ..).trans (uncounted_congr (openCmd_pair ..))

theorem pairSend_uncounted (e : Engine) (n : Nat) (body : PairBody) : (e.pairSend (some (.command n)) body).uncounted = e.uncounted + 1 := by
  rw [uncounted_eq, pairSend, sendFrame, List.filter_append, List.length_append]
  rfl

/-- A windward in PAIRED sends a command's delta, and the command waits to be counted. -/
theorem noteCommand_uncounted {e : Engine} (hfirst : e.mirrorFirst = true) (h : CmdHdr) (code : Nat) :
    (e.noteCommand h code).uncounted = e.uncounted + 1 := by
  rw [noteCommand, if_pos hfirst, pairSend_uncounted]
  rfl

theorem noteCommand_books {e : Engine} (hfirst : e.mirrorFirst = true) (h : CmdHdr) (code : Nat) (offs : List Nat) :
    e.onlyBooks (e.noteCommand h code) offs := by
  rw [noteCommand, if_pos hfirst]
  exact ⟨rfl, fun _ _ _ => rfl⟩

/-- NOP completes, whatever its status, or is not taken. -/
theorem cmdNop_cases (e : Engine) (h : CmdHdr) : e.cmdNop h = e ∨ ∃ st, e.cmdNop h = e.complete h 0x01 st [] := by
  unfold cmdNop command
  split
  · exact .inl rfl
  · right
    split_ifs <;> exact ⟨_, rfl⟩

theorem cmdNop_books (e : Engine) (h : CmdHdr) (offs : List Nat) : e.onlyBooks (e.cmdNop h) offs := by
  rcases e.cmdNop_cases h with hno | ⟨st, hst⟩
  · rw [hno]
    exact onlyBooks_refl _ _
  · rw [hst]
    exact complete_books ..

theorem cmdNop_uncounted (e : Engine) (h : CmdHdr) : (e.cmdNop h).uncounted = e.uncounted := by
  rcases e.cmdNop_cases h with hno | ⟨st, hst⟩
  · rw [hno]
  · rw [hst, complete_uncounted]

/-! ### A failed HSEQ check on CMD (R242, R247) -/

/-- CMD enters SEQ_STOP: fetching begins again at the entry not taken, what was received is discarded. -/
theorem leaveRun_cmd (e : Engine) : e.leaveRun 0 2 =
    ({ e.setRing 0 2 with rings := modAt e.rings 0 (refetch (e.takenIdx 0)) } : Engine).leftIn [] := by
  unfold leaveRun
  exact if_pos ⟨rfl, by decide⟩

/-- The HSEQ found is shown. -/
def cmdStopped (e : Engine) (found : Nat) : Engine := (e.leaveRun 0 2).wr (R.UHP_R_FAULT.V 0) found

/-- The registers that a failed HSEQ check on CMD writes. -/
abbrev cmdStopOffs : List Nat := [(R.UHP_R_STATE.STATE 0).off, (R.UHP_R_FAULT.V 0).off, (R.QUE_LEVEL.LEVEL 79).off]

theorem cmdStopped_onlyRegs (e : Engine) (found : Nat) :
    ({ e with rings := modAt e.rings 0 (refetch (e.takenIdx 0)), cmdIn := [] } : Engine).onlyRegs (e.cmdStopped found) cmdStopOffs := by
  have hset : ({ e with rings := modAt e.rings 0 (refetch (e.takenIdx 0)), cmdIn := [] } : Engine).onlyRegs
      ({ e.setRing 0 2 with rings := modAt e.rings 0 (refetch (e.takenIdx 0)), cmdIn := [] } : Engine) cmdStopOffs :=
    onlyRegs_map (wr_onlyRegs e 2 (by decide)) (f := fun y => { y with rings := modAt e.rings 0 (refetch (e.takenIdx 0)), cmdIn := [] }) fun _ _ => rfl
  have hleft := onlyRegs_mono (leftIn_onlyRegs { e.setRing 0 2 with rings := modAt e.rings 0 (refetch (e.takenIdx 0)) } []) (p := cmdStopOffs) (by decide)
  rw [cmdStopped, leaveRun_cmd]
  exact onlyRegs_wr (onlyRegs_trans hset hleft) (by decide) found

theorem cmdStopped_rd (e : Engine) {found : Nat} (hfound : found < 2 ^ 32) : (e.cmdStopped found).ringState 0 = 2 ∧
    (e.cmdStopped found).devIdx 0 = e.devIdx 0 ∧ (e.cmdStopped found).rd (R.UHP_R_FAULT.V 0) = found := by
  have hkept (f : Fld) (hf : f.off = (R.UHP_R_STATE.STATE 0).off) : (e.cmdStopped found).rd f = (e.setRing 0 2).rd f := by
    rw [cmdStopped, leaveRun_cmd, rd_wr_ne _ _ (by rw [hf]; decide), leftIn_rd _ _ (by rw [hf]; decide)]
    rfl
  refine ⟨(hkept (R.UHP_R_STATE.STATE 0) rfl).trans ?_, (hkept (R.UHP_R_STATE.DEV_IDX 0) rfl).trans ?_, rd_wr_lt _ ⟨by decide, by decide⟩ hfound⟩
  · exact rd_wr_lt _ ⟨by decide, by decide⟩ (by decide)
  · exact rd_wr_apart _ ⟨by decide, by decide⟩ ⟨by decide, by decide⟩ (by simp only [Fld.apart]; omega) 2

theorem seqStop_cmd (e : Engine) (found : Nat) : e.seqStop 0 found =
    (e.cmdStopped found).fault 0x10 0 1 0 [(24, 4, (e.takenSeq 0 + 1) % 2 ^ 32), (28, 4, found), (32, 2, e.takenIdx 0)] := rfl

theorem seqStop_cmd_spec {e : Engine} (hhears : e.hears) {found : Nat} (hfound : found < 2 ^ 32) :
    (e.seqStop 0 found).ringState 0 = 2 ∧ (e.seqStop 0 found).devIdx 0 = e.devIdx 0 ∧ (e.seqStop 0 found).cmdIn = [] ∧
    (e.seqStop 0 found).rd (R.UHP_R_FAULT.V 0) = found ∧ (e.seqStop 0 found).told 0x0F 0x10 0 none 256 ∧
    (e.seqStop 0 found).toldBytes [(24, 4, (e.takenSeq 0 + 1) % 2 ^ 32), (28, 4, found), (32, 2, e.takenIdx 0)] ∧
    ({ e with rings := (e.seqStop 0 found).rings, cmdIn := (e.seqStop 0 found).cmdIn } : Engine).onlyBooks (e.seqStop 0 found) cmdStopOffs := by
  have hframe := e.cmdStopped_onlyRegs found
  obtain ⟨hstate, hdev, hshown⟩ := e.cmdStopped_rd hfound
  obtain ⟨⟨hawake, hpower⟩, -, hroom⟩ := onlyRegs_hears hframe hhears
  have hbooks := onlyBooks_trans (onlyBooks_of_onlyRegs hframe) (fault_books (e.cmdStopped found) 0x10 0 1 0
    [(24, 4, (e.takenSeq 0 + 1) % 2 ^ 32), (28, 4, found), (32, 2, e.takenIdx 0)] cmdStopOffs)
  rw [← seqStop_cmd] at hbooks
  have hcmdIn := (congrArg Engine.cmdIn hbooks.1 :)
  have hrings := (congrArg Engine.rings hbooks.1 :)
  have hkept {f : Fld} (hf : f.off ≠ (R.QUE_LEVEL.LEVEL 64).off) : (e.seqStop 0 found).rd f = (e.cmdStopped found).rd f :=
    fault_rd (hroom.trans (by decide)) _ _ _ _ _ hf
  refine ⟨(hkept (by decide)).trans hstate, (hkept (by decide)).trans hdev, hcmdIn, (hkept (by decide)).trans hshown, fault_told hawake hpower ..,
    emit_toldBytes _ hawake hpower .., ?_⟩
  rw [hcmdIn, hrings]
  exact hbooks

/-- A register that is none of the books nor of the named ones reads as before. -/
theorem onlyBooks_rd {e x : Engine} {offs : List Nat} (h : e.onlyBooks x offs) {f : Fld} (hbook : ¬ bookReg f.off) (hf : f.off ∉ offs) :
    x.rd f = e.rd f := by
  unfold rd
  rw [h.2 f.off hbook hf]

end Engine

/-- CTRL, STATE, SEQ and HOSTIDX of CMD are none of the books. -/
theorem not_bookReg_cmdRing {off : Nat} (hlow : 0x1108 ≤ off) (hhigh : off < 0x1118) : ¬ bookReg off := by
  unfold bookReg
  rintro (h | h | h | h | h | h | ⟨k, j, h⟩ | ⟨k, j, h⟩ | ⟨r, h⟩)
  all_goals
    dsimp only at h
    omega

/-! ### What the machine then does -/

theorem exec_commandConsume (s : State) : exec .commandConsume s = .next (s.onEng Engine.consume) := rfl

section
variable {c : CmdEntry} {rest : List CmdEntry} {s : State} (hfront : s.eng.cmdIn = c :: rest) (hring : s.eng.ringState 0 = 1 ∨ s.eng.ringState 0 = 3)
  (hseq : leAt (s.eng.entryBytes c.bytes) 4 4 = (s.eng.takenSeq 0 + 1) % 2 ^ 32)
  (htake : s.eng.canTake (Engine.entryHdr (s.eng.entryBytes c.bytes) []) = true)
include hfront hring hseq htake

/-- What an entry in order does, the machine does of the command that it names, behind the entry. -/
theorem commandConsume_runs (hfirst : s.eng.mirrorFirst = false) {i : Instr} {run : Engine → Engine} (hexec : ∀ u : State, exec i u = .next (u.onEng run))
    (hrun : ∀ x : Engine, x.runEntry (s.eng.entryBytes c.bytes) = run x) :
    ∃ t, exec .commandConsume s = .next t ∧ s.engineOnly t ∧ exec i { s with eng := s.eng.consumed rest } = .next t := by
  have hconsume : s.eng.consume = run (s.eng.consumed rest) := by
    rw [Engine.consume_next hfront hring hseq htake, Engine.noteCommand_leftIn hfirst, hrun]
  refine ⟨_, exec_commandConsume s, s.onEng_engineOnly _, (hexec _).trans ?_⟩
  exact congrArg (fun e => Host.Outcome.next { s with eng := e }) hconsume.symm

end

/-- Settles O20: an entry in order leaves CMD_IN, is counted or sent to be counted, and runs as the command of its code; one out of order stops CMD. -/
theorem commandsConsumed : Obligations.CommandsConsumed := by
  unfold Obligations.CommandsConsumed
  refine ⟨?nop, ?jobClose, ?feed, ?streamStop, ?mode, ?paired, ?mismatch⟩
  case nop =>
    intro c rest s hfront hring hseq htake hfirst hcode
    exact commandConsume_runs hfront hring hseq htake hfirst (fun _ => rfl) fun x => x.runEntry_nop hcode
  case jobClose =>
    intro c rest s hfront hring hseq htake hfirst hcode
    exact commandConsume_runs hfront hring hseq htake hfirst (fun _ => rfl) fun x => x.runEntry_jobClose hcode
  case feed =>
    intro c rest s hfront hring hseq htake hfirst hcode
    exact commandConsume_runs hfront hring hseq htake hfirst (exec_feed _ _ _) fun x => x.runEntry_feed hcode
  case streamStop =>
    intro c rest s hfront hring hseq htake hfirst hcode
    exact commandConsume_runs hfront hring hseq htake hfirst (fun _ => rfl) fun x => x.runEntry_streamStop hcode
  case mode =>
    intro c rest s hfront hring hseq htake hfirst hcode
    exact commandConsume_runs hfront hring hseq htake hfirst (fun _ => rfl) fun x => x.runEntry_mode hcode
  case paired =>
    intro c rest s hfront hring hseq htake hfirst hcode _
    refine ⟨_, exec_commandConsume s, s.onEng_engineOnly _, ?_⟩
    rw [State.onEng_eng, Engine.consume_next hfront hring hseq htake, Engine.runEntry_nop _ hcode]
    have hsame : (s.eng.leftIn rest).mirrorFirst = true := (congrArg Engine.mirrorFirst (s.eng.leftIn_onlyRegs rest).1 :).trans hfirst
    have hleft := Engine.onlyBooks_of_onlyRegs (s.eng.leftIn_onlyRegs rest)
    have hbooks := Engine.onlyBooks_trans hleft (Engine.onlyBooks_trans (Engine.noteCommand_books hsame (Engine.entryHdr (s.eng.entryBytes c.bytes) [])
      (leAt (s.eng.entryBytes c.bytes) 0 1) _) (Engine.cmdNop_books _ (Engine.entryHdr (s.eng.entryBytes c.bytes) []) _))
    have hcmdIn := (congrArg Engine.cmdIn hbooks.1 :)
    refine ⟨Engine.onlyBooks_rd hbooks (not_bookReg_cmdRing (by decide) (by decide)) (by decide),
      Engine.onlyBooks_rd hbooks (not_bookReg_cmdRing (by decide) (by decide)) (by decide), ?_, hcmdIn, ?_⟩
    · rw [Engine.cmdNop_uncounted, Engine.noteCommand_uncounted hsame]
      exact congrArg (· + 1) (Engine.uncounted_congr (congrArg Engine.pair (s.eng.leftIn_onlyRegs rest).1 :))
    · rw [hcmdIn]
      exact hbooks
  case mismatch =>
    intro c rest s hfront hring hseq hhears
    refine ⟨_, exec_commandConsume s, s.onEng_engineOnly _, ?_⟩
    rw [State.onEng_eng, Engine.consume_mismatch hfront (.inl hring) hseq]
    exact Engine.seqStop_cmd_spec hhears (leAt_lt _ _ _)

end Sys2Proof.Machine
end

section
/-!
PROOFS. MARK, FILL, COMPARE and MET_QUERY (R262, R283, R284, R312): the answer to an index that has passed, the work queued for the DMA engine, a query asked at
once or behind others.
-/

namespace Sys2Proof.Machine

namespace Engine

/-! ### The bytes of an answer (R268) -/

/-- A command that completes as it is consumed is told with its TAG, its code and its result. -/
theorem complete_toldBytes {e : Engine} (hr : e.resetting = none) (hf : e.pins.failed = false) (h : CmdHdr) (code st : Nat) (r : List LayField) :
    (e.complete h code st r).toldBytes ([(24, 8, h.tag.toNat), (32, 1, code)] ++ r) := by
  obtain ⟨v, hlast, -, -, -, -, -, hpayload, -⟩ := emitBk_last (e.openCmd h code .built) hr hf 0x01 0 st 0 (some h.hseq.toNat)
    ([(24, 8, h.tag.toNat), (32, 1, code)] ++ r) (.cmd h.hseq.toNat st code)
  unfold complete cmdDone toldBytes
  rw [hlast, ← hpayload]
  rfl

/-! ### MARK (R262) -/

section
variable {e : Engine} {h : CmdHdr} {index : Nat} (ha : e.accepts h 0x10 [6, 7, 8]) (hopen : e.job.isOpen = true)
include ha hopen

theorem cmdMark_passed (hpassed : index < e.mot.kept) :
    e.cmdMark h index = e.complete h 0x10 stOk [(40, 6, e.mot.kept - 1), (48, 8, e.mot.lastKeptTime)] := by
  unfold cmdMark
  rw [command_accepts ha]
  simp [hopen, hpassed]

theorem cmdMark_toCome (hcomes : e.mot.kept ≤ index) (hended : e.job.ended = false) (hclosing : e.job.closing = false) :
    e.cmdMark h index = e.openCmd h 0x10 (.mark index) := by
  unfold cmdMark
  rw [command_accepts ha]
  simp [hopen, Nat.not_lt.mpr hcomes, hended, hclosing]

end

/-! ### FILL and COMPARE (R283, R284) -/

/-- Work joins that of the DMA command channel. -/
def workQueued (e : Engine) (w : DmaWork) : Engine := { e with dma := { e.dma with work := e.dma.work ++ [w] } }

theorem cmdFill_eq {e : Engine} {h : CmdHdr} (ha : e.accepts h 0x11 [3, 4, 5, 6, 7, 8, 9, 11]) (addr : Nat) {len : Nat} (hlen : 1 ≤ len) (pattern : Nat)
    {width : Nat} (hwidth : (width == 1 || width == 2 || width == 4) = true) : e.cmdFill h addr len pattern width =
      (e.workQueued (.fill h.hseq.toNat addr len pattern width 0 false)).openCmd h 0x11 .fill := by
  unfold cmdFill
  rw [hwidth, decide_eq_true hlen]
  exact command_accepts ha _

section
variable {e : Engine} {h : CmdHdr} {sa len : Nat} (ha : e.accepts h 0x12 [3, 4, 5, 6, 7, 8, 9, 11]) (hfits : sa + len ≤ e.capacity)
include ha hfits

theorem cmdCompare_bytes (addr : Nat) (hlen : len ≠ 0) : e.cmdCompare h addr sa len =
    (e.workQueued (.compare h.hseq.toNat addr sa len 0 0 [] none 0 0 false)).openCmd h 0x12 .compare :=
  (command_accepts ha _).trans ((if_neg (Nat.not_lt.mpr hfits)).trans (if_neg hlen))

theorem cmdCompare_nothing (addr : Nat) (hlen : len = 0) : e.cmdCompare h addr sa len = e.complete h 0x12 stOk (compareResult none 0) :=
  (command_accepts ha _).trans ((if_neg (Nat.not_lt.mpr hfits)).trans (if_pos hlen))

end

/-! ### MET_QUERY (R312) -/

theorem cmdMetQuery_eq {e : Engine} {h : CmdHdr} (ha : e.accepts h 0x13 [3, 4, 5, 6, 7, 8, 9, 11]) {query : Nat} (hquery : query ≤ 4) (arg : Nat) :
    e.cmdMetQuery h query arg = (e.openCmd h 0x13 .metQuery).addQuery ⟨some h.hseq.toNat, query, arg⟩ := by
  unfold cmdMetQuery
  rw [decide_eq_true hquery]
  exact command_accepts ha _

/-- A query that finds none asked and none waiting is sent to the section. -/
def queryAsked (e : Engine) (q : MetQuery) : Engine :=
  { e with
    met := { e.met with cmd := e.met.cmd ++ [.query e.mets.nextId q.kind q.arg] }
    mets := { e.mets with queries := [q], asked := some (e.mets.nextId, e.now), nextId := e.mets.nextId + 1 } }

/-- A query that finds one asked waits behind the others. -/
def queryWaits (e : Engine) (q : MetQuery) : Engine := { e with mets := { e.mets with queries := e.mets.queries ++ [q] } }

theorem addQuery_asked {e : Engine} (hasked : e.mets.asked = none) (hnone : e.mets.queries = []) (q : MetQuery) : e.addQuery q = e.queryAsked q := by
  simp [addQuery, askNext, hasked, hnone, metSend, queryAsked]

theorem addQuery_waits {e : Engine} (hasked : e.mets.asked ≠ none) (q : MetQuery) : e.addQuery q = e.queryWaits q := by
  obtain ⟨a, ha⟩ := Option.ne_none_iff_exists'.mp hasked
  simp [addQuery, askNext, ha, queryWaits]

end Engine

/-! ### The commands -/

theorem exec_mark (h : CmdHdr) (index : BitVec 48) (s : State) : exec (.mark h index) s = .next (s.onEng fun e => e.cmdMark h index.toNat) := rfl

theorem exec_fill (h : CmdHdr) (addr : BitVec 64) (length pattern : Word) (width : Byte) (s : State) : exec (.fill h addr length pattern width) s =
    .next (s.onEng fun e => e.cmdFill h addr.toNat length.toNat pattern.toNat width.toNat) := rfl

theorem exec_compare (h : CmdHdr) (addr : BitVec 64) (sa length : Word) (s : State) : exec (.compare h addr sa length) s =
    .next (s.onEng fun e => e.cmdCompare h addr.toNat sa.toNat length.toNat) := rfl

theorem exec_metQuery (h : CmdHdr) (query : Byte) (arg : Word) (s : State) : exec (.metQuery h query arg) s =
    .next (s.onEng fun e => e.cmdMetQuery h query.toNat arg.toNat) := rfl

/-- Settles O6: each command is one change of the engine, then the answer or the opening of the command. -/
theorem markFillCompareQuery : Obligations.MarkFillCompareQuery := by
  unfold Obligations.MarkFillCompareQuery
  refine ⟨?markPassed, ?markToCome, ?fill, ?compare, ?compareNothing, ?queryAsked, ?queryWaits⟩
  case markPassed =>
    intro h index s ha hopen hpassed
    refine ⟨_, exec_mark h index s, s.onEng_engineOnly _, ?_⟩
    rw [State.onEng_eng, Engine.cmdMark_passed ha hopen hpassed]
    have hawake := Engine.canTake_resetting ha.1.1
    exact ⟨Engine.complete_answered s.eng hawake ha.1.2 h 0x10 stOk _, Engine.complete_toldBytes hawake ha.1.2 h 0x10 stOk _, Engine.complete_books ..⟩
  case markToCome =>
    intro h index s ha hopen hcomes hended hclosing
    refine ⟨_, exec_mark h index s, s.onEng_engineOnly _, ?_⟩
    rw [State.onEng_eng, Engine.cmdMark_toCome ha hopen hcomes hended hclosing]
    exact ⟨Engine.mem_openCmd .., Engine.openCmd_books ..⟩
  case fill =>
    intro h addr length pattern width s ha hlen hwidth
    have hallowed : (width.toNat == 1 || width.toNat == 2 || width.toNat == 4) = true := by
      rcases hwidth with rfl | rfl | rfl <;> rfl
    refine ⟨_, exec_fill h addr length pattern width s, s.onEng_engineOnly _, ?_⟩
    rw [State.onEng_eng, Engine.cmdFill_eq ha _ hlen _ hallowed]
    exact ⟨Engine.mem_openCmd .., Engine.openCmd_books (s.eng.workQueued _) ..⟩
  case compare =>
    intro h addr sa length s ha hfits hlen
    refine ⟨_, exec_compare h addr sa length s, s.onEng_engineOnly _, ?_⟩
    rw [State.onEng_eng, Engine.cmdCompare_bytes ha hfits _ fun hzero => hlen (BitVec.eq_of_toNat_eq hzero)]
    exact ⟨Engine.mem_openCmd .., Engine.openCmd_books (s.eng.workQueued _) ..⟩
  case compareNothing =>
    rintro h addr sa _ s ha hfits rfl
    refine ⟨_, exec_compare h addr sa 0 s, s.onEng_engineOnly _, ?_⟩
    rw [State.onEng_eng, Engine.cmdCompare_nothing ha hfits _ rfl]
    exact ⟨Engine.complete_answered s.eng (Engine.canTake_resetting ha.1.1) ha.1.2 h 0x12 stOk _, Engine.complete_books ..⟩
  case queryAsked =>
    intro h query arg s ha hquery hasked hnone
    refine ⟨_, exec_metQuery h query arg s, s.onEng_engineOnly _, ?_⟩
    rw [State.onEng_eng, Engine.cmdMetQuery_eq ha hquery, Engine.addQuery_asked (e := s.eng.openCmd h 0x13 .metQuery) hasked hnone]
    exact ⟨s.eng.mem_openCmd h 0x13 .metQuery,
      Engine.onlyBooks_map (s.eng.openCmd_books h 0x13 .metQuery []) (f := fun y => y.queryAsked _) fun _ _ _ _ _ => rfl⟩
  case queryWaits =>
    intro h query arg s ha hquery hasked
    refine ⟨_, exec_metQuery h query arg s, s.onEng_engineOnly _, ?_⟩
    rw [State.onEng_eng, Engine.cmdMetQuery_eq ha hquery, Engine.addQuery_waits (e := s.eng.openCmd h 0x13 .metQuery) hasked]
    exact ⟨s.eng.mem_openCmd h 0x13 .metQuery,
      Engine.onlyBooks_map (s.eng.openCmd_books h 0x13 .metQuery []) (f := fun y => y.queryWaits _) fun _ _ _ _ _ => rfl⟩

end Sys2Proof.Machine
end

section
/-!
PROOFS. STREAM_STOP with WHEN NOW (R262, R276, R279): the read-back that proves the last byte written, where no read may go out.
-/

namespace Sys2Proof.Machine

/-- Stream 0 runs in M7, and 8 bytes of its first line have gone into buffer 0 at host address 4096; the host has taken Bus Master Enable away. -/
def cutUnread : State :=
  let line : StageLine := ⟨List.replicate 16 0, 0, 1, true, false, false, false, true, 0, 0⟩
  let b : Buf := ⟨0, 7, 4096, 4096, 0, false, false, [], none, true, false, false, false, false, .writing, false⟩
  { State.reset with eng := { Engine.reset with
      mode := .m7
      streams := modAt Engine.reset.streams 0 fun x => { x with running := true, joined := true, stage := [line], sent := 8, bufs := [b] } } }

/-- The header of the command. -/
def cutHdr : CmdHdr := ⟨5#32, 9#64, true⟩

/-- The DMA engine then owes the read-back of buffer 0, of the DW that holds the last byte written. -/
theorem cutUnread_owes : cutUnread.eng.dma.owed = [] ∧ (cutUnread.eng.cmdStreamStop cutHdr 0 1).dma.owed = [(0, 0, 4100)] := by
  decide +kernel

theorem streamStop_eng {h : CmdHdr} {stream whn : Byte} {s t : State} (ht : exec (.streamStop h stream whn) s = .next t) :
    t.eng = s.eng.cmdStreamStop h stream.toNat whn.toNat := by
  cases ht
  rfl

/-- Refutes O3: the clause of WHEN NOW holds the DMA engine as it was; the read-back of the last byte written is issued at once only where a read may go out,
and is else owed in the DMA engine. -/
theorem not_streamCommands : ¬ Obligations.StreamCommands := by
  unfold Obligations.StreamCommands
  rintro ⟨-, -, -, hnow, -⟩
  obtain ⟨t, hexec, -, -, -, hframe⟩ := hnow cutHdr 0 1 cutUnread (by decide +kernel) (by decide) rfl (by decide +kernel) (by decide +kernel)
  have hdma : t.eng.dma = cutUnread.eng.dma := by rw [hframe]
  obtain ⟨hnone, howed⟩ := cutUnread_owes
  rw [streamStop_eng hexec] at hdma
  have hsame := congrArg DmaSt.owed hdma
  rw [hnone] at hsame
  exact List.cons_ne_nil _ _ (howed.symm.trans hsame)

end Sys2Proof.Machine
end

section
/-!
PROOFS. The commands of the job (R186, R187, R246, R262): a job that opens, one that is to close with its fades, STOP, SQUALL, NOP and STATUS_SYNC.
-/

namespace Sys2Proof.Machine

namespace Engine

/-! ### Commands that stay open through the answers to others -/

section
variable {c : OpenCmd} (hc : c.wait ≠ .built)
include hc

/-- The answer to one command closes no other that still waits. -/
theorem mem_finish_opens {e : Engine} {d : OpenCmd} (hd : c ≠ d) (st : Nat) (r : List LayField) (he : c ∈ e.opens) : c ∈ (e.finish d st r).opens :=
  mem_emitBk_opens (e := { e with opens := markBuilt d e.opens }) hc _ _ _ _ _ _ _ (mem_markBuilt hd he)

/-- Answering every command that waits for something of a kind closes none that waits for something else. -/
theorem mem_finishAll_opens {e : Engine} {p : Wait → Bool} (hp : p c.wait = false) (st : Nat) (r : List LayField) (he : c ∈ e.opens) :
    c ∈ (e.finishAll p st r).opens := by
  unfold finishAll
  have hothers : ∀ d ∈ e.opens.filter (fun d => p d.wait), c ≠ d := by
    rintro d hd rfl
    simp [hp] at hd
  generalize e.opens.filter (fun d => p d.wait) = l at hothers
  induction l generalizing e with
  | nil => exact he
  | cons d t ih =>
    obtain ⟨hne, hrest⟩ := List.forall_mem_cons.mp hothers
    exact ih (mem_finish_opens hc hne st r he) hrest

end

/-! ### Modes of a row -/

theorem mode_of_modeIn_m6 {e : Engine} (h : e.modeIn [6] = true) : e.mode = .m6 := by
  unfold modeIn at h
  cases hmode : e.mode <;> simp [hmode, Mode.idx] at h ⊢

theorem modeIn_below_m9 {e : Engine} (h : e.modeIn [6, 7, 8, 9] = true) (h9 : e.mode ≠ .m9) : e.modeIn [6, 7, 8] = true := by
  unfold modeIn at h ⊢
  cases hmode : e.mode <;> simp [hmode, Mode.idx] at h h9 ⊢

/-! ### JOB_OPEN (R12, R37, R262) -/

/-- An engine without its registers, what answers change, and what a job brings up afresh along the lines: timing generators, frames, units, channels,
fades and windows, eddy buffers, calibration, detectors, monitors. -/
def beyondOpening (e : Engine) : Engine :=
  { e with regs := [], evt := Engine.reset.evt, opens := [], pair := PairSt.init, tg := [], frames := [], gus := [], chans := [], shd := ShdSt.init,
           eddy := [], cal := CalSt.init, geo := [], mon := [] }

theorem beyondOpening_wr (e : Engine) (f : Fld) (v : Nat) : (e.wr f v).beyondOpening = e.beyondOpening := rfl

theorem beyondOpening_resetEddy (e : Engine) (s : Nat) : (e.resetEddy s).beyondOpening = e.beyondOpening := rfl

theorem beyondOpening_recalc (e : Engine) : e.recalcCap.recalcBpm.beyondOpening = e.beyondOpening := rfl

theorem beyondOpening_loadOffsets (e : Engine) (s : Nat) : (e.loadOffsets s).beyondOpening = e.beyondOpening := by
  unfold loadOffsets
  refine foldl_keep beyondOpening _ (fun x a => ?_) _ e
  obtain ⟨_ | d, r⟩ := a <;> rfl

theorem beyondOpening_writeTable (e : Engine) (g : Nat) (y : Bool) (kernel step : Nat) : (e.writeTable g y kernel step).beyondOpening = e.beyondOpening := by
  unfold writeTable
  split
  · rfl
  · refine foldl_keep beyondOpening _ (fun x p => ?_) _ e
    refine foldl_keep beyondOpening _ ?_ _ x
    exact fun _ _ => rfl

theorem beyondOpening_writeTables (e : Engine) : e.writeTables.beyondOpening = e.beyondOpening := by
  unfold writeTables
  refine foldl_keep beyondOpening _ (fun x g => ?_) _ e
  split
  · rw [beyondOpening_writeTable, beyondOpening_writeTable]
  · rfl

theorem beyondOpening_resetMonitors (e : Engine) : e.resetMonitors.beyondOpening = e.beyondOpening := by
  unfold resetMonitors
  refine foldl_keep beyondOpening _ ?_ _ e
  exact fun _ _ => rfl

theorem beyondOpening_of_books {e x : Engine} {offs : List Nat} (h : e.onlyBooks x offs) : x.beyondOpening = e.beyondOpening := by
  rw [h.1]
  rfl

/-- A new job: no trigger kept, nothing fed, the pacer in a state. -/
def jobBegun (e : Engine) (jobId : Nat) (st : PacState) : Engine :=
  { e with
    job := { JobSt.init with isOpen := true, id := jobId }
    mot := { MotionSt.init with maxPosTime := e.now, dirs := e.mot.dirs }
    pac := { PacerSt.init with vovr := e.rd R.PAC_VJOB.V, st := st }
    feed := FeedSt.init }

/-- Beside what it brings up along the lines, opening a job sets job, motion, pacer and feed (R37, R262). -/
theorem openJob_begins (e : Engine) (jobId : Nat) : (e.openJob jobId).beyondOpening = (e.jobBegun jobId .idle).beyondOpening := by
  unfold openJob
  dsimp only
  rw [beyondOpening_wr, beyondOpening_recalc, beyondOpening_resetMonitors, beyondOpening_writeTables, beyondOpening_loadOffsets, beyondOpening_loadOffsets,
    beyondOpening_resetEddy, beyondOpening_resetEddy]
  refine (foldl_keep beyondOpening _ ?_ _ _).trans ?_
  · exact fun _ _ => rfl
  · rfl

/-- A job that starts to run differs from it in mode and pacer. -/
theorem startRun_begins {x y : Engine} (h6 : y.mode = .m6) (h : x.beyondOpening = y.beyondOpening) : (x.startRun none).beyondOpening =
    ({ y with mode := .m7, pac := { y.pac with st := .run } } : Engine).beyondOpening := by
  have hmode : x.mode = .m6 := (congrArg Engine.mode h :).trans h6
  rw [beyondOpening_of_books (startRun_books hmode)]
  exact congrArg (fun z : Engine => { z with mode := .m7, pac := { z.pac with st := .run } }) h

/-- The job that JOB_OPEN opens, running or not. -/
def jobOpened (e : Engine) (jobId : Nat) (run : Bool) : Engine := if run then (e.openJob jobId).startRun none else e.openJob jobId

theorem jobOpened_begins {e : Engine} (h6 : e.mode = .m6) (jobId : Nat) (run : Bool) : (e.jobOpened jobId run).beyondOpening =
    ({ e.jobBegun jobId (if run then .run else .idle) with mode := if run then .m7 else .m6 } : Engine).beyondOpening := by
  have hbegins := e.openJob_begins jobId
  unfold jobOpened
  generalize e.openJob jobId = x at hbegins ⊢
  cases run
  · rw [← h6]
    exact hbegins
  · exact startRun_begins (y := e.jobBegun jobId .idle) h6 hbegins

theorem cmdJobOpen_eq {e : Engine} {h : CmdHdr} (ha : e.accepts h 0x02 [6]) (hclosed : e.job.isOpen = false) (hfilled : e.bookFilled = 0)
    (hflight : e.bookFlight = 0) (hgood : e.jobBad = false) (jobId : Nat) (run : Bool) : e.cmdJobOpen h jobId run =
      (e.jobOpened jobId run).complete h 0x02 stOk
        [(40, 4, (e.openJob jobId).rd R.RSM_STATUS.CAP), (44, 4, (e.openJob jobId).rd R.PAC_VCEIL.V)] := by
  unfold cmdJobOpen
  rw [command_accepts ha, if_neg (by simp [hclosed, hfilled, hflight]), if_neg (by simp [hgood])]
  rfl

theorem eq_of_beyondOpening {e x : Engine} (h : x.beyondOpening = e.beyondOpening) : x =
    { x with trans := e.trans, pins := e.pins, flash := e.flash, link := e.link, cmdIn := e.cmdIn, rings := e.rings, status := e.status, streams := e.streams, dma := e.dma, qdr := e.qdr, afe := e.afe, met := e.met, mets := e.mets } := by
  cases e
  cases x
  simp only [beyondOpening, Engine.mk.injEq] at h ⊢
  simp only [h, and_self]

/-! ### JOB_CLOSE (R182, R262) -/

/-- An engine without its registers, what answers change, its fades and its calibration. -/
def beyondClosing (e : Engine) : Engine :=
  { e with regs := [], evt := Engine.reset.evt, opens := [], pair := PairSt.init, shd := ShdSt.init, cal := CalSt.init }

theorem beyondClosing_of_books {e x : Engine} {offs : List Nat} (h : e.onlyBooks x offs) : x.beyondClosing = e.beyondClosing := by
  rw [h.1]
  rfl

theorem beyondClosing_gapAbandon (e : Engine) : e.gapAbandon.beyondClosing = e.beyondClosing := by
  rw [e.gapAbandon_onlyRegs.1]
  rfl

theorem beyondClosing_dropFades (e : Engine) : e.dropFades.beyondClosing = e.beyondClosing := by
  obtain ⟨y, hy, hbeyond⟩ := e.dropFades_cases
  change e.dropFades.beyondFades.beyondClosing = e.beyondClosing
  rw [hbeyond]
  change y.beyondClosing = e.beyondClosing
  rcases hy with rfl | ⟨w, rfl⟩
  · rfl
  · exact beyondClosing_of_books (emit_books e _ _ _ _ _ _ [])

/-- The job is to close: nothing is left to feed, its fades have ended. -/
def closingNoted (e : Engine) : Engine := ((({ e with job := { e.job with closing := true } } : Engine).clearFeed).gapAbandon).dropFades

/-- A gap calibration given up and fades that end leave the job closing and nothing to feed. -/
theorem closingNoted_only (e : Engine) : e.closingNoted.beyondClosing =
    ({ e with job := { e.job with closing := true }, feed := e.clearFeed.feed } : Engine).beyondClosing := by
  unfold closingNoted
  rw [beyondClosing_dropFades, beyondClosing_gapAbandon]
  rfl

/-- Waits that the closing of a job ends beside those of swaps and of gap calibrations (R262). -/
def closeEnds : Wait → Bool
  | .mark _ => true
  | .holdRest _ => true
  | .resumed _ => true
  | _ => false

theorem jobCheck_linesGoOn {e : Engine} (h : e.job.ended = false) : e.jobCheck = e := by
  simp [jobCheck, drainJob, h]

/-- While the lines of the job go on, only commands are answered. -/
theorem closeCmds_linesGoOn {e : Engine} (hclosing : e.job.closing = true) (hended : e.job.ended = false) (d : ShdSt) :
    e.closeCmds d = (e.fadesDone d).abortCalGap.finishAll closeEnds stAborted [] := by
  have hanswers : e.onlyBooks ((e.fadesDone d).abortCalGap.finishAll closeEnds stAborted []) [] :=
    onlyBooks_trans (onlyBooks_trans (fadesDone_books ..) (finishAll_books ..)) (finishAll_books ..)
  have hgoes : ((e.fadesDone d).abortCalGap.finishAll closeEnds stAborted []).job.ended = false := by
    rw [hanswers.1]
    exact hended
  unfold closeCmds
  rw [hclosing]
  exact jobCheck_linesGoOn hgoes

section
variable {e : Engine} (h7 : e.mode = .m7) (hended : e.job.ended = false) (hsquall : e.squall = none) (hrun : e.pac.st = .run)
include h7 hended hsquall hrun

/-- In M7 with the pacer in RUN AX0 begins to stop. -/
theorem closeJob_run : e.closeJob =
    (((e.closingNoted.setPac .stopping).fadesDone e.shd).abortCalGap).finishAll closeEnds stAborted [] := by
  have hnoted := e.closingNoted_only
  have hmode : e.closingNoted.mode = .m7 := (congrArg Engine.mode hnoted :).trans h7
  have hpac : e.closingNoted.pac.st = .run := (congrArg (fun x : Engine => x.pac.st) hnoted :).trans hrun
  have hfree : e.closingNoted.squall = none := (congrArg Engine.squall hnoted :).trans hsquall
  have hclosing : e.closingNoted.job.closing = true := (congrArg (fun x : Engine => x.job.closing) hnoted :)
  have hgoes : e.closingNoted.job.ended = false := (congrArg (fun x : Engine => x.job.ended) hnoted :).trans hended
  have hmotion : e.closingNoted.closeMotion = e.closingNoted.setPac .stopping := by
    unfold closeMotion
    simp [hmode, hpac, hfree]
  change e.closingNoted.closeMotion.closeCmds e.shd = _
  rw [hmotion]
  exact closeCmds_linesGoOn (e := e.closingNoted.setPac .stopping) hclosing hgoes e.shd

/-- Beside fades and calibration the closing changes job, pacer and feed. -/
theorem closeJob_only : e.closeJob.beyondClosing =
    ({ e with job := { e.job with closing := true }, feed := e.clearFeed.feed, pac := { e.pac with st := .stopping } } : Engine).beyondClosing := by
  rw [closeJob_run h7 hended hsquall hrun, beyondClosing_of_books (finishAll_books _ _ _ _ []), abortCalGap,
    beyondClosing_of_books (finishAll_books _ _ _ _ []), beyondClosing_of_books (fadesDone_books _ _ [])]
  exact congrArg (fun x => x.setPac .stopping) e.closingNoted_only

/-- A command that waits for none of what the closing ends stays open. -/
theorem mem_closeJob_opens {c : OpenCmd} (hc : c.wait ≠ .built) (hcal : c.wait ≠ .calGap) (hends : closeEnds c.wait = false)
    (hfade : e.shd.fade.map SwapSt.hseq ≠ some c.hseq) (hqueued : e.shd.queued.map SwapSt.hseq ≠ some c.hseq) (he : c ∈ e.opens) :
    c ∈ e.closeJob.opens := by
  rw [closeJob_run h7 hended hsquall hrun]
  have hfades : c ∈ ((e.closingNoted.setPac .stopping).fadesDone e.shd).opens := by
    refine mem_fadesDone_opens hc hfade hqueued (mem_dropFades_opens hc ?_)
    rw [gapAbandon_opens]
    exact he
  exact mem_finishAll_opens hc hends _ _ (mem_finishAll_opens (p := fun w => w == .calGap) hc (beq_false_of_ne hcal) _ _ hfades)

end

theorem cmdJobClose_eq {e : Engine} {h : CmdHdr} (ha : e.accepts h 0x03 [6, 7, 8, 9]) (hopen : e.job.isOpen = true) (hclosing : e.job.closing = false) :
    e.cmdJobClose h = (e.openCmd h 0x03 .jobClose).closeJob := by
  unfold cmdJobClose
  rw [command_accepts ha, if_neg (by simp [hopen, hclosing])]

theorem eq_of_beyondClosing {e x : Engine} (h : x.beyondClosing = e.beyondClosing) : x =
    { x with trans := e.trans, pins := e.pins, flash := e.flash, link := e.link, cmdIn := e.cmdIn, rings := e.rings, status := e.status, streams := e.streams, dma := e.dma, tg := e.tg, mot := e.mot, frames := e.frames, gus := e.gus, qdr := e.qdr, afe := e.afe, chans := e.chans, eddy := e.eddy, geo := e.geo, mon := e.mon, met := e.met, mets := e.mets } := by
  cases e
  cases x
  simp only [beyondClosing, Engine.mk.injEq] at h ⊢
  simp only [h, and_self]

/-! ### STOP (R186) -/

theorem cmdStop_run {e : Engine} {h : CmdHdr} (ha : e.accepts h 0x07 [7, 8]) (hsquall : e.squall = none) (hrun : e.pac.st = .run) :
    e.cmdStop h = (e.clearFeed.gapAbandon.openCmd h 0x07 .stopRest).setPac .stopping := by
  unfold cmdStop
  rw [command_accepts ha]
  simp [hsquall, hrun]

/-- STOP changes pacer, feed and a running gap calibration. -/
theorem stopBegun_books (e : Engine) (h : CmdHdr) :
    ({ e with pac := { e.pac with st := .stopping }, feed := e.clearFeed.feed, cal := e.clearFeed.gapAbandon.cal } : Engine).onlyBooks
      ((e.clearFeed.gapAbandon.openCmd h 0x07 .stopRest).setPac .stopping) gapOffs :=
  onlyBooks_map (onlyBooks_trans (onlyBooks_of_onlyRegs e.clearFeed.gapAbandon_onlyRegs) (openCmd_books _ h 0x07 .stopRest _))
    (f := fun y => y.setPac .stopping) fun _ _ _ _ _ => rfl

/-! ### SQUALL (R187) -/

theorem cmdSquall_runs {e : Engine} {h : CmdHdr} (ha : e.accepts h 0x08 [6, 7, 8, 9]) (h9 : e.mode ≠ .m9) :
    e.cmdSquall h = (e.requestSquall 0 0).openCmd h 0x08 .squallRest := by
  unfold cmdSquall
  rw [command_accepts ha, if_neg h9]

theorem cmdSquall_m9 {e : Engine} {h : CmdHdr} (ha : e.accepts h 0x08 [6, 7, 8, 9]) (h9 : e.mode = .m9) : e.cmdSquall h = e.complete h 0x08 stOk [] := by
  unfold cmdSquall
  rw [command_accepts ha, if_pos h9]

/-- Once the Squall has begun, only mode changes and commands end with it. -/
theorem requestSquall_begun {e : Engine} (hr : e.resetting = none) (hsquall : e.squall = none) (hmode : e.modeIn [6, 7, 8] = true) (cause d : Nat) :
    ({ e.squallBegun cause d with trans := ⟨none, none, [], none, false, none⟩ } : Engine).onlyBooks (e.requestSquall cause d) [] := by
  obtain ⟨hbusy, -⟩ | ⟨-, hother, -⟩ | ⟨-, -, h⟩ := requestSquall_cases e cause d
  · simp [hr, hsquall] at hbusy
  · simp [hmode] at hother
  · rw [h]
    have habort : ({ e.squallBegun cause d with trans := ⟨none, none, [], none, false, none⟩ } : Engine).onlyBooks (e.squallBegun cause d).abortModes [] := by
      unfold abortModes
      exact finishAll_books ..
    exact onlyBooks_trans habort (onlyBooks_trans (finishAll_books ..) (finishAll_books ..))

theorem requestSquall_sets {e : Engine} (hr : e.resetting = none) (hsquall : e.squall = none) (hmode : e.modeIn [6, 7, 8] = true) (cause d : Nat) :
    (e.requestSquall cause d).squall = some ⟨cause, e.vMicron, d, [], false, 0, false⟩ ∧
    (e.requestSquall cause d).pac = { e.pac with st := .squall, causes := 0, holdLull := false, holdGap := false, exitSince := none } ∧
    (e.requestSquall cause d).feed = e.clearFeed.feed := by
  rw [(requestSquall_begun hr hsquall hmode cause d).1]
  unfold squallBegun
  rw [e.gapAbandon_onlyRegs.1]
  exact ⟨rfl, rfl, rfl⟩

theorem not_bookReg_squallCount : ¬ bookReg R.PAC_SQUALL_CNT.V.off := by
  unfold bookReg
  rintro (h | h | h | h | h | h | ⟨k, j, h⟩ | ⟨k, j, h⟩ | ⟨r, h⟩)
  all_goals
    dsimp only at h
    omega

/-- The Squall is counted. -/
theorem requestSquall_counted {e : Engine} (hr : e.resetting = none) (hsquall : e.squall = none) (hmode : e.modeIn [6, 7, 8] = true) (cause d : Nat) :
    (e.requestSquall cause d).rd R.PAC_SQUALL_CNT.V = min (2 ^ 32 - 1) (e.rd R.PAC_SQUALL_CNT.V + 1) := by
  have hbegun : (e.requestSquall cause d).rd R.PAC_SQUALL_CNT.V = (e.squallBegun cause d).rd R.PAC_SQUALL_CNT.V :=
    onlyBooks_rd (requestSquall_begun hr hsquall hmode cause d) not_bookReg_squallCount (by simp)
  have hbefore : e.gapAbandon.rd R.PAC_SQUALL_CNT.V = e.rd R.PAC_SQUALL_CNT.V := onlyRegs_rd e.gapAbandon_onlyRegs (by decide)
  rw [hbegun, ← hbefore]
  exact rd_count_same _ ⟨by decide, by decide⟩ 1

/-! ### NOP and STATUS_SYNC (R246, R262) -/

theorem cmdNop_accepted {e : Engine} {h : CmdHdr} (ha : e.accepts h 0x01 [2, 3, 4, 5, 6, 7, 8, 9, 10, 11]) : e.cmdNop h = e.complete h 0x01 stOk [] :=
  command_accepts ha _

/-- The status block waits for an event. -/
def syncAwaits (e : Engine) (dseq : Nat) : Engine := { e with status := { e.status with syncDue := some dseq } }

theorem syncAwaits_books {e x : Engine} {offs : List Nat} (h : e.onlyBooks x offs) (dseq : Nat) :
    (e.syncAwaits dseq).onlyBooks (x.syncAwaits dseq) offs := onlyBooks_map h (f := fun y => y.syncAwaits dseq) fun _ _ _ _ _ => rfl

theorem cmdStatusSync_accepted {e : Engine} {h : CmdHdr} (ha : e.accepts h 0x16 [2, 3, 4, 5, 6, 7, 8, 9, 10, 11]) :
    e.cmdStatusSync h = (e.complete h 0x16 stOk []).syncAwaits (e.complete h 0x16 stOk []).evt.dseq :=
  command_accepts ha _

end Engine

/-! ### The commands -/

theorem exec_nop (h : CmdHdr) (s : State) : exec (.nop h) s = .next (s.onEng fun e => e.cmdNop h) := rfl

theorem exec_statusSync (h : CmdHdr) (s : State) : exec (.statusSync h) s = .next (s.onEng fun e => e.cmdStatusSync h) := rfl

theorem exec_jobOpen (h : CmdHdr) (jobId : Word) (run : Bool) (s : State) : exec (.jobOpen h jobId run) s =
    .next (s.onEng fun e => e.cmdJobOpen h jobId.toNat run) := rfl

theorem exec_jobClose (h : CmdHdr) (s : State) : exec (.jobClose h) s = .next (s.onEng fun e => e.cmdJobClose h) := rfl

theorem exec_stop (h : CmdHdr) (s : State) : exec (.stop h) s = .next (s.onEng fun e => e.cmdStop h) := rfl

theorem exec_squall (h : CmdHdr) (s : State) : exec (.squall h) s = .next (s.onEng fun e => e.cmdSquall h) := rfl

/-- Settles O1: what each command changes is read off its frame; the answers to others change neither job nor pacer nor feed, and close none that waits. -/
theorem jobCommands : Obligations.JobCommands := by
  unfold Obligations.JobCommands
  refine ⟨?nop, ?statusSync, ?jobOpen, ?jobClose, ?stop, ?squall, ?squallInM9⟩
  case nop =>
    intro h s ha
    refine ⟨_, exec_nop h s, s.onEng_engineOnly _, ?_⟩
    rw [State.onEng_eng, Engine.cmdNop_accepted ha]
    exact ⟨s.eng.complete_answered (Engine.canTake_resetting ha.1.1) ha.1.2 h 0x01 stOk [], Engine.complete_books ..⟩
  case statusSync =>
    intro h s ha
    refine ⟨_, exec_statusSync h s, s.onEng_engineOnly _, ?_⟩
    rw [State.onEng_eng, Engine.cmdStatusSync_accepted ha]
    have hframe := Engine.syncAwaits_books (s.eng.complete_books h 0x16 stOk [] []) (s.eng.complete h 0x16 stOk []).evt.dseq
    have hstatus := (congrArg Engine.status hframe.1 :)
    refine ⟨s.eng.complete_answered (Engine.canTake_resetting ha.1.1) ha.1.2 h 0x16 stOk [], hstatus, ?_⟩
    rw [hstatus]
    exact hframe
  case jobOpen =>
    intro h jobId run s ha hclosed hfilled hflight hgood
    refine ⟨_, exec_jobOpen h jobId run s, s.onEng_engineOnly _, ?_⟩
    rw [State.onEng_eng, Engine.cmdJobOpen_eq ha hclosed hfilled hflight hgood]
    have h6 : s.eng.mode = .m6 := Engine.mode_of_modeIn_m6 ha.2.2.2
    have hbegins := Engine.jobOpened_begins h6 jobId.toNat run
    generalize s.eng.jobOpened jobId.toNat run = y at hbegins ⊢
    have hawake : y.resetting = none := (congrArg Engine.resetting hbegins :).trans (Engine.canTake_resetting (e := s.eng) ha.1.1)
    have hpower : y.pins.failed = false := (congrArg (fun x : Engine => x.pins.failed) hbegins :).trans ha.1.2
    refine ⟨y.complete_answered hawake hpower h 0x02 stOk _, ?_⟩
    generalize hx : y.complete h 0x02 stOk _ = x
    have hopened : x.beyondOpening = _ := (Engine.beyondOpening_of_books (hx ▸ y.complete_books h 0x02 stOk _ [])).trans hbegins
    refine ⟨(congrArg Engine.job hopened :), (congrArg Engine.mot hopened :), (congrArg Engine.feed hopened :), (congrArg Engine.mode hopened :),
      (congrArg (fun z : Engine => z.pac.st) hopened :), (Engine.eq_of_beyondOpening hopened :)⟩
  case jobClose =>
    intro h s ha h7 hopen hclosing hended hsquall hrun hfade hqueued
    refine ⟨_, exec_jobClose h s, s.onEng_engineOnly _, ?_⟩
    rw [State.onEng_eng, Engine.cmdJobClose_eq ha hopen hclosing]
    have hclosed := Engine.closeJob_only (e := s.eng.openCmd h 0x03 .jobClose) h7 hended hsquall hrun
    refine ⟨Engine.mem_closeJob_opens (e := s.eng.openCmd h 0x03 .jobClose) h7 hended hsquall hrun Wait.noConfusion Wait.noConfusion rfl hfade hqueued
      (s.eng.mem_openCmd h 0x03 .jobClose), ?_⟩
    generalize (s.eng.openCmd h 0x03 .jobClose).closeJob = x at hclosed ⊢
    exact ⟨(congrArg Engine.job hclosed :), (congrArg Engine.pac hclosed :), (congrArg Engine.feed hclosed :), (congrArg Engine.mode hclosed :).trans h7,
      (Engine.eq_of_beyondClosing hclosed :)⟩
  case stop =>
    intro h s ha hsquall hrun
    refine ⟨_, exec_stop h s, s.onEng_engineOnly _, ?_⟩
    rw [State.onEng_eng, Engine.cmdStop_run ha hsquall hrun]
    have hframe := s.eng.stopBegun_books h
    refine ⟨Engine.mem_openCmd .., ?_⟩
    generalize Engine.setPac _ .stopping = x at hframe ⊢
    obtain ⟨-, hpac, hfed, hcal⟩ := Engine.onlyBooks_blocksSet (e := s.eng) (m := s.eng.mode) hframe
    refine ⟨hpac, hfed, ?_⟩
    rw [hpac, hfed, hcal]
    exact hframe
  case squall =>
    intro h s ha h9 hsquall
    refine ⟨_, exec_squall h s, s.onEng_engineOnly _, ?_⟩
    rw [State.onEng_eng, Engine.cmdSquall_runs ha h9]
    have hr := Engine.canTake_resetting ha.1.1
    have hmode : s.eng.modeIn [6, 7, 8] = true := Engine.modeIn_below_m9 ha.2.2.2 h9
    obtain ⟨hset, hpac, hfeed⟩ := Engine.requestSquall_sets hr hsquall hmode 0 0
    refine ⟨Engine.mem_openCmd .., hset, hpac, hfeed, ?_, ?_⟩
    · rw [Engine.rd_openCmd _ _ _ _ (by decide)]
      exact Engine.requestSquall_counted hr hsquall hmode 0 0
    · exact Engine.onlySquall_trans (s.eng.requestSquall_onlySquall 0 0) (Engine.onlySquall_of_onlyBooks (Engine.openCmd_books ..))
  case squallInM9 =>
    intro h s ha h9
    refine ⟨_, exec_squall h s, s.onEng_engineOnly _, ?_⟩
    rw [State.onEng_eng, Engine.cmdSquall_m9 ha h9]
    exact ⟨s.eng.complete_answered (Engine.canTake_resetting ha.1.1) ha.1.2 h 0x08 stOk [], Engine.complete_books ..⟩

end Sys2Proof.Machine
end

section
/-!
PROOFS. What the section holds for the law (R287, R301, R305, R306, R309): its parameters, its keys, its audit counter and its records. Measuring leaves all of it
alone; acknowledging, sending and retransmitting change records alone; the service port acts with the seal open; a restart takes back what is stored.
-/

namespace Sys2Proof.Machine

/-! ### The legally relevant part -/

/-- The legally relevant part of the section: parameters in force and in flash, seal, keys, audit counter, the words of the map that set up the front end
(MET_VEX without FAULT), the highest MSEQ and the record store. -/
structure LegalPart where
  params : SecParams
  storedParams : SecParams
  stored : Sparse Word
  sealOpen : Bool
  keyGen : Nat
  audit : Nat
  vexEn : Nat
  vexLevel : Nat
  setup : Nat → Word
  mseq : Nat
  store : List SecRec

namespace Section

/-- A word of the map that sets up the front end and is no MET_VEX; any other reads 0 here. -/
def setupWord (x : Section) (off : Nat) : Word := if off < 0x200140 ∧ off ≠ R.MET_VEX.EN.off then x.word off else 0

def legalPart (x : Section) : LegalPart where
  params := x.params
  storedParams := x.storedParams
  stored := x.stored
  sealOpen := x.sealOpen
  keyGen := x.keyGen
  audit := x.audit
  vexEn := x.rd R.MET_VEX.EN
  vexLevel := x.rd R.MET_VEX.LEVEL
  setup := x.setupWord
  mseq := x.mseq
  store := x.store

theorem setupWord_of_setup {x : Section} {off : Nat} (hlow : off < 0x200140) (hvex : off ≠ R.MET_VEX.EN.off) : x.setupWord off = x.word off :=
  if_pos ⟨hlow, hvex⟩

/-! ### Registers that show outcomes -/

/-- Words from MET_FE_STAT on are outcomes. -/
theorem setWord_legalPart (x : Section) {off : Nat} (w : Word) (h : 0x200140 ≤ off) : (x.setWord off w).legalPart = x.legalPart := by
  have hne : ∀ k, k < 0x200140 → (x.setWord off w).word k = x.word k := fun k hk => word_setWord_ne x w (by omega)
  have hrd : ∀ f : Fld, f.off < 0x200140 → (x.setWord off w).rd f = x.rd f := fun f hf => congrArg f.get (hne f.off hf)
  have hsetup : (x.setWord off w).setupWord = x.setupWord := funext fun k => by
    by_cases hk : k < 0x200140 ∧ k ≠ R.MET_VEX.EN.off
    · simp only [setupWord, if_pos hk, hne k hk.1]
    · simp only [setupWord, if_neg hk]
  unfold legalPart
  rw [hrd R.MET_VEX.EN (by decide), hrd R.MET_VEX.LEVEL (by decide), hsetup]
  rfl

theorem wr_legalPart (x : Section) {f : Fld} (v : Nat) (h : 0x200140 ≤ f.off) : (x.wr f v).legalPart = x.legalPart := x.setWord_legalPart _ h

/-- FAULT of MET_VEX shows an outcome beside EN and LEVEL. -/
theorem wrVexFault_legalPart (x : Section) (v : Nat) : (x.wr R.MET_VEX.FAULT v).legalPart = x.legalPart := by
  have hsetup : (x.wr R.MET_VEX.FAULT v).setupWord = x.setupWord := funext fun k => by
    by_cases hk : k < 0x200140 ∧ k ≠ R.MET_VEX.EN.off
    · simp only [setupWord, if_pos hk, word_wr_ne x v (show k ≠ R.MET_VEX.FAULT.off from hk.2)]
    · simp only [setupWord, if_neg hk]
  unfold legalPart
  have hrd : ∀ f : Fld, f.fits → f.apart R.MET_VEX.FAULT → (x.wr R.MET_VEX.FAULT v).rd f = x.rd f := fun f hf ha =>
    rd_wr_apart x hf (by simp [Fld.fits]) ha v
  rw [hrd R.MET_VEX.EN (by simp [Fld.fits]) (by simp [Fld.apart]), hrd R.MET_VEX.LEVEL (by simp [Fld.fits]) (by simp [Fld.apart]), hsetup]
  rfl

/-! ### The converter (R320 to R336) -/

theorem fe_legalPart (x : Section) (f : FeSt) : ({ x with fe := f } : Section).legalPart = x.legalPart := rfl

theorem modIn_legalPart (x : Section) (i : Nat) (f : FeIn → FeIn) : (x.modIn i f).legalPart = x.legalPart := rfl

theorem publishFaults_legalPart (x : Section) : x.publishFaults.legalPart = x.legalPart :=
  (wrVexFault_legalPart ..).trans (wr_legalPart _ _ (by decide))

theorem judgeFaults_legalPart (x : Section) (i : Nat) (found : List Bool) : (x.judgeFaults i found).1.legalPart = x.legalPart := publishFaults_legalPart _

theorem handGain_legalPart (x : Section) (i : Nat) : (x.handGain i).legalPart = x.legalPart := by
  unfold handGain
  dsimp only
  split
  · rfl
  · rfl

theorem handGainAt_legalPart (x : Section) (i : Nat) (may : Bool) : (x.handGainAt i may).legalPart = x.legalPart := by
  cases may
  · rfl
  · exact x.handGain_legalPart i

theorem convert_legalPart (x : Section) (i : Nat) : (x.convert i).legalPart = x.legalPart := handGain_legalPart _ i

theorem detect_legalPart (x : Section) (m : Nat) (y : Rat) : (x.detect m y).legalPart = x.legalPart := by
  have hval : ∀ (z : Section) (v : Rat), z.legalPart = x.legalPart → (z.wr (R.MET_DET_VAL.V m) (ratToF32 v)).legalPart = x.legalPart :=
    fun z v hz => (wr_legalPart _ _ (by dsimp only; omega)).trans hz
  unfold detect
  extract_lets a d n sum top env win fr r y done d1 fe z
  have hz : z.legalPart = x.legalPart := by
    have hy : y.legalPart = x.legalPart := by
      unfold y r
      split <;> rfl
    exact (fe_legalPart y _).trans hy
  split
  · exact hval z _ hz
  · exact hz

theorem frozen_legalPart (x : Section) : x.frozen.2.legalPart = x.legalPart := by
  unfold frozen
  split <;> rfl

theorem foldl_legalPart {α : Type} (f : Section → α → Section) (hf : ∀ x a, (f x a).legalPart = x.legalPart) (l : List α) (x : Section) :
    (l.foldl f x).legalPart = x.legalPart := by
  induction l generalizing x with
  | nil => rfl
  | cons a l ih => exact (ih _).trans (hf x a)

theorem linearise_legalPart (x : Section) (i : Nat) (a b : Rat) : (x.linearise i a b).2.legalPart = x.legalPart := by
  obtain ⟨n, hn⟩ := x.linearise_eq i a b
  rw [hn]
  rfl

theorem blockDc_legalPart (x : Section) (i : Nat) (v : Rat) : (x.blockDc i v).legalPart = x.legalPart := by
  unfold blockDc
  dsimp only
  split
  · rfl
  · refine (foldl_legalPart _ (fun z k => ?_) _ _).trans ?_
    · split
      · exact z.detect_legalPart k _
      · rfl
    · split
      · exact x.frozen_legalPart
      · exact x.frozen_legalPart

theorem takeValue_legalPart (x : Section) (now i : Nat) (a b : Rat) (rs : Bool) (ovr : Option Bool) :
    (x.takeValue now i a b rs ovr).legalPart = x.legalPart := by
  unfold takeValue
  extract_lets r
  have hr : r.2.legalPart = x.legalPart := x.linearise_legalPart i a b
  split
  · exact hr
  · next v _ =>
    extract_lets x1 rtd x2 slot x3 x4
    have h1 : x1.legalPart = x.legalPart := (wr_legalPart _ _ (by dsimp only; omega)).trans hr
    have h2 : x2.legalPart = x.legalPart := by
      unfold x2
      split
      · exact (fe_legalPart x1 _).trans h1
      · exact h1
    have h3 : x3.legalPart = x.legalPart := by
      unfold x3
      split
      · exact (fe_legalPart x2 _).trans h2
      · exact h2
    have h4 : x4.legalPart = x.legalPart := by
      unfold x4
      split
      · exact h3
      · exact h3
    exact (x4.blockDc_legalPart i v).trans h4

theorem resultLo_legalPart (x : Section) (i : Nat) (dv ovr rs : Bool) (gain : Nat) (code : Int) : (x.resultLo i dv ovr rs gain code).legalPart = x.legalPart :=
  setWord_legalPart _ _ (by dsimp only; omega)

theorem switches_legalPart (x : Section) : x.switches.1.legalPart = x.legalPart := rfl

theorem boundary_legalPart (x : Section) (now i : Nat) (turnDone : Bool) : (x.boundary now i turnDone).legalPart = x.legalPart := by
  unfold boundary
  extract_lets x0 sec fe x1 fe w vex changed
  have h0 : x0.legalPart = x.legalPart := (x.takeMap (some i)).handGainAt_legalPart i _
  have h1 : x1.legalPart = x.legalPart := by
    unfold x1
    split
    · exact h0
    · exact h0
  split
  · exact h1
  · split
    · exact (x1.convert_legalPart _).trans h1
    · split
      · exact h1
      · split
        · exact (x1.convert_legalPart i).trans h1
        · exact h1

theorem output_legalPart (x : Section) (now i : Nat) (nv : Int) (clip : Bool) (cm : Int) (excBad vexBad : Bool) :
    (x.output now i nv clip cm excBad vexBad).1.legalPart = x.legalPart := by
  unfold output
  extract_lets k gust dv rs g r fe x1 fl ovr code x2 a pair clean up dir good x3 whole x4 fe x5 fe x6 sw tp
  have h1 : x1.legalPart = x.legalPart := rfl
  have hfl : fl.1.legalPart = x.legalPart := (x1.judgeFaults_legalPart i _).trans h1
  have h2 : x2.legalPart = x.legalPart := (resultLo_legalPart ..).trans ((fl.1.modIn_legalPart i _).trans hfl)
  have h3 : x3.legalPart = x.legalPart := by
    unfold x3
    split
    · split
      · split
        · exact (takeValue_legalPart ..).trans h2
        · exact h2
      · exact h2
    · split
      · exact (takeValue_legalPart ..).trans h2
      · exact h2
  have h4 : x4.legalPart = x.legalPart := by
    unfold x4
    split
    · exact h3
    · exact h3
  have h5 : x5.legalPart = x.legalPart := by
    unfold x5
    split
    · exact h4
    · exact h4
  have h6 : x6.legalPart = x.legalPart := by
    unfold x6
    split
    · exact h5
    · exact h5
  have htp : tp.1.legalPart = x.legalPart := by
    unfold tp
    split
    · exact h6
    · exact h6
  exact (tp.1.boundary_legalPart now i _).trans htp

theorem converterOutput_legalPart (x : Section) (now : Nat) (nv : Int) (clip : Bool) (cm : Int) (excBad vexBad : Bool) :
    (x.converterOutput now nv clip cm excBad vexBad).1.legalPart = x.legalPart := by
  unfold converterOutput
  split
  · exact x.output_legalPart ..
  · extract_lets y
    split
    · rfl
    · split
      · exact (output_legalPart ..).trans (y.convert_legalPart _)
      · rfl

theorem clamp_legalPart (x : Section) (i : Nat) (on : Bool) : (x.clamp i on).1.legalPart = x.legalPart := by
  unfold clamp
  extract_lets was x1 x2 sw
  have h1 : x1.legalPart = x.legalPart := (x.modIn i _).publishFaults_legalPart
  have h2 : x2.legalPart = x.legalPart := by
    unfold x2
    split
    · exact (x1.wr_legalPart _ (by decide)).trans h1
    · exact h1
  exact h2

theorem checkPoly_legalPart (x : Section) : x.checkPoly.1.legalPart = x.legalPart := rfl

/-! ### Position and tap lines (R291 to R294) -/

theorem encEdge_legalPart (x : Section) (now : Nat) (up : Bool) : (x.encEdge now up).legalPart = x.legalPart := by
  unfold encEdge
  extract_lets dt stood x1
  have h1 : x1.legalPart = x.legalPart := rfl
  exact h1

theorem latches_legalPart (x : Section) (l : List (Nat × Nat × Int)) : ({ x with latches := l } : Section).legalPart = x.legalPart := rfl

theorem latch_legalPart (x : Section) (side now : Nat) : (x.latch side now).legalPart = x.legalPart := x.latches_legalPart _

theorem modOpen_legalPart (x : Section) (f : Piece → Piece) : (x.modOpen f).legalPart = x.legalPart := rfl

theorem learn_legalPart (x : Section) (row : List Nat) (any : Bool) : (x.learn row any).legalPart = x.legalPart := by
  cases any <;> rfl

theorem pieces_legalPart (x : Section) (l : List Nat) (p : List Piece) : ({ x with labels := l, pieces := p } : Section).legalPart = x.legalPart := rfl

theorem timeOf_legalPart (x : Section) (t : Nat) : (x.timeOf t).2.2.legalPart = x.legalPart := by
  unfold timeOf
  extract_lets f
  split
  · split <;> rfl
  · rfl

theorem openAt_legalPart (x : Section) (t : TapLine) (pos : Int) : (x.openAt t pos).legalPart = x.legalPart := by
  unfold openAt
  extract_lets tm v p src
  have htime : tm.2.2.legalPart = x.legalPart := x.timeOf_legalPart t.time
  exact (tm.2.2.pieces_legalPart _ _).trans htime

theorem useLine_legalPart (x : Section) (now : Nat) (t : TapLine) (pos : Int) (row : List Nat) : (x.useLine now t pos row).legalPart = x.legalPart := by
  unfold useLine
  extract_lets c doc any x1 x2 vte x3 x4
  have h1 : x1.legalPart = x.legalPart := by
    unfold x1
    split
    · exact x.openAt_legalPart t pos
    · rfl
  have h2 : x2.legalPart = x.legalPart := by
    unfold x2
    split
    · exact h1
    · exact h1
  have h3 : x3.legalPart = x.legalPart := by
    unfold x3
    split
    · exact h2
    · exact h2
  exact h3

theorem tapLine_legalPart (x : Section) (now : Nat) (t : TapLine) : (x.tapLine now t).legalPart = x.legalPart := by
  unfold tapLine
  extract_lets pos x1 row beyond n sum x2
  have h1 : x1.legalPart = x.legalPart := rfl
  split
  · exact h1
  · split
    · exact h1
    · split
      · exact (x1.learn_legalPart row false).trans h1
      · exact (x2.learn_legalPart row _).trans ((x1.useLine_legalPart now t pos row).trans h1)

theorem takePeer_legalPart (x : Section) (b : List Byte) : (x.takePeer b).legalPart = x.legalPart := by
  unfold takePeer
  extract_lets ok pieces
  split
  · split <;> rfl
  · rfl

theorem answer_legalPart (x : Section) (kind arg : Nat) : (x.answer kind arg).1.legalPart = x.legalPart := by
  unfold answer
  split
  · rfl
  · rfl
  · split <;> rfl
  · split <;> rfl
  · rfl

end Section
end Sys2Proof.Machine
end

section
/-!
PROOFS. No command lowers what counts for the law or loses an unacknowledged record, and with the seal closed none changes a parameter (R287, R301, R305, R306,
R309, R354): what each command of the block can make of the section's legally relevant part.
-/

namespace Sys2Proof.Machine

namespace Section

/-! ### Records -/

/-- The record store loses acknowledged records alone, and gains records beyond the highest MSEQ alone. -/
def recordsAdded (x y : Section) : Prop :=
  y.legalPart = { x.legalPart with mseq := y.mseq, store := y.store } ∧ x.mseq ≤ y.mseq ∧ (∀ r ∈ y.store, r.mseq ≤ x.mseq → r ∈ x.store) ∧
    ∀ r ∈ x.store, r.acked = false → r ∈ y.store

/-- Records up to the highest MSEQ keep MSEQ and bytes, and those without acknowledgement stay. -/
def recordsKept (x y : Section) : Prop :=
  x.mseq ≤ y.mseq ∧ (∀ r ∈ y.store, r.mseq ≤ x.mseq → ∃ q ∈ x.store, q.mseq = r.mseq ∧ q.bytes = r.bytes) ∧
    ∀ r ∈ x.store, r.acked = false → ∃ q ∈ y.store, q.mseq = r.mseq ∧ q.bytes = r.bytes

theorem recordsAdded_of_legalPart {x y : Section} (h : y.legalPart = x.legalPart) : x.recordsAdded y := by
  have hmseq : y.mseq = x.mseq := congrArg LegalPart.mseq h
  have hstore : y.store = x.store := congrArg LegalPart.store h
  refine ⟨?_, hmseq.ge, fun r hr _ => hstore ▸ hr, fun r hr _ => hstore ▸ hr⟩
  rw [hmseq, hstore]
  exact h

theorem recordsAdded_trans {x y z : Section} (h : x.recordsAdded y) (k : y.recordsAdded z) : x.recordsAdded z := by
  obtain ⟨hpart, hmseq, hold, hnew⟩ := h
  obtain ⟨kpart, kmseq, kold, knew⟩ := k
  refine ⟨?_, hmseq.trans kmseq, fun r hr hle => hold r (kold r hr (hle.trans hmseq)) hle, fun r hr ha => knew r (hnew r hr ha) ha⟩
  rw [kpart, hpart]

theorem recordsKept_of_added {x y : Section} (h : x.recordsAdded y) : x.recordsKept y := by
  obtain ⟨-, hmseq, hold, hnew⟩ := h
  exact ⟨hmseq, fun r hr hle => ⟨r, hold r hr hle, rfl, rfl⟩, fun r hr ha => ⟨r, hnew r hr ha, rfl, rfl⟩⟩

/-- A change of every record that leaves MSEQ and bytes. -/
theorem recordsKept_map {x y : Section} (hmseq : y.mseq = x.mseq) {f : SecRec → SecRec} (hstore : y.store = x.store.map f)
    (hf : ∀ r, (f r).mseq = r.mseq ∧ (f r).bytes = r.bytes) : x.recordsKept y := by
  refine ⟨hmseq.ge, fun r hr _ => ?_, fun r hr _ => ⟨f r, ?_, hf r⟩⟩
  · rw [hstore, List.mem_map] at hr
    obtain ⟨q, hq, rfl⟩ := hr
    exact ⟨q, hq, (hf q).1.symm, (hf q).2.symm⟩
  · rw [hstore]
    exact List.mem_map_of_mem hr

theorem prune_legalPart (x : Section) : x.prune.legalPart = x.legalPart := rfl

/-- A full store gives up its oldest acknowledged record (R301). -/
theorem mem_eraseP_acked {l : List SecRec} {r : SecRec} (hr : r ∈ l) (ha : r.acked = false) : r ∈ l.eraseP fun q => q.acked :=
  (List.mem_eraseP_of_neg (by simp [ha])).mpr hr

theorem sendRecord_recordsAdded (x : Section) (now : Nat) : x.recordsAdded (x.sendRecord now).1 := by
  unfold sendRecord
  split
  · next p rest _ =>
    extract_lets wait y r missing peer n sg st
    split
    · exact recordsAdded_of_legalPart rfl
    · split
      · exact recordsAdded_of_legalPart y.prune_legalPart
      · have hgone : ∀ q ∈ st, q ∈ x.store := by
          intro q hq
          unfold st at hq
          split at hq
          · exact List.mem_of_mem_eraseP hq
          · exact hq
        have hstays : ∀ q ∈ x.store, q.acked = false → q ∈ st := by
          intro q hq ha
          unfold st
          split
          · exact mem_eraseP_acked hq ha
          · exact hq
        refine ⟨rfl, Nat.le_succ _, fun q hq hle => ?_, fun q hq ha => List.mem_append_left _ (hstays q hq ha)⟩
        rcases List.mem_append.mp hq with hst | hlast
        · exact hgone q hst
        · rw [List.mem_singleton.mp hlast] at hle
          exact absurd hle (Nat.not_succ_le_self x.mseq)
  · exact recordsAdded_of_legalPart rfl

theorem sendRecords_recordsAdded (now : Nat) (l : List Nat) (x : Section) : x.recordsAdded (l.foldl (fun y _ => (y.sendRecord now).1) x) := by
  induction l generalizing x with
  | nil => exact recordsAdded_of_legalPart rfl
  | cons a l ih => exact recordsAdded_trans (x.sendRecord_recordsAdded now) (ih _)

/-! ### What a command can make of the legally relevant part -/

inductive LegalNext (x y : Section) : Prop
  /-- It stays but for records that are added, acknowledged or sent. -/
  | recorded (hpart : y.legalPart = { x.legalPart with mseq := y.mseq, store := y.store }) (hrecords : x.recordsKept y)
  /-- The map and the parameters are those stored. -/
  | restarted (hpart : y.legalPart = { ({ x with regs := x.stored, params := x.storedParams } : Section).legalPart with store := y.store })
      (hrecords : x.recordsKept y)
  /-- The seal opens. -/
  | opened (hpart : y.legalPart = { x.legalPart with sealOpen := true })
  /-- The seal is open: parameters and keys may change, counted by the audit counter. -/
  | serviced (hopen : x.sealOpen = true) (haudit : x.audit ≤ y.audit) (hkeys : x.keyGen ≤ y.keyGen) (hmseq : y.mseq = x.mseq) (hstore : y.store = x.store)

theorem LegalNext.added {x y : Section} (h : x.recordsAdded y) : x.LegalNext y := .recorded h.1 (recordsKept_of_added h)

theorem LegalNext.same {x y : Section} (h : y.legalPart = x.legalPart) : x.LegalNext y := .added (recordsAdded_of_legalPart h)

theorem restart_legalNext (x : Section) (now cause : Nat) : x.LegalNext (x.restart now cause).1 := by
  unfold restart
  extract_lets fw init first x1 fe x2 c
  have h1 : c.1.legalPart = x1.legalPart := (x2.checkPoly_legalPart).trans (x1.fe_legalPart _)
  have hmseq : c.1.mseq = x.mseq := congrArg LegalPart.mseq h1
  have hstore : c.1.store = x.store.map fun r => { r with sent := none } := congrArg LegalPart.store h1
  exact .restarted (h1.trans (by rw [hstore]; rfl)) (recordsKept_map hmseq hstore fun _ => ⟨rfl, rfl⟩)

theorem ack_legalNext (x : Section) (m : Nat) : x.LegalNext (x.ack m) :=
  .recorded rfl (recordsKept_map rfl rfl fun r => by split <;> exact ⟨rfl, rfl⟩)

theorem resend_legalNext {x : Section} {now : Nat} {a : Section × List MetIn} (h : x.resend now = some a) : x.LegalNext a.1 := by
  unfold resend at h
  split at h
  · obtain rfl := Option.some.inj h
    exact .recorded rfl (recordsKept_map rfl rfl fun r => by split <;> exact ⟨rfl, rfl⟩)
  · exact absurd h (by simp)

theorem portWrite_legalNext (x : Section) (now off : Nat) (value hw : Word) : x.LegalNext (x.portWrite now off value hw) := by
  unfold portWrite
  by_cases hopen : x.sealOpen = true
  · split
    · exact .same rfl
    · split
      · unfold portMap
        split
        · extract_lets old v w y i
          split
          · exact .serviced hopen le_rfl le_rfl rfl rfl
          · exact .serviced hopen le_rfl le_rfl rfl rfl
        · exact .serviced hopen le_rfl le_rfl rfl rfl
      · exact .serviced hopen le_rfl le_rfl rfl rfl
  · rw [if_pos (by simp [hopen])]
    exact .same rfl

theorem install_legalNext (x : Section) (image : List Byte) : x.LegalNext (x.install image) := by
  unfold install
  split
  · next h => exact .serviced (Bool.and_eq_true_iff.mp h).1 (Nat.le_succ _) le_rfl rfl rfl
  · exact .same rfl

theorem newKey_legalNext (x : Section) : x.LegalNext x.newKey := by
  unfold newKey
  split
  · next h => exact .serviced h (Nat.le_succ _) (Nat.le_succ _) rfl rfl
  · exact .same rfl

theorem closeSeal_legalNext (x : Section) : x.LegalNext x.closeSeal.1 := by
  unfold closeSeal
  by_cases hopen : x.sealOpen = true
  · rw [if_neg (by simp [hopen])]
    extract_lets differs x1 b c
    have hc : c.1.legalPart = b.legalPart := b.checkPoly_legalPart
    refine .serviced hopen ?_ (congrArg LegalPart.keyGen hc).ge (congrArg LegalPart.mseq hc) (congrArg LegalPart.store hc)
    have haudit : c.1.audit = if differs = true then x.audit + 1 else x.audit := congrArg LegalPart.audit hc
    change x.audit ≤ c.1.audit
    rw [haudit]
    split
    · exact Nat.le_succ _
    · exact le_rfl
  · rw [if_pos (by simp [hopen])]
    exact .same rfl

theorem openSeal_legalNext (x : Section) : x.LegalNext x.openSeal := .opened rfl

end Section

/-- An answer is a next state with such a section. -/
def State.legalStep (s : State) (a : Answer) : Prop := ∃ t, a = .next t ∧ s.sec.LegalNext t.sec

theorem State.legalStep_next {s t : State} (h : s.sec.LegalNext t.sec) : s.legalStep (.next t) := ⟨t, rfl, h⟩

theorem State.legalStep_unchanged {s t : State} (h : t.sec = s.sec) : s.legalStep (.next t) := ⟨t, rfl, h ▸ .same rfl⟩

theorem State.legalStep_onEng (s : State) (f : Engine → Engine) : s.legalStep (.next (s.onEng f)) := legalStep_unchanged (s.onEng_sec f)

theorem State.legalStep_onSec (s : State) {f : Section → Nat → Section × List MetIn} (h : ∀ now, s.sec.LegalNext (f s.sec now).1) :
    s.legalStep (.next (s.onSec f)) :=
  legalStep_next (h _)

/-- A packet at the head of MET_CMD acts in the section after it has left the queue. -/
theorem State.legalStep_onEng_onSec (s : State) (g : Engine → Engine) {f : Section → Nat → Section × List MetIn} (h : ∀ now, s.sec.LegalNext (f s.sec now).1) :
    s.legalStep (.next ((s.onEng g).onSec f)) :=
  legalStep_next (h _)

theorem State.legalStep_onMem_onSec (s : State) (g : Engine → Staging → Engine × Staging) {f : Section → Nat → Section × List MetIn}
    (h : ∀ now, s.sec.LegalNext (f s.sec now).1) : s.legalStep (.next ((s.onMem g).onSec f)) :=
  legalStep_next (h _)

theorem execSectionQuery_legalStep (s : State) : s.legalStep (execSectionQuery s) := by
  unfold execSectionQuery
  split
  · exact s.legalStep_onEng_onSec _ fun _ => .same (s.sec.answer_legalPart _ _)
  · exact State.legalStep_unchanged rfl

theorem execSectionAck_legalStep (s : State) : s.legalStep (execSectionAck s) := by
  unfold execSectionAck
  split
  · exact s.legalStep_onEng_onSec _ fun _ => s.sec.ack_legalNext _
  · exact State.legalStep_unchanged rfl

theorem execSectionSync_legalStep (s : State) : s.legalStep (execSectionSync s) := by
  unfold execSectionSync
  split
  · exact s.legalStep_onEng_onSec _ fun _ => .same rfl
  · exact State.legalStep_unchanged rfl

theorem execSectionPeer_legalStep (s : State) : s.legalStep (execSectionPeer s) := by
  unfold execSectionPeer
  split
  · exact s.legalStep_onEng_onSec _ fun _ => .same (s.sec.takePeer_legalPart _)
  · exact State.legalStep_unchanged rfl

theorem execSectionTapLine_legalStep (side : Side) (s : State) : s.legalStep (execSectionTapLine side s) := by
  unfold execSectionTapLine
  split
  · exact s.legalStep_onEng_onSec _ fun _ => .same (s.sec.tapLine_legalPart _ _)
  · exact State.legalStep_unchanged rfl

theorem execRecordRetransmit_legalStep (s : State) : s.legalStep (execRecordRetransmit s) := by
  unfold execRecordRetransmit
  split
  · next a hsent => exact s.legalStep_onEng_onSec _ fun _ => Section.resend_legalNext hsent
  · exact State.legalStep_unchanged rfl

theorem execSealOpen_legalStep (s : State) : s.legalStep (execSealOpen s) := by
  unfold execSealOpen
  split
  · exact State.legalStep_unchanged rfl
  · exact State.legalStep_next s.sec.openSeal_legalNext

theorem execSealClose_legalStep (s : State) : s.legalStep (execSealClose s) := by
  unfold execSealClose
  split
  · exact State.legalStep_next s.sec.closeSeal_legalNext
  · exact State.legalStep_unchanged rfl

/-- A power failure ends the pieces and sends their records (R354). -/
theorem execPfail_legalStep (s : State) : s.legalStep (execPfail s) := by
  unfold execPfail
  split
  · exact State.legalStep_unchanged rfl
  · exact s.legalStep_onMem_onSec _ fun now =>
      .added (Section.recordsAdded_trans (Section.recordsAdded_of_legalPart rfl) (Section.sendRecords_recordsAdded (now + 50000000) _ (s.sec.endAll now)))

theorem execPfailRecovery_legalStep (s : State) : s.legalStep (execPfailRecovery s) := by
  unfold execPfailRecovery
  split
  · exact s.legalStep_onMem_onSec _ fun now => s.sec.restart_legalNext now 1
  · exact State.legalStep_unchanged rfl

theorem execEncoderEdge_legalStep (enc : Fin 4) (up : Bool) (s : State) : s.legalStep (execEncoderEdge enc up s) := by
  unfold execEncoderEdge
  refine s.legalStep_onEng_onSec _ fun now => .same ?_
  dsimp only
  split
  · exact s.sec.encEdge_legalPart now up
  · rfl

theorem execSquallRest_legalStep (s : State) : s.legalStep (execSquallRest s) := by
  unfold execSquallRest
  refine s.legalStep_onEng_onSec _ fun now => .same ?_
  dsimp only
  split
  · exact s.sec.modOpen_legalPart _
  · rfl

theorem execLineStart_legalStep (side : Side) (s : State) : s.legalStep (execLineStart side s) := by
  unfold execLineStart
  refine s.legalStep_onEng_onSec _ fun now => .same (Section.foldl_legalPart _ (fun x k => ?_) _ _)
  split
  · exact x.latch_legalPart k now
  · rfl

theorem execSensedLineEdge_legalStep (side : Side) (s : State) : s.legalStep (execSensedLineEdge side s) := by
  unfold execSensedLineEdge
  refine s.legalStep_onEng_onSec _ fun now => .same ?_
  dsimp only
  split
  · exact s.sec.latch_legalPart side.val now
  · rfl

/-- Measuring, acknowledging, sending, retransmitting, restarting, service: each command of the section does one of these; no other reaches it. -/
theorem exec_legalStep (c : Instr) (s : State) : s.legalStep (exec c s) := by
  cases c
  case sectionQuery => exact execSectionQuery_legalStep s
  case sectionAck => exact execSectionAck_legalStep s
  case sectionSync => exact execSectionSync_legalStep s
  case sectionPeer => exact execSectionPeer_legalStep s
  case sectionTapLine side => exact execSectionTapLine_legalStep side s
  case recordSend => exact s.legalStep_onSec fun now => .added (s.sec.sendRecord_recordsAdded now)
  case recordRetransmit => exact execRecordRetransmit_legalStep s
  case sealOpen => exact execSealOpen_legalStep s
  case sealClose => exact execSealClose_legalStep s
  case servicePortWrite off word => exact s.legalStep_onSec fun now => s.sec.portWrite_legalNext now _ _ _
  case sectionFwInstall image => exact s.legalStep_onSec fun _ => s.sec.install_legalNext image
  case keyRegeneration => exact s.legalStep_onSec fun _ => s.sec.newKey_legalNext
  case sectionRestart watchdog => exact s.legalStep_onSec fun now => s.sec.restart_legalNext now _
  case converterOutput nv clip cm excBad vexBad => exact s.legalStep_onSec fun now => .same (s.sec.converterOutput_legalPart now ..)
  case ovpClamp n on => exact s.legalStep_onSec fun _ => .same (s.sec.clamp_legalPart n.val on)
  case tempPublish | thresholdStatePublish => exact s.legalStep_onSec fun _ => .same rfl
  case encoderEdge enc up => exact execEncoderEdge_legalStep enc up s
  case squallRest => exact execSquallRest_legalStep s
  case lineStart side => exact execLineStart_legalStep side s
  case sensedLineEdge side => exact execSensedLineEdge_legalStep side s
  case por => exact s.legalStep_onMem_onSec _ fun now => s.sec.restart_legalNext now 1
  case pfail => exact execPfail_legalStep s
  case pfailRecovery => exact execPfailRecovery_legalStep s
  -- Meanings of the engine and of boot that first look at the state.
  case bootComplete | takeoverInstall =>
    refine State.legalStep_unchanged ?_
    split <;> simp
  case resetProper =>
    refine State.legalStep_unchanged ?_
    split
    · split <;> simp
    · rfl
  -- Every other meaning acts in the engine, or in the staging memory with it.
  case arbGrant | wakeRailsSettled => exact State.legalStep_unchanged (s.onMem_sec _)
  all_goals exact s.legalStep_onEng _

/-! ### The statements -/

/-- What is never lost is kept by each of them. -/
theorem Section.LegalNext.keeps {x y : Section} (h : x.LegalNext y) : x.audit ≤ y.audit ∧ x.keyGen ≤ y.keyGen ∧ x.recordsKept y := by
  cases h with
  | recorded hpart hrecords => exact ⟨(congrArg LegalPart.audit hpart).ge, (congrArg LegalPart.keyGen hpart).ge, hrecords⟩
  | restarted hpart hrecords => exact ⟨(congrArg LegalPart.audit hpart).ge, (congrArg LegalPart.keyGen hpart).ge, hrecords⟩
  | opened hpart =>
    have hadded : x.recordsKept y := recordsKept_map (f := id) (congrArg LegalPart.mseq hpart) ((congrArg LegalPart.store hpart).trans (List.map_id _).symm)
      fun _ => ⟨rfl, rfl⟩
    exact ⟨(congrArg LegalPart.audit hpart).ge, (congrArg LegalPart.keyGen hpart).ge, hadded⟩
  | serviced hopen haudit hkeys hmseq hstore =>
    exact ⟨haudit, hkeys, recordsKept_map (f := id) hmseq (hstore.trans (List.map_id _).symm) fun _ => ⟨rfl, rfl⟩⟩

/-- Settles O60: whatever a command makes of the section, no counter falls and no record without acknowledgement is lost; without a command only the engine
idles. -/
theorem nothingLegalIsLost : Obligations.NothingLegalIsLost := by
  intro s t hstep
  unfold step at hstep
  split at hstep
  · cases hstep
    exact ⟨le_rfl, le_rfl, le_rfl, fun r hr _ => ⟨r, hr, rfl, rfl⟩⟩
  · next c rest _ =>
    obtain ⟨u, hexec, hnext⟩ := exec_legalStep c { s with pending := rest }
    cases hexec.symm.trans hstep
    obtain ⟨haudit, hkeys, hmseq, -, hlost⟩ := hnext.keeps
    exact ⟨haudit, hmseq, hkeys, hlost⟩

/-- Settles O59: with the seal closed a command leaves the legally relevant part as it stands but for records, or takes back what is stored, which is the same. -/
theorem sealedSectionKeepsItsParameters : Obligations.SealedSectionKeepsItsParameters := by
  intro c s t hclosed hparams hmap hen hlevel hexec
  obtain ⟨u, hu, hnext⟩ := exec_legalStep c s
  cases hu.symm.trans hexec
  obtain ⟨-, -, -, holder, -⟩ := hnext.keeps
  have hsetup : ∀ {y : Section} {off}, t.sec.setupWord = y.setupWord → off < 0x200140 → off ≠ R.MET_VEX.EN.off → t.sec.word off = y.word off :=
    fun h hlow hvex => by rw [← Section.setupWord_of_setup hlow hvex, h, Section.setupWord_of_setup hlow hvex]
  cases hnext with
  | recorded hpart _ =>
    exact ⟨congrArg LegalPart.params hpart, congrArg LegalPart.storedParams hpart, congrArg LegalPart.stored hpart, congrArg LegalPart.keyGen hpart,
      congrArg LegalPart.audit hpart, congrArg LegalPart.vexEn hpart, congrArg LegalPart.vexLevel hpart,
      fun _ => hsetup (congrArg LegalPart.setup hpart), holder⟩
  | restarted hpart _ =>
    exact ⟨(congrArg LegalPart.params hpart).trans hparams.symm, congrArg LegalPart.storedParams hpart, congrArg LegalPart.stored hpart,
      congrArg LegalPart.keyGen hpart, congrArg LegalPart.audit hpart, (congrArg LegalPart.vexEn hpart).trans hen,
      (congrArg LegalPart.vexLevel hpart).trans hlevel,
      fun off hlow hvex => (hsetup (congrArg LegalPart.setup hpart) hlow hvex).trans (hmap off hlow hvex), holder⟩
  | opened hpart =>
    exact ⟨congrArg LegalPart.params hpart, congrArg LegalPart.storedParams hpart, congrArg LegalPart.stored hpart, congrArg LegalPart.keyGen hpart,
      congrArg LegalPart.audit hpart, congrArg LegalPart.vexEn hpart, congrArg LegalPart.vexLevel hpart,
      fun _ => hsetup (congrArg LegalPart.setup hpart), holder⟩
  | serviced hopen => exact absurd (hclosed.symm.trans hopen) Bool.false_ne_true

end Sys2Proof.Machine
end

section
/-!
PROOFS. Offsets at which no block table names a register (R377), and the levels of the threshold switches (R332).
-/

namespace Sys2Proof.Machine

namespace Engine

/-! ### Offsets without a register (R377) -/

/-- No block table names the offset, and it lies in none of the coefficient windows. -/
def Unlisted (off : Nat) : Prop := RegMap.find off = none ∧ (off < 0x20000 ∨ noWindow off = true)

theorem noWindow_iff (off : Nat) : noWindow off = true ↔ (0x28000 ≤ off ∧ off < 0x30000) ∨ (0x40000 ≤ off ∧ off < 0x80000) := by
  simp [noWindow]

/-- The block tables end at 0x12FFF; that of the section stands beyond BAR0. -/
theorem find_beyond {off : Nat} (hlo : 0x13000 ≤ off) (hhi : off < 0x80000) : RegMap.find off = none := by
  have hblock : RegMap.blockOf off = [] := by
    have hrange : 0x13 ≤ off / 0x1000 ∧ off / 0x1000 < 0x80 := by omega
    unfold RegMap.blockOf
    generalize off / 0x1000 = b at hrange
    obtain ⟨hb, hb'⟩ := hrange
    interval_cases b <;> rfl
  unfold RegMap.find
  rw [hblock]
  rfl

theorem unlisted_of_ranges {off : Nat} (h : (off < 0x20000 ∧ RegMap.find off = none) ∨ (0x13000 ≤ off ∧ off < 0x20000) ∨ (0x28000 ≤ off ∧ off < 0x30000) ∨
    (0x40000 ≤ off ∧ off < 0x80000)) : Unlisted off := by
  rcases h with ⟨hlow, hnone⟩ | ⟨hlo, hhi⟩ | hwindow | hwindow
  · exact ⟨hnone, .inl hlow⟩
  · exact ⟨find_beyond hlo (by omega), .inl hhi⟩
  · exact ⟨find_beyond (by omega) (by omega), .inr ((noWindow_iff off).mpr (.inl hwindow))⟩
  · exact ⟨find_beyond (by omega) (by omega), .inr ((noWindow_iff off).mpr (.inr hwindow))⟩

theorem setUpReg_unlisted {off : Nat} (h : Unlisted off) : setUpReg off = false := by
  obtain ⟨hnone, hplace⟩ := h
  have hwindow : (decide (0x20000 ≤ off) && !noWindow off) = false := by
    rcases hplace with hlow | hno
    · simp [hlow]
    · simp [hno]
  simp only [setUpReg, hwindow, hnone, Bool.or_self, Bool.and_false]

/-- No mode lets a write to such an offset leave a trace at the gate. -/
theorem gate_unlisted (e : Engine) {off : Nat} (h : Unlisted off) {f : Engine → Engine} (hf : f e = e) : e.gate off f = e := by
  have hname : chCfgReg off = false := by simp only [chCfgReg, h.1]
  unfold gate
  rw [hname, setUpReg_unlisted h, h.1, hf]
  simp

theorem writeReg_unlisted (e : Engine) {off : Nat} (h : Unlisted off) (value hw : Word) : e.writeReg off value hw = e := by
  obtain ⟨hnone, hplace⟩ := h
  have hact : (if 0x80000 ≤ off then e.writeCoef off value else if 0x20000 ≤ off then e.writeWindow off value else
      match RegMap.find off with
      | some (r, is) => if e.dieAbsent off then e.writeAbsent r off value else e.writeNamed r is off value hw
      | none => e) = e := by
    rcases hplace with hlow | hno
    · rw [if_neg (by omega), if_neg (by omega), hnone]
    · have hrange := (noWindow_iff off).mp hno
      rw [if_neg (by omega), if_pos (by omega)]
      simp only [writeWindow, hno, if_true]
  unfold writeReg
  split
  · rfl
  · exact e.gate_unlisted ⟨hnone, hplace⟩ hact

theorem readReg_unlisted (e : Engine) {off : Nat} (h : Unlisted off) : e.readReg off = 0 := by
  obtain ⟨hnone, hplace⟩ := h
  unfold readReg
  split
  · rfl
  · split
    · rfl
    · next hwindow =>
      rw [if_neg (by rcases hplace with hlow | hno; exacts [by omega, absurd hno hwindow]), hnone]

end Engine

/-- Settles O58: at such an offset no gate leaves a trace, no window is written and no register found. -/
theorem nothingAtUnlistedOffsets : Obligations.NothingAtUnlistedOffsets := by
  intro off value hw s _ hrange
  have h := Engine.unlisted_of_ranges hrange
  refine ⟨?_, s.eng.readReg_unlisted h⟩
  have hwrite : exec (.registerWrite ⟨.bar0, off⟩ value hw) s = .next (s.onEng fun e => e.writeReg off.toNat value hw) := rfl
  rw [hwrite, State.onEng, s.eng.writeReg_unlisted h]

/-! ### Threshold switches (R332) -/

namespace Section

theorem th_switches (x : Section) (n : Fin 4) : x.switches.1.fe.th.getD n.val false = x.thState n.val :=
  Engine.getD_map_upTo x.thState n.isLt false

/-- An enabled switch whose source has a value stands as that value and its levels have it. -/
theorem thState_of_value {x : Section} {n i : Nat} {v : Rat} (henabled : x.actOn (R.MET_TH_CFG.EN n) = true) (hinput : x.thInput n = some i)
    (hgood : x.faulty i = false) (hpoly : x.act (R.MET_IN_CFG.LIN i) ≠ 1 ∨ x.fe.polyOk = true)
    (hovr : x.act (R.MET_TH_CFG.SRC n) < 8 → (x.inp i).ovr = none) (hvalue : x.thSource n = some v) :
    x.thState n = hysteresis (f32ToRat (x.act (R.MET_TH_SET.V n))) (f32ToRat (x.act (R.MET_TH_CLR.V n))) v (x.fe.th.getD n false) := by
  have hvalid : (x.faulty i || (x.act (R.MET_IN_CFG.LIN i) == 1 && !x.fe.polyOk)) = false := by
    rcases hpoly with h | h <;> simp [hgood, h]
  have hinBand : (if x.act (R.MET_TH_CFG.SRC n) < 8 then (x.inp i).ovr else none) = none := by
    split
    · next h => exact hovr h
    · rfl
  unfold thState
  simp only [henabled, hinput, hvalid, hinBand, hvalue, Bool.not_true, Bool.false_eq_true, if_false]

section
variable {set clr v : Rat} (was : Bool)

theorem hysteresis_above (h : clr < set) : hysteresis set clr v was = if set ≤ v then true else if v ≤ clr then false else was := by
  rw [hysteresis, if_neg h.not_gt, if_neg h.ne']

theorem hysteresis_below (h : set < clr) : hysteresis set clr v was = if v ≤ set then true else if clr ≤ v then false else was := if_pos h

theorem hysteresis_equal : hysteresis set set v was = decide (set ≤ v) := by
  rw [hysteresis, if_neg (lt_irrefl set), if_pos rfl]

end

end Section

/-- Settles O57: the switch is evaluated by its levels, in the order in which they lie. -/
theorem thresholdSwitches : Obligations.ThresholdSwitches := by
  intro x n i v lo hi henabled hinput hgood hpoly hovr hvalue hset hclr
  rw [x.th_switches n, Section.thState_of_value henabled hinput hgood hpoly hovr hvalue, ← hset, ← hclr]
  refine ⟨fun hlt => ?above, fun hlt => ?below, fun heq => ?equal⟩
  case above =>
    rw [Section.hysteresis_above _ hlt]
    exact ⟨fun h => if_pos h, fun h => by rw [if_neg (h.trans_lt hlt).not_ge, if_pos h], fun hl hh => by rw [if_neg hh.not_ge, if_neg hl.not_ge]⟩
  case below =>
    rw [Section.hysteresis_below _ hlt]
    exact ⟨fun h => if_pos h, fun h => by rw [if_neg (hlt.trans_le h).not_ge, if_pos h], fun hl hh => by rw [if_neg hl.not_ge, if_neg hh.not_ge]⟩
  case equal =>
    rw [← heq]
    exact Section.hysteresis_equal _

end Sys2Proof.Machine
end

section
/-!
PROOFS. Queries to the section (R304, R312): what the mailbox asks joins the queries, and one that is not answered within 50 ms ends.
-/

namespace Sys2Proof.Machine

namespace Engine

/-! ### Queries wait, and the oldest is asked -/

theorem askNext_only (e : Engine) : e.askNext = { e with met := e.askNext.met, mets := e.askNext.mets } := by
  unfold askNext
  split <;> rfl

theorem askNext_queries (e : Engine) : e.askNext.mets.queries = e.mets.queries := by
  unfold askNext
  split <;> rfl

theorem addQuery_only (e : Engine) (q : MetQuery) : e.addQuery q = { e with met := (e.addQuery q).met, mets := (e.addQuery q).mets } :=
  (askNext_only _).trans rfl

theorem addQuery_queries (e : Engine) (q : MetQuery) : (e.addQuery q).mets.queries = e.mets.queries ++ [q] := askNext_queries _

/-! ### The mailbox -/

/-- What MET_Q_CTRL and MET_Q_ARG show of a query. -/
def mailboxAsks (e : Engine) (kind arg : Nat) : Engine := ((e.wr R.MET_Q_CTRL.QUERY kind).wr R.MET_Q_ARG.V arg).wr R.MET_Q_CTRL.BUSY 1

theorem mailboxAsks_onlyRegs (e : Engine) (kind arg : Nat) : e.onlyRegs (e.mailboxAsks kind arg) [R.MET_Q_CTRL.word.off, R.MET_Q_ARG.V.off] :=
  onlyRegs_wr (onlyRegs_wr (wr_onlyRegs e _ (by simp)) (by simp) _) (by simp) _

theorem mailboxAsks_rd (e : Engine) {kind arg : Nat} (hkind : kind ≤ 4) (harg : arg < 2 ^ 32) : (e.mailboxAsks kind arg).rd R.MET_Q_CTRL.QUERY = kind ∧
    (e.mailboxAsks kind arg).rd R.MET_Q_CTRL.BUSY = 1 ∧ (e.mailboxAsks kind arg).rd R.MET_Q_ARG.V = arg := by
  unfold mailboxAsks
  refine ⟨?_, rd_wr_lt _ (by simp [Fld.fits]) (by decide), ?_⟩
  · rw [rd_wr_apart _ (by simp [Fld.fits]) (by simp [Fld.fits]) (by simp [Fld.apart]), rd_wr_ne _ _ (by decide)]
    exact rd_wr_lt _ (by simp [Fld.fits]) (hkind.trans_lt (by decide))
  · rw [rd_wr_ne _ _ (by decide)]
    exact rd_wr_lt _ (by simp [Fld.fits]) harg

theorem mailbox_eq {e : Engine} (hboot : e.preBoot = false) {kind : Nat} (hkind : kind ≤ 4) (arg : Nat) :
    e.mailbox kind arg = (e.mailboxAsks kind arg).addQuery ⟨none, kind, arg⟩ := by
  unfold mailbox
  rw [hboot, if_neg Bool.false_ne_true]
  exact if_neg hkind.not_gt

/-- From M2 on a query of the mailbox shows itself, joins the queries, and is sent where none was asked or waited. -/
theorem mailbox_joins {e : Engine} (hboot : e.preBoot = false) {kind arg : Nat} (hkind : kind ≤ 4) (harg : arg < 2 ^ 32) :
    (e.mailbox kind arg).rd R.MET_Q_CTRL.QUERY = kind ∧ (e.mailbox kind arg).rd R.MET_Q_CTRL.BUSY = 1 ∧ (e.mailbox kind arg).rd R.MET_Q_ARG.V = arg ∧
    (e.mailbox kind arg).mets.queries = e.mets.queries ++ [⟨none, kind, arg⟩] ∧
    (e.mets.asked = none → e.mets.queries = [] → (e.mailbox kind arg).met.cmd = e.met.cmd ++ [.query e.mets.nextId kind arg]) ∧
    ({ e with met := (e.mailbox kind arg).met, mets := (e.mailbox kind arg).mets } : Engine).onlyRegs (e.mailbox kind arg)
      [R.MET_Q_CTRL.word.off, R.MET_Q_ARG.V.off] := by
  rw [mailbox_eq hboot hkind]
  have hframe := e.mailboxAsks_onlyRegs kind arg
  obtain ⟨hq, hb, ha⟩ := e.mailboxAsks_rd hkind harg
  have hmets : (e.mailboxAsks kind arg).mets = e.mets := rfl
  generalize e.mailboxAsks kind arg = x at hframe hq hb ha hmets
  have hrd (f : Fld) : (x.addQuery ⟨none, kind, arg⟩).rd f = x.rd f := by rw [addQuery_only]; rfl
  refine ⟨(hrd _).trans hq, (hrd _).trans hb, (hrd _).trans ha, ?_, fun hasked hnone => ?_, ?_⟩
  · rw [addQuery_queries, hmets]
  · rw [addQuery_asked (hmets ▸ hasked) (hmets ▸ hnone), queryAsked, hmets, (congrArg Engine.met hframe.1 :)]
  · have hjoined := onlyRegs_map hframe (f := fun y => { y with met := (x.addQuery ⟨none, kind, arg⟩).met, mets := (x.addQuery ⟨none, kind, arg⟩).mets })
      fun _ _ => rfl
    rwa [← addQuery_only] at hjoined

/-! ### A query that is not answered -/

section
variable {e : Engine} {i t0 : Nat} {q : MetQuery} {rest : List MetQuery} (hasked : e.mets.asked = some (i, t0)) (hlate : t0 + 50000000 ≤ e.now)
  (hq : e.mets.queries = q :: rest)
include hasked hlate

theorem queryTimeout_eq : e.queryTimeout = e.endQuery stAborted [] := by
  simp [queryTimeout, hasked, hlate]

include hq

theorem queryTimeout_mailbox (hmail : q.hseq = none) : e.queryTimeout.rd R.MET_Q_CTRL.STATUS = stAborted ∧ e.queryTimeout.mets.queries = rest ∧
    ({ e with met := e.queryTimeout.met, mets := e.queryTimeout.mets } : Engine).onlyRegs e.queryTimeout [R.MET_Q_CTRL.word.off] := by
  have hends : e.queryTimeout = ((({ e with mets := { e.mets with queries := rest, asked := none } } : Engine).wr R.MET_Q_CTRL.STATUS stAborted).wr
      R.MET_Q_CTRL.BUSY (b2n (rest.any fun x => x.hseq.isNone))).askNext := by
    rw [queryTimeout_eq hasked hlate, endQuery, hq]
    dsimp only
    rw [hmail]
    rfl
  have hframe : e.onlyRegs ((e.wr R.MET_Q_CTRL.STATUS stAborted).wr R.MET_Q_CTRL.BUSY (b2n (rest.any fun x => x.hseq.isNone))) [R.MET_Q_CTRL.word.off] :=
    onlyRegs_wr (wr_onlyRegs e _ (by simp)) (by simp) _
  refine ⟨?_, ?_, ?_⟩
  · rw [hends, askNext_only]
    refine (rd_wr_apart _ (by simp [Fld.fits]) (by simp [Fld.fits]) (by simp [Fld.apart]) _).trans ?_
    exact rd_wr_lt _ (by simp [Fld.fits]) (by decide)
  · rw [hends, askNext_queries]
    rfl
  · have hended := onlyRegs_map hframe (f := fun y => { y with met := e.queryTimeout.met, mets := e.queryTimeout.mets }) fun _ _ => rfl
    convert hended using 1
    rw [hends]
    exact askNext_only _

theorem queryTimeout_command (hr : e.resetting = none) (hf : e.pins.failed = false) {n : Nat} (hcmd : q.hseq = some n) {c : OpenCmd}
    (hopen : e.opens.find? (fun c => c.hseq == n && c.wait != Wait.built) = some c) : e.queryTimeout.answered n c.code stAborted ∧
    e.queryTimeout.mets.queries = rest ∧ ({ e with met := e.queryTimeout.met, mets := e.queryTimeout.mets } : Engine).onlyBooks e.queryTimeout [] := by
  have hn : c.hseq = n := by
    have := List.find?_some hopen
    simp only [Bool.and_eq_true, beq_iff_eq] at this
    exact this.1
  have hends : e.queryTimeout = (({ e with mets := { e.mets with queries := rest, asked := none } } : Engine).finish c stAborted []).askNext := by
    rw [queryTimeout_eq hasked hlate, endQuery, hq]
    dsimp only
    rw [hcmd]
    dsimp only
    rw [finishHseq, hopen]
    rfl
  have hanswer := finish_answered ({ e with mets := { e.mets with queries := rest, asked := none } } : Engine) hr hf c stAborted []
  have hframe := finish_books ({ e with mets := { e.mets with queries := rest, asked := none } } : Engine) c stAborted [] []
  generalize hx : Engine.finish _ c stAborted [] = x at hends hanswer hframe
  refine ⟨?_, ?_, ?_⟩
  · rw [hends, askNext_only, ← hn]
    exact hanswer
  · rw [hends, askNext_queries, (congrArg Engine.mets hframe.1 :)]
  · have hended := onlyBooks_map hframe (f := fun y => { y with met := x.askNext.met, mets := x.askNext.mets }) fun _ _ _ _ _ => rfl
    rw [hends]
    rwa [← askNext_only] at hended

end

end Engine

/-! ### The commands -/

/-- Settles O8: each query of the mailbox is two registers shown and one query more; one that is not answered is answered as aborted. -/
theorem queriesQueued : Obligations.QueriesQueued := by
  unfold Obligations.QueriesQueued
  have harg (s : State) : s.eng.rd R.MET_Q_ARG.V < 2 ^ 32 := s.eng.rd_lt _
  refine ⟨fun s h => ?ident, fun s h => ?pubkey, fun mseq s h => ?record, fun label s h => ?label, fun s h => ?temps, ?mailboxLate, ?commandLate⟩
  case ident => exact ⟨_, rfl, s.onEng_engineOnly _, Engine.mailbox_joins h (by decide) (harg s)⟩
  case pubkey => exact ⟨_, rfl, s.onEng_engineOnly _, Engine.mailbox_joins h (by decide) (harg s)⟩
  case record => exact ⟨_, rfl, s.onEng_engineOnly _, Engine.mailbox_joins h (by decide) mseq.isLt⟩
  case label => exact ⟨_, rfl, s.onEng_engineOnly _, Engine.mailbox_joins h (by decide) label.isLt⟩
  case temps => exact ⟨_, rfl, s.onEng_engineOnly _, Engine.mailbox_joins h (by decide) (harg s)⟩
  case mailboxLate =>
    intro i t0 q rest s hasked hlate hq hmail
    exact ⟨_, rfl, s.onEng_engineOnly _, Engine.queryTimeout_mailbox hasked hlate hq hmail⟩
  case commandLate =>
    intro i t0 n q rest c s hr hf hasked hlate hq hcmd hopen
    exact ⟨_, rfl, s.onEng_engineOnly _, Engine.queryTimeout_command hasked hlate hq hr hf hcmd hopen⟩

end Sys2Proof.Machine
end

section
/-!
PROOFS. Packets between engine and section (R212, R222, R290, R302, R304, R308, R310, R312): what packets sent on MET_IN change in the engine, and how the section
takes the packet at the head of MET_CMD.
-/

namespace Sys2Proof.Machine

namespace Engine

/-! ### Packets enter MET_IN -/

/-- The engine with other packets in MET_IN. -/
def metQueued (e : Engine) (q : List MetPkt) : Engine := { e with met := { e.met with inq := q } }

theorem onlyRegs_metQueued {e x : Engine} {offs : List Nat} (h : e.onlyRegs x offs) (q : List MetPkt) : (e.metQueued q).onlyRegs (x.metQueued q) offs :=
  onlyRegs_map (f := fun y => y.metQueued q) h fun _ _ => rfl

/-- Packets enter one after another with one report of the section. -/
def metIn (e : Engine) (st : MetStat) (l : List MetIn) : Engine := l.foldl (fun x m => x.metPush ⟨m, st⟩) e

theorem metIn_nil (e : Engine) (st : MetStat) : e.metIn st [] = e := rfl

theorem metIn_cons (e : Engine) (st : MetStat) (m : MetIn) (l : List MetIn) : e.metIn st (m :: l) = (e.metPush ⟨m, st⟩).metIn st l := rfl

theorem metIn_append (e : Engine) (st : MetStat) (l k : List MetIn) : e.metIn st (l ++ k) = (e.metIn st l).metIn st k := by
  rw [metIn, List.foldl_append]
  rfl

theorem metPush_inq (e : Engine) (p : MetPkt) : (e.metPush p).met.inq = (if 32 ≤ e.met.inq.length then e.met.inq.drop 1 else e.met.inq) ++ [p] := by
  unfold metPush
  dsimp only
  rw [(congrArg Engine.met (level_only ..) :)]
  by_cases hfull : 32 ≤ e.met.inq.length
  · simp [hfull]
  · simp [hfull]

/-- A packet changes MET_IN, its level and, where it is full, the count of its losses. -/
theorem metPush_frame (e : Engine) (p : MetPkt) :
    (e.metQueued (e.metPush p).met.inq).onlyRegs (e.metPush p) [(R.QUE_LEVEL.LEVEL 68).off, (R.QUE_LOST.V 68).off] := by
  have hcount : e.onlyRegs (if decide (32 ≤ e.met.inq.length) = true then e.count (R.QUE_LOST.V 68) 1 else e) [(R.QUE_LEVEL.LEVEL 68).off, (R.QUE_LOST.V 68).off] := by
    split
    · exact wr_onlyRegs e _ (by simp)
    · exact e.onlyRegs_refl _
  rw [metPush_inq]
  unfold metPush
  simp only [decide_eq_true_eq] at hcount ⊢
  exact onlyRegs_trans (onlyRegs_metQueued hcount _) (onlyRegs_mono (level_onlyRegs ..) (by simp))

theorem metIn_frame (st : MetStat) (l : List MetIn) (e : Engine) :
    (e.metQueued (e.metIn st l).met.inq).onlyRegs (e.metIn st l) [(R.QUE_LEVEL.LEVEL 68).off, (R.QUE_LOST.V 68).off] := by
  induction l generalizing e with
  | nil => exact e.onlyRegs_refl _
  | cons m l ih => exact onlyRegs_trans (onlyRegs_metQueued (e.metPush_frame ⟨m, st⟩) _) (ih (e.metPush ⟨m, st⟩))

/-- With room for all of them they stand behind those that waited. -/
theorem metIn_inq (st : MetStat) (l : List MetIn) {e : Engine} (hroom : e.met.inq.length + l.length ≤ 32) :
    (e.metIn st l).met.inq = e.met.inq ++ l.map fun m => ⟨m, st⟩ := by
  induction l generalizing e with
  | nil => exact (List.append_nil _).symm
  | cons m l ih =>
    rw [List.length_cons] at hroom
    have hpush : (e.metPush ⟨m, st⟩).met.inq = e.met.inq ++ [⟨m, st⟩] := by rw [metPush_inq, if_neg (by omega)]
    refine (ih (e := e.metPush ⟨m, st⟩) ?_).trans ?_
    · rw [hpush, List.length_append, List.length_singleton]
      omega
    · rw [hpush, List.append_assoc]
      rfl

theorem metPush_roomFrame {e : Engine} {p : MetPkt} (h : e.met.inq.length < 32) :
    (e.metQueued (e.metPush p).met.inq).onlyRegs (e.metPush p) [(R.QUE_LEVEL.LEVEL 68).off] := by
  rw [metPush_inq, if_neg h.not_ge, metPush_room e p h]
  exact level_onlyRegs (e.metQueued (e.met.inq ++ [p])) ..

/-- With room for all of them nothing is lost. -/
theorem metIn_room (st : MetStat) (l : List MetIn) {e : Engine} (hroom : e.met.inq.length + l.length ≤ 32) :
    (e.metQueued (e.metIn st l).met.inq).onlyRegs (e.metIn st l) [(R.QUE_LEVEL.LEVEL 68).off] := by
  induction l generalizing e with
  | nil => exact e.onlyRegs_refl _
  | cons m l ih =>
    rw [List.length_cons] at hroom
    have hlen : (e.metPush ⟨m, st⟩).met.inq.length + l.length ≤ 32 := by
      rw [metPush_inq, if_neg (by omega), List.length_append, List.length_singleton]
      omega
    exact onlyRegs_trans (onlyRegs_metQueued (metPush_roomFrame (p := ⟨m, st⟩) (by omega)) _) (ih hlen)

/-- The level follows the last of them. -/
theorem metIn_level (st : MetStat) {l : List MetIn} (hl : l ≠ []) {e : Engine} (hroom : e.met.inq.length + l.length ≤ 32) :
    (e.metIn st l).rd (R.QUE_LEVEL.LEVEL 68) = 32 * (e.metIn st l).met.inq.length := by
  obtain ⟨k, m, rfl⟩ := (List.eq_nil_or_concat' l).resolve_left hl
  rw [List.length_append, List.length_singleton] at hroom
  have hbefore : (e.metIn st k).met.inq.length < 32 := by
    rw [metIn_inq st k (by omega), List.length_append, List.length_map]
    omega
  rw [metIn_append, metIn_cons, metIn_nil, metPush_inq, metPush_room _ _ hbefore, level_rd, if_neg (by omega), List.length_append, List.length_singleton]
  omega

/-- The latest packet stands last, and the one before it stays before it. -/
theorem metPush_last (e : Engine) (p : MetPkt) : ∃ l, (e.metPush p).met.inq = l ++ [p] := ⟨_, e.metPush_inq p⟩

theorem metPush_lastTwo {e : Engine} {l : List MetPkt} {p : MetPkt} (h : e.met.inq = l ++ [p]) (q : MetPkt) : ∃ k, (e.metPush q).met.inq = k ++ [p, q] := by
  rw [metPush_inq, h]
  split
  · next hfull =>
    rw [List.length_append, List.length_singleton] at hfull
    exact ⟨l.drop 1, by rw [List.drop_append_of_le_length (by omega), List.append_assoc]; rfl⟩
  · exact ⟨l, by rw [List.append_assoc]; rfl⟩

theorem metIn_lastTwo (e : Engine) (st : MetStat) (l : List MetIn) (a b : MetIn) :
    ((e.metIn st (l ++ [a, b])).met.inq.reverse.take 2).map (fun p => p.body) = [b, a] := by
  obtain ⟨k, hk⟩ := (e.metIn st l).metPush_last ⟨a, st⟩
  obtain ⟨j, hj⟩ := metPush_lastTwo hk ⟨b, st⟩
  rw [metIn_append, metIn_cons, metIn_cons, metIn_nil, hj]
  simp

end Engine

/-- What the section does of itself, with the packets that it sends. -/
theorem State.onSec_metIn (s : State) (f : Section → Nat → Section × List MetIn) :
    (s.onSec f).eng = s.eng.metIn ((f s.sec s.eng.secNow).1.stat s.eng.secNow) (f s.sec s.eng.secNow).2 := rfl

/-- It sends one packet, and MET_IN has room. -/
theorem State.onSec_sendsOne (s : State) {f : Section → Nat → Section × List MetIn} {x : Section} {m : MetIn} (hf : f s.sec s.eng.secNow = (x, [m]))
    (hroom : s.eng.met.inq.length < 32) : (s.onSec f).sec = x ∧ (s.onSec f).eng.met.inq = s.eng.met.inq ++ [⟨m, x.stat s.eng.secNow⟩] ∧
    (s.onSec f).eng.rd (R.QUE_LEVEL.LEVEL 68) = 32 * (s.eng.met.inq.length + 1) ∧
    (s.eng.metQueued (s.onSec f).eng.met.inq).onlyRegs (s.onSec f).eng [(R.QUE_LEVEL.LEVEL 68).off] := by
  have heng : (s.onSec f).eng = s.eng.metIn (x.stat s.eng.secNow) [m] := by rw [State.onSec_metIn, hf]
  have hinq := Engine.metIn_inq (e := s.eng) (x.stat s.eng.secNow) [m] hroom
  refine ⟨congrArg Prod.fst hf, ?_, ?_, ?_⟩
  · rw [heng, hinq]
    rfl
  · rw [heng, Engine.metIn_level _ (List.cons_ne_nil m []) hroom, hinq, List.length_append, List.length_map, List.length_singleton]
  · rw [heng]
    exact Engine.metIn_room _ [m] hroom

/-! ### The packet at the head of MET_CMD -/

theorem Engine.dropCmd_eq {e : Engine} {c : MetCmd} {rest : List MetCmd} (h : e.met.cmd = c :: rest) : e.dropCmd = { e with met := { e.met with cmd := rest } } := by
  rw [Engine.dropCmd, h]
  rfl

section
variable {s : State} {rest : List MetCmd}

/-- A query is answered as the section answers its kind. -/
theorem execSectionQuery_answers {id kind arg : Nat} (hcmd : s.eng.met.cmd = .query id kind arg :: rest) (hroom : s.eng.met.inq.length < 32) {x : Section}
    {status : Nat} {data extra : List Byte} (ha : s.sec.answer kind arg = (x, status, data, extra)) : ∃ t, exec .sectionQuery s = .next t ∧ t.sec = x ∧
    t.eng.met.inq = s.eng.met.inq ++ [⟨.answer id kind status data extra, t.sec.stat s.eng.secNow⟩] ∧
    t.eng.rd (R.QUE_LEVEL.LEVEL 68) = 32 * (s.eng.met.inq.length + 1) ∧
    ({ s.eng with met := { s.eng.met with cmd := rest, inq := t.eng.met.inq } } : Engine).onlyRegs t.eng [(R.QUE_LEVEL.LEVEL 68).off] ∧
    (t.stg = s.stg ∧ t.pending = s.pending) := by
  have hexec : exec .sectionQuery s = .next (({ s with eng := { s.eng with met := { s.eng.met with cmd := rest } } } : State).onSec fun x _ =>
      ((x.answer kind arg).1, [.answer id kind (x.answer kind arg).2.1 (x.answer kind arg).2.2.1 (x.answer kind arg).2.2.2])) := by
    rw [← Engine.dropCmd_eq hcmd]
    change execSectionQuery s = _
    rw [execSectionQuery, hcmd]
    rfl
  obtain ⟨hsec, hinq, hlevel, hframe⟩ := State.onSec_sendsOne { s with eng := { s.eng with met := { s.eng.met with cmd := rest } } }
    (f := fun x _ => ((x.answer kind arg).1, [.answer id kind (x.answer kind arg).2.1 (x.answer kind arg).2.2.1 (x.answer kind arg).2.2.2]))
    (x := x) (m := .answer id kind status data extra) (by rw [ha]) hroom
  refine ⟨_, hexec, hsec, ?_, hlevel, hframe, rfl, rfl⟩
  rw [hsec]
  exact hinq

/-- A packet that is not of the command's type stays at the head. -/
theorem execSectionQuery_other (h : s.eng.met.cmd.head?.all (fun c => match c with | .query _ _ _ => false | _ => true) = true) :
    ∃ t, exec .sectionQuery s = .next t ∧ t = s := by
  refine ⟨_, rfl, ?_⟩
  split
  · next hcmd => simp [hcmd] at h
  · rfl

theorem execSectionAck_other (h : s.eng.met.cmd.head?.all (fun c => match c with | .ack _ => false | _ => true) = true) :
    ∃ t, exec .sectionAck s = .next t ∧ t = s := by
  refine ⟨_, rfl, ?_⟩
  split
  · next hcmd => simp [hcmd] at h
  · rfl

theorem execSectionSync_other (h : s.eng.met.cmd.head?.all (fun c => match c with | .sync _ => false | _ => true) = true) :
    ∃ t, exec .sectionSync s = .next t ∧ t = s := by
  refine ⟨_, rfl, ?_⟩
  split
  · next hcmd => simp [hcmd] at h
  · rfl

theorem execSectionPeer_other (h : s.eng.met.cmd.head?.all (fun c => match c with | .peer _ => false | _ => true) = true) :
    ∃ t, exec .sectionPeer s = .next t ∧ t = s := by
  refine ⟨_, rfl, ?_⟩
  split
  · next hcmd => simp [hcmd] at h
  · rfl

/-- The state once a packet without an answer has left MET_CMD and acted in the section. -/
def State.taken (s : State) (rest : List MetCmd) (x : Section) : State := { s with eng := { s.eng with met := { s.eng.met with cmd := rest } }, sec := x }

theorem State.onSec_taken {c : MetCmd} (hcmd : s.eng.met.cmd = c :: rest) (f : Section → Nat → Section) :
    (s.onEng Engine.dropCmd).onSec (fun x now => (f x now, [])) = s.taken rest (f s.sec s.eng.secNow) := by
  rw [onSec_quiet _ _ rfl, State.onEng, Engine.dropCmd_eq hcmd]
  rfl

theorem execSectionAck_takes {m : Nat} (hcmd : s.eng.met.cmd = .ack m :: rest) : exec .sectionAck s = .next (s.taken rest (s.sec.ack m)) := by
  rw [← s.onSec_taken hcmd fun x _ => x.ack m]
  change execSectionAck s = _
  rw [execSectionAck, hcmd]

theorem execSectionSync_takes {u : Nat} (hcmd : s.eng.met.cmd = .sync u :: rest) :
    exec .sectionSync s = .next (s.taken rest { s.sec with sync := some (s.eng.secNow - (s.eng.now - u), u) }) := by
  rw [← s.onSec_taken hcmd fun x now => { x with sync := some (now - (s.eng.now - u), u) }]
  change execSectionSync s = _
  rw [execSectionSync, hcmd]

theorem execSectionPeer_takes {b : List Byte} (hcmd : s.eng.met.cmd = .peer b :: rest) : exec .sectionPeer s = .next (s.taken rest (s.sec.takePeer b)) := by
  rw [← s.onSec_taken hcmd fun x _ => x.takePeer b]
  change execSectionPeer s = _
  rw [execSectionPeer, hcmd]

end

/-- A record of the peer verifies, in a section that pairs. -/
def Section.peerVerified (x : Section) (b : List Byte) : Bool :=
  x.params.pairing && b.length == 128 && ecdsaVerify (x.params.peerX, x.params.peerY) (sha256 (b.take 64))
    (fromLe (sliceBytes b 64 32).reverse, fromLe (sliceBytes b 96 32).reverse)

/-- The pieces once the first without a record whose LE_PITCH matches has it. -/
def Section.peerGiven (x : Section) (b : List Byte) : List Piece :=
  ((x.pieces.findIdx? fun p => p.peer.isNone && Section.pitchNear p.lePitch (leAt b 12 4)).map fun i =>
    modAt x.pieces i fun p => { p with peer := some b }).getD x.pieces

theorem Section.takePeer_eq (x : Section) (b : List Byte) :
    x.takePeer b = { x with pieces := if x.peerVerified b = true then x.peerGiven b else x.pieces } := by
  unfold Section.takePeer
  extract_lets ok pieces
  split
  · next hok =>
    rw [if_pos (show x.peerVerified b = true from hok), Section.peerGiven]
    split
    · next i hi => rw [hi]; rfl
    · next hi => rw [hi]; rfl
  · next hok => rw [if_neg (show ¬ x.peerVerified b = true from hok)]

/-- Settles O46: a query is answered on MET_IN, any other packet of its type acts in the section alone; a packet of another type stays. -/
theorem sectionCommandPackets : Obligations.SectionCommandPackets := by
  unfold Obligations.SectionCommandPackets
  refine ⟨fun s h => execSectionQuery_other h, fun s h => execSectionAck_other h, fun s h => execSectionSync_other h, fun s h => execSectionPeer_other h,
    ?ident, ?pubkey, ?record, ?noRecord, ?label, ?labelsFull, ?temps, ?ack, ?sync, ?peer, ?rejected⟩
  case ident => exact fun id arg rest s hcmd hroom => execSectionQuery_answers hcmd hroom rfl
  case pubkey => exact fun id arg rest s hcmd hroom => execSectionQuery_answers hcmd hroom rfl
  case record =>
    intro id arg rest r s hcmd hroom hfound
    exact execSectionQuery_answers hcmd hroom (by rw [Section.answer, hfound])
  case noRecord =>
    intro id arg rest s hcmd hroom hnone
    exact execSectionQuery_answers hcmd hroom (by rw [Section.answer, hnone])
  case label =>
    intro id arg rest s hcmd hroom hfew
    exact execSectionQuery_answers hcmd hroom (by rw [Section.answer, if_pos hfew])
  case labelsFull =>
    intro id arg rest s hcmd hroom hmany
    exact execSectionQuery_answers hcmd hroom (by rw [Section.answer, if_neg hmany.not_gt])
  case temps => exact fun id arg rest s hcmd hroom => execSectionQuery_answers hcmd hroom rfl
  case ack => exact fun m rest s hcmd => ⟨_, execSectionAck_takes hcmd, rfl, rfl, rfl, rfl⟩
  case sync => exact fun u rest s hcmd => ⟨_, execSectionSync_takes hcmd, rfl, rfl, rfl, rfl⟩
  case peer => exact fun b rest s hcmd => ⟨_, execSectionPeer_takes hcmd, s.sec.takePeer_eq b, rfl, rfl, rfl⟩
  case rejected =>
    intro s
    exact ⟨_, rfl, s.onEng_engineOnly _, s.eng.rd_count_same (by simp [Fld.fits]) 1, s.eng.wr_onlyRegs _ (by simp)⟩

end Sys2Proof.Machine
end

section
/-!
PROOFS. The section's pieces and records (R291 to R304, R310): what a tap line moves, and what becomes of a piece that is ready and of a record that is not
acknowledged.
-/

namespace Sys2Proof.Machine

namespace Section

/-! ### Which tap lines are used (R292) -/

/-- The section once the positions latched up to a tap line are used up. -/
def latchesLeft (x : Section) (t : TapLine) : Section :=
  { x with latches := x.latches.filter fun l => !(l.1 == t.side && decide (l.2.1 ≤ t.time)) }

theorem tapLine_other {x : Section} {t : TapLine} (now : Nat) (h : t.side ≠ x.params.side ∨ t.chk.getD x.params.tapSel 0 ≠ 0) :
    x.tapLine now t = x.latchesLeft t := by
  unfold tapLine
  extract_lets pos x1 row beyond
  exact if_pos (h.imp_right .inl)

section
variable {x : Section} {t : TapLine} {l : Nat × Nat × Int} (hlatch : (x.latches.find? fun l => l.1 == t.side && l.2.1 == t.time) = some l)
include hlatch

/-- A line that is not beyond the highest position used. -/
theorem tapLine_behind (now : Nat) {u : Int} (hused : x.used = some u) (hle : l.2.2 ≤ u) : x.tapLine now t = x.latchesLeft t := by
  have hback : (match x.used with | some u => decide (u < l.2.2) | none => true) = false := by
    rw [hused]
    exact decide_eq_false hle.not_gt
  unfold tapLine
  rw [hlatch]
  extract_lets pos x1 row beyond
  exact if_pos (Or.inr (Or.inr (congrArg Bool.not hback)))

variable (hside : t.side = x.params.side) (hchk : t.chk.getD x.params.tapSel 0 = 0) (hbeyond : x.used.getD (l.2.2 - 1) < l.2.2)

omit hlatch in
include hbeyond in
theorem beyond_used : (match x.used with | some u => decide (u < l.2.2) | none => true) = true := by
  cases hu : x.used with
  | none => rfl
  | some u => exact decide_eq_true (by simpa [hu] using hbeyond)

include hside hchk hbeyond

/-- One of the sixteen lines from which the backing level is learned. -/
theorem tapLine_learns (now : Nat) (hn : x.learnN < 16) : x.tapLine now t =
    { x.latchesLeft t with
      learnN := x.learnN + 1, learnSum := x.learnSum + (sumNat (t.rows.getD x.params.tapSel []) : Nat)
      back := if x.learnN = 15 then (x.learnSum + (sumNat (t.rows.getD x.params.tapSel []) : Nat) + 7680) / 15360 else x.back } := by
  unfold tapLine
  rw [hlatch]
  extract_lets pos x1 row beyond n sum x2
  have hok : beyond = true := beyond_used hbeyond
  have hused : ¬ (t.side ≠ x.params.side ∨ t.chk.getD x.params.tapSel 0 ≠ 0 ∨ (!beyond) = true) := by
    rw [hok]
    exact fun h => h.elim (fun h => h hside) fun h => h.elim (fun h => h hchk) Bool.false_ne_true
  have hlast : n = 16 ↔ x.learnN = 15 := by omega
  rw [if_neg hused, if_pos hn]
  simp only [hlast]
  rfl

/-- With the level learned the line moves the pieces. -/
theorem tapLine_uses (now : Nat) (hn : 16 ≤ x.learnN) (hlow : 400 ≤ x.back) (hhigh : x.back ≤ 3900) : x.tapLine now t =
    ((x.latchesLeft t).useLine now t l.2.2 (t.rows.getD x.params.tapSel [])).learn (t.rows.getD x.params.tapSel [])
      (((x.latchesLeft t).useLine now t l.2.2 (t.rows.getD x.params.tapSel [])).doc.any id) := by
  unfold tapLine
  rw [hlatch]
  extract_lets pos x1 row beyond n sum x2
  have hok : beyond = true := beyond_used hbeyond
  have hused : ¬ (t.side ≠ x.params.side ∨ t.chk.getD x.params.tapSel 0 ≠ 0 ∨ (!beyond) = true) := by
    rw [hok]
    exact fun h => h.elim (fun h => h hside) fun h => h.elim (fun h => h hchk) Bool.false_ne_true
  rw [if_neg hused, if_neg hn.not_gt, if_neg (by omega)]
  rfl

end

/-! ### What a used line makes of the pieces (R291, R303, R304) -/

/-- What the statements tell of a piece: label, legality, pitch, whether it is closed, first and last position. -/
def outline (p : Piece) : Nat × Bool × Nat × Bool × Int × Int := (p.label, p.notLegal, p.lePitch, p.closed, p.first, p.last)

theorem markPieces_outline (x : Section) : x.markPieces.pieces.map outline = x.pieces.map outline := by
  rw [markPieces, List.map_map]
  refine List.map_congr_left fun p _ => ?_
  rw [Function.comp_apply]
  split <;> rfl

theorem settleReady_outline (x : Section) (now : Nat) : (x.settleReady now).pieces.map outline = x.pieces.map outline := by
  rw [settleReady, List.map_map]
  refine List.map_congr_left fun p _ => ?_
  rw [Function.comp_apply]
  split <;> rfl

/-- The crossings of a line enter the open piece, where a line was used before. -/
def edgesTaken (x : Section) (prev : Option SecLine) (pos : Int) (c : List Rat) : Section :=
  match prev with
  | some a => x.modOpen fun p => edgesOf p a pos c
  | none => x

theorem edgesTaken_pieces {x : Section} {p : Piece} (h : x.pieces = [p]) (prev : Option SecLine) (pos : Int) (c : List Rat) :
    ∃ q, (x.edgesTaken prev pos c).pieces = [q] ∧ outline q = outline p ∧ q.gap = p.gap := by
  cases prev with
  | none => exact ⟨p, h, rfl, rfl⟩
  | some a =>
    refine ⟨if p.closed then p else edgesOf p a pos c, ?_, ?_, ?_⟩
    · rw [edgesTaken, modOpen, h]
      rfl
    · split <;> rfl
    · split <;> rfl

theorem edgesTaken_only (x : Section) (prev : Option SecLine) (pos : Int) (c : List Rat) :
    x.edgesTaken prev pos c = { x with pieces := (x.edgesTaken prev pos c).pieces } := by
  cases prev <;> rfl

/-- The open piece, where it is the only one, takes a change. -/
theorem modOpen_pieces {x : Section} {p : Piece} (h : x.pieces = [p]) (hopen : p.closed = false) (f : Piece → Piece) : (x.modOpen f).pieces = [f p] := by
  rw [modOpen, h]
  simp [hopen]

theorem timeOf_section (x : Section) (t : Nat) : (x.timeOf t).2.2 = { x with free := x.free + 1 } := by
  unfold timeOf
  extract_lets f
  split
  · split <;> rfl
  · rfl

theorem openAt_only (x : Section) (t : TapLine) (pos : Int) :
    x.openAt t pos = { x with labels := x.labels.drop 1, pieces := (x.openAt t pos).pieces, free := x.free + 1 } := by
  unfold openAt
  extract_lets tm v p src
  have htime : tm.2.2 = { x with free := x.free + 1 } := x.timeOf_section t.time
  clear_value tm
  subst src
  rw [htime]

/-- What the line of a used position leaves beside the pieces. -/
def lineUsed (x : Section) (t : TapLine) (pos : Int) (row : List Nat) : Section :=
  { x with used := some pos, doc := x.docValues (x.contrasts row), line := some ⟨pos, t.time, x.contrasts row⟩ }

section
variable {x : Section} {t : TapLine} {row : List Nat}

/-- A document value between pieces opens one with the oldest label. -/
theorem useLine_opens (hnone : x.pieces = []) (hany : (x.docValues (x.contrasts row)).any id = true) (now : Nat) (pos : Int) :
    (x.useLine now t pos row).pieces.map outline = [(x.labels.headD 0, x.sealOpen, t.pitch, false, pos, pos)] ∧
    x.useLine now t pos row = { x.lineUsed t pos row with
      pieces := (x.useLine now t pos row).pieces, labels := x.labels.drop 1, free := (x.useLine now t pos row).free } := by
  have hidle : x.openPiece.isNone = true := by simp [openPiece, hnone]
  unfold useLine
  extract_lets c doc any x1 x2 vte x3 x4
  have hany' : any = true := hany
  have h1 : x1 = x.openAt t pos := if_pos (by simp [hany', hidle])
  have hopened : ∃ p, x1.pieces = [p] ∧ outline p = (x.labels.headD 0, x.sealOpen, t.pitch, false, pos, pos) := by
    rw [h1, openAt, hnone]
    exact ⟨_, rfl, rfl⟩
  obtain ⟨p, hp, hpout⟩ := hopened
  obtain ⟨q, hq, hqout, -⟩ := edgesTaken_pieces hp x.line pos c
  have h2 : x2 = x1.edgesTaken x.line pos c := rfl
  have hclosed : q.closed = false := congrArg (fun o => o.2.2.2.1) (hqout.trans hpout)
  have h3 : x3 = x2.modOpen _ := if_pos hany'
  have hpieces : x3.pieces.map outline = [(x.labels.headD 0, x.sealOpen, t.pitch, false, pos, pos)] := by
    rw [h3, modOpen_pieces (h2 ▸ hq) hclosed]
    have hlast : ∀ {a b c d e f}, outline q = (a, b, c, d, e, f) → ∀ r : Piece, outline r = (q.label, q.notLegal, q.lePitch, q.closed, q.first, pos) →
      outline r = (a, b, c, d, e, pos) := by
      rintro a b c d e f h r hr
      cases h
      exact hr
    exact congrArg (fun o => [o]) (hlast (hqout.trans hpout) _ rfl)
  have hrest : x3 = { x with labels := x.labels.drop 1, pieces := x3.pieces, free := x.free + 1 } := by
    have hmod : x3 = { x1 with pieces := x3.pieces } := by
      rw [h3, modOpen, h2, edgesTaken_only]
    rw [hmod, h1, openAt_only]
  have h4 : x4 = { x.lineUsed t pos row with pieces := x3.pieces, labels := x.labels.drop 1, free := x.free + 1 } := by
    unfold x4
    rw [if_pos (by simp [hany']), hrest]
    rfl
  refine ⟨?_, ?_⟩
  · rw [settleReady_outline, markPieces_outline]
    exact hpieces
  · rw [h4]
    rfl

/-- A line without a document value in an open piece stands behind its trailing edge, and enough of them in a row close it. -/
theorem useLine_off {p : Piece} (hone : x.pieces = [p]) (hopen : p.closed = false) (hany : (x.docValues (x.contrasts row)).any id = false) (now : Nat)
    (pos : Int) : (x.useLine now t pos row).pieces.map outline =
      [(p.label, p.notLegal, p.lePitch, decide (max 1 Config.sectionConfirm ≤ p.gap + 1), p.first, if p.gap = 0 then pos else p.last)] ∧
    x.useLine now t pos row = { x.lineUsed t pos row with pieces := (x.useLine now t pos row).pieces } := by
  have hbusy : x.openPiece.isSome = true := by simp [openPiece, hone, hopen]
  unfold useLine
  extract_lets c doc any x1 x2 vte x3 x4
  have hany' : any = false := hany
  have h1 : x1 = x := if_neg (by simp [hany'])
  obtain ⟨q, hq, hqout, hqgap⟩ := edgesTaken_pieces (h1 ▸ hone) x.line pos c
  have h2 : x2 = x1.edgesTaken x.line pos c := rfl
  have hclosed : q.closed = false := (congrArg (fun o => o.2.2.2.1) hqout).trans hopen
  have h3 : x3 = x2.modOpen fun p => offEdge p pos vte := if_neg (by simp [hany'])
  have hpieces : x3.pieces.map outline =
      [(p.label, p.notLegal, p.lePitch, decide (max 1 Config.sectionConfirm ≤ p.gap + 1), p.first, if p.gap = 0 then pos else p.last)] := by
    rw [h3, modOpen_pieces (h2 ▸ hq) hclosed]
    simp only [outline, Prod.mk.injEq] at hqout
    obtain ⟨hlabel, hlegal, hpitch, -, hfirst, hlast⟩ := hqout
    simp only [List.map_cons, List.map_nil, outline, offEdge, hlabel, hlegal, hpitch, hfirst, hlast, hqgap]
  have h4 : x4 = { x.lineUsed t pos row with pieces := x3.pieces } := by
    have hrest : x3 = { x with pieces := x3.pieces } := by
      rw [h3, modOpen, h2, edgesTaken_only, h1]
    unfold x4
    rw [if_pos (by simp [hbusy]), hrest]
    rfl
  refine ⟨?_, ?_⟩
  · rw [settleReady_outline, markPieces_outline]
    exact hpieces
  · rw [h4]
    rfl

end

/-- The level learns from a line without a document value alone (R291). -/
theorem learn_doc (x : Section) (row : List Nat) : x.learn row true = x := rfl

end Section

/-! ### SECTION_TAP_LINE -/

/-- The state once the line at the head of a side's tap has acted in the section. -/
def State.tapTaken (s : State) (side : Side) (x : Section) : State :=
  { s with eng := { s.eng with met := { s.eng.met with tap := modAt s.eng.met.tap side.val fun q => q.drop 1 } }, sec := x }

theorem execSectionTapLine_none {s : State} {side : Side} (h : s.eng.met.tap.getD side.val [] = []) : ∃ t, exec (.sectionTapLine side) s = .next t ∧ t = s := by
  refine ⟨_, rfl, ?_⟩
  rw [h]

theorem execSectionTapLine_takes {s : State} {side : Side} {b : TapLine} {more : List TapLine} (h : s.eng.met.tap.getD side.val [] = b :: more)
    {x : Section} (hx : s.sec.tapLine s.eng.secNow b = x) : exec (.sectionTapLine side) s = .next (s.tapTaken side x) := by
  change execSectionTapLine side s = _
  rw [execSectionTapLine, h]
  dsimp only
  rw [onSec_quiet _ _ rfl, ← hx]
  rfl

/-! ### RECORD_SEND (R299 to R303, R310) -/

namespace Section

/-- The peer's MSEQ, differences and PAIR_DIFF that a record shows of a piece. -/
def peerOf (x : Section) (p : Piece) : Nat × List Int × Bool := (p.peer.map (peerFields (x.measure p))).getD (0, [0, 0, 0], false)

/-- The first 64 bytes of the next record. -/
def nextHead (x : Section) (p : Piece) : List Byte := x.recordHead p (x.measure p) (x.mseq + 1) (x.peerOf p) (x.params.pairing && p.peer.isNone)

theorem prune_only (x : Section) : x.prune = { x with thick := x.prune.thick } := rfl

/-- The signature's nonce is the next free value (log 15). -/
def signature (x : Section) (head : List Byte) : Nat × Nat := ecdsaSign (Config.sectionKey x.keyGen) (Config.sectionFree x.free) (sha256 head)

/-- A head with its signature. -/
def withSignature (x : Section) (head : List Byte) : List Byte := head ++ beBytes 32 (x.signature head).1 ++ beBytes 32 (x.signature head).2

section
variable {x : Section} {now : Nat}

theorem sendRecord_none (h : (x.pieces.head?.bind fun p => p.ready) = none) : x.sendRecord now = (x, []) := by
  unfold sendRecord
  split
  · next p rest hp =>
    rw [hp] at h
    extract_lets wait
    have hready : p.ready.isNone = true := by simpa using h
    exact if_pos (by rw [hready]; rfl)
  · rfl

variable {p : Piece} {rest : List Piece} {u : Nat} (hp : x.pieces = p :: rest) (hu : p.ready = some u)
include hu

/-- What a record needs beside its result: its peer's record where pairing asks one, or 50 ms. -/
theorem recordDue (hdue : x.params.pairing = false ∨ p.peer ≠ none ∨ u + 50000000 ≤ now) :
    (x.params.pairing && p.peer.isNone && (match p.ready with | some t => decide (now < t + 50000000) | none => true)) = false := by
  rw [hu]
  rcases hdue with h | h | h
  · simp [h]
  · simp [Option.isNone_eq_false_iff.mpr (Option.ne_none_iff_isSome.mp h)]
  · simp [h.not_gt]

include hp

theorem sendRecord_waits (hpair : x.params.pairing = true) (hpeer : p.peer = none) (hearly : now < u + 50000000) : x.sendRecord now = (x, []) := by
  unfold sendRecord
  rw [hp]
  exact if_pos (by simp [hpair, hpeer, hu, hearly])

/-- A piece that is due becomes the next record. -/
theorem sendRecord_signs (hdue : x.params.pairing = false ∨ p.peer ≠ none ∨ u + 50000000 ≤ now) (hbacklog : x.backlog < 4096) (hstore : x.store.length < 4096) :
    x.sendRecord now = (({ x with
      pieces := rest, mseq := x.mseq + 1, free := x.free + 1
      store := x.store ++ [⟨x.mseq + 1, x.withSignature (x.nextHead p), false, some now⟩] } : Section).prune,
      .record (x.mseq + 1) (x.withSignature (x.nextHead p)) :: recordNotices p (x.mseq + 1) (x.peerOf p) (x.params.pairing && p.peer.isNone)) := by
  unfold sendRecord
  split
  · next q others hq =>
    obtain ⟨rfl, rfl⟩ := List.cons.inj (hp.symm.trans hq)
    extract_lets wait y r missing peer n sg st src
    have hgo : ¬ (p.ready.isNone || wait) = true := by
      rw [show wait = false from recordDue hu hdue, hu]
      exact Bool.false_ne_true
    have hpeer : peer = x.peerOf p := by
      unfold peer peerOf
      cases p.peer <;> rfl
    have hst : st = x.store := if_neg hstore.not_ge
    rw [if_neg hgo, if_neg hbacklog.not_ge]
    have hsg : sg = (x.withSignature (x.nextHead p), { y with free := x.free + 1 }) := by
      unfold sg nextHead
      rw [← hpeer]
      rfl
    unfold src
    rw [hst, hpeer, hsg]
  · next hq => rw [hp] at hq; cases hq

/-- With 4,096 records unacknowledged it leaves without one. -/
theorem sendRecord_full (hdue : x.params.pairing = false ∨ p.peer ≠ none ∨ u + 50000000 ≤ now) (hbacklog : 4096 ≤ x.backlog) :
    x.sendRecord now = (({ x with pieces := rest } : Section).prune, [.notice 8 0 0]) := by
  unfold sendRecord
  split
  · next q others hq =>
    obtain ⟨rfl, rfl⟩ := List.cons.inj (hp.symm.trans hq)
    extract_lets wait y
    have hgo : ¬ (p.ready.isNone || wait) = true := by
      rw [show wait = false from recordDue hu hdue, hu]
      exact Bool.false_ne_true
    rw [if_neg hgo, if_pos hbacklog]
  · next hq => rw [hp] at hq; cases hq

end

/-- At most three notices go with a record. -/
theorem recordNotices_length (p : Piece) (mseq : Nat) (peer : Nat × List Int × Bool) (missing : Bool) : (recordNotices p mseq peer missing).length ≤ 3 := by
  have hif (b : Bool) (m : MetIn) : (if b = true then [m] else []).length ≤ 1 := by cases b <;> simp
  have hunsync : (match p.unsync with | some ms => [MetIn.notice 7 mseq ms] | none => []).length ≤ 1 := by
    cases p.unsync <;> simp
  rw [recordNotices, List.length_append, List.length_append]
  exact Nat.add_le_add (Nat.add_le_add (hif _ _) (hif _ _)) hunsync

/-! ### RECORD_RETRANSMIT (R222) -/

/-- The section once a record has gone out again. -/
def resent (x : Section) (now : Nat) (r : SecRec) : Section :=
  { x with store := x.store.map fun q => if q.mseq = r.mseq then { q with sent := some now } else q }

theorem resend_eq (x : Section) (now : Nat) : x.resend now =
    (x.store.find? fun r => !r.acked && (r.sent.all fun t => decide (t + 5000000 ≤ now))).map fun r => (x.resent now r, [.record r.mseq r.bytes]) := by
  have hpred (r : SecRec) (b : Bool) (hb : ∀ t, r.sent = some t → b = decide (t + 5000000 ≤ now)) (hnone : r.sent = none → b = true) :
      (!r.acked && b) = (!r.acked && (r.sent.all fun t => decide (t + 5000000 ≤ now))) := by
    cases h : r.sent with
    | none => rw [hnone h, Option.all_none]
    | some t => rw [hb t h, Option.all_some]
  unfold resend
  have hfind : ∀ {p : SecRec → Bool} {o : Option SecRec}, x.store.find? p = o → (∀ r, p r = (!r.acked && (r.sent.all fun t => decide (t + 5000000 ≤ now)))) →
      x.store.find? (fun r => !r.acked && (r.sent.all fun t => decide (t + 5000000 ≤ now))) = o := by
    rintro p o rfl hp
    rw [funext hp]
  split
  · next r hr =>
    rw [hfind hr fun q => hpred q _ (fun t h => by rw [h]) fun h => by rw [h]]
    rfl
  · next hr =>
    rw [hfind hr fun q => hpred q _ (fun t h => by rw [h]) fun h => by rw [h]]
    rfl

theorem resend_acked {x : Section} (h : x.store.all (fun r => r.acked) = true) (now : Nat) : x.resend now = none := by
  rw [resend_eq, Option.map_eq_none_iff, List.find?_eq_none]
  intro r hr
  rw [List.all_eq_true.mp h r hr]
  simp

end Section

/-! ### The commands -/

/-- A section that sends nothing and stays leaves the state as it was. -/
theorem State.onSec_rests (s : State) {f : Section → Nat → Section × List MetIn} (hf : f s.sec s.eng.secNow = (s.sec, [])) : s.onSec f = s := by
  rw [onSec_quiet s f (congrArg Prod.snd hf), hf]

theorem State.onSec_stat {s : State} {f : Section → Nat → Section × List MetIn} {x : Section} {l : List MetIn} (hf : f s.sec s.eng.secNow = (x, l)) :
    (s.onSec f).sec = x ∧ (s.onSec f).eng = s.eng.metIn (x.stat s.eng.secNow) l :=
  ⟨congrArg Prod.fst hf, by rw [State.onSec_metIn, hf]⟩

/-- A record sent again counts. -/
theorem execRecordRetransmit_sends {s : State} {r : SecRec}
    (hr : (s.sec.store.find? fun r => !r.acked && (r.sent.all fun t => decide (t + 5000000 ≤ s.eng.secNow))) = some r) : exec .recordRetransmit s =
    .next ((s.onEng fun e => e.count R.MET_RETX_CNT.V 1).onSec fun _ _ => (s.sec.resent s.eng.secNow r, [.record r.mseq r.bytes])) := by
  change execRecordRetransmit s = _
  rw [execRecordRetransmit, Section.resend_eq, hr]
  rfl

/-- Settles O47: a tap line moves the pieces by where it lies and what it shows; the oldest piece and the oldest record leave by what is ready and due. -/
theorem sectionRecords : Obligations.SectionRecords := by
  unfold Obligations.SectionRecords
  refine ⟨fun side s h => execSectionTapLine_none h, ?other, ?behind, ?learns, ?opens, ?off, ?noneReady, ?waits, ?signs, ?full, ?resends, ?allAcked⟩
  case other =>
    intro side b more s hq h
    exact ⟨_, execSectionTapLine_takes hq (Section.tapLine_other _ h), rfl, rfl, rfl, rfl⟩
  case behind =>
    intro side b more l u s hq hlatch hused hle
    exact ⟨_, execSectionTapLine_takes hq (Section.tapLine_behind hlatch _ hused hle), rfl, rfl, rfl, rfl⟩
  case learns =>
    intro side b more l s hq hside hchk hlatch hbeyond hn
    exact ⟨_, execSectionTapLine_takes hq (Section.tapLine_learns hlatch hside hchk hbeyond _ hn), rfl, rfl, rfl, rfl⟩
  case opens =>
    intro side b more l s hq hside hchk hlatch hbeyond hn hlow hhigh hnone hany
    have huse := Section.tapLine_uses hlatch hside hchk hbeyond s.eng.secNow hn hlow hhigh
    obtain ⟨hout, hrest⟩ := Section.useLine_opens (x := s.sec.latchesLeft b) (t := b) hnone hany s.eng.secNow l.2.2
    generalize (s.sec.latchesLeft b).useLine s.eng.secNow b l.2.2 _ = y at huse hout hrest
    have hdoc : y.doc.any id = true := by rw [hrest]; exact hany
    rw [hdoc, Section.learn_doc] at huse
    exact ⟨_, execSectionTapLine_takes hq huse, hout, hrest, rfl, rfl, rfl⟩
  case off =>
    intro side b more l p s hq hside hchk hlatch hbeyond hn hlow hhigh hone hopen hany
    have huse := Section.tapLine_uses hlatch hside hchk hbeyond s.eng.secNow hn hlow hhigh
    obtain ⟨hout, hrest⟩ := Section.useLine_off (x := s.sec.latchesLeft b) (t := b) hone hopen hany s.eng.secNow l.2.2
    generalize (s.sec.latchesLeft b).useLine s.eng.secNow b l.2.2 _ = y at huse hout hrest
    have hdoc : y.doc.any id = false := by rw [hrest]; exact hany
    rw [hdoc] at huse
    refine ⟨_, execSectionTapLine_takes hq huse, hout, ?_, rfl, rfl, rfl⟩
    change y.learn _ false = _
    rw [hrest]
    rfl
  case noneReady =>
    intro s h
    exact ⟨_, rfl, s.onSec_rests (Section.sendRecord_none h)⟩
  case waits =>
    intro p rest u s hp hu hpair hpeer hearly
    exact ⟨_, rfl, s.onSec_rests (Section.sendRecord_waits hp hu hpair hpeer hearly)⟩
  case signs =>
    intro p rest u s hp hu hdue hbacklog hstore hroom
    obtain ⟨hsec, heng⟩ := State.onSec_stat (s := s) (f := fun x now => x.sendRecord now) (Section.sendRecord_signs hp hu hdue hbacklog hstore)
    have hfew := Section.recordNotices_length p (s.sec.mseq + 1) (s.sec.peerOf p) (s.sec.params.pairing && p.peer.isNone)
    have hfits : s.eng.met.inq.length + (MetIn.record (s.sec.mseq + 1) (s.sec.withSignature (s.sec.nextHead p)) ::
        Section.recordNotices p (s.sec.mseq + 1) (s.sec.peerOf p) (s.sec.params.pairing && p.peer.isNone)).length ≤ 32 := by
      rw [List.length_cons]
      omega
    refine ⟨_, rfl, ?_, ?_, ?_, rfl, rfl⟩
    · intro head hhead
      have hnext : s.sec.nextHead p = head := hhead.symm
      have hinq := congrArg (fun e => e.met.inq) heng
      rw [Engine.metIn_inq _ _ hfits, ← hsec] at hinq
      rw [hnext] at hsec hinq
      simp only [Section.withSignature, Section.signature, Section.peerOf] at hsec hinq
      clear heng hfits hnext hhead hfew
      refine ⟨?_, hinq⟩
      have hpruned := hsec.trans (Section.prune_only _)
      rw [← hsec] at hpruned
      exact hpruned
    · rw [heng]
      exact Engine.metIn_level _ (List.cons_ne_nil _ _) hfits
    · rw [heng]
      exact Engine.metIn_room _ _ hfits
  case full =>
    intro p rest u s hp hu hpair hbacklog hroom
    obtain ⟨hsec, hinq, hlevel, hframe⟩ := s.onSec_sendsOne (f := fun x now => x.sendRecord now) (Section.sendRecord_full hp hu (.inl hpair) hbacklog) hroom
    refine ⟨_, rfl, ?_, ?_, hlevel, hframe, rfl, rfl⟩
    · rw [hsec]
      rfl
    · rw [hsec]
      exact hinq
  case resends =>
    intro r s hr hroom
    obtain ⟨hsec, hinq, hlevel, hframe⟩ := (s.onEng fun e => e.count R.MET_RETX_CNT.V 1).onSec_sendsOne
      (f := fun _ _ => (s.sec.resent s.eng.secNow r, [.record r.mseq r.bytes])) rfl hroom
    refine ⟨_, execRecordRetransmit_sends hr, hsec, ?_, ?_, hlevel, ?_, rfl, rfl⟩
    · rw [Engine.onlyRegs_rd hframe (by decide)]
      exact s.eng.rd_count_same (by simp [Fld.fits]) 1
    · rw [hsec]
      exact hinq
    · exact Engine.onlyRegs_trans (Engine.onlyRegs_metQueued (s.eng.wr_onlyRegs _ (by simp)) _) (Engine.onlyRegs_mono hframe (by simp))
  case allAcked =>
    intro s h
    refine ⟨_, rfl, ?_⟩
    rw [Section.resend_acked h]

end Sys2Proof.Machine
end

section
/-!
PROOFS. Changes of mode (R340, R342): what they leave alone, what they tell, and which commands stay open through them.
-/

namespace Sys2Proof.Machine

namespace Engine

/-! ### What a change of mode leaves alone -/

/-- The parts of the engine that neither a change of mode nor what stands beside it on entry to M3 touches. -/
def besideModes (e : Engine) : Engine :=
  { e with regs := [], mode := .m0, free := 0, evt := Engine.reset.evt, opens := [], tg := [], job := JobSt.init, pair := PairSt.init, afe := [],
           chans := [], shd := ShdSt.init, cal := CalSt.init }

theorem eq_of_besideModes {e x : Engine} (h : x.besideModes = e.besideModes) : x =
    { x with now := e.now, jump := e.jump, rsp := e.rsp, trans := e.trans, resetting := e.resetting, pins := e.pins, flash := e.flash, link := e.link, cmdIn := e.cmdIn, rings := e.rings, status := e.status, streams := e.streams, dma := e.dma, mot := e.mot, pac := e.pac, feed := e.feed, squall := e.squall, frames := e.frames, gus := e.gus, qdr := e.qdr, eddy := e.eddy, geo := e.geo, mon := e.mon, met := e.met, mets := e.mets } := by
  cases e
  cases x
  simp only [besideModes, Engine.mk.injEq] at h ⊢
  simp only [h, and_self]

theorem besideModes_of_books {e x : Engine} {offs : List Nat} (h : e.onlyBooks x offs) : x.besideModes = e.besideModes := by
  rw [h.1]
  rfl

theorem gapAbandon_besideModes (e : Engine) : e.gapAbandon.besideModes = e.besideModes := by
  rw [e.gapAbandon_onlyRegs.1]
  rfl

/-- The end of a fade that has not begun tells of it; beside that it changes registers and fades alone (R111). -/
theorem dropFades_unbegun {e : Engine} {w : SwapSt} (h : e.shd.fade = some w) (hbegun : w.begun = false) :
    e.dropFades.beyondFades = (e.bankSwapped w w.n0).beyondFades := by
  have hactive (y : Engine) : (y.swapActive w.mask).beyondFades = y.beyondFades := by
    rw [(y.swapActive_onlyRegs w.mask).1]
    rfl
  unfold dropFades
  rw [h]
  simp only [hbegun, Bool.false_eq_true, if_false]
  generalize e.bankSwapped w w.n0 = y
  split
  · refine (foldl_keep beyondFades _ ?_ _ _).trans (hactive y)
    exact fun _ _ => rfl
  · exact hactive y

theorem dropFades_besideModes (e : Engine) : e.dropFades.besideModes = e.besideModes := by
  obtain ⟨y, hy, hbeyond⟩ := e.dropFades_cases
  change e.dropFades.beyondFades.besideModes = e.besideModes
  rw [hbeyond]
  change y.besideModes = e.besideModes
  rcases hy with rfl | ⟨w, rfl⟩
  · rfl
  · exact besideModes_of_books (emit_books e _ _ _ _ _ _ [])

/-- An engine without its registers, the runs of its sides and its channels. -/
def besideRuns (e : Engine) : Engine := { e with regs := [], tg := [], chans := [] }

theorem stopConversion_besideRuns (e : Engine) (s : Nat) : (e.stopConversion s).besideRuns = e.besideRuns := by
  have hcount (l : List Nat) (x : Engine) : (l.foldl (fun x k => x.count (R.QUE_BAD.V (32 * s + k)) 1) x).besideRuns = x.besideRuns := by
    refine foldl_keep besideRuns _ ?_ _ _
    exact fun _ _ => rfl
  unfold stopConversion
  extract_lets src e1 e2
  split
  · split
    · exact hcount (e.enabledCh s) e1
    · rfl
  · rfl

theorem stopAtBoundary_besideRuns (e : Engine) (s : Nat) : (e.stopAtBoundary s).besideRuns = e.besideRuns := by
  unfold stopAtBoundary
  split
  · split
    · rfl
    · exact e.stopConversion_besideRuns s
  · exact e.stopConversion_besideRuns s

/-- How the sides stop on entry to a mode (R338, R340). -/
def sidesStopped (e : Engine) (m : Mode) : Engine :=
  if m = .m3 ∨ m = .m11 then (e.stopAtBoundary 0).stopAtBoundary 1
  else if m.idx < 4 ∨ 9 < m.idx then (e.stopConversion 0).stopConversion 1 else e

theorem sidesStopped_besideRuns (e : Engine) (m : Mode) : (e.sidesStopped m).besideRuns = e.besideRuns := by
  unfold sidesStopped
  split
  · rw [stopAtBoundary_besideRuns, stopAtBoundary_besideRuns]
  · split
    · rw [stopConversion_besideRuns, stopConversion_besideRuns]
    · rfl

/-- What a change of mode has done when it is told. -/
def modeEntered (e : Engine) (m : Mode) : Engine :=
  let e3 := if m = .m3 ∨ m = .m5 then e.gapAbandon.dropFades else e.gapAbandon
  let e4 := e3.sidesStopped m
  let e5 := if m = .m5 then
      { e4 with chans := e4.chans.map fun (h : ChanSt) => { h with means := [] }, shd := { e4.shd with windows := [], force := ShdSt.init.force } }
    else e4
  { e5 with
    mode := m, cal := { e5.cal with bootTime := if e.mode = .m1 ∧ m = .m3 then e.now else e5.cal.bootTime }
    job := { e4.job with dark := if m = Mode.m3 then 0 else e5.job.dark } }

/-- A change of mode: what changes, the event that tells of it, the commands that end with it. -/
theorem changeMode_told {e : Engine} {m : Mode} (h : m ≠ e.mode) (cause : Nat) (hs : Option Nat) : e.changeMode m cause hs =
    (let x := (e.modeEntered m).emit 0x15 m.idx 0 (e.mode.idx + 256 * cause) hs []
     let y := if m = .m3 ∨ m = .m5 then x.fadesDone e.gapAbandon.shd else x
     if m = .m3 then y.abortCalGap else y) := by
  unfold changeMode
  rw [if_neg h]
  rfl

/-- After the event only answers follow. -/
theorem changeMode_books {e : Engine} {m : Mode} (h : m ≠ e.mode) (cause : Nat) (hs : Option Nat) (offs : List Nat) :
    (e.modeEntered m).onlyBooks (e.changeMode m cause hs) offs := by
  rw [changeMode_told h]
  extract_lets x y
  have hx : (e.modeEntered m).onlyBooks x offs := emit_books ..
  have hy : (e.modeEntered m).onlyBooks y offs := by
    unfold y
    split
    · exact onlyBooks_trans hx (fadesDone_books ..)
    · exact hx
  split
  · exact onlyBooks_trans hy (finishAll_books ..)
  · exact hy

theorem modeEntered_besideModes (e : Engine) (m : Mode) : (e.modeEntered m).besideModes = e.besideModes := by
  unfold modeEntered
  extract_lets e3 e4 src e5
  have h3 : e3.besideModes = e.besideModes := by
    unfold e3
    split
    · rw [dropFades_besideModes, gapAbandon_besideModes]
    · exact e.gapAbandon_besideModes
  have h4 : e4.besideModes = e3.besideModes := congrArg (fun x => x.besideModes) (e3.sidesStopped_besideRuns m)
  have h5 : e5.besideModes = e4.besideModes := by
    unfold e5
    split <;> rfl
  exact h5.trans (h4.trans h3)

theorem changeMode_besideModes (e : Engine) (m : Mode) (cause : Nat) (hs : Option Nat) : (e.changeMode m cause hs).besideModes = e.besideModes := by
  by_cases h : m = e.mode
  · rw [changeMode, if_pos h]
  · rw [besideModes_of_books (changeMode_books h cause hs []), modeEntered_besideModes]

theorem changeMode_mode (e : Engine) (m : Mode) (cause : Nat) (hs : Option Nat) : (e.changeMode m cause hs).mode = m := by
  by_cases h : m = e.mode
  · rw [changeMode, if_pos h, h]
  · rw [(changeMode_books h cause hs []).1]
    rfl

/-- M3 starts with no dark lines counted. -/
theorem changeMode_m3_dark {e : Engine} (h : e.mode ≠ .m3) (cause : Nat) (hs : Option Nat) : (e.changeMode .m3 cause hs).job.dark = 0 := by
  rw [(changeMode_books h.symm cause hs []).1]
  rfl

/-! ### Entry to M3 (R382) -/

theorem readStraps_besideModes (e : Engine) (s : Nat) : (e.readStraps s).besideModes = e.besideModes := rfl

theorem enterIdle_besideModes (e : Engine) : e.enterIdle.besideModes = e.besideModes := rfl

theorem hop_eq {e : Engine} {m : Mode} (h5 : e.mode ≠ .m5) (h9 : e.mode ≠ .m9) (hm : m ≠ .m2) (cause : Nat) (hs : Option Nat) : e.hop m cause hs =
    if m = .m3 then (e.changeMode m cause hs).enterIdle else e.changeMode m cause hs := by
  unfold hop
  extract_lets e1 src e2 e3
  have h1 : e1 = e := if_neg fun h => h5 h.1
  have h2 : e2 = e := by
    unfold e2
    rw [h1, if_neg h9]
  have h3 : e3 = e.changeMode m cause hs := congrArg (fun x : Engine => x.changeMode m cause hs) h2
  rw [h3]
  split
  · exact absurd rfl hm
  · exact (if_pos rfl).symm
  · next hne => exact (if_neg hne).symm

theorem hop_m3 {e : Engine} (h5 : e.mode ≠ .m5) (h9 : e.mode ≠ .m9) (cause : Nat) (hs : Option Nat) :
    e.hop .m3 cause hs = (e.changeMode .m3 cause hs).enterIdle := hop_eq h5 h9 (by decide) cause hs

/-! ### A swap that has not begun is told before the change of mode -/

theorem unanswered_congr {e x : Engine} (h : x.opens = e.opens) : x.unanswered = e.unanswered := by
  rw [unanswered, h, unanswered]

theorem swapDone_grows {e : Engine} (hl : e.evt.lost = none) (hroom : e.evt.queue.length + e.unanswered.length ≤ 256) (w : SwapSt) (st : Nat) :
    e.growsBy (e.swapDone w st) := by
  unfold swapDone
  split
  next c hc =>
    have hmem : c ∈ e.unanswered := List.mem_filter.mpr ⟨List.mem_of_find?_eq_some hc, by
      have := List.find?_some hc
      simp only [Bool.and_eq_true] at this
      exact this.2⟩
    exact (finish_grows hl hroom hmem st _).1
  next => exact growsBy_of_eq hl rfl rfl

theorem fadesDone_grows {e : Engine} (hl : e.evt.lost = none) (hroom : e.evt.queue.length + e.unanswered.length ≤ 256) (d : ShdSt) :
    e.growsBy (e.fadesDone d) := by
  unfold fadesDone
  split
  · exact growsBy_of_eq hl rfl rfl
  · next w _ =>
    have hfirst := swapDone_grows hl hroom w stOk
    dsimp only
    split
    · exact hfirst.trans (swapDone_grows hfirst.noLoss (hfirst.within.trans hroom) _ _)
    · exact hfirst

/-- With room for it and for what ends with it, EVT grows by the event of the change and by answers. -/
theorem changeMode_kept {e : Engine} {m : Mode} (h : m ≠ e.mode) (hr : e.resetting = none) (hf : e.pins.failed = false)
    (hl : (e.modeEntered m).evt.lost = none) (hroom : (e.modeEntered m).evt.queue.length + (e.modeEntered m).unanswered.length ≤ 255) (cause : Nat)
    (hs : Option Nat) : ∃ v : Ev, v.brief = (0x15, m.idx, 0, hs, e.mode.idx + 256 * cause) ∧
      (e.modeEntered m).evt.queue ++ [v] <+: (e.changeMode m cause hs).evt.queue := by
  have hbeside := e.modeEntered_besideModes m
  have hr' : (e.modeEntered m).resetting = none := (congrArg Engine.resetting hbeside :).trans hr
  have hf' : (e.modeEntered m).pins.failed = false := (congrArg (fun x : Engine => x.pins.failed) hbeside :).trans hf
  obtain ⟨v, hbrief, hqueue, hnone, hopens⟩ := emit_queue hr' hf' hl (by omega) 0x15 m.idx 0 (e.mode.idx + 256 * cause) hs []
  refine ⟨v, hbrief, ?_⟩
  rw [changeMode_told h]
  extract_lets x y
  have hx : x.growsBy x := growsBy_of_eq hnone rfl rfl
  have hroomx : x.evt.queue.length + x.unanswered.length ≤ 256 := by
    have hun : x.unanswered = (e.modeEntered m).unanswered := unanswered_congr hopens
    have hlen : x.evt.queue.length = (e.modeEntered m).evt.queue.length + 1 := (congrArg List.length hqueue).trans List.length_append
    rw [hun, hlen]
    omega
  have hy : x.growsBy y := by
    unfold y
    split
    · exact fadesDone_grows hnone hroomx _
    · exact hx
  rw [← hqueue]
  split
  · exact (hy.trans (finishAll_grows hy.noLoss (hy.within.trans hroomx) rfl _ _)).kept
  · exact hy.kept

theorem modeEntered_m3_books (e : Engine) :
    (e.modeEntered .m3).evt = e.gapAbandon.dropFades.evt ∧ (e.modeEntered .m3).opens = e.gapAbandon.dropFades.opens := by
  have hstop := e.gapAbandon.dropFades.sidesStopped_besideRuns .m3
  exact ⟨(congrArg Engine.evt hstop :), (congrArg Engine.opens hstop :)⟩

/-- BANK_SWAPPED is the first event of an entry to M3 that gives up a swap not begun (R111). -/
theorem changeMode_m3_tellsSwap {e : Engine} (hroom : e.roomy) (h3 : e.mode ≠ .m3) {w : SwapSt} (hfade : e.shd.fade = some w) (hbegun : w.begun = false)
    (cause : Nat) (hs : Option Nat) : e.says (e.changeMode .m3 cause hs) 0x0C 0 0 (some w.hseq) 0 := by
  obtain ⟨⟨hr, hf⟩, hlost, hlen⟩ := hroom
  have hgap : e.gapAbandon.resetting = none ∧ e.gapAbandon.pins.failed = false ∧ e.gapAbandon.shd.fade = some w := by
    rw [e.gapAbandon_onlyRegs.1]
    exact ⟨hr, hf, hfade⟩
  obtain ⟨hgr, hgf, hgfade⟩ := hgap
  obtain ⟨v, hv, hq, hl, hopens⟩ := emit_queue hgr hgf (e.gapAbandon_evt ▸ hlost) (by rw [gapAbandon_evt]; omega) 0x0C 0 0 0 (some w.hseq)
    [(24, 8, w.mask), (32, 6, w.n0), (38, 2, w.len)]
  have hdrop := dropFades_unbegun hgfade hbegun
  have hdropEvt : e.gapAbandon.dropFades.evt = (e.gapAbandon.bankSwapped w w.n0).evt := (congrArg Engine.evt hdrop :)
  have hdropOpens : e.gapAbandon.dropFades.opens = (e.gapAbandon.bankSwapped w w.n0).opens := (congrArg Engine.opens hdrop :)
  have hqueue : (e.modeEntered .m3).evt.queue = e.evt.queue ++ [v] := by
    rw [e.modeEntered_m3_books.1, hdropEvt, ← e.gapAbandon_evt]
    exact hq
  have hcmds : (e.modeEntered .m3).opens = e.opens := by
    rw [e.modeEntered_m3_books.2, hdropOpens, ← e.gapAbandon_opens]
    exact hopens
  have hnone : (e.modeEntered .m3).evt.lost = none := by
    rw [e.modeEntered_m3_books.1, hdropEvt]
    exact hl
  have hunanswered : (e.modeEntered .m3).unanswered.length ≤ e.opens.length := hcmds ▸ List.length_filter_le _ _
  obtain ⟨_, -, hkept⟩ := changeMode_kept h3.symm hr hf hnone (by rw [hqueue, List.length_append, List.length_singleton]; omega) cause hs
  rw [hqueue] at hkept
  have hsays := says_of_extension ((List.prefix_append _ _).trans hkept)
  simp only [Ev.brief, Prod.mk.injEq] at hv
  obtain ⟨hcode, hsubj, hstatus, hhseq, harg⟩ := hv
  rwa [hcode, hsubj, hstatus, hhseq, harg] at hsays

end Engine

/-! ### The seal closes in M11 with such a swap (R111, R306, R340) -/

/-- The engine without its registers and the packets between it and the section. -/
def Engine.besidePackets (e : Engine) : Engine := { e with regs := [], met := ⟨[], [], []⟩ }

theorem Engine.metIn_besidePackets (e : Engine) (st : MetStat) (l : List MetIn) : (e.metIn st l).besidePackets = e.besidePackets := by
  rw [(e.metIn_frame st l).1]
  rfl

/-- The engine once the section has closed its seal. -/
def State.sealShut (s : State) : State := (s.onEng fun e => e.setSeal false).onSec fun x _ => x.closeSeal

theorem execSealClose_shuts {s : State} (h : s.sec.sealOpen = true) : exec .sealClose s = .next (s.sealShut.onEng Engine.sealClosed) :=
  congrArg Host.Outcome.next (if_pos h)

theorem State.sealShut_besidePackets (s : State) : s.sealShut.eng.besidePackets = s.eng.besidePackets := by
  rw [State.sealShut, State.onSec_metIn, Engine.metIn_besidePackets]
  rfl

/-- Where a swap has not begun in M11, the seal that closes is told after BANK_SWAPPED. -/
theorem execSealClose_tellsSwap {s : State} (hopen : s.sec.sealOpen = true) (hmode : s.eng.mode = .m11) (hroom : s.eng.roomy) {w : SwapSt}
    (hfade : s.eng.shd.fade = some w) (hbegun : w.begun = false) {t : State} (ht : exec .sealClose s = .next t) :
    s.eng.says t.eng 0x0C 0 0 (some w.hseq) 0 := by
  obtain rfl : s.sealShut.onEng Engine.sealClosed = t := Host.Outcome.next.inj ((execSealClose_shuts hopen).symm.trans ht)
  have hshut := s.sealShut_besidePackets
  have hevt : s.sealShut.eng.evt = s.eng.evt := (congrArg Engine.evt hshut :)
  have hmode' : s.sealShut.eng.mode = .m11 := (congrArg Engine.mode hshut :).trans hmode
  have hroom' : s.sealShut.eng.roomy := by
    obtain ⟨⟨hr, hf⟩, hl, hlen⟩ := hroom
    exact ⟨⟨(congrArg Engine.resetting hshut :).trans hr, (congrArg (fun e : Engine => e.pins.failed) hshut :).trans hf⟩, hevt ▸ hl, by
      rw [hevt, show s.sealShut.eng.opens = s.eng.opens from (congrArg Engine.opens hshut :)]
      exact hlen⟩
  have hfade' : s.sealShut.eng.shd.fade = some w := (congrArg (fun e : Engine => e.shd.fade) hshut :).trans hfade
  have hclosed : (s.sealShut.onEng Engine.sealClosed).eng = (s.sealShut.eng.changeMode .m3 12 none).enterIdle := by
    refine (if_pos hmode').trans (Engine.hop_m3 ?_ ?_ 12 none)
    · rw [hmode']; decide
    · rw [hmode']; decide
  have hsays := Engine.changeMode_m3_tellsSwap hroom' (by rw [hmode']; decide) hfade' hbegun 12 none
  rw [hclosed, Engine.says, ← hevt]
  exact hsays

/-- A swap whose index has not been reached. -/
def swapAhead : SwapSt := ⟨7, 0, 1, 100, 0, false⟩

/-- In M11 with the seal open, a swap not begun. -/
def openWithSwap : State :=
  { State.reset with
    sec := { Section.reset with sealOpen := true }
    eng := { Engine.reset with mode := .m11, shd := { ShdSt.init with fade := some swapAhead } } }

/-- Refutes O48: the clause of a seal that closes in M11 asks MODE_CHANGE as the first event told and lets a fade stand; a swap that has not begun is told first,
by BANK_SWAPPED (R111, log 152). -/
theorem not_sectionSecurity : ¬ Obligations.SectionSecurity := by
  unfold Obligations.SectionSecurity
  rintro ⟨-, -, -, -, -, hseal, -⟩
  have hroomy : openWithSwap.eng.roomy := ⟨⟨rfl, rfl⟩, rfl, by decide⟩
  obtain ⟨t, hexec, -, -, hsays, -⟩ := hseal openWithSwap rfl rfl hroomy
  have hswap := execSealClose_tellsSwap rfl rfl hroomy (w := swapAhead) rfl rfl hexec
  exact absurd (hsays.symm.trans hswap) (by decide)

/-! ### M3 at the end of a boot (R76, R340) -/

namespace Engine

/-- An engine without its registers, what events change, its flash and the staging memory's side. -/
def besideMemory (e : Engine) : Engine :=
  { e with regs := [], evt := Engine.reset.evt, opens := [], pair := PairSt.init, flash := FlashSt.init, qdr := QdrSt.init }

theorem besideMemory_of_books {e x : Engine} {offs : List Nat} (h : e.onlyBooks x offs) : x.besideMemory = e.besideMemory := by
  rw [h.1]
  rfl

theorem raiseBoot_besideMemory (e : Engine) : e.raiseBoot.besideMemory = e.besideMemory := by
  have hdies (l : List (Nat × Nat)) : (l.foldl (fun x d => x.fault 0x0D d.1 1 0 [(24, 4, d.2)]) e).besideMemory = e.besideMemory := by
    refine foldl_keep besideMemory _ (fun x d => ?_) l e
    exact besideMemory_of_books (x.fault_books 0x0D d.1 1 0 [(24, 4, d.2)] [])
  unfold raiseBoot
  extract_lets e1 e2
  have h2 : e2.besideMemory = e1.besideMemory := by
    unfold e2
    split
    · exact besideMemory_of_books (e1.fault_books _ _ _ _ _ [])
    · rfl
  exact h2.trans (hdies _)

theorem raiseAgain_besideMemory (e : Engine) (l : List Burst) : (e.raiseAgain l).besideMemory = e.besideMemory := by
  refine foldl_keep besideMemory _ (fun x b => ?_) l e
  rw [raiseBurst_only]
  rfl

/-- Testing and mapping of the dies touch registers, flash and the staging memory's side beside what events change. -/
theorem mapDies_besideMemory (e : Engine) (fails : List (Fin 8 × Nat)) : (e.mapDies fails).besideMemory = e.besideMemory := by
  unfold mapDies
  extract_lets out bad failed map c e1 e2 src e3
  rw [raiseAgain_besideMemory]
  have h3 : e3.besideMemory = e.besideMemory := rfl
  split
  · rw [raiseBoot_besideMemory, h3]
  · exact h3

/-- The engine once the boot's firmware has found its units and mapped its dies. -/
def unitsMapped (e : Engine) (f : BootFindings) : Engine :=
  ((((e.wr R.SYS_UNITS.FLASH (b2n f.flashReadable)).wr R.SYS_UNITS.SECTION (b2n f.sectionAnswers)).wr R.SYS_UNITS.AFE0
    (b2n (f.afePresent.getD 0 false))).wr R.SYS_UNITS.AFE1 (b2n (f.afePresent.getD 1 false))).mapDies f.dieFails

/-- An engine without its AFE dies and the free values taken. -/
def besideAfe (e : Engine) : Engine := { e with free := 0, afe := [] }

theorem powerAfe_besideAfe (e : Engine) (wake : Bool) : (e.powerAfe wake).besideAfe = e.besideAfe := by
  unfold powerAfe
  refine foldl_keep besideAfe _ (fun x s => ?_) _ e
  dsimp only
  split <;> rfl

theorem enterM3_job (e : Engine) (cause : Nat) : (e.enterM3 cause).job = (e.changeMode .m3 cause none).job := by
  unfold enterM3
  extract_lets e1
  have hsdb (x : Engine) (s : Nat) : (x.sdbStart s).job = x.job := by
    unfold sdbStart
    split <;> rfl
  rw [hsdb, hsdb]
  exact (congrArg Engine.job (powerAfe_besideAfe _ false) :)

theorem enterM10_mode (e : Engine) : e.enterM10.mode = .m10 := by
  unfold enterM10
  extract_lets e1
  exact (congrArg Engine.mode (powerAfe_besideAfe _ false) :).trans (e.changeMode_mode .m10 10 none)

/-- Where the firmware of a boot without POR leads to M3, no dark line is counted there. -/
theorem runFirmware_dark {e : Engine} (h1 : e.mode = .m1) {f : BootFindings} (hpor : (e.unitsMapped f).on R.SYS_RESET_CAUSE.POR = false)
    (hsection : f.sectionAnswers = false) {acked : Nat} {sealOpen : Bool} (hm3 : (e.runFirmware f acked sealOpen).mode = .m3) :
    (e.runFirmware f acked sealOpen).job.dark = 0 := by
  have hmode : (e.unitsMapped f).mode = .m1 := (congrArg Engine.mode (mapDies_besideMemory _ f.dieFails) :).trans h1
  revert hm3
  unfold runFirmware
  extract_lets e1 e2 e3 src status e4 pins pair cal e5 x
  have h3 : e3 = e.unitsMapped f := if_neg (by rw [show e2 = e.unitsMapped f from rfl, hpor]; decide)
  have h4 : e4 = e.unitsMapped f := (if_neg (by rw [hsection]; decide)).trans h3
  have h5 : e5.mode = .m1 := (congrArg Engine.mode h4).trans hmode
  split
  · intro _
    rw [enterM3_job]
    exact changeMode_m3_dark (by rw [h5]; decide) 2 none
  · split
    · intro hm3
      exact absurd ((e5.enterM10_mode).symm.trans hm3) (by decide)
    · intro hm3
      exact absurd (h5.symm.trans hm3) (by decide)

end Engine

/-- BOOT_COMPLETE after an FLR, which reloads no firmware, leads to M3 with no dark line counted. -/
theorem execBootComplete_dark {s : State} {f : BootFindings} (h1 : s.eng.mode = .m1) (hr : s.eng.resetting = none)
    (hrecovery : s.eng.on R.SYS_FW.RECOVERY = false) (hrole : s.eng.pair.bootRole = false)
    (hflr : (s.eng.rd R.SYS_RESET_CAUSE.word % 128 == 4 && !s.eng.on R.SYS_RESET_CAUSE.RST_N) = true)
    (hpor : (s.eng.unitsMapped f).on R.SYS_RESET_CAUSE.POR = false) (hsection : f.sectionAnswers = false) {t : State}
    (ht : exec (.bootComplete f) s = .next t) (hm3 : t.eng.mode = .m3) : t.eng.job.dark = 0 := by
  have hboot : s.eng.bootComplete f s.sec.highAck s.sec.sealOpen = s.eng.runFirmware f s.sec.highAck s.sec.sealOpen := by
    unfold Engine.bootComplete
    rw [if_neg (by simp [h1, hr, hrecovery, hrole])]
    exact if_pos hflr
  have hexec : exec (.bootComplete f) s = .next { s with eng := s.eng.runFirmware f s.sec.highAck s.sec.sealOpen } := by
    rw [← hboot]
    exact congrArg Host.Outcome.next (if_neg (by simp [hsection]))
  obtain rfl := Host.Outcome.next.inj (hexec.symm.trans ht)
  exact Engine.runFirmware_dark h1 hpor hsection hm3

/-- After an FLR, with a dark line counted. -/
def bootWithDark : State :=
  { State.reset with eng := { Engine.reset.wr R.SYS_RESET_CAUSE.word 4 with job := { JobSt.init with dark := 1 } } }

/-- Every unit answers but the section. -/
def unitsFound : BootFindings := ⟨1, 0, 0, [true, true], false, true, [], false⟩

/-- Refutes O24: the clauses of a boot that leads to M3 leave the job as it was, but entry to M3 sets its count of dark lines back (R340). -/
theorem not_bootLeads : ¬ Obligations.BootLeads := by
  unfold Obligations.BootLeads
  rintro ⟨-, -, hflr, -⟩
  obtain ⟨t, hexec, -, hm3, -, -, -, hrest⟩ := hflr unitsFound bootWithDark rfl rfl (by decide) rfl (by decide) (by decide) rfl
  have hdark := execBootComplete_dark rfl rfl (by decide) rfl (by decide) (by decide +kernel) rfl hexec hm3
  have hkept : t.eng.job = bootWithDark.eng.job := (congrArg Engine.job hrest :)
  rw [hkept] at hdark
  exact absurd hdark (by decide)

end Sys2Proof.Machine
end

section
/-!
PROOFS. The commands of the pair and of the mode (R263, R340, R342, R368, R373): a command that is the only open one of its HSEQ stays so until it is answered.
-/

namespace Sys2Proof.Machine

namespace Engine

/-! ### The only open command of its HSEQ -/

/-- A command of another HSEQ than the answered one stands as it did. -/
theorem mem_of_markBuilt {o d : OpenCmd} {l : List OpenCmd} (ho : o ∈ markBuilt d l) (hseq : o.hseq ≠ d.hseq) : o ∈ l := by
  induction l with
  | nil => exact ho
  | cons a t ih =>
    unfold markBuilt at ho
    split at ho
    · next had =>
      rcases List.mem_cons.mp ho with rfl | ht
      · exact absurd (congrArg OpenCmd.hseq had) hseq
      · exact List.mem_cons_of_mem a ht
    · rcases List.mem_cons.mp ho with rfl | ht
      · exact List.mem_cons_self
      · exact List.mem_cons_of_mem a (ih ht)

/-- A command is open, and no other open one carries its HSEQ. -/
def sole (e : Engine) (c : OpenCmd) : Prop := c ∈ e.opens ∧ ∀ d ∈ e.opens, d.hseq = c.hseq → d = c

theorem sole_congr {e x : Engine} {c : OpenCmd} (h : x.opens = e.opens) (hsole : e.sole c) : x.sole c := by
  rw [sole, h]
  exact hsole

theorem sole_openCmd {e : Engine} {h : CmdHdr} (hunused : e.unused h) (code : Nat) (w : Wait) :
    (e.openCmd h code w).sole ⟨h.hseq.toNat, h.tag.toNat, code, w⟩ := by
  refine ⟨e.mem_openCmd h code w, fun d hd hseq => ?_⟩
  refine (List.mem_append.mp hd).elim (fun hold => ?_) List.mem_singleton.mp
  exact absurd (beq_iff_eq.mpr hseq) (List.any_eq_false.mp hunused d hold)

theorem finishHseq_sole {e : Engine} {c : OpenCmd} (hsole : e.sole c) (hwait : c.wait ≠ .built) (st : Nat) (r : List LayField) :
    e.finishHseq c.hseq st r = e.finish c st r := by
  have hfound : (e.opens.find? fun d => d.hseq == c.hseq && d.wait != Wait.built) = some c := by
    cases hd : e.opens.find? fun d => d.hseq == c.hseq && d.wait != Wait.built with
    | none => simpa [hwait] using List.find?_eq_none.mp hd c hsole.1
    | some d =>
      have hdseq := List.find?_some hd
      simp only [Bool.and_eq_true, beq_iff_eq] at hdseq
      rw [hsole.2 d (List.mem_of_find?_eq_some hd) hdseq.1]
  rw [finishHseq, hfound]

section
variable {e : Engine} {c : OpenCmd} (hsole : e.sole c) (hwait : c.wait ≠ .built)
include hsole hwait

theorem sole_emitBk (code subj status arg : Nat) (hs : Option Nat) (p : List LayField) (bk : Booking) : (e.emitBk code subj status arg hs p bk).sole c :=
  ⟨mem_emitBk_opens hwait _ _ _ _ _ _ _ hsole.1, fun d hd => hsole.2 d (emitBk_opens_subset _ _ _ _ _ _ _ _ hd)⟩

theorem sole_finish {d : OpenCmd} (hd : d.hseq ≠ c.hseq) (st : Nat) (r : List LayField) : (e.finish d st r).sole c := by
  refine sole_emitBk (e := { e with opens := markBuilt d e.opens }) ⟨mem_markBuilt (by rintro rfl; exact hd rfl) hsole.1, fun o ho hseq => ?_⟩ hwait ..
  exact hsole.2 o (mem_of_markBuilt ho (hseq ▸ hd.symm)) hseq

theorem sole_finishAll {q : Wait → Bool} (hq : q c.wait = false) (st : Nat) (r : List LayField) : (e.finishAll q st r).sole c := by
  have hothers : ∀ d ∈ e.opens.filter fun d => q d.wait, d.hseq ≠ c.hseq := by
    intro d hd hseq
    obtain ⟨hmem, hqd⟩ := List.mem_filter.mp hd
    obtain rfl := hsole.2 d hmem hseq
    exact absurd (hqd.symm.trans hq) (by decide)
  unfold finishAll
  revert hothers
  generalize e.opens.filter (fun d => q d.wait) = l
  intro hothers
  induction l generalizing e with
  | nil => exact hsole
  | cons d t ih => exact ih (sole_finish hsole hwait (hothers d List.mem_cons_self) st r) fun o ho => hothers o (List.mem_cons_of_mem d ho)

theorem sole_swapDone {w : SwapSt} (hw : w.hseq ≠ c.hseq) (st : Nat) : (e.swapDone w st).sole c := by
  unfold swapDone
  split
  next d hd =>
    have hdseq := List.find?_some hd
    simp only [Bool.and_eq_true, beq_iff_eq] at hdseq
    exact sole_finish hsole hwait (hdseq.1 ▸ hw) _ _
  next => exact hsole

theorem sole_fadesDone {d : ShdSt} (hfade : d.fade.map SwapSt.hseq ≠ some c.hseq) (hqueued : d.queued.map SwapSt.hseq ≠ some c.hseq) :
    (e.fadesDone d).sole c := by
  unfold fadesDone
  split
  next => exact hsole
  next w hw =>
    have hfirst : (e.swapDone w stOk).sole c := sole_swapDone hsole hwait (by simpa [hw] using hfade) stOk
    dsimp only
    split
    next q hq => exact sole_swapDone hfirst hwait (by simpa [hq] using hqueued) stAborted
    next => exact hfirst

theorem sole_dropFades : e.dropFades.sole c := by
  obtain ⟨y, hy, hbeyond⟩ := e.dropFades_cases
  refine sole_congr (congrArg Engine.opens hbeyond :) ?_
  rcases hy with rfl | ⟨w, rfl⟩
  · exact hsole
  · exact sole_emitBk hsole hwait ..

/-- The end of an abandoned full calibration answers CALIBRATE alone (R90). -/
theorem sole_abortFull (htarget : c.wait ≠ .calTarget) (hbacking : c.wait ≠ .calBacking) : e.abortFull.sole c := by
  unfold abortFull
  split
  · refine sole_finishAll hsole hwait ?_ _ _
    split
    · exact absurd ‹_› htarget
    · exact absurd ‹_› hbacking
    · rfl
  · exact hsole

omit hsole hwait in
/-- An entry to M3: the event, then the answers to fades and to pending gap calibrations (R83, R111). -/
theorem changeMode_m3 (h3 : e.mode ≠ .m3) (cause : Nat) (hs : Option Nat) : e.changeMode .m3 cause hs =
    (((e.modeEntered .m3).emit 0x15 3 0 (e.mode.idx + 256 * cause) hs []).fadesDone e.gapAbandon.shd).abortCalGap := by
  rw [changeMode_told h3.symm]
  rfl

/-- An entry to M3 leaves it open, where it waits for no gap calibration and no fade of its HSEQ ends. -/
theorem sole_changeMode_m3 (h3 : e.mode ≠ .m3) (hcal : c.wait ≠ .calGap) (hfade : e.shd.fade.map SwapSt.hseq ≠ some c.hseq)
    (hqueued : e.shd.queued.map SwapSt.hseq ≠ some c.hseq) (cause : Nat) (hs : Option Nat) : (e.changeMode .m3 cause hs).sole c := by
  have hshd : e.gapAbandon.shd = e.shd := by rw [e.gapAbandon_onlyRegs.1]
  have hentered : (e.modeEntered .m3).sole c :=
    sole_congr e.modeEntered_m3_books.2 (sole_dropFades (sole_congr e.gapAbandon_opens hsole) hwait)
  rw [changeMode_m3 h3]
  refine sole_finishAll (sole_fadesDone (sole_emitBk hentered hwait ..) hwait (hshd ▸ hfade) (hshd ▸ hqueued)) hwait ?_ _ _
  exact beq_false_of_ne hcal

end

/-! ### MODE (R340, R342) -/

theorem idx_of_ofNat {n : Nat} {m : Mode} (h : Mode.ofNat? n = some m) : m.idx = n := by
  unfold Mode.ofNat? at h
  split at h <;> cases h <;> rfl

theorem idx_le (m : Mode) : m.idx ≤ 11 := by cases m <;> decide

/-- A MODE command that need not wait is opened and judged at once. -/
theorem cmdMode_runs {e : Engine} {h : CmdHdr} {target : Nat} {m : Mode} (ha : e.accepts h 0x17 (modesTo 2 11)) (hm : Mode.ofNat? target = some m)
    (hleeward : e.mode = .m10 → m = .m10) (hfree : e.trans.target = none ∨ m = .m2 ∧ e.trans.wokeAt = some e.now) :
    e.cmdMode h target = (e.openCmd h 0x17 (.mode m)).runMode h.hseq.toNat m := by
  have hle : target ≤ 11 := idx_of_ofNat hm ▸ idx_le m
  unfold cmdMode
  rw [decide_eq_true hle, command_accepts ha, hm]
  dsimp only
  rw [if_neg (fun hleft => hleft.2 (hleeward hleft.1)), if_neg]
  rintro ⟨hsome, hwoken⟩
  rcases hfree with hnone | hwoke
  · rw [show (e.openCmd h 0x17 (.mode m)).trans = e.trans from rfl, hnone] at hsome
    exact Bool.false_ne_true hsome
  · exact hwoken hwoke

/-- A command just opened that ends at once is answered, and only the books change. -/
theorem opened_finishHseq {e : Engine} {h : CmdHdr} (hr : e.resetting = none) (hf : e.pins.failed = false) (hunused : e.unused h) (code : Nat) {w : Wait}
    (hw : w ≠ .built) (st : Nat) (r : List LayField) :
    ((e.openCmd h code w).finishHseq h.hseq.toNat st r).answered h.hseq.toNat code st ∧
    e.onlyBooks ((e.openCmd h code w).finishHseq h.hseq.toNat st r) [] := by
  rw [finishHseq_sole (c := ⟨h.hseq.toNat, h.tag.toNat, code, w⟩) (sole_openCmd hunused code w) hw]
  exact ⟨finish_answered (e.openCmd h code w) hr hf _ st r, onlyBooks_trans (openCmd_books ..) (finish_books ..)⟩

/-- MODE with the present mode as its target. -/
theorem runMode_present {e : Engine} {m : Mode} (hm : m = e.mode) (hwoke : e.trans.wokeAt ≠ some e.now) (h : Nat) :
    e.runMode h m = e.finishHseq h stOk e.modeResult := by
  unfold runMode
  rw [if_neg (fun hleft => hwoke hleft.2), if_pos hm]

/-- MODE 2 that meets a WAKE edge (R342). -/
theorem runMode_woken {e : Engine} (hwoke : e.trans.wokeAt = some e.now) (h : Nat) : e.runMode h .m2 = e.finishHseq h stAborted [] :=
  if_pos ⟨rfl, hwoke⟩

/-- MODE 3 in M4 without a job enters M3 in one step. -/
theorem runMode_m4_m3 {e : Engine} (h4 : e.mode = .m4) (hjob : e.job.isOpen = false) (h : Nat) :
    e.runMode h .m3 = (e.changeMode .m3 3 (some h)).enterIdle.abortFull.finishHseq h stOk (e.changeMode .m3 3 (some h)).enterIdle.modeResult := by
  have hjudge : e.judgeMode .m3 [.m3] = (e, stOk) := by
    unfold judgeMode
    extract_lets windward to6
    simp [hjob, h4, to6]
  have hpath : modePath e.mode.idx Mode.m3.idx = some [.m3] := by rw [h4]; rfl
  have hne : Mode.m3 ≠ e.mode := by rw [h4]; decide
  unfold runMode
  rw [if_neg (fun hwake => Mode.noConfusion hwake.1), if_neg hne, hpath]
  dsimp only
  rw [hjudge, if_neg (fun hbad => hbad rfl), if_neg (by rw [h4]; decide), walk, if_neg (fun hwarm => Mode.noConfusion hwarm.2.1), walk,
    hop_m3 (by rw [h4]; decide) (by rw [h4]; decide)]

/-- What ends an abandoned calibration closes no other command. -/
theorem abortFull_books (e : Engine) (offs : List Nat) : e.onlyBooks e.abortFull offs := by
  unfold abortFull
  split
  · exact finishAll_books ..
  · exact e.onlyBooks_refl offs

/-- A MODE 3 just opened in M4 is answered from M3; what a change of mode leaves alone stands. -/
theorem opened_m4_m3 {e : Engine} {h : CmdHdr} (hr : e.resetting = none) (hf : e.pins.failed = false) (h4 : e.mode = .m4) (hjob : e.job.isOpen = false)
    (hunused : e.unused h) (hfade : e.shd.fade.map SwapSt.hseq ≠ some h.hseq.toNat) (hqueued : e.shd.queued.map SwapSt.hseq ≠ some h.hseq.toNat) :
    ((e.openCmd h 0x17 (.mode .m3)).runMode h.hseq.toNat .m3).answered h.hseq.toNat 0x17 stOk ∧
    ((e.openCmd h 0x17 (.mode .m3)).runMode h.hseq.toNat .m3).mode = .m3 ∧
    ((e.openCmd h 0x17 (.mode .m3)).runMode h.hseq.toNat .m3).besideModes = e.besideModes := by
  have hopen := sole_openCmd hunused 0x17 (.mode .m3)
  have h4' : (e.openCmd h 0x17 (.mode .m3)).mode = .m4 := h4
  have hstays := sole_changeMode_m3 hopen Wait.noConfusion (by rw [h4']; decide) Wait.noConfusion hfade hqueued 3 (some h.hseq.toNat)
  have hbeside : ((e.openCmd h 0x17 (.mode .m3)).changeMode .m3 3 (some h.hseq.toNat)).besideModes = e.besideModes :=
    (e.openCmd h 0x17 (.mode .m3)).changeMode_besideModes .m3 3 (some h.hseq.toNat)
  have hmode := (e.openCmd h 0x17 (.mode .m3)).changeMode_mode .m3 3 (some h.hseq.toNat)
  rw [runMode_m4_m3 h4' hjob]
  generalize (e.openCmd h 0x17 (.mode .m3)).changeMode .m3 3 (some h.hseq.toNat) = x at hstays hbeside hmode
  have hended := sole_abortFull (e := x.enterIdle) hstays Wait.noConfusion Wait.noConfusion Wait.noConfusion
  have hready : x.enterIdle.abortFull.besideModes = e.besideModes := (besideModes_of_books (x.enterIdle.abortFull_books [])).trans hbeside
  have hmode' : x.enterIdle.abortFull.mode = .m3 := (congrArg Engine.mode (x.enterIdle.abortFull_books []).1 :).trans hmode
  generalize x.enterIdle.abortFull = y at hended hready hmode'
  rw [finishHseq_sole hended Wait.noConfusion]
  have hbooks := finish_books y ⟨h.hseq.toNat, h.tag.toNat, 0x17, .mode .m3⟩ stOk x.enterIdle.modeResult []
  refine ⟨finish_answered y ((congrArg Engine.resetting hready :).trans hr) ((congrArg (fun e : Engine => e.pins.failed) hready :).trans hf) _ _ _, ?_, ?_⟩
  · exact (congrArg Engine.mode hbooks.1 :).trans hmode'
  · exact (besideModes_of_books hbooks).trans hready

/-! ### TAKEOVER and RELEASE (R364, R368, R373) -/

/-- The pair block has entered a state. -/
def pairEntered (e : Engine) (st : Nat) : Engine := { e with pair := { e.pair with st := st, stTime := e.now } }

/-- A pair state is told under UHP-3. -/
theorem pairState_eq {e : Engine} {st : Nat} (hne : e.pair.st ≠ st) (h2 : st ≠ 2) :
    ∃ peer, (e.pair.role = 1 → peer = 2) ∧ (e.pair.role = 2 → peer = 1) ∧ e.pairState st =
      if e.ver = 3 then (e.pairEntered st).emit 0x12 st 0 peer none [(24, 1, e.pair.plver), (28, 4, e.rd R.PAIR_PEER_FW.V)] else e.pairEntered st := by
  unfold pairState
  rw [if_neg hne]
  extract_lets e1 peer
  have h1 : e1 = e.pairEntered st := congrArg (fun im => e.modPair fun p => { p with st := st, stTime := e.now, image := im }) (if_neg h2)
  rw [h1]
  exact ⟨peer, fun hrole => by simp [peer, hrole], fun hrole => by simp [peer, hrole], rfl⟩

theorem pairState_books {e : Engine} {st : Nat} (hne : e.pair.st ≠ st) (h2 : st ≠ 2) (offs : List Nat) : (e.pairEntered st).onlyBooks (e.pairState st) offs := by
  obtain ⟨peer, -, -, hstate⟩ := pairState_eq hne h2
  rw [hstate]
  split
  · exact emit_books ..
  · exact onlyBooks_refl _ offs

theorem mem_pairState_opens {e : Engine} {c : OpenCmd} (hc : c.wait ≠ .built) {st : Nat} (hne : e.pair.st ≠ st) (h2 : st ≠ 2) (he : c ∈ e.opens) :
    c ∈ (e.pairState st).opens := by
  obtain ⟨peer, -, -, hstate⟩ := pairState_eq hne h2
  rw [hstate]
  split
  · exact mem_emitBk_opens hc _ _ _ _ _ _ _ he
  · exact he

/-- PAIR_OWN is asserted, the outputs are driven. -/
def ownTaken (e : Engine) (cause : Nat) : Engine :=
  e.modPair fun p => { p with drive := true, takeAt := some e.now, cause := cause, lastSent := e.now, hbStopped := false }

/-- A RELEASE has begun the hand-over. -/
def handingOver (e : Engine) : Engine := { e with pair := { e.pair with releasing := true } }

/-- A RELEASE just opened completes with those that waited, the last of them. -/
theorem releaseRest_opened {e : Engine} (hmirror : e.mirrorFirst = true) (h : CmdHdr) : (e.openCmd h 0x15 .release).releaseRest =
    (e.handingOver.openCmd h 0x15 .release).finishAll (fun w => w == .release) stOk [] := by
  have hany : ((e.openCmd h 0x15 .release).opens.any fun c => c.wait == Wait.release) = true :=
    List.any_eq_true.mpr ⟨_, e.mem_openCmd h 0x15 .release, rfl⟩
  unfold releaseRest
  rw [if_pos hany, if_neg (by rw [show (e.openCmd h 0x15 .release).mirrorFirst = e.mirrorFirst from rfl, hmirror]; decide)]
  rfl

theorem releaseRest_opened_books {e : Engine} (hmirror : e.mirrorFirst = true) (h : CmdHdr) :
    e.handingOver.onlyBooks (e.openCmd h 0x15 .release).releaseRest [] := by
  rw [releaseRest_opened hmirror]
  exact onlyBooks_trans (openCmd_books ..) (finishAll_books ..)

/-- Commands answered leave neither a reset nor a power failure behind. -/
theorem foldl_finish_stands (st : Nat) (r : List LayField) (l : List OpenCmd) (e : Engine) :
    (l.foldl (fun x c => x.finish c st r) e).resetting = e.resetting ∧ (l.foldl (fun x c => x.finish c st r) e).pins = e.pins := by
  have hbooks : e.onlyBooks (l.foldl (fun x c => x.finish c st r) e) [] := foldl_books _ [] (fun x c => finish_books x c st r []) l e
  rw [hbooks.1]
  exact ⟨rfl, rfl⟩

/-- The command opened last is answered last. -/
theorem finishAll_opened {e : Engine} (hr : e.resetting = none) (hf : e.pins.failed = false) (h : CmdHdr) (code : Nat) {w : Wait} {q : Wait → Bool}
    (hq : q w = true) (st : Nat) (r : List LayField) : ((e.openCmd h code w).finishAll q st r).answered h.hseq.toNat code st := by
  have hlist : ((e.openCmd h code w).opens.filter fun c => q c.wait) =
      (e.opens.filter fun c => q c.wait) ++ [⟨h.hseq.toNat, h.tag.toNat, code, w⟩] := by
    change (e.opens ++ [OpenCmd.mk h.hseq.toNat h.tag.toNat code w]).filter _ = _
    rw [List.filter_append, List.filter_singleton, hq]
    rfl
  unfold finishAll
  rw [hlist, List.foldl_append, List.foldl_cons, List.foldl_nil]
  obtain ⟨hr', hpins⟩ := foldl_finish_stands st r (e.opens.filter fun c => q c.wait) (e.openCmd h code w)
  exact finish_answered _ (hr'.trans hr) (hpins ▸ hf) ⟨h.hseq.toNat, h.tag.toNat, code, w⟩ st r

end Engine

section
variable {s : State} {h : CmdHdr}

theorem execTakeover_takes (ha : s.eng.accepts h 0x14 [10]) (hrole : s.eng.pair.role = 2) (hfree : s.eng.ownFree 2000000 = true) (hst : s.eng.pair.st ≠ 6)
    (hcurrent : s.eng.pair.current = true) : exec (.takeover h) s = .next { s with eng := (s.eng.openCmd h 0x14 .takeover).startTaking 3 } := by
  have hcmd : s.eng.cmdTakeover h = (s.eng.openCmd h 0x14 .takeover).startTaking 3 := by
    unfold Engine.cmdTakeover
    rw [Engine.command_accepts ha, if_neg (by simp [hrole, hfree, hst]), if_pos hcurrent]
  exact congrArg (fun e => Host.Outcome.next { s with eng := e }) hcmd

theorem execRelease_rests (ha : s.eng.accepts h 0x15 [3, 4, 5, 6, 7, 8, 9]) (hmirror : s.eng.mirrorFirst = true) (h6 : s.eng.mode = .m6)
    (hsquall : s.eng.squall = none) : exec (.release h) s = .next { s with eng := (s.eng.openCmd h 0x15 .release).releaseRest } := by
  have hcmd : s.eng.cmdRelease h = (s.eng.openCmd h 0x15 .release).releaseRest := by
    unfold Engine.cmdRelease
    rw [Engine.command_accepts (modes := Engine.modesTo 3 9) ha, if_neg (by simp [hmirror])]
    extract_lets y
    rw [if_neg (by simp [y, hsquall])]
    have hmode : y.mode = .m6 := h6
    rw [hmode]
  exact congrArg (fun e => Host.Outcome.next { s with eng := e }) hcmd

end

/-- Settles O7: a TAKEOVER and a RELEASE that the pair allows, and MODE to the present mode and from M4 to M3. -/
theorem pairAndModeCommands : Obligations.PairAndModeCommands := by
  unfold Obligations.PairAndModeCommands
  refine ⟨?takeover, ?release, ?present, ?m3⟩
  case takeover =>
    intro h s ha hrole hfree hst hcurrent
    refine ⟨_, execTakeover_takes ha hrole hfree hst hcurrent, ⟨rfl, rfl, rfl⟩, ?_, ?_⟩
    · exact Engine.mem_pairState_opens (e := (s.eng.openCmd h 0x14 .takeover).ownTaken 3) Wait.noConfusion hst (by decide)
        (s.eng.mem_openCmd h 0x14 .takeover)
    · refine Engine.onlyBooks_trans (Engine.openCmd_books _ h 0x14 .takeover []) ?_
      exact Engine.pairState_books (e := (s.eng.openCmd h 0x14 .takeover).ownTaken 3) hst (by decide) []
  case release =>
    intro h s ha hmirror h6 hsquall
    obtain ⟨⟨htake, hf⟩, -⟩ := id ha
    refine ⟨_, execRelease_rests ha hmirror h6 hsquall, ⟨rfl, rfl, rfl⟩, ?_, ?_⟩
    · rw [Engine.releaseRest_opened hmirror]
      exact Engine.finishAll_opened (e := s.eng.handingOver) (Engine.canTake_resetting htake) hf h 0x15 rfl stOk []
    · exact Engine.releaseRest_opened_books hmirror h
  case present =>
    intro h target s ha hm hnone hwoke hunused
    obtain ⟨⟨htake, hf⟩, -⟩ := id ha
    have hruns := Engine.cmdMode_runs ha hm (fun h10 => h10) (.inl hnone)
    rw [Engine.runMode_present (m := s.eng.mode) (e := s.eng.openCmd h 0x17 (.mode s.eng.mode)) rfl hwoke] at hruns
    refine ⟨{ s with eng := s.eng.cmdMode h target.toNat }, rfl, ⟨rfl, rfl, rfl⟩, ?_⟩
    rw [hruns]
    exact Engine.opened_finishHseq (Engine.canTake_resetting htake) hf hunused 0x17 (w := .mode s.eng.mode) Wait.noConfusion stOk _
  case m3 =>
    intro h target s ha htarget h4 hnone hjob hunused hfade hqueued
    obtain ⟨⟨htake, hf⟩, -⟩ := id ha
    have hruns := Engine.cmdMode_runs ha (target := target.toNat) (m := .m3) (by rw [htarget]; rfl) (by rw [h4]; decide) (.inl hnone)
    obtain ⟨hans, hmode, hkept⟩ := Engine.opened_m4_m3 (Engine.canTake_resetting htake) hf h4 hjob hunused hfade hqueued
    rw [← hruns] at hans hmode hkept
    refine ⟨{ s with eng := s.eng.cmdMode h target.toNat }, rfl, ⟨rfl, rfl, rfl⟩, hans, hmode, ?_⟩
    have heq := Engine.eq_of_besideModes hkept
    dsimp only
    generalize s.eng.cmdMode h target.toNat = y at heq ⊢
    rw [heq]

end Sys2Proof.Machine
end

section
/-!
PROOFS. The wake (R94, R193, R340, R342, R344): the edge, the rails, the references, the end of warm-up.
-/

namespace Sys2Proof.Machine

namespace Engine

/-! ### The end of a transition that no command waits for -/

/-- No transition is in progress; the latest edge stays noted. -/
def transEnded (e : Engine) : Engine := { e with trans := { Engine.reset.trans with wokeAt := e.trans.wokeAt } }

theorem transEnded_of_waiting {e : Engine} (hwaiting : e.trans.waiting = []) :
    ({ e with trans := { e.trans with target := none, cmd := none, wake := none, warming := false } } : Engine) = e.transEnded :=
  congrArg (fun l => ({ e with trans := ⟨none, none, l, none, false, e.trans.wokeAt⟩ } : Engine)) hwaiting

theorem endTrans_alone {e : Engine} (hcmd : e.trans.cmd = none) (hwaiting : e.trans.waiting = []) (st : Nat) : e.endTrans st = e.transEnded := by
  unfold endTrans
  rw [hcmd]
  extract_lets src e1 e2
  have h2 : e2.trans.waiting.length = 0 := congrArg List.length hwaiting
  rw [h2]
  exact transEnded_of_waiting hwaiting

/-- A command that waits for the transition is answered at its end. -/
theorem endTrans_command {e : Engine} {m : ModeCmd} (hcmd : e.trans.cmd = some m) (hwaiting : e.trans.waiting = []) {c : OpenCmd}
    (hc : e.opens.find? (fun c => c.hseq == m.hseq && c.wait != Wait.built) = some c) :
    e.endTrans stOk = e.transEnded.finish c stOk e.modeResult := by
  unfold endTrans
  rw [hcmd]
  extract_lets src e1 e2
  have h1 : e1 = e.transEnded := transEnded_of_waiting hwaiting
  have h2 : e2 = e.transEnded.finish c stOk e.modeResult := by
    change e1.finishHseq m.hseq stOk e1.modeResult = _
    rw [h1, finishHseq, show e.transEnded.opens = e.opens from rfl, hc]
    rfl
  have hnone : e2.trans.waiting.length = 0 := by
    rw [h2, (finish_books e.transEnded c stOk e.modeResult []).1]
    rfl
  rw [hnone]
  exact h2

/-! ### Commands that wait -/

theorem dropBuilt_filter (h : Nat) (l : List OpenCmd) : (dropBuilt h l).filter (fun c => c.wait != .built) = l.filter fun c => c.wait != .built := by
  induction l with
  | nil => rfl
  | cons o t ih =>
    unfold dropBuilt
    split
    · next hbuilt =>
      simp only [Bool.and_eq_true, beq_iff_eq] at hbuilt
      rw [List.filter_cons_of_neg (by simp [hbuilt.2])]
    · rw [List.filter_cons, List.filter_cons, ih]

theorem settle_unanswered (e : Engine) (v : Ev) : (e.settle v).unanswered = e.unanswered := by
  unfold settle
  dsimp only
  split
  · rfl
  · exact dropBuilt_filter _ _
  · split
    · split <;> rfl
    · split <;> rfl

theorem loseOldest_unanswered (e : Engine) : e.loseOldest.unanswered = e.unanswered := by
  unfold loseOldest
  split
  · rfl
  · dsimp only
    split
    · rfl
    · exact settle_unanswered _ _

theorem commitEv_unanswered (e : Engine) (code subj status arg : Nat) (hs : Option Nat) (p : List LayField) (bk : Booking) :
    (e.commitEv code subj status arg hs p bk).unanswered = e.unanswered := by
  unfold commitEv
  dsimp only
  rw [unanswered_congr (level_opens ..)]
  split
  · rfl
  · exact e.loseOldest_unanswered

/-- An event, even one that displaces others, leaves the commands that wait as they are. -/
theorem emitBk_unanswered (e : Engine) (code subj status arg : Nat) (hs : Option Nat) (p : List LayField) (bk : Booking) :
    (e.emitBk code subj status arg hs p bk).unanswered = e.unanswered := by
  by_cases h : e.resetting = none ∧ e.pins.failed = false
  · obtain ⟨x, hx, rfl | ⟨n, f, l, -, -, rfl⟩⟩ := emitBk_cases e h.1 h.2 code subj status arg hs p bk
    · rw [hx, commitEv_unanswered]
    · rw [hx, commitEv_unanswered, commitEv_unanswered]
      rfl
  · rw [emitBk_silent h]

/-- The command that waits under an HSEQ. -/
theorem find_unanswered (e : Engine) (h : Nat) : (e.opens.find? fun c => c.hseq == h && c.wait != Wait.built) = e.unanswered.find? fun c => c.hseq == h := by
  rw [unanswered, List.find?_filter]
  exact congrArg (fun p => e.opens.find? p) (funext fun c => Bool.eq_iff_iff.mpr (by simp [and_comm]))

/-! ### Registers of the staging memory through a change of mode -/

/-- The books hold no register of DMA and of the staging memory. -/
theorem not_bookReg_memory {off : Nat} (hlow : 0x2000 ≤ off) (hhigh : off < 0x4000) : ¬ bookReg off := by
  unfold bookReg
  rintro (h | h | h | h | h | h | ⟨k, j, h⟩ | ⟨k, j, h⟩ | ⟨r, h⟩)
  all_goals
    dsimp only at h
    omega

theorem dropFades_word (e : Engine) {off : Nat} (hlow : 0x2000 ≤ off) (hhigh : off < 0x4000) : e.dropFades.word off = e.word off := by
  have hbank (c : Nat) : off ≠ (R.SHD_CH_BANK.word c).off := by dsimp only; omega
  have hactive (x : Engine) (mask : Nat) : (x.swapActive mask).word off = x.word off := by
    refine (x.swapActive_onlyRegs mask).2 off fun hmem => ?_
    obtain ⟨c, -, hc⟩ := List.mem_map.mp hmem
    exact hbank c hc.symm
  unfold dropFades
  split
  next => rfl
  next w _ =>
    extract_lets e1 src shd e2
    have h1 : e1.word off = e.word off := by
      unfold e1
      split
      · rfl
      · exact (emit_books e _ _ _ _ _ _ []).2 off (not_bookReg_memory hlow hhigh) List.not_mem_nil
    have h2 : e2.word off = e.word off :=
      (word_wr_ne _ 0 (f := R.SHD_FADE.word) (by dsimp only; omega)).trans ((hactive e1 w.mask).trans h1)
    split
    · exact (foldl_keeps (f := fun s c => s.wr (R.SHD_CH_BANK.QUEUED c) 0) (fun y => y.word off) (fun y c _ => word_wr_ne y 0 (hbank c)) e2).trans h2
    · exact h2

theorem stopAtBoundary_word (e : Engine) (s : Nat) {off : Nat} (h : off < 0x4000) : (e.stopAtBoundary s).word off = e.word off := by
  unfold stopAtBoundary
  split
  · split
    · rfl
    · exact e.stopConversion_word s h
  · exact e.stopConversion_word s h

theorem changeMode_m3_word {e : Engine} (h3 : e.mode ≠ .m3) (cause : Nat) (hs : Option Nat) {off : Nat} (hlow : 0x2000 ≤ off) (hhigh : off < 0x4000) :
    (e.changeMode .m3 cause hs).word off = e.word off := by
  rw [(changeMode_books h3.symm cause hs []).2 off (not_bookReg_memory hlow hhigh) List.not_mem_nil]
  change ((e.gapAbandon.dropFades.stopAtBoundary 0).stopAtBoundary 1).word off = _
  rw [stopAtBoundary_word _ 1 hhigh, stopAtBoundary_word _ 0 hhigh, dropFades_word _ hlow hhigh, e.gapAbandon_onlyRegs.2 off]
  · rfl
  · simp only [gapOffs, List.mem_cons, List.not_mem_nil, or_false]
    omega

/-! ### The dies are mapped (R191, R193) -/

theorem raiseAgain_word (e : Engine) (l : List Burst) {off : Nat} (h : off < 0x4000) : (e.raiseAgain l).word off = e.word off := by
  refine foldl_keeps (fun y => y.word off) (fun y b _ => ?_) e
  exact level_word _ _ _ off (by dsimp only; omega)

theorem raiseBoot_word (e : Engine) {off : Nat} (hlow : 0x2000 ≤ off) (hhigh : off < 0x4000) : e.raiseBoot.word off = e.word off := by
  have hfault (x : Engine) (a b c d : Nat) (p : List LayField) : (x.fault a b c d p).word off = x.word off :=
    (x.fault_books a b c d p []).2 off (not_bookReg_memory hlow hhigh) List.not_mem_nil
  unfold raiseBoot
  extract_lets e1 e2
  have h1 : e1.word off = e.word off := foldl_keeps (fun y => y.word off) (fun y d _ => hfault y ..) e
  have h2 : e2.word off = e1.word off := by
    unfold e2
    split
    · exact hfault ..
    · rfl
  exact h2.trans h1

/-- Where the regions lie does not tell which die pairs are mapped in. -/
theorem regionsPlaced_map (e : Engine) (map size tables svc : Nat) :
    ((((e.wr R.SYS_UNITS.QDR map).wr R.QDR_STAGE_SIZE.V size).wr R.QDR_TABLES_BASE.V tables).wr R.QDR_SVC_BASE.V svc).rd R.QDR_STATUS.MAP =
      e.rd R.QDR_STATUS.MAP := by
  rw [rd_wr_ne _ _ (by decide), rd_wr_ne _ _ (by decide), rd_wr_ne _ _ (by decide), rd_wr_ne _ _ (by decide)]

/-- Where no die fails its test, every die pair that is not asked out is mapped in. -/
theorem mapDies_map (e : Engine) (j : Fin 4) : bitOf ((e.mapDies []).rd R.QDR_STATUS.MAP) j.val = !bitOf (e.rd R.QDR_MAP_REQ.OUT) j.val := by
  unfold mapDies
  extract_lets out bad failed map c e1 e2 src e3
  clear_value c
  have hmap : map = (upTo 4).foldl (fun b k => if bitOf out k then b else setBit b k true) 0 := by
    have hfailed (k : Nat) : bitOf failed k = false := by simp [bitOf, failed, bad]
    unfold map
    simp only [hfailed, Bool.or_false]
  have hbits : ∀ a b c d : Bool, ∀ k : Fin 4, bitOf (([a, b, c, d].zipIdx).foldl (fun v x => if x.1 then v else setBit v x.2 true) 0 % 2 ^ 4) k.val =
      !([a, b, c, d].getD k.val false) := by decide
  have hlist : map = ([bitOf out 0, bitOf out 1, bitOf out 2, bitOf out 3].zipIdx).foldl (fun v x => if x.1 then v else setBit v x.2 true) 0 := hmap
  have hrd : e3.rd R.QDR_STATUS.MAP = map % 2 ^ 4 := by
    have hthere : e3.rd R.QDR_STATUS.MAP = ((e.wr R.QDR_STATUS.FAILED failed).wr R.QDR_STATUS.MAP map).rd R.QDR_STATUS.MAP :=
      (rd_congr (e := e3) (x := e2) rfl _).trans (regionsPlaced_map _ map _ _ _)
    exact hthere.trans (rd_wr_same _ (by simp [Fld.fits]) map)
  have hboot : (if e3.ringState 1 = 1 then e3.raiseBoot else e3).rd R.QDR_STATUS.MAP = e3.rd R.QDR_STATUS.MAP := by
    split
    · exact congrArg R.QDR_STATUS.MAP.get (e3.raiseBoot_word (by decide) (by decide))
    · rfl
  have hword : ((if e3.ringState 1 = 1 then e3.raiseBoot else e3).raiseAgain e.compareBursts).rd R.QDR_STATUS.MAP =
      (if e3.ringState 1 = 1 then e3.raiseBoot else e3).rd R.QDR_STATUS.MAP :=
    congrArg R.QDR_STATUS.MAP.get (raiseAgain_word _ e.compareBursts (by decide))
  rw [hword, hboot, hrd, hlist, hbits]
  fin_cases j <;> rfl

/-! ### The rails have settled (R344) -/

/-- What neither the mapping of the dies nor an entry to M3 touches. -/
def besideWake (e : Engine) : Engine :=
  { e with regs := [], mode := .m0, free := 0, flash := FlashSt.init, evt := Engine.reset.evt, opens := [], tg := [], job := JobSt.init, qdr := QdrSt.init,
           pair := PairSt.init, afe := [], chans := [], shd := ShdSt.init, cal := CalSt.init }

theorem eq_of_besideWake {e x : Engine} (h : x.besideWake = e.besideWake) : x =
    { x with now := e.now, jump := e.jump, rsp := e.rsp, trans := e.trans, resetting := e.resetting, pins := e.pins, link := e.link, cmdIn := e.cmdIn, rings := e.rings, status := e.status, streams := e.streams, dma := e.dma, mot := e.mot, pac := e.pac, feed := e.feed, squall := e.squall, frames := e.frames, gus := e.gus, eddy := e.eddy, geo := e.geo, mon := e.mon, met := e.met, mets := e.mets } := by
  cases e
  cases x
  simp only [besideWake, Engine.mk.injEq] at h ⊢
  simp only [h, and_self]

/-- The dies are mapped, M3 is entered in a wake, the AFE dies power up. -/
def railsUp (e : Engine) (fails : List (Fin 8 × Nat)) : Engine := (((e.mapDies fails).changeMode .m3 11 none).enterIdle).powerAfe true

theorem besideWake_of_besideAfe {e x : Engine} (h : x.besideAfe = e.besideAfe) : x.besideWake = e.besideWake := (congrArg besideWake h :)

theorem besideWake_of_besideModes {e x : Engine} (h : x.besideModes = e.besideModes) : x.besideWake = e.besideWake := (congrArg besideWake h :)

theorem besideWake_of_besideMemory {e x : Engine} (h : x.besideMemory = e.besideMemory) : x.besideWake = e.besideWake := (congrArg besideWake h :)

theorem mode_of_besideAfe {e x : Engine} (h : x.besideAfe = e.besideAfe) : x.mode = e.mode := (congrArg Engine.mode h :)

theorem regs_of_besideAfe {e x : Engine} (h : x.besideAfe = e.besideAfe) : x.regs = e.regs := (congrArg Engine.regs h :)

theorem enterIdle_besideAfe (e : Engine) : e.enterIdle.besideAfe = e.besideAfe := rfl

theorem railsUp_besideAfe (e : Engine) (fails : List (Fin 8 × Nat)) :
    (e.railsUp fails).besideAfe = ((e.mapDies fails).changeMode .m3 11 none).besideAfe := by
  rw [railsUp, powerAfe_besideAfe, enterIdle_besideAfe]

theorem railsUp_besideWake (e : Engine) (fails : List (Fin 8 × Nat)) : (e.railsUp fails).besideWake = e.besideWake := by
  rw [besideWake_of_besideAfe (e.railsUp_besideAfe fails), besideWake_of_besideModes (changeMode_besideModes ..),
    besideWake_of_besideMemory (e.mapDies_besideMemory fails)]

theorem railsUp_mode (e : Engine) (fails : List (Fin 8 × Nat)) : (e.railsUp fails).mode = .m3 := by
  rw [mode_of_besideAfe (e.railsUp_besideAfe fails), changeMode_mode]

section
variable {e : Engine} (h2 : e.mode = .m2)
include h2

theorem mapDies_mode (fails : List (Fin 8 × Nat)) : (e.mapDies fails).mode = .m2 := (congrArg Engine.mode (e.mapDies_besideMemory fails) :).trans h2

theorem railsUp_map (j : Fin 4) : bitOf ((e.railsUp []).rd R.QDR_STATUS.MAP) j.val = !bitOf (e.rd R.QDR_MAP_REQ.OUT) j.val := by
  rw [rd_congr (regs_of_besideAfe (e.railsUp_besideAfe [])), ← e.mapDies_map j]
  exact congrArg (fun w => bitOf (R.QDR_STATUS.MAP.get w) j.val)
    (changeMode_m3_word (by rw [mapDies_mode h2]; decide) 11 none (by decide) (by decide))

variable (hcmd : e.trans.cmd = none)
include hcmd

theorem railsSettled_hop (fails : List (Fin 8 × Nat)) : ((e.mapDies fails).hop .m3 e.transCause.1 e.transCause.2).powerAfe true = e.railsUp fails := by
  have hcause : e.transCause = (11, none) := by rw [transCause, hcmd]
  have hmode := mapDies_mode h2 fails
  rw [hcause, hop_m3 (by rw [hmode]; decide) (by rw [hmode]; decide)]
  rfl

/-- A wake to M6 goes on, its rails noted. -/
theorem railsSettled_m6 (fails : List (Fin 8 × Nat)) : e.railsSettled ⟨.m6, false⟩ fails =
    { e.railsUp fails with trans := { (e.railsUp fails).trans with wake := some ⟨.m6, true⟩ } } := by
  rw [← railsSettled_hop h2 hcmd fails]
  rfl

/-- A wake to M3 ends there. -/
theorem railsSettled_m3 (hwaiting : e.trans.waiting = []) (fails : List (Fin 8 × Nat)) :
    e.railsSettled ⟨.m3, false⟩ fails = (e.railsUp fails).transEnded := by
  have hsettled : e.railsSettled ⟨.m3, false⟩ fails = (((e.mapDies fails).hop .m3 e.transCause.1 e.transCause.2).powerAfe true).endTrans stOk := rfl
  have htrans : (e.railsUp fails).trans = e.trans := (congrArg Engine.trans (e.railsUp_besideWake fails) :)
  rw [hsettled, railsSettled_hop h2 hcmd fails]
  exact endTrans_alone (htrans ▸ hcmd) (htrans ▸ hwaiting) stOk

end

/-! ### The references have settled (R94, R193, R344) -/

/-- A reference settles by a time at the latest. -/
def settledBy (now : Nat) (a : AfeSide) : AfeSide := { a with settleAt := min a.settleAt now }

/-- No reference settles any longer than to the present time. -/
def refsSettled (e : Engine) : Engine := (upTo 2).foldl (fun x s => x.modAfe s (settledBy e.now)) e

theorem refsSettled_besideAfe (e : Engine) : e.refsSettled = { e with afe := e.refsSettled.afe } := rfl

theorem wakeReferences_checks {e : Engine} (h3 : e.mode = .m3) (hwake : e.trans.wake = some ⟨.m6, true⟩) : e.wakeReferences =
    if e.refsSettled.warmupCheck.2 ≠ stOk then e.refsSettled.warmupCheck.1.endTrans e.refsSettled.warmupCheck.2
    else
      let e2 := e.refsSettled.warmupCheck.1.hop .m4 e.transCause.1 e.transCause.2
      if e2.calRefuses || e2.convSides.any (fun s => (e2.afeSide s).timedOut) then e2.endTrans stRejectedState
      else { e2 with trans := { e2.trans with warming := true } } := by
  unfold wakeReferences
  rw [hwake]
  dsimp only
  rw [if_pos ⟨h3, rfl⟩]
  rfl

/-! ### The checks before M4 (R32, R48) -/

/-- An engine without its registers and the free values taken. -/
def besideChecks (e : Engine) : Engine := { e with regs := [], free := 0 }

/-- A driver is pulsed where it is enabled. -/
def ledPulsed (e : Engine) (n : Nat) : Engine := if e.on (R.ILL_CFG.EN n) then e.pulseVf n else e

theorem pulseLeds_eq (e : Engine) : e.pulseLeds = (upTo 10).foldl ledPulsed e := rfl

theorem ledPulsed_besideChecks (e : Engine) (n : Nat) : (e.ledPulsed n).besideChecks = e.besideChecks := by
  unfold ledPulsed pulseVf
  split
  · dsimp only
    split <;> rfl
  · rfl

theorem pulseLeds_besideChecks (e : Engine) : e.pulseLeds.besideChecks = e.besideChecks := foldl_keep besideChecks ledPulsed ledPulsed_besideChecks _ e

theorem ledPulsed_word (e : Engine) (n : Nat) {off : Nat} (h : off < 0x5000 ∨ 0x8000 ≤ off) (hn : n < 10) : (e.ledPulsed n).word off = e.word off := by
  have hoff : off ≠ (R.ILL_STATUS.VF_MV n).off := by dsimp only; omega
  unfold ledPulsed pulseVf
  split
  · dsimp only
    split
    · exact word_wr_ne _ _ hoff
    · exact word_wr_ne _ _ hoff
  · rfl

theorem pulseLeds_word (e : Engine) {off : Nat} (h : off < 0x5000 ∨ 0x8000 ≤ off) : e.pulseLeds.word off = e.word off :=
  foldl_keeps (f := ledPulsed) (fun x => x.word off) (fun x n hn => x.ledPulsed_word n h (List.mem_range.mp hn)) e

/-- The pulses do not depend on the AFE dies. -/
theorem pulseLeds_afe (e : Engine) (l : List AfeSide) : ({ e with afe := l } : Engine).pulseLeds = { e.pulseLeds with afe := l } := by
  have hone (x : Engine) (n : Nat) : ({ x with afe := l } : Engine).ledPulsed n = { x.ledPulsed n with afe := l } := by
    unfold ledPulsed pulseVf
    rw [show ({ x with afe := l } : Engine).on (R.ILL_CFG.EN n) = x.on (R.ILL_CFG.EN n) from rfl]
    split
    · dsimp only
      rw [show ({ x with afe := l } : Engine).takeFree.1 = x.takeFree.1 from rfl]
      split <;> rfl
    · rfl
  rw [pulseLeds_eq, pulseLeds_eq]
  generalize upTo 10 = ns
  induction ns generalizing e with
  | nil => rfl
  | cons n ns ih => rw [List.foldl_cons, List.foldl_cons, hone, ih]

theorem cfgError_afe (e : Engine) (l : List AfeSide) (s : Nat) : ({ e with afe := l } : Engine).cfgError s = e.cfgError s := rfl

theorem configCheck_besideChecks (e : Engine) : e.configCheck.1.besideChecks = e.besideChecks := rfl

theorem configCheck_word (e : Engine) {off : Nat} (h : off < 0x5000 ∨ 0x8000 ≤ off) : e.configCheck.1.word off = e.word off := by
  have hstatus (x : Engine) (s c : Nat) (hs : s < 2) :
      ((x.wr (R.TG_STATUS.CFG_ERR s) (b2n (c != 0))).wr (R.TG_STATUS.ERR_CODE s) c).word off = x.word off := by
    rw [word_wr_ne _ _ (by dsimp only; omega), word_wr_ne _ _ (by dsimp only; omega)]
  unfold configCheck
  extract_lets e0 c0 c1 put
  have h0 : e0.word off = e.word off := word_wr_ne e _ (by dsimp only; omega)
  exact (hstatus (put e0 0 c0) 1 c1 (by decide)).trans ((hstatus e0 0 c0 (by decide)).trans h0)

/-- Without a die pair mapped in the step to M4 is refused (R193). -/
theorem warmupCheck_unmapped {e : Engine} (hmap : e.rd R.QDR_STATUS.MAP = 0) : e.warmupCheck = (e, stRejectedState) := if_pos hmap

/-- With one, and both sides in order, it is allowed. -/
theorem warmupCheck_passes {e : Engine} (hmap : e.rd R.QDR_STATUS.MAP ≠ 0) (h0 : e.pulseLeds.cfgError 0 = 0) (h1 : e.pulseLeds.cfgError 1 = 0) :
    e.warmupCheck = (e.pulseLeds.configCheck.1, stOk) := by
  have hgood : e.pulseLeds.configCheck.2 = true := by
    unfold configCheck
    rw [h0, h1]
    rfl
  unfold warmupCheck
  rw [if_neg hmap]
  dsimp only
  rw [hgood]
  rfl

/-! ### From the checks to M4 -/

theorem changeMode_m4 {e : Engine} (h3 : e.mode = .m3) (cause : Nat) (hs : Option Nat) :
    e.changeMode .m4 cause hs = (e.entered .m4).emit 0x15 4 0 (3 + 256 * cause) hs [] := by
  unfold changeMode
  rw [if_neg (by rw [h3]; decide)]
  simp [entered, Mode.idx, h3]

theorem gapAbandon_rd (e : Engine) {f : Fld} (hf : f.fits) (hrun : f.off ≠ R.CAL_STATUS.word.off ∨ f.apart R.CAL_STATUS.RUNNING) (hcount : f.off ≠ R.CAL_ABANDON_CNT.V.off) :
    e.gapAbandon.rd f = e.rd f := by
  unfold gapAbandon
  split
  · dsimp only [count]
    rw [rd_wr_ne _ _ hcount]
    refine hrun.elim (fun hoff => ?_) fun hapart => ?_
    · rw [rd_wr_ne (g := R.CAL_STATUS.RUNNING) _ _ hoff]
      rfl
    · rw [rd_wr_apart _ hf (by simp [Fld.fits]) hapart]
      rfl
  · rfl

/-- What neither the checks nor an entry to M4 touches. -/
def besideWarmup (e : Engine) : Engine :=
  { e with regs := [], mode := .m0, free := 0, evt := Engine.reset.evt, opens := [], pair := PairSt.init, afe := [], cal := CalSt.init }

theorem eq_of_besideWarmup {e x : Engine} (h : x.besideWarmup = e.besideWarmup) : x =
    { x with now := e.now, jump := e.jump, rsp := e.rsp, trans := e.trans, resetting := e.resetting, pins := e.pins, flash := e.flash, link := e.link, cmdIn := e.cmdIn, rings := e.rings, status := e.status, streams := e.streams, dma := e.dma, tg := e.tg, mot := e.mot, pac := e.pac, feed := e.feed, squall := e.squall, job := e.job, frames := e.frames, gus := e.gus, qdr := e.qdr, chans := e.chans, shd := e.shd, eddy := e.eddy, geo := e.geo, mon := e.mon, met := e.met, mets := e.mets } := by
  cases e
  cases x
  simp only [besideWarmup, Engine.mk.injEq] at h ⊢
  simp only [h, and_self]

theorem besideWarmup_of_books {e x : Engine} {offs : List Nat} (h : e.onlyBooks x offs) : x.besideWarmup = e.besideWarmup := by
  rw [h.1]
  rfl

theorem besideWarmup_of_besideChecks {e x : Engine} (h : x.besideChecks = e.besideChecks) : x.besideWarmup = e.besideWarmup := (congrArg besideWarmup h :)

theorem entered_besideWarmup (e : Engine) (m : Mode) : (e.entered m).besideWarmup = e.besideWarmup := by
  rw [entered, e.gapAbandon_onlyRegs.1]
  rfl

/-- The books hold no register of the system, the AFE dies or the calibration. -/
theorem not_bookReg_beside {off : Nat} (h : off < 0x1000 ∨ 0x8000 ≤ off) : ¬ bookReg off := by
  unfold bookReg
  rintro (h | h | h | h | h | h | ⟨k, j, h⟩ | ⟨k, j, h⟩ | ⟨r, h⟩)
  all_goals
    dsimp only at h
    omega

/-- M4 is entered with the references settled and the checks passed. -/
def checkedM4 (e : Engine) : Engine := e.refsSettled.pulseLeds.configCheck.1.changeMode .m4 e.transCause.1 e.transCause.2

theorem refsSettled_checks (e : Engine) : e.refsSettled.pulseLeds.configCheck.1.besideChecks = e.refsSettled.besideChecks := by
  rw [configCheck_besideChecks, pulseLeds_besideChecks]

section
variable {e : Engine} (h3 : e.mode = .m3)
include h3

theorem checked_mode : e.refsSettled.pulseLeds.configCheck.1.mode = .m3 := (congrArg Engine.mode e.refsSettled_checks :).trans h3

theorem checkedM4_eq : e.checkedM4 =
    (e.refsSettled.pulseLeds.configCheck.1.entered .m4).emit 0x15 4 0 (3 + 256 * e.transCause.1) e.transCause.2 [] :=
  changeMode_m4 (checked_mode h3) _ _

theorem checkedM4_besideWarmup : e.checkedM4.besideWarmup = e.besideWarmup := by
  rw [checkedM4_eq h3, besideWarmup_of_books (emit_books _ _ _ _ _ _ _ []), entered_besideWarmup, besideWarmup_of_besideChecks e.refsSettled_checks,
    refsSettled_besideAfe]
  rfl

theorem checkedM4_afe : e.checkedM4.afe = e.refsSettled.afe := by
  rw [checkedM4_eq h3, (emit_books _ _ _ _ _ _ _ []).1]
  change e.refsSettled.pulseLeds.configCheck.1.gapAbandon.afe = _
  rw [(gapAbandon_onlyRegs _).1]
  exact (congrArg Engine.afe e.refsSettled_checks :)

/-- A field of neither the checks, nor the books, nor the gap calibration. -/
theorem checkedM4_rd {f : Fld} (hf : f.fits) (hoff : f.off < 0x1000 ∨ 0x8000 ≤ f.off) (hrun : f.off ≠ R.CAL_STATUS.word.off ∨ f.apart R.CAL_STATUS.RUNNING)
    (hcount : f.off ≠ R.CAL_ABANDON_CNT.V.off) : e.checkedM4.rd f = e.rd f := by
  have hchecks : f.off < 0x5000 ∨ 0x8000 ≤ f.off := by omega
  rw [checkedM4_eq h3, onlyBooks_rd (emit_books _ _ _ _ _ _ _ []) (not_bookReg_beside hoff) List.not_mem_nil]
  change e.refsSettled.pulseLeds.configCheck.1.gapAbandon.rd f = _
  rw [gapAbandon_rd _ hf hrun hcount]
  unfold rd
  rw [configCheck_word _ hchecks, pulseLeds_word _ hchecks]
  rfl

end

theorem convSides_congr {e x : Engine} (hen : ∀ s, s < 2 → x.rd (R.AFE_CTRL.CONV_EN s) = e.rd (R.AFE_CTRL.CONV_EN s))
    (h0 : x.rd R.SYS_UNITS.AFE0 = e.rd R.SYS_UNITS.AFE0) (h1 : x.rd R.SYS_UNITS.AFE1 = e.rd R.SYS_UNITS.AFE1) : x.convSides = e.convSides := by
  refine List.filter_congr fun s hs => ?_
  have hunit : x.afePresent s = e.afePresent s := by
    unfold afePresent on
    split
    · rw [h0]
    · rw [h1]
  unfold sideConverts on
  rw [hen s (List.mem_range.mp hs), hunit]

theorem checkedM4_convSides {e : Engine} (h3 : e.mode = .m3) : e.checkedM4.convSides = e.convSides := by
  refine convSides_congr (fun s hs => checkedM4_rd h3 ?_ ?_ ?_ ?_) (checkedM4_rd h3 ?_ ?_ ?_ ?_) (checkedM4_rd h3 ?_ ?_ ?_ ?_)
  · simp [Fld.fits]
  · exact .inr (by dsimp only; omega)
  · exact .inl (by dsimp only; omega)
  · dsimp only
    omega
  all_goals simp [Fld.fits]

theorem checkedM4_calRefuses {e : Engine} (h3 : e.mode = .m3) : e.checkedM4.calRefuses = e.calRefuses := by
  unfold calRefuses
  rw [checkedM4_convSides h3, checkedM4_rd h3 (by simp [Fld.fits]) (by simp) (.inr (by simp [Fld.apart])) (by simp)]

/-- A change of a die that leaves its timeout as it was. -/
theorem timedOut_modAt {f : AfeSide → AfeSide} (hf : ∀ a, (f a).timedOut = a.timedOut) (l : List AfeSide) (i k : Nat) :
    ((modAt l i f).getD k AfeSide.init).timedOut = (l.getD k AfeSide.init).timedOut := by
  rw [modAt, List.getD_eq_getElem?_getD, List.getD_eq_getElem?_getD, List.getElem?_modify]
  cases l[k]? with
  | none => rfl
  | some a =>
    by_cases hik : i = k
    · simp [hik, hf]
    · simp [hik]

theorem checkedM4_timedOut {e : Engine} (h3 : e.mode = .m3) (s : Nat) : (e.checkedM4.afeSide s).timedOut = (e.afeSide s).timedOut := by
  unfold afeSide
  rw [checkedM4_afe h3]
  have hkeeps : ∀ a, (settledBy e.now a).timedOut = a.timedOut := fun _ => rfl
  change ((modAt (modAt e.afe 0 (settledBy e.now)) 1 (settledBy e.now)).getD s AfeSide.init).timedOut = _
  rw [timedOut_modAt hkeeps, timedOut_modAt hkeeps]

/-- With the checks passed and nothing against M6 the wake warms up in M4. -/
theorem wakeReferences_warms {e : Engine} (h3 : e.mode = .m3) (hwake : e.trans.wake = some ⟨.m6, true⟩) (hmap : e.rd R.QDR_STATUS.MAP ≠ 0)
    (h0 : e.pulseLeds.cfgError 0 = 0) (h1 : e.pulseLeds.cfgError 1 = 0) (hcal : e.calRefuses = false)
    (htimed : (e.convSides.any fun i => (e.afeSide i).timedOut) = false) :
    e.wakeReferences = { e.checkedM4 with trans := { e.checkedM4.trans with warming := true } } := by
  have hpulse : e.refsSettled.pulseLeds = { e.pulseLeds with afe := e.refsSettled.afe } := e.pulseLeds_afe e.refsSettled.afe
  have hcheck : e.refsSettled.warmupCheck = (e.refsSettled.pulseLeds.configCheck.1, stOk) :=
    warmupCheck_passes hmap (by rw [hpulse, cfgError_afe, h0]) (by rw [hpulse, cfgError_afe, h1])
  have hmode := checked_mode h3
  have hhop : e.refsSettled.pulseLeds.configCheck.1.hop .m4 e.transCause.1 e.transCause.2 = e.checkedM4 :=
    (hop_eq (by rw [hmode]; decide) (by rw [hmode]; decide) (by decide) _ _).trans (if_neg (by decide))
  have hgo : (e.checkedM4.calRefuses || e.checkedM4.convSides.any fun s => (e.checkedM4.afeSide s).timedOut) = false := by
    rw [checkedM4_calRefuses h3, checkedM4_convSides h3, hcal, Bool.false_or, ← htimed]
    exact congrArg (List.any e.convSides) (funext fun s => checkedM4_timedOut h3 s)
  rw [wakeReferences_checks h3 hwake, hcheck]
  dsimp only
  rw [if_neg (fun hbad => hbad rfl), hhop, if_neg (by rw [hgo]; exact Bool.false_ne_true)]

/-- Without a die pair mapped in the wake ends in M3. -/
theorem wakeReferences_unmapped {e : Engine} (h3 : e.mode = .m3) (hwake : e.trans.wake = some ⟨.m6, true⟩) (hmap : e.rd R.QDR_STATUS.MAP = 0)
    (hcmd : e.trans.cmd = none) (hwaiting : e.trans.waiting = []) : e.wakeReferences = e.refsSettled.transEnded := by
  have hcheck : e.refsSettled.warmupCheck = (e.refsSettled, stRejectedState) := warmupCheck_unmapped hmap
  rw [wakeReferences_checks h3 hwake, hcheck, if_pos (show stRejectedState ≠ stOk by decide)]
  exact endTrans_alone (e := e.refsSettled) hcmd hwaiting _

/-! ### The end of warm-up (R340) -/

/-- M6 is entered at the end of warm-up. -/
def warmedUp (e : Engine) : Engine := ({ e with mode := .m6 } : Engine).emit 0x15 6 0 (4 + 256 * e.transCause.1) e.transCause.2 []

theorem warm_enters {e : Engine} (h4 : e.mode = .m4) (htarget : e.trans.target = some .m6) (hwarming : e.trans.warming = true)
    (hconv : e.convMissing = false) (hslices : e.slicesReady = true) (hgap : e.cal.gapStart = none) : e.warm = e.warmedUp.endTrans stOk := by
  have hhop : e.hop .m6 e.transCause.1 e.transCause.2 = e.warmedUp := by
    refine (hop_eq (by rw [h4]; decide) (by rw [h4]; decide) (by decide) _ _).trans ((if_neg (by decide)).trans ?_)
    rw [changeMode_eq (.inl rfl) (by rw [h4]; decide), entered, gapAbandon_idle hgap, h4]
    rfl
  unfold warm
  rw [if_pos ⟨h4, htarget, hwarming, by simp [hconv], hslices⟩]
  exact congrArg (fun x => x.endTrans stOk) hhop

theorem warmedUp_books (e : Engine) : ({ e with mode := .m6 } : Engine).onlyBooks e.warmedUp [] := emit_books ..

theorem transCause_wake {e : Engine} (hcmd : e.trans.cmd = none) : e.transCause = (11, none) := by rw [transCause, hcmd]

theorem warmedUp_told {e : Engine} (hr : e.resetting = none) (hf : e.pins.failed = false) {c : Nat × Option Nat} (hcause : e.transCause = c) :
    e.warmedUp.told 0x15 6 0 c.2 (4 + 256 * c.1) := by
  rw [warmedUp, hcause]
  exact emit_told ({ e with mode := .m6 } : Engine) hr hf 0x15 6 0 (4 + 256 * c.1) c.2 []

/-- The end of the transition follows in the mode entered. -/
theorem transEnded_books {e x : Engine} {offs : List Nat} (h : e.onlyBooks x offs) : e.transEnded.onlyBooks x.transEnded offs :=
  have hwoke : x.trans = e.trans := (congrArg Engine.trans h.1 :)
  have hsame : x.transEnded = { x with trans := e.transEnded.trans } := congrArg (fun t : TransSt => { x with trans := { Engine.reset.trans with wokeAt := t.wokeAt } }) hwoke
  hsame ▸ onlyBooks_map (f := fun y => { y with trans := e.transEnded.trans }) h fun _ _ _ _ _ => rfl

/-! ### The edge (R342, R344) -/

theorem wakeEdge_m2 {e : Engine} (h2 : e.mode = .m2) (hen : e.on R.SYS_CTRL.WAKE_EN = true) (htarget : e.trans.target = none) (hr : e.resetting = none) :
    e.wakeEdge = { e with trans := { e.trans with
      target := some (if e.on R.SYS_CTRL.WAKE_TGT then .m6 else .m3), cmd := none
      wake := some ⟨if e.on R.SYS_CTRL.WAKE_TGT then .m6 else .m3, false⟩, warming := false, wokeAt := some e.now } } := by
  unfold wakeEdge
  rw [if_neg (by simp [hen, hr])]
  exact if_pos ⟨h2, by rw [htarget]; rfl⟩

theorem wakeEdge_noted {e : Engine} (h2 : e.mode ≠ .m2) (hen : e.on R.SYS_CTRL.WAKE_EN = true) (hr : e.resetting = none) :
    e.wakeEdge = { e with trans := { e.trans with wokeAt := some e.now } } := by
  unfold wakeEdge
  rw [if_neg (by simp [hen, hr])]
  exact if_neg fun hwake => h2 hwake.1

/-- A MODE 2 that meets an edge. -/
theorem cmdMode_woken {e : Engine} {h : CmdHdr} (ha : e.accepts h 0x17 [2, 3, 4, 5, 6, 7, 8, 9, 11]) (hwoke : e.trans.wokeAt = some e.now) :
    e.cmdMode h 2 = (e.openCmd h 0x17 (.mode .m2)).finishHseq h.hseq.toNat stAborted [] := by
  obtain ⟨htake, hzero, hversion, hmodes⟩ := ha
  have hwide : e.modeIn (modesTo 2 11) = true := by
    have hsub : ([2, 3, 4, 5, 6, 7, 8, 9, 11] : List Nat) ⊆ modesTo 2 11 := by decide
    exact List.contains_iff_mem.mpr (hsub (List.contains_iff_mem.mp hmodes))
  rw [cmdMode_runs ⟨htake, hzero, hversion, hwide⟩ (m := .m2) rfl (fun h10 => by simp [modeIn, h10, Mode.idx] at hmodes) (.inr ⟨rfl, hwoke⟩)]
  exact runMode_woken (e := e.openCmd h 0x17 (.mode .m2)) hwoke _

end Engine

theorem execWakeRailsSettled_settles {s : State} {m : Mode} (h2 : s.eng.mode = .m2) (hwake : s.eng.trans.wake = some ⟨m, false⟩)
    (fails : List (Fin 8 × Nat)) : exec (.wakeRailsSettled fails) s = .next { s with eng := s.eng.railsSettled ⟨m, false⟩ fails, stg := ⟨[], []⟩ } := by
  change execWakeRailsSettled fails s = _
  simp only [execWakeRailsSettled, State.onMem, hwake, h2, Bool.not_false, and_self, if_true]

theorem execWakeReferencesSettled_eq {s : State} {x : Engine} (h : s.eng.wakeReferences = x) : exec .wakeReferencesSettled s = .next { s with eng := x } := by
  rw [← h]
  rfl

theorem execWarmupComplete_eq {s : State} {x : Engine} (h : s.eng.warm = x) : exec .warmupComplete s = .next { s with eng := x } := by
  rw [← h]
  rfl

/-- Settles O26: the edge, the rails, the references and the end of warm-up, each by what it finds. -/
theorem wakeSteps : Obligations.WakeSteps := by
  unfold Obligations.WakeSteps
  refine ⟨?edge, ?edgeNoted, ?woken, ?rails, ?railsEnd, ?unmapped, ?references, ?warm, ?warmCommand⟩
  case edge =>
    intro s h2 hen htarget hr
    refine ⟨_, rfl, ⟨rfl, rfl, rfl⟩, ?_⟩
    exact Engine.wakeEdge_m2 h2 hen htarget hr
  case edgeNoted =>
    intro s h2 hen hr
    refine ⟨_, rfl, ⟨rfl, rfl, rfl⟩, ?_⟩
    exact Engine.wakeEdge_noted h2 hen hr
  case woken =>
    intro h s ha hunused hwoke
    obtain ⟨⟨htake, hf⟩, -⟩ := id ha
    have hruns := Engine.cmdMode_woken ha hwoke
    obtain ⟨hans, hbooks⟩ := Engine.opened_finishHseq (Engine.canTake_resetting htake) hf hunused 0x17 (w := .mode .m2) Wait.noConfusion stAborted []
    rw [← hruns] at hans hbooks
    exact ⟨{ s with eng := s.eng.cmdMode h 2 }, rfl, ⟨rfl, rfl, rfl⟩, hans, (congrArg Engine.mode hbooks.1 :), (congrArg Engine.trans hbooks.1 :), hbooks⟩
  case rails =>
    intro fails s h2 hwake hcmd
    have heq := Engine.eq_of_besideWake (s.eng.railsUp_besideWake fails)
    have htrans : (s.eng.railsUp fails).trans = s.eng.trans := (congrArg Engine.trans heq :)
    have hmode := s.eng.railsUp_mode fails
    have hmap : fails = [] → ∀ j : Fin 4, bitOf ((s.eng.railsUp fails).rd R.QDR_STATUS.MAP) j.val = !bitOf (s.eng.rd R.QDR_MAP_REQ.OUT) j.val := by
      rintro rfl j
      exact Engine.railsUp_map h2 j
    refine ⟨_, execWakeRailsSettled_settles h2 hwake fails, rfl, rfl, rfl, ?_⟩
    rw [Engine.railsSettled_m6 h2 hcmd]
    generalize s.eng.railsUp fails = y at heq htrans hmode hmap ⊢
    refine ⟨hmode, by rw [htrans], hmap, ?_⟩
    rw [heq]
  case railsEnd =>
    intro fails s h2 hwake hcmd hwaiting
    have heq := Engine.eq_of_besideWake (s.eng.railsUp_besideWake fails)
    have htrans : (s.eng.railsUp fails).trans = s.eng.trans := (congrArg Engine.trans heq :)
    have hmode := s.eng.railsUp_mode fails
    refine ⟨_, execWakeRailsSettled_settles h2 hwake fails, rfl, rfl, rfl, ?_⟩
    rw [Engine.railsSettled_m3 h2 hcmd hwaiting]
    generalize s.eng.railsUp fails = y at heq htrans hmode ⊢
    refine ⟨hmode, by rw [Engine.transEnded, htrans], ?_⟩
    rw [heq]
    rfl
  case unmapped =>
    intro s h3 hwake hmap hcmd hwaiting
    refine ⟨_, execWakeReferencesSettled_eq (Engine.wakeReferences_unmapped h3 hwake hmap hcmd hwaiting), ⟨rfl, rfl, rfl⟩, h3, rfl, ?_⟩
    exact ⟨rfl, fun _ _ => rfl⟩
  case references =>
    intro s h3 hwake hmap h0 h1 hcal htimed
    have heq := Engine.eq_of_besideWarmup (Engine.checkedM4_besideWarmup h3)
    have htrans : s.eng.checkedM4.trans = s.eng.trans := (congrArg Engine.trans heq :)
    have hmode : s.eng.checkedM4.mode = .m4 := Engine.changeMode_mode ..
    have hwarms := Engine.wakeReferences_warms h3 hwake hmap h0 h1 hcal htimed
    generalize s.eng.checkedM4 = y at heq htrans hmode hwarms
    refine ⟨_, execWakeReferencesSettled_eq hwarms, ⟨rfl, rfl, rfl⟩, hmode, congrArg (fun t : TransSt => { t with warming := true }) htrans, ?_⟩
    dsimp only
    rw [heq]
  case warm =>
    intro s h4 htarget hwarming hcmd hwaiting hconv hslices hgap hhears
    obtain ⟨⟨hr, hf⟩, -⟩ := hhears
    have htold := Engine.warmedUp_told hr hf (Engine.transCause_wake hcmd)
    have hbooks := s.eng.warmedUp_books
    have htrans : s.eng.warmedUp.trans = s.eng.trans := (congrArg Engine.trans hbooks.1 :)
    have hmode : s.eng.warmedUp.mode = .m6 := (congrArg Engine.mode hbooks.1 :)
    have hended := Engine.transEnded_books hbooks
    have hwarm := Engine.warm_enters h4 htarget hwarming hconv hslices hgap
    rw [Engine.endTrans_alone (htrans ▸ hcmd) (htrans ▸ hwaiting)] at hwarm
    refine ⟨_, execWarmupComplete_eq hwarm, ⟨rfl, rfl, rfl⟩, hmode, congrArg (fun t : TransSt => { Engine.reset.trans with wokeAt := t.wokeAt }) htrans, htold, ?_⟩
    dsimp only
    rw [show s.eng.warmedUp.transEnded.mode = .m6 from hmode, show s.eng.warmedUp.transEnded.trans = s.eng.transEnded.trans from
      congrArg (fun t : TransSt => { Engine.reset.trans with wokeAt := t.wokeAt }) htrans]
    exact hended
  case warmCommand =>
    intro m c s h4 htarget hwarming hcmd hwaiting hconv hslices hgap hr hf hc
    have hbooks := s.eng.warmedUp_books
    have htrans : s.eng.warmedUp.trans = s.eng.trans := (congrArg Engine.trans hbooks.1 :)
    have hmode : s.eng.warmedUp.mode = .m6 := (congrArg Engine.mode hbooks.1 :)
    have hr' : s.eng.warmedUp.resetting = none := (congrArg Engine.resetting hbooks.1 :).trans hr
    have hf' : s.eng.warmedUp.pins.failed = false := (congrArg (fun e : Engine => e.pins.failed) hbooks.1 :).trans hf
    have hended := Engine.transEnded_books hbooks
    have hwaits : s.eng.warmedUp.unanswered = s.eng.unanswered := Engine.emitBk_unanswered ({ s.eng with mode := .m6 } : Engine) ..
    have hfound : s.eng.warmedUp.opens.find? (fun c => c.hseq == m.hseq && c.wait != Wait.built) = some c := by
      rw [Engine.find_unanswered, hwaits, ← Engine.find_unanswered]
      exact hc
    have hseq : c.hseq = m.hseq := by
      have := List.find?_some hc
      simp only [Bool.and_eq_true, beq_iff_eq] at this
      exact this.1
    have hwarm := Engine.warm_enters h4 htarget hwarming hconv hslices hgap
    rw [Engine.endTrans_command (htrans ▸ hcmd) (htrans ▸ hwaiting) hfound] at hwarm
    have hans := Engine.finish_answered s.eng.warmedUp.transEnded hr' hf' c stOk s.eng.warmedUp.modeResult
    have hfinish := Engine.finish_books s.eng.warmedUp.transEnded c stOk s.eng.warmedUp.modeResult []
    have hwoke : s.eng.warmedUp.transEnded.trans = { Engine.reset.trans with wokeAt := s.eng.trans.wokeAt } :=
      congrArg (fun t : TransSt => { Engine.reset.trans with wokeAt := t.wokeAt }) htrans
    rw [hseq] at hans
    generalize s.eng.warmedUp.transEnded.finish c stOk s.eng.warmedUp.modeResult = y at hwarm hans hfinish
    have hymode : y.mode = .m6 := (congrArg Engine.mode hfinish.1 :).trans hmode
    have hytrans : y.trans = { Engine.reset.trans with wokeAt := s.eng.trans.wokeAt } := (congrArg Engine.trans hfinish.1 :).trans hwoke
    refine ⟨_, execWarmupComplete_eq hwarm, ⟨rfl, rfl, rfl⟩, hymode, hytrans, hans, ?_⟩
    dsimp only
    rw [hymode, hytrans]
    exact Engine.onlyBooks_trans hended hfinish

end Sys2Proof.Machine
end

section
/-!
PROOFS. Power failure and its recovery (R348, R354, R355).
-/

namespace Sys2Proof.Machine

namespace Engine

/-! ### What is still written (R354) -/

/-- An engine without its registers, events, open commands, its link and what it says of itself. -/
def besideWrites (e : Engine) : Engine :=
  { e with regs := [], link := LinkSt.init, evt := Engine.reset.evt, opens := [], status := Engine.reset.status }

theorem settle_besideWrites (e : Engine) (v : Ev) : (e.settle v).besideWrites = e.besideWrites := by
  rw [(e.settle_books v []).1]
  unfold settle
  dsimp only
  split
  · rfl
  · rfl
  · split
    · split <;> rfl
    · split <;> rfl

theorem writeEvent_besideWrites (e : Engine) : e.writeEvent.besideWrites = e.besideWrites := by
  unfold writeEvent
  split
  · next v rest _ =>
    split
    · extract_lets e1 e2 e3
      have h1 : e1.besideWrites = e.besideWrites := settle_besideWrites _ v
      have h2 : e2.besideWrites = e1.besideWrites := by
        unfold e2
        split <;> rfl
      exact h2.trans h1
    · rfl
  · rfl

theorem drainEvents_besideWrites (n : Nat) (e : Engine) : (e.drainEvents n).besideWrites = e.besideWrites := by
  induction n generalizing e with
  | zero => rfl
  | succ n ih => exact (ih e.writeEvent).trans e.writeEvent_besideWrites

theorem putStatus_besideWrites (e : Engine) (per sync : Bool) : (e.putStatus per sync).besideWrites = e.besideWrites := by
  unfold putStatus
  dsimp only
  split <;> rfl

/-! ### The sequence of a power failure -/

/-- The engine once its events and its status block are written as far as they can be. -/
def lastWritten (e : Engine) : Engine :=
  let e1 := e.drainEvents e.evt.queue.length
  if e1.canStatus then e1.putStatus false false else e1

theorem lastWritten_besideWrites (e : Engine) : e.lastWritten.besideWrites = e.besideWrites := by
  unfold lastWritten
  extract_lets e1
  have h1 : e1.besideWrites = e.besideWrites := drainEvents_besideWrites _ e
  split
  · exact (putStatus_besideWrites e1 false false).trans h1
  · exact h1

/-- An engine without its flash and the calibration. -/
def besideFlash (e : Engine) : Engine := { e with flash := FlashSt.init, cal := CalSt.init }

theorem tearFlash_besideFlash (e : Engine) : e.tearFlash.besideFlash = e.besideFlash := by
  unfold tearFlash
  extract_lets fl e1
  have h1 : e1.besideFlash = e.besideFlash := by
    unfold e1
    split
    · split <;> rfl
    · rfl
  exact h1

theorem tearFlash_counts (e : Engine) : e.tearFlash.flash.pfailCnt = e.flash.pfailCnt ∧ e.tearFlash.flash.porCount = e.flash.porCount ∧
    e.tearFlash.flash.pfailFlag = e.flash.pfailFlag := by
  unfold tearFlash
  dsimp only
  split
  · split <;> exact ⟨rfl, rfl, rfl⟩
  · exact ⟨rfl, rfl, rfl⟩

/-- The engine at rest before the supply counts as failed. -/
def supplyGone (e : Engine) : Engine := (e.lastWritten.tearFlash.stopConversion 0).stopConversion 1

/-- What a power failure leaves of an engine, but for what it loses. -/
def besidePfail (e : Engine) : Engine :=
  { e with regs := [], mode := .m0, jump := 0, free := 0, rsp := [], trans := Engine.reset.trans, resetting := none, pins := Engine.reset.pins, flash := FlashSt.init,
           link := LinkSt.init, evt := Engine.reset.evt, opens := [], status := Engine.reset.status, tg := [], mot := MotionSt.init, pac := PacerSt.init,
           feed := FeedSt.init, squall := none, job := JobSt.init, pair := PairSt.init, afe := [], chans := [], cal := CalSt.init, met := ⟨[], [], []⟩ }

theorem eq_of_besidePfail {e x : Engine} (h : x.besidePfail = e.besidePfail) : x =
    { x with now := e.now, cmdIn := e.cmdIn, rings := e.rings, streams := e.streams, dma := e.dma, shd := e.shd, eddy := e.eddy, frames := e.frames, gus := e.gus, geo := e.geo, mon := e.mon, mets := e.mets, qdr := e.qdr } := by
  cases e
  cases x
  simp only [besidePfail, Engine.mk.injEq] at h ⊢
  simp only [h, and_self]

theorem besidePfail_of_besideRuns {e x : Engine} (h : x.besideRuns = e.besideRuns) : x.besidePfail = e.besidePfail := (congrArg besidePfail h :)

theorem besidePfail_of_besideFlash {e x : Engine} (h : x.besideFlash = e.besideFlash) : x.besidePfail = e.besidePfail := (congrArg besidePfail h :)

theorem besidePfail_of_besideWrites {e x : Engine} (h : x.besideWrites = e.besideWrites) : x.besidePfail = e.besidePfail := (congrArg besidePfail h :)

theorem supplyGone_besidePfail (e : Engine) : e.supplyGone.besidePfail = e.besidePfail := by
  rw [supplyGone, besidePfail_of_besideRuns (stopConversion_besideRuns _ 1), besidePfail_of_besideRuns (stopConversion_besideRuns _ 0),
    besidePfail_of_besideFlash (tearFlash_besideFlash _), besidePfail_of_besideWrites e.lastWritten_besideWrites]

/-- The engine once the supply has failed. -/
def supplyFailed (x : Engine) (n : Nat) : Engine :=
  { ((x.wr R.SYS_PIN.PFAIL_OUT 1).wr R.SYS_PFAIL_CNT.V n) with
    mode := .m0, pins := { x.pins with failed := true }, resetting := none, squall := none
    flash := { x.flash with pfailCnt := n, pfailFlag := true }
    mot := { x.mot with v := 0, acc := 0 }, pac := PacerSt.init, feed := FeedSt.init, job := { JobSt.init with ended := true }
    trans := Engine.reset.trans
    pair := { x.pair with drive := false, hbStopped := true }
    afe := [AfeSide.init, AfeSide.init] }

theorem powerFail_eq {e : Engine} (h : e.pins.failed = false) : e.powerFail = e.supplyGone.supplyFailed ((e.supplyGone.flash.pfailCnt + 1) % 2 ^ 32) := by
  unfold powerFail
  rw [if_neg (by rw [h]; exact Bool.false_ne_true)]
  rfl

theorem supplyFailed_besidePfail (x : Engine) (n : Nat) : (x.supplyFailed n).besidePfail = x.besidePfail := rfl

theorem supplyFailed_pfailOut (x : Engine) (n : Nat) : (x.supplyFailed n).rd R.SYS_PIN.PFAIL_OUT = 1 := by
  have hregs : (x.supplyFailed n).regs = ((x.wr R.SYS_PIN.PFAIL_OUT 1).wr R.SYS_PFAIL_CNT.V n).regs := rfl
  rw [rd_congr hregs, rd_wr_ne _ _ (by simp), rd_wr_lt _ (by simp [Fld.fits]) (by decide)]

theorem supplyFailed_count (x : Engine) {n : Nat} (hn : n < 2 ^ 32) : (x.supplyFailed n).rd R.SYS_PFAIL_CNT.V = n := by
  have hregs : (x.supplyFailed n).regs = ((x.wr R.SYS_PIN.PFAIL_OUT 1).wr R.SYS_PFAIL_CNT.V n).regs := rfl
  rw [rd_congr hregs, rd_wr_lt _ (by simp [Fld.fits]) hn]

/-- Both sides stopped: no channel owes a sample. -/
theorem stopConversion_chans (e : Engine) (s : Nat) :
    (e.stopConversion s).chans = e.chans.zipIdx.map fun x => if x.2 / 32 = s then { x.1 with owed := [] } else x.1 := by
  have hcount (l : List Nat) (x : Engine) : (l.foldl (fun x k => x.count (R.QUE_BAD.V (32 * s + k)) 1) x).chans = x.chans :=
    foldl_keeps (f := fun x k => x.count (R.QUE_BAD.V (32 * s + k)) 1) Engine.chans (fun _ _ _ => rfl) x
  unfold stopConversion
  extract_lets src e1 e2
  split
  · split
    · exact hcount _ e1
    · rfl
  · rfl

theorem supplyGone_chans (e : Engine) : e.supplyGone.chans = e.chans.zipIdx.map fun x => if x.2 < 64 then { x.1 with owed := [] } else x.1 := by
  have hbefore : e.lastWritten.tearFlash.chans = e.chans :=
    (congrArg Engine.chans (tearFlash_besideFlash e.lastWritten) :).trans (congrArg Engine.chans e.lastWritten_besideWrites :)
  rw [supplyGone, stopConversion_chans, stopConversion_chans, hbefore]
  refine List.ext_getElem? fun k => ?_
  simp only [List.getElem?_map, List.getElem?_zipIdx, Nat.zero_add]
  cases e.chans[k]? with
  | none => rfl
  | some c =>
    simp only [Option.map_some, Option.some.injEq]
    have hsides : k < 64 ↔ k / 32 = 0 ∨ k / 32 = 1 := by omega
    by_cases h0 : k / 32 = 0
    · simp [hsides, h0]
    · simp [hsides, h0]

theorem supplyGone_pins (e : Engine) : e.supplyGone.pins = e.pins := by
  rw [supplyGone]
  exact (congrArg Engine.pins (stopConversion_besideRuns _ 1) :).trans ((congrArg Engine.pins (stopConversion_besideRuns _ 0) :).trans
    ((congrArg Engine.pins (tearFlash_besideFlash _) :).trans (congrArg Engine.pins e.lastWritten_besideWrites :)))

theorem supplyGone_pfailCnt (e : Engine) : e.supplyGone.flash.pfailCnt = e.flash.pfailCnt := by
  have hstops : e.supplyGone.flash = e.lastWritten.tearFlash.flash :=
    (congrArg Engine.flash (stopConversion_besideRuns _ 1) :).trans (congrArg Engine.flash (stopConversion_besideRuns _ 0) :)
  rw [hstops, e.lastWritten.tearFlash_counts.1]
  exact (congrArg (fun x : Engine => x.flash.pfailCnt) e.lastWritten_besideWrites :)

/-! ### The engine after a POR (R249, R348, R355) -/

/-- What a POR keeps, with the new count of PORs. -/
def porKept (e : Engine) : Engine :=
  { Engine.reset with
    free := e.free
    pins := { Engine.reset.pins with rstLow := e.pins.rstLow, perstLow := e.pins.perstLow }
    flash := { e.tearFlash.flash with porCount := (e.flash.porCount + 1) % 2 ^ 32, pfailFlag := false }
    link := { LinkSt.init with out := e.link.out }
    pair := { PairSt.init with peerOwn := e.pair.peerOwn, peerPref := e.pair.peerPref }
    cal := { CalSt.init with copies := e.tearFlash.cal.copies } }

theorem porReset_eq {e : Engine} (h : e.pinHeld = false) : e.porReset =
    ((e.porKept.loadFlash).wr R.UHP_EPOCH.V ((e.flash.porCount + 1) % 2 ^ 32)).wr R.SYS_RESET_CAUSE.PFAIL (b2n e.flash.pfailFlag) := by
  have hpins : (((e.porKept.loadFlash).wr R.UHP_EPOCH.V ((e.flash.porCount + 1) % 2 ^ 32)).wr R.SYS_RESET_CAUSE.PFAIL (b2n e.flash.pfailFlag)).pinHeld =
      e.pinHeld := rfl
  unfold porReset
  exact if_neg fun hheld => Bool.false_ne_true (h.symm.trans (hpins.symm.trans hheld))

/-- Flash loads no part of the reset cause. -/
theorem loadFlash_cause (e : Engine) : e.loadFlash.word R.SYS_RESET_CAUSE.word.off = e.word R.SYS_RESET_CAUSE.word.off := by
  unfold loadFlash
  rw [word_wr_ne _ _ (by simp), word_wr_ne _ _ (by simp), word_wr_ne _ _ (by simp), word_wr_ne _ _ (by simp), word_wr_ne _ _ (by simp),
    word_wr_ne _ _ (by simp)]

theorem loadFlash_pfailCnt (e : Engine) : e.loadFlash.rd R.SYS_PFAIL_CNT.V = e.flash.pfailCnt % 2 ^ 32 := by
  unfold loadFlash
  rw [rd_wr_ne _ _ (by simp)]
  exact rd_wr_same _ (by simp [Fld.fits]) _

/-- A POR after any state is the engine's reset, but for what it keeps. -/
theorem porReset_only {e : Engine} (h : e.pinHeld = false) : e.porReset = { e.porKept with regs := e.porReset.regs } := by
  rw [porReset_eq h]
  rfl

section
variable {e : Engine} (h : e.pinHeld = false)
include h

theorem porReset_epoch : e.porReset.rd R.UHP_EPOCH.V = (e.flash.porCount + 1) % 2 ^ 32 := by
  rw [porReset_eq h, rd_wr_ne _ _ (by simp)]
  exact rd_wr_lt _ (by simp [Fld.fits]) (Nat.mod_lt _ (by decide))

theorem porReset_cause : e.porReset.rd R.SYS_RESET_CAUSE.POR = 1 := by
  rw [porReset_eq h, rd_wr_apart _ (by simp [Fld.fits]) (by simp [Fld.fits]) (by simp [Fld.apart]), rd_wr_ne _ _ (by simp)]
  exact congrArg R.SYS_RESET_CAUSE.POR.get e.porKept.loadFlash_cause

theorem porReset_pfail : e.porReset.rd R.SYS_RESET_CAUSE.PFAIL = b2n e.flash.pfailFlag := by
  rw [porReset_eq h]
  exact rd_wr_lt _ (by simp [Fld.fits]) (by cases e.flash.pfailFlag <;> decide)

theorem porReset_pfailCnt : e.porReset.rd R.SYS_PFAIL_CNT.V = e.flash.pfailCnt % 2 ^ 32 := by
  rw [porReset_eq h, rd_wr_ne _ _ (by simp), rd_wr_ne _ _ (by simp), loadFlash_pfailCnt]
  exact congrArg (· % 2 ^ 32) e.tearFlash_counts.1

end

end Engine

/-! ### The section through both (R309, R354) -/

theorem execPfail_idle {s : State} (hf : s.eng.pins.failed = false) (hpieces : s.sec.pieces = []) :
    exec .pfail s = .next { s with eng := s.eng.powerFail, stg := ⟨[], []⟩ } := by
  have hend (now : Nat) : s.sec.endAll now = s.sec := by
    unfold Section.endAll
    rw [hpieces]
    exact congrArg (fun l => ({ s.sec with pieces := l } : Section)) hpieces.symm
  change execPfail s = _
  unfold execPfail
  rw [if_neg (by rw [hf]; exact Bool.false_ne_true), onSec_quiet _ _ rfl]
  have hsec (now : Nat) : (upTo s.sec.pieces.length).foldl (fun y _ => (y.sendRecord (now + 50000000)).1) (s.sec.endAll now) = s.sec := by
    rw [hend, hpieces]
    rfl
  exact congrArg (fun x => Host.Outcome.next { s with eng := s.eng.powerFail, stg := ⟨[], []⟩, sec := x }) (hsec _)

theorem execPfailRecovery_restarts {s : State} (hf : s.eng.pins.failed = true) (hpin : s.eng.pinHeld = false) : exec .pfailRecovery s =
    .next (({ s with eng := s.eng.porReset, stg := ⟨[], []⟩ } : State).onSec fun x _ => x.restart 0 1) := by
  have hnow : s.eng.porReset.secNow = 0 := by rw [Engine.porReset_only hpin]; rfl
  change execPfailRecovery s = _
  unfold execPfailRecovery
  rw [if_pos hf]
  unfold State.onSec State.onMem
  dsimp only
  rw [hnow]

/-- Settles O25: what a power failure loses and keeps, and what its recovery resets. -/
theorem powerFailure : Obligations.PowerFailure := by
  unfold Obligations.PowerFailure
  refine ⟨fun s hf hpieces => ?fails, fun s hf hpin => ?recovers⟩
  case fails =>
    have heq := Engine.eq_of_besidePfail s.eng.supplyGone_besidePfail
    have hchans := s.eng.supplyGone_chans
    refine ⟨_, execPfail_idle hf hpieces, rfl, rfl, rfl, ?_⟩
    rw [Engine.powerFail_eq hf]
    have hpins : s.eng.supplyGone.pins = s.eng.pins := s.eng.supplyGone_pins
    have hcount : s.eng.supplyGone.flash.pfailCnt = s.eng.flash.pfailCnt := s.eng.supplyGone_pfailCnt
    rw [hcount]
    generalize s.eng.supplyGone = x at heq hchans hpins
    refine ⟨rfl, congrArg (fun p : PinSt => { p with failed := true }) hpins, x.supplyFailed_pfailOut _, rfl,
      x.supplyFailed_count (Nat.mod_lt _ (by decide)), rfl, rfl, rfl, rfl, rfl, rfl, rfl, rfl, hchans, ?_⟩
    rw [heq]
    rfl
  case recovers =>
    refine ⟨_, execPfailRecovery_restarts hf hpin, rfl, rfl, rfl, ?_⟩
    rw [State.onSec_metIn]
    dsimp only
    generalize (s.sec.restart 0 1).1.stat s.eng.porReset.secNow = st
    generalize (s.sec.restart 0 1).2 = l
    have hframe := s.eng.porReset.metIn_frame st l
    have honly := Engine.porReset_only hpin
    have hepoch := Engine.porReset_epoch hpin
    have hcause := Engine.porReset_cause hpin
    have hpfail := Engine.porReset_pfail hpin
    have hcnt := Engine.porReset_pfailCnt hpin
    generalize s.eng.porReset = x at hframe honly hepoch hcause hpfail hcnt ⊢
    have hrd {f : Fld} (hf : f.off ∉ [(R.QUE_LEVEL.LEVEL 68).off, (R.QUE_LOST.V 68).off]) : (x.metIn st l).rd f = x.rd f := Engine.onlyRegs_rd hframe hf
    rw [hrd (by simp), hrd (by simp), hrd (by simp), hrd (by simp)]
    obtain ⟨hmet, -⟩ := hframe
    have hkept : ∀ {β : Type} (p : Engine → β), (∀ (y : Engine) r m, p { y with regs := r, met := m } = p y) → p (x.metIn st l) = p s.eng.porKept := by
      intro β p hp
      rw [hmet]
      refine (hp x _ _).trans ?_
      rw [honly]
      exact hp s.eng.porKept _ s.eng.porKept.met
    exact ⟨hkept Engine.mode fun _ _ _ => rfl, hkept (fun e => e.pins.failed) fun _ _ _ => rfl, hkept Engine.now fun _ _ _ => rfl,
      hkept (fun e => e.flash.porCount) fun _ _ _ => rfl, hepoch, hcause, hpfail, hcnt, hkept Engine.streams fun _ _ _ => rfl,
      hkept Engine.opens fun _ _ _ => rfl⟩

end Sys2Proof.Machine
end

section
/-!
PROOFS. Reads with effects of their own (R5 to R7, R158, R215, R246, R302, R339).
-/

namespace Sys2Proof.Machine

namespace Engine

/-! ### Read-clear fields (R6, R7) -/

/-- A field of a register that is read: a read-clear field then holds what was counted in the same cycle. -/
def clearField (off coincident : Nat) (x : Engine) (f : FieldSpec) : Engine :=
  if f.access = .rc then x.wr (fieldAt off f) (min coincident (2 ^ (f.hi + 1 - f.lo) - 1)) else x

/-- What a field of a register holds once it is read. -/
abbrev cleared (off coincident : Nat) (x : Engine) (f : FieldSpec) : Nat :=
  if f.access = .rc then min coincident (2 ^ (f.hi + 1 - f.lo) - 1) else x.rd (fieldAt off f)

section
variable (off coincident : Nat)

theorem clearField_onlyRegs (x : Engine) (f : FieldSpec) : x.onlyRegs (clearField off coincident x f) [off] := by
  unfold clearField
  split
  · exact wr_onlyRegs _ _ (List.mem_singleton.mpr rfl)
  · exact x.onlyRegs_refl _

theorem rd_clearField_same (x : Engine) {f : FieldSpec} (hf : FieldInWord f) :
    (clearField off coincident x f).rd (fieldAt off f) = cleared off coincident x f := by
  unfold clearField cleared
  split
  · have hpos : 0 < 2 ^ (f.hi + 1 - f.lo) := Nat.two_pow_pos _
    exact rd_wr_lt _ (f := fieldAt off f) hf (show min coincident (2 ^ (f.hi + 1 - f.lo) - 1) < 2 ^ (f.hi + 1 - f.lo) by omega)
  · rfl

theorem rd_clearField_apart (x : Engine) {f g : FieldSpec} (hf : FieldInWord f) (hg : FieldInWord g) (h : FieldsApart f g) :
    (clearField off coincident x g).rd (fieldAt off f) = x.rd (fieldAt off f) := by
  unfold clearField
  split
  · exact rd_wr_apart x (f := fieldAt off f) (g := fieldAt off g) hf hg h _
  · rfl

theorem foldl_clearField_onlyRegs (l : List FieldSpec) (e : Engine) : e.onlyRegs (l.foldl (clearField off coincident) e) [off] :=
  foldl_onlyRegs (fun x f _ => clearField_onlyRegs off coincident x f) e

theorem rd_foldl_clearField_apart {f : FieldSpec} (hf : FieldInWord f) (l : List FieldSpec) (e : Engine)
    (hl : ∀ g ∈ l, FieldInWord g ∧ FieldsApart f g) : (l.foldl (clearField off coincident) e).rd (fieldAt off f) = e.rd (fieldAt off f) :=
  foldl_keeps (fun x => x.rd (fieldAt off f)) (fun x g hg => rd_clearField_apart off coincident x hf (hl g hg).1 (hl g hg).2) e

/-- Each read-clear field takes the count, each other field stands, as if each were alone. -/
theorem rd_foldl_clearField (l : List FieldSpec) (e : Engine) (hl : FieldsDisjoint l) :
    ∀ f ∈ l, (l.foldl (clearField off coincident) e).rd (fieldAt off f) = cleared off coincident e f := by
  induction l generalizing e with
  | nil => intro f hf; cases hf
  | cons g t ih =>
    obtain ⟨hfits, hpair⟩ := hl
    obtain ⟨hgt, htt⟩ := List.pairwise_cons.mp hpair
    obtain ⟨hg, ht⟩ := List.forall_mem_cons.mp hfits
    intro f hf
    rw [List.foldl_cons]
    rcases List.mem_cons.mp hf with rfl | hft
    · rw [rd_foldl_clearField_apart off coincident hg t _ fun k hk => ⟨ht k hk, hgt k hk⟩, rd_clearField_same off coincident e hg]
    · rw [ih _ ⟨ht, htt⟩ f hft, cleared, rd_clearField_apart off coincident e (ht f hft) hg (hgt f hft).symm]

end

/-- From M2 on a register with read-clear fields answers its value before and is cleared; a queue's losses counted so are told. -/
theorem readClear_clears {e : Engine} (h0 : e.mode ≠ .m0) (h1 : e.mode ≠ .m1) {off : Nat} {r : RegSpec} {ix : List Nat}
    (hfind : RegMap.find off = some (r, ix)) (hrc : (r.fields.any fun f => f.access == .rc) = true) (hdie : e.dieAbsent off = false) (c : Nat) :
    e.readClear off c = if r.name == "QUE_LOST" && c != 0
      then (r.fields.foldl (clearField off c) { e with rsp := leBytes 4 (e.readReg off).toNat }).queueLost (ix.headD 0)
      else r.fields.foldl (clearField off c) { e with rsp := leBytes 4 (e.readReg off).toNat } := by
  simp only [readClear, hfind, h0, h1, hrc, hdie, Bool.not_true, Bool.false_eq_true, or_self, if_false]
  rfl

/-! ### A loss at a reserved queue (R215) -/

/-- A reserved queue is neither a channel's nor EVT nor a frame's. -/
theorem reservedQueue_iff {q : Nat} : reservedQueue q = true ↔ q = 67 ∨ 77 ≤ q ∧ q ≤ 103 := by
  simp [reservedQueue]

/-- The register that counts the losses of a reserved queue. -/
theorem find_queueLost {q : Nat} (hq : reservedQueue q = true) :
    RegMap.find (R.QUE_LOST.V q).off = some (⟨"QUE_LOST", 0x4100, [(0x10, 104)], 0x0, [RegMap.f "V" 31 0 .rc]⟩, [q]) := by
  have hall : ∀ k : Fin 104, RegMap.find (R.QUE_LOST.V k.val).off =
      some (⟨"QUE_LOST", 0x4100, [(0x10, 104)], 0x0, [RegMap.f "V" 31 0 .rc]⟩, [k.val]) := by decide +kernel
  have hlt : q < 104 := by
    rcases reservedQueue_iff.mp hq with h | h <;> omega
  exact hall ⟨q, hlt⟩

/-- Of the queue registers only the loss count and the level of EVT are books. -/
theorem not_bookReg_queue {off : Nat} (hlow : 0x4000 ≤ off) (hhigh : off < 0x5000) (hlost : off ≠ 0x4500) (hlevel : off ≠ 0x450C) : ¬ bookReg off := by
  unfold bookReg
  rintro (h | h | h | h | h | h | ⟨k, j, h⟩ | ⟨k, j, h⟩ | ⟨r, h⟩)
  all_goals
    dsimp only at h
    omega

theorem not_bookReg_queueLost {q : Nat} (hq : reservedQueue q = true) : ¬ bookReg (R.QUE_LOST.V q).off := by
  rcases reservedQueue_iff.mp hq with h | h <;> refine not_bookReg_queue ?_ ?_ ?_ ?_ <;> dsimp only <;> omega

theorem queueLost_ne_queStatus (q : Nat) : (R.QUE_LOST.V q).off ≠ R.QUE_STATUS.word.off := by
  dsimp only
  omega

theorem not_bookReg_queStatus : ¬ bookReg R.QUE_STATUS.word.off := not_bookReg_queue (by decide) (by decide) (by decide) (by decide)

/-- QUE_STATUS names the first reserved queue that has lost. -/
def lossMarked (e : Engine) (q : Nat) : Engine :=
  if e.on R.QUE_STATUS.RES_LOST then e else (e.wr R.QUE_STATUS.FIRST q).wr R.QUE_STATUS.RES_LOST 1

theorem lossMarked_onlyRegs (e : Engine) (q : Nat) : e.onlyRegs (e.lossMarked q) [R.QUE_STATUS.word.off] := by
  unfold lossMarked
  split
  · exact e.onlyRegs_refl _
  · exact onlyRegs_trans (wr_onlyRegs e q (f := R.QUE_STATUS.FIRST) (List.mem_singleton.mpr rfl))
      (wr_onlyRegs _ 1 (f := R.QUE_STATUS.RES_LOST) (List.mem_singleton.mpr rfl))

theorem lossMarked_on (e : Engine) (q : Nat) : (e.lossMarked q).on R.QUE_STATUS.RES_LOST = true := by
  unfold lossMarked
  split
  · assumption
  · have hset := rd_wr_lt (e.wr R.QUE_STATUS.FIRST q) (f := R.QUE_STATUS.RES_LOST) ⟨by decide, by decide⟩ (v := 1) (by decide)
    rw [on, hset]
    rfl

theorem lossMarked_first {e : Engine} (h : e.on R.QUE_STATUS.RES_LOST = false) {q : Nat} (hq : q < 128) :
    (e.lossMarked q).rd R.QUE_STATUS.FIRST = q := by
  have hapart : R.QUE_STATUS.FIRST.apart R.QUE_STATUS.RES_LOST := .inl (by decide)
  have hother := rd_wr_apart (e.wr R.QUE_STATUS.FIRST q) ⟨by decide, by decide⟩ ⟨by decide, by decide⟩ hapart 1
  have hsame : (e.wr R.QUE_STATUS.FIRST q).rd R.QUE_STATUS.FIRST = q := rd_wr_lt e ⟨by decide, by decide⟩ hq
  rw [lossMarked, if_neg (by simp [h]), hother, hsame]

theorem queueLost_reserved {q : Nat} (hq : reservedQueue q = true) (e : Engine) :
    e.queueLost q = (e.lossMarked q).faultSquall 0x0F q 1 0 [(24, 4, e.rd (R.QUE_LOST.V q))] 6 := by
  unfold queueLost
  rw [if_pos hq]
  rfl

/-- Away from M6 to M8, with no command open and no transition in progress, a Squall that is requested leaves no trace. -/
theorem requestSquall_silent {e : Engine} (hmode : e.modeIn [6, 7, 8] = false) (htrans : e.trans = Engine.reset.trans) (hopens : e.opens = [])
    (cause d : Nat) : e.requestSquall cause d = e := by
  have habort : e.abortModes = e := by
    obtain ⟨⟩ := e
    simp only at htrans hopens
    subst htrans hopens
    rfl
  obtain ⟨-, h⟩ | ⟨-, -, h⟩ | ⟨-, hother, -⟩ := requestSquall_cases e cause d
  · exact h
  · rw [h, habort]
  · simp [hmode] at hother

theorem fault_opens_nil {e : Engine} (h : e.opens = []) (cls unit detail detail2 : Nat) (p : List LayField) :
    (e.fault cls unit detail detail2 p).opens = [] :=
  List.subset_nil.mp (h ▸ emitBk_opens_subset e _ _ _ _ _ _ _)

/-- There a FAULT that asks for a Squall is a FAULT. -/
theorem faultSquall_silent {e : Engine} (hmode : e.modeIn [6, 7, 8] = false) (htrans : e.trans = Engine.reset.trans) (hopens : e.opens = [])
    (cls unit detail detail2 : Nat) (p : List LayField) (cause : Nat) :
    e.faultSquall cls unit detail detail2 p cause = e.fault cls unit detail detail2 p :=
  requestSquall_silent (by rw [modeIn, fault_mode]; exact hmode) ((fault_trans ..).trans htrans) (fault_opens_nil hopens ..) _ _

/-- The losses of a reserved queue are read, and `c` more are counted: they are all that it holds. -/
def lossRead (e : Engine) (q c : Nat) : Engine :=
  ({ e with rsp := leBytes 4 (e.readReg (R.QUE_LOST.V q).off).toNat } : Engine).wr (R.QUE_LOST.V q) c

theorem lossRead_rd (e : Engine) {q c : Nat} (hc : c < 2 ^ 32) : (e.lossRead q c).rd (R.QUE_LOST.V q) = c :=
  rd_wr_lt _ ⟨by simp, by simp⟩ hc

theorem lossRead_onlyRegs (e : Engine) (q c : Nat) :
    ({ e with rsp := leBytes 4 (e.readReg (R.QUE_LOST.V q).off).toNat } : Engine).onlyRegs (e.lossRead q c) [(R.QUE_LOST.V q).off] :=
  wr_onlyRegs _ _ (List.mem_singleton_self _)

theorem readClear_queueLost {e : Engine} (h0 : e.mode ≠ .m0) (h1 : e.mode ≠ .m1) {q c : Nat} (hq : reservedQueue q = true) (hpos : 0 < c)
    (hc : c < 2 ^ 32) : e.readClear (R.QUE_LOST.V q).off c = ((e.lossRead q c).lossMarked q).faultSquall 0x0F q 1 0 [(24, 4, c)] 6 := by
  have hdie : e.dieAbsent (R.QUE_LOST.V q).off = false := by
    have hblock : (R.QUE_LOST.V q).off / 0x1000 = 4 := by
      rcases reservedQueue_iff.mp hq with h | h <;> dsimp only <;> omega
    have hoff (side : Nat) (hside : side < 2) : onDie side (R.QUE_LOST.V q).off = false := by
      simp only [onDie, hblock, Bool.or_eq_false_iff, beq_eq_false_iff_ne]
      omega
    have hsides : upTo 2 = [0, 1] := rfl
    simp [dieAbsent, hsides, hoff 0 (by decide), hoff 1 (by decide)]
  have hclear : clearField (R.QUE_LOST.V q).off c { e with rsp := leBytes 4 (e.readReg (R.QUE_LOST.V q).off).toNat } (RegMap.f "V" 31 0 .rc) =
      e.lossRead q c := by
    have hmin : min c (2 ^ (31 + 1 - 0) - 1) = c := by omega
    rw [clearField, if_pos rfl]
    dsimp only
    rw [hmin]
    rfl
  rw [readClear_clears h0 h1 (find_queueLost hq) (by decide) hdie, if_pos (by simp; omega), List.foldl_cons, List.foldl_nil, hclear, List.headD_cons,
    queueLost_reserved hq, lossRead_rd e hc]

/-! ### Results and records -/

theorem monShow_onlyRegs (e : Engine) (m : Nat) :
    e.onlyRegs (e.monShow m) [(R.MON_INDEX_LO.V m).off, (R.MON_INDEX_HI.V m).off, (R.MON_PEAKX.V m).off] := by
  unfold monShow wrPair
  exact onlyRegs_trans (onlyRegs_trans (wr_onlyRegs _ _ (by simp)) (wr_onlyRegs _ _ (by simp))) (wr_onlyRegs _ _ (by simp))

/-- A read of MET_REC0 with a latest record. -/
theorem readRec0_latches {e : Engine} {m : Nat} {b : List Byte} (h : e.mets.latest = some (m, b)) : e.readRec0 =
    { ({ e with mets := { e.mets with latched := some m } } : Engine).putWords (R.MET_REC.V 0).off b with
      rsp := leBytes 4 ((({ e with mets := { e.mets with latched := some m } } : Engine).putWords (R.MET_REC.V 0).off b).rd (R.MET_REC.V 0)) } := by
  rw [readRec0, h]

theorem wordRun_latched : WordRun R.MET_REC.V := fun k => by simp

theorem reading_setUp {e : Engine} (h0 : e.mode ≠ .m0) (h1 : e.mode ≠ .m1) (f : Engine → Engine) : e.reading f = f e := by
  rw [reading, if_neg h0, if_neg h1]

end Engine

/-! ### The commands -/

theorem exec_rcRead_bar0 (off : BitVec 20) (c : Nat) (s : State) :
    exec (.rcRead ⟨.bar0, off⟩ c) s = .next (s.onEng fun e => e.readClear off.toNat c) := rfl

theorem exec_sysTimeLoRead (s : State) : exec .sysTimeLoRead s = .next (s.onEng Engine.readTime) := rfl

theorem exec_uhpSbMirrorRead (s : State) : exec .uhpSbMirrorRead s = .next (s.onEng fun e => e.reading Engine.latchMirror) := rfl

theorem exec_monResultRead (m : Fin 16) (s : State) :
    exec (.monResultRead m) s = .next (s.onEng fun e => e.reading fun x => x.readResult m.val) := rfl

theorem exec_metRec0Read (s : State) : exec .metRec0Read s = .next (s.onEng fun e => e.reading Engine.readRec0) := rfl

theorem exec_metRec31Read (s : State) : exec .metRec31Read s = .next (s.onEng fun e => e.reading Engine.readRec31) := rfl

theorem exec_misalignedAccess (w : Bool) (off : BitVec 20) (size : Nat) (data : List Byte) (s : State) :
    exec (.misalignedAccess w off size data) s = .next (s.onEng fun e => e.misaligned w off.toNat size) := rfl

/-- Settles O9: a read-clear register is a fold over disjoint fields; what is counted at a reserved queue goes on to FAULT and Squall. -/
theorem readsAnswer : Obligations.ReadsAnswer := by
  unfold Obligations.ReadsAnswer
  refine ⟨?cleared, ?lost, ?squall, ?time, ?mirror, ?result, ?latch, ?acked, ?silent, ?write, ?bytes⟩
  case cleared =>
    intro off c r ix s h0 h1 hfind hrc hdie hplain
    have hno : ¬ (r.name == "QUE_LOST" && c != 0) = true := by
      rcases hplain with h | h <;> simp [h]
    have honly := Engine.foldl_clearField_onlyRegs off.toNat c r.fields { s.eng with rsp := leBytes 4 (s.eng.readReg off.toNat).toNat }
    have hfields := Engine.rd_foldl_clearField off.toNat c r.fields { s.eng with rsp := leBytes 4 (s.eng.readReg off.toNat).toNat }
      (find_fieldsDisjoint hfind)
    refine ⟨_, exec_rcRead_bar0 off c s, s.onEng_engineOnly _, ?_⟩
    rw [State.onEng_eng, Engine.readClear_clears h0 h1 hfind hrc hdie, if_neg hno]
    generalize r.fields.foldl _ _ = x at *
    have hrsp : x.rsp = leBytes 4 (s.eng.readReg off.toNat).toNat := (congrArg Engine.rsp honly.1 :)
    refine ⟨hrsp, hfields, ?_⟩
    rw [hrsp]
    exact honly
  case lost =>
    intro off q c s h0 h1 hoff hq hpos hc hres hmode hhears htrans hopens
    obtain ⟨⟨hr, hf⟩, hl, hroom⟩ := hhears
    refine ⟨_, exec_rcRead_bar0 off c s, s.onEng_engineOnly _, ?_⟩
    rw [State.onEng_eng, hoff, Engine.readClear_queueLost h0 h1 hq hpos hc]
    have hread := s.eng.lossRead_onlyRegs q c
    have hcount := s.eng.lossRead_rd (q := q) hc
    have hres' : (s.eng.lossRead q c).on R.QUE_STATUS.RES_LOST = false := by
      rw [Engine.on, Engine.onlyRegs_rd hread (by simpa using (Engine.queueLost_ne_queStatus q).symm)]
      exact hres
    have hmarked := (s.eng.lossRead q c).lossMarked_onlyRegs q
    have hon := (s.eng.lossRead q c).lossMarked_on q
    have hlt : q < 128 := by
      rcases Engine.reservedQueue_iff.mp hq with h | h <;> omega
    have hfirst := Engine.lossMarked_first hres' hlt
    generalize hx : (s.eng.lossRead q c).lossMarked q = x at *
    have hframe := Engine.onlyRegs_append hread hmarked
    have hcount' : x.rd (R.QUE_LOST.V q) = c := by
      rw [Engine.onlyRegs_rd hmarked (by simpa using Engine.queueLost_ne_queStatus q), hcount]
    have hsame := hframe.1
    rw [Engine.faultSquall_silent (by rw [hsame]; exact hmode) (by rw [hsame]; exact htrans) (by rw [hsame]; exact hopens)]
    have hbooks := x.fault_books 0x0F q 1 0 [(24, 4, c)] []
    have hr' : x.resetting = none := by rw [hsame]; exact hr
    have hf' : x.pins.failed = false := by rw [hsame]; exact hf
    have htold := Engine.fault_told hr' hf' 0x0F q 1 0 [(24, 4, c)]
    have hbytes : (x.fault 0x0F q 1 0 [(24, 4, c)]).toldBytes [(24, 4, c)] := Engine.emit_toldBytes x hr' hf' _ _ _ _ _ _
    have hrd (g : Fld) (hg : ¬ bookReg g.off) : (x.fault 0x0F q 1 0 [(24, 4, c)]).rd g = x.rd g := Engine.onlyBooks_rd hbooks hg List.not_mem_nil
    generalize x.fault 0x0F q 1 0 [(24, 4, c)] = y at *
    have hrsp : y.rsp = leBytes 4 (s.eng.readReg (R.QUE_LOST.V q).off).toNat :=
      (congrArg Engine.rsp hbooks.1 :).trans (congrArg Engine.rsp hsame :)
    refine ⟨hrsp, ?_, ?_, ?_, htold, hbytes, ?_⟩
    · rw [hrd _ (Engine.not_bookReg_queueLost hq), hcount']
    · rw [Engine.on, hrd R.QUE_STATUS.RES_LOST Engine.not_bookReg_queStatus]
      exact hon
    · rw [hrd R.QUE_STATUS.FIRST Engine.not_bookReg_queStatus, hfirst]
    · rw [hrsp]
      exact Engine.onlyBooks_trans (Engine.onlyBooks_of_onlyRegs hframe) (Engine.onlyBooks_mono hbooks (by simp))
  case squall =>
    intro off q c s h0 h1 hoff hq hpos hc hmode hsquall hroomy
    refine ⟨_, exec_rcRead_bar0 off c s, s.onEng_engineOnly _, ?_⟩
    rw [State.onEng_eng, hoff, Engine.readClear_queueLost h0 h1 hq hpos hc]
    have hframe := Engine.onlyRegs_append (s.eng.lossRead_onlyRegs q c) ((s.eng.lossRead q c).lossMarked_onlyRegs q)
    have hon := (s.eng.lossRead q c).lossMarked_on q
    generalize (s.eng.lossRead q c).lossMarked q = x at *
    have hsame := hframe.1
    have hroomy' : x.roomy := by rw [hsame]; exact hroomy
    have hmode' : x.modeIn [6, 7, 8] = true := by rw [hsame]; exact hmode
    have hsquall' : x.squall = none := by rw [hsame]; exact hsquall
    obtain ⟨hsays, hset, hbooks⟩ := Engine.faultSquall_spec hroomy' 0x0F q 1 0 [(24, 4, c)] 6
    obtain ⟨hpac, hgate, -⟩ := Engine.faultSquall_stops hsquall' hroomy'.1.1 hmode' 0x0F q 1 0 [(24, 4, c)] 6
    generalize x.faultSquall 0x0F q 1 0 [(24, 4, c)] 6 = y at *
    have hevt : x.evt = s.eng.evt := (congrArg Engine.evt hsame :)
    have hmot : x.mot = s.eng.mot := (congrArg Engine.mot hsame :)
    refine ⟨?_, ?_, ?_, hpac, hgate⟩
    · rw [Engine.on, Engine.rd, hbooks.2 _ Engine.not_bookReg_queStatus (by decide)]
      exact hon
    · rw [Engine.says, hevt] at hsays
      exact hsays
    · rw [hset, hmode', hsquall', hevt, Engine.vMicron, hmot]
      rfl
  case time =>
    intro s h0
    refine ⟨_, exec_sysTimeLoRead s, s.onEng_engineOnly _, ?_⟩
    rw [State.onEng_eng, Engine.readTime, if_neg h0]
  case mirror =>
    intro s h0 h1
    refine ⟨_, exec_uhpSbMirrorRead s, s.onEng_engineOnly _, ?_⟩
    rw [State.onEng_eng, Engine.reading_setUp h0 h1]
    rfl
  case result =>
    intro m s h0 h1
    refine ⟨_, exec_monResultRead m s, s.onEng_engineOnly _, ?_⟩
    rw [State.onEng_eng, Engine.reading_setUp h0 h1]
    exact ⟨rfl, rfl, Engine.monShow_onlyRegs _ m.val⟩
  case latch =>
    intro mseq b s h0 h1 hlatest hlen
    refine ⟨_, exec_metRec0Read s, s.onEng_engineOnly _, ?_⟩
    have hlen' : b.length = 4 * 32 := hlen
    have honly := ({ s.eng with mets := { s.eng.mets with latched := some mseq } } : Engine).putWords_onlyRegs Engine.wordRun_latched hlen'
    have hwords (j : Fin 32) := ({ s.eng with mets := { s.eng.mets with latched := some mseq } } : Engine).putWords_rd Engine.wordRun_latched hlen' j.isLt
    rw [State.onEng_eng, Engine.reading_setUp h0 h1, Engine.readRec0_latches hlatest]
    generalize Engine.putWords _ _ _ = x at *
    have hfirst : x.rd (R.MET_REC.V 0) = leAt b 0 4 := hwords 0
    have hfull := Engine.onlyRegs_map (f := fun y => { y with rsp := leBytes 4 (leAt b 0 4) }) honly fun _ _ => rfl
    have hrsp : ({ x with rsp := leBytes 4 (leAt b 0 4) } : Engine).rsp = leBytes 4 (leAt b 0 4) := rfl
    have hwords' (j : Fin 32) : ({ x with rsp := leBytes 4 (leAt b 0 4) } : Engine).rd (R.MET_REC.V j.val) = leAt b (4 * j.val) 4 := hwords j
    rw [hfirst]
    generalize ({ x with rsp := leBytes 4 (leAt b 0 4) } : Engine) = y at *
    have hmets : y.mets = { s.eng.mets with latched := some mseq } := (congrArg Engine.mets hfull.1 :)
    refine ⟨hmets, hwords', hrsp, ?_⟩
    rw [hmets, hrsp]
    exact hfull
  case acked =>
    intro m b held rest s h0 h1 hver hlatched hrecv
    refine ⟨_, exec_metRec31Read s, s.onEng_engineOnly _, ?_⟩
    rw [State.onEng_eng, Engine.reading_setUp h0 h1, Engine.readRec31, hlatched, hrecv]
    dsimp only
    rw [if_pos ⟨hver, rfl⟩, Engine.recordDone, hrecv]
    rfl
  case silent =>
    intro s h0 h1 hver
    refine ⟨_, exec_metRec31Read s, s.onEng_engineOnly _, ?_⟩
    rw [State.onEng_eng, Engine.reading_setUp h0 h1, Engine.readRec31]
    split <;> simp [hver]
  case write =>
    intro off size data s
    exact ⟨_, exec_misalignedAccess true off size data s, s.onEng_engineOnly _, rfl⟩
  case bytes =>
    intro off size data s h0 hmis
    refine ⟨_, exec_misalignedAccess false off size data s, s.onEng_engineOnly _, ?_⟩
    rw [State.onEng_eng, Engine.misaligned, if_neg (by simp [h0, hmis])]

end Sys2Proof.Machine
end

section
/-!
PROOFS. What EVT holds after a takeover (R221, R370).
-/

namespace Sys2Proof.Machine

namespace Engine

/-! ### A full EVT -/

/-- `k` events have been built since a first part of EVT stood: that part is gone, or all of them are still there; none of those behind it is a MODE_CHANGE. -/
def buriedBy (k : Nat) (e : Engine) : Prop :=
  ∃ a b : List Ev, e.evt.queue = a ++ b ∧ (∀ v ∈ b, v.code ≠ 0x15) ∧ a.length + b.length ≤ 256 ∧ (a = [] ∨ k ≤ b.length)

theorem loseOldest_queue (e : Engine) : e.loseOldest.evt.queue = e.evt.queue.drop 1 := by
  unfold loseOldest
  split
  next h => rw [h]; rfl
  next o rest h =>
    dsimp only
    split <;> simp [h]

theorem commitEv_queue (e : Engine) (code subj status arg : Nat) (hs : Option Nat) (p : List LayField) (bk : Booking) :
    ∃ v : Ev, v.code = code ∧ (e.commitEv code subj status arg hs p bk).evt.queue =
      (if e.evt.queue.length < 256 then e.evt.queue else e.evt.queue.drop 1) ++ [v] := by
  unfold commitEv
  dsimp only
  rw [level_evt]
  refine ⟨⟨code, subj, status, hs, (e.evt.dseq + 1) % 2 ^ 32, e.now, arg, (layBytes 64 p).drop 24, bk, e.mirrorFirst⟩, rfl, ?_⟩
  dsimp only
  split
  · rfl
  · rw [loseOldest_queue]

/-- An event more, in place of the oldest where EVT is full. -/
theorem commitEv_buries {k : Nat} {e : Engine} (h : e.buriedBy k) {code : Nat} (hcode : code ≠ 0x15) (subj status arg : Nat) (hs : Option Nat)
    (p : List LayField) (bk : Booking) : (e.commitEv code subj status arg hs p bk).buriedBy (k + 1) := by
  obtain ⟨a, b, hq, hclean, hlen, hdeep⟩ := h
  obtain ⟨v, hv, hnew⟩ := e.commitEv_queue code subj status arg hs p bk
  have hclean' : ∀ w ∈ b ++ [v], w.code ≠ 0x15 := by
    intro w hw
    rcases List.mem_append.mp hw with hw | hw
    · exact hclean w hw
    · rw [List.mem_singleton.mp hw, hv]
      exact hcode
  rw [hq, List.length_append] at hnew
  split at hnew
  · refine ⟨a, b ++ [v], by rw [hnew, List.append_assoc], hclean', ?_, hdeep.imp_right fun h => ?_⟩ <;> simp <;> omega
  · cases a with
    | cons o l =>
      refine ⟨l, b ++ [v], by rw [hnew]; simp, hclean', ?_, .inr ?_⟩ <;> simp at hlen hdeep ⊢ <;> omega
    | nil =>
      refine ⟨[], b.drop 1 ++ [v], by rw [hnew]; simp, fun w hw => ?_, ?_, .inl rfl⟩
      · refine hclean' w (List.mem_append.mpr ?_)
        exact (List.mem_append.mp hw).imp_left List.mem_of_mem_drop
      · simp at hlen ⊢
        omega

theorem buriedBy_le {k n : Nat} {e : Engine} (h : e.buriedBy k) (hn : n ≤ k) : e.buriedBy n := by
  obtain ⟨a, b, hq, hclean, hlen, hdeep⟩ := h
  exact ⟨a, b, hq, hclean, hlen, hdeep.imp_right fun h => hn.trans h⟩

theorem buriedBy_congr {k : Nat} {e x : Engine} (h : x.evt.queue = e.evt.queue) : x.buriedBy k ↔ e.buriedBy k := by
  unfold buriedBy
  rw [h]

/-- An event, and a QUEUE_LOST before it where one is due. -/
theorem emitBk_buries {k : Nat} {e : Engine} (hr : e.resetting = none) (hf : e.pins.failed = false) (h : e.buriedBy k) {code : Nat} (hcode : code ≠ 0x15)
    (subj status arg : Nat) (hs : Option Nat) (p : List LayField) (bk : Booking) : (e.emitBk code subj status arg hs p bk).buriedBy (k + 1) := by
  obtain ⟨x, hx, rfl | ⟨n, f, l, -, -, rfl⟩⟩ := emitBk_cases e hr hf code subj status arg hs p bk
  · rw [hx]
    exact commitEv_buries h hcode ..
  · rw [hx]
    have hlost : ({ e with evt := { e.evt with lost := none } } : Engine).buriedBy k := (buriedBy_congr rfl).mpr h
    exact commitEv_buries (buriedBy_le (commitEv_buries hlost (by decide) ..) (Nat.le_succ k)) hcode ..

/-- After 256 events there is no other in EVT. -/
theorem buriedBy_full {e : Engine} (h : e.buriedBy 256) : ∀ v ∈ e.evt.queue, v.code ≠ 0x15 := by
  obtain ⟨a, b, hq, hclean, hlen, hdeep⟩ := h
  have ha : a = [] := hdeep.elim id fun h => List.length_eq_zero_iff.mp (by omega)
  rw [hq, ha]
  exact hclean

/-- EVT holds no more than its depth after one event. -/
theorem buriedBy_zero {e : Engine} (h : e.evt.queue.length ≤ 256) : e.buriedBy 0 := ⟨e.evt.queue, [], by simp, by simp, by simpa using h, .inr (Nat.zero_le _)⟩

theorem commitEv_length {e : Engine} (h : e.evt.queue.length ≤ 256) (code subj status arg : Nat) (hs : Option Nat) (p : List LayField) (bk : Booking) :
    (e.commitEv code subj status arg hs p bk).evt.queue.length ≤ 256 := by
  obtain ⟨v, -, hnew⟩ := e.commitEv_queue code subj status arg hs p bk
  rw [hnew]
  split <;> simp <;> omega

theorem emitBk_length {e : Engine} (h : e.evt.queue.length ≤ 256) (code subj status arg : Nat) (hs : Option Nat) (p : List LayField) (bk : Booking) :
    (e.emitBk code subj status arg hs p bk).evt.queue.length ≤ 256 := by
  by_cases hopen : e.resetting = none ∧ e.pins.failed = false
  · obtain ⟨x, hx, rfl | ⟨n, f, l, -, -, rfl⟩⟩ := emitBk_cases e hopen.1 hopen.2 code subj status arg hs p bk
    · rw [hx]
      exact commitEv_length h ..
    · rw [hx]
      exact commitEv_length (commitEv_length (e := { e with evt := { e.evt with lost := none } }) h ..) ..
  · have hshut : (e.resetting.isSome || e.pins.failed) = true := by
      cases hr : e.resetting <;> simp_all
    rw [emitBk, if_pos hshut]
    exact h

/-! ### The commands that a takeover aborts (R370) -/

/-- A mirrored command is taken over and completes ABORTED. -/
def abortMirrored (x : Engine) (c : OpenCmd) : Engine :=
  (({ x with opens := x.opens ++ [c] } : Engine).syncOpen).cmdDone c.hseq c.tag c.code stAborted []

theorem abortMirrored_open {x : Engine} (h : x.resetting = none ∧ x.pins.failed = false) (c : OpenCmd) :
    (x.abortMirrored c).resetting = none ∧ (x.abortMirrored c).pins.failed = false := by
  simp [abortMirrored, h]

theorem abortMirrored_buries {k : Nat} {x : Engine} (h : x.resetting = none ∧ x.pins.failed = false) (hb : x.buriedBy k) (c : OpenCmd) :
    (x.abortMirrored c).buriedBy (k + 1) := by
  have hb' : (({ x with opens := x.opens ++ [c] } : Engine).syncOpen).buriedBy k := (buriedBy_congr (by simp)).mpr hb
  exact emitBk_buries (by simp [h]) (by simp [h]) hb' (by decide) ..

theorem foldl_abortMirrored_buries (l : List OpenCmd) {k : Nat} {x : Engine} (h : x.resetting = none ∧ x.pins.failed = false) (hb : x.buriedBy k) :
    (l.foldl abortMirrored x).buriedBy (k + l.length) := by
  induction l generalizing k x with
  | nil => exact hb
  | cons c t ih =>
    have hnext := ih (abortMirrored_open h c) (abortMirrored_buries h hb c)
    rwa [Nat.add_assoc, Nat.add_comm 1, ← List.length_cons] at hnext

/-! ### What an installation does before it builds events (R369 to R371) -/

/-- EVT, and whether events are built. -/
def hearing (e : Engine) : List Ev × Option ResetSt × Bool := (e.evt.queue, e.resetting, e.pins.failed)

theorem stopConversion_hearing (e : Engine) (s : Nat) : (e.stopConversion s).hearing = e.hearing :=
  (congrArg hearing (stopConversion_besideRuns e s) :)

theorem resetMonitors_hearing (e : Engine) : e.resetMonitors.hearing = e.hearing := by
  refine foldl_keep hearing _ (fun _ _ => ?_) _ _
  rfl

theorem loadOffsets_hearing (e : Engine) (s : Nat) : (e.loadOffsets s).hearing = e.hearing :=
  foldl_keep hearing _ (fun x a => by obtain ⟨d, r⟩ := a; cases d <;> rfl) _ _

/-- A bank that was being measured counts as invalid. -/
def measuredEnds (y : Engine) (f : Fld) : Engine := if y.rd f = 2 then y.wr f 0 else y

theorem measuredEnds_hearing (y : Engine) (f : Fld) : (y.measuredEnds f).hearing = y.hearing := by
  unfold measuredEnds
  split <;> rfl

theorem levelsCleared_hearing (e : Engine) :
    ((upTo 67).foldl (fun x q => if q = 64 then x else x.wr (R.QUE_LEVEL.LEVEL q) 0) e).hearing = e.hearing := by
  refine foldl_keep hearing _ (fun x q => ?_) _ _
  split <;> rfl

theorem holdLines_hearing (e : Engine) (l : List Nat) : (l.foldl (fun (x : Engine) n => x.holdLine n) e).hearing = e.hearing := by
  refine foldl_keep hearing _ (fun _ _ => ?_) _ _
  rfl

theorem wr_hearing (e : Engine) (f : Fld) (v : Nat) : (e.wr f v).hearing = e.hearing := rfl

theorem freshImaging_hearing (e : Engine) : e.freshImaging.hearing = e.hearing := by
  unfold freshImaging
  extract_lets e0 e1 gen eddy cal e2 e3 inval e4
  have h1 : e1.hearing = e.hearing := by
    have h0 : e0.hearing = e.hearing := by
      unfold e0
      split <;> rfl
    rw [← h0]
    exact (stopConversion_hearing _ 1).trans (stopConversion_hearing e0 0)
  have h3 : e3.hearing = e.hearing := by
    have h2 : e2.hearing = e.hearing := h1
    rw [← h2]
    exact (resetMonitors_hearing _).trans (levelsCleared_hearing e2)
  have h4 : e4.hearing = e.hearing := by
    rw [← h3]
    exact foldl_keep hearing _ (fun x c => (measuredEnds_hearing _ _).trans (measuredEnds_hearing x _)) _ _
  rw [holdLines_hearing, wr_hearing, wr_hearing, loadOffsets_hearing, loadOffsets_hearing, h4]

theorem eddyFrom_hearing (e : Engine) (raw : Nat) (copies : Bool) : (e.eddyFrom raw copies).hearing = e.hearing := by
  refine foldl_keep hearing _ (fun _ _ => ?_) _ _
  rfl

theorem resumeUnits_hearing (e : Engine) (back : Bool) (s : Nat) : (e.resumeUnits back s).hearing = e.hearing := by
  refine foldl_keep hearing _ (fun x g => ?_) _ _
  dsimp only
  split
  · rfl
  · refine (foldl_keep hearing _ (fun _ _ => ?_) _ _).trans rfl
    rfl

theorem installShadow_hearing (e : Engine) : e.installShadow.hearing = ([], e.resetting, e.pins.failed) := by
  have hregs : e.installRegs.hearing = e.hearing := by
    unfold installRegs
    extract_lets up e1 e2
    have h1 : e1.hearing = e.hearing := by
      refine foldl_keep hearing _ (fun _ _ => ?_) _ _
      rfl
    refine (foldl_keep hearing _ (fun x r => ?_) _ _).trans h1
    split <;> rfl
  have h := congrArg Prod.snd hregs
  unfold installShadow
  exact Prod.ext rfl h

/-- Motion, units, rates: none of them builds an event. -/
theorem resumed_hearing (e : Engine) (r : Resume) (back : Bool) :
    (((((((e.installShadow).freshImaging).eddyFrom r.index r.copies).resumeMotion r).resumeUnits back 0).resumeUnits back 1).recalcBpm.recalcCap).hearing =
      ([], e.resetting, e.pins.failed) := by
  have hmotion (x : Engine) : (x.resumeMotion r).hearing = x.hearing := rfl
  have hrates (x : Engine) : x.recalcBpm.recalcCap.hearing = x.hearing := rfl
  rw [hrates, resumeUnits_hearing, resumeUnits_hearing, hmotion, eddyFrom_hearing, freshImaging_hearing, installShadow_hearing]

/-! ### The events of an installation (R370) -/

theorem serveSlices_hearing (e : Engine) (c : Nat) (l : List Nat) : (e.serveSlices c l).hearing = e.hearing := by
  refine foldl_keep hearing _ (fun _ _ => ?_) _ _
  rfl

theorem startConversion_hearing (e : Engine) (s : Nat) : (e.startConversion s).hearing = e.hearing := by
  unfold startConversion
  split
  · rfl
  · refine foldl_keep hearing _ (fun x k => ?_) _ _
    dsimp only
    have hserved := serveSlices_hearing (x.modChan (32 * s + k) (startChan (e.on (R.AFE_CH_SLICE.FAILED s k)))) (32 * s + k)
      (if e.on (R.AFE_CH_SLICE.FAILED s k) then (e.chan (32 * s + k)).phases else [0, 1, 2, 3])
    have hkept (y : Engine) (hy : y.hearing = x.hearing) (v w : Nat) :
        ((if e.on (R.AFE_CH_SLICE.FAILED s k) then y.wr (R.AFE_CH_SLICE.ROT_COUNT s k) 0
          else (y.wr (R.AFE_CH_SLICE.ROT_COUNT s k) 0).wr (R.AFE_CH_SLICE.SPARE s k) v).wr (R.SHD_CH_TRK.C (32 * s + k)) w).hearing = x.hearing := by
      rw [wr_hearing, ← hy]
      split <;> rfl
    exact hkept _ hserved _ _

theorem putStatus_hearing (e : Engine) (per sync : Bool) : (e.putStatus per sync).hearing = e.hearing := by
  unfold putStatus
  dsimp only
  split <;> rfl

/-- Events are built, and EVT holds no more than its depth. -/
def takesEvents (e : Engine) : Prop := (e.resetting = none ∧ e.pins.failed = false) ∧ e.evt.queue.length ≤ 256

theorem takesEvents_congr {e x : Engine} (h : x.hearing = e.hearing) (he : e.takesEvents) : x.takesEvents := by
  obtain ⟨hqueue, hrest⟩ := Prod.mk.inj h
  obtain ⟨hr, hf⟩ := Prod.mk.inj hrest
  rw [takesEvents, hqueue, hr, hf]
  exact he

theorem emit_takesEvents {e : Engine} (h : e.takesEvents) (code subj status arg : Nat) (hs : Option Nat) (p : List LayField) :
    (e.emit code subj status arg hs p).takesEvents :=
  ⟨⟨(emitBk_resetting ..).trans h.1.1, (congrArg PinSt.failed (emitBk_pins ..)).trans h.1.2⟩, emitBk_length h.2 ..⟩

theorem changeMode_m6_takesEvents {e : Engine} (h : e.takesEvents) (cause : Nat) (hs : Option Nat) : (e.changeMode .m6 cause hs).takesEvents := by
  by_cases hsame : Mode.m6 = e.mode
  · rwa [changeMode, if_pos hsame]
  · rw [changeMode_eq (.inl rfl) hsame]
    have hentered : (e.entered .m6).hearing = e.hearing := (congrArg hearing e.gapAbandon_onlyRegs.1 :)
    exact emit_takesEvents (takesEvents_congr hentered h) ..

theorem pairState_takesEvents {e : Engine} (h : e.takesEvents) (st : Nat) : (e.pairState st).takesEvents := by
  unfold pairState
  split
  · exact h
  · extract_lets x peer
    have hx : x.takesEvents := h
    split
    · exact emit_takesEvents hx ..
    · exact hx

/-- Where 256 commands and more are aborted, MODE_CHANGE is no longer in EVT once they are. -/
theorem takeoverEvents_buried {e : Engine} (h : e.takesEvents) (nc us : Nat) (refeed : Bool) {opens : List OpenCmd}
    (hmany : 256 ≤ opens.length) : ∀ v ∈ (e.takeoverEvents .m6 nc us refeed opens).evt.queue, v.code ≠ 0x15 := by
  unfold takeoverEvents
  extract_lets e1 e2
  have h1 : e1.takesEvents := by
    unfold e1
    split
    · exact emit_takesEvents h ..
    · exact h
  have h2 : e2.takesEvents := by
    unfold e2
    rw [if_neg (by decide)]
    exact pairState_takesEvents (changeMode_m6_takesEvents h1 _ _) _
  have hall := foldl_abortMirrored_buries opens h2.1 (buriedBy_zero h2.2)
  exact buriedBy_full (buriedBy_le hall (by omega))

/-- So it is after an installation that leads to M6 without a refeed or a calibration record, with 256 mirrored commands and more. -/
theorem install_buried {e : Engine} (hst : e.pair.st = 6) (hopens : e.opens = []) (hqueue : e.evt.queue = []) (hr : e.resetting = none)
    (hf : e.pins.failed = false) (hmode : e.pair.shadow.mode = 0) (hmany : 256 ≤ e.pair.shadow.opens.length) :
    ∀ v ∈ e.install.evt.queue, v.code ≠ 0x15 := by
  have hplan : e.resumePlan = ⟨.m6, false, e.mot.kept, 0, true⟩ := by simp [resumePlan, hmode]
  have hdone : e.finishAll (fun w : Wait => w == .takeover) stOk [] = e := by rw [finishAll, hopens]; rfl
  have hdrained : e.drainEvents e.evt.queue.length = e := by rw [hqueue]; rfl
  unfold install
  rw [if_neg (by simp [hst]), hdone]
  extract_lets t d nc plan us spans flagged n opens full flash e1 e2 e3 e4 e5 back e6 e7 e8 e9 h0
  have hd : d = e := hdrained
  have hp : plan = ⟨.m6, false, e.mot.kept, 0, true⟩ := by
    unfold plan
    rw [hd, hplan]
  have hmany' : 256 ≤ opens.length := by
    unfold opens
    rw [hd]
    exact hmany
  have h3 : e3.hearing = e.hearing := by
    have hd' : d.hearing = e.hearing := by rw [hd]
    unfold e3
    rw [if_neg (by rw [hp]; exact Bool.false_ne_true)]
    exact hd'
  have h6 : e6.takesEvents := by
    have hfull : ¬ full := by
      unfold full
      rw [hd, hmode]
      decide
    have h5 : e5 = e4 := if_neg hfull
    have hrest : e6.hearing = ([], e3.resetting, e3.pins.failed) := by
      unfold e6
      rw [h5]
      exact resumed_hearing e3 plan back
    have hshut : (e3.resetting, e3.pins.failed) = (e.resetting, e.pins.failed) := congrArg Prod.snd h3
    rw [hshut, hr, hf] at hrest
    obtain ⟨hq6, hrest6⟩ := Prod.mk.inj hrest
    obtain ⟨hr6, hf6⟩ := Prod.mk.inj hrest6
    exact ⟨⟨hr6, hf6⟩, by simp [hq6]⟩
  have h7 : ∀ v ∈ e7.evt.queue, v.code ≠ 0x15 := by
    unfold e7
    rw [hp]
    exact takeoverEvents_buried h6 _ _ _ hmany'
  have h9 : e9.hearing = e7.hearing := by
    have h8 : e8 = e7 := if_neg (by rw [hp]; exact Bool.false_ne_true)
    have hstatus : (if e8.canStatus then e8.putStatus false false else e8).hearing = e7.hearing := by
      rw [h8]
      split
      · exact putStatus_hearing ..
      · rfl
    exact (startConversion_hearing _ 1).trans ((startConversion_hearing _ 0).trans hstatus)
  have hlast : (e9.modShadow fun h => { Shadow.init with conf := h.conf }).evt.queue = e7.evt.queue := congrArg Prod.fst h9
  rw [hlast]
  exact h7

end Engine

/-- A leeward that has asserted PAIR_OWN, and mirrors more commands than EVT has room for. -/
def mirrorsMany : State :=
  { State.reset with eng := { Engine.reset with
    mode := .m10, evt := { Engine.reset.evt with queue := [] }
    pair := { PairSt.init with st := 6, role := 2, shadow := { Shadow.init with opens := List.replicate 256 ⟨0, 0, 1, .built⟩ } } } }

theorem exec_takeoverInstall {s : State} (h : s.eng.pair.st = 6) : exec .takeoverInstall s = .next (s.onMem fun e _ => (e.install, ⟨[], []⟩)) :=
  congrArg Host.Outcome.next (if_pos h)

/-- Refutes O51: where more commands are mirrored than EVT holds events, the CMD_DONEs of the aborted commands push MODE_CHANGE out of it (R221, R370),
and the clauses of the installation bound their number nowhere. -/
theorem not_pairRoles : ¬ Obligations.PairRoles := by
  unfold Obligations.PairRoles
  rintro ⟨-, -, -, -, -, -, -, -, -, -, -, -, -, -, -, -, -, -, hinstall, -⟩
  obtain ⟨t, hexec, -, htold, -⟩ := hinstall mirrorsMany rfl rfl rfl rfl (by decide) (by decide)
  have hburied := Engine.install_buried (e := mirrorsMany.eng) rfl rfl rfl rfl rfl rfl (List.length_replicate ..).ge
  obtain rfl := Host.Outcome.next.inj ((exec_takeoverInstall rfl).symm.trans hexec)
  cases hq : mirrorsMany.eng.install.evt.queue with
  | nil =>
    have hnone : (mirrorsMany.onMem fun e _ => (e.install, ⟨[], []⟩)).eng.evt.queue = [] := hq
    rw [hnone] at htold
    cases htold
  | cons v l =>
    have hsome : (mirrorsMany.onMem fun e _ => (e.install, ⟨[], []⟩)).eng.evt.queue = v :: l := hq
    rw [hsome] at htold
    have hcode : v.code = 0x15 := congrArg Prod.fst (List.cons.inj htold).1
    exact hburied v (hq ▸ List.mem_cons_self) hcode

end Sys2Proof.Machine
end

section
/-!
PROOFS. What the DMA engine sends (R230, R272 to R276, R283 to R285).
-/

namespace Sys2Proof.Machine

/-- Changes of an element that agree on what stands there change the list alike. -/
theorem modAt_congr {α : Type} {l : List α} {i : Nat} {f g : α → α} {d : α} (h : f (l.getD i d) = g (l.getD i d)) : modAt l i f = modAt l i g := by
  induction l generalizing i with
  | nil => simp [modAt]
  | cons a t ih =>
    cases i with
    | zero => exact congrArg (· :: t) h
    | succ k => exact congrArg (a :: ·) (ih h)

/-- A change that some reading of the elements does not see. -/
theorem map_modAt_same {α β : Type} {p : α → β} {f : α → α} (h : ∀ x, p (f x) = p x) (l : List α) (i : Nat) : (modAt l i f).map p = l.map p := by
  induction l generalizing i with
  | nil => simp [modAt]
  | cons a t ih =>
    cases i with
    | zero => exact congrArg (· :: t.map p) (h a)
    | succ k => exact congrArg (p a :: ·) (ih k)

namespace Engine

/-! ### Registers held in two words -/

theorem rdPair_wrPair (e : Engine) {lo hi : Fld} (hlo : lo.fits) (hhi : hi.fits) (hwidth : lo.width = 32) (hne : lo.off ≠ hi.off) (v : Nat) :
    (e.wrPair lo hi v).rdPair lo hi = v % 2 ^ 32 + 2 ^ 32 * (v / 2 ^ 32 % 2 ^ hi.width) := by
  unfold rdPair wrPair
  rw [rd_wr_ne _ _ hne, rd_wr_same _ hlo, rd_wr_same _ hhi, hwidth, Nat.mod_mod]

theorem wrPair_onlyRegs (e : Engine) (v : Nat) {lo hi : Fld} {offs : List Nat} (hlo : lo.off ∈ offs) (hhi : hi.off ∈ offs) :
    e.onlyRegs (e.wrPair lo hi v) offs :=
  onlyRegs_trans (wr_onlyRegs e _ hlo) (wr_onlyRegs _ _ hhi)

/-- A 48-bit value reads back whole. -/
theorem rdPair_wrPair_48 (e : Engine) {lo hi : Fld} (hlo : lo.fits) (hhi : hi.fits) (hwidth : lo.width = 32) (hhigh : hi.width = 16)
    (hne : lo.off ≠ hi.off) (v : Nat) : (e.wrPair lo hi v).rdPair lo hi = v % 2 ^ 48 := by
  rw [rdPair_wrPair e hlo hhi hwidth hne, hhigh]
  omega

/-! ### A burst of writes (R274) -/

/-- The write TLPs of a burst. -/
def writeTlps (mps addr : Nat) (l : List Byte) (ro : Bool) (what : ReqFor) : List Tlp :=
  (cutWrites (max 1 mps) addr l l.length).map fun x => ⟨true, x.1, x.2.length, x.2, ro, what⟩

/-- TLPs go out. -/
def sends (e : Engine) (l : List Tlp) : Engine := { e with link := { e.link with out := e.link.out ++ l } }

theorem sends_nil (e : Engine) : e.sends [] = e := by rw [sends, List.append_nil]

theorem sends_sends (e : Engine) (l k : List Tlp) : (e.sends l).sends k = e.sends (l ++ k) := by
  rw [sends, sends, sends, List.append_assoc]

theorem foldl_issueWrite (ro : Bool) (what : ReqFor) (l : List (Nat × List Byte)) (e : Engine) :
    l.foldl (fun (x : Engine) t => x.issueWrite t.1 t.2 ro what) e = e.sends (l.map fun x => ⟨true, x.1, x.2.length, x.2, ro, what⟩) := by
  induction l generalizing e with
  | nil => exact e.sends_nil.symm
  | cons a t ih =>
    rw [List.foldl_cons, ih]
    exact sends_sends e [_] _

/-- What a burst of writes writes itself: DMA_WR and the mark of DMA_OUT. -/
abbrev burstOffs : List Nat := [R.DMA_WR_LO.V.off, R.DMA_WR_HI.V.off, (R.QUE_LEVEL.LEVEL 96).off]

theorem burstWrite_onlyRegs (e : Engine) (addr : Nat) (l : List Byte) (ro : Bool) (what : ReqFor) :
    (e.sends (writeTlps e.link.mps addr l ro what)).onlyRegs (e.burstWrite addr l ro what) burstOffs := by
  unfold burstWrite
  dsimp only
  rw [foldl_issueWrite]
  exact onlyRegs_trans (onlyRegs_mono (passes_onlyRegs _ _ _) (by simp)) (wrPair_onlyRegs _ _ (by simp) (by simp))

/-- DMA_WR counts the bytes, and saturates (R272). -/
theorem burstWrite_counts (e : Engine) (addr : Nat) (l : List Byte) (ro : Bool) (what : ReqFor) :
    (e.burstWrite addr l ro what).rdPair R.DMA_WR_LO.V R.DMA_WR_HI.V = satAdd (2 ^ 48 - 1) (e.rdPair R.DMA_WR_LO.V R.DMA_WR_HI.V) l.length := by
  unfold burstWrite
  dsimp only
  rw [rdPair_wrPair_48 _ ⟨by decide, by decide⟩ ⟨by decide, by decide⟩ rfl rfl (by decide)]
  have hle : satAdd (2 ^ 48 - 1) (e.rdPair R.DMA_WR_LO.V R.DMA_WR_HI.V) l.length ≤ 2 ^ 48 - 1 := Nat.min_le_left _ _
  exact Nat.mod_eq_of_lt (by omega)

/-! ### Requests of reads (R230) -/

/-- The read TLPs of requests of these lengths, from an address on, and the address behind them. -/
def readTlps (what : ReqFor) (ls : List Nat) (acc : List Tlp × Nat) : List Tlp × Nat :=
  ls.foldl (fun (x : List Tlp × Nat) i => (x.1 ++ [⟨false, x.2, i, [], false, what⟩], x.2 + i)) acc

theorem foldl_issueRead (what : ReqFor) (ls : List Nat) (e : Engine) (l : List Tlp) (a : Nat) :
    (ls.foldl (fun (x : Engine × Nat) n => (x.1.issueRead x.2 n what, x.2 + n)) (e.sends l, a)).1 = e.sends (readTlps what ls (l, a)).1 := by
  induction ls generalizing l a with
  | nil => rfl
  | cons n t ih =>
    have hone : (e.sends l).issueRead a n what = e.sends (l ++ [⟨false, a, n, [], false, what⟩]) := sends_sends e l [_]
    rw [List.foldl_cons, hone, ih]
    rfl

theorem burstRead_eq (e : Engine) (addr len : Nat) (what : ReqFor) : e.burstRead addr len what =
    (e.sends (readTlps what (cutReads e.readLim len len) ([], addr)).1, cutReads e.readLim len len) := by
  have h := foldl_issueRead what (cutReads e.readLim len len) e [] addr
  rw [sends_nil] at h
  exact Prod.ext h rfl

/-! ### Read-backs and their limits (R230, R272, R276) -/

theorem canReadback_onlyRegs {e x : Engine} {offs : List Nat} (h : e.onlyRegs x offs) (hlink : R.UHP_STATUS.LINK_UP.off ∉ offs) :
    x.canReadback = e.canReadback := by
  have hon : x.on R.UHP_STATUS.LINK_UP = e.on R.UHP_STATUS.LINK_UP := by rw [on, on, onlyRegs_rd h hlink]
  have hsame := h.1
  unfold canReadback canRead canIssue
  rw [hon]
  rw [hsame]
  rfl

theorem canReadback_sends (e : Engine) (l : List Tlp) : (e.sends l).canReadback = e.canReadback := rfl

/-- A change of a stream that leaves its read-backs. -/
theorem canReadback_modStream {f : Stream → Stream} (h : ∀ x, (f x).rbs = x.rbs) (e : Engine) (n : Nat) : (e.modStream n f).canReadback = e.canReadback := by
  have hout : (e.modStream n f).rbOut = e.rbOut := by
    have hlen : (modAt e.streams n f).map (fun s => s.rbs.length) = e.streams.map fun s => s.rbs.length :=
      map_modAt_same (p := fun s : Stream => s.rbs.length) (fun x => congrArg List.length (h x)) _ _
    show sumNat ((modAt e.streams n f).map _) + _ = _
    rw [hlen]
    rfl
  have hreads : (e.modStream n f).readsOut = e.readsOut := by
    unfold readsOut dmaReads
    rw [hout]
    rfl
  unfold canReadback canRead
  rw [hout, hreads]
  rfl

theorem closeBuf_proved {e : Engine} {n : Nat} {b : Buf} {withdrawn : Bool} (hfast : (bitOf (e.rd R.DMA_FAST.word) n && !withdrawn) = false)
    (howed : e.dma.owed = []) (hread : e.canReadback = true) (lastByte : Nat) (jobEnd : Bool) :
    e.closeBuf n b lastByte jobEnd withdrawn = ((e.modStream n fun s =>
      { s with bufs := modFirst (fun x => x.idx == b.idx) (fun x =>
        { x with confirm := .readback, jobEnd := jobEnd, withdrawn := withdrawn }) s.bufs }).issueReadback n b.idx (lastByte / 4 * 4)) := by
  unfold closeBuf
  dsimp only
  rw [hfast, howed, hread]
  rfl

/-! ### The scheduler's choice (R273) -/

/-- No burst's data is being read. -/
def readFree (e : Engine) : Engine := { e with dma := { e.dma with reading := none } }

/-- TLPs have gone out, and but for named registers nothing else has changed. -/
theorem sent_frame {e x : Engine} {l : List Tlp} {offs : List Nat} (h : (e.sends l).onlyRegs x offs) :
    x.link.out = e.link.out ++ l ∧ ({ e with link := { e.link with out := x.link.out } } : Engine).onlyRegs x offs := by
  have hout : x.link.out = e.link.out ++ l := (congrArg (fun y => y.link.out) h.1 :)
  refine ⟨hout, ?_⟩
  rw [hout]
  exact h

section
variable {e : Engine} (hissue : e.canIssue = true)
include hissue

omit hissue in
/-- No read-back that waits may go out. -/
theorem owed_waits (howed : e.dma.owed = [] ∨ e.canReadback = false) : (!e.dma.owed.isEmpty && e.canReadback) = false := by
  rcases howed with h | h <;> simp [h]

theorem oneBurst_owed {n idx a : Nat} {rest : List (Nat × Nat × Nat)} (howed : e.dma.owed = (n, idx, a) :: rest) (hread : e.canReadback = true)
    (m : Staging) : e.oneBurst m = ({ e with dma := { e.dma with owed := rest } } : Engine).issueReadback n idx a := by
  have hwaits : (!e.dma.owed.isEmpty && e.canReadback) = true := by simp [howed, hread]
  rw [oneBurst, if_neg (by simp [hissue]), if_pos hwaits, issueOwed, howed]
  exact if_pos hread

variable (howed : e.dma.owed = [] ∨ e.canReadback = false)
include howed

/-- A burst whose data is read goes out once all its reads are through. -/
theorem oneBurst_read {r : Nat × Nat × Nat} (hread : e.readingBurst = some r) (m : Staging) : e.oneBurst m =
    if e.standing (fun w => w == .dma) then e else (e.readFree.tallySlot false).streamBurst r.1 (e.stageBad m r.2) := by
  rw [oneBurst, if_neg (by simp [hissue]), if_neg (by simp [owed_waits howed]), hread]
  rfl

theorem oneBurst_command (hread : e.readingBurst = none) (hnext : e.nextStream = none) (hcmd : e.cmdReady = true) (m : Staging) :
    e.oneBurst m = e.readFree.cmdBurst := by
  have hcmd' : e.readFree.cmdReady = true := hcmd
  have hnext' : e.readFree.nextStream = none := hnext
  have hserve : e.readFree.serveCmd = true := by simp [serveCmd, hcmd', hnext']
  have htally : e.readFree.tallySlot true = e.readFree := by simp [tallySlot, hnext']
  rw [oneBurst, if_neg (by simp [hissue]), if_neg (by simp [owed_waits howed]), hread]
  dsimp only
  exact (if_pos hserve).trans (congrArg cmdBurst htally)

section
variable (hcmd : e.cmdReady = false)
include hcmd

/-- With no command ready, the stream that is next has its data read. -/
theorem oneBurst_next (hread : e.readingBurst = none) {n : Nat} (hnext : e.nextStream = some n) (m : Staging) : e.oneBurst m =
    if (e.readFree.streamSource n).2 = 0 then (e.readFree.tallySlot false).streamBurst n false
    else { e.readFree.raiseStage false (e.readFree.streamSource n).1 (e.readFree.streamSource n).2 [] .dma with
      dma := { e.dma with reading := some (n, e.readFree.streamSource n) } } := by
  have hnext' : e.readFree.nextStream = some n := hnext
  have hserve : ¬ e.readFree.serveCmd = true := by
    have hcmd' : e.readFree.cmdReady = false := hcmd
    simp [serveCmd, hcmd']
  rw [oneBurst, if_neg (by simp [hissue]), if_neg (by simp [owed_waits howed]), hread]
  dsimp only
  refine (if_neg hserve).trans ?_
  change (match e.readFree.nextStream with | some n => _ | none => _) = _
  rw [hnext']
  rfl

theorem oneBurst_idle (hread : e.readingBurst = none) (hnext : e.nextStream = none) (m : Staging) : e.oneBurst m = e.readFree := by
  have hnext' : e.readFree.nextStream = none := hnext
  have hserve : ¬ e.readFree.serveCmd = true := by
    have hcmd' : e.readFree.cmdReady = false := hcmd
    simp [serveCmd, hcmd']
  rw [oneBurst, if_neg (by simp [hissue]), if_neg (by simp [owed_waits howed]), hread]
  dsimp only
  refine (if_neg hserve).trans ?_
  change (match e.readFree.nextStream with | some n => _ | none => _) = _
  rw [hnext']
  rfl

theorem oneBurst_stream {n : Nat} (hreading : e.dma.reading = some (n, e.streamSource n)) (hready : e.streamReady n = true)
    (hthrough : e.standing (fun w => w == .dma) = false) (m : Staging) :
    e.oneBurst m = e.readFree.streamBurst n (e.stageBad m (e.streamSource n)) := by
  have hread : e.readingBurst = some (n, e.streamSource n) := by simp [readingBurst, hreading, hready]
  have htally : e.readFree.tallySlot false = e.readFree := by
    have hcmd' : e.readFree.cmdReady = false := hcmd
    simp [tallySlot, hcmd']
  rw [oneBurst_read hissue howed hread, hthrough, htally]
  rfl

end

end

/-! ### The command channel (R283 to R285) -/

/-- Of a range at an address, what one burst takes: up to the next 4 KiB boundary. -/
abbrev burstLen (addr len done : Nat) : Nat := min (len - done) (4096 - (addr + done) % 4096)

/-- Bytes of a pattern that is repeated (R283). -/
abbrev patternBytes (pat w done n : Nat) : List Byte := (upTo n).map fun i => (BitVec.ofNat 8 (pat / 256 ^ ((done + i) % w)) : Byte)

theorem fillByte_pattern {w : Nat} (hw : 0 < w) (pat done n : Nat) : ((upTo n).map fun i => fillByte pat w (done + i)) = patternBytes pat w done n := by
  have hmax : max 1 w = w := by omega
  simp only [fillByte, hmax]

/-- The work at the head of the command channel becomes another. -/
def headWork (e : Engine) (w : DmaWork) (rest : List DmaWork) : Engine := { e with dma := { e.dma with work := w :: rest } }

theorem setWork_head {e : Engine} {v : DmaWork} {rest : List DmaWork} (h : e.dma.work = v :: rest) (w : DmaWork) :
    e.setWork (some w) = e.headWork w rest := by
  rw [setWork, h]
  rfl

section
variable {e : Engine} {h addr len pat w done : Nat} {rest : List DmaWork} (hwork : e.dma.work = .fill h addr len pat w done false :: rest)
include hwork

theorem cmdBurst_fill (hw : 0 < w) : e.cmdBurst =
    if done + burstLen addr len done = len then
      ((e.burstWrite (addr + done) (patternBytes pat w done (burstLen addr len done)) false .fill).headWork (.fill h addr len pat w len true) rest).issueRead
        ((addr + len - 1) / 4 * 4) 4 .fillReadback
    else (e.burstWrite (addr + done) (patternBytes pat w done (burstLen addr len done)) false .fill).headWork
      (.fill h addr len pat w (done + burstLen addr len done) false) rest := by
  have hdma : (e.burstWrite (addr + done) (patternBytes pat w done (burstLen addr len done)) false .fill).dma.work =
      .fill h addr len pat w done false :: rest := by
    rw [← hwork]
    exact (congrArg (fun y => y.dma.work) (e.burstWrite_onlyRegs ..).1 :)
  rw [cmdBurst, hwork]
  dsimp only [List.head?_cons]
  have hlen : min (len - done) (toPage (addr + done)) = burstLen addr len done := rfl
  rw [fillByte_pattern hw, hlen, setWork_head hdma, setWork_head hdma]

end

theorem headWork_burst {e : Engine} {l : List Tlp} {x : Engine} (h : (e.sends l).onlyRegs x burstOffs) (w : DmaWork) (rest : List DmaWork) :
    ((e.headWork w rest).sends l).onlyRegs (x.headWork w rest) burstOffs := by
  have hdma : x.headWork w rest = { x with dma := { e.dma with work := w :: rest } } := by
    have hd : x.dma = e.dma := (congrArg Engine.dma h.1 :)
    rw [headWork, hd]
  rw [hdma]
  exact onlyRegs_map (f := fun y => { y with dma := { e.dma with work := w :: rest } }) h fun _ _ => rfl

theorem cmdBurst_bank {e : Engine} {h addr first count bank asked got : Nat} {reads : List Nat} {rest : List DmaWork}
    (hwork : e.dma.work = .bank h addr first count bank asked got reads :: rest) : e.cmdBurst =
    (e.headWork (.bank h addr first count bank (asked + burstLen addr (4096 * count) asked) got
      (reads ++ cutReads e.readLim (burstLen addr (4096 * count) asked) (burstLen addr (4096 * count) asked))) rest).sends
      (readTlps .bank (cutReads e.readLim (burstLen addr (4096 * count) asked) (burstLen addr (4096 * count) asked)) ([], addr + asked)).1 := by
  rw [cmdBurst, hwork]
  dsimp only [List.head?_cons]
  rw [burstRead_eq]
  exact setWork_head (e := e.sends _) hwork _

theorem cmdBurst_compare {e : Engine} {h addr sa len asked got : Nat} {reads : List Nat} {fb : Option Nat} {k thr : Nat} {failed : Bool}
    {rest : List DmaWork} (hwork : e.dma.work = .compare h addr sa len asked got reads fb k thr failed :: rest) : e.cmdBurst =
    (e.headWork (.compare h addr sa len (asked + burstLen addr len asked) got
      (reads ++ cutReads e.readLim (burstLen addr len asked) (burstLen addr len asked)) fb k thr failed) rest).sends
      (readTlps .compare (cutReads e.readLim (burstLen addr len asked) (burstLen addr len asked)) ([], addr + asked)).1 := by
  rw [cmdBurst, hwork]
  dsimp only [List.head?_cons]
  rw [burstRead_eq]
  exact setWork_head (e := e.sends _) hwork _

/-! ### A stream's first line (R265, R273 to R276) -/

/-- The line is in its buffer. -/
def lineIn (b : Buf) (l : StageLine) (x : Stream) : Stream :=
  { x with stage := [], sent := 0, waited := false, bufs := [{ b with begun := true, lines := [l] }] }

/-- Nothing of a line has been sent. -/
def sentOver (x : Stream) : Stream := { x with sent := 0 }

/-- The line is in its buffer, which closes and is read back. -/
def lineCloses (b : Buf) (l : StageLine) (x : Stream) : Stream :=
  { x with stage := [], sent := 0, waited := false, rbs := [some b.idx],
           bufs := [{ b with begun := true, lines := [l], confirm := .readback, jobEnd := false, withdrawn := false }] }

/-- A line of which a byte was read with bad parity (R195). -/
abbrev readAs (l : StageLine) (bad : Bool) : StageLine := { l with parity := l.parity || bad }

theorem readAs_eq (l : StageLine) (bad : Bool) : (if bad then { l with parity := true } else l) = readAs l bad := by
  cases bad <;> simp [readAs]

theorem stream_bounds {e : Engine} {n : Nat} {b : Buf} (h : (e.stream n).bufs = [b]) : n < e.streams.length := by
  refine Nat.lt_of_not_le fun hle => ?_
  rw [stream, List.getD_eq_getElem?_getD, List.getElem?_eq_none hle] at h
  cases h

section
variable {e : Engine} {n : Nat} {l : StageLine} {b : Buf} (hbufs : (e.stream n).bufs = [b]) (hstage : (e.stream n).stage = [l])
  (hopen : b.confirm = .writing)
include hbufs hopen

theorem openBuf_only : openBuf (e.stream n) = some b := by simp [openBuf, hbufs, hopen]

theorem flushDone_writing (fuel : Nat) : e.flushDone n fuel = e := by
  cases fuel with
  | zero => rfl
  | succ k =>
    rw [flushDone, hbufs]
    dsimp only
    rw [hopen]
    split <;> rfl

include hstage

/-- A stream with bytes in STAGE has no STOP to complete. -/
theorem settleStream_filled (hpos : 0 < l.bytes.length) : e.settleStream n = e := by
  have hfilled : filledOf (e.stream n) ≠ 0 := by
    rw [filledOf, hstage, linesBytes, List.map_singleton, sumNat, List.foldl_cons, List.foldl_nil]
    omega
  rw [settleStream, flushDone_writing hbufs hopen, streamCmds]
  rw [if_neg (by cases (e.stream n).replaying <;> simp), checkStop]
  exact if_neg (by simp [hfilled])

variable (hgood : e.badDesc n b = false) (hlines : b.lines = []) (hsent : (e.stream n).sent = 0) (hpos : 0 < l.bytes.length)
include hgood hlines hsent hpos

/-- The first burst of a line that no boundary cuts ends it, and its buffer closes where no other fits. -/
theorem fillBurst_first (bad : Bool) : e.fillBurst n bad =
    if (l.bytes.take (toPage b.addr)).length < l.bytes.length then
      (e.burstWrite b.addr (l.bytes.take (toPage b.addr)) e.roData (.data n)).modStream n fun x =>
        { modOpenBuf x fun y => { y with begun := true } with sent := (l.bytes.take (toPage b.addr)).length, stage := [readAs l bad] }
    else
      let ended := (e.burstWrite b.addr (l.bytes.take (toPage b.addr)) e.roData (.data n)).modStream n fun x =>
        { modOpenBuf x fun y => { y with begun := true, lines := y.lines ++ [readAs l bad] } with
          sent := (l.bytes.take (toPage b.addr)).length - l.bytes.length, stage := [], waited := false }
      if e.bufFull n b 1 (readAs l bad) then (ended.modStream n fun x => { x with sent := 0 }).closeBuf n b (b.addr + l.bytes.length - 1) false false
      else ended.closeEnding n := by
  have hreject : e.rejectBad n 1025 = e := by
    rw [rejectBad, openBuf_only hbufs hopen]
    dsimp only
    rw [hgood]
    rfl
  have hline : e.lineBurst n b 0 0 (readAs l bad) false =
      (b.addr, l.bytes.take (toPage b.addr), (l.bytes.take (toPage b.addr)).length) := by
    simp [lineBurst, padAround, padBefore, unitStart]
  have hpad : e.padBefore n 0 + l.bytes.length = l.bytes.length := by simp [padBefore]
  have hstart : e.unitStart n b 0 = b.addr := rfl
  unfold fillBurst
  rw [hreject, settleStream_filled hbufs hstage hopen hpos]
  dsimp only
  rw [openBuf_only hbufs hopen, hstage, hsent]
  dsimp only
  rw [hlines]
  dsimp only [List.length_nil, List.head?_nil, Option.any_none]
  rw [readAs_eq]
  simp only [hline, hstart, hpad, List.isEmpty_nil, Bool.not_true, Bool.and_false, Nat.zero_add]

omit hstage hgood hlines hsent hpos in
/-- A change of the only buffer, which takes lines. -/
theorem modOpenBuf_only (f : Buf → Buf) : modOpenBuf (e.stream n) f = { e.stream n with bufs := [f b] } := by
  simp [modOpenBuf, hbufs, modFirst, hopen]

omit hbufs hopen hstage hgood hlines hsent hpos in
/-- A burst of writes, then a change of the stream. -/
theorem burstWrite_modStream {f g : Stream → Stream} (hfg : f (e.stream n) = g (e.stream n)) (addr : Nat) (d : List Byte) (ro : Bool) (what : ReqFor) :
    (e.burstWrite addr d ro what).modStream n f = { e.burstWrite addr d ro what with streams := modAt e.streams n g } := by
  have hstreams : (e.burstWrite addr d ro what).streams = e.streams := (congrArg Engine.streams (e.burstWrite_onlyRegs ..).1 :)
  rw [modStream, hstreams, modAt_congr (d := Stream.init) hfg]

/-- A line that a 4 KiB boundary cuts goes on behind it. -/
theorem fillBurst_cut (hcut : 4096 < b.addr % 4096 + l.bytes.length) (bad : Bool) : e.fillBurst n bad =
    { e.burstWrite b.addr (l.bytes.take (4096 - b.addr % 4096)) e.roData (.data n) with
      streams := modAt e.streams n fun x => { x with sent := 4096 - b.addr % 4096, stage := [readAs l bad], bufs := [{ b with begun := true }] } } := by
  have htake : (l.bytes.take (toPage b.addr)).length = 4096 - b.addr % 4096 := by
    rw [List.length_take, toPage]
    omega
  rw [fillBurst_first hbufs hstage hopen hgood hlines hsent hpos, if_pos (by omega), htake]
  refine burstWrite_modStream ?_ ..
  dsimp only
  rw [modOpenBuf_only hbufs hopen]

section
variable (hfits : b.addr % 4096 + l.bytes.length ≤ 4096)
include hfits

/-- The line's stream once it is in its buffer. -/
theorem fillBurst_whole (bad : Bool) : e.fillBurst n bad =
    let ended : Engine := { e.burstWrite b.addr l.bytes e.roData (.data n) with streams := modAt e.streams n (lineIn b (readAs l bad)) }
    if e.bufFull n b 1 (readAs l bad) then (ended.modStream n sentOver).closeBuf n b (b.addr + l.bytes.length - 1) false false
    else ended.closeEnding n := by
  have htake : l.bytes.take (toPage b.addr) = l.bytes := List.take_of_length_le (by rw [toPage]; omega)
  rw [fillBurst_first hbufs hstage hopen hgood hlines hsent hpos, htake, if_neg (Nat.lt_irrefl _)]
  dsimp only
  rw [burstWrite_modStream (f := fun x => { modOpenBuf x fun y => { y with begun := true, lines := y.lines ++ [readAs l bad] } with
    sent := l.bytes.length - l.bytes.length, stage := [], waited := false }) (g := lineIn b (readAs l bad))]
  · rfl
  · dsimp only
    rw [modOpenBuf_only hbufs hopen, hlines, Nat.sub_self]
    rfl

theorem fillBurst_goesOn (bad : Bool) (hroom : e.bufFull n b 1 (readAs l bad) = false) (hending : (e.stream n).ending = none) : e.fillBurst n bad =
    { e.burstWrite b.addr l.bytes e.roData (.data n) with streams := modAt e.streams n (lineIn b (readAs l bad)) } := by
  rw [fillBurst_whole hbufs hstage hopen hgood hlines hsent hpos hfits]
  dsimp only
  rw [hroom, if_neg Bool.false_ne_true, closeEnding]
  have hsame : ((modAt e.streams n (lineIn b (readAs l bad))).getD n Stream.init).ending = none :=
    (congrArg Stream.ending (getD_modAt_same (stream_bounds hbufs) _ Stream.init)).trans hending
  dsimp only [stream]
  rw [hsame]

theorem fillBurst_closes (bad : Bool) (hfull : e.bufFull n b 1 (readAs l bad) = true) (hfast : bitOf (e.rd R.DMA_FAST.word) n = false)
    (howed : e.dma.owed = []) (hread : e.canReadback = true) (hrbs : (e.stream n).rbs = []) : e.fillBurst n bad =
    ({ e.burstWrite b.addr l.bytes e.roData (.data n) with streams := modAt e.streams n (lineCloses b (readAs l bad)) } : Engine).sends
      [⟨false, (b.addr + l.bytes.length - 1) / 4 * 4, 4, [], false, .readback n⟩] := by
  rw [fillBurst_whole hbufs hstage hopen hgood hlines hsent hpos hfits]
  dsimp only
  rw [if_pos hfull]
  have hburst := e.burstWrite_onlyRegs b.addr l.bytes e.roData (.data n)
  generalize e.burstWrite b.addr l.bytes e.roData (.data n) = y at *
  have hfast' : (bitOf (y.rd R.DMA_FAST.word) n && !false) = false := by
    rw [onlyRegs_rd hburst (by decide)]
    exact (congrArg (fun v => v && true) hfast :)
  have howed' : y.dma.owed = [] := (congrArg (fun x => x.dma.owed) hburst.1 :).trans howed
  have hstreams : y.streams = e.streams := (congrArg Engine.streams hburst.1 :)
  have hread' : (({ y with streams := modAt e.streams n (lineIn b (readAs l bad)) } : Engine).modStream n sentOver).canReadback = true := by
    rw [canReadback_modStream (f := sentOver) (fun _ => rfl), ← hstreams]
    exact (canReadback_modStream (f := lineIn b (readAs l bad)) (fun _ => rfl) y n).trans ((canReadback_onlyRegs hburst (by decide)).trans hread)
  rw [closeBuf_proved (e := ({ y with streams := modAt e.streams n (lineIn b (readAs l bad)) } : Engine).modStream n sentOver) hfast' howed' hread',
    issueReadback]
  unfold modStream
  dsimp only [issueRead, issue]
  rw [modAt_modAt, modAt_modAt, modAt_modAt, modAt_congr (d := Stream.init) (g := lineCloses b (readAs l bad))]
  · rfl
  · have hkept : ((e.streams.getD n Stream.init).rbs ++ [some b.idx]) = [some b.idx] := by
      rw [show (e.streams.getD n Stream.init).rbs = [] from hrbs]
      rfl
    simp only [Function.comp, lineIn, sentOver, lineCloses, modFirst, BEq.rfl, if_true, hkept]

end

end

/-! ### A stream's burst, and what DMA_RD reads for it -/

theorem streamBurst_fills {e : Engine} {n : Nat} (h : ((e.stream n).bufs.find? fun b => b.redo) = none) (bad : Bool) :
    e.streamBurst n bad = ({ e with dma := { e.dma with last := n } } : Engine).fillBurst n bad := by
  unfold streamBurst
  rw [h]

theorem rejectBad_readFree (n fuel : Nat) (e : Engine) : e.readFree.rejectBad n fuel = (e.rejectBad n fuel).readFree := by
  induction fuel generalizing e with
  | zero => rfl
  | succ k ih =>
    have hstream : e.readFree.stream n = e.stream n := rfl
    unfold rejectBad
    rw [hstream]
    cases openBuf (e.stream n) with
    | none => rfl
    | some b =>
      have hbad : (e.readFree.badDesc n b && !b.begun) = (e.badDesc n b && !b.begun) := rfl
      dsimp only
      rw [hbad]
      split
      · exact ih (e.modStream n fun s => modOpenBuf s fun x => { x with confirm := .rejected })
      · rfl

theorem streamSource_readFree (e : Engine) (n : Nat) : e.readFree.streamSource n = e.streamSource n := by
  unfold streamSource
  rw [rejectBad_readFree]
  rfl

/-- Bursts that are raised write the levels of their ports alone. -/
abbrev portLevels : List Nat := (upTo 16).map fun q => (R.QUE_LEVEL.LEVEL (80 + q)).off

/-! ### Bursts raised at the ports (R197) -/

theorem dieOf_lt (e : Engine) (sa : Nat) : e.dieOf sa < 8 := by
  have hall : ∀ d ∈ e.dieList, d < 8 := fun d hd => List.mem_range.mp (List.mem_of_mem_filter hd)
  unfold dieOf
  rw [List.getD_eq_getElem?_getD]
  cases h : e.dieList[sa / 256 % max 1 e.dieList.length]? with
  | none => decide
  | some d => exact hall d (List.mem_of_getElem? h)

/-- Nothing differs but the ports' requests and, of the registers, the levels of their queues. -/
abbrev onlyPorts (e x : Engine) : Prop := ({ e with qdr := x.qdr } : Engine).onlyRegs x portLevels

theorem onlyPorts_trans {e x y : Engine} (h : e.onlyPorts x) (k : x.onlyPorts y) : e.onlyPorts y := by
  obtain ⟨hx, hw⟩ := h
  obtain ⟨ky, kw⟩ := k
  refine ⟨ky.trans ?_, fun off ho => (kw off ho).trans (hw off ho)⟩
  rw [hx]

theorem raiseBurst_onlyPorts (e : Engine) {p : Nat} (hp : p < 16) (code : Nat) (b : Burst) : e.onlyPorts (e.raiseBurst p code b) := by
  refine ⟨e.raiseBurst_only p code b, fun off ho => ?_⟩
  have hne : off ∉ [(R.QUE_LEVEL.LEVEL (80 + p)).off] := fun h =>
    ho (List.mem_map.mpr ⟨p, List.mem_range.mpr hp, (List.mem_singleton.mp h).symm⟩)
  exact (level_onlyRegs (e.modPort p fun a => { a with bursts := modAt a.bursts code fun l => l ++ [b] }) (80 + p) _).2 off hne

theorem raiseRange_onlyPorts (e : Engine) (write : Bool) (code addr len : Nat) (data : List (Option Byte)) (what : BurstFor) :
    e.onlyPorts (e.raiseRange write code addr len data what) := by
  unfold raiseRange
  generalize splitBursts addr (addr + len) (len + 1) = l
  suffices h : ∀ x : Engine, x.onlyPorts (l.foldl (fun x b =>
      x.raiseBurst ((if write then 0 else 8) + e.dieOf b.1) code ⟨b.1, b.2, if write then burstData addr data b else [], what, false⟩) x) from h e
  induction l with
  | nil => exact fun x => ⟨rfl, fun _ _ => rfl⟩
  | cons b t ih =>
    have hport : (if write then 0 else 8) + e.dieOf b.1 < 16 := by
      have := e.dieOf_lt b.1
      split <;> omega
    exact fun x => onlyPorts_trans (x.raiseBurst_onlyPorts hport code _) (ih _)

theorem raiseStage_onlyPorts (e : Engine) (write : Bool) (off len : Nat) (data : List (Option Byte)) (what : BurstFor) :
    e.onlyPorts (e.raiseStage write off len data what) :=
  onlyPorts_trans (e.raiseRange_onlyPorts ..) (raiseRange_onlyPorts ..)

/-- What is raised for a range follows from the ports and the map alone. -/
theorem raiseRange_qdr_congr {e x : Engine} (hqdr : x.qdr = e.qdr) (hmap : x.rd R.QDR_STATUS.MAP = e.rd R.QDR_STATUS.MAP) (write : Bool)
    (code addr len : Nat) (data : List (Option Byte)) (what : BurstFor) :
    (x.raiseRange write code addr len data what).qdr = (e.raiseRange write code addr len data what).qdr := by
  have hraise (y : Engine) (p : Nat) (b : Burst) : (y.raiseBurst p code b).qdr =
      { y.qdr with ports := modAt y.qdr.ports p fun a => { a with bursts := modAt a.bursts code fun l => l ++ [b] } } := by
    unfold raiseBurst showPort
    rw [level_only]
    rfl
  have hdie : x.dieOf = e.dieOf := by
    funext sa
    simp only [dieOf, dieList, hmap]
  unfold raiseRange
  rw [hdie]
  generalize splitBursts addr (addr + len) (len + 1) = l
  generalize hport : (if write then 0 else 8) = base
  clear hmap hdie
  suffices h : ∀ y z : Engine, y.qdr = z.qdr → (l.foldl (fun x b =>
      x.raiseBurst (base + e.dieOf b.1) code ⟨b.1, b.2, if write then burstData addr data b else [], what, false⟩) y).qdr =
      (l.foldl (fun x b => x.raiseBurst (base + e.dieOf b.1) code ⟨b.1, b.2, if write then burstData addr data b else [], what, false⟩) z).qdr from
    h x e hqdr
  induction l with
  | nil => exact fun _ _ h => h
  | cons b t ih => exact fun y z h => ih _ _ (by rw [hraise, hraise, h])

theorem rd_onlyPorts {e x : Engine} (h : e.onlyPorts x) {f : Fld} (hf : f.off ∉ portLevels) : x.rd f = e.rd f :=
  onlyRegs_rd h hf

theorem raiseStage_qdr_congr {e x : Engine} (hqdr : x.qdr = e.qdr) (hregs : x.regs = e.regs) (write : Bool) (off len : Nat)
    (data : List (Option Byte)) (what : BurstFor) : (x.raiseStage write off len data what).qdr = (e.raiseStage write off len data what).qdr := by
  have hsize : x.rd R.QDR_STAGE_SIZE.V = e.rd R.QDR_STAGE_SIZE.V := rd_congr hregs _
  have hplace : x.stagePlace off = e.stagePlace off := by rw [stagePlace, stagePlace, hsize]
  have hmap : x.rd R.QDR_STATUS.MAP = e.rd R.QDR_STATUS.MAP := rd_congr hregs _
  have hfirst := raiseRange_qdr_congr hqdr hmap write 2
  unfold raiseStage
  rw [hplace, hsize]
  refine raiseRange_qdr_congr (hfirst ..) ?_ ..
  rw [rd_onlyPorts (x.raiseRange_onlyPorts ..) (by decide), rd_onlyPorts (e.raiseRange_onlyPorts ..) (by decide), hmap]

end Engine

/-! ### The command -/

theorem exec_dmaBurst (poison : Nat) (s : State) : exec (.dmaBurst poison) s = .next (s.onEng fun e =>
    if poison = 0 ∨ (e.oneBurst s.stg).link.out.length = e.link.out.length then e.oneBurst s.stg
    else (e.oneBurst s.stg).count (R.QUE_POISON.V 96) poison) := rfl

theorem exec_dmaBurst_clean (s : State) : exec (.dmaBurst 0) s = .next (s.onEng fun e => e.oneBurst s.stg) :=
  (exec_dmaBurst 0 s).trans (congrArg (fun e => Host.Outcome.next { s with eng := e }) (if_pos (.inl rfl)))

/-- Where nothing goes out, nothing read is sent. -/
theorem exec_dmaBurst_silent {s : State} {x : Engine} (h : s.eng.oneBurst s.stg = x) (hout : x.link.out = s.eng.link.out) (poison : Nat) :
    exec (.dmaBurst poison) s = .next { s with eng := x } := by
  subst h
  exact (exec_dmaBurst poison s).trans (congrArg (fun e => Host.Outcome.next { s with eng := e }) (if_pos (.inr (congrArg List.length hout))))

theorem exec_dmaBurst_goes {s : State} {x : Engine} (h : s.eng.oneBurst s.stg = x) : exec (.dmaBurst 0) s = .next { s with eng := x } := by
  subst h
  exact exec_dmaBurst_clean s

namespace Engine

section
variable {e : Engine} (hissue : e.canIssue = true) (howed : e.dma.owed = [] ∨ e.canReadback = false)
include hissue howed

section
variable (hread : e.readingBurst = none) (hnext : e.nextStream = none) {h addr len pat w done : Nat} {rest : List DmaWork}
  (hwork : e.dma.work = .fill h addr len pat w done false :: rest) (hw : 0 < w)
include hread hnext hwork hw

/-- A burst of a FILL that is not its last. -/
theorem oneBurst_fill (hshort : done + burstLen addr len done < len) (m : Staging) : e.oneBurst m =
    (e.readFree.burstWrite (addr + done) (patternBytes pat w done (burstLen addr len done)) false .fill).headWork
      (.fill h addr len pat w (done + burstLen addr len done) false) rest := by
  have hcmd : e.cmdReady = true := by
    have hmore : toPage (addr + done) < len - done := by
      unfold burstLen at hshort
      unfold toPage
      omega
    rw [cmdReady, hwork]
    simp [hmore]
  rw [oneBurst_command hissue howed hread hnext hcmd, cmdBurst_fill (e := e.readFree) hwork hw, if_neg (Nat.ne_of_lt hshort)]

/-- The last one brings its read-back. -/
theorem oneBurst_fillEnds (hend : done + burstLen addr len done = len) (hnone : e.dma.owed = []) (hout : e.rbOut < 16)
    (hreads : e.readsOut < e.readMax) (m : Staging) : e.oneBurst m =
    ((e.readFree.burstWrite (addr + done) (patternBytes pat w done (burstLen addr len done)) false .fill).headWork (.fill h addr len pat w len true)
      rest).issueRead ((addr + len - 1) / 4 * 4) 4 .fillReadback := by
  have hcmd : e.cmdReady = true := by
    rw [cmdReady, hwork]
    simp [hnone, hout, hreads]
  rw [oneBurst_command hissue howed hread hnext hcmd, cmdBurst_fill (e := e.readFree) hwork hw, if_pos hend]

end

section
variable {n : Nat} {l : StageLine} {b : Buf} (hcmd : e.cmdReady = false) (hreading : e.dma.reading = some (n, e.streamSource n))
  (hready : e.streamReady n = true) (hthrough : e.standing (fun w => w == .dma) = false) (hredo : ((e.stream n).bufs.find? fun x => x.redo) = none)
include hcmd hreading hready hthrough hredo

/-- The stream whose data has been read fills its buffer. -/
theorem oneBurst_fills (m : Staging) : e.oneBurst m =
    ({ e.readFree with dma := { e.readFree.dma with last := n } } : Engine).fillBurst n (e.stageBad m (e.streamSource n)) := by
  rw [oneBurst_stream hissue howed hcmd hreading hready hthrough]
  exact streamBurst_fills (e := e.readFree) hredo _

end

end

/-- A burst that goes out with its stream's change: what it sends, what it counts, what else stands. -/
theorem streamSent {e : Engine} {l : List Byte} {ro : Bool} {what : ReqFor} {addr : Nat} {S : List Stream} {x : Engine}
    (hx : x = { e.burstWrite addr l ro what with streams := S }) :
    x.link.out = e.link.out ++ writeTlps e.link.mps addr l ro what ∧
    x.rdPair R.DMA_WR_LO.V R.DMA_WR_HI.V = satAdd (2 ^ 48 - 1) (e.rdPair R.DMA_WR_LO.V R.DMA_WR_HI.V) l.length ∧ x.dma = e.dma ∧ x.streams = S ∧
    ({ e with link := { e.link with out := x.link.out }, streams := x.streams } : Engine).onlyRegs x burstOffs := by
  have hburst := e.burstWrite_onlyRegs addr l ro what
  have hcount := e.burstWrite_counts addr l ro what
  subst hx
  generalize e.burstWrite addr l ro what = y at *
  have hout : y.link.out = e.link.out ++ writeTlps e.link.mps addr l ro what := (congrArg (fun z => z.link.out) hburst.1 :)
  have hdma : y.dma = e.dma := (congrArg Engine.dma hburst.1 :)
  refine ⟨hout, hcount, hdma, rfl, ?_⟩
  have hframe := onlyRegs_map (f := fun z => { z with streams := S }) hburst fun _ _ => rfl
  dsimp only
  rw [hout]
  exact hframe

end Engine

/-- Settles O40: what the scheduler chooses, as one equation per choice; a burst's TLPs, counts and frame then come from the burst's own lemma. -/
theorem dmaBursts : Obligations.DmaBursts := by
  unfold Obligations.DmaBursts
  refine ⟨?blocked, ?fill, ?fillEnds, ?bank, ?compare, ?goesOn, ?closes, ?cut, ?next, ?reading, ?owed, ?idle, ?poison⟩
  case blocked =>
    intro poison s hissue
    exact ⟨_, exec_dmaBurst_silent (x := s.eng) (by simp [Engine.oneBurst, hissue]) rfl poison, ⟨rfl, rfl, rfl⟩, rfl⟩
  case fill =>
    intro h addr len pat w done rest s hissue howed hread hnext hwork hw hshort _ _
    refine ⟨_, exec_dmaBurst_goes (Engine.oneBurst_fill hissue (.inl howed) hread hnext hwork hw hshort s.stg), ⟨rfl, rfl, rfl⟩, ?_⟩
    have hburst := s.eng.readFree.burstWrite_onlyRegs (addr + done) (Engine.patternBytes pat w done (Engine.burstLen addr len done)) false .fill
    have hcount := s.eng.readFree.burstWrite_counts (addr + done) (Engine.patternBytes pat w done (Engine.burstLen addr len done)) false .fill
    rw [List.length_map, Engine.length_upTo] at hcount
    dsimp only
    generalize s.eng.readFree.burstWrite _ _ _ _ = y at *
    have hframe := Engine.headWork_burst hburst (.fill h addr len pat w (done + Engine.burstLen addr len done) false) rest
    obtain ⟨hout, hrest⟩ := Engine.sent_frame hframe
    exact ⟨hout, rfl, hcount, hrest⟩
  case fillEnds =>
    intro h addr len pat w done rest s hissue howed hread hnext hwork hw hend _ hrb hreads
    refine ⟨_, exec_dmaBurst_goes (Engine.oneBurst_fillEnds hissue (.inl howed) hread hnext hwork hw hend howed hrb hreads s.stg), ⟨rfl, rfl, rfl⟩, ?_⟩
    have hburst := s.eng.readFree.burstWrite_onlyRegs (addr + done) (Engine.patternBytes pat w done (Engine.burstLen addr len done)) false .fill
    have hcount := s.eng.readFree.burstWrite_counts (addr + done) (Engine.patternBytes pat w done (Engine.burstLen addr len done)) false .fill
    rw [List.length_map, Engine.length_upTo] at hcount
    dsimp only
    generalize s.eng.readFree.burstWrite _ _ _ _ = y at *
    have hframe := Engine.onlyRegs_map (f := fun z => z.sends [⟨false, (addr + len - 1) / 4 * 4, 4, [], false, .fillReadback⟩])
      (Engine.headWork_burst hburst (.fill h addr len pat w len true) rest) fun _ _ => rfl
    rw [Engine.sends_sends] at hframe
    obtain ⟨hout, hrest⟩ := Engine.sent_frame hframe
    exact ⟨hout.trans (List.append_assoc ..).symm, rfl, hcount, hrest⟩
  case bank =>
    intro h addr first count bank asked got reads rest s hissue howed hread hnext hwork hasked hreads
    have hcmd : s.eng.cmdReady = true := by
      rw [Engine.cmdReady, hwork]
      simp [hasked, hreads]
    exact ⟨_, exec_dmaBurst_goes ((Engine.oneBurst_command hissue (.inl howed) hread hnext hcmd s.stg).trans
      (Engine.cmdBurst_bank (e := s.eng.readFree) hwork)), ⟨rfl, rfl, rfl⟩, rfl, rfl⟩
  case compare =>
    intro h addr sa len asked got reads fb k thr rest s hissue howed hread hnext hwork hasked hreads hhalt
    have hcmd : s.eng.cmdReady = true := by
      rw [Engine.cmdReady, hwork]
      simp [hasked, hreads, hhalt]
    exact ⟨_, exec_dmaBurst_goes ((Engine.oneBurst_command hissue (.inl howed) hread hnext hcmd s.stg).trans
      (Engine.cmdBurst_compare (e := s.eng.readFree) hwork)), ⟨rfl, rfl, rfl⟩, rfl, rfl⟩
  case goesOn =>
    intro n l b s hissue howed hcmd hreading hready hthrough hredo hstage hbufs hopen hgood hlines hsent hpos _ hfits hlen hstride hbreak hending hline
    have hroom : s.eng.bufFull n.val b 1 (Engine.readAs l (s.eng.stageBad s.stg (s.eng.streamSource n.val))) = false := by
      have hfew : ¬ b.len < 1 * s.eng.strideOf n.val + s.eng.lineLen n.val := by omega
      simp only [Engine.bufFull, hbreak, decide_eq_false hfew, Bool.false_and, Bool.or_false]
    have heq := (Engine.oneBurst_fills hissue howed hcmd hreading hready hthrough hredo s.stg).trans
      (Engine.fillBurst_goesOn (e := { s.eng.readFree with dma := { s.eng.readFree.dma with last := n.val } }) hbufs hstage hopen hgood hlines hsent hpos
        hfits _ hroom hending)
    obtain ⟨hout, hcount, hdma, hstreams, hframe⟩ := Engine.streamSent heq
    refine ⟨_, exec_dmaBurst_goes rfl, ⟨rfl, rfl, rfl⟩, ?_⟩
    dsimp only
    generalize s.eng.oneBurst s.stg = t at *
    exact ⟨hout, hcount, congrArg DmaSt.last hdma, hstreams, hframe⟩
  case closes =>
    intro n l b s hissue _ hcmd hreading hready hthrough hredo hstage hbufs hopen hgood hlines hsent hpos _ hfits hlen hfast hrbs howed hrb
    have hfull : s.eng.bufFull n.val b 1 (Engine.readAs l (s.eng.stageBad s.stg (s.eng.streamSource n.val))) = true := by
      have hfew : b.len < 1 * s.eng.strideOf n.val + s.eng.lineLen n.val := by omega
      simp only [Engine.bufFull, decide_eq_true hfew, Bool.true_or]
    have heq := (Engine.oneBurst_fills hissue (.inl howed) hcmd hreading hready hthrough hredo s.stg).trans
      (Engine.fillBurst_closes (e := { s.eng.readFree with dma := { s.eng.readFree.dma with last := n.val } }) hbufs hstage hopen hgood hlines hsent hpos
        hfits _ hfull hfast howed hrb hrbs)
    refine ⟨_, exec_dmaBurst_goes heq, ⟨rfl, rfl, rfl⟩, ?_⟩
    have hburst := Engine.burstWrite_onlyRegs { s.eng.readFree with dma := { s.eng.readFree.dma with last := n.val } } b.addr l.bytes s.eng.roData
      (.data n.val)
    have hcount := Engine.burstWrite_counts { s.eng.readFree with dma := { s.eng.readFree.dma with last := n.val } } b.addr l.bytes s.eng.roData
      (.data n.val)
    have hroData : Engine.roData { s.eng.readFree with dma := { s.eng.readFree.dma with last := n.val } } = s.eng.roData := rfl
    rw [hroData]
    dsimp only
    generalize Engine.burstWrite _ b.addr l.bytes s.eng.roData (.data n.val) = y at *
    have hframe : (Engine.sends (Engine.sends { s.eng.readFree with
          dma := { s.eng.readFree.dma with last := n.val }
          streams := modAt s.eng.streams n.val (Engine.lineCloses b (Engine.readAs l (s.eng.stageBad s.stg (s.eng.streamSource n.val)))) }
        (Engine.writeTlps s.eng.link.mps b.addr l.bytes s.eng.roData (.data n.val)))
        [⟨false, (b.addr + l.bytes.length - 1) / 4 * 4, 4, [], false, .readback n.val⟩]).onlyRegs _ _ :=
      Engine.onlyRegs_map (f := fun z => Engine.sends { z with
          streams := modAt s.eng.streams n.val (Engine.lineCloses b (Engine.readAs l (s.eng.stageBad s.stg (s.eng.streamSource n.val)))) }
        [⟨false, (b.addr + l.bytes.length - 1) / 4 * 4, 4, [], false, .readback n.val⟩]) hburst fun _ _ => rfl
    rw [Engine.sends_sends] at hframe
    obtain ⟨hout, hrest⟩ := Engine.sent_frame hframe
    exact ⟨hout.trans (List.append_assoc ..).symm, hcount, rfl, hrest⟩
  case cut =>
    intro n l b s hissue howed hcmd hreading hready hthrough hredo hstage hbufs hopen hgood hlines hsent hpos _ hcut
    have heq := (Engine.oneBurst_fills hissue howed hcmd hreading hready hthrough hredo s.stg).trans
      (Engine.fillBurst_cut (e := { s.eng.readFree with dma := { s.eng.readFree.dma with last := n.val } }) hbufs hstage hopen hgood hlines hsent hpos
        hcut _)
    obtain ⟨hout, -, -, hstreams, hframe⟩ := Engine.streamSent heq
    refine ⟨_, exec_dmaBurst_goes rfl, ⟨rfl, rfl, rfl⟩, ?_⟩
    dsimp only
    generalize s.eng.oneBurst s.stg = t at *
    exact ⟨hout, hstreams, hframe⟩
  case next =>
    intro n poison s hissue howed hcmd hread hnext hsome
    have hsource := s.eng.streamSource_readFree n.val
    have heq := Engine.oneBurst_next hissue howed hcmd hread hnext s.stg
    rw [hsource, if_neg (by omega)] at heq
    have hports := s.eng.readFree.raiseStage_onlyPorts false (s.eng.streamSource n.val).1 (s.eng.streamSource n.val).2 [] .dma
    have hqdr := Engine.raiseStage_qdr_congr (e := s.eng) (x := s.eng.readFree) rfl rfl false (s.eng.streamSource n.val).1 (s.eng.streamSource n.val).2 []
      .dma
    generalize s.eng.readFree.raiseStage false (s.eng.streamSource n.val).1 (s.eng.streamSource n.val).2 [] .dma = y at *
    have hout : y.link = s.eng.link := (congrArg Engine.link hports.1 :)
    refine ⟨_, exec_dmaBurst_silent heq (congrArg LinkSt.out hout) poison, ⟨rfl, rfl, rfl⟩, rfl, hqdr, ?_⟩
    exact Engine.onlyRegs_map (f := fun z => { z with dma := { s.eng.dma with reading := some (n.val, s.eng.streamSource n.val) } }) hports fun _ _ => rfl
  case reading =>
    intro rd poison s hissue howed hread hstands
    have heq : s.eng.oneBurst s.stg = s.eng := (Engine.oneBurst_read hissue howed hread s.stg).trans (if_pos hstands)
    exact ⟨_, exec_dmaBurst_silent heq rfl poison, ⟨rfl, rfl, rfl⟩, rfl⟩
  case owed =>
    intro n idx a rest s hissue howed hread
    exact ⟨_, exec_dmaBurst_goes (Engine.oneBurst_owed hissue howed hread s.stg), ⟨rfl, rfl, rfl⟩, rfl⟩
  case idle =>
    intro poison s _ hissue hrb hcmd hread hnext
    exact ⟨_, exec_dmaBurst_silent (Engine.oneBurst_idle hissue (.inr hrb) hcmd hread hnext s.stg) rfl poison, ⟨rfl, rfl, rfl⟩, rfl⟩
  case poison =>
    intro poison s hpos hgoes
    refine ⟨_, exec_dmaBurst poison s, s.onEng_engineOnly _, ?_⟩
    rw [State.onEng_eng, if_neg (by omega)]

end Sys2Proof.Machine
end

section
/-!
PROOFS. How a buffer's arrival is proved and reported (R252, R266, R276, R277, R280, R283).
-/

namespace Sys2Proof.Machine

namespace Engine

/-! ### The set-up that a completion reads -/

/-- The registers above the queues' read the same. -/
def sameSetup (e x : Engine) : Prop := ∀ f : Fld, 0x5000 ≤ f.off → x.rd f = e.rd f

section
variable {e x : Engine} (h : e.sameSetup x) (n : Nat)
include h

theorem guOf_setup : x.guOf n = e.guOf n := h (R.STR_CFG.GU n) (by dsimp only; omega)

theorem sideOf_setup : x.sideOf n = e.sideOf n := by
  rw [sideOf, sideOf, guOf_setup h]
  exact h (R.GU_CTRL.SIDE (e.guOf n)) (by dsimp only; omega)

theorem outW_setup (g : Nat) : x.outW g = e.outW g := by
  rw [outW, outW, binOf, binOf, h (R.GU_CTRL.BIN g) (by dsimp only; omega), h (R.GU_XWIN.W g) (by dsimp only; omega),
    h (R.GU_XSTEP.STEP g) (by dsimp only; omega)]

theorem lineLen_setup : x.lineLen n = e.lineLen n := by
  rw [lineLen, lineLen, xcrop, xcrop, guOf_setup h, outW_setup h, on, on, h (R.STR_XCROP.X0 n) (by dsimp only; omega),
    h (R.STR_XCROP.W n) (by dsimp only; omega), h (R.STR_CFG.PSET n) (by dsimp only; omega), h (R.STR_CFG.DEPTH n) (by dsimp only; omega),
    h (R.STR_CFG.TAG n) (by dsimp only; omega)]

theorem strideOf_setup : x.strideOf n = e.strideOf n := by
  rw [strideOf, strideOf, lineLen_setup h, h (R.STR_STRIDE.V n) (by dsimp only; omega)]

theorem bytesOf_setup (k : Nat) : x.bytesOf n k = e.bytesOf n k := by
  rw [bytesOf, bytesOf, strideOf_setup h, lineLen_setup h]

/-- Whether R29 lets a buffer be reported follows from the page of its first line. -/
theorem pageOrderOk_setup (hframes : x.frames = e.frames) {b c : Buf}
    (hhead : c.lines.head?.map StageLine.page = b.lines.head?.map StageLine.page) : x.pageOrderOk n c = e.pageOrderOk n b := by
  have hpage (p : Nat) : x.earlierPages (x.sideOf n) p = e.earlierPages (e.sideOf n) p := by
    rw [earlierPages, earlierPages, hframes, sideOf_setup h]
  rw [pageOrderOk, pageOrderOk]
  cases hb : b.lines.head? <;> cases hc : c.lines.head? <;> simp [hb, hc] at hhead ⊢
  rw [hpage, hhead]

end

theorem sameSetup_of_onlyRegs {e x : Engine} {offs : List Nat} (h : e.onlyRegs x offs) (hlow : ∀ off ∈ offs, off < 0x5000) : e.sameSetup x :=
  fun f hf => onlyRegs_rd h fun hmem => absurd (hlow f.off hmem) (Nat.not_lt.mpr hf)

/-! ### BUF_DONE (R266, R268) -/

section
variable {e : Engine} (hr : e.resetting = none) (hf : e.pins.failed = false) (n : Nat) (b : Buf) (status k : Nat) (final : Bool)
  (nok : Option (Nat × Nat × Nat))

theorem bufDone_books (e : Engine) (offs : List Nat) : e.onlyBooks (e.bufDone n b status k final nok) offs := emitBk_books ..

theorem bufDone_opens {e : Engine} (h : e.opens = []) : (e.bufDone n b status k final nok).opens = [] :=
  List.subset_nil.mp (h ▸ emitBk_opens_subset e _ _ _ _ _ _ _)

include hr hf

theorem bufDone_told : (e.bufDone n b status k final nok).told 0x02 n status (some b.hseq) b.idx := by
  obtain ⟨v, h0, h1, h2, h3, h4, h5, -⟩ := emitBk_last e hr hf 0x02 n status b.idx (some b.hseq) _
    (.buf (3 + n) (e.nextIdx (3 + n) b.idx) (final && !b.stale) _)
  unfold told Ev.brief bufDone
  rw [h0, ← h1, ← h2, ← h3, ← h4, ← h5]
  rfl

theorem bufDone_toldBytes : (e.bufDone n b status k final nok).toldBytes
    [(24, 8, b.tag), (32, 2, e.bflags n { b with lines := b.lines.take k }), (36, 4, e.bytesOf n k), (40, 4, k),
     (44, 6, ((b.lines.take k).head?.map fun x => x.index).getD 0), (50, 2, ((b.lines.take k).head?.map fun x => x.page).getD 0),
     (52, 6, ((b.lines.take k).getLast?.map fun x => x.index).getD 0), (58, 2, ((b.lines.take k).getLast?.map fun x => x.page).getD 0)] := by
  obtain ⟨v, h0, -, -, -, -, -, h6, -⟩ := emitBk_last e hr hf 0x02 n status b.idx (some b.hseq) _
    (.buf (3 + n) (e.nextIdx (3 + n) b.idx) (final && !b.stale) _)
  unfold toldBytes bufDone
  rw [h0, Option.map_some, h6]

end

/-! ### A stream with one buffer -/

/-- The code of STREAM_HALT for an error (R280). -/
def haltCode : ReadErr → Nat
  | .ur => 1
  | .ca => 2
  | .poisoned => 3
  | .timeout => 4

/-- A ring that runs is halted. -/
def haltRing (e : Engine) (n : Nat) : Engine := if e.ringState (3 + n) = 1 then e.leaveRun (3 + n) 4 else e

/-- STREAM_HALT names the buffer, the bytes of its lines and the error (R280). -/
def haltTold (e : Engine) (n : Nat) (b : Buf) (bytes : Nat) (err : ReadErr) : Engine :=
  e.emit 0x16 n 0 b.idx (some b.hseq) [(24, 8, b.tag), (32, 4, bytes), (36, 1, haltCode err)]

theorem haltRing_opens {e : Engine} {n : Nat} (h : e.opens = []) : (e.haltRing n).opens = [] := by
  unfold haltRing
  split
  · rw [leaveRun, if_neg (by omega)]
    exact h
  · exact h

theorem haltTold_opens {e : Engine} {n : Nat} {b : Buf} {bytes : Nat} {err : ReadErr} (h : e.opens = []) : (e.haltTold n b bytes err).opens = [] :=
  List.subset_nil.mp (h ▸ emitBk_opens_subset e _ _ _ _ _ _ _)

/-- The stream has halted. -/
def haltStream (x : Stream) : Stream := { x with halted := true, replaying := false }

theorem halts_opens (e : Engine) (n : Nat) : ((e.modStream n haltStream).forgetReads n).opens = e.opens := rfl

theorem checkStop_idle {e : Engine} (h : e.opens = []) (n : Nat) : e.checkStop n = e := by simp [checkStop, h]

theorem streamCmds_waitless {e : Engine} (h : e.opens = []) {old : Stream} (hold : old.replaying = false) (n : Nat) : e.streamCmds n old = e := by
  rw [streamCmds, hold]
  exact checkStop_idle h n

theorem stream_modStream {e : Engine} {n : Nat} (h : n < e.streams.length) (f : Stream → Stream) : (e.modStream n f).stream n = f (e.stream n) :=
  getD_modAt_same h f Stream.init

section
variable {e : Engine} {n : Nat} {b : Buf} (hbufs : (e.stream n).bufs = [b]) (hhalt : (e.stream n).halted = false)
  (hreplay : (e.stream n).replaying = false) (horder : e.pageOrderOk n b = true) (hopens : e.opens = []) (hwith : b.withdrawn = false)
include hbufs hhalt hreplay horder hopens hwith

/-- A confirmed buffer completes OK. -/
theorem settleStream_confirmed (hconf : b.confirm = .confirmed) : e.settleStream n =
    (e.modStream n fun x => { x with bufs := [] }).bufDone n b stOk b.lines.length true none := by
  have hdone : ∀ k, e.flushDone n (k + 2) = (e.modStream n fun x => { x with bufs := [] }).bufDone n b stOk b.lines.length true none := by
    intro k
    have hempty : (((e.modStream n fun x => { x with bufs := [] }).bufDone n b stOk b.lines.length true none).stream n).bufs = [] := by
      have hsame : ((e.modStream n fun x => { x with bufs := [] }).bufDone n b stOk b.lines.length true none).streams =
          (e.modStream n fun x => { x with bufs := [] }).streams := emitBk_streams ..
      rw [stream, hsame]
      exact congrArg Stream.bufs (stream_modStream (stream_bounds hbufs) _)
    rw [flushDone]
    dsimp only
    rw [hbufs]
    dsimp only
    rw [horder, hconf, hhalt, hreplay, hwith]
    exact flushDone_empty hempty _
  rw [settleStream, hdone 1023]
  exact streamCmds_waitless (bufDone_opens n b _ _ _ _ (e := e.modStream n _) hopens) hreplay n

/-- A buffer that has failed completes WRITTEN_UNCONFIRMED, and the ring halts. -/
theorem settleStream_failed {err : ReadErr} (hconf : b.confirm = .failed err) : e.settleStream n =
    ((((e.bufDone n b stUnconfirmed b.lines.length false none).haltRing n).haltTold n b (e.bytesOf n b.lines.length) err).modStream n
      haltStream).forgetReads n := by
  have hdone : ∀ k, e.flushDone n (k + 1) =
      ((((e.bufDone n b stUnconfirmed b.lines.length false none).haltRing n).haltTold n b (e.bytesOf n b.lines.length) err).modStream n
        haltStream).forgetReads n := by
    intro k
    rw [flushDone]
    dsimp only
    rw [hbufs]
    dsimp only
    rw [horder, hconf, hhalt, hreplay, hwith]
    cases err <;> rfl
  rw [settleStream, hdone 1024]
  refine streamCmds_waitless ?_ hreplay n
  rw [halts_opens]
  exact haltTold_opens (haltRing_opens (bufDone_opens n b _ _ _ _ hopens))

end

/-! ### A buffer whose arrival is proved (R276, R277) -/

/-- A buffer proved: its STAGE bytes are free. -/
def provedBuf (b : Buf) : Buf := { freeLines b with confirm := .confirmed }

/-- A stream of one buffer, whose arrival is proved. -/
def proveOnly (b : Buf) (l : StageLine) (x : Stream) : Stream := { x with bufs := [provedBuf b], conf := some (l.index, l.page, l.pageLine) }

/-- Its buffer proved and completed, a stream is empty. -/
def provedEmpty (l : StageLine) (x : Stream) : Stream := { x with bufs := [], conf := some (l.index, l.page, l.pageLine) }

/-- A buffer's bytes are confirmed, its last line is shown. -/
def proves (e : Engine) (n : Nat) (b : Buf) (l : StageLine) : Engine :=
  { (e.modStream n (proveOnly b l)).wrPair (R.DMA_S_CONF_LO.V n) (R.DMA_S_CONF_HI.V n) l.index with
    pac := { e.pac with confirmed := e.pac.confirmed + linesBytes b.lines } }

theorem modFirst_only {b : Buf} {p : Buf → Bool} (hp : p b = true) (f : Buf → Buf) : modFirst p f [b] = [f b] := by simp [modFirst, hp]

section
variable {e : Engine} {n : Nat} {b : Buf} {l : StageLine} (hbufs : (e.stream n).bufs = [b]) (hlast : b.lines.getLast? = some l)
include hbufs hlast

theorem confirmBuf_only : e.confirmBuf n b.idx = (e.proves n b l).settleStream n := by
  have hfind : (e.stream n).bufs.find? (fun y => y.idx == b.idx) = some b := by rw [hbufs]; simp
  have hstreams : ((e.modStream n fun x => { x with bufs := modFirst (fun y => y.idx == b.idx) (fun y => { (freeLines y) with confirm := .confirmed }) x.bufs }).modStream n
      fun x => { x with conf := some (l.index, l.page, l.pageLine) }) = e.modStream n (proveOnly b l) := by
    unfold modStream
    rw [modAt_modAt]
    refine congrArg (fun y => ({ e with streams := y } : Engine)) (modAt_congr (d := Stream.init) ?_)
    have hb : (e.streams.getD n Stream.init).bufs = [b] := hbufs
    dsimp only [Function.comp, proveOnly]
    rw [hb, modFirst_only (by simp)]
    rfl
  unfold confirmBuf
  dsimp only
  rw [hfind]
  dsimp only
  rw [hlast]
  dsimp only
  rw [hstreams]
  rfl

/-- The registers of DMA_Sn_CONF. -/
abbrev confRegs (n : Nat) : List Nat := [(R.DMA_S_CONF_LO.V n).off, (R.DMA_S_CONF_HI.V n).off]

end

section
variable (e : Engine) (n : Nat) (b : Buf) (l : StageLine)

/-- A count of the pacer's. -/
def withPac (e : Engine) (p : PacerSt) : Engine := { e with pac := p }

theorem proves_onlyRegs : ((e.modStream n (proveOnly b l)).withPac { e.pac with confirmed := e.pac.confirmed + linesBytes b.lines }).onlyRegs
    (e.proves n b l) (confRegs n) :=
  onlyRegs_map (wrPair_onlyRegs (e.modStream n (proveOnly b l)) l.index (lo := R.DMA_S_CONF_LO.V n) (hi := R.DMA_S_CONF_HI.V n) (by simp) (by simp))
    (f := fun x => x.withPac { e.pac with confirmed := e.pac.confirmed + linesBytes b.lines }) fun _ _ => rfl

theorem proves_empties : ((e.modStream n (provedEmpty l)).withPac { e.pac with confirmed := e.pac.confirmed + linesBytes b.lines }).onlyRegs
    ((e.proves n b l).modStream n fun x => { x with bufs := [] }) (confRegs n) := by
  have h := onlyRegs_map (e.proves_onlyRegs n b l) (f := fun x => x.modStream n fun x => { x with bufs := [] }) fun _ _ => rfl
  have hmerge : ((e.modStream n (proveOnly b l)).withPac { e.pac with confirmed := e.pac.confirmed + linesBytes b.lines }).modStream n
      (fun x => { x with bufs := [] }) = (e.modStream n (provedEmpty l)).withPac { e.pac with confirmed := e.pac.confirmed + linesBytes b.lines } :=
    congrArg (fun y => ({ e with streams := y, pac := { e.pac with confirmed := e.pac.confirmed + linesBytes b.lines } } : Engine)) (modAt_modAt ..)
  rw [← hmerge]
  exact h

end

/-! ### BUF_DONE of a buffer whose STAGE bytes are free -/

/-- A line whose STAGE bytes are free. -/
def freedLine (l : StageLine) : StageLine := { l with bytes := [] }

theorem provedBuf_lines (b : Buf) : (provedBuf b).lines = b.lines.map freedLine := rfl

theorem freed_first {α : Type} {f : StageLine → α} (hf : ∀ l, f (freedLine l) = f l) (b : Buf) :
    (((provedBuf b).lines.take b.lines.length).head?.map f) = b.lines.head?.map f := by
  rw [provedBuf_lines, List.take_of_length_le (by simp), List.head?_map, Option.map_map]
  exact congrArg (Option.map · _) (funext hf)

theorem freed_last {α : Type} {f : StageLine → α} (hf : ∀ l, f (freedLine l) = f l) {b : Buf} {l : StageLine} (hlast : b.lines.getLast? = some l) :
    (((provedBuf b).lines.take b.lines.length).getLast?.map f) = some (f l) := by
  rw [provedBuf_lines, List.take_of_length_le (by simp), List.getLast?_map, hlast]
  exact congrArg some (hf l)

theorem bflags_freed {e x : Engine} (hfast : x.rd R.DMA_FAST.word = e.rd R.DMA_FAST.word) (n : Nat) (b : Buf) :
    x.bflags n { provedBuf b with lines := (provedBuf b).lines.take b.lines.length } = e.bflags n { b with confirm := .confirmed } := by
  rw [provedBuf_lines, List.take_of_length_le (by simp)]
  unfold bflags
  rw [hfast]
  simp only [List.any_map, Function.comp_def, freedLine]
  rfl

/-- BUF_DONE's bytes for a buffer completed OK (R266, R268). -/
abbrev doneBytes (e : Engine) (n : Nat) (b : Buf) (l : StageLine) : List LayField :=
  [(24, 8, b.tag), (32, 2, e.bflags n { b with confirm := .confirmed }), (36, 4, (b.lines.length - 1) * e.strideOf n + e.lineLen n),
    (40, 4, b.lines.length), (44, 6, (b.lines.head?.map fun x => x.index).getD 0), (50, 2, (b.lines.head?.map fun x => x.page).getD 0), (52, 6, l.index),
    (58, 2, l.page)]

theorem lines_ne_nil {b : Buf} {l : StageLine} (hlast : b.lines.getLast? = some l) : b.lines.length ≠ 0 := by
  intro h
  rw [List.length_eq_zero_iff.mp h] at hlast
  cases hlast

theorem bytesOf_lines (e : Engine) (n : Nat) {b : Buf} {l : StageLine} (hlast : b.lines.getLast? = some l) :
    e.bytesOf n b.lines.length = (b.lines.length - 1) * e.strideOf n + e.lineLen n := if_neg (lines_ne_nil hlast)

theorem bufDone_freed {x e : Engine} (hr : x.resetting = none) (hf : x.pins.failed = false) (hsetup : e.sameSetup x)
    (hfast : x.rd R.DMA_FAST.word = e.rd R.DMA_FAST.word) (n : Nat) {b : Buf} {l : StageLine} (hlast : b.lines.getLast? = some l) :
    (x.bufDone n (provedBuf b) stOk b.lines.length true none).toldBytes (e.doneBytes n b l) := by
  have h := bufDone_toldBytes hr hf n (provedBuf b) stOk b.lines.length true none
  rw [freed_first (fun _ => rfl), freed_first (fun _ => rfl), freed_last (fun _ => rfl) hlast, freed_last (fun _ => rfl) hlast, bflags_freed hfast,
    bytesOf_setup hsetup, bytesOf_lines e n hlast] at h
  exact h

/-! ### The arrival of a stream's only buffer -/

theorem confRegs_range {n : Nat} (hn : n < 16) : ∀ off ∈ confRegs n, 0x2100 ≤ off ∧ off < 0x2200 := by
  intro off hoff
  obtain rfl | rfl : off = (R.DMA_S_CONF_LO.V n).off ∨ off = (R.DMA_S_CONF_HI.V n).off := by simpa using hoff
  · exact ⟨by dsimp only; omega, by dsimp only; omega⟩
  · exact ⟨by dsimp only; omega, by dsimp only; omega⟩

theorem confRegs_not_bookReg {n : Nat} (hn : n < 16) {off : Nat} (hoff : off ∈ confRegs n) : ¬ bookReg off := by
  obtain ⟨hlow, hhigh⟩ := confRegs_range hn off hoff
  exact not_bookReg_memory (by omega) (by omega)

section
variable {e : Engine} {n : Nat} {b : Buf} {l : StageLine} (hn : n < 16) (hbufs : (e.stream n).bufs = [b]) (hhalt : (e.stream n).halted = false)
  (hreplay : (e.stream n).replaying = false) (hlast : b.lines.getLast? = some l) (horder : e.pageOrderOk n b = true) (hopens : e.opens = [])
  (hhears : e.hears) (hwith : b.withdrawn = false)
include hn hbufs hhalt hreplay hlast horder hopens hhears hwith

omit hhears in
theorem confirmBuf_done : e.confirmBuf n b.idx =
    ((e.proves n b l).modStream n fun x => { x with bufs := [] }).bufDone n (provedBuf b) stOk b.lines.length true none := by
  have hframe := e.proves_onlyRegs n b l
  have hstreams : (e.proves n b l).streams = modAt e.streams n (proveOnly b l) := (congrArg Engine.streams hframe.1 :)
  have hstream : (e.proves n b l).stream n = proveOnly b l (e.stream n) := by
    rw [stream, hstreams]
    exact stream_modStream (stream_bounds hbufs) _
  have hframes : (e.proves n b l).frames = e.frames := (congrArg Engine.frames hframe.1 :)
  have hnone : (e.proves n b l).opens = [] := (congrArg Engine.opens hframe.1 :).trans hopens
  have hsetup : e.sameSetup (e.proves n b l) := sameSetup_of_onlyRegs (e := (e.modStream n _).withPac _) hframe fun off hoff =>
    Nat.lt_trans (confRegs_range hn off hoff).2 (by decide)
  have hpages : (e.proves n b l).pageOrderOk n (provedBuf b) = true := by
    rw [pageOrderOk_setup hsetup n hframes (b := b), horder]
    rw [provedBuf_lines, List.head?_map, Option.map_map]
    rfl
  rw [confirmBuf_only hbufs hlast, settleStream_confirmed (b := provedBuf b) (by rw [hstream]; rfl) (by rw [hstream]; exact hhalt)
    (by rw [hstream]; exact hreplay) hpages hnone hwith rfl, provedBuf_lines, List.length_map]

/-- The buffer completes OK, its last line is shown, its bytes count as confirmed. -/
theorem confirmBuf_completes : (e.confirmBuf n b.idx).told 0x02 n 0 (some b.hseq) b.idx ∧ (e.confirmBuf n b.idx).toldBytes (e.doneBytes n b l) ∧
    (e.confirmBuf n b.idx).rdPair (R.DMA_S_CONF_LO.V n) (R.DMA_S_CONF_HI.V n) = l.index % 2 ^ 48 ∧
    (e.confirmBuf n b.idx).pac = { e.pac with confirmed := e.pac.confirmed + linesBytes b.lines } ∧
    ((e.modStream n (provedEmpty l)).withPac (e.confirmBuf n b.idx).pac).onlyBooks (e.confirmBuf n b.idx) (confRegs n) := by
  rw [confirmBuf_done hn hbufs hhalt hreplay hlast horder hopens hwith]
  have hframe := e.proves_empties n b l
  have hpair : ((e.proves n b l).modStream n fun x => { x with bufs := [] }).rdPair (R.DMA_S_CONF_LO.V n) (R.DMA_S_CONF_HI.V n) = l.index % 2 ^ 48 :=
    rdPair_wrPair_48 (e.modStream n (proveOnly b l)) ⟨Nat.zero_le _, by dsimp only; omega⟩ ⟨Nat.zero_le _, by dsimp only; omega⟩ rfl rfl (by dsimp only; omega) l.index
  generalize ((e.proves n b l).modStream n fun x => { x with bufs := [] }) = x at hframe hpair ⊢
  have hr : x.resetting = none := (congrArg Engine.resetting hframe.1 :).trans hhears.1.1
  have hf : x.pins.failed = false := (congrArg (fun y => y.pins.failed) hframe.1 :).trans hhears.1.2
  have hsetup : e.sameSetup x := sameSetup_of_onlyRegs (e := (e.modStream n _).withPac _) hframe fun off hoff =>
    Nat.lt_trans (confRegs_range hn off hoff).2 (by decide)
  have hfast : x.rd R.DMA_FAST.word = e.rd R.DMA_FAST.word := onlyRegs_rd hframe fun hoff =>
    absurd (confRegs_range hn _ hoff).1 (by decide)
  have hbooks := x.bufDone_books n (provedBuf b) stOk b.lines.length true none (confRegs n)
  have hpac : (x.bufDone n (provedBuf b) stOk b.lines.length true none).pac =
      { e.pac with confirmed := e.pac.confirmed + linesBytes b.lines } := (congrArg Engine.pac hbooks.1 :).trans (congrArg Engine.pac hframe.1 :)
  refine ⟨bufDone_told hr hf n (provedBuf b) stOk b.lines.length true none, bufDone_freed hr hf hsetup hfast n hlast, ?_, hpac, ?_⟩
  · have hbare := x.bufDone_books n (provedBuf b) stOk b.lines.length true none []
    rw [← hpair, rdPair, rdPair, onlyBooks_rd hbare (confRegs_not_bookReg hn (by simp)) List.not_mem_nil,
      onlyBooks_rd hbare (confRegs_not_bookReg hn (by simp)) List.not_mem_nil]
  · rw [hpac]
    exact onlyBooks_trans (onlyBooks_of_onlyRegs hframe) hbooks

end

/-! ### Read-backs (R276, R277) -/

theorem failedBefore_head {x : Stream} {b : Buf} (hbufs : x.bufs = [b]) : failedBefore x b.idx = false := by
  rw [failedBefore, hbufs]
  simp

theorem modStream_modStream (e : Engine) (n : Nat) (f g : Stream → Stream) : (e.modStream n f).modStream n g = e.modStream n (g ∘ f) :=
  congrArg (fun y => ({ e with streams := y } : Engine)) (modAt_modAt ..)

theorem readbackOk_none {e : Engine} {n : Nat} (h : (e.stream n).rbs = []) : e.readbackOk n = e := by
  rw [readbackOk, h]
  rfl

theorem popReadback_eq {e : Engine} {n : Nat} {r : Option Nat} {more : List (Option Nat)} (h : (e.stream n).rbs = r :: more) :
    e.popReadback n = e.modStream n fun x => { x with rbs := more } := by
  refine congrArg (fun y => ({ e with streams := y } : Engine)) (modAt_congr (d := Stream.init) ?_)
  have hrbs : (e.streams.getD n Stream.init).rbs = r :: more := h
  rw [hrbs, List.drop_one, List.tail_cons]

theorem readbackOk_forgotten {e : Engine} {n : Nat} {more : List (Option Nat)} (h : (e.stream n).rbs = none :: more) :
    e.readbackOk n = e.modStream n fun x => { x with rbs := more } := by
  rw [← popReadback_eq h, readbackOk, h]
  rfl

theorem readbackOk_only {e : Engine} {n : Nat} {b : Buf} {more : List (Option Nat)} (hbufs : (e.stream n).bufs = [b])
    (h : (e.stream n).rbs = some b.idx :: more) : e.readbackOk n = (e.modStream n fun x => { x with rbs := more }).confirmBuf n b.idx := by
  rw [← popReadback_eq h, readbackOk, h]
  dsimp only [List.head?_cons]
  rw [failedBefore_head hbufs, if_neg Bool.false_ne_true]

section
variable {e : Engine} {n : Nat} {b : Buf} {l : StageLine} {more : List (Option Nat)} (hn : n < 16) (hbufs : (e.stream n).bufs = [b])
  (hhalt : (e.stream n).halted = false) (hreplay : (e.stream n).replaying = false) (hlast : b.lines.getLast? = some l)
  (horder : e.pageOrderOk n b = true) (hopens : e.opens = []) (hhears : e.hears) (hwith : b.withdrawn = false)
  (hrbs : (e.stream n).rbs = some b.idx :: more)
include hn hbufs hhalt hreplay hlast horder hopens hhears hwith hrbs

/-- A read-back that returns well proves its buffer (R276). -/
theorem readbackOk_completes : (e.readbackOk n).told 0x02 n 0 (some b.hseq) b.idx ∧ (e.readbackOk n).toldBytes (e.doneBytes n b l) ∧
    (e.readbackOk n).rdPair (R.DMA_S_CONF_LO.V n) (R.DMA_S_CONF_HI.V n) = l.index % 2 ^ 48 ∧
    (e.readbackOk n).pac = { e.pac with confirmed := e.pac.confirmed + linesBytes b.lines } ∧
    ((e.modStream n fun x => { x with bufs := [], rbs := more, conf := some (l.index, l.page, l.pageLine) }).withPac (e.readbackOk n).pac).onlyBooks
      (e.readbackOk n) (confRegs n) := by
  have hstream := stream_modStream (stream_bounds hbufs) fun x => { x with rbs := more }
  have hsetup : e.sameSetup (e.modStream n fun x => { x with rbs := more }) := fun _ _ => rfl
  obtain ⟨htold, hbytes, hpair, hpac, hbooks⟩ := confirmBuf_completes (e := e.modStream n fun x => { x with rbs := more }) (l := l) hn
    (by rw [hstream]; exact hbufs) (by rw [hstream]; exact hhalt) (by rw [hstream]; exact hreplay) hlast
    (by rw [pageOrderOk_setup hsetup n rfl rfl, horder]) hopens hhears hwith
  rw [modStream_modStream] at hbooks
  rw [readbackOk_only hbufs hrbs]
  exact ⟨htold, hbytes, hpair, hpac, hbooks⟩

end

end Engine

theorem exec_readbackCompletion (n : ChannelIx) (s : State) : exec (.readbackCompletion n) s =
    .next (s.onEng fun e => if n.val = 16 then e.fillReadback false else e.readbackOk n.val) := rfl

theorem exec_readbackError (n : ChannelIx) (kind : ReadErr) (s : State) : exec (.readbackError n kind) s =
    .next (s.onEng fun e => (if n.val = 16 then e.fillReadback true else e.readbackFail n.val kind).noteAer (.completion kind) none) := rfl

theorem exec_readbackCompletion_stream {n : ChannelIx} (hn : n.val < 16) (s : State) :
    exec (.readbackCompletion n) s = .next (s.onEng fun e => e.readbackOk n.val) := by
  rw [exec_readbackCompletion]
  simp only [if_neg (Nat.ne_of_lt hn)]

theorem exec_fastCompletionAck_found {n : StreamIx} {b : Buf} {s : State} (h : ((s.eng.stream n.val).bufs.find? fun x => x.confirm == .fast) = some b) :
    exec (.fastCompletionAck n) s = .next { s with eng := s.eng.confirmBuf n.val b.idx } := by
  change execFastCompletionAck n s = _
  unfold execFastCompletionAck State.onEng
  beta_reduce
  rw [h]

theorem exec_fastCompletionAck_none {n : StreamIx} {s : State} (h : ((s.eng.stream n.val).bufs.find? fun x => x.confirm == .fast) = none) :
    exec (.fastCompletionAck n) s = .next s := by
  change execFastCompletionAck n s = _
  unfold execFastCompletionAck State.onEng
  beta_reduce
  rw [h]

end Sys2Proof.Machine
end

section
/-!
PROOFS. How a read-back that fails halts its stream, and how a FILL ends (R280, R283).
-/

namespace Sys2Proof.Machine

namespace Engine

/-! ### The ring halts (R242, R280) -/

/-- Another set of rings. -/
def withRings (e : Engine) (r : List RingSt) : Engine := { e with rings := r }

theorem haltRing_frame (e : Engine) (n : Nat) (r : List RingSt) :
    (e.withRings r).onlyRegs ((e.haltRing n).withRings r) [(R.UHP_R_STATE.STATE (3 + n)).off] := by
  unfold haltRing
  split
  · rw [leaveRun, if_neg (by omega)]
    exact onlyRegs_map (f := fun x => x.withRings r) (wr_onlyRegs e 4 (List.mem_singleton_self _)) fun _ _ => rfl
  · exact onlyRegs_refl _ _

theorem haltRing_evt (e : Engine) (n : Nat) : (e.haltRing n).evt = e.evt := (congrArg Engine.evt (e.haltRing_frame n []).1 :)

theorem haltRing_resetting (e : Engine) (n : Nat) : (e.haltRing n).resetting = e.resetting := (congrArg Engine.resetting (e.haltRing_frame n []).1 :)

theorem haltRing_pins (e : Engine) (n : Nat) : (e.haltRing n).pins = e.pins := (congrArg Engine.pins (e.haltRing_frame n []).1 :)

theorem haltRing_streams (e : Engine) (n : Nat) : (e.haltRing n).streams = e.streams := (congrArg Engine.streams (e.haltRing_frame n []).1 :)

theorem haltRing_rd (e : Engine) (n : Nat) {f : Fld} (hf : f.off ≠ (R.UHP_R_STATE.STATE (3 + n)).off) : (e.haltRing n).rd f = e.rd f :=
  onlyRegs_rd (e.haltRing_frame n []) (by simpa using hf)

/-- A ring in RUN is in HALTED after it, any other stays where it is. -/
theorem haltRing_state (e : Engine) (n : Nat) :
    (e.haltRing n).ringState (3 + n) = if e.ringState (3 + n) = 1 then 4 else e.ringState (3 + n) := by
  unfold haltRing
  split
  · rw [leaveRun, if_neg (by omega)]
    exact rd_wr_lt e ⟨by dsimp only; omega, by dsimp only; omega⟩ (by decide : 4 < 2 ^ 4)
  · rfl

/-! ### The buffer fails -/

/-- A buffer whose read-back has failed. -/
def failedBuf (b : Buf) (kind : ReadErr) : Buf := { b with confirm := .failed kind }

/-- A stream of one buffer, whose read-back has failed and has left the list. -/
def failOnly (b : Buf) (kind : ReadErr) (more : List (Option Nat)) (x : Stream) : Stream := { x with rbs := more, bufs := [failedBuf b kind] }

/-- What a failed read-back sets down, before its buffer completes. -/
def fails (e : Engine) (n : Nat) (b : Buf) (kind : ReadErr) (more : List (Option Nat)) : Engine :=
  (e.modStream n (failOnly b kind more)).count R.DMA_RB_ERR_CNT.V 1

theorem fails_onlyRegs (e : Engine) (n : Nat) (b : Buf) (kind : ReadErr) (more : List (Option Nat)) :
    (e.modStream n (failOnly b kind more)).onlyRegs (e.fails n b kind more) [R.DMA_RB_ERR_CNT.V.off] :=
  wr_onlyRegs _ _ (List.mem_singleton_self _)

theorem readbackFail_only {e : Engine} {n : Nat} {b : Buf} {more : List (Option Nat)} (hbufs : (e.stream n).bufs = [b])
    (hwith : b.withdrawn = false) (hrbs : (e.stream n).rbs = some b.idx :: more) (kind : ReadErr) :
    e.readbackFail n kind = (e.fails n b kind more).settleStream n := by
  have hpop := popReadback_eq hrbs
  unfold readbackFail
  dsimp only
  rw [hrbs]
  dsimp only [List.head?_cons]
  rw [failedBefore_head hbufs, if_neg Bool.false_ne_true, hpop]
  refine congrArg (fun x : Engine => x.settleStream n) ?_
  refine congrArg (fun y => ({ e with streams := y } : Engine).count R.DMA_RB_ERR_CNT.V 1) (?_ : modAt (modAt e.streams n _) n _ = _)
  rw [modAt_modAt]
  refine modAt_congr (d := Stream.init) ?_
  have hb : (e.streams.getD n Stream.init).bufs = [b] := hbufs
  dsimp only [Function.comp, failOnly]
  rw [hb, modFirst_only (by simp), if_neg (by rw [hwith]; exact Bool.false_ne_true)]
  rfl

/-- What follows the failure: the buffer completes WRITTEN_UNCONFIRMED, its ring halts, STREAM_HALT is told (R280). -/
def failTold (x : Engine) (n : Nat) (b : Buf) (bytes : Nat) (kind : ReadErr) : Engine :=
  ((x.bufDone n b stUnconfirmed b.lines.length false none).haltRing n).haltTold n b bytes kind

section
variable {x : Engine} (n : Nat) (b : Buf) (bytes : Nat) (kind : ReadErr)

theorem failTold_streams : (x.failTold n b bytes kind).streams = x.streams := by
  have h1 : (x.bufDone n b stUnconfirmed b.lines.length false none).streams = x.streams := emitBk_streams ..
  have h2 (y : Engine) : (y.haltTold n b bytes kind).streams = y.streams := emitBk_streams ..
  rw [failTold, h2, haltRing_streams, h1]

/-- Only the ring's state changes beside the books. -/
theorem failTold_books (r : List RingSt) : (x.withRings r).onlyBooks ((x.failTold n b bytes kind).withRings r) [(R.UHP_R_STATE.STATE (3 + n)).off] := by
  have hdone := onlyBooks_map (x.bufDone_books n b stUnconfirmed b.lines.length false none [(R.UHP_R_STATE.STATE (3 + n)).off])
    (f := fun y => y.withRings r) fun _ _ _ _ _ => rfl
  have hring := onlyBooks_of_onlyRegs ((x.bufDone n b stUnconfirmed b.lines.length false none).haltRing_frame n r)
  have htold := onlyBooks_map (emitBk_books ((x.bufDone n b stUnconfirmed b.lines.length false none).haltRing n) 0x16 n 0 b.idx (some b.hseq)
    [(24, 8, b.tag), (32, 4, bytes), (36, 1, haltCode kind)] .none [(R.UHP_R_STATE.STATE (3 + n)).off]) (f := fun y => y.withRings r) fun _ _ _ _ _ => rfl
  exact onlyBooks_trans (onlyBooks_trans hdone hring) htold

section
variable (hroom : x.roomy)
include hroom

/-- EVT has taken BUF_DONE, then STREAM_HALT. -/
theorem failTold_says : x.says (x.failTold n b bytes kind) 0x02 n stUnconfirmed (some b.hseq) b.idx := by
  obtain ⟨⟨hr, hf⟩, hl, hq⟩ := hroom
  obtain ⟨v, hevt, hbrief⟩ := emitBk_queue hr hf hl (by omega) 0x02 n stUnconfirmed b.idx (some b.hseq) _
    (.buf (3 + n) (x.nextIdx (3 + n) b.idx) (false && !b.stale) _)
  have hqueue : (x.bufDone n b stUnconfirmed b.lines.length false none).evt.queue = x.evt.queue ++ [v] := (congrArg EvtQueue.queue hevt :)
  have hlost : (x.bufDone n b stUnconfirmed b.lines.length false none).evt.lost = none := (congrArg EvtQueue.lost hevt :).trans hl
  have hgrows : x.evt.queue ++ [v] <+: (x.failTold n b bytes kind).evt.queue := by
    rw [← hqueue, ← haltRing_evt _ n]
    refine (emitBk_extends ?_ ?_ ..).1
    · rw [haltRing_evt, hlost]
    · rw [haltRing_evt, hqueue, List.length_append]
      simp only [List.length_singleton]
      omega
  obtain ⟨h1, h2, h3, h4, h5⟩ : v.code = 0x02 ∧ v.subj = n ∧ v.status = stUnconfirmed ∧ v.hseq = some b.hseq ∧ v.arg = b.idx := by
    simpa only [Ev.brief, Prod.mk.injEq] using hbrief
  have hsays := says_of_extension hgrows
  rwa [h1, h2, h3, h4, h5] at hsays

theorem failTold_hears : ((x.bufDone n b stUnconfirmed b.lines.length false none).haltRing n).evt.queue.length < 256 := by
  obtain ⟨⟨hr, hf⟩, hl, hq⟩ := hroom
  rw [haltRing_evt]
  exact Nat.lt_of_le_of_lt (m := x.evt.queue.length + 1) (emitBk_extends hl (by omega) ..).2.2 (by omega)

theorem failTold_told : (x.failTold n b bytes kind).told 0x16 n 0 (some b.hseq) b.idx ∧
    (x.failTold n b bytes kind).toldBytes [(24, 8, b.tag), (32, 4, bytes), (36, 1, haltCode kind)] := by
  have hframe := x.bufDone_books n b stUnconfirmed b.lines.length false none []
  have hr : ((x.bufDone n b stUnconfirmed b.lines.length false none).haltRing n).resetting = none := by
    rw [haltRing_resetting]
    exact (congrArg Engine.resetting hframe.1 :).trans hroom.1.1
  have hf : ((x.bufDone n b stUnconfirmed b.lines.length false none).haltRing n).pins.failed = false := by
    rw [haltRing_pins]
    exact (congrArg (fun y => y.pins.failed) hframe.1 :).trans hroom.1.2
  exact ⟨emit_told _ hr hf .., emit_toldBytes _ hr hf ..⟩

theorem bufDone_rd (status k : Nat) (final : Bool) (nok : Option (Nat × Nat × Nat)) {f : Fld} (hf : f.off ≠ (R.QUE_LEVEL.LEVEL 64).off) :
    (x.bufDone n b status k final nok).rd f = x.rd f := emitBk_rd x (by omega) _ _ _ _ _ _ _ _ hf

/-- The ring is in HALTED where it was in RUN. -/
theorem failTold_state (hn : n < 16) :
    (x.failTold n b bytes kind).ringState (3 + n) = if x.ringState (3 + n) = 1 then 4 else x.ringState (3 + n) := by
  have hlevel : (R.UHP_R_STATE.STATE (3 + n)).off ≠ (R.QUE_LEVEL.LEVEL 64).off := by dsimp only; omega
  have hdone : (x.bufDone n b stUnconfirmed b.lines.length false none).ringState (3 + n) = x.ringState (3 + n) :=
    bufDone_rd n b hroom _ _ _ _ hlevel
  rw [← hdone, ← haltRing_state]
  exact emitBk_rd _ (failTold_hears n b hroom) _ _ _ _ _ _ _ _ hlevel

theorem failTold_rd {f : Fld} (hlevel : f.off ≠ (R.QUE_LEVEL.LEVEL 64).off) (hstate : f.off ≠ (R.UHP_R_STATE.STATE (3 + n)).off) :
    (x.failTold n b bytes kind).rd f = x.rd f := by
  rw [← bufDone_rd n b hroom stUnconfirmed b.lines.length false none hlevel,
    ← haltRing_rd (x.bufDone n b stUnconfirmed b.lines.length false none) n hstate]
  exact emitBk_rd _ (failTold_hears n b hroom) _ _ _ _ _ _ _ _ hlevel

end

end

/-! ### A read-back that fails (R280) -/

/-- A stream of one buffer whose read-back has failed: it has halted, the read-backs still out are of no effect. -/
def failedHalted (b : Buf) (kind : ReadErr) (more : List (Option Nat)) (x : Stream) : Stream :=
  { x with halted := true, rbs := more.map fun _ => none, bufs := [failedBuf b kind] }

/-- The stream halts. -/
def halts (x : Engine) (n : Nat) : Engine := (x.modStream n haltStream).forgetReads n

section
variable {e : Engine} {n : Nat} {b : Buf} {l : StageLine} {more : List (Option Nat)} (hbufs : (e.stream n).bufs = [b])
  (hhalt : (e.stream n).halted = false) (hreplay : (e.stream n).replaying = false) (hlast : b.lines.getLast? = some l)
  (horder : e.pageOrderOk n b = true) (hopens : e.opens = []) (hwith : b.withdrawn = false)
  (hrbs : (e.stream n).rbs = some b.idx :: more) (kind : ReadErr)
include hbufs hhalt hreplay hlast horder hopens hwith hrbs

theorem readbackFail_tells : e.readbackFail n kind =
    ((e.fails n b kind more).failTold n (failedBuf b kind) ((b.lines.length - 1) * e.strideOf n + e.lineLen n) kind).halts n := by
  have hframe := e.fails_onlyRegs n b kind more
  have hstreams : (e.fails n b kind more).streams = modAt e.streams n (failOnly b kind more) := (congrArg Engine.streams hframe.1 :)
  have hstream : (e.fails n b kind more).stream n = failOnly b kind more (e.stream n) := by
    rw [stream, hstreams]
    exact stream_modStream (stream_bounds hbufs) _
  have hframes : (e.fails n b kind more).frames = e.frames := (congrArg Engine.frames hframe.1 :)
  have hnone : (e.fails n b kind more).opens = [] := (congrArg Engine.opens hframe.1 :).trans hopens
  have hsetup : e.sameSetup (e.fails n b kind more) := sameSetup_of_onlyRegs (e := e.modStream n _) hframe (by simp)
  rw [readbackFail_only hbufs hwith hrbs, settleStream_failed (b := failedBuf b kind) (by rw [hstream]; rfl) (by rw [hstream]; exact hhalt)
    (by rw [hstream]; exact hreplay) (by rw [pageOrderOk_setup hsetup n hframes (b := b) (c := failedBuf b kind) rfl, horder]) hnone hwith rfl, bytesOf_setup hsetup]
  exact congrArg (fun k => ((e.fails n b kind more).failTold n (failedBuf b kind) k kind).halts n) (bytesOf_lines e n hlast)

end

/-- Other rings, streams and link. -/
def withLine (e : Engine) (r : List RingSt) (s : List Stream) (l : LinkSt) : Engine := { e with rings := r, streams := s, link := l }

section
variable {e : Engine} {n : Nat} (b : Buf) (more : List (Option Nat)) (kind : ReadErr) (bytes : Nat)

theorem fails_failTold_books (r : List RingSt) (s : List Stream) (l : LinkSt) :
    (e.withLine r s l).onlyBooks (((e.fails n b kind more).failTold n (failedBuf b kind) bytes kind).withLine r s l)
      [R.DMA_RB_ERR_CNT.V.off, (R.UHP_R_STATE.STATE (3 + n)).off] := by
  have hcount := onlyRegs_map (e.fails_onlyRegs n b kind more) (f := fun y => y.withLine r s l) fun _ _ => rfl
  have htold := onlyBooks_map (failTold_books (x := e.fails n b kind more) n (failedBuf b kind) bytes kind r)
    (f := fun y => ({ y with streams := s, link := l } : Engine)) fun _ _ _ _ _ => rfl
  exact onlyBooks_trans (onlyBooks_of_onlyRegs (onlyRegs_mono hcount (by simp))) (onlyBooks_mono htold (by simp))

/-- Where no read-back of the stream waits to be issued, its halt forgets those outstanding alone. -/
theorem halts_noteAer {x : Engine} (howed : ∀ o ∈ x.dma.owed, o.1 ≠ n) (k : AerKind) : (x.halts n).noteAer k none =
    x.withLine ((x.halts n).noteAer k none).rings ((x.halts n).noteAer k none).streams ((x.halts n).noteAer k none).link := by
  have hfilter : (x.dma.owed.filter fun r => r.1 != n) = x.dma.owed := List.filter_eq_self.mpr fun o ho => by simpa using howed o ho
  have hdma : ((x.halts n).noteAer k none).dma = x.dma := congrArg (fun y => ({ x.dma with owed := y } : DmaSt)) hfilter
  have hself : (x.halts n).noteAer k none =
      { x with rings := ((x.halts n).noteAer k none).rings, streams := ((x.halts n).noteAer k none).streams, link := ((x.halts n).noteAer k none).link, dma := ((x.halts n).noteAer k none).dma } := rfl
  rw [hself, hdma]
  rfl

end

section
variable {e : Engine} {n : Nat} {b : Buf} {l : StageLine} {more : List (Option Nat)} (hn : n < 16) (hbufs : (e.stream n).bufs = [b])
  (hhalt : (e.stream n).halted = false) (hreplay : (e.stream n).replaying = false) (hlast : b.lines.getLast? = some l)
  (horder : e.pageOrderOk n b = true) (hopens : e.opens = []) (hroom : e.roomy) (hwith : b.withdrawn = false)
  (hrbs : (e.stream n).rbs = some b.idx :: more) (howed : ∀ o ∈ e.dma.owed, o.1 ≠ n) (kind : ReadErr)
include hn hbufs hhalt hreplay hlast horder hopens hroom hwith hrbs howed

/-- A read-back that fails leaves its buffer WRITTEN_UNCONFIRMED and the ring in HALTED (R280). -/
theorem readbackFail_halts (t : Engine) (ht : t = (e.readbackFail n kind).noteAer (.completion kind) none) :
    e.says t 0x02 n 6 (some b.hseq) b.idx ∧ t.told 0x16 n 0 (some b.hseq) b.idx ∧
    t.toldBytes [(24, 8, b.tag), (32, 4, (b.lines.length - 1) * e.strideOf n + e.lineLen n), (36, 1, haltCode kind)] ∧
    t.ringState (3 + n) = (if e.ringState (3 + n) = 1 then 4 else e.ringState (3 + n)) ∧
    t.rd (R.UHP_R_DONE.V (3 + n)) = e.rd (R.UHP_R_DONE.V (3 + n)) ∧ t.rd R.DMA_RB_ERR_CNT.V = min (2 ^ 32 - 1) (e.rd R.DMA_RB_ERR_CNT.V + 1) ∧
    t.streams = modAt e.streams n (failedHalted b kind more) ∧
    (e.withLine t.rings t.streams { e.link with aer := e.link.aer ++ [.completion kind], aerCor := t.link.aerCor, aerUnc := t.link.aerUnc }).onlyBooks t
      [R.DMA_RB_ERR_CNT.V.off, (R.UHP_R_STATE.STATE (3 + n)).off] := by
  rw [readbackFail_tells hbufs hhalt hreplay hlast horder hopens hwith hrbs] at ht
  have hframe := e.fails_onlyRegs n b kind more
  have hbooks := fails_failTold_books (e := e) (n := n) b more kind ((b.lines.length - 1) * e.strideOf n + e.lineLen n)
  have hcount : (e.fails n b kind more).rd R.DMA_RB_ERR_CNT.V = min (2 ^ 32 - 1) (e.rd R.DMA_RB_ERR_CNT.V + 1) :=
    rd_count_same (e.modStream n (failOnly b kind more)) (f := R.DMA_RB_ERR_CNT.V) ⟨by decide, by decide⟩ 1
  have hroom' : (e.fails n b kind more).roomy := by
    rw [hframe.1]
    exact hroom
  have hevt : (e.fails n b kind more).evt = e.evt := (congrArg Engine.evt hframe.1 :)
  have hstreams : (e.fails n b kind more).streams = modAt e.streams n (failOnly b kind more) := (congrArg Engine.streams hframe.1 :)
  have hrd {f : Fld} (hf : f.off ≠ R.DMA_RB_ERR_CNT.V.off) : (e.fails n b kind more).rd f = e.rd f := onlyRegs_rd hframe (by simpa using hf)
  have hlink : (e.fails n b kind more).link = e.link := (congrArg Engine.link hframe.1 :)
  have hdma : (e.fails n b kind more).dma = e.dma := (congrArg Engine.dma hframe.1 :)
  generalize e.fails n b kind more = x at *
  have hsays := failTold_says n (failedBuf b kind) ((b.lines.length - 1) * e.strideOf n + e.lineLen n) kind hroom'
  obtain ⟨htold, hbytes⟩ := failTold_told n (failedBuf b kind) ((b.lines.length - 1) * e.strideOf n + e.lineLen n) kind hroom'
  have hstate := failTold_state n (failedBuf b kind) ((b.lines.length - 1) * e.strideOf n + e.lineLen n) kind hroom' hn
  have hkeep := fun {f : Fld} => failTold_rd n (failedBuf b kind) ((b.lines.length - 1) * e.strideOf n + e.lineLen n) kind hroom' (f := f)
  have hlines := failTold_streams (x := x) n (failedBuf b kind) ((b.lines.length - 1) * e.strideOf n + e.lineLen n) kind
  have htold' := failTold_books (x := x) n (failedBuf b kind) ((b.lines.length - 1) * e.strideOf n + e.lineLen n) kind []
  have hlink' : (x.failTold n (failedBuf b kind) ((b.lines.length - 1) * e.strideOf n + e.lineLen n) kind).link = x.link :=
    (congrArg Engine.link htold'.1 :)
  have hdma' : (x.failTold n (failedBuf b kind) ((b.lines.length - 1) * e.strideOf n + e.lineLen n) kind).dma = x.dma :=
    (congrArg Engine.dma htold'.1 :)
  generalize x.failTold n (failedBuf b kind) ((b.lines.length - 1) * e.strideOf n + e.lineLen n) kind = y at *
  have hwithLine := hbooks t.rings t.streams
    { e.link with aer := e.link.aer ++ [.completion kind], aerCor := t.link.aerCor, aerUnc := t.link.aerUnc }
  have hshape := halts_noteAer (x := y) (by rw [hdma', hdma]; exact howed) (.completion kind)
  have htlink : t.link = { e.link with aer := e.link.aer ++ [.completion kind], aerCor := t.link.aerCor, aerUnc := t.link.aerUnc } := by
    rw [← hlink, ← hlink', ht]
    rfl
  rw [← ht, htlink] at hshape
  rw [← hshape] at hwithLine
  rw [Engine.says, hevt] at hsays
  have htevt : t.evt = y.evt := by rw [ht]; rfl
  have htrd (f : Fld) : t.rd f = y.rd f := by rw [ht]; rfl
  have htstreams : t.streams = modAt e.streams n (failedHalted b kind more) := by
    have h : t.streams = modAt (modAt y.streams n haltStream) n fun x => { x with rbs := x.rbs.map fun _ => none } := by rw [ht]; rfl
    rw [h, hlines, hstreams, modAt_modAt, modAt_modAt]
    refine modAt_congr (d := Stream.init) ?_
    have hr : (e.streams.getD n Stream.init).replaying = false := hreplay
    dsimp only [Function.comp, failOnly, haltStream, failedHalted]
    rw [hr]
  refine ⟨?_, ?_, ?_, ?_, ?_, ?_, htstreams, hwithLine⟩
  · rw [Engine.says, htevt]
    exact hsays
  · rw [Engine.told, htevt]
    exact htold
  · rw [Engine.toldBytes, htevt]
    exact hbytes
  · have hring : x.ringState (3 + n) = e.ringState (3 + n) := hrd (by dsimp only; omega)
    rw [ringState, htrd, ← hring]
    exact hstate
  · rw [htrd, hkeep (by dsimp only; omega) (by dsimp only; omega), hrd (by dsimp only; omega)]
  · rw [htrd, hkeep (by decide) (by dsimp only; omega), hcount]

end

/-! ### The command at the head of the command channel ends -/

/-- The command channel goes on with other work. -/
def withWork (e : Engine) (l : List DmaWork) : Engine := { e with dma := { e.dma with work := l } }

theorem setWork_over {e : Engine} {v : DmaWork} {rest : List DmaWork} (h : e.dma.work = v :: rest) : e.setWork none = e.withWork rest := by
  rw [setWork, h]
  rfl

section
variable {e : Engine} {h : Nat} {c : OpenCmd} (hfound : (e.opens.find? fun o => o.hseq == h && o.wait != Wait.built) = some c)
include hfound

theorem finishHseq_found (st : Nat) (r : List LayField) : e.finishHseq h st r = e.finish c st r := by rw [finishHseq, hfound]

/-- A command found by its HSEQ is answered, and nothing else changes but the books. -/
theorem finishHseq_answers (hr : e.resetting = none) (hf : e.pins.failed = false) (st : Nat) (r : List LayField) :
    (e.finishHseq h st r).answered h c.code st ∧ (e.finishHseq h st r).toldBytes ([(24, 8, c.tag), (32, 1, c.code)] ++ r) ∧
    e.onlyBooks (e.finishHseq h st r) [] := by
  have hseq : c.hseq = h := by
    have hp := List.find?_some hfound
    simp only [Bool.and_eq_true, beq_iff_eq] at hp
    exact hp.1
  rw [finishHseq_found hfound]
  exact ⟨hseq ▸ finish_answered e hr hf c st r, finish_toldBytes hr hf c st r, finish_books e c st r []⟩

end

/-! ### The read-back of a FILL (R283) -/

section
variable {e : Engine} {h addr len pat w : Nat} {rest : List DmaWork} (hwork : e.dma.work = .fill h addr len pat w len true :: rest)
include hwork

theorem fillReadback_ok : e.fillReadback false = (e.withWork rest).finishHseq h stOk [(40, 4, len)] := by
  rw [fillReadback, hwork]
  exact congrArg (fun x : Engine => x.finishHseq h stOk [(40, 4, len)]) (setWork_over hwork)

theorem fillReadback_failed : e.fillReadback true = ((e.count R.DMA_RB_ERR_CNT.V 1).withWork rest).finishHseq h stUnconfirmed [(40, 4, len)] := by
  have hcounted : (e.count R.DMA_RB_ERR_CNT.V 1).dma.work = .fill h addr len pat w len true :: rest := hwork
  rw [fillReadback, hwork]
  exact congrArg (fun x : Engine => x.finishHseq h stUnconfirmed [(40, 4, len)]) (setWork_over hcounted)

end

/-- Another link. -/
def withLink (e : Engine) (l : LinkSt) : Engine := { e with link := l }

theorem noteAer_eq (x : Engine) (k : AerKind) : x.noteAer k none = x.withLink
    { x.link with aer := x.link.aer ++ [k], aerCor := (x.noteAer k none).link.aerCor, aerUnc := (x.noteAer k none).link.aerUnc } := rfl

theorem noteAer_evt (x : Engine) (k : AerKind) (header : Option (List Word)) : (x.noteAer k header).evt = x.evt := rfl

/-- An error noted on the link alone, before events and answers or after them, is the same. -/
theorem noteAer_books {e x t : Engine} {offs : List Nat} (hframe : e.onlyBooks x offs) {k : AerKind} (ht : t = x.noteAer k none) :
    (e.withLink { e.link with aer := e.link.aer ++ [k], aerCor := t.link.aerCor, aerUnc := t.link.aerUnc }).onlyBooks t offs := by
  have hlink : x.link = e.link := (congrArg Engine.link hframe.1 :)
  have hshape := noteAer_eq x k
  rw [← ht, hlink] at hshape
  have hmap := onlyBooks_map hframe (f := fun y => y.withLink { e.link with aer := e.link.aer ++ [k], aerCor := t.link.aerCor, aerUnc := t.link.aerUnc })
    fun _ _ _ _ _ => rfl
  rw [← hshape] at hmap
  exact hmap

end Engine

theorem exec_readbackError_stream {n : ChannelIx} (hn : n.val < 16) (kind : ReadErr) (s : State) :
    exec (.readbackError n kind) s = .next (s.onEng fun e => (e.readbackFail n.val kind).noteAer (.completion kind) none) := by
  rw [exec_readbackError]
  simp only [if_neg (Nat.ne_of_lt hn)]

theorem exec_readbackCompletion_fill {n : ChannelIx} (hn : n.val = 16) (s : State) :
    exec (.readbackCompletion n) s = .next (s.onEng fun e => e.fillReadback false) := by
  rw [exec_readbackCompletion]
  simp only [if_pos hn]

theorem exec_readbackError_fill {n : ChannelIx} (hn : n.val = 16) (kind : ReadErr) (s : State) :
    exec (.readbackError n kind) s = .next (s.onEng fun e => (e.fillReadback true).noteAer (.completion kind) none) := by
  rw [exec_readbackError]
  simp only [if_pos hn]

open Engine in
/-- Settles O41: a buffer proved, by read-back or by Ack, or failed, completes alone at the head of its stream; a FILL ends with its read-back. -/
theorem confirmations : Obligations.Confirmations := by
  unfold Obligations.Confirmations
  refine ⟨?_, ?_, ?_, ?_, ?_, ?_, ?_, ?_⟩
  case refine_1 =>
    intro n b l more s hn hbufs _ hhalt hreplay hlast horder hopens hhears hwith hrbs
    exact ⟨_, exec_readbackCompletion_stream hn s, s.onEng_engineOnly _,
      readbackOk_completes hn hbufs hhalt hreplay hlast horder hopens hhears hwith hrbs⟩
  case refine_2 =>
    intro n b l s hbufs hfast hhalt hreplay hlast horder hopens hhears hwith
    have hfound : ((s.eng.stream n.val).bufs.find? fun x => x.confirm == .fast) = some b := by rw [hbufs]; simp [hfast]
    exact ⟨_, exec_fastCompletionAck_found hfound, ⟨rfl, rfl, rfl⟩,
      confirmBuf_completes n.isLt hbufs hhalt hreplay hlast horder hopens hhears hwith⟩
  case refine_3 =>
    intro n s hnone
    exact ⟨s, exec_fastCompletionAck_none hnone, ⟨rfl, rfl, rfl⟩, rfl⟩
  case refine_4 =>
    intro n s hn hrbs
    exact ⟨_, exec_readbackCompletion_stream hn s, s.onEng_engineOnly _, readbackOk_none hrbs⟩
  case refine_5 =>
    intro n more s hn hrbs
    exact ⟨_, exec_readbackCompletion_stream hn s, s.onEng_engineOnly _, readbackOk_forgotten hrbs⟩
  case refine_6 =>
    intro n b l more kind s hn hbufs _ hhalt hreplay hlast horder hopens hroom hwith hrbs howed
    obtain ⟨hsays, htold, hbytes, hrest⟩ := readbackFail_halts hn hbufs hhalt hreplay hlast horder hopens hroom hwith hrbs howed kind _ rfl
    refine ⟨_, exec_readbackError_stream hn kind s, s.onEng_engineOnly _, hsays, htold, ?_, hrest⟩
    cases kind <;> exact hbytes
  case refine_7 =>
    intro n h addr len pat w rest c s hn hwork hfound hhears
    refine ⟨_, exec_readbackCompletion_fill hn s, s.onEng_engineOnly _, ?_⟩
    rw [State.onEng_eng, fillReadback_ok hwork]
    exact finishHseq_answers (e := s.eng.withWork rest) hfound hhears.1.1 hhears.1.2 stOk [(40, 4, len)]
  case refine_8 =>
    intro n h addr len pat w rest c s hn hwork hfound hhears
    refine ⟨_, exec_readbackError_fill hn .timeout s, s.onEng_engineOnly _, ?_⟩
    rw [State.onEng_eng, fillReadback_failed hwork]
    have hframe : (s.eng.withWork rest).onlyBooks ((s.eng.count R.DMA_RB_ERR_CNT.V 1).withWork rest) [R.DMA_RB_ERR_CNT.V.off] :=
      onlyBooks_of_onlyRegs (onlyRegs_map (f := fun y => y.withWork rest) (wr_onlyRegs s.eng _ (List.mem_singleton_self _)) fun _ _ => rfl)
    have hcount : ((s.eng.count R.DMA_RB_ERR_CNT.V 1).withWork rest).rd R.DMA_RB_ERR_CNT.V = min (2 ^ 32 - 1) (s.eng.rd R.DMA_RB_ERR_CNT.V + 1) :=
      rd_count_same s.eng (f := R.DMA_RB_ERR_CNT.V) ⟨by decide, by decide⟩ 1
    obtain ⟨hanswered, hbytes, hbooks⟩ := finishHseq_answers (e := (s.eng.count R.DMA_RB_ERR_CNT.V 1).withWork rest) hfound hhears.1.1 hhears.1.2
      stUnconfirmed [(40, 4, len)]
    refine ⟨hanswered, hbytes, ?_, noteAer_books (onlyBooks_trans hframe (onlyBooks_mono hbooks (by simp))) rfl⟩
    rw [← hcount]
    exact onlyBooks_rd hbooks (not_bookReg_memory (by decide) (by decide)) List.not_mem_nil

end Sys2Proof.Machine
end

section
/-!
PROOFS. What completions of host reads bring (R284, R285).
-/

namespace Sys2Proof.Machine

/-! ### Words out of bytes -/

theorem sliceBytes_getElem? {k j : Nat} (hj : j < k) (l : List Byte) (off : Nat) : (sliceBytes l off k)[j]? = some (l.getD (off + j) 0) := by
  unfold sliceBytes
  rw [List.getElem?_take_of_lt hj, List.getElem?_append, List.length_drop, List.getD_eq_getElem?_getD]
  split
  next hin => rw [List.getElem?_drop, List.getElem?_eq_getElem (by omega), Option.getD_some]
  next hout =>
    rw [List.getElem?_replicate_of_lt (by omega), List.getElem?_eq_none (by omega)]
    rfl

theorem sliceBytes_sliceBytes {off n r : Nat} (h : off + n ≤ r) (l : List Byte) : sliceBytes (sliceBytes l 0 r) off n = sliceBytes l off n := by
  refine List.ext_getElem? fun i => ?_
  by_cases hi : i < n
  · rw [sliceBytes_getElem? hi, sliceBytes_getElem? hi, List.getD_eq_getElem?_getD, sliceBytes_getElem? (by omega), Option.getD_some, Nat.zero_add]
  · rw [List.getElem?_eq_none (by rw [sliceBytes_length]; omega), List.getElem?_eq_none (by rw [sliceBytes_length]; omega)]

namespace Engine

/-! ### Coefficients of a bank (R108, R285) -/

/-- A received word is stored at its place. -/
def putCoef (first bank off : Nat) (d : List Byte) (x : Engine) (k : Nat) : Engine :=
  x.setWord (coefOff (first + (off + 4 * k) / 4096) bank ((off + 4 * k) % 4096 / 4)) (BitVec.ofNat 32 (leAt d (4 * k) 4))

theorem putCoef_cons (first bank off : Nat) (b0 b1 b2 b3 : Byte) (d : List Byte) (x : Engine) (k : Nat) :
    putCoef first bank off (b0 :: b1 :: b2 :: b3 :: d) x (k + 1) = putCoef first bank (off + 4) d x k := by
  have hoff : off + 4 * (k + 1) = off + 4 + 4 * k := by omega
  have hd : leAt (b0 :: b1 :: b2 :: b3 :: d) (4 * (k + 1)) 4 = leAt d (4 * k) 4 := rfl
  rw [putCoef, putCoef, hoff, hd]

theorem putCoefs_eq (first bank m : Nat) : ∀ (off : Nat) {d : List Byte} (_ : d.length = 4 * m) (e : Engine),
    e.putCoefs first bank off d = (upTo m).foldl (putCoef first bank off d) e := by
  induction m with
  | zero =>
    intro off d hd e
    rw [List.length_eq_zero_iff.mp hd]
    rfl
  | succ m ih =>
    intro off d hd e
    obtain ⟨b0, b1, b2, b3, t, rfl⟩ : ∃ b0 b1 b2 b3 t, d = b0 :: b1 :: b2 :: b3 :: t := by
      match d, hd with
      | b0 :: b1 :: b2 :: b3 :: t, _ => exact ⟨b0, b1, b2, b3, t, rfl⟩
    have ht : t.length = 4 * m := by
      simp only [List.length_cons] at hd
      omega
    rw [upTo, List.range_succ_eq_map, List.foldl_cons, List.foldl_map, putCoefs, ih (off + 4) ht]
    simp only [putCoef_cons]
    rfl

/-- The place of a word of a bank. -/
abbrev coefPlace (first bank off k : Nat) : Nat := 0x80000 + 0x2000 * (first + (off + 4 * k) / 4096) + 0x1000 * bank + (off + 4 * k) % 4096

/-- The places of the words of a read. -/
abbrev coefPlaces (first bank off m : Nat) : List Nat := (upTo m).map (coefPlace first bank off)

theorem coefOff_eq {off : Nat} (hoff : off % 4 = 0) (first bank k : Nat) :
    coefOff (first + (off + 4 * k) / 4096) bank ((off + 4 * k) % 4096 / 4) = coefPlace first bank off k := by
  unfold coefOff coefPlace
  omega

section
variable (e : Engine) {off r : Nat} (hoff : off % 4 = 0) (hr : r % 4 = 0) (first bank : Nat) (l : List Byte)
include hoff hr

theorem putCoefs_onlyRegs : e.onlyRegs (e.putCoefs first bank off (sliceBytes l 0 r)) (coefPlaces first bank off (r / 4)) := by
  rw [putCoefs_eq first bank (r / 4) off (by rw [sliceBytes_length]; omega)]
  exact foldl_onlyRegs (fun x k hk => setWord_onlyRegs x _ (coefOff_eq hoff first bank k ▸ List.mem_map_of_mem hk)) e

/-- Each word stands at its place. -/
theorem putCoefs_word {k : Nat} (hk : k < r / 4) :
    (e.putCoefs first bank off (sliceBytes l 0 r)).word (coefPlace first bank off k) = BitVec.ofNat 32 (leAt l (4 * k) 4) := by
  have hslice : leAt (sliceBytes l 0 r) (4 * k) 4 = leAt l (4 * k) 4 := by rw [leAt, leAt, sliceBytes_sliceBytes (by omega)]
  rw [putCoefs_eq first bank (r / 4) off (by rw [sliceBytes_length]; omega)]
  refine foldl_puts (fun x => x.word (coefPlace first bank off k)) (List.mem_range.mpr hk) List.nodup_range (fun x => ?_) (fun x j _ hj => ?_) e
  · rw [putCoef, coefOff_eq hoff, word_setWord_same, hslice]
  · rw [putCoef, coefOff_eq hoff]
    exact word_setWord_ne x _ (by unfold coefPlace; omega)

end

/-- The registers of the named channels' banks. -/
abbrev bankRegs (first count : Nat) : List Nat := (upTo count).map fun j => (R.SHD_CH_BANK.word (first + j)).off

theorem setBanks_bankRegs (e : Engine) (first count bank st : Nat) : e.onlyRegs (e.setBanks first count bank st) (bankRegs first count) := by
  refine foldl_onlyRegs (fun x i hi => wr_onlyRegs (f := bankField (first + i) bank) x st ?_) e
  rw [bankField_off]
  exact List.mem_map_of_mem (f := fun j => (R.SHD_CH_BANK.word (first + j)).off) hi

theorem setBanks_rd (e : Engine) {j count : Nat} (hj : j < count) (first bank : Nat) {st : Nat} (hst : st < 4) :
    (e.setBanks first count bank st).rd (if bank = 0 then R.SHD_CH_BANK.ASTATE (first + j) else R.SHD_CH_BANK.BSTATE (first + j)) = st :=
  e.bankState_setBanks hj first bank hst

/-! ### A completion arrives -/

/-- A completion has passed the buffer of the host's reads (R222). -/
def readArrived (e : Engine) (l : List Byte) : Engine := e.passes 97 (beats l.length)

theorem readArrived_onlyRegs (e : Engine) (l : List Byte) : e.onlyRegs (e.readArrived l) [(R.QUE_LEVEL.LEVEL 97).off] := passes_onlyRegs e 97 _

theorem readArrived_dma (e : Engine) (l : List Byte) : (e.readArrived l).dma = e.dma := (congrArg Engine.dma (e.readArrived_onlyRegs l).1 :)

theorem readArrived_opens (e : Engine) (l : List Byte) : (e.readArrived l).opens = e.opens := (congrArg Engine.opens (e.readArrived_onlyRegs l).1 :)

theorem withWork_frame {e x : Engine} {offs : List Nat} (h : e.onlyRegs x offs) (w : List DmaWork) : (e.withWork w).onlyRegs (x.withWork w) offs :=
  onlyRegs_map (f := fun y => y.withWork w) h fun _ _ => rfl

/-- The work after a read has failed: what is still out is of no effect. -/
abbrev afterFailure (reads : List Nat) (rest : List DmaWork) : List DmaWork := if reads = [] then rest else .spent reads.length :: rest

theorem overWork_eq {e : Engine} {v : DmaWork} {rest : List DmaWork} (h : e.dma.work = v :: rest) (reads : List Nat) :
    e.overWork reads = e.withWork (afterFailure reads rest) := by
  cases reads with
  | nil => exact setWork_over h
  | cons r t => exact setWork_head h _

/-! ### LOAD_BANK (R285) -/

section
variable {e : Engine} {h addr first count bank asked got r : Nat} {reads : List Nat} {rest : List DmaWork}
  (hwork : e.dma.work = .bank h addr first count bank asked got (r :: reads) :: rest)
include hwork

theorem hostRead_bankPart (hpart : got + r ≠ 4096 * count) (l : List Byte) : e.hostRead l none =
    ((e.readArrived l).putCoefs first bank got (sliceBytes l 0 r)).setWork (some (.bank h addr first count bank asked (got + r) reads)) := by
  unfold hostRead
  dsimp only
  rw [show (e.passes 97 (beats l.length)).dma = e.dma from e.readArrived_dma l, hwork]
  exact if_neg hpart

theorem hostRead_bankLast (hlast : got + r = 4096 * count) (l : List Byte) : e.hostRead l none =
    ((((e.readArrived l).putCoefs first bank got (sliceBytes l 0 r)).setWork none).setBanks first count bank 1).finishHseq h stOk [] := by
  unfold hostRead
  dsimp only
  rw [show (e.passes 97 (beats l.length)).dma = e.dma from e.readArrived_dma l, hwork]
  exact if_pos hlast

theorem hostRead_bankError (l : List Byte) (err : ReadErr) : e.hostRead l (some err) =
    (((e.readArrived l).overWork reads).setBanks first count bank 0).finishHseq h stHostReadError [] := by
  unfold hostRead
  dsimp only
  rw [show (e.passes 97 (beats l.length)).dma = e.dma from e.readArrived_dma l, hwork]
  rfl

variable (hgot : got % 4 = 0) (hr : r % 4 = 0)
include hgot hr

/-- Words of a bank that arrive before the last are stored. -/
theorem hostRead_bankPart_stores (hpart : got + r ≠ 4096 * count) (l : List Byte) :
    (∀ k, k < r / 4 → (e.hostRead l none).word (coefPlace first bank got k) = BitVec.ofNat 32 (leAt l (4 * k) 4)) ∧
    (e.withWork (.bank h addr first count bank asked (got + r) reads :: rest)).onlyRegs (e.hostRead l none)
      ((R.QUE_LEVEL.LEVEL 97).off :: coefPlaces first bank got (r / 4)) := by
  have hframe : e.onlyRegs ((e.readArrived l).putCoefs first bank got (sliceBytes l 0 r)) ((R.QUE_LEVEL.LEVEL 97).off :: coefPlaces first bank got (r / 4)) :=
    onlyRegs_append (e.readArrived_onlyRegs l) (putCoefs_onlyRegs _ hgot hr first bank l)
  have hword := fun k hk => putCoefs_word (e.readArrived l) hgot hr first bank l (k := k) hk
  rw [hostRead_bankPart hwork hpart]
  generalize (e.readArrived l).putCoefs first bank got (sliceBytes l 0 r) = x at hframe hword ⊢
  have hdma : x.dma.work = .bank h addr first count bank asked got (r :: reads) :: rest := (congrArg (fun y => y.dma.work) hframe.1 :).trans hwork
  rw [setWork_head hdma]
  exact ⟨hword, withWork_frame hframe _⟩

end

/-- The named banks take a state, then their LOAD_BANK is answered. -/
def bankOver (x : Engine) (h first count bank st status : Nat) : Engine := (x.setBanks first count bank st).finishHseq h status []

section
variable {x : Engine} {h first count : Nat} {c : OpenCmd} (hfound : (x.opens.find? fun o => o.hseq == h && o.wait != Wait.built) = some c)
  (hhears : x.hears) (bank : Nat) {st : Nat} (hst : st < 4) (status : Nat)
include hfound hhears

theorem bankOver_answers : (x.setBanks first count bank st).onlyBooks (x.bankOver h first count bank st status) [] ∧
    (x.bankOver h first count bank st status).answered h c.code status := by
  have hframe := x.setBanks_bankRegs first count bank st
  have hopens : (x.setBanks first count bank st).opens = x.opens := (congrArg Engine.opens hframe.1 :)
  obtain ⟨⟨hr, hf⟩, -⟩ := onlyRegs_hears hframe hhears
  obtain ⟨hanswered, -, hbooks⟩ := finishHseq_answers (e := x.setBanks first count bank st) (hopens ▸ hfound) hr hf status []
  exact ⟨hbooks, hanswered⟩

include hst in
theorem bankOver_rd {j : Nat} (hj : j < count) : (x.bankOver h first count bank st status).rd
    (if bank = 0 then R.SHD_CH_BANK.ASTATE (first + j) else R.SHD_CH_BANK.BSTATE (first + j)) = st := by
  refine (onlyBooks_rd (f := bankField (first + j) bank) (bankOver_answers hfound hhears bank status).1 (not_bookReg_beside (Or.inr ?_))
    List.not_mem_nil).trans (x.setBanks_rd hj first bank hst)
  rw [bankField_off]
  dsimp only
  omega

/-- No word of a bank's coefficients changes. -/
theorem bankOver_word (hcount : first + count ≤ 64) {off : Nat} (hoff : 0x80000 ≤ off) :
    (x.bankOver h first count bank st status).word off = x.word off := by
  rw [(bankOver_answers hfound hhears bank status).1.2 off (not_bookReg_beside (Or.inr (by omega))) List.not_mem_nil]
  refine (x.setBanks_bankRegs first count bank st).2 off fun hmem => ?_
  obtain ⟨j, hj, rfl⟩ := List.mem_map.mp hmem
  have hlt : j < count := List.mem_range.mp hj
  dsimp only at hoff
  omega

theorem bankOver_books {e : Engine} {offs : List Nat} (hframe : e.onlyRegs x offs) :
    e.onlyBooks (x.bankOver h first count bank st status) (offs ++ bankRegs first count) :=
  onlyBooks_trans (onlyBooks_of_onlyRegs (onlyRegs_append hframe (x.setBanks_bankRegs first count bank st)))
    (onlyBooks_mono (bankOver_answers hfound hhears bank status).1 (by simp))

end

section
variable {e : Engine} {h addr first count bank asked got r : Nat} {reads : List Nat} {rest : List DmaWork}
  (hwork : e.dma.work = .bank h addr first count bank asked got (r :: reads) :: rest) {c : OpenCmd} (hcount : first + count ≤ 64)
  (hfound : (e.opens.find? fun o => o.hseq == h && o.wait != Wait.built) = some c) (hhears : e.hears)
include hwork hcount hfound hhears

/-- The last words of a bank make the named banks VALID and complete LOAD_BANK OK. -/
theorem hostRead_bankLast_completes (hgot : got % 4 = 0) (hr : r % 4 = 0) (hlast : got + r = 4096 * count) (l : List Byte) :
    (∀ k, k < r / 4 → (e.hostRead l none).word (coefPlace first bank got k) = BitVec.ofNat 32 (leAt l (4 * k) 4)) ∧
    (∀ j, j < count →
      (e.hostRead l none).rd (if bank = 0 then R.SHD_CH_BANK.ASTATE (first + j) else R.SHD_CH_BANK.BSTATE (first + j)) = 1) ∧
    (e.hostRead l none).answered h c.code stOk ∧
    (e.withWork rest).onlyBooks (e.hostRead l none)
      ((R.QUE_LEVEL.LEVEL 97).off :: coefPlaces first bank got (r / 4) ++ bankRegs first count) := by
  have hframe : e.onlyRegs ((e.readArrived l).putCoefs first bank got (sliceBytes l 0 r)) ((R.QUE_LEVEL.LEVEL 97).off :: coefPlaces first bank got (r / 4)) :=
    onlyRegs_append (e.readArrived_onlyRegs l) (putCoefs_onlyRegs _ hgot hr first bank l)
  have hword := fun k hk => putCoefs_word (e.readArrived l) hgot hr first bank l (k := k) hk
  rw [hostRead_bankLast hwork hlast]
  generalize (e.readArrived l).putCoefs first bank got (sliceBytes l 0 r) = x at hframe hword ⊢
  have hdma : x.dma.work = .bank h addr first count bank asked got (r :: reads) :: rest := (congrArg (fun y => y.dma.work) hframe.1 :).trans hwork
  have hover := withWork_frame hframe rest
  have hopens : (x.withWork rest).opens = e.opens := (congrArg Engine.opens hover.1 :)
  have hhears' : (x.withWork rest).hears := onlyRegs_hears (e := e.withWork rest) hover hhears
  rw [setWork_over hdma]
  rw [← hopens] at hfound
  refine ⟨fun k hk => ?_, fun j hj => bankOver_rd hfound hhears' bank (by decide) stOk hj, (bankOver_answers hfound hhears' bank stOk).2,
    bankOver_books hfound hhears' bank stOk hover⟩
  rw [← hword k hk]
  exact bankOver_word hfound hhears' bank stOk hcount (by unfold coefPlace; omega)

omit hcount in
/-- A read that fails makes the named banks INVALID and completes LOAD_BANK with HOST_READ_ERROR. -/
theorem hostRead_bankError_completes (l : List Byte) (err : ReadErr) :
    (∀ j, j < count →
      (e.hostRead l (some err)).rd (if bank = 0 then R.SHD_CH_BANK.ASTATE (first + j) else R.SHD_CH_BANK.BSTATE (first + j)) = 0) ∧
    (e.hostRead l (some err)).answered h c.code stHostReadError ∧
    (e.withWork (afterFailure reads rest)).onlyBooks (e.hostRead l (some err)) ((R.QUE_LEVEL.LEVEL 97).off :: bankRegs first count) := by
  have hframe := e.readArrived_onlyRegs l
  rw [hostRead_bankError hwork]
  generalize e.readArrived l = x at hframe ⊢
  have hdma : x.dma.work = .bank h addr first count bank asked got (r :: reads) :: rest := (congrArg (fun y => y.dma.work) hframe.1 :).trans hwork
  have hover := withWork_frame hframe (afterFailure reads rest)
  have hopens : (x.withWork (afterFailure reads rest)).opens = e.opens := (congrArg Engine.opens hover.1 :)
  have hhears' : (x.withWork (afterFailure reads rest)).hears := onlyRegs_hears (e := e.withWork _) hover hhears
  rw [overWork_eq hdma]
  rw [← hopens] at hfound
  exact ⟨fun j hj => bankOver_rd hfound hhears' bank (by decide) stHostReadError hj, (bankOver_answers hfound hhears' bank stHostReadError).2,
    bankOver_books hfound hhears' bank stHostReadError hover⟩

end

/-! ### COMPARE (R284): what arrives is held, a read that fails ends it -/

/-- Other requests at the ports. -/
def withQdr (e : Engine) (q : QdrSt) : Engine := { e with qdr := q }

section
variable {e : Engine} {h addr sa len asked got r : Nat} {reads : List Nat} {fb : Option Nat} {n thr : Nat} {rest : List DmaWork}
  (hwork : e.dma.work = .compare h addr sa len asked got (r :: reads) fb n thr false :: rest)
include hwork

theorem readArrived_work (l : List Byte) : (e.readArrived l).dma.work = .compare h addr sa len asked got (r :: reads) fb n thr false :: rest := by
  rw [readArrived_dma, hwork]

theorem hostRead_compare (l : List Byte) : e.hostRead l none =
    ((e.readArrived l).withWork (.compare h addr sa len asked (got + r) reads fb n thr false :: rest)).raiseRange false 1 (sa + got) r []
      (.compare h sa got (sliceBytes l 0 r)) := by
  rw [← show _ = (e.readArrived l).withWork _ from setWork_head (readArrived_work hwork l) _]
  unfold hostRead
  dsimp only
  rw [show (e.passes 97 (beats l.length)).dma = e.dma from e.readArrived_dma l, hwork]
  rfl

/-- What arrives is asked for in the staging memory, to be compared with. -/
theorem hostRead_compare_raises (l : List Byte) :
    (e.hostRead l none).qdr = (e.raiseRange false 1 (sa + got) r [] (.compare h sa got (sliceBytes l 0 r))).qdr ∧
    ((e.withQdr (e.hostRead l none).qdr).withWork (.compare h addr sa len asked (got + r) reads fb n thr false :: rest)).onlyRegs (e.hostRead l none)
      ((R.QUE_LEVEL.LEVEL 97).off :: portLevels) := by
  have hframe := e.readArrived_onlyRegs l
  have hqdr : (e.readArrived l).qdr = e.qdr := (congrArg Engine.qdr hframe.1 :)
  have hmap : (e.readArrived l).rd R.QDR_STATUS.MAP = e.rd R.QDR_STATUS.MAP := onlyRegs_rd hframe (by decide)
  rw [hostRead_compare hwork]
  refine ⟨raiseRange_qdr_congr
    (x := (e.readArrived l).withWork (.compare h addr sa len asked (got + r) reads fb n thr false :: rest)) hqdr hmap .., ?_⟩
  have hraise := raiseRange_onlyPorts ((e.readArrived l).withWork (.compare h addr sa len asked (got + r) reads fb n thr false :: rest)) false 1 (sa + got) r []
    (.compare h sa got (sliceBytes l 0 r))
  generalize ((e.readArrived l).withWork (.compare h addr sa len asked (got + r) reads fb n thr false :: rest)).raiseRange false 1 (sa + got) r []
    (.compare h sa got (sliceBytes l 0 r)) = t at hraise ⊢
  have hbefore := onlyRegs_map (f := fun y => (y.withQdr t.qdr).withWork (.compare h addr sa len asked (got + r) reads fb n thr false :: rest)) hframe
    fun _ _ => rfl
  exact onlyRegs_append hbefore hraise

theorem hostRead_compareError (l : List Byte) (err : ReadErr) : e.hostRead l (some err) =
    ((e.readArrived l).withWork (.compare h addr sa len asked got reads fb n thr true :: rest)).compareOver := by
  rw [← show _ = (e.readArrived l).withWork _ from setWork_head (readArrived_work hwork l) _]
  unfold hostRead
  dsimp only
  rw [show (e.passes 97 (beats l.length)).dma = e.dma from e.readArrived_dma l, hwork]
  rfl

/-- With bytes got but not yet compared, a COMPARE whose read fails goes on. -/
theorem hostRead_compareError_waits (hthr : thr ≠ got) (l : List Byte) (err : ReadErr) :
    (e.withWork (.compare h addr sa len asked got reads fb n thr true :: rest)).onlyRegs (e.hostRead l (some err)) [(R.QUE_LEVEL.LEVEL 97).off] := by
  have hover : ((e.readArrived l).withWork (.compare h addr sa len asked got reads fb n thr true :: rest)).compareOver =
      (e.readArrived l).withWork (.compare h addr sa len asked got reads fb n thr true :: rest) := by
    simp [compareOver, withWork, hthr]
  rw [hostRead_compareError hwork, hover]
  exact withWork_frame (e.readArrived_onlyRegs l) _

/-- With every byte it got compared, a COMPARE whose read fails ends with HOST_READ_ERROR. -/
theorem hostRead_compareError_ends (hthr : thr = got) {c : OpenCmd} (hfound : (e.opens.find? fun o => o.hseq == h && o.wait != Wait.built) = some c)
    (hhears : e.hears) (l : List Byte) (err : ReadErr) : (e.hostRead l (some err)).answered h c.code stHostReadError ∧
    (e.hostRead l (some err)).toldBytes [(24, 8, c.tag), (32, 1, c.code), (40, 4, fb.getD 0xFFFFFFFF), (44, 4, n)] ∧
    (e.withWork (afterFailure reads rest)).onlyBooks (e.hostRead l (some err)) [(R.QUE_LEVEL.LEVEL 97).off] := by
  have hframe := withWork_frame (e.readArrived_onlyRegs l) (afterFailure reads rest)
  have hopens : ((e.readArrived l).withWork (afterFailure reads rest)).opens = e.opens := e.readArrived_opens l
  have hhears' : ((e.readArrived l).withWork (afterFailure reads rest)).hears := onlyRegs_hears (e := e.withWork _) hframe hhears
  have hover : ((e.readArrived l).withWork (.compare h addr sa len asked got reads fb n thr true :: rest)).compareOver =
      ((e.readArrived l).withWork (afterFailure reads rest)).finishHseq h stHostReadError (compareResult fb n) := by
    rw [compareOver]
    dsimp only [withWork, List.head?_cons]
    rw [if_pos ⟨rfl, hthr⟩]
    exact congrArg (fun y : Engine => y.finishHseq h stHostReadError (compareResult fb n)) (overWork_eq (e := (e.readArrived l).withWork _) rfl reads)
  rw [hostRead_compareError hwork, hover]
  obtain ⟨hanswered, hbytes, hbooks⟩ := finishHseq_answers (hopens ▸ hfound) hhears'.1.1 hhears'.1.2 stHostReadError (compareResult fb n)
  exact ⟨hanswered, hbytes, onlyBooks_trans (onlyBooks_of_onlyRegs hframe) (onlyBooks_mono hbooks (by simp))⟩

end

/-! ### A completion of no effect -/

theorem hostRead_idle {e : Engine} (hwork : e.dma.work = []) (l : List Byte) (err : Option ReadErr) : e.hostRead l err = e.readArrived l := by
  unfold hostRead
  dsimp only
  rw [show (e.passes 97 (beats l.length)).dma = e.dma from e.readArrived_dma l, hwork]
  rfl

theorem hostRead_spent {e : Engine} {k : Nat} {rest : List DmaWork} (hwork : e.dma.work = .spent k :: rest) (l : List Byte) :
    e.hostRead l none = (e.readArrived l).withWork (if k ≤ 1 then rest else .spent (k - 1) :: rest) := by
  have harrived : (e.readArrived l).dma.work = .spent k :: rest := by rw [readArrived_dma, hwork]
  have hset : (e.readArrived l).setWork (if k ≤ 1 then none else some (.spent (k - 1))) =
      (e.readArrived l).withWork (if k ≤ 1 then rest else .spent (k - 1) :: rest) := by
    split
    · exact setWork_over harrived
    · exact setWork_head harrived _
  rw [← hset]
  unfold hostRead
  dsimp only
  rw [show (e.passes 97 (beats l.length)).dma = e.dma from e.readArrived_dma l, hwork]
  rfl

/-- An error noted on the link alone beside the registers. -/
theorem noteAer_onlyRegs {e x t : Engine} {offs : List Nat} (hframe : e.onlyRegs x offs) {k : AerKind} (ht : t = x.noteAer k none) :
    (e.withLink { e.link with aer := e.link.aer ++ [k], aerCor := t.link.aerCor, aerUnc := t.link.aerUnc }).onlyRegs t offs := by
  have hlink : x.link = e.link := (congrArg Engine.link hframe.1 :)
  have hshape := noteAer_eq x k
  rw [← ht, hlink] at hshape
  have hmap := onlyRegs_map hframe (f := fun y => y.withLink { e.link with aer := e.link.aer ++ [k], aerCor := t.link.aerCor, aerUnc := t.link.aerUnc })
    fun _ _ => rfl
  rw [← hshape] at hmap
  exact hmap

end Engine
end Sys2Proof.Machine
end

section
/-!
PROOFS. A burst of a COMPARE goes through at its port (R199, R284).
-/

namespace Sys2Proof.Machine

namespace Engine

/-! ### Bytes compared (R284) -/

/-- The places at which bytes differ from the staging bytes. -/
abbrev mismatches (m : Staging) (sa off : Nat) (l : List Byte) : List Nat :=
  (upTo l.length).filter fun j => decide (l.getD j 0 ≠ m.byte (sa + off + j))

/-- The first mismatch of the range. -/
abbrev firstMismatch (m : Staging) (sa off : Nat) (l : List Byte) (fb : Option Nat) : Option Nat :=
  fb.or ((mismatches m sa off l).head?.map fun j => off + j)

theorem mismatches_cons (m : Staging) (sa off : Nat) (b : Byte) (l : List Byte) : mismatches m sa off (b :: l) =
    if b ≠ m.byte (sa + off) then 0 :: (mismatches m sa (off + 1) l).map (· + 1) else (mismatches m sa (off + 1) l).map (· + 1) := by
  have hrest : ((List.range l.length).map Nat.succ).filter (fun j => decide ((b :: l).getD j 0 ≠ m.byte (sa + off + j))) =
      (mismatches m sa (off + 1) l).map (· + 1) := by
    rw [List.filter_map]
    refine congrArg (fun p => ((List.range l.length).filter p).map (· + 1)) (funext fun j => ?_)
    have hplace : sa + off + (j + 1) = sa + (off + 1) + j := by omega
    rw [Function.comp_apply, Nat.succ_eq_add_one, hplace, List.getD_cons_succ]
  unfold mismatches upTo at *
  rw [List.length_cons, List.range_succ_eq_map, List.filter_cons, hrest]
  simp

theorem compareBytes_cons (m : Staging) (sa off : Nat) (b : Byte) (t : List Byte) (fb : Option Nat) (n : Nat) :
    compareBytes m sa off (b :: t) (fb, n) = compareBytes m sa (off + 1) t
      (if (m.isBad (sa + off) || decide (b ≠ m.byte (sa + off))) && fb.all (fun x => decide (off < x)) then some off else fb,
        n + b2n (m.isBad (sa + off) || decide (b ≠ m.byte (sa + off)))) := by
  cases fb <;> rfl

/-- Where no byte has bad parity and an earlier mismatch is known to come first, the first mismatch and their number are found. -/
theorem compareBytes_eq (m : Staging) (sa : Nat) : ∀ (l : List Byte) (off : Nat) (fb : Option Nat) (n : Nat), fb.all (fun x => decide (x ≤ off)) = true →
    (∀ j, j < l.length → m.isBad (sa + off + j) = false) →
    compareBytes m sa off l (fb, n) = (firstMismatch m sa off l fb, n + (mismatches m sa off l).length) := by
  intro l
  induction l with
  | nil => intro off fb n _ _; simp [compareBytes, firstMismatch, mismatches, upTo]
  | cons b t ih =>
    intro off fb n hfirst hgood
    have hbad : m.isBad (sa + off) = false := hgood 0 (by simp)
    have hrest : ∀ j, j < t.length → m.isBad (sa + (off + 1) + j) = false := fun j hj => by
      have h := hgood (j + 1) (by simpa using hj)
      rwa [show sa + off + (j + 1) = sa + (off + 1) + j by omega] at h
    have hlater : fb.all (fun x => decide (x ≤ off + 1)) = true := by
      cases fb with
      | none => rfl
      | some x =>
        have hx : x ≤ off := by simpa using hfirst
        simpa using Nat.le_succ_of_le hx
    rw [compareBytes_cons, hbad, Bool.false_or]
    unfold firstMismatch
    rw [mismatches_cons]
    by_cases hb : b = m.byte (sa + off)
    case pos =>
      rw [decide_eq_false (not_not.mpr hb), if_neg (not_not.mpr hb), Bool.false_and, if_neg Bool.false_ne_true, ih _ _ _ hlater hrest,
        List.head?_map, Option.map_map, List.length_map]
      simp [firstMismatch, b2n, Function.comp_def, Nat.add_assoc, Nat.add_comm 1]
    case neg =>
      rw [decide_eq_true hb, if_pos hb, Bool.true_and]
      cases fb with
      | none =>
        rw [Option.all_none, if_pos rfl, ih _ _ _ (by simp) hrest]
        simp [firstMismatch, b2n, Nat.add_assoc, Nat.add_comm 1]
      | some x =>
        have hx : ¬ off < x := by simpa using hfirst
        rw [Option.all_some, decide_eq_false hx, if_neg Bool.false_ne_true, ih _ _ _ hlater hrest]
        simp [firstMismatch, b2n, Nat.add_assoc, Nat.add_comm 1]

/-! ### A slot of the arbiter -/

/-- Other arbiters. -/
def withPorts (e : Engine) (l : List PortSt) : Engine := { e with qdr := { e.qdr with ports := l } }

/-- Nothing differs but the arbiters, and of port `p` neither the requests nor how far they have come. -/
def onlyTurn (p : Nat) (e x : Engine) : Prop :=
  x = e.withPorts x.qdr.ports ∧ (x.port p).bursts = (e.port p).bursts ∧ (x.port p).txns = (e.port p).txns

theorem onlyTurn_refl (p : Nat) (e : Engine) : onlyTurn p e e := ⟨rfl, rfl, rfl⟩

theorem onlyTurn_trans {p : Nat} {e x y : Engine} (h : onlyTurn p e x) (k : onlyTurn p x y) : onlyTurn p e y := by
  obtain ⟨h1, h2, h3⟩ := h
  obtain ⟨k1, k2, k3⟩ := k
  refine ⟨k1.trans ?_, k2.trans h2, k3.trans h3⟩
  rw [h1]
  rfl

theorem onlyTurn_modPort (p : Nat) (e : Engine) {f : PortSt → PortSt} (hb : ∀ a, (f a).bursts = a.bursts) (ht : ∀ a, (f a).txns = a.txns) :
    onlyTurn p e (e.modPort p f) := by
  have hport : (e.modPort p f).port p = f (e.port p) ∨ (e.modPort p f).port p = e.port p := by
    by_cases h : p < e.qdr.ports.length
    · exact Or.inl (getD_modAt_same h f PortSt.init)
    · refine Or.inr (congrArg (fun l : List PortSt => l.getD p PortSt.init) ?_)
      exact List.modify_eq_self (by omega)
  refine ⟨rfl, ?_, ?_⟩
  · rcases hport with h | h <;> rw [h]
    exact hb _
  · rcases hport with h | h <;> rw [h]
    exact ht _

theorem onlyTurn_tallyWaits (p : Nat) (e : Engine) (served : Option Nat) : onlyTurn p e (e.tallyWaits p served) := by
  unfold tallyWaits
  generalize upTo 4 = l
  induction l generalizing e with
  | nil => exact onlyTurn_refl p e
  | cons c t ih =>
    have hstep (i : Nat) (f : PortCount → PortCount) : onlyTurn p e (e.modLive p i f) := onlyTurn_modPort p e (fun _ => rfl) fun _ => rfl
    refine onlyTurn_trans ?_ (ih _)
    dsimp only
    split
    · exact hstep _ _
    · split
      · exact hstep _ _
      · exact hstep _ _

theorem onlyTurn_addTenure (p : Nat) (e : Engine) (code : Nat) : onlyTurn p e (e.addTenure p code) :=
  onlyTurn_modPort p e (fun _ => rfl) fun _ => rfl

/-- Of the requests raised, one is at the highest input. -/
theorem highest_raised {e : Engine} {p c : Nat} (hc : c < 4) (hin : e.inputOf p c < 4) (hraised : raisedAt (e.port p) c = true) :
    ∃ d, e.highest p = some d ∧ d < 4 ∧ raisedAt (e.port p) d = true := by
  have hsome : (e.highest p).isSome = true := by
    unfold highest
    refine List.findSome?_isSome_iff.mpr ⟨e.inputOf p c, ?_, List.find?_isSome.mpr ⟨c, List.mem_range.mpr hc, by simp [hraised]⟩⟩
    simp only [List.mem_cons, List.not_mem_nil, or_false]
    omega
  obtain ⟨d, hd⟩ := Option.isSome_iff_exists.mp hsome
  unfold highest at hd
  obtain ⟨i, -, hi⟩ := List.exists_of_findSome?_eq_some hd
  have hp := List.find?_some hi
  simp only [Bool.and_eq_true] at hp
  exact ⟨d, hd, List.mem_range.mp (List.mem_of_find?_eq_some hi), hp.2⟩

/-- A read of 32 good bytes for a COMPARE does nothing else (R195). -/
theorem transact_compare (e : Engine) {m : Staging} {p : Nat} (hp : 8 ≤ p) (code : Nat) {b : Burst} {h sa off : Nat} {l : List Byte}
    (hwhat : b.what = .compare h sa off l) {t : Nat} (hgood : ∀ j, j < 32 → m.isBad (b.addr + 32 * t + j) = false) :
    e.transact m p code b t [] = (e, m) := by
  have hworse : ((upTo 32).filter fun i => m.isBad (b.addr + 32 * t + i)) = [] :=
    List.filter_eq_nil_iff.mpr fun i hi => by simp [hgood i (List.mem_range.mp hi)]
  unfold transact
  rw [if_neg (by omega), hwhat]
  simp only [List.filter_nil, List.foldl_nil, hworse, ne_eq, not_true_eq_false, and_false, decide_false, if_neg Bool.false_ne_true]

/-- The last transaction of a burst of a COMPARE: its request is lowered and what it covers is compared. -/
theorem issueTxn_compare {x : Engine} {m : Staging} {p c : Nat} (hp : 8 ≤ p) {b : Burst} {more : List Burst} {h sa off : Nat} {l : List Byte}
    (hburst : (x.port p).bursts.getD c [] = b :: more) (hlast : (x.port p).txns.getD c 0 + 1 = b.txns) (hwhat : b.what = .compare h sa off l)
    (hgood : ∀ j, j < 32 → m.isBad (b.addr + 32 * (x.port p).txns.getD c 0 + j) = false) :
    ∃ L, x.issueTxn m p c [] = ((x.withPorts L).compareBurst m b h sa off l, m) := by
  unfold issueTxn
  dsimp only
  rw [hburst]
  dsimp only [List.head?_cons]
  rw [transact_compare x hp c hwhat hgood, if_pos (by omega), hwhat]
  exact ⟨_, rfl⟩

section
variable {e : Engine} {m : Staging} {p : Nat} (hp : 8 ≤ p) (hlive : e.stagingLive = true) (hover : ∀ q : Fin 16, e.overTenure q.val = none)
  (hin : e.portIn p = true) (hnative : e.slotMode p = false) (hbursts : (e.port p).bursts.length = 4) (hinputs : ∀ c : Fin 4, e.inputOf p c.val < 4)
  (hgranted : (e.port p).granted = true) (htenure : 0 < (e.port p).tenures.getD (e.port p).owner 0) {b : Burst} {more : List Burst}
  (hburst : (e.port p).bursts.getD (e.port p).owner [] = b :: more)
  (hrank : ∀ c : Fin 4, raisedAt (e.port p) c.val = true → e.inputOf p c.val ≤ e.inputOf p (e.port p).owner)
  (hlast : (e.port p).txns.getD (e.port p).owner 0 + 1 = b.txns) {h sa off : Nat} {l : List Byte} (hwhat : b.what = .compare h sa off l)
  (hgood : ∀ j : Fin 32, m.isBad (b.addr + 32 * (e.port p).txns.getD (e.port p).owner 0 + j.val) = false)
include hp hbursts hinputs hgranted htenure hburst hrank hlast hwhat hgood

/-- The requester that holds a port at the highest input issues the last transaction of its burst. -/
theorem nativeSlot_compare : ∃ L, e.nativeSlot m p [] = ((e.withPorts L).compareBurst m b h sa off l, m) := by
  have howner : (e.port p).owner < 4 := by
    refine Nat.lt_of_not_le fun hle => ?_
    rw [List.getD_eq_getElem?_getD, List.getElem?_eq_none (by omega)] at hburst
    cases hburst
  have hraised : raisedAt (e.port p) (e.port p).owner = true := by rw [raisedAt, hburst]; rfl
  obtain ⟨d, hhighest, hd, hdraised⟩ := highest_raised howner (hinputs ⟨_, howner⟩) hraised
  have hkeeps : ¬ e.inputOf p (e.port p).owner < e.inputOf p d := Nat.not_lt.mpr (hrank ⟨d, hd⟩ hdraised)
  obtain ⟨hports, hsameBursts, hsameTxns⟩ := onlyTurn_trans (onlyTurn_addTenure p e (e.port p).owner)
    (onlyTurn_tallyWaits p (e.addTenure p (e.port p).owner) (some (e.port p).owner))
  unfold nativeSlot
  dsimp only
  rw [hhighest]
  dsimp only
  rw [hgranted, hraised, decide_eq_true htenure, Bool.and_self, Bool.and_self, if_pos rfl, if_neg hkeeps]
  generalize (e.addTenure p (e.port p).owner).tallyWaits p (some (e.port p).owner) = x at *
  rw [← hsameBursts] at hburst
  rw [← hsameTxns] at hlast hgood
  obtain ⟨L, hL⟩ := issueTxn_compare hp hburst hlast hwhat fun j hj => hgood ⟨j, hj⟩
  refine ⟨L, hL.trans ?_⟩
  rw [hports]
  rfl

include hlive hover hin hnative

theorem arbSlot_compare : ∃ L, e.arbSlot m p [] = (((e.withPorts L).compareBurst m b h sa off l).showPort p, m) := by
  have hnone : ((upTo 16).any fun q => (e.overTenure q).isSome) = false :=
    List.any_eq_false.mpr fun q hq => by simp [hover ⟨q, List.mem_range.mp hq⟩]
  obtain ⟨L, hL⟩ := nativeSlot_compare hp hbursts hinputs hgranted htenure hburst hrank hlast hwhat hgood
  refine ⟨L, ?_⟩
  unfold arbSlot
  rw [hlive, hin, hnone, hnative]
  rw [if_neg (by decide), if_neg Bool.false_ne_true, hL]

end

/-! ### What the burst covers is compared (R284) -/

section
variable {e : Engine} {h addr sa len asked got : Nat} {reads : List Nat} {fb : Option Nat} {n thr : Nat} {rest : List DmaWork}
  (hwork : e.dma.work = .compare h addr sa len asked got reads fb n thr false :: rest) {m : Staging} {b : Burst} {off : Nat} {l : List Byte}
  (hlow : b.addr ≤ sa + off) (hhigh : sa + off + l.length ≤ b.addr + 32 * b.txns) (hgood : ∀ j, j < l.length → m.isBad (sa + off + j) = false)
  (hfirst : fb.all (fun x => decide (x ≤ off)) = true)
include hwork hlow hhigh hgood hfirst

/-- A burst that covers all the bytes held against it has them compared. -/
theorem compareBurst_eq : e.compareBurst m b h sa off l = (e.withWork
    (.compare h addr sa len asked got reads (firstMismatch m sa off l fb) (n + (mismatches m sa off l).length) (thr + l.length) false :: rest)).compareOver := by
  have hlo : max b.addr (sa + off) = sa + off := by omega
  have hhi : min (b.addr + 32 * b.txns) (sa + off + l.length) = sa + off + l.length := by omega
  have hslice : sliceBytes l (sa + off - (sa + off)) (sa + off + l.length - (sa + off)) = l := by
    rw [Nat.sub_self, Nat.add_sub_cancel_left]
    unfold sliceBytes
    rw [List.drop_zero, List.take_left']
    rfl
  have hoff : sa + off - sa = off := by omega
  unfold compareBurst
  rw [hwork]
  dsimp only [List.head?_cons]
  rw [if_pos rfl, hlo, hhi, hslice, hoff, compareBytes_eq m sa l off fb n hfirst hgood]
  exact congrArg compareOver (setWork_head hwork _)

/-- Bytes of the range are still to be compared: the COMPARE goes on. -/
theorem compareBurst_goesOn (hopen : thr + l.length < len) : e.compareBurst m b h sa off l = e.withWork
    (.compare h addr sa len asked got reads (firstMismatch m sa off l fb) (n + (mismatches m sa off l).length) (thr + l.length) false :: rest) := by
  rw [compareBurst_eq hwork hlow hhigh hgood hfirst, compareOver]
  dsimp only [withWork, List.head?_cons]
  rw [if_neg (by simp), if_neg (by simp; omega)]

/-- The whole range is compared: the COMPARE completes. -/
theorem compareBurst_ends (hend : thr + l.length = len) : e.compareBurst m b h sa off l =
    (e.withWork rest).finishHseq h (if n + (mismatches m sa off l).length = 0 then stOk else stCompareMismatch)
      (compareResult (firstMismatch m sa off l fb) (n + (mismatches m sa off l).length)) := by
  rw [compareBurst_eq hwork hlow hhigh hgood hfirst, compareOver]
  dsimp only [withWork, List.head?_cons]
  rw [if_neg (by simp), if_pos ⟨rfl, hend⟩]
  rfl

end

/-! ### The queue of a port shows what it holds -/

theorem showPort_onlyRegs (e : Engine) (p : Nat) : e.onlyRegs (e.showPort p) [(R.QUE_LEVEL.LEVEL (80 + p)).off] := level_onlyRegs e (80 + p) _

theorem showPort_ports {e : Engine} {L : List PortSt} (p : Nat) (h : e.qdr.ports = L) : (e.showPort p).qdr.ports = L :=
  (congrArg (fun y => y.qdr.ports) (e.showPort_onlyRegs p).1 :).trans h

theorem showPort_evt (e : Engine) (p : Nat) : (e.showPort p).evt = e.evt := (congrArg Engine.evt (e.showPort_onlyRegs p).1 :)

end Engine

theorem exec_hostRead_ok (l : List Byte) (s : State) : exec (.hostReadCompletion l none) s = .next (s.onEng fun e => e.hostRead l none) := rfl

theorem exec_hostRead_error (l : List Byte) (err : ReadErr) (s : State) :
    exec (.hostReadCompletion l (some err)) s = .next (s.onEng fun e => (e.hostRead l (some err)).noteAer (.completion err) none) := rfl

theorem exec_arbGrant_goes {p : PortIx} {s : State} {x : Engine} (h : s.eng.arbSlot s.stg p.val [] = (x, s.stg)) :
    exec (.arbGrant p []) s = .next { s with eng := x } := by
  change execArbGrant p [] s = _
  unfold execArbGrant State.onMem
  beta_reduce
  rw [h]

open Engine in
/-- Settles O42: what a completion brings is stored word by word, or held against the staging bytes when its burst is through; an error ends the command. -/
theorem hostReads : Obligations.HostReads := by
  unfold Obligations.HostReads
  refine ⟨?_, ?_, ?_, ?_, ?_, ?_, ?_, ?_, ?_, ?_, ?_, ?_⟩
  case refine_1 =>
    intro h addr first count bank asked got r reads rest l s hwork _ _ hr hgot hpart
    exact ⟨_, exec_hostRead_ok l s, s.onEng_engineOnly _, hostRead_bankPart_stores hwork hgot hr (Nat.ne_of_lt hpart) l⟩
  case refine_2 =>
    intro h addr first count bank asked got r reads rest l c s hwork _ hcount hr hgot hlast hfound hhears
    exact ⟨_, exec_hostRead_ok l s, s.onEng_engineOnly _, hostRead_bankLast_completes hwork hcount hfound hhears hgot hr hlast l⟩
  case refine_3 =>
    intro h addr first count bank asked got r reads rest l c err s hwork _ _ hfound hhears
    obtain ⟨hbanks, hanswered, hbooks⟩ := hostRead_bankError_completes hwork hfound hhears l err
    exact ⟨_, exec_hostRead_error l err s, s.onEng_engineOnly _, hbanks, hanswered, noteAer_books hbooks rfl⟩
  case refine_4 =>
    intro h addr sa len asked got r reads fb n thr rest l s hwork
    exact ⟨_, exec_hostRead_ok l s, s.onEng_engineOnly _, hostRead_compare_raises hwork l⟩
  case refine_5 =>
    intro p b more h addr sa off len asked got reads fb n thr rest l s hp hlive hover hin hnative _ hbursts _ _ hinputs _ hgranted htenure hburst hrank hlast
      hwhat hlow hhigh hlength hgood hgoodTxn hwork hfirst hopen
    obtain ⟨L, hslot⟩ := arbSlot_compare hp hlive hover hin hnative hbursts hinputs hgranted htenure hburst hrank hlast hwhat hgoodTxn
    have hbytes (j : Nat) (hj : j < l.length) : s.stg.isBad (sa + off + j) = false :=
      (hgood ⟨j, Nat.lt_of_lt_of_le hj hlength⟩).resolve_left (Nat.not_le.mpr hj)
    rw [compareBurst_goesOn (e := s.eng.withPorts L) hwork hlow hhigh hbytes hfirst hopen] at hslot
    refine ⟨_, exec_arbGrant_goes hslot, ⟨rfl, rfl, rfl⟩, ?_⟩
    dsimp only
    rw [showPort_ports p.val rfl]
    exact showPort_onlyRegs _ p.val
  case refine_6 =>
    intro p b more h addr sa off len asked got reads fb n thr rest l c s hp hlive hover hin hnative _ hbursts _ _ hinputs _ hgranted htenure hburst hrank
      hlast hwhat hlow hhigh hlength hgood hgoodTxn hwork hfirst hend hfound hhears
    obtain ⟨L, hslot⟩ := arbSlot_compare hp hlive hover hin hnative hbursts hinputs hgranted htenure hburst hrank hlast hwhat hgoodTxn
    have hbytes (j : Nat) (hj : j < l.length) : s.stg.isBad (sa + off + j) = false :=
      (hgood ⟨j, Nat.lt_of_lt_of_le hj hlength⟩).resolve_left (Nat.not_le.mpr hj)
    rw [compareBurst_ends (e := s.eng.withPorts L) hwork hlow hhigh hbytes hfirst hend] at hslot
    obtain ⟨hanswered, htold, hbooks⟩ := finishHseq_answers (e := (s.eng.withPorts L).withWork rest) hfound hhears.1.1 hhears.1.2
      (if n + (mismatches s.stg sa off l).length = 0 then stOk else stCompareMismatch)
      (compareResult (firstMismatch s.stg sa off l fb) (n + (mismatches s.stg sa off l).length))
    generalize ((s.eng.withPorts L).withWork rest).finishHseq h (if n + (mismatches s.stg sa off l).length = 0 then stOk else stCompareMismatch)
      (compareResult (firstMismatch s.stg sa off l fb) (n + (mismatches s.stg sa off l).length)) = x at hslot hanswered htold hbooks
    refine ⟨_, exec_arbGrant_goes hslot, ⟨rfl, rfl, rfl⟩, ?_, ?_, ?_⟩
    · dsimp only [Engine.answered]
      rw [showPort_evt]
      exact hanswered
    · dsimp only [Engine.toldBytes]
      rw [showPort_evt]
      exact htold
    · have hports : x.qdr.ports = L := (congrArg (fun y => y.qdr.ports) hbooks.1 :)
      dsimp only
      rw [showPort_ports p.val hports]
      exact onlyBooks_trans (onlyBooks_mono hbooks (by simp)) (onlyBooks_of_onlyRegs (showPort_onlyRegs x p.val))
  case refine_7 =>
    intro h addr sa len asked got r reads fb n thr rest l c err s hwork hthr hfound hhears
    obtain ⟨hanswered, hbytes, hbooks⟩ := hostRead_compareError_ends hwork hthr hfound hhears l err
    exact ⟨_, exec_hostRead_error l err s, s.onEng_engineOnly _, hanswered, hbytes, noteAer_books hbooks rfl⟩
  case refine_8 =>
    intro h addr sa len asked got r reads fb n thr rest l err s hwork hthr
    exact ⟨_, exec_hostRead_error l err s, s.onEng_engineOnly _, noteAer_onlyRegs (hostRead_compareError_waits hwork hthr l err) rfl⟩
  case refine_9 =>
    intro l s hwork
    refine ⟨_, exec_hostRead_ok l s, s.onEng_engineOnly _, ?_⟩
    rw [State.onEng_eng, hostRead_idle hwork]
    exact s.eng.readArrived_onlyRegs l
  case refine_10 =>
    intro l err s hwork
    have hframe : s.eng.onlyRegs (s.eng.hostRead l (some err)) [(R.QUE_LEVEL.LEVEL 97).off] := by
      rw [hostRead_idle hwork]
      exact s.eng.readArrived_onlyRegs l
    exact ⟨_, exec_hostRead_error l err s, s.onEng_engineOnly _, noteAer_onlyRegs hframe rfl⟩
  case refine_11 =>
    intro l k rest s hwork hk
    refine ⟨_, exec_hostRead_ok l s, s.onEng_engineOnly _, ?_⟩
    rw [State.onEng_eng, hostRead_spent hwork, if_neg (by omega)]
    exact withWork_frame (s.eng.readArrived_onlyRegs l) _
  case refine_12 =>
    intro l rest s hwork
    refine ⟨_, exec_hostRead_ok l s, s.onEng_engineOnly _, ?_⟩
    rw [State.onEng_eng, hostRead_spent hwork, if_pos (Nat.le_refl 1)]
    exact withWork_frame (s.eng.readArrived_onlyRegs l) _

end Sys2Proof.Machine
end
